-- ==== Sys2Proof/Word.lean ====
section
/-! DEFINITION. The word and byte types of the KX1024 and the type of a register field. A bus word is 32 bits and a byte is
8 bits ("Units and numbers" of the scope chapter). -/

namespace Sys2Proof

/-- A bus word: 32 bits. -/
abbrev Word := BitVec 32

/-- A byte: 8 bits. -/
abbrev Byte := BitVec 8

/-- A 64-bit value held in two words (mesh time, RTC_T, CALOFS, DEVUID). -/
abbrev Word64 := BitVec 64

/-- A complex sample: its in-phase and quadrature values. -/
abbrev Cx := Int × Int

/-- A register field: bits `[hi:lo]`, as the field tables write them. -/
structure Fld where
  hi : Nat
  lo : Nat
  deriving DecidableEq, Repr

/-- Width of a field in bits. -/
def Fld.width (f : Fld) : Nat := f.hi + 1 - f.lo

end Sys2Proof
end

