-- ==== Sys2Proof/Syntax.lean ====
section
/-! DEFINITION. The commands of the KX1024: one constructor per row of the table, with its operands; first those a core gives to a block that may hold them
(R371), then the others, each in the order of the table. -/

namespace Sys2Proof


/-- The 48-bit values of a general timer that a _HI write commits (R350). -/
inductive TmrVal where
  | cnt | per | cmp0 | cmp1
  deriving DecidableEq, Repr

/-- What a furrow takes at one symbol (R131, R135, R136, R138): `x` are its chips with the furrow's timing and frequency taken out, `marked` says that it
holds a blanked sample; a furrow that replays a recording reads both there. -/
inductive Meas where
  /-- a preamble symbol, and the frequency offset and the drift it shows -/
  | preamble (x : List Cx) (marked : Bool) (freq : BitVec 24) (drift : BitVec 8)
  /-- a sync symbol; RSSI, SNR and, of a replay, the sample of the recording at which t_sync lies count at the second one -/
  | sync (x : List Cx) (marked : Bool) (rssi snr : BitVec 16) (pos : Nat) (freq : BitVec 24) (drift : BitVec 8)
  /-- the down-chirps, and FOFF -/
  | down (x : List Cx) (marked : Bool) (foff : BitVec 24) (drift : BitVec 8)
  /-- a header or payload symbol: the size of the LLR of each bit, most significant first, at the noise estimate in force -/
  | data (size : List Byte) (x : List Cx) (marked : Bool) (freq : BitVec 24) (drift : BitVec 8)
  deriving DecidableEq, Repr

/-- What an MC demodulator takes (R142 to R144). -/
inductive McMeas where
  /-- what TRAIN is decided on at t_sync, with the measures latched there: the samples of the two training symbols and of the first header symbol, without
  their prefixes -/
  | train (h : List Cx) (rssi snr : BitVec 16) (foff : BitVec 24) (r1 r2 : List Cx)
  /-- a header or data symbol without its prefix; blanked; the size of the drift it shows -/
  | data (r : List Cx) (marked : Bool) (drift : BitVec 8)
  deriving DecidableEq, Repr

/-- Where a field line lies at a declaration (R30): at VIH or above, at VIL or below, or between. -/
inductive LineV where
  | high | low | mid
  deriving DecidableEq, Repr

/-- How an I²C command ends on the bus (R435, R436). -/
inductive I2cEnd where
  | ok | nackAddr | nackData | arbLost | sdaLow
  deriving DecidableEq, Repr

/-- An exception that a reserved opcode raises (R285): code, TRAP number, and what EADDR and ESYN take where the code writes them. -/
structure ReservedExc where
  code  : Nat
  trap  : Byte
  eaddr : Word
  esyn  : Word
  deriving DecidableEq, Repr

/-- The commands: one constructor per row of the opcode table. -/
inductive Instr where
  /-- FLN_CFG_WRITE (R28). Core `c` writes `v`. -/
  | flnCfgWrite (c : Fin 7) (n : Fin 8) (v : Word)
  /-- FLT_CLEAR (R31). Core `c` writes `v` to FLN_FLT. -/
  | fltClear (c : Fin 7) (v : Word)
  /-- SOW_STAGE (R75). Core `c` writes it to SOW_CMD, with the key. -/
  | sowStage (c : Fin 7)
  /-- SOW_APPLY (R76). Core `c` writes it to SOW_CMD, with the key. -/
  | sowApply (c : Fin 7)
  /-- SOW_ARM (R76). Core `c` writes it to SOW_CMD, with the key. -/
  | sowArm (c : Fin 7)
  /-- SOW_CANCEL (R78). Core `c` writes it to SOW_CMD, with the key. -/
  | sowCancel (c : Fin 7)
  /-- FURROW_RELEASE (R139). Core `c` writes RELEASE to FUR_CTL[f]. -/
  | furrowRelease (c : Fin 7) (f : Fin 1024)
  /-- FURROW_ABORT (R137). Core `c` writes ABORT to FUR_CTL[f]. -/
  | furrowAbort (c : Fin 7) (f : Fin 1024)
  /-- MCX_RELEASE (R144). Core `c` writes `v` with RELEASE to MCX_CTL[m]. -/
  | mcxRelease (c : Fin 7) (m : Fin 2) (v : Word)
  /-- MCX_ABORT (R147). Core `c` writes `v` with ABORT to MCX_CTL[m]. -/
  | mcxAbort (c : Fin 7) (m : Fin 2) (v : Word)
  /-- MCX_ENABLE (R147). Core `c` writes `v`, with neither RELEASE nor ABORT, to MCX_CTL[m]. -/
  | mcxEnable (c : Fin 7) (m : Fin 2) (v : Word)
  /-- POOL_ON (R155). Core `c` writes ON = 1 to DEC_CTL. -/
  | poolOn (c : Fin 7)
  /-- POOL_OFF (R155). Core `c` writes ON = 0 to DEC_CTL. -/
  | poolOff (c : Fin 7)
  /-- RECORD_GIVE_BACK (R160). Core `c` writes `v` to DEC_FSFREE. -/
  | recordGiveBack (c : Fin 7) (v : Word)
  /-- SLOT_ABORT (R169). Core `c` writes `v` to UNW_ABORT. -/
  | slotAbort (c : Fin 7) (v : Word)
  /-- UNWIND_ON (R161). Core `c` writes ON = 1 to UNW_CTL. -/
  | unwindOn (c : Fin 7)
  /-- UNWIND_OFF (R169). Core `c` writes ON = 0 to UNW_CTL. -/
  | unwindOff (c : Fin 7)
  /-- TX_SUBMIT (R185). Core `c` writes `v` to LNK_TXSUB. -/
  | txSubmit (c : Fin 7) (v : Word)
  /-- QUEUE_ENQ (R190). Core `c` writes the operation for entry `i` to LNK_QOP. -/
  | queueEnq (c : Fin 7) (i : Fin 8192)
  /-- QUEUE_REPLACE (R190). Core `c` writes the operation for entry `i` to LNK_QOP. -/
  | queueReplace (c : Fin 7) (i : Fin 8192)
  /-- QUEUE_CANCEL (R190). Core `c` writes the operation for entry `i` to LNK_QOP. -/
  | queueCancel (c : Fin 7) (i : Fin 8192)
  /-- QUEUE_FLUSH (R190). Core `c` writes the operation for entry `i` to LNK_QOP. -/
  | queueFlush (c : Fin 7) (i : Fin 8192)
  /-- CHILD_TABLE_WRITE (R194). Core `c` writes `v` to word `w` of the entry at place `i` of the page shown. -/
  | childTableWrite (c : Fin 7) (i : Fin 2048) (w : Fin 8) (v : Word)
  /-- TXFCNT_WRITE (R195). K0 writes LNK_TXFCNT, ignored if below the present value. -/
  | txfcntWrite (c : Fin 7) (v : Word)
  /-- MESH_TIME_SET (R200). Core `c` writes `v` to FLD_CMD. -/
  | meshTimeSet (c : Fin 7) (v : Word)
  /-- ALARM_ARM (R205). Core `c` writes `v` to FLD_ALARMCTL. -/
  | alarmArm (c : Fin 7) (v : Word)
  /-- ORIGINATE (R213). Core `c` writes `v` to FLD_ORIG. -/
  | originate (c : Fin 7) (v : Word)
  /-- AES_JOB_SUBMIT (R236). Core `c` writes `v` to AES_SUB. -/
  | aesJobSubmit (c : Fin 7) (v : Word)
  /-- SHA_START (R240). SHA_CMD START takes a context for the writing core. -/
  | shaStart (c : Fin 7) (n : Fin 4)
  /-- SHA_UPDATE (R240). SHA_CMD UPDATE hashes SHA_LEN bytes from SHA_ADDR. -/
  | shaUpdate (c : Fin 7) (n : Fin 4)
  /-- SHA_FINAL (R240). SHA_CMD FINAL pads the message and produces the digest. -/
  | shaFinal (c : Fin 7) (n : Fin 4)
  /-- APPEND_SUBMIT (R250). Core `c` writes `v` to LGR_APPEND. -/
  | appendSubmit (c : Fin 7) (v : Word)
  /-- VERIFY_SUBMIT (R253). Core `c` writes `v` to LGR_VERIFY. -/
  | verifySubmit (c : Fin 7) (v : Word)
  /-- ARCHIVE_SUBMIT (R251). Core `c` writes `v` to LGR_ARCH. -/
  | archiveSubmit (c : Fin 7) (v : Word)
  /-- ORIGIN_WRITE (R249). Core `c` writes `v` to LGR_ORIGIN. -/
  | originWrite (c : Fin 7) (v : Word)
  /-- DIRECTORY_INSERT (R254). LGR_DIRCMD INSERT adds or updates a directory entry, evicting LRU. -/
  | directoryInsert (c : Fin 7)
  /-- DIRECTORY_REMOVE (R254). LGR_DIRCMD REMOVE frees the entry of a pair. -/
  | directoryRemove (c : Fin 7)
  /-- DIRECTORY_CLEAR (R254). LGR_DIRCMD CLEAR frees every directory entry. -/
  | directoryClear (c : Fin 7)
  /-- LEDGER_LOOKUP (R255). Core `c` writes `v` to LGR_LOOK_HI. -/
  | ledgerLookup (c : Fin 7) (v : Word)
  /-- FLASH_PROGRAM (R308). Core `c` writes it to FLC_CMD[b]. -/
  | flashProgram (c : Fin 7) (b : Fin 4)
  /-- FLASH_PROGBUF (R308). Core `c` writes it to FLC_CMD[b]. -/
  | flashProgbuf (c : Fin 7) (b : Fin 4)
  /-- FLASH_ERASE (R308). Core `c` writes it to FLC_CMD[b]. -/
  | flashErase (c : Fin 7) (b : Fin 4)
  /-- FLASH_MREAD (R308). Core `c` writes it to FLC_CMD[b]. -/
  | flashMread (c : Fin 7) (b : Fin 4)
  /-- FLASH_BLANK (R308). Core `c` writes it to FLC_CMD[b]. -/
  | flashBlank (c : Fin 7) (b : Fin 4)
  /-- FLASH_COLTEST (R319). Core `c` writes it to FLC_CMD[b]. -/
  | flashColtest (c : Fin 7) (b : Fin 4)
  /-- FLASH_COLREPAIR (R320). Core `c` writes it to FLC_CMD[b]. -/
  | flashColrepair (c : Fin 7) (b : Fin 4)
  /-- SAVECURVE (R386). CAL_CMD SAVECURVE stores RTC_CURVE. -/
  | savecurve (c : Fin 7)
  /-- SAVESYN (R386). CAL_CMD SAVESYN stores a chain's calibration store. -/
  | savesyn (c : Fin 7) (t : Fin 2)
  /-- RECAL (R389). CAL_CMD RECAL queues every VALID entry of a chain. -/
  | recal (c : Fin 7) (t : Fin 2)
  /-- CARRIER_ON (R392). Core `c` writes it to NFC_CMD. -/
  | carrierOn (c : Fin 7)
  /-- CARRIER_OFF (R392). Core `c` writes it to NFC_CMD. -/
  | carrierOff (c : Fin 7)
  /-- NFC_SEND (R391). Core `c` writes it to NFC_CMD. -/
  | nfcSend (c : Fin 7)
  /-- NFC_INVENTORY (R396). Core `c` writes it to NFC_CMD. -/
  | nfcInventory (c : Fin 7)
  /-- CRESP (R400). Core `c` writes it to NFC_CMD. -/
  | cresp (c : Fin 7)
  /-- CDROP (R400). Core `c` writes it to NFC_CMD. -/
  | cdrop (c : Fin 7)
  /-- TORN_WRITE (R404). Core `c` writes NFC_TORN, whatever the value. -/
  | tornWrite (c : Fin 7)
  /-- IMAGE_CHECK (R417). Core `c` writes it to SVC_CMD, with the key. -/
  | imageCheck (c : Fin 7)
  /-- ACTIVATION_ARM (R421). Core `c` writes it to SVC_CMD, with the key. -/
  | activationArm (c : Fin 7)
  /-- ACTIVATION_CANCEL (R424). Core `c` writes it to SVC_CMD, with the key. -/
  | activationCancel (c : Fin 7)
  /-- IMAGE_CONFIRM (R423). Core `c` writes it to SVC_CMD, with the key. -/
  | imageConfirm (c : Fin 7)
  /-- HOST_WRITE (R430). `bytes`: the whole bytes received. -/
  | hostWrite (a : Word) (bytes : List Byte)
  /-- DOORBELL (R431). A host DOORBELL writes HST_DB or is lost. -/
  | doorbell (v : Word)
  /-- IRQCLR (R428). `m`: the mask. -/
  | irqclr (m : Word)
  /-- HOST_FLAG_SET (R432). Core `c` writes `v` to HST_HFLG. -/
  | hostFlagSet (c : Fin 7) (v : Word)
  /-- HOST_WINDOW_WRITE (R429). Core `c` writes `v` to HST_WINC[w]. -/
  | hostWindowWrite (c : Fin 7) (w : Fin 2) (v : Word)
  /-- I2C_TRANSFER (R435). Core `c` writes `v`, RECOVER 0, to I2C_CMD of controller `n`. -/
  | i2cTransfer (c : Fin 7) (n : Fin 2) (v : Word)
  /-- I2C_RECOVER (R436). Core `c` writes it to controller `n`. -/
  | i2cRecover (c : Fin 7) (n : Fin 2)
  /-- I2C_DISABLE (R438). Core `c` writes `v`, EN 0, to I2C_CFG. -/
  | i2cDisable (c : Fin 7) (n : Fin 2) (v : Word)
  /-- I2C_DATA_WRITE (R435). `bus`: the bytes the transfer under way has moved since the controller's last command; those of a read are what the target sent. -/
  | i2cDataWrite (c : Fin 7) (n : Fin 2) (b : Byte) (bus : List Byte)
  /-- SPI_TRANSFER (R439). Core `c` writes `v` to SPI_XFER. -/
  | spiTransfer (c : Fin 7) (v : Word)
  /-- SPI_DISABLE (R439). Core `c` writes `v`, EN 0, to SPI_CFG; `rx`: the bytes a transfer under way had moved. -/
  | spiDisable (c : Fin 7) (v : Word) (rx : List Byte)
  /-- UART_TX_PUSH (R440). A write of UART_DATA pushes to the TX FIFO. -/
  | uartTxPush (c : Fin 7) (n : Fin 2) (b : Byte)
  /-- GPIO_SET (R441). Core `c` writes `v` to GPIO_SET[k]. -/
  | gpioSet (c : Fin 7) (k : Fin 2) (v : Word)
  /-- GPIO_CLR (R441). Core `c` writes `v` to GPIO_CLR[k]. -/
  | gpioClr (c : Fin 7) (k : Fin 2) (v : Word)
  /-- REGISTER_WRITE (R14). Core `c` writes `v` to the register at `a`. -/
  | registerWrite (c : Fin 7) (a v : Word)
  /-- FIELD_LINE_FAULT (R29). Line `n`, which lies at `v`. -/
  | fieldLineFault (n : Fin 8) (v : LineV)
  /-- FIELD_LINE_RETRY (R31). The RETRY interval of a tripped field line expires, TRIP clears and the line resumes its mode with a fresh 16 µs window. -/
  | fieldLineRetry (n : Fin 8)
  /-- INTER_DIE_TRANSFER (R8). One attempt on the link of the RF die (0) or the flash die (1); `ok`: its CRC is right. -/
  | interDieTransfer (die : Fin 2) (ok : Bool)
  /-- LINK_LOST (R8). Of the RF die (0) or the flash die (1). -/
  | linkLost (die : Fin 2)
  /-- RF_DIE_RESET_END (R25). A reset of the RF die alone ends and its registers hold reset values. -/
  | rfDieResetEnd
  /-- RF_DIE_RESOW (R25). Within 50 µs the sowing engine re-applies GRID, RADIO and COEX to the reset RF die and the FEM lines are driven again. -/
  | rfDieResow
  /-- SUPPLY_LOW_WARNING (R37). VIN falls below the supply-low warning threshold; SLOW and SLOWF are set and the interrupt raised. -/
  | supplyLowWarning
  /-- SUPPLY_LOW_CLEAR (R37). VIN rises above the supply-low rising threshold and SLOW clears. -/
  | supplyLowClear
  /-- BROWN_OUT (R38). Brown-out is detected: transmit chains stop, pins take their reset states and all dies reset. -/
  | brownOut
  /-- BROWN_OUT_RELEASE (R38). VIN has stayed above the rising brown-out threshold for 1 ms and the dies leave reset. -/
  | brownOutRelease
  /-- POWER_ON_RESET (R47). VAON rises from below 1.80 V and resets everything including the reset record. -/
  | powerOnReset
  /-- VIN_WINDOW_END (R462). `mv`: the mean of the window. -/
  | vinWindowEnd (mv : BitVec 16)
  /-- RESERVATION_RELEASE (R41). `h`: the holder (1 to 4 receive chains, 5 to 8 detectors, 16 to 31 strips, 40 pool, 41 unwinding, 48 to 54 cores, 60 and 61 transmit chains). -/
  | reservationRelease (h : Fin 64)
  /-- POWER_MONITOR_SAMPLE (R43). `mw`: VIN power sampled. -/
  | powerMonitorSample (mw : BitVec 16)
  /-- OVER_CLEAR (R43). Core `c` writes 1 to OVER. -/
  | overClear (c : Fin 7)
  /-- THERMAL_SHUTDOWN (R47). A die sensor exceeds 135 °C junction and a TSHD system reset is held. -/
  | thermalShutdown
  /-- THERMAL_RELEASE (R47). The die temperature falls below 120 °C and the thermal reset is released. -/
  | thermalRelease
  /-- RESET_PIN (R47). RESET_N held low for at least 1 µs causes a PIN system reset. -/
  | resetPin
  /-- SYSRST (R47). Core `c` writes it, with the key. -/
  | sysrst (c : Fin 7)
  /-- RFDIE (R47). Core `c` writes it, with the key. -/
  | rfdie (c : Fin 7)
  /-- FLDIE (R47). Core `c` writes it, with the key. -/
  | fldie (c : Fin 7)
  /-- ROOT_PLL_LOCK (R49). `rf`, `fl`: the link of the RF die and of the flash die trains. -/
  | rootPllLock (rf fl : Bool)
  /-- RESET_RELEASE (R49). `reads`: each fuse word at the two margins; `pins`: SVC_ATN is low, TMODE is high. -/
  | resetRelease (reads : List (Word × Word)) (pins : Bool × Bool)
  /-- DOMAIN_GATE (R52). Domain CDi. -/
  | domainGate (i : Fin 112)
  /-- DOMAIN_WAKE (R52). Domain CDi. -/
  | domainWake (i : Fin 112)
  /-- REFERENCE_FAILURE (R54). A reference failure is declared: REFFAIL set, count taken, transmit stopped and receive chains powered down. -/
  | referenceFailure
  /-- FALLBACK_RELOCK (R55). Under ACTION HOLD the root PLL relocks to the internal oscillator, FALLBACK is set and the log entry and interrupt follow. -/
  | fallbackRelock
  /-- REF_COUNT_WINDOW (R56). `n`: the count. -/
  | refCountWindow (n : BitVec 16)
  /-- RESTORE (R56). Core `c` writes `v`, with RESTORE, to CLK_FAILCFG. -/
  | restore (c : Fin 7) (v : Word)
  /-- RESTORE_RELOCK (R56). The root relocks to the TCXO, FALLBACK clears and synthesiser calibration is queued again. -/
  | restoreRelock
  /-- LF_CRYSTAL_FAILURE (R57). XLF_IN shows no edge for 128 µs: LFFAIL and the oscillator-stopped flag are set and a wake may follow. -/
  | lfCrystalFailure
  /-- SUBSTITUTE_SWITCH (R57). At the substitute clock's next aligned edge the AON field switches to the substitute clock. -/
  | substituteSwitch
  /-- FULL_PLAN_SOW (R73). The plan lies at `a`. `viob`: VIO_B as measured, 1.8 V (0) or 3.3 V (1), none where it is absent. -/
  | fullPlanSow (a : Word) (viob : Option (Fin 2))
  /-- VIOB_MEASURE (R66). `viob`: VIO_B as measured, 1.8 V (0) or 3.3 V (1), none where it is absent. -/
  | viobMeasure (viob : Option (Fin 2))
  /-- BOOT_HANDOFF (R286). In one cycle the boot ROM hides itself, C0 and K0 go to their entries and the other cores leave reset. -/
  | bootHandoff
  /-- STAGE_VALIDATED (R71). `viob`: VIO_B as measured, 1.8 V (0) or 3.3 V (1), none where it is absent. -/
  | stageValidated (viob : Option (Fin 2))
  /-- SOW_ACTIVATION (R76). Mesh time reaches SOW_WHEN and the swap begins: SEQ is rechecked, sections at the start boundary apply and touched detectors stop. -/
  | sowActivation
  /-- DRAIN_END (R77). Of chain `c`. -/
  | drainEnd (c : Fin 4)
  /-- DRAIN_LIMIT (R77). Of chain `c`. -/
  | drainLimit (c : Fin 4)
  /-- CHANNELIZER_RELOAD (R77). Of chain `c`. -/
  | channelizerReload (c : Fin 4)
  /-- DETECTOR_RESUME (R77). Of chain `c`. -/
  | detectorResume (c : Fin 4)
  /-- RX_CHAIN_ON (R80). Core `c` writes `v` with ON = 1 to RFC_RXCTL[x]. -/
  | rxChainOn (c : Fin 7) (x : Fin 4) (v : Word)
  /-- RX_CHAIN_READY (R80). The chain's synthesiser locks and READY is set. -/
  | rxChainReady (c : Fin 4)
  /-- RX_CHAIN_OFF (R80). Core `c` writes `v` with ON = 0 to RFC_RXCTL[x]. -/
  | rxChainOff (c : Fin 7) (x : Fin 4) (v : Word)
  /-- AGC_WINDOW_END (R81). A window of chain `c` ends with `peak` in 0.5 dB below full scale; `clip`: a sample reached full scale. -/
  | agcWindowEnd (c : Fin 4) (peak : BitVec 8) (clip : Bool)
  /-- AGC_STEP_UP (R81). PEAK has stayed at or below −20 dBFS for 10 ms and AGC steps up one state. -/
  | agcStepUp (c : Fin 4)
  /-- GAIN_WRITE (R81). Core `c` writes GAIN of RFC_RXCTL[x]. -/
  | gainWrite (c : Fin 7) (x : Fin 4) (g : BitVec 3)
  /-- MCTAP_WRITE (R83). A write to RFC_MCTAP sets an MC tap, unchanged when the tap would leave the segment. -/
  | mctapWrite (c : Fin 7) (m : Fin 2) (v : Word)
  /-- BLANKING_END (R84). 5 µs after TRSW returns to receive, blanking of the chain ends. -/
  | blankingEnd (c : Fin 4)
  /-- CALF_WRITE (R85). Writing FREQ_KHZ of a calibration-store entry clears its flags and queues it for calibration, or marks it BAD. -/
  | calfWrite (c : Fin 7) (t : Fin 2) (i : Fin 256) (v : Word)
  /-- PWRTAB_WRITE (R86). A write to a power-table entry recomputes RSV_MW and VALID. -/
  | pwrtabWrite (c : Fin 7) (t : Fin 2) (i : Fin 64) (v : Word)
  /-- TX_ARM (R88). A request for chain `t`: entry, occupied bandwidth in Hz, power entry, µs from now to t_start, time-on-air in µs, class. -/
  | txArm (t : Fin 2) (ent : Fin 256) (bHz : Nat) (pwr : Fin 64) (lead : Nat) (toa : Nat) (cls : Fin 16)
  /-- COEX_REQUEST_RAISE (R94). At t_start − LEAD_US − 2 µs the transmission raises COEX_REQ with its PRI. -/
  | coexRequestRaise (t : Fin 2)
  /-- TX_SETUP (R92). At t_start − 20 µs setup begins: the synthesiser hops to its entry and AUX goes active. -/
  | txSetup (t : Fin 2)
  /-- TRSW_TO_TRANSMIT (R92). TRSW switches the front-end to transmit ahead of the ramp. -/
  | trswToTransmit (t : Fin 2)
  /-- LOCK_CHECK (R85). 16 µs after the hop starts, synthesiser lock is checked and PAEN turned on. -/
  | lockCheck (t : Fin 2) (locked : Bool)
  /-- RAMP_START (R94). `gnt`: the level sampled on COEX_GNT. -/
  | rampStart (t : Fin 2) (gnt : Bool)
  /-- GRANT_SEEN (R94). COEX_GNT is seen high during WAIT and the ramp starts next cycle. -/
  | grantSeen (t : Fin 2)
  /-- GRANT_WAIT_TIMEOUT (R94). GNT_WAIT_US passes without grant and ON_TIMEOUT abandons the transmission or sends it without grant. -/
  | grantWaitTimeout (t : Fin 2)
  /-- COEX_ABORT (R96). COEX_ACT rises (`act`) or COEX_GNT falls. -/
  | coexAbort (t : Fin 2) (act : Bool)
  /-- TX_LAST_SAMPLE (R88). The last sample leaves the port and the ramp-down starts. -/
  | txLastSample (t : Fin 2)
  /-- RAMP_DOWN_END (R88). The ramp-down ends, PAEN goes off and the sub-band's end time is kept. -/
  | rampDownEnd (t : Fin 2)
  /-- TX_END (R92). TRSW returns to receive, the coexistence request falls, the end status is set and the reservation released. -/
  | txEnd (t : Fin 2)
  /-- ANTENNA_WRITE (R93). A write to RFC_ANT changes ANT_SEL at once or sets PEND during a transmission. -/
  | antennaWrite (c : Fin 7) (sel : Bool)
  /-- DWELL_TRACKER_FREE (R90). A dwell tracker's period runs out and the tracker frees. -/
  | dwellTrackerFree (t : Fin 2) (khz : BitVec 22)
  /-- TX_HOLD_END (R91). POR_HOLD_S of RTC time has passed and the chain's HOLD refusal ends. -/
  | txHoldEnd (t : Fin 2)
  /-- DETECTOR_WINDOW (R121). A window of chain `c`, channel `ch`, search pair (b, e + 5) and track ends: `x` its chips of the resampled stream; `marked`: it holds a blanked sample. -/
  | detectorWindow (c : Fin 4) (ch : Fin 256) (b : Fin 5) (e : Fin 8) (track marked : Bool) (x : List Cx)
  /-- FURROW_SYMBOL (R135). Furrow `f` demodulates one symbol. -/
  | furrowSymbol (f : Fin 1024) (x : Meas)
  /-- RECLAIM_COMPLETE (R132). Of furrow `u`, or of MC demodulator `u` − 1,024. -/
  | reclaimComplete (u : Fin 1026)
  /-- EARLY_VERDICT (R176). For furrow `u`, or MC demodulator `u` − 1,024. -/
  | earlyVerdict (u : Fin 1026)
  /-- ADDRESS_FILTER (R177). For furrow `u`, or MC demodulator `u` − 1,024. -/
  | addressFilter (u : Fin 1026)
  /-- DECODER_GRANT (R151). Free decoders are granted the oldest eligible blocks by class and round-robin. -/
  | decoderGrant
  /-- BLOCK_DECODED (R149). Decoder `k` stops its block and returns it. -/
  | blockDecoded (k : Fin 10)
  /-- BLOCK_EXPIRE (R154). A queued block of unit `u`: its header block or block `idx`. -/
  | blockExpire (u : Fin 1026) (hdr : Bool) (idx : Nat)
  /-- MC_TRAINING (R141). Demodulator `m` searches two windows M × (1 + G) samples apart. -/
  | mcTraining (m : Fin 2) (w : List Cx × List Cx)
  /-- MC_SYMBOL (R143). An MC demodulator equalises and demaps one symbol and advances its confirmations. -/
  | mcSymbol (m : Fin 2) (x : McMeas)
  /-- CAPTURE_PAGE_FULL (R162). Slot `n` fills its page, or its recording has stopped in it: mesh time of its first sample, and its blocks of 32 samples in 1/256 of an ADC bit, each with its blanked mark. -/
  | capturePageFull (n : Fin 32) (t0 : BitVec 64) (blks : List (List Cx × Bool))
  /-- SUBTRACTION_START (R165). A slot in SUBTRACT is served and the known packet is rebuilt and fitted. -/
  | subtractionStart (n : Fin 32)
  /-- SUBTRACTION_END (R165). Subtraction of every recorded sample of the known packet completes and the slot enters WAITFUR. -/
  | subtractionEnd (n : Fin 32)
  /-- REENTRY_ACCEPT (R167). A strip accepts the target as a re-entry candidate and the slot enters REPLAY. -/
  | reentryAccept (n : Fin 32)
  /-- REWAIT_EXPIRY (R164). REWAIT ms pass in WAITFUR and the slot closes NOFURROW. -/
  | rewaitExpiry (n : Fin 32)
  /-- MIC_CHECK_END (R182). The MIC result of a committed frame is known; replay, verdict, acknowledgement and flood handling follow. -/
  | micCheckEnd
  /-- VERDICT_DEADLINE (R182). The deadline of the frame at unit `u` (furrow, or 1,024 + m for MC demodulator m) passes. -/
  | verdictDeadline (u : Fin 1026)
  /-- DESCRIPTOR_ARM (R185). The first descriptor of chain `t` that is not yet armed comes to its arming. -/
  | descriptorArm (t : Fin 2)
  /-- CCA_ASSESSMENT (R186). The window of the first descriptor of chain `t` ends: mean power over its occupied range on the two receive chains of the band, in 0.01 dBm. -/
  | ccaAssessment (t : Fin 2) (p0 : Int) (p1 : Int)
  /-- CCA_BACKOFF_END (R186). A random backoff after a busy assessment ends and the channel is assessed again. -/
  | ccaBackoffEnd (t : Fin 2)
  /-- ACK_WAIT_EXPIRY (R187). Of the transmission of chain `t` to `dst` with `seq`. -/
  | ackWaitExpiry (t : Fin 2) (dst : BitVec 16) (seq : BitVec 8)
  /-- COMPLETION_READ (R195). Reading LNK_TXDONE_ST removes the oldest completion from the FIFO. -/
  | completionRead (c : Fin 7)
  /-- VERDICT_READ (R195). Reading LNK_VQ[3] removes the oldest verdict. -/
  | verdictRead (c : Fin 7)
  /-- POLL_RESPONSE_ARM (R188). After the acknowledgement's last sample the bound frame is armed as a class 1 response. -/
  | pollResponseArm (t : Fin 2)
  /-- EXPECTATION_WINDOW_CLOSE (R192). A window of entry `i` closes without contact. -/
  | expectationWindowClose (i : Fin 8192)
  /-- SYNC_AGE_LIMIT (R201). AGE_S reaches AGEMAX_S and SYNCED clears. -/
  | syncAgeLimit
  /-- BEACON_ARM (R203). The flood engine arms a beacon as a timed class 3 transmission for its next instant. -/
  | beaconArm
  /-- ALARM_FIRE (R205). Mesh time reaches the instant of alarm `a`. -/
  | alarmFire (a : Fin 4)
  /-- CACHE_EXPIRY (R208). Mesh time reaches the expiry of entry `i`. -/
  | cacheExpiry (i : Fin 4096)
  /-- RELAY_DELAY_EXPIRY (R210). The delay of the relay in entry `i` ends. -/
  | relayDelayExpiry (i : Fin 4096)
  /-- RELAY_HOLD_END (R210). The hold of the relay in entry `i` ends. -/
  | relayHoldEnd (i : Fin 4096)
  /-- FLOOD_EVENT_READ (R216). Core `c` reads FLD_EVQ[3]. -/
  | floodEventRead (c : Fin 7)
  /-- MESH_TIME_READ (R216). Core `c` reads FLD_MESH_LO. -/
  | meshTimeRead (c : Fin 7)
  /-- KEY_LOAD (R221). Core `c` writes LOAD of slot `i`. `outs`: whether each flash record programmed by it verifies, in order. -/
  | keyLoad (c : Fin 7) (i : Fin 256) (outs : List Bool)
  /-- KEY_LOADNAME (R232). `outs`: whether each flash record programmed by it verifies, in order. -/
  | keyLoadname (c : Fin 7) (i : Fin 256) (outs : List Bool)
  /-- KEY_UNLOAD (R226). KEY_CMD UNLOAD moves the slot to ERASING. -/
  | keyUnload (c : Fin 7) (i : Fin 256)
  /-- KEY_GENERATE (R221). `outs`: whether each flash record programmed by it verifies, in order. -/
  | keyGenerate (c : Fin 7) (i : Fin 256) (outs : List Bool)
  /-- KEY_RAISE (R229). `outs`: whether each flash record programmed by it verifies, in order. -/
  | keyRaise (c : Fin 7) (outs : List Bool)
  /-- KEY_REVOKE (R219). KEY_CMD REVOKE blows a REVOKE bit, refused LASTKEY when none would remain. -/
  | keyRevoke (c : Fin 7)
  /-- KEY_COMMAND_END (R221). A key-store command ends and writes its result. -/
  | keyCommandEnd
  /-- SLOT_ERASED (R226). After its last admitted operation an ERASING slot is zeroed and becomes EMPTY. -/
  | slotErased (i : Fin 256)
  /-- COUNTER_SCAN (R228). Counter `c` is read. `outs`: whether each flash record programmed by it verifies, in order. -/
  | counterScan (c : Fin 64) (outs : List Bool)
  /-- SPAN_RAISE (R230). `outs`: whether each flash record programmed by it verifies, in order. -/
  | spanRaise (i : Fin 256) (outs : List Bool)
  /-- RAISE_RETRY (R230). Of slot `i`, or of the frame counter (`none`). `outs`: whether each flash record programmed by it verifies, in order. -/
  | raiseRetry (i : Option (Fin 256)) (outs : List Bool)
  /-- FCNT_CEILING_RAISE (R231). `outs`: whether each flash record programmed by it verifies, in order. -/
  | fcntCeilingRaise (outs : List Bool)
  /-- AES_JOB_START (R236). An engine starts a job, checks it in order and charges the slot. -/
  | aesJobStart (e : Fin 2)
  /-- AES_JOB_END (R236). The job on engine `e` ends. -/
  | aesJobEnd (e : Fin 2)
  /-- SHA_END (R240). An UPDATE or FINAL completes and raises the SHA completion source. -/
  | shaEnd (n : Fin 4)
  /-- RNG_FAILURE (R241). The noise source fails its health tests for 1 s; RNGFAIL set and logged. -/
  | rngFailure
  /-- RANDOM_READ (R241). A read of KEY_RAND returns 32 fresh bits. -/
  | randomRead (c : Fin 7)
  /-- LEDGER_APPEND (R250). The engine serves an append: checks, charges, fills, seals and starts programming. -/
  | ledgerAppend
  /-- LEDGER_VERIFY (R253). The engine checks a run of foreign records and may append a RECEIPT. -/
  | ledgerVerify
  /-- LEDGER_PUSH (R251). The engine seals a PUSH record covering the newly archived range. -/
  | ledgerPush
  /-- RECORD_DURABLE (R250). What the flash does: whether the erase of a new sector verifies, and how many words verify before one does not. -/
  | recordDurable (erOk : Bool) (good : Nat)
  /-- LEDGER_RECOVERY (R252). After a system reset the engine finds its head and repairs torn bytes. -/
  | ledgerRecovery
  /-- NOP (R264). Core `c` executes it at its PC. -/
  | nop (c : Fin 7)
  /-- HALT (R278). Core `c` executes it at its PC. -/
  | halt (c : Fin 7)
  /-- FENCE_FULL (R281). Core `c` executes it at its PC. -/
  | fenceFull (c : Fin 7)
  /-- FENCE_LOAD (R281). Core `c` executes it at its PC. -/
  | fenceLoad (c : Fin 7)
  /-- FENCE_STORE (R281). Core `c` executes it at its PC. -/
  | fenceStore (c : Fin 7)
  /-- FENCE_SYNC (R281). Core `c` executes it at its PC. -/
  | fenceSync (c : Fin 7)
  /-- TRAP (R276). Core `c` executes it at its PC. -/
  | trap (c : Fin 7)
  /-- RET (R264). Core `c` executes it at its PC. `up`: bits of the memory word that have gone bad by the time it is read. -/
  | ret (c : Fin 7) (up : List Nat)
  /-- IRET (R277). Core `c` executes it at its PC. -/
  | iret (c : Fin 7)
  /-- BRK (R276). Core `c` executes it at its PC. -/
  | brk (c : Fin 7)
  /-- UD (R262). Core `c` executes it at its PC. -/
  | ud (c : Fin 7)
  /-- ADD (R266). Core `c` executes it at its PC. -/
  | add (c : Fin 7)
  /-- ADC (R266). Core `c` executes it at its PC. -/
  | adc (c : Fin 7)
  /-- SUB (R266). Core `c` executes it at its PC. -/
  | sub (c : Fin 7)
  /-- SBB (R266). Core `c` executes it at its PC. -/
  | sbb (c : Fin 7)
  /-- AND (R266). Core `c` executes it at its PC. -/
  | and (c : Fin 7)
  /-- OR (R266). Core `c` executes it at its PC. -/
  | or (c : Fin 7)
  /-- XOR (R266). Core `c` executes it at its PC. -/
  | xor (c : Fin 7)
  /-- CMP (R266). Core `c` executes it at its PC. -/
  | cmp (c : Fin 7)
  /-- MOV (R264). Core `c` executes it at its PC. -/
  | mov (c : Fin 7)
  /-- MOVS (R264). Core `c` executes it at its PC. -/
  | movs (c : Fin 7)
  /-- XCHG (R264). Core `c` executes it at its PC. -/
  | xchg (c : Fin 7)
  /-- NOT (R264). Core `c` executes it at its PC. -/
  | not (c : Fin 7)
  /-- NEG (R266). Core `c` executes it at its PC. -/
  | neg (c : Fin 7)
  /-- TST (R266). Core `c` executes it at its PC. -/
  | tst (c : Fin 7)
  /-- SHL (R266). Core `c` executes it at its PC. -/
  | shl (c : Fin 7)
  /-- SHR (R266). Core `c` executes it at its PC. -/
  | shr (c : Fin 7)
  /-- SAR (R266). Core `c` executes it at its PC. -/
  | sar (c : Fin 7)
  /-- ROL (R266). Core `c` executes it at its PC. -/
  | rol (c : Fin 7)
  /-- ROR (R266). Core `c` executes it at its PC. -/
  | ror (c : Fin 7)
  /-- MUL (R266). Core `c` executes it at its PC. -/
  | mul (c : Fin 7)
  /-- MULH (R266). Core `c` executes it at its PC. -/
  | mulh (c : Fin 7)
  /-- MULHU (R266). Core `c` executes it at its PC. -/
  | mulhu (c : Fin 7)
  /-- DIV (R266). Core `c` executes it at its PC. -/
  | div (c : Fin 7)
  /-- DIVU (R266). Core `c` executes it at its PC. -/
  | divu (c : Fin 7)
  /-- REM (R266). Core `c` executes it at its PC. -/
  | rem (c : Fin 7)
  /-- REMU (R265). Core `c` executes it at its PC. -/
  | remu (c : Fin 7)
  /-- BCC (R264). Core `c` executes it at its PC. -/
  | bcc (c : Fin 7)
  /-- LD (R273). Core `c` executes it at its PC. `up`: bits of the memory word that have gone bad by the time it is read. -/
  | ld (c : Fin 7) (up : List Nat)
  /-- ST (R273). Core `c` executes it at its PC. `up`: bits of the memory word that have gone bad by the time it is read. -/
  | st (c : Fin 7) (up : List Nat)
  /-- LDS (R273). Core `c` executes it at its PC. `up`: bits of the memory word that have gone bad by the time it is read. -/
  | lds (c : Fin 7) (up : List Nat)
  /-- LEA (R263). Core `c` executes it at its PC. -/
  | lea (c : Fin 7)
  /-- PUSH (R267). Core `c` executes it at its PC. -/
  | push (c : Fin 7)
  /-- POP (R267). Core `c` executes it at its PC. `up`: bits of the memory word that have gone bad by the time it is read. -/
  | pop (c : Fin 7) (up : List Nat)
  /-- CALL (R267). Core `c` executes it at its PC. -/
  | call (c : Fin 7)
  /-- CALLR (R267). Core `c` executes it at its PC. -/
  | callr (c : Fin 7)
  /-- JMP (R267). Core `c` executes it at its PC. -/
  | jmp (c : Fin 7)
  /-- JMPR (R264). Core `c` executes it at its PC. -/
  | jmpr (c : Fin 7)
  /-- LDX (R274). Core `c` executes it at its PC. `up`: bits of the memory word that have gone bad by the time it is read. -/
  | ldx (c : Fin 7) (up : List Nat)
  /-- STX (R274). Core `c` executes it at its PC. -/
  | stx (c : Fin 7)
  /-- CLZ (R265). Core `c` executes it at its PC. -/
  | clz (c : Fin 7)
  /-- BSWAP (R265). Core `c` executes it at its PC. -/
  | bswap (c : Fin 7)
  /-- SEXT (R265). Core `c` executes it at its PC. -/
  | sext (c : Fin 7)
  /-- MOVFL (R265). Core `c` executes it at its PC. -/
  | movfl (c : Fin 7)
  /-- SETFL (R260). Core `c` executes it at its PC. -/
  | setfl (c : Fin 7)
  /-- CSRR (R279). Core `c` executes it at its PC. -/
  | csrr (c : Fin 7)
  /-- CSRW (R279). Core `c` executes it at its PC. -/
  | csrw (c : Fin 7)
  /-- DAJA (R270). Core `c` executes it at its PC. -/
  | daja (c : Fin 7)
  /-- DAJS (R270). Core `c` executes it at its PC. -/
  | dajs (c : Fin 7)
  /-- CVBD (R271). Core `c` executes it at its PC. -/
  | cvbd (c : Fin 7)
  /-- CVDB (R271). Core `c` executes it at its PC. -/
  | cvdb (c : Fin 7)
  /-- CHKD (R271). Core `c` executes it at its PC. -/
  | chkd (c : Fin 7)
  /-- SPMULC (R272). Core `c` executes it at its PC. -/
  | spmulc (c : Fin 7)
  /-- SPMAG (R272). Core `c` executes it at its PC. -/
  | spmag (c : Fin 7)
  /-- LDSP (R273). Core `c` executes it at its PC. `up`: bits of the memory word that have gone bad by the time it is read. -/
  | ldsp (c : Fin 7) (up : List Nat)
  /-- STSP (R273). Core `c` executes it at its PC. `up`: bits of the memory word that have gone bad by the time it is read. -/
  | stsp (c : Fin 7) (up : List Nat)
  /-- RESERVED_OPCODE (R285). Core `c` executes one at its PC, `len` bytes long: it leaves `g` in the first registers, the flags of `fl`, the bytes of `stores` where an ordinary store could put them, and raises `exc`. -/
  | reservedOpcode (c : Fin 7) (len : Nat) (g : List Word) (fl : Word) (stores : List (Word × Byte)) (exc : Option ReservedExc)
  /-- INTERRUPT_ENTRY (R278). Core `c`. -/
  | interruptEntry (c : Fin 7)
  /-- HALT_WAKE (R278). Core `c`. -/
  | haltWake (c : Fin 7)
  /-- CORE_RESET (R287). Core `c` writes `v` to SYS_CORERST. -/
  | coreReset (c : Fin 7) (v : Word)
  /-- CORE_RESTART (R287). Core `n`. -/
  | coreRestart (n : Fin 7)
  /-- WRITEBACK_ARRIVAL (R294). `line`: the number of the 64-byte line that core `c` writes back. -/
  | writebackArrival (c : Fin 7) (line : Nat)
  /-- SEM_TAKE (R296). Core `c` reads SEM_TAKE[n]. -/
  | semTake (c : Fin 7) (n : Fin 64)
  /-- SEM_GIVE (R296). Core `c` writes `v` to SEM_GIVE[n]. -/
  | semGive (c : Fin 7) (n : Fin 64) (v : Word)
  /-- SEM_RESCUE (R296). Core `c` reads SEM_RESCUE[n]. -/
  | semRescue (c : Fin 7) (n : Fin 64)
  /-- FLASH_COMMAND_END (R308). In bank `b`; what the array does: `good` words that verify, 0 for a failed erase, or what COLTEST finds (0 sound, 1 STUCK0, 2 STUCK1) with the lowest failing bit line and their number. -/
  | flashCommandEnd (b : Fin 4) (good line n : Nat)
  /-- MOVE_END (R310). Of window `w`; `ok`: its erase verifies. -/
  | moveEnd (w : Fin 2) (ok : Bool)
  /-- DEFERRED_MOVE (R310). A move deferred by SLOW starts when SLOW clears. -/
  | deferredMove (w : Fin 2)
  /-- ERASE_SUSPEND (R306). Privileged traffic meets an erasing bank and the erase is suspended. -/
  | eraseSuspend (b : Fin 4)
  /-- ERASE_RESUME (R306). No privileged request for 2 µs and the erase resumes. -/
  | eraseResume (b : Fin 4)
  /-- FLASH_STARTUP (R313). The controller loads repairs, re-erases flagged sectors, replays windows and sets READY. -/
  | flashStartup
  /-- SOURCE_CHANGE (R325). Source `n` is sampled; `ext` is the level of the die-temperature warning (source 1,102), or of the ball of a general input (sources 1,104 to 1,151). -/
  | sourceChange (n : Fin 1152) (ext : Bool)
  /-- SOFTWARE_PEND (R325). Core `c` writes `v` to IRQ_SWPEND[k]. -/
  | softwarePend (c : Fin 7) (k : Fin 36) (v : Word)
  /-- PENDING_CLEAR (R325). Core `c` writes `v` to IRQ_PEND[k]. -/
  | pendingClear (c : Fin 7) (k : Fin 36) (v : Word)
  /-- INTERRUPT_ACKNOWLEDGE (R328). Core `c` reads its own IRQ_ACK. -/
  | interruptAcknowledge (c : Fin 7)
  /-- INTERRUPT_COMPLETE (R329). Core `c` writes `v` to its own IRQ_EOI. -/
  | interruptComplete (c : Fin 7) (v : Word)
  /-- HOLDOFF_EXPIRY (R331). A group's hold-off timer expires and the group opens. -/
  | holdoffExpiry (g : Fin 36)
  /-- HOLDOFF_WRITE (R331). Core `c` writes `v` to IRQ_HOLD[g]. -/
  | holdoffWrite (c : Fin 7) (g : Fin 36) (v : Word)
  /-- CHANNEL_EVENT (R334). The producer of channel `a` drives it: a pulse, or the level `lvl`. -/
  | channelEvent (a : Fin 256) (lvl : Bool)
  /-- CELL_FILTER_EXPIRY (R338). A logic cell's difference persists 2^n cycles and its output changes. -/
  | cellFilterExpiry (n : Fin 128)
  /-- CHANNEL_FIRE (R342). Core `c` writes channel `a` to HDL_FIRE. -/
  | channelFire (c : Fin 7) (a : Fin 256)
  /-- LUT_WRITE (R339). Core `c` writes `v` to HDL_LUT[n]. -/
  | lutWrite (c : Fin 7) (n : Fin 128) (v : BitVec 16)
  /-- GROUP_ENABLE (R340). Core `c` writes `m` to HDL_GRPSET. -/
  | groupEnable (c : Fin 7) (m : BitVec 16)
  /-- GROUP_DISABLE (R340). Core `c` writes `m` to HDL_GRPCLR. -/
  | groupDisable (c : Fin 7) (m : BitVec 16)
  /-- GATED_INPUT_DELIVERY (R341). A gated latch is delivered to the AON field as a gated input. -/
  | gatedInputDelivery (i : Fin 8)
  /-- TIMER_TICK (R345). The prescaler of timer `t` expires. -/
  | timerTick (t : Fin 24)
  /-- TIMER_PERIOD_END (R345). The period end of timer `t` takes its effects. -/
  | timerPeriodEnd (t : Fin 24)
  /-- TIMER_COMPARE (R346). Compare `k` of timer `t` is judged. -/
  | timerCompare (t : Fin 24) (k : Fin 2)
  /-- TIMER_CAPTURE (R349). A capture of timer `t`: an edge of its pad (`some true` rising), or its capture consumer (`none`). -/
  | timerCapture (t : Fin 24) (edge : Option Bool)
  /-- TIMER_CONTROL_WRITE (R348). Core `c` writes `v` to TMR_CTL[t]. -/
  | timerControlWrite (c : Fin 7) (t : Fin 24) (v : Word)
  /-- TIMER_GROUP_START (R348). Core `c` writes START to TMR_GCMD. -/
  | timerGroupStart (c : Fin 7)
  /-- TIMER_GROUP_STOP (R348). Core `c` writes STOP to TMR_GCMD. -/
  | timerGroupStop (c : Fin 7)
  /-- TIMER_COMMIT (R350). Core `c` writes `v` to the _HI register of a 48-bit value of timer `t`. -/
  | timerCommit (c : Fin 7) (t : Fin 24) (k : TmrVal) (v : Word)
  /-- LF_EDGE_COUNT (R352). A 32.768 kHz edge reaches timer `t`. -/
  | lfEdgeCount (t : Fin 24)
  /-- AON_TIMER_EDGE (R356). A 32.768 kHz edge reaches always-on timer `t`. -/
  | aonTimerEdge (t : Fin 8)
  /-- AON_TIMER_EXPIRY (R356). An always-on timer reaches 0, sets EXPF, raises its event and may wake. -/
  | aonTimerExpiry (t : Fin 8)
  /-- AON_TIMER_WRITE (R357). Core `c` writes `v` to RTC_ATLOAD[t] (`load`) or RTC_ATCTL[t]. -/
  | aonTimerWrite (c : Fin 7) (t : Fin 8) (load : Bool) (v : Word)
  /-- RTC_EDGE (R358). RTC_T advances by its compensated step or takes mesh time when locked. -/
  | rtcEdge
  /-- RTC_TEMP_SAMPLE (R358). The die sensor reads `temp`, in 1/16 °C, two's complement. -/
  | rtcTempSample (temp : BitVec 16)
  /-- CALENDAR_FREEZE (R362). Core `c` reads RTC_SUB. -/
  | calendarFreeze (c : Fin 7)
  /-- CALENDAR_HALT (R363). HALT = 1 holds the calendar at the next edge. -/
  | calendarHalt
  /-- CALENDAR_WRITE (R363). Core `c` writes `v` to RTC_DATE (`date`) or RTC_TIME. -/
  | calendarWrite (c : Fin 7) (date : Bool) (v : Word)
  /-- CALENDAR_RESUME (R363). HALT = 0 sets CALOFS at the next edge and the calendar resumes. -/
  | calendarResume
  /-- RTC_ALARM (R364). The calendar reaches the alarm value and the alarm fires. -/
  | rtcAlarm
  /-- RTC_TICK (R364). The calendar crosses a TICKSEL boundary and TICKF is set. -/
  | rtcTick
  /-- LEVEL_CHANGE (R367). Core `c` writes `v` to PWR_PLEVEL[t]. -/
  | levelChange (c t : Fin 7) (v : Word)
  /-- LEVEL_CHANGE_END (R367). Of core `t`. -/
  | levelChangeEnd (t : Fin 7)
  /-- REQUEST_IDLE (R368). Core `c` writes it to PWR_REQ, with the key. -/
  | requestIdle (c : Fin 7)
  /-- REQUEST_LISTEN (R368). Core `c` writes it to PWR_REQ, with the key. -/
  | requestListen (c : Fin 7)
  /-- REQUEST_FALLOW (R368). Core `c` writes it to PWR_REQ, with the key. -/
  | requestFallow (c : Fin 7)
  /-- REQUEST_OFF (R368). Core `c` writes it to PWR_REQ, with the key. -/
  | requestOff (c : Fin 7)
  /-- PARTICIPANT_ANSWER (R371). A participant agrees or refuses, and entry proceeds or rolls back. -/
  | participantAnswer
  /-- PARTICIPANT_TIMEOUT (R371). A participant gives no answer in time and entry rolls back. -/
  | participantTimeout
  /-- WAKE (R373). `r`: the reason (Table 19.4). -/
  | wake (r : Fin 12)
  /-- WAKE_COMPLETE (R374). Sections are re-applied, retention restored and cores released. -/
  | wakeComplete
  /-- LISTEN_WINDOW_OPEN (R375). A LISTEN window opens: fields power up, sections and retention restore, chains switch on. -/
  | listenWindowOpen
  /-- LISTEN_WINDOW_CLOSE (R375). A LISTEN window's time ends and it closes through its participants. -/
  | listenWindowClose
  /-- CLOSE_RETRY (R375). A refused window close is tried again after 1 ms. -/
  | closeRetry
  /-- INSPECT_ENTRY (R369). With VIN below brown-out, a harvested reader field enters INSPECT. -/
  | inspectEntry
  /-- INSPECT_EXIT (R369). `up`: VIN has passed the rising brown-out threshold; otherwise the reader's field is lost. -/
  | inspectExit (up : Bool)
  /-- CAL_TEMP_SAMPLE (R378). The RF die sensor reads `temp`, in 1/16 °C, two's complement. -/
  | calTempSample (temp : BitVec 16)
  /-- CORRECTION_COMPUTE (R377). For chain `c`: `i` 0 RXDC, 1 RXIQ, 2 RXGAIN. -/
  | correctionCompute (c : Fin 4) (i : Fin 3)
  /-- CORRECTION_APPLY (R379). On chain `c`. -/
  | correctionApply (c : Fin 4)
  /-- CORRECTION_FORCED (R380). A correction pending 2 s is forced, flagging busy furrows and logging. -/
  | correctionForced (c : Fin 4) (i : Fin 3)
  /-- TXSYN_MEASURE_START (R382). A queued or stale calibration-store entry is measured while the chain is free. -/
  | txsynMeasureStart (t : Fin 2)
  /-- TXSYN_MEASURE_END (R382). A measurement finishes, storing codes or setting SYNFAIL. -/
  | txsynMeasureEnd (t : Fin 2) (locked : Bool)
  /-- CALIBRATION_LOAD (R385). After reset the manager reads calibration records and loads trims, curve and codes. -/
  | calibrationLoad
  /-- CAL_STORE (R386). Of CURVE (0), SYNA (1) or SYNB (2). -/
  | calStore (k : Fin 3)
  /-- CAL_STORE_END (R386). `ok`: the record verifies. -/
  | calStoreEnd (ok : Bool)
  /-- NFC_COMMAND_END (R391). What the reader hears: for SEND the response with its CRC; for INVENTORY one item per slot, none for an empty one. Past the list nothing is heard. -/
  | nfcCommandEnd (heard : List (Option (List Byte)))
  /-- CARD_REQUEST (R400). A request from FLAGS to its CRC. -/
  | cardRequest (frame : List Byte)
  /-- CARD_TIMEOUT (R400). No CRESP or CDROP within 20 ms; nothing is sent and CLATE counts. -/
  | cardTimeout
  /-- INSPECT_REQUEST (R402). A request from FLAGS to its CRC. -/
  | inspectRequest (frame : List Byte)
  /-- NOTE_STORED (R403). `good`: words of the record that verify before one does not. -/
  | noteStored (good : Nat)
  /-- FIELD_CHANGE (R397). An external 13.56 MHz field appears or disappears and FIELDF is set. -/
  | fieldChange (on : Bool)
  /-- SUID_READ (R406). Core `c` reads NFC_SUID_HI. -/
  | suidRead (c : Fin 7)
  /-- OZTIS_HELLO (R411). `tag`, `pay`: TAG and payload of the request. -/
  | oztisHello (tag : Byte) (pay : List Byte)
  /-- OZTIS_RESET (R411). `tag`, `pay`: TAG and payload of the request. -/
  | oztisReset (tag : Byte) (pay : List Byte)
  /-- CHALLENGE (R414). `tag`, `pay`: TAG and payload of the request. -/
  | challenge (tag : Byte) (pay : List Byte)
  /-- UNLOCK (R414). `tag`, `pay`: TAG and payload of the request. -/
  | unlock (tag : Byte) (pay : List Byte)
  /-- OZTIS_LOCK (R414). `tag`, `pay`: TAG and payload of the request. -/
  | oztisLock (tag : Byte) (pay : List Byte)
  /-- OPEN (R413). `tag`, `pay`: TAG and payload of the request. `ok`: the erase of the state sector verifies. -/
  | openXfer (tag : Byte) (pay : List Byte) (ok : Bool)
  /-- BURST (R413). `tag`, `pay`: TAG and payload of the request. -/
  | burst (tag : Byte) (pay : List Byte)
  /-- OZTIS_CHECK (R417). `tag`, `pay`: TAG and payload of the request. -/
  | oztisCheck (tag : Byte) (pay : List Byte)
  /-- OZTIS_TRY (R419). `tag`, `pay`: TAG and payload of the request. -/
  | oztisTry (tag : Byte) (pay : List Byte)
  /-- OZTIS_READ (R415). `tag`, `pay`: TAG and payload of the request. -/
  | oztisRead (tag : Byte) (pay : List Byte)
  /-- OZTIS_WRITE (R415). `tag`, `pay`: TAG and payload of the request. -/
  | oztisWrite (tag : Byte) (pay : List Byte)
  /-- OZTIS_HALT (R415). `tag`, `pay`: TAG and payload of the request. -/
  | oztisHalt (tag : Byte) (pay : List Byte)
  /-- OZTIS_RUN (R415). `tag`, `pay`: TAG and payload of the request. -/
  | oztisRun (tag : Byte) (pay : List Byte)
  /-- REGS (R415). `tag`, `pay`: TAG and payload of the request. -/
  | regs (tag : Byte) (pay : List Byte)
  /-- SETREG (R415). `tag`, `pay`: TAG and payload of the request. -/
  | setreg (tag : Byte) (pay : List Byte)
  /-- ATN_FALL (R410). `frame`: a frame was in progress. -/
  | atnFall (frame : Bool)
  /-- SESSION_TIMEOUT (R410). SVC_ATN high for 1 ms ends the session. -/
  | sessionTimeout
  /-- SVC_COMMAND_END (R411). `oz`: the command came over Oztis; `outs`: whether each word it programs verifies, in order. -/
  | svcCommandEnd (oz : Bool) (outs : List Bool)
  /-- TRANSFER_PROGRAM_END (R413). `erased`: the erase of a sector that begins in the data verifies; `good`: words that verify before one fails. -/
  | transferProgramEnd (erased : Bool) (good : Nat)
  /-- IMAGE_SWITCH (R422). W fires and all cores switch to the new image. -/
  | imageSwitch
  /-- CONFIRM_WINDOW_EXPIRY (R424). CONFWIN_S passes without confirmation. -/
  | confirmWindowExpiry
  /-- BOOT_CHOICE (R420). `ins`: VIO_B as measured, 1.8 V (0) or 3.3 V (1), none where it is absent; whether each flash record that the counters' raises program verifies, in order. -/
  | bootChoice (ins : Option (Fin 2) × List Bool)
  /-- HOST_READ (R429). `n`: data bytes of the frame. -/
  | hostRead (a : Word) (n : Nat)
  /-- HOST_STAT (R428). A host STAT frame returns flags and clears HERR. -/
  | hostStat
  /-- I2C_COMMAND_END (R435). `clears`: SDA was found low and freed by clock pulses. `bus`: the bytes the transfer under way has moved since the controller's last command; those of a read are what the target sent. -/
  | i2cCommandEnd (n : Fin 2) (bus : List Byte) (clears : Bool) (e : I2cEnd)
  /-- SCL_STRETCH_TIMEOUT (R436). SCL stays low for STRETCH_MS and the command ends SCLLOW. -/
  | sclStretchTimeout (n : Fin 2)
  /-- I2C_DATA_READ (R435). `bus`: the bytes the transfer under way has moved since the controller's last command; those of a read are what the target sent. -/
  | i2cDataRead (c : Fin 7) (n : Fin 2) (bus : List Byte)
  /-- SPI_TRANSFER_END (R439). `rx`: the bytes the target sends; past the list 0xFF. -/
  | spiTransferEnd (rx : List Byte)
  /-- UART_RX_POP (R440). A read of UART_DATA pops the RX FIFO. -/
  | uartRxPop (c : Fin 7) (n : Fin 2)
  /-- UART_BYTE_RECEIVED (R440). `frame`, `parity`: errors seen. -/
  | uartByteReceived (n : Fin 2) (b : Byte) (frame parity : Bool)
  /-- UART_BYTE_SENT (R440). A byte finishes sending and the next starts if CTS permits. -/
  | uartByteSent (n : Fin 2)
  /-- ERROR_LOG_TAKE (R444). The error log takes one waiting report, coalescing, adding or losing it. -/
  | errorLogTake
  /-- ERROR_LOG_LATCH (R448). Core `c` reads ERL_ENT[0]. -/
  | errorLogLatch (c : Fin 7)
  /-- ERROR_LOG_POP (R448). Core `c` reads ERL_ENT[9]. -/
  | errorLogPop (c : Fin 7)
  /-- OVF_CLEAR (R447). Core `c` writes 1 to OVF. -/
  | ovfClear (c : Fin 7)
  /-- COUNTER_READ (R450). Core `c` reads the register at `a`, a counter or any other; the value is left in `rdata`. -/
  | counterRead (c : Fin 7) (a : Word)
  /-- ALWAYS_ON_RAIL_COLLAPSE (R38). VIN falls below the always-on rail threshold, VAON collapses and the RTC, always-on timers and retention SRAM lose their contents, so the next rise is a power-on reset. -/
  | alwaysOnRailCollapse
  /-- ASYNC_LATCH_EDGE (R326). An edge at source `n`. -/
  | asyncLatchEdge (n : Fin 1152) (rising : Bool)
  /-- UART_CTS_CHANGE (R440). `on`: CTS is asserted. -/
  | uartCtsChange (n : Fin 2) (on : Bool)
  /-- OZTIS_BAD_FRAME (R409). `crc`: the CRC fails; `typ`, `tag`: TYPE and TAG as received. -/
  | oztisBadFrame (crc : Bool) (typ tag : Byte)
  /-- HOST_UNKNOWN_COMMAND (R428). `b`: the command byte. -/
  | hostUnknownCommand (b : Byte)
  deriving DecidableEq, Repr

end Sys2Proof
end

