-- ==== Sys2Proof/WellFormed.lean ====
section
/-! DEFINITION. Commands whose operands the spec admits. The other operands have types that hold nothing else; a command that is not well
formed has its effect all the same, on the operands as they stand. -/

namespace Sys2Proof

/-- Numbers of bits of one memory word, 144 at most, none twice (R317). -/
def upsOk (up : List Nat) : Bool := up.all (fun j => decide (j < 144)) && decide up.Nodup

/-- A payload of at most 4,104 bytes (R408). -/
def payOk (pay : List Byte) : Bool := decide (pay.length ≤ 4104)

/-- A reserved opcode: 1 to 9 bytes, sixteen registers, an exception of Table 13.7 (R285). -/
def reservedOk (len : Nat) (g : List Word) (exc : Option ReservedExc) : Bool :=
  decide (1 ≤ len ∧ len ≤ 9 ∧ g.length ≤ 16) && (match exc with
    | none => true
    | some e => decide (1 ≤ e.code ∧ e.code ≤ 8) || e.code == 10)

/-- A 64-byte line of the address space (Table 14.5). -/
def lineOk (line : Nat) : Bool := decide (line < 2 ^ 26)

/-- A CRC that fails, or a TYPE outside Table 22.2. -/
def badFrameOk (crc : Bool) (typ : Byte) : Bool :=
  crc || !([0x01, 0x02, 0x03, 0x04, 0x05, 0x10, 0x11, 0x12, 0x13, 0x20, 0x21, 0x22, 0x23, 0x24, 0x25] : List Byte).contains typ

/-- The blocks of a capture page, 1 to 40 of 32 samples (Table 8.4). -/
def pageOk (blks : List (List Cx × Bool)) : Bool := decide (1 ≤ blks.length ∧ blks.length ≤ 40) && blks.all (fun b => b.1.length == 32)

/-- A bit line of a bank, and how many fail: 580 with the spares (R317). -/
def flashEndOk (line n : Nat) : Bool := decide (line ≤ 580 ∧ n ≤ 580)

/-- A contactless request: flags, a command code and a CRC at least. -/
def requestOk (frame : List Byte) : Bool := decide (4 ≤ frame.length)

/-- A block of a packet: 114 codewords at most (R158). -/
def blockOk (idx : Nat) : Bool := decide (idx < 114)

/-- A reason of Table 19.4. -/
def reasonOk (r : Fin 12) : Bool := decide (1 ≤ r.val)

/-- Every check on a command's operands. -/
def Instr.wf (i : Instr) : Bool :=
  match i with
  | .fieldLineFault _ _ => true
  | .fieldLineRetry _ => true
  | .flnCfgWrite _ _ _ => true
  | .fltClear _ _ => true
  | .interDieTransfer _ _ => true
  | .linkLost _ => true
  | .rfDieResetEnd => true
  | .rfDieResow => true
  | .supplyLowWarning => true
  | .supplyLowClear => true
  | .brownOut => true
  | .brownOutRelease => true
  | .powerOnReset => true
  | .vinWindowEnd _ => true
  | .reservationRelease _ => true
  | .powerMonitorSample _ => true
  | .overClear _ => true
  | .thermalShutdown => true
  | .thermalRelease => true
  | .resetPin => true
  | .sysrst _ => true
  | .rfdie _ => true
  | .fldie _ => true
  | .rootPllLock _ _ => true
  | .resetRelease _ _ => true
  | .domainGate _ => true
  | .domainWake _ => true
  | .referenceFailure => true
  | .fallbackRelock => true
  | .refCountWindow _ => true
  | .restore _ _ => true
  | .restoreRelock => true
  | .lfCrystalFailure => true
  | .substituteSwitch => true
  | .fullPlanSow _ _ => true
  | .viobMeasure _ => true
  | .bootHandoff => true
  | .sowStage _ => true
  | .stageValidated _ => true
  | .sowApply _ => true
  | .sowArm _ => true
  | .sowCancel _ => true
  | .sowActivation => true
  | .drainEnd _ => true
  | .drainLimit _ => true
  | .channelizerReload _ => true
  | .detectorResume _ => true
  | .rxChainOn _ _ _ => true
  | .rxChainReady _ => true
  | .rxChainOff _ _ _ => true
  | .agcWindowEnd _ _ _ => true
  | .agcStepUp _ => true
  | .gainWrite _ _ _ => true
  | .mctapWrite _ _ _ => true
  | .blankingEnd _ => true
  | .calfWrite _ _ _ _ => true
  | .pwrtabWrite _ _ _ _ => true
  | .txArm _ _ _ _ _ _ _ => true
  | .coexRequestRaise _ => true
  | .txSetup _ => true
  | .trswToTransmit _ => true
  | .lockCheck _ _ => true
  | .rampStart _ _ => true
  | .grantSeen _ => true
  | .grantWaitTimeout _ => true
  | .coexAbort _ _ => true
  | .txLastSample _ => true
  | .rampDownEnd _ => true
  | .txEnd _ => true
  | .antennaWrite _ _ => true
  | .dwellTrackerFree _ _ => true
  | .txHoldEnd _ => true
  | .detectorWindow _ _ _ e _ _ x => decide (x.length = 2 ^ (e.val + 5))
  | .furrowSymbol _ _ => true
  | .reclaimComplete _ => true
  | .earlyVerdict _ => true
  | .addressFilter _ => true
  | .decoderGrant => true
  | .blockDecoded _ => true
  | .blockExpire _ _ idx => blockOk idx
  | .furrowRelease _ _ => true
  | .furrowAbort _ _ => true
  | .mcTraining _ _ => true
  | .mcSymbol _ _ => true
  | .mcxRelease _ _ _ => true
  | .mcxAbort _ _ _ => true
  | .mcxEnable _ _ _ => true
  | .poolOn _ => true
  | .poolOff _ => true
  | .recordGiveBack _ _ => true
  | .capturePageFull _ _ blks => pageOk blks
  | .subtractionStart _ => true
  | .subtractionEnd _ => true
  | .reentryAccept _ => true
  | .rewaitExpiry _ => true
  | .slotAbort _ _ => true
  | .unwindOn _ => true
  | .unwindOff _ => true
  | .micCheckEnd => true
  | .verdictDeadline _ => true
  | .txSubmit _ _ => true
  | .descriptorArm _ => true
  | .ccaAssessment _ _ _ => true
  | .ccaBackoffEnd _ => true
  | .ackWaitExpiry _ _ _ => true
  | .completionRead _ => true
  | .verdictRead _ => true
  | .pollResponseArm _ => true
  | .queueEnq _ _ => true
  | .queueReplace _ _ => true
  | .queueCancel _ _ => true
  | .queueFlush _ _ => true
  | .expectationWindowClose _ => true
  | .childTableWrite _ _ _ _ => true
  | .txfcntWrite _ _ => true
  | .meshTimeSet _ _ => true
  | .syncAgeLimit => true
  | .beaconArm => true
  | .alarmArm _ _ => true
  | .alarmFire _ => true
  | .cacheExpiry _ => true
  | .relayDelayExpiry _ => true
  | .relayHoldEnd _ => true
  | .originate _ _ => true
  | .floodEventRead _ => true
  | .meshTimeRead _ => true
  | .keyLoad _ _ _ => true
  | .keyLoadname _ _ _ => true
  | .keyUnload _ _ => true
  | .keyGenerate _ _ _ => true
  | .keyRaise _ _ => true
  | .keyRevoke _ => true
  | .keyCommandEnd => true
  | .slotErased _ => true
  | .counterScan _ _ => true
  | .spanRaise _ _ => true
  | .raiseRetry _ _ => true
  | .fcntCeilingRaise _ => true
  | .aesJobSubmit _ _ => true
  | .aesJobStart _ => true
  | .aesJobEnd _ => true
  | .shaStart _ _ => true
  | .shaUpdate _ _ => true
  | .shaFinal _ _ => true
  | .shaEnd _ => true
  | .rngFailure => true
  | .randomRead _ => true
  | .appendSubmit _ _ => true
  | .verifySubmit _ _ => true
  | .archiveSubmit _ _ => true
  | .ledgerAppend => true
  | .ledgerVerify => true
  | .ledgerPush => true
  | .recordDurable _ _ => true
  | .ledgerRecovery => true
  | .originWrite _ _ => true
  | .directoryInsert _ => true
  | .directoryRemove _ => true
  | .directoryClear _ => true
  | .ledgerLookup _ _ => true
  | .nop _ => true
  | .halt _ => true
  | .fenceFull _ => true
  | .fenceLoad _ => true
  | .fenceStore _ => true
  | .fenceSync _ => true
  | .trap _ => true
  | .ret _ up => upsOk up
  | .iret _ => true
  | .brk _ => true
  | .ud _ => true
  | .add _ => true
  | .adc _ => true
  | .sub _ => true
  | .sbb _ => true
  | .and _ => true
  | .or _ => true
  | .xor _ => true
  | .cmp _ => true
  | .mov _ => true
  | .movs _ => true
  | .xchg _ => true
  | .not _ => true
  | .neg _ => true
  | .tst _ => true
  | .shl _ => true
  | .shr _ => true
  | .sar _ => true
  | .rol _ => true
  | .ror _ => true
  | .mul _ => true
  | .mulh _ => true
  | .mulhu _ => true
  | .div _ => true
  | .divu _ => true
  | .rem _ => true
  | .remu _ => true
  | .bcc _ => true
  | .ld _ up => upsOk up
  | .st _ up => upsOk up
  | .lds _ up => upsOk up
  | .lea _ => true
  | .push _ => true
  | .pop _ up => upsOk up
  | .call _ => true
  | .callr _ => true
  | .jmp _ => true
  | .jmpr _ => true
  | .ldx _ up => upsOk up
  | .stx _ => true
  | .clz _ => true
  | .bswap _ => true
  | .sext _ => true
  | .movfl _ => true
  | .setfl _ => true
  | .csrr _ => true
  | .csrw _ => true
  | .daja _ => true
  | .dajs _ => true
  | .cvbd _ => true
  | .cvdb _ => true
  | .chkd _ => true
  | .spmulc _ => true
  | .spmag _ => true
  | .ldsp _ up => upsOk up
  | .stsp _ up => upsOk up
  | .reservedOpcode _ len g _ _ exc => reservedOk len g exc
  | .interruptEntry _ => true
  | .haltWake _ => true
  | .coreReset _ _ => true
  | .coreRestart _ => true
  | .writebackArrival _ line => lineOk line
  | .semTake _ _ => true
  | .semGive _ _ _ => true
  | .semRescue _ _ => true
  | .flashProgram _ _ => true
  | .flashProgbuf _ _ => true
  | .flashErase _ _ => true
  | .flashMread _ _ => true
  | .flashBlank _ _ => true
  | .flashColtest _ _ => true
  | .flashColrepair _ _ => true
  | .flashCommandEnd _ _ line n => flashEndOk line n
  | .moveEnd _ _ => true
  | .deferredMove _ => true
  | .eraseSuspend _ => true
  | .eraseResume _ => true
  | .flashStartup => true
  | .sourceChange _ _ => true
  | .softwarePend _ _ _ => true
  | .pendingClear _ _ _ => true
  | .interruptAcknowledge _ => true
  | .interruptComplete _ _ => true
  | .holdoffExpiry _ => true
  | .holdoffWrite _ _ _ => true
  | .channelEvent _ _ => true
  | .cellFilterExpiry _ => true
  | .channelFire _ _ => true
  | .lutWrite _ _ _ => true
  | .groupEnable _ _ => true
  | .groupDisable _ _ => true
  | .gatedInputDelivery _ => true
  | .timerTick _ => true
  | .timerPeriodEnd _ => true
  | .timerCompare _ _ => true
  | .timerCapture _ _ => true
  | .timerControlWrite _ _ _ => true
  | .timerGroupStart _ => true
  | .timerGroupStop _ => true
  | .timerCommit _ _ _ _ => true
  | .lfEdgeCount _ => true
  | .aonTimerEdge _ => true
  | .aonTimerExpiry _ => true
  | .aonTimerWrite _ _ _ _ => true
  | .rtcEdge => true
  | .rtcTempSample _ => true
  | .calendarFreeze _ => true
  | .calendarHalt => true
  | .calendarWrite _ _ _ => true
  | .calendarResume => true
  | .rtcAlarm => true
  | .rtcTick => true
  | .levelChange _ _ _ => true
  | .levelChangeEnd _ => true
  | .requestIdle _ => true
  | .requestListen _ => true
  | .requestFallow _ => true
  | .requestOff _ => true
  | .participantAnswer => true
  | .participantTimeout => true
  | .wake r => reasonOk r
  | .wakeComplete => true
  | .listenWindowOpen => true
  | .listenWindowClose => true
  | .closeRetry => true
  | .inspectEntry => true
  | .inspectExit _ => true
  | .calTempSample _ => true
  | .correctionCompute _ _ => true
  | .correctionApply _ => true
  | .correctionForced _ _ => true
  | .txsynMeasureStart _ => true
  | .txsynMeasureEnd _ _ => true
  | .calibrationLoad => true
  | .calStore _ => true
  | .calStoreEnd _ => true
  | .savecurve _ => true
  | .savesyn _ _ => true
  | .recal _ _ => true
  | .carrierOn _ => true
  | .carrierOff _ => true
  | .nfcSend _ => true
  | .nfcInventory _ => true
  | .cresp _ => true
  | .cdrop _ => true
  | .nfcCommandEnd _ => true
  | .cardRequest frame => requestOk frame
  | .cardTimeout => true
  | .inspectRequest frame => requestOk frame
  | .noteStored _ => true
  | .fieldChange _ => true
  | .tornWrite _ => true
  | .suidRead _ => true
  | .oztisHello _ pay => payOk pay
  | .oztisReset _ pay => payOk pay
  | .challenge _ pay => payOk pay
  | .unlock _ pay => payOk pay
  | .oztisLock _ pay => payOk pay
  | .openXfer _ pay _ => payOk pay
  | .burst _ pay => payOk pay
  | .oztisCheck _ pay => payOk pay
  | .oztisTry _ pay => payOk pay
  | .oztisRead _ pay => payOk pay
  | .oztisWrite _ pay => payOk pay
  | .oztisHalt _ pay => payOk pay
  | .oztisRun _ pay => payOk pay
  | .regs _ pay => payOk pay
  | .setreg _ pay => payOk pay
  | .atnFall _ => true
  | .sessionTimeout => true
  | .svcCommandEnd _ _ => true
  | .transferProgramEnd _ _ => true
  | .imageCheck _ => true
  | .activationArm _ => true
  | .activationCancel _ => true
  | .imageConfirm _ => true
  | .imageSwitch => true
  | .confirmWindowExpiry => true
  | .bootChoice _ => true
  | .hostRead _ _ => true
  | .hostWrite _ _ => true
  | .hostStat => true
  | .doorbell _ => true
  | .irqclr _ => true
  | .hostFlagSet _ _ => true
  | .hostWindowWrite _ _ _ => true
  | .i2cTransfer _ _ _ => true
  | .i2cRecover _ _ => true
  | .i2cCommandEnd _ _ _ _ => true
  | .sclStretchTimeout _ => true
  | .i2cDisable _ _ _ => true
  | .i2cDataWrite _ _ _ _ => true
  | .i2cDataRead _ _ _ => true
  | .spiTransfer _ _ => true
  | .spiTransferEnd _ => true
  | .spiDisable _ _ _ => true
  | .uartTxPush _ _ _ => true
  | .uartRxPop _ _ => true
  | .uartByteReceived _ _ _ _ => true
  | .uartByteSent _ => true
  | .gpioSet _ _ _ => true
  | .gpioClr _ _ _ => true
  | .errorLogTake => true
  | .errorLogLatch _ => true
  | .errorLogPop _ => true
  | .ovfClear _ => true
  | .counterRead _ _ => true
  | .registerWrite _ _ _ => true
  | .alwaysOnRailCollapse => true
  | .asyncLatchEdge _ _ => true
  | .uartCtsChange _ _ => true
  | .oztisBadFrame crc typ _ => badFrameOk crc typ
  | .hostUnknownCommand _ => true

end Sys2Proof
end

