-- ==== Sys2Proof/Machine/Bits.lean ====
section
/-! DEFINITION. Bit-field, byte-order and sign helpers that every block uses. -/

namespace Sys2Proof.Machine

/-- The bits of a field, in place. -/
def fmask (f : Fld) : Word := BitVec.ofNat 32 ((2 ^ f.width - 1) <<< f.lo)

/-- The value of a field, as a number. -/
def getF (w : Word) (f : Fld) : Nat := (w.toNat >>> f.lo) % 2 ^ f.width

/-- A word with one field replaced (the value cut to the field's width). -/
def setF (w : Word) (f : Fld) (v : Nat) : Word :=
  (w &&& ~~~(fmask f)) ||| BitVec.ofNat 32 ((v % 2 ^ f.width) <<< f.lo)

/-- A word built from field values, every other bit 0 (reserved bits read as 0, R15). -/
def mkWord (l : List (Fld × Nat)) : Word := l.foldl (fun w p => setF w p.1 p.2) 0

/-- Bit `i` of a word set to `b`. -/
def putBit (w : Word) (i : Nat) (b : Bool) : Word := setF w ⟨i, i⟩ b.toNat

/-- Bit `i` of a word. -/
def testBit (w : Word) (i : Nat) : Bool := w.getLsbD i

/-- The low `n` bits of `v` as a two's-complement number. -/
def sext (n v : Nat) : Int := if v % 2 ^ n < 2 ^ (n - 1) then (v % 2 ^ n : Nat) else (v % 2 ^ n : Nat) - (2 ^ n : Nat)

/-- An integer as `n` two's-complement bits. -/
def twos (n : Nat) (i : Int) : Nat := (i % (2 ^ n : Nat)).toNat

/-- Little-endian bytes of a number. -/
def leBytes : Nat → Nat → List Byte
  | 0, _ => []
  | n + 1, v => BitVec.ofNat 8 v :: leBytes n (v / 256)

/-- The number that little-endian bytes spell. -/
def leVal : List Byte → Nat
  | [] => 0
  | b :: r => b.toNat + 256 * leVal r

/-- Big-endian bytes of a number. -/
def beBytes (n v : Nat) : List Byte := (leBytes n v).reverse

/-- The number that big-endian bytes spell. -/
def beVal (l : List Byte) : Nat := leVal l.reverse

/-- A number written as packed decimal digits (BCD), `n` digits. -/
def toBcd : Nat → Nat → Nat
  | 0, _ => 0
  | n + 1, v => v % 10 + 16 * toBcd n (v / 10)

/-- The number that `n` packed decimal digits spell. -/
def ofBcd : Nat → Nat → Nat
  | 0, _ => 0
  | n + 1, v => v % 16 + 10 * ofBcd n (v / 16)

/-- Every one of the `n` packed digits is 0 to 9. -/
def isBcd : Nat → Nat → Bool
  | 0, _ => true
  | n + 1, v => decide (v % 16 ≤ 9) && isBcd n (v / 16)

/-- Division rounding up. -/
def ceilDiv (a b : Nat) : Nat := (a + b - 1) / b

/-- Round a quotient to the nearest integer, halves upward. -/
def roundDiv (a b : Nat) : Nat := (2 * a + b) / (2 * b)

/-- Bound an integer to `[lo, hi]`. -/
def clampI (lo hi x : Int) : Int := if x < lo then lo else if hi < x then hi else x

/-- `a` is later than `b` for `n`-bit sequence numbers (R16): the difference lies in 1 to 2^(n-1) − 1. -/
def seqLater (n a b : Nat) : Bool :=
  let d := (a + 2 ^ n - b % 2 ^ n) % 2 ^ n
  decide (1 ≤ d ∧ d ≤ 2 ^ (n - 1) - 1)

/-- Replace the elements of a list from position `i` by `v` at that one position; unchanged when out of range. -/
def setAt {α : Type} : List α → Nat → α → List α
  | [], _, _ => []
  | _ :: r, 0, v => v :: r
  | x :: r, i + 1, v => x :: setAt r i v

/-- The numbers `[a, a+1, …, a+n−1]`. -/
def span : Nat → Nat → List Nat
  | _, 0 => []
  | a, n + 1 => a :: span (a + 1) n

end Sys2Proof.Machine
end

