-- ==== Sys2Proof/Machine/Crypto.lean ====
section
/-! DEFINITION. The standard functions the manual names: the CRCs of Tables 6.4 and R60, AES (R234), CTR, CCM*, GCM and
CMAC (R238), RFC 3394 (R220), SHA-256 (R240) and ECDSA P-256 verification (R61). The manual cites their standards and does
not repeat them (log entry 21). -/

namespace Sys2Proof.Machine

/-! ### CRCs (R60, R109) -/

/-- One bit of a CRC whose register shifts left, `n` bits wide. -/
def crcBitL (n poly c : Nat) (b : Bool) : Nat :=
  let s := (2 * c) % 2 ^ n
  if (c.testBit (n - 1)) != b then s ^^^ poly else s

/-- One byte, most significant bit first. -/
def crcByteL (n poly c : Nat) (b : Byte) : Nat :=
  [7, 6, 5, 4, 3, 2, 1, 0].foldl (fun c i => crcBitL n poly c (b.getLsbD i)) c

/-- One byte of the reflected CRC-32. -/
def crcByteR (c : Nat) (b : Byte) : Nat :=
  (span 0 8).foldl (fun c _ => if c.testBit 0 then (c / 2) ^^^ 0xEDB88320 else c / 2) (c ^^^ b.toNat)

def crc8 (l : List Byte) : Nat := l.foldl (crcByteL 8 0x07) 0
def crc16 (l : List Byte) : Nat := l.foldl (crcByteL 16 0x1021) 0xFFFF
def crc32 (l : List Byte) : Nat := (l.foldl crcByteR 0xFFFFFFFF) ^^^ 0xFFFFFFFF

/-! ### AES -/

/-- Multiplication by x in the field of AES. -/
def xtime (a : Nat) : Nat := if a < 128 then 2 * a else (2 * a) ^^^ 0x11B

/-- Multiplication in the field of AES by a polynomial `m` of degree below 4 (the rows of the column matrices have no other). -/
def gmul (m b : Nat) : Nat :=
  let b2 := xtime b
  let b4 := xtime b2
  (if m % 2 = 1 then b else 0) ^^^ (if m / 2 % 2 = 1 then b2 else 0) ^^^ (if m / 4 % 2 = 1 then b4 else 0) ^^^ (if m / 8 = 1 then xtime b4 else 0)

/-- The substitution box (the inverse in the field, then the affine map) as one number, entry 0 in its lowest byte. -/
def sboxTable : Nat :=
  0xC072A49CAFA2D4ADF04759FA7DC982CA76ABD7FE2B670130C56F6BF27B777C63 +
  0x75B227EBE28012079A059618C323C7041531D871F1E5A534CCF73F362693FDB7 * 2 ^ 256 +
  0xCF584C4A39BECB6A5BB1FC20ED00D153842FE329B3D63B52A05A6E1B1A2C8309 * 2 ^ 512 +
  0xD2F3FF1021DAB6BCF5389D928F40A351A89F3C507F02F94585334D43FBAAEFD0 * 2 ^ 768 +
  0xDB0B5EDE14B8EE4688902A22DC4F816073195D643D7EA7C41744975FEC130CCD * 2 ^ 1024 +
  0x08AE7A65EAF4566CA94ED58D6D37C8E779E4959162ACD3C25C2406490A3A32E0 * 2 ^ 1280 +
  0x9E1DC186B95735610EF6034866B53E708A8BBD4B1F74DDE8C6B4A61C2E2578BA * 2 ^ 1536 +
  0x16BB54B00F2D99416842E6BF0D89A18CDF2855CEE9871E9B948ED9691198F8E1 * 2 ^ 1792

/-- Its inverse. -/
def sboxInvTable : Nat :=
  0xCBE9DEC444438E3487FF2F9B8239E37CFBD7F3819EA340BF38A53630D56A0952 +
  0x25D18B6D49A25B76B224D92866A12E084EC3FA420B954CEE3D23C2A632947B54 * 2 ^ 256 +
  0x849D8DA75746155EDAB9EDFD5048706C92B6655DCC5CA4D41698688664F6F872 * 2 ^ 512 +
  0x6B8A130103BDAFC1020F3FCA8F1E2CD00645B3B80558E4F70AD3BC8C00ABD890 * 2 ^ 768 +
  0x6EDF751CE837F9E28535ADE72274AC9673E6B4F0CECFF297EADC674F4111913A * 2 ^ 1024 +
  0xF45ACD78FEC0DB9A2079D2C64B3E56FC1BBE18AA0E62B76F89C5291D711AF147 * 2 ^ 1280 +
  0xEF9CC9939F7AE52D0D4AB519A97F51605FEC8027591012B131C7078833A8DD1F * 2 ^ 1536 +
  0x7D0C2155631469E126D677BA7E042B17619953833CBBEBC8B0F52AAE4D3BE0A0 * 2 ^ 1792

def sbox (a : Byte) : Byte := BitVec.ofNat 8 (sboxTable / 2 ^ (8 * a.toNat))
def sboxInv (a : Byte) : Byte := BitVec.ofNat 8 (sboxInvTable / 2 ^ (8 * a.toNat))

def xorBytes (a b : List Byte) : List Byte := List.zipWith (· ^^^ ·) a b

/-- The next word of a key schedule of `nk` words; the words so far newest first. -/
def keyWord (nk i : Nat) (ws : List (List Byte)) : List Byte :=
  let prev := ws.getD 0 []
  let t :=
    if i % nk = 0 then
      let r := (prev.drop 1 ++ prev.take 1).map sbox
      let rc := (span 1 (i / nk - 1)).foldl (fun c _ => xtime c) 1
      xorBytes r [BitVec.ofNat 8 rc, 0, 0, 0]
    else if 6 < nk ∧ i % nk = 4 then prev.map sbox
    else prev
  xorBytes (ws.getD (nk - 1) []) t

def keyWords (nk i : Nat) (ws : List (List Byte)) : Nat → List (List Byte)
  | 0 => ws
  | n + 1 => keyWords nk (i + 1) (keyWord nk i ws :: ws) n

/-- Cut a list into pieces of `k`. -/
def pieces {α : Type} (k : Nat) (l : List α) : Nat → List (List α)
  | 0 => []
  | n + 1 => l.take k :: pieces k (l.drop k) n

/-- The round keys of a 16, 24 or 32-byte key. -/
def roundKeys (key : List Byte) : List (List Byte) :=
  let nk := key.length / 4
  let ws := (keyWords nk nk (pieces 4 key nk).reverse (4 * (nk + 7) - nk)).reverse
  pieces 16 ws.flatten (nk + 7)

/-- The state is 16 bytes, column after column. -/
def shiftRows (s : List Byte) : List Byte := (span 0 16).map (fun i => s.getD ((i + 4 * (i % 4)) % 16) 0)
def shiftRowsInv (s : List Byte) : List Byte := (span 0 16).map (fun i => s.getD ((i + 12 * (i % 4)) % 16) 0)

/-- Every column times a circulant given by its first row. -/
def mixWith (m : List Nat) (s : List Byte) : List Byte :=
  (span 0 16).map (fun i =>
    let c := 4 * (i / 4)
    BitVec.ofNat 8 ((span 0 4).foldl (fun a j => a ^^^ gmul (m.getD ((j + 4 - i % 4) % 4) 0) (s.getD (c + j) 0).toNat) 0))

def aesRounds : List (List Byte) → List Byte → List Byte
  | [], s => s
  | [k], s => xorBytes (shiftRows (s.map sbox)) k
  | k :: r, s => aesRounds r (xorBytes (mixWith [2, 3, 1, 1] (shiftRows (s.map sbox))) k)

/-- AES of one block. -/
def aesEnc (key blk : List Byte) : List Byte :=
  match roundKeys key with
  | [] => blk
  | k :: r => aesRounds r (xorBytes blk k)

def aesRoundsInv : List (List Byte) → List Byte → List Byte
  | [], s => s
  | [k], s => xorBytes s k
  | k :: r, s => aesRoundsInv r (mixWith [14, 11, 13, 9] (xorBytes s k) |> shiftRowsInv |>.map sboxInv)

/-- The inverse of AES of one block. -/
def aesDec (key blk : List Byte) : List Byte :=
  match (roundKeys key).reverse with
  | [] => blk
  | k :: r => aesRoundsInv r ((shiftRowsInv (xorBytes blk k)).map sboxInv)

/-! ### Modes -/

/-- Zero bytes up to a multiple of 16. -/
def padTo16 (l : List Byte) : List Byte := l ++ List.replicate ((16 - l.length % 16) % 16) 0

def blocks16 (l : List Byte) : List (List Byte) := pieces 16 l (ceilDiv l.length 16)

/-- A counter block with its last `w` bytes advanced by `n`. -/
def ctrPlus (w : Nat) (c : List Byte) (n : Nat) : List Byte :=
  c.take (16 - w) ++ beBytes w ((beVal (c.drop (16 - w)) + n) % 2 ^ (8 * w))

/-- CTR over a message, counting in the last `w` bytes from the block `c`. -/
def ctrMode (key : List Byte) (w : Nat) (c msg : List Byte) : List Byte :=
  let bs := blocks16 msg
  ((span 0 bs.length).zip bs).flatMap (fun p => xorBytes p.2 (aesEnc key (ctrPlus w c p.1)))

/-- CBC-MAC over whole blocks. -/
def cbcMac (key : List Byte) (l : List Byte) : List Byte :=
  (blocks16 l).foldl (fun x b => aesEnc key (xorBytes x b)) (List.replicate 16 0)

/-- The tag of CCM* with L = 2 (R238): nonce of 13 bytes, `m` tag bytes. -/
def ccmTag (key nonce aad msg : List Byte) (m : Nat) : List Byte :=
  if m = 0 then [] else
  let flags : Byte := BitVec.ofNat 8 ((if aad = [] then 0 else 64) + 8 * ((m - 2) / 2) + 1)
  let b0 := [flags] ++ nonce ++ beBytes 2 msg.length
  let a := if aad = [] then [] else padTo16 (beBytes 2 aad.length ++ aad)
  let t := cbcMac key (b0 ++ a ++ padTo16 msg)
  xorBytes (t.take m) (aesEnc key ([1] ++ nonce ++ [0, 0]))

/-- The body of CCM* encrypted or decrypted. -/
def ccmCrypt (key nonce msg : List Byte) : List Byte := ctrMode key 2 ([1] ++ nonce ++ [0, 1]) msg

/-- Doubling in CMAC. -/
def cmacDouble (l : List Byte) : List Byte :=
  let v := beVal l
  beBytes 16 (((2 * v) % 2 ^ 128) ^^^ (if v.testBit 127 then 0x87 else 0))

/-- CMAC (SP 800-38B). -/
def cmac (key msg : List Byte) : List Byte :=
  let k1 := cmacDouble (aesEnc key (List.replicate 16 0))
  let n := ceilDiv msg.length 16 - 1
  let last := msg.drop (16 * n)
  let tail := if last.length = 16 then xorBytes last k1
    else xorBytes (padTo16 (last ++ [0x80])) (cmacDouble k1)
  cbcMac key (msg.take (16 * n) ++ tail)

/-- Multiplication of GCM, bit 0 leftmost. -/
def ghMul (x y : Nat) : Nat :=
  ((span 0 128).foldl (fun (p : Nat × Nat) i =>
    (if x.testBit (127 - i) then p.1 ^^^ p.2 else p.1,
     if p.2.testBit 0 then (p.2 / 2) ^^^ (0xE1 * 2 ^ 120) else p.2 / 2)) (0, y)).1

def ghash (h : Nat) (l : List Byte) : Nat := (blocks16 l).foldl (fun x b => ghMul (x ^^^ beVal b) h) 0

/-- The tag of GCM with a 96-bit IV, over the ciphertext. -/
def gcmTag (key iv aad ct : List Byte) (m : Nat) : List Byte :=
  let h := beVal (aesEnc key (List.replicate 16 0))
  let s := ghash h (padTo16 aad ++ padTo16 ct ++ beBytes 8 (8 * aad.length) ++ beBytes 8 (8 * ct.length))
  (xorBytes (beBytes 16 s) (aesEnc key (iv ++ [0, 0, 0, 1]))).take m

def gcmCrypt (key iv msg : List Byte) : List Byte := ctrMode key 4 (iv ++ [0, 0, 0, 2]) msg

/-- One step of RFC 3394: A, the registers and the step number. -/
def wrapSteps (key : List Byte) (n : Nat) : Nat → Nat → List Byte × List (List Byte) → List Byte × List (List Byte)
  | 0, _, s => s
  | k + 1, t, (a, r) =>
    let i := (t - 1) % n
    let b := aesEnc key (a ++ r.getD i [])
    wrapSteps key n k (t + 1) (beBytes 8 (beVal (b.take 8) ^^^ t), setAt r i (b.drop 8))

def unwrapSteps (key : List Byte) (n : Nat) : Nat → List Byte × List (List Byte) → List Byte × List (List Byte)
  | 0, s => s
  | t + 1, (a, r) =>
    let i := t % n
    let b := aesDec key (beBytes 8 (beVal a ^^^ (t + 1)) ++ r.getD i [])
    unwrapSteps key n t (b.take 8, setAt r i (b.drop 8))

def wrapIv : List Byte := List.replicate 8 0xA6

/-- RFC 3394 wrap and unwrap; the unwrap answers nothing where the integrity check fails. -/
def keyWrap (key p : List Byte) : List Byte :=
  let n := p.length / 8
  let s := wrapSteps key n (6 * n) 1 (wrapIv, pieces 8 p n)
  s.1 ++ s.2.flatten

def keyUnwrap (key c : List Byte) : Option (List Byte) :=
  let n := c.length / 8 - 1
  let s := unwrapSteps key n (6 * n) (c.take 8, pieces 8 (c.drop 8) n)
  if s.1 = wrapIv then some s.2.flatten else none

/-! ### SHA-256 -/

def shaK : List Word :=
  [0x428A2F98, 0x71374491, 0xB5C0FBCF, 0xE9B5DBA5, 0x3956C25B, 0x59F111F1, 0x923F82A4, 0xAB1C5ED5] ++
  [0xD807AA98, 0x12835B01, 0x243185BE, 0x550C7DC3, 0x72BE5D74, 0x80DEB1FE, 0x9BDC06A7, 0xC19BF174] ++
  [0xE49B69C1, 0xEFBE4786, 0x0FC19DC6, 0x240CA1CC, 0x2DE92C6F, 0x4A7484AA, 0x5CB0A9DC, 0x76F988DA] ++
  [0x983E5152, 0xA831C66D, 0xB00327C8, 0xBF597FC7, 0xC6E00BF3, 0xD5A79147, 0x06CA6351, 0x14292967] ++
  [0x27B70A85, 0x2E1B2138, 0x4D2C6DFC, 0x53380D13, 0x650A7354, 0x766A0ABB, 0x81C2C92E, 0x92722C85] ++
  [0xA2BFE8A1, 0xA81A664B, 0xC24B8B70, 0xC76C51A3, 0xD192E819, 0xD6990624, 0xF40E3585, 0x106AA070] ++
  [0x19A4C116, 0x1E376C08, 0x2748774C, 0x34B0BCB5, 0x391C0CB3, 0x4ED8AA4A, 0x5B9CCA4F, 0x682E6FF3] ++
  [0x748F82EE, 0x78A5636F, 0x84C87814, 0x8CC70208, 0x90BEFFFA, 0xA4506CEB, 0xBEF9A3F7, 0xC67178F2]

def shaInit : List Word :=
  [0x6A09E667, 0xBB67AE85, 0x3C6EF372, 0xA54FF53A, 0x510E527F, 0x9B05688C, 0x1F83D9AB, 0x5BE0CD19]

def rotr (w : Word) (n : Nat) : Word := w.rotateRight n

/-- The message schedule, newest word first. -/
def shaSched : Nat → List Word → List Word
  | 0, w => w
  | n + 1, w =>
    let a := w.getD 14 0
    let b := w.getD 1 0
    let s0 := rotr a 7 ^^^ rotr a 18 ^^^ (a >>> 3)
    let s1 := rotr b 17 ^^^ rotr b 19 ^^^ (b >>> 10)
    shaSched n ((w.getD 15 0 + s0 + w.getD 6 0 + s1) :: w)

def shaRound (v : List Word) (kw : Word × Word) : List Word :=
  let g := fun i => v.getD i 0
  let s1 := rotr (g 4) 6 ^^^ rotr (g 4) 11 ^^^ rotr (g 4) 25
  let ch := (g 4 &&& g 5) ^^^ (~~~(g 4) &&& g 6)
  let t1 := g 7 + s1 + ch + kw.1 + kw.2
  let s0 := rotr (g 0) 2 ^^^ rotr (g 0) 13 ^^^ rotr (g 0) 22
  let mj := (g 0 &&& g 1) ^^^ (g 0 &&& g 2) ^^^ (g 1 &&& g 2)
  [t1 + s0 + mj, g 0, g 1, g 2, g 3 + t1, g 4, g 5, g 6]

/-- One block of 64 bytes. -/
def shaBlock (h : List Word) (b : List Byte) : List Word :=
  let m := (pieces 4 b 16).map (fun l => BitVec.ofNat 32 (beVal l))
  let w := (shaSched 48 m.reverse).reverse
  List.zipWith (· + ·) h ((shaK.zip w).foldl shaRound h)

/-- Every whole block of a message. -/
def shaBlocks (h : List Word) (l : List Byte) : List Word := (pieces 64 l (l.length / 64)).foldl shaBlock h

/-- The padding after `n` bytes in all. -/
def shaPad (n : Nat) : List Byte := [0x80] ++ List.replicate ((119 - n % 64) % 64) 0 ++ beBytes 8 (8 * n)

def shaBytes (h : List Word) : List Byte := h.flatMap (fun w => beBytes 4 w.toNat)

def sha256 (l : List Byte) : List Byte := shaBytes (shaBlocks shaInit (l ++ shaPad l.length))

/-! ### ECDSA P-256 -/

def p256p : Nat := 2 ^ 256 - 2 ^ 224 + 2 ^ 192 + 2 ^ 96 - 1
def p256n : Nat := 0xFFFFFFFF00000000FFFFFFFFFFFFFFFFBCE6FAADA7179E84F3B9CAC2FC632551
def p256b : Nat := 0x5AC635D8AA3A93E7B3EBBD55769886BC651D06B0CC53B0F63BCE3C3E27D2604B
def p256g : Nat × Nat :=
  (0x6B17D1F2E12C4247F8BCE6E563A440F277037D812DEB33A0F4A13945D898C296,
   0x4FE342E2FE1A7F9B8EE7EB4A7C0F9E162BCE33576B315ECECBB6406837BF51F5)

/-- `a ^ e mod m`, over the low `k` bits of `e`. -/
def powMod (m a e : Nat) : Nat → Nat
  | 0 => 1 % m
  | k + 1 => let r := powMod m a (e / 2) k
             if e % 2 = 1 then a * (r * r % m) % m else r * r % m

/-- The inverse modulo a prime. -/
def invMod (m a : Nat) : Nat := powMod m (a % m) (m - 2) 256

/-- `a - b` and `a * b` modulo the prime of the curve. -/
def fsub (a b : Nat) : Nat := (a + p256p - b) % p256p
@[inherit_doc fsub] def fmul (a b : Nat) : Nat := a * b % p256p

/-- A point of the curve as (X / Z², Y / Z³); Z = 0 is the point at infinity. -/
structure JPoint where
  x : Nat
  y : Nat
  z : Nat
  deriving DecidableEq, Repr

def JPoint.double (p : JPoint) : JPoint :=
  let yy := fmul p.y p.y
  let zz := fmul p.z p.z
  let s := fmul 4 (fmul p.x yy)
  let m := fmul 3 (fmul (fsub p.x zz) (p.x + zz))
  let x := fsub (fmul m m) (fmul 2 s)
  ⟨x, fsub (fmul m (fsub s x)) (fmul 8 (fmul yy yy)), fmul 2 (fmul p.y p.z)⟩

def JPoint.add (p q : JPoint) : JPoint :=
  if p.z = 0 then q
  else if q.z = 0 then p
  else
    let pzz := fmul p.z p.z
    let qzz := fmul q.z q.z
    let u := fmul p.x qzz
    let h := fsub (fmul q.x pzz) u
    let s := fmul p.y (fmul qzz q.z)
    let r := fsub (fmul q.y (fmul pzz p.z)) s
    if h = 0 then if r = 0 then p.double else ⟨1, 1, 0⟩
    else
      let hh := fmul h h
      let hhh := fmul hh h
      let v := fmul u hh
      let x := fsub (fmul r r) ((hhh + 2 * v) % p256p)
      ⟨x, fsub (fmul r (fsub v x)) (fmul s hhh), fmul h (fmul p.z q.z)⟩

/-- `k` times a point, over its low `n` bits. -/
def JPoint.mul (q : JPoint) (k : Nat) : Nat → JPoint
  | 0 => ⟨1, 1, 0⟩
  | n + 1 =>
    let r := (JPoint.mul q (k / 2) n).double
    if k % 2 = 1 then r.add q else r

def onCurve (x y : Nat) : Bool :=
  decide (x < p256p ∧ y < p256p) && decide (y * y % p256p = (x * x * x + (p256p - 3) * x + p256b) % p256p)

/-- ECDSA P-256 (FIPS 186): public key X then Y, signature r then s, over a SHA-256 digest; all big-endian. -/
def ecdsaOk (pub sig digest : List Byte) : Bool :=
  let x := beVal (pub.take 32)
  let y := beVal ((pub.drop 32).take 32)
  let r := beVal (sig.take 32)
  let s := beVal ((sig.drop 32).take 32)
  if onCurve x y && decide (1 ≤ r ∧ r < p256n ∧ 1 ≤ s ∧ s < p256n) then
    let w := invMod p256n s
    let p := (JPoint.mul ⟨p256g.1, p256g.2, 1⟩ (beVal digest * w % p256n) 256).add (JPoint.mul ⟨x, y, 1⟩ (r * w % p256n) 256)
    decide (p.z ≠ 0) && decide (fmul p.x (invMod p256p (fmul p.z p.z)) % p256n = r)
  else false

end Sys2Proof.Machine
end

