-- ==== Sys2Proof/Config.lean ====
section
/-! DEFINITION. What the specification leaves open: the free values. Each is an opaque constant without a body, so that no
proof can see a value of it and every statement holds whatever it is. -/

namespace Sys2Proof.Config

/-- The free words: random draws (R241, R396, R186, R209, R414) and the values the spec leaves undefined or unstated. The
model takes the value at a counter that State holds and then advances the counter, so each draw is fresh (log entry 3). -/
opaque freeWord : Nat → Word

/-- The content of the boot ROM, which the manual does not specify (R286; log entry 4). -/
opaque bootRom : Nat → Byte

/-- The calibration codes a synthesiser measurement stores: their layout is internal to the device (Table 5.17, R382;
log entry 5). Arguments: chain, entry, frequency in kHz, the model's free counter. -/
opaque synCodes : Nat → Nat → Nat → Nat → Word

/-- Whether the code of a flash word, which is internal to the device, takes an error of more than two bits for a correctable one (R317; log
entry 124). Argument: the bits in error. -/
opaque miscorrects : List Nat → Bool

/-- What a byte of a flash word that its code has miscorrected reads as (R317; log entry 124). Arguments: its address, the bits in error. -/
opaque miscorrected : Nat → List Nat → Byte

/-- q of a bin whose mean of the others is 0, in 1/65536: R121 divides by that mean (log entry 144). Argument: the bin. -/
opaque quietQ : Nat → Nat

/-- The phase of a value of no magnitude, in 1/8192 of a turn, where R142 keeps a phase or R143 takes one (log entry 144). -/
opaque nullPhase : Nat → Nat

/-- The LLRs of an MC symbol whose channel estimate has no power in any bin: R142 divides by it (log entry 144). Argument: the position. -/
opaque deadLlr : Nat → Byte

/-- DEVUID as the fuses of the part hold it, which an inspection engine reads before any reset has been released (R402; log entry 165). -/
opaque fuseUid : Nat

/-- What a byte of a sector whose erase goes on or is suspended reads as to privileged traffic (R306). Arguments: its address, the model's
free counter. -/
opaque halfErased : Nat → Nat → Byte

/-- Whether such a word reads with an uncorrectable error (R306). Arguments: the word, the model's free counter. -/
opaque halfBad : Nat → Nat → Bool

/-- Where the boot ROM goes on after the boot extension, in words from its base, and the stack pointer it has given C0 by then, in words
from the base of general SRAM (R420 gives neither; log entry 177). -/
opaque romNext : Nat
opaque romStack : Nat

/-- The noise estimate after a gain step, whose making R136 does not give (log entry 172). Argument: the estimate before the step. -/
opaque stepNoise : Nat → Nat

end Sys2Proof.Config
end

