-- ==== Sys2Proof/Machine/RegMap.lean ====
section
/-! DEFINITION. The register map of the KX1024: every register of the specification, its address, its reset value, its
fields with their access codes (Table 0.4, R14) and the cores that may write it.

The addresses are those of Table 14.4 (block bases) and of the register section of each chapter. One definition per
register gives its bus address (a function of its indices where the register is an array), one definition per field gives
its bits, and `regTable` lists every register once. A register with access code RC in one element of an array only (the
queue windows) is listed RO here; the read effect is given by the command that reads it. -/

namespace Sys2Proof.Machine

/-- Access codes of Table 0.4 (R14). -/
inductive Acc where
  | rw | ro | wo | w1c | w1s | rc | rwl
  deriving DecidableEq, Repr

/-- One register or register array: block base, offset, dimensions (count, stride), reset value (with per-element values
where the spec gives them), the mask of cores that may write it (bit 0 C0 … bit 6 K0) and its fields. -/
structure RegDef where
  name   : String
  base   : Nat
  dims   : List (Nat × Nat)
  reset  : Nat
  resets : List Nat
  cores  : Nat
  fields : List (Fld × Acc)
  deriving DecidableEq, Repr

/-! ### Block SYS at 0x40000000 -/

/-- Register SYS_RSTREC (02). -/
def SYS_RSTREC : Nat := 0x40000010
def SYS_RSTREC_FIRST : Fld := ⟨31, 28⟩
def SYS_RSTREC_FLD : Fld := ⟨8, 8⟩
def SYS_RSTREC_RFD : Fld := ⟨7, 7⟩
def SYS_RSTREC_SWR : Fld := ⟨6, 6⟩
def SYS_RSTREC_SVC : Fld := ⟨5, 5⟩
def SYS_RSTREC_PIN : Fld := ⟨4, 4⟩
def SYS_RSTREC_CLKF : Fld := ⟨3, 3⟩
def SYS_RSTREC_TSHD : Fld := ⟨2, 2⟩
def SYS_RSTREC_BOR : Fld := ⟨1, 1⟩
def SYS_RSTREC_POR : Fld := ⟨0, 0⟩

/-- Map row of SYS_RSTREC. -/
def row_SYS_RSTREC : RegDef where
  name := "SYS_RSTREC"
  base := 0x40000010
  dims := []
  reset := 0x00000001
  resets := []
  cores := 0x7F
  fields := [(SYS_RSTREC_FIRST, .ro), (SYS_RSTREC_FLD, .w1c), (SYS_RSTREC_RFD, .w1c), (SYS_RSTREC_SWR, .w1c), (SYS_RSTREC_SVC, .w1c), (SYS_RSTREC_PIN, .w1c), (SYS_RSTREC_CLKF, .w1c), (SYS_RSTREC_TSHD, .w1c), (SYS_RSTREC_BOR, .w1c), (SYS_RSTREC_POR, .w1c)]

/-- Register SYS_RSTCTL (02). -/
def SYS_RSTCTL : Nat := 0x40000014
def SYS_RSTCTL_KEY : Fld := ⟨31, 24⟩
def SYS_RSTCTL_FLDIE : Fld := ⟨2, 2⟩
def SYS_RSTCTL_RFDIE : Fld := ⟨1, 1⟩
def SYS_RSTCTL_SYSRST : Fld := ⟨0, 0⟩

/-- Map row of SYS_RSTCTL. -/
def row_SYS_RSTCTL : RegDef where
  name := "SYS_RSTCTL"
  base := 0x40000014
  dims := []
  reset := 0x00000000
  resets := []
  cores := 0x41
  fields := [(SYS_RSTCTL_KEY, .wo), (SYS_RSTCTL_FLDIE, .wo), (SYS_RSTCTL_RFDIE, .wo), (SYS_RSTCTL_SYSRST, .wo)]

/-- Register SYS_CORERST (14). -/
def SYS_CORERST : Nat := 0x40000020
def SYS_CORERST_KEY : Fld := ⟨31, 24⟩
def SYS_CORERST_CORE : Fld := ⟨6, 0⟩

/-- Map row of SYS_CORERST. -/
def row_SYS_CORERST : RegDef where
  name := "SYS_CORERST"
  base := 0x40000020
  dims := []
  reset := 0x00000000
  resets := []
  cores := 0x41
  fields := [(SYS_CORERST_KEY, .wo), (SYS_CORERST_CORE, .wo)]

/-- Register SYS_CORESTAT (14). -/
def SYS_CORESTAT : Nat := 0x40000024
def SYS_CORESTAT_STATE : Fld := ⟨31, 0⟩

/-- Map row of SYS_CORESTAT. -/
def row_SYS_CORESTAT : RegDef where
  name := "SYS_CORESTAT"
  base := 0x40000024
  dims := []
  reset := 0x01000001
  resets := []
  cores := 0x7F
  fields := [(SYS_CORESTAT_STATE, .ro)]

/-- Register SYS_ENTRY (14). -/
def SYS_ENTRY (i : Nat) : Nat := 0x40000040 + 4 * i
def SYS_ENTRY_ADDR : Fld := ⟨31, 2⟩

/-- Map row of SYS_ENTRY. -/
def row_SYS_ENTRY : RegDef where
  name := "SYS_ENTRY"
  base := 0x40000040
  dims := [(7, 4)]
  reset := 0x10000000
  resets := []
  cores := 0x41
  fields := [(SYS_ENTRY_ADDR, .rw)]

/-! ### Block CLK at 0x40010000 -/

/-- Register CLK_STAT (03). -/
def CLK_STAT : Nat := 0x40010000
def CLK_STAT_REFFAIL : Fld := ⟨31, 31⟩
def CLK_STAT_LFFAIL : Fld := ⟨30, 30⟩
def CLK_STAT_REFCNT : Fld := ⟨27, 12⟩
def CLK_STAT_LFSUB : Fld := ⟨3, 3⟩
def CLK_STAT_FALLBACK : Fld := ⟨2, 2⟩
def CLK_STAT_REFOK : Fld := ⟨1, 1⟩
def CLK_STAT_LOCK : Fld := ⟨0, 0⟩

/-- Map row of CLK_STAT. -/
def row_CLK_STAT : RegDef where
  name := "CLK_STAT"
  base := 0x40010000
  dims := []
  reset := 0x00000000
  resets := []
  cores := 0x7F
  fields := [(CLK_STAT_REFFAIL, .w1c), (CLK_STAT_LFFAIL, .w1c), (CLK_STAT_REFCNT, .ro), (CLK_STAT_LFSUB, .ro), (CLK_STAT_FALLBACK, .ro), (CLK_STAT_REFOK, .ro), (CLK_STAT_LOCK, .ro)]

/-- Register CLK_FAILCFG (03). -/
def CLK_FAILCFG : Nat := 0x40010004
def CLK_FAILCFG_LOCK : Fld := ⟨31, 31⟩
def CLK_FAILCFG_RESTORE : Fld := ⟨4, 4⟩
def CLK_FAILCFG_ACTION : Fld := ⟨0, 0⟩

/-- Map row of CLK_FAILCFG. -/
def row_CLK_FAILCFG : RegDef where
  name := "CLK_FAILCFG"
  base := 0x40010004
  dims := []
  reset := 0x00000000
  resets := []
  cores := 0x41
  fields := [(CLK_FAILCFG_LOCK, .w1s), (CLK_FAILCFG_RESTORE, .wo), (CLK_FAILCFG_ACTION, .rwl)]

/-- Register CLK_FAILCNT (03). -/
def CLK_FAILCNT : Nat := 0x40010008
def CLK_FAILCNT_SAT : Fld := ⟨31, 31⟩
def CLK_FAILCNT_COUNT : Fld := ⟨15, 0⟩

/-- Map row of CLK_FAILCNT. -/
def row_CLK_FAILCNT : RegDef where
  name := "CLK_FAILCNT"
  base := 0x40010008
  dims := []
  reset := 0x00000000
  resets := []
  cores := 0x7F
  fields := [(CLK_FAILCNT_SAT, .rc), (CLK_FAILCNT_COUNT, .rc)]

/-- Register CLK_GATEEN (03). -/
def CLK_GATEEN (i : Nat) : Nat := 0x40010010 + 4 * i
def CLK_GATEEN_EN : Fld := ⟨31, 0⟩

/-- Map row of CLK_GATEEN. -/
def row_CLK_GATEEN : RegDef where
  name := "CLK_GATEEN"
  base := 0x40010010
  dims := [(4, 4)]
  reset := 0x00000000
  resets := []
  cores := 0x7F
  fields := [(CLK_GATEEN_EN, .rw)]

/-- Register CLK_RUN (03). -/
def CLK_RUN (i : Nat) : Nat := 0x40010020 + 4 * i
def CLK_RUN_RUN : Fld := ⟨31, 0⟩

/-- Map row of CLK_RUN. -/
def row_CLK_RUN : RegDef where
  name := "CLK_RUN"
  base := 0x40010020
  dims := [(4, 4)]
  reset := 0x00000000
  resets := []
  cores := 0x7F
  fields := [(CLK_RUN_RUN, .ro)]

/-! ### Block PWR at 0x40020000 -/

/-- Register PWR_REQ (19). -/
def PWR_REQ : Nat := 0x40020000
def PWR_REQ_KEY : Fld := ⟨31, 24⟩
def PWR_REQ_STATE : Fld := ⟨2, 0⟩

/-- Map row of PWR_REQ. -/
def row_PWR_REQ : RegDef where
  name := "PWR_REQ"
  base := 0x40020000
  dims := []
  reset := 0x00000000
  resets := []
  cores := 0x41
  fields := [(PWR_REQ_KEY, .wo), (PWR_REQ_STATE, .wo)]

/-- Register PWR_STAT (19). -/
def PWR_STAT : Nat := 0x40020004
def PWR_STAT_STATE : Fld := ⟨31, 28⟩
def PWR_STAT_ENTERING : Fld := ⟨27, 27⟩
def PWR_STAT_WINDOW : Fld := ⟨26, 26⟩

/-- Map row of PWR_STAT. -/
def row_PWR_STAT : RegDef where
  name := "PWR_STAT"
  base := 0x40020004
  dims := []
  reset := 0x00000000
  resets := []
  cores := 0x7F
  fields := [(PWR_STAT_STATE, .ro), (PWR_STAT_ENTERING, .ro), (PWR_STAT_WINDOW, .ro)]

/-- Register PWR_WAKE (19). -/
def PWR_WAKE : Nat := 0x40020008
def PWR_WAKE_EN : Fld := ⟨27, 16⟩
def PWR_WAKE_REASON : Fld := ⟨3, 0⟩

/-- Map row of PWR_WAKE. -/
def row_PWR_WAKE : RegDef where
  name := "PWR_WAKE"
  base := 0x40020008
  dims := []
  reset := 0x01020000
  resets := []
  cores := 0x41
  fields := [(PWR_WAKE_EN, .rw), (PWR_WAKE_REASON, .ro)]

/-- Register PWR_LISTEN (19). -/
def PWR_LISTEN : Nat := 0x4002000C
def PWR_LISTEN_PERIOD_MS : Fld := ⟨31, 16⟩
def PWR_LISTEN_WIN_MS : Fld := ⟨15, 8⟩
def PWR_LISTEN_CHAINS : Fld := ⟨3, 0⟩

/-- Map row of PWR_LISTEN. -/
def row_PWR_LISTEN : RegDef where
  name := "PWR_LISTEN"
  base := 0x4002000C
  dims := []
  reset := 0x00000000
  resets := []
  cores := 0x41
  fields := [(PWR_LISTEN_PERIOD_MS, .rw), (PWR_LISTEN_WIN_MS, .rw), (PWR_LISTEN_CHAINS, .rw)]

/-- Register PWR_REF (19). -/
def PWR_REF : Nat := 0x40020010
def PWR_REF_SAT : Fld := ⟨31, 31⟩
def PWR_REF_BLOCK : Fld := ⟨29, 24⟩
def PWR_REF_REASON : Fld := ⟨23, 20⟩
def PWR_REF_STATE : Fld := ⟨19, 16⟩
def PWR_REF_COUNT : Fld := ⟨15, 0⟩

/-- Map row of PWR_REF. -/
def row_PWR_REF : RegDef where
  name := "PWR_REF"
  base := 0x40020010
  dims := []
  reset := 0x00000000
  resets := []
  cores := 0x7F
  fields := [(PWR_REF_SAT, .rc), (PWR_REF_BLOCK, .ro), (PWR_REF_REASON, .ro), (PWR_REF_STATE, .ro), (PWR_REF_COUNT, .rc)]

/-- Register PWR_ABORT (19). -/
def PWR_ABORT : Nat := 0x40020014
def PWR_ABORT_SAT : Fld := ⟨31, 31⟩
def PWR_ABORT_REASON : Fld := ⟨19, 16⟩
def PWR_ABORT_COUNT : Fld := ⟨15, 0⟩

/-- Map row of PWR_ABORT. -/
def row_PWR_ABORT : RegDef where
  name := "PWR_ABORT"
  base := 0x40020014
  dims := []
  reset := 0x00000000
  resets := []
  cores := 0x7F
  fields := [(PWR_ABORT_SAT, .rc), (PWR_ABORT_REASON, .ro), (PWR_ABORT_COUNT, .rc)]

/-- Register PWR_PLEVEL (19). -/
def PWR_PLEVEL (i : Nat) : Nat := 0x40020020 + 4 * i
def PWR_PLEVEL_BUSY : Fld := ⟨31, 31⟩
def PWR_PLEVEL_ERR : Fld := ⟨27, 24⟩
def PWR_PLEVEL_CUR : Fld := ⟨9, 8⟩
def PWR_PLEVEL_LEVEL : Fld := ⟨1, 0⟩

/-- Map row of PWR_PLEVEL. -/
def row_PWR_PLEVEL : RegDef where
  name := "PWR_PLEVEL"
  base := 0x40020020
  dims := [(7, 4)]
  reset := 0x00000101
  resets := []
  cores := 0x7F
  fields := [(PWR_PLEVEL_BUSY, .ro), (PWR_PLEVEL_ERR, .ro), (PWR_PLEVEL_CUR, .ro), (PWR_PLEVEL_LEVEL, .rw)]

/-- Register PWR_REFBLK (19). -/
def PWR_REFBLK (i : Nat) : Nat := 0x40020040 + 4 * i
def PWR_REFBLK_SAT : Fld := ⟨31, 31⟩
def PWR_REFBLK_COUNT : Fld := ⟨15, 0⟩

/-- Map row of PWR_REFBLK. -/
def row_PWR_REFBLK : RegDef where
  name := "PWR_REFBLK"
  base := 0x40020040
  dims := [(33, 4)]
  reset := 0x00000000
  resets := []
  cores := 0x7F
  fields := [(PWR_REFBLK_SAT, .rc), (PWR_REFBLK_COUNT, .rc)]

/-- Register PWR_SUPPLY (02). -/
def PWR_SUPPLY : Nat := 0x40020100
def PWR_SUPPLY_SLOW : Fld := ⟨31, 31⟩
def PWR_SUPPLY_SLOWF : Fld := ⟨30, 30⟩
def PWR_SUPPLY_VIN_MV : Fld := ⟨15, 0⟩

/-- Map row of PWR_SUPPLY. -/
def row_PWR_SUPPLY : RegDef where
  name := "PWR_SUPPLY"
  base := 0x40020100
  dims := []
  reset := 0x00000000
  resets := []
  cores := 0x7F
  fields := [(PWR_SUPPLY_SLOW, .ro), (PWR_SUPPLY_SLOWF, .w1c), (PWR_SUPPLY_VIN_MV, .ro)]

/-- Register PWR_CEIL (02). -/
def PWR_CEIL : Nat := 0x40020104
def PWR_CEIL_RSVD : Fld := ⟨31, 16⟩
def PWR_CEIL_CEIL : Fld := ⟨15, 0⟩

/-- Map row of PWR_CEIL. -/
def row_PWR_CEIL : RegDef where
  name := "PWR_CEIL"
  base := 0x40020104
  dims := []
  reset := 0x012C0D48
  resets := []
  cores := 0x7F
  fields := [(PWR_CEIL_RSVD, .ro), (PWR_CEIL_CEIL, .ro)]

/-- Register PWR_CEILREF (02). -/
def PWR_CEILREF : Nat := 0x40020108
def PWR_CEILREF_SAT : Fld := ⟨31, 31⟩
def PWR_CEILREF_BLOCK : Fld := ⟨29, 24⟩
def PWR_CEILREF_COUNT : Fld := ⟨15, 0⟩

/-- Map row of PWR_CEILREF. -/
def row_PWR_CEILREF : RegDef where
  name := "PWR_CEILREF"
  base := 0x40020108
  dims := []
  reset := 0x00000000
  resets := []
  cores := 0x7F
  fields := [(PWR_CEILREF_SAT, .rc), (PWR_CEILREF_BLOCK, .ro), (PWR_CEILREF_COUNT, .rc)]

/-- Register PWR_MON (02). -/
def PWR_MON : Nat := 0x4002010C
def PWR_MON_OVER : Fld := ⟨31, 31⟩
def PWR_MON_AVG_MW : Fld := ⟨15, 0⟩

/-- Map row of PWR_MON. -/
def row_PWR_MON : RegDef where
  name := "PWR_MON"
  base := 0x4002010C
  dims := []
  reset := 0x00000000
  resets := []
  cores := 0x7F
  fields := [(PWR_MON_OVER, .w1c), (PWR_MON_AVG_MW, .ro)]

/-! ### Block SOW at 0x40030000 -/

/-- Register SOW_STAT (04). -/
def SOW_STAT : Nat := 0x40030000
def SOW_STAT_FAIL : Fld := ⟨31, 31⟩
def SOW_STAT_DONE : Fld := ⟨30, 30⟩
def SOW_STAT_RECOVERY : Fld := ⟨8, 8⟩
def SOW_STAT_STATE : Fld := ⟨3, 0⟩

/-- Map row of SOW_STAT. -/
def row_SOW_STAT : RegDef where
  name := "SOW_STAT"
  base := 0x40030000
  dims := []
  reset := 0x00000000
  resets := []
  cores := 0x7F
  fields := [(SOW_STAT_FAIL, .w1c), (SOW_STAT_DONE, .w1c), (SOW_STAT_RECOVERY, .ro), (SOW_STAT_STATE, .ro)]

/-- Register SOW_SEQ (04). -/
def SOW_SEQ : Nat := 0x40030004
def SOW_SEQ_SEQ : Fld := ⟨31, 0⟩

/-- Map row of SOW_SEQ. -/
def row_SOW_SEQ : RegDef where
  name := "SOW_SEQ"
  base := 0x40030004
  dims := []
  reset := 0x00000000
  resets := []
  cores := 0x7F
  fields := [(SOW_SEQ_SEQ, .ro)]

/-- Register SOW_SRC (04). -/
def SOW_SRC : Nat := 0x40030008
def SOW_SRC_ADDR : Fld := ⟨31, 2⟩

/-- Map row of SOW_SRC. -/
def row_SOW_SRC : RegDef where
  name := "SOW_SRC"
  base := 0x40030008
  dims := []
  reset := 0x00000000
  resets := []
  cores := 0x41
  fields := [(SOW_SRC_ADDR, .rw)]

/-- Register SOW_CMD (04). -/
def SOW_CMD : Nat := 0x4003000C
def SOW_CMD_KEY : Fld := ⟨31, 24⟩
def SOW_CMD_CMD : Fld := ⟨2, 0⟩

/-- Map row of SOW_CMD. -/
def row_SOW_CMD : RegDef where
  name := "SOW_CMD"
  base := 0x4003000C
  dims := []
  reset := 0x00000000
  resets := []
  cores := 0x41
  fields := [(SOW_CMD_KEY, .wo), (SOW_CMD_CMD, .wo)]

/-- Register SOW_WHEN_LO (04). -/
def SOW_WHEN_LO : Nat := 0x40030010
def SOW_WHEN_LO_WHEN_L : Fld := ⟨31, 0⟩

/-- Map row of SOW_WHEN_LO. -/
def row_SOW_WHEN_LO : RegDef where
  name := "SOW_WHEN_LO"
  base := 0x40030010
  dims := []
  reset := 0x00000000
  resets := []
  cores := 0x41
  fields := [(SOW_WHEN_LO_WHEN_L, .rw)]

/-- Register SOW_WHEN_HI (04). -/
def SOW_WHEN_HI : Nat := 0x40030014
def SOW_WHEN_HI_WHEN_H : Fld := ⟨31, 0⟩

/-- Map row of SOW_WHEN_HI. -/
def row_SOW_WHEN_HI : RegDef where
  name := "SOW_WHEN_HI"
  base := 0x40030014
  dims := []
  reset := 0x00000000
  resets := []
  cores := 0x41
  fields := [(SOW_WHEN_HI_WHEN_H, .rw)]

/-- Register SOW_ERR (04). -/
def SOW_ERR : Nat := 0x40030018
def SOW_ERR_CODE : Fld := ⟨31, 24⟩
def SOW_ERR_SECT : Fld := ⟨23, 18⟩
def SOW_ERR_OFFSET : Fld := ⟨17, 0⟩

/-- Map row of SOW_ERR. -/
def row_SOW_ERR : RegDef where
  name := "SOW_ERR"
  base := 0x40030018
  dims := []
  reset := 0x00000000
  resets := []
  cores := 0x7F
  fields := [(SOW_ERR_CODE, .ro), (SOW_ERR_SECT, .ro), (SOW_ERR_OFFSET, .ro)]

/-- Register SOW_OKCNT (04). -/
def SOW_OKCNT : Nat := 0x4003001C
def SOW_OKCNT_SAT : Fld := ⟨31, 31⟩
def SOW_OKCNT_COUNT : Fld := ⟨15, 0⟩

/-- Map row of SOW_OKCNT. -/
def row_SOW_OKCNT : RegDef where
  name := "SOW_OKCNT"
  base := 0x4003001C
  dims := []
  reset := 0x00000000
  resets := []
  cores := 0x7F
  fields := [(SOW_OKCNT_SAT, .rc), (SOW_OKCNT_COUNT, .rc)]

/-- Register SOW_FAILCNT (04). -/
def SOW_FAILCNT : Nat := 0x40030020
def SOW_FAILCNT_SAT : Fld := ⟨31, 31⟩
def SOW_FAILCNT_COUNT : Fld := ⟨15, 0⟩

/-- Map row of SOW_FAILCNT. -/
def row_SOW_FAILCNT : RegDef where
  name := "SOW_FAILCNT"
  base := 0x40030020
  dims := []
  reset := 0x00000000
  resets := []
  cores := 0x7F
  fields := [(SOW_FAILCNT_SAT, .rc), (SOW_FAILCNT_COUNT, .rc)]

/-! ### Block IRQ at 0x40040000 -/

/-- Register IRQ_CFG (16). -/
def IRQ_CFG (i : Nat) : Nat := 0x40040000 + 4 * i
def IRQ_CFG_PEND : Fld := ⟨31, 31⟩
def IRQ_CFG_ACT : Fld := ⟨30, 30⟩
def IRQ_CFG_ONCORE : Fld := ⟨29, 27⟩
def IRQ_CFG_LINE : Fld := ⟨11, 11⟩
def IRQ_CFG_EN : Fld := ⟨10, 10⟩
def IRQ_CFG_PRI : Fld := ⟨9, 6⟩
def IRQ_CFG_SENSE : Fld := ⟨5, 4⟩
def IRQ_CFG_LOWPRI : Fld := ⟨3, 3⟩
def IRQ_CFG_TARGET : Fld := ⟨2, 0⟩

/-- Map row of IRQ_CFG. -/
def row_IRQ_CFG : RegDef where
  name := "IRQ_CFG"
  base := 0x40040000
  dims := [(1152, 4)]
  reset := 0x38000000
  resets := []
  cores := 0x7F
  fields := [(IRQ_CFG_PEND, .ro), (IRQ_CFG_ACT, .ro), (IRQ_CFG_ONCORE, .ro), (IRQ_CFG_LINE, .ro), (IRQ_CFG_EN, .rw), (IRQ_CFG_PRI, .rw), (IRQ_CFG_SENSE, .ro), (IRQ_CFG_LOWPRI, .ro), (IRQ_CFG_TARGET, .ro)]

/-- Register IRQ_PEND (16). -/
def IRQ_PEND (i : Nat) : Nat := 0x40041200 + 4 * i
def IRQ_PEND_PEND : Fld := ⟨31, 0⟩

/-- Map row of IRQ_PEND. -/
def row_IRQ_PEND : RegDef where
  name := "IRQ_PEND"
  base := 0x40041200
  dims := [(36, 4)]
  reset := 0x00000000
  resets := []
  cores := 0x7F
  fields := [(IRQ_PEND_PEND, .w1c)]

/-- Register IRQ_SWPEND (16). -/
def IRQ_SWPEND (i : Nat) : Nat := 0x40041300 + 4 * i
def IRQ_SWPEND_SET : Fld := ⟨31, 0⟩

/-- Map row of IRQ_SWPEND. -/
def row_IRQ_SWPEND : RegDef where
  name := "IRQ_SWPEND"
  base := 0x40041300
  dims := [(36, 4)]
  reset := 0x00000000
  resets := []
  cores := 0x7F
  fields := [(IRQ_SWPEND_SET, .w1s)]

/-- Register IRQ_HOLD (16). -/
def IRQ_HOLD (i : Nat) : Nat := 0x40041400 + 4 * i
def IRQ_HOLD_RUN : Fld := ⟨31, 31⟩
def IRQ_HOLD_INTERVAL : Fld := ⟨15, 0⟩

/-- Map row of IRQ_HOLD. -/
def row_IRQ_HOLD : RegDef where
  name := "IRQ_HOLD"
  base := 0x40041400
  dims := [(36, 4)]
  reset := 0x00000000
  resets := []
  cores := 0x41
  fields := [(IRQ_HOLD_RUN, .ro), (IRQ_HOLD_INTERVAL, .rw)]

/-- Register IRQ_ACK (16). -/
def IRQ_ACK (i : Nat) : Nat := 0x40042000 + 128 * i
def IRQ_ACK_NONE : Fld := ⟨31, 31⟩
def IRQ_ACK_PRI : Fld := ⟨19, 16⟩
def IRQ_ACK_SRC : Fld := ⟨10, 0⟩

/-- Map row of IRQ_ACK. -/
def row_IRQ_ACK : RegDef where
  name := "IRQ_ACK"
  base := 0x40042000
  dims := [(7, 128)]
  reset := 0x80000000
  resets := []
  cores := 0x7F
  fields := [(IRQ_ACK_NONE, .rc), (IRQ_ACK_PRI, .rc), (IRQ_ACK_SRC, .rc)]

/-- Register IRQ_EOI (16). -/
def IRQ_EOI (i : Nat) : Nat := 0x40042004 + 128 * i
def IRQ_EOI_SRC : Fld := ⟨10, 0⟩

/-- Map row of IRQ_EOI. -/
def row_IRQ_EOI : RegDef where
  name := "IRQ_EOI"
  base := 0x40042004
  dims := [(7, 128)]
  reset := 0x00000000
  resets := []
  cores := 0x7F
  fields := [(IRQ_EOI_SRC, .wo)]

/-- Register IRQ_STAT (16). -/
def IRQ_STAT (i : Nat) : Nat := 0x40042008 + 128 * i
def IRQ_STAT_ORDERFLT : Fld := ⟨31, 31⟩
def IRQ_STAT_DEPTH : Fld := ⟨20, 16⟩
def IRQ_STAT_PRES : Fld := ⟨15, 15⟩
def IRQ_STAT_PRESPRI : Fld := ⟨11, 8⟩
def IRQ_STAT_IDLE : Fld := ⟨4, 4⟩
def IRQ_STAT_RUNPRI : Fld := ⟨3, 0⟩

/-- Map row of IRQ_STAT. -/
def row_IRQ_STAT : RegDef where
  name := "IRQ_STAT"
  base := 0x40042008
  dims := [(7, 128)]
  reset := 0x00000010
  resets := []
  cores := 0x7F
  fields := [(IRQ_STAT_ORDERFLT, .w1c), (IRQ_STAT_DEPTH, .ro), (IRQ_STAT_PRES, .ro), (IRQ_STAT_PRESPRI, .ro), (IRQ_STAT_IDLE, .ro), (IRQ_STAT_RUNPRI, .ro)]

/-- Register IRQ_STK (16). -/
def IRQ_STK (i : Nat) (j : Nat) : Nat := 0x40042040 + 128 * i + 4 * j
def IRQ_STK_VALID : Fld := ⟨31, 31⟩
def IRQ_STK_PRI : Fld := ⟨14, 11⟩
def IRQ_STK_SRC : Fld := ⟨10, 0⟩

/-- Map row of IRQ_STK. -/
def row_IRQ_STK : RegDef where
  name := "IRQ_STK"
  base := 0x40042040
  dims := [(7, 128), (16, 4)]
  reset := 0x00000000
  resets := []
  cores := 0x7F
  fields := [(IRQ_STK_VALID, .ro), (IRQ_STK_PRI, .ro), (IRQ_STK_SRC, .ro)]

/-- Register IRQ_LPSET (16). -/
def IRQ_LPSET : Nat := 0x40043000
def IRQ_LPSET_CORES : Fld := ⟨6, 0⟩

/-- Map row of IRQ_LPSET. -/
def row_IRQ_LPSET : RegDef where
  name := "IRQ_LPSET"
  base := 0x40043000
  dims := []
  reset := 0x0000000F
  resets := []
  cores := 0x41
  fields := [(IRQ_LPSET_CORES, .rw)]

/-- Register IRQ_CNT (16). -/
def IRQ_CNT (i : Nat) : Nat := 0x40043010 + 4 * i
def IRQ_CNT_SAT : Fld := ⟨31, 31⟩
def IRQ_CNT_COUNT : Fld := ⟨15, 0⟩

/-- Map row of IRQ_CNT. -/
def row_IRQ_CNT : RegDef where
  name := "IRQ_CNT"
  base := 0x40043010
  dims := [(4, 4)]
  reset := 0x00000000
  resets := []
  cores := 0x7F
  fields := [(IRQ_CNT_SAT, .rc), (IRQ_CNT_COUNT, .rc)]

/-! ### Block HDL at 0x40050000 -/

/-- Register HDL_FIRE (17). -/
def HDL_FIRE : Nat := 0x40050000
def HDL_FIRE_CH : Fld := ⟨7, 0⟩

/-- Map row of HDL_FIRE. -/
def row_HDL_FIRE : RegDef where
  name := "HDL_FIRE"
  base := 0x40050000
  dims := []
  reset := 0x00000000
  resets := []
  cores := 0x7F
  fields := [(HDL_FIRE_CH, .wo)]

/-- Register HDL_CHLVL (17). -/
def HDL_CHLVL (i : Nat) : Nat := 0x40050010 + 4 * i
def HDL_CHLVL_LVL : Fld := ⟨31, 0⟩

/-- Map row of HDL_CHLVL. -/
def row_HDL_CHLVL : RegDef where
  name := "HDL_CHLVL"
  base := 0x40050010
  dims := [(8, 4)]
  reset := 0x00000000
  resets := []
  cores := 0x7F
  fields := [(HDL_CHLVL_LVL, .ro)]

/-- Register HDL_SEEN (17). -/
def HDL_SEEN (i : Nat) : Nat := 0x40050030 + 4 * i
def HDL_SEEN_SEEN : Fld := ⟨31, 0⟩

/-- Map row of HDL_SEEN. -/
def row_HDL_SEEN : RegDef where
  name := "HDL_SEEN"
  base := 0x40050030
  dims := [(8, 4)]
  reset := 0x00000000
  resets := []
  cores := 0x7F
  fields := [(HDL_SEEN_SEEN, .w1c)]

/-- Register HDL_GRPEN (17). -/
def HDL_GRPEN : Nat := 0x40050050
def HDL_GRPEN_EN : Fld := ⟨15, 0⟩

/-- Map row of HDL_GRPEN. -/
def row_HDL_GRPEN : RegDef where
  name := "HDL_GRPEN"
  base := 0x40050050
  dims := []
  reset := 0x00000000
  resets := []
  cores := 0x7F
  fields := [(HDL_GRPEN_EN, .ro)]

/-- Register HDL_GRPSET (17). -/
def HDL_GRPSET : Nat := 0x40050054
def HDL_GRPSET_GRP : Fld := ⟨15, 0⟩

/-- Map row of HDL_GRPSET. -/
def row_HDL_GRPSET : RegDef where
  name := "HDL_GRPSET"
  base := 0x40050054
  dims := []
  reset := 0x00000000
  resets := []
  cores := 0x7F
  fields := [(HDL_GRPSET_GRP, .wo)]

/-- Register HDL_GRPCLR (17). -/
def HDL_GRPCLR : Nat := 0x40050058
def HDL_GRPCLR_GRP : Fld := ⟨15, 0⟩

/-- Map row of HDL_GRPCLR. -/
def row_HDL_GRPCLR : RegDef where
  name := "HDL_GRPCLR"
  base := 0x40050058
  dims := []
  reset := 0x00000000
  resets := []
  cores := 0x7F
  fields := [(HDL_GRPCLR_GRP, .wo)]

/-- Register HDL_GATED (17). -/
def HDL_GATED : Nat := 0x4005005C
def HDL_GATED_LATCH : Fld := ⟨15, 8⟩
def HDL_GATED_G : Fld := ⟨7, 0⟩

/-- Map row of HDL_GATED. -/
def row_HDL_GATED : RegDef where
  name := "HDL_GATED"
  base := 0x4005005C
  dims := []
  reset := 0x00000000
  resets := []
  cores := 0x7F
  fields := [(HDL_GATED_LATCH, .ro), (HDL_GATED_G, .ro)]

/-- Register HDL_CNT (17). -/
def HDL_CNT (i : Nat) : Nat := 0x40050060 + 4 * i
def HDL_CNT_SAT : Fld := ⟨31, 31⟩
def HDL_CNT_COUNT : Fld := ⟨15, 0⟩

/-- Map row of HDL_CNT. -/
def row_HDL_CNT : RegDef where
  name := "HDL_CNT"
  base := 0x40050060
  dims := [(3, 4)]
  reset := 0x00000000
  resets := []
  cores := 0x7F
  fields := [(HDL_CNT_SAT, .rc), (HDL_CNT_COUNT, .rc)]

/-- Register HDL_LUT (17). -/
def HDL_LUT (i : Nat) : Nat := 0x40050100 + 4 * i
def HDL_LUT_INUSE : Fld := ⟨31, 31⟩
def HDL_LUT_OUT : Fld := ⟨16, 16⟩
def HDL_LUT_LUT : Fld := ⟨15, 0⟩

/-- Map row of HDL_LUT. -/
def row_HDL_LUT : RegDef where
  name := "HDL_LUT"
  base := 0x40050100
  dims := [(128, 4)]
  reset := 0x00000000
  resets := []
  cores := 0x7F
  fields := [(HDL_LUT_INUSE, .ro), (HDL_LUT_OUT, .ro), (HDL_LUT_LUT, .rw)]

/-! ### Block TMR at 0x40060000 -/

/-- Register TMR_CTL (18). -/
def TMR_CTL (i : Nat) : Nat := 0x40060000 + 64 * i
def TMR_CTL_RUN : Fld := ⟨31, 31⟩
def TMR_CTL_MODE : Fld := ⟨30, 29⟩
def TMR_CTL_ONESHOT : Fld := ⟨28, 28⟩
def TMR_CTL_LFCONT : Fld := ⟨27, 27⟩
def TMR_CTL_HALTFRZ : Fld := ⟨26, 26⟩
def TMR_CTL_WAKE : Fld := ⟨25, 25⟩
def TMR_CTL_OUTINIT : Fld := ⟨24, 24⟩
def TMR_CTL_ACT0 : Fld := ⟨23, 22⟩
def TMR_CTL_ACT1 : Fld := ⟨21, 20⟩
def TMR_CTL_ACTP : Fld := ⟨19, 18⟩
def TMR_CTL_CAPEDGE : Fld := ⟨17, 16⟩
def TMR_CTL_PRESC : Fld := ⟨11, 0⟩

/-- Map row of TMR_CTL. -/
def row_TMR_CTL : RegDef where
  name := "TMR_CTL"
  base := 0x40060000
  dims := [(24, 64)]
  reset := 0x00000000
  resets := []
  cores := 0x7F
  fields := [(TMR_CTL_RUN, .rw), (TMR_CTL_MODE, .rw), (TMR_CTL_ONESHOT, .rw), (TMR_CTL_LFCONT, .rw), (TMR_CTL_HALTFRZ, .rw), (TMR_CTL_WAKE, .rw), (TMR_CTL_OUTINIT, .rw), (TMR_CTL_ACT0, .rw), (TMR_CTL_ACT1, .rw), (TMR_CTL_ACTP, .rw), (TMR_CTL_CAPEDGE, .rw), (TMR_CTL_PRESC, .rw)]

/-- Register TMR_STAT (18). -/
def TMR_STAT (i : Nat) : Nat := 0x40060004 + 64 * i
def TMR_STAT_CAPOVR : Fld := ⟨31, 31⟩
def TMR_STAT_LFRUN : Fld := ⟨30, 30⟩
def TMR_STAT_DIR : Fld := ⟨29, 29⟩
def TMR_STAT_OUT : Fld := ⟨28, 28⟩
def TMR_STAT_CAPIE : Fld := ⟨7, 7⟩
def TMR_STAT_CMP1IE : Fld := ⟨6, 6⟩
def TMR_STAT_CMP0IE : Fld := ⟨5, 5⟩
def TMR_STAT_PERIE : Fld := ⟨4, 4⟩
def TMR_STAT_CAPF : Fld := ⟨3, 3⟩
def TMR_STAT_CMP1F : Fld := ⟨2, 2⟩
def TMR_STAT_CMP0F : Fld := ⟨1, 1⟩
def TMR_STAT_PERF : Fld := ⟨0, 0⟩

/-- Map row of TMR_STAT. -/
def row_TMR_STAT : RegDef where
  name := "TMR_STAT"
  base := 0x40060004
  dims := [(24, 64)]
  reset := 0x00000000
  resets := []
  cores := 0x7F
  fields := [(TMR_STAT_CAPOVR, .w1c), (TMR_STAT_LFRUN, .ro), (TMR_STAT_DIR, .ro), (TMR_STAT_OUT, .ro), (TMR_STAT_CAPIE, .rw), (TMR_STAT_CMP1IE, .rw), (TMR_STAT_CMP0IE, .rw), (TMR_STAT_PERIE, .rw), (TMR_STAT_CAPF, .w1c), (TMR_STAT_CMP1F, .w1c), (TMR_STAT_CMP0F, .w1c), (TMR_STAT_PERF, .w1c)]

/-- Register TMR_CNT_LO (18). -/
def TMR_CNT_LO (i : Nat) : Nat := 0x40060008 + 64 * i
def TMR_CNT_LO_LO : Fld := ⟨31, 0⟩

/-- Map row of TMR_CNT_LO. -/
def row_TMR_CNT_LO : RegDef where
  name := "TMR_CNT_LO"
  base := 0x40060008
  dims := [(24, 64)]
  reset := 0x00000000
  resets := []
  cores := 0x7F
  fields := [(TMR_CNT_LO_LO, .rw)]

/-- Register TMR_CNT_HI (18). -/
def TMR_CNT_HI (i : Nat) : Nat := 0x4006000C + 64 * i
def TMR_CNT_HI_HI : Fld := ⟨15, 0⟩

/-- Map row of TMR_CNT_HI. -/
def row_TMR_CNT_HI : RegDef where
  name := "TMR_CNT_HI"
  base := 0x4006000C
  dims := [(24, 64)]
  reset := 0x00000000
  resets := []
  cores := 0x7F
  fields := [(TMR_CNT_HI_HI, .rw)]

/-- Register TMR_PER_LO (18). -/
def TMR_PER_LO (i : Nat) : Nat := 0x40060010 + 64 * i
def TMR_PER_LO_LO : Fld := ⟨31, 0⟩

/-- Map row of TMR_PER_LO. -/
def row_TMR_PER_LO : RegDef where
  name := "TMR_PER_LO"
  base := 0x40060010
  dims := [(24, 64)]
  reset := 0xFFFFFFFF
  resets := []
  cores := 0x7F
  fields := [(TMR_PER_LO_LO, .rw)]

/-- Register TMR_PER_HI (18). -/
def TMR_PER_HI (i : Nat) : Nat := 0x40060014 + 64 * i
def TMR_PER_HI_HI : Fld := ⟨15, 0⟩

/-- Map row of TMR_PER_HI. -/
def row_TMR_PER_HI : RegDef where
  name := "TMR_PER_HI"
  base := 0x40060014
  dims := [(24, 64)]
  reset := 0x00007FFF
  resets := []
  cores := 0x7F
  fields := [(TMR_PER_HI_HI, .rw)]

/-- Register TMR_CMP_LO (18). -/
def TMR_CMP_LO (i : Nat) (j : Nat) : Nat := 0x40060018 + 64 * i + 8 * j
def TMR_CMP_LO_LO : Fld := ⟨31, 0⟩

/-- Map row of TMR_CMP_LO. -/
def row_TMR_CMP_LO : RegDef where
  name := "TMR_CMP_LO"
  base := 0x40060018
  dims := [(24, 64), (2, 8)]
  reset := 0xFFFFFFFF
  resets := []
  cores := 0x7F
  fields := [(TMR_CMP_LO_LO, .rw)]

/-- Register TMR_CMP_HI (18). -/
def TMR_CMP_HI (i : Nat) (j : Nat) : Nat := 0x4006001C + 64 * i + 8 * j
def TMR_CMP_HI_HI : Fld := ⟨15, 0⟩

/-- Map row of TMR_CMP_HI. -/
def row_TMR_CMP_HI : RegDef where
  name := "TMR_CMP_HI"
  base := 0x4006001C
  dims := [(24, 64), (2, 8)]
  reset := 0x00007FFF
  resets := []
  cores := 0x7F
  fields := [(TMR_CMP_HI_HI, .rw)]

/-- Register TMR_CAP_LO (18). -/
def TMR_CAP_LO (i : Nat) : Nat := 0x40060028 + 64 * i
def TMR_CAP_LO_LO : Fld := ⟨31, 0⟩

/-- Map row of TMR_CAP_LO. -/
def row_TMR_CAP_LO : RegDef where
  name := "TMR_CAP_LO"
  base := 0x40060028
  dims := [(24, 64)]
  reset := 0x00000000
  resets := []
  cores := 0x7F
  fields := [(TMR_CAP_LO_LO, .rw)]

/-- Register TMR_CAP_HI (18). -/
def TMR_CAP_HI (i : Nat) : Nat := 0x4006002C + 64 * i
def TMR_CAP_HI_CAPSEQ : Fld := ⟨31, 24⟩
def TMR_CAP_HI_HI : Fld := ⟨15, 0⟩

/-- Map row of TMR_CAP_HI. -/
def row_TMR_CAP_HI : RegDef where
  name := "TMR_CAP_HI"
  base := 0x4006002C
  dims := [(24, 64)]
  reset := 0x00000000
  resets := []
  cores := 0x7F
  fields := [(TMR_CAP_HI_CAPSEQ, .ro), (TMR_CAP_HI_HI, .ro)]

/-- Register TMR_GMASK (18). -/
def TMR_GMASK : Nat := 0x40060600
def TMR_GMASK_MASK : Fld := ⟨23, 0⟩

/-- Map row of TMR_GMASK. -/
def row_TMR_GMASK : RegDef where
  name := "TMR_GMASK"
  base := 0x40060600
  dims := []
  reset := 0x00000000
  resets := []
  cores := 0x7F
  fields := [(TMR_GMASK_MASK, .rw)]

/-- Register TMR_GCMD (18). -/
def TMR_GCMD : Nat := 0x40060604
def TMR_GCMD_STOP : Fld := ⟨1, 1⟩
def TMR_GCMD_START : Fld := ⟨0, 0⟩

/-- Map row of TMR_GCMD. -/
def row_TMR_GCMD : RegDef where
  name := "TMR_GCMD"
  base := 0x40060604
  dims := []
  reset := 0x00000000
  resets := []
  cores := 0x7F
  fields := [(TMR_GCMD_STOP, .wo), (TMR_GCMD_START, .wo)]

/-- Register TMR_GRUN (18). -/
def TMR_GRUN : Nat := 0x40060608
def TMR_GRUN_RUN : Fld := ⟨23, 0⟩

/-- Map row of TMR_GRUN. -/
def row_TMR_GRUN : RegDef where
  name := "TMR_GRUN"
  base := 0x40060608
  dims := []
  reset := 0x00000000
  resets := []
  cores := 0x7F
  fields := [(TMR_GRUN_RUN, .ro)]

/-- Register TMR_CNT (18). -/
def TMR_CNT (i : Nat) : Nat := 0x40060610 + 4 * i
def TMR_CNT_SAT : Fld := ⟨31, 31⟩
def TMR_CNT_COUNT : Fld := ⟨15, 0⟩

/-- Map row of TMR_CNT. -/
def row_TMR_CNT : RegDef where
  name := "TMR_CNT"
  base := 0x40060610
  dims := [(2, 4)]
  reset := 0x00000000
  resets := []
  cores := 0x7F
  fields := [(TMR_CNT_SAT, .rc), (TMR_CNT_COUNT, .rc)]

/-! ### Block RTC at 0x40070000 -/

/-- Register RTC_CTL (18). -/
def RTC_CTL : Nat := 0x40070000
def RTC_CTL_HALT : Fld := ⟨31, 31⟩
def RTC_CTL_MESHLOCK : Fld := ⟨30, 30⟩
def RTC_CTL_COMPEN : Fld := ⟨29, 29⟩
def RTC_CTL_COMPINT : Fld := ⟨23, 20⟩
def RTC_CTL_ALEN : Fld := ⟨7, 7⟩
def RTC_CTL_TICKSEL : Fld := ⟨6, 4⟩

/-- Map row of RTC_CTL. -/
def row_RTC_CTL : RegDef where
  name := "RTC_CTL"
  base := 0x40070000
  dims := []
  reset := 0x60400000
  resets := []
  cores := 0x41
  fields := [(RTC_CTL_HALT, .rw), (RTC_CTL_MESHLOCK, .rw), (RTC_CTL_COMPEN, .rw), (RTC_CTL_COMPINT, .rw), (RTC_CTL_ALEN, .rw), (RTC_CTL_TICKSEL, .rw)]

/-- Register RTC_STAT (18). -/
def RTC_STAT : Nat := 0x40070004
def RTC_STAT_OSCSTOP : Fld := ⟨31, 31⟩
def RTC_STAT_HALTED : Fld := ⟨30, 30⟩
def RTC_STAT_BADSET : Fld := ⟨29, 29⟩
def RTC_STAT_RANGE : Fld := ⟨28, 28⟩
def RTC_STAT_CURVEOK : Fld := ⟨27, 27⟩
def RTC_STAT_LOCKED : Fld := ⟨26, 26⟩
def RTC_STAT_ALARMF : Fld := ⟨25, 25⟩
def RTC_STAT_TICKF : Fld := ⟨24, 24⟩
def RTC_STAT_ACCPPM : Fld := ⟨23, 16⟩
def RTC_STAT_TEMP : Fld := ⟨15, 0⟩

/-- Map row of RTC_STAT. -/
def row_RTC_STAT : RegDef where
  name := "RTC_STAT"
  base := 0x40070004
  dims := []
  reset := 0x80F00000
  resets := []
  cores := 0x7F
  fields := [(RTC_STAT_OSCSTOP, .w1c), (RTC_STAT_HALTED, .ro), (RTC_STAT_BADSET, .w1c), (RTC_STAT_RANGE, .ro), (RTC_STAT_CURVEOK, .ro), (RTC_STAT_LOCKED, .ro), (RTC_STAT_ALARMF, .w1c), (RTC_STAT_TICKF, .w1c), (RTC_STAT_ACCPPM, .ro), (RTC_STAT_TEMP, .ro)]

/-- Register RTC_SUB (18). -/
def RTC_SUB : Nat := 0x40070008
def RTC_SUB_SUB : Fld := ⟨15, 0⟩

/-- Map row of RTC_SUB. -/
def row_RTC_SUB : RegDef where
  name := "RTC_SUB"
  base := 0x40070008
  dims := []
  reset := 0x00000000
  resets := []
  cores := 0x7F
  fields := [(RTC_SUB_SUB, .ro)]

/-- Register RTC_TIME (18). -/
def RTC_TIME : Nat := 0x4007000C
def RTC_TIME_WDAY : Fld := ⟨27, 24⟩
def RTC_TIME_HOUR : Fld := ⟨23, 16⟩
def RTC_TIME_MIN : Fld := ⟨15, 8⟩
def RTC_TIME_SEC : Fld := ⟨7, 0⟩

/-- Map row of RTC_TIME. -/
def row_RTC_TIME : RegDef where
  name := "RTC_TIME"
  base := 0x4007000C
  dims := []
  reset := 0x03000000
  resets := []
  cores := 0x41
  fields := [(RTC_TIME_WDAY, .ro), (RTC_TIME_HOUR, .rw), (RTC_TIME_MIN, .rw), (RTC_TIME_SEC, .rw)]

/-- Register RTC_DATE (18). -/
def RTC_DATE : Nat := 0x40070010
def RTC_DATE_YEAR : Fld := ⟨31, 16⟩
def RTC_DATE_MONTH : Fld := ⟨15, 8⟩
def RTC_DATE_DAY : Fld := ⟨7, 0⟩

/-- Map row of RTC_DATE. -/
def row_RTC_DATE : RegDef where
  name := "RTC_DATE"
  base := 0x40070010
  dims := []
  reset := 0x20200101
  resets := []
  cores := 0x41
  fields := [(RTC_DATE_YEAR, .rw), (RTC_DATE_MONTH, .rw), (RTC_DATE_DAY, .rw)]

/-- Register RTC_ALTIME (18). -/
def RTC_ALTIME : Nat := 0x40070014
def RTC_ALTIME_HOUR : Fld := ⟨23, 16⟩
def RTC_ALTIME_MIN : Fld := ⟨15, 8⟩
def RTC_ALTIME_SEC : Fld := ⟨7, 0⟩

/-- Map row of RTC_ALTIME. -/
def row_RTC_ALTIME : RegDef where
  name := "RTC_ALTIME"
  base := 0x40070014
  dims := []
  reset := 0x00000000
  resets := []
  cores := 0x41
  fields := [(RTC_ALTIME_HOUR, .rw), (RTC_ALTIME_MIN, .rw), (RTC_ALTIME_SEC, .rw)]

/-- Register RTC_ALDATE (18). -/
def RTC_ALDATE : Nat := 0x40070018
def RTC_ALDATE_YEAR : Fld := ⟨31, 16⟩
def RTC_ALDATE_MONTH : Fld := ⟨15, 8⟩
def RTC_ALDATE_DAY : Fld := ⟨7, 0⟩

/-- Map row of RTC_ALDATE. -/
def row_RTC_ALDATE : RegDef where
  name := "RTC_ALDATE"
  base := 0x40070018
  dims := []
  reset := 0x20200101
  resets := []
  cores := 0x41
  fields := [(RTC_ALDATE_YEAR, .rw), (RTC_ALDATE_MONTH, .rw), (RTC_ALDATE_DAY, .rw)]

/-- Register RTC_T_LO (18). -/
def RTC_T_LO : Nat := 0x40070020
def RTC_T_LO_T : Fld := ⟨31, 0⟩

/-- Map row of RTC_T_LO. -/
def row_RTC_T_LO : RegDef where
  name := "RTC_T_LO"
  base := 0x40070020
  dims := []
  reset := 0x00000000
  resets := []
  cores := 0x7F
  fields := [(RTC_T_LO_T, .ro)]

/-- Register RTC_T_HI (18). -/
def RTC_T_HI : Nat := 0x40070024
def RTC_T_HI_T : Fld := ⟨31, 0⟩

/-- Map row of RTC_T_HI. -/
def row_RTC_T_HI : RegDef where
  name := "RTC_T_HI"
  base := 0x40070024
  dims := []
  reset := 0x00000000
  resets := []
  cores := 0x7F
  fields := [(RTC_T_HI_T, .ro)]

/-- Register RTC_CALOFS_LO (18). -/
def RTC_CALOFS_LO : Nat := 0x40070028
def RTC_CALOFS_LO_OFS : Fld := ⟨31, 0⟩

/-- Map row of RTC_CALOFS_LO. -/
def row_RTC_CALOFS_LO : RegDef where
  name := "RTC_CALOFS_LO"
  base := 0x40070028
  dims := []
  reset := 0x00000000
  resets := []
  cores := 0x7F
  fields := [(RTC_CALOFS_LO_OFS, .ro)]

/-- Register RTC_CALOFS_HI (18). -/
def RTC_CALOFS_HI : Nat := 0x4007002C
def RTC_CALOFS_HI_OFS : Fld := ⟨31, 0⟩

/-- Map row of RTC_CALOFS_HI. -/
def row_RTC_CALOFS_HI : RegDef where
  name := "RTC_CALOFS_HI"
  base := 0x4007002C
  dims := []
  reset := 0x00000000
  resets := []
  cores := 0x7F
  fields := [(RTC_CALOFS_HI_OFS, .ro)]

/-- Register RTC_CORR (18). -/
def RTC_CORR : Nat := 0x40070030
def RTC_CORR_ERR : Fld := ⟨15, 0⟩

/-- Map row of RTC_CORR. -/
def row_RTC_CORR : RegDef where
  name := "RTC_CORR"
  base := 0x40070030
  dims := []
  reset := 0x00000000
  resets := []
  cores := 0x7F
  fields := [(RTC_CORR_ERR, .ro)]

/-- Register RTC_CURVE (18). -/
def RTC_CURVE (i : Nat) : Nat := 0x40070040 + 4 * i
def RTC_CURVE_ERR : Fld := ⟨15, 0⟩

/-- Map row of RTC_CURVE. -/
def row_RTC_CURVE : RegDef where
  name := "RTC_CURVE"
  base := 0x40070040
  dims := [(33, 4)]
  reset := 0x00000000
  resets := []
  cores := 0x40
  fields := [(RTC_CURVE_ERR, .rw)]

/-- Register RTC_ATCTL (18). -/
def RTC_ATCTL (i : Nat) : Nat := 0x40070100 + 16 * i
def RTC_ATCTL_RUN : Fld := ⟨31, 31⟩
def RTC_ATCTL_PERIODIC : Fld := ⟨30, 30⟩
def RTC_ATCTL_WAKE : Fld := ⟨29, 29⟩
def RTC_ATCTL_PEND : Fld := ⟨28, 28⟩
def RTC_ATCTL_EXPF : Fld := ⟨27, 27⟩
def RTC_ATCTL_IE : Fld := ⟨26, 26⟩
def RTC_ATCTL_GSTART : Fld := ⟨3, 0⟩

/-- Map row of RTC_ATCTL. -/
def row_RTC_ATCTL : RegDef where
  name := "RTC_ATCTL"
  base := 0x40070100
  dims := [(8, 16)]
  reset := 0x00000000
  resets := []
  cores := 0x7F
  fields := [(RTC_ATCTL_RUN, .rw), (RTC_ATCTL_PERIODIC, .rw), (RTC_ATCTL_WAKE, .rw), (RTC_ATCTL_PEND, .ro), (RTC_ATCTL_EXPF, .w1c), (RTC_ATCTL_IE, .rw), (RTC_ATCTL_GSTART, .rw)]

/-- Register RTC_ATLOAD (18). -/
def RTC_ATLOAD (i : Nat) : Nat := 0x40070104 + 16 * i
def RTC_ATLOAD_LOAD : Fld := ⟨31, 0⟩

/-- Map row of RTC_ATLOAD. -/
def row_RTC_ATLOAD : RegDef where
  name := "RTC_ATLOAD"
  base := 0x40070104
  dims := [(8, 16)]
  reset := 0x00000000
  resets := []
  cores := 0x7F
  fields := [(RTC_ATLOAD_LOAD, .rw)]

/-- Register RTC_ATCNT (18). -/
def RTC_ATCNT (i : Nat) : Nat := 0x40070108 + 16 * i
def RTC_ATCNT_COUNT : Fld := ⟨31, 0⟩

/-- Map row of RTC_ATCNT. -/
def row_RTC_ATCNT : RegDef where
  name := "RTC_ATCNT"
  base := 0x40070108
  dims := [(8, 16)]
  reset := 0x00000000
  resets := []
  cores := 0x7F
  fields := [(RTC_ATCNT_COUNT, .ro)]

/-! ### Block FLC at 0x40080000 -/

/-- Register FLC_CMD (15). -/
def FLC_CMD (i : Nat) : Nat := 0x40080000 + 64 * i
def FLC_CMD_KEY : Fld := ⟨31, 24⟩
def FLC_CMD_OP : Fld := ⟨3, 0⟩

/-- Map row of FLC_CMD. -/
def row_FLC_CMD : RegDef where
  name := "FLC_CMD"
  base := 0x40080000
  dims := [(4, 64)]
  reset := 0x00000000
  resets := []
  cores := 0x7F
  fields := [(FLC_CMD_KEY, .wo), (FLC_CMD_OP, .wo)]

/-- Register FLC_ADDR (15). -/
def FLC_ADDR (i : Nat) : Nat := 0x40080004 + 64 * i
def FLC_ADDR_ADDR : Fld := ⟨31, 0⟩

/-- Map row of FLC_ADDR. -/
def row_FLC_ADDR : RegDef where
  name := "FLC_ADDR"
  base := 0x40080004
  dims := [(4, 64)]
  reset := 0x00000000
  resets := []
  cores := 0x7F
  fields := [(FLC_ADDR_ADDR, .rw)]

/-- Register FLC_BUF (15). -/
def FLC_BUF (i : Nat) : Nat := 0x40080008 + 64 * i
def FLC_BUF_ADDR : Fld := ⟨31, 4⟩

/-- Map row of FLC_BUF. -/
def row_FLC_BUF : RegDef where
  name := "FLC_BUF"
  base := 0x40080008
  dims := [(4, 64)]
  reset := 0x00000000
  resets := []
  cores := 0x7F
  fields := [(FLC_BUF_ADDR, .rw)]

/-- Register FLC_ARG (15). -/
def FLC_ARG (i : Nat) : Nat := 0x4008000C + 64 * i
def FLC_ARG_ARG : Fld := ⟨9, 0⟩

/-- Map row of FLC_ARG. -/
def row_FLC_ARG : RegDef where
  name := "FLC_ARG"
  base := 0x4008000C
  dims := [(4, 64)]
  reset := 0x00000000
  resets := []
  cores := 0x7F
  fields := [(FLC_ARG_ARG, .rw)]

/-- Register FLC_DATA (15). -/
def FLC_DATA (i : Nat) (j : Nat) : Nat := 0x40080010 + 64 * i + 4 * j
def FLC_DATA_DATA : Fld := ⟨31, 0⟩

/-- Map row of FLC_DATA. -/
def row_FLC_DATA : RegDef where
  name := "FLC_DATA"
  base := 0x40080010
  dims := [(4, 64), (4, 4)]
  reset := 0x00000000
  resets := []
  cores := 0x7F
  fields := [(FLC_DATA_DATA, .rw)]

/-- Register FLC_STAT (15). -/
def FLC_STAT (i : Nat) : Nat := 0x40080020 + 64 * i
def FLC_STAT_BUSY : Fld := ⟨31, 31⟩
def FLC_STAT_SUSP : Fld := ⟨30, 30⟩
def FLC_STAT_MOVE : Fld := ⟨29, 29⟩
def FLC_STAT_DONE : Fld := ⟨28, 28⟩
def FLC_STAT_RESULT : Fld := ⟨23, 16⟩
def FLC_STAT_OP : Fld := ⟨3, 0⟩

/-- Map row of FLC_STAT. -/
def row_FLC_STAT : RegDef where
  name := "FLC_STAT"
  base := 0x40080020
  dims := [(4, 64)]
  reset := 0x00000000
  resets := []
  cores := 0x7F
  fields := [(FLC_STAT_BUSY, .ro), (FLC_STAT_SUSP, .ro), (FLC_STAT_MOVE, .ro), (FLC_STAT_DONE, .w1c), (FLC_STAT_RESULT, .ro), (FLC_STAT_OP, .ro)]

/-- Register FLC_ECC (15). -/
def FLC_ECC (i : Nat) : Nat := 0x40080024 + 64 * i
def FLC_ECC_ERRS : Fld := ⟨1, 0⟩

/-- Map row of FLC_ECC. -/
def row_FLC_ECC : RegDef where
  name := "FLC_ECC"
  base := 0x40080024
  dims := [(4, 64)]
  reset := 0x00000000
  resets := []
  cores := 0x7F
  fields := [(FLC_ECC_ERRS, .ro)]

/-- Register FLC_COL (15). -/
def FLC_COL (i : Nat) : Nat := 0x40080028 + 64 * i
def FLC_COL_SUSPECT : Fld := ⟨31, 31⟩
def FLC_COL_TEST : Fld := ⟨26, 24⟩
def FLC_COL_RUN : Fld := ⟨23, 16⟩
def FLC_COL_NFAIL : Fld := ⟨15, 10⟩
def FLC_COL_LINE : Fld := ⟨9, 0⟩

/-- Map row of FLC_COL. -/
def row_FLC_COL : RegDef where
  name := "FLC_COL"
  base := 0x40080028
  dims := [(4, 64)]
  reset := 0x00000000
  resets := []
  cores := 0x7F
  fields := [(FLC_COL_SUSPECT, .w1c), (FLC_COL_TEST, .ro), (FLC_COL_RUN, .ro), (FLC_COL_NFAIL, .ro), (FLC_COL_LINE, .ro)]

/-- Register FLC_REP (15). -/
def FLC_REP (i : Nat) : Nat := 0x4008002C + 64 * i
def FLC_REP_USED : Fld := ⟨18, 16⟩
def FLC_REP_LAST : Fld := ⟨9, 0⟩

/-- Map row of FLC_REP. -/
def row_FLC_REP : RegDef where
  name := "FLC_REP"
  base := 0x4008002C
  dims := [(4, 64)]
  reset := 0x00000000
  resets := []
  cores := 0x7F
  fields := [(FLC_REP_USED, .ro), (FLC_REP_LAST, .ro)]

/-- Register FLC_CFG (15). -/
def FLC_CFG : Nat := 0x40080100
def FLC_CFG_LOCK : Fld := ⟨31, 31⟩
def FLC_CFG_WRMASK : Fld := ⟨6, 0⟩

/-- Map row of FLC_CFG. -/
def row_FLC_CFG : RegDef where
  name := "FLC_CFG"
  base := 0x40080100
  dims := []
  reset := 0x00000041
  resets := []
  cores := 0x41
  fields := [(FLC_CFG_LOCK, .w1s), (FLC_CFG_WRMASK, .rwl)]

/-- Register FLC_BOOT (15). -/
def FLC_BOOT : Nat := 0x40080104
def FLC_BOOT_NOTWIN : Fld := ⟨2, 2⟩
def FLC_BOOT_READY : Fld := ⟨1, 1⟩
def FLC_BOOT_ACTIVE : Fld := ⟨0, 0⟩

/-- Map row of FLC_BOOT. -/
def row_FLC_BOOT : RegDef where
  name := "FLC_BOOT"
  base := 0x40080104
  dims := []
  reset := 0x00000000
  resets := []
  cores := 0x7F
  fields := [(FLC_BOOT_NOTWIN, .ro), (FLC_BOOT_READY, .ro), (FLC_BOOT_ACTIVE, .ro)]

/-- Register FLC_WINPOS (15). -/
def FLC_WINPOS (i : Nat) : Nat := 0x40080110 + 8 * i
def FLC_WINPOS_START : Fld := ⟨27, 16⟩
def FLC_WINPOS_GAP : Fld := ⟨11, 0⟩

/-- Map row of FLC_WINPOS. -/
def row_FLC_WINPOS : RegDef where
  name := "FLC_WINPOS"
  base := 0x40080110
  dims := [(2, 8)]
  reset := 0x00000000
  resets := []
  cores := 0x7F
  fields := [(FLC_WINPOS_START, .ro), (FLC_WINPOS_GAP, .ro)]

/-- Register FLC_WINSTAT (15). -/
def FLC_WINSTAT (i : Nat) : Nat := 0x40080114 + 8 * i
def FLC_WINSTAT_SUBST : Fld := ⟨31, 28⟩
def FLC_WINSTAT_POOL : Fld := ⟨26, 24⟩
def FLC_WINSTAT_RETIRED : Fld := ⟨22, 20⟩
def FLC_WINSTAT_ECOUNT : Fld := ⟨5, 0⟩

/-- Map row of FLC_WINSTAT. -/
def row_FLC_WINSTAT : RegDef where
  name := "FLC_WINSTAT"
  base := 0x40080114
  dims := [(2, 8)]
  reset := 0x00000000
  resets := []
  cores := 0x7F
  fields := [(FLC_WINSTAT_SUBST, .ro), (FLC_WINSTAT_POOL, .ro), (FLC_WINSTAT_RETIRED, .ro), (FLC_WINSTAT_ECOUNT, .ro)]

/-- Register FLC_CNT (15). -/
def FLC_CNT (i : Nat) : Nat := 0x40080140 + 4 * i
def FLC_CNT_SAT : Fld := ⟨31, 31⟩
def FLC_CNT_COUNT : Fld := ⟨15, 0⟩

/-- Map row of FLC_CNT. -/
def row_FLC_CNT : RegDef where
  name := "FLC_CNT"
  base := 0x40080140
  dims := [(12, 4)]
  reset := 0x00000000
  resets := []
  cores := 0x7F
  fields := [(FLC_CNT_SAT, .rc), (FLC_CNT_COUNT, .rc)]

/-! ### Block CAL at 0x40090000 -/

/-- Register CAL_CTL (20). -/
def CAL_CTL : Nat := 0x40090000
def CAL_CTL_IE : Fld := ⟨11, 8⟩
def CAL_CTL_AUTOSAVE : Fld := ⟨1, 1⟩
def CAL_CTL_AUTOSYN : Fld := ⟨0, 0⟩

/-- Map row of CAL_CTL. -/
def row_CAL_CTL : RegDef where
  name := "CAL_CTL"
  base := 0x40090000
  dims := []
  reset := 0x00000F03
  resets := []
  cores := 0x41
  fields := [(CAL_CTL_IE, .rw), (CAL_CTL_AUTOSAVE, .rw), (CAL_CTL_AUTOSYN, .rw)]

/-- Register CAL_CMD (20). -/
def CAL_CMD : Nat := 0x40090004
def CAL_CMD_KEY : Fld := ⟨31, 24⟩
def CAL_CMD_CHAIN : Fld := ⟨4, 4⟩
def CAL_CMD_OP : Fld := ⟨3, 0⟩

/-- Map row of CAL_CMD. -/
def row_CAL_CMD : RegDef where
  name := "CAL_CMD"
  base := 0x40090004
  dims := []
  reset := 0x00000000
  resets := []
  cores := 0x41
  fields := [(CAL_CMD_KEY, .wo), (CAL_CMD_CHAIN, .wo), (CAL_CMD_OP, .wo)]

/-- Register CAL_STAT (20). -/
def CAL_STAT : Nat := 0x40090008
def CAL_STAT_BUSY : Fld := ⟨31, 31⟩
def CAL_STAT_FORCED : Fld := ⟨3, 3⟩
def CAL_STAT_SYNFAIL : Fld := ⟨2, 2⟩
def CAL_STAT_STOREBAD : Fld := ⟨1, 1⟩
def CAL_STAT_TRIMBAD : Fld := ⟨0, 0⟩

/-- Map row of CAL_STAT. -/
def row_CAL_STAT : RegDef where
  name := "CAL_STAT"
  base := 0x40090008
  dims := []
  reset := 0x00000000
  resets := []
  cores := 0x7F
  fields := [(CAL_STAT_BUSY, .ro), (CAL_STAT_FORCED, .w1c), (CAL_STAT_SYNFAIL, .w1c), (CAL_STAT_STOREBAD, .w1c), (CAL_STAT_TRIMBAD, .ro)]

/-- Register CAL_CHSTAT (20). -/
def CAL_CHSTAT (i : Nat) : Nat := 0x40090010 + 4 * i
def CAL_CHSTAT_STALE : Fld := ⟨31, 31⟩
def CAL_CHSTAT_PEND : Fld := ⟨2, 0⟩

/-- Map row of CAL_CHSTAT. -/
def row_CAL_CHSTAT : RegDef where
  name := "CAL_CHSTAT"
  base := 0x40090010
  dims := [(4, 4)]
  reset := 0x00000000
  resets := []
  cores := 0x7F
  fields := [(CAL_CHSTAT_STALE, .ro), (CAL_CHSTAT_PEND, .ro)]

/-- Register CAL_TEMP (20). -/
def CAL_TEMP : Nat := 0x40090020
def CAL_TEMP_TEMP : Fld := ⟨15, 0⟩

/-- Map row of CAL_TEMP. -/
def row_CAL_TEMP : RegDef where
  name := "CAL_TEMP"
  base := 0x40090020
  dims := []
  reset := 0x00000000
  resets := []
  cores := 0x7F
  fields := [(CAL_TEMP_TEMP, .ro)]

/-- Register CAL_FORCE (20). -/
def CAL_FORCE (i : Nat) : Nat := 0x40090030 + 4 * i
def CAL_FORCE_SAT : Fld := ⟨31, 31⟩
def CAL_FORCE_COUNT : Fld := ⟨15, 0⟩

/-- Map row of CAL_FORCE. -/
def row_CAL_FORCE : RegDef where
  name := "CAL_FORCE"
  base := 0x40090030
  dims := [(4, 4)]
  reset := 0x00000000
  resets := []
  cores := 0x7F
  fields := [(CAL_FORCE_SAT, .rc), (CAL_FORCE_COUNT, .rc)]

/-- Register CAL_CNT (20). -/
def CAL_CNT (i : Nat) : Nat := 0x40090040 + 4 * i
def CAL_CNT_SAT : Fld := ⟨31, 31⟩
def CAL_CNT_COUNT : Fld := ⟨15, 0⟩

/-- Map row of CAL_CNT. -/
def row_CAL_CNT : RegDef where
  name := "CAL_CNT"
  base := 0x40090040
  dims := [(22, 4)]
  reset := 0x00000000
  resets := []
  cores := 0x7F
  fields := [(CAL_CNT_SAT, .rc), (CAL_CNT_COUNT, .rc)]

/-- Register CAL_LAST (20). -/
def CAL_LAST (i : Nat) : Nat := 0x400900C0 + 4 * i
def CAL_LAST_MS : Fld := ⟨31, 0⟩

/-- Map row of CAL_LAST. -/
def row_CAL_LAST : RegDef where
  name := "CAL_LAST"
  base := 0x400900C0
  dims := [(22, 4)]
  reset := 0x00000000
  resets := []
  cores := 0x7F
  fields := [(CAL_LAST_MS, .ro)]

/-! ### Block ERL at 0x400A0000 -/

/-- Register ERL_ENT (24). -/
def ERL_ENT (i : Nat) : Nat := 0x400A0000 + 4 * i
def ERL_ENT_WORD : Fld := ⟨31, 0⟩

/-- Map row of ERL_ENT. -/
def row_ERL_ENT : RegDef where
  name := "ERL_ENT"
  base := 0x400A0000
  dims := [(10, 4)]
  reset := 0x00000000
  resets := [0xfc000000, 0x0, 0x0, 0x0, 0x0, 0x0, 0x0, 0x0, 0x0, 0x0]
  cores := 0x7F
  fields := [(ERL_ENT_WORD, .ro)]

/-- Register ERL_STAT (24). -/
def ERL_STAT : Nat := 0x400A0028
def ERL_STAT_OVF : Fld := ⟨31, 31⟩
def ERL_STAT_N : Fld := ⟨22, 16⟩

/-- Map row of ERL_STAT. -/
def row_ERL_STAT : RegDef where
  name := "ERL_STAT"
  base := 0x400A0028
  dims := []
  reset := 0x00000000
  resets := []
  cores := 0x7F
  fields := [(ERL_STAT_OVF, .w1c), (ERL_STAT_N, .ro)]

/-- Register ERL_LOST (24). -/
def ERL_LOST : Nat := 0x400A002C
def ERL_LOST_SAT : Fld := ⟨31, 31⟩
def ERL_LOST_COUNT : Fld := ⟨15, 0⟩

/-- Map row of ERL_LOST. -/
def row_ERL_LOST : RegDef where
  name := "ERL_LOST"
  base := 0x400A002C
  dims := []
  reset := 0x00000000
  resets := []
  cores := 0x7F
  fields := [(ERL_LOST_SAT, .rc), (ERL_LOST_COUNT, .rc)]

/-- Register ERL_FIRSTLOST (24). -/
def ERL_FIRSTLOST : Nat := 0x400A0030
def ERL_FIRSTLOST_BLOCK : Fld := ⟨31, 26⟩
def ERL_FIRSTLOST_UNIT : Fld := ⟨25, 12⟩
def ERL_FIRSTLOST_VALID : Fld := ⟨8, 8⟩
def ERL_FIRSTLOST_CODE : Fld := ⟨7, 0⟩

/-- Map row of ERL_FIRSTLOST. -/
def row_ERL_FIRSTLOST : RegDef where
  name := "ERL_FIRSTLOST"
  base := 0x400A0030
  dims := []
  reset := 0x00000000
  resets := []
  cores := 0x7F
  fields := [(ERL_FIRSTLOST_BLOCK, .ro), (ERL_FIRSTLOST_UNIT, .ro), (ERL_FIRSTLOST_VALID, .ro), (ERL_FIRSTLOST_CODE, .ro)]

/-- Register ERL_FIRSTLT (24). -/
def ERL_FIRSTLT : Nat := 0x400A0034
def ERL_FIRSTLT_TIME : Fld := ⟨31, 0⟩

/-- Map row of ERL_FIRSTLT. -/
def row_ERL_FIRSTLT : RegDef where
  name := "ERL_FIRSTLT"
  base := 0x400A0034
  dims := []
  reset := 0x00000000
  resets := []
  cores := 0x7F
  fields := [(ERL_FIRSTLT_TIME, .ro)]

/-- Register ERL_LASTLOST (24). -/
def ERL_LASTLOST : Nat := 0x400A0038
def ERL_LASTLOST_BLOCK : Fld := ⟨31, 26⟩
def ERL_LASTLOST_UNIT : Fld := ⟨25, 12⟩
def ERL_LASTLOST_VALID : Fld := ⟨8, 8⟩
def ERL_LASTLOST_CODE : Fld := ⟨7, 0⟩

/-- Map row of ERL_LASTLOST. -/
def row_ERL_LASTLOST : RegDef where
  name := "ERL_LASTLOST"
  base := 0x400A0038
  dims := []
  reset := 0x00000000
  resets := []
  cores := 0x7F
  fields := [(ERL_LASTLOST_BLOCK, .ro), (ERL_LASTLOST_UNIT, .ro), (ERL_LASTLOST_VALID, .ro), (ERL_LASTLOST_CODE, .ro)]

/-- Register ERL_LASTLT (24). -/
def ERL_LASTLT : Nat := 0x400A003C
def ERL_LASTLT_TIME : Fld := ⟨31, 0⟩

/-- Map row of ERL_LASTLT. -/
def row_ERL_LASTLT : RegDef where
  name := "ERL_LASTLT"
  base := 0x400A003C
  dims := []
  reset := 0x00000000
  resets := []
  cores := 0x7F
  fields := [(ERL_LASTLT_TIME, .ro)]

/-- Register ERL_FUSE (24). -/
def ERL_FUSE (i : Nat) : Nat := 0x400A0040 + 4 * i
def ERL_FUSE_MARG : Fld := ⟨31, 0⟩

/-- Map row of ERL_FUSE. -/
def row_ERL_FUSE : RegDef where
  name := "ERL_FUSE"
  base := 0x400A0040
  dims := [(2, 4)]
  reset := 0x00000000
  resets := []
  cores := 0x7F
  fields := [(ERL_FUSE_MARG, .ro)]

/-- Register ERL_ECC (24). -/
def ERL_ECC (i : Nat) : Nat := 0x400A0048 + 4 * i
def ERL_ECC_SAT : Fld := ⟨31, 31⟩
def ERL_ECC_COUNT : Fld := ⟨15, 0⟩

/-- Map row of ERL_ECC. -/
def row_ERL_ECC : RegDef where
  name := "ERL_ECC"
  base := 0x400A0048
  dims := [(6, 4)]
  reset := 0x00000000
  resets := []
  cores := 0x7F
  fields := [(ERL_ECC_SAT, .rc), (ERL_ECC_COUNT, .rc)]

/-! ### Block SEM at 0x400B0000 -/

/-- Register SEM_TAKE (14). -/
def SEM_TAKE (i : Nat) : Nat := 0x400B0000 + 4 * i
def SEM_TAKE_RESULT : Fld := ⟨27, 24⟩
def SEM_TAKE_OWNER : Fld := ⟨18, 16⟩

/-- Map row of SEM_TAKE. -/
def row_SEM_TAKE : RegDef where
  name := "SEM_TAKE"
  base := 0x400B0000
  dims := [(64, 4)]
  reset := 0x00070000
  resets := []
  cores := 0x7F
  fields := [(SEM_TAKE_RESULT, .rc), (SEM_TAKE_OWNER, .rc)]

/-- Register SEM_GIVE (14). -/
def SEM_GIVE (i : Nat) : Nat := 0x400B0100 + 4 * i
def SEM_GIVE_GIVE : Fld := ⟨0, 0⟩

/-- Map row of SEM_GIVE. -/
def row_SEM_GIVE : RegDef where
  name := "SEM_GIVE"
  base := 0x400B0100
  dims := [(64, 4)]
  reset := 0x00000000
  resets := []
  cores := 0x7F
  fields := [(SEM_GIVE_GIVE, .wo)]

/-- Register SEM_STAT (14). -/
def SEM_STAT (i : Nat) : Nat := 0x400B0200 + 4 * i
def SEM_STAT_HELD : Fld := ⟨31, 31⟩
def SEM_STAT_ORPHAN : Fld := ⟨30, 30⟩
def SEM_STAT_OWNER : Fld := ⟨18, 16⟩

/-- Map row of SEM_STAT. -/
def row_SEM_STAT : RegDef where
  name := "SEM_STAT"
  base := 0x400B0200
  dims := [(64, 4)]
  reset := 0x00070000
  resets := []
  cores := 0x7F
  fields := [(SEM_STAT_HELD, .ro), (SEM_STAT_ORPHAN, .ro), (SEM_STAT_OWNER, .ro)]

/-- Register SEM_RESCUE (14). -/
def SEM_RESCUE (i : Nat) : Nat := 0x400B0300 + 4 * i
def SEM_RESCUE_RESULT : Fld := ⟨27, 24⟩
def SEM_RESCUE_OWNER : Fld := ⟨18, 16⟩

/-- Map row of SEM_RESCUE. -/
def row_SEM_RESCUE : RegDef where
  name := "SEM_RESCUE"
  base := 0x400B0300
  dims := [(64, 4)]
  reset := 0x00070000
  resets := []
  cores := 0x7F
  fields := [(SEM_RESCUE_RESULT, .rc), (SEM_RESCUE_OWNER, .rc)]

/-- Register SEM_CFG (14). -/
def SEM_CFG : Nat := 0x400B0400
def SEM_CFG_RESCUE : Fld := ⟨6, 0⟩

/-- Map row of SEM_CFG. -/
def row_SEM_CFG : RegDef where
  name := "SEM_CFG"
  base := 0x400B0400
  dims := []
  reset := 0x00000041
  resets := []
  cores := 0x41
  fields := [(SEM_CFG_RESCUE, .rw)]

/-- Register SEM_ORPH_LO (14). -/
def SEM_ORPH_LO : Nat := 0x400B0404
def SEM_ORPH_LO_ORPH : Fld := ⟨31, 0⟩

/-- Map row of SEM_ORPH_LO. -/
def row_SEM_ORPH_LO : RegDef where
  name := "SEM_ORPH_LO"
  base := 0x400B0404
  dims := []
  reset := 0x00000000
  resets := []
  cores := 0x7F
  fields := [(SEM_ORPH_LO_ORPH, .ro)]

/-- Register SEM_ORPH_HI (14). -/
def SEM_ORPH_HI : Nat := 0x400B0408
def SEM_ORPH_HI_ORPH : Fld := ⟨31, 0⟩

/-- Map row of SEM_ORPH_HI. -/
def row_SEM_ORPH_HI : RegDef where
  name := "SEM_ORPH_HI"
  base := 0x400B0408
  dims := []
  reset := 0x00000000
  resets := []
  cores := 0x7F
  fields := [(SEM_ORPH_HI_ORPH, .ro)]

/-- Register SEM_CNT (14). -/
def SEM_CNT (i : Nat) : Nat := 0x400B0410 + 4 * i
def SEM_CNT_SAT : Fld := ⟨31, 31⟩
def SEM_CNT_COUNT : Fld := ⟨15, 0⟩

/-- Map row of SEM_CNT. -/
def row_SEM_CNT : RegDef where
  name := "SEM_CNT"
  base := 0x400B0410
  dims := [(3, 4)]
  reset := 0x00000000
  resets := []
  cores := 0x7F
  fields := [(SEM_CNT_SAT, .rc), (SEM_CNT_COUNT, .rc)]

/-! ### Block RFC at 0x40100000 -/

/-- Register RFC_RXCTL (05). -/
def RFC_RXCTL (i : Nat) : Nat := 0x40100000 + 4 * i
def RFC_RXCTL_GAIN : Fld := ⟨10, 8⟩
def RFC_RXCTL_BLANK : Fld := ⟨4, 4⟩
def RFC_RXCTL_AGC : Fld := ⟨3, 2⟩
def RFC_RXCTL_ON : Fld := ⟨0, 0⟩

/-- Map row of RFC_RXCTL. -/
def row_RFC_RXCTL : RegDef where
  name := "RFC_RXCTL"
  base := 0x40100000
  dims := [(4, 4)]
  reset := 0x00000010
  resets := []
  cores := 0x7F
  fields := [(RFC_RXCTL_GAIN, .rw), (RFC_RXCTL_BLANK, .rw), (RFC_RXCTL_AGC, .rw), (RFC_RXCTL_ON, .rw)]

/-- Register RFC_RXSTAT (05). -/
def RFC_RXSTAT (i : Nat) : Nat := 0x40100010 + 4 * i
def RFC_RXSTAT_PEAK : Fld := ⟨31, 24⟩
def RFC_RXSTAT_ERR : Fld := ⟨19, 16⟩
def RFC_RXSTAT_GAINNOW : Fld := ⟨10, 8⟩
def RFC_RXSTAT_BLANKED : Fld := ⟨2, 2⟩
def RFC_RXSTAT_AGCSTEP : Fld := ⟨1, 1⟩
def RFC_RXSTAT_READY : Fld := ⟨0, 0⟩

/-- Map row of RFC_RXSTAT. -/
def row_RFC_RXSTAT : RegDef where
  name := "RFC_RXSTAT"
  base := 0x40100010
  dims := [(4, 4)]
  reset := 0x00000000
  resets := []
  cores := 0x7F
  fields := [(RFC_RXSTAT_PEAK, .ro), (RFC_RXSTAT_ERR, .ro), (RFC_RXSTAT_GAINNOW, .ro), (RFC_RXSTAT_BLANKED, .ro), (RFC_RXSTAT_AGCSTEP, .w1c), (RFC_RXSTAT_READY, .ro)]

/-- Register RFC_CLIPCNT (05). -/
def RFC_CLIPCNT (i : Nat) : Nat := 0x40100020 + 4 * i
def RFC_CLIPCNT_SAT : Fld := ⟨31, 31⟩
def RFC_CLIPCNT_COUNT : Fld := ⟨15, 0⟩

/-- Map row of RFC_CLIPCNT. -/
def row_RFC_CLIPCNT : RegDef where
  name := "RFC_CLIPCNT"
  base := 0x40100020
  dims := [(4, 4)]
  reset := 0x00000000
  resets := []
  cores := 0x7F
  fields := [(RFC_CLIPCNT_SAT, .rc), (RFC_CLIPCNT_COUNT, .rc)]

/-- Register RFC_MCTAP (05). -/
def RFC_MCTAP (i : Nat) : Nat := 0x40100030 + 4 * i
def RFC_MCTAP_EN : Fld := ⟨31, 31⟩
def RFC_MCTAP_CHAIN : Fld := ⟨30, 29⟩
def RFC_MCTAP_BW : Fld := ⟨28, 27⟩
def RFC_MCTAP_OFFSET_HZ : Fld := ⟨26, 0⟩

/-- Map row of RFC_MCTAP. -/
def row_RFC_MCTAP : RegDef where
  name := "RFC_MCTAP"
  base := 0x40100030
  dims := [(2, 4)]
  reset := 0x00000000
  resets := []
  cores := 0x7F
  fields := [(RFC_MCTAP_EN, .rw), (RFC_MCTAP_CHAIN, .rw), (RFC_MCTAP_BW, .rw), (RFC_MCTAP_OFFSET_HZ, .rw)]

/-- Register RFC_ANT (05). -/
def RFC_ANT : Nat := 0x40100038
def RFC_ANT_PEND : Fld := ⟨1, 1⟩
def RFC_ANT_SEL : Fld := ⟨0, 0⟩

/-- Map row of RFC_ANT. -/
def row_RFC_ANT : RegDef where
  name := "RFC_ANT"
  base := 0x40100038
  dims := []
  reset := 0x00000000
  resets := []
  cores := 0x7F
  fields := [(RFC_ANT_PEND, .ro), (RFC_ANT_SEL, .rw)]

/-- Register RFC_TXSTAT (05). -/
def RFC_TXSTAT (i : Nat) : Nat := 0x40100040 + 4 * i
def RFC_TXSTAT_LAST : Fld := ⟨31, 24⟩
def RFC_TXSTAT_ENTRY : Fld := ⟨13, 8⟩
def RFC_TXSTAT_STATE : Fld := ⟨2, 0⟩

/-- Map row of RFC_TXSTAT. -/
def row_RFC_TXSTAT : RegDef where
  name := "RFC_TXSTAT"
  base := 0x40100040
  dims := [(2, 4)]
  reset := 0x00000000
  resets := []
  cores := 0x7F
  fields := [(RFC_TXSTAT_LAST, .ro), (RFC_TXSTAT_ENTRY, .ro), (RFC_TXSTAT_STATE, .ro)]

/-- Register RFC_REFUSE (05). -/
def RFC_REFUSE (i : Nat) : Nat := 0x40100048 + 4 * i
def RFC_REFUSE_SAT : Fld := ⟨31, 31⟩
def RFC_REFUSE_CODE : Fld := ⟨23, 16⟩
def RFC_REFUSE_COUNT : Fld := ⟨15, 0⟩

/-- Map row of RFC_REFUSE. -/
def row_RFC_REFUSE : RegDef where
  name := "RFC_REFUSE"
  base := 0x40100048
  dims := [(2, 4)]
  reset := 0x00000000
  resets := []
  cores := 0x7F
  fields := [(RFC_REFUSE_SAT, .rc), (RFC_REFUSE_CODE, .ro), (RFC_REFUSE_COUNT, .rc)]

/-- Register RFC_DUTY (05). -/
def RFC_DUTY (i : Nat) (j : Nat) : Nat := 0x40100080 + 32 * i + 4 * j
def RFC_DUTY_HOLD : Fld := ⟨31, 31⟩
def RFC_DUTY_USED_MS : Fld := ⟨26, 0⟩

/-- Map row of RFC_DUTY. -/
def row_RFC_DUTY : RegDef where
  name := "RFC_DUTY"
  base := 0x40100080
  dims := [(2, 32), (8, 4)]
  reset := 0x00000000
  resets := []
  cores := 0x7F
  fields := [(RFC_DUTY_HOLD, .ro), (RFC_DUTY_USED_MS, .ro)]

/-- Register RFC_PROF (05). -/
def RFC_PROF (i : Nat) : Nat := 0x401000C0 + 4 * i
def RFC_PROF_VALID : Fld := ⟨31, 31⟩
def RFC_PROF_NSUB : Fld := ⟨11, 8⟩
def RFC_PROF_INDEX : Fld := ⟨3, 0⟩

/-- Map row of RFC_PROF. -/
def row_RFC_PROF : RegDef where
  name := "RFC_PROF"
  base := 0x401000C0
  dims := [(2, 4)]
  reset := 0x00000000
  resets := []
  cores := 0x7F
  fields := [(RFC_PROF_VALID, .ro), (RFC_PROF_NSUB, .ro), (RFC_PROF_INDEX, .ro)]

/-- Register RFC_PWRTAB (05). -/
def RFC_PWRTAB (i : Nat) (j : Nat) : Nat := 0x40100100 + 256 * i + 4 * j
def RFC_PWRTAB_RSV_MW : Fld := ⟨31, 22⟩
def RFC_PWRTAB_VALID : Fld := ⟨21, 21⟩
def RFC_PWRTAB_DRV : Fld := ⟨20, 16⟩
def RFC_PWRTAB_BIAS : Fld := ⟨15, 10⟩
def RFC_PWRTAB_TARGET : Fld := ⟨8, 0⟩

/-- Map row of RFC_PWRTAB. -/
def row_RFC_PWRTAB : RegDef where
  name := "RFC_PWRTAB"
  base := 0x40100100
  dims := [(2, 256), (64, 4)]
  reset := 0x00000000
  resets := []
  cores := 0x7F
  fields := [(RFC_PWRTAB_RSV_MW, .ro), (RFC_PWRTAB_VALID, .ro), (RFC_PWRTAB_DRV, .rw), (RFC_PWRTAB_BIAS, .rw), (RFC_PWRTAB_TARGET, .rw)]

/-! ### Block SYN at 0x40110000 -/

/-- Register SYN_STAT (05). -/
def SYN_STAT (i : Nat) : Nat := 0x40110000 + 4 * i
def SYN_STAT_LOCK : Fld := ⟨31, 31⟩
def SYN_STAT_ENTRY : Fld := ⟨7, 0⟩

/-- Map row of SYN_STAT. -/
def row_SYN_STAT : RegDef where
  name := "SYN_STAT"
  base := 0x40110000
  dims := [(2, 4)]
  reset := 0x00000000
  resets := []
  cores := 0x7F
  fields := [(SYN_STAT_LOCK, .ro), (SYN_STAT_ENTRY, .ro)]

/-- Register SYN_HOPFAIL (05). -/
def SYN_HOPFAIL (i : Nat) : Nat := 0x40110008 + 4 * i
def SYN_HOPFAIL_SAT : Fld := ⟨31, 31⟩
def SYN_HOPFAIL_COUNT : Fld := ⟨15, 0⟩

/-- Map row of SYN_HOPFAIL. -/
def row_SYN_HOPFAIL : RegDef where
  name := "SYN_HOPFAIL"
  base := 0x40110008
  dims := [(2, 4)]
  reset := 0x00000000
  resets := []
  cores := 0x7F
  fields := [(SYN_HOPFAIL_SAT, .rc), (SYN_HOPFAIL_COUNT, .rc)]

/-- Register SYN_CALF (05). -/
def SYN_CALF (i : Nat) (j : Nat) : Nat := 0x40111000 + 2048 * i + 8 * j
def SYN_CALF_VALID : Fld := ⟨31, 31⟩
def SYN_CALF_STALE : Fld := ⟨30, 30⟩
def SYN_CALF_BAD : Fld := ⟨29, 29⟩
def SYN_CALF_FREQ_KHZ : Fld := ⟨21, 0⟩

/-- Map row of SYN_CALF. -/
def row_SYN_CALF : RegDef where
  name := "SYN_CALF"
  base := 0x40111000
  dims := [(2, 2048), (256, 8)]
  reset := 0x00000000
  resets := []
  cores := 0x7F
  fields := [(SYN_CALF_VALID, .ro), (SYN_CALF_STALE, .ro), (SYN_CALF_BAD, .ro), (SYN_CALF_FREQ_KHZ, .rw)]

/-- Register SYN_CALC (05). -/
def SYN_CALC (i : Nat) (j : Nat) : Nat := 0x40111004 + 2048 * i + 8 * j
def SYN_CALC_CODES : Fld := ⟨31, 0⟩

/-- Map row of SYN_CALC. -/
def row_SYN_CALC : RegDef where
  name := "SYN_CALC"
  base := 0x40111004
  dims := [(2, 2048), (256, 8)]
  reset := 0x00000000
  resets := []
  cores := 0x7F
  fields := [(SYN_CALC_CODES, .ro)]

/-! ### Block COX at 0x40120000 -/

/-- Register COX_STAT (05). -/
def COX_STAT : Nat := 0x40120000
def COX_STAT_GNTSTUCK : Fld := ⟨31, 31⟩
def COX_STAT_CONSEC : Fld := ⟨23, 16⟩
def COX_STAT_ACT : Fld := ⟨3, 3⟩
def COX_STAT_GNT : Fld := ⟨2, 2⟩
def COX_STAT_PRI : Fld := ⟨1, 1⟩
def COX_STAT_REQ : Fld := ⟨0, 0⟩

/-- Map row of COX_STAT. -/
def row_COX_STAT : RegDef where
  name := "COX_STAT"
  base := 0x40120000
  dims := []
  reset := 0x00000000
  resets := []
  cores := 0x7F
  fields := [(COX_STAT_GNTSTUCK, .w1c), (COX_STAT_CONSEC, .ro), (COX_STAT_ACT, .ro), (COX_STAT_GNT, .ro), (COX_STAT_PRI, .ro), (COX_STAT_REQ, .ro)]

/-- Register COX_TOCNT (05). -/
def COX_TOCNT : Nat := 0x40120004
def COX_TOCNT_SAT : Fld := ⟨31, 31⟩
def COX_TOCNT_COUNT : Fld := ⟨15, 0⟩

/-- Map row of COX_TOCNT. -/
def row_COX_TOCNT : RegDef where
  name := "COX_TOCNT"
  base := 0x40120004
  dims := []
  reset := 0x00000000
  resets := []
  cores := 0x7F
  fields := [(COX_TOCNT_SAT, .rc), (COX_TOCNT_COUNT, .rc)]

/-- Register COX_ABRTCNT (05). -/
def COX_ABRTCNT : Nat := 0x40120008
def COX_ABRTCNT_SAT : Fld := ⟨31, 31⟩
def COX_ABRTCNT_COUNT : Fld := ⟨15, 0⟩

/-- Map row of COX_ABRTCNT. -/
def row_COX_ABRTCNT : RegDef where
  name := "COX_ABRTCNT"
  base := 0x40120008
  dims := []
  reset := 0x00000000
  resets := []
  cores := 0x7F
  fields := [(COX_ABRTCNT_SAT, .rc), (COX_ABRTCNT_COUNT, .rc)]

/-- Register COX_NOGNT (05). -/
def COX_NOGNT : Nat := 0x4012000C
def COX_NOGNT_SAT : Fld := ⟨31, 31⟩
def COX_NOGNT_COUNT : Fld := ⟨15, 0⟩

/-- Map row of COX_NOGNT. -/
def row_COX_NOGNT : RegDef where
  name := "COX_NOGNT"
  base := 0x4012000C
  dims := []
  reset := 0x00000000
  resets := []
  cores := 0x7F
  fields := [(COX_NOGNT_SAT, .rc), (COX_NOGNT_COUNT, .rc)]

/-! ### Block DET at 0x40200000 -/

/-- Register DET_CTL (07). -/
def DET_CTL (i : Nat) : Nat := 0x40200000 + 4 * i
def DET_CTL_SWEN : Fld := ⟨12, 9⟩
def DET_CTL_MCGUARD : Fld := ⟨8, 8⟩
def DET_CTL_EN : Fld := ⟨7, 7⟩
def DET_CTL_THROFS : Fld := ⟨5, 0⟩

/-- Map row of DET_CTL. -/
def row_DET_CTL : RegDef where
  name := "DET_CTL"
  base := 0x40200000
  dims := [(4, 4)]
  reset := 0x00000180
  resets := []
  cores := 0x7F
  fields := [(DET_CTL_SWEN, .rw), (DET_CTL_MCGUARD, .rw), (DET_CTL_EN, .rw), (DET_CTL_THROFS, .rw)]

/-- Register DET_SYNC (07). -/
def DET_SYNC (i : Nat) : Nat := 0x40200010 + 4 * i
def DET_SYNC_SW : Fld := ⟨31, 0⟩

/-- Map row of DET_SYNC. -/
def row_DET_SYNC : RegDef where
  name := "DET_SYNC"
  base := 0x40200010
  dims := [(4, 4)]
  reset := 0x00000000
  resets := []
  cores := 0x71
  fields := [(DET_SYNC_SW, .rw)]

/-- Register DET_CAND (07). -/
def DET_CAND (i : Nat) : Nat := 0x40200020 + 4 * i
def DET_CAND_SAT : Fld := ⟨31, 31⟩
def DET_CAND_CHANNEL : Fld := ⟨23, 16⟩
def DET_CAND_COUNT : Fld := ⟨15, 0⟩

/-- Map row of DET_CAND. -/
def row_DET_CAND : RegDef where
  name := "DET_CAND"
  base := 0x40200020
  dims := [(4, 4)]
  reset := 0x00000000
  resets := []
  cores := 0x7F
  fields := [(DET_CAND_SAT, .rc), (DET_CAND_CHANNEL, .ro), (DET_CAND_COUNT, .rc)]

/-- Register DET_NOFUR (07). -/
def DET_NOFUR (i : Nat) : Nat := 0x40200030 + 4 * i
def DET_NOFUR_SAT : Fld := ⟨31, 31⟩
def DET_NOFUR_CHANNEL : Fld := ⟨23, 16⟩
def DET_NOFUR_COUNT : Fld := ⟨15, 0⟩

/-- Map row of DET_NOFUR. -/
def row_DET_NOFUR : RegDef where
  name := "DET_NOFUR"
  base := 0x40200030
  dims := [(4, 4)]
  reset := 0x00000000
  resets := []
  cores := 0x7F
  fields := [(DET_NOFUR_SAT, .rc), (DET_NOFUR_CHANNEL, .ro), (DET_NOFUR_COUNT, .rc)]

/-- Register DET_DISC (07). -/
def DET_DISC (i : Nat) : Nat := 0x40200040 + 4 * i
def DET_DISC_SAT : Fld := ⟨31, 31⟩
def DET_DISC_LAST : Fld := ⟨27, 24⟩
def DET_DISC_COUNT : Fld := ⟨15, 0⟩

/-- Map row of DET_DISC. -/
def row_DET_DISC : RegDef where
  name := "DET_DISC"
  base := 0x40200040
  dims := [(16, 4)]
  reset := 0x00000000
  resets := []
  cores := 0x7F
  fields := [(DET_DISC_SAT, .rc), (DET_DISC_LAST, .ro), (DET_DISC_COUNT, .rc)]

/-- Register DET_DISCR (07). -/
def DET_DISCR (i : Nat) : Nat := 0x40200080 + 4 * i
def DET_DISCR_SAT : Fld := ⟨31, 31⟩
def DET_DISCR_COUNT : Fld := ⟨15, 0⟩

/-- Map row of DET_DISCR. -/
def row_DET_DISCR : RegDef where
  name := "DET_DISCR"
  base := 0x40200080
  dims := [(11, 4)]
  reset := 0x00000000
  resets := []
  cores := 0x7F
  fields := [(DET_DISCR_SAT, .rc), (DET_DISCR_COUNT, .rc)]

/-- Register DET_FURCFG (07). -/
def DET_FURCFG : Nat := 0x402000B0
def DET_FURCFG_FREEZE : Fld := ⟨7, 0⟩

/-- Map row of DET_FURCFG. -/
def row_DET_FURCFG : RegDef where
  name := "DET_FURCFG"
  base := 0x402000B0
  dims := []
  reset := 0x0000000C
  resets := []
  cores := 0x7F
  fields := [(DET_FURCFG_FREEZE, .rw)]

/-! ### Block FUR at 0x40210000 -/

/-- Register FUR_STAT (07). -/
def FUR_STAT (i : Nat) : Nat := 0x40210000 + 64 * i
def FUR_STAT_STATUS : Fld := ⟨15, 8⟩
def FUR_STAT_STATE : Fld := ⟨3, 0⟩

/-- Map row of FUR_STAT. -/
def row_FUR_STAT : RegDef where
  name := "FUR_STAT"
  base := 0x40210000
  dims := [(1024, 64)]
  reset := 0x00000000
  resets := []
  cores := 0x7F
  fields := [(FUR_STAT_STATUS, .ro), (FUR_STAT_STATE, .ro)]

/-- Register FUR_CTL (07). -/
def FUR_CTL (i : Nat) : Nat := 0x40210004 + 64 * i
def FUR_CTL_ABORT : Fld := ⟨1, 1⟩
def FUR_CTL_RELEASE : Fld := ⟨0, 0⟩

/-- Map row of FUR_CTL. -/
def row_FUR_CTL : RegDef where
  name := "FUR_CTL"
  base := 0x40210004
  dims := [(1024, 64)]
  reset := 0x00000000
  resets := []
  cores := 0x7F
  fields := [(FUR_CTL_ABORT, .wo), (FUR_CTL_RELEASE, .wo)]

/-- Register FUR_SRC (07). -/
def FUR_SRC (i : Nat) : Nat := 0x40210008 + 64 * i
def FUR_SRC_CHAIN : Fld := ⟨31, 30⟩
def FUR_SRC_BW : Fld := ⟨29, 27⟩
def FUR_SRC_EXP : Fld := ⟨26, 24⟩
def FUR_SRC_CHANNEL : Fld := ⟨23, 16⟩
def FUR_SRC_REENTRY : Fld := ⟨15, 15⟩
def FUR_SRC_BIN : Fld := ⟨11, 0⟩

/-- Map row of FUR_SRC. -/
def row_FUR_SRC : RegDef where
  name := "FUR_SRC"
  base := 0x40210008
  dims := [(1024, 64)]
  reset := 0x00000000
  resets := []
  cores := 0x7F
  fields := [(FUR_SRC_CHAIN, .ro), (FUR_SRC_BW, .ro), (FUR_SRC_EXP, .ro), (FUR_SRC_CHANNEL, .ro), (FUR_SRC_REENTRY, .ro), (FUR_SRC_BIN, .ro)]

/-- Register FUR_HDR (07). -/
def FUR_HDR (i : Nat) : Nat := 0x4021000C + 64 * i
def FUR_HDR_HDR : Fld := ⟨31, 0⟩

/-- Map row of FUR_HDR. -/
def row_FUR_HDR : RegDef where
  name := "FUR_HDR"
  base := 0x4021000C
  dims := [(1024, 64)]
  reset := 0x00000000
  resets := []
  cores := 0x7F
  fields := [(FUR_HDR_HDR, .ro)]

/-- Register FUR_LVL (07). -/
def FUR_LVL (i : Nat) : Nat := 0x40210010 + 64 * i
def FUR_LVL_RSSI : Fld := ⟨31, 16⟩
def FUR_LVL_SNR : Fld := ⟨15, 0⟩

/-- Map row of FUR_LVL. -/
def row_FUR_LVL : RegDef where
  name := "FUR_LVL"
  base := 0x40210010
  dims := [(1024, 64)]
  reset := 0x00000000
  resets := []
  cores := 0x7F
  fields := [(FUR_LVL_RSSI, .ro), (FUR_LVL_SNR, .ro)]

/-- Register FUR_FOFF (07). -/
def FUR_FOFF (i : Nat) : Nat := 0x40210014 + 64 * i
def FUR_FOFF_DRIFT : Fld := ⟨31, 24⟩
def FUR_FOFF_FOFF : Fld := ⟨23, 0⟩

/-- Map row of FUR_FOFF. -/
def row_FUR_FOFF : RegDef where
  name := "FUR_FOFF"
  base := 0x40210014
  dims := [(1024, 64)]
  reset := 0x00000000
  resets := []
  cores := 0x7F
  fields := [(FUR_FOFF_DRIFT, .ro), (FUR_FOFF_FOFF, .ro)]

/-- Register FUR_TSYNC_LO (07). -/
def FUR_TSYNC_LO (i : Nat) : Nat := 0x40210018 + 64 * i
def FUR_TSYNC_LO_TSYNC : Fld := ⟨31, 0⟩

/-- Map row of FUR_TSYNC_LO. -/
def row_FUR_TSYNC_LO : RegDef where
  name := "FUR_TSYNC_LO"
  base := 0x40210018
  dims := [(1024, 64)]
  reset := 0x00000000
  resets := []
  cores := 0x7F
  fields := [(FUR_TSYNC_LO_TSYNC, .ro)]

/-- Register FUR_TSYNC_HI (07). -/
def FUR_TSYNC_HI (i : Nat) : Nat := 0x4021001C + 64 * i
def FUR_TSYNC_HI_TSYNC : Fld := ⟨31, 0⟩

/-- Map row of FUR_TSYNC_HI. -/
def row_FUR_TSYNC_HI : RegDef where
  name := "FUR_TSYNC_HI"
  base := 0x4021001C
  dims := [(1024, 64)]
  reset := 0x00000000
  resets := []
  cores := 0x7F
  fields := [(FUR_TSYNC_HI_TSYNC, .ro)]

/-- Register FUR_RPT (07). -/
def FUR_RPT (i : Nat) : Nat := 0x40210020 + 64 * i
def FUR_RPT_ADDR : Fld := ⟨31, 0⟩

/-- Map row of FUR_RPT. -/
def row_FUR_RPT : RegDef where
  name := "FUR_RPT"
  base := 0x40210020
  dims := [(1024, 64)]
  reset := 0x00000000
  resets := []
  cores := 0x7F
  fields := [(FUR_RPT_ADDR, .ro)]

/-- Register FUR_QUAL (07). -/
def FUR_QUAL (i : Nat) : Nat := 0x40210024 + 64 * i
def FUR_QUAL_FADESYM : Fld := ⟨31, 16⟩
def FUR_QUAL_BLANKSYM : Fld := ⟨15, 0⟩

/-- Map row of FUR_QUAL. -/
def row_FUR_QUAL : RegDef where
  name := "FUR_QUAL"
  base := 0x40210024
  dims := [(1024, 64)]
  reset := 0x00000000
  resets := []
  cores := 0x7F
  fields := [(FUR_QUAL_FADESYM, .ro), (FUR_QUAL_BLANKSYM, .ro)]

/-- Register FUR_DEC (07). -/
def FUR_DEC (i : Nat) : Nat := 0x40210028 + 64 * i
def FUR_DEC_ITER : Fld := ⟨31, 16⟩
def FUR_DEC_BLOCKS : Fld := ⟨15, 8⟩
def FUR_DEC_BADBLK : Fld := ⟨7, 0⟩

/-- Map row of FUR_DEC. -/
def row_FUR_DEC : RegDef where
  name := "FUR_DEC"
  base := 0x40210028
  dims := [(1024, 64)]
  reset := 0x00000000
  resets := []
  cores := 0x7F
  fields := [(FUR_DEC_ITER, .ro), (FUR_DEC_BLOCKS, .ro), (FUR_DEC_BADBLK, .ro)]

/-! ### Block DEC at 0x40220000 -/

/-- Register DEC_CTL (08). -/
def DEC_CTL : Nat := 0x40220000
def DEC_CTL_ON : Fld := ⟨0, 0⟩

/-- Map row of DEC_CTL. -/
def row_DEC_CTL : RegDef where
  name := "DEC_CTL"
  base := 0x40220000
  dims := []
  reset := 0x00000000
  resets := []
  cores := 0x7F
  fields := [(DEC_CTL_ON, .rw)]

/-- Register DEC_CFG (08). -/
def DEC_CFG : Nat := 0x40220004
def DEC_CFG_STALL : Fld := ⟨31, 28⟩
def DEC_CFG_DS_SHARE : Fld := ⟨27, 24⟩
def DEC_CFG_ITERMAX_MC : Fld := ⟨17, 12⟩
def DEC_CFG_ITERMAX_SC : Fld := ⟨11, 6⟩
def DEC_CFG_ITERMAX_HDR : Fld := ⟨5, 0⟩

/-- Map row of DEC_CFG. -/
def row_DEC_CFG : RegDef where
  name := "DEC_CFG"
  base := 0x40220004
  dims := []
  reset := 0x0201050C
  resets := []
  cores := 0x7F
  fields := [(DEC_CFG_STALL, .rw), (DEC_CFG_DS_SHARE, .rw), (DEC_CFG_ITERMAX_MC, .rw), (DEC_CFG_ITERMAX_SC, .rw), (DEC_CFG_ITERMAX_HDR, .rw)]

/-- Register DEC_WAIT (08). -/
def DEC_WAIT : Nat := 0x40220008
def DEC_WAIT_WAITMAX : Fld := ⟨7, 0⟩

/-- Map row of DEC_WAIT. -/
def row_DEC_WAIT : RegDef where
  name := "DEC_WAIT"
  base := 0x40220008
  dims := []
  reset := 0x00000014
  resets := []
  cores := 0x7F
  fields := [(DEC_WAIT_WAITMAX, .rw)]

/-- Register DEC_STAT (08). -/
def DEC_STAT : Nat := 0x4022000C
def DEC_STAT_QUEUED : Fld := ⟨28, 16⟩
def DEC_STAT_ERR : Fld := ⟨14, 12⟩
def DEC_STAT_BUSY : Fld := ⟨9, 0⟩

/-- Map row of DEC_STAT. -/
def row_DEC_STAT : RegDef where
  name := "DEC_STAT"
  base := 0x4022000C
  dims := []
  reset := 0x00000000
  resets := []
  cores := 0x7F
  fields := [(DEC_STAT_QUEUED, .ro), (DEC_STAT_ERR, .ro), (DEC_STAT_BUSY, .ro)]

/-- Register DEC_BLK (08). -/
def DEC_BLK (i : Nat) : Nat := 0x40220040 + 4 * i
def DEC_BLK_SAT : Fld := ⟨31, 31⟩
def DEC_BLK_COUNT : Fld := ⟨30, 0⟩

/-- Map row of DEC_BLK. -/
def row_DEC_BLK : RegDef where
  name := "DEC_BLK"
  base := 0x40220040
  dims := [(10, 4)]
  reset := 0x00000000
  resets := []
  cores := 0x7F
  fields := [(DEC_BLK_SAT, .rc), (DEC_BLK_COUNT, .rc)]

/-- Register DEC_ITERS (08). -/
def DEC_ITERS : Nat := 0x40220068
def DEC_ITERS_SAT : Fld := ⟨31, 31⟩
def DEC_ITERS_COUNT : Fld := ⟨30, 0⟩

/-- Map row of DEC_ITERS. -/
def row_DEC_ITERS : RegDef where
  name := "DEC_ITERS"
  base := 0x40220068
  dims := []
  reset := 0x00000000
  resets := []
  cores := 0x7F
  fields := [(DEC_ITERS_SAT, .rc), (DEC_ITERS_COUNT, .rc)]

/-- Register DEC_NOCONV (08). -/
def DEC_NOCONV (i : Nat) : Nat := 0x40220080 + 4 * i
def DEC_NOCONV_SAT : Fld := ⟨31, 31⟩
def DEC_NOCONV_COUNT : Fld := ⟨15, 0⟩

/-- Map row of DEC_NOCONV. -/
def row_DEC_NOCONV : RegDef where
  name := "DEC_NOCONV"
  base := 0x40220080
  dims := [(18, 4)]
  reset := 0x00000000
  resets := []
  cores := 0x7F
  fields := [(DEC_NOCONV_SAT, .rc), (DEC_NOCONV_COUNT, .rc)]

/-- Register DEC_SPEC (08). -/
def DEC_SPEC : Nat := 0x402200D0
def DEC_SPEC_SAT : Fld := ⟨31, 31⟩
def DEC_SPEC_COUNT : Fld := ⟨30, 0⟩

/-- Map row of DEC_SPEC. -/
def row_DEC_SPEC : RegDef where
  name := "DEC_SPEC"
  base := 0x402200D0
  dims := []
  reset := 0x00000000
  resets := []
  cores := 0x7F
  fields := [(DEC_SPEC_SAT, .rc), (DEC_SPEC_COUNT, .rc)]

/-- Register DEC_EXPIRE (08). -/
def DEC_EXPIRE : Nat := 0x402200D4
def DEC_EXPIRE_SAT : Fld := ⟨31, 31⟩
def DEC_EXPIRE_COUNT : Fld := ⟨15, 0⟩

/-- Map row of DEC_EXPIRE. -/
def row_DEC_EXPIRE : RegDef where
  name := "DEC_EXPIRE"
  base := 0x402200D4
  dims := []
  reset := 0x00000000
  resets := []
  cores := 0x7F
  fields := [(DEC_EXPIRE_SAT, .rc), (DEC_EXPIRE_COUNT, .rc)]

/-- Register DEC_NOPWR (08). -/
def DEC_NOPWR : Nat := 0x402200D8
def DEC_NOPWR_SAT : Fld := ⟨31, 31⟩
def DEC_NOPWR_COUNT : Fld := ⟨15, 0⟩

/-- Map row of DEC_NOPWR. -/
def row_DEC_NOPWR : RegDef where
  name := "DEC_NOPWR"
  base := 0x402200D8
  dims := []
  reset := 0x00000000
  resets := []
  cores := 0x7F
  fields := [(DEC_NOPWR_SAT, .rc), (DEC_NOPWR_COUNT, .rc)]

/-- Register DEC_NOROOM (08). -/
def DEC_NOROOM : Nat := 0x402200DC
def DEC_NOROOM_SAT : Fld := ⟨31, 31⟩
def DEC_NOROOM_COUNT : Fld := ⟨15, 0⟩

/-- Map row of DEC_NOROOM. -/
def row_DEC_NOROOM : RegDef where
  name := "DEC_NOROOM"
  base := 0x402200DC
  dims := []
  reset := 0x00000000
  resets := []
  cores := 0x7F
  fields := [(DEC_NOROOM_SAT, .rc), (DEC_NOROOM_COUNT, .rc)]

/-- Register DEC_FSHEAD (08). -/
def DEC_FSHEAD : Nat := 0x402200E0
def DEC_FSHEAD_ADDR : Fld := ⟨31, 0⟩

/-- Map row of DEC_FSHEAD. -/
def row_DEC_FSHEAD : RegDef where
  name := "DEC_FSHEAD"
  base := 0x402200E0
  dims := []
  reset := 0x22D00000
  resets := []
  cores := 0x7F
  fields := [(DEC_FSHEAD_ADDR, .ro)]

/-- Register DEC_FSTAIL (08). -/
def DEC_FSTAIL : Nat := 0x402200E4
def DEC_FSTAIL_ADDR : Fld := ⟨31, 0⟩

/-- Map row of DEC_FSTAIL. -/
def row_DEC_FSTAIL : RegDef where
  name := "DEC_FSTAIL"
  base := 0x402200E4
  dims := []
  reset := 0x22D00000
  resets := []
  cores := 0x7F
  fields := [(DEC_FSTAIL_ADDR, .ro)]

/-- Register DEC_FSFREE (08). -/
def DEC_FSFREE : Nat := 0x402200E8
def DEC_FSFREE_ADDR : Fld := ⟨31, 0⟩

/-- Map row of DEC_FSFREE. -/
def row_DEC_FSFREE : RegDef where
  name := "DEC_FSFREE"
  base := 0x402200E8
  dims := []
  reset := 0x00000000
  resets := []
  cores := 0x7F
  fields := [(DEC_FSFREE_ADDR, .wo)]

/-- Register DEC_FSSTAT (08). -/
def DEC_FSSTAT : Nat := 0x402200EC
def DEC_FSSTAT_BADFREE : Fld := ⟨31, 31⟩
def DEC_FSSTAT_FREE : Fld := ⟨15, 0⟩

/-- Map row of DEC_FSSTAT. -/
def row_DEC_FSSTAT : RegDef where
  name := "DEC_FSSTAT"
  base := 0x402200EC
  dims := []
  reset := 0x0000BFFF
  resets := []
  cores := 0x7F
  fields := [(DEC_FSSTAT_BADFREE, .w1c), (DEC_FSSTAT_FREE, .ro)]

/-! ### Block UNW at 0x40230000 -/

/-- Register UNW_CTL (08). -/
def UNW_CTL : Nat := 0x40230000
def UNW_CTL_ON : Fld := ⟨0, 0⟩

/-- Map row of UNW_CTL. -/
def row_UNW_CTL : RegDef where
  name := "UNW_CTL"
  base := 0x40230000
  dims := []
  reset := 0x00000000
  resets := []
  cores := 0x7F
  fields := [(UNW_CTL_ON, .rw)]

/-- Register UNW_ABORT (08). -/
def UNW_ABORT : Nat := 0x40230004
def UNW_ABORT_SLOT : Fld := ⟨31, 0⟩

/-- Map row of UNW_ABORT. -/
def row_UNW_ABORT : RegDef where
  name := "UNW_ABORT"
  base := 0x40230004
  dims := []
  reset := 0x00000000
  resets := []
  cores := 0x7F
  fields := [(UNW_ABORT_SLOT, .wo)]

/-- Register UNW_CFG (08). -/
def UNW_CFG : Nat := 0x40230008
def UNW_CFG_MAXPAGES : Fld := ⟨28, 16⟩
def UNW_CFG_OPENFLOOR : Fld := ⟨11, 0⟩

/-- Map row of UNW_CFG. -/
def row_UNW_CFG : RegDef where
  name := "UNW_CFG"
  base := 0x40230008
  dims := []
  reset := 0x02000100
  resets := []
  cores := 0x7F
  fields := [(UNW_CFG_MAXPAGES, .rw), (UNW_CFG_OPENFLOOR, .rw)]

/-- Register UNW_REWAIT (08). -/
def UNW_REWAIT : Nat := 0x4023000C
def UNW_REWAIT_REWAIT : Fld := ⟨9, 0⟩

/-- Map row of UNW_REWAIT. -/
def row_UNW_REWAIT : RegDef where
  name := "UNW_REWAIT"
  base := 0x4023000C
  dims := []
  reset := 0x00000064
  resets := []
  cores := 0x7F
  fields := [(UNW_REWAIT_REWAIT, .rw)]

/-- Register UNW_STAT (08). -/
def UNW_STAT : Nat := 0x40230010
def UNW_STAT_ERR : Fld := ⟨17, 16⟩
def UNW_STAT_FREEPAGES : Fld := ⟨12, 0⟩

/-- Map row of UNW_STAT. -/
def row_UNW_STAT : RegDef where
  name := "UNW_STAT"
  base := 0x40230010
  dims := []
  reset := 0x00001000
  resets := []
  cores := 0x7F
  fields := [(UNW_STAT_ERR, .ro), (UNW_STAT_FREEPAGES, .ro)]

/-- Register UNW_BUSY (08). -/
def UNW_BUSY : Nat := 0x40230014
def UNW_BUSY_BUSY : Fld := ⟨31, 0⟩

/-- Map row of UNW_BUSY. -/
def row_UNW_BUSY : RegDef where
  name := "UNW_BUSY"
  base := 0x40230014
  dims := []
  reset := 0x00000000
  resets := []
  cores := 0x7F
  fields := [(UNW_BUSY_BUSY, .ro)]

/-- Register UNW_SLOT (08). -/
def UNW_SLOT (i : Nat) : Nat := 0x40230100 + 4 * i
def UNW_SLOT_STATE : Fld := ⟨31, 28⟩
def UNW_SLOT_OUTCOME : Fld := ⟨27, 24⟩
def UNW_SLOT_REC : Fld := ⟨23, 23⟩
def UNW_SLOT_CHAIN : Fld := ⟨22, 21⟩
def UNW_SLOT_CHANNEL : Fld := ⟨20, 13⟩
def UNW_SLOT_PAGES : Fld := ⟨12, 0⟩

/-- Map row of UNW_SLOT. -/
def row_UNW_SLOT : RegDef where
  name := "UNW_SLOT"
  base := 0x40230100
  dims := [(32, 4)]
  reset := 0x00000000
  resets := []
  cores := 0x7F
  fields := [(UNW_SLOT_STATE, .ro), (UNW_SLOT_OUTCOME, .ro), (UNW_SLOT_REC, .ro), (UNW_SLOT_CHAIN, .ro), (UNW_SLOT_CHANNEL, .ro), (UNW_SLOT_PAGES, .ro)]

/-- Register UNW_SLOTF (08). -/
def UNW_SLOTF (i : Nat) : Nat := 0x40230180 + 4 * i
def UNW_SLOTF_LIVEB : Fld := ⟨31, 31⟩
def UNW_SLOTF_FURA : Fld := ⟨29, 20⟩
def UNW_SLOTF_FURB : Fld := ⟨19, 10⟩
def UNW_SLOTF_FURR : Fld := ⟨9, 0⟩

/-- Map row of UNW_SLOTF. -/
def row_UNW_SLOTF : RegDef where
  name := "UNW_SLOTF"
  base := 0x40230180
  dims := [(32, 4)]
  reset := 0x00000000
  resets := []
  cores := 0x7F
  fields := [(UNW_SLOTF_LIVEB, .ro), (UNW_SLOTF_FURA, .ro), (UNW_SLOTF_FURB, .ro), (UNW_SLOTF_FURR, .ro)]

/-- Register UNW_OPEN (08). -/
def UNW_OPEN : Nat := 0x40230200
def UNW_OPEN_SAT : Fld := ⟨31, 31⟩
def UNW_OPEN_COUNT : Fld := ⟨15, 0⟩

/-- Map row of UNW_OPEN. -/
def row_UNW_OPEN : RegDef where
  name := "UNW_OPEN"
  base := 0x40230200
  dims := []
  reset := 0x00000000
  resets := []
  cores := 0x7F
  fields := [(UNW_OPEN_SAT, .rc), (UNW_OPEN_COUNT, .rc)]

/-- Register UNW_DROP (08). -/
def UNW_DROP (i : Nat) : Nat := 0x40230204 + 4 * i
def UNW_DROP_SAT : Fld := ⟨31, 31⟩
def UNW_DROP_COUNT : Fld := ⟨15, 0⟩

/-- Map row of UNW_DROP. -/
def row_UNW_DROP : RegDef where
  name := "UNW_DROP"
  base := 0x40230204
  dims := [(6, 4)]
  reset := 0x00000000
  resets := []
  cores := 0x7F
  fields := [(UNW_DROP_SAT, .rc), (UNW_DROP_COUNT, .rc)]

/-- Register UNW_OUT (08). -/
def UNW_OUT (i : Nat) : Nat := 0x40230220 + 4 * i
def UNW_OUT_SAT : Fld := ⟨31, 31⟩
def UNW_OUT_COUNT : Fld := ⟨15, 0⟩

/-- Map row of UNW_OUT. -/
def row_UNW_OUT : RegDef where
  name := "UNW_OUT"
  base := 0x40230220
  dims := [(10, 4)]
  reset := 0x00000000
  resets := []
  cores := 0x7F
  fields := [(UNW_OUT_SAT, .rc), (UNW_OUT_COUNT, .rc)]

/-! ### Block MCX at 0x40240000 -/

/-- Register MCX_CTL (07). -/
def MCX_CTL (i : Nat) : Nat := 0x40240000 + 64 * i
def MCX_CTL_THR : Fld := ⟨31, 24⟩
def MCX_CTL_MSEL : Fld := ⟨17, 16⟩
def MCX_CTL_G : Fld := ⟨15, 15⟩
def MCX_CTL_ABORT : Fld := ⟨2, 2⟩
def MCX_CTL_RELEASE : Fld := ⟨1, 1⟩
def MCX_CTL_EN : Fld := ⟨0, 0⟩

/-- Map row of MCX_CTL. -/
def row_MCX_CTL : RegDef where
  name := "MCX_CTL"
  base := 0x40240000
  dims := [(2, 64)]
  reset := 0x34000000
  resets := []
  cores := 0x7F
  fields := [(MCX_CTL_THR, .rw), (MCX_CTL_MSEL, .rw), (MCX_CTL_G, .rw), (MCX_CTL_ABORT, .wo), (MCX_CTL_RELEASE, .wo), (MCX_CTL_EN, .rw)]

/-- Register MCX_STAT (07). -/
def MCX_STAT (i : Nat) : Nat := 0x40240004 + 64 * i
def MCX_STAT_STATUS : Fld := ⟨15, 8⟩
def MCX_STAT_STATE : Fld := ⟨3, 0⟩

/-- Map row of MCX_STAT. -/
def row_MCX_STAT : RegDef where
  name := "MCX_STAT"
  base := 0x40240004
  dims := [(2, 64)]
  reset := 0x00000000
  resets := []
  cores := 0x7F
  fields := [(MCX_STAT_STATUS, .ro), (MCX_STAT_STATE, .ro)]

/-- Register MCX_LVL (07). -/
def MCX_LVL (i : Nat) : Nat := 0x40240008 + 64 * i
def MCX_LVL_RSSI : Fld := ⟨31, 16⟩
def MCX_LVL_SNR : Fld := ⟨15, 0⟩

/-- Map row of MCX_LVL. -/
def row_MCX_LVL : RegDef where
  name := "MCX_LVL"
  base := 0x40240008
  dims := [(2, 64)]
  reset := 0x00000000
  resets := []
  cores := 0x7F
  fields := [(MCX_LVL_RSSI, .ro), (MCX_LVL_SNR, .ro)]

/-- Register MCX_FOFF (07). -/
def MCX_FOFF (i : Nat) : Nat := 0x4024000C + 64 * i
def MCX_FOFF_DRIFT : Fld := ⟨31, 24⟩
def MCX_FOFF_FOFF : Fld := ⟨23, 0⟩

/-- Map row of MCX_FOFF. -/
def row_MCX_FOFF : RegDef where
  name := "MCX_FOFF"
  base := 0x4024000C
  dims := [(2, 64)]
  reset := 0x00000000
  resets := []
  cores := 0x7F
  fields := [(MCX_FOFF_DRIFT, .ro), (MCX_FOFF_FOFF, .ro)]

/-- Register MCX_TSYNC_LO (07). -/
def MCX_TSYNC_LO (i : Nat) : Nat := 0x40240010 + 64 * i
def MCX_TSYNC_LO_TSYNC : Fld := ⟨31, 0⟩

/-- Map row of MCX_TSYNC_LO. -/
def row_MCX_TSYNC_LO : RegDef where
  name := "MCX_TSYNC_LO"
  base := 0x40240010
  dims := [(2, 64)]
  reset := 0x00000000
  resets := []
  cores := 0x7F
  fields := [(MCX_TSYNC_LO_TSYNC, .ro)]

/-- Register MCX_TSYNC_HI (07). -/
def MCX_TSYNC_HI (i : Nat) : Nat := 0x40240014 + 64 * i
def MCX_TSYNC_HI_TSYNC : Fld := ⟨31, 0⟩

/-- Map row of MCX_TSYNC_HI. -/
def row_MCX_TSYNC_HI : RegDef where
  name := "MCX_TSYNC_HI"
  base := 0x40240014
  dims := [(2, 64)]
  reset := 0x00000000
  resets := []
  cores := 0x7F
  fields := [(MCX_TSYNC_HI_TSYNC, .ro)]

/-- Register MCX_RPT (07). -/
def MCX_RPT (i : Nat) : Nat := 0x40240018 + 64 * i
def MCX_RPT_ADDR : Fld := ⟨31, 0⟩

/-- Map row of MCX_RPT. -/
def row_MCX_RPT : RegDef where
  name := "MCX_RPT"
  base := 0x40240018
  dims := [(2, 64)]
  reset := 0x00000000
  resets := []
  cores := 0x7F
  fields := [(MCX_RPT_ADDR, .ro)]

/-- Register MCX_EQ (07). -/
def MCX_EQ (i : Nat) : Nat := 0x4024001C + 64 * i
def MCX_EQ_LOWBINS : Fld := ⟨31, 16⟩
def MCX_EQ_BLANKSYM : Fld := ⟨15, 0⟩

/-- Map row of MCX_EQ. -/
def row_MCX_EQ : RegDef where
  name := "MCX_EQ"
  base := 0x4024001C
  dims := [(2, 64)]
  reset := 0x00000000
  resets := []
  cores := 0x7F
  fields := [(MCX_EQ_LOWBINS, .ro), (MCX_EQ_BLANKSYM, .ro)]

/-- Register MCX_DISC (07). -/
def MCX_DISC (i : Nat) : Nat := 0x40240020 + 64 * i
def MCX_DISC_SAT : Fld := ⟨31, 31⟩
def MCX_DISC_LAST : Fld := ⟨27, 24⟩
def MCX_DISC_COUNT : Fld := ⟨15, 0⟩

/-- Map row of MCX_DISC. -/
def row_MCX_DISC : RegDef where
  name := "MCX_DISC"
  base := 0x40240020
  dims := [(2, 64)]
  reset := 0x00000000
  resets := []
  cores := 0x7F
  fields := [(MCX_DISC_SAT, .rc), (MCX_DISC_LAST, .ro), (MCX_DISC_COUNT, .rc)]

/-- Register MCX_BUSY (07). -/
def MCX_BUSY (i : Nat) : Nat := 0x40240024 + 64 * i
def MCX_BUSY_SAT : Fld := ⟨31, 31⟩
def MCX_BUSY_COUNT : Fld := ⟨15, 0⟩

/-- Map row of MCX_BUSY. -/
def row_MCX_BUSY : RegDef where
  name := "MCX_BUSY"
  base := 0x40240024
  dims := [(2, 64)]
  reset := 0x00000000
  resets := []
  cores := 0x7F
  fields := [(MCX_BUSY_SAT, .rc), (MCX_BUSY_COUNT, .rc)]

/-! ### Block LNK at 0x40300000 -/

/-- Register LNK_ADDR (09). -/
def LNK_ADDR : Nat := 0x40300000
def LNK_ADDR_MESHID : Fld := ⟨31, 16⟩
def LNK_ADDR_SHORT : Fld := ⟨15, 0⟩

/-- Map row of LNK_ADDR. -/
def row_LNK_ADDR : RegDef where
  name := "LNK_ADDR"
  base := 0x40300000
  dims := []
  reset := 0x00000000
  resets := []
  cores := 0x7F
  fields := [(LNK_ADDR_MESHID, .rw), (LNK_ADDR_SHORT, .rw)]

/-- Register LNK_CFG (09). -/
def LNK_CFG : Nat := 0x40300004
def LNK_CFG_PROMISC : Fld := ⟨0, 0⟩

/-- Map row of LNK_CFG. -/
def row_LNK_CFG : RegDef where
  name := "LNK_CFG"
  base := 0x40300004
  dims := []
  reset := 0x00000000
  resets := []
  cores := 0x7F
  fields := [(LNK_CFG_PROMISC, .rw)]

/-- Register LNK_ACKCFG (09). -/
def LNK_ACKCFG : Nat := 0x40300008
def LNK_ACKCFG_PWR_B : Fld := ⟨31, 26⟩
def LNK_ACKCFG_PWR_A : Fld := ⟨25, 20⟩
def LNK_ACKCFG_ACKEN : Fld := ⟨8, 8⟩
def LNK_ACKCFG_ACKPRE : Fld := ⟨7, 0⟩

/-- Map row of LNK_ACKCFG. -/
def row_LNK_ACKCFG : RegDef where
  name := "LNK_ACKCFG"
  base := 0x40300008
  dims := []
  reset := 0x00000008
  resets := []
  cores := 0x7F
  fields := [(LNK_ACKCFG_PWR_B, .rw), (LNK_ACKCFG_PWR_A, .rw), (LNK_ACKCFG_ACKEN, .rw), (LNK_ACKCFG_ACKPRE, .rw)]

/-- Register LNK_ACKWAIT (09). -/
def LNK_ACKWAIT : Nat := 0x4030000C
def LNK_ACKWAIT_ACKWAIT_MS : Fld := ⟨15, 0⟩

/-- Map row of LNK_ACKWAIT. -/
def row_LNK_ACKWAIT : RegDef where
  name := "LNK_ACKWAIT"
  base := 0x4030000C
  dims := []
  reset := 0x000001F4
  resets := []
  cores := 0x7F
  fields := [(LNK_ACKWAIT_ACKWAIT_MS, .rw)]

/-- Register LNK_ALIAS (09). -/
def LNK_ALIAS (i : Nat) : Nat := 0x40300010 + 4 * i
def LNK_ALIAS_EN : Fld := ⟨31, 31⟩
def LNK_ALIAS_ALIAS : Fld := ⟨15, 0⟩

/-- Map row of LNK_ALIAS. -/
def row_LNK_ALIAS : RegDef where
  name := "LNK_ALIAS"
  base := 0x40300010
  dims := [(8, 4)]
  reset := 0x00000000
  resets := []
  cores := 0x7F
  fields := [(LNK_ALIAS_EN, .rw), (LNK_ALIAS_ALIAS, .rw)]

/-- Register LNK_TA (09). -/
def LNK_TA (i : Nat) : Nat := 0x40300030 + 4 * i
def LNK_TA_TA_US : Fld := ⟨15, 0⟩

/-- Map row of LNK_TA. -/
def row_LNK_TA : RegDef where
  name := "LNK_TA"
  base := 0x40300030
  dims := [(5, 4)]
  reset := 0x00000000
  resets := [0x3e8, 0x1f4, 0x190, 0x12c, 0xfa]
  cores := 0x7F
  fields := [(LNK_TA_TA_US, .rw)]

/-- Register LNK_TAMC (09). -/
def LNK_TAMC : Nat := 0x40300044
def LNK_TAMC_TA_US : Fld := ⟨15, 0⟩

/-- Map row of LNK_TAMC. -/
def row_LNK_TAMC : RegDef where
  name := "LNK_TAMC"
  base := 0x40300044
  dims := []
  reset := 0x00000064
  resets := []
  cores := 0x7F
  fields := [(LNK_TAMC_TA_US, .rw)]

/-- Register LNK_MCLNK (09). -/
def LNK_MCLNK (i : Nat) : Nat := 0x40300048 + 4 * i
def LNK_MCLNK_EN : Fld := ⟨31, 31⟩
def LNK_MCLNK_LINKID : Fld := ⟨23, 16⟩
def LNK_MCLNK_SYNENT : Fld := ⟨15, 8⟩
def LNK_MCLNK_PWRENT : Fld := ⟨5, 0⟩

/-- Map row of LNK_MCLNK. -/
def row_LNK_MCLNK : RegDef where
  name := "LNK_MCLNK"
  base := 0x40300048
  dims := [(2, 4)]
  reset := 0x00000000
  resets := []
  cores := 0x7F
  fields := [(LNK_MCLNK_EN, .rw), (LNK_MCLNK_LINKID, .rw), (LNK_MCLNK_SYNENT, .rw), (LNK_MCLNK_PWRENT, .rw)]

/-- Register LNK_POLL (09). -/
def LNK_POLL : Nat := 0x40300050
def LNK_POLL_RSPDLY_US : Fld := ⟨31, 16⟩
def LNK_POLL_RSPPRE : Fld := ⟨15, 8⟩
def LNK_POLL_RETRYMAX : Fld := ⟨7, 4⟩
def LNK_POLL_QMAX : Fld := ⟨3, 0⟩

/-- Map row of LNK_POLL. -/
def row_LNK_POLL : RegDef where
  name := "LNK_POLL"
  base := 0x40300050
  dims := []
  reset := 0x07D01034
  resets := []
  cores := 0x7F
  fields := [(LNK_POLL_RSPDLY_US, .rw), (LNK_POLL_RSPPRE, .rw), (LNK_POLL_RETRYMAX, .rw), (LNK_POLL_QMAX, .rw)]

/-- Register LNK_GUARD (09). -/
def LNK_GUARD : Nat := 0x40300054
def LNK_GUARD_MISSMAX : Fld := ⟨31, 24⟩
def LNK_GUARD_GMAX_MS : Fld := ⟨23, 12⟩
def LNK_GUARD_GBASE_US : Fld := ⟨11, 0⟩

/-- Map row of LNK_GUARD. -/
def row_LNK_GUARD : RegDef where
  name := "LNK_GUARD"
  base := 0x40300054
  dims := []
  reset := 0x040C83E8
  resets := []
  cores := 0x7F
  fields := [(LNK_GUARD_MISSMAX, .rw), (LNK_GUARD_GMAX_MS, .rw), (LNK_GUARD_GBASE_US, .rw)]

/-- Register LNK_CCA (09). -/
def LNK_CCA : Nat := 0x40300058
def LNK_CCA_THR : Fld := ⟨31, 24⟩
def LNK_CCA_WIN : Fld := ⟨23, 18⟩
def LNK_CCA_SLOT : Fld := ⟨17, 12⟩
def LNK_CCA_BEMIN : Fld := ⟨11, 9⟩
def LNK_CCA_BEMAX : Fld := ⟨8, 6⟩
def LNK_CCA_MAXTRY : Fld := ⟨2, 0⟩

/-- Map row of LNK_CCA. -/
def row_LNK_CCA : RegDef where
  name := "LNK_CCA"
  base := 0x40300058
  dims := []
  reset := 0xAB414744
  resets := []
  cores := 0x7F
  fields := [(LNK_CCA_THR, .rw), (LNK_CCA_WIN, .rw), (LNK_CCA_SLOT, .rw), (LNK_CCA_BEMIN, .rw), (LNK_CCA_BEMAX, .rw), (LNK_CCA_MAXTRY, .rw)]

/-- Register LNK_TXSUB (09). -/
def LNK_TXSUB : Nat := 0x4030005C
def LNK_TXSUB_ADDR : Fld := ⟨31, 5⟩

/-- Map row of LNK_TXSUB. -/
def row_LNK_TXSUB : RegDef where
  name := "LNK_TXSUB"
  base := 0x4030005C
  dims := []
  reset := 0x00000000
  resets := []
  cores := 0x7F
  fields := [(LNK_TXSUB_ADDR, .wo)]

/-- Register LNK_TXDONE_TAG (09). -/
def LNK_TXDONE_TAG : Nat := 0x40300060
def LNK_TXDONE_TAG_TAG : Fld := ⟨31, 0⟩

/-- Map row of LNK_TXDONE_TAG. -/
def row_LNK_TXDONE_TAG : RegDef where
  name := "LNK_TXDONE_TAG"
  base := 0x40300060
  dims := []
  reset := 0x00000000
  resets := []
  cores := 0x7F
  fields := [(LNK_TXDONE_TAG_TAG, .ro)]

/-- Register LNK_TXDONE_ST (09). -/
def LNK_TXDONE_ST : Nat := 0x40300064
def LNK_TXDONE_ST_VALID : Fld := ⟨31, 31⟩
def LNK_TXDONE_ST_STATUS : Fld := ⟨23, 16⟩
def LNK_TXDONE_ST_CODE : Fld := ⟨15, 8⟩

/-- Map row of LNK_TXDONE_ST. -/
def row_LNK_TXDONE_ST : RegDef where
  name := "LNK_TXDONE_ST"
  base := 0x40300064
  dims := []
  reset := 0x00000000
  resets := []
  cores := 0x7F
  fields := [(LNK_TXDONE_ST_VALID, .rc), (LNK_TXDONE_ST_STATUS, .rc), (LNK_TXDONE_ST_CODE, .rc)]

/-- Register LNK_QOP (09). -/
def LNK_QOP : Nat := 0x40300068
def LNK_QOP_OP : Fld := ⟨31, 28⟩
def LNK_QOP_ENTRY : Fld := ⟨12, 0⟩

/-- Map row of LNK_QOP. -/
def row_LNK_QOP : RegDef where
  name := "LNK_QOP"
  base := 0x40300068
  dims := []
  reset := 0x00000000
  resets := []
  cores := 0x7F
  fields := [(LNK_QOP_OP, .wo), (LNK_QOP_ENTRY, .wo)]

/-- Register LNK_QARG (09). -/
def LNK_QARG : Nat := 0x4030006C
def LNK_QARG_ARG : Fld := ⟨31, 0⟩

/-- Map row of LNK_QARG. -/
def row_LNK_QARG : RegDef where
  name := "LNK_QARG"
  base := 0x4030006C
  dims := []
  reset := 0x00000000
  resets := []
  cores := 0x7F
  fields := [(LNK_QARG_ARG, .rw)]

/-- Register LNK_QRES (09). -/
def LNK_QRES : Nat := 0x40300070
def LNK_QRES_RESULT : Fld := ⟨31, 28⟩
def LNK_QRES_INDEX : Fld := ⟨9, 0⟩

/-- Map row of LNK_QRES. -/
def row_LNK_QRES : RegDef where
  name := "LNK_QRES"
  base := 0x40300070
  dims := []
  reset := 0x00000000
  resets := []
  cores := 0x7F
  fields := [(LNK_QRES_RESULT, .ro), (LNK_QRES_INDEX, .ro)]

/-- Register LNK_STAT (09). -/
def LNK_STAT : Nat := 0x40300074
def LNK_STAT_LASTREJ : Fld := ⟨31, 28⟩
def LNK_STAT_BUSY : Fld := ⟨27, 27⟩
def LNK_STAT_VQN : Fld := ⟨22, 16⟩
def LNK_STAT_QFREE : Fld := ⟨10, 0⟩

/-- Map row of LNK_STAT. -/
def row_LNK_STAT : RegDef where
  name := "LNK_STAT"
  base := 0x40300074
  dims := []
  reset := 0x00000400
  resets := []
  cores := 0x7F
  fields := [(LNK_STAT_LASTREJ, .ro), (LNK_STAT_BUSY, .w1c), (LNK_STAT_VQN, .ro), (LNK_STAT_QFREE, .ro)]

/-- Register LNK_CHTPAGE (09). -/
def LNK_CHTPAGE : Nat := 0x40300078
def LNK_CHTPAGE_PAGE : Fld := ⟨1, 0⟩

/-- Map row of LNK_CHTPAGE. -/
def row_LNK_CHTPAGE : RegDef where
  name := "LNK_CHTPAGE"
  base := 0x40300078
  dims := []
  reset := 0x00000000
  resets := []
  cores := 0x7F
  fields := [(LNK_CHTPAGE_PAGE, .rw)]

/-- Register LNK_TXFCNT (09). -/
def LNK_TXFCNT : Nat := 0x4030007C
def LNK_TXFCNT_FCNT : Fld := ⟨31, 0⟩

/-- Map row of LNK_TXFCNT. -/
def row_LNK_TXFCNT : RegDef where
  name := "LNK_TXFCNT"
  base := 0x4030007C
  dims := []
  reset := 0x00000000
  resets := []
  cores := 0x40
  fields := [(LNK_TXFCNT_FCNT, .rw)]

/-- Register LNK_VQ (09). -/
def LNK_VQ (i : Nat) : Nat := 0x40300080 + 4 * i
def LNK_VQ_WORD : Fld := ⟨31, 0⟩

/-- Map row of LNK_VQ. -/
def row_LNK_VQ : RegDef where
  name := "LNK_VQ"
  base := 0x40300080
  dims := [(4, 4)]
  reset := 0x00000000
  resets := [0xff000000, 0x0, 0x0, 0x0]
  cores := 0x7F
  fields := [(LNK_VQ_WORD, .ro)]

/-- Register LNK_CNT (09). -/
def LNK_CNT (i : Nat) : Nat := 0x40300100 + 4 * i
def LNK_CNT_SAT : Fld := ⟨31, 31⟩
def LNK_CNT_COUNT : Fld := ⟨15, 0⟩

/-- Map row of LNK_CNT. -/
def row_LNK_CNT : RegDef where
  name := "LNK_CNT"
  base := 0x40300100
  dims := [(17, 4)]
  reset := 0x00000000
  resets := []
  cores := 0x7F
  fields := [(LNK_CNT_SAT, .rc), (LNK_CNT_COUNT, .rc)]

/-! ### Block FLD at 0x40320000 -/

/-- Register FLD_CFG (10). -/
def FLD_CFG : Nat := 0x40320000
def FLD_CFG_SUPK : Fld := ⟨31, 28⟩
def FLD_CFG_MICLEN : Fld := ⟨25, 24⟩
def FLD_CFG_LIFE_S : Fld := ⟨23, 16⟩
def FLD_CFG_BACKSTEP : Fld := ⟨3, 3⟩
def FLD_CFG_BEACON : Fld := ⟨2, 2⟩
def FLD_CFG_TIMEROOT : Fld := ⟨1, 1⟩
def FLD_CFG_RELAY : Fld := ⟨0, 0⟩

/-- Map row of FLD_CFG. -/
def row_FLD_CFG : RegDef where
  name := "FLD_CFG"
  base := 0x40320000
  dims := []
  reset := 0x215A0000
  resets := []
  cores := 0x7F
  fields := [(FLD_CFG_SUPK, .rw), (FLD_CFG_MICLEN, .rw), (FLD_CFG_LIFE_S, .rw), (FLD_CFG_BACKSTEP, .rw), (FLD_CFG_BEACON, .rw), (FLD_CFG_TIMEROOT, .rw), (FLD_CFG_RELAY, .rw)]

/-- Register FLD_DELAY (10). -/
def FLD_DELAY : Nat := 0x40320004
def FLD_DELAY_DSPAN_MS : Fld := ⟨31, 16⟩
def FLD_DELAY_DMIN_MS : Fld := ⟨15, 0⟩

/-- Map row of FLD_DELAY. -/
def row_FLD_DELAY : RegDef where
  name := "FLD_DELAY"
  base := 0x40320004
  dims := []
  reset := 0x00C80014
  resets := []
  cores := 0x7F
  fields := [(FLD_DELAY_DSPAN_MS, .rw), (FLD_DELAY_DMIN_MS, .rw)]

/-- Register FLD_RTPL (10). -/
def FLD_RTPL : Nat := 0x40320008
def FLD_RTPL_ADDR : Fld := ⟨31, 5⟩

/-- Map row of FLD_RTPL. -/
def row_FLD_RTPL : RegDef where
  name := "FLD_RTPL"
  base := 0x40320008
  dims := []
  reset := 0x00000000
  resets := []
  cores := 0x7F
  fields := [(FLD_RTPL_ADDR, .rw)]

/-- Register FLD_BTPL (10). -/
def FLD_BTPL : Nat := 0x4032000C
def FLD_BTPL_ADDR : Fld := ⟨31, 5⟩

/-- Map row of FLD_BTPL. -/
def row_FLD_BTPL : RegDef where
  name := "FLD_BTPL"
  base := 0x4032000C
  dims := []
  reset := 0x00000000
  resets := []
  cores := 0x7F
  fields := [(FLD_BTPL_ADDR, .rw)]

/-- Register FLD_BCN (10). -/
def FLD_BCN : Nat := 0x40320010
def FLD_BCN_BCNINT_MS : Fld := ⟨31, 16⟩
def FLD_BCN_BCNOFS_MS : Fld := ⟨15, 0⟩

/-- Map row of FLD_BCN. -/
def row_FLD_BCN : RegDef where
  name := "FLD_BCN"
  base := 0x40320010
  dims := []
  reset := 0x27100000
  resets := []
  cores := 0x7F
  fields := [(FLD_BCN_BCNINT_MS, .rw), (FLD_BCN_BCNOFS_MS, .rw)]

/-- Register FLD_TIME (10). -/
def FLD_TIME : Nat := 0x40320014
def FLD_TIME_AGEMAX_S : Fld := ⟨31, 24⟩
def FLD_TIME_STEPTHR_US : Fld := ⟨23, 12⟩

/-- Map row of FLD_TIME. -/
def row_FLD_TIME : RegDef where
  name := "FLD_TIME"
  base := 0x40320014
  dims := []
  reset := 0x1E3E8000
  resets := []
  cores := 0x7F
  fields := [(FLD_TIME_AGEMAX_S, .rw), (FLD_TIME_STEPTHR_US, .rw)]

/-- Register FLD_STAT (10). -/
def FLD_STAT : Nat := 0x40320018
def FLD_STAT_SYNCED : Fld := ⟨31, 31⟩
def FLD_STAT_ACQ : Fld := ⟨30, 30⟩
def FLD_STAT_DEPTH : Fld := ⟨29, 24⟩
def FLD_STAT_ACC : Fld := ⟨23, 16⟩
def FLD_STAT_AGE_S : Fld := ⟨15, 0⟩

/-- Map row of FLD_STAT. -/
def row_FLD_STAT : RegDef where
  name := "FLD_STAT"
  base := 0x40320018
  dims := []
  reset := 0x7FFFFFFF
  resets := []
  cores := 0x7F
  fields := [(FLD_STAT_SYNCED, .ro), (FLD_STAT_ACQ, .ro), (FLD_STAT_DEPTH, .ro), (FLD_STAT_ACC, .ro), (FLD_STAT_AGE_S, .ro)]

/-- Register FLD_CACHE (10). -/
def FLD_CACHE : Nat := 0x4032001C
def FLD_CACHE_RELAYS : Fld := ⟨28, 24⟩
def FLD_CACHE_USED : Fld := ⟨12, 0⟩

/-- Map row of FLD_CACHE. -/
def row_FLD_CACHE : RegDef where
  name := "FLD_CACHE"
  base := 0x4032001C
  dims := []
  reset := 0x00000000
  resets := []
  cores := 0x7F
  fields := [(FLD_CACHE_RELAYS, .ro), (FLD_CACHE_USED, .ro)]

/-- Register FLD_MESH_LO (10). -/
def FLD_MESH_LO : Nat := 0x40320020
def FLD_MESH_LO_TIME : Fld := ⟨31, 0⟩

/-- Map row of FLD_MESH_LO. -/
def row_FLD_MESH_LO : RegDef where
  name := "FLD_MESH_LO"
  base := 0x40320020
  dims := []
  reset := 0x00000000
  resets := []
  cores := 0x7F
  fields := [(FLD_MESH_LO_TIME, .ro)]

/-- Register FLD_MESH_HI (10). -/
def FLD_MESH_HI : Nat := 0x40320024
def FLD_MESH_HI_TIME : Fld := ⟨31, 0⟩

/-- Map row of FLD_MESH_HI. -/
def row_FLD_MESH_HI : RegDef where
  name := "FLD_MESH_HI"
  base := 0x40320024
  dims := []
  reset := 0x00000000
  resets := []
  cores := 0x7F
  fields := [(FLD_MESH_HI_TIME, .ro)]

/-- Register FLD_SET_LO (10). -/
def FLD_SET_LO : Nat := 0x40320028
def FLD_SET_LO_TIME : Fld := ⟨31, 0⟩

/-- Map row of FLD_SET_LO. -/
def row_FLD_SET_LO : RegDef where
  name := "FLD_SET_LO"
  base := 0x40320028
  dims := []
  reset := 0x00000000
  resets := []
  cores := 0x7F
  fields := [(FLD_SET_LO_TIME, .rw)]

/-- Register FLD_SET_HI (10). -/
def FLD_SET_HI : Nat := 0x4032002C
def FLD_SET_HI_TIME : Fld := ⟨31, 0⟩

/-- Map row of FLD_SET_HI. -/
def row_FLD_SET_HI : RegDef where
  name := "FLD_SET_HI"
  base := 0x4032002C
  dims := []
  reset := 0x00000000
  resets := []
  cores := 0x7F
  fields := [(FLD_SET_HI_TIME, .rw)]

/-- Register FLD_CMD (10). -/
def FLD_CMD : Nat := 0x40320030
def FLD_CMD_KEY : Fld := ⟨31, 24⟩
def FLD_CMD_SET : Fld := ⟨0, 0⟩

/-- Map row of FLD_CMD. -/
def row_FLD_CMD : RegDef where
  name := "FLD_CMD"
  base := 0x40320030
  dims := []
  reset := 0x00000000
  resets := []
  cores := 0x71
  fields := [(FLD_CMD_KEY, .wo), (FLD_CMD_SET, .wo)]

/-- Register FLD_OFFS (10). -/
def FLD_OFFS : Nat := 0x40320034
def FLD_OFFS_THETA : Fld := ⟨31, 0⟩

/-- Map row of FLD_OFFS. -/
def row_FLD_OFFS : RegDef where
  name := "FLD_OFFS"
  base := 0x40320034
  dims := []
  reset := 0x00000000
  resets := []
  cores := 0x7F
  fields := [(FLD_OFFS_THETA, .ro)]

/-- Register FLD_TRIM (10). -/
def FLD_TRIM : Nat := 0x40320038
def FLD_TRIM_TRIM : Fld := ⟨31, 0⟩

/-- Map row of FLD_TRIM. -/
def row_FLD_TRIM : RegDef where
  name := "FLD_TRIM"
  base := 0x40320038
  dims := []
  reset := 0x00000000
  resets := []
  cores := 0x7F
  fields := [(FLD_TRIM_TRIM, .ro)]

/-- Register FLD_MSEQ (10). -/
def FLD_MSEQ : Nat := 0x4032003C
def FLD_MSEQ_MSEQ : Fld := ⟨23, 0⟩

/-- Map row of FLD_MSEQ. -/
def row_FLD_MSEQ : RegDef where
  name := "FLD_MSEQ"
  base := 0x4032003C
  dims := []
  reset := 0x00000000
  resets := []
  cores := 0x7F
  fields := [(FLD_MSEQ_MSEQ, .rw)]

/-- Register FLD_ORIG (10). -/
def FLD_ORIG : Nat := 0x40320040
def FLD_ORIG_ADDR : Fld := ⟨31, 5⟩

/-- Map row of FLD_ORIG. -/
def row_FLD_ORIG : RegDef where
  name := "FLD_ORIG"
  base := 0x40320040
  dims := []
  reset := 0x00000000
  resets := []
  cores := 0x7F
  fields := [(FLD_ORIG_ADDR, .wo)]

/-- Register FLD_ALARMCTL (10). -/
def FLD_ALARMCTL : Nat := 0x40320044
def FLD_ALARMCTL_FIRED : Fld := ⟨11, 8⟩
def FLD_ALARMCTL_ARM : Fld := ⟨3, 0⟩

/-- Map row of FLD_ALARMCTL. -/
def row_FLD_ALARMCTL : RegDef where
  name := "FLD_ALARMCTL"
  base := 0x40320044
  dims := []
  reset := 0x00000000
  resets := []
  cores := 0x7F
  fields := [(FLD_ALARMCTL_FIRED, .w1c), (FLD_ALARMCTL_ARM, .w1s)]

/-- Register FLD_ALARM_LO (10). -/
def FLD_ALARM_LO (i : Nat) : Nat := 0x40320048 + 8 * i
def FLD_ALARM_LO_TIME : Fld := ⟨31, 0⟩

/-- Map row of FLD_ALARM_LO. -/
def row_FLD_ALARM_LO : RegDef where
  name := "FLD_ALARM_LO"
  base := 0x40320048
  dims := [(4, 8)]
  reset := 0x00000000
  resets := []
  cores := 0x7F
  fields := [(FLD_ALARM_LO_TIME, .rw)]

/-- Register FLD_ALARM_HI (10). -/
def FLD_ALARM_HI (i : Nat) : Nat := 0x4032004C + 8 * i
def FLD_ALARM_HI_TIME : Fld := ⟨31, 0⟩

/-- Map row of FLD_ALARM_HI. -/
def row_FLD_ALARM_HI : RegDef where
  name := "FLD_ALARM_HI"
  base := 0x4032004C
  dims := [(4, 8)]
  reset := 0x00000000
  resets := []
  cores := 0x7F
  fields := [(FLD_ALARM_HI_TIME, .rw)]

/-- Register FLD_EVQ (10). -/
def FLD_EVQ (i : Nat) : Nat := 0x40320080 + 4 * i
def FLD_EVQ_WORD : Fld := ⟨31, 0⟩

/-- Map row of FLD_EVQ. -/
def row_FLD_EVQ : RegDef where
  name := "FLD_EVQ"
  base := 0x40320080
  dims := [(4, 4)]
  reset := 0x00000000
  resets := [0xff000000, 0x0, 0x0, 0x0]
  cores := 0x7F
  fields := [(FLD_EVQ_WORD, .ro)]

/-- Register FLD_CNT (10). -/
def FLD_CNT (i : Nat) : Nat := 0x40320100 + 4 * i
def FLD_CNT_SAT : Fld := ⟨31, 31⟩
def FLD_CNT_COUNT : Fld := ⟨15, 0⟩

/-- Map row of FLD_CNT. -/
def row_FLD_CNT : RegDef where
  name := "FLD_CNT"
  base := 0x40320100
  dims := [(16, 4)]
  reset := 0x00000000
  resets := []
  cores := 0x7F
  fields := [(FLD_CNT_SAT, .rc), (FLD_CNT_COUNT, .rc)]

/-! ### Block KEY at 0x40410000 -/

/-- Register KEY_CMD (11). -/
def KEY_CMD : Nat := 0x40410000
def KEY_CMD_KEY : Fld := ⟨31, 24⟩
def KEY_CMD_SLOT : Fld := ⟨23, 16⟩
def KEY_CMD_OP : Fld := ⟨3, 0⟩

/-- Map row of KEY_CMD. -/
def row_KEY_CMD : RegDef where
  name := "KEY_CMD"
  base := 0x40410000
  dims := []
  reset := 0x00000000
  resets := []
  cores := 0x40
  fields := [(KEY_CMD_KEY, .wo), (KEY_CMD_SLOT, .wo), (KEY_CMD_OP, .wo)]

/-- Register KEY_ARG0 (11). -/
def KEY_ARG0 : Nat := 0x40410004
def KEY_ARG0_ARG : Fld := ⟨31, 0⟩

/-- Map row of KEY_ARG0. -/
def row_KEY_ARG0 : RegDef where
  name := "KEY_ARG0"
  base := 0x40410004
  dims := []
  reset := 0x00000000
  resets := []
  cores := 0x7F
  fields := [(KEY_ARG0_ARG, .rw)]

/-- Register KEY_ARG1 (11). -/
def KEY_ARG1 : Nat := 0x40410008
def KEY_ARG1_ARG : Fld := ⟨31, 0⟩

/-- Map row of KEY_ARG1. -/
def row_KEY_ARG1 : RegDef where
  name := "KEY_ARG1"
  base := 0x40410008
  dims := []
  reset := 0x00000000
  resets := []
  cores := 0x7F
  fields := [(KEY_ARG1_ARG, .rw)]

/-- Register KEY_RES (11). -/
def KEY_RES : Nat := 0x4041000C
def KEY_RES_BUSY : Fld := ⟨31, 31⟩
def KEY_RES_RESULT : Fld := ⟨23, 16⟩
def KEY_RES_OP : Fld := ⟨3, 0⟩

/-- Map row of KEY_RES. -/
def row_KEY_RES : RegDef where
  name := "KEY_RES"
  base := 0x4041000C
  dims := []
  reset := 0x00000000
  resets := []
  cores := 0x7F
  fields := [(KEY_RES_BUSY, .ro), (KEY_RES_RESULT, .ro), (KEY_RES_OP, .ro)]

/-- Register KEY_STAT (11). -/
def KEY_STAT : Nat := 0x40410010
def KEY_STAT_RNGFAIL : Fld := ⟨31, 31⟩
def KEY_STAT_EXHAUST : Fld := ⟨30, 30⟩
def KEY_STAT_RAISEF : Fld := ⟨29, 29⟩
def KEY_STAT_REVOKED : Fld := ⟨11, 8⟩
def KEY_STAT_UIDBAD : Fld := ⟨5, 5⟩
def KEY_STAT_ROOT1BAD : Fld := ⟨4, 4⟩
def KEY_STAT_ROOT0BAD : Fld := ⟨3, 3⟩
def KEY_STAT_TXLOW : Fld := ⟨2, 2⟩
def KEY_STAT_TXCEIL : Fld := ⟨1, 1⟩

/-- Map row of KEY_STAT. -/
def row_KEY_STAT : RegDef where
  name := "KEY_STAT"
  base := 0x40410010
  dims := []
  reset := 0x00000000
  resets := []
  cores := 0x7F
  fields := [(KEY_STAT_RNGFAIL, .w1c), (KEY_STAT_EXHAUST, .w1c), (KEY_STAT_RAISEF, .w1c), (KEY_STAT_REVOKED, .ro), (KEY_STAT_UIDBAD, .ro), (KEY_STAT_ROOT1BAD, .ro), (KEY_STAT_ROOT0BAD, .ro), (KEY_STAT_TXLOW, .ro), (KEY_STAT_TXCEIL, .ro)]

/-- Register KEY_FCNTCEIL (11). -/
def KEY_FCNTCEIL : Nat := 0x40410014
def KEY_FCNTCEIL_CEIL : Fld := ⟨31, 0⟩

/-- Map row of KEY_FCNTCEIL. -/
def row_KEY_FCNTCEIL : RegDef where
  name := "KEY_FCNTCEIL"
  base := 0x40410014
  dims := []
  reset := 0x00000000
  resets := []
  cores := 0x7F
  fields := [(KEY_FCNTCEIL_CEIL, .ro)]

/-- Register KEY_RAND (11). -/
def KEY_RAND : Nat := 0x40410018
def KEY_RAND_RAND : Fld := ⟨31, 0⟩

/-- Map row of KEY_RAND. -/
def row_KEY_RAND : RegDef where
  name := "KEY_RAND"
  base := 0x40410018
  dims := []
  reset := 0x00000000
  resets := []
  cores := 0x7F
  fields := [(KEY_RAND_RAND, .rc)]

/-- Register KEY_UID_LO (11). -/
def KEY_UID_LO : Nat := 0x4041001C
def KEY_UID_LO_UID : Fld := ⟨31, 0⟩

/-- Map row of KEY_UID_LO. -/
def row_KEY_UID_LO : RegDef where
  name := "KEY_UID_LO"
  base := 0x4041001C
  dims := []
  reset := 0x00000000
  resets := []
  cores := 0x7F
  fields := [(KEY_UID_LO_UID, .ro)]

/-- Register KEY_UID_HI (11). -/
def KEY_UID_HI : Nat := 0x40410020
def KEY_UID_HI_UID : Fld := ⟨31, 0⟩

/-- Map row of KEY_UID_HI. -/
def row_KEY_UID_HI : RegDef where
  name := "KEY_UID_HI"
  base := 0x40410020
  dims := []
  reset := 0x00000000
  resets := []
  cores := 0x7F
  fields := [(KEY_UID_HI_UID, .ro)]

/-- Register KEY_CNT (11). -/
def KEY_CNT (i : Nat) : Nat := 0x40410040 + 4 * i
def KEY_CNT_SAT : Fld := ⟨31, 31⟩
def KEY_CNT_COUNT : Fld := ⟨15, 0⟩

/-- Map row of KEY_CNT. -/
def row_KEY_CNT : RegDef where
  name := "KEY_CNT"
  base := 0x40410040
  dims := [(6, 4)]
  reset := 0x00000000
  resets := []
  cores := 0x7F
  fields := [(KEY_CNT_SAT, .rc), (KEY_CNT_COUNT, .rc)]

/-- Register KEY_CTR (11). -/
def KEY_CTR (i : Nat) : Nat := 0x40410100 + 4 * i
def KEY_CTR_VALUE : Fld := ⟨31, 0⟩

/-- Map row of KEY_CTR. -/
def row_KEY_CTR : RegDef where
  name := "KEY_CTR"
  base := 0x40410100
  dims := [(64, 4)]
  reset := 0x00000000
  resets := []
  cores := 0x7F
  fields := [(KEY_CTR_VALUE, .ro)]

/-- Register KEY_SST (11). -/
def KEY_SST (i : Nat) : Nat := 0x40411000 + 32 * i
def KEY_SST_STATE : Fld := ⟨31, 29⟩
def KEY_SST_KTYPE : Fld := ⟨28, 27⟩
def KEY_SST_ATCEIL : Fld := ⟨26, 26⟩
def KEY_SST_KEYID : Fld := ⟨23, 16⟩
def KEY_SST_USE : Fld := ⟨15, 0⟩

/-- Map row of KEY_SST. -/
def row_KEY_SST : RegDef where
  name := "KEY_SST"
  base := 0x40411000
  dims := [(256, 32)]
  reset := 0x00000000
  resets := []
  cores := 0x7F
  fields := [(KEY_SST_STATE, .ro), (KEY_SST_KTYPE, .ro), (KEY_SST_ATCEIL, .ro), (KEY_SST_KEYID, .ro), (KEY_SST_USE, .ro)]

/-- Register KEY_SATR (11). -/
def KEY_SATR (i : Nat) : Nat := 0x40411004 + 32 * i
def KEY_SATR_CORES : Fld := ⟨31, 24⟩
def KEY_SATR_KNAME : Fld := ⟨23, 16⟩
def KEY_SATR_UCTR : Fld := ⟨15, 8⟩

/-- Map row of KEY_SATR. -/
def row_KEY_SATR : RegDef where
  name := "KEY_SATR"
  base := 0x40411004
  dims := [(256, 32)]
  reset := 0x00000000
  resets := []
  cores := 0x7F
  fields := [(KEY_SATR_CORES, .ro), (KEY_SATR_KNAME, .ro), (KEY_SATR_UCTR, .ro)]

/-- Register KEY_USED (11). -/
def KEY_USED (i : Nat) : Nat := 0x40411008 + 32 * i
def KEY_USED_VALUE : Fld := ⟨31, 0⟩

/-- Map row of KEY_USED. -/
def row_KEY_USED : RegDef where
  name := "KEY_USED"
  base := 0x40411008
  dims := [(256, 32)]
  reset := 0x00000000
  resets := []
  cores := 0x7F
  fields := [(KEY_USED_VALUE, .ro)]

/-- Register KEY_LIMIT (11). -/
def KEY_LIMIT (i : Nat) : Nat := 0x4041100C + 32 * i
def KEY_LIMIT_VALUE : Fld := ⟨31, 0⟩

/-- Map row of KEY_LIMIT. -/
def row_KEY_LIMIT : RegDef where
  name := "KEY_LIMIT"
  base := 0x4041100C
  dims := [(256, 32)]
  reset := 0x00000000
  resets := []
  cores := 0x7F
  fields := [(KEY_LIMIT_VALUE, .ro)]

/-- Register KEY_CEIL (11). -/
def KEY_CEIL (i : Nat) : Nat := 0x40411010 + 32 * i
def KEY_CEIL_VALUE : Fld := ⟨31, 0⟩

/-- Map row of KEY_CEIL. -/
def row_KEY_CEIL : RegDef where
  name := "KEY_CEIL"
  base := 0x40411010
  dims := [(256, 32)]
  reset := 0x00000000
  resets := []
  cores := 0x7F
  fields := [(KEY_CEIL_VALUE, .ro)]

/-- Register KEY_GEN (11). -/
def KEY_GEN (i : Nat) : Nat := 0x40411014 + 32 * i
def KEY_GEN_VALUE : Fld := ⟨31, 0⟩

/-- Map row of KEY_GEN. -/
def row_KEY_GEN : RegDef where
  name := "KEY_GEN"
  base := 0x40411014
  dims := [(256, 32)]
  reset := 0x00000000
  resets := []
  cores := 0x7F
  fields := [(KEY_GEN_VALUE, .ro)]

/-! ### Block AES at 0x40400000 -/

/-- Register AES_SUB (11). -/
def AES_SUB : Nat := 0x40400000
def AES_SUB_ADDR : Fld := ⟨31, 5⟩

/-- Map row of AES_SUB. -/
def row_AES_SUB : RegDef where
  name := "AES_SUB"
  base := 0x40400000
  dims := []
  reset := 0x00000000
  resets := []
  cores := 0x7F
  fields := [(AES_SUB_ADDR, .wo)]

/-- Register AES_STAT (11). -/
def AES_STAT : Nat := 0x40400004
def AES_STAT_OUT : Fld := ⟨23, 20⟩
def AES_STAT_BUSY : Fld := ⟨1, 0⟩

/-- Map row of AES_STAT. -/
def row_AES_STAT : RegDef where
  name := "AES_STAT"
  base := 0x40400004
  dims := []
  reset := 0x00000000
  resets := []
  cores := 0x7F
  fields := [(AES_STAT_OUT, .ro), (AES_STAT_BUSY, .ro)]

/-- Register AES_CNT (11). -/
def AES_CNT (i : Nat) : Nat := 0x40400010 + 4 * i
def AES_CNT_SAT : Fld := ⟨31, 31⟩
def AES_CNT_COUNT : Fld := ⟨15, 0⟩

/-- Map row of AES_CNT. -/
def row_AES_CNT : RegDef where
  name := "AES_CNT"
  base := 0x40400010
  dims := [(4, 4)]
  reset := 0x00000000
  resets := []
  cores := 0x7F
  fields := [(AES_CNT_SAT, .rc), (AES_CNT_COUNT, .rc)]

/-! ### Block SHA at 0x40420000 -/

/-- Register SHA_CMD (11). -/
def SHA_CMD (i : Nat) : Nat := 0x40420000 + 64 * i
def SHA_CMD_OP : Fld := ⟨1, 0⟩

/-- Map row of SHA_CMD. -/
def row_SHA_CMD : RegDef where
  name := "SHA_CMD"
  base := 0x40420000
  dims := [(4, 64)]
  reset := 0x00000000
  resets := []
  cores := 0x7F
  fields := [(SHA_CMD_OP, .wo)]

/-- Register SHA_ADDR (11). -/
def SHA_ADDR (i : Nat) : Nat := 0x40420004 + 64 * i
def SHA_ADDR_ADDR : Fld := ⟨31, 0⟩

/-- Map row of SHA_ADDR. -/
def row_SHA_ADDR : RegDef where
  name := "SHA_ADDR"
  base := 0x40420004
  dims := [(4, 64)]
  reset := 0x00000000
  resets := []
  cores := 0x7F
  fields := [(SHA_ADDR_ADDR, .rw)]

/-- Register SHA_LEN (11). -/
def SHA_LEN (i : Nat) : Nat := 0x40420008 + 64 * i
def SHA_LEN_LEN : Fld := ⟨23, 0⟩

/-- Map row of SHA_LEN. -/
def row_SHA_LEN : RegDef where
  name := "SHA_LEN"
  base := 0x40420008
  dims := [(4, 64)]
  reset := 0x00000000
  resets := []
  cores := 0x7F
  fields := [(SHA_LEN_LEN, .rw)]

/-- Register SHA_STAT (11). -/
def SHA_STAT (i : Nat) : Nat := 0x4042000C + 64 * i
def SHA_STAT_BUSY : Fld := ⟨31, 31⟩
def SHA_STAT_DONE : Fld := ⟨30, 30⟩
def SHA_STAT_OWNER : Fld := ⟨29, 27⟩
def SHA_STAT_ERR : Fld := ⟨23, 16⟩

/-- Map row of SHA_STAT. -/
def row_SHA_STAT : RegDef where
  name := "SHA_STAT"
  base := 0x4042000C
  dims := [(4, 64)]
  reset := 0x38000000
  resets := []
  cores := 0x7F
  fields := [(SHA_STAT_BUSY, .ro), (SHA_STAT_DONE, .w1c), (SHA_STAT_OWNER, .ro), (SHA_STAT_ERR, .ro)]

/-- Register SHA_DIG (11). -/
def SHA_DIG (i : Nat) (j : Nat) : Nat := 0x40420020 + 64 * i + 4 * j
def SHA_DIG_H : Fld := ⟨31, 0⟩

/-- Map row of SHA_DIG. -/
def row_SHA_DIG : RegDef where
  name := "SHA_DIG"
  base := 0x40420020
  dims := [(4, 64), (8, 4)]
  reset := 0x00000000
  resets := []
  cores := 0x7F
  fields := [(SHA_DIG_H, .ro)]

/-! ### Block LGR at 0x40430000 -/

/-- Register LGR_ORIGIN (12). -/
def LGR_ORIGIN : Nat := 0x40430000
def LGR_ORIGIN_LOCK : Fld := ⟨31, 31⟩
def LGR_ORIGIN_ORIGIN : Fld := ⟨19, 0⟩

/-- Map row of LGR_ORIGIN. -/
def row_LGR_ORIGIN : RegDef where
  name := "LGR_ORIGIN"
  base := 0x40430000
  dims := []
  reset := 0x00000000
  resets := []
  cores := 0x40
  fields := [(LGR_ORIGIN_LOCK, .w1s), (LGR_ORIGIN_ORIGIN, .rwl)]

/-- Register LGR_KEYS (12). -/
def LGR_KEYS : Nat := 0x40430004
def LGR_KEYS_VSLOT1 : Fld := ⟨31, 24⟩
def LGR_KEYS_VSLOT0 : Fld := ⟨23, 16⟩
def LGR_KEYS_SEAL : Fld := ⟨7, 0⟩

/-- Map row of LGR_KEYS. -/
def row_LGR_KEYS : RegDef where
  name := "LGR_KEYS"
  base := 0x40430004
  dims := []
  reset := 0xFFFF00FF
  resets := []
  cores := 0x40
  fields := [(LGR_KEYS_VSLOT1, .rw), (LGR_KEYS_VSLOT0, .rw), (LGR_KEYS_SEAL, .rw)]

/-- Register LGR_APPEND (12). -/
def LGR_APPEND : Nat := 0x40430008
def LGR_APPEND_ADDR : Fld := ⟨31, 4⟩

/-- Map row of LGR_APPEND. -/
def row_LGR_APPEND : RegDef where
  name := "LGR_APPEND"
  base := 0x40430008
  dims := []
  reset := 0x00000000
  resets := []
  cores := 0x7F
  fields := [(LGR_APPEND_ADDR, .wo)]

/-- Register LGR_VERIFY (12). -/
def LGR_VERIFY : Nat := 0x4043000C
def LGR_VERIFY_ADDR : Fld := ⟨31, 4⟩

/-- Map row of LGR_VERIFY. -/
def row_LGR_VERIFY : RegDef where
  name := "LGR_VERIFY"
  base := 0x4043000C
  dims := []
  reset := 0x00000000
  resets := []
  cores := 0x7F
  fields := [(LGR_VERIFY_ADDR, .wo)]

/-- Register LGR_ARCH (12). -/
def LGR_ARCH : Nat := 0x40430010
def LGR_ARCH_ARCHIVED : Fld := ⟨31, 0⟩

/-- Map row of LGR_ARCH. -/
def row_LGR_ARCH : RegDef where
  name := "LGR_ARCH"
  base := 0x40430010
  dims := []
  reset := 0x00000000
  resets := []
  cores := 0x7F
  fields := [(LGR_ARCH_ARCHIVED, .rw)]

/-- Register LGR_HEAD (12). -/
def LGR_HEAD : Nat := 0x40430014
def LGR_HEAD_HEAD : Fld := ⟨31, 0⟩

/-- Map row of LGR_HEAD. -/
def row_LGR_HEAD : RegDef where
  name := "LGR_HEAD"
  base := 0x40430014
  dims := []
  reset := 0x00000000
  resets := []
  cores := 0x7F
  fields := [(LGR_HEAD_HEAD, .ro)]

/-- Register LGR_HSEQ (12). -/
def LGR_HSEQ : Nat := 0x40430018
def LGR_HSEQ_HSEQ : Fld := ⟨31, 0⟩

/-- Map row of LGR_HSEQ. -/
def row_LGR_HSEQ : RegDef where
  name := "LGR_HSEQ"
  base := 0x40430018
  dims := []
  reset := 0x00000000
  resets := []
  cores := 0x7F
  fields := [(LGR_HSEQ_HSEQ, .ro)]

/-- Register LGR_STAT (12). -/
def LGR_STAT : Nat := 0x4043001C
def LGR_STAT_FULLF : Fld := ⟨31, 31⟩
def LGR_STAT_BADARCH : Fld := ⟨30, 30⟩
def LGR_STAT_ENDED : Fld := ⟨29, 29⟩
def LGR_STAT_QLEN : Fld := ⟨20, 16⟩
def LGR_STAT_STATE : Fld := ⟨15, 12⟩
def LGR_STAT_FREESECT : Fld := ⟨11, 0⟩

/-- Map row of LGR_STAT. -/
def row_LGR_STAT : RegDef where
  name := "LGR_STAT"
  base := 0x4043001C
  dims := []
  reset := 0x000017F8
  resets := []
  cores := 0x7F
  fields := [(LGR_STAT_FULLF, .w1c), (LGR_STAT_BADARCH, .w1c), (LGR_STAT_ENDED, .ro), (LGR_STAT_QLEN, .ro), (LGR_STAT_STATE, .ro), (LGR_STAT_FREESECT, .ro)]

/-- Register LGR_LOW (12). -/
def LGR_LOW : Nat := 0x40430020
def LGR_LOW_LOWMARK : Fld := ⟨11, 0⟩

/-- Map row of LGR_LOW. -/
def row_LGR_LOW : RegDef where
  name := "LGR_LOW"
  base := 0x40430020
  dims := []
  reset := 0x00000040
  resets := []
  cores := 0x7F
  fields := [(LGR_LOW_LOWMARK, .rw)]

/-- Register LGR_LOOK_LO (12). -/
def LGR_LOOK_LO : Nat := 0x40430024
def LGR_LOOK_LO_OFFSET : Fld := ⟨31, 0⟩

/-- Map row of LGR_LOOK_LO. -/
def row_LGR_LOOK_LO : RegDef where
  name := "LGR_LOOK_LO"
  base := 0x40430024
  dims := []
  reset := 0x00000000
  resets := []
  cores := 0x7F
  fields := [(LGR_LOOK_LO_OFFSET, .rw)]

/-- Register LGR_LOOK_HI (12). -/
def LGR_LOOK_HI : Nat := 0x40430028
def LGR_LOOK_HI_ORIGIN : Fld := ⟨19, 0⟩

/-- Map row of LGR_LOOK_HI. -/
def row_LGR_LOOK_HI : RegDef where
  name := "LGR_LOOK_HI"
  base := 0x40430028
  dims := []
  reset := 0x00000000
  resets := []
  cores := 0x7F
  fields := [(LGR_LOOK_HI_ORIGIN, .rw)]

/-- Register LGR_LOOKRES (12). -/
def LGR_LOOKRES : Nat := 0x4043002C
def LGR_LOOKRES_RDY : Fld := ⟨31, 31⟩
def LGR_LOOKRES_RESULT : Fld := ⟨30, 28⟩
def LGR_LOOKRES_VALUE : Fld := ⟨27, 0⟩

/-- Map row of LGR_LOOKRES. -/
def row_LGR_LOOKRES : RegDef where
  name := "LGR_LOOKRES"
  base := 0x4043002C
  dims := []
  reset := 0x00000000
  resets := []
  cores := 0x7F
  fields := [(LGR_LOOKRES_RDY, .ro), (LGR_LOOKRES_RESULT, .ro), (LGR_LOOKRES_VALUE, .ro)]

/-- Register LGR_DIRORG (12). -/
def LGR_DIRORG : Nat := 0x40430030
def LGR_DIRORG_ORIGIN : Fld := ⟨19, 0⟩

/-- Map row of LGR_DIRORG. -/
def row_LGR_DIRORG : RegDef where
  name := "LGR_DIRORG"
  base := 0x40430030
  dims := []
  reset := 0x00000000
  resets := []
  cores := 0x7F
  fields := [(LGR_DIRORG_ORIGIN, .rw)]

/-- Register LGR_DIRSEG (12). -/
def LGR_DIRSEG : Nat := 0x40430034
def LGR_DIRSEG_SEG : Fld := ⟨15, 0⟩

/-- Map row of LGR_DIRSEG. -/
def row_LGR_DIRSEG : RegDef where
  name := "LGR_DIRSEG"
  base := 0x40430034
  dims := []
  reset := 0x00000000
  resets := []
  cores := 0x7F
  fields := [(LGR_DIRSEG_SEG, .rw)]

/-- Register LGR_DIRVAL (12). -/
def LGR_DIRVAL : Nat := 0x40430038
def LGR_DIRVAL_WHERE : Fld := ⟨31, 30⟩
def LGR_DIRVAL_VALUE : Fld := ⟨15, 0⟩

/-- Map row of LGR_DIRVAL. -/
def row_LGR_DIRVAL : RegDef where
  name := "LGR_DIRVAL"
  base := 0x40430038
  dims := []
  reset := 0x00000000
  resets := []
  cores := 0x7F
  fields := [(LGR_DIRVAL_WHERE, .rw), (LGR_DIRVAL_VALUE, .rw)]

/-- Register LGR_DIRCMD (12). -/
def LGR_DIRCMD : Nat := 0x4043003C
def LGR_DIRCMD_KEY : Fld := ⟨31, 24⟩
def LGR_DIRCMD_OP : Fld := ⟨1, 0⟩

/-- Map row of LGR_DIRCMD. -/
def row_LGR_DIRCMD : RegDef where
  name := "LGR_DIRCMD"
  base := 0x4043003C
  dims := []
  reset := 0x00000000
  resets := []
  cores := 0x7F
  fields := [(LGR_DIRCMD_KEY, .wo), (LGR_DIRCMD_OP, .wo)]

/-- Register LGR_DIRUSED (12). -/
def LGR_DIRUSED : Nat := 0x40430040
def LGR_DIRUSED_USED : Fld := ⟨16, 0⟩

/-- Map row of LGR_DIRUSED. -/
def row_LGR_DIRUSED : RegDef where
  name := "LGR_DIRUSED"
  base := 0x40430040
  dims := []
  reset := 0x00000000
  resets := []
  cores := 0x7F
  fields := [(LGR_DIRUSED_USED, .ro)]

/-- Register LGR_CNT (12). -/
def LGR_CNT (i : Nat) : Nat := 0x40430080 + 4 * i
def LGR_CNT_SAT : Fld := ⟨31, 31⟩
def LGR_CNT_COUNT : Fld := ⟨15, 0⟩

/-- Map row of LGR_CNT. -/
def row_LGR_CNT : RegDef where
  name := "LGR_CNT"
  base := 0x40430080
  dims := [(9, 4)]
  reset := 0x00000000
  resets := []
  cores := 0x7F
  fields := [(LGR_CNT_SAT, .rc), (LGR_CNT_COUNT, .rc)]

/-! ### Block NFC at 0x40500000 -/

/-- Register NFC_CTL (21). -/
def NFC_CTL : Nat := 0x40500000
def NFC_CTL_MODE : Fld := ⟨31, 30⟩
def NFC_CTL_ASK100 : Fld := ⟨29, 29⟩
def NFC_CTL_C256 : Fld := ⟨28, 28⟩
def NFC_CTL_DRV : Fld := ⟨26, 24⟩
def NFC_CTL_IE : Fld := ⟨23, 20⟩
def NFC_CTL_GUARD_US : Fld := ⟨15, 0⟩

/-- Map row of NFC_CTL. -/
def row_NFC_CTL : RegDef where
  name := "NFC_CTL"
  base := 0x40500000
  dims := []
  reset := 0x000003E8
  resets := []
  cores := 0x7F
  fields := [(NFC_CTL_MODE, .rw), (NFC_CTL_ASK100, .rw), (NFC_CTL_C256, .rw), (NFC_CTL_DRV, .rw), (NFC_CTL_IE, .rw), (NFC_CTL_GUARD_US, .rw)]

/-- Register NFC_STAT (21). -/
def NFC_STAT : Nat := 0x40500004
def NFC_STAT_FIELD : Fld := ⟨31, 31⟩
def NFC_STAT_CARRIER : Fld := ⟨30, 30⟩
def NFC_STAT_BUSY : Fld := ⟨29, 29⟩
def NFC_STAT_DONE : Fld := ⟨28, 28⟩
def NFC_STAT_CRXF : Fld := ⟨27, 27⟩
def NFC_STAT_MBOXF : Fld := ⟨26, 26⟩
def NFC_STAT_FIELDF : Fld := ⟨25, 25⟩
def NFC_STAT_RXLEN : Fld := ⟨22, 16⟩
def NFC_STAT_RESULT : Fld := ⟨15, 8⟩
def NFC_STAT_OP : Fld := ⟨3, 0⟩

/-- Map row of NFC_STAT. -/
def row_NFC_STAT : RegDef where
  name := "NFC_STAT"
  base := 0x40500004
  dims := []
  reset := 0x00000000
  resets := []
  cores := 0x7F
  fields := [(NFC_STAT_FIELD, .ro), (NFC_STAT_CARRIER, .ro), (NFC_STAT_BUSY, .ro), (NFC_STAT_DONE, .w1c), (NFC_STAT_CRXF, .w1c), (NFC_STAT_MBOXF, .w1c), (NFC_STAT_FIELDF, .w1c), (NFC_STAT_RXLEN, .ro), (NFC_STAT_RESULT, .ro), (NFC_STAT_OP, .ro)]

/-- Register NFC_CMD (21). -/
def NFC_CMD : Nat := 0x40500008
def NFC_CMD_KEY : Fld := ⟨31, 24⟩
def NFC_CMD_OP : Fld := ⟨3, 0⟩

/-- Map row of NFC_CMD. -/
def row_NFC_CMD : RegDef where
  name := "NFC_CMD"
  base := 0x40500008
  dims := []
  reset := 0x00000000
  resets := []
  cores := 0x7F
  fields := [(NFC_CMD_KEY, .wo), (NFC_CMD_OP, .wo)]

/-- Register NFC_BUF (21). -/
def NFC_BUF : Nat := 0x4050000C
def NFC_BUF_ADDR : Fld := ⟨31, 2⟩

/-- Map row of NFC_BUF. -/
def row_NFC_BUF : RegDef where
  name := "NFC_BUF"
  base := 0x4050000C
  dims := []
  reset := 0x00000000
  resets := []
  cores := 0x7F
  fields := [(NFC_BUF_ADDR, .rw)]

/-- Register NFC_LEN (21). -/
def NFC_LEN : Nat := 0x40500010
def NFC_LEN_LEN : Fld := ⟨6, 0⟩

/-- Map row of NFC_LEN. -/
def row_NFC_LEN : RegDef where
  name := "NFC_LEN"
  base := 0x40500010
  dims := []
  reset := 0x00000000
  resets := []
  cores := 0x7F
  fields := [(NFC_LEN_LEN, .rw)]

/-- Register NFC_RXADDR (21). -/
def NFC_RXADDR : Nat := 0x40500014
def NFC_RXADDR_ADDR : Fld := ⟨31, 2⟩

/-- Map row of NFC_RXADDR. -/
def row_NFC_RXADDR : RegDef where
  name := "NFC_RXADDR"
  base := 0x40500014
  dims := []
  reset := 0x00000000
  resets := []
  cores := 0x7F
  fields := [(NFC_RXADDR_ADDR, .rw)]

/-- Register NFC_INV (21). -/
def NFC_INV : Nat := 0x40500018
def NFC_INV_QINIT : Fld := ⟨31, 28⟩
def NFC_INV_QMIN : Fld := ⟨27, 24⟩
def NFC_INV_QMAX : Fld := ⟨23, 20⟩
def NFC_INV_MAXFRAMES : Fld := ⟨15, 8⟩

/-- Map row of NFC_INV. -/
def row_NFC_INV : RegDef where
  name := "NFC_INV"
  base := 0x40500018
  dims := []
  reset := 0x20801000
  resets := []
  cores := 0x7F
  fields := [(NFC_INV_QINIT, .rw), (NFC_INV_QMIN, .rw), (NFC_INV_QMAX, .rw), (NFC_INV_MAXFRAMES, .rw)]

/-- Register NFC_SUID_LO (21). -/
def NFC_SUID_LO : Nat := 0x4050001C
def NFC_SUID_LO_SUID : Fld := ⟨31, 0⟩

/-- Map row of NFC_SUID_LO. -/
def row_NFC_SUID_LO : RegDef where
  name := "NFC_SUID_LO"
  base := 0x4050001C
  dims := []
  reset := 0x00000000
  resets := []
  cores := 0x7F
  fields := [(NFC_SUID_LO_SUID, .ro)]

/-- Register NFC_SUID_HI (21). -/
def NFC_SUID_HI : Nat := 0x40500020
def NFC_SUID_HI_SUID : Fld := ⟨31, 0⟩

/-- Map row of NFC_SUID_HI. -/
def row_NFC_SUID_HI : RegDef where
  name := "NFC_SUID_HI"
  base := 0x40500020
  dims := []
  reset := 0x00000000
  resets := []
  cores := 0x7F
  fields := [(NFC_SUID_HI_SUID, .ro)]

/-- Register NFC_INVN (21). -/
def NFC_INVN : Nat := 0x40500024
def NFC_INVN_N : Fld := ⟨6, 0⟩

/-- Map row of NFC_INVN. -/
def row_NFC_INVN : RegDef where
  name := "NFC_INVN"
  base := 0x40500024
  dims := []
  reset := 0x00000000
  resets := []
  cores := 0x7F
  fields := [(NFC_INVN_N, .ro)]

/-- Register NFC_TORN (21). -/
def NFC_TORN : Nat := 0x40500028
def NFC_TORN_TORN : Fld := ⟨31, 0⟩

/-- Map row of NFC_TORN. -/
def row_NFC_TORN : RegDef where
  name := "NFC_TORN"
  base := 0x40500028
  dims := []
  reset := 0x00000000
  resets := []
  cores := 0x7F
  fields := [(NFC_TORN_TORN, .wo)]

/-- Register NFC_CNT (21). -/
def NFC_CNT (i : Nat) : Nat := 0x40500040 + 4 * i
def NFC_CNT_SAT : Fld := ⟨31, 31⟩
def NFC_CNT_COUNT : Fld := ⟨15, 0⟩

/-- Map row of NFC_CNT. -/
def row_NFC_CNT : RegDef where
  name := "NFC_CNT"
  base := 0x40500040
  dims := [(8, 4)]
  reset := 0x00000000
  resets := []
  cores := 0x7F
  fields := [(NFC_CNT_SAT, .rc), (NFC_CNT_COUNT, .rc)]

/-! ### Block SVC at 0x40510000 -/

/-- Register SVC_STAT (22). -/
def SVC_STAT : Nat := 0x40510000
def SVC_STAT_ATN : Fld := ⟨31, 31⟩
def SVC_STAT_SESSION : Fld := ⟨30, 30⟩
def SVC_STAT_XFER : Fld := ⟨29, 29⟩
def SVC_STAT_SERVICE : Fld := ⟨28, 28⟩
def SVC_STAT_IE : Fld := ⟨11, 8⟩
def SVC_STAT_ATNF : Fld := ⟨3, 3⟩
def SVC_STAT_DONE : Fld := ⟨2, 2⟩
def SVC_STAT_SWITCHF : Fld := ⟨1, 1⟩
def SVC_STAT_FELLBACK : Fld := ⟨0, 0⟩

/-- Map row of SVC_STAT. -/
def row_SVC_STAT : RegDef where
  name := "SVC_STAT"
  base := 0x40510000
  dims := []
  reset := 0x00000000
  resets := []
  cores := 0x7F
  fields := [(SVC_STAT_ATN, .ro), (SVC_STAT_SESSION, .ro), (SVC_STAT_XFER, .ro), (SVC_STAT_SERVICE, .ro), (SVC_STAT_IE, .rw), (SVC_STAT_ATNF, .w1c), (SVC_STAT_DONE, .w1c), (SVC_STAT_SWITCHF, .w1c), (SVC_STAT_FELLBACK, .w1c)]

/-- Register SVC_IMG (22). -/
def SVC_IMG : Nat := 0x40510004
def SVC_IMG_ARMED : Fld := ⟨31, 31⟩
def SVC_IMG_CONFWAIT : Fld := ⟨30, 30⟩
def SVC_IMG_MIGRATE : Fld := ⟨29, 29⟩
def SVC_IMG_ARMLEFT : Fld := ⟨28, 28⟩
def SVC_IMG_NOEXT : Fld := ⟨27, 27⟩
def SVC_IMG_TRIES : Fld := ⟨23, 16⟩
def SVC_IMG_STATE : Fld := ⟨15, 8⟩
def SVC_IMG_RUNNING : Fld := ⟨1, 0⟩

/-- Map row of SVC_IMG. -/
def row_SVC_IMG : RegDef where
  name := "SVC_IMG"
  base := 0x40510004
  dims := []
  reset := 0x00000000
  resets := []
  cores := 0x7F
  fields := [(SVC_IMG_ARMED, .ro), (SVC_IMG_CONFWAIT, .ro), (SVC_IMG_MIGRATE, .ro), (SVC_IMG_ARMLEFT, .w1c), (SVC_IMG_NOEXT, .ro), (SVC_IMG_TRIES, .ro), (SVC_IMG_STATE, .ro), (SVC_IMG_RUNNING, .ro)]

/-- Register SVC_CMD (22). -/
def SVC_CMD : Nat := 0x40510008
def SVC_CMD_KEY : Fld := ⟨31, 24⟩
def SVC_CMD_OP : Fld := ⟨2, 0⟩

/-- Map row of SVC_CMD. -/
def row_SVC_CMD : RegDef where
  name := "SVC_CMD"
  base := 0x40510008
  dims := []
  reset := 0x00000000
  resets := []
  cores := 0x40
  fields := [(SVC_CMD_KEY, .wo), (SVC_CMD_OP, .wo)]

/-- Register SVC_ARG (22). -/
def SVC_ARG : Nat := 0x4051000C
def SVC_ARG_CONFWIN_S : Fld := ⟨31, 16⟩
def SVC_ARG_SLOT : Fld := ⟨0, 0⟩

/-- Map row of SVC_ARG. -/
def row_SVC_ARG : RegDef where
  name := "SVC_ARG"
  base := 0x4051000C
  dims := []
  reset := 0x02580000
  resets := []
  cores := 0x40
  fields := [(SVC_ARG_CONFWIN_S, .rw), (SVC_ARG_SLOT, .rw)]

/-- Register SVC_WHEN_LO (22). -/
def SVC_WHEN_LO : Nat := 0x40510010
def SVC_WHEN_LO_WHEN : Fld := ⟨31, 0⟩

/-- Map row of SVC_WHEN_LO. -/
def row_SVC_WHEN_LO : RegDef where
  name := "SVC_WHEN_LO"
  base := 0x40510010
  dims := []
  reset := 0x00000000
  resets := []
  cores := 0x40
  fields := [(SVC_WHEN_LO_WHEN, .rw)]

/-- Register SVC_WHEN_HI (22). -/
def SVC_WHEN_HI : Nat := 0x40510014
def SVC_WHEN_HI_WHEN : Fld := ⟨31, 0⟩

/-- Map row of SVC_WHEN_HI. -/
def row_SVC_WHEN_HI : RegDef where
  name := "SVC_WHEN_HI"
  base := 0x40510014
  dims := []
  reset := 0x00000000
  resets := []
  cores := 0x40
  fields := [(SVC_WHEN_HI_WHEN, .rw)]

/-- Register SVC_RES (22). -/
def SVC_RES : Nat := 0x40510018
def SVC_RES_BUSY : Fld := ⟨31, 31⟩
def SVC_RES_RESULT : Fld := ⟨15, 8⟩
def SVC_RES_OP : Fld := ⟨2, 0⟩

/-- Map row of SVC_RES. -/
def row_SVC_RES : RegDef where
  name := "SVC_RES"
  base := 0x40510018
  dims := []
  reset := 0x00000000
  resets := []
  cores := 0x7F
  fields := [(SVC_RES_BUSY, .ro), (SVC_RES_RESULT, .ro), (SVC_RES_OP, .ro)]

/-- Register SVC_VER (22). -/
def SVC_VER : Nat := 0x4051001C
def SVC_VER_VERSION : Fld := ⟨31, 0⟩

/-- Map row of SVC_VER. -/
def row_SVC_VER : RegDef where
  name := "SVC_VER"
  base := 0x4051001C
  dims := []
  reset := 0x00000000
  resets := []
  cores := 0x7F
  fields := [(SVC_VER_VERSION, .ro)]

/-- Register SVC_CNT (22). -/
def SVC_CNT (i : Nat) : Nat := 0x40510020 + 4 * i
def SVC_CNT_SAT : Fld := ⟨31, 31⟩
def SVC_CNT_COUNT : Fld := ⟨15, 0⟩

/-- Map row of SVC_CNT. -/
def row_SVC_CNT : RegDef where
  name := "SVC_CNT"
  base := 0x40510020
  dims := [(6, 4)]
  reset := 0x00000000
  resets := []
  cores := 0x7F
  fields := [(SVC_CNT_SAT, .rc), (SVC_CNT_COUNT, .rc)]

/-! ### Block HST at 0x40520000 -/

/-- Register HST_WINB (23). -/
def HST_WINB (i : Nat) : Nat := 0x40520000 + 8 * i
def HST_WINB_ADDR : Fld := ⟨31, 12⟩

/-- Map row of HST_WINB. -/
def row_HST_WINB : RegDef where
  name := "HST_WINB"
  base := 0x40520000
  dims := [(2, 8)]
  reset := 0x00000000
  resets := []
  cores := 0x7F
  fields := [(HST_WINB_ADDR, .rw)]

/-- Register HST_WINC (23). -/
def HST_WINC (i : Nat) : Nat := 0x40520004 + 8 * i
def HST_WINC_EN : Fld := ⟨31, 31⟩
def HST_WINC_WR : Fld := ⟨30, 30⟩
def HST_WINC_PAGES : Fld := ⟨12, 0⟩

/-- Map row of HST_WINC. -/
def row_HST_WINC : RegDef where
  name := "HST_WINC"
  base := 0x40520004
  dims := [(2, 8)]
  reset := 0x00000000
  resets := []
  cores := 0x7F
  fields := [(HST_WINC_EN, .rw), (HST_WINC_WR, .rw), (HST_WINC_PAGES, .rw)]

/-- Register HST_HFLG (23). -/
def HST_HFLG : Nat := 0x40520010
def HST_HFLG_FLAGS : Fld := ⟨31, 0⟩

/-- Map row of HST_HFLG. -/
def row_HST_HFLG : RegDef where
  name := "HST_HFLG"
  base := 0x40520010
  dims := []
  reset := 0x00000000
  resets := []
  cores := 0x7F
  fields := [(HST_HFLG_FLAGS, .w1s)]

/-- Register HST_HEN (23). -/
def HST_HEN : Nat := 0x40520014
def HST_HEN_EN : Fld := ⟨31, 0⟩

/-- Map row of HST_HEN. -/
def row_HST_HEN : RegDef where
  name := "HST_HEN"
  base := 0x40520014
  dims := []
  reset := 0x00000000
  resets := []
  cores := 0x7F
  fields := [(HST_HEN_EN, .rw)]

/-- Register HST_DB (23). -/
def HST_DB : Nat := 0x40520018
def HST_DB_VALUE : Fld := ⟨31, 0⟩

/-- Map row of HST_DB. -/
def row_HST_DB : RegDef where
  name := "HST_DB"
  base := 0x40520018
  dims := []
  reset := 0x00000000
  resets := []
  cores := 0x7F
  fields := [(HST_DB_VALUE, .ro)]

/-- Register HST_STAT (23). -/
def HST_STAT : Nat := 0x4052001C
def HST_STAT_DBF : Fld := ⟨31, 31⟩
def HST_STAT_ERR : Fld := ⟨30, 30⟩
def HST_STAT_CSLOW : Fld := ⟨29, 29⟩
def HST_STAT_IE : Fld := ⟨9, 8⟩

/-- Map row of HST_STAT. -/
def row_HST_STAT : RegDef where
  name := "HST_STAT"
  base := 0x4052001C
  dims := []
  reset := 0x00000000
  resets := []
  cores := 0x7F
  fields := [(HST_STAT_DBF, .w1c), (HST_STAT_ERR, .w1c), (HST_STAT_CSLOW, .ro), (HST_STAT_IE, .rw)]

/-- Register HST_CNT (23). -/
def HST_CNT (i : Nat) : Nat := 0x40520020 + 4 * i
def HST_CNT_SAT : Fld := ⟨31, 31⟩
def HST_CNT_COUNT : Fld := ⟨15, 0⟩

/-- Map row of HST_CNT. -/
def row_HST_CNT : RegDef where
  name := "HST_CNT"
  base := 0x40520020
  dims := [(3, 4)]
  reset := 0x00000000
  resets := []
  cores := 0x7F
  fields := [(HST_CNT_SAT, .rc), (HST_CNT_COUNT, .rc)]

/-! ### Block I2C at 0x40530000 -/

/-- Register I2C_CFG (23). -/
def I2C_CFG (i : Nat) : Nat := 0x40530000 + 4096 * i
def I2C_CFG_EN : Fld := ⟨31, 31⟩
def I2C_CFG_FAST : Fld := ⟨30, 30⟩
def I2C_CFG_STRETCH_MS : Fld := ⟨23, 16⟩

/-- Map row of I2C_CFG. -/
def row_I2C_CFG : RegDef where
  name := "I2C_CFG"
  base := 0x40530000
  dims := [(2, 4096)]
  reset := 0x00190000
  resets := []
  cores := 0x7F
  fields := [(I2C_CFG_EN, .rw), (I2C_CFG_FAST, .rw), (I2C_CFG_STRETCH_MS, .rw)]

/-- Register I2C_CMD (23). -/
def I2C_CMD (i : Nat) : Nat := 0x40530004 + 4096 * i
def I2C_CMD_RECOVER : Fld := ⟨31, 31⟩
def I2C_CMD_STOP : Fld := ⟨30, 30⟩
def I2C_CMD_RD : Fld := ⟨29, 29⟩
def I2C_CMD_LEN : Fld := ⟨23, 16⟩
def I2C_CMD_ADDR : Fld := ⟨6, 0⟩

/-- Map row of I2C_CMD. -/
def row_I2C_CMD : RegDef where
  name := "I2C_CMD"
  base := 0x40530004
  dims := [(2, 4096)]
  reset := 0x00000000
  resets := []
  cores := 0x7F
  fields := [(I2C_CMD_RECOVER, .wo), (I2C_CMD_STOP, .wo), (I2C_CMD_RD, .wo), (I2C_CMD_LEN, .wo), (I2C_CMD_ADDR, .wo)]

/-- Register I2C_DATA (23). -/
def I2C_DATA (i : Nat) : Nat := 0x40530008 + 4096 * i
def I2C_DATA_BYTE : Fld := ⟨7, 0⟩

/-- Map row of I2C_DATA. -/
def row_I2C_DATA : RegDef where
  name := "I2C_DATA"
  base := 0x40530008
  dims := [(2, 4096)]
  reset := 0x00000000
  resets := []
  cores := 0x7F
  fields := [(I2C_DATA_BYTE, .rc)]

/-- Register I2C_STAT (23). -/
def I2C_STAT (i : Nat) : Nat := 0x4053000C + 4096 * i
def I2C_STAT_BUSY : Fld := ⟨31, 31⟩
def I2C_STAT_STUCK : Fld := ⟨29, 29⟩
def I2C_STAT_DONE : Fld := ⟨30, 30⟩
def I2C_STAT_IE : Fld := ⟨28, 28⟩
def I2C_STAT_RESULT : Fld := ⟨27, 24⟩
def I2C_STAT_TXN : Fld := ⟨12, 8⟩
def I2C_STAT_RXN : Fld := ⟨4, 0⟩

/-- Map row of I2C_STAT. -/
def row_I2C_STAT : RegDef where
  name := "I2C_STAT"
  base := 0x4053000C
  dims := [(2, 4096)]
  reset := 0x00000000
  resets := []
  cores := 0x7F
  fields := [(I2C_STAT_BUSY, .ro), (I2C_STAT_STUCK, .ro), (I2C_STAT_DONE, .w1c), (I2C_STAT_IE, .rw), (I2C_STAT_RESULT, .ro), (I2C_STAT_TXN, .ro), (I2C_STAT_RXN, .ro)]

/-- Register I2C_CNT (23). -/
def I2C_CNT (i : Nat) (j : Nat) : Nat := 0x40530010 + 4096 * i + 4 * j
def I2C_CNT_SAT : Fld := ⟨31, 31⟩
def I2C_CNT_COUNT : Fld := ⟨15, 0⟩

/-- Map row of I2C_CNT. -/
def row_I2C_CNT : RegDef where
  name := "I2C_CNT"
  base := 0x40530010
  dims := [(2, 4096), (3, 4)]
  reset := 0x00000000
  resets := []
  cores := 0x7F
  fields := [(I2C_CNT_SAT, .rc), (I2C_CNT_COUNT, .rc)]

/-! ### Block SPI at 0x40540000 -/

/-- Register SPI_CFG (23). -/
def SPI_CFG : Nat := 0x40540000
def SPI_CFG_EN : Fld := ⟨31, 31⟩
def SPI_CFG_MODE : Fld := ⟨30, 29⟩
def SPI_CFG_LSB : Fld := ⟨28, 28⟩
def SPI_CFG_DIV : Fld := ⟨23, 16⟩

/-- Map row of SPI_CFG. -/
def row_SPI_CFG : RegDef where
  name := "SPI_CFG"
  base := 0x40540000
  dims := []
  reset := 0x00030000
  resets := []
  cores := 0x7F
  fields := [(SPI_CFG_EN, .rw), (SPI_CFG_MODE, .rw), (SPI_CFG_LSB, .rw), (SPI_CFG_DIV, .rw)]

/-- Register SPI_TXA (23). -/
def SPI_TXA : Nat := 0x40540004
def SPI_TXA_ADDR : Fld := ⟨31, 0⟩

/-- Map row of SPI_TXA. -/
def row_SPI_TXA : RegDef where
  name := "SPI_TXA"
  base := 0x40540004
  dims := []
  reset := 0x00000000
  resets := []
  cores := 0x7F
  fields := [(SPI_TXA_ADDR, .rw)]

/-- Register SPI_RXA (23). -/
def SPI_RXA : Nat := 0x40540008
def SPI_RXA_ADDR : Fld := ⟨31, 0⟩

/-- Map row of SPI_RXA. -/
def row_SPI_RXA : RegDef where
  name := "SPI_RXA"
  base := 0x40540008
  dims := []
  reset := 0x00000000
  resets := []
  cores := 0x7F
  fields := [(SPI_RXA_ADDR, .rw)]

/-- Register SPI_XFER (23). -/
def SPI_XFER : Nat := 0x4054000C
def SPI_XFER_CS : Fld := ⟨31, 30⟩
def SPI_XFER_HOLD : Fld := ⟨29, 29⟩
def SPI_XFER_LEN : Fld := ⟨15, 0⟩

/-- Map row of SPI_XFER. -/
def row_SPI_XFER : RegDef where
  name := "SPI_XFER"
  base := 0x4054000C
  dims := []
  reset := 0x00000000
  resets := []
  cores := 0x7F
  fields := [(SPI_XFER_CS, .wo), (SPI_XFER_HOLD, .wo), (SPI_XFER_LEN, .wo)]

/-- Register SPI_STAT (23). -/
def SPI_STAT : Nat := 0x40540010
def SPI_STAT_BUSY : Fld := ⟨31, 31⟩
def SPI_STAT_DONE : Fld := ⟨30, 30⟩
def SPI_STAT_IE : Fld := ⟨29, 29⟩
def SPI_STAT_RESULT : Fld := ⟨23, 16⟩

/-- Map row of SPI_STAT. -/
def row_SPI_STAT : RegDef where
  name := "SPI_STAT"
  base := 0x40540010
  dims := []
  reset := 0x00000000
  resets := []
  cores := 0x7F
  fields := [(SPI_STAT_BUSY, .ro), (SPI_STAT_DONE, .w1c), (SPI_STAT_IE, .rw), (SPI_STAT_RESULT, .ro)]

/-! ### Block UART at 0x40550000 -/

/-- Register UART_CFG (23). -/
def UART_CFG (i : Nat) : Nat := 0x40550000 + 4096 * i
def UART_CFG_EN : Fld := ⟨31, 31⟩
def UART_CFG_FLOW : Fld := ⟨30, 30⟩
def UART_CFG_STOP2 : Fld := ⟨27, 27⟩
def UART_CFG_PARITY : Fld := ⟨29, 28⟩
def UART_CFG_INT : Fld := ⟨19, 4⟩
def UART_CFG_FRAC : Fld := ⟨3, 0⟩

/-- Map row of UART_CFG. -/
def row_UART_CFG : RegDef where
  name := "UART_CFG"
  base := 0x40550000
  dims := [(2, 4096)]
  reset := 0x0000010B
  resets := []
  cores := 0x7F
  fields := [(UART_CFG_EN, .rw), (UART_CFG_FLOW, .rw), (UART_CFG_STOP2, .rw), (UART_CFG_PARITY, .rw), (UART_CFG_INT, .rw), (UART_CFG_FRAC, .rw)]

/-- Register UART_DATA (23). -/
def UART_DATA (i : Nat) : Nat := 0x40550004 + 4096 * i
def UART_DATA_VALID : Fld := ⟨8, 8⟩
def UART_DATA_BYTE : Fld := ⟨7, 0⟩

/-- Map row of UART_DATA. -/
def row_UART_DATA : RegDef where
  name := "UART_DATA"
  base := 0x40550004
  dims := [(2, 4096)]
  reset := 0x00000000
  resets := []
  cores := 0x7F
  fields := [(UART_DATA_VALID, .rc), (UART_DATA_BYTE, .rc)]

/-- Register UART_STAT (23). -/
def UART_STAT (i : Nat) : Nat := 0x40550008 + 4096 * i
def UART_STAT_TXBUSY : Fld := ⟨31, 31⟩
def UART_STAT_ERRF : Fld := ⟨30, 30⟩
def UART_STAT_TXN : Fld := ⟨29, 24⟩
def UART_STAT_RXN : Fld := ⟨21, 16⟩
def UART_STAT_IE : Fld := ⟨10, 8⟩

/-- Map row of UART_STAT. -/
def row_UART_STAT : RegDef where
  name := "UART_STAT"
  base := 0x40550008
  dims := [(2, 4096)]
  reset := 0x00000000
  resets := []
  cores := 0x7F
  fields := [(UART_STAT_TXBUSY, .ro), (UART_STAT_ERRF, .w1c), (UART_STAT_TXN, .ro), (UART_STAT_RXN, .ro), (UART_STAT_IE, .rw)]

/-- Register UART_CNT (23). -/
def UART_CNT (i : Nat) (j : Nat) : Nat := 0x4055000C + 4096 * i + 4 * j
def UART_CNT_SAT : Fld := ⟨31, 31⟩
def UART_CNT_COUNT : Fld := ⟨15, 0⟩

/-- Map row of UART_CNT. -/
def row_UART_CNT : RegDef where
  name := "UART_CNT"
  base := 0x4055000C
  dims := [(2, 4096), (3, 4)]
  reset := 0x00000000
  resets := []
  cores := 0x7F
  fields := [(UART_CNT_SAT, .rc), (UART_CNT_COUNT, .rc)]

/-! ### Block GPIO at 0x40560000 -/

/-- Register GPIO_IN (23). -/
def GPIO_IN (i : Nat) : Nat := 0x40560000 + 4 * i
def GPIO_IN_IN : Fld := ⟨31, 0⟩

/-- Map row of GPIO_IN. -/
def row_GPIO_IN : RegDef where
  name := "GPIO_IN"
  base := 0x40560000
  dims := [(2, 4)]
  reset := 0x00000000
  resets := []
  cores := 0x7F
  fields := [(GPIO_IN_IN, .ro)]

/-- Register GPIO_OUT (23). -/
def GPIO_OUT (i : Nat) : Nat := 0x40560008 + 4 * i
def GPIO_OUT_OUT : Fld := ⟨31, 0⟩

/-- Map row of GPIO_OUT. -/
def row_GPIO_OUT : RegDef where
  name := "GPIO_OUT"
  base := 0x40560008
  dims := [(2, 4)]
  reset := 0x00000000
  resets := []
  cores := 0x7F
  fields := [(GPIO_OUT_OUT, .rw)]

/-- Register GPIO_SET (23). -/
def GPIO_SET (i : Nat) : Nat := 0x40560010 + 4 * i
def GPIO_SET_BITS : Fld := ⟨31, 0⟩

/-- Map row of GPIO_SET. -/
def row_GPIO_SET : RegDef where
  name := "GPIO_SET"
  base := 0x40560010
  dims := [(2, 4)]
  reset := 0x00000000
  resets := []
  cores := 0x7F
  fields := [(GPIO_SET_BITS, .wo)]

/-- Register GPIO_CLR (23). -/
def GPIO_CLR (i : Nat) : Nat := 0x40560018 + 4 * i
def GPIO_CLR_BITS : Fld := ⟨31, 0⟩

/-- Map row of GPIO_CLR. -/
def row_GPIO_CLR : RegDef where
  name := "GPIO_CLR"
  base := 0x40560018
  dims := [(2, 4)]
  reset := 0x00000000
  resets := []
  cores := 0x7F
  fields := [(GPIO_CLR_BITS, .wo)]

/-! ### Block FLN at 0x40570000 -/

/-- Register FLN_CFG (01). -/
def FLN_CFG (i : Nat) : Nat := 0x40570000 + 4 * i
def FLN_CFG_RETRY : Fld := ⟨13, 12⟩
def FLN_CFG_ILIM : Fld := ⟨11, 10⟩
def FLN_CFG_WET : Fld := ⟨9, 8⟩
def FLN_CFG_MODE : Fld := ⟨2, 0⟩

/-- Map row of FLN_CFG. -/
def row_FLN_CFG : RegDef where
  name := "FLN_CFG"
  base := 0x40570000
  dims := [(8, 4)]
  reset := 0x00000000
  resets := []
  cores := 0x7F
  fields := [(FLN_CFG_RETRY, .rw), (FLN_CFG_ILIM, .rw), (FLN_CFG_WET, .rw), (FLN_CFG_MODE, .rw)]

/-- Register FLN_STAT (01). -/
def FLN_STAT : Nat := 0x40570020
def FLN_STAT_TRIP : Fld := ⟨31, 24⟩
def FLN_STAT_LIM : Fld := ⟨23, 16⟩
def FLN_STAT_LVL : Fld := ⟨7, 0⟩

/-- Map row of FLN_STAT. -/
def row_FLN_STAT : RegDef where
  name := "FLN_STAT"
  base := 0x40570020
  dims := []
  reset := 0x00000000
  resets := []
  cores := 0x7F
  fields := [(FLN_STAT_TRIP, .ro), (FLN_STAT_LIM, .ro), (FLN_STAT_LVL, .ro)]

/-- Register FLN_FLT (01). -/
def FLN_FLT : Nat := 0x40570024
def FLN_FLT_FLT : Fld := ⟨7, 0⟩

/-- Map row of FLN_FLT. -/
def row_FLN_FLT : RegDef where
  name := "FLN_FLT"
  base := 0x40570024
  dims := []
  reset := 0x00000000
  resets := []
  cores := 0x7F
  fields := [(FLN_FLT_FLT, .w1c)]

/-- Register FLN_CAUSE (01). -/
def FLN_CAUSE : Nat := 0x40570028
def FLN_CAUSE_CAUSE : Fld := ⟨31, 0⟩

/-- Map row of FLN_CAUSE. -/
def row_FLN_CAUSE : RegDef where
  name := "FLN_CAUSE"
  base := 0x40570028
  dims := []
  reset := 0x00000000
  resets := []
  cores := 0x7F
  fields := [(FLN_CAUSE_CAUSE, .ro)]

/-- Register FLN_FLTCNT (01). -/
def FLN_FLTCNT (i : Nat) : Nat := 0x40570040 + 4 * i
def FLN_FLTCNT_SAT : Fld := ⟨31, 31⟩
def FLN_FLTCNT_COUNT : Fld := ⟨15, 0⟩

/-- Map row of FLN_FLTCNT. -/
def row_FLN_FLTCNT : RegDef where
  name := "FLN_FLTCNT"
  base := 0x40570040
  dims := [(8, 4)]
  reset := 0x00000000
  resets := []
  cores := 0x7F
  fields := [(FLN_FLTCNT_SAT, .rc), (FLN_FLTCNT_COUNT, .rc)]

/-! ### The child table entry (Table 9.11) -/

/-- Word 0 of a child-table entry, field VALID (RW). -/
def CHT_VALID : Fld := ⟨31, 31⟩
/-- Word 0 of a child-table entry, field KIND (RW). -/
def CHT_KIND : Fld := ⟨30, 29⟩
/-- Word 0 of a child-table entry, field SLEEPY (RW). -/
def CHT_SLEEPY : Fld := ⟨28, 28⟩
/-- Word 0 of a child-table entry, field LOST (W1C). -/
def CHT_LOST : Fld := ⟨27, 27⟩
/-- Word 0 of a child-table entry, field PLAIN (RW). -/
def CHT_PLAIN : Fld := ⟨26, 26⟩
/-- Word 0 of a child-table entry, field KEYSLOT (RW). -/
def CHT_KEYSLOT : Fld := ⟨23, 16⟩
/-- Word 0 of a child-table entry, field SHORT (RW). -/
def CHT_SHORT : Fld := ⟨15, 0⟩
/-- Word 1 of a child-table entry, field H (RW). -/
def CHT_H : Fld := ⟨31, 0⟩
/-- Word 2 of a child-table entry, field MAP (RW). -/
def CHT_MAP : Fld := ⟨31, 0⟩
/-- Word 3 of a child-table entry, field LASTSEEN (RW). -/
def CHT_LASTSEEN : Fld := ⟨31, 0⟩
/-- Word 4 of a child-table entry, field INTERVAL_S (RW). -/
def CHT_INTERVAL_S : Fld := ⟨31, 16⟩
/-- Word 4 of a child-table entry, field TOL (RW). -/
def CHT_TOL : Fld := ⟨15, 8⟩
/-- Word 4 of a child-table entry, field MISS (RO). -/
def CHT_MISS : Fld := ⟨7, 0⟩
/-- Word 5 of a child-table entry, field QLEN (RO). -/
def CHT_QLEN : Fld := ⟨31, 28⟩
/-- Word 5 of a child-table entry, field QLOCK (RO). -/
def CHT_QLOCK : Fld := ⟨27, 27⟩
/-- Word 5 of a child-table entry, field PENDSENT (RO). -/
def CHT_PENDSENT : Fld := ⟨26, 26⟩
/-- Word 5 of a child-table entry, field QTAIL (RO). -/
def CHT_QTAIL : Fld := ⟨19, 10⟩
/-- Word 5 of a child-table entry, field QHEAD (RO). -/
def CHT_QHEAD : Fld := ⟨9, 0⟩
/-- Word 6 of a child-table entry, field LINKSEQ (RO). -/
def CHT_LINKSEQ : Fld := ⟨31, 24⟩
/-- Word 6 of a child-table entry, field RETRY (RO). -/
def CHT_RETRY : Fld := ⟨23, 16⟩
/-- Word 6 of a child-table entry, field KEYID (RW). -/
def CHT_KEYID : Fld := ⟨15, 8⟩
/-- Word 7 of a child-table entry, field FW (RW). -/
def CHT_FW : Fld := ⟨31, 0⟩

/-- Registers of block SYS. -/
def regs_SYS : List RegDef := [row_SYS_RSTREC, row_SYS_RSTCTL, row_SYS_CORERST, row_SYS_CORESTAT, row_SYS_ENTRY]

/-- Registers of block CLK. -/
def regs_CLK : List RegDef := [row_CLK_STAT, row_CLK_FAILCFG, row_CLK_FAILCNT, row_CLK_GATEEN, row_CLK_RUN]

/-- Registers of block PWR. -/
def regs_PWR : List RegDef := [row_PWR_REQ, row_PWR_STAT, row_PWR_WAKE, row_PWR_LISTEN, row_PWR_REF, row_PWR_ABORT, row_PWR_PLEVEL, row_PWR_REFBLK, row_PWR_SUPPLY, row_PWR_CEIL, row_PWR_CEILREF, row_PWR_MON]

/-- Registers of block SOW. -/
def regs_SOW : List RegDef := [row_SOW_STAT, row_SOW_SEQ, row_SOW_SRC, row_SOW_CMD, row_SOW_WHEN_LO, row_SOW_WHEN_HI, row_SOW_ERR, row_SOW_OKCNT, row_SOW_FAILCNT]

/-- Registers of block IRQ. -/
def regs_IRQ : List RegDef := [row_IRQ_CFG, row_IRQ_PEND, row_IRQ_SWPEND, row_IRQ_HOLD, row_IRQ_ACK, row_IRQ_EOI, row_IRQ_STAT, row_IRQ_STK, row_IRQ_LPSET, row_IRQ_CNT]

/-- Registers of block HDL. -/
def regs_HDL : List RegDef := [row_HDL_FIRE, row_HDL_CHLVL, row_HDL_SEEN, row_HDL_GRPEN, row_HDL_GRPSET, row_HDL_GRPCLR, row_HDL_GATED, row_HDL_CNT, row_HDL_LUT]

/-- Registers of block TMR. -/
def regs_TMR : List RegDef := [row_TMR_CTL, row_TMR_STAT, row_TMR_CNT_LO, row_TMR_CNT_HI, row_TMR_PER_LO, row_TMR_PER_HI, row_TMR_CMP_LO, row_TMR_CMP_HI, row_TMR_CAP_LO, row_TMR_CAP_HI, row_TMR_GMASK, row_TMR_GCMD, row_TMR_GRUN, row_TMR_CNT]

/-- Registers of block RTC. -/
def regs_RTC : List RegDef := [row_RTC_CTL, row_RTC_STAT, row_RTC_SUB, row_RTC_TIME, row_RTC_DATE, row_RTC_ALTIME, row_RTC_ALDATE, row_RTC_T_LO, row_RTC_T_HI, row_RTC_CALOFS_LO, row_RTC_CALOFS_HI, row_RTC_CORR, row_RTC_CURVE, row_RTC_ATCTL, row_RTC_ATLOAD, row_RTC_ATCNT]

/-- Registers of block FLC. -/
def regs_FLC : List RegDef := [row_FLC_CMD, row_FLC_ADDR, row_FLC_BUF, row_FLC_ARG, row_FLC_DATA, row_FLC_STAT, row_FLC_ECC, row_FLC_COL, row_FLC_REP, row_FLC_CFG, row_FLC_BOOT, row_FLC_WINPOS, row_FLC_WINSTAT, row_FLC_CNT]

/-- Registers of block CAL. -/
def regs_CAL : List RegDef := [row_CAL_CTL, row_CAL_CMD, row_CAL_STAT, row_CAL_CHSTAT, row_CAL_TEMP, row_CAL_FORCE, row_CAL_CNT, row_CAL_LAST]

/-- Registers of block ERL. -/
def regs_ERL : List RegDef := [row_ERL_ENT, row_ERL_STAT, row_ERL_LOST, row_ERL_FIRSTLOST, row_ERL_FIRSTLT, row_ERL_LASTLOST, row_ERL_LASTLT, row_ERL_FUSE, row_ERL_ECC]

/-- Registers of block SEM. -/
def regs_SEM : List RegDef := [row_SEM_TAKE, row_SEM_GIVE, row_SEM_STAT, row_SEM_RESCUE, row_SEM_CFG, row_SEM_ORPH_LO, row_SEM_ORPH_HI, row_SEM_CNT]

/-- Registers of block RFC. -/
def regs_RFC : List RegDef := [row_RFC_RXCTL, row_RFC_RXSTAT, row_RFC_CLIPCNT, row_RFC_MCTAP, row_RFC_ANT, row_RFC_TXSTAT, row_RFC_REFUSE, row_RFC_DUTY, row_RFC_PROF, row_RFC_PWRTAB]

/-- Registers of block SYN. -/
def regs_SYN : List RegDef := [row_SYN_STAT, row_SYN_HOPFAIL, row_SYN_CALF, row_SYN_CALC]

/-- Registers of block COX. -/
def regs_COX : List RegDef := [row_COX_STAT, row_COX_TOCNT, row_COX_ABRTCNT, row_COX_NOGNT]

/-- Registers of block DET. -/
def regs_DET : List RegDef := [row_DET_CTL, row_DET_SYNC, row_DET_CAND, row_DET_NOFUR, row_DET_DISC, row_DET_DISCR, row_DET_FURCFG]

/-- Registers of block FUR. -/
def regs_FUR : List RegDef := [row_FUR_STAT, row_FUR_CTL, row_FUR_SRC, row_FUR_HDR, row_FUR_LVL, row_FUR_FOFF, row_FUR_TSYNC_LO, row_FUR_TSYNC_HI, row_FUR_RPT, row_FUR_QUAL, row_FUR_DEC]

/-- Registers of block DEC. -/
def regs_DEC : List RegDef := [row_DEC_CTL, row_DEC_CFG, row_DEC_WAIT, row_DEC_STAT, row_DEC_BLK, row_DEC_ITERS, row_DEC_NOCONV, row_DEC_SPEC, row_DEC_EXPIRE, row_DEC_NOPWR, row_DEC_NOROOM, row_DEC_FSHEAD, row_DEC_FSTAIL, row_DEC_FSFREE, row_DEC_FSSTAT]

/-- Registers of block UNW. -/
def regs_UNW : List RegDef := [row_UNW_CTL, row_UNW_ABORT, row_UNW_CFG, row_UNW_REWAIT, row_UNW_STAT, row_UNW_BUSY, row_UNW_SLOT, row_UNW_SLOTF, row_UNW_OPEN, row_UNW_DROP, row_UNW_OUT]

/-- Registers of block MCX. -/
def regs_MCX : List RegDef := [row_MCX_CTL, row_MCX_STAT, row_MCX_LVL, row_MCX_FOFF, row_MCX_TSYNC_LO, row_MCX_TSYNC_HI, row_MCX_RPT, row_MCX_EQ, row_MCX_DISC, row_MCX_BUSY]

/-- Registers of block LNK. -/
def regs_LNK : List RegDef := [row_LNK_ADDR, row_LNK_CFG, row_LNK_ACKCFG, row_LNK_ACKWAIT, row_LNK_ALIAS, row_LNK_TA, row_LNK_TAMC, row_LNK_MCLNK, row_LNK_POLL, row_LNK_GUARD, row_LNK_CCA, row_LNK_TXSUB, row_LNK_TXDONE_TAG, row_LNK_TXDONE_ST, row_LNK_QOP, row_LNK_QARG, row_LNK_QRES, row_LNK_STAT, row_LNK_CHTPAGE, row_LNK_TXFCNT, row_LNK_VQ, row_LNK_CNT]

/-- Registers of block FLD. -/
def regs_FLD : List RegDef := [row_FLD_CFG, row_FLD_DELAY, row_FLD_RTPL, row_FLD_BTPL, row_FLD_BCN, row_FLD_TIME, row_FLD_STAT, row_FLD_CACHE, row_FLD_MESH_LO, row_FLD_MESH_HI, row_FLD_SET_LO, row_FLD_SET_HI, row_FLD_CMD, row_FLD_OFFS, row_FLD_TRIM, row_FLD_MSEQ, row_FLD_ORIG, row_FLD_ALARMCTL, row_FLD_ALARM_LO, row_FLD_ALARM_HI, row_FLD_EVQ, row_FLD_CNT]

/-- Registers of block KEY. -/
def regs_KEY : List RegDef := [row_KEY_CMD, row_KEY_ARG0, row_KEY_ARG1, row_KEY_RES, row_KEY_STAT, row_KEY_FCNTCEIL, row_KEY_RAND, row_KEY_UID_LO, row_KEY_UID_HI, row_KEY_CNT, row_KEY_CTR, row_KEY_SST, row_KEY_SATR, row_KEY_USED, row_KEY_LIMIT, row_KEY_CEIL, row_KEY_GEN]

/-- Registers of block AES. -/
def regs_AES : List RegDef := [row_AES_SUB, row_AES_STAT, row_AES_CNT]

/-- Registers of block SHA. -/
def regs_SHA : List RegDef := [row_SHA_CMD, row_SHA_ADDR, row_SHA_LEN, row_SHA_STAT, row_SHA_DIG]

/-- Registers of block LGR. -/
def regs_LGR : List RegDef := [row_LGR_ORIGIN, row_LGR_KEYS, row_LGR_APPEND, row_LGR_VERIFY, row_LGR_ARCH, row_LGR_HEAD, row_LGR_HSEQ, row_LGR_STAT, row_LGR_LOW, row_LGR_LOOK_LO, row_LGR_LOOK_HI, row_LGR_LOOKRES, row_LGR_DIRORG, row_LGR_DIRSEG, row_LGR_DIRVAL, row_LGR_DIRCMD, row_LGR_DIRUSED, row_LGR_CNT]

/-- Registers of block NFC. -/
def regs_NFC : List RegDef := [row_NFC_CTL, row_NFC_STAT, row_NFC_CMD, row_NFC_BUF, row_NFC_LEN, row_NFC_RXADDR, row_NFC_INV, row_NFC_SUID_LO, row_NFC_SUID_HI, row_NFC_INVN, row_NFC_TORN, row_NFC_CNT]

/-- Registers of block SVC. -/
def regs_SVC : List RegDef := [row_SVC_STAT, row_SVC_IMG, row_SVC_CMD, row_SVC_ARG, row_SVC_WHEN_LO, row_SVC_WHEN_HI, row_SVC_RES, row_SVC_VER, row_SVC_CNT]

/-- Registers of block HST. -/
def regs_HST : List RegDef := [row_HST_WINB, row_HST_WINC, row_HST_HFLG, row_HST_HEN, row_HST_DB, row_HST_STAT, row_HST_CNT]

/-- Registers of block I2C. -/
def regs_I2C : List RegDef := [row_I2C_CFG, row_I2C_CMD, row_I2C_DATA, row_I2C_STAT, row_I2C_CNT]

/-- Registers of block SPI. -/
def regs_SPI : List RegDef := [row_SPI_CFG, row_SPI_TXA, row_SPI_RXA, row_SPI_XFER, row_SPI_STAT]

/-- Registers of block UART. -/
def regs_UART : List RegDef := [row_UART_CFG, row_UART_DATA, row_UART_STAT, row_UART_CNT]

/-- Registers of block GPIO. -/
def regs_GPIO : List RegDef := [row_GPIO_IN, row_GPIO_OUT, row_GPIO_SET, row_GPIO_CLR]

/-- Registers of block FLN. -/
def regs_FLN : List RegDef := [row_FLN_CFG, row_FLN_STAT, row_FLN_FLT, row_FLN_CAUSE, row_FLN_FLTCNT]

/-- A peripheral block of Table 14.4: base, size, the field or die that holds it (0 AON, 1 control, 2 receive, 3 transmit,
4 link, 5 keep, 6 I/O, 7 RF die) and its registers. CHT, the child-table window, has no named registers here. -/
structure Block where
  name : String
  base : Nat
  size : Nat
  home : Nat
  regs : List RegDef
  deriving Repr

/-- Table 14.4: the peripheral blocks. TXM and SNS hold no register the spec gives (every offset unmapped, R15). -/
def blockTable : List Block := [
  ⟨"SYS", 0x40000000, 0x10000, 0, regs_SYS⟩,
  ⟨"CLK", 0x40010000, 0x10000, 0, regs_CLK⟩,
  ⟨"PWR", 0x40020000, 0x10000, 0, regs_PWR⟩,
  ⟨"SOW", 0x40030000, 0x10000, 1, regs_SOW⟩,
  ⟨"IRQ", 0x40040000, 0x10000, 1, regs_IRQ⟩,
  ⟨"HDL", 0x40050000, 0x10000, 1, regs_HDL⟩,
  ⟨"TMR", 0x40060000, 0x10000, 1, regs_TMR⟩,
  ⟨"RTC", 0x40070000, 0x10000, 0, regs_RTC⟩,
  ⟨"FLC", 0x40080000, 0x10000, 1, regs_FLC⟩,
  ⟨"CAL", 0x40090000, 0x10000, 1, regs_CAL⟩,
  ⟨"ERL", 0x400A0000, 0x10000, 1, regs_ERL⟩,
  ⟨"SEM", 0x400B0000, 0x10000, 1, regs_SEM⟩,
  ⟨"RFC", 0x40100000, 0x10000, 7, regs_RFC⟩,
  ⟨"SYN", 0x40110000, 0x10000, 7, regs_SYN⟩,
  ⟨"COX", 0x40120000, 0x10000, 7, regs_COX⟩,
  ⟨"DET", 0x40200000, 0x10000, 2, regs_DET⟩,
  ⟨"FUR", 0x40210000, 0x10000, 2, regs_FUR⟩,
  ⟨"DEC", 0x40220000, 0x10000, 2, regs_DEC⟩,
  ⟨"UNW", 0x40230000, 0x10000, 2, regs_UNW⟩,
  ⟨"MCX", 0x40240000, 0x10000, 2, regs_MCX⟩,
  ⟨"TXM", 0x40250000, 0x10000, 3, []⟩,
  ⟨"LNK", 0x40300000, 0x10000, 4, regs_LNK⟩,
  ⟨"CHT", 0x40310000, 0x10000, 4, []⟩,
  ⟨"FLD", 0x40320000, 0x10000, 4, regs_FLD⟩,
  ⟨"AES", 0x40400000, 0x10000, 5, regs_AES⟩,
  ⟨"KEY", 0x40410000, 0x10000, 5, regs_KEY⟩,
  ⟨"SHA", 0x40420000, 0x10000, 5, regs_SHA⟩,
  ⟨"LGR", 0x40430000, 0x10000, 5, regs_LGR⟩,
  ⟨"NFC", 0x40500000, 0x10000, 6, regs_NFC⟩,
  ⟨"SVC", 0x40510000, 0x10000, 6, regs_SVC⟩,
  ⟨"HST", 0x40520000, 0x10000, 6, regs_HST⟩,
  ⟨"I2C", 0x40530000, 0x2000, 6, regs_I2C⟩,
  ⟨"SPI", 0x40540000, 0x10000, 6, regs_SPI⟩,
  ⟨"UART", 0x40550000, 0x2000, 6, regs_UART⟩,
  ⟨"GPIO", 0x40560000, 0x10000, 6, regs_GPIO⟩,
  ⟨"FLN", 0x40570000, 0x1000, 7, regs_FLN⟩,
  ⟨"SNS", 0x40580000, 0x10000, 0, []⟩]

/-- The element of a register array that an address names, if any. -/
def RegDef.elem (r : RegDef) (a : Nat) : Option Nat :=
  if a < r.base then none else
  let o := a - r.base
  match r.dims with
  | [] => if o = 0 then some 0 else none
  | [(n, s)] => if o % s = 0 ∧ o / s < n then some (o / s) else none
  | (n, s) :: (m, t) :: _ =>
    if o / s < n ∧ o % s % t = 0 ∧ o % s / t < m then some (o / s * m + o % s / t) else none

/-- The block whose range holds an address (Table 14.4). -/
def blockAt (a : Nat) : Option Block := blockTable.find? (fun b => b.base ≤ a ∧ a < b.base + b.size)

/-- The register at an address, with the element number (R15: none where the offset holds no register). -/
def regAt (a : Nat) : Option (RegDef × Nat) :=
  match blockAt a with
  | none => none
  | some b => b.regs.findSome? (fun r => (r.elem a).map (fun i => (r, i)))

/-- The value a register has at reset, by address (0 where no register stands). -/
def regReset (a : Nat) : Word :=
  match regAt a with
  | none => 0
  | some (r, i) => BitVec.ofNat 32 (r.resets.getD i r.reset)

end Sys2Proof.Machine
end

