-- ==== Sys2Proof/Machine/Sparse.lean ====
section
/-! DEFINITION. Sparse tables in one canonical form: keys strictly rising and no entry equal to what an unlisted key reads
as, so that equal tables are equal lists. Memory (a list of `Host.Cell`), the register file and the per-unit tables of
State are all of this form. -/

namespace Sys2Proof.Machine

/-- What the table reads at key `k`: the listed value, or the default. -/
def sget {α : Type} (d : α) : List (Nat × α) → Nat → α
  | [], _ => d
  | (k, v) :: r, a => if a = k then v else sget d r a

/-- Put an entry before the first larger key. -/
def sinsert {α : Type} (k : Nat) (v : α) : List (Nat × α) → List (Nat × α)
  | [] => [(k, v)]
  | (k', v') :: r => if k < k' then (k, v) :: (k', v') :: r else (k', v') :: sinsert k v r

/-- Remove every entry of a key. -/
def serase {α : Type} (k : Nat) : List (Nat × α) → List (Nat × α)
  | [] => []
  | (k', v') :: r => if k' = k then serase k r else (k', v') :: serase k r

/-- Write a value: the entry is removed when the value is the one an unlisted key reads as. -/
def sset {α : Type} [DecidableEq α] (d : α) (m : List (Nat × α)) (k : Nat) (v : α) : List (Nat × α) :=
  if v = d then serase k m else sinsert k v (serase k m)

/-- The keys rise strictly, from a lower bound on. -/
def srising {α : Type} : Nat → List (Nat × α) → Bool
  | _, [] => true
  | lo, (k, _) :: r => decide (lo ≤ k) && srising (k + 1) r

/-- Canonical form of a table whose unlisted keys read as `d k`. -/
def swf {α : Type} [DecidableEq α] (d : Nat → α) (m : List (Nat × α)) : Bool :=
  srising 0 m && m.all (fun p => decide (p.2 ≠ d p.1))

end Sys2Proof.Machine
end

