-- ==== Sys2Proof/Machine/State.lean ====
section
/-! DEFINITION. The state of the KX1024: every register (one sparse register file keyed by bus address, `RegMap` giving
names, fields and reset values), memory, and everything the spec gives the device that no register shows. Plain data.

Tables of like units are sparse lists in canonical form (`sget`, `sset`, `swf`): a key that is not listed reads as the
default of its table, which is its reset value. -/

namespace Sys2Proof.Machine

/-! ### Cores (chapters 13 and 14) -/

/-- What a core holds beside its run state in SYS_CORESTAT (R259, Table 13.10, R274, R294, R329). -/
structure CoreSt where
  /-- G0 to G15 -/
  g        : Vector Word 16
  pc       : Word
  fl       : Word
  vbase    : Word
  epc      : Word
  efl      : Word
  ecause   : Word
  eaddr    : Word
  esyn     : Word
  /-- CYCLE, 64 bits (Table 13.10) -/
  cycle    : Word64
  /-- CYCLE_HI as latched by a read of CYCLE_LO -/
  cycleHi  : Word
  /-- the reservation of LDX: the 64-byte granule's number -/
  resv     : Option Nat
  /-- stopped by a double fault and not restarted since (R298) -/
  dbl      : Bool
  /-- the priority stack of R327, top first: source and priority -/
  stk      : List (Nat × Nat)
  /-- an expired core keeps this mark from SYS_CORERST until its restart (R287) -/
  draining : Bool
  /-- RTC_T_HI latched by a read of RTC_T_LO (R362) -/
  rtcHi    : Word
  /-- FLD_MESH_HI latched by a read of FLD_MESH_LO (R216) -/
  meshHi   : Word
  /-- calendar freeze of R362: RTC_TIME and RTC_DATE of one instant, while frozen -/
  cal      : Option (Word × Word)
  /-- the error-log entry latched by a read of ERL_ENT[0]: its identity and its ten words (R448) -/
  erl      : Option (Nat × List Word)
  deriving DecidableEq, Repr

/-- State of a line in a first-level data cache (Table 14.6); a line that is not listed is invalid. -/
inductive Mesi where
  | m | e | s
  deriving DecidableEq, Repr

/-- First-level caches of a core (R291 to R294), by line number, the last line used first: data lines with their states, instruction lines, and the
writeback buffer with the void marks. What they hold is what memory shows, so the content is kept there. -/
structure CacheSt where
  data : List (Nat × Mesi)
  insn : List Nat
  wb   : List (Nat × Bool)
  deriving DecidableEq, Repr

def CacheSt.init : CacheSt := ⟨[], [], []⟩

/-- The reset state of a core (R259); PC is set by the entry that follows. -/
def CoreSt.init : CoreSt where
  g := Vector.replicate 16 0
  pc := 0x10000000
  fl := 0
  vbase := 0
  epc := 0
  efl := 0
  ecause := 0
  eaddr := 0
  esyn := 0
  cycle := 0
  cycleHi := 0
  resv := none
  dbl := false
  stk := []
  draining := false
  rtcHi := 0
  meshHi := 0
  cal := none
  erl := none

/-- The holder of a lock cell (R296 to R298). -/
inductive Lock where
  | free
  | held (c : Nat)
  | orphaned (c : Nat)
  deriving DecidableEq, Repr

/-! ### Interrupts, headland, error log, timers (chapters 16, 17, 18, 24) -/

/-- A report on its way to the error log (R444). `at` orders reports by the cycle in which they were raised. -/
structure Report where
  blk    : Nat
  unit   : Nat
  code   : Nat
  detail : Word
  extra  : List Word
  stamp  : Nat
  deriving DecidableEq, Repr

/-- An entry of the error log (Table 24.4); `id` tells entries apart for the latch of R448. -/
structure ErlEntry where
  id     : Nat
  blk    : Nat
  unit   : Nat
  code   : Nat
  detail : Word
  first  : Nat
  rep    : Nat
  last   : Nat
  extra  : List Word
  deriving DecidableEq, Repr

/-- The hidden part of a general timer (R346, R350, R352): prescaler remainder, armed compares and staged low words. -/
structure TmrSt where
  pre   : Nat
  arm0  : Bool
  arm1  : Bool
  loCnt : Option Nat
  loPer : Option Nat
  lo0   : Option Nat
  lo1   : Option Nat
  /-- a period end has come and has not taken its effects (R347) -/
  per   : Bool
  /-- one more than the cycle of the last: write of the count, write of TMR_CTL, stop by an event, stop by a write, capture, and first change
  of the count in its cycle, with the count at the start of that cycle (R348, R349) -/
  cntWr  : Nat
  ctlWr  : Nat
  evStop : Nat
  wrStop : Nat
  capAt  : Nat
  oldAt  : Nat
  old    : Nat
  deriving DecidableEq, Repr

def TmrSt.init : TmrSt := ⟨0, false, false, none, none, none, none, false, 0, 0, 0, 0, 0, 0, 0⟩

/-- The hidden part of an always-on timer (R356, R357): writes that wait for the next edge, and a start that will load. -/
structure AtSt where
  ctl   : Option Word
  load  : Option Word
  start : Bool
  /-- the count has reached 0 and the expiry has not taken its effects (R356) -/
  exp   : Bool
  /-- WAKE as it stood at the last expiry (R357) -/
  wake  : Bool
  deriving DecidableEq, Repr

def AtSt.init : AtSt := ⟨none, none, false, false, false⟩

/-- Hidden time-keeping state (R198, R200, R358 to R363). -/
structure ClockSt where
  /-- cycles of 122.88 MHz since the model's start: the model's own time axis -/
  cyc      : Nat
  /-- mesh time (R197), 64 bits, and its 32-bit fraction (R198) -/
  mesh     : Word64
  frac     : Nat
  /-- ticks of a slew still to be applied, signed (R200) -/
  slew     : Int
  /-- fraction of the slew rate already spent -/
  slewFrac : Nat
  /-- the counter is held by the FALLBACK rule of R359 -/
  meshHold : Bool
  /-- RTC_T's fraction (R358) -/
  rtcFrac  : Nat
  /-- F of R358 in 2^-32 tick per edge, signed -/
  rtcF     : Int
  /-- RTC advance of the last 32.768 kHz edge, in ticks (R358, R352) -/
  rtcAdv   : Nat
  /-- a temperature sample has been taken since POR -/
  tempOk   : Bool
  /-- ACCPPM of a crystal in use and compensated, as the last sample gives it (R360) -/
  accComp  : Nat
  /-- the crystal has stopped and the switch to the substitute clock waits for its aligned edge (R57) -/
  lfPend   : Bool
  /-- the calendar count K at the last judgement of the periodic tick (R364) -/
  lastK    : Nat
  /-- a failure episode of the reference is open (R54) -/
  episode  : Bool
  /-- the root PLL has locked to the TCXO since the last system reset (R54) -/
  rootUp   : Bool
  /-- root-derived domains are stopped (R55, R56) -/
  stopped  : Bool
  /-- a RESTORE is relocking (R56) -/
  restoring : Bool
  deriving DecidableEq, Repr

def ClockSt.init : ClockSt where
  cyc := 0
  mesh := 0
  frac := 0
  slew := 0
  slewFrac := 0
  meshHold := false
  rtcFrac := 0
  rtcF := 0
  rtcAdv := 3750
  tempOk := false
  accComp := 240
  lfPend := false
  lastK := 0
  episode := false
  rootUp := false
  stopped := false
  restoring := false

/-! ### Supply, reset, power states and sowing (chapters 1, 2, 4, 19) -/

/-- The pin conditions of Table 1.4. -/
inductive PinCond where
  | unpowered | inReset | notSown | sown
  deriving DecidableEq, Repr

/-- Steps of start-up (Table 2.13). -/
inductive Phase where
  | held        -- dies in reset
  | rails       -- dies out of power-on reset, the root PLL not yet locked
  | locked      -- root PLL locked, links trained
  | running     -- the baseband reset is released
  deriving DecidableEq, Repr

/-- An entry to a power state in progress (R371). -/
structure PwrEntry where
  target : Nat
  agreed : List Nat
  /-- true while a LISTEN window closes rather than a state being entered -/
  window : Bool
  deriving DecidableEq, Repr

/-- Hidden power state: reset sources held, VIN low, inter-die links, reservations, monitor samples, entries. -/
structure PowerSt where
  phase     : Phase
  pins      : PinCond
  /-- the RF die's own lines: driven only after the plan is sown and while the die is not reset or isolated (R25) -/
  femDriven : Bool
  brownOut  : Bool
  thermal   : Bool
  pinLow    : Bool
  vioB      : Option Nat
  rfIso     : Bool
  flIso     : Bool
  rfFail    : Nat
  flFail    : Nat
  rfReset   : Bool
  flReset   : Bool
  /-- reservations held (R40): key of the holder and milliwatts -/
  resv      : List (Nat × Nat)
  /-- last 100 samples of the input monitor (R43), newest first -/
  mon       : List Nat
  /-- fields powered, one bit each in the order of Table 4.6 -/
  fields    : Nat
  entry     : Option PwrEntry
  /-- a wake in progress: the fields that have powered up with it, one bit each -/
  waking    : Option Nat
  /-- the device is OFF: the wake logic alone has power (Table 19.2) -/
  off       : Bool
  /-- clock domains gated by the Idle rule (R52), by domain number -/
  gated     : List (Nat × Bool)
  /-- levels that sown outputs hold while the I/O field is unpowered (R24): balls 0 to 47 GPIO, 48 HST_IRQ, 49 COEX_REQ, 50 COEX_PRI -/
  padHeld   : Option (List (Nat × Bool))
  /-- the cycle in which the last system reset began, by which sources of one cycle are told (R47) -/
  rstCyc    : Option Nat
  /-- the RF die's registers await the sections of the plan in force (R25) -/
  rfStale   : Bool
  /-- the core whose change of level runs (R367) -/
  lvlRun    : Option Nat
  /-- the mesh time at which the LISTEN window of PERIOD_MS that is open has opened (R375) -/
  winAt     : Option Nat
  /-- the expectation window in which a frame of the parent has committed: LASTSEEN and its number (R193) -/
  heard     : Option (Nat × Nat)
  /-- the boot extension runs on C0: the address in the boot ROM to which it returns (R420) -/
  extRet    : Option Word
  /-- the boot extension has returned (R420) -/
  extDone   : Bool
  deriving DecidableEq, Repr

def PowerSt.init : PowerSt where
  phase := .held
  pins := .inReset
  femDriven := false
  brownOut := true
  thermal := false
  pinLow := false
  vioB := none
  rfIso := false
  flIso := false
  rfFail := 0
  flFail := 0
  rfReset := false
  flReset := false
  resv := [(0, 300)]
  mon := []
  fields := 0x7F
  entry := none
  waking := none
  off := false
  gated := []
  padHeld := none
  rstCyc := none
  rfStale := false
  lvlRun := none
  winAt := none
  heard := none
  extRet := none
  extDone := false

/-- One section of a plan: TYPE, INST and the body's bytes (Table 4.2). -/
structure Section where
  typ  : Nat
  inst : Nat
  body : List Byte
  deriving DecidableEq, Repr

/-- A parsed plan: what SOW needs of its header, and its sections. -/
structure Plan where
  seq     : Nat
  baseSeq : Nat
  drainMs : Nat
  planId  : List Byte
  digest  : List Byte
  addr    : Nat
  secs    : List Section
  deriving DecidableEq, Repr

/-- Sowing state (R71 to R78). -/
structure SowSt where
  /-- sections of the plan in force -/
  force     : List Section
  /-- the plan in force was sown from general SRAM (R370) -/
  fromSram  : Bool
  staged    : Option Plan
  /-- address under verification, and what STATE was before -/
  verifying : Option (Nat × Nat)
  /-- chains whose drain runs, and chains whose channelizer reloads or detector has not resumed -/
  draining  : List Nat
  reloading : List Nat
  resuming  : List Nat
  /-- measurements of VIO_B left to a start-up sowing that waits for it, and where its plan lies (R66) -/
  viobWait  : Option (Nat × Nat)
  /-- sections that wait for the end of a transmission (COEX, RADIO) -/
  waiting   : List Section
  /-- image slots the boot choice has still to try while its sowing waits for VIO_B, the one that waits first (R66, R420) -/
  bootLeft  : List Nat
  deriving DecidableEq, Repr

def SowSt.init : SowSt := ⟨[], false, none, none, [], [], [], none, [], []⟩


/-! ### Radio front end (chapter 5) -/

/-- A part of an SC frame (R103): the up-chirp of a value, or the first samples of the down-chirp. -/
inductive Chirp where
  | up (k : Nat)
  | down (samples : Nat)
  deriving DecidableEq, Repr

/-- A frame as it goes on the air: nothing built, an SC frame's chirps (R103), or an MC frame's header word and data bits (R118, R119). -/
inductive Air where
  | none
  | sc (parts : List Chirp)
  | mc (hdr : Nat) (bits : List Bool)
  deriving DecidableEq, Repr

/-- Who handed a transmission to the gate. -/
inductive TxReq where
  /-- TX_ARM: no requester within the model -/
  | direct
  /-- a transmit descriptor, by its identity -/
  | desc (id : Nat)
  /-- an acknowledgement, by the source and SEQ it answers, and its child-table entry -/
  | ack (src seq entry : Nat)
  /-- the response bound to a poll, by child-table entry and pool index -/
  | response (entry idx : Nat)
  /-- a beacon -/
  | beacon
  deriving DecidableEq, Repr

/-- A transmission held by a chain, from arming to stop (R88). Times are in 1/25 of a cycle of 122.88 MHz (1 µs is 3,072). -/
structure TxRec where
  req    : TxReq
  cls    : Nat
  ent    : Nat
  khz    : Nat
  bHz    : Nat
  pwr    : Nat
  start  : Nat
  toa    : Nat
  sub    : Nat
  /-- duty bucket charged, and the on-time charged in µs -/
  bucket : Nat
  onUs   : Nat
  dwell  : Bool
  /-- temperature of the DRV correction in force at the arming (R383); none: the 25 °C correction -/
  drv    : Option Nat
  raised : Bool
  noGnt  : Bool
  trsw   : Bool
  paen   : Bool
  ramped : Bool
  /-- end code, once the ramp-down has begun -/
  code   : Nat
  /-- the link frame (as it goes on the air once the ramp has started), the key slot of a secured one, and the MODE byte, RATE
  byte and preamble of its descriptor -/
  frame  : List Byte
  slot   : Option Nat
  mode   : Nat
  rate   : Nat
  pre    : Nat
  /-- when the last sample left the port -/
  last   : Nat
  /-- sync word (R104), and what the port carries once the ramp has started -/
  sync   : Nat
  air    : Air
  deriving DecidableEq, Repr

/-- A dwell tracker (R90). -/
structure Tracker where
  khz   : Nat
  upto  : Nat
  used  : Nat
  deriving DecidableEq, Repr

/-- What the gate keeps for a chain (R87, R89 to R91); the history lies in the AON field. -/
structure GateSt where
  prof  : List Byte
  born  : Nat
  /-- on-time in µs per bucket and sub-band (key 8 × bucket + sub-band) -/
  used  : List (Nat × Nat)
  /-- end of the last transmission per sub-band -/
  ends  : List (Nat × Option Nat)
  track : List Tracker
  /-- the hold of POR_HOLD_S and the RTC_T at which it began -/
  hold  : Bool
  holdT : Nat
  deriving DecidableEq, Repr

def GateSt.init : GateSt := ⟨[], 0, [], [], [], true, 0⟩

/-- Hidden state of a receive chain (R80, R81): powered and locking; windows since the last gain step, up to 4; the window under way holds a
blanked sample. -/
structure RxSt where
  locking : Bool
  since   : Nat
  blk     : Bool
  deriving DecidableEq, Repr

def RxSt.init : RxSt := ⟨false, 4, false⟩

/-! ### Furrows, MC demodulators, decoders and capture slots (chapters 7 and 8) -/

/-- A furrow (units 0 to 1,023) or an MC demodulator (units 1,024 and 1,025) and the packet it carries. -/
structure Rcv where
  /-- code of Table 7.2; an MC demodulator's FREE is SEARCH or OFF -/
  state  : Nat
  chain  : Nat
  ch     : Nat
  b      : Nat
  e      : Nat
  bin    : Nat
  power  : Nat
  /-- mesh time at the end of the candidate's last window (R122) -/
  time   : Nat
  /-- the capture slot whose recording is replayed -/
  reent  : Option Nat
  /-- 0 preamble, 1 first sync symbol taken, 2 both taken -/
  step   : Nat
  weak   : Nat
  pre    : Nat
  hi     : Nat
  word   : Nat
  rssi   : Nat
  snr    : Nat
  foff   : Nat
  drift  : Nat
  /-- the trackers (R135): frequency offset, drift, and the timing extrapolated at the drift, in 0.25 ppm of a symbol -/
  trkF   : Nat
  trkD   : Nat
  trkT   : Int
  tsync  : Nat
  /-- t_sync in the time of `TxRec` -/
  syncU  : Nat
  hdr    : Nat
  hsym   : Nat
  psym   : Nat
  /-- symbols that came before the header returned: soft values, faded, marked, frequency offset, drift -/
  raw    : List (List Byte × Bool × Bool × Nat × Nat)
  /-- equalised chirps of an MC frame's symbols that came before the header returned: noise, faded, marked, drift -/
  mcRaw  : List (List Cx × Nat × Bool × Bool × Int)
  /-- summed header soft values of an MC frame -/
  hacc   : List Int
  early  : Bool
  addr   : Bool
  /-- what block 0 gave: converged or not -/
  blk0   : Option Bool
  /-- payload blocks handed over, and those not returned -/
  handed : Nat
  out    : Nat
  fade   : Nat
  blank  : Nat
  low    : Nat
  iter   : Nat
  bad    : Nat
  agc    : Bool
  cal    : Bool
  /-- the symbol under way holds a gain step (R136) -/
  step1  : Bool
  /-- of a replay: sample of the recording at which its next symbol begins (R167) -/
  rpos   : Nat
  /-- of a furrow in FREE: one more than the cycle in which it was freed (R127) -/
  freed  : Nat
  /-- the last symbol has been demodulated -/
  ended  : Bool
  /-- an MC frame's channel estimate and noise (R142), the pilot sum of its last symbol and the change of its phase (R143) -/
  chan   : List Cx
  nu     : Nat
  pil    : Cx
  rot    : Cx
  /-- blocks returned while tentative: decoder (10: expired, 11: unserved), iterations, converged (R156) -/
  tally  : List (Nat × Nat × Bool)
  status : Nat
  rpt    : Nat
  /-- end of the frame's last symbol, in the time of `TxRec` -/
  tEnd   : Nat
  deriving DecidableEq, Repr

def Rcv.init : Rcv where
  state := 0
  chain := 0
  ch := 0
  b := 0
  e := 5
  bin := 0
  power := 0
  time := 0
  reent := none
  step := 0
  weak := 0
  pre := 0
  hi := 0
  word := 0
  rssi := 0
  snr := 0
  foff := 0
  drift := 0
  trkF := 0
  trkD := 0
  trkT := 0
  tsync := 0
  syncU := 0
  hdr := 0
  hsym := 0
  psym := 0
  raw := []
  mcRaw := []
  hacc := []
  early := false
  addr := false
  blk0 := none
  handed := 0
  out := 0
  fade := 0
  blank := 0
  low := 0
  iter := 0
  bad := 0
  agc := false
  cal := false
  step1 := false
  rpos := 0
  freed := 0
  ended := false
  chan := []
  nu := 0
  pil := (0, 0)
  rot := (0, 0)
  tally := []
  status := 0
  rpt := 0
  tEnd := 0

/-- An LDPC block in the pool (Table 8.1): its unit, whether it is the header block, its index, its class. -/
structure Blk where
  unit   : Nat
  hdr    : Bool
  idx    : Nat
  urgent : Bool
  since  : Nat
  deriving DecidableEq, Repr

/-- A block under decode: the limits in force at its grant (R152), and whether it has been cancelled (R133). -/
structure Job where
  blk   : Blk
  imax  : Nat
  stall : Nat
  live  : Bool
  /-- cycle of the grant, and the requester served before it (R153) -/
  since : Nat
  last  : Nat
  deriving DecidableEq, Repr

/-- A capture slot (R161 to R169). Class: 0 none, 1 KNOWN, 2 TARGET, 3 UNWANTED. -/
structure Slot where
  state   : Nat
  outcome : Nat
  chain   : Nat
  ch      : Nat
  b       : Nat
  e       : Nat
  /-- pages of the pool held, in order -/
  pages   : List Nat
  furA    : Nat
  furB    : Option Nat
  furR    : Option Nat
  clsA    : Nat
  clsB    : Nat
  /-- furrow A had passed SYNC before the opening -/
  late    : Bool
  /-- mesh time of the end of each packet, once its header is known -/
  endA    : Option Nat
  endB    : Option Nat
  /-- the candidate's bin, time and summed power, and the first packet's -/
  bin     : Nat
  time    : Nat
  power   : Nat
  binA    : Nat
  timeA   : Nat
  powerA  : Nat
  /-- pages of `pages` written so far -/
  wrote   : Nat
  /-- the rebuilding of the known packet has begun (R165) -/
  begun   : Bool
  /-- what was copied of the KNOWN packet: header word, sync word, decoded bytes; RSSI, SNR, FOFF, DRIFT, TSYNC -/
  known   : Option (Nat × Nat × List Byte)
  est     : List Nat
  /-- the known packet rebuilt (R165), and the cancellation ratio of each of its symbols in 0.25 dB (R166) -/
  model   : List Chirp
  ratio   : List Nat
  /-- carrier offset in Hz and chip-rate offset in 0.25 ppm as fitted (R165) -/
  fitF    : Int
  fitD    : Int
  /-- mesh times of the gain steps of its chain while it records (R166, R380) -/
  steps   : List Nat
  /-- order of opening and of entering SUBTRACT -/
  serial  : Nat
  sub     : Nat
  deriving DecidableEq, Repr

def Slot.init : Slot where
  state := 0
  outcome := 0
  chain := 0
  ch := 0
  b := 0
  e := 5
  pages := []
  furA := 0
  furB := none
  furR := none
  clsA := 0
  clsB := 0
  late := false
  endA := none
  endB := none
  bin := 0
  time := 0
  power := 0
  binA := 0
  timeA := 0
  powerA := 0
  wrote := 0
  begun := false
  known := none
  est := []
  model := []
  ratio := []
  fitF := 0
  fitD := 0
  steps := []
  serial := 0
  sub := 0

/-- A record or a pad of the report ring (R159, R160): first granule, granules, given back, held by a verdict to come. -/
structure RingRec where
  base  : Nat
  len   : Nat
  freed : Bool
  held  : Bool
  pad   : Bool
  deriving DecidableEq, Repr


/-! ### Keys (chapter 11) -/

/-- A key slot (Table 11.5 and the plaintext of Table 11.3). -/
structure KSlot where
  state : Nat
  ktype : Nat
  keyid : Nat
  use   : Nat
  cores : Nat
  kname : Nat
  uctr  : Nat
  key   : List Byte
  used  : Nat
  ceil  : Nat
  limit : Nat
  gen   : Nat
  deriving DecidableEq, Repr

def KSlot.init : KSlot := ⟨0, 0, 0, 0, 0, 0, 0, [], 0, 0, 0, 0⟩

/-- A key-store command that runs (R221): its slot and OP, the result it will write, the slot that a load leaves, and whether a load has
begun, whose failure counts. -/
structure KeyRun where
  slot   : Nat
  op     : Nat
  arg0   : Nat
  arg1   : Nat
  /-- whether each record that a raise programs verifies -/
  outs   : List Bool
  /-- SLOW was 0 as the command began, so that its raises go on (R37) -/
  go     : Bool
  /-- the slot was not EMPTY -/
  full   : Bool
  /-- bank 2 programs for it -/
  prog   : Bool
  deriving DecidableEq, Repr

/-- A job of the AES engines: descriptor address, submitting core, and the engine once started. -/
structure AesJob where
  id     : Nat
  core   : Nat
  addr   : Nat
  engine : Option Nat
  slot   : Nat
  /-- what the job will write at its end: status, address and bytes -/
  status : Nat
  writes : List (Nat × List Byte)
  fault  : Option Nat
  /-- block operations left, and whether the job holds its engine or waits for its turn there (R235) -/
  left   : Nat
  live   : Bool
  deriving DecidableEq, Repr

/-- A SHA context: taken, intermediate hash, bytes hashed, partial block, and what the running operation will leave. -/
structure ShaCtx where
  taken : Bool
  h     : List Word
  n     : Nat
  part  : List Byte
  busy  : Nat
  bad   : Bool
  deriving DecidableEq, Repr

def ShaCtx.init : ShaCtx := ⟨false, [], 0, [], 0, false⟩


/-! ### Link sequencer and flood engine (chapters 9 and 10) -/

/-- Whose descriptor it is. -/
inductive DescOwner where
  | firmware
  | origination
  /-- a relay, by its cache index and the message it relays -/
  | relay (cache origin mseq : Nat)
  deriving DecidableEq, Repr

/-- An outstanding transmit descriptor (R185): its 32 bytes and its frame as read at the write. Stage 0 waits, 1 handed to the
gate, 2 awaits an acknowledgement. -/
structure Desc where
  id    : Nat
  owner : DescOwner
  body  : List Byte
  frame : List Byte
  stage : Nat
  tries : Nat
  /-- the cycle at which a back-off that runs ends (R186) -/
  back  : Option Nat
  deriving DecidableEq, Repr

/-- A queued descriptor of a child (R190). -/
structure QDesc where
  body  : List Byte
  frame : List Byte
  deriving DecidableEq, Repr

/-- A frame bound to a poll (R188): what its response takes from the acknowledgement, and that one's last sample. -/
structure Bound where
  entry : Nat
  idx   : Nat
  chain : Nat
  ent   : Nat
  mode  : Nat
  sync  : Nat
  last  : Option Nat
  deriving DecidableEq, Repr

/-- A transmission that awaits its acknowledgement (R187): the descriptor, or the child entry and pool index of a response (1,024 once that frame has
left its queue), the instant by which a t_sync must be latched, and whether it has passed. -/
structure Await where
  chain : Nat
  dst   : Nat
  seq   : Nat
  desc  : Option Nat
  entry : Nat
  idx   : Nat
  due   : Nat
  past  : Bool
  deriving DecidableEq, Repr

/-- A committed frame whose MIC result is awaited (R178, R182), with the child entry as it stood at the commit. -/
structure LFrame where
  unit   : Nat
  bytes  : List Byte
  entry  : Option Nat
  words  : List Word
  tsync  : Nat
  tEnd   : Nat
  commit : Nat
  rpt    : Nat
  chain  : Nat
  ch     : Nat
  b      : Nat
  e      : Nat
  sync   : Nat
  recov  : Bool
  /-- the verdict deadline has passed -/
  late   : Bool
  deriving DecidableEq, Repr

/-- A seen-message cache entry (R208). State: 0 free, 1 WAIT, 2 HOLD, 3 ARMED, 4 RELAYED, 5 SUPPRESSED, 6 NORELAY, 7 FAILED,
8 OWN. -/
structure CacheE where
  origin : Nat
  mseq   : Nat
  copies : Nat
  state  : Nat
  expiry : Nat
  /-- body in its relay buffer, the delay drawn in ms, and the instant of its expiry once it has passed -/
  body   : Option (List Byte)
  delay  : Nat
  upTo   : Nat
  /-- cycle in which the delay began (R210) -/
  since  : Nat
  deriving DecidableEq, Repr

def CacheE.init : CacheE := ⟨0, 0, 0, 0, 0, none, 0, 0, 0⟩

/-- Hidden state of the flood engine. -/
structure FloodSt where
  events   : List (List Word)
  /-- DEPTH and ACC of the last beacon received since the last system reset, by SRC (R201) -/
  beacons  : List (Nat × Option (Nat × Nat))
  /-- device time of the last applied sample (R200) -/
  lastAt   : Option Nat
  /-- mesh time of the link field's latest power-up (R214) -/
  start    : Nat
  /-- a SET has been applied (R201) -/
  wasSet   : Bool
  deriving DecidableEq, Repr

def FloodSt.init : FloodSt := ⟨[], [], none, 0, false⟩


/-! ### Flash controller (chapter 15), ledger (chapter 12), service port (chapter 22) -/

/-- A rotating window (R309 to R312). GAP is N − `back`. -/
structure Win where
  start    : Nat
  back     : Nat
  /-- erases since the last move (R310), in the AON field -/
  ecount   : Nat
  /-- substitution table: slot and physical index -/
  subst    : List (Nat × Nat)
  retired  : List Nat
  /-- SEQ of the last state record, the state sector in use and its next free word -/
  seq      : Nat
  sect     : Nat
  next     : Nat
  /-- copy-backs without a done record: slot and pool index -/
  copyback : List (Nat × Nat)
  /-- a move waits for SLOW to clear -/
  defer    : Bool
  deriving DecidableEq, Repr

def Win.init : Win := ⟨0, 0, 0, [], [], 0, 0, 0, [], false⟩

/-- A flash bank: the command under way (0 none), its requester, its sector or word in the full view, the window and logical
sector it names, and the last 64-byte line read with a correction (R318). -/
structure Bank where
  op   : Nat
  core : Nat
  addr : Nat
  log  : Option (Nat × Nat)
  last : Option Nat
  /-- one more than the cycle from which the erase may be suspended again, or, while it is suspended, of the last privileged request served -/
  mark : Nat
  /-- operations of an engine under way in the bank (R307) -/
  eng  : Nat
  deriving DecidableEq, Repr

def Bank.init : Bank := ⟨0, 0, 0, none, none, 0, 0⟩

/-- A queued ledger operation: 0 append, 1 verify, 2 archive; its core; its address or value. -/
structure LgrOp where
  kind : Nat
  core : Nat
  arg  : Nat
  deriving DecidableEq, Repr

/-- Sealed records whose words are not all verified: the records with their offsets, the descriptor that takes STATUS and whether it
takes ADDR too (an append) or the record is its receipt, and for a PUSH the new ARCHIVED. -/
structure LgrRun where
  recs : List (Nat × List Byte)
  desc : Option (Nat × Bool)
  push : Option Nat
  /-- its programming has begun, so that SLOW does not hold it (R37) -/
  began : Bool
  deriving DecidableEq, Repr

/-- Hidden state of the ledger engine. -/
structure LgrSt where
  queue   : List LgrOp
  /-- last durable record of the stream: its bytes (its chain value and OTIME follow) -/
  last    : Option (List Byte)
  run     : Option LgrRun
  /-- highest stream sector opened (log entry 29) -/
  opened  : Nat
  /-- offset of a record that a reset of the flash die left torn (R250, R313) -/
  torn    : Option Nat
  deriving DecidableEq, Repr

def LgrSt.init : LgrSt := ⟨[], none, none, 0, none⟩

/-- A directory entry (R254). -/
structure DirE where
  org   : Nat
  seg   : Nat
  peer  : Bool
  value : Nat
  deriving DecidableEq, Repr

/-- An open transfer (R413). -/
structure Xfer where
  slot   : Nat
  len    : Nat
  next   : Nat
  done   : Nat
  failed : Bool
  /-- buffers taken and not programmed: offset and data -/
  bufs   : List (Nat × List Byte)
  /-- programming of the oldest buffer has begun, so that SLOW does not hold it (R37) -/
  began  : Bool
  deriving DecidableEq, Repr

/-- Hidden state of the service port and image controller. -/
structure SvcSt where
  nonce   : Option (List Byte)
  fails   : Nat
  xfer    : Option Xfer
  /-- slots found good by CHECK and not touched since -/
  checked : List Nat
  /-- an ACCEPTED Oztis command that runs: TYPE and payload -/
  oz      : Option (Nat × List Byte)
  /-- TYPE and STATUS of the last ACCEPTED command -/
  last    : Nat × Nat
  /-- an SVC_CMD command that runs: OP and slot -/
  cmd     : Option (Nat × Nat)
  /-- the slot an activation is armed for, and the slot left by the last switch -/
  armed   : Option Nat
  prev    : Nat
  /-- SVC_ATN was low at reset release -/
  atn     : Bool
  /-- the twin has been chosen since the last system reset (R314) -/
  twin    : Bool
  /-- FREEZE of the last HALT (R415) -/
  freeze  : Bool
  /-- a core of a new image has stopped on a double fault: the fallback is due (R424) -/
  fall    : Bool
  /-- the slot whose BAD record waits for its bank (R424) -/
  bad     : Option Nat
  /-- the last response frame the port sent, from START to CRC -/
  resp    : List Byte
  /-- 32.768 kHz edges since the switch that awaits confirmation (R424) -/
  confN   : Nat
  deriving DecidableEq, Repr

def SvcSt.init : SvcSt := ⟨none, 0, none, [], none, (0, 0), none, none, 0, false, false, false, false, none, [], 0⟩

/-! ### Calibration (chapter 20) -/

/-- Hidden state of the calibration manager. Temperatures in 1/16 °C; kinds of stored records 2 CURVE, 3 SYNA, 4 SYNB. -/
structure CalSt where
  /-- temperature each stored entry was measured at, by 256 × chain + entry; none: the first reading to come -/
  measT : List (Nat × Option Int)
  /-- temperature of the gain correction in force and of the pending one, by chain -/
  gainT : List (Nat × Option Int)
  gainP : List (Nat × Option Int)
  /-- reading the DRV corrections in force were computed at (R383) -/
  drvT  : Option Nat
  /-- sector and SEQ of the copy in use of a kind -/
  use   : List (Nat × Option (Nat × Nat))
  /-- chains with an entry measured since their last store -/
  dirty : List Nat
  /-- kinds whose store has been commanded, and the kind a store in progress writes -/
  due   : List Nat
  store : Option Nat
  /-- cycle of the last store of a kind since the system reset (R386) -/
  saved : List (Nat × Option Nat)
  /-- the records have been read since the system reset (R385) -/
  loaded : Bool
  deriving DecidableEq, Repr

def CalSt.init : CalSt := ⟨[], [], [], none, [], [], [], none, [], false⟩


/-! ### Contactless controller (chapter 21) -/

/-- Hidden state of the contactless controller and of the inspection engine. -/
structure NfcSt where
  /-- the reader command that runs: 0 none, 1 CARRIER_ON, 3 SEND, 4 INVENTORY -/
  op    : Nat
  /-- the inventory FIFO, oldest first -/
  fifo  : List Nat
  /-- as a responder: QUIET, the slot under way, the slot drawn, and the CRC of its reply in the slot just ended -/
  quiet : Bool
  slot  : Nat
  drawn : Option Nat
  reply : Option Nat
  /-- a request awaits firmware (R400) -/
  wait  : Bool
  /-- a NOTE is programming: its mailbox slot and its 64 bytes -/
  note  : Option (Nat × List Byte)
  /-- the reader's field has gone since the NOTE came, so that nobody awaits its answer -/
  mute  : Bool
  /-- the frames the last command put on the air -/
  out   : List (List Byte)
  /-- cycle in which the head's carrier last came on, and in which it last went off (R392) -/
  carOn : Nat
  carOff : Option Nat
  deriving DecidableEq, Repr

def NfcSt.init : NfcSt := ⟨0, [], false, 0, none, none, false, none, false, [], 0, none⟩


/-! ### Host port and sensor buses (chapter 23) -/

/-- An I²C controller: its FIFOs, the command under way as written, the bytes it has moved, whether the bus is still held after a
transfer without STOP, and the bytes sent by the command under way or the last one. -/
structure I2cSt where
  tx   : List Byte
  rx   : List Byte
  cmd  : Option Word
  n    : Nat
  rep  : Bool
  sent : List Byte
  deriving DecidableEq, Repr

def I2cSt.init : I2cSt := ⟨[], [], none, 0, false, []⟩

/-- The SPI controller: the transfer under way as written, the chip select held past an end, the bytes the last transfer sent. -/
structure SpiSt where
  xfer : Option Word
  held : Option Nat
  sent : List Byte
  deriving DecidableEq, Repr

def SpiSt.init : SpiSt := ⟨none, none, []⟩

/-- A UART: its FIFOs, the byte being sent, and the level of CTS. -/
structure UartSt where
  tx  : List Byte
  rx  : List Byte
  sh  : Option Byte
  cts : Bool
  deriving DecidableEq, Repr

def UartSt.init : UartSt := ⟨[], [], none, true⟩

/-- The host port: HERR of its status, and the bytes its last frame drove. -/
structure HostSt where
  herr : Bool
  out  : List Byte
  /-- the cycle of the last frame: HST_CS is low in it (R432) -/
  csAt : Option Nat
  deriving DecidableEq, Repr

def HostSt.init : HostSt := ⟨false, [], none⟩


/-! ### The device and the state -/

/-- Everything the device holds; the command queue stands beside it in `State`. -/
structure Dev where
  /-- the register file: bus address and value; an unlisted register reads its reset value -/
  regs : List (Nat × Word)
  /-- memory: address in its stored form and byte -/
  mem : List Host.Cell
  /-- stored check-bit errors of RAM words (R446): word address, 1 single-bit, 2 uncorrectable -/
  memErr : List (Nat × Nat)
  /-- the cores C0 to C3, L0, L1, K0 -/
  cores : Vector CoreSt 7
  /-- first-level caches by core (R291 to R294) -/
  caches : List (Nat × CacheSt)
  /-- lines of the L2 carve, the last used first, with their dirty marks (R291 to R293) -/
  carve : List (Nat × Bool)
  /-- the lock cells of SEM (R296) -/
  locks : List (Nat × Lock)
  /-- the boot ROM has hidden itself (R286) -/
  romHidden : Bool
  /-- cores in the order of their last LOWPRI acknowledge, least recent first (R327) -/
  lpOrder : List Nat
  /-- asynchronous latches of R326 -/
  asyncL : List (Nat × Bool)
  /-- sources driven from outside the device whose level has not been sampled since the control field powered up (R326) -/
  irqNew : List (Nat × Bool)
  /-- one-cycle conditions of interrupt sources not yet sampled (R324) -/
  irqPulse : List (Nat × Bool)
  /-- what each headland channel's producer drives (R334) -/
  chRaw : List (Nat × Bool)
  /-- one more than the cycle in which each headland channel last showed a pulse (R334) -/
  chPuls : List (Nat × Nat)
  /-- pulse producers' events that have not reached their channel: code, and the cycle they were raised in (R337) -/
  hdlPend : List (Nat × Nat)
  /-- one more than the cycle in which each pulse producer last raised an event (R334) -/
  hdlLast : List (Nat × Nat)
  /-- one more than the cycle in which an event of each pulse producer last reached its channel (R334) -/
  hdlDone : List (Nat × Nat)
  /-- one more than the cycle of the last rising edge of what each channel's producer drives (R334) -/
  chRose : List (Nat × Nat)
  /-- one more than the last cycle in which each gated channel was seen at 1 as something changed (R341) -/
  gateOn : List (Nat × Nat)
  /-- groups that the next cycle enables, a mask (R340) -/
  grpOn : Nat
  /-- groups that the next cycle disables, a mask (R340) -/
  grpOff : Nat
  /-- one more than the cycle of the last lost report (R447) -/
  erlCyc : Nat
  /-- one more than the cycle in which each field line was last declared at fault (R31) -/
  fltCyc : List (Nat × Nat)
  /-- cycles for which each logic cell's L has differed from O (R338) -/
  cellCnt : List (Nat × Nat)
  /-- one more than the cycle of the swap that changed each logic cell (R343) -/
  lutSwap : List (Nat × Nat)
  /-- when each hold-off timer that runs expires, in 1/25 cycle (R331) -/
  holdDue : List (Nat × Nat)
  /-- requests that have reached a block which has agreed to a power state, and wait (R371) -/
  parked : List Instr
  /-- reports that wait at their producers (R444) -/
  waiting : List Report
  /-- the error log, oldest first (R445) -/
  erlFifo : List ErlEntry
  /-- identity of the next error-log entry -/
  erlNext : Nat
  /-- hidden part of the general timers -/
  tmr : List (Nat × TmrSt)
  /-- hidden part of the always-on timers -/
  aont : List (Nat × AtSt)
  /-- time keeping -/
  clk : ClockSt
  /-- supply, reset and power states -/
  pwr : PowerSt
  /-- sowing -/
  sow : SowSt
  /-- what the last register read by a command returned: the read data of the bus (log entry 7); not the spec's -/
  rdata : Word
  /-- clear-channel assessments that end in this cycle and wait for its arrivals: chain, mean powers (R179, R186) -/
  ccaHeld : List (Nat × Int × Int)
  /-- balls whose function a re-sowing has changed and that hold their level until it first drives them (Table 4.20) -/
  padHold : List (Nat × Bool)
  /-- the transmission each transmit chain holds (R88) -/
  txs : List (Nat × Option TxRec)
  /-- regulatory gate: loaded profile, duty, dwell, ends, hold (R87 to R91) -/
  gates : List (Nat × GateSt)
  /-- profiles copied at the validation of a RADIO section (R87) -/
  profStaged : List (Nat × List Byte)
  /-- hidden part of the receive chains -/
  rx : List (Nat × RxSt)
  /-- the level driven on ANT_SEL before polarity (R93) -/
  antSel : Bool
  /-- calibration-store entries queued (R85): 256 × chain + entry -/
  calQ : List Nat
  /-- the entry each transmit synthesiser is measuring (R382) -/
  calMeas : List (Nat × Option Nat)
  /-- detector runs: the last windows of each track, newest first (R122) -/
  detRun : List (Nat × List (List Nat))
  /-- furrows 0 to 1,023 and MC demodulators 1,024 and 1,025 (R130, R144) -/
  rcv : List (Nat × Rcv)
  /-- blocks queued for the decoder pool, oldest first (R151) -/
  decQ : List Blk
  /-- blocks under decode, by decoder -/
  decBusy : List (Nat × Option Job)
  /-- one more than the cycle in which each decoder was last freed (R153) -/
  decFreed : List (Nat × Nat)
  /-- last requester served, 0 DS, 1 DL (R151) -/
  decLast : List (Nat × Nat)
  /-- capture slots (R161) -/
  slots : List (Nat × Slot)
  /-- order number of the next slot opened or subtracted -/
  slotSeq : Nat
  /-- records and pads of the report area, oldest first (R159) -/
  ring : List RingRec
  /-- CAL_TEMP holds a reading (R378) -/
  calSeen : Bool
  /-- fuse words 0 to 50 as resolved at the last reset (R449) -/
  fuse : List (Nat × Word)
  /-- the fuse words have been read (R449) -/
  fuseRead : Bool
  /-- fuse words whose two reads differed -/
  fuseBad : List Nat
  /-- REVOKE bits blown by REVOKE (R219) -/
  blown : Nat
  /-- key slots (R222) -/
  kslots : List (Nat × KSlot)
  /-- the key-store command that runs (R221) -/
  keyPend : Option KeyRun
  /-- the access of K0 under way has met a flash that is starting up (R313) -/
  k0Wait : Bool
  /-- the boot ROM has loaded its keys since the last system reset (R222, R231) -/
  bootKeyed : Bool
  /-- persistent counters not read since the last system reset (R228) -/
  ctrLeft : List Nat
  /-- persistent counters whose repair failed at the last system reset (R228) -/
  ctrBad : List Nat
  /-- flash words not valid at a margin: bit 0 raised reference, bit 1 lowered (R227, R308) -/
  flWeak : List (Nat × Nat)
  /-- AES jobs outstanding, oldest first (R236) -/
  aesJobs : List AesJob
  /-- identity of the next AES job -/
  aesSeq : Nat
  /-- the core whose firmware job was granted last (R235) -/
  aesLast : Nat
  /-- hidden part of the SHA contexts (R240) -/
  shaCtx : List (Nat × ShaCtx)
  /-- child table: 8 × entry + word (Table 9.11) -/
  cht : List (Nat × Word)
  /-- outstanding transmit descriptors, oldest first -/
  descs : List Desc
  /-- identity of the next descriptor -/
  descSeq : Nat
  /-- completion FIFO, oldest first: TAG, status, code (R185) -/
  comps : List (Nat × Nat × Nat)
  /-- verdict FIFO, oldest first (R184) -/
  vq : List (List Word)
  /-- pool of queued descriptors (R190) -/
  qpool : List (Nat × Option QDesc)
  /-- each child's queue: pool indices, first first -/
  queues : List (Nat × List Nat)
  /-- deferred queue operations, oldest first: entry, OP, argument -/
  deferred : List (Nat × Nat × Nat)
  /-- frames bound to polls -/
  bound : List Bound
  /-- transmissions that await their acknowledgement -/
  awaits : List Await
  /-- committed frames whose MIC result is awaited, oldest first -/
  frames : List LFrame
  /-- units whose verdict deadline passed before DONE (R182) -/
  lateU : List Nat
  /-- windows that have closed since the last contact, by child-table entry (R192) -/
  winSeen : List (Nat × Nat)
  /-- entries whose window has closed while a frame latched within it has still to end (R179, R192) -/
  winWait : List Nat
  /-- an entry has newly become LOST since the last acknowledge of source 1,026 -/
  lostEvt : Bool
  /-- next link sequence number of this head (R211) -/
  linkSeq : Nat
  /-- relays whose delay has run out, which wait for the arrivals of their cycle (R210, R179) -/
  relayHeld : List Nat
  /-- seen-message cache (R208) -/
  cache : List (Nat × CacheE)
  /-- hidden state of the flood engine -/
  fld : FloodSt
  /-- rotating windows of the flash (R309) -/
  wins : List (Nat × Win)
  /-- flash banks -/
  banks : List (Nat × Bank)
  /-- bits in error of a flash word, by word number (R317) -/
  flErr : List (Nat × List Nat)
  /-- flag cells set, by package sector number (R313) -/
  flFlag : List Nat
  /-- hidden repair row of each bank: bit lines repaired (R320) -/
  flRow : List (Nat × List Nat)
  /-- ledger engine -/
  lgr : LgrSt
  /-- ledger directory, by set, most recently used first (R254) -/
  dir : List (Nat × List DirE)
  /-- service port and image controller -/
  svc : SvcSt
  /-- calibration manager -/
  cal : CalSt
  /-- contactless controller -/
  nfc : NfcSt
  /-- I²C controllers -/
  i2c : List (Nat × I2cSt)
  /-- SPI controller -/
  spi : SpiSt
  /-- UARTs -/
  uart : List (Nat × UartSt)
  /-- host port -/
  host : HostSt
  /-- the model's own counter of free values drawn (log entry 3); not the spec's -/
  freeCtr : Nat
  deriving DecidableEq, Repr

/-- The state of the model: the device and the commands that wait, first in, first out. -/
structure State where
  dev     : Dev
  pending : List Instr
  deriving DecidableEq, Repr

/-- Reasons to stop with a fault. No meaning of this model answers with one: every command of the table has an effect the
spec gives, and bus faults, exceptions and refused commands are next states. -/
inductive Fault where
  /-- Kept so that the type is not empty; raised by nobody. Safe. -/
  | unused
  deriving DecidableEq, Repr

/-- Reasons to refuse. -/
inductive Refusal where
  /-- Raised by an arm of `exec` whose command has no meaning in the model yet. Safe: the machine stops. -/
  | notModelled (mnemonic : String)
  deriving DecidableEq, Repr

/-- The device right after a power-on reset: every register at its reset value (none listed), memory with nothing listed,
C0 and K0 at the boot ROM (R286), every table empty (log entry 1 for what the spec leaves open). -/
def Dev.reset : Dev where
  regs := []
  mem := []
  memErr := []
  cores := Vector.replicate 7 CoreSt.init
  caches := []
  carve := []
  locks := []
  romHidden := false
  lpOrder := [0, 1, 2, 3, 4, 5, 6]
  asyncL := []
  irqNew := []
  irqPulse := []
  chRaw := []
  chPuls := []
  hdlPend := []
  hdlLast := []
  hdlDone := []
  chRose := []
  gateOn := []
  grpOn := 0
  grpOff := 0
  erlCyc := 0
  fltCyc := []
  cellCnt := []
  lutSwap := []
  holdDue := []
  parked := []
  waiting := []
  erlFifo := []
  erlNext := 0
  tmr := []
  aont := []
  clk := ClockSt.init
  pwr := PowerSt.init
  sow := SowSt.init
  rdata := 0
  ccaHeld := []
  padHold := []
  txs := []
  gates := []
  profStaged := []
  rx := []
  antSel := false
  calQ := []
  calMeas := []
  detRun := []
  rcv := []
  decQ := []
  decBusy := []
  decFreed := []
  decLast := []
  slots := []
  slotSeq := 0
  ring := []
  calSeen := false
  fuse := []
  fuseRead := false
  fuseBad := []
  blown := 0
  kslots := []
  keyPend := none
  k0Wait := false
  bootKeyed := false
  ctrLeft := ((List.range 64))
  ctrBad := []
  flWeak := []
  aesJobs := []
  aesSeq := 0
  aesLast := 6
  shaCtx := []
  cht := []
  descs := []
  descSeq := 0
  comps := []
  vq := []
  qpool := []
  queues := []
  deferred := []
  bound := []
  awaits := []
  frames := []
  lateU := []
  winSeen := []
  winWait := []
  lostEvt := false
  linkSeq := 0
  relayHeld := []
  cache := []
  fld := FloodSt.init
  wins := []
  banks := []
  flErr := []
  flFlag := []
  flRow := []
  lgr := LgrSt.init
  dir := []
  svc := SvcSt.init
  cal := CalSt.init
  nfc := NfcSt.init
  i2c := []
  spi := SpiSt.init
  uart := []
  host := HostSt.init
  freeCtr := 0

/-- The state right after reset, the queue empty. -/
def State.reset : State := ⟨Dev.reset, []⟩

end Sys2Proof.Machine
end

