-- ==== Sys2Proof/Machine/Ops.lean ====
section
/-! DEFINITION. The named operations every block uses: registers and their fields, counters at their limits (R16, R450),
memory bytes, free values, reports to the error log (R444), reservations of the power ceiling (R40), exception entry
(R277) and the bus rules that come before a register is reached (R6, R8, R15, R295). -/

namespace Sys2Proof.Machine

/-! ### Registers -/

/-- The value a register holds. -/
def Dev.reg (d : Dev) (a : Nat) : Word := sget (regReset a) d.regs a

/-- A register with a new value. -/
def Dev.setReg (d : Dev) (a : Nat) (v : Word) : Dev := { d with regs := sset (regReset a) d.regs a v }

/-- A field of a register. -/
def Dev.get (d : Dev) (a : Nat) (f : Fld) : Nat := getF (d.reg a) f

/-- A register with one field replaced. -/
def Dev.put (d : Dev) (a : Nat) (f : Fld) (v : Nat) : Dev := d.setReg a (setF (d.reg a) f v)

/-- A one-bit field. -/
def Dev.flag (d : Dev) (a : Nat) (f : Fld) : Bool := decide (d.get a f ≠ 0)

/-- A one-bit field set to a truth value. -/
def Dev.putB (d : Dev) (a : Nat) (f : Fld) (b : Bool) : Dev := d.put a f b.toNat

/-- A register set back to its reset value. -/
def Dev.resetReg (d : Dev) (a : Nat) : Dev := d.setReg a (regReset a)

/-- `f` applied when `b` holds. -/
def Dev.when (d : Dev) (b : Bool) (f : Dev → Dev) : Dev := if b then f d else d

/-- One more in a 16-bit counter with SAT: COUNT saturates at 0xFFFF and SAT is set when it would pass it (R16, R450). -/
def Dev.count (d : Dev) (a : Nat) : Dev :=
  if d.get a ⟨15, 0⟩ = 0xFFFF then d.put a ⟨31, 31⟩ 1 else d.put a ⟨15, 0⟩ (d.get a ⟨15, 0⟩ + 1)

/-- `n` more in a 31-bit counter with SAT (R450). -/
def Dev.count31 (d : Dev) (a n : Nat) : Dev :=
  if d.get a ⟨30, 0⟩ + n > 0x7FFFFFFF then d.setReg a 0xFFFFFFFF else d.put a ⟨30, 0⟩ (d.get a ⟨30, 0⟩ + n)

/-- A field of the baseband die is powered (bit of Table 4.6). -/
def Dev.fieldOn (d : Dev) (f : Nat) : Bool := d.pwr.fields.testBit f

/-- SYNCED (R201): the state of the last sample, or of a TIMEROOT head that a SET has been applied. -/
def Dev.synced (d : Dev) : Bool := d.flag FLD_STAT FLD_STAT_SYNCED || (d.flag FLD_CFG FLD_CFG_TIMEROOT && d.fld.wasSet)

/-- A 16-bit counter counted `n` times. -/
def Dev.countN (d : Dev) (a : Nat) : Nat → Dev
  | 0 => d
  | n + 1 => (d.count a).countN a n

/-- A 64-bit value held in a low and a high register. -/
def Dev.pair (d : Dev) (lo hi : Nat) : Nat := (d.reg lo).toNat + 2 ^ 32 * (d.reg hi).toNat

/-- A 64-bit value put into a low and a high register. -/
def Dev.setPair (d : Dev) (lo hi v : Nat) : Dev :=
  (d.setReg lo (BitVec.ofNat 32 v)).setReg hi (BitVec.ofNat 32 (v / 2 ^ 32))

/-! ### Free values -/

/-- The next free word, and the device with the model's counter advanced (log entry 3). -/
def Dev.free (d : Dev) : Word × Dev := (Config.freeWord d.freeCtr, { d with freeCtr := d.freeCtr + 1 })

/-- `n` free words. -/
def Dev.frees (d : Dev) : Nat → List Word × Dev
  | 0 => ([], d)
  | n + 1 =>
    let r := d.free.2.frees n
    (d.free.1 :: r.1, r.2)

/-- `n` free bytes. -/
def Dev.freeBytes (d : Dev) (n : Nat) : List Byte × Dev :=
  let r := d.frees n
  (r.1.map (fun w => w.setWidth 8), r.2)

/-! ### Memory -/

/-- Base of the full flash view (Table 14.3). -/
def flashFull : Nat := 0x08000000

/-- What a byte that nothing has written reads as: an erased flash byte 0xFF, any other byte 0 (log entry 2). -/
def memDflt (a : Nat) : Byte := if flashFull ≤ a ∧ a < 0x0A000000 then 0xFF else 0

/-! #### The rotating windows (R309, Table 15.4) -/

def Dev.winOf (d : Dev) (w : Nat) : Win := sget Win.init d.wins w

/-- N of a window, and the full-view base of its slots. -/
def winN (w : Nat) : Nat := if w = 0 then 256 else 2040
def winBase (w : Nat) : Nat := if w = 0 then 0x090A0000 else 0x09800000

/-- Slot of logical sector `l` (R309). -/
def Win.slotOf (x : Win) (w l : Nat) : Nat :=
  let p := (l + x.start) % winN w
  if winN w - x.back ≤ p then p + 1 else p

/-- Physical index of a slot: its substitution entry, else its home. -/
def Win.idx (x : Win) (p : Nat) : Nat := ((x.subst.find? (fun e => e.1 == p)).map (·.2)).getD p

/-- Window and logical sector of a low-view address in a windowed region (Table 15.2). -/
def winLogical (a : Nat) : Option (Nat × Nat) :=
  if 0x010A0000 ≤ a ∧ a < 0x011A0000 then some (0, (a - 0x010A0000) / 4096)
  else if 0x01800000 ≤ a ∧ a < 0x01FF8000 then some (1, (a - 0x01800000) / 4096)
  else none

/-- Full-view address of a logical sector. -/
def Dev.winSector (d : Dev) (w l : Nat) : Nat := winBase w + 4096 * (d.winOf w).idx ((d.winOf w).slotOf w l)

/-- An address in its one stored form, the full view of flash: the low view, its windows and the boot alias lie over it (R289,
R290, R304, R309). -/
def Dev.canon (d : Dev) (a : Nat) : Nat :=
  if a < 0x40000 then flashFull + 0x00800000 * d.get FLC_BOOT FLC_BOOT_ACTIVE + a
  else if a < 0x02000000 then
    match winLogical a with
    | some p => d.winSector p.1 p.2 + a % 4096
    | none => flashFull + a
  else a

/-- One byte of memory. -/
def Dev.byte (d : Dev) (a : Nat) : Byte :=
  if 0x10000000 ≤ a ∧ a < 0x10010000 then Config.bootRom (a - 0x10000000)
  else sget (memDflt (d.canon a)) d.mem (d.canon a)

/-- Reservations on the 64-byte granule of an address end: something has stored to it (R274). -/
def endResv (cs : Vector CoreSt 7) (a : Nat) : Vector CoreSt 7 :=
  cs.map (fun x => { x with resv := if x.resv = some (a / 64) then none else x.resv })

/-- The lines that `p` picks leave a core's caches, and a writeback of one that waits is void (R292, R294). -/
def CacheSt.gone (x : CacheSt) (p : Nat → Bool) : CacheSt :=
  { data := x.data.filter (fun e => !p e.1), insn := x.insn.filter (fun l => !p l), wb := x.wb.map (fun e => (e.1, e.2 || p e.1)) }

/-- Every first-level copy of the lines that `p` picks is invalidated, a dirty one merged first: memory shows every store at once (R292). -/
def Dev.linesGone (d : Dev) (p : Nat → Bool) : Dev :=
  if d.caches.isEmpty then d else { d with caches := d.caches.map (fun e => (e.1, e.2.gone p)) }

/-- The caches of a core that restarts or loses its power are empty, its dirty lines written back (R287). -/
def Dev.cacheLost (d : Dev) (c : Nat) : Dev := { d with caches := serase c d.caches }

/-- One byte of memory written; the copies of its line go. -/
def Dev.setByte (d : Dev) (a : Nat) (b : Byte) : Dev :=
  { d with mem := sset (memDflt (d.canon a)) d.mem (d.canon a) b, cores := endResv d.cores a, caches := (d.linesGone (· == d.canon a / 64)).caches }

/-- `n` bytes from an address on. -/
def Dev.bytes (d : Dev) (a n : Nat) : List Byte := (span a n).map d.byte

/-- Bytes written one after another. -/
def Dev.putBytes (d : Dev) (a : Nat) : List Byte → Dev
  | [] => d
  | b :: r => (d.setByte a b).putBytes (a + 1) r

/-- The words of memory wholly within a run of `n` bytes take fresh check bits (R446). -/
def Dev.eccClear (d : Dev) (a n : Nat) : Dev :=
  if d.memErr.isEmpty then d else { d with memErr := d.memErr.filter (fun p => !decide (a ≤ 4 * p.1 ∧ 4 * p.1 + 4 ≤ a + n)) }

/-- Bytes written from an address on. -/
def Dev.setBytes (d : Dev) (a : Nat) (l : List Byte) : Dev := (d.putBytes a l).eccClear a l.length

/-- A little-endian value of `n` bytes. -/
def Dev.load (d : Dev) (a n : Nat) : Nat := leVal (d.bytes a n)

/-- A little-endian value of `n` bytes written. -/
def Dev.store (d : Dev) (a n v : Nat) : Dev := d.setBytes a (leBytes n v)

/-! #### Flash words and sectors -/

/-- Full-view address of an offset from the start of flash. -/
def flashAt (a : Nat) : Nat := flashFull + a

/-- The cell lies in the sector at `a`. -/
def inSector (a k : Nat) : Bool := decide (a ≤ k ∧ k < a + 4096)

/-- A sector of 4 KiB erased, `a` its full-view address: every byte back to 0xFF, its words clean, no copy of its lines left (R292). -/
def Dev.eraseSector (d : Dev) (a : Nat) : Dev :=
  { d with caches := (d.linesGone (fun l => inSector a (64 * l))).caches, mem := d.mem.filter (fun p => !inSector a p.1), flWeak := d.flWeak.filter (fun p => !inSector a (16 * p.1)), flErr := d.flErr.filter (fun p => !inSector a (16 * p.1)) }

/-- A flash word programmed; `ok` tells whether it verifies at both margins. -/
def Dev.progWord (d : Dev) (a : Nat) (b : List Byte) (ok : Bool) : Dev :=
  { d.setBytes a b with flWeak := sset 0 d.flWeak (a / 16) (if ok then 0 else 3), flErr := sset [] d.flErr (a / 16) [] }

/-- The word at `a` reads blank at the erase margin. -/
def Dev.blankWord (d : Dev) (a : Nat) : Bool :=
  (d.bytes a 16).all (· == 0xFF) && sget 0 d.flWeak (a / 16) == 0

/-- The content of one sector copied into another, which is erased first. -/
def Dev.copySector (d : Dev) (src dst : Nat) : Dev :=
  (d.mem.filter (fun p => inSector src p.1)).foldl (fun d p => d.setByte (dst + (p.1 - src)) p.2) (d.eraseSector dst)

/-! ### Time -/

/-- Mesh time (R197). -/
def Dev.meshNow (d : Dev) : Nat := d.clk.mesh.toNat

/-- `a` is at or past `b` in 64-bit mesh time (R197). -/
def atOrPast (a b : Nat) : Bool := decide ((a + 2 ^ 64 - b % 2 ^ 64) % 2 ^ 64 < 2 ^ 63)

/-- Milliseconds of mesh time, as LASTSEEN holds them (R197). -/
def msOf (t : Nat) : Nat := t / 122880

/-! ### Reports, interrupt events and headland events -/

/-- The reports of one producer that wait (R444). -/
def Dev.waitingOf (d : Dev) (blk : Nat) : Nat := (d.waiting.filter (fun r => r.blk == blk)).length

/-- A report lost (R447): counted, OVF set, and named as last lost and, while none is named, as first lost. -/
def Dev.lose (d : Dev) (blk unit code t : Nat) : Dev :=
  let w := mkWord [(ERL_FIRSTLOST_BLOCK, blk), (ERL_FIRSTLOST_UNIT, unit), (ERL_FIRSTLOST_VALID, 1), (ERL_FIRSTLOST_CODE, code)]
  let d := Dev.put { d.count ERL_LOST with erlCyc := d.clk.cyc + 1 } ERL_STAT ERL_STAT_OVF 1
  let d := (d.setReg ERL_LASTLOST w).setReg ERL_LASTLT (BitVec.ofNat 32 t)
  if d.flag ERL_FIRSTLOST ERL_FIRSTLOST_VALID then d
  else (d.setReg ERL_FIRSTLOST w).setReg ERL_FIRSTLT (BitVec.ofNat 32 t)

/-- A report raised (R2, R444): it waits at its producer, or is lost where the producer already holds two. -/
def Dev.report (d : Dev) (blk unit code : Nat) (detail : Word) (extra : List Word) : Dev :=
  if d.waitingOf blk ≥ 2 then d.lose blk unit code d.meshNow
  else { d with waiting := d.waiting ++ [⟨blk, unit, code, detail, extra, d.clk.cyc⟩] }

/-! ### Check bits of the RAMs (R446) -/

/-- Region of a RAM address as the MEMC report names it (Table 24.2). -/
def memRegion (a : Nat) : Nat :=
  if 0x30000000 ≤ a then 4
  else if a < 0x21400000 then 0
  else if a < 0x21C00000 then 1
  else if a < 0x22C00000 then 2
  else 3

/-- Counter of ERL_ECC: general SRAM; soft store, pool and frame store; retention SRAM; corrected, then uncorrectable. -/
def eccCounter (a : Nat) (bad : Bool) : Nat :=
  (match memRegion a with
    | 0 => 0
    | 4 => 4
    | _ => 2) + bad.toNat

/-- A read of the RAM word that holds `a` (R446): a single-bit error is corrected, written back and counted; an uncorrectable one is
counted and reported with the syndrome. `true`: the word reads good. -/
def Dev.eccRead (d : Dev) (a : Nat) (syn : Word) : Bool × Dev :=
  match sget 0 d.memErr (a / 4) with
  | 0 => (true, d)
  | 1 => (true, Dev.count { d with memErr := sset 0 d.memErr (a / 4) 0 } (ERL_ECC (eccCounter a false)))
  | _ => (false, (d.count (ERL_ECC (eccCounter a true))).report 36 (memRegion a) 1 syn [BitVec.ofNat 32 a])

/-- A one-cycle condition of an interrupt source (R324): the level the next sample sees. One that comes while the control field is off is lost
(R326). -/
def Dev.pulse (d : Dev) (src : Nat) : Dev := { d with irqPulse := if d.fieldOn 1 then sset false d.irqPulse src true else d.irqPulse }

/-! ### Reservations of the power ceiling (R39 to R41) -/

/-- Keys of the holders of Table 2.3. -/
def resvBase : Nat := 0
def resvRx (c : Nat) : Nat := 1 + c
def resvDet (c : Nat) : Nat := 5 + c
def resvStrip (s : Nat) : Nat := 16 + s
def resvPool : Nat := 40
def resvUnw : Nat := 41
def resvCore (n : Nat) : Nat := 48 + n
def resvTx (t : Nat) : Nat := 60 + t

/-- Everything reserved now, in mW. -/
def Dev.reserved (d : Dev) : Nat := (d.pwr.resv.map (·.2)).foldl (· + ·) 0

/-- A holder's reservation set to `mw` (0: none), RSVD following. -/
def Dev.setResv (d : Dev) (h mw : Nat) : Dev :=
  let d := { d with pwr := { d.pwr with resv := sset 0 d.pwr.resv h mw } }
  d.put PWR_CEIL PWR_CEIL_RSVD d.reserved

/-- What a holder has reserved. -/
def Dev.resvOf (d : Dev) (h : Nat) : Nat := sget 0 d.pwr.resv h

/-- A request for a holder's reservation to be `mw` fits under the ceiling (R40). -/
def Dev.resvFits (d : Dev) (h mw : Nat) : Bool :=
  decide (d.reserved - d.resvOf h + mw ≤ d.get PWR_CEIL PWR_CEIL_CEIL)

/-- A refused request: counted in PWR_CEILREF with the block number (R40). -/
def Dev.refuseResv (d : Dev) (blk : Nat) : Dev :=
  (d.count PWR_CEILREF).put PWR_CEILREF PWR_CEILREF_BLOCK blk

/-- A request for a reservation (R40): granted in the same cycle where it fits, else refused and counted. -/
def Dev.requestResv (d : Dev) (h mw blk : Nat) : Bool × Dev :=
  if d.resvFits h mw then (true, d.setResv h mw) else (false, d.refuseResv blk)

/-- Reservation of a core at a level (Table 2.3). -/
def coreMw : Nat → Nat
  | 0 => 70
  | 1 => 27
  | 2 => 10
  | _ => 2

/-! ### Cores -/

def Dev.core (d : Dev) (c : Fin 7) : CoreSt := d.cores[c]

def Dev.setCore (d : Dev) (c : Fin 7) (x : CoreSt) : Dev := { d with cores := d.cores.set c x }

/-- The field STATEn of SYS_CORESTAT (Table 14.12). -/
def corestatFld (c : Nat) : Fld := ⟨4 * c + 3, 4 * c⟩

def Dev.coreState (d : Dev) (c : Nat) : Nat := d.get SYS_CORESTAT (corestatFld c)

def Dev.setCoreState (d : Dev) (c v : Nat) : Dev := d.put SYS_CORESTAT (corestatFld c) v

/-- FREEZE of the last HALT holds while any core is in DEBUG: the control-field clocks CD20 to CD23 stand still (R415). -/
def Dev.frozen (d : Dev) : Bool := d.svc.freeze && (span 0 7).any (fun c => d.coreState c == 5)

/-- FL bits (Table 13.1). -/
def flEXL : Fld := ⟨15, 15⟩
def flU : Fld := ⟨14, 14⟩
def flIE : Fld := ⟨13, 13⟩
def flQS : Fld := ⟨12, 12⟩
def flHC : Fld := ⟨11, 4⟩
def flV : Fld := ⟨3, 3⟩
def flN : Fld := ⟨2, 2⟩
def flZ : Fld := ⟨1, 1⟩
def flC : Fld := ⟨0, 0⟩

/-- Exception codes of Table 13.7. -/
def excUD : Nat := 1
def excPRIV : Nat := 2
def excALIGN : Nat := 3
def excFETCH : Nat := 4
def excBUS : Nat := 5
def excDIVZ : Nat := 6
def excTRAP : Nat := 7
def excBRK : Nat := 8
def excINT : Nat := 10

/-- What an entry would write: code, TRAP number, EPC, and EADDR and ESYN where Table 13.7 gives them. -/
structure Exc where
  code  : Nat
  trap  : Nat
  epc   : Word
  eaddr : Option Word
  esyn  : Option Word
  deriving DecidableEq, Repr

/-- The word an entry writes to ECAUSE (Table 13.10). -/
def Exc.ecause (e : Exc) : Word := BitVec.ofNat 32 (e.code + 256 * e.trap)

/-- FL after an entry: EXL set, U and IE cleared (R277). -/
def entryFl (fl : Word) : Word := setF (setF (setF fl flEXL 1) flU 0) flIE 0

/-- The registers of a core after entry to an exception or an interrupt (R277), its reservation ended (R274). -/
def CoreSt.enter (x : CoreSt) (e : Exc) : CoreSt :=
  { x with
    epc := e.epc
    efl := x.fl
    ecause := e.ecause
    eaddr := e.eaddr.getD x.eaddr
    esyn := e.esyn.getD x.esyn
    fl := entryFl x.fl
    pc := x.vbase + BitVec.ofNat 32 (16 * e.code)
    resv := none }

/-- Every cell a core holds becomes ORPHANED and is counted (R298). -/
def Dev.orphanCells (d : Dev) (c : Nat) : Dev :=
  (span 0 64).foldl (fun d n =>
    if sget Lock.free d.locks n = Lock.held c then
      let d := { d with locks := sset Lock.free d.locks n (Lock.orphaned c) }
      let d := d.count (SEM_CNT 2)
      if n < 32 then d.put SEM_ORPH_LO ⟨n, n⟩ 1 else d.put SEM_ORPH_HI ⟨n - 32, n - 32⟩ 1
    else d) d

/-- A double fault (R277): the core stops, its registers keep the first exception, the report describes the second, and
its lock cells are orphaned (R298). Its reservation is ended with the exception that arose (R274). A fallback falls due while a new image
awaits confirmation (R424). -/
def Dev.doubleFault (d : Dev) (c : Fin 7) (e : Exc) : Dev :=
  let d := d.setCore c { d.core c with resv := none, dbl := true }
  let d := d.setCoreState c 3
  let d := { d with svc := { d.svc with fall := d.svc.fall || d.flag SVC_IMG SVC_IMG_CONFWAIT } }
  let d := d.report (26 + c) c 1 e.ecause [e.epc, e.eaddr.getD 0, 0, 0]
  d.orphanCells c

/-- Entry to an exception or an interrupt, in one step (R277); a double fault while EXL is 1. -/
def Dev.enter (d : Dev) (c : Fin 7) (e : Exc) : Dev :=
  if getF (d.core c).fl flEXL = 1 then d.doubleFault c e else d.setCore c ((d.core c).enter e)

/-! ### Bus rules (R6, R8, R15, R289, R295) -/

/-- Bus fault syndromes (Table 14.9). -/
def synUNMAPPED : Nat := 1
def synFIELDOFF : Nat := 2
def synDIEISOLATED : Nat := 3
def synPRIVILEGE : Nat := 4
def synPROTECTION : Nat := 5
def synUNSUPPORTED : Nat := 6
def synFLASHBUSY : Nat := 7
def synECC : Nat := 8

/-- Die and field of an address, as ESYN names them (Table 14.8; log entry 6 for what the manual leaves open there). -/
def targetOf (a : Nat) : Nat × Nat :=
  if a < 0x02000000 ∨ (0x08000000 ≤ a ∧ a < 0x0A000000) then (2, 7)
  else if 0x10000000 ≤ a ∧ a < 0x10010000 then (0, 1)
  else if 0x20000000 ≤ a ∧ a < 0x21400000 then (0, 1)
  else if 0x21400000 ≤ a ∧ a < 0x23000000 then (0, 2)
  else if 0x30000000 ≤ a ∧ a < 0x30080000 then (0, 0)
  else match blockAt a with
    | none => (3, 7)
    | some b => if b.home = 7 then (1, 7) else (0, b.home)

/-- ESYN for an access (Table 14.8). -/
def esynOf (a code : Nat) (write fetch user : Bool) : Word :=
  mkWord [(⟨17, 16⟩, (targetOf a).1), (⟨14, 12⟩, (targetOf a).2), (⟨10, 10⟩, user.toNat), (⟨9, 9⟩, fetch.toNat),
    (⟨8, 8⟩, write.toNat), (⟨7, 0⟩, code)]

/-- The section of the plan in force, by TYPE and INST (Table 4.4). -/
def secOf (l : List Section) (typ inst : Nat) : Option (List Byte) :=
  (l.find? (fun s => s.typ == typ && s.inst == inst)).map (·.body)

def Dev.sec (d : Dev) (typ inst : Nat) : Option (List Byte) := secOf d.sow.force typ inst

/-- Byte, half-word and word of a section body at an offset. -/
def u8 (b : List Byte) (o : Nat) : Nat := (b.getD o 0).toNat
def u16 (b : List Byte) (o : Nat) : Nat := u8 b o + 256 * u8 b (o + 1)
def u32 (b : List Byte) (o : Nat) : Nat := u16 b o + 65536 * u16 b (o + 2)
def s32 (b : List Byte) (o : Nat) : Int := sext 32 (u32 b o)

/-- Section types of Table 4.4. -/
def tCLOCK : Nat := 1
def tPOWER : Nat := 2
def tMEMORY : Nat := 3
def tPADS : Nat := 4
def tGRID : Nat := 5
def tDETECT : Nat := 6
def tSTRIPS : Nat := 7
def tHEADLAND : Nat := 8
def tIRQ : Nat := 9
def tRETAIN : Nat := 10
def tCOEX : Nat := 11
def tRADIO : Nat := 12

/-- A field of the plan in force, 0 where the section is absent. -/
def Dev.plan8 (d : Dev) (typ inst o : Nat) : Nat := u8 ((d.sec typ inst).getD []) o
def Dev.plan16 (d : Dev) (typ inst o : Nat) : Nat := u16 ((d.sec typ inst).getD []) o
def Dev.plan32 (d : Dev) (typ inst o : Nat) : Nat := u32 ((d.sec typ inst).getD []) o

/-- The HEADLAND body in force (all zeros where the section is absent: no channel connected), and the producer of channel `a` (Table 4.13). -/
def Dev.hl (d : Dev) : List Byte := (d.sec tHEADLAND 0).getD []
def hlProducer (b : List Byte) (a : Nat) : Nat := u16 b (4 + 4 * a)

/-- The producer drives a channel. -/
def hlRouted (b : List Byte) (code : Nat) : Bool := (span 0 256).any (fun a => hlProducer b a == code)

/-- A pulse producer raises an event, which is on its way to its channel (R334, R337); it is lost while the control field is down, and one that
falls in the cycle of the producer's last event or in the next becomes one with it. -/
def Dev.hdlEvent (d : Dev) (code : Nat) : Dev :=
  if !d.fieldOn 1 || !hlRouted d.hl code then d
  else
    let last := sget 0 d.hdlLast code
    let d := { d with hdlLast := sset 0 d.hdlLast code (d.clk.cyc + 1) }
    if decide (0 < last ∧ d.clk.cyc ≤ last) then d.count (HDL_CNT 0) else { d with hdlPend := d.hdlPend ++ [(code, d.clk.cyc)] }

/-- Bytes of the L2 carve (Table 4.7). -/
def Dev.carveBytes (d : Dev) : Nat := 1024 * d.plan16 tMEMORY 0 0

/-- The address lies in the L2 carve, which ends at the top of general SRAM (R65). -/
def Dev.inCarve (d : Dev) (a : Nat) : Bool := decide (0x21400000 - d.carveBytes ≤ a ∧ a < 0x21400000)

/-- A MEMORY region denies the core (R65): a fetch is judged as a read. -/
def Dev.regionDenies (d : Dev) (c a : Nat) (write : Bool) : Bool :=
  (span 0 (d.plan8 tMEMORY 0 2)).any (fun j =>
    let base := d.plan32 tMEMORY 0 (4 + 12 * j)
    let size := d.plan32 tMEMORY 0 (8 + 12 * j)
    let mask := if write then d.plan8 tMEMORY 0 (13 + 12 * j) else d.plan8 tMEMORY 0 (12 + 12 * j)
    decide (base ≤ a ∧ a < base + size) && !(mask.testBit c))

/-- Any region or the carve keeps the address from the core. -/
def Dev.denied (d : Dev) (c a : Nat) (write : Bool) : Bool := d.inCarve a || d.regionDenies c a write

/-- The boot ROM is visible (R286). -/
def Dev.romVisible (d : Dev) : Bool := !d.romHidden

/-- The fault code a peripheral word access ends with before its register acts, first in the order of Table 14.9. `own`
tells a per-core register window whose only user is that core (R328). -/
def Dev.periphCode (d : Dev) (c a : Nat) (user write : Bool) : Option Nat :=
  if user then some synPRIVILEGE
  else match blockAt a with
    | none => some synUNMAPPED
    | some b =>
      if b.name == "CHT" then
        if !d.fieldOn 4 then some synFIELDOFF else none
      else match regAt a with
        | none => some synUNMAPPED
        | some (r, i) =>
          let own := (r.name == "IRQ_ACK" && !write) || (r.name == "IRQ_EOI" && write)
          let lvl := r.name == "PWR_PLEVEL" && write
          if own && i ≠ c then some synPRIVILEGE
          else if lvl && i ≠ c && c ≠ 0 && c ≠ 6 then some synPRIVILEGE
          else if write && !(r.cores.testBit c) then some synPRIVILEGE
          else if b.home = 7 then (if d.pwr.rfIso then some synDIEISOLATED else none)
          else if !d.fieldOn b.home then some synFIELDOFF
          else none

/-! ### Blocks that have agreed (R371) -/

/-- The block, by its number of Table 19.1, whose registers an address belongs to. -/
def partAt (a : Nat) : Option Nat :=
  match blockAt a with
  | none => none
  | some b =>
    let o := (a - b.base) / 4096
    match b.name with
    | "FUR" => some 0
    | "DET" => some 1
    | "DEC" => some 2
    | "UNW" => some 3
    | "MCX" => some 4
    | "TXM" => some 5
    | "LNK" => some 6
    | "CHT" => some 6
    | "FLD" => some 7
    | "AES" => some 8
    | "SHA" => some 9
    | "KEY" => some 10
    | "LGR" => some 11
    | "FLC" => some 12
    | "NFC" => some 13
    | "SVC" => some 14
    | "HST" => some 15
    | "I2C" => some (16 + o)
    | "SPI" => some 18
    | "UART" => some (19 + o)
    | "GPIO" => some 21
    | "FLN" => some 22
    | "COX" => some 23
    | "CAL" => some 24
    | "SOW" => some 25
    | _ => none

/-- The block has agreed to the entry under way: it keeps its state and takes no new work. -/
def Dev.rests (d : Dev) (b : Nat) : Bool := d.pwr.entry.any (fun e => e.agreed.contains b)

/-- The block whose registers the address belongs to rests. -/
def Dev.restsAt (d : Dev) (a : Nat) : Bool := d.pwr.entry.isSome && (partAt a).any d.rests

/-- No transmission is armed: the modulators or the link rest. -/
def Dev.noArm (d : Dev) : Bool := d.rests 5 || d.rests 6

/-- A request that waits until the entry has been rolled back, or until the wake. -/
def Dev.hold (d : Dev) (i : Instr) : Dev := { d with parked := d.parked ++ [i] }

/-! ### Flash banks -/

/-- An address of flash, in either view. -/
def flashAddr (a : Nat) : Bool := decide (a < 0x02000000) || decide (0x08000000 ≤ a ∧ a < 0x0A000000)

/-- Errors of a flash word beyond the two bits that its code corrects: the code, which is internal, finds no codeword near or lands on
another one (R317; log entry 124). -/
def Dev.flashBeyond (d : Dev) (a : Nat) : Bool := decide (2 < (sget [] d.flErr (d.canon a / 16)).length)

/-- What a bank of the flash has under way. -/
def Dev.bankOfs (d : Dev) (b : Nat) : Bank := sget Bank.init d.banks b
def Dev.setBank (d : Dev) (b : Nat) (x : Bank) : Dev := { d with banks := sset Bank.init d.banks b x }

/-- The cycle `n` cycles from now noted in bank `b`. -/
def Dev.bankMark (d : Dev) (b n : Nat) : Dev := d.setBank b { d.bankOfs b with mark := d.clk.cyc + n + 1 }

/-- A privileged request served in bank `b`: where it met a suspended erase, the 2 µs before the resume run from here (R306). -/
def Dev.bankServed (d : Dev) (b : Nat) : Dev := if d.flag (FLC_STAT b) FLC_STAT_SUSP then d.bankMark b 0 else d

/-- BUSY of a bank follows what it has under way: a command, a move, an operation of an engine (R307). -/
def Dev.bankShow (d : Dev) (b : Nat) : Dev :=
  d.putB (FLC_STAT b) FLC_STAT_BUSY (decide ((d.bankOfs b).op ≠ 0) || d.flag (FLC_STAT b) FLC_STAT_MOVE || decide (0 < (d.bankOfs b).eng))

/-- An engine's operation begins in a bank, and ends. -/
def Dev.engBegin (d : Dev) (b : Nat) : Dev := (d.setBank b { d.bankOfs b with eng := (d.bankOfs b).eng + 1 }).bankShow b
def Dev.engEnd (d : Dev) (b : Nat) : Dev := (d.setBank b { d.bankOfs b with eng := (d.bankOfs b).eng - 1 }).bankShow b

/-- Bank and sector of a full-view address. -/
def bankOf (a : Nat) : Nat := (a - flashFull) / 0x00800000
def sectorOf (a : Nat) : Nat := (a - flashFull) / 4096 % 2048

/-- A flash word programmed for an engine; one that fails its verify counts (R323). -/
def Dev.progVerify (d : Dev) (a : Nat) (b : List Byte) (ok : Bool) : Dev :=
  let d := d.progWord a b ok
  if ok then d else d.count (FLC_CNT 6)

/-! #### Corrected reads and bit lines of the flash (R317, R318) -/

/-- Bit line of bit `j` of the word at full-view address `a`. -/
def bitLine (a j : Nat) : Nat := 144 * (a / 16 % 4) + j

/-- One corrected bit noted: LINE, RUN, and the suspicion at a RUN of 8 (R318). -/
def Dev.lineNote (d : Dev) (b a j : Nat) : Dev :=
  let r := FLC_COL b
  let line := bitLine a j
  let run := d.get r FLC_COL_RUN
  if d.get r FLC_COL_LINE = line ∧ 0 < run then
    if (d.bankOfs b).last = some (a / 64) then d
    else
      let d := d.put r FLC_COL_RUN (min 255 (run + 1))
      if run + 1 = 8 then (d.put r FLC_COL_SUSPECT 1).report 12 (8192 + b) 2 (BitVec.ofNat 32 line) [] else d
  else (d.put r FLC_COL_LINE line).put r FLC_COL_RUN 1

/-- A read of the word at `a` returns with the bits `l` corrected. -/
def Dev.corrected (d : Dev) (a : Nat) (l : List Nat) : Dev :=
  let b := bankOf a
  let d := l.foldl (fun d j => d.lineNote b a j) (d.count (FLC_CNT 0))
  d.setBank b { d.bankOfs b with last := some (a / 64) }

/-- What a read of the flash word at full-view address `a` finds: 0 to 2 bits corrected, 3 uncorrectable; beyond two bits the code, which is
internal, may miscorrect (R317), 4 one bit or 5 two, at bits that are open. -/
def Dev.flashFind (d : Dev) (a : Nat) : Nat × Dev :=
  let e := sget [] d.flErr (a / 16)
  if e.length = 0 then (0, d)
  else if e.length ≤ 2 then (e.length, d.corrected a e)
  else if Config.miscorrects e then
    let f := d.free
    let n := f.1.toNat / 65536 % 2
    (4 + n, f.2.corrected a (if n = 0 then [f.1.toNat % 144] else [f.1.toNat % 144, f.1.toNat / 256 % 144]))
  else (3, d.count (FLC_CNT 1))

/-! ### Requests to run (R7, R52) -/

/-- A request-to-run reaches a domain. -/
def Dev.domainRun (d : Dev) (i : Nat) : Dev := { d with pwr := { d.pwr with gated := sset false d.pwr.gated i false } }

/-- The Idle domain an address lies in (Table 3.2): of a register by its block and index, of general SRAM by its bank. -/
def domainAt (a : Nat) : Option Nat :=
  if 0x20000000 ≤ a ∧ a < 0x21400000 then some (14 + (a - 0x20000000) / 0x500000)
  else match blockAt a with
    | none => none
    | some b =>
      let o := a - b.base
      match b.name with
      | "TMR" => if o < 0x600 then some (20 + o / 64 / 6) else none
      | "SEM" => some 24
      | "CAL" => some 25
      | "ERL" => some 26
      | "SOW" => some 27
      | "FUR" => some (28 + o / 4096)
      | "DET" => if o < 0x40 then some (44 + o / 4 % 4) else if o < 0x80 then some (28 + (o - 0x40) / 4) else none
      | "DEC" => if 0x40 ≤ o ∧ o < 0x68 then some (52 + (o - 0x40) / 4) else none
      | "MCX" => some (64 + o / 64 % 2)
      | "UNW" => some 62
      | "FLD" => some 85
      | "AES" => some 93
      | "SHA" => some 95
      | "SVC" => some 101
      | "HST" => some 102
      | "I2C" => some (103 + o / 4096)
      | "SPI" => some 105
      | "UART" => some (106 + o / 4096)
      | "GPIO" => some 108
      | "NFC" => some 109
      | "FLN" => some 110
      | _ => none

/-- A bus access wakes the clock of the domain it is addressed to (R7, R52). -/
def Dev.touchDomain (d : Dev) (a : Nat) : Dev := if d.pwr.gated.isEmpty then d else (domainAt a).elim d d.domainRun

/-- Numbers of the words of `g` bytes that a run of `n` bytes from `a` on touches. -/
def wordSpan (g a n : Nat) : List Nat := if n = 0 then [] else span (a / g) ((a + n - 1) / g + 1 - a / g)

/-- A block reads a run of bytes: the domains of its words wake, and the check bits of its RAM and flash words act (R317, R446). -/
def Dev.touchRange (d : Dev) (a n : Nat) : Dev :=
  let l := wordSpan 4 a n
  let d := if d.pwr.gated.isEmpty then d else l.foldl (fun (d : Dev) w => d.touchDomain (4 * w)) d
  let d := if d.memErr.isEmpty then d else l.foldl (fun (d : Dev) w => if 4 * w < 0x20000000 then d else (d.eccRead (4 * w) (esynOf (4 * w) synECC false false false)).2) d
  if d.flErr.isEmpty then d else (wordSpan 16 a n).foldl (fun (d : Dev) w => if flashAddr (16 * w) then (d.flashFind (d.canon (16 * w))).2 else d) d

/-- The core can make an access: it is not in reset, not stopped by a double fault, also while it drains, and not waiting in HALT (R287, R277, R278,
R298). -/
def Dev.coreActs (d : Dev) (c : Fin 7) : Bool := [1, 4, 5].contains (d.coreState c) && !(d.core c).dbl

/-- A write by core `c` to the register at `a`, with the effect `f` once it has reached the register: a bus fault is taken by
the core as BUS (R295, R276), with no write performed; a read that faults returns 0. A core that cannot act makes no access. -/
def Dev.byCore (d : Dev) (c : Fin 7) (a : Nat) (write : Bool) (f : Dev → Dev) : Dev :=
  let user := getF (d.core c).fl flU = 1
  if !d.coreActs c then d else match d.periphCode c a user write with
  | none => f (d.touchDomain a)
  | some code =>
    let d := if write then d else { d with rdata := 0 }
    d.enter c ⟨excBUS, 0, (d.core c).pc, some (BitVec.ofNat 32 a), some (esynOf a code write false user)⟩

/-- `byCore` for a register that refuses the writer for a reason of its own (`deny`): the privilege syndrome comes first in
Table 14.9. -/
def Dev.byCoreDeny (d : Dev) (c : Fin 7) (a : Nat) (write deny : Bool) (f : Dev → Dev) : Dev :=
  if deny && d.coreActs c then
    let d := if write then d else { d with rdata := 0 }
    d.enter c ⟨excBUS, 0, (d.core c).pc, some (BitVec.ofNat 32 a),
      some (esynOf a synPRIVILEGE write false (getF (d.core c).fl flU = 1))⟩
  else d.byCore c a write f

/-- ACCPPM (R360) at this moment. -/
def Dev.accppm (d : Dev) : Nat :=
  if d.flag CLK_STAT CLK_STAT_LFSUB then (if d.flag CLK_STAT CLK_STAT_FALLBACK then 255 else 2)
  else if !(d.clk.tempOk && d.flag RTC_CTL RTC_CTL_COMPEN && d.flag RTC_STAT RTC_STAT_CURVEOK)
      || decide (d.get RTC_CTL RTC_CTL_COMPINT ≥ 5) then 240
  else d.clk.accComp

/-! ### Masters other than a core's load and store -/

/-- Low-view addresses under which a window shows nothing (R304). -/
def lowHole (a : Nat) : Bool := decide (0x011A0000 ≤ a ∧ a < 0x011A8000) || decide (0x01FF8000 ≤ a ∧ a < 0x02000000)

/-- A memory byte exists at the address (Table 14.3); `write`: it takes ordinary writes. -/
def memMapped (a : Nat) (write : Bool) : Bool :=
  (decide (0x20000000 ≤ a ∧ a < 0x23000000) || decide (0x30000000 ≤ a ∧ a < 0x30080000)) ||
    (!write && ((decide (a < 0x02000000) && !lowHole a) || decide (0x08000000 ≤ a ∧ a < 0x0A000000)))

/-- The bank of a flash address programs, erases or is not ready, so that an ordinary read ends FLASHBUSY (R305, R313). -/
def Dev.flashShut (d : Dev) (a : Nat) : Bool :=
  d.flag (FLC_STAT ((d.canon a - flashFull) / 0x00800000)) FLC_STAT_BUSY || !d.flag FLC_BOOT FLC_BOOT_READY

/-- The flash word lies in a sector whose erase, by a command, goes on or is suspended: it reads as the erase has left it (R306). -/
def Dev.underErase (d : Dev) (a : Nat) : Bool :=
  let p := d.canon a
  let x := d.bankOfs (bankOf p)
  decide (x.op = 3 ∧ x.addr / 4096 = p / 4096)

/-- The word that holds a byte reads with an uncorrectable error (R306, R317, R446). -/
def Dev.wordBad (d : Dev) (a : Nat) : Bool :=
  if flashAddr a then
    (d.underErase a && Config.halfBad (a / 16) d.freeCtr) || (d.flashBeyond a && !Config.miscorrects (sget [] d.flErr (d.canon a / 16)))
  else decide (sget 0 d.memErr (a / 4) = 2)

/-- The syndrome with which one byte of an access by a block with the rights of core `c` ends, first in the order of Table 14.9. `priv`: the
block's reads are privileged traffic, which a busy bank serves (R306). -/
def Dev.masterCode (d : Dev) (priv : Bool) (c a : Nat) (write : Bool) : Option Nat :=
  if !memMapped a false then some synUNMAPPED
  else if decide (0x20000000 ≤ a ∧ a < 0x21400000) && d.denied c a write then some synPROTECTION
  else if write && !memMapped a true then some synUNSUPPORTED
  else if flashAddr a && d.pwr.flIso then some synDIEISOLATED
  else if !d.fieldOn (if flashAddr a then 1 else (targetOf a).2) then some synFIELDOFF
  else if flashAddr a && !priv && d.flashShut a then some synFLASHBUSY
  else if !write && d.wordBad a then some synECC
  else none

/-- A run of bytes that a block reads or writes with the rights of core `c` without a bus fault (R6, R8, R65, R295, R305). -/
def Dev.busOk (d : Dev) (priv : Bool) (c a n : Nat) (write : Bool) : Bool := (span a n).all (fun x => (d.masterCode priv c x write).isNone)

/-- The syndrome of the first byte of a run that faults for core `c`, with its address (Table 14.9). -/
def Dev.busCode (d : Dev) (priv : Bool) (c a n : Nat) (write : Bool) : Option (Nat × Nat) :=
  (span a n).findSome? (fun x => (d.masterCode priv c x write).map (fun k => (x, k)))

/-- A fault of a block's access is told: BUSYFAULT counts one that met a busy bank (R305). -/
def Dev.faultNote (d : Dev) (p : Option (Nat × Nat)) : Dev := if p.map (·.2) = some synFLASHBUSY then d.count (FLC_CNT 2) else d

/-- A byte as a block reads it: of a flash word that its code miscorrects, or of a sector under erase, an open value (R306, R317). -/
def Dev.seenByte (d : Dev) (a : Nat) : Byte :=
  if flashAddr a && d.underErase a then Config.halfErased a d.freeCtr
  else if flashAddr a && d.flashBeyond a then Config.miscorrected a (sget [] d.flErr (d.canon a / 16)) else d.byte a

/-- The bytes of a run as a block reads them. -/
def Dev.seen (d : Dev) (a n : Nat) : List Byte := (span a n).map d.seenByte

/-! ### How a meaning answers -/

/-- Memory in its one canonical form (strictly rising addresses, no cell equal to what an unlisted address reads as); the operations
keep it, and a memory that has it is left as it is. -/
def memCanon (m : List Host.Cell) : List Host.Cell :=
  if swf memDflt m then m else m.foldr (fun (p : Host.Cell) r => sset (memDflt p.1) r p.1 p.2) []

/-- The device as a step leaves it. -/
def Dev.settle (d : Dev) : Dev := { d with mem := memCanon d.mem }

/-- Registers of the blocks that `p` picks by base and address. -/
def Dev.regsOf (d : Dev) (lo hi : Nat) : List (Nat × Word) := d.regs.filter (fun e => decide (lo ≤ e.1 ∧ e.1 < hi))

/-- What a clock domain of Table 3.2 holds is the same in both devices: nothing was delivered to it. -/
def Dev.domainSame (d e : Dev) (i : Nat) : Bool :=
  let regs (lo hi : Nat) : Bool := d.regsOf lo hi == e.regsOf lo hi
  if 14 ≤ i ∧ i < 18 then
    let f := fun (p : Host.Cell) => decide (0x20000000 + 0x500000 * (i - 14) ≤ p.1 ∧ p.1 < 0x20000000 + 0x500000 * (i - 13))
    d.mem.filter f == e.mem.filter f
  else if 20 ≤ i ∧ i < 24 then
    regs (0x40060000 + 384 * (i - 20)) (0x40060000 + 384 * (i - 19)) && (span (6 * (i - 20)) 6).all (fun t => sget TmrSt.init d.tmr t == sget TmrSt.init e.tmr t)
  else if i = 24 then regs 0x400B0000 0x400C0000 && d.locks == e.locks
  else if i = 25 then regs 0x40090000 0x400A0000 && d.cal == e.cal && d.calQ == e.calQ && d.calMeas == e.calMeas
  else if i = 26 then regs 0x400A0000 0x400B0000 && d.erlFifo == e.erlFifo && d.waiting == e.waiting
  else if i = 27 then regs 0x40030000 0x40040000 && d.sow == e.sow
  else if 28 ≤ i ∧ i < 44 then
    regs (0x40210000 + 4096 * (i - 28)) (0x40210000 + 4096 * (i - 27)) && (span (64 * (i - 28)) 64).all (fun u => sget Rcv.init d.rcv u == sget Rcv.init e.rcv u) && d.reg (0x40200040 + 4 * (i - 28)) == e.reg (0x40200040 + 4 * (i - 28))
  else if 44 ≤ i ∧ i < 48 then (span 0 4).all (fun k => d.reg (0x40200000 + 16 * k + 4 * (i - 44)) == e.reg (0x40200000 + 16 * k + 4 * (i - 44))) && d.detRun.filter (fun p => p.1 / 65536 == i - 44) == e.detRun.filter (fun p => p.1 / 65536 == i - 44)
  else if 48 ≤ i ∧ i < 52 then sget RxSt.init d.rx (i - 48) == sget RxSt.init e.rx (i - 48) && d.sow.reloading.contains (i - 48) == e.sow.reloading.contains (i - 48)
  else if 52 ≤ i ∧ i < 62 then sget none d.decBusy (i - 52) == sget none e.decBusy (i - 52) && d.reg (0x40220040 + 4 * (i - 52)) == e.reg (0x40220040 + 4 * (i - 52))
  else if i = 62 ∨ i = 63 then d.slots == e.slots && regs 0x40230000 0x40240000
  else if i = 64 ∨ i = 65 then sget Rcv.init d.rcv (960 + i) == sget Rcv.init e.rcv (960 + i)
  else if 66 ≤ i ∧ i < 70 then sget RxSt.init d.rx (i - 66) == sget RxSt.init e.rx (i - 66)
  else if i = 72 ∨ i = 73 then sget none d.txs (i - 72) == sget none e.txs (i - 72)
  else if i = 74 ∨ i = 75 then sget none d.txs (i - 74) == sget none e.txs (i - 74)
  else if i = 76 ∨ i = 77 then sget none d.txs (i - 76) == sget none e.txs (i - 76)
  else if i = 85 then regs 0x40320000 0x40330000 && d.fld == e.fld
  else if i = 86 then d.cache == e.cache
  else if i = 93 ∨ i = 94 then d.aesJobs == e.aesJobs && regs 0x40400000 0x40410000
  else if i = 95 then d.shaCtx == e.shaCtx && regs 0x40420000 0x40430000
  else if i = 101 then d.svc == e.svc && regs 0x40510000 0x40520000
  else if i = 102 then d.host == e.host && regs 0x40520000 0x40530000
  else if i = 103 ∨ i = 104 then sget I2cSt.init d.i2c (i - 103) == sget I2cSt.init e.i2c (i - 103) && regs (0x40530000 + 4096 * (i - 103)) (0x40531000 + 4096 * (i - 103))
  else if i = 105 then d.spi == e.spi && regs 0x40540000 0x40550000
  else if i = 106 ∨ i = 107 then sget UartSt.init d.uart (i - 106) == sget UartSt.init e.uart (i - 106) && regs (0x40550000 + 4096 * (i - 106)) (0x40551000 + 4096 * (i - 106))
  else if i = 108 then regs 0x40560000 0x40570000
  else if i = 109 then d.nfc == e.nfc && regs 0x40500000 0x40510000
  else if i = 110 then regs 0x40570000 0x40571000
  else true

/-- The gated domains to which a command delivered something run again (R7, R52): `d` the device before it. -/
def Dev.wakeBy (d e : Dev) : Dev :=
  { e with pwr := { e.pwr with gated := e.pwr.gated.filter (fun p => d.domainSame e p.1) } }

/-- A meaning that runs: the next state, the queue untouched. -/
def State.on (s : State) (f : Dev → Dev) : Host.Outcome State Fault Refusal := .next { s with dev := (s.dev.wakeBy (f s.dev)).settle }

/-- Field of a clock domain (Table 3.2). -/
def domainField (i : Nat) : Nat :=
  if i < 8 then 0 else if i < 28 then 1 else if i < 72 then 2 else if i < 80 then 3 else if i < 92 then 4 else if i < 100 then 5 else 6

/-- A command still waiting comes in the cycle of the one that runs, since a cycle passes only on an empty queue (log entry 10): an arrival among
them wins against a timeout (R17, R179). -/
def State.arrives (s : State) (p : Instr → Bool) : Bool := s.pending.any p

/-- A meaning in a root-derived domain: while those domains are stopped (R54 to R56, R372) nothing there happens. -/
def State.run (s : State) (f : Dev → Dev) : Host.Outcome State Fault Refusal := s.on fun d => if d.clk.stopped then d else f d

/-- A meaning in a part of the always-on field that OFF leaves without power: there only the wake logic has any (R368, Table 19.2). -/
def State.awake (s : State) (f : Dev → Dev) : Host.Outcome State Fault Refusal := s.on fun d => if d.pwr.off then d else f d

/-- A request `i` to the block whose register lies at `a`: it waits while that block has agreed to an entry (R371). -/
def State.ask (s : State) (i : Instr) (a : Nat) (f : Dev → Dev) : Host.Outcome State Fault Refusal :=
  s.run fun d => if d.restsAt a then d.hold i else f d

end Sys2Proof.Machine
end

