-- ==== Sys2Proof/Machine/ErrorLog.lean ====
section
/-! DEFINITION. The error log (chapter 24): taking a report, coalescing, overflow, and the reads that latch and pop. -/

namespace Sys2Proof.Machine

/-- A report comes before another in the order of R444: raised in an earlier cycle, or in the same cycle by the lower block,
or by the lower unit of one block. -/
def Report.before (a b : Report) : Bool :=
  if a.stamp ≠ b.stamp then decide (a.stamp < b.stamp)
  else if a.blk ≠ b.blk then decide (a.blk < b.blk)
  else decide (a.unit < b.unit)

/-- The report taken next. -/
def nextReport : List Report → Option Report
  | [] => none
  | r :: l =>
    match nextReport l with
    | none => some r
    | some m => if m.before r then some m else some r

/-- A core has latched the entry (R448). -/
def Dev.erlLatched (d : Dev) (id : Nat) : Bool :=
  d.cores.toList.any (fun c => match c.erl with | some (i, _) => i == id | none => false)

/-- N of ERL_STAT follows the FIFO. -/
def Dev.erlSync (d : Dev) : Dev := d.put ERL_STAT ERL_STAT_N d.erlFifo.length

/-- The newest entry of the FIFO. -/
def newestEntry (l : List ErlEntry) : Option ErlEntry := l.getLast?

/-- A report coalesces into an entry (R445). -/
def Dev.coalesces (d : Dev) (r : Report) (e : ErlEntry) : Bool :=
  r.blk == e.blk && r.unit == e.unit && r.code == e.code && !d.erlLatched e.id

/-- The log takes a report (R445): it coalesces, opens an entry, or is lost (R447). -/
def Dev.erlTake (d : Dev) (r : Report) : Dev :=
  let t := d.meshNow
  let fresh : Dev :=
    if d.erlFifo.length < 64 then
      let e : ErlEntry := ⟨d.erlNext, r.blk, r.unit, r.code, r.detail, t, 0, t % 2 ^ 32, r.extra⟩
      Dev.erlSync { d with erlFifo := d.erlFifo ++ [e], erlNext := d.erlNext + 1 }
    else d.lose r.blk r.unit r.code t
  match newestEntry d.erlFifo with
  | none => fresh
  | some e =>
    if d.coalesces r e then
      let e' := { e with rep := if e.rep = 0xFFFF then 0xFFFF else e.rep + 1, last := t % 2 ^ 32 }
      { d with erlFifo := d.erlFifo.dropLast ++ [e'] }
    else fresh

/-- The ten words of an entry (Table 24.4). -/
def ErlEntry.words (e : ErlEntry) : List Word :=
  [mkWord [(⟨31, 26⟩, e.blk), (⟨25, 12⟩, e.unit), (⟨7, 0⟩, e.code)], e.detail,
   BitVec.ofNat 32 e.first, BitVec.ofNat 32 (e.first / 2 ^ 32), mkWord [(⟨15, 0⟩, e.rep)], BitVec.ofNat 32 e.last,
   e.extra.getD 0 0, e.extra.getD 1 0, e.extra.getD 2 0, e.extra.getD 3 0]

/-- The word an empty log shows in ERL_ENT[0] (R448). -/
def erlEmpty : Word := 0xFC000000

/-- A read of ERL_ENT[0] by core `c` latches the oldest entry for it (R448). -/
def Dev.erlLatch (d : Dev) (c : Fin 7) : Dev :=
  match d.erlFifo with
  | [] => { d.setCore c { d.core c with erl := none } with rdata := erlEmpty }
  | e :: _ => { d.setCore c { d.core c with erl := some (e.id, e.words) } with rdata := e.words.getD 0 0 }

/-- Word `i` of the latch of core `c`; 0 (the reset value) while it latches nothing. -/
def Dev.erlWord (d : Dev) (c : Fin 7) (i : Nat) : Word :=
  match (d.core c).erl with
  | none => if i = 0 then erlEmpty else 0
  | some (_, w) => w.getD i 0

/-- A read of ERL_ENT[9] by core `c`: the oldest entry is popped if it is still the one latched (R448). -/
def Dev.erlPop (d : Dev) (c : Fin 7) : Dev :=
  let d := { d with rdata := d.erlWord c 9 }
  match (d.core c).erl, d.erlFifo with
  | some (i, _), e :: r => if e.id = i then Dev.erlSync { d with erlFifo := r } else d
  | _, _ => d

/-- A write of 1 to OVF: OVF and both VALID bits clear; a report lost in the same cycle wins, recorded as the first lost (R447, R14). -/
def Dev.ovfClear (d : Dev) : Dev :=
  if d.erlCyc = d.clk.cyc + 1 then (d.setReg ERL_FIRSTLOST (d.reg ERL_LASTLOST)).setReg ERL_FIRSTLT (d.reg ERL_LASTLT)
  else ((d.put ERL_STAT ERL_STAT_OVF 0).put ERL_FIRSTLOST ERL_FIRSTLOST_VALID 0).put ERL_LASTLOST ERL_LASTLOST_VALID 0

/-- Unread entries of a log that loses its power are counted as lost, in FIFO order, each with the time of its first report (R447; log entry 152). -/
def Dev.erlPowerDown (d : Dev) : Dev :=
  let d' := d.erlFifo.foldl (fun d e => d.lose e.blk e.unit e.code (e.first % 2 ^ 32)) d
  Dev.erlSync { d' with erlFifo := [] }

/-- The log takes the next waiting report (R444). -/
def Dev.erlTakeNext (d : Dev) : Dev :=
  match nextReport d.waiting with
  | none => d
  | some r => Dev.erlTake { d with waiting := d.waiting.erase r } r

/-- One of several reports that a piece of work raises as it goes: the work takes longer than the log, one report a cycle, so what waits is taken
before a third comes (R444; log entry 171). -/
def Dev.reportNext (d : Dev) (blk unit code : Nat) (detail : Word) (extra : List Word) : Dev :=
  let d := if 2 ≤ d.waitingOf blk ∧ d.fieldOn 1 then d.waiting.foldl (fun d _ => d.erlTakeNext) d else d
  d.report blk unit code detail extra

/-- ERROR_LOG_TAKE (R444, R445, R447): the log takes the next waiting report while its field is powered; with none waiting nothing happens. -/
def execErrorLogTake (s : State) : Host.Outcome State Fault Refusal :=
  s.run fun d => if d.fieldOn 1 then d.erlTakeNext else d

/-- ERROR_LOG_LATCH (R448). -/
def execErrorLogLatch (c : Fin 7) (s : State) : Host.Outcome State Fault Refusal :=
  s.run fun d => d.byCore c (ERL_ENT 0) false fun d => d.erlLatch c

/-- ERROR_LOG_POP (R448). -/
def execErrorLogPop (c : Fin 7) (s : State) : Host.Outcome State Fault Refusal :=
  s.run fun d => d.byCore c (ERL_ENT 9) false fun d => d.erlPop c

/-- OVF_CLEAR (R447). -/
def execOvfClear (c : Fin 7) (s : State) : Host.Outcome State Fault Refusal :=
  s.run fun d => d.byCore c ERL_STAT true fun d => d.ovfClear

end Sys2Proof.Machine
end

