-- ==== Sys2Proof/Machine/Radio.lean ====
section
/-! DEFINITION. Radio front end, synthesisers and the regulatory gate (chapter 5): the operations on receive chains,
transmissions and profiles, and the commands that need no other block. -/

namespace Sys2Proof.Machine

/-! ### Time in the gate -/

/-- Device time in 1/25 of a cycle of 122.88 MHz: 1 µs is 3,072. -/
def Dev.nowU (d : Dev) : Nat := 25 * d.clk.cyc
def usU (n : Nat) : Nat := 3072 * n

/-- The RTC's time base (R358). -/
def Dev.rtcNow (d : Dev) : Nat := d.pair RTC_T_LO RTC_T_HI

/-- `10 ^ (t / 40)` reaches `a / b`, for `t` in 0.25 dB steps: decided exactly on 40th powers. -/
def pow40 (t : Int) (a b : Nat) : Bool :=
  if 0 ≤ t then decide (a ^ 40 ≤ 10 ^ t.toNat * b ^ 40) else decide (a ^ 40 * 10 ^ (-t).toNat ≤ b ^ 40)

/-! ### Receive chains (R80 to R84) -/

def Dev.rxOf (d : Dev) (c : Nat) : RxSt := sget RxSt.init d.rx c
def Dev.setRx (d : Dev) (c : Nat) (x : RxSt) : Dev := { d with rx := sset RxSt.init d.rx c x }

def Dev.rcvOf (d : Dev) (u : Nat) : Rcv := sget Rcv.init d.rcv u
def Dev.setRcv (d : Dev) (u : Nat) (x : Rcv) : Dev := { d with rcv := sset Rcv.init d.rcv u x }

def Dev.slotOf (d : Dev) (n : Nat) : Slot := sget Slot.init d.slots n
def Dev.setSlot (d : Dev) (n : Nat) (x : Slot) : Dev := { d with slots := sset Slot.init d.slots n x }

/-- The GRID section of a chain (Table 4.10). -/
def Dev.grid (d : Dev) (c : Nat) : Option (List Byte) := d.sec tGRID c
def gridBw (g : List Byte) : Nat := u8 g 14
def gridChans (g : List Byte) : Nat := u16 g 12

/-- A bandwidth index in Hz (Table 4.10). -/
def bwHz (b : Nat) : Nat := 62500 * 2 ^ b

/-- W: the widest bandwidth of a BWMASK, 0 for none (R67). -/
def widest (m : Nat) : Nat :=
  match (span 0 5).reverse.find? (fun b => m.testBit b) with
  | none => 0
  | some b => bwHz b

/-- Centre of channel `k` (R67). -/
def gridCentre (g : List Byte) (k : Nat) : Int := (u32 g 0 : Int) + s32 g 4 + k * (u32 g 8 : Int)

/-- Band of a receive chain: 0 sub-GHz, 1 2.4 GHz; it is the number of the band's transmit chain. -/
def bandOf (c : Nat) : Nat := if c < 2 then 0 else 1

/-- STRIPS entry of strip `s` (Table 4.12): chain, flags, first and last channel. -/
def Dev.stripChain (d : Dev) (s : Nat) : Nat := match d.sec tSTRIPS 0 with
  | none => 0xFF
  | some b => u8 b (8 * s)
def Dev.stripReentry (d : Dev) (s : Nat) : Bool := (d.plan8 tSTRIPS 0 (8 * s + 1)).testBit 0
def Dev.stripServes (d : Dev) (s c k : Nat) : Bool :=
  decide (d.stripChain s = c ∧ d.plan8 tSTRIPS 0 (8 * s + 2) ≤ k ∧ k ≤ d.plan8 tSTRIPS 0 (8 * s + 3))

/-- The chain is powered and locked. -/
def Dev.rxReady (d : Dev) (c : Nat) : Bool := d.flag (RFC_RXSTAT c) RFC_RXSTAT_READY

/-- The front-end of a band is held in transmit. -/
def Dev.bandTx (d : Dev) (band : Nat) : Bool :=
  match sget none d.txs band with
  | some x => x.trsw
  | none => false

/-- BLANKED follows BLANK while the band transmits (R84); the 1 µs window in which a chain is blanked counts as blanked (R81). -/
def Dev.blankNow (d : Dev) (c : Nat) : Dev :=
  let b := d.bandTx (bandOf c) && d.flag (RFC_RXCTL c) RFC_RXCTL_BLANK
  let d := if b ∧ d.rxReady c then d.setRx c { d.rxOf c with blk := true } else d
  d.putB (RFC_RXSTAT c) RFC_RXSTAT_BLANKED b

/-- The symbols that the slots of a chain record now hold a gain step (R166, R380). -/
def Dev.slotStep (d : Dev) (c : Nat) : Dev :=
  { d with slots := d.slots.map (fun (p : Nat × Slot) => if p.2.chain = c ∧ p.2.state ≠ 0 then (p.1, { p.2 with steps := p.2.steps ++ [d.meshNow] }) else p) }

/-- A gain step falls in the symbols under way: those of every furrow of the chain and every MC demodulator on it that still demodulates what the chain
receives, AGCSTEP set for their reports (R136), and those of the packets that a slot of the chain records (R166). -/
def Dev.markStep (d : Dev) (c : Nat) : Dev :=
  let d := d.slotStep c
  { d with rcv := d.rcv.map (fun p =>
      if p.2.chain = c ∧ 1 ≤ p.2.state ∧ p.2.state ≤ 4 ∧ p.2.ended = false ∧ p.2.reent = none then (p.1, { p.2 with agc := true, step1 := true }) else p) }

/-- A gain step (R81): the state in use, AGCSTEP, the headland event, and the strips told. Every step, up, down or written, restarts the 4 µs in which
no further step down comes: the manual does not say which steps do (DESIGN CHOICE, log entry 136). -/
def Dev.gainStep (d : Dev) (c v : Nat) : Dev :=
  let d := d.put (RFC_RXSTAT c) RFC_RXSTAT_GAINNOW v
  let d := d.put (RFC_RXSTAT c) RFC_RXSTAT_AGCSTEP 1
  let d := d.setRx c { d.rxOf c with since := 0 }
  (d.hdlEvent (0x500 + c)).markStep c

/-- Reasons of RFC_RXSTAT.ERR. -/
def rxErrOVERCEIL : Nat := 1
def rxErrNOGRID : Nat := 2
def rxErrCLOCK : Nat := 3

/-- The chain is asked to power up (R80); before the calibration records are read the request waits (R385): refused without a grid, in FALLBACK or over the ceiling; nothing reaches an RF die that is isolated or in reset (R8). Where several hold at once ERR shows the first of
NOGRID, CLOCK and OVERCEIL, an order that R80 does not give (DESIGN CHOICE, log entry 137). -/
def Dev.rxOn (d : Dev) (c : Nat) : Dev :=
  let no := fun (d : Dev) (e : Nat) => (d.put (RFC_RXSTAT c) RFC_RXSTAT_ERR e).put (RFC_RXCTL c) RFC_RXCTL_ON 0
  if d.pwr.rfIso || d.pwr.rfReset then d
  else if !d.cal.loaded then d.put (RFC_RXCTL c) RFC_RXCTL_ON 1
  else if (d.grid c).isNone then no d rxErrNOGRID
  else if d.flag CLK_STAT CLK_STAT_FALLBACK then no d rxErrCLOCK
  else
    let r := d.requestResv (resvRx c) 125 1
    if r.1 then
      let d := r.2.put (RFC_RXCTL c) RFC_RXCTL_ON 1
      let d := d.put (RFC_RXSTAT c) RFC_RXSTAT_GAINNOW (d.get (RFC_RXCTL c) RFC_RXCTL_GAIN)
      d.setRx c ⟨true, 4, false⟩
    else no r.2 rxErrOVERCEIL

/-- A READY chain's channelizer and detector ask for their reservation (R40, Table 2.3), where its grid has channels and they hold none. -/
def Dev.detAsk (d : Dev) (c : Nat) : Bool × Dev :=
  match d.grid c with
  | some g => if gridBw g = 0 || 0 < d.resvOf (resvDet c) then (true, d) else d.requestResv (resvDet c) 100 1
  | none => (true, d)

/-- The strips of a chain wake and its channelizer and detector start, each with its own reservation, in ascending block number (R40, Table 2.3,
Table 19.1; log entry 20): one that does not fit stays down. -/
def Dev.rxWake (d : Dev) (c : Nat) : Dev :=
  ((span 0 16).foldl (fun d s => if d.stripChain s = c then (d.requestResv (resvStrip s) 30 0).2 else d) d).detAsk c |>.2

/-- A completed run of calibration kind `k` (R388). -/
def Dev.calRun (d : Dev) (k : Nat) : Dev := (d.count (CAL_CNT k)).setReg (CAL_LAST k) (BitVec.ofNat 32 (msOf d.meshNow))

/-- The pending corrections of a chain whose ON is cleared are dropped and counted as runs (R381). -/
def Dev.calDrop (d : Dev) (c : Nat) : Dev :=
  let p := d.get (CAL_CHSTAT c) CAL_CHSTAT_PEND
  let d := (span 0 3).foldl (fun d i => d.when (p.testBit i) (fun d => d.calRun (4 * i + c))) d
  (d.put (CAL_CHSTAT c) CAL_CHSTAT_PEND 0).put (CAL_CHSTAT c) CAL_CHSTAT_STALE 0

/-- The synthesiser of the chain locks and READY is set (R80). RXSYN of CALM has run (Table 20.1). A chain that is blanked then starts with a window of
blanked samples (R81, R84). -/
def Dev.rxReadyNow (d : Dev) (c : Nat) : Dev :=
  if (d.rxOf c).locking then
    let d := d.setRx c { d.rxOf c with locking := false, blk := d.flag (RFC_RXSTAT c) RFC_RXSTAT_BLANKED }
    let d := (d.put (RFC_RXSTAT c) RFC_RXSTAT_READY 1).rxWake c
    d.calRun (12 + c)
  else d

/-- RX_CHAIN_READY (R80). -/
def execRxChainReady (c : Fin 4) (s : State) : Host.Outcome State Fault Refusal := s.run fun d => d.rxReadyNow c

/-- AGC_WINDOW_END (R81): PEAK is shown; a full-scale sample counts; under AUTO, with no blanked sample in the window and no step in the
last 4 µs, it steps the gain down one state. -/
def execAgcWindowEnd (c : Fin 4) (peak : BitVec 8) (clip : Bool) (s : State) : Host.Outcome State Fault Refusal :=
  s.run fun d =>
    if d.rxReady c then
      let d := d.put (RFC_RXSTAT c) RFC_RXSTAT_PEAK peak.toNat
      let d := d.when clip (fun d => d.count (RFC_CLIPCNT c))
      let n := min 4 ((d.rxOf c).since + 1)
      let blk := (d.rxOf c).blk || d.flag (RFC_RXSTAT c) RFC_RXSTAT_BLANKED
      let d := d.setRx c { d.rxOf c with since := n, blk := d.flag (RFC_RXSTAT c) RFC_RXSTAT_BLANKED }
      let g := d.get (RFC_RXSTAT c) RFC_RXSTAT_GAINNOW
      if clip && d.get (RFC_RXCTL c) RFC_RXCTL_AGC == 1 && !blk && n == 4
          && decide (g < 7) then d.gainStep c (g + 1)
      else d
    else d

/-- AGC_STEP_UP (R81). -/
def execAgcStepUp (c : Fin 4) (s : State) : Host.Outcome State Fault Refusal :=
  s.run fun d =>
    let g := d.get (RFC_RXSTAT c) RFC_RXSTAT_GAINNOW
    if d.rxReady c && d.get (RFC_RXCTL c) RFC_RXCTL_AGC == 1 && !d.flag (RFC_RXSTAT c) RFC_RXSTAT_BLANKED && decide (0 < g)
    then d.gainStep c (g - 1) else d

/-- The fields of a write to RFC_RXCTL other than ON (R81, R84): a new GAIN acts at once while the chain is on. A BLANK set in
the 5 µs after TRSW has returned to receive leaves BLANKED 0 for the rest of them, of which the manual does not speak (DESIGN CHOICE, log entry 179). -/
def Dev.rxFields (d : Dev) (c : Nat) (v : Word) : Dev :=
  let a := RFC_RXCTL c
  let d := d.put a RFC_RXCTL_GAIN (getF v RFC_RXCTL_GAIN)
  let d := d.put a RFC_RXCTL_AGC (getF v RFC_RXCTL_AGC)
  let d := d.put a RFC_RXCTL_BLANK (getF v RFC_RXCTL_BLANK)
  let d := if d.bandTx (bandOf c) then d.blankNow c else d.when (getF v RFC_RXCTL_BLANK == 0) (fun d => d.blankNow c)
  let g := getF v RFC_RXCTL_GAIN
  if d.flag a RFC_RXCTL_ON && decide (g ≠ d.get (RFC_RXSTAT c) RFC_RXSTAT_GAINNOW) then d.gainStep c g else d

/-- GAIN_WRITE (R81): the GAIN field of RFC_RXCTL is written, the other fields kept. -/
def execGainWrite (c : Fin 7) (x : Fin 4) (g : BitVec 3) (s : State) : Host.Outcome State Fault Refusal :=
  s.run fun d => d.byCore c (RFC_RXCTL x) true fun d =>
    d.rxFields x (setF (d.reg (RFC_RXCTL x)) RFC_RXCTL_GAIN g.toNat)

/-- Bandwidth of an MC tap in Hz. -/
def mcHz (bw : Nat) : Nat := 1920000 * 2 ^ bw

/-- Half the captured segment of a chain, in Hz. -/
def segHz (c : Nat) : Nat := if c < 2 then 14000000 else 48000000

/-- A write to RFC_MCTAP (R83): a BW of 3 keeps the field, and a tap outside the segment leaves the register unchanged. -/
def Dev.mctapWrite (d : Dev) (m : Nat) (v : Word) : Dev :=
  let a := RFC_MCTAP m
  let w := if getF v RFC_MCTAP_BW = 3 then setF v RFC_MCTAP_BW (d.get a RFC_MCTAP_BW) else v
  let off := (sext 27 (getF w RFC_MCTAP_OFFSET_HZ)).natAbs
  if getF w RFC_MCTAP_EN = 1 ∧ 2 * segHz (getF w RFC_MCTAP_CHAIN) < 2 * off + mcHz (getF w RFC_MCTAP_BW) then d
  else d.setReg a w

/-- MCTAP_WRITE (R83). -/
def execMctapWrite (c : Fin 7) (m : Fin 2) (v : Word) (s : State) : Host.Outcome State Fault Refusal :=
  s.run fun d => d.byCore c (RFC_MCTAP m) true fun d => d.mctapWrite m v

/-- BLANKING_END (R84): no transmission of the band holds the front-end in transmit any more. -/
def execBlankingEnd (c : Fin 4) (s : State) : Host.Outcome State Fault Refusal :=
  s.run fun d => if d.bandTx (bandOf c) then d else d.put (RFC_RXSTAT c) RFC_RXSTAT_BLANKED 0

/-! ### Transmit synthesisers and power tables (R85, R86) -/

def Dev.txOf (d : Dev) (t : Nat) : Option TxRec := sget none d.txs t
def Dev.setTx (d : Dev) (t : Nat) (x : Option TxRec) : Dev := { d with txs := sset none d.txs t x }

/-- The carrier lies in the chain's band. -/
def inBand (t khz : Nat) : Bool :=
  if t = 0 then decide (400000 ≤ khz ∧ khz ≤ 1020000) else decide (2400000 ≤ khz ∧ khz ≤ 2500000)

/-- An entry joins the calibration queue. -/
def Dev.calEnqueue (d : Dev) (t i : Nat) : Dev :=
  if d.calQ.contains (256 * t + i) then d else { d with calQ := d.calQ ++ [256 * t + i] }

/-- A measurement of chain `t` is abandoned: its entry stays queued and the synthesiser powers down (R382). -/
def Dev.calAbandon (d : Dev) (t : Nat) : Dev :=
  match sget none d.calMeas t with
  | none => d
  | some i => ({ d with calMeas := sset none d.calMeas t none }.calEnqueue t i).put (SYN_STAT t) SYN_STAT_LOCK 0

/-- A write of FREQ_KHZ (R85, R382). -/
def Dev.calfWrite (d : Dev) (t i khz : Nat) : Dev :=
  let busy := match d.txOf t with
    | some x => x.ent == i
    | none => false
  if busy then d
  else
    let d := if sget none d.calMeas t = some i then d.calAbandon t else d
    let a := SYN_CALF t i
    let k := khz % 2 ^ 22
    if inBand t k then (d.setReg a (mkWord [(SYN_CALF_FREQ_KHZ, k)])).calEnqueue t i
    else
      let d := { d with calQ := d.calQ.filter (· ≠ 256 * t + i) }
      d.setReg a (mkWord [(SYN_CALF_BAD, 1), (SYN_CALF_FREQ_KHZ, k)])

/-- CALF_WRITE (R85). -/
def execCalfWrite (c : Fin 7) (t : Fin 2) (i : Fin 256) (v : Word) (s : State) : Host.Outcome State Fault Refusal :=
  s.run fun d => d.byCore c (SYN_CALF t i) true fun d => d.calfWrite t i (getF v SYN_CALF_FREQ_KHZ)

/-- Range of TARGET (R86). -/
def targetOk (t : Nat) (q : Int) : Bool := decide (-160 ≤ q ∧ q ≤ (if t = 0 then 88 else 80))

/-- RSV_MW of a power-table entry (R86): the largest `n` of the range with `n − ½` not above the exact figure. -/
def rsvMw (t : Nat) (q : Int) : Nat :=
  let k := if t = 0 then 117 else 100
  let slope := if t = 0 then 251 else 275
  ((span k 420).filter (fun n => pow40 q (100 * n - (100 * k + 50)) slope)).foldl max k

/-- A write to a power-table entry (R86); ignored while an armed or running transmission uses it. -/
def Dev.pwrtabWrite (d : Dev) (t i : Nat) (v : Word) : Dev :=
  let busy := match d.txOf t with
    | some x => x.pwr == i
    | none => false
  if busy then d
  else
    let q := sext 9 (getF v RFC_PWRTAB_TARGET)
    let ok := targetOk t q
    d.setReg (RFC_PWRTAB t i) (mkWord [(RFC_PWRTAB_RSV_MW, if ok then rsvMw t q else 0), (RFC_PWRTAB_VALID, ok.toNat),
      (RFC_PWRTAB_DRV, getF v RFC_PWRTAB_DRV), (RFC_PWRTAB_BIAS, getF v RFC_PWRTAB_BIAS),
      (RFC_PWRTAB_TARGET, getF v RFC_PWRTAB_TARGET)])

/-- PWRTAB_WRITE (R86). -/
def execPwrtabWrite (c : Fin 7) (t : Fin 2) (i : Fin 64) (v : Word) (s : State) : Host.Outcome State Fault Refusal :=
  s.run fun d => d.byCore c (RFC_PWRTAB t i) true fun d => d.pwrtabWrite t i v

/-! ### Profiles (R87) -/

def subAt (k : Nat) : Nat := 16 + 28 * k
def subLo (p : List Byte) (k : Nat) : Nat := u32 p (subAt k)
def subHi (p : List Byte) (k : Nat) : Nat := u32 p (subAt k + 4)
def subCeil (p : List Byte) (k : Nat) : Int := sext 16 (u16 p (subAt k + 8))
def subOn (p : List Byte) (k : Nat) : Bool := (u16 p (subAt k + 10)).testBit 0
def subDuty (p : List Byte) (k : Nat) : Nat := u32 p (subAt k + 12)
def subWindow (p : List Byte) (k : Nat) : Nat := u16 p (subAt k + 16)
def subTon (p : List Byte) (k : Nat) : Nat := u16 p (subAt k + 18)
def subToff (p : List Byte) (k : Nat) : Nat := u16 p (subAt k + 20)
def subDwell (p : List Byte) (k : Nat) : Nat := u16 p (subAt k + 22)
def subPeriod (p : List Byte) (k : Nat) : Nat := u32 p (subAt k + 24)

/-- A sub-band entry lies within its limits (Table 5.3), its edges within the chain's band. -/
def subOk (t : Nat) (p : List Byte) (k : Nat) : Bool :=
  decide (subLo p k < subHi p k) && inBand t (subLo p k) && inBand t (subHi p k)
    && decide (u16 p (subAt k + 10) ≤ 1 ∧ 1 ≤ subDuty p k ∧ subDuty p k ≤ 1000000 ∧ 64 ≤ subWindow p k)
    && (if subDwell p k = 0 then subPeriod p k == 0 else decide (1 ≤ subPeriod p k ∧ subPeriod p k ≤ 60000))

/-- The layout of a profile is valid for chain `t` at place `i` (R87); its CMAC is judged beside it. -/
def profileOk (t i : Nat) (p : List Byte) : Bool :=
  let n := u8 p 7
  u32 p 0 == 0x4750584B && u8 p 4 == 1 && u8 p 5 == i && u8 p 6 == t && decide (1 ≤ n ∧ n ≤ 8) && u16 p 14 == 0
    && (span 0 8).all (fun k => if k < n then subOk t p k else ((p.drop (subAt k)).take 28).all (· == 0))

def Dev.gateOf (d : Dev) (t : Nat) : GateSt := sget GateSt.init d.gates t
def Dev.setGate (d : Dev) (t : Nat) (g : GateSt) : Dev := { d with gates := sset GateSt.init d.gates t g }

/-- Address of profile `i` in bank 2 (R87). -/
def profileAddr (i : Nat) : Nat := flashFull + 0x01000000 + 256 * i

/-- A history that starts empty now, with a fresh hold (R91). -/
def Dev.gateFresh (d : Dev) (t : Nat) (p : List Byte) : Dev :=
  d.setGate t ⟨p, d.nowU, [], [], [], true, d.rtcNow⟩

/-- The gate loads a profile (R87, R91): a different index or CMAC clears the history and starts a fresh hold. `swap` tells a
re-sowing or start-up sowing after the first from the loading that follows a POR, whose hold runs from the RTC start. -/
def Dev.loadProfile (d : Dev) (t : Nat) (p : List Byte) : Dev :=
  let g := d.gateOf t
  let d := d.setReg (RFC_PROF t) (mkWord [(RFC_PROF_VALID, 1), (RFC_PROF_NSUB, u8 p 7), (RFC_PROF_INDEX, u8 p 5)])
  if g.prof = [] then d.setGate t { g with prof := p }
  else if u8 g.prof 5 = u8 p 5 ∧ g.prof.drop 0xF0 = p.drop 0xF0 then d.setGate t { g with prof := p }
  else d.gateFresh t p

/-! ### Sections of the gate (Tables 4.16, 4.17) -/

def Dev.txEnabled (d : Dev) (t : Nat) : Bool := (d.sec tRADIO 0).isSome && d.plan8 tRADIO 0 (4 * t) == 1
def Dev.coexOn (d : Dev) : Bool := (d.sec tCOEX 0).isSome && d.plan8 tCOEX 0 0 == 1
def Dev.coexPri (d : Dev) (cls : Nat) : Nat := d.plan8 tCOEX 0 (4 + 4 * cls) % 2
def Dev.coexLead (d : Dev) (cls : Nat) : Nat := if d.coexOn then d.plan8 tCOEX 0 (5 + 4 * cls) else 0
def Dev.coexAborts (d : Dev) (cls : Nat) : Bool := d.coexOn && d.plan8 tCOEX 0 (6 + 4 * cls) == 1

/-- The arming lead of R88, in µs. -/
def Dev.armLead (d : Dev) (cls : Nat) : Nat :=
  max 24 (if d.coexOn then d.coexLead cls + 4 else 4)

/-- A RADIO swap waits for chain `t`. -/
def Dev.radioWaits (d : Dev) (t : Nat) : Bool := d.sow.waiting.any (fun x => x.typ == tRADIO && x.inst == t)

/-! ### The gate (R88 to R91) -/

/-- What an arming request carries. -/
structure Arming where
  req   : TxReq
  cls   : Nat
  ent   : Nat
  bHz   : Nat
  pwr   : Nat
  start : Nat
  toa   : Nat
  frame : List Byte
  slot  : Option Nat
  mode  : Nat
  rate  : Nat
  pre   : Nat
  sync  : Nat
  deriving DecidableEq, Repr

/-- The lowest enabled sub-band that holds the occupied range. -/
def subBandOf (p : List Byte) (khz bHz : Nat) : Option Nat :=
  (span 0 (u8 p 7)).find? (fun k => subOn p k && decide (2000 * subLo p k + bHz ≤ 2000 * khz ∧ 2000 * khz + bHz ≤ 2000 * subHi p k))

/-- Length of a duty bucket in µs (R89). -/
def bucketUs (p : List Byte) (k : Nat) : Nat := max 1 (subWindow p k * 1000000 / 64)

/-- The bucket of an instant. -/
def bucketAt (g : GateSt) (k now : Nat) : Nat := (now - g.born) / usU (bucketUs g.prof k)

/-- Used time of a sub-band in µs (R89): the current bucket and the 63 before it. -/
def usedUs (g : GateSt) (k now : Nat) : Nat :=
  let b := bucketAt g k now
  ((g.used.filter (fun p => p.1 % 8 = k ∧ p.1 / 8 ≤ b ∧ b < p.1 / 8 + 64)).map (·.2)).foldl (· + ·) 0

/-- The hold of POR_HOLD_S still runs (R91): RTC_T has not reached its end, in half range (Table 24.6). -/
def Dev.held (d : Dev) (t : Nat) : Bool :=
  let g := d.gateOf t
  g.hold && !atOrPast d.rtcNow (g.holdT + u16 g.prof 12 * 122880000)

/-- Trackers whose period still runs. -/
def liveTrackers (g : GateSt) (now : Nat) : List Tracker := g.track.filter (fun x => decide (now < x.upto))

/-- The dwell check of R90 fails. -/
def dwellFails (g : GateSt) (k khz onUs now : Nat) : Bool :=
  let lim := 1000 * subDwell g.prof k
  let l := liveTrackers g now
  decide (subDwell g.prof k ≠ 0) && (decide (lim < onUs) ||
    match l.find? (fun x => x.khz == khz) with
    | some x => decide (lim < x.used + onUs)
    | none => decide (64 ≤ l.length))

/-- The first failing check of Table 5.4 before the ceiling, by code; `none` when all pass, with the sub-band. An RF die that is isolated or in reset
gives no carrier (R8), and no sub-band holds it (FREQ; log entry 163). -/
def Dev.gateCheck (d : Dev) (t : Nat) (r : Arming) : Nat ⊕ Nat :=
  let g := d.gateOf t
  let khz := d.get (SYN_CALF t r.ent) SYN_CALF_FREQ_KHZ
  let onUs := r.toa + 4
  let now := d.nowU
  if !d.txEnabled t || d.radioWaits t then .inl 1
  else if d.flag CLK_STAT CLK_STAT_FALLBACK then .inl 2
  else if d.flag PWR_MON PWR_MON_OVER then .inl 3
  else if (d.txOf t).isSome then .inl 4
  else if r.start < now + usU (d.armLead r.cls) then .inl 5
  else if d.pwr.rfIso || d.pwr.rfReset then .inl 6
  else
    match subBandOf g.prof khz r.bHz with
    | none => .inl 6
    | some k =>
      let e := RFC_PWRTAB t r.pwr
      if !d.flag e RFC_PWRTAB_VALID || decide (subCeil g.prof k < sext 9 (d.get e RFC_PWRTAB_TARGET)) then .inl 7
      else if !d.flag (SYN_CALF t r.ent) SYN_CALF_VALID then .inl 8
      else if subTon g.prof k ≠ 0 ∧ 1000 * subTon g.prof k < onUs then .inl 9
      else if (match sget none g.ends k with
          | some e => decide (subToff g.prof k ≠ 0 ∧ r.start < e + usU (1000 * subToff g.prof k) + usU 2)
          | none => false) then .inl 10
      else if dwellFails g k khz onUs now then .inl 11
      else if subDuty g.prof k * subWindow g.prof k < usedUs g k now + onUs then .inl 12
      else if d.held t then .inl 13
      else .inr k

/-- A refusal leaves its code in LAST and counts (R88). -/
def Dev.gateRefuse (d : Dev) (t code : Nat) : Dev :=
  let d := d.put (RFC_TXSTAT t) RFC_TXSTAT_LAST code
  (d.count (RFC_REFUSE t)).put (RFC_REFUSE t) RFC_REFUSE_CODE code

/-- A dwell tracker charged, or started at `start − 2 µs` (R90). -/
def chargeDwell (l : List Tracker) (khz onUs start periodMs : Nat) : List Tracker :=
  if l.any (fun x => x.khz == khz) then
    l.map (fun x => if x.khz = khz then { x with used := x.used + onUs } else x)
  else l ++ [⟨khz, start - usU 2 + usU (1000 * periodMs), onUs⟩]

/-- Admission (R88 to R90): the chain is held, duty and dwell charged. -/
def Dev.gateAdmit (d : Dev) (t k : Nat) (r : Arming) : Dev :=
  let g := d.gateOf t
  let khz := d.get (SYN_CALF t r.ent) SYN_CALF_FREQ_KHZ
  let onUs := r.toa + 4
  let b := bucketAt g k d.nowU
  let dw := decide (subDwell g.prof k ≠ 0)
  let g := { g with used := sset 0 g.used (8 * b + k) (sget 0 g.used (8 * b + k) + onUs) }
  let g := if dw then { g with track := chargeDwell (liveTrackers g d.nowU) khz onUs r.start (subPeriod g.prof k) } else g
  let x : TxRec := { req := r.req, cls := r.cls, ent := r.ent, khz := khz, bHz := r.bHz, pwr := r.pwr, start := r.start, toa := r.toa, sub := k, bucket := b, onUs := onUs, dwell := dw, drv := d.cal.drvT, raised := false, noGnt := false, trsw := false, paen := false, ramped := false, code := 0, frame := r.frame, slot := r.slot, mode := r.mode, rate := r.rate, pre := r.pre, last := 0, sync := r.sync, air := .none }
  let d := (d.setGate t g).setTx t (some x)
  (d.put (RFC_TXSTAT t) RFC_TXSTAT_STATE 1).put (RFC_TXSTAT t) RFC_TXSTAT_ENTRY r.pwr

/-- Arming (R88): 0 when admitted, else the refusal code; a measurement of the synthesiser is abandoned either way (R382). -/
def Dev.gateArm (d : Dev) (t : Nat) (r : Arming) : Nat × Dev :=
  let d := d.calAbandon t
  match d.gateCheck t r with
  | .inl c => (c, d.gateRefuse t c)
  | .inr k =>
    let q := d.requestResv (resvTx t) (d.get (RFC_PWRTAB t r.pwr) RFC_PWRTAB_RSV_MW) 5
    if q.1 then (0, q.2.gateAdmit t k r) else (14, q.2.gateRefuse t 14)

/-- A charge given back in full (R89, R90). A tracker that the refunded transmission had started stays in use, with nothing charged, until its period
has run: the manual does not say whether it frees (DESIGN CHOICE, log entry 135). -/
def Dev.gateRefund (d : Dev) (t : Nat) (x : TxRec) : Dev :=
  let g := d.gateOf t
  let key := 8 * x.bucket + x.sub
  let g := { g with used := sset 0 g.used key (sget 0 g.used key - x.onUs) }
  let g := if x.dwell then
      { g with track := g.track.map (fun k => if k.khz = x.khz then { k with used := k.used - x.onUs } else k) }
    else g
  d.setGate t g

/-- The end of the last transmission in a sub-band (R88). -/
def Dev.gateEnd (d : Dev) (t k : Nat) : Dev :=
  let g := d.gateOf t
  d.setGate t { g with ends := sset none g.ends k (some d.nowU) }

/-! ### Coexistence (R94 to R96) -/

/-- COEX_REQ and COEX_PRI follow the raised requests. -/
def Dev.coexSync (d : Dev) : Dev :=
  let l := ((span 0 2).filterMap (fun t => d.txOf t)).filter (·.raised)
  let d := d.putB COX_STAT COX_STAT_REQ (!l.isEmpty)
  d.putB COX_STAT COX_STAT_PRI (l.any (fun x => d.coexPri x.cls == 1))

/-- One more transmission in a row without grant (R95). -/
def Dev.coexMiss (d : Dev) : Dev :=
  let n := min 255 (d.get COX_STAT COX_STAT_CONSEC + 1)
  let d := d.put COX_STAT COX_STAT_CONSEC n
  if n = 16 then (d.put COX_STAT COX_STAT_GNTSTUCK 1).report 23 0 1 (BitVec.ofNat 32 n) [] else d

/-- A grant seen (R95). -/
def Dev.coexSeen (d : Dev) : Dev := d.put COX_STAT COX_STAT_CONSEC 0

/-! ### The end of a transmission (R92) -/

/-- Sections that wait for the end of a transmission apply (Table 4.20): RADIO of a chain when it holds none, COEX when no
chain holds one. A RADIO section waits as its two halves, `inst` naming the chain. -/
def halfOver (old new : List Byte) (t : Nat) : List Byte :=
  let g := fun (b : List Byte) i => b.getD i 0
  if t = 0 then [g new 0, g new 1, g new 2, g new 3, g old 4, g old 5, g old 6, 0]
  else [g old 0, g old 1, g old 2, g old 3, g new 4, g new 5, g new 6, 0]

def putSec (l : List Section) (x : Section) : List Section :=
  (l.filter (fun y => !(y.typ == x.typ && y.inst == x.inst))) ++ [x]

def Dev.setSec (d : Dev) (x : Section) : Dev := { d with sow := { d.sow with force := putSec d.sow.force x } }

/-- One half of a RADIO section applies to its chain (R87, R91). -/
def Dev.radioApply (d : Dev) (t : Nat) (body : List Byte) : Dev :=
  let d := d.setSec ⟨tRADIO, 0, halfOver ((d.sec tRADIO 0).getD []) body t⟩
  match d.profStaged.find? (fun p => p.1 == t) with
  | some p => d.loadProfile t p.2
  | none => d

/-- The last section of a swap has applied (R76, R77): the new plan is the one in force. -/
def Dev.sowSettle (d : Dev) : Dev :=
  let w := d.sow
  match w.staged with
  | some p =>
    if (d.get SOW_STAT SOW_STAT_STATE = 4 ∨ d.get SOW_STAT SOW_STAT_STATE = 5) ∧ w.draining = [] ∧ w.reloading = [] ∧ w.resuming = []
        ∧ w.waiting = [] then
      let d := { d with sow := { w with staged := none, fromSram := w.fromSram || decide (0x20000000 ≤ p.addr) } }
      let d := ((d.setReg SOW_SEQ (BitVec.ofNat 32 p.seq)).put SOW_STAT SOW_STAT_STATE 6).put SOW_STAT SOW_STAT_RECOVERY 0
      (d.put SOW_STAT SOW_STAT_DONE 1).count SOW_OKCNT
    else d
  | none => d

/-- Waiting sections whose boundary has come. -/
def Dev.sowRelease (d : Dev) : Dev :=
  let due := fun (x : Section) =>
    if x.typ = tRADIO then (d.txOf x.inst).isNone else (d.txOf 0).isNone && (d.txOf 1).isNone
  let l := d.sow.waiting.filter due
  let d := { d with sow := { d.sow with waiting := d.sow.waiting.filter (fun x => !due x) } }
  Dev.sowSettle (l.foldl (fun (d : Dev) x => if x.typ = tRADIO then d.radioApply x.inst x.body else d.setSec x) d)

/-- Neither transmit chain is between setup and stop (R93). -/
def Dev.antFree (d : Dev) : Bool := (span 0 2).all (fun t => decide (d.get (RFC_TXSTAT t) RFC_TXSTAT_STATE < 2))

/-- A pending antenna choice takes effect once nothing is between setup and stop (R93). -/
def Dev.antSync (d : Dev) : Dev :=
  if d.antFree then { d.put RFC_ANT RFC_ANT_PEND 0 with antSel := d.flag RFC_ANT RFC_ANT_SEL } else d

/-- The chain stops: lines back, request released, end status, reservation released, what waited for the stop applies. -/
def Dev.txFinish (d : Dev) (t code : Nat) : Dev :=
  let d := d.setTx t none
  let d := (d.put (RFC_TXSTAT t) RFC_TXSTAT_STATE 0).put (RFC_TXSTAT t) RFC_TXSTAT_LAST code
  let d := (d.put (SYN_STAT t) SYN_STAT_LOCK 0).setResv (resvTx t) 0
  d.coexSync.antSync.sowRelease

/-- A transmission that ends before its ramp (R89, R92): charges refunded; ABANDONED counts (R94, R95). -/
def Dev.txDrop (d : Dev) (t : Nat) (x : TxRec) (code : Nat) : Dev :=
  let d := d.gateRefund t x
  let d := d.when (decide (code = 0x22)) (fun d => (d.count COX_TOCNT).coexMiss)
  d.txFinish t code

/-- Stopped without a ramp by R25, R38 or R54: STOPPED. -/
def Dev.txStop (d : Dev) (t : Nat) (x : TxRec) : Dev :=
  if x.ramped then (d.gateEnd t x.sub).txFinish t 0x25 else d.txDrop t x 0x25

/-- ANTENNA_WRITE (R93). -/
def execAntennaWrite (c : Fin 7) (sel : Bool) (s : State) : Host.Outcome State Fault Refusal :=
  s.run fun d => d.byCore c RFC_ANT true fun d =>
    ((d.putB RFC_ANT RFC_ANT_SEL sel).put RFC_ANT RFC_ANT_PEND 1).antSync

/-- DWELL_TRACKER_FREE (R90): the tracker's period has run. -/
def execDwellTrackerFree (t : Fin 2) (khz : BitVec 22) (s : State) : Host.Outcome State Fault Refusal :=
  s.run fun d =>
    let g := d.gateOf t
    d.setGate t { g with track := g.track.filter (fun x => decide (x.khz ≠ khz.toNat) || decide (d.nowU < x.upto)) }

/-- TX_HOLD_END (R91): RTC_T has advanced by POR_HOLD_S, which a profile loaded gives. -/
def execTxHoldEnd (t : Fin 2) (s : State) : Host.Outcome State Fault Refusal :=
  s.run fun d => if d.held t || (d.gateOf t).prof == [] then d else d.setGate t { d.gateOf t with hold := false }

/-- COX_STAT as a read shows it (R99): GNT and ACT follow their balls, whose levels no command gives but at the instants the transmissions sample
them; where a headland channel follows the ball the stored bit is its level, else an open bit while the balls are received (log entry 127). -/
def Dev.coxView (d : Dev) : Word × Dev :=
  let f := d.free
  let named (p : Nat) : Bool := (span 0 256).any (fun a => u16 ((d.sec tHEADLAND 0).getD []) (4 + 4 * a) == p)
  let bit := fun (w : Word) (fl : Fld) (p : Nat) => if named p then w else setF w fl (f.1.getLsbD fl.lo).toNat
  if d.pwr.pins = .sown ∧ (d.sec tCOEX 0).isSome then (bit (bit (d.reg COX_STAT) COX_STAT_GNT 0x700) COX_STAT_ACT 0x701, f.2)
  else (setF (setF (d.reg COX_STAT) COX_STAT_GNT 0) COX_STAT_ACT 0, f.2)

/-- RFC_DUTY as a read shows it (Table 5.16). -/
def Dev.dutyView (d : Dev) (t k : Nat) : Word :=
  let g := d.gateOf t
  let u := if g.prof = [] then 0 else usedUs g k d.nowU
  mkWord [(RFC_DUTY_HOLD, (d.held t && decide (g.prof ≠ [])).toNat), (RFC_DUTY_USED_MS, ceilDiv u 1000)]

/-! ### Levels of the front-end lines (Table 5.6) -/

/-- `none` while the RF die's lines are not driven (R25, R92). -/
def Dev.pinFem (d : Dev) (t line : Nat) : Option Bool :=
  if d.pwr.femDriven then
    let lvl := match line with
      | 0 => match d.txOf t with
        | some x => x.paen
        | none => false
      | 1 => d.bandTx t
      | _ => decide (2 ≤ d.get (RFC_TXSTAT t) RFC_TXSTAT_STATE) || d.flag (RFC_RXCTL (2 * t)) RFC_RXCTL_ON
          || d.flag (RFC_RXCTL (2 * t + 1)) RFC_RXCTL_ON
    some (lvl != (d.plan8 tRADIO 0 (4 * t + 2)).testBit line)
  else none

def Dev.pinAnt (d : Dev) : Option Bool :=
  if d.pwr.femDriven then some (d.antSel != (d.plan8 tRADIO 0 3).testBit 0) else none

def Dev.pinCoex (d : Dev) (pri : Bool) : Option Bool :=
  if decide (d.pwr.pins = .sown) && (d.sec tCOEX 0).isSome then
    some (if pri then d.flag COX_STAT COX_STAT_PRI else d.flag COX_STAT COX_STAT_REQ)
  else none

end Sys2Proof.Machine
end

