-- ==== Sys2Proof/Machine/Keys.lean ====
section
/-! DEFINITION. Fuses, key slots, persistent counters and the key-store commands (chapter 11). -/

namespace Sys2Proof.Machine

/-! ### Fuses (R218, R219, R449) -/

def Dev.fuseWord (d : Dev) (i : Nat) : Word := sget 0 d.fuse i

/-- The bytes of a run of fuse words, each word's low byte first (log entry 22). -/
def Dev.fuseBytes (d : Dev) (i n : Nat) : List Byte := (span i n).flatMap (fun k => leBytes 4 (d.fuseWord k).toNat)

/-- Two reads of a fuse word resolve as Table 24.5 gives. -/
def fuseResolve (i : Nat) (a b : Word) : Word :=
  if i = 50 then
    mkWord [(⟨3, 0⟩, getF (a ||| b) ⟨3, 0⟩), (⟨15, 8⟩, min (getF a ⟨15, 8⟩) (getF b ⟨15, 8⟩))]
  else a

/-- A fuse word among a run read differently at the two margins. -/
def Dev.fuseMarginal (d : Dev) (i n : Nat) : Bool := d.fuseBad.any (fun k => decide (i ≤ k ∧ k < i + n))

/-- KHASHi counts as revoked (R218). -/
def Dev.revoked (d : Dev) (i : Nat) : Bool := (d.fuseWord 50).getLsbD i || d.blown.testBit i || d.fuseMarginal (16 + 8 * i) 8

/-- ROOTi is absent or unusable. -/
def Dev.rootBad (d : Dev) (i : Nat) : Bool :=
  d.fuseMarginal (8 * i) 8 || (span (8 * i) 8).all (fun k => d.fuseWord k == 0)

def Dev.uidBad (d : Dev) : Bool := d.fuseMarginal 48 2

/-- DEVUID, big-endian in a nonce (R238); the fuses hold it before they are read for the first time. -/
def Dev.devuid (d : Dev) : Nat :=
  if d.fuseRead then (d.fuseWord 48).toNat + 2 ^ 32 * (d.fuseWord 49).toNat else Config.fuseUid % 2 ^ 64

/-- The silicon revision in the encoding of MINREV. -/
def Dev.silicon (d : Dev) : Nat := getF (d.fuseWord 50) ⟨15, 8⟩

/-- KEY_STAT and the identifier registers follow the fuses. -/
def Dev.fuseShow (d : Dev) : Dev :=
  let a := KEY_STAT
  let rv := ((span 0 4).map (fun i => if d.revoked i then 2 ^ i else 0)).foldl (· + ·) 0
  let d := d.put a KEY_STAT_REVOKED rv
  let d := (d.putB a KEY_STAT_ROOT0BAD (d.rootBad 0)).putB a KEY_STAT_ROOT1BAD (d.rootBad 1)
  let d := d.putB a KEY_STAT_UIDBAD d.uidBad
  (d.setReg KEY_UID_LO (d.fuseWord 48)).setReg KEY_UID_HI (d.fuseWord 49)

/-- The fuse words are read at both margins (R449): each resolves, a differing one is marked in ERL_FUSE and reported. -/
def Dev.readFuses (d : Dev) (reads : List (Word × Word)) : Dev :=
  let d := { d with fuse := [], fuseBad := [], fuseRead := true }
  let d := ((span 0 51).zip reads).foldl (fun d p =>
    let d := { d with fuse := sset 0 d.fuse p.1 (fuseResolve p.1 p.2.1 p.2.2) }
    if p.2.1 = p.2.2 then d
    else
      let d := { d with fuseBad := d.fuseBad ++ [p.1] }
      let d := d.put (ERL_FUSE (p.1 / 32)) ⟨p.1 % 32, p.1 % 32⟩ 1
      d.reportNext 37 p.1 1 (p.2.1 ^^^ p.2.2) []) d
  d.fuseShow

/-! ### Persistent counters in bank 2 (R227 to R229) -/

/-- Address of a counter's two sectors (Table 11.6). -/
def ctrBase (c : Nat) : Nat := flashAt (0x01020000 + 0x2000 * c)

/-- The 16 bytes of a record (Table 11.7). -/
def ctrRecord (c v : Nat) : List Byte :=
  let b : List Byte := [0x43, 0x4D, BitVec.ofNat 8 c, 0] ++ leBytes 4 v ++ leBytes 4 (v ^^^ 0xFFFFFFFF)
  b ++ leBytes 4 (crc32 b)

/-- The record in a flash word is valid at the margin `m` (0 raised, 1 lowered) (R227). -/
def Dev.ctrValid (d : Dev) (c a m : Nat) : Bool :=
  let b := d.seen a 16
  !(sget 0 d.flWeak (a / 16)).testBit m && !d.wordBad a && b == ctrRecord c (u32 b 4)

/-- Valid at both margins. -/
def Dev.ctrSound (d : Dev) (c a : Nat) : Bool := d.ctrValid c a 0 && d.ctrValid c a 1

/-- The words of a counter. -/
def ctrWords (c : Nat) : List Nat := (span 0 512).map (fun i => ctrBase c + 16 * i)

/-- Value of a counter from its records, with the word that fixes it: among records of that value one valid at both margins where there is
one, so that a repaired counter is whole (DEDUCED, log entry 139). -/
def Dev.ctrScan (d : Dev) (c : Nat) : Nat × Option Nat :=
  (ctrWords c).foldl (fun (r : Nat × Option Nat) a =>
    if d.ctrValid c a 0 || d.ctrValid c a 1 then
      let v := u32 (d.seen a 16) 4
      let better := match r.2 with
        | none => true
        | some p => decide (r.1 < v) || (r.1 == v && d.ctrSound c a && !d.ctrSound c p)
      if better then (v, some a) else r
    else r) (0, none)

def Dev.ctrVal (d : Dev) (c : Nat) : Nat := (d.reg (KEY_CTR c)).toNat

/-- cap(c) (R229). -/
def ctrCap (c : Nat) : Nat := if c = 2 ∨ (4 ≤ c ∧ c ≤ 31) then 0x00100000 else 0xFFFFFFFF

/-- The lowest erased word of a sector. -/
def Dev.erasedWord (d : Dev) (sector : Nat) : Option Nat :=
  ((span 0 256).map (fun i => sector + 16 * i)).find? d.blankWord

/-- One attempt of a raise: the record goes to the active sector's lowest erased word, or the other sector is erased first. -/
def Dev.ctrTry (d : Dev) (c v active : Nat) (ok : Bool) : Dev × Nat :=
  match d.erasedWord active with
  | some a => (d.progVerify a (ctrRecord c v) ok, active)
  | none =>
    let other := ctrBase c + (if active = ctrBase c then 4096 else 0)
    ((d.eraseSector other).progVerify other (ctrRecord c v) ok, other)

/-- Results of Table 11.13. -/
def krOK : Nat := 1
def krBUSY : Nat := 2
def krBADBLOB : Nat := 3
def krICV : Nat := 4
def krNOROOT : Nat := 5
def krNOKEK : Nat := 6
def krSTALEGEN : Nat := 7
def krDUPCTR : Nat := 8
def krNOTFOUND : Nat := 9
def krRAISEFAIL : Nat := 10
def krCOUNTMAX : Nat := 11
def krLASTKEY : Nat := 12
def krRNG : Nat := 13
def krDENIED : Nat := 14
def krBUSFAULT : Nat := 15

/-- The sector that holds the record of a counter's value. -/
def Dev.ctrActive (d : Dev) (c : Nat) : Nat :=
  match (d.ctrScan c).2 with
  | some a => a / 4096 * 4096
  | none => ctrBase c

/-- SLOW does not keep the flash from a new erase or program (R37). -/
def Dev.mayProg (d : Dev) : Bool := !d.flag PWR_SUPPLY PWR_SUPPLY_SLOW

/-- A raise of counter `c` to `v` (R229), without the accounting of its failure. `go`: SLOW did not refuse its start. `outs` gives, attempt by
attempt, whether the record verifies at both margins; none given means it does. -/
def Dev.raiseCore (d : Dev) (go : Bool) (c v : Nat) (repair : Bool) (outs : List Bool) : Nat × Dev :=
  if v ≤ d.ctrVal c ∧ !repair then (krOK, d)
  else if ctrCap c < v then (krCOUNTMAX, d)
  else if d.pwr.flIso then (krRAISEFAIL, d)
  else if !go then (krRAISEFAIL, d.count (FLC_CNT 5))
  else
    let d := d.bankServed 2
    let ok1 := outs.getD 0 true
    let r := d.ctrTry c v (d.ctrActive c) ok1
    if ok1 then (krOK, r.1.setReg (KEY_CTR c) (BitVec.ofNat 32 v))
    else
      let ok2 := outs.getD 1 true
      let q := r.1.ctrTry c v r.2 ok2
      if ok2 then (krOK, q.1.setReg (KEY_CTR c) (BitVec.ofNat 32 v)) else (krRAISEFAIL, q.1)

/-- A raise, a failure counted and RAISEF set; of a counter whose repair failed it fails (R228). -/
def Dev.raiseGo (d : Dev) (go : Bool) (c v : Nat) (outs : List Bool) : Nat × Dev :=
  let r := if d.ctrBad.contains c then (krRAISEFAIL, d) else d.raiseCore go c v false outs
  if r.1 = krRAISEFAIL then (r.1, (r.2.count (KEY_CNT 3)).put KEY_STAT KEY_STAT_RAISEF 1) else r

/-- A raise that starts now. -/
def Dev.raise (d : Dev) (c v : Nat) (outs : List Bool) : Nat × Dev := d.raiseGo d.mayProg c v outs

/-- The raise needs an erase, and bank 2 erases: an engine's erase that meets an erase waits for it to end (R306). Start-up work that is not done
holds every engine (R313). -/
def Dev.raiseWaits (d : Dev) (c v : Nat) : Bool :=
  decide (d.ctrVal c < v) && !d.pwr.flIso &&
    (!d.flag FLC_BOOT FLC_BOOT_READY || (((d.bankOfs 2).op == 3 || d.flag (FLC_STAT 2) FLC_STAT_MOVE || d.cal.store.isSome) && (d.erasedWord (d.ctrActive c)).isNone))

/-- A counter is read from bank 2 (R228); a record not valid at both margins is renewed and counted TORN; the outcome of the programming is
`outs`. A counter whose repair fails keeps its value and is marked. -/
def Dev.scanCtr (d : Dev) (c : Nat) (outs : List Bool) : Dev :=
  let d := d.touchRange (ctrBase c) 8192
  let r := d.ctrScan c
  let d := { d.setReg (KEY_CTR c) (BitVec.ofNat 32 r.1) with ctrBad := d.ctrBad.filter (· ≠ c), ctrLeft := d.ctrLeft.filter (· ≠ c) }
  match r.2 with
  | none => d
  | some a =>
    if d.ctrSound c a then d
    else
      let q := (d.count (KEY_CNT 4)).raiseCore d.mayProg c r.1 true outs
      if q.1 = krOK then q.2
      else Dev.put { q.2.count (KEY_CNT 3) with ctrBad := q.2.ctrBad ++ [c] } KEY_STAT KEY_STAT_RAISEF 1

/-- The counters not read since the last system reset are read, before the keep field serves anything (R228). -/
def Dev.scanned (d : Dev) : Dev := if d.pwr.flIso then d else d.ctrLeft.foldl (fun (d : Dev) c => d.scanCtr c []) d

/-- COUNTER_SCAN (R228): once the flash is ready. -/
def execCounterScan (c : Fin 64) (outs : List Bool) (s : State) : Host.Outcome State Fault Refusal :=
  s.run fun d => if d.flag FLC_BOOT FLC_BOOT_READY && d.fieldOn 5 && !d.pwr.flIso then d.scanCtr c outs else d

/-! ### Key slots (R222 to R226, R230) -/

def Dev.kslot (d : Dev) (i : Nat) : KSlot := sget KSlot.init d.kslots i
def Dev.setKslot (d : Dev) (i : Nat) (k : KSlot) : Dev := { d with kslots := sset KSlot.init d.kslots i k }

/-- USE bits (Table 11.4). -/
def useKEK : Nat := 7
def useLINKTX : Nat := 8
def useLINKRX : Nat := 9
def useLEDGER : Nat := 10
def usePROFILE : Nat := 11
def useFWNONCE : Nat := 12

/-- The slot may decrypt and verify (Table 11.5). -/
def KSlot.opens (k : KSlot) : Bool := k.state == 2 || k.state == 3

/-- A slot that has reached its LIMIT (R225, R230). -/
def Dev.exhaust (d : Dev) (i : Nat) : Dev :=
  let k := d.kslot i
  let d := d.setKslot i { k with state := 3 }
  (d.put KEY_STAT KEY_STAT_EXHAUST 1).report 10 i 0x40 (BitVec.ofNat 32 k.limit) []

/-- A use is charged (R225): 0 admitted, 6 LIMIT, 7 CEILING. -/
def Dev.charge (d : Dev) (i : Nat) : Nat × Dev :=
  let k := d.kslot i
  if k.used < k.ceil then
    let k := { k with used := k.used + 1 }
    let d := d.setKslot i k
    (0, if k.limit ≤ k.used then d.exhaust i else d)
  else if k.ceil = k.limit then (6, d.count (KEY_CNT 1)) else (7, d.count (KEY_CNT 2))

/-- CEIL of a counter's span (R230). -/
def spanCeil (u limit v : Nat) : Nat := if ctrCap u ≤ v then limit else min limit (min (4096 * v) 0xFFFFFFFF)

/-- SPAN_RAISE (R230): a READY slot within 1,024 uses of its ceiling. -/
def Dev.spanRaise (d : Dev) (i : Nat) (outs : List Bool) : Dev :=
  let k := d.kslot i
  if k.state = 2 ∧ k.uctr ≠ 0 ∧ k.ceil - k.used ≤ 1024 ∧ k.ceil < k.limit then
    let v := d.ctrVal k.uctr + 1
    if d.raiseWaits k.uctr v then d
    else
      let r := d.raise k.uctr v outs
      if r.1 = krOK then r.2.setKslot i { k with ceil := spanCeil k.uctr k.limit v } else r.2
  else d

def execSpanRaise (i : Fin 256) (outs : List Bool) (s : State) : Host.Outcome State Fault Refusal :=
  s.run fun d => d.spanRaise i outs

/-- The transmit frame counter comes within 1,024 of its ceiling (R231). -/
def Dev.txLow (d : Dev) : Bool := decide ((d.reg KEY_FCNTCEIL).toNat ≤ (d.reg LNK_TXFCNT).toNat + 1024)
def Dev.txCeil (d : Dev) : Bool := decide ((d.reg KEY_FCNTCEIL).toNat ≤ (d.reg LNK_TXFCNT).toNat)

/-- KEY_FCNTCEIL for a value of counter 2. -/
def fcntCeil (v : Nat) : Nat := if ctrCap 2 ≤ v then 0xFFFFFFFF else 4096 * v

/-- The ceiling of the frame counter is raised (R231). -/
def Dev.fcntRaise (d : Dev) (outs : List Bool) : Dev :=
  if d.txLow ∧ (d.reg KEY_FCNTCEIL).toNat < 0xFFFFFFFF then
    let w := min (((d.reg LNK_TXFCNT).toNat + 1024) / 4096 + 1) (ctrCap 2)
    if d.raiseWaits 2 w then d
    else
      let r := d.raise 2 w outs
      if r.1 = krOK then r.2.setReg KEY_FCNTCEIL (BitVec.ofNat 32 (fcntCeil w)) else r.2
  else d

/-- FCNT_CEILING_RAISE (R231). -/
def execFcntCeilingRaise (outs : List Bool) (s : State) : Host.Outcome State Fault Refusal := s.run fun d => d.fcntRaise outs

/-- RAISE_RETRY (R230, R231): the raise that failed is tried again, of a slot or of the frame counter. -/
def execRaiseRetry (i : Option (Fin 256)) (outs : List Bool) (s : State) : Host.Outcome State Fault Refusal :=
  s.run fun d =>
    match i with
    | some i => d.spanRaise i outs
    | none => d.fcntRaise outs

/-! ### Blobs (R220, R221, R232) -/

/-- The key that WRAPSEL names: a root, or the key-encryption slot `kek`; else the result that refuses it. -/
def Dev.wrapKey (d : Dev) (sel kek : Nat) : Nat ⊕ List Byte :=
  if sel ≤ 1 then if d.rootBad sel then .inl krNOROOT else .inr (d.fuseBytes (8 * sel) 8)
  else
    let k := d.kslot kek
    if k.state = 2 ∧ k.use.testBit useKEK then .inr k.key else .inl krNOKEK

/-- The clear header is as Table 11.2 gives. -/
def blobHdrOk (b : List Byte) : Bool :=
  u8 b 0 == 0x4B && u8 b 1 == 0x42 && u8 b 2 == 1 && decide (u8 b 3 ≤ 2) && (decide (u8 b 4 ≤ 31) || u8 b 4 == 0xFF)
    && u8 b 5 == 0 && u16 b 6 == 0

def keyBytes (t : Nat) : Nat := 8 + 8 * t

/-- The plaintext lies within its limits (Table 11.3, R220); `kname` is that of the clear header. -/
def plainOk (p : List Byte) (kname : Nat) : Bool :=
  let t := u8 p 0
  let use := u16 p 2
  let u := u8 p 5
  decide (1 ≤ t ∧ t ≤ 3) && decide (use < 2 ^ 13) && decide (u8 p 4 < 128) && (u == 0 || decide (4 ≤ u ∧ u ≤ 31))
    && u8 p 6 == kname && u8 p 7 == 0 && (p.drop (16 + keyBytes t)).all (· == 0)
    && (!use.testBit useKEK || use == 2 ^ useKEK) && (!use.testBit usePROFILE || use == 2 ^ usePROFILE)

/-- A blob opened: its plaintext when whole (R220), else the failing result. -/
def Dev.openBlob (d : Dev) (b : List Byte) (kek : Nat) : Nat ⊕ List Byte :=
  if !blobHdrOk b then .inl krBADBLOB
  else
    match d.wrapKey (u8 b 3) kek with
    | .inl r => .inl r
    | .inr key =>
      match keyUnwrap key ((b.drop 8).take 56) with
      | none => .inl krICV
      | some p => if plainOk p (u8 b 4) then .inr p else .inl krBADBLOB

/-- What a command leaves: its result, the slot a load fills, the device. -/
abbrev KeyOut := Nat × Option KSlot × Dev

/-- A plaintext loaded into slot `i`: slot rule, duplicate counter, counters whose repair failed, generation floor, usage counter (R222, R228,
R230, R232). -/
def Dev.loadPlain (d : Dev) (go : Bool) (i : Nat) (p : List Byte) (kname : Nat) (outs : List Bool) : KeyOut :=
  let use := u16 p 2
  let u := u8 p 5
  let gen := u32 p 12
  let limit := u32 p 8
  let dup := u ≠ 0 ∧ d.kslots.any (fun x => x.1 ≠ i && x.2.opens && x.2.uctr == u)
  let broken := (kname ≠ 0xFF ∧ d.ctrBad.contains (32 + kname)) ∨ (u ≠ 0 ∧ d.ctrBad.contains u)
  if i = 255 ∧ !use.testBit usePROFILE then (krDENIED, none, d)
  else if dup then (krDUPCTR, none, d)
  else if broken then (krRAISEFAIL, none, d)
  else if kname ≠ 0xFF ∧ gen < d.ctrVal (32 + kname) then (krSTALEGEN, none, d)
  else
    let r1 := if kname ≠ 0xFF ∧ d.ctrVal (32 + kname) < gen then
        let r := d.raiseGo go (32 + kname) gen outs
        if r.1 = krOK then (krOK, r.2.count (KEY_CNT 5)) else r
      else (krOK, d)
    if r1.1 ≠ krOK then (r1.1, none, r1.2)
    else
      let d := r1.2
      let k : KSlot := { state := 2, ktype := u8 p 0, keyid := u8 p 1, use := use, cores := u8 p 4, kname := kname, uctr := u, key := (p.drop 16).take (keyBytes (u8 p 0)), used := 0, ceil := limit, limit := limit, gen := gen }
      if u = 0 then (krOK, some k, d)
      else
        let v := d.ctrVal u
        if limit ≤ 4096 * v then (krOK, some { k with used := min (4096 * v) 0xFFFFFFFF, ceil := limit, state := 3 }, d)
        else
          let r := d.raiseGo go u (v + 1) (outs.drop 2)
          (r.1, if r.1 = krOK then some { k with used := 4096 * v, ceil := spanCeil u limit (v + 1) } else none, r.2)

/-- A blob given to LOAD. -/
def Dev.loadBlob (d : Dev) (go : Bool) (i : Nat) (b : List Byte) (kek : Nat) (outs : List Bool) : KeyOut :=
  match d.openBlob b kek with
  | .inl r => (r, none, d)
  | .inr p => d.loadPlain go i p (u8 b 4) outs

/-- The records of the blob store that are not wholly erased, lowest first. -/
def Dev.blobRecords (d : Dev) : List Nat :=
  ((d.mem.filter (fun p => decide (flashAt 0x01001000 ≤ p.1 ∧ p.1 < flashAt 0x01011000))).map (fun p => p.1 / 64 * 64)).eraseDups

/-- The blob LOADNAME chooses (R232): the highest generation at or above the floor, the lowest address among equals. -/
def Dev.chooseBlob (d : Dev) (name kek : Nat) : Option (List Byte) :=
  (d.blobRecords.foldl (fun (best : Option (Nat × List Byte)) a =>
    let b := d.seen a 64
    if u8 b 4 ≠ name ∨ !d.busOk true 6 a 64 false then best
    else
      match d.openBlob b kek with
      | .inl _ => best
      | .inr p =>
        let g := u32 p 12
        let better := match best with
          | none => true
          | some x => decide (x.1 < g)
        if d.ctrVal (32 + name) ≤ g && better then some (g, b) else best) none).map (·.2)

/-- The reads of the blob store that LOADNAME makes. -/
def Dev.blobReads (d : Dev) : Dev := d.blobRecords.foldl (fun (d : Dev) a => d.touchRange a 64) d

/-- LOADNAME of a name into a slot. -/
def Dev.loadName (d : Dev) (go : Bool) (i name kek : Nat) (outs : List Bool) : KeyOut :=
  if 31 < name then (krNOTFOUND, none, d)
  else if d.ctrBad.contains (32 + name) then (krRAISEFAIL, none, d)
  else
    let d := d.blobReads
    match d.chooseBlob name kek with
    | none => (krNOTFOUND, none, d)
    | some b => d.loadBlob go i b kek outs

/-! ### Commands of KEY_CMD (R221) -/

/-- KEY_RES as a command starts. -/
def Dev.keyBusy (d : Dev) (op : Nat) : Dev := d.setReg KEY_RES (mkWord [(KEY_RES_BUSY, 1), (KEY_RES_OP, op)])

/-- A command that loads a slot. -/
def KeyRun.loads (x : KeyRun) : Bool := x.op == 1 || x.op == 2 || x.op == 4

/-- Work of the classes above the ledger engine's and firmware's that has or waits for an engine (R235): MIC checks of committed frames, a wrap or
unwrap of the key store. What the link sequencer encrypts and the ledger engine seals passes within one command of this model. -/
def Dev.aesAbove (d : Dev) : Nat := d.frames.length + (d.keyPend.any KeyRun.loads).toNat

/-- The plaintext that GENERATE wraps: the template's attributes and a drawn key. -/
def Dev.genPlain (d : Dev) (t : List Byte) : List Byte × Dev :=
  let n := keyBytes (u8 t 8)
  let r := d.freeBytes n
  let head := (t.drop 8).take 24
  (head.take 16 ++ r.1 ++ List.replicate (32 - n) 0, r.2)

/-- The template's key to be drawn, or the result that refuses it. -/
def Dev.genKey (d : Dev) (a kek : Nat) : Nat ⊕ List Byte :=
  let t := d.seen a 64
  if d.flag KEY_STAT KEY_STAT_RNGFAIL then .inl krRNG
  else if !(d.busOk true 6 a 64 false && d.busOk true 6 a 64 true) then .inl krBUSFAULT
  else if !blobHdrOk t || u8 t 8 == 0 || decide (3 < u8 t 8) then .inl krBADBLOB
  else d.wrapKey (u8 t 3) kek

/-- GENERATE: the key drawn and wrapped, the blob written over the template, and loaded. -/
def Dev.keyGenerate (d : Dev) (x : KeyRun) : KeyOut :=
  let d := d.touchRange x.arg0 64
  let kek := x.arg1 % 256
  match d.genKey x.arg0 kek with
  | .inl r => (r, none, d)
  | .inr key =>
    let g := d.genPlain (d.seen x.arg0 64)
    let blob := (d.seen x.arg0 8) ++ keyWrap key g.1
    let d := g.2.setBytes x.arg0 blob
    if x.full then (krBUSY, none, d) else d.loadBlob x.go x.slot blob kek x.outs

/-- What a command does, with its result: LOAD, LOADNAME, UNLOAD, GENERATE, RAISE, REVOKE. -/
def Dev.keyWork (d : Dev) (x : KeyRun) : KeyOut :=
  match x.op with
  | 1 =>
    if x.full then (krBUSY, none, d)
    else
      let d := d.touchRange x.arg0 64
      if d.busOk true 6 x.arg0 64 false then d.loadBlob x.go x.slot (d.seen x.arg0 64) (x.arg1 % 256) x.outs else (krBUSFAULT, none, d)
  | 2 => if x.full then (krBUSY, none, d) else d.loadName x.go x.slot (x.arg1 % 256) (x.arg0 % 256) x.outs
  | 3 => (krOK, none, d)
  | 4 => d.keyGenerate x
  | 5 =>
    if 63 < x.arg1 then (krDENIED, none, d)
    else
      let r := d.raiseGo x.go x.arg1 x.arg0 x.outs
      (r.1, none, r.2)
  | _ =>
    if 3 < x.arg1 then (krDENIED, none, d)
    else if (span 0 4).all (fun i => i == x.arg1 || d.revoked i) then (krLASTKEY, none, d)
    else (krOK, none, Dev.fuseShow { d with blown := d.blown ||| 2 ^ x.arg1 })

/-- The raises a plaintext asks for: its floor and its usage counter. -/
def Dev.plainRaises (d : Dev) (p : List Byte) : List (Nat × Nat) :=
  (if u8 p 6 ≤ 31 then [(32 + u8 p 6, u32 p 12)] else []) ++ (if 4 ≤ u8 p 5 ∧ u8 p 5 ≤ 31 then [(u8 p 5, d.ctrVal (u8 p 5) + 1)] else [])

/-- The raises that a command asks for. -/
def Dev.keyRaises (d : Dev) (x : KeyRun) : List (Nat × Nat) :=
  let blob := fun (b : List Byte) kek => match d.openBlob b kek with
    | .inl _ => []
    | .inr p => d.plainRaises p
  match x.op with
  | 1 => if x.full then [] else blob (d.seen x.arg0 64) (x.arg1 % 256)
  | 2 => if x.full then [] else ((d.chooseBlob (x.arg1 % 256) (x.arg0 % 256)).map (fun b => blob b (x.arg0 % 256))).getD []
  | 4 => if x.full then [] else d.plainRaises ((d.seen x.arg0 64).drop 8)
  | 5 => if x.arg1 ≤ 63 then [(x.arg1, x.arg0)] else []
  | _ => []

/-- A command written to KEY_CMD starts (R221): BUSY and its OP; ignored while one runs. A slot to be loaded is LOADING until the command's end, one
to be unloaded is ERASING (Table 11.5, R226); bank 2 is busy where a counter is raised (R307). -/
def Dev.keyBegin (d : Dev) (op slot : Nat) (outs : List Bool) : Dev :=
  if d.flag KEY_RES KEY_RES_BUSY then d
  else
    let d := (d.when (d.flag FLC_BOOT FLC_BOOT_READY) Dev.scanned).keyBusy op
    let x : KeyRun := ⟨slot, op, (d.reg KEY_ARG0).toNat, (d.reg KEY_ARG1).toNat, outs, d.mayProg, decide ((d.kslot slot).state ≠ 0), false⟩
    let x := { x with prog := x.go && !d.pwr.flIso && (d.keyRaises x).any (fun p => decide (d.ctrVal p.1 < p.2)) }
    let d := d.when x.prog (fun d => d.engBegin 2)
    let d := d.when (x.loads && !x.full) (fun d => d.setKslot slot { KSlot.init with state := 1 })
    let d := d.when (op == 3 && x.full) (fun d => d.setKslot slot { d.kslot slot with state := 4 })
    { d with keyPend := some x }

/-- A command ends (R221): BUSY clears and the result is written; a load leaves its slot READY or EXHAUSTED, or EMPTY as it was, and a failed one
counts and is reported. -/
def Dev.keyFinish (d : Dev) (x : KeyRun) (note : Bool) (result : Nat) (load : Option KSlot) : Dev :=
  let d := { (d.put KEY_RES KEY_RES_BUSY 0).put KEY_RES KEY_RES_RESULT result with keyPend := none }
  let d := d.when x.prog (fun d => d.engEnd 2)
  match load with
  | some k => if k.state = 3 then (d.setKslot x.slot k).exhaust x.slot else d.setKslot x.slot k
  | none =>
    let d := if (d.kslot x.slot).state = 1 then d.setKslot x.slot KSlot.init else d
    if note && result != krOK then
      (d.count (KEY_CNT 0)).report 10 x.slot result (mkWord [(KEY_CMD_KEY, 0xA5), (KEY_CMD_SLOT, x.slot), (KEY_CMD_OP, x.op)]) []
    else d

/-- A failure of the command is one of a load: GENERATE loads once it has made its blob. -/
def Dev.keyNotes (d : Dev) (x : KeyRun) : Bool :=
  x.op == 1 || x.op == 2 || (x.op == 4 && (match d.genKey x.arg0 (x.arg1 % 256) with | .inr _ => true | .inl _ => false))

/-- The command's work and its end; counters that no scan has read are read first (R228). -/
def Dev.keyEnd (d : Dev) (x : KeyRun) : Dev :=
  let r := d.scanned.keyWork x
  r.2.2.keyFinish x (d.scanned.keyNotes x) r.1 r.2.1

/-- A command waits: for the flash (R306, R313), or, where it wraps or unwraps, for an engine that no MIC check holds (R235). -/
def Dev.keyWaits (d : Dev) (x : KeyRun) : Bool :=
  (x.op != 3 && !d.flag FLC_BOOT FLC_BOOT_READY && !d.pwr.flIso) || (d.keyRaises x).any (fun p => d.raiseWaits p.1 p.2) || (x.loads && decide (2 ≤ d.frames.length))

/-- A command of KEY_CMD by core `c`. -/
def State.keyCmd (s : State) (i : Instr) (c : Fin 7) (op slot : Nat) (outs : List Bool) : Host.Outcome State Fault Refusal :=
  s.ask i KEY_CMD fun d => d.byCore c KEY_CMD true fun d => d.keyBegin op slot outs

/-- KEY_LOAD (R221). -/
def execKeyLoad (c : Fin 7) (i : Fin 256) (outs : List Bool) (s : State) : Host.Outcome State Fault Refusal :=
  s.keyCmd (.keyLoad c i outs) c 1 i outs

/-- KEY_LOADNAME (R221, R232). -/
def execKeyLoadname (c : Fin 7) (i : Fin 256) (outs : List Bool) (s : State) : Host.Outcome State Fault Refusal :=
  s.keyCmd (.keyLoadname c i outs) c 2 i outs

/-- KEY_UNLOAD (R226). -/
def execKeyUnload (c : Fin 7) (i : Fin 256) (s : State) : Host.Outcome State Fault Refusal := s.keyCmd (.keyUnload c i) c 3 i []

/-- KEY_GENERATE (R221): a template of 64 bytes, its bytes 0x00 to 0x1F the clear header and the first 24 plaintext bytes; of
these only the 16 attribute bytes stand, the rest being KEY. A template whose KTYPE is none of Table 11.3 names no key to draw and ends BADBLOB,
unwrapped (log entry 23). -/
def execKeyGenerate (c : Fin 7) (i : Fin 256) (outs : List Bool) (s : State) : Host.Outcome State Fault Refusal :=
  s.keyCmd (.keyGenerate c i outs) c 4 i outs

/-- KEY_RAISE (R221, R229). -/
def execKeyRaise (c : Fin 7) (outs : List Bool) (s : State) : Host.Outcome State Fault Refusal := s.keyCmd (.keyRaise c outs) c 5 0 outs

/-- KEY_REVOKE (R219): refused LASTKEY when no usable hash would remain. -/
def execKeyRevoke (c : Fin 7) (s : State) : Host.Outcome State Fault Refusal := s.keyCmd (.keyRevoke c) c 6 0 []

/-- KEY_COMMAND_END (R221): the command has done its work, BUSY clears and the result is written. -/
def execKeyCommandEnd (s : State) : Host.Outcome State Fault Refusal :=
  s.run fun d =>
    match d.keyPend with
    | none => d
    | some x => if d.keyWaits x then d else d.keyEnd x

/-- A command of the key store cut by a reset, a power loss or the loss of the flash die (R219, R229): a raise leaves a record that is not valid at
either margin or none, a bit that is being blown is set or not. -/
def Dev.keyCut (d : Dev) : Dev :=
  match d.keyPend with
  | none => d
  | some x =>
    let f := d.free
    let one := f.1.getLsbD 0
    let d := if x.prog && one then
        match (d.keyRaises x).find? (fun p => decide (d.ctrVal p.1 < p.2)) with
        | some p =>
          match f.2.erasedWord (d.ctrActive p.1) with
          | some a => let g := f.2.freeBytes 16; g.2.progWord a g.1 false
          | none => f.2
        | none => f.2
      else f.2
    if x.op = 6 ∧ x.arg1 ≤ 3 ∧ one then { d with blown := d.blown ||| 2 ^ x.arg1 } else d

/-- A reset of the flash die alone ends a command that raises a counter RAISEFAIL (R313). -/
def Dev.keyDieDown (d : Dev) : Dev :=
  match d.keyPend with
  | none => d
  | some x =>
    if x.prog then
      ((d.keyCut.count (KEY_CNT 3)).put KEY_STAT KEY_STAT_RAISEF 1).keyFinish { x with prog := false } x.loads krRAISEFAIL none
    else d

/-- An operation admitted on slot `i` has not ended (R226): a job started on an engine, a link frame whose MIC is being checked (R178), a secured
frame armed and not yet encrypted. -/
def Dev.slotInUse (d : Dev) (i : Nat) : Bool :=
  d.aesJobs.any (fun j => j.engine.isSome && j.slot == i) || d.frames.any (fun f => getF (f.words.getD 0 0) CHT_KEYSLOT == i)
    || d.txs.any (fun p => p.2.any (fun x => x.slot == some i && !x.ramped))

/-- SLOT_ERASED (R226): no admitted operation still runs on an ERASING slot; its key is zeroed and it becomes EMPTY. -/
def execSlotErased (i : Fin 256) (s : State) : Host.Outcome State Fault Refusal :=
  s.run fun d =>
    if (d.kslot i).state = 4 && !d.slotInUse i then d.setKslot i KSlot.init else d

/-- RNG_FAILURE (R241). -/
def execRngFailure (s : State) : Host.Outcome State Fault Refusal :=
  s.run fun d => (d.put KEY_STAT KEY_STAT_RNGFAIL 1).report 10 0 0x41 0 []

/-- RANDOM_READ (R241): 32 fresh bits, or 0 while the source has failed. -/
def execRandomRead (c : Fin 7) (s : State) : Host.Outcome State Fault Refusal :=
  s.run fun d => d.byCore c KEY_RAND false fun d =>
    if d.flag KEY_STAT KEY_STAT_RNGFAIL then { d with rdata := 0 }
    else { d.free.2 with rdata := d.free.1 }

/-! ### What the boot ROM does with the key store (R222, R231, R414) -/

/-- LOADNAME of KNAME `name` into slot `i`, to its end. -/
def Dev.bootLoad (d : Dev) (i name : Nat) (outs : List Bool) : Dev :=
  let full := decide ((d.kslot i).state ≠ 0)
  let d := (d.keyBusy 2).when (!full) (fun d => d.setKslot i { KSlot.init with state := 1 })
  d.keyEnd ⟨i, 2, 0, name, outs, d.mayProg, full, false⟩

/-- Counter 2 is raised, LNK_TXFCNT and KEY_FCNTCEIL follow; where the raise fails the ceiling stands at the counter. -/
def Dev.bootFcnt (d : Dev) (outs : List Bool) : Dev :=
  let v := d.ctrVal 2
  let r := d.raise 2 (v + 1) outs
  let low := min (4096 * v) 0xFFFFFFFF
  (r.2.setReg LNK_TXFCNT (BitVec.ofNat 32 low)).setReg KEY_FCNTCEIL (BitVec.ofNat 32 (if r.1 = krOK then fcntCeil (v + 1) else low))

/-- After every system reset, before the boot ROM sows: KNAME 0 into slot 255 (R222), KNAME 1 into slot 254 (R414), then the frame counter (R231);
`outs` gives the outcomes of the raises. -/
def Dev.bootKeys (d : Dev) (outs : List Bool) : Dev :=
  if d.bootKeyed then d
  else { ((d.scanned.bootLoad 255 0 outs).bootLoad 254 1 (outs.drop 4)).bootFcnt (outs.drop 8) with bootKeyed := true }

/-! ### What the slot registers show (Table 11.12) -/

def Dev.slotReg (d : Dev) (i off : Nat) : Word :=
  let k := d.kslot i
  match off with
  | 0x00 => mkWord [(⟨31, 29⟩, k.state), (⟨28, 27⟩, k.ktype), (⟨26, 26⟩, (decide (2 ≤ k.state ∧ k.used = k.ceil)).toNat), (⟨23, 16⟩, k.keyid), (⟨15, 0⟩, k.use)]
  | 0x04 => mkWord [(⟨31, 24⟩, k.cores), (⟨23, 16⟩, k.kname), (⟨15, 8⟩, k.uctr)]
  | 0x08 => BitVec.ofNat 32 k.used
  | 0x0C => BitVec.ofNat 32 k.limit
  | 0x10 => BitVec.ofNat 32 k.ceil
  | _ => BitVec.ofNat 32 k.gen

end Sys2Proof.Machine
end

