-- ==== Sys2Proof/Machine/Flash.lean ====
section
/-! DEFINITION. The flash controller (chapter 15): commands and their judgement, rotating windows, moves, remaps, start-up,
corrected reads and bit lines. -/

namespace Sys2Proof.Machine

/-! ### Results (Table 15.8) -/

def frOK : Nat := 1
def frBUSY : Nat := 2
def frDENIED : Nat := 3
def frPROTECTED : Nat := 4
def frNOTBLANK : Nat := 5
def frSUPPLYLOW : Nat := 6
def frPROGFAIL : Nat := 7
def frERASEFAIL : Nat := 8
def frBADADDR : Nat := 9
def frBUSFAULT : Nat := 10
def frNOSPARE : Nat := 11
def frISOLATED : Nat := 12

/-! ### Windows (R309 to R312) -/

def Dev.setWin (d : Dev) (w : Nat) (x : Win) : Dev := { d with wins := sset Win.init d.wins w x }

/-- Full-view address of a physical index. -/
def winHome (w i : Nat) : Nat := winBase w + 4096 * i

/-- Physical indices of the pool: the sectors that back no slot and are not retired (R311). -/
def Win.pool (x : Win) (w : Nat) : List Nat :=
  (span 0 (winN w + 6)).filter (fun i => !x.retired.contains i && !x.subst.any (fun e => e.2 == i)
    && (decide (winN w < i) || x.subst.any (fun e => e.1 == i)))

def Win.gap (x : Win) (w : Nat) : Nat := winN w - x.back

/-- FLC_WINPOS and FLC_WINSTAT follow the window. -/
def Dev.winShow (d : Dev) (w : Nat) : Dev :=
  let x := d.winOf w
  let d := d.setReg (FLC_WINPOS w) (mkWord [(FLC_WINPOS_START, x.start), (FLC_WINPOS_GAP, x.gap w)])
  d.setReg (FLC_WINSTAT w) (mkWord [(FLC_WINSTAT_SUBST, x.subst.length), (FLC_WINSTAT_POOL, (x.pool w).length),
    (FLC_WINSTAT_RETIRED, x.retired.length), (FLC_WINSTAT_ECOUNT, x.ecount)])

/-- A state record of Table 15.5. -/
def winRecord (w kind seq a b : Nat) : List Byte :=
  let h : List Byte := [0x57, 0x4E] ++ leBytes 1 kind ++ leBytes 1 w ++ leBytes 4 seq ++ leBytes 2 a ++ leBytes 2 b
  h ++ leBytes 4 (crc32 h)

/-- Full-view address of state sector 0 or 1. -/
def winState (w i : Nat) : Nat := winHome w (winN w + 6 + i)

/-- A record appended to the state sector in use, which has room. -/
def Dev.winAppend (d : Dev) (w kind a b : Nat) : Dev :=
  let x := d.winOf w
  let d := d.progWord (winState w x.sect + 16 * x.next) (winRecord w kind (x.seq + 1) a b) true
  d.setWin w { x with seq := x.seq + 1, next := x.next + 1 }

/-- A record written (R312): a full sector is left for the other one, erased, with a snapshot of the window in it. -/
def Dev.winPut (d : Dev) (w kind a b : Nat) : Dev :=
  let x := d.winOf w
  let d := if x.next < 256 then d
    else
      let d := d.eraseSector (winState w (1 - x.sect))
      let d := d.setWin w { x with sect := 1 - x.sect, next := 0 }
      let d := d.winAppend w 1 x.start (x.gap w)
      let d := x.subst.foldl (fun d e => d.winAppend w 2 e.1 e.2) d
      let d := x.retired.foldl (fun d i => d.winAppend w 3 i 0) d
      x.copyback.foldl (fun d e => d.winAppend w 4 e.1 e.2) d
  d.winAppend w kind a b

/-- A substitution entry set; a slot in its home has none. -/
def Win.withSubst (x : Win) (slot i : Nat) : Win :=
  let l := x.subst.filter (fun e => e.1 != slot)
  { x with subst := if i = slot then l else l ++ [(slot, i)] }

/-- The sector a remap of a slot takes (R311): its home if that is in the pool, else the lowest pool sector; none where the pool
is empty or the table has no room for a new entry. -/
def Win.pick (x : Win) (w slot : Nat) : Option Nat :=
  let p := x.pool w
  if p.contains slot then some slot
  else if x.subst.length < 8 ∨ x.subst.any (fun e => e.1 == slot) then p.head? else none

/-- A slot now backed by sector `i`: table, substitution record and REMAP. -/
def Dev.winRemap (d : Dev) (w slot i : Nat) : Dev :=
  let d := d.setWin w ((d.winOf w).withSubst slot i)
  (d.winPut w 2 slot i).count (FLC_CNT 9)

/-- A slot's sector is erased; `ok` tells whether the erase verifies. A failed sector is retired and the slot remapped (R311); the
answer is false where nothing can replace it. -/
def Dev.slotErase (d : Dev) (w slot : Nat) (ok : Bool) : Bool × Dev :=
  let x := d.winOf w
  let i := x.idx slot
  let d := d.eraseSector (winHome w i)
  if ok then (true, d)
  else
    let d := d.count (FLC_CNT 7)
    match x.pick w slot with
    | none => (false, d)
    | some q =>
      let d := d.setWin w { x with retired := x.retired ++ [i] }
      let d := (d.winPut w 3 i 0).count (FLC_CNT 11)
      (true, d.winRemap w slot q)

/-- Bank of a window. -/
def winBank (w : Nat) : Nat := 2 + w

/-- A move starts: its bank is busy and ECOUNT restarts; with SLOW it waits (R310). -/
def Dev.moveStart (d : Dev) (w : Nat) : Dev :=
  if d.flag PWR_SUPPLY PWR_SUPPLY_SLOW then d.setWin w { d.winOf w with defer := true }
  else
    let d := d.setWin w { d.winOf w with defer := false }
    let a := FLC_STAT (winBank w)
    (d.put a FLC_STAT_MOVE 1).put a FLC_STAT_BUSY 1

/-- One more erase of a logical sector; the 64th is followed by a move (R310). -/
def Dev.winCount (d : Dev) (w : Nat) : Dev :=
  let x := d.winOf w
  if x.ecount + 1 < 64 then (d.setWin w { x with ecount := x.ecount + 1 }).winShow w
  else ((d.setWin w { x with ecount := 0 }).moveStart w).winShow w

/-- A logical sector erased (R310, R311). -/
def Dev.winErase (d : Dev) (w l : Nat) (ok : Bool) : Bool × Dev :=
  let r := d.slotErase w ((d.winOf w).slotOf w l) ok
  (r.1, r.2.winCount w)

/-- The move of R310; `ok` tells whether its erase verifies. -/
def Dev.winMove (d : Dev) (w : Nat) (ok : Bool) : Dev :=
  let x := d.winOf w
  let g := x.gap w
  let src := if 0 < g then g - 1 else winN w
  let d := d.copySector (winHome w (x.idx src)) (winHome w (x.idx g))
  let x := if 0 < g then { x with back := x.back + 1 } else { x with start := (x.start + 1) % winN w, back := 0 }
  let d := (d.setWin w x).winPut w 1 x.start (x.gap w)
  let d := (d.slotErase w src ok).2
  (d.count (FLC_CNT 8)).winShow w

/-- MOVE_END (R310). -/
def execMoveEnd (w : Fin 2) (ok : Bool) (s : State) : Host.Outcome State Fault Refusal :=
  s.run fun d =>
    let a := FLC_STAT (winBank w)
    if d.flag a FLC_STAT_MOVE then
      let d := d.winMove w ok
      ((d.put a FLC_STAT_MOVE 0).put a FLC_STAT_SUSP 0).bankShow (winBank w)
    else d

/-- DEFERRED_MOVE (R310): SLOW has cleared. -/
def execDeferredMove (w : Fin 2) (s : State) : Host.Outcome State Fault Refusal :=
  s.run fun d =>
    if (d.winOf w).defer && !d.flag PWR_SUPPLY PWR_SUPPLY_SLOW && !d.flag (FLC_STAT (winBank w)) FLC_STAT_BUSY then
      (d.moveStart w).winShow w
    else d

/-! ### Where a command acts (R304) -/

/-- The full-view address a command names, with the logical sector of a windowed region; none where no flash lies. -/
def Dev.flashName (d : Dev) (a : Nat) : Option (Nat × Option (Nat × Nat)) :=
  if a < 0x02000000 then if lowHole a then none else some (d.canon a, if a < 0x40000 then none else winLogical a)
  else if 0x08000000 ≤ a ∧ a < 0x0A000000 then some (a, none)
  else none

/-- A physical sector of a windowed region. -/
def windowed (b s : Nat) : Bool := (b = 2 && decide (160 ≤ s ∧ s ≤ 423)) || b = 3

/-- Core `c` may program or erase there (Table 15.2); a windowed region only through the low view. -/
def Dev.mayWrite (d : Dev) (c b s : Nat) (logical : Bool) : Bool :=
  if b ≤ 1 then c = 0 || c = 6
  else if b = 3 then false
  else if s ≤ 31 then c = 6
  else if s ≤ 159 then false
  else if s ≤ 423 then logical && (d.get FLC_CFG FLC_CFG_WRMASK).testBit c
  else true

/-- Full-view base of an image slot (0, 1) or of a boot twin (2, 3). -/
def imgBase (n : Nat) : Nat :=
  match n with
  | 0 => 0x08040000
  | 1 => 0x08840000
  | 2 => 0x08000000
  | _ => 0x08800000

/-- The same place in the low view, where an image runs. -/
def imgRun (n : Nat) : Nat := imgBase n - flashFull

/-- Image slot protection (R419): a state sector; the image sectors of the running slot, of one armed or awaiting confirmation, and
of one with an open transfer. -/
def Dev.imageKept (d : Dev) (b s : Nat) : Bool :=
  decide (b ≤ 1 ∧ 64 ≤ s) &&
    (s = 2047 || d.get SVC_IMG SVC_IMG_RUNNING == b || d.svc.armed == some b
      || (d.flag SVC_IMG SVC_IMG_CONFWAIT && d.get SVC_IMG SVC_IMG_RUNNING == b)
      || (match d.svc.xfer with | some x => x.slot == b | none => false))

/-- The active twin (R316). -/
def Dev.twinKept (d : Dev) (b s : Nat) : Bool := decide (s < 64) && d.get FLC_BOOT FLC_BOOT_ACTIVE == b && decide (b ≤ 1)

/-! ### The judgement of a command (R308) -/

/-- The bank takes no command: busy, or READY is 0 (R313). -/
def Dev.bankBusy (d : Dev) (b : Nat) : Bool := d.flag (FLC_STAT b) FLC_STAT_BUSY || !d.flag FLC_BOOT FLC_BOOT_READY

/-- Alignment, range and source of a command (check 3 of R308); `a` is the address written. -/
def Dev.flcArgsBad (d : Dev) (b op a : Nat) : Bool :=
  let arg := d.get (FLC_ARG b) FLC_ARG_ARG
  let src := (d.reg (FLC_BUF b)).toNat / 16 * 16
  match op with
  | 1 => a % 16 != 0
  | 2 => a % 16 != 0 || !decide (1 ≤ arg ∧ arg ≤ 256 ∧ a % 4096 + 16 * arg ≤ 4096 ∧ 0x20000000 ≤ src ∧ src + 16 * arg ≤ 0x21400000)
  | 4 => a % 16 != 0 || decide (2 < arg)
  | 7 => decide (575 < arg)
  | _ => false

/-- The code that refuses a command, none when it is accepted. -/
def Dev.flcJudge (d : Dev) (c b op : Nat) : Option Nat :=
  let a := (d.reg (FLC_ADDR b)).toNat
  let writes := op == 1 || op == 2 || op == 3
  if d.bankBusy b then some frBUSY
  else if d.pwr.flIso then some frISOLATED
  else if 6 ≤ op then
    if d.flcArgsBad b op a then some frBADADDR
    else if d.flag PWR_SUPPLY PWR_SUPPLY_SLOW then some frSUPPLYLOW else none
  else
    match d.flashName a with
    | none => some frBADADDR
    | some p =>
      let s := sectorOf p.1
      if bankOf p.1 ≠ b ∨ d.flcArgsBad b op a then some frBADADDR
      else if writes && !d.mayWrite c b s p.2.isSome then some frDENIED
      else if writes && (d.twinKept b s || d.imageKept b s) then some frPROTECTED
      else if writes && d.flag PWR_SUPPLY PWR_SUPPLY_SLOW then some frSUPPLYLOW
      else none

/-- A command ends (R308): RESULT, OP, DONE; its code counts where Table 15.9 has a counter. -/
def Dev.flcEnd (d : Dev) (b op res : Nat) : Dev :=
  let a := FLC_STAT b
  let d := ((d.put a FLC_STAT_RESULT res).put a FLC_STAT_OP op).put a FLC_STAT_DONE 1
  if res = frSUPPLYLOW then d.count (FLC_CNT 5)
  else if res = frPROGFAIL then d.count (FLC_CNT 6)
  else d

/-- The flag cell of the sector at a full-view address (R313). -/
def Dev.setFlagCell (d : Dev) (a : Nat) (on : Bool) : Dev :=
  let n := (a - flashFull) / 4096
  { d with flFlag := if on then d.flFlag.filter (· ≠ n) ++ [n] else d.flFlag.filter (· ≠ n) }

/-- The slot whose image sectors hold the sector loses its CHECK (R417). -/
def Dev.uncheck (d : Dev) (b s : Nat) : Dev :=
  if b ≤ 1 ∧ 64 ≤ s then { d with svc := { d.svc with checked := d.svc.checked.filter (· ≠ b) } } else d

/-- A command written to FLC_CMD (R308). -/
def Dev.flcCmd (d : Dev) (c b op : Nat) : Dev :=
  match d.flcJudge c b op with
  | some res => d.flcEnd b op res
  | none =>
    let a := (d.reg (FLC_ADDR b)).toNat
    let p := if 6 ≤ op then (0, none) else (d.flashName a).getD (0, none)
    let d := d.setBank b { d.bankOfs b with op := op, core := c, addr := p.1, log := p.2, mark := 0 }
    let d := d.put (FLC_STAT b) FLC_STAT_BUSY 1
    let d := if op = 1 ∨ op = 2 ∨ op = 3 then d.uncheck b (sectorOf p.1) else d
    if op = 3 then d.setFlagCell (p.1 / 4096 * 4096) true else d

/-- A row that writes an operation to FLC_CMD. -/
def Dev.flcRow (d : Dev) (c : Fin 7) (b op : Nat) : Dev := d.byCore c (FLC_CMD b) true fun d => d.flcCmd c b op

/-- FLASH_PROGRAM (R308). -/
def execFlashProgram (c : Fin 7) (b : Fin 4) (s : State) : Host.Outcome State Fault Refusal := s.ask (.flashProgram c b) (FLC_CMD b) fun d => d.flcRow c b 1

/-- FLASH_PROGBUF (R308). -/
def execFlashProgbuf (c : Fin 7) (b : Fin 4) (s : State) : Host.Outcome State Fault Refusal := s.ask (.flashProgbuf c b) (FLC_CMD b) fun d => d.flcRow c b 2

/-- FLASH_ERASE (R308). -/
def execFlashErase (c : Fin 7) (b : Fin 4) (s : State) : Host.Outcome State Fault Refusal := s.ask (.flashErase c b) (FLC_CMD b) fun d => d.flcRow c b 3

/-- FLASH_MREAD (R308). -/
def execFlashMread (c : Fin 7) (b : Fin 4) (s : State) : Host.Outcome State Fault Refusal := s.ask (.flashMread c b) (FLC_CMD b) fun d => d.flcRow c b 4

/-- FLASH_BLANK (R308). -/
def execFlashBlank (c : Fin 7) (b : Fin 4) (s : State) : Host.Outcome State Fault Refusal := s.ask (.flashBlank c b) (FLC_CMD b) fun d => d.flcRow c b 5

/-- FLASH_COLTEST (R319). -/
def execFlashColtest (c : Fin 7) (b : Fin 4) (s : State) : Host.Outcome State Fault Refusal := s.ask (.flashColtest c b) (FLC_CMD b) fun d => d.flcRow c b 6

/-- FLASH_COLREPAIR (R320). -/
def execFlashColrepair (c : Fin 7) (b : Fin 4) (s : State) : Host.Outcome State Fault Refusal := s.ask (.flashColrepair c b) (FLC_CMD b) fun d => d.flcRow c b 7

/-! ### The end of a command -/

/-- PROGBUF's words, from the first on (R308): `good` verify; the first that is not blank, faults or fails its verify ends it. -/
def Dev.progBuf (d : Dev) (core dst src good : Nat) : Nat → Nat × Dev
  | 0 => (frOK, d)
  | n + 1 =>
    let d := d.touchRange src 16
    if !d.busOk false core src 16 false then (frBUSFAULT, d)
    else if !d.blankWord dst then (frNOTBLANK, d)
    else
      let d := d.progWord dst (d.seen src 16) (decide (0 < good))
      if good = 0 then (frPROGFAIL, d) else d.progBuf core (dst + 16) (src + 16) (good - 1) n

/-- An erase that verifies, or a failed one whose content is unspecified. -/
def Dev.eraseTo (d : Dev) (a : Nat) (ok : Bool) : Nat × Dev :=
  let d := d.eraseSector a
  if ok then (frOK, d)
  else
    let r := (d.count (FLC_CNT 7)).freeBytes 4096
    (frERASEFAIL, r.2.setBytes a r.1)

/-- MREAD (R308): the word at the margin, and what the code found. A word not valid at that margin reads as free data. -/
def Dev.mread (d : Dev) (b a : Nat) : Dev :=
  let m := d.get (FLC_ARG b) FLC_ARG_ARG
  let weak := decide (m ≠ 0) && (sget 0 d.flWeak (a / 16)).testBit (m - 1)
  let r := d.flashFind a
  let q := if weak then let f := r.2.free; (f.1.toNat % 4, f.2) else (if 4 ≤ r.1 then r.1 - 3 else r.1, r.2)
  let exact := !weak && decide (r.1 ≤ 2)
  let w := if exact then ((span 0 4).map (fun i => BitVec.ofNat 32 (q.2.load (a + 4 * i) 4)), q.2) else q.2.frees 4
  let d := (span 0 4).foldl (fun d i => d.setReg (FLC_DATA b i) (w.1.getD i 0)) w.2
  d.put (FLC_ECC b) FLC_ECC_ERRS q.1

/-- The words of a bank that a bit line crosses, and that hold something. -/
def Dev.lineWords (d : Dev) (b k : Nat) : List Nat :=
  (d.mem.filter (fun p => decide (flashFull + 0x00800000 * b ≤ p.1 ∧ p.1 < flashFull + 0x00800000 * (b + 1)) &&
    decide (p.1 / 16 % 4 = k / 144))).foldl (fun l p => if l.contains (p.1 / 16) then l else l ++ [p.1 / 16]) []

/-- COLREPAIR (R320): the line is switched to a spare, which reads 1 in every word programmed before. -/
def Dev.colRepair (d : Dev) (b k : Nat) : Nat × Dev :=
  let l := sget [] d.flRow b
  if 4 ≤ l.length then (frNOSPARE, d)
  else
    let d := { d with flRow := sset [] d.flRow b (l ++ [k]) }
    let j := k % 144
    let d := (d.lineWords b k).foldl (fun d w =>
      let e := (sget [] d.flErr w).filter (· ≠ j)
      let f := d.free
      let one := if j < 128 then (d.byte (16 * w + j / 8)).getLsbD (j % 8) else f.1.getLsbD 0
      { (if j < 128 then d else f.2) with flErr := sset [] d.flErr w (if one then e else e ++ [j]) }) d
    (frOK, d.setReg (FLC_REP b) (mkWord [(FLC_REP_USED, l.length + 1), (FLC_REP_LAST, k)]))

/-- COLTEST (R319): `kind` 0 every line sound, 1 STUCK0, 2 STUCK1; the lowest failing line and their number. -/
def Dev.colTest (d : Dev) (b kind line n : Nat) : Dev :=
  let r := FLC_COL b
  let d := d.put r FLC_COL_TEST (1 + min kind 2)
  let d := d.put r FLC_COL_NFAIL (if kind = 0 then 0 else min n 63)
  if kind = 0 then d else d.put r FLC_COL_LINE line

/-- The effect of the command under way in bank `b`, with what the array does: `good` words that verify (PROGRAM, PROGBUF), 0 for a
failed erase, or the kind COLTEST finds with `line` and `n`. -/
def Dev.flcRun (d : Dev) (b good line n : Nat) : Nat × Dev :=
  let x := d.bankOfs b
  let sect := x.addr / 4096 * 4096
  match x.op with
  | 1 =>
    if d.blankWord x.addr then
      let w := (span 0 4).flatMap (fun i => leBytes 4 (d.reg (FLC_DATA b i)).toNat)
      (if good = 0 then frPROGFAIL else frOK, d.progWord x.addr w (decide (good ≠ 0)))
    else (frNOTBLANK, d)
  | 2 => d.progBuf x.core x.addr ((d.reg (FLC_BUF b)).toNat / 16 * 16) good (d.get (FLC_ARG b) FLC_ARG_ARG)
  | 3 =>
    let r := match x.log with
      | some p =>
        let q := d.winErase p.1 p.2 (decide (good ≠ 0))
        if q.1 then (frOK, q.2) else
          let f := q.2.freeBytes 4096
          (frERASEFAIL, f.2.setBytes sect f.1)
      | none => d.eraseTo sect (decide (good ≠ 0))
    (r.1, r.2.setFlagCell sect false)
  | 4 => (frOK, d.mread b x.addr)
  | 5 => (if (span 0 256).all (fun i => d.blankWord (sect + 16 * i)) then frOK else frNOTBLANK, d)
  | 6 => (frOK, d.colTest b good line n)
  | _ => d.colRepair b (d.get (FLC_ARG b) FLC_ARG_ARG)

/-- FLASH_COMMAND_END (R308, R310, R319, R320): the bank is free unless a move follows. -/
def execFlashCommandEnd (b : Fin 4) (good line n : Nat) (s : State) : Host.Outcome State Fault Refusal :=
  s.run fun d =>
    let op := (d.bankOfs b).op
    if op = 0 then d
    else
      let a := FLC_STAT b
      let r := d.flcRun b good line n
      let d := r.2.setBank b { r.2.bankOfs b with op := 0, log := none }
      ((d.put a FLC_STAT_SUSP 0).bankShow b).flcEnd b op r.1

/-! ### Suspension (R306) -/

/-- A bank that erases: an ERASE, or the erase of a move. -/
def Dev.erasing (d : Dev) (b : Nat) : Bool := (d.bankOfs b).op == 3 || d.flag (FLC_STAT b) FLC_STAT_MOVE

/-- A resumed erase has run for 200 µs: the time that must pass before it may be suspended again. -/
def Dev.maySuspend (d : Dev) (b : Nat) : Bool :=
  d.erasing b && !d.flag (FLC_STAT b) FLC_STAT_SUSP && decide ((d.bankOfs b).mark ≤ d.clk.cyc + 1)

/-- ERASE_SUSPEND (R306): after a resume the erase runs for at least 200 µs, 24,576 cycles, and a request that comes earlier waits. -/
def execEraseSuspend (b : Fin 4) (s : State) : Host.Outcome State Fault Refusal :=
  s.run fun d => if d.maySuspend b then ((d.put (FLC_STAT b) FLC_STAT_SUSP 1).count (FLC_CNT 3)).bankMark b 0 else d

/-- No privileged request has been served for 2 µs, 246 cycles, as far as the state shows. -/
def Dev.mayResume (d : Dev) (b : Nat) : Bool :=
  d.flag (FLC_STAT b) FLC_STAT_SUSP && decide ((d.bankOfs b).mark + 246 ≤ d.clk.cyc + 1)

/-- ERASE_RESUME (R306). -/
def execEraseResume (b : Fin 4) (s : State) : Host.Outcome State Fault Refusal :=
  s.run fun d => if d.mayResume b then (d.put (FLC_STAT b) FLC_STAT_SUSP 0).bankMark b 24576 else d

/-! ### Cuts and start-up (R313, R314) -/

/-- An engine's record cut short: some words of it stand and the one under way is not valid at either margin. -/
def Dev.wordsCut (d : Dev) (a : Nat) (r : List Byte) : Dev :=
  let f := d.free
  let n := f.1.toNat % max 1 (r.length / 16)
  let d := ((span 0 n).foldl (fun (d : Dev) k => d.progWord (a + 16 * k) ((r.drop (16 * k)).take 16) true) f.2)
  let g := d.freeBytes 16
  g.2.progWord (a + 16 * n) g.1 false

/-- A move cut short (R313): before its position record stands, the gap holds a part of the copy; after it, the final erase has begun and the flag
cell of its sector is set. -/
def Dev.moveCut (d : Dev) (w : Nat) : Dev :=
  let x := d.winOf w
  let g := x.gap w
  let src := if 0 < g then g - 1 else winN w
  let f := d.free
  let d := f.2.copySector (winHome w (x.idx src)) (winHome w (x.idx g))
  if f.1.getLsbD 0 then
    let x := if 0 < g then { x with back := x.back + 1 } else { x with start := (x.start + 1) % winN w, back := 0 }
    (((d.setWin w x).winPut w 1 x.start (x.gap w)).winShow w).setFlagCell (winHome w (x.idx src)) true
  else d

/-- Every bank operation is cut, as a power loss would cut it: an erase leaves its flag cell set, a program leaves a word that is not
valid at either margin, and a move resolves as R313 says. -/
def Dev.flashCut (d : Dev) : Dev :=
  let d := (span 0 4).foldl (fun d b =>
    let x := d.bankOfs b
    let d := if x.op = 1 ∨ x.op = 2 then
        let f := d.free
        let n := if x.op = 2 then f.1.toNat % max 1 (d.get (FLC_ARG b) FLC_ARG_ARG) else 0
        let d := (f.2.progBuf x.core x.addr ((d.reg (FLC_BUF b)).toNat / 16 * 16) n n).2
        let g := d.freeBytes 16
        let a := x.addr + 16 * n
        if g.2.blankWord a then g.2.progWord a g.1 false else g.2
      else d
    d.setBank b { x with op := 0, log := none, eng := 0 }) d
  (span 0 2).foldl (fun d w => if d.flag (FLC_STAT (winBank w)) FLC_STAT_MOVE then d.moveCut w else d) d

/-- A state word that counts at replay: its fields (R312). -/
def Dev.winWord (d : Dev) (w a : Nat) : Option (Nat × List Byte) :=
  let b := d.bytes a 16
  if u8 b 0 = 0x57 ∧ u8 b 1 = 0x4E ∧ u8 b 3 = w ∧ sget 0 d.flWeak (a / 16) = 0 ∧ (sget [] d.flErr (a / 16)).length ≤ 2
      ∧ u32 b 12 = crc32 (b.take 12) then some (u32 b 4, b)
  else none

/-- The words of both state sectors, by sector and place. -/
def winWords (w : Nat) : List (Nat × Nat) := (span 0 2).flatMap (fun i => (span 0 256).map (fun k => (i, winState w i + 16 * k)))

/-- One record applied to the window (Table 15.5). -/
def Win.replay (x : Win) (w : Nat) (b : List Byte) : Win :=
  let a := u16 b 8
  let v := u16 b 10
  match u8 b 2 with
  | 1 => { x with start := a, back := winN w - v }
  | 2 => x.withSubst a v
  | 3 => { x with retired := x.retired.filter (· != a) ++ [a] }
  | 4 => { x with copyback := x.copyback.filter (fun e => e.1 != a) ++ [(a, v)] }
  | 5 => { x with copyback := x.copyback.filter (fun e => e.1 != a) }
  | _ => x

/-- The window's state replayed in ascending SEQ (R312). -/
def Dev.winReplay (d : Dev) (w : Nat) : Dev :=
  let l := (winWords w).filterMap (fun p => (d.winWord w p.2).map (fun r => (r.1, (p.1, r.2))))
  let l := l.foldl (fun (m : List (Nat × (Nat × List Byte))) p => sinsert p.1 p.2 (serase p.1 m)) []
  let x0 : Win := { Win.init with ecount := (d.winOf w).ecount, defer := (d.winOf w).defer }
  let x := l.foldl (fun (x : Win) p => { x.replay w p.2.2 with seq := p.1, sect := p.2.1 }) x0
  let used := (span 0 256).filter (fun k => !d.blankWord (winState w x.sect + 16 * k))
  d.setWin w { x with next := (used.foldl (fun m k => max m (k + 1)) 0) }

/-- A copy-back without a done record is finished (R311, step 4 of R313). -/
def Dev.copyBackEnd (d : Dev) (w slot pool : Nat) : Dev :=
  let x := d.winOf w
  let d := d.copySector (winHome w pool) (winHome w (x.idx slot))
  let d := d.eraseSector (winHome w pool)
  (d.setWin w { x with copyback := x.copyback.filter (fun e => e.1 != slot) }).winPut w 5 slot 0

/-- The gap and the pool are blank, or are erased (step 5 of R313). -/
def Dev.poolClean (d : Dev) (w : Nat) : Dev :=
  let x := d.winOf w
  ((x.idx (x.gap w)) :: x.pool w).foldl (fun d i =>
    let a := winHome w i
    if d.mem.any (fun p => inSector a p.1) || d.flWeak.any (fun p => inSector a (16 * p.1)) then d.eraseSector a else d) d

/-- The swap flag of a twin: its GEN when valid at both margins (Table 15.6). -/
def Dev.twinGen (d : Dev) (i : Nat) : Option Nat :=
  let a := flashAt (0x00800000 * i + 0x3FFF0)
  let b := d.bytes a 16
  if u8 b 0 = 0x54 ∧ u8 b 1 = 0x57 ∧ u16 b 2 = 0 ∧ u32 b 4 ≠ 0xFFFFFFFF ∧ u32 b 4 + u32 b 8 = 0xFFFFFFFF
      ∧ u32 b 12 = crc32 (b.take 12) ∧ sget 0 d.flWeak (a / 16) = 0 ∧ (sget [] d.flErr (a / 16)).length ≤ 2 then some (u32 b 4)
  else none

/-- The choice of the active twin, once per system reset (R314). -/
def Dev.twinChoose (d : Dev) : Dev :=
  if d.svc.twin then d
  else
    let d := { d with svc := { d.svc with twin := true } }
    let act := match d.twinGen 0, d.twinGen 1 with
      | some x, some y => if x < y then 1 else 0
      | none, some _ => 1
      | _, _ => 0
    let d := d.put FLC_BOOT FLC_BOOT_ACTIVE act
    d.putB FLC_BOOT FLC_BOOT_NOTWIN ((d.twinGen 0).isNone && (d.twinGen 1).isNone)

/-- The start-up work of R313: repairs, flagged sectors, windows, copy-backs, pools; then READY. -/
def Dev.flashStart (d : Dev) : Dev :=
  let d := (span 0 4).foldl (fun d b =>
    let l := sget [] d.flRow b
    d.setReg (FLC_REP b) (mkWord [(FLC_REP_USED, l.length), (FLC_REP_LAST, l.getLast?.getD 0)])) d
  let d := d.twinChoose
  let d := d.flFlag.foldl (fun d n =>
    ((d.eraseSector (flashAt (4096 * n))).reportNext 12 n 1 0 []).count (FLC_CNT 4)) d
  let d := { d with flFlag := [] }
  let d := (span 0 2).foldl (fun d w =>
    let d := d.winReplay w
    let d := (d.winOf w).copyback.foldl (fun d e => d.copyBackEnd w e.1 e.2) d
    (d.poolClean w).winShow w) d
  d.put FLC_BOOT FLC_BOOT_READY 1

/-- `e` is `d` with some flash word erased or programmed. -/
def Dev.flashMoved (d e : Dev) : Bool := e.mem != d.mem || e.flFlag != d.flFlag || e.flWeak != d.flWeak || e.flErr != d.flErr

/-- Work of the flash that would erase or program waits while SLOW is 1 (R37; log entry 141). -/
def Dev.unlessSlow (d e : Dev) : Dev := if d.flag PWR_SUPPLY PWR_SUPPLY_SLOW && d.flashMoved e then d else e

/-- The bank operations of a flash die that is reset or lost are cut (R8, R313), and a command cut this way ends ISOLATED. -/
def Dev.flashDieCut (d : Dev) : Dev :=
  let l := (span 0 4).filter (fun b => (d.bankOfs b).op ≠ 0)
  let ops := l.map (fun b => (b, (d.bankOfs b).op))
  let d := d.flashCut
  let d := (span 0 4).foldl (fun d b => ((d.put (FLC_STAT b) FLC_STAT_BUSY 0).put (FLC_STAT b) FLC_STAT_SUSP 0).put (FLC_STAT b) FLC_STAT_MOVE 0) d
  ops.foldl (fun d p => d.flcEnd p.1 p.2 frISOLATED) d

end Sys2Proof.Machine
end

