-- ==== Sys2Proof/Machine/Fec.lean ====
section
/-! DEFINITION. Chirp coding (chapter 6): the LDPC codes of R110 to R113, the SC and MC frame layouts, time-on-air (R120),
and the layered min-sum decoder of R149. -/

namespace Sys2Proof.Machine

/-! ### Base matrices (Tables 6.5, 6.6): rows of column and shift -/

abbrev BaseRow := List (Nat × Nat)

def scRows : List BaseRow :=
  [[(0, 37), (1, 91), (2, 12), (3, 66), (4, 1), (5, 0)],
   [(0, 115), (2, 48), (3, 7), (4, 0), (5, 0), (6, 0)],
   [(0, 83), (1, 26), (3, 101), (6, 0), (7, 0)],
   [(1, 59), (2, 120), (3, 33), (4, 1), (7, 0)],
   [(0, 18), (1, 74), (5, 44), (8, 0)],
   [(2, 97), (3, 5), (6, 62), (9, 0)],
   [(0, 52), (3, 88), (4, 29), (10, 0)],
   [(1, 9), (2, 71), (7, 106), (11, 0)]]

def mcRows : List BaseRow :=
  [[(0, 17), (2, 70), (4, 58), (6, 35), (8, 3), (10, 92), (12, 81), (14, 11), (16, 44), (18, 56), (20, 1), (21, 0)],
   [(1, 66), (3, 49), (5, 23), (7, 14), (9, 91), (11, 80), (13, 7), (15, 29), (17, 38), (19, 62), (20, 0), (21, 0), (22, 0)],
   [(0, 0), (1, 12), (4, 30), (5, 88), (8, 75), (9, 52), (12, 41), (13, 61), (16, 90), (17, 2), (22, 0), (23, 0)],
   [(2, 9), (3, 27), (6, 84), (7, 93), (10, 20), (11, 6), (14, 63), (15, 71), (18, 45), (19, 33), (20, 1), (23, 0)]] ++
  [[(1, 40), (6, 77), (11, 19), (16, 63), (21, 85), (24, 0)],
   [(3, 8), (8, 54), (13, 95), (17, 26), (22, 47), (25, 0)],
   [(0, 60), (5, 4), (10, 39), (15, 82), (23, 13), (26, 0)],
   [(2, 31), (7, 68), (12, 22), (14, 50), (20, 72), (27, 0)],
   [(0, 87), (4, 15), (9, 73), (21, 36), (28, 0)],
   [(1, 25), (6, 59), (11, 94), (22, 10), (29, 0)],
   [(2, 43), (5, 79), (8, 18), (23, 65), (30, 0)],
   [(3, 57), (7, 2), (10, 34), (20, 48), (31, 0)]]

/-- `P^s` on a column, entry 0 first: a rotation to the left (R110). -/
def rotl {α : Type} (l : List α) (s : Nat) : List α := l.drop s ++ l.take s

def xorBits (a b : List Bool) : List Bool := List.zipWith (fun x y => x != y) a b

/-! ### Encoding (R113) -/

/-- XOR of the rotated columns a row names among those `f` keeps. -/
def rowSum (z : Nat) (cols : List (List Bool)) (f : Nat → Bool) (row : BaseRow) : List Bool :=
  (row.filter (fun p => f p.1)).foldl (fun a p => xorBits a (rotl (cols.getD p.1 []) (p.2 % z))) (List.replicate z false)

/-- The extension rows, one parity column each. -/
def extend (z q : Nat) : List BaseRow → List (List Bool) → List (List Bool)
  | [], cols => cols
  | r :: rs, cols => extend z q rs (cols ++ [rowSum z cols (fun c => decide (c < cols.length)) r])

/-- All columns of the codeword of information columns `u`, over the first `m` rows. -/
def encodeCols (rows : List BaseRow) (z : Nat) (u : List (List Bool)) (m : Nat) : List (List Bool) :=
  let q := u.length
  let lam := fun r => rowSum z u (fun c => decide (c < q)) (rows.getD r [])
  let p0 := xorBits (xorBits (lam 0) (lam 1)) (xorBits (lam 2) (lam 3))
  let p1 := xorBits (lam 0) (rotl p0 (1 % z))
  let p2 := xorBits (lam 1) (xorBits p0 p1)
  let p3 := xorBits (lam 2) p2
  extend z q ((rows.drop 4).take (m - 4)) (u ++ [p0, p1, p2, p3])

/-! ### Decoding (R149) -/

/-- Saturation at ±511. -/
def sat511 (x : Int) : Int := clampI (-511) 511 x

def negSign (l : List Int) : Bool := l.foldl (fun a x => a != decide (x < 0)) false

/-- The new check-to-bit messages of one check: the sign of the others, and 3/4 of their least magnitude. -/
def checkMsgs (t : List Int) : List Int :=
  let neg := negSign t
  (span 0 t.length).map (fun k =>
    let others := t.eraseIdx k
    let m := match others with
      | [] => 0
      | x :: r => r.foldl (fun a y => min a y.natAbs) x.natAbs
    let mag : Int := (m * 3 / 4 : Nat)
    if neg != decide (t.getD k 0 < 0) then -mag else mag)

/-- One base row: bit values, and the row's messages. -/
def layer (z : Nat) (q : List (List Int)) (row : BaseRow) (r : List (List Int)) : List (List Int) × List (List Int) :=
  let t := List.zipWith (fun p m => List.zipWith (fun a b => sat511 (a - b)) (rotl (q.getD p.1 []) (p.2 % z)) m) row r
  let msgs := (span 0 z).map (fun i => checkMsgs (t.map (fun l => l.getD i 0)))
  let r' := (span 0 row.length).map (fun k => msgs.map (fun l => l.getD k 0))
  let q' := (row.zip (t.zip r')).foldl (fun q p =>
    setAt q p.1.1 (rotl (List.zipWith (fun a b => sat511 (a + b)) p.2.1 p.2.2) (z - p.1.2 % z))) q
  (q', r')

/-- One iteration over the rows. -/
def iterRows (z : Nat) : List BaseRow → List (List (List Int)) → List (List Int) → List (List Int) × List (List (List Int))
  | row :: rows, r :: rs, q =>
    let x := layer z q row r
    let y := iterRows z rows rs x.1
    (y.1, x.2 :: y.2)
  | _, _, q => (q, [])

def hard (q : List (List Int)) : List (List Bool) := q.map (fun l => l.map (fun x => decide (x < 0)))

/-- Unsatisfied checks of the rows in use. -/
def unsat (z : Nat) (rows : List BaseRow) (cols : List (List Bool)) : Nat :=
  (rows.map (fun r => (rowSum z cols (fun _ => true) r).countP (fun b => b))).foldl (· + ·) 0

/-- What a decoder returns. -/
structure Decoded where
  ok    : Bool
  iters : Nat
  cols  : List (List Bool)
  deriving DecidableEq, Repr

/-- The iterations: `left` remain, `n` have run, `best` unsatisfied checks last and `same` iterations without a fall. -/
def decodeLoop (z : Nat) (rows : List BaseRow) (stall : Nat) (n : Nat) (last same : Nat) (q : List (List Int)) (r : List (List (List Int))) :
    Nat → Decoded
  | 0 => ⟨false, n, hard q⟩
  | left + 1 =>
    let x := iterRows z rows r q
    let u := unsat z rows (hard x.1)
    let same := if u < last then 0 else same + 1
    if u = 0 then ⟨true, n + 1, hard x.1⟩
    else if stall ≠ 0 ∧ stall ≤ same then ⟨false, n + 1, hard x.1⟩
    else decodeLoop z rows stall (n + 1) u same x.1 x.2 left

/-- Decoding from the columns' initial values. -/
def decodeCols (rows : List BaseRow) (z itermax stall : Nat) (q : List (List Int)) : Decoded :=
  decodeLoop z rows stall 0 (z * rows.length + 1) 0 q (rows.map (fun r => r.map (fun _ => List.replicate z 0))) itermax

/-! ### Bits and bytes (R100) -/

def byteBits (b : Byte) : List Bool := [7, 6, 5, 4, 3, 2, 1, 0].map (fun i => b.getLsbD i)
def toBits (l : List Byte) : List Bool := l.flatMap byteBits
def bitsNat (l : List Bool) : Nat := l.foldl (fun a b => 2 * a + b.toNat) 0
def natBits (n v : Nat) : List Bool := (span 0 n).map (fun i => v.testBit (n - 1 - i))
def fromBits (l : List Bool) : List Byte := (pieces 8 l (l.length / 8)).map (fun x => BitVec.ofNat 8 (bitsNat x))

/-- An LLR byte as a number (R128). -/
def llrInt (b : Byte) : Int := sext 8 b.toNat

/-! ### SC frames (R103 to R108, R111) -/

/-- Payload bytes with CRC, number of blocks, bytes of block `j`, lifting size. -/
def scBlocks (len : Nat) : Nat := ceilDiv (len + 2) 64
def scBytes (len j : Nat) : Nat :=
  let m := len + 2
  let c := scBlocks len
  m / c + (if j < m % c then 1 else 0)
def scZ (n : Nat) : Nat := if 8 * n ≤ 64 then 16 else if 8 * n ≤ 128 then 32 else if 8 * n ≤ 256 then 64 else 128
/-- First byte of block `j`. -/
def scAt (len j : Nat) : Nat := ((span 0 j).map (scBytes len)).foldl (· + ·) 0

/-- Rows in use and transmitted parity columns of a rate. -/
def scRowsOf (rate : Nat) : Nat := if rate = 0 then 8 else 4
def scParity (rate : Nat) : Nat := if rate = 0 then 8 else if rate = 1 then 4 else 2

/-- Transmitted bits of a block of `n` bytes; of a payload; first bit of block `j`. -/
def scBlockBits (rate n : Nat) : Nat := 8 * n + scParity rate * scZ n
def scPayBits (len rate : Nat) : Nat := ((span 0 (scBlocks len)).map (fun j => scBlockBits rate (scBytes len j))).foldl (· + ·) 0
def scBitAt (len rate j : Nat) : Nat := ((span 0 j).map (fun i => scBlockBits rate (scBytes len i))).foldl (· + ·) 0

/-- Symbols of the header and of the payload. -/
def scHdrSyms (e : Nat) : Nat := ceilDiv 96 e
def scPaySyms (len rate e : Nat) : Nat := ceilDiv (scPayBits len rate) e

/-- A header word is valid (R105). -/
def scHdrOk (h : Nat) : Bool :=
  crc8 (beBytes 3 (h / 256)) == h % 256 && h / 2 ^ 20 % 4 == 0 && h / 2 ^ 22 % 4 != 3 && h / 2 ^ 16 % 16 == 0
    && h / 2 ^ 24 != 0

def scHdrLen (h : Nat) : Nat := h / 2 ^ 24
def scHdrRate (h : Nat) : Nat := h / 2 ^ 22 % 4
def scHdrHint (h : Nat) : Nat := h / 256 % 256

/-- A header word built (Table 6.3). -/
def scHdrWord (len rate hint : Nat) : Nat :=
  let h := 2 ^ 24 * len + 2 ^ 22 * rate + 256 * hint
  h + crc8 (beBytes 3 (h / 256))

/-- The 96 coded header bits (R106). -/
def scHdrBits (h : Nat) : List Bool :=
  let u := pieces 16 (natBits 32 h ++ List.replicate 32 false) 4
  let c := encodeCols scRows 16 u 4
  [0, 1, 4, 5, 6, 7].flatMap (fun i => c.getD i [])

/-- The coded payload bits (R107). -/
def scPayload (rate : Nat) (data : List Byte) : List Bool :=
  let all := data ++ beBytes 2 (crc16 data)
  (span 0 (scBlocks data.length)).flatMap (fun j =>
    let n := scBytes data.length j
    let z := scZ n
    let bits := toBits ((all.drop (scAt data.length j)).take n)
    let u := pieces z (bits ++ List.replicate (4 * z - 8 * n) false) 4
    let c := encodeCols scRows z u (scRowsOf rate)
    bits ++ ((c.drop 4).take (scParity rate)).flatten)

/-- Chirp values of a coded stream (R108): the value whose Gray image is `v`. -/
def grayInv (e v : Nat) : Nat := (span 0 e).foldl (fun k i => k ^^^ (v >>> i)) 0
def gray (k : Nat) : Nat := k ^^^ (k >>> 1)
def scSymbols (e : Nat) (bits : List Bool) : List Nat :=
  let s := ceilDiv bits.length e
  (span 0 s).map (fun i => grayInv e (bitsNat ((span 0 e).map (fun p => bits.getD (i + s * p) false))))

/-- Initial values of an SC header: 96 LLRs, fillers at +127 (R106, R149). -/
def scHdrInit (l : List Int) : List (List Int) :=
  let p := pieces 16 l 6
  [p.getD 0 [], p.getD 1 [], List.replicate 16 127, List.replicate 16 127, p.getD 2 [], p.getD 3 [], p.getD 4 [], p.getD 5 []]

/-- Initial values of an SC payload block of `n` bytes (R107, R111): fillers at +127, punctured columns at 0. -/
def scBlockInit (rate n : Nat) (l : List Int) : List (List Int) :=
  let z := scZ n
  let info := pieces z (l.take (8 * n) ++ List.replicate (4 * z - 8 * n) 127) 4
  let par := pieces z (l.drop (8 * n)) (scParity rate)
  info ++ par ++ List.replicate (scRowsOf rate - scParity rate) (List.replicate z 0)

/-- Time-on-air of an SC frame in µs, rounded up (R120). -/
def scToa (p len rate b e : Nat) : Nat :=
  let q := 4 * p + 15 + 4 * scHdrSyms e + 4 * scPaySyms len rate e
  ceilDiv (4 * q * 2 ^ e - 8) (2 ^ b)

/-- Duration in 1/25 cycle of 122.88 MHz of `q` quarter symbols of an SC mode. -/
def scQuarterU (q b e : Nat) : Nat := q * 4 * 2 ^ e * 3072 / 2 ^ b

/-! ### MC frames (R112, R114 to R119) -/

def mcChirps (m : Nat) : Nat := if m = 0 then 64 else if m = 1 then 256 else 1024
def mcData (m : Nat) : Nat := if m = 0 then 60 else if m = 1 then 252 else 1008
def mcHdrSyms (m : Nat) : Nat := if m = 0 then 3 else 1
def mcBitsPer (c : Nat) : Nat := 2 * c + 2

/-- Information columns, rows, and K of a rate (Table 6.7). -/
def mcInfo (r : Nat) : Nat := if r = 0 then 12 else if r = 1 then 16 else if r = 2 then 18 else 20
def mcRowsOf (r : Nat) : Nat := if r = 0 then 12 else if r = 1 then 8 else if r = 2 then 6 else 4
def mcK (r : Nat) : Nat := 96 * mcInfo r

/-- Codewords and data symbols of a frame (R119). -/
def mcWords (len r : Nat) : Nat := ceilDiv (8 * (len + 4)) (mcK r)
def mcDataSyms (len r c m : Nat) : Nat := ceilDiv (2304 * mcWords len r) (mcBitsPer c * mcData m)

/-- Fields of the MC header word (Table 6.10). -/
def mcVer (h : Nat) : Nat := h / 2 ^ 60 % 16
def mcConst (h : Nat) : Nat := h / 2 ^ 58 % 4
def mcRate (h : Nat) : Nat := h / 2 ^ 56 % 4
def mcLen (h : Nat) : Nat := h / 2 ^ 40 % 2 ^ 16
def mcSeed (h : Nat) : Nat := h / 2 ^ 32 % 128
def mcLinkInfo (h : Nat) : Nat := h / 2 ^ 16 % 2 ^ 16

/-- An MC header is valid (R118). -/
def mcHdrOk (h : Nat) : Bool :=
  crc16 (beBytes 6 (h / 2 ^ 16)) == h % 2 ^ 16 && mcVer h == 0 && mcConst h != 3 && mcSeed h != 0
    && h / 2 ^ 39 % 2 == 0 && decide (1 ≤ mcLen h ∧ mcLen h ≤ 16384)

/-- Initial values of an MC header: 128 LLRs, no filler (R118). -/
def mcHdrInit (l : List Int) : List (List Int) := pieces 16 l 8

/-- Initial values of an MC codeword: shortened columns at +127 (R112, R149). -/
def mcWordInit (r : Nat) (l : List Int) : List (List Int) :=
  let k := mcInfo r
  let p := pieces 96 l 24
  p.take k ++ List.replicate (20 - k) (List.replicate 96 127) ++ p.drop k

/-- The scrambler (R119): the next output and state. -/
def scrStep (x : Nat) : Bool × Nat :=
  let o := x.testBit 6 != x.testBit 3
  (o, (2 * x) % 128 + o.toNat)

/-- A run of bits scrambled from a state. -/
def scramble (x : Nat) : List Bool → List Bool
  | [] => []
  | b :: r => let s := scrStep x
              (b != s.1) :: scramble s.2 r

/-- The state after `n` steps. -/
def scrAfter (x : Nat) : Nat → Nat
  | 0 => x
  | n + 1 => scrAfter (scrStep x).2 n

/-- Time-on-air of an MC frame in µs, rounded up (R120): `g` is 0 for 1/8, 1 for 1/4. -/
def mcToa (len r c m g bw : Nat) : Nat :=
  let n := 2 + mcHdrSyms m + mcDataSyms len r c m
  let sps := mcChirps m * (9 + g) / 8
  ceilDiv (100 * (2 * n * sps - 1)) (384 * 2 ^ bw)

/-- Duration in 1/25 cycle of `n` MC symbols. -/
def mcSymU (n m g bw : Nat) : Nat := n * (mcChirps m * (9 + g) / 8) * 1600 / 2 ^ bw

end Sys2Proof.Machine
end

