-- ==== Sys2Proof/Machine/LinkOps.lean ====
section
/-! DEFINITION. Operations of the link sequencer that several commands share: link frames, the child table, queues and
their lock, completions, and the ring of report records (chapters 8 and 9). -/

namespace Sys2Proof.Machine

/-! ### Link frames (Tables 9.1 to 9.3) -/

def lfType (f : List Byte) : Nat := u8 f 0 / 32
def lfAckReq (f : List Byte) : Bool := (u8 f 0).testBit 4
def lfSec (f : List Byte) : Bool := (u8 f 0).testBit 3
def lfPend (f : List Byte) : Bool := (u8 f 0).testBit 2
def lfMicCode (f : List Byte) : Nat := u8 f 0 % 4
def be16 (f : List Byte) (o : Nat) : Nat := 256 * u8 f o + u8 f (o + 1)
def be32 (f : List Byte) (o : Nat) : Nat := 65536 * be16 f o + be16 f (o + 2)
def be64 (f : List Byte) (o : Nat) : Nat := 2 ^ 32 * be32 f o + be32 f (o + 4)
def lfSeq (f : List Byte) : Nat := u8 f 1
def lfMesh (f : List Byte) : Nat := be16 f 2
def lfDst (f : List Byte) : Nat := be16 f 4
def lfSrc (f : List Byte) : Nat := be16 f 6
def lfFcnt (f : List Byte) : Nat := if lfSec f then be32 f 8 else 0
def lfKeyid (f : List Byte) : Nat := u8 f 12
def lfHdrLen (f : List Byte) : Nat := if lfSec f then 13 else 8
def lfMicLen (f : List Byte) : Nat := if lfSec f then (if lfMicCode f = 0 then 4 else if lfMicCode f = 1 then 8 else 16) else 0

/-- Frame types of Table 9.2. -/
def ltPOLL : Nat := 2
def ltACK : Nat := 3
def ltBEACON : Nat := 4
def ltBROADCAST : Nat := 5
def ltBULK : Nat := 6

/-- FORMAT of Table 9.4, for a frame of `len` bytes whose header is `f`. -/
def badFormat (f : List Byte) (len : Nat) : Bool :=
  lfType f == 7 || lfMicCode f == 3 || (!lfSec f && lfMicCode f != 0) || decide (len < lfHdrLen f + lfMicLen f)
    || (lfType f == ltPOLL && !lfAckReq f) || (lfType f == ltACK && (lfAckReq f || decide (lfHdrLen f + lfMicLen f < len)))

/-- The address hash of R174. -/
def addrHash (a : Nat) : Nat := (a % 16) ^^^ (a / 16 % 16) ^^^ (a / 256 % 16) ^^^ (a / 4096 % 16)

/-- KIND of Table 9.3. -/
def hintKind (f : List Byte) : Nat :=
  if lfType f = ltPOLL then 1 else if lfType f = ltACK then 2 else if lfType f = ltBULK then 3 else 0

/-- HINT that matches a link header. -/
def hintOf (f : List Byte) : Nat :=
  16 * addrHash (lfDst f) + 8 * (lfSec f).toNat + 4 * (lfAckReq f).toNat + hintKind f

/-- A link header built: TYPE, flags, SEQ, MESHID, DST, SRC, and with `sec` FCNT and KEYID. -/
def lfHeader (typ : Nat) (ackreq sec pend : Bool) (mic seq mesh dst src fcnt keyid : Nat) : List Byte :=
  [BitVec.ofNat 8 (32 * typ + 16 * ackreq.toNat + 8 * sec.toNat + 4 * pend.toNat + mic), BitVec.ofNat 8 seq] ++ beBytes 2 mesh
    ++ beBytes 2 dst ++ beBytes 2 src ++ (if sec then beBytes 4 fcnt ++ [BitVec.ofNat 8 keyid] else [])

/-- The nonce of a link frame (Table 11.11). -/
def lfNonce (f : List Byte) : List Byte :=
  beBytes 2 (lfMesh f) ++ beBytes 2 (lfSrc f) ++ beBytes 4 (lfFcnt f) ++ [BitVec.ofNat 8 (lfKeyid f), BitVec.ofNat 8 (5 + lfMicCode f), 0, 0, 0]

/-! ### Own addresses -/

def Dev.short (d : Dev) : Nat := d.get LNK_ADDR LNK_ADDR_SHORT
def Dev.meshId (d : Dev) : Nat := d.get LNK_ADDR LNK_ADDR_MESHID
def Dev.promisc (d : Dev) : Bool := d.flag LNK_CFG LNK_CFG_PROMISC

/-- `a` is an enabled alias. -/
def Dev.isAlias (d : Dev) (a : Nat) : Bool :=
  (span 0 8).any (fun i => d.flag (LNK_ALIAS i) LNK_ALIAS_EN && d.get (LNK_ALIAS i) LNK_ALIAS_ALIAS == a)

/-- A frame to `a` is addressed to this head (R177). -/
def Dev.toThis (d : Dev) (a : Nat) : Bool := (decide (d.short ≠ 0) && a == d.short) || d.isAlias a

/-! ### Child table (R194) -/

def Dev.chtW (d : Dev) (i w : Nat) : Word := sget 0 d.cht (8 * i + w)
def Dev.setChtW (d : Dev) (i w : Nat) (v : Word) : Dev := { d with cht := sset 0 d.cht (8 * i + w) v }
def Dev.chtGet (d : Dev) (i w : Nat) (f : Fld) : Nat := getF (d.chtW i w) f
def Dev.chtPut (d : Dev) (i w : Nat) (f : Fld) (v : Nat) : Dev := d.setChtW i w (setF (d.chtW i w) f v)
def Dev.chtWords (d : Dev) (i : Nat) : List Word := (span 0 8).map (d.chtW i)
def Dev.chtValid (d : Dev) (i : Nat) : Bool := d.chtGet i 0 CHT_VALID == 1

/-- The VALID entries, lowest first: those with a listed word 0. -/
def Dev.chtIndices (d : Dev) : List Nat := ((d.cht.filter (fun p => p.1 % 8 = 0)).map (fun p => p.1 / 8)).filter d.chtValid

/-- The VALID entry of a short address. -/
def Dev.lookup (d : Dev) (a : Nat) : Option Nat := d.chtIndices.find? (fun i => d.chtGet i 0 CHT_SHORT == a)

/-- The VALID entry of kind PARENT. -/
def Dev.parent (d : Dev) : Option Nat := d.chtIndices.find? (fun i => d.chtGet i 0 CHT_KIND == 1)

def Dev.qLocked (d : Dev) (i : Nat) : Bool := d.chtGet i 5 CHT_QLOCK == 1

/-! ### Completions (R185) -/

/-- Completion status (Table 9.9). -/
def csSENT : Nat := 1
def csACKED : Nat := 2
def csACKEDPEND : Nat := 3
def csNOACK : Nat := 4
def csREFUSED : Nat := 5
def csENDED : Nat := 6
def csCCAFAIL : Nat := 7
def csNOCCA : Nat := 8
def csKEYLIMIT : Nat := 9
def csFCNTMAX : Nat := 10
def csQUEUED : Nat := 11
def csGONE : Nat := 12
def csCANCELLED : Nat := 13
def csFLUSHED : Nat := 14
def csDROPPED : Nat := 15

/-- The TAG of a descriptor. -/
def descTag (b : List Byte) : Nat := u32 b 0x1C

def Dev.complete (d : Dev) (tag status code : Nat) : Dev := { d with comps := d.comps ++ [(tag, status, code)] }

/-! ### Queues (R188 to R190) -/

def Dev.queueOf (d : Dev) (i : Nat) : List Nat := sget [] d.queues i
def Dev.qdesc (d : Dev) (k : Nat) : Option QDesc := sget none d.qpool k

/-- A queue set; QLEN, QHEAD and QTAIL follow. -/
def Dev.setQueue (d : Dev) (i : Nat) (l : List Nat) : Dev :=
  let d := { d with queues := sset [] d.queues i l }
  let d := d.chtPut i 5 CHT_QLEN l.length
  (d.chtPut i 5 CHT_QHEAD (l.headD 0)).chtPut i 5 CHT_QTAIL (l.getLastD 0)

/-- Descriptors of the pool in use, with QFREE following. -/
def Dev.setPool (d : Dev) (k : Nat) (x : Option QDesc) : Dev :=
  let d := { d with qpool := sset none d.qpool k x }
  d.put LNK_STAT LNK_STAT_QFREE (1024 - d.qpool.length)

def poolFree (p : List (Nat × Option QDesc)) : Option Nat := (span 0 1024).find? (fun k => (sget none p k).isNone)

/-- A transmission that awaits its acknowledgement for a queued frame no longer stands for it (R189). -/
def Dev.unawait (d : Dev) (i k : Nat) : Dev :=
  { d with awaits := d.awaits.map (fun (a : Await) => if a.desc = none ∧ a.entry = i ∧ a.idx = k then { a with idx := 1024 } else a) }

/-- A queued frame leaves its queue and the pool; it ends with a status. -/
def Dev.unqueue (d : Dev) (i k : Nat) (status : Option Nat) (code : Nat) : Dev :=
  let tag := match d.qdesc k with
    | some q => descTag q.body
    | none => 0
  let head := (d.queueOf i).headD 1024 = k
  let d := ((d.unawait i k).setQueue i ((d.queueOf i).filter (· ≠ k))).setPool k none
  let d := if head then d.chtPut i 6 CHT_RETRY 0 else d
  match status with
  | some st => d.complete tag st code
  | none => d

/-- Results of LNK_QRES. -/
def qrDONE : Nat := 1
def qrDEFERRED : Nat := 2
def qrQFULL : Nat := 3
def qrPOOL : Nat := 4
def qrNOENTRY : Nat := 5
def qrBADIDX : Nat := 6

def inSram (a n : Nat) : Bool := decide (0x20000000 ≤ a ∧ a + n ≤ 0x21400000)

/-- The descriptor at an address and its frame. -/
def Dev.readDesc (d : Dev) (a : Nat) : QDesc :=
  let b := d.bytes a 32
  ⟨b, if inSram (u32 b 0xC) (u16 b 0x10) then d.bytes (u32 b 0xC) (u16 b 0x10) else []⟩

/-- The check bits of the words of a descriptor and its frame act as they are read (R446). -/
def Dev.descTouch (d : Dev) (a : Nat) : Dev :=
  let d := d.touchRange a 32
  let q := d.readDesc a
  d.touchRange (u32 q.body 0xC) q.frame.length

/-- The descriptor address a REPLACE names. -/
def replAddr (arg : Nat) : Nat := 0x20000000 + 32 * (arg % 2 ^ 22)

/-- The pool index a REPLACE or CANCEL names. -/
def qopIdx (op arg : Nat) : Nat := if op = 2 then arg / 2 ^ 22 else arg % 1024

/-- A queue operation that applies now: its result, its index, and the completion it posts when it was deferred. A pool index
that is queued for another entry gives BADIDX, as one that names no queued frame does (DESIGN CHOICE, log entry 182). -/
def Dev.qopNow (d : Dev) (i op arg : Nat) : Nat × Nat × Nat × Dev :=
  match op with
  | 1 =>
    if !(d.chtValid i && d.chtGet i 0 CHT_SLEEPY == 1) then (qrNOENTRY, 0, csREFUSED, d)
    else if d.get LNK_POLL LNK_POLL_QMAX ≤ (d.queueOf i).length then (qrQFULL, 0, csREFUSED, d.count (LNK_CNT 11))
    else
      match poolFree d.qpool with
      | none => (qrPOOL, 0, csREFUSED, d.count (LNK_CNT 11))
      | some k => (qrDONE, k, csQUEUED, ((d.descTouch arg).setPool k (some (d.readDesc arg))).setQueue i (d.queueOf i ++ [k]))
  | 2 =>
    let k := qopIdx op arg
    if !inSram (replAddr arg) 32 then (qrBADIDX, 0, csREFUSED, d)
    else if (d.queueOf i).contains k then
      let tag := match d.qdesc k with
        | some q => descTag q.body
        | none => 0
      let d := if (d.queueOf i).headD 1024 = k then d.chtPut i 6 CHT_RETRY 0 else d
      (qrDONE, 0, csQUEUED, (((d.descTouch (replAddr arg)).unawait i k).complete tag csCANCELLED 0).setPool k (some (d.readDesc (replAddr arg))))
    else (qrBADIDX, 0, csGONE, d)
  | 3 =>
    let k := qopIdx op arg
    if (d.queueOf i).contains k then (qrDONE, 0, csCANCELLED, d.unqueue i k (some csCANCELLED) 0)
    else (qrBADIDX, 0, csGONE, d)
  | _ => (qrDONE, 0, csCANCELLED, (d.queueOf i).foldl (fun d k => d.unqueue i k (some csCANCELLED) 0) d)

/-- LNK_QRES shows a result. -/
def Dev.qres (d : Dev) (r k : Nat) : Dev := d.setReg LNK_QRES (mkWord [(LNK_QRES_RESULT, r), (LNK_QRES_INDEX, k)])

/-- A queue operation written (R190): deferred while the entry's queue is locked, or when it touches the bound frame; a
deferred operation keeps LNK_QARG as it was. -/
def Dev.qop (d : Dev) (i op : Nat) : Dev :=
  let arg := (d.reg LNK_QARG).toNat
  if d.qLocked i then { d.qres qrDEFERRED 0 with deferred := d.deferred ++ [(i, op, arg)] }
  else
    let r := d.qopNow i op arg
    r.2.2.2.qres r.1 r.2.1

/-- The TAG under which a deferred operation posts its status: that of the descriptor it names. -/
def Dev.deferredTag (d : Dev) (op arg : Nat) : Nat :=
  match op with
  | 1 => descTag (d.bytes arg 32)
  | 2 => descTag (d.bytes (replAddr arg) 32)
  | _ => match d.qdesc (qopIdx op arg) with
    | some q => descTag q.body
    | none => 0

/-- One deferred operation applies, `here` being the frames queued when QLOCK cleared, and posts its final status (R190; log entry 24 for the TAG and for one that fails). A
CANCEL or FLUSH posts through the frames it removes. -/
def Dev.deferApply (d : Dev) (here : List Nat) (x : Nat × Nat × Nat) : Dev :=
  let tag := d.deferredTag x.2.1 x.2.2
  let r := d.qopNow x.1 x.2.1 x.2.2
  let gone := (x.2.1 = 2 ∨ x.2.1 = 3) ∧ !here.contains (qopIdx x.2.1 x.2.2)
  if gone then d.complete tag csGONE 0
  else if r.1 = qrDONE ∧ 3 ≤ x.2.1 then r.2.2.2 else r.2.2.2.complete tag r.2.2.1 0

/-- QLOCK clears, and the entry's deferred operations apply in the order written (R188, R190). -/
def Dev.unlockQueue (d : Dev) (i : Nat) : Dev :=
  let l := d.deferred.filter (fun x => x.1 = i)
  let d := { d with deferred := d.deferred.filter (fun x => x.1 ≠ i), bound := d.bound.filter (fun x => x.entry ≠ i) }
  let here := d.queueOf i
  l.foldl (fun d x => d.deferApply here x) (d.chtPut i 5 CHT_QLOCK 0)

/-- QUEUE_ENQ, QUEUE_REPLACE, QUEUE_CANCEL and QUEUE_FLUSH (R190). -/
def execQueueEnq (c : Fin 7) (i : Fin 8192) (s : State) : Host.Outcome State Fault Refusal :=
  s.ask (.queueEnq c i) LNK_QOP fun d => d.byCore c LNK_QOP true fun d => d.qop i 1

def execQueueReplace (c : Fin 7) (i : Fin 8192) (s : State) : Host.Outcome State Fault Refusal :=
  s.ask (.queueReplace c i) LNK_QOP fun d => d.byCore c LNK_QOP true fun d => d.qop i 2

def execQueueCancel (c : Fin 7) (i : Fin 8192) (s : State) : Host.Outcome State Fault Refusal :=
  s.ask (.queueCancel c i) LNK_QOP fun d => d.byCore c LNK_QOP true fun d => d.qop i 3

def execQueueFlush (c : Fin 7) (i : Fin 8192) (s : State) : Host.Outcome State Fault Refusal :=
  s.ask (.queueFlush c i) LNK_QOP fun d => d.byCore c LNK_QOP true fun d => d.qop i 4

/-- COMPLETION_READ (R195): the oldest completion leaves the FIFO. -/
def compWord (x : Nat × Nat × Nat) : Word :=
  mkWord [(LNK_TXDONE_ST_VALID, 1), (LNK_TXDONE_ST_STATUS, x.2.1), (LNK_TXDONE_ST_CODE, x.2.2)]

def execCompletionRead (c : Fin 7) (s : State) : Host.Outcome State Fault Refusal :=
  s.run fun d => d.byCore c LNK_TXDONE_ST false fun d =>
    match d.comps with
    | [] => { d with rdata := 0 }
    | x :: r => { d with rdata := compWord x, comps := r }

/-- VERDICT_READ (R195): the oldest verdict leaves the FIFO. -/
def Dev.vqSync (d : Dev) : Dev := d.put LNK_STAT LNK_STAT_VQN d.vq.length

def execVerdictRead (c : Fin 7) (s : State) : Host.Outcome State Fault Refusal :=
  s.run fun d => d.byCore c (LNK_VQ 3) false fun d =>
    match d.vq with
    | [] => { d with rdata := 0 }
    | x :: r => Dev.vqSync { d with rdata := x.getD 3 0, vq := r }

/-! ### Windows of an entry (R191, R192) -/

/-- The guard in µs (R191) for an elapsed time of `e` seconds. -/
def Dev.guardUs (d : Dev) (parent : Bool) (tol e : Nat) : Nat :=
  let t := if parent then d.accppm else if tol = 0 then 20 else tol
  min (1000 * d.get LNK_GUARD LNK_GUARD_GMAX_MS) (d.get LNK_GUARD LNK_GUARD_GBASE_US + 2 * t * e)

/-- Ticks from LASTSEEN to an instant, in half range; LASTSEEN holds whole milliseconds (R197, R16). -/
def sinceSeen (seen t : Nat) : Int := sext 32 ((msOf t + 2 ^ 32 - seen) % 2 ^ 32) * 122880 + (t % 122880 : Nat)

/-- The instant is not later than the contact: their milliseconds are equal, or half the range or more apart (R16). -/
def notSince (x : Int) : Bool := decide (x < 122880)

/-- The guard of an instant `x` ticks after the last contact: GMAX where it is not later (R191). -/
def Dev.guardAt (d : Dev) (parent : Bool) (tol e : Nat) (x : Int) : Nat :=
  if notSince x then 1000 * d.get LNK_GUARD LNK_GUARD_GMAX_MS else d.guardUs parent tol e

/-- `p` of window `n` of entry `i` at a mesh time: parent, tolerance, interval, ticks since the last contact. -/
def Dev.windowAt (d : Dev) (i t : Nat) (p : Bool → Nat → Nat → Int → Bool) : Bool :=
  p (d.chtGet i 0 CHT_KIND == 1) (d.chtGet i 4 CHT_TOL) (d.chtGet i 4 CHT_INTERVAL_S) (sinceSeen (d.chtGet i 3 CHT_LASTSEEN) t)

/-- Window `n` of entry `i` is at or past its close now. -/
def Dev.windowOver (d : Dev) (i n : Nat) : Bool :=
  d.windowAt i d.meshNow (fun par tol iv x => decide (((12288 * d.guardAt par tol (n * iv) x : Nat) : Int) ≤ 100 * (x - (122880000 * n * iv : Nat))))

/-- Windows of an entry that are over as it is written: they never close after that, and the next one to close follows them (R192). A guard grows
with its window and stops at GMAX, so that none of the windows from the first tried on is missed. -/
def Dev.windowsPast (d : Dev) (i : Nat) : Nat :=
  let iv := 122880000 * d.chtGet i 4 CHT_INTERVAL_S
  let x := (sinceSeen (d.chtGet i 3 CHT_LASTSEEN) d.meshNow).toNat
  if iv = 0 then 0
  else
    let lo := (x - 122880 * d.get LNK_GUARD LNK_GUARD_GMAX_MS) / iv
    ((span lo (x / iv + 1 - lo)).filter (fun n => d.windowOver i n)).foldl max 0

/-- Entry `i` has new windows: none of them waits for its frames. -/
def Dev.windowsStart (d : Dev) (i : Nat) : Dev :=
  { d with winSeen := sset 0 d.winSeen i (d.windowsPast i), winWait := d.winWait.filter (· ≠ i) }

/-- A write to a child-table word (R194). The windows of an entry that comes into use, or whose LASTSEEN or INTERVAL_S is written, start from there. -/
def Dev.chtWrite (d : Dev) (i w : Nat) (v : Word) : Dev :=
  let busy := d.put LNK_STAT LNK_STAT_BUSY 1
  match w with
  | 0 =>
    let takes := getF v CHT_VALID == 1 &&
      d.chtIndices.any (fun j => j != i && d.chtGet j 0 CHT_SHORT == getF v CHT_SHORT)
    if d.qLocked i || takes then busy
    else
      let lost := d.chtGet i 0 CHT_LOST == 1 && getF v CHT_LOST == 0
      let was := d.chtValid i
      let n := setF (v &&& 0xFCFFFFFF) CHT_LOST lost.toNat
      let d := d.setChtW i 0 n
      if was && getF v CHT_VALID == 0 then
        (d.queueOf i).foldl (fun d k => d.unqueue i k (some csFLUSHED) 0) d
      else d.when (!was) (fun d => d.windowsStart i)
  | 1 | 2 => if d.chtValid i then busy else d.setChtW i w v
  | 3 => (d.setChtW i w v).windowsStart i
  | 7 => d.setChtW i w v
  | 4 =>
    let same := decide (getF v CHT_INTERVAL_S = d.chtGet i 4 CHT_INTERVAL_S)
    (d.setChtW i 4 (setF v CHT_MISS (d.chtGet i 4 CHT_MISS))).when (!same) (fun d => d.windowsStart i)
  | 6 => d.chtPut i 6 CHT_KEYID (getF v CHT_KEYID)
  | _ => d

/-- Bus address of a word of the page of the child table that CHT shows. -/
def chtAddr (i w : Nat) : Nat := 0x40310000 + 32 * (i % 2048) + 4 * w

/-- CHILD_TABLE_WRITE (R194): word `w` of the entry at place `i` of the page shown. -/
def execChildTableWrite (c : Fin 7) (i : Fin 2048) (w : Fin 8) (v : Word) (s : State) : Host.Outcome State Fault Refusal :=
  s.ask (.childTableWrite c i w v) (chtAddr i w) fun d => d.byCore c (chtAddr i w) true fun d =>
    d.chtWrite (2048 * d.get LNK_CHTPAGE LNK_CHTPAGE_PAGE + i) w v

/-- TXFCNT_WRITE (R195): a value below the present one is ignored. -/
def execTxfcntWrite (c : Fin 7) (v : Word) (s : State) : Host.Outcome State Fault Refusal :=
  s.ask (.txfcntWrite c v) LNK_TXFCNT fun d => d.byCore c LNK_TXFCNT true fun d =>
    if v.toNat < (d.reg LNK_TXFCNT).toNat then d else d.setReg LNK_TXFCNT v

/-! ### The report ring (R159, R160) -/

def ringBase : Nat := 0x22D00000
def ringGran : Nat := 49152

/-- HEAD and TAIL as granule numbers. -/
def Dev.ringHead (d : Dev) : Nat := ((d.reg DEC_FSHEAD).toNat - ringBase) / 64
def Dev.ringTail (d : Dev) : Nat := ((d.reg DEC_FSTAIL).toNat - ringBase) / 64

def Dev.setRing (d : Dev) (head tail : Nat) : Dev :=
  let d := d.setReg DEC_FSHEAD (BitVec.ofNat 32 (ringBase + 64 * head))
  let d := d.setReg DEC_FSTAIL (BitVec.ofNat 32 (ringBase + 64 * tail))
  d.put DEC_FSSTAT DEC_FSSTAT_FREE ((tail + ringGran - head - 1) % ringGran)

/-- Where a record of `n` granules goes, with the length of the pad before it; HEAD never advances onto TAIL. -/
def ringPlace (head tail n : Nat) : Option (Nat × Nat) :=
  let ok := fun (h : Nat) => h % ringGran ≠ tail
  if head < tail then if head + n < tail then some (head, 0) else none
  else if head + n ≤ ringGran ∧ ok (head + n) then some (head, 0)
  else if n < tail then some (0, ringGran - head)
  else none

/-- A record is placed at HEAD (R159): its address, or `none` where the ring has no room; `hold` keeps TAIL from passing it
until the verdict is posted (R184). -/
def Dev.placeRecord (d : Dev) (rec : List Byte) (hold : Bool) : Option Nat × Dev :=
  let n := ceilDiv rec.length 64
  match ringPlace d.ringHead d.ringTail n with
  | none => (none, d.count DEC_NOROOM)
  | some (a, pad) =>
    let pads := if pad = 0 then [] else [RingRec.mk d.ringHead pad true false true]
    let d := { d with ring := d.ring ++ pads ++ [RingRec.mk a n false hold false] }
    let d := d.setRing ((a + n) % ringGran) d.ringTail
    (some (ringBase + 64 * a), d.setBytes (ringBase + 64 * a) rec)

/-- TAIL advances over every given-back record and pad that directly follows it (R160). -/
def Dev.tailAdvance (d : Dev) : Nat → Dev
  | 0 => d
  | n + 1 =>
    match d.ring with
    | [] => d
    | r :: rest =>
      if r.freed && !r.held then
        Dev.tailAdvance (({ d with ring := rest } : Dev).setRing d.ringHead ((r.base + r.len) % ringGran)) n
      else d

def Dev.ringSettle (d : Dev) : Dev := d.tailAdvance (d.ring.length)

/-- RECORD_GIVE_BACK (R160). -/
def Dev.giveBack (d : Dev) (a : Nat) : Dev :=
  let hit := fun (r : RingRec) => !r.pad && !r.freed && ringBase + 64 * r.base == a
  if d.ring.any hit then
    Dev.ringSettle { d with ring := d.ring.map (fun r => if hit r then { r with freed := true } else r) }
  else d.put DEC_FSSTAT DEC_FSSTAT_BADFREE 1

def execRecordGiveBack (c : Fin 7) (v : Word) (s : State) : Host.Outcome State Fault Refusal :=
  s.ask (.recordGiveBack c v) DEC_FSFREE fun d => d.byCore c DEC_FSFREE true fun d => d.giveBack v.toNat

/-- The hold of a record's verdict ends (R184). -/
def Dev.endHold (d : Dev) (a : Nat) : Dev :=
  Dev.ringSettle { d with ring := d.ring.map (fun r => if !r.pad && ringBase + 64 * r.base == a then { r with held := false } else r) }

end Sys2Proof.Machine
end

