-- ==== Sys2Proof/Machine/Wave.lean ====
section
/-! DEFINITION. The waveforms of chapter 6 as the device sends them (R101, R103, R104, R114 to R119) and what it computes from received samples:
the dechirped bins (R101, R121), the training statistic (R141), the equalised chirps and their LLRs (R115, R142, R143), the block format of a channel
stream (R82). A phase counts in 1/8192 of a turn, which every phase of the chapter is a whole number of; an amplitude of 1 is 2^30. The manual fixes no
arithmetic for the device's transforms: every product here is cut to a whole unit (DESIGN CHOICE, log entry 142). -/

namespace Sys2Proof.Machine

/-! ### Complex arithmetic -/

def one30 : Int := 2 ^ 30
def cadd (x y : Cx) : Cx := (x.1 + y.1, x.2 + y.2)
def csub (x y : Cx) : Cx := (x.1 - y.1, x.2 - y.2)
def cconj (x : Cx) : Cx := (x.1, -x.2)
/-- A product, the second factor counting in 2^-30. -/
def cmul (x y : Cx) : Cx := ((x.1 * y.1 - x.2 * y.2) / one30, (x.1 * y.2 + x.2 * y.1) / one30)
/-- Power of a sample. -/
def cpow (x : Cx) : Nat := (x.1 * x.1 + x.2 * x.2).toNat
/-- A quotient in 2^-30. -/
def cdiv (x y : Cx) : Cx :=
  ((x.1 * y.1 + x.2 * y.2) * one30 / (cpow y : Nat), (x.2 * y.1 - x.1 * y.2) * one30 / (cpow y : Nat))
def csum (l : List Cx) : Cx := l.foldl cadd (0, 0)

/-- The points at 2^i / 8192 of a turn. -/
def cisBase : List Cx :=
  [(1073741508, 823550), (1073740561, 1647099), (1073736771, 3294193), (1073721611, 6588356), (1073660973, 13176464), (1073418433, 26350943),
   (1072448455, 52686014), (1068571464, 105245103), (1053110176, 209476638), (992008094, 410903207), (759250125, 759250125), (0, 1073741824),
   (-1073741824, 0)]

/-- The point at `a` / 8192 of a turn. -/
def cis (a : Nat) : Cx := (span 0 13).foldl (fun z i => if a.testBit i then cmul z (cisBase.getD i (0, 0)) else z) (one30, 0)

/-- The largest `r` with `r² ≤ n`, for `n` below 2^128. -/
def isqrt (n : Nat) : Nat := (span 0 64).reverse.foldl (fun r i => if (r + 2 ^ i) ^ 2 ≤ n then r + 2 ^ i else r) 0

def evens {α : Type} : List α → List α
  | [] => []
  | [x] => [x]
  | x :: _ :: r => x :: evens r

/-- The DFT of 2^e samples, not divided: bin `k` is the sum of x[n] × e^(−j2πkn ÷ 2^e). -/
def dft : Nat → List Cx → List Cx
  | 0, x => x.take 1
  | e + 1, x =>
    let a := dft e (evens x)
    let b := dft e (evens (x.drop 1))
    let t := List.zipWith (fun k y => cmul y (cis ((8192 - k * 2 ^ (12 - e)) % 8192))) (span 0 (2 ^ e)) b
    List.zipWith cadd a t ++ List.zipWith csub a t

/-- The inverse DFT, not divided. -/
def idft (e : Nat) (x : List Cx) : List Cx := (dft e (x.map cconj)).map cconj

/-! ### SC chirps (R101, R103, R104) -/

/-- Phase of x_k[n] at spreading exponent `e` (R101): n² ÷ 2N + (k ÷ N − 1/2) n turns. -/
def chipTurn (e k n : Nat) : Nat := (n * n + 2 * k * n + 2 ^ e * n) % 2 ^ (e + 1) * 2 ^ (12 - e)

/-- The up-chirp of value `k`, one sample a chip, and the down-chirp (R101). -/
def upChirp (e k : Nat) : List Cx := (span 0 (2 ^ e)).map (fun n => cis (chipTurn e k n))
def downChirp (e : Nat) : List Cx := (upChirp e 0).map cconj

/-- Samples of one part of a frame, one a chip. -/
def Chirp.samples (e : Nat) : Chirp → List Cx
  | .up k => upChirp e k
  | .down n => (downChirp e).take n

/-- The two sync symbols of a word (R104). -/
def syncSymbols (e w : Nat) : List Nat := [(2 * (w / 16) + 1) * 2 ^ (e - 5), (2 * (w % 16) + 1) * 2 ^ (e - 5)]

/-- An SC frame (R103): `p` preamble chirps, the sync word, the down-chirps, and the header and payload symbols of the header word. -/
def scFrame (p e w hdr : Nat) (payload : List Byte) : List Chirp :=
  List.replicate p (.up 0) ++ (syncSymbols e w).map .up ++ [.down (2 ^ e), .down (3 * 2 ^ e / 4)]
    ++ (scSymbols e (scHdrBits hdr) ++ scSymbols e (scPayload (scHdrRate hdr) payload)).map .up

/-! ### SC symbols received (R101, R121) -/

/-- A symbol multiplied by a chirp and transformed: the power of each bin. -/
def binPowers (e : Nat) (x y : List Cx) : List Nat := (dft e (List.zipWith cmul x y)).map cpow
def dechirp (e : Nat) (x : List Cx) : List Nat := binPowers e x (downChirp e)

/-- q(k) in 1/65536 (R121): the power of bin `k` over the mean of the N − 3 bins outside k − 1 to k + 1. Of a mean of 0 the manual gives no quotient. -/
def binQ (p : List Nat) (k : Nat) : Nat :=
  let n := p.length
  let rest := p.foldl (· + ·) 0 - (p.getD ((k + n - 1) % n) 0 + p.getD k 0 + p.getD ((k + 1) % n) 0)
  if rest = 0 then Config.quietQ k else p.getD k 0 * (n - 3) * 65536 / rest

/-- q of every bin of a window (R121). -/
def windowQ (e : Nat) (x : List Cx) : List Nat :=
  let p := dechirp e x
  (span 0 p.length).map (binQ p)

/-- The bin of most power; the lowest of equals. -/
def topBin (p : List Nat) : Nat := ((span 0 p.length).foldl (fun (b : Nat × Nat) k => if b.2 < p.getD k 0 then (k, p.getD k 0) else b) (0, 0)).1

/-- Decided bin of a symbol and its q; q at a given bin; q of the peak of a down-chirp (R131, R135). -/
def symBin (e : Nat) (x : List Cx) : Nat := topBin (dechirp e x)
def symQ (e : Nat) (x : List Cx) : Nat := binQ (dechirp e x) (symBin e x)
def symQAt (e : Nat) (x : List Cx) (k : Nat) : Nat := binQ (dechirp e x) k
def downQ (e : Nat) (x : List Cx) : Nat :=
  let p := binPowers e x (upChirp e 0)
  binQ p (topBin p)

/-! ### MC symbols (R114 to R117) -/

/-- log2 of M, and √M. -/
def mcLog (m : Nat) : Nat := if m = 0 then 6 else if m = 1 then 8 else 10
def mcRoot (m : Nat) : Nat := 2 ^ (mcLog m / 2)

/-- Pilots of a symbol, the index of pilot `p`, and the data chirps in increasing index (R114). -/
def mcPilots (m : Nat) : Nat := if m = 2 then 16 else 4
def pilotAt (m p : Nat) : Nat := p * mcChirps m / mcPilots m + mcChirps m / (2 * mcPilots m)
def pilotIdx (m : Nat) : List Nat := (span 0 (mcPilots m)).map (pilotAt m)
def dataIdx (m : Nat) : List Nat := (span 0 (mcChirps m)).filter (fun i => !(pilotIdx m).contains i)

/-- Pilot `p` of symbol `l` carries +1 (R116). -/
def pilotUp (p l : Nat) : Bool := (p + l) % 2 == 0

/-- Phase of Γ(k) and of Φ(m, n) (R115). -/
def gammaTurn (m k : Nat) : Nat := (8192 - k * k * (4096 / mcChirps m) % 8192) % 8192
def fresnelTurn (m i n : Nat) : Nat := (7168 + (i - n + (n - i)) ^ 2 * (4096 / mcChirps m)) % 8192

/-- The time samples Φᴴa of a symbol, its cyclic prefix in front (R115); `g` is 0 for 1/8, 1 for 1/4. -/
def fresnelInv (m : Nat) (a : List Cx) : List Cx :=
  (span 0 (mcChirps m)).map (fun n =>
    let z := csum ((span 0 (mcChirps m)).map (fun i => cmul (a.getD i (0, 0)) (cis ((8192 - fresnelTurn m i n) % 8192))))
    (z.1 / mcRoot m, z.2 / mcRoot m))
def withPrefix (m g : Nat) (x : List Cx) : List Cx := x.drop (mcChirps m - mcChirps m * (1 + g) / 8) ++ x
def mcTime (m g : Nat) (a : List Cx) : List Cx := withPrefix m g (fresnelInv m a)

/-- Chirp-domain values of a training symbol (R116). -/
def mcTrainSym (m : Nat) : List Cx := (one30 * (mcRoot m : Int), 0) :: List.replicate (mcChirps m - 1) (0, 0)

/-- Level of an axis and the scale of a constellation of `b` bits (Table 6.9). -/
def axisLevel (h v : Nat) : Int := 2 * (grayInv h v : Int) - (2 ^ h - 1 : Nat)
def mcScale (b : Nat) : Int := if b = 2 then 759250125 else if b = 4 then 339546978 else 165681960

/-- The point of `b` bits; the point of a header bit (R117). -/
def mcPoint (b : Nat) (bits : List Bool) : Cx :=
  let h := b / 2
  (mcScale b * axisLevel h (bitsNat (bits.take h)), mcScale b * axisLevel h (bitsNat (bits.drop h)))
def bpskPoint (b : Bool) : Cx := (if b then one30 else -one30, 0)

/-- A symbol's chirp-domain values: pilots of symbol `l`, the data points in order (R114, R116). -/
def mcSymVals (m l : Nat) (pts : List Cx) : List Cx :=
  let put := fun (a : List Cx) (x : Nat × Cx) => setAt a x.1 x.2
  let a := ((dataIdx m).zip pts).foldl put (List.replicate (mcChirps m) (0, 0))
  ((span 0 (mcPilots m)).map (fun p => (pilotAt m p, bpskPoint (pilotUp p l)))).foldl put a

/-! ### MC frames sent (R118, R119) -/

/-- The MC header word (Table 6.10) and its 128 coded bits (R118). -/
def mcHdrWord (const rate len seed info : Nat) : Nat :=
  let h := 2 ^ 58 * const + 2 ^ 56 * rate + 2 ^ 40 * len + 2 ^ 32 * seed + 2 ^ 16 * info
  h + crc16 (beBytes 6 (h / 2 ^ 16))
def mcHdrBits (h : Nat) : List Bool := (encodeCols scRows 16 (pieces 16 (natBits 64 h) 4) 4).flatten

/-- One MC codeword of `K` bits (R112, R113). -/
def mcCodeword (r : Nat) (bits : List Bool) : List Bool :=
  let k := mcInfo r
  let c := encodeCols mcRows 96 (pieces 96 bits k ++ List.replicate (20 - k) (List.replicate 96 false)) (mcRowsOf r)
  (c.take k ++ c.drop 20).flatten

/-- The bits of the data symbols (R119): CRC-32, padding, scrambling, codewords, and scrambler output in the unused positions. -/
def mcPayload (const rate m seed : Nat) (data : List Byte) : List Bool :=
  let n := mcWords data.length rate
  let k := mcK rate
  let bits := toBits (data ++ leBytes 4 (crc32 data))
  let coded := (pieces k (scramble seed (bits ++ List.replicate (n * k - bits.length) false)) n).flatMap (mcCodeword rate)
  let room := mcDataSyms data.length rate const m * mcBitsPer const * mcData m
  coded ++ scramble (scrAfter seed (n * k)) (List.replicate (room - coded.length) false)

/-- Chirp-domain values of every symbol of an MC frame, training first (R116, R118, R119). -/
def mcFrameVals (m hdr : Nat) (bits : List Bool) : List (List Cx) :=
  let d := mcData m
  let b := mcBitsPer (mcConst hdr)
  let hb := mcHdrBits hdr
  let hs := (span 0 (mcHdrSyms m)).map (fun l => mcSymVals m l ((span 0 d).map (fun j => bpskPoint (hb.getD ((l * d + j) % 128) false))))
  let ds := (span 0 (bits.length / (b * d))).map (fun i =>
    mcSymVals m (mcHdrSyms m + i) ((span 0 d).map (fun j => mcPoint b ((bits.drop ((i * d + j) * b)).take b))))
  [mcTrainSym m, mcTrainSym m] ++ hs ++ ds

/-- The samples of an MC frame (R115, R116). -/
def mcSamples (m g hdr : Nat) (bits : List Bool) : List Cx := (mcFrameVals m hdr bits).flatMap (mcTime m g)

/-! ### MC symbols received (R115, R141 to R143) -/

/-- Correlation power of a window with the training waveform, and what it is divided by so that noise alone gives 1 (R141). -/
def trainCorr (m : Nat) (w : List Cx) : Nat × Nat :=
  let t := fresnelInv m (mcTrainSym m)
  let c := csum (List.zipWith (fun x y => cmul x (cconj y)) w t)
  (cpow c, (w.map cpow).foldl (· + ·) 0)

/-- The combined statistic of two windows as a quotient (R141); windows without energy give none. -/
def trainStat (m : Nat) (w : List Cx × List Cx) : Nat × Nat :=
  let a := trainCorr m w.1
  let b := trainCorr m w.2
  if a.2 = 0 ∨ b.2 = 0 then (Config.quietQ (mcChirps m), 65536) else (a.1 * b.2 + b.1 * a.2, a.2 * b.2)

/-- What the training symbols leave for a frame (R142): the channel estimate by bin (on the scale of the DFT not divided), the noise of a chirp
in 2^-30, the bins floored. -/
structure McTrained where
  chan : List Cx
  nu   : Nat
  low  : Nat
  deriving DecidableEq, Repr

/-- A bin set to a power, its phase kept. -/
def toPower (k : Nat) (z : Cx) (p : Nat) : Cx :=
  if cpow z = 0 then cmul (isqrt p, 0) (cis (Config.nullPhase k))
  else (z.1 * (isqrt (p * 2 ^ 40) : Nat) / (isqrt (cpow z * 2 ^ 40) : Nat), z.2 * (isqrt (p * 2 ^ 40) : Nat) / (isqrt (cpow z * 2 ^ 40) : Nat))

/-- The channel and noise estimates from the two training symbols (R142). The 16 adjacent bins of the average are k − 8 to k + 7 (DESIGN CHOICE, log
entry 143). -/
def mcTrained (m : Nat) (r1 r2 : List Cx) : McTrained :=
  let n := mcChirps m
  let y1 := dft (mcLog m) r1
  let y2 := dft (mcLog m) r2
  let est := List.zipWith (fun k (z : Cx) => cmul (z.1 / 2, z.2 / 2) (cis (gammaTurn m k))) (span 0 n) (List.zipWith cadd y1 y2)
  let mean := (est.map cpow).foldl (· + ·) 0 / n
  let chan := List.zipWith (fun k z => if 64 * cpow z < mean then toPower k z (mean / 64) else z) (span 0 n) est
  let sig := (List.zipWith csub y1 y2).map (fun z => cpow z / 2)
  let avg := (span 0 n).map (fun k => ((span 0 16).map (fun i => sig.getD ((k + n - 8 + i) % n) 0)).foldl (· + ·) 0 / 16)
  ⟨chan, (List.zipWith (fun (s : Nat) h => s * 2 ^ 30 / cpow h) avg chan).foldl (· + ·) 0 / n, est.countP (fun z => decide (64 * cpow z < mean))⟩

/-- The chirps of a symbol before the rotation by θ_l: FᴴΓ(Y ÷ Ĥ) (R115, R142). -/
def mcEqualise (m : Nat) (chan r : List Cx) : List Cx :=
  let y := dft (mcLog m) r
  let z := List.zipWith (fun k (p : Cx × Cx) => cmul (cdiv p.1 p.2) (cis (gammaTurn m k))) (span 0 (mcChirps m)) (y.zip chan)
  (idft (mcLog m) z).map (fun x => (x.1 / mcRoot m, x.2 / mcRoot m))

/-- Σ c_p × â(pilot p), whose phase is θ_l, and the pilots' energy (R143). -/
def pilotSum (m l : Nat) (a : List Cx) : Cx :=
  csum ((span 0 (mcPilots m)).map (fun p => let z := a.getD (pilotAt m p) (0, 0); if pilotUp p l then z else (-z.1, -z.2)))
def pilotEnergy (m : Nat) (a : List Cx) : Nat := ((pilotIdx m).map (fun i => cpow (a.getD i (0, 0)))).foldl (· + ·) 0

/-- Pilot energy that has spread into the chirps after the pilots, less that into those before them (R143). -/
def pilotLean (m : Nat) (a : List Cx) : Int :=
  ((pilotIdx m).map (fun i => (cpow (a.getD (i + 1) (0, 0)) : Int) - cpow (a.getD (i - 1) (0, 0)))).foldl (· + ·) 0

/-- The pilots of the first header symbol agree in sign: none turns against their sum (R144). -/
def pilotsAgree (m : Nat) (a : List Cx) : Bool :=
  let s := pilotSum m 0 a
  (span 0 (mcPilots m)).all (fun p =>
    let z := a.getD (pilotAt m p) (0, 0)
    decide (0 < (if pilotUp p 0 then 1 else -1) * (z.1 * s.1 + z.2 * s.2)))

/-- Faded (R143): the pilots' energy is below one quarter of their level at training, at which every equalised pilot has magnitude 1. -/
def mcFaded (m : Nat) (a : List Cx) : Bool := decide (4 * pilotEnergy m a < mcPilots m * 2 ^ 60)

/-- Rotation by −θ. -/
def derotate (s z : Cx) : Cx :=
  let x := (z.1 * s.1 + z.2 * s.2, z.2 * s.1 - z.1 * s.2)
  let r := isqrt (cpow s)
  if r = 0 then cmul z (cis (Config.nullPhase 8192)) else (x.1 / r, x.2 / r)

/-- A number of units of 0.25 as an LLR byte (the soft store of chapter 7): clipped to ±127. -/
def llrByte (x : Int) : Byte := BitVec.ofInt 8 (clampI (-127) 127 x)

/-- `4 × num ÷ den`, cut toward zero; without noise the sign alone. -/
def llrQuot (num : Int) (den : Nat) : Int := if den = 0 then 128 * num else (4 * num).tdiv den

/-- Max-log LLR of bit `i` of an axis of `h` bits at value `x` (R142): the least squared distance with the bit 1, less that with the bit 0. -/
def axisLlr (b h i nu : Nat) (x : Int) : Byte :=
  let dist := fun (v : Nat) => (x - mcScale b * axisLevel h v) ^ 2
  let best := fun (bit : Bool) => (((span 0 (2 ^ h)).filter (fun v => v.testBit (h - 1 - i) == bit)).map dist).foldl (fun (m : Option Int) y => match m with
    | none => some y
    | some z => some (min z y)) none
  llrByte (llrQuot ((best true).getD 0 - (best false).getD 0) (nu * 2 ^ 30))

/-- LLRs of a data chirp of `b` bits, and of a header chirp (R117, R142). -/
def chirpLlrs (b nu : Nat) (z : Cx) : List Byte :=
  let h := b / 2
  (span 0 h).map (fun i => axisLlr b h i nu z.1) ++ (span 0 h).map (fun i => axisLlr b h i nu z.2)
def bpskLlr (nu : Nat) (z : Cx) : Byte := llrByte (llrQuot (-4 * z.1) nu)

/-- LLRs of a symbol's data chirps in order: of `b` bits each, or with `b` 0 those of a header symbol. A channel estimate of no power at all, for which
R142 gives no quotient, leaves the LLRs open. -/
def mcLlrs (m b nu : Nat) (chan a : List Cx) : List Byte :=
  let w := mcData m * max 1 b
  if chan.all (fun z => cpow z == 0) then (span 0 w).map Config.deadLlr
  else (dataIdx m).flatMap (fun i => let z := a.getD i (0, 0); if b = 0 then [bpskLlr nu z] else chirpLlrs b nu z)

/-! ### The block format of a channel stream (R82, R162) -/

/-- A mantissa at exponent `e` of a value in 1/256 of an ADC bit; it fits 12 bits. -/
def mantissa (e : Nat) (x : Int) : Int := x / (2 ^ e : Nat)
def fits12 (x : Int) : Bool := decide (-2048 ≤ x ∧ x ≤ 2047)

/-- E: the smallest exponent at which no mantissa of the block overflows; 15 at most. -/
def blockExp (x : List Cx) : Nat :=
  ((span 0 15).find? (fun e => x.all (fun z => fits12 (mantissa e z.1) && fits12 (mantissa e z.2)))).getD 15

/-- The three bytes of a sample (Table 8.4). -/
def sampleBytes (e : Nat) (z : Cx) : List Byte :=
  let i := twos 12 (clampI (-2048) 2047 (mantissa e z.1))
  let q := twos 12 (clampI (-2048) 2047 (mantissa e z.2))
  [BitVec.ofNat 8 (i / 16), BitVec.ofNat 8 (i % 16 * 16 + q / 256), BitVec.ofNat 8 (q % 256)]
def blockBytes (x : List Cx) : List Byte := x.flatMap (sampleBytes (blockExp x))

end Sys2Proof.Machine
end

