-- ==== Sys2Proof/Machine/LinkTx.lean ====
section
/-! DEFINITION. Transmissions of the link sequencer (R185 to R190, R203, R211): descriptors and their checks, arming, clear-channel
assessment, what a transmission leaves at its ramp and at its end, and the relay entries that follow their descriptors. -/

namespace Sys2Proof.Machine

/-! ### Descriptors (Table 9.8) -/

def dChain (b : List Byte) : Nat := u8 b 0
def dClass (b : List Byte) : Nat := u8 b 1
def dEnt (b : List Byte) : Nat := u8 b 2
def dPwr (b : List Byte) : Nat := u8 b 3
def dMode (b : List Byte) : Nat := u8 b 4
def dRate (b : List Byte) : Nat := u8 b 5
def dPre (b : List Byte) : Nat := u16 b 6
def dSync (b : List Byte) : Nat := u8 b 8
def dOpts (b : List Byte) : Nat := u8 b 9
def dSlot (b : List Byte) : Nat := u8 b 10
def dLen (b : List Byte) : Nat := u16 b 0x10
def dWhen (b : List Byte) : Nat := u32 b 0x14 + 2 ^ 32 * u32 b 0x18
def dCca (b : List Byte) : Bool := (dOpts b).testBit 0
def dAwait (b : List Byte) : Bool := (dOpts b).testBit 1
def dSecure (b : List Byte) : Bool := (dOpts b).testBit 2
def dTimed (b : List Byte) : Bool := (dOpts b).testBit 3
/-- MODE is that of an MC frame; its link. -/
def modeMc (mode : Nat) : Bool := mode.testBit 7
def modeB (mode : Nat) : Nat := mode / 16 % 8
def modeE (mode : Nat) : Nat := mode % 16 + 5

/-- Every field within its limits, and a frame no filter would reject with FORMAT (R185); a secured descriptor needs a frame
with SEC set, which holds the FCNT and the MIC (log entry 25). -/
def descOk (b f : List Byte) : Bool :=
  decide (dChain b ≤ 1 ∧ 3 ≤ dClass b ∧ dClass b ≤ 15 ∧ dPwr b ≤ 63 ∧ dOpts b ≤ 15 ∧ u8 b 0xB = 0 ∧ u16 b 0x12 = 0)
    && (if modeMc (dMode b) then
          decide (dMode b % 128 ≤ 1 ∧ dRate b ≤ 11 ∧ 1 ≤ dLen b ∧ dLen b ≤ 16384)
        else decide (modeB (dMode b) ≤ 4 ∧ modeE (dMode b) ≤ 12 ∧ dRate b ≤ 2 ∧ 6 ≤ dPre b ∧ dPre b ≤ 4096 ∧ 1 ≤ dLen b ∧ dLen b ≤ 255))
    && decide (f.length = dLen b) && !badFormat f (dLen b) && (!dSecure b || lfSec f)

/-- M, G and B_m of MC link `m` (R175). -/
def Dev.linkM (d : Dev) (m : Nat) : Nat := d.get (MCX_CTL m) MCX_CTL_MSEL
def Dev.linkG (d : Dev) (m : Nat) : Nat := d.get (MCX_CTL m) MCX_CTL_G
def Dev.linkBw (d : Dev) (m : Nat) : Nat := d.get (RFC_MCTAP m) RFC_MCTAP_BW

/-- Occupied bandwidth and time-on-air of a frame of `len` bytes in a mode (R120). -/
def Dev.modeHz (d : Dev) (mode : Nat) : Nat := if modeMc mode then mcHz (d.linkBw (mode % 2)) else bwHz (modeB mode)
def Dev.modeToa (d : Dev) (mode rate pre len : Nat) : Nat :=
  if modeMc mode then
    let m := mode % 2
    mcToa len (rate % 4) (rate / 4) (d.linkM m) (d.linkG m) (d.linkBw m)
  else scToa pre len rate (modeB mode) (modeE mode)

/-- From the first sample to t_sync, in 1/25 of a cycle (R203). -/
def Dev.syncU (d : Dev) (mode pre : Nat) : Nat :=
  if modeMc mode then
    let m := mode % 2
    mcSymU 2 (d.linkM m) (d.linkG m) (d.linkBw m)
  else scQuarterU (4 * (pre + 2)) (modeB mode) (modeE mode)

def Dev.descOf (d : Dev) (id : Nat) : Option Desc := d.descs.find? (fun x => x.id == id)
def Dev.setDesc (d : Dev) (x : Desc) : Dev := { d with descs := d.descs.map (fun y => if y.id = x.id then x else y) }

/-! ### Relays in the seen-message cache (R208, R211) -/

def ceWAIT : Nat := 1
def ceHOLD : Nat := 2
def ceARMED : Nat := 3
def ceRELAYED : Nat := 4
def ceSUPPRESSED : Nat := 5
def ceNORELAY : Nat := 6
def ceFAILED : Nat := 7
def ceOWN : Nat := 8

def Dev.cacheOf (d : Dev) (i : Nat) : CacheE := sget CacheE.init d.cache i

/-- The relay a descriptor carries. -/
def Desc.relayed (x : Desc) : Bool := match x.owner with
  | .relay _ _ _ => true
  | _ => false

/-- Relay buffers in use (R209, R211): of messages in WAIT or HOLD, and of relays handed to the sequencer that have not ended. -/
def Dev.relayBufs (d : Dev) : Nat := d.cache.countP (fun p => p.2.body.isSome) + d.descs.countP Desc.relayed

/-- USED and RELAYS of FLD_CACHE follow. -/
def Dev.cacheSync (d : Dev) : Dev :=
  (d.put FLD_CACHE FLD_CACHE_USED (d.cache.countP (fun p => p.2.state != 0))).put FLD_CACHE FLD_CACHE_RELAYS d.relayBufs

/-- A cache entry set. -/
def Dev.setCache (d : Dev) (i : Nat) (x : CacheE) : Dev := Dev.cacheSync { d with cache := sset CacheE.init d.cache i x }

/-- The entry at index `i` is still that of a message. -/
def Dev.cacheIs (d : Dev) (i origin mseq : Nat) : Bool :=
  (d.cacheOf i).state != 0 && (d.cacheOf i).origin == origin && (d.cacheOf i).mseq == mseq

/-- A relay's descriptor has ended (R211): its buffer is free; an end before the ramp other than CANCELLED makes the entry FAILED. -/
def Dev.relayEnd (d : Dev) (i origin mseq code : Nat) : Dev :=
  let x := d.cacheOf i
  if d.cacheIs i origin mseq ∧ x.state = ceARMED ∧ code ≠ 0x26 then (d.setCache i { x with state := ceFAILED }).count (FLD_CNT 10) else d.cacheSync

/-- A descriptor ends: it is outstanding no longer, and its completion is posted; a relay posts none. -/
def Dev.descEnd (d : Dev) (x : Desc) (status code : Nat) : Dev :=
  let d := { d with descs := d.descs.filter (fun y => y.id != x.id), awaits := d.awaits.filter (fun a => a.desc != some x.id) }
  match x.owner with
  | .relay i o m => d.relayEnd i o m code
  | _ => d.complete (descTag x.body) status code

/-- A descriptor becomes outstanding, or ends REFUSED with code 0 (R185). -/
def Dev.submit (d : Dev) (q : QDesc) (ok : Bool) (o : DescOwner) : Dev :=
  let x : Desc := ⟨d.descSeq, o, q.body, q.frame, 0, 0, none⟩
  let d := { d with descSeq := d.descSeq + 1, descs := d.descs ++ [x] }
  if ok && descOk q.body q.frame then d else d.descEnd x csREFUSED 0

/-- Outstanding descriptors that came from firmware. -/
def Dev.outstanding (d : Dev) : Nat :=
  d.descs.countP (fun x => !x.relayed)

/-- A descriptor written by address (R185). -/
def Dev.submitAt (d : Dev) (a : Nat) (o : DescOwner) (edit : List Byte → List Byte) : Dev :=
  let d := d.descTouch a
  let q := d.readDesc a
  d.submit ⟨q.body, edit q.frame⟩ (inSram a 32 && inSram (u32 q.body 0xC) (dLen q.body)) o

/-- TX_SUBMIT (R185). -/
def execTxSubmit (c : Fin 7) (v : Word) (s : State) : Host.Outcome State Fault Refusal :=
  s.ask (.txSubmit c v) LNK_TXSUB fun d => d.byCore c LNK_TXSUB true fun d =>
    if 32 ≤ d.outstanding then d.count (LNK_CNT 9) else d.submitAt (v.toNat / 32 * 32) .firmware id

/-! ### Arming (R185, R188) -/

/-- The charge of a secured frame (R185, R224, R231): 0 admitted, else the completion status. -/
def Dev.secureArm (d : Dev) (slot : Nat) : Nat × Dev :=
  if d.reg LNK_TXFCNT = 0xFFFFFFFF ∨ d.txCeil then (csFCNTMAX, d)
  else
    let k := d.kslot slot
    if k.opens ∧ k.use.testBit useLINKTX then
      let r := d.charge slot
      (if r.1 = 0 then 0 else csKEYLIMIT, r.2)
    else (csKEYLIMIT, d)

/-- t_start of a descriptor (R185): WHEN, or the arming lead of R88. A WHEN at or before now is 0, which the gate finds LATE. -/
def Dev.startOf (d : Dev) (b : List Byte) : Nat :=
  if dTimed b then
    let n := (dWhen b + 2 ^ 64 - d.meshNow) % 2 ^ 64
    if n < 2 ^ 63 then d.nowU + 25 * n else 0
  else d.nowU + usU (d.armLead (dClass b))

/-- The request of a descriptor. -/
def Dev.armingOf (d : Dev) (x : Desc) : Arming :=
  let b := x.body
  { req := .desc x.id, cls := dClass b, ent := dEnt b, bHz := d.modeHz (dMode b), pwr := dPwr b, start := d.startOf b,
    toa := d.modeToa (dMode b) (dRate b) (dPre b) (dLen b), frame := x.frame,
    slot := if dSecure b then some (dSlot b) else none, mode := dMode b, rate := dRate b, pre := dPre b, sync := dSync b }

/-- A descriptor is armed: key charge, then the gate. -/
def Dev.descArm (d : Dev) (x : Desc) : Dev :=
  let k := if dSecure x.body then d.secureArm (dSlot x.body) else (0, d)
  if k.1 ≠ 0 then k.2.descEnd x k.1 0
  else
    let g := k.2.gateArm (dChain x.body) (k.2.armingOf x)
    if g.1 = 0 then g.2.setDesc { x with stage := 1 } else g.2.descEnd x csREFUSED g.1

/-- The first descriptor of a chain that is not yet armed. -/
def Dev.headDesc (d : Dev) (t : Nat) : Option Desc := d.descs.find? (fun x => x.stage == 0 && dChain x.body == t)

/-- The moment of arming has come: TIMED, or nothing held on the chain; a poll response that waits for the chain goes first (R185). -/
def Dev.mayArm (d : Dev) (t : Nat) (b : List Byte) : Bool :=
  !(d.bound.any (fun x => x.chain == t)) && (dTimed b || (d.txOf t).isNone)

/-- A descriptor that assesses the channel first (R186). -/
def assesses (b : List Byte) : Bool := dCca b && decide (3 < dClass b)

/-- DESCRIPTOR_ARM (R185). A descriptor with CCA is armed at the end of its assessment. -/
def execDescriptorArm (t : Fin 2) (s : State) : Host.Outcome State Fault Refusal :=
  s.run fun d =>
    match d.headDesc t with
    | none => d
    | some x => if !d.noArm && d.mayArm t x.body && !assesses x.body then d.descArm x else d

/-! ### Clear-channel assessment (R186) -/

/-- Band of a unit's packet, centre and bandwidth in Hz; `none` without a grid. -/
def Dev.unitBand (d : Dev) (u : Nat) (r : Rcv) : Option (Int × Nat) :=
  match d.grid r.chain with
  | none => none
  | some g =>
    if u < 1024 then some (gridCentre g r.ch, bwHz r.b)
    else
      let m := u - 1024
      some ((u32 g 0 : Int) + sext 27 (d.get (RFC_MCTAP m) RFC_MCTAP_OFFSET_HZ), mcHz (d.linkBw m))

/-- Two bands overlap. -/
def overlaps (a : Int) (aw : Nat) (b : Int) (bw : Nat) : Bool := decide (2 * (a - b).natAbs < aw + bw)

/-- READY chains of band `t` whose segment covers the range; one whose grid has no bandwidth covers none (R67). -/
def Dev.ccaChains (d : Dev) (t : Nat) (fc : Int) (bHz : Nat) : List Nat :=
  (span (2 * t) 2).filter (fun c => d.rxReady c && match d.grid c with
    | none => false
    | some g => gridBw g != 0 && decide (2 * (fc - (u32 g 0 : Int)).natAbs + bHz ≤ 2 * segHz c))

/-- A unit of one of the chains works on a packet that overlaps the range (R186), its t_sync latched, so that it has arrived (R179). -/
def Dev.unitBusy (d : Dev) (cs : List Nat) (fc : Int) (bHz : Nat) : Bool :=
  d.rcv.any (fun p => cs.contains p.2.chain && ((p.2.state == 1 && (p.2.step == 2 && p.1 < 1024)) || decide (2 ≤ p.2.state ∧ p.2.state ≤ 4)) && match d.unitBand p.1 p.2 with
    | none => false
    | some x => overlaps fc bHz x.1 x.2)

def Dev.ccaThr (d : Dev) : Int := 100 * sext 8 (d.get LNK_CCA LNK_CCA_THR)

/-- BE before the assessment that follows `n` busy ones. -/
def Dev.ccaBe (d : Dev) (n : Nat) : Nat := min (d.get LNK_CCA LNK_CCA_BEMAX) (d.get LNK_CCA LNK_CCA_BEMIN + n)

/-- One assessment of a descriptor: `p k` is the mean power at the band's chain `k`, in 0.01 dBm. -/
def Dev.assess (d : Dev) (t : Nat) (x : Desc) (p : Nat → Int) : Dev :=
  let fc : Int := 1000 * (d.get (SYN_CALF t (dEnt x.body)) SYN_CALF_FREQ_KHZ : Nat)
  let w := d.modeHz (dMode x.body)
  let cs := d.ccaChains t fc w
  if cs = [] then d.descEnd x csNOCCA 0
  else if cs.any (fun c => decide (d.ccaThr ≤ p (c % 2))) || d.unitBusy cs fc w then
    let n := x.tries + 1
    if d.get LNK_CCA LNK_CCA_MAXTRY ≤ n then (d.count (LNK_CNT 10)).descEnd x csCCAFAIL 0
    else
      let f := d.free
      f.2.setDesc { x with tries := n, back := some (d.clk.cyc + f.1.toNat % 2 ^ d.ccaBe x.tries * d.get LNK_CCA LNK_CCA_SLOT * 196608 / 100) }
  else d.descArm x

/-- CCA_BACKOFF_END (R186): the slots of the back-off have passed. -/
def execCcaBackoffEnd (t : Fin 2) (s : State) : Host.Outcome State Fault Refusal :=
  s.run fun d =>
    match d.headDesc t with
    | none => d
    | some x => if x.back.all (fun t => decide (t ≤ d.clk.cyc)) then d.setDesc { x with back := none } else d

/-! ### Responses to polls (R188, R189) -/

/-- A response that is not sent: RSPFAIL, its frame stays at the head, QLOCK clears. -/
def Dev.responseFails (d : Dev) (i : Nat) : Dev := (d.count (LNK_CNT 13)).unlockQueue i

/-- The fields a response takes from its own descriptor are within their limits (R188): PWRENT, RATE, OPTS, LEN and the frame. -/
def respOk (mode : Nat) (b f : List Byte) : Bool :=
  decide (dPwr b ≤ 63 ∧ dOpts b ≤ 15 ∧ 1 ≤ dLen b) && (if modeMc mode then decide (dRate b ≤ 11 ∧ dLen b ≤ 16384) else decide (dRate b ≤ 2 ∧ dLen b ≤ 255))
    && decide (f.length = dLen b) && !badFormat f (dLen b) && (!dSecure b || lfSec f)

/-- POLL_RESPONSE_ARM (R188): the frame bound on chain `t`, after the acknowledgement's last sample. -/
def Dev.responseArm (d : Dev) (t : Nat) (x : Bound) (last : Nat) : Dev :=
  match d.qdesc x.idx with
  | none => d.responseFails x.entry
  | some q =>
    let b := q.body
    if !respOk x.mode b q.frame then d.responseFails x.entry
    else
      let k := if dSecure b then d.secureArm (dSlot b) else (0, d)
      if k.1 ≠ 0 then k.2.responseFails x.entry
      else
        let pre := d.get LNK_POLL LNK_POLL_RSPPRE
        let g := k.2.gateArm t { req := .response x.entry x.idx, cls := 1, ent := x.ent, bHz := d.modeHz x.mode, pwr := dPwr b, start := last + usU (d.get LNK_POLL LNK_POLL_RSPDLY_US), toa := d.modeToa x.mode (dRate b) pre (dLen b), frame := q.frame, slot := if dSecure b then some (dSlot b) else none, mode := x.mode, rate := dRate b, pre := pre, sync := x.sync }
        if g.1 = 0 then g.2 else g.2.responseFails x.entry

def execPollResponseArm (t : Fin 2) (s : State) : Host.Outcome State Fault Refusal :=
  s.run fun d => if d.noArm then d else
    match d.bound.find? (fun x => x.chain == t.val && x.last.isSome) with
    | none => d
    | some x =>
      match d.txOf t with
      | some y => if y.req = .response x.entry x.idx then d else d.responseArm t x (x.last.getD 0)
      | none => d.responseArm t x (x.last.getD 0)

/-- ACK_WAIT_EXPIRY (R187, R189). -/
def Dev.ackExpired (d : Dev) (a : Await) : Dev :=
  let d := { d with awaits := d.awaits.filter (· ≠ a) }
  match a.desc with
  | some id => match d.descOf id with
    | some x => d.descEnd x csNOACK 0
    | none => d
  | none =>
    if (d.queueOf a.entry).contains a.idx then
      let n := d.chtGet a.entry 6 CHT_RETRY + 1
      if d.get LNK_POLL LNK_POLL_RETRYMAX ≤ n then (d.count (LNK_CNT 12)).unqueue a.entry a.idx (some csDROPPED) 0
      else d.chtPut a.entry 6 CHT_RETRY n
    else d

/-- A frame that may be the acknowledgement waited for has its t_sync latched in time and has not been judged (R179): it has arrived. -/
def Dev.ackComing (d : Dev) (a : Await) : Bool :=
  d.rcv.any (fun p => bandOf p.2.chain == a.chain && decide (p.2.syncU ≤ a.due)
    && ((p.2.state == 1 && (p.2.step == 2 && p.1 < 1024)) || p.2.state == 2 || (p.2.state == 3 && (if p.1 < 1024 then scHdrHint p.2.hdr else mcLinkInfo p.2.hdr) % 4 == 2)))

/-- A wait that has run out ends once no frame latched in time can still answer it (R179, R187). -/
def Dev.awaitSettle (d : Dev) (a : Await) : Dev := if a.past && !d.ackComing a then d.ackExpired a else d
def Dev.awaitsSettle (d : Dev) : Dev := d.awaits.foldl (fun d a => d.awaitSettle a) d

/-- A symbol whose end latches a t_sync. -/
def latches : Instr → Bool
  | .furrowSymbol _ (.sync ..) => true
  | .mcSymbol _ (.train ..) => true
  | _ => false

/-- An assessment of chain `t` ends, with the mean power at the band's two chains: that of its first unarmed descriptor, at the moment of arming (R186). -/
def Dev.ccaEnd (d : Dev) (t : Nat) (p0 p1 : Int) : Dev :=
  match d.headDesc t with
  | none => d
  | some x =>
    if !d.noArm && d.mayArm t x.body && assesses x.body && x.back.isNone then d.assess t x (fun k => if k = 0 then p0 else p1) else d

/-- The assessments that wait for the arrivals of their cycle. -/
def Dev.ccaDue (d : Dev) : Dev := d.ccaHeld.foldl (fun (d : Dev) x => d.ccaEnd x.1 x.2.1 x.2.2) { d with ccaHeld := [] }

/-- CCA_ASSESSMENT (R186): a frame whose t_sync is latched in the same cycle has arrived, and is seen first (R179). -/
def execCcaAssessment (t : Fin 2) (p0 p1 : Int) (s : State) : Host.Outcome State Fault Refusal :=
  s.run fun d => if s.arrives latches then { d with ccaHeld := d.ccaHeld ++ [(t.val, p0, p1)] } else d.ccaEnd t p0 p1

/-- ACK_WAIT_EXPIRY (R187, R189), once the wait has run out; a t_sync latched in the same cycle is in time (R179). -/
def execAckWaitExpiry (t : Fin 2) (dst : BitVec 16) (seq : BitVec 8) (s : State) : Host.Outcome State Fault Refusal :=
  s.run fun d =>
    match d.awaits.find? (fun a => a.chain == t.val && a.dst == dst.toNat && a.seq == seq.toNat) with
    | none => d
    | some a =>
      if d.nowU < a.due then d
      else
        let b : Await := { a with past := true }
        let d := { d with awaits := d.awaits.map (fun y => if y = a then b else y) }
        if s.arrives latches then d else d.awaitSettle b

/-- An acknowledgement matches a transmission that awaits it (R187, R189). -/
def Dev.ackMatch (d : Dev) (a : Await) (pend : Bool) : Dev :=
  let d := { d with awaits := d.awaits.filter (· ≠ a) }
  let st := if pend then csACKEDPEND else csACKED
  match a.desc with
  | some id => match d.descOf id with
    | some x => d.descEnd x st 0
    | none => d
  | none => if (d.queueOf a.entry).contains a.idx then d.unqueue a.entry a.idx (some st) 0 else d

/-! ### At the ramp and at the end -/

/-- Bytes replaced from an offset on. -/
def patch (l : List Byte) (o : Nat) (v : List Byte) : List Byte := l.take o ++ v ++ l.drop (o + v.length)

/-- Offset of TXTIME in a frame whose body holds it (R203). -/
def txTimeAt (f : List Byte) : Option Nat :=
  let o := if lfType f = ltBEACON then some (lfHdrLen f) else if lfType f = ltBROADCAST then some (lfHdrLen f + 0xE) else none
  match o with
  | none => none
  | some k => if k + 8 + lfMicLen f ≤ f.length then some k else none

/-- A frame encrypted with its MIC (R173, R239). -/
def secureFrame (key f : List Byte) : List Byte :=
  let h := f.take (lfHdrLen f)
  let body := (f.drop (lfHdrLen f)).take (f.length - lfHdrLen f - lfMicLen f)
  h ++ ccmCrypt key (lfNonce f) body ++ ccmTag key (lfNonce f) h body (lfMicLen f)

/-- What the port carries of a link frame (R103, R114, R118, R119): HINT, or LINKINFO of the link, follows the frame's header (R174, R185); the SEED of an
MC frame is drawn from the random source, 1 to 127 (R175). -/
def Dev.airFrame (d : Dev) (mode rate pre sync : Nat) (f : List Byte) : Air × Dev :=
  if modeMc mode then
    let m := mode % 2
    let k := d.free
    let seed := 1 + k.1.toNat % 127
    let info := 256 * d.get (LNK_MCLNK m) LNK_MCLNK_LINKID + hintOf f
    (.mc (mcHdrWord (rate / 4) (rate % 4) f.length seed info) (mcPayload (rate / 4) (rate % 4) (d.linkM m) seed f), k.2)
  else (.sc (scFrame pre (modeE mode) sync (scHdrWord f.length rate (hintOf f)) f), d)

/-- The samples of a frame at the port (R101, R115): one a chip, or one of B_m. -/
def Dev.airSamples (d : Dev) (mode : Nat) : Air → List Cx
  | .none => []
  | .sc l => l.flatMap (Chirp.samples (modeE mode))
  | .mc hdr bits => mcSamples (d.linkM (mode % 2)) (d.linkG (mode % 2)) hdr bits

/-- The frame goes on the air. -/
def Dev.airStart (d : Dev) (t : Nat) (x : TxRec) (f : List Byte) : Dev :=
  let a := d.airFrame x.mode x.rate x.pre x.sync f
  a.2.setTx t (some { x with frame := f, air := a.1 })

/-- What the ramp of a frame does (R185, R203, R196): TXTIME and FCNT inserted, the frame encrypted, the counter advanced, its waveform built. -/
def Dev.rampFrame (d : Dev) (t : Nat) (x : TxRec) : Dev :=
  let sync := (usU 2 + d.syncU x.mode x.pre) / 25
  let f := match txTimeAt x.frame with
    | none => x.frame
    | some o => patch x.frame o (beBytes 8 (d.meshNow + sync))
  match x.slot with
  | none => d.airStart t x f
  | some k =>
    let n := (d.reg LNK_TXFCNT).toNat
    let f := secureFrame (d.kslot k).key (patch f 8 (beBytes 4 n))
    (d.setReg LNK_TXFCNT (BitVec.ofNat 32 (min (n + 1) 0xFFFFFFFF))).airStart t x f

/-- Counters and states that a started ramp moves (R196, R211). -/
def Dev.rampNote (d : Dev) (x : TxRec) : Dev :=
  match x.req with
  | .ack _ _ _ => d.count (LNK_CNT 0)
  | .desc id => match d.descOf id with
    | some q => match q.owner with
      | .relay i o m =>
        let e := d.cacheOf i
        (if d.cacheIs i o m ∧ e.state = ceARMED then d.setCache i { e with state := ceRELAYED } else d).count (FLD_CNT 6)
      | _ => d
    | none => d
  | _ => d

/-- The wait for an acknowledgement of a frame sent (R187): its t_sync by the last sample plus ACKWAIT_MS. -/
def Dev.awaitFor (d : Dev) (t : Nat) (x : TxRec) (desc : Option Nat) (entry idx : Nat) : Await :=
  ⟨t, lfDst x.frame, lfSeq x.frame, desc, entry, idx, x.last + usU (1000 * d.get LNK_ACKWAIT LNK_ACKWAIT_ACKWAIT_MS), false⟩

def sentCode (code : Nat) : Bool := code == 0x20 || code == 0x21

/-- What a requester learns when its transmission stops with an end code (R185 to R190). -/
def Dev.txEnded (d : Dev) (t : Nat) (x : TxRec) (code : Nat) : Dev :=
  match x.req with
  | .direct => d
  | .beacon => d
  | .desc id => match d.descOf id with
    | none => d
    | some q =>
      if sentCode code then
        if dAwait q.body then
          { d.setDesc { q with stage := 2 } with awaits := d.awaits ++ [d.awaitFor t x (some id) 0 0] }
        else d.descEnd q csSENT code
      else d.descEnd q csENDED code
  | .ack _ _ i =>
    let d := d.when (!x.ramped) (fun d => d.count (LNK_CNT 2))
    if d.bound.any (fun b => b.entry == i && b.last.isNone) then d.unlockQueue i else d
  | .response i k =>
    if sentCode code then
      match d.qdesc k with
      | some q =>
        if dAwait q.body then
          Dev.unlockQueue { d with awaits := d.awaits ++ [d.awaitFor t x none i k] } i
        else (d.unqueue i k (some csSENT) code).unlockQueue i
      | none => d.unlockQueue i
    else d.responseFails i

/-- A transmission ends before its ramp. -/
def Dev.endDropped (d : Dev) (t : Nat) (x : TxRec) (code : Nat) : Dev := (d.txDrop t x code).txEnded t x code

/-- R25, R38 and R54 stop a chain's transmission. -/
def Dev.endStopped (d : Dev) (t : Nat) : Dev :=
  match d.txOf t with
  | none => d
  | some x => (d.txStop t x).txEnded t x 0x25

/-- Withdrawn by its requester before the ramp (Table 5.14). -/
def Dev.endCancelled (d : Dev) (t : Nat) : Dev :=
  match d.txOf t with
  | none => d
  | some x => if x.ramped then d else d.endDropped t x 0x26

/-- A relay is suppressed (R210). -/
def Dev.suppress (d : Dev) (i : Nat) : Dev :=
  let x := d.cacheOf i
  let d := (d.setCache i { x with state := ceSUPPRESSED, body := none }).count (FLD_CNT 7)
  match d.descs.find? (fun q => q.owner == .relay i x.origin x.mseq) with
  | none => d
  | some q =>
    if q.stage = 0 then d.descEnd q csENDED 0x26
    else d.endCancelled (dChain q.body)

end Sys2Proof.Machine
end

