-- ==== Sys2Proof/Machine/Flood.lean ====
section
/-! DEFINITION. Broadcast flooding and mesh time (chapter 10): time samples and SET, beacons, alarms, the classing of broadcasts,
the seen-message cache, relays and originations. -/

namespace Sys2Proof.Machine

/-! ### Mesh time (R197 to R202) -/

/-- The body of a link frame, MIC excluded. -/
def lfBody (f : List Byte) : List Byte := (f.drop (lfHdrLen f)).take (f.length - lfHdrLen f - lfMicLen f)

def Dev.timeRoot (d : Dev) : Bool := d.flag FLD_CFG FLD_CFG_TIMEROOT

/-- SHORT of the time parent. -/
def Dev.parentShort (d : Dev) : Option Nat := d.parent.map (fun p => d.chtGet p 0 CHT_SHORT)

/-- DEPTH and ACC of the present time parent's last beacon (R201). -/
def Dev.parentBeacon (d : Dev) : Option (Nat × Nat) := match d.parentShort with
  | some p => sget none d.fld.beacons p
  | none => none

/-- DEPTH and ACC (R201). -/
def Dev.fldDepth (d : Dev) : Nat := if d.timeRoot then 0 else match d.parentBeacon with
  | some b => min 63 (b.1 + 1)
  | none => 63
def Dev.fldAcc (d : Dev) : Nat :=
  if d.timeRoot then 0 else if d.synced then min 254 ((match d.parentBeacon with
    | some b => b.2
    | none => 255) + 25) else 255

/-- Instants n × BCNINT_MS + BCNOFS_MS after mesh time `a` and not after `b` (R203). -/
def Dev.beaconsIn (d : Dev) (a b : Nat) : Nat :=
  let p := 122880 * max 1 (d.get FLD_BCN FLD_BCN_BCNINT_MS)
  let o := 122880 * d.get FLD_BCN FLD_BCN_BCNOFS_MS
  let upto := fun (t : Nat) => if t < o then 0 else (t - o) / p + 1
  upto b - upto a

/-- A beacon whose t_sync is still to come is held by a chain. -/
def Dev.beaconHeld (d : Dev) : Bool :=
  d.txs.any (fun p => p.2.any (fun x => x.req == TxReq.beacon && decide (d.nowU < x.start + d.syncU x.mode x.pre)))

/-- Beacons a forward step passes are skipped (R203); one armed already goes out by local time (R200), so the instant that it holds is no skip. -/
def Dev.beaconsPassed (d : Dev) (t : Nat) : Dev :=
  if d.flag FLD_CFG FLD_CFG_BEACON ∧ atOrPast t d.meshNow then d.countN (FLD_CNT 15) (min 0x10000 (d.beaconsIn d.meshNow t - d.beaconHeld.toNat)) else d

/-- Mesh time steps to a value, any slew cancelled (R200). What a forward step passes fires at the end of this cycle (R204; `Dev.meshDue`). -/
def Dev.meshStep (d : Dev) (t : Nat) : Dev :=
  let d := d.beaconsPassed (t % 2 ^ 64)
  let d := { d with clk := { d.clk with mesh := BitVec.ofNat 64 t, slew := 0, slewFrac := 0 } }
  d.count (FLD_CNT 14)

/-- Limits of R200 in 2^-32 tick per tick: 50 ppm. -/
def trimMax : Int := 214748

/-- TRIM after a sample (R200), the quotient cut toward zero (log entry 26). -/
def trimNext (trim theta : Int) (dt : Nat) : Int := clampI (-trimMax) trimMax (trim + (theta * 2 ^ 32).tdiv (2 * dt))

/-- A time sample applied (R200, R201). Where there is no previous sample, ACQ having been cleared by SET, dt counts as 0 and TRIM stays (DESIGN CHOICE,
log entry 186). -/
def Dev.applySample (d : Dev) (theta : Int) : Dev :=
  let acq := d.flag FLD_STAT FLD_STAT_ACQ
  let big := decide (12288 * d.get FLD_TIME FLD_TIME_STEPTHR_US < 100 * theta.natAbs)
  let step := acq || (big && (decide (0 < theta) || d.flag FLD_CFG FLD_CFG_BACKSTEP))
  let dt := match d.fld.lastAt with
    | some a => d.clk.cyc - a
    | none => 0
  let trim := sext 32 (d.reg FLD_TRIM).toNat
  let d := if step then d.meshStep (twos 64 ((d.meshNow : Int) + theta))
    else { d with clk := { d.clk with slew := theta, slewFrac := 0 } }
  let d := if !acq && !step && decide (122880000 ≤ dt) then
      d.setReg FLD_TRIM (BitVec.ofNat 32 (twos 32 (trimNext trim theta dt)))
    else d
  let d := d.put FLD_STAT FLD_STAT_ACQ 0
  let d := d.putB FLD_STAT FLD_STAT_SYNCED (decide (100 * theta.natAbs ≤ 20 * 12288))
  let d := d.setReg FLD_OFFS (BitVec.ofNat 32 (twos 32 (clampI (-0x7FFFFFFF) 0x7FFFFFFF theta)))
  let d := { d with fld := { d.fld with lastAt := some d.clk.cyc } }
  d.count (FLD_CNT 13)

/-- AGE_S as a read shows it (Table 10.7). -/
def Dev.ageS (d : Dev) : Nat := match d.fld.lastAt with
  | some a => min 0xFFFF ((d.clk.cyc - a) / 122880000)
  | none => 0xFFFF

/-- SYNCED clears when AGE_S has reached AGEMAX_S; a TIMEROOT head's stays from its first SET on (R201). -/
def Dev.ageLimit (d : Dev) : Dev :=
  if !(d.timeRoot && d.fld.wasSet) && decide (d.get FLD_TIME FLD_TIME_AGEMAX_S ≤ d.ageS) then d.put FLD_STAT FLD_STAT_SYNCED 0 else d

/-- SYNC_AGE_LIMIT (R201). -/
def execSyncAgeLimit (s : State) : Host.Outcome State Fault Refusal := s.run Dev.ageLimit

/-- MESH_TIME_SET (R200, R216). -/
def Dev.fldCmd (d : Dev) (v : Word) : Dev :=
  if getF v FLD_CMD_KEY = 0x96 ∧ getF v FLD_CMD_SET = 1 then
    let d := (d.meshStep (d.pair FLD_SET_LO FLD_SET_HI)).put FLD_STAT FLD_STAT_ACQ 0
    { d with fld := { d.fld with wasSet := true } }
  else d

def execMeshTimeSet (c : Fin 7) (v : Word) (s : State) : Host.Outcome State Fault Refusal :=
  s.ask (.meshTimeSet c v) FLD_CMD fun d => d.byCore c FLD_CMD true fun d => d.fldCmd v

/-- MESH_TIME_READ (R216): the whole mesh time is latched for the reading core. -/
def execMeshTimeRead (c : Fin 7) (s : State) : Host.Outcome State Fault Refusal :=
  s.run fun d => d.byCore c FLD_MESH_LO false fun d =>
    let d := { d with rdata := BitVec.ofNat 32 d.meshNow }
    d.setCore c { d.core c with meshHi := BitVec.ofNat 32 (d.meshNow / 2 ^ 32) }

/-! ### Alarms (R204, R205) -/

/-- A write to FLD_ALARMCTL: FIRED is W1C, ARM is W1S. -/
def Dev.alarmCtl (d : Dev) (v : Word) : Dev :=
  let fired := d.get FLD_ALARMCTL FLD_ALARMCTL_FIRED
  let d := d.put FLD_ALARMCTL FLD_ALARMCTL_FIRED (fired ^^^ (fired &&& getF v FLD_ALARMCTL_FIRED))
  d.put FLD_ALARMCTL FLD_ALARMCTL_ARM (d.get FLD_ALARMCTL FLD_ALARMCTL_ARM ||| getF v FLD_ALARMCTL_ARM)

/-- ALARM_ARM (R205). -/
def execAlarmArm (c : Fin 7) (v : Word) (s : State) : Host.Outcome State Fault Refusal :=
  s.ask (.alarmArm c v) FLD_ALARMCTL fun d => d.byCore c FLD_ALARMCTL true fun d => d.alarmCtl v

/-- Instant W of alarm `a`. -/
def Dev.alarmWhen (d : Dev) (a : Nat) : Nat := d.pair (FLD_ALARM_LO a) (FLD_ALARM_HI a)

/-- An armed alarm whose instant mesh time has reached fires (R204, R205): ARM clears, FIRED is set, the headland event is raised. -/
def Dev.alarmFire (d : Dev) (a : Nat) : Dev :=
  if (d.get FLD_ALARMCTL FLD_ALARMCTL_ARM).testBit a && atOrPast d.meshNow (d.alarmWhen a) then
    let d := (d.put FLD_ALARMCTL ⟨a, a⟩ 0).put FLD_ALARMCTL ⟨8 + a, 8 + a⟩ 1
    d.hdlEvent (0x400 + a)
  else d

/-- ALARM_FIRE (R205). -/
def execAlarmFire (a : Fin 4) (s : State) : Host.Outcome State Fault Refusal := s.run fun d => d.alarmFire a

/-- A write to an alarm's instant, ignored while it is armed (R205). -/
def Dev.alarmWrite (d : Dev) (a addr : Nat) (v : Word) : Dev :=
  if (d.get FLD_ALARMCTL FLD_ALARMCTL_ARM).testBit a then d else d.setReg addr v

/-! ### Beacons (R203) -/

/-- The first 12 body bytes of a beacon, TXTIME to follow at the ramp. -/
def Dev.beaconBody (d : Dev) : List Byte :=
  let flags := d.synced.toNat + 2 * d.timeRoot.toNat + 4 * d.get FLD_CFG FLD_CFG_RELAY
  beBytes 8 0 ++ [BitVec.ofNat 8 d.fldDepth, BitVec.ofNat 8 d.fldAcc, BitVec.ofNat 8 flags, 0]

/-- The first beacon instant whose start leaves the arming lead: ticks from now to its t_sync. -/
def Dev.beaconWait (d : Dev) (lead : Nat) : Nat :=
  let p := 122880 * d.get FLD_BCN FLD_BCN_BCNINT_MS
  let o := 122880 * d.get FLD_BCN FLD_BCN_BCNOFS_MS
  let t := d.meshNow + lead
  (o + p * ceilDiv (t - o) p) - d.meshNow

/-- The MIC that relays and beacons carry, as FCTL.MICLEN (Table 10.7). -/
def Dev.relayMic (d : Dev) : Nat := d.get FLD_CFG FLD_CFG_MICLEN

/-- A secured frame with another MICLEN: its body keeps, room for the MIC follows. -/
def withMic (code : Nat) (f : List Byte) : List Byte :=
  if lfSec f then
    let g := patch f 0 [BitVec.ofNat 8 (u8 f 0 / 4 * 4 + code)]
    g.take (f.length - lfMicLen f) ++ List.replicate (lfMicLen g) 0
  else f

/-- A beacon armed from the template (R203), with the MIC that FLD_CFG gives (R216; log entry 176). One the gate or the key slot refuses is skipped. -/
def Dev.beaconArm (d : Dev) : Dev :=
  let d := d.descTouch ((d.reg FLD_BTPL).toNat / 32 * 32)
  let q := d.readDesc ((d.reg FLD_BTPL).toNat / 32 * 32)
  let b := q.body
  let f := withMic d.relayMic (patch q.frame (lfHdrLen q.frame) d.beaconBody)
  let fits := decide (lfHdrLen q.frame + 12 + lfMicLen q.frame ≤ q.frame.length) && lfType f == ltBEACON
  if !descOk (setAt b 1 3) q.frame || !fits then d.count (FLD_CNT 15)
  else
    let t := dChain b
    let sync := d.syncU (dMode b) (dPre b)
    let lead := ceilDiv (usU (d.armLead 3) + sync) 25
    let k := if dSecure b then d.secureArm (dSlot b) else (0, d)
    if k.1 ≠ 0 then k.2.count (FLD_CNT 15)
    else
      let g := k.2.gateArm t { req := .beacon, cls := 3, ent := dEnt b, bHz := d.modeHz (dMode b), pwr := dPwr b, start := d.nowU + 25 * d.beaconWait lead - sync, toa := d.modeToa (dMode b) (dRate b) (dPre b) f.length, frame := f, slot := if dSecure b then some (dSlot b) else none, mode := dMode b, rate := dRate b, pre := dPre b, sync := dSync b }
      if g.1 = 0 then g.2 else g.2.count (FLD_CNT 15)

/-- BEACON_ARM (R203). -/
def execBeaconArm (s : State) : Host.Outcome State Fault Refusal :=
  s.run fun d => if d.flag FLD_CFG FLD_CFG_BEACON && !d.noArm && !d.rests 7 then d.beaconArm else d

/-! ### The cache (R208) -/

def floodOrigin (b : List Byte) : Nat := be16 b 0
def floodMseq (b : List Byte) : Nat := 256 * be16 b 2 + u8 b 4
def floodTtl (b : List Byte) : Nat := u8 b 5 / 4
def floodTime (b : List Byte) : Nat := be64 b 6
def floodTx (b : List Byte) : Nat := be64 b 0xE

/-- A BROADCAST body is malformed (R206). -/
def malformed (b : List Byte) : Bool := decide (b.length < 22) || floodOrigin b == 0 || floodOrigin b == 0xFFFF

/-- LIFE_S in ticks. -/
def Dev.lifeT (d : Dev) : Nat := 122880000 * d.get FLD_CFG FLD_CFG_LIFE_S

def Dev.cacheFind (d : Dev) (origin mseq : Nat) : Option Nat :=
  (d.cache.find? (fun p => p.2.state != 0 && p.2.origin == origin && p.2.mseq == mseq)).map (·.1)

/-- The relay of an entry is still to come. -/
def relayPends (st : Nat) : Bool := st == ceWAIT || st == ceHOLD || st == ceARMED

/-- The entry with the earliest expiry of those that may be evicted. -/
def evictee (l : List (Nat × CacheE)) : Option (Nat × CacheE) :=
  (l.filter (fun p => !relayPends p.2.state)).foldl (fun b p => match b with
    | none => some p
    | some q => if atOrPast p.2.expiry q.2.expiry then some q else some p) none

/-- The index a new entry takes, an eviction counted: the lowest that is free, and of entries with equal earliest expiry the lowest goes; the manual
gives neither (DESIGN CHOICE, log entry 185). -/
def Dev.cacheSlot (d : Dev) : Option (Nat × Dev) :=
  match (span 0 4096).find? (fun i => (d.cacheOf i).state == 0) with
  | some i => some (i, d)
  | none => match evictee d.cache with
    | some p => some (p.1, d.count (FLD_CNT 11))
    | none => none

/-- The later of two mesh times. -/
def laterOf (a b : Nat) : Nat := if atOrPast a b then a else b

/-- An entry frees when mesh time has reached its expiry (R208); one whose relay is still to come leaves by Table 10.4 first. -/
def Dev.cacheExpire (d : Dev) (i : Nat) : Dev :=
  let x := d.cacheOf i
  if x.state ≠ 0 ∧ !relayPends x.state ∧ atOrPast d.meshNow x.expiry then d.setCache i CacheE.init else d

/-- CACHE_EXPIRY (R208). -/
def execCacheExpiry (i : Fin 4096) (s : State) : Host.Outcome State Fault Refusal := s.run fun d => d.cacheExpire i

/-! ### Relays (R209 to R211) -/

/-- The relay template. -/
def Dev.relayTpl (d : Dev) : List Byte := d.bytes ((d.reg FLD_RTPL).toNat / 32 * 32) 32

/-- Length of the link frame a relay of a body takes. -/
def Dev.relayLen (d : Dev) (tpl body : List Byte) : Nat :=
  if dSecure tpl then 13 + body.length + (if d.relayMic = 0 then 4 else if d.relayMic = 1 then 8 else 16) else 8 + body.length

/-- The first four conditions of R209. A template whose MODE is MC, which R209 does not speak of, relays nothing (DESIGN CHOICE, log entry 187). -/
def Dev.relayWanted (d : Dev) (body : List Byte) (prewake : Bool) : Bool :=
  d.flag FLD_CFG FLD_CFG_RELAY && decide (1 ≤ floodTtl body) && !prewake
    && !modeMc (dMode d.relayTpl) && decide (d.relayLen d.relayTpl body ≤ 255)

/-- The frame of a relay: its header under R211, the body with TTL one lower. -/
def Dev.relayFrame (d : Dev) (tpl body : List Byte) : List Byte :=
  let sec := dSecure tpl
  let key := (d.kslot (dSlot tpl)).keyid % 256
  let h := lfHeader ltBROADCAST false sec false (if sec then d.relayMic else 0) d.linkSeq d.meshId 0xFFFF d.short 0 key
  h ++ setAt body 5 (BitVec.ofNat 8 (4 * (floodTtl body - 1))) ++ List.replicate (lfMicLen h) 0

/-- A relay is handed to the sequencer (R211): an untimed class 6 descriptor of the template's fields. -/
def Dev.relaySubmit (d : Dev) (i : Nat) : Dev :=
  let x := d.cacheOf i
  let d := d.touchRange ((d.reg FLD_RTPL).toNat / 32 * 32) 32
  let tpl := d.relayTpl
  let f := d.relayFrame tpl (x.body.getD [])
  let b := (span 0 12).map (fun k => if k = 1 then 6 else if k = 9 then BitVec.ofNat 8 (dOpts tpl &&& 5) else if k = 11 then 0 else tpl.getD k 0)
  let body := b ++ leBytes 4 0 ++ leBytes 2 f.length ++ List.replicate 14 0
  let d := { d.setCache i { x with state := ceARMED, body := none } with linkSeq := (d.linkSeq + 1) % 256 }
  d.submit ⟨body, f⟩ (decide (0x20000000 ≤ (d.reg FLD_RTPL).toNat ∧ (d.reg FLD_RTPL).toNat < 0x21400000)) (.relay i x.origin x.mseq) |>.cacheSync

/-- The centre of a channel in kHz, rounded (R180, R210). -/
def khzOf (hz : Int) : Int := (hz + 500) / 1000

/-- A unit of the relay channel holds a frame latched at or before `t` that has not ended with its verdict posted (R210). -/
def Dev.inFlight (d : Dev) (t : Nat) : Bool :=
  let tpl := d.relayTpl
  let khz : Int := d.get (SYN_CALF (dChain tpl) (dEnt tpl)) SYN_CALF_FREQ_KHZ
  d.rcv.any (fun p =>
    decide (p.1 < 1024) && bandOf p.2.chain == dChain tpl && p.2.b == modeB (dMode tpl) && p.2.e == modeE (dMode tpl)
      && (match d.grid p.2.chain with
        | some g => khzOf (gridCentre g p.2.ch) == khz
        | none => false)
      && ((p.2.state == 1 && p.2.step == 2) || decide (2 ≤ p.2.state ∧ p.2.state ≤ 5)
        || (p.2.state == 6 && d.frames.any (fun f => f.unit == p.1)))
      && atOrPast t p.2.tsync)

/-- The delay of a relay is over (R210): it waits for the copies in flight, or goes to the sequencer. -/
def Dev.relayDue (d : Dev) (i : Nat) : Dev :=
  let x := d.cacheOf i
  if x.state ≠ ceWAIT then d
  else if d.inFlight d.meshNow then d.setCache i { x with state := ceHOLD, upTo := d.meshNow }
  else d.relaySubmit i

/-- The relays whose delay has run out wait for the arrivals of their cycle. -/
def Dev.relaysDue (d : Dev) : Dev := d.relayHeld.foldl Dev.relayDue { d with relayHeld := [] }

/-- RELAY_DELAY_EXPIRY (R210), once the delay drawn has passed on the local clock (R200); a t_sync latched in the same cycle has arrived in time and is
seen first (R179). -/
def execRelayDelayExpiry (i : Fin 4096) (s : State) : Host.Outcome State Fault Refusal :=
  s.run fun d =>
    let x := d.cacheOf i
    if x.state = ceWAIT ∧ !d.rests 7 ∧ x.since + 122880 * x.delay ≤ d.clk.cyc then
      if s.arrives latches then { d with relayHeld := d.relayHeld ++ [i.val] } else d.relayDue i
    else d

/-- RELAY_HOLD_END (R210): only once every such unit has ended. -/
def execRelayHoldEnd (i : Fin 4096) (s : State) : Host.Outcome State Fault Refusal :=
  s.run fun d =>
    let x := d.cacheOf i
    if x.state = ceHOLD ∧ !d.rests 7 ∧ !d.inFlight x.upTo then d.relaySubmit i else d

/-! ### Classing (R207, R212) -/

/-- Class codes of Table 10.5. -/
def fkNEW : Nat := 1
def fkCOPY : Nat := 2
def fkOWN : Nat := 3
def fkOLD : Nat := 4
def fkFUTURE : Nat := 5
def fkBAD : Nat := 6

/-- The class of a body committed at `t` (R207). -/
def Dev.floodClass (d : Dev) (b : List Byte) (t : Nat) : Nat :=
  let o := floodTime b
  if malformed b then fkBAD
  else if floodOrigin b = d.short then fkOWN
  else if atOrPast o t && decide (245760000 < (o + 2 ^ 64 - t) % 2 ^ 64) then fkFUTURE
  else if atOrPast t (o + d.lifeT) then fkOLD
  else if (d.cacheFind (floodOrigin b) (floodMseq b)).isSome then fkCOPY
  else fkNEW

/-- A flood event posted (R212). -/
def Dev.floodPost (d : Dev) (kind flags unit tsync origin cache ttl mseq : Nat) : Dev :=
  if 64 ≤ d.fld.events.length then d.count (FLD_CNT 12)
  else
    let w := [mkWord [(⟨31, 24⟩, kind), (⟨23, 16⟩, flags), (⟨15, 0⟩, unit)], BitVec.ofNat 32 tsync, mkWord [(⟨31, 16⟩, origin), (⟨11, 0⟩, cache)], mkWord [(⟨29, 24⟩, ttl), (⟨23, 0⟩, mseq)]]
    { d with fld := { d.fld with events := d.fld.events ++ [w] } }

/-- A NEW message opens its entry (R207 to R209): its index and whether it entered WAIT. -/
def Dev.floodNew (d : Dev) (b : List Byte) (t : Nat) (prewake : Bool) : Nat × Bool × Dev :=
  match d.cacheSlot with
  | none => (0, false, d)
  | some (i, d) =>
    let d := d.touchRange ((d.reg FLD_RTPL).toNat / 32 * 32) 32
    let e : CacheE := { origin := floodOrigin b, mseq := floodMseq b, copies := 1, state := ceNORELAY, expiry := (laterOf t (floodTime b) + d.lifeT) % 2 ^ 64, body := none, delay := 0, upTo := 0, since := 0 }
    if !d.relayWanted b prewake then (i, false, (d.setCache i e).count (FLD_CNT 8))
    else if 16 ≤ d.relayBufs then (i, false, (d.setCache i e).count (FLD_CNT 9))
    else
      let f := d.free
      let delay := d.get FLD_DELAY FLD_DELAY_DMIN_MS + f.1.toNat % (max 1 (d.get FLD_DELAY FLD_DELAY_DSPAN_MS))
      (i, true, f.2.setCache i { e with state := ceWAIT, body := some b, delay := delay, since := d.clk.cyc })

/-- One more copy heard, which may suppress the relay (R207, R210). -/
def Dev.floodCopy (d : Dev) (i : Nat) : Dev :=
  let x := d.cacheOf i
  let n := min 15 (x.copies + 1)
  let d := d.setCache i { x with copies := n }
  let k := d.get FLD_CFG FLD_CFG_SUPK
  if k ≠ 0 ∧ k ≤ n ∧ relayPends x.state then d.suppress i else d

/-- A BROADCAST classed, counted, handled and its event posted; `sampled`: a time sample was taken from it. -/
def Dev.floodTake (d : Dev) (b : List Byte) (t unit tsync : Nat) (sampled : Bool) : Dev :=
  let k := d.floodClass b t
  let d := d.count (FLD_CNT (k - 1))
  let o := floodOrigin b
  let m := floodMseq b
  let late := 4 * sampled.toNat
  if k = fkBAD then d.floodPost k late unit tsync 0 0 (floodTtl b) m
  else if k = fkNEW then
    let pre := !atOrPast (floodTime b) d.fld.start
    let r := d.floodNew b t pre
    r.2.2.floodPost k (r.2.1.toNat + 2 * pre.toNat + late) unit tsync o r.1 (floodTtl b) m
  else
    let i := (d.cacheFind o m).getD 0
    let d := if k = fkCOPY then d.floodCopy i else d
    d.floodPost k late unit tsync o (if k = fkCOPY ∨ k = fkOWN then i else 0) (floodTtl b) m

/-- FLOOD_EVENT_READ (R216). -/
def execFloodEventRead (c : Fin 7) (s : State) : Host.Outcome State Fault Refusal :=
  s.run fun d => d.byCore c (FLD_EVQ 3) false fun d =>
    match d.fld.events with
    | [] => { d with rdata := 0 }
    | x :: r => { d with rdata := x.getD 3 0, fld := { d.fld with events := r } }

/-- FLD_EVQ[k] as a read shows it. -/
def Dev.evqView (d : Dev) (k : Nat) : Word := match d.fld.events with
  | [] => if k = 0 then 0xFF000000 else 0
  | x :: _ => x.getD k 0

/-! ### Originations (R213) -/

/-- ORIGIN, MSEQ and ORIGTIME inserted into a BROADCAST frame. -/
def Dev.origFrame (d : Dev) (mseq : Nat) (f : List Byte) : List Byte :=
  let o := lfHdrLen f
  patch (patch f o (beBytes 2 d.short ++ beBytes 3 mseq)) (o + 6) (beBytes 8 d.meshNow)

/-- An origination: an OWN entry opens and the descriptor is submitted; a frame that is no BROADCAST with a flood header ends
REFUSED. -/
def Dev.originate (d : Dev) (a : Nat) : Dev :=
  if 32 ≤ d.outstanding then d.count (LNK_CNT 9)
  else
    let d := d.descTouch a
    let q := d.readDesc a
    if lfType q.frame ≠ ltBROADCAST ∨ (lfBody q.frame).length < 22 then d.submit q false .origination
    else
      let m := d.get FLD_MSEQ FLD_MSEQ_MSEQ
      let f := d.origFrame m q.frame
      let d := d.put FLD_MSEQ FLD_MSEQ_MSEQ (m + 1)
      let d := match d.cacheSlot with
        | none => d
        | some (i, d) => d.setCache i { origin := d.short, mseq := m, copies := 0, state := ceOWN, expiry := (d.meshNow + d.lifeT) % 2 ^ 64, body := none, delay := 0, upTo := 0, since := 0 }
      d.submit ⟨q.body, f⟩ (inSram a 32 && inSram (u32 q.body 0xC) (dLen q.body)) .origination

def execOriginate (c : Fin 7) (v : Word) (s : State) : Host.Outcome State Fault Refusal :=
  s.ask (.originate c v) FLD_ORIG fun d => d.byCore c FLD_ORIG true fun d => d.originate (v.toNat / 32 * 32)

end Sys2Proof.Machine
end

