-- ==== Sys2Proof/Machine/Transmit.lean ====
section
/-! DEFINITION. The course of a transmission (R85, R88 to R96): one command per instant of Table 5.8. Each does nothing when the
chain is not at that point of its course. -/

namespace Sys2Proof.Machine

/-- TX_ARM (R88): `lead` µs from now to t_start. -/
def execTxArm (t : Fin 2) (ent : Fin 256) (bHz : Nat) (pwr : Fin 64) (lead toa : Nat) (cls : Fin 16) (s : State) :
    Host.Outcome State Fault Refusal :=
  s.run fun d => if d.noArm then d else (d.gateArm t ⟨.direct, cls, ent, bHz, pwr, d.nowU + usU lead, toa, [], none, 0, 0, 0, 0⟩).2

/-- State of a transmit chain (Table 5.13). -/
def Dev.txState (d : Dev) (t : Nat) : Nat := d.get (RFC_TXSTAT t) RFC_TXSTAT_STATE
def Dev.setTxState (d : Dev) (t v : Nat) : Dev := d.put (RFC_TXSTAT t) RFC_TXSTAT_STATE v

/-- `f` on the transmission of a chain while the chain is in one of `states`. -/
def Dev.course (d : Dev) (t : Nat) (states : List Nat) (f : TxRec → Dev) : Dev :=
  match d.txOf t with
  | none => d
  | some x => if states.contains (d.txState t) then f x else d

/-- COEX_REQUEST_RAISE (R94). -/
def execCoexRequestRaise (t : Fin 2) (s : State) : Host.Outcome State Fault Refusal :=
  s.run fun d => d.course t [1, 2] fun x =>
    if d.coexOn then (d.setTx t (some { x with raised := true })).coexSync else d

/-- TX_SETUP (R92): the synthesiser hops, AUX goes active. -/
def execTxSetup (t : Fin 2) (s : State) : Host.Outcome State Fault Refusal :=
  s.run fun d => d.course t [1] fun x => (d.setTxState t 2).put (SYN_STAT t) SYN_STAT_ENTRY x.ent

/-- TRSW_TO_TRANSMIT (R92, R84). -/
def execTrswToTransmit (t : Fin 2) (s : State) : Host.Outcome State Fault Refusal :=
  s.run fun d => d.course t [2] fun x => ((d.setTx t (some { x with trsw := true })).blankNow (2 * t)).blankNow (2 * t + 1)

/-- LOCK_CHECK (R85): PAEN on, or HOPFAIL. -/
def execLockCheck (t : Fin 2) (locked : Bool) (s : State) : Host.Outcome State Fault Refusal :=
  s.run fun d => d.course t [2] fun x =>
    if locked then (d.setTx t (some { x with paen := true })).put (SYN_STAT t) SYN_STAT_LOCK 1
    else ((d.count (SYN_HOPFAIL t)).report 5 t 1 (BitVec.ofNat 32 x.ent) []).endDropped t x 0x24

/-- The PA ramps (R88, R185): charges stand from here. -/
def Dev.ramp (d : Dev) (t : Nat) (x : TxRec) : Dev :=
  let x := { x with ramped := true }
  let d := if x.frame = [] then d.setTx t (some x) else d.rampFrame t x
  (d.rampNote x).setTxState t 4

/-- A class with a hard start (Table 5.5). -/
def hardStart (cls : Nat) : Bool := decide (cls < 4)

/-- RAMP_START (R94). -/
def execRampStart (t : Fin 2) (gnt : Bool) (s : State) : Host.Outcome State Fault Refusal :=
  s.run fun d => d.course t [2] fun x =>
    if !x.paen then d
    else if !d.coexOn then d.ramp t x
    else
      let d := d.putB COX_STAT COX_STAT_GNT gnt
      if gnt then d.coexSeen.ramp t x
      else if hardStart x.cls then d.endDropped t x 0x22
      else d.setTxState t 3

/-- GRANT_SEEN (R94, R95): in WAIT the ramp starts; before the sampling point, with the request raised, the grant ends the run of misses. -/
def execGrantSeen (t : Fin 2) (s : State) : Host.Outcome State Fault Refusal :=
  s.run fun d => d.course t [1, 2, 3] fun x =>
    let e := (d.put COX_STAT COX_STAT_GNT 1).coexSeen
    if d.txState t = 3 then e.ramp t x else if x.raised then e else d

/-- GRANT_WAIT_TIMEOUT (R94): a grant seen in the same cycle wins (R17). -/
def execGrantWaitTimeout (t : Fin 2) (s : State) : Host.Outcome State Fault Refusal :=
  s.run fun d => if s.arrives (· == .grantSeen t) then d else d.course t [3] fun x =>
    if d.plan8 tCOEX 0 1 = 1 then d.ramp t { x with noGnt := true } else d.endDropped t x 0x22

/-- COEX_ABORT (R96): COEX_ACT rises or COEX_GNT falls. -/
def execCoexAbort (t : Fin 2) (act : Bool) (s : State) : Host.Outcome State Fault Refusal :=
  s.run fun d =>
    if d.coexOn then
      let d := if act then d.put COX_STAT COX_STAT_ACT 1 else d.put COX_STAT COX_STAT_GNT 0
      d.course t [4] fun x =>
        if d.coexAborts x.cls then
          ((d.setTx t (some { x with code := 0x23 })).setTxState t 5).count COX_ABRTCNT
        else d
    else d

/-- TX_LAST_SAMPLE (R88, R188): the ramp-down starts; a bound response counts its delay from here. -/
def execTxLastSample (t : Fin 2) (s : State) : Host.Outcome State Fault Refusal :=
  s.run fun d => d.course t [4] fun x =>
    let d := (d.setTx t (some { x with code := if x.noGnt then 0x21 else 0x20, last := d.nowU })).setTxState t 5
    match x.req with
    | .ack _ _ i => { d with bound := d.bound.map (fun b => if b.entry = i ∧ b.last.isNone then { b with last := some d.nowU } else b) }
    | _ => d

/-- RAMP_DOWN_END (R88): PAEN off; the end of the sub-band is kept. -/
def execRampDownEnd (t : Fin 2) (s : State) : Host.Outcome State Fault Refusal :=
  s.run fun d => d.course t [5] fun x => if x.paen then (d.setTx t (some { x with paen := false })).gateEnd t x.sub else d

/-- TX_END (R92): TRSW to receive, the request falls, the end status, the reservation released. -/
def execTxEnd (t : Fin 2) (s : State) : Host.Outcome State Fault Refusal :=
  s.run fun d => d.course t [5] fun x =>
    if x.paen then d
    else
      let d := d.when (decide (x.code = 0x21)) (fun d => (d.count COX_NOGNT).coexMiss)
      (d.txFinish t x.code).txEnded t x x.code

end Sys2Proof.Machine
end

