-- ==== Sys2Proof/Machine/LinkRx.lean ====
section
/-! DEFINITION. The receiving side of the link sequencer (R176 to R184, R187, R188, R192, R199): the early verdict, the address
filter, the commit, the MIC result with replay, acknowledgement, verdict, contact, time sample and flood, and the windows. -/

namespace Sys2Proof.Machine

/-! ### Verdicts on the header (R176, R177) -/

/-- The early verdict passes (R176); `info` is HINT, or LINKINFO for an MC unit. -/
def Dev.earlyPass (d : Dev) (u chain info : Nat) : Bool :=
  let kind := info % 4
  let h := info / 16 % 16
  let own := h == 0 || h == addrHash d.short || (span 0 8).any (fun i => d.flag (LNK_ALIAS i) LNK_ALIAS_EN && h == addrHash (d.get (LNK_ALIAS i) LNK_ALIAS_ALIAS))
  let m := u - 1024
  !(decide (u < 1024) && kind == 3) && !(kind == 2 && !(d.awaits.any (fun a => a.chain == bandOf chain))) && (d.promisc || own)
    && (decide (u < 1024) || (d.flag (LNK_MCLNK m) LNK_MCLNK_EN && info / 256 == d.get (LNK_MCLNK m) LNK_MCLNK_LINKID))

/-- The transmission an acknowledgement answers, with its t_sync latched at `syncU`, in time (R177, R187). -/
def Dev.awaitOf (d : Dev) (syncU : Nat) (f : List Byte) : Option Await :=
  d.awaits.find? (fun a => a.dst == lfSrc f && a.seq == lfSeq f && decide (syncU ≤ a.due))

def Dev.meshOk (d : Dev) (f : List Byte) : Bool := lfMesh f == d.meshId
def Dev.dstOk (d : Dev) (f : List Byte) : Bool := d.toThis (lfDst f) || lfDst f == 0xFFFF

/-- The address filter (R177): 0 accepts, else the code of Table 9.4. `f` holds the link header, `len` is LEN, `syncU` when t_sync was latched. -/
def Dev.addrFilter (d : Dev) (syncU info len : Nat) (f : List Byte) : Nat :=
  if badFormat f len then 1
  else if hintOf f ≠ info % 256 then 2
  else if !d.meshOk f && !d.promisc then 3
  else if !d.dstOk f && !d.promisc then 4
  else if lfSrc f = d.short ∨ lfSrc f = 0 ∨ lfSrc f = 0xFFFF then 5
  else if lfType f = ltACK ∧ (d.awaitOf syncU f).isNone then 6
  else 0

/-- Accepted only because PROMISC is 1. -/
def Dev.promOnly (d : Dev) (f : List Byte) : Bool := !(d.meshOk f && d.dstOk f)

/-- The first condition of Table 9.14 holds: the frame asks for an acknowledgement this head gives. -/
def Dev.ackAsked (d : Dev) (f : List Byte) : Bool :=
  lfAckReq f && d.flag LNK_ACKCFG LNK_ACKCFG_ACKEN && d.meshOk f && d.toThis (lfDst f)

/-- What acceptance does (R187): an acknowledgement completes what awaits it. One accepted only because PROMISC is 1 does not (R177). -/
def Dev.accept (d : Dev) (syncU : Nat) (f : List Byte) : Dev :=
  if lfType f = ltACK ∧ !d.promOnly f then
    match d.awaitOf syncU f with
    | some a => d.ackMatch a (lfPend f)
    | none => d
  else d

/-! ### Contact and windows (R191, R192) -/

/-- Field of a child-table word of an LFrame's copy. -/
def LFrame.w (f : LFrame) (i : Nat) (x : Fld) : Nat := getF (f.words.getD i 0) x

/-- A contact `x` ticks after the last one lies in window `n`; with the difference not later, counted either way round the range of LASTSEEN. -/
def Dev.inWindow (d : Dev) (parent : Bool) (tol interval : Nat) (x : Int) (n : Nat) : Bool :=
  let near := fun (y : Int) => decide (100 * (y - (122880000 * n * interval : Nat)).natAbs ≤ 12288 * d.guardAt parent tol (n * interval) x)
  decide (1 ≤ n) && (near x || (notSince x && near (x + 2 ^ 32 * 122880)))

/-- An instant `x` ticks after the last contact lies in a window: only one of the two next to it can hold it. -/
def Dev.onTime (d : Dev) (parent : Bool) (tol interval : Nat) (x : Int) : Bool :=
  let by' := fun (y : Int) =>
    let n := y.toNat / (122880000 * max 1 interval)
    d.inWindow parent tol interval x n || d.inWindow parent tol interval x (n + 1)
  by' x || (notSince x && by' (x + 2 ^ 32 * 122880))

/-- Contact of a frame with entry `i` (R192), judged by the entry as it stood at the commit (R178): a contact outside every window counts; LASTSEEN, MISS
and the windows start anew. -/
def Dev.contact (d : Dev) (i : Nat) (f : LFrame) : Dev :=
  let iv := f.w 4 CHT_INTERVAL_S
  let on := d.onTime (f.w 0 CHT_KIND == 1) (f.w 4 CHT_TOL) iv (sinceSeen (f.w 3 CHT_LASTSEEN) f.tsync)
  let d := d.when (decide (iv ≠ 0) && !on) (fun d => d.count (LNK_CNT 16))
  { (d.setChtW i 3 (BitVec.ofNat 32 (msOf f.tsync))).chtPut i 4 CHT_MISS 0 with winSeen := sset 0 d.winSeen i 0, winWait := d.winWait.filter (· ≠ i) }

/-- A window of entry `i` has closed without contact (R192). -/
def Dev.windowMiss (d : Dev) (i : Nat) : Dev :=
  let n := min 255 (d.chtGet i 4 CHT_MISS + 1)
  let d := (d.chtPut i 4 CHT_MISS n).count (LNK_CNT 14)
  if n = d.get LNK_GUARD LNK_GUARD_MISSMAX ∧ d.chtGet i 0 CHT_LOST = 0 then
    { (d.chtPut i 0 CHT_LOST 1).count (LNK_CNT 15) with lostEvt := true }
  else d

/-- The window of entry `i` that is open at this moment, or opens within `lead` ticks. -/
def Dev.windowNow (d : Dev) (i lead : Nat) : Option Nat :=
  let iv := d.chtGet i 4 CHT_INTERVAL_S
  let x := sinceSeen (d.chtGet i 3 CHT_LASTSEEN) d.meshNow
  let near := fun (n : Nat) =>
    let g : Int := ((12288 * d.guardAt (d.chtGet i 0 CHT_KIND == 1) (d.chtGet i 4 CHT_TOL) (n * iv) x / 100 : Nat) : Int)
    let c : Int := ((122880000 * n * iv : Nat) : Int)
    decide (1 ≤ n ∧ c - g ≤ x + lead ∧ x < c + g)
  let n := x.toNat / (122880000 * max 1 iv)
  if iv = 0 then none else ([n, n + 1] : List Nat).find? near

/-- A frame of the parent has committed: it ends the receive run of the window it falls in (R193). -/
def Dev.parentHeard (d : Dev) (i : Nat) : Dev :=
  if d.chtGet i 0 CHT_KIND = 1 then
    match d.windowNow i 0 with
    | some n => { d with pwr := { d.pwr with heard := some (d.chtGet i 3 CHT_LASTSEEN, n) } }
    | none => d
  else d

/-- A frame latched within window `n` of entry `i` has still to end, or to have its MIC judged: it has arrived (R179). -/
def Dev.windowComing (d : Dev) (i n : Nat) : Bool :=
  let inside := fun (t : Nat) => d.windowAt i t (fun par tol iv x => d.inWindow par tol iv x n)
  d.rcv.any (fun p => ((p.2.state == 1 && (p.2.step == 2 && p.1 < 1024)) || decide (2 ≤ p.2.state ∧ p.2.state ≤ 5)) && inside p.2.tsync)
    || d.frames.any (fun f => f.entry == some i && inside f.tsync)

/-- A window that closed while such a frame was under way ends once none is. -/
def Dev.windowSettle (d : Dev) (i : Nat) : Dev :=
  if d.winWait.contains i && !d.windowComing i (sget 0 d.winSeen i) then Dev.windowMiss { d with winWait := d.winWait.filter (· ≠ i) } i else d
def Dev.windowsSettle (d : Dev) : Dev := d.winWait.foldl Dev.windowSettle d

/-- EXPECTATION_WINDOW_CLOSE (R192): the next window of entry `i` is at its close; a t_sync latched in this cycle is on time (R179). -/
def execExpectationWindowClose (i : Fin 8192) (s : State) : Host.Outcome State Fault Refusal :=
  s.run fun d =>
    let n := sget 0 d.winSeen i + 1
    if d.chtValid i && d.chtGet i 4 CHT_INTERVAL_S != 0 && !d.winWait.contains i.val && d.windowOver i n then
      let d := { d with winSeen := sset 0 d.winSeen i n, winWait := d.winWait ++ [i.val] }
      if s.arrives latches then d else d.windowSettle i
    else d

/-! ### Verdicts (R184) -/

def vdPLAINOK : Nat := 0
def vdFRESH : Nat := 1
def vdDUP : Nat := 2
def vdSTALE : Nat := 3
def vdMICFAIL : Nat := 4
def vdNOKEY : Nat := 5
def vdNOTOK : Nat := 6

/-- UNIT as the report record gives it (Table 7.8). -/
def unitCode (u : Nat) : Nat := if u < 1024 then u else 0x8000 + (u - 1024)

/-- Verdict flags of Table 9.6. -/
def Dev.verdictFlags (d : Dev) (f : List Byte) (ack pend plain : Bool) : Nat :=
  ack.toNat + 2 * pend.toNat + 4 * plain.toNat + 8 * (lfDst f == 0xFFFF).toNat + 16 * (d.isAlias (lfDst f)).toNat
    + 32 * (d.promOnly f).toNat

/-- A verdict posted, or lost where the FIFO is full; the record's hold ends. -/
def Dev.postVerdict (d : Dev) (f : LFrame) (v flags : Nat) : Dev :=
  let w := [mkWord [(⟨31, 24⟩, v), (⟨23, 16⟩, flags), (⟨15, 0⟩, unitCode f.unit)], BitVec.ofNat 32 f.tsync, mkWord [(⟨31, 16⟩, lfSrc f.bytes), (⟨15, 0⟩, f.entry.getD 0xFFFF)], BitVec.ofNat 32 (lfFcnt f.bytes)]
  let d := if 64 ≤ d.vq.length then d.count (LNK_CNT 8) else Dev.vqSync { d with vq := d.vq ++ [w] }
  if f.rpt = 0 then d else d.endHold f.rpt

/-- LNK_VQ[k] as a read shows it. -/
def Dev.vqView (d : Dev) (k : Nat) : Word := match d.vq with
  | [] => if k = 0 then 0xFF000000 else 0
  | x :: _ => x.getD k 0

/-! ### Acknowledgements (R180, R181, R188) -/

/-- An acknowledgement to the same source and SEQ is held by the chain. -/
def Dev.ackHeld (d : Dev) (t src seq : Nat) : Bool := match d.txOf t with
  | some x => (match x.req with
    | .ack a b _ => a == src && b == seq
    | _ => false)
  | none => false

/-- The calibration-store entry of an acknowledgement. -/
def Dev.ackEnt (d : Dev) (f : LFrame) : Option Nat :=
  let t := bandOf f.chain
  if f.unit < 1024 then
    match d.grid f.chain with
    | none => none
    | some g => (span 0 256).find? (fun i => d.flag (SYN_CALF t i) SYN_CALF_VALID && (d.get (SYN_CALF t i) SYN_CALF_FREQ_KHZ : Int) == khzOf (gridCentre g f.ch))
  else
    let e := d.get (LNK_MCLNK (f.unit - 1024)) LNK_MCLNK_SYNENT
    if d.flag (SYN_CALF t e) SYN_CALF_VALID then some e else none

/-- Turnaround in µs (Table 9.5). -/
def Dev.turnUs (d : Dev) (f : LFrame) : Nat := if f.unit < 1024 then d.get (LNK_TA f.b) LNK_TA_TA_US else d.get LNK_TAMC LNK_TA_TA_US

/-- The poll commit (R188): the head of the queue is bound and QLOCK set, unless a bound frame still waits. -/
def Dev.pollCommit (d : Dev) (i t ent mode : Nat) (f : LFrame) : Dev :=
  if d.qLocked i then d
  else
    { d.chtPut i 5 CHT_QLOCK 1 with bound := d.bound ++ [⟨i, (d.queueOf i).headD 0, t, ent, mode, f.sync, none⟩] }

/-- The acknowledgement is armed, with PEND for a sleepy child's queue (R181, R188): armed, PEND sent. -/
def Dev.ackArm (d : Dev) (f : LFrame) (i ent : Nat) : Bool × Bool × Dev :=
  let t := bandOf f.chain
  let sc := decide (f.unit < 1024)
  let m := f.unit - 1024
  let pend := f.w 0 CHT_SLEEPY == 1 && d.queueOf i != []
  let mode := if sc then 16 * f.b + (f.e - 5) else 0x80 + m
  let rate := if sc then 1 else 0
  let pre := d.get LNK_ACKCFG LNK_ACKCFG_ACKPRE
  let pwr := if sc then d.get LNK_ACKCFG (if t = 0 then LNK_ACKCFG_PWR_A else LNK_ACKCFG_PWR_B) else d.get (LNK_MCLNK m) LNK_MCLNK_PWRENT
  let frame := lfHeader ltACK false false pend 0 (lfSeq f.bytes) d.meshId (lfSrc f.bytes) (lfDst f.bytes) 0 0
  let r := d.gateArm t { req := .ack (lfSrc f.bytes) (lfSeq f.bytes) i, cls := if sc then 0 else 2, ent := ent, bHz := d.modeHz mode, pwr := pwr, start := f.tEnd + usU (d.turnUs f), toa := d.modeToa mode rate pre 8, frame := frame, slot := none, mode := mode, rate := rate, pre := pre, sync := f.sync }
  if r.1 = 0 then
    let d := r.2.chtPut i 5 CHT_PENDSENT pend.toNat
    (true, pend, if pend then d.pollCommit i t ent mode f else d)
  else (false, false, r.2.count (LNK_CNT 2))

/-- The conditions of R180 in the order of Table 9.14, from the third on; `v` is the replay verdict, or PLAINOK. The table has
no row for an unsecured frame whose entry has PLAIN clear: nothing counts (DESIGN CHOICE, log entry 183). A frame that was late at t_vd counts ACKLATE
there (R182), and an earlier condition that fails counts here as well (DESIGN CHOICE, log entry 184). -/
def Dev.ackDecide (d : Dev) (f : LFrame) (v : Nat) : Bool × Bool × Dev :=
  let no := fun (d : Dev) => (false, false, d)
  if !d.ackAsked f.bytes || f.recov then no d
  else
    match f.entry with
    | none => no (d.count (LNK_CNT 4))
    | some i =>
      let t := bandOf f.chain
      if lfSec f.bytes && f.w 6 CHT_KEYID != lfKeyid f.bytes then no (d.count (LNK_CNT 4))
      else if v = vdNOKEY ∨ v = vdMICFAIL ∨ v = vdSTALE then no d
      else if !lfSec f.bytes && f.w 0 CHT_PLAIN == 0 then no d
      else if d.ackHeld t (lfSrc f.bytes) (lfSeq f.bytes) then no (d.when (decide (v ≠ vdDUP)) (fun d => d.count (LNK_CNT 7)))
      else match d.ackEnt f with
        | none => no (d.count (LNK_CNT 3))
        | some ent =>
          if f.late then no d
          else if f.tEnd + usU (d.turnUs f) < d.nowU + usU (d.armLead (if f.unit < 1024 then 0 else 2)) then no (d.count (LNK_CNT 1))
          else d.ackArm f i ent

/-! ### Replay (R183) -/

/-- FRESH, DUP or STALE. -/
def replayJudge (h map fcnt : Nat) : Nat :=
  if h < fcnt then vdFRESH
  else if fcnt = h then vdDUP
  else if h ≤ fcnt + 32 then (if map.testBit (h - 1 - fcnt) then vdDUP else vdFRESH)
  else vdSTALE

/-- H and MAP after a FRESH frame. -/
def replayMove (h map fcnt : Nat) : Nat × Nat :=
  if h < fcnt then (fcnt, (map * 2 ^ (min 32 (fcnt - h)) + (if fcnt - h ≤ 32 then 2 ^ (fcnt - h - 1) else 0)) % 2 ^ 32)
  else (h, map ||| 2 ^ (h - 1 - fcnt))

/-! ### Time samples and flood (R199, R207) -/

/-- A frame comes from the time parent. -/
def Dev.fromParent (d : Dev) (f : LFrame) : Bool := d.parentShort == some (lfSrc f.bytes)

/-- TXTIME of a plaintext frame of a parent, when the frame yields a sample. -/
def Dev.sampleOf (d : Dev) (f : LFrame) (body : List Byte) : Option Nat :=
  if !d.fromParent f || f.recov || d.timeRoot then none
  else if lfType f.bytes = ltBEACON ∧ 8 ≤ body.length then some (be64 body 0)
  else if lfType f.bytes = ltBROADCAST ∧ 22 ≤ body.length then some (floodTx body)
  else none

/-- Everything that follows a verdict FRESH or PLAINOK of a BEACON or BROADCAST (R199 to R201, R207). -/
def Dev.meshTake (d : Dev) (f : LFrame) (body : List Byte) : Dev :=
  let smp := d.sampleOf f body
  let d := if lfType f.bytes = ltBEACON ∧ 12 ≤ body.length then
      { d with fld := { d.fld with beacons := sset none d.fld.beacons (lfSrc f.bytes) (some (u8 body 8, u8 body 9)) } }
    else d
  let d := match smp with
    | none => d
    | some tx => d.applySample (sext 64 ((tx + 2 ^ 64 - f.tsync) % 2 ^ 64))
  if lfType f.bytes = ltBROADCAST then d.floodTake body f.commit (unitCode f.unit) f.tsync smp.isSome else d

/-! ### The commit and the MIC result (R178, R182, R184) -/

/-- A committed frame that needs no MIC: its verdict at once. -/
def Dev.plainEnd (d : Dev) (f : LFrame) (v : Nat) : Dev :=
  let r := d.ackDecide f v
  let d := r.2.2.postVerdict f v (d.verdictFlags f.bytes r.1 r.2.1 false)
  if v = vdPLAINOK then
    let d := match f.entry with
      | some i => if f.w 0 CHT_PLAIN = 1 ∧ !d.promOnly f.bytes then d.contact i f else d
      | none => d
    d.meshTake f (lfBody f.bytes)
  else d

/-- The commit of a frame whose unit reached DONE after an accepting filter (R178). -/
def Dev.commit (d : Dev) (f : LFrame) (ok : Bool) : Dev :=
  let f := { f with late := d.lateU.contains f.unit }
  let d := { d with lateU := d.lateU.filter (· ≠ f.unit) }
  let e := d.lookup (lfSrc f.bytes)
  let f := { f with entry := e, words := match e with
    | some i => d.chtWords i
    | none => [] }
  let d := e.elim d d.parentHeard
  if !ok then d.postVerdict f vdNOTOK (d.verdictFlags f.bytes false false false)
  else
    let d := match e with
      | some i => if d.promOnly f.bytes then d else d.chtPut i 6 CHT_LINKSEQ (lfSeq f.bytes)
      | none => d
    if !lfSec f.bytes then d.plainEnd f vdPLAINOK
    else
      let k := d.kslot (f.w 0 CHT_KEYSLOT)
      if e.isNone || f.w 6 CHT_KEYID != lfKeyid f.bytes || !(k.opens && k.use.testBit useLINKRX) then d.plainEnd f vdNOKEY
      else { d with frames := d.frames ++ [f] }

/-- The MIC of a frame passes under its entry's key. -/
def micOk (f : LFrame) (key plain : List Byte) : Bool :=
  let n := f.bytes.length
  ccmTag key (lfNonce f.bytes) (f.bytes.take 13) plain (lfMicLen f.bytes) == f.bytes.drop (n - lfMicLen f.bytes)

/-- A frame whose MIC has passed: replay, plaintext, acknowledgement, verdict, contact, time and flood. -/
def Dev.micPassed (d : Dev) (f : LFrame) (i : Nat) (plain : List Byte) : Dev :=
  let held := d.chtValid i && d.chtGet i 0 CHT_SHORT == lfSrc f.bytes
  let live := held && !d.promOnly f.bytes
  let h := if held then (d.chtW i 1).toNat else f.w 1 CHT_H
  let map := if held then (d.chtW i 2).toNat else f.w 2 CHT_MAP
  let v := replayJudge h map (lfFcnt f.bytes)
  let mv := replayMove h map (lfFcnt f.bytes)
  let d := if v = vdFRESH ∧ live then (d.setChtW i 1 (BitVec.ofNat 32 mv.1)).setChtW i 2 (BitVec.ofNat 32 mv.2) else d
  let d := d.when (decide (v = vdSTALE)) (fun d => d.count (LNK_CNT 6))
  let d := d.when (decide (v = vdDUP)) (fun d => d.count (LNK_CNT 7))
  let show' := decide (v ≠ vdSTALE)
  let d := if show' ∧ f.rpt ≠ 0 then d.setBytes (f.rpt + 36 + 13) plain else d
  let r := d.ackDecide f v
  let d := r.2.2.postVerdict f v (d.verdictFlags f.bytes r.1 r.2.1 show')
  let d := if show' ∧ live then d.contact i f else d
  if v = vdFRESH then d.meshTake f plain else d

/-- MIC_CHECK_END (R182): of the oldest committed frame whose result is awaited. -/
def execMicCheckEnd (s : State) : Host.Outcome State Fault Refusal :=
  s.run fun d =>
    match d.frames with
    | [] => d
    | f :: rest =>
      let d := { d with frames := rest }
      match f.entry with
      | none => d
      | some i =>
        let key := (d.kslot (f.w 0 CHT_KEYSLOT)).key
        let plain := ccmCrypt key (lfNonce f.bytes) (lfBody f.bytes)
        if micOk f key plain then d.micPassed f i plain
        else
          let d := d.count (LNK_CNT 5)
          let r := d.ackDecide f vdMICFAIL
          r.2.2.postVerdict f vdMICFAIL (d.verdictFlags f.bytes false false false)

/-! ### The verdict deadline (R182) -/

/-- Where a unit's decoded payload lies (R158). -/
def decodedAt (u : Nat) : Nat :=
  if u < 1024 then 0x21400000 + u / 64 * 0x80000 + u % 64 * 0x2000 + 0x1E00 else 0x22C00000 + (u - 1024) * 0x80000 + 0x60000

/-- The frame at a unit is one this head would acknowledge, by its decoded link header. -/
def Dev.ackAwaited (d : Dev) (u : Nat) : Bool := (d.rcvOf u).reent.isNone && d.ackAsked (d.bytes (decodedAt u) 13)

/-- A command that ends the wait for a unit's last block or its filter. -/
def Dev.unitArrival (d : Dev) (u : Nat) : Instr → Bool
  | .addressFilter v => v.val == u
  | .blockDecoded k => ((sget none d.decBusy k).map (fun j => j.blk.unit)) == some u && (d.rcvOf u).addr
  | _ => false

/-- The commands that still wait in this cycle end the wait of a unit's verdict (R179): of an unsecured frame its filter's answer or last block, of a
secured one so many MIC results that its own is among them, since they come in the order of the commits. -/
def State.verdictComes (s : State) (d : Dev) (u : Nat) : Bool :=
  let i := d.frames.findIdx (fun f => f.unit == u)
  let mics := s.pending.countP (· == .micCheckEnd)
  if i < d.frames.length then decide (i < mics)
  else s.arrives (d.unitArrival u) && (!lfSec (d.bytes (decodedAt u) 13) || decide (d.frames.length < mics))

/-- VERDICT_DEADLINE (R182). Of a unit whose filter has not answered, ACKLATE counts at the answer. -/
def execVerdictDeadline (u : Fin 1026) (s : State) : Host.Outcome State Fault Refusal :=
  s.run fun d =>
    let r := d.rcvOf u
    if s.verdictComes d u then d
    else if d.frames.any (fun f => f.unit == u && !f.late) then
      let asked := d.frames.any (fun f => f.unit == u && !f.late && !f.recov && d.ackAsked f.bytes)
      let d := { d with frames := d.frames.map (fun (f : LFrame) => if f.unit = u.val then { f with late := true } else f) }
      d.when asked (fun d => d.count (LNK_CNT 1))
    else if decide (3 ≤ r.state ∧ r.state ≤ 5) && !d.lateU.contains u then
      let d := { d with lateU := d.lateU ++ [u.val] }
      if r.addr && d.ackAwaited u then d.count (LNK_CNT 1) else d
    else d

end Sys2Proof.Machine
end

