-- ==== Sys2Proof/Machine/Furrow.lean ====
section
/-! DEFINITION. Furrows, MC demodulators, the decoder pool and capture slots as shared operations (chapters 7 and 8): hand-over and
return of blocks, reclaim, completion with its record and commit, the classes and moves of slots, imposed ends. -/

namespace Sys2Proof.Machine

/-! ### Units -/

/-- Table 7.2; an MC demodulator's codes are one higher in MCX_STAT, and its FREE is SEARCH or OFF. -/
def rsSYNC : Nat := 1
def rsHDR : Nat := 2
def rsADDR : Nat := 3
def rsCOMMITTED : Nat := 4
def rsDECODING : Nat := 5
def rsDONE : Nat := 6
def rsRECLAIM : Nat := 7

/-- Discard reasons of Table 7.6. -/
def dcSYNC : Nat := 1
def dcHEADER : Nat := 2
def dcEARLYADDR : Nat := 3
def dcUNDECODED : Nat := 4
def dcADDR : Nat := 5
def dcLOST : Nat := 6
def dcBLANK : Nat := 7
def dcCLOCK : Nat := 8
def dcRESOW : Nat := 9
def dcCHAIN : Nat := 10
def dcABORT : Nat := 11

/-- Completion status of Table 7.9. -/
def stOK : Nat := 0
def stCRCFAIL : Nat := 1
def stLDPCFAIL : Nat := 2
def stCLOCKFAIL : Nat := 3
def stRESOWN : Nat := 4
def stCHAINOFF : Nat := 5
def stABORTED : Nat := 6
def stNOROOM : Nat := 7

/-- A furrow's soft-store region, or a demodulator's fixed area (R128, R158). -/
def softAt (u : Nat) : Nat :=
  if u < 1024 then 0x21400000 + u / 64 * 0x80000 + u % 64 * 0x2000 else 0x22C00000 + (u - 1024) * 0x80000

def isSc (u : Nat) : Bool := decide (u < 1024)

/-- Requester of a unit among the DS decoders' eighteen. -/
def requester (u : Nat) : Nat := if u < 1024 then u / 64 else 16 + (u - 1024)

/-- Payload length, payload symbols and payload blocks a header gives. -/
def Rcv.len (r : Rcv) (u : Nat) : Nat := if isSc u then scHdrLen r.hdr else mcLen r.hdr
def Dev.paySyms (d : Dev) (u : Nat) (r : Rcv) : Nat :=
  if isSc u then scPaySyms (scHdrLen r.hdr) (scHdrRate r.hdr) r.e
  else mcDataSyms (mcLen r.hdr) (mcRate r.hdr) (mcConst r.hdr) (d.linkM (u - 1024))
def Rcv.blocks (r : Rcv) (u : Nat) : Nat := if isSc u then scBlocks (scHdrLen r.hdr) else mcWords (mcLen r.hdr) (mcRate r.hdr)

/-- HINT, or LINKINFO. -/
def Rcv.info (r : Rcv) (u : Nat) : Nat := if isSc u then scHdrHint r.hdr else mcLinkInfo r.hdr

/-! ### Capture slots (R161 to R169) -/

/-- Outcomes of Table 8.10. -/
def uoRECOVERED : Nat := 1
def uoREPLAYFAIL : Nat := 2
def uoNOTARGET : Nat := 3
def uoNOKNOWN : Nat := 4
def uoNOSTART : Nat := 5
def uoNOFURROW : Nat := 6
def uoPOOLFULL : Nat := 7
def uoTOOLONG : Nat := 8
def uoENDED : Nat := 9
def uoABORTED : Nat := 10
def uoRESOWN : Nat := 11

/-- A slot closes: its pages go back, OUTCOME shows and counts; a re-sowing counts in UNW_DROP (R164, R169). -/
def Dev.slotClose (d : Dev) (n out : Nat) : Dev :=
  let d := d.setSlot n { Slot.init with outcome := out }
  if out = uoRESOWN then d.count (UNW_DROP 5) else d.count (UNW_OUT (out - 1))

/-- Packet A, or B, of a slot can still be the target (R163). -/
def canTarget (mine other : Nat) : Bool := mine == 2 || (mine == 0 && (other == 0 || other == 1))

/-- A packet whose end is `t` still has samples to come. -/
def Dev.onAir (d : Dev) (t : Option Nat) : Bool := match t with
  | none => true
  | some x => !atOrPast d.meshNow x

/-- Recording is in progress (R163). -/
def Dev.recording (d : Dev) (n : Nat) : Bool :=
  let s := d.slotOf n
  s.state != 0 && ((canTarget s.clsA s.clsB && d.onAir s.endA) || (canTarget s.clsB s.clsA && d.onAir s.endB))

/-- A free page of the pool, the lowest. -/
def Dev.pageFree (d : Dev) : Option Nat :=
  (span 0 4096).find? (fun p => !(d.slots.any (fun s => s.2.pages.contains p)))

def Dev.pagesUsed (d : Dev) : Nat := (d.slots.map (fun s => s.2.pages.length)).foldl (· + ·) 0

/-- The most recently opened recording slot. -/
def Dev.newestRec (d : Dev) : Option Nat :=
  ((span 0 32).filter d.recording).foldl (fun b n => match b with
    | none => some n
    | some m => if (d.slotOf m).serial < (d.slotOf n).serial then some n else some m) none

/-- A page joins slot `n`; at MAXPAGES a slot that still records closes (R168). -/
def Dev.pageJoin (d : Dev) (n p : Nat) : Dev :=
  let s := d.slotOf n
  let d := d.setSlot n { s with pages := s.pages ++ [p] }
  if d.get UNW_CFG UNW_CFG_MAXPAGES ≤ s.pages.length + 1 ∧ d.recording n then d.slotClose n uoTOOLONG else d

/-- A recording slot takes a page (R162, R168). -/
def Dev.pageTake (d : Dev) (n : Nat) : Dev :=
  match d.pageFree with
  | some p => d.pageJoin n p
  | none => match d.newestRec with
    | none => d
    | some m =>
      let d := d.slotClose m uoPOOLFULL
      if m = n then d else match d.pageFree with
        | some p => d.pageJoin n p
        | none => d

/-- A slot both of whose packets are classed moves as Table 8.6 gives. Where no packet is KNOWN and the TARGET's furrow had passed SYNC before the
opening two rows of the table apply, and it closes NOKNOWN (DESIGN CHOICE, log entry 180). -/
def Dev.slotMove (d : Dev) (n : Nat) : Dev :=
  let s := d.slotOf n
  if s.state ≠ 1 ∨ s.clsA = 0 ∨ s.clsB = 0 then d
  else if (s.clsA = 1 ∧ s.clsB = 2) ∨ (s.clsA = 2 ∧ s.clsB = 1) then
    if s.clsA = 2 ∧ s.late then d.slotClose n uoNOSTART
    else { d.setSlot n { s with state := 2, sub := d.slotSeq } with slotSeq := d.slotSeq + 1 }
  else if s.clsA = 2 ∨ s.clsB = 2 then d.slotClose n uoNOKNOWN
  else d.slotClose n uoNOTARGET

/-- A packet of a slot is classed; of a KNOWN one the engine copies what it rebuilds from (R164). -/
def Dev.slotClass (d : Dev) (u cls : Nat) (r : Rcv) (bytes : List Byte) (n : Nat) : Dev :=
  let s := d.slotOf n
  let a := s.state = 1 ∧ s.furA = u ∧ s.clsA = 0
  let b := s.state = 1 ∧ s.furB = some u ∧ s.clsB = 0
  if a ∨ b then
    let s := if a then { s with clsA := cls } else { s with clsB := cls }
    let s := if cls = 1 then { s with known := some (r.hdr, r.word, bytes), est := [r.rssi, r.snr, r.foff, r.drift, r.tsync, (r.agc || r.cal).toNat] } else s
    (d.setSlot n s).slotMove n
  else d

/-- The end of furrow `u` reaches the slots that name it or replay through it; `ok`: DONE with OK (R164). -/
def Dev.slotsEnd (d : Dev) (u cls : Nat) (ok : Bool) (r : Rcv) (bytes : List Byte) : Dev :=
  (span 0 32).foldl (fun d n =>
    let s := d.slotOf n
    if s.state = 4 ∧ s.furR = some u ∧ r.reent = some n then d.slotClose n (if ok then uoRECOVERED else uoREPLAYFAIL)
    else if r.reent.isNone then d.slotClass u cls r bytes n
    else d) d

/-- The end of the packet on furrow `u` is known (R163). -/
def Dev.slotsHeader (d : Dev) (u tEnd : Nat) : Dev :=
  let r := d.rcvOf u
  (span 0 32).foldl (fun d n =>
    let s := d.slotOf n
    if r.reent = some n ∧ s.state = 4 ∧ s.furR = some u then
      d.setSlot n (if s.clsB = 2 then { s with endB := some tEnd } else { s with endA := some tEnd })
    else if r.reent.isNone ∧ s.state = 1 ∧ s.furA = u ∧ s.clsA = 0 then d.setSlot n { s with endA := some tEnd }
    else if r.reent.isNone ∧ s.state = 1 ∧ s.furB = some u ∧ s.clsB = 0 then d.setSlot n { s with endB := some tEnd }
    else d) d

/-! ### The pool's queue (R148, R151, R155, R156) -/

/-- QUEUED and BUSY of DEC_STAT follow. -/
def Dev.decSync (d : Dev) : Dev :=
  let busy := ((span 0 10).map (fun k => if (sget none d.decBusy k).isSome then 2 ^ k else 0)).foldl (· + ·) 0
  (d.put DEC_STAT DEC_STAT_QUEUED d.decQ.length).put DEC_STAT DEC_STAT_BUSY busy

def Dev.poolOn (d : Dev) : Bool := d.flag DEC_CTL DEC_CTL_ON

/-- One returned block counted (R152, R154 to R156): decoder 10 marks an expired block, 11 one the pool did not serve. -/
def Dev.tallyOne (d : Dev) (u : Nat) (x : Nat × Nat × Bool) : Dev :=
  if x.1 = 10 then d.count DEC_EXPIRE
  else if x.1 = 11 then d.count DEC_NOPWR
  else
    let d := (d.count31 (DEC_BLK x.1) 1).count31 DEC_ITERS x.2.1
    if x.2.2 then d else d.count (DEC_NOCONV (requester u))

/-- A returned block is tallied, at once unless its unit is tentative. -/
def Dev.tally (d : Dev) (u : Nat) (x : Nat × Nat × Bool) : Dev :=
  let r := d.rcvOf u
  let d := d.setRcv u { r with iter := min 0xFFFF (r.iter + x.2.1) }
  if r.state ≤ rsADDR then d.setRcv u { d.rcvOf u with tally := r.tally ++ [x] } else d.tallyOne u x

/-- The unit has been confirmed: its tally counts. -/
def Dev.tallyFlush (d : Dev) (u : Nat) : Dev :=
  let l := (d.rcvOf u).tally
  let d := d.setRcv u { d.rcvOf u with tally := [] }
  l.foldl (fun d x => d.tallyOne u x) d

/-- A decoder is freed. -/
def Dev.decFree (d : Dev) (k : Nat) : Dev := { d with decBusy := sset none d.decBusy k none, decFreed := sset 0 d.decFreed k (d.clk.cyc + 1) }

/-- A job that a decoder runs for a unit. -/
def Job.runs (u : Nat) (j : Job) : Bool := j.live && j.blk.unit == u

/-- Decoder `k` loses the block of a unit: its result will be discarded, or, where the grant is of this cycle, the cancellation wins over it (R133, R153). -/
def Dev.cancelJob (d : Dev) (u k : Nat) : Dev :=
  match sget none d.decBusy k with
  | none => d
  | some j =>
    if !j.runs u then d
    else if j.since = d.clk.cyc then
      let long := decide (8 ≤ k)
      { (d.decFree k) with decLast := sset (if long then 1 else 17) d.decLast long.toNat j.last }
    else { d with decBusy := sset none d.decBusy k (some { j with live := false }) }

/-- Blocks of a unit leave the pool (R133): each counts as speculative, with those its tally holds. -/
def Dev.cancelBlocks (d : Dev) (u : Nat) : Dev :=
  let q := d.decQ.countP (fun b => b.unit == u)
  let n := d.decBusy.countP (fun p => p.2.any (Job.runs u))
  let k := (d.rcvOf u).tally.length
  let d := (span 0 10).foldl (fun d i => d.cancelJob u i) { d with decQ := d.decQ.filter (fun b => b.unit != u) }
  (d.count31 DEC_SPEC (q + n + k)).decSync

/-! ### Reclaim (R132) -/

/-- Class of a reclaimed packet (Table 8.5). -/
def reclaimClass (reason : Nat) : Nat := if reason = dcEARLYADDR ∨ reason = dcADDR ∨ reason = dcABORT then 3 else 2

/-- The discard counters of a unit. -/
def Dev.countDiscard (d : Dev) (u reason : Nat) : Dev :=
  if isSc u then
    let a := DET_DISC (u / 64)
    ((d.count a).put a DET_DISC_LAST reason).count (DET_DISCR (reason - 1))
  else
    let a := MCX_DISC (u - 1024)
    (d.count a).put a MCX_DISC_LAST reason

/-- A tentative unit enters RECLAIM. -/
def Dev.reclaim (d : Dev) (u reason : Nat) : Dev :=
  let r := d.rcvOf u
  let d := (d.cancelBlocks u).countDiscard u reason
  let d := { d.setRcv u { Rcv.init with state := rsRECLAIM, chain := r.chain, ch := r.ch, b := r.b, e := r.e } with lateU := d.lateU.filter (· ≠ u) }
  d.slotsEnd u (reclaimClass reason) false r []

/-! ### Completion (R139, R140, R178) -/

/-- MODE of a report (Table 7.8). -/
def Dev.modeByte (d : Dev) (u : Nat) (r : Rcv) : Nat :=
  if isSc u then 64 * r.chain + 8 * r.b + (r.e - 5)
  else
    let m := u - 1024
    64 * r.chain + 16 * d.linkM m + 8 * d.linkG m + 2 * d.linkBw m

/-- FLAGS of a report. -/
def rptFlags (u : Nat) (r : Rcv) : Nat :=
  r.reent.isSome.toNat + 2 * (decide (r.fade ≠ 0)).toNat + 4 * (decide (r.blank ≠ 0)).toNat + 8 * r.agc.toNat + 16 * r.cal.toNat
    + 32 * (!isSc u).toNat

/-- The report record (Table 7.8). -/
def Dev.reportBytes (d : Dev) (u : Nat) (r : Rcv) (status : Nat) (payload : List Byte) : List Byte :=
  let pad := (4 - payload.length % 4) % 4
  leBytes 1 status ++ leBytes 1 (rptFlags u r) ++ leBytes 2 (unitCode u) ++ leBytes 4 (if isSc u then r.hdr else r.hdr / 2 ^ 32)
    ++ leBytes 8 r.tsync ++ leBytes 2 r.rssi ++ leBytes 2 r.snr ++ leBytes 4 (twos 32 (sext 24 r.foff))
    ++ leBytes 1 (if isSc u then r.ch else 0xFF) ++ leBytes 1 (d.modeByte u r) ++ leBytes 2 (if isSc u then 0 else mcLinkInfo r.hdr)
    ++ leBytes 2 (if isSc u then r.fade else r.low) ++ leBytes 2 r.blank ++ leBytes 2 r.iter ++ leBytes 1 r.handed ++ leBytes 1 r.bad
    ++ payload ++ List.replicate pad 0

/-- Class of a packet whose furrow reached DONE (Table 8.5). -/
def doneClass (status : Nat) : Nat :=
  if status = stOK ∨ status = stNOROOM then 1 else if status = stABORTED then 3 else 2

/-- A unit enters DONE with a status: its record is placed, its tally counts, the frame commits, the slots learn. -/
def Dev.finish (d : Dev) (u status : Nat) : Dev :=
  let d := d.tallyFlush u
  let r := d.rcvOf u
  let d := if status ≤ stLDPCFAIL then d.touchRange (decodedAt u) (r.len u) else d
  let payload := if status ≤ stLDPCFAIL then d.bytes (decodedAt u) (r.len u) else []
  let hdr := d.bytes (decodedAt u) (if status ≤ stLDPCFAIL then r.len u else min 13 (r.len u))
  let p := d.placeRecord (d.reportBytes u r status payload) true
  let st := if p.1.isNone then stNOROOM else status
  let rpt := p.1.getD 0
  let d := p.2.setRcv u { r with state := rsDONE, status := st, rpt := rpt }
  let f : LFrame := { unit := u, bytes := hdr, entry := none, words := [], tsync := r.tsync, tEnd := r.tEnd, commit := d.meshNow, rpt := rpt, chain := r.chain, ch := r.ch, b := r.b, e := r.e, sync := r.word, recov := r.reent.isSome, late := false }
  let d := d.commit f (decide (st = stOK))
  d.slotsEnd u (doneClass st) (decide (st = stOK)) r (d.bytes (decodedAt u) (r.len u + 2))

/-- The payload CRC of a unit passes (R109); the CRC-32 of an MC payload comes low byte first (R100). -/
def Dev.crcOk (d : Dev) (u : Nat) (r : Rcv) : Bool :=
  let n := r.len u
  let b := d.bytes (decodedAt u) n
  if isSc u then d.bytes (decodedAt u + n) 2 == beBytes 2 (crc16 b) else d.bytes (decodedAt u + n) 4 == leBytes 4 (crc32 b)

/-- The last block has returned. -/
def Dev.finishBlocks (d : Dev) (u : Nat) : Dev :=
  let r := d.rcvOf u
  d.finish u (if r.bad ≠ 0 then stLDPCFAIL else if d.crcOk u r then stOK else stCRCFAIL)

/-- An imposed end of Table 7.5: reason for a tentative unit, status for a committed one. -/
def Dev.imposedEnd (d : Dev) (u reason status : Nat) : Dev :=
  let r := d.rcvOf u
  if 1 ≤ r.state ∧ r.state ≤ rsADDR then d.reclaim u reason
  else if r.state = rsCOMMITTED ∨ r.state = rsDECODING then ((d.tallyFlush u).cancelBlocks u).finish u status
  else d

/-- An imposed end of every unit a test picks. -/
def Dev.imposedAll (d : Dev) (f : Nat → Rcv → Bool) (reason status : Nat) : Dev :=
  ((d.rcv.filter (fun p => f p.1 p.2)).map (·.1)).foldl (fun d u => d.imposedEnd u reason status) d

/-- Slots of a chain end (R169). -/
def Dev.slotsEndAll (d : Dev) (f : Slot → Bool) (out : Nat) : Dev :=
  (span 0 32).foldl (fun d n => if (d.slotOf n).state ≠ 0 ∧ f (d.slotOf n) then d.slotClose n out else d) d

/-- A receive chain has stopped (R80, R137, R169): its packets and slots end. -/
def Dev.rxStop (d : Dev) (c reason status : Nat) : Dev :=
  let d := ((d.put (RFC_RXCTL c) RFC_RXCTL_ON 0).put (RFC_RXSTAT c) RFC_RXSTAT_READY 0).put (RFC_RXSTAT c) RFC_RXSTAT_BLANKED 0
  let d := (d.calDrop c).setRx c RxSt.init
  let d := { d with detRun := d.detRun.filter (fun p => p.1 / 65536 != c) }
  (d.slotsEndAll (fun s => s.chain == c) uoENDED).imposedAll (fun _ r => r.chain == c) reason status

/-! ### Payload blocks -/

/-- The initial LLRs of a run of the soft store. -/
def Dev.llrs (d : Dev) (a n : Nat) : List Int := (d.bytes a n).map llrInt

/-- Decoded bytes of a payload block from its information bits. -/
def Rcv.blockBytes (r : Rcv) (u idx : Nat) (bits : List Bool) : List Byte :=
  if isSc u then fromBits (bits.take (8 * scBytes (scHdrLen r.hdr) idx))
  else
    let k := mcK (mcRate r.hdr)
    fromBits (scramble (scrAfter (mcSeed r.hdr) (k * idx)) (bits.take k))

/-- Where a payload block's bytes go. -/
def Rcv.blockAt (r : Rcv) (u idx : Nat) : Nat :=
  decodedAt u + (if isSc u then scAt (scHdrLen r.hdr) idx else mcK (mcRate r.hdr) / 8 * idx)

/-- Decoded bytes written: an MC payload ends with its CRC-32, a SC payload with its CRC-16. -/
def Dev.blockWrite (d : Dev) (u idx : Nat) (bits : List Bool) : Dev :=
  let r := d.rcvOf u
  d.setBytes (r.blockAt u idx) (r.blockBytes u idx bits)

/-- A payload block returns to its unit: iterations, convergence, information bits, the decoder (R131, R149, R156). -/
def Dev.payReturn (d : Dev) (u idx dec iters : Nat) (ok : Bool) (bits : List Bool) : Dev :=
  let d := (d.tally u (dec, iters, ok)).blockWrite u idx bits
  let r := d.rcvOf u
  let r := { r with out := r.out - 1, bad := r.bad + (!ok).toNat, blk0 := if idx = 0 then some ok else r.blk0 }
  let d := d.setRcv u r
  if idx = 0 ∧ r.state = rsADDR ∧ !ok then d.reclaim u dcUNDECODED
  else if r.state = rsDECODING ∧ r.out = 0 then d.finishBlocks u
  else d

/-- Hard decisions of the information bits of a block that no decoder served: the signs of its LLRs (R154). -/
def Dev.signBits (d : Dev) (u idx : Nat) : List Bool :=
  let r := d.rcvOf u
  let l := if isSc u then
      d.llrs (softAt u + scBitAt (scHdrLen r.hdr) (scHdrRate r.hdr) idx) (8 * scBytes (scHdrLen r.hdr) idx)
    else d.llrs (softAt u + 2304 * idx) (mcK (mcRate r.hdr))
  l.map (fun x => decide (x < 0))

/-- A unit holds a packet that has not ended. -/
def Dev.unitLive (d : Dev) (u : Nat) : Bool := decide (1 ≤ (d.rcvOf u).state ∧ (d.rcvOf u).state ≤ rsDECODING)

/-- A block that comes back to a unit reclaimed meanwhile is speculative (R156). -/
def Dev.returnTo (d : Dev) (u : Nat) (f : Dev → Dev) : Dev := if d.unitLive u then f d else d.count31 DEC_SPEC 1

/-- Payload blocks handed over in one cycle, in order (R148); with the pool off each returns at once (R155). -/
def Dev.handBlocks (d : Dev) (u : Nat) (l : List Nat) : Dev :=
  let r := d.rcvOf u
  let d := d.setRcv u { r with handed := r.handed + l.length, out := r.out + l.length }
  if d.poolOn then
    Dev.decSync { d with decQ := d.decQ ++ l.map (fun i => ⟨u, false, i, i == 0 && r.state == rsADDR, d.clk.cyc⟩) }
  else l.foldl (fun d i => d.returnTo u (fun d => d.payReturn u i 11 0 false (d.signBits u i))) d

/-- One payload symbol's LLRs go to the soft store; at the last symbol the unit has demodulated everything (R129, R148). -/
def Dev.paySymbol (d : Dev) (u : Nat) (llr : List Byte) : Dev :=
  let r := d.rcvOf u
  let s := d.paySyms u r
  if s ≤ r.psym then d
  else
    let l := r.psym
    let last := decide (l + 1 = s)
    let put := fun (d : Dev) (i : Nat) (b : Byte) => d.setByte (softAt u + i) b
    let d :=
      if isSc u then
        let n := scPayBits (scHdrLen r.hdr) (scHdrRate r.hdr)
        (span 0 r.e).foldl (fun d p => if l + s * p < n then put d (l + s * p) (llr.getD p 0) else d) d
      else
        let w := mcBitsPer (mcConst r.hdr) * mcData (d.linkM (u - 1024))
        let n := 2304 * mcWords (mcLen r.hdr) (mcRate r.hdr)
        (span 0 w).foldl (fun d p => if l * w + p < n then put d (l * w + p) (llr.getD p 0) else d) d
    let r := { r with psym := l + 1, tEnd := if last then d.nowU else r.tEnd, drift := if last then r.trkD else r.drift, ended := last }
    let r := if last ∧ r.state = rsCOMMITTED then { r with state := rsDECODING } else r
    let d := d.setRcv u r
    if isSc u then (if last then d.handBlocks u (span 0 (r.blocks u)) else d)
    else
      let w := mcBitsPer (mcConst r.hdr) * mcData (d.linkM (u - 1024))
      let done := fun (k : Nat) => min (r.blocks u) (k * w / 2304)
      let upto := if last then r.blocks u else done (l + 1)
      d.handBlocks u (span (done l) (upto - done l))

/-! ### Symbols -/

/-- Soft values of a symbol as written: a marked symbol's are 0. -/
def softOf (llr : List Byte) (n : Nat) (marked : Bool) : List Byte :=
  (span 0 n).map (fun i => if marked then 0 else if llr.getD i 0 = 0x80 then 0x81 else llr.getD i 0)

/-- The trackers at a symbol (R135, R136): a faded or marked symbol leaves offset and drift, and the timing goes on at the drift. -/
def Rcv.track (r : Rcv) (held : Bool) (freq drift : Nat) : Rcv :=
  let r := if held then r else { r with trkF := freq, trkD := drift }
  { r with trkT := r.trkT + sext 8 r.trkD }

/-- A unit past its header has demodulated its last symbol: nothing of its packet is to come. -/
def Dev.noMore (d : Dev) (u : Nat) (r : Rcv) : Bool := decide (rsADDR ≤ r.state) && decide (d.paySyms u r ≤ r.psym)

/-- One symbol's quality noted (R135, R136): a marked symbol counts in BLANKSYM, a faded one in FADESYM; the next symbol holds no gain step yet. -/
def Rcv.noted (r : Rcv) (faded marked : Bool) : Rcv :=
  let r := { r with step1 := false }
  if marked then { r with blank := min 0xFFFF (r.blank + 1) } else if faded then { r with fade := min 0xFFFF (r.fade + 1) } else r

/-- The noise estimate `nu` as a symbol is demapped: with a gain step in it, the larger of those from before and after (R136; log entry 172). -/
def Rcv.noise (r : Rcv) (nu : Nat) : Nat := if r.step1 then max nu (Config.stepNoise nu) else nu

/-- An MC symbol noted (R135, R136, R143). -/
def Rcv.mcNote (r : Rcv) (faded marked : Bool) (drift : Int) : Rcv := (r.noted faded marked).track (marked || faded) r.trkF (twos 8 drift)

/-- A data symbol of an MC frame at noise `nu` (R142, R143): its LLRs go to the soft store. -/
def Dev.mcPay (d : Dev) (u : Nat) (a : List Cx) (nu : Nat) (faded marked : Bool) (drift : Int) : Dev :=
  let r := d.rcvOf u
  if d.noMore u r then d else
  let k := d.linkM (u - 1024)
  let b := mcBitsPer (mcConst r.hdr)
  (d.setRcv u (r.mcNote faded marked drift)).paySymbol u (softOf (mcLlrs k b nu r.chan a) (b * mcData k) marked)

/-- A payload symbol of a furrow (R135, R148); what comes after its last symbol is none of it. -/
def Dev.dataPay (d : Dev) (u : Nat) (soft : List Byte) (faded marked : Bool) (freq drift : Nat) : Dev :=
  let r := d.rcvOf u
  if d.noMore u r then d
  else (d.setRcv u ((r.noted faded marked).track (marked || faded) freq drift)).paySymbol u soft

/-! ### Header blocks -/

/-- The header returns valid (R131): T_ADDR; symbols that came meanwhile go to the soft store. -/
def Dev.headerOk (d : Dev) (u word : Nat) : Dev :=
  let r := d.rcvOf u
  let d := d.setRcv u { r with state := rsADDR, hdr := word, raw := [], mcRaw := [] }
  let r' := d.rcvOf u
  let d := if isSc u then
      let q := 7 + 4 * scHdrSyms r.e + 4 * d.paySyms u r'
      d.slotsHeader u (r.tsync + scQuarterU q r.b r.e / 25)
    else d
  let d := r.raw.foldl (fun d x => if (d.rcvOf u).state = rsADDR then d.dataPay u x.1 x.2.1 x.2.2.1 x.2.2.2.1 x.2.2.2.2 else d) d
  r.mcRaw.foldl (fun d x => if (d.rcvOf u).state = rsADDR then d.mcPay u x.1 x.2.1 x.2.2.1 x.2.2.2.1 x.2.2.2.2 else d) d

/-- The header block returns (R105, R118, R131). -/
def Dev.hdrReturn (d : Dev) (u dec iters : Nat) (ok : Bool) (bits : List Bool) : Dev :=
  let d := d.tally u (dec, iters, ok)
  let w := bitsNat (bits.take (if isSc u then 32 else 64))
  if ok && (if isSc u then scHdrOk w else mcHdrOk w) then d.headerOk u w else d.reclaim u dcHEADER

/-- The header block is handed over. -/
def Dev.handHeader (d : Dev) (u : Nat) : Dev :=
  if d.poolOn then Dev.decSync { d with decQ := d.decQ ++ [⟨u, true, 0, true, d.clk.cyc⟩] }
  else d.hdrReturn u 11 0 false []

/-- A block returns unserved: expired (10) or with the pool off (11). -/
def Dev.blockUnserved (d : Dev) (b : Blk) (why : Nat) : Dev :=
  if b.hdr then d.hdrReturn b.unit why 0 false [] else d.payReturn b.unit b.idx why 0 false (d.signBits b.unit b.idx)

/-! ### Decoding (R149, R151, R152) -/

/-- What a block decodes to. -/
def Dev.decodeBlk (d : Dev) (b : Blk) (imax stall : Nat) : Decoded :=
  let u := b.unit
  let r := d.rcvOf u
  if b.hdr then
    if isSc u then decodeCols (scRows.take 4) 16 imax stall (scHdrInit (d.llrs (softAt u + 0x1D00) 96))
    else decodeCols (scRows.take 4) 16 imax stall (mcHdrInit r.hacc)
  else if isSc u then
    let len := scHdrLen r.hdr
    let rate := scHdrRate r.hdr
    let n := scBytes len b.idx
    decodeCols (scRows.take (scRowsOf rate)) (scZ n) imax stall (scBlockInit rate n (d.llrs (softAt u + scBitAt len rate b.idx) (scBlockBits rate n)))
  else
    let k := mcRate r.hdr
    decodeCols (mcRows.take (mcRowsOf k)) 96 imax stall (mcWordInit k (d.llrs (softAt u + 2304 * b.idx) 2304))

/-- The check bits of the soft store act as a payload block's LLRs are read (R446). -/
def Dev.blockTouch (d : Dev) (b : Blk) : Dev :=
  let r := d.rcvOf b.unit
  if b.hdr then (if isSc b.unit then d.touchRange (softAt b.unit + 0x1D00) 96 else d)
  else if isSc b.unit then
    let n := scBytes (scHdrLen r.hdr) b.idx
    d.touchRange (softAt b.unit + scBitAt (scHdrLen r.hdr) (scHdrRate r.hdr) b.idx) (scBlockBits (scHdrRate r.hdr) n)
  else d.touchRange (softAt b.unit + 2304 * b.idx) 2304

/-- A decoder's result goes to the unit. -/
def Dev.blockReturn (d : Dev) (k : Nat) (b : Blk) (x : Decoded) : Dev :=
  if b.hdr then d.hdrReturn b.unit k x.iters x.ok x.cols.flatten else d.payReturn b.unit b.idx k x.iters x.ok x.cols.flatten

/-- The iteration limit of a block (Table 8.1). -/
def Dev.iterMax (d : Dev) (b : Blk) : Nat :=
  if b.hdr then d.get DEC_CFG DEC_CFG_ITERMAX_HDR
  else if isSc b.unit then d.get DEC_CFG DEC_CFG_ITERMAX_SC
  else d.get DEC_CFG DEC_CFG_ITERMAX_MC

/-- A block for the DL decoders. -/
def Blk.long (b : Blk) : Bool := !b.hdr && !isSc b.unit

/-- Decoders of a kind that a requester holds. -/
def Dev.holds (d : Dev) (long : Bool) (q : Nat) : Nat :=
  d.decBusy.countP (fun p => decide (8 ≤ p.1) == long && match p.2 with
    | some j => requester j.blk.unit == q
    | none => false)

def Dev.share (d : Dev) (long : Bool) (q : Nat) : Nat := if long then 2 else if q < 16 then d.get DEC_CFG DEC_CFG_DS_SHARE else 1

/-- The block to grant next: classes, then requesters in round order after the last served, then the oldest; a block is eligible from the cycle after its
hand-over on (R151). Which requester counts as last served before the first grant the manual does not say: the highest, so that the first round begins at
S0 and at demodulator 0 (DESIGN CHOICE, log entry 174). -/
def Dev.nextBlk (d : Dev) (long : Bool) : Option Blk :=
  let n := if long then 2 else 18
  let base := if long then 16 else 0
  let last := sget (n - 1) d.decLast long.toNat
  let order := (span 1 n).map (fun i => base + (last + i) % n)
  [true, false].findSome? (fun cls => order.findSome? (fun q =>
    if d.holds long q < d.share long q then
      d.decQ.find? (fun b => b.long == long && requester b.unit == q && b.urgent == cls && b.since != d.clk.cyc)
    else none))

/-- The lowest-numbered free decoder of a kind; one freed in this cycle is free for grants in the next (R153). -/
def Dev.freeDec (d : Dev) (long : Bool) : Option Nat :=
  (if long then span 8 2 else span 0 8).find? (fun k => (sget none d.decBusy k).isNone && sget 0 d.decFreed k != d.clk.cyc + 1)

/-- One block removed from the queue. -/
def dropBlk (b : Blk) : List Blk → List Blk
  | [] => []
  | x :: r => if x = b then r else x :: dropBlk b r

/-- The grants of one cycle for one kind of decoder. -/
def Dev.grants (d : Dev) (long : Bool) : Nat → Dev
  | 0 => d
  | n + 1 =>
    match d.freeDec long, d.nextBlk long with
    | some k, some b =>
      let top := if long then 1 else 17
      let j : Job := ⟨b, d.iterMax b, d.get DEC_CFG DEC_CFG_STALL, true, d.clk.cyc, sget top d.decLast long.toNat⟩
      let last := if long then requester b.unit - 16 else requester b.unit
      let d := { d with decQ := dropBlk b d.decQ, decBusy := sset none d.decBusy k (some j), decLast := sset top d.decLast long.toNat last }
      Dev.grants d.decSync long n
    | _, _ => d

end Sys2Proof.Machine
end

