-- ==== Sys2Proof/Machine/Timers.lean ====
section
/-! DEFINITION. General timers, always-on timers, the RTC time base and the calendar (chapter 18). -/

namespace Sys2Proof.Machine

/-! ### General timers (R345 to R354) -/

def Dev.tmrOf (d : Dev) (t : Nat) : TmrSt := sget TmrSt.init d.tmr t
def Dev.setTmr (d : Dev) (t : Nat) (x : TmrSt) : Dev := { d with tmr := sset TmrSt.init d.tmr t x }

/-- A 48-bit value: the low register and the low half of the high one. -/
def Dev.get48 (d : Dev) (lo hi : Nat) : Nat := (d.reg lo).toNat + 2 ^ 32 * (d.get hi ⟨15, 0⟩)
def Dev.put48 (d : Dev) (lo hi v : Nat) : Dev := (d.setReg lo (BitVec.ofNat 32 v)).put hi ⟨15, 0⟩ (v / 2 ^ 32)

def Dev.tmrCount (d : Dev) (t : Nat) : Nat := d.get48 (TMR_CNT_LO t) (TMR_CNT_HI t)
def Dev.setTmrCount (d : Dev) (t v : Nat) : Dev := d.put48 (TMR_CNT_LO t) (TMR_CNT_HI t) v

/-- The count as it stood at the start of the cycle is noted before the cycle's first change of it (R348). -/
def Dev.tmrNote (d : Dev) (t : Nat) : Dev :=
  let x := d.tmrOf t
  if x.oldAt = d.clk.cyc + 1 then d else d.setTmr t { x with oldAt := d.clk.cyc + 1, old := d.tmrCount t }

/-- The count at the start of the cycle. -/
def Dev.tmrStartCount (d : Dev) (t : Nat) : Nat := if (d.tmrOf t).oldAt = d.clk.cyc + 1 then (d.tmrOf t).old else d.tmrCount t
def Dev.tmrPeriod (d : Dev) (t : Nat) : Nat := d.get48 (TMR_PER_LO t) (TMR_PER_HI t)
def Dev.tmrCmp (d : Dev) (t k : Nat) : Nat := d.get48 (TMR_CMP_LO t k) (TMR_CMP_HI t k)

/-- `a` is at or past `b` in 48 bits, counting up or down (R346). -/
def past48 (down : Bool) (a b : Nat) : Bool :=
  if down then decide ((b + 2 ^ 48 - a % 2 ^ 48) % 2 ^ 48 < 2 ^ 47)
  else decide ((a + 2 ^ 48 - b % 2 ^ 48) % 2 ^ 48 < 2 ^ 47)

/-- Where a tick leaves the count (Table 18.1): count, counting down, period end, turn. -/
structure TickTo where
  count : Nat
  down  : Bool
  per   : Bool
  turn  : Bool
  deriving DecidableEq, Repr

/-- One tick under MODE (Table 18.1). Adding and subtracting wrap at 48 bits. -/
def tickTo (mode period count : Nat) (down : Bool) : TickTo :=
  match mode with
  | 0 => if past48 false count period then ⟨0, false, true, false⟩ else ⟨(count + 1) % 2 ^ 48, false, false, false⟩
  | 1 => if count = 0 then ⟨period, true, true, false⟩ else ⟨count - 1, true, false, false⟩
  | _ =>
    if down then
      if count = 0 then ⟨1, false, true, true⟩ else ⟨count - 1, true, false, false⟩
    else if past48 false count period then ⟨(count + 2 ^ 48 - 1) % 2 ^ 48, true, false, true⟩
    else ⟨(count + 1) % 2 ^ 48, false, false, false⟩

/-- OUT after an output action (R347): 0 none, 1 set, 2 clear, 3 toggle. -/
def outAct (act : Nat) (out : Bool) : Bool :=
  match act with
  | 0 => out
  | 1 => true
  | 2 => false
  | _ => !out

/-- Flag, enable and action fields of the four kinds of timer event: 0 period end, 1 compare 0, 2 compare 1, 3 capture. -/
def tmrFlagFld : Nat → Fld
  | 0 => TMR_STAT_PERF
  | 1 => TMR_STAT_CMP0F
  | 2 => TMR_STAT_CMP1F
  | _ => TMR_STAT_CAPF

def Dev.tmrAct (d : Dev) (t k : Nat) : Nat :=
  match k with
  | 0 => d.get (TMR_CTL t) TMR_CTL_ACTP
  | 1 => d.get (TMR_CTL t) TMR_CTL_ACT0
  | 2 => d.get (TMR_CTL t) TMR_CTL_ACT1
  | _ => 0

/-- The function `f` (with ARG `a`) drives its balls: what they have held since a re-sowing ends (Table 4.20). -/
def Dev.padDrive (d : Dev) (f a : Nat) : Dev :=
  { d with padHold := d.padHold.filter (fun p => !decide (d.plan8 tPADS 0 (4 + 4 * p.1) = f ∧ d.plan8 tPADS 0 (6 + 4 * p.1) = a)) }

/-- The effects of a timer event (R347): headland event, lost while the control field is down (R353), flag and OUT. -/
def Dev.tmrEvent (d : Dev) (t k : Nat) : Dev :=
  let d := (d.padDrive 6 t).hdlEvent (0x200 + 4 * t + k)
  let d := d.put (TMR_STAT t) (tmrFlagFld k) 1
  d.putB (TMR_STAT t) TMR_STAT_OUT (outAct (d.tmrAct t k) (d.flag (TMR_STAT t) TMR_STAT_OUT))

/-- Both compares armed (R346); after a turn, a compare equal to the count at the turn is left disarmed: it has fired for it. -/
def Dev.tmrArm (d : Dev) (t : Nat) (turnAt : Option Nat) : Dev :=
  let ok := fun k => match turnAt with | none => true | some v => decide (d.tmrCmp t k ≠ v)
  let x := d.tmrOf t
  d.setTmr t { x with arm0 := ok 0, arm1 := ok 1 }

/-- The timer's direction: DIR of TMR_STAT, always down in DOWN and up in UP. -/
def Dev.tmrDown (d : Dev) (t : Nat) : Bool :=
  match d.get (TMR_CTL t) TMR_CTL_MODE with
  | 0 => false
  | 1 => true
  | _ => d.flag (TMR_STAT t) TMR_STAT_DIR

/-- One tick of a running timer: the count moves; a period end clears RUN under ONESHOT, which leaves the count at 0 in UP and
UPDOWN and at PERIOD in DOWN (R345), and arms the compares, as a turn does (R346). A RUN written in the same cycle stands (R348). -/
def Dev.tmrStep (d : Dev) (t : Nat) : Dev × Bool :=
  let mode := d.get (TMR_CTL t) TMR_CTL_MODE
  let old := d.tmrCount t
  let r := tickTo mode (d.tmrPeriod t) old (d.tmrDown t)
  let one := r.per && d.flag (TMR_CTL t) TMR_CTL_ONESHOT
  let d := (d.tmrNote t).setTmrCount t (if one && mode ≠ 1 then 0 else r.count)
  let d := d.putB (TMR_STAT t) TMR_STAT_DIR r.down
  let d := d.when (one && (d.tmrOf t).ctlWr ≠ d.clk.cyc + 1) (fun d => d.put (TMR_CTL t) TMR_CTL_RUN 0)
  let d := d.when (r.per || r.turn) (fun d => d.tmrArm t (if r.turn then some old else none))
  (d, r.per)

/-- An armed compare is at or past its value in the present direction (R346). -/
def Dev.tmrCmpDue (d : Dev) (t k : Nat) : Bool :=
  (if k = 0 then (d.tmrOf t).arm0 else (d.tmrOf t).arm1) && past48 (d.tmrDown t) (d.tmrCount t) (d.tmrCmp t k)

/-- A compare disarmed by its firing. -/
def Dev.tmrDisarm (d : Dev) (t k : Nat) : Dev :=
  let x := d.tmrOf t
  d.setTmr t (if k = 0 then { x with arm0 := false } else { x with arm1 := false })

/-- Some core is in DEBUG and HALTFRZ holds the timer (R352). -/
def Dev.tmrFrozen (d : Dev) (t : Nat) : Bool :=
  d.flag (TMR_CTL t) TMR_CTL_HALTFRZ && (span 0 7).any (fun c => decide (d.coreState c = 5))

/-- The timer counts from the low-frequency clock (R352). -/
def Dev.tmrLf (d : Dev) (t : Nat) : Bool :=
  d.flag (TMR_CTL t) TMR_CTL_LFCONT &&
    (d.clk.stopped || d.flag CLK_STAT CLK_STAT_FALLBACK || !d.fieldOn 1 || d.frozen)

/-- The timer raises no event now: HALTFRZ holds it, or its clock is frozen or off (R352, R415). A timer with LFCONT counts on until the
low-frequency edge takes it over (R353). -/
def Dev.tmrHeld (d : Dev) (t : Nat) : Bool :=
  d.tmrFrozen t || ((d.frozen || !d.fieldOn 1) && !d.flag (TMR_CTL t) TMR_CTL_LFCONT)

/-- The timer runs on root-derived cycles. -/
def Dev.tmrRoot (d : Dev) (t : Nat) : Bool :=
  d.flag (TMR_CTL t) TMR_CTL_RUN && !d.tmrHeld t && !d.flag (TMR_STAT t) TMR_STAT_LFRUN && !d.clk.stopped

/-- Cycles from one tick to the next (R345). -/
def Dev.tmrEvery (d : Dev) (t : Nat) : Nat := d.get (TMR_CTL t) TMR_CTL_PRESC + 1

/-- The prescaler of a running timer has completed. -/
def Dev.tmrDue (d : Dev) (t : Nat) : Bool := d.tmrRoot t && decide (d.tmrEvery t ≤ (d.tmrOf t).pre)

/-- A tick: the count moves, and a period end waits for its effects. A count written in the same cycle stands, and the tick is lost (R348). -/
def Dev.tmrTick (d : Dev) (t : Nat) : Dev :=
  let r := if (d.tmrOf t).cntWr = d.clk.cyc + 1 then (d, false) else d.tmrStep t
  let x := r.1.tmrOf t
  r.1.setTmr t { x with pre := x.pre - d.tmrEvery t, per := x.per || r.2 }

/-- TIMER_TICK (R345): every PRESC + 1 cycles. -/
def execTimerTick (t : Fin 24) (s : State) : Host.Outcome State Fault Refusal :=
  s.run fun d => if d.tmrDue t then d.tmrTick t else d

/-- A period end that has come takes its effects. -/
def Dev.tmrPeriodEnd (d : Dev) (t : Nat) : Dev :=
  if (d.tmrOf t).per && !d.tmrHeld t then
    let d := d.tmrEvent t 0
    d.setTmr t { d.tmrOf t with per := false }
  else d

/-- TIMER_PERIOD_END (R345, R347): a period end that has come raises its event, sets PERF and applies ACTP. -/
def execTimerPeriodEnd (t : Fin 24) (s : State) : Host.Outcome State Fault Refusal := s.run fun d => d.tmrPeriodEnd t

/-- An armed compare at or past its value fires and is disarmed. -/
def Dev.tmrCompare (d : Dev) (t k : Nat) : Dev :=
  if d.tmrCmpDue t k && !d.tmrHeld t then (d.tmrDisarm t k).tmrEvent t (k + 1) else d

/-- TIMER_COMPARE (R346, R347): an armed compare at or past its value fires once and is disarmed. -/
def execTimerCompare (t : Fin 24) (k : Fin 2) (s : State) : Host.Outcome State Fault Refusal := s.run fun d => d.tmrCompare t k

/-- The cycle of a timer ends: a tick that is due, then a period end and the compares, judged on the count that the cycle leaves, in the order of
R347 and R348; then the prescaler counts. -/
def Dev.tmrCycle (d : Dev) (t : Nat) : Dev :=
  let d := if d.tmrDue t then d.tmrTick t else d
  let d := ((d.tmrPeriodEnd t).tmrCompare t 0).tmrCompare t 1
  if d.tmrRoot t then d.setTmr t { d.tmrOf t with pre := (d.tmrOf t).pre + 1 } else d

/-- A cycle of the timers that run or have something due; with the control field down, of those that the low-frequency clock has yet to take
over (R353). -/
def Dev.timersCycle (d : Dev) : Dev :=
  (span 0 24).foldl (fun (d : Dev) t =>
    if (d.fieldOn 1 || d.flag (TMR_CTL t) TMR_CTL_LFCONT) && (d.flag (TMR_CTL t) TMR_CTL_RUN || d.tmr.any (fun p => p.1 == t)) then d.tmrCycle t else d) d

/-- A capture (R349) of the count as it stood at the start of the cycle (R348): CAP, CAPSEQ, CAPF, and CAPOVR with its count where CAPF stood
already. A second one in the cycle makes one capture with the first. Under HALTFRZ it raises no event (R352; log entry 175). -/
def Dev.tmrCapture (d : Dev) (t : Nat) : Dev :=
  if (d.tmrOf t).capAt = d.clk.cyc + 1 then d
  else
    let v := d.tmrStartCount t
    let ovr := d.flag (TMR_STAT t) TMR_STAT_CAPF
    let d := d.setTmr t { d.tmrOf t with capAt := d.clk.cyc + 1 }
    let d := (d.setReg (TMR_CAP_LO t) (BitVec.ofNat 32 v)).put (TMR_CAP_HI t) TMR_CAP_HI_HI (v / 2 ^ 32)
    let d := d.put (TMR_CAP_HI t) TMR_CAP_HI_CAPSEQ (d.get (TMR_CAP_HI t) TMR_CAP_HI_CAPSEQ + 1)
    let d := d.when ovr (fun d => (d.put (TMR_STAT t) TMR_STAT_CAPOVR 1).count (TMR_CNT 0))
    if d.tmrFrozen t then d.put (TMR_STAT t) TMR_STAT_CAPF 1 else d.tmrEvent t 3

/-- A ball is sown with FUNC `f` and ARG `a` (Table 4.8). -/
def Dev.ballWith (d : Dev) (f a : Nat) : Bool :=
  (d.sec tPADS 0).isSome &&
    (span 0 48).any (fun g => decide (d.plan8 tPADS 0 (4 + 4 * g) = f ∧ d.plan8 tPADS 0 (6 + 4 * g) = a))

/-- CAPEDGE selects an edge: 1 rising, 2 falling, 3 both. -/
def capSelects (edge : Nat) (rising : Bool) : Bool := if rising then edge = 1 || edge = 3 else edge = 2 || edge = 3

/-- TIMER_CAPTURE (R349): from the capture consumer, which acts with the control field (the headland), or from a ball, which shows its level only
while the I/O field is powered (R24). -/
def execTimerCapture (t : Fin 24) (edge : Option Bool) (s : State) : Host.Outcome State Fault Refusal :=
  s.run fun d =>
    if !d.fieldOn 1 then d
    else match edge with
    | none => d.tmrCapture t
    | some up =>
      if d.fieldOn 6 && d.ballWith 5 t && capSelects (d.get (TMR_CTL t) TMR_CTL_CAPEDGE) up then d.tmrCapture t else d

/-- A start of a stopped timer: prescaler at 0, compares armed; a start of a running timer does nothing, and one that meets a stop in its cycle
leaves the timer stopped (R348). `ev`: an event starts it; two writes come one after the other. -/
def Dev.tmrStart (d : Dev) (t : Nat) (ev : Bool) : Dev :=
  let x := d.tmrOf t
  if d.flag (TMR_CTL t) TMR_CTL_RUN || x.evStop = d.clk.cyc + 1 || (ev && x.wrStop = d.clk.cyc + 1) then d
  else
    let d := d.put (TMR_CTL t) TMR_CTL_RUN 1
    let d := d.setTmr t { x with pre := 0 }
    d.tmrArm t none

/-- A stop (R348). -/
def Dev.tmrStop (d : Dev) (t : Nat) (ev : Bool) : Dev :=
  let x := d.tmrOf t
  (d.setTmr t (if ev then { x with evStop := d.clk.cyc + 1 } else { x with wrStop := d.clk.cyc + 1 })).put (TMR_CTL t) TMR_CTL_RUN 0

/-- A clear (R348); it raises no period end, and a tick of its cycle is lost. -/
def Dev.tmrClear (d : Dev) (t : Nat) : Dev :=
  let down := decide (d.get (TMR_CTL t) TMR_CTL_MODE = 1)
  let d := ((d.padDrive 6 t).tmrNote t).setTmrCount t (if down then d.tmrPeriod t else 0)
  let d := d.putB (TMR_STAT t) TMR_STAT_DIR down
  let d := d.setTmr t { d.tmrOf t with pre := 0, per := false }
  let d := d.tmrArm t none
  d.put (TMR_STAT t) TMR_STAT_OUT (d.get (TMR_CTL t) TMR_CTL_OUTINIT)

/-- A write to TMR_CTL (R345, R347, R348, R350, R355): while RUN is 1, MODE, PRESC and LFCONT keep their values; MODE 3 leaves
MODE; RUN starts or stops; a write that leaves RUN at 0 sets OUT to OUTINIT. -/
def Dev.tmrCtlWrite (d : Dev) (t : Nat) (v : Word) : Dev :=
  let a := TMR_CTL t
  let old := d.reg a
  let run := getF old TMR_CTL_RUN = 1
  let w := v &&& 0xFFFF0FFF
  let w := if getF v TMR_CTL_MODE = 3 then setF w TMR_CTL_MODE (getF old TMR_CTL_MODE) else w
  let w := if run then
      setF (setF (setF w TMR_CTL_MODE (getF old TMR_CTL_MODE)) TMR_CTL_PRESC (getF old TMR_CTL_PRESC)) TMR_CTL_LFCONT
        (getF old TMR_CTL_LFCONT)
    else w
  let d := d.setReg a (setF w TMR_CTL_RUN (getF old TMR_CTL_RUN))
  let d := d.putB (TMR_STAT t) TMR_STAT_DIR (d.tmrDown t)
  let d := d.setTmr t { d.tmrOf t with ctlWr := d.clk.cyc + 1 }
  if getF v TMR_CTL_RUN = 1 then d.tmrStart t false
  else
    let d := (d.tmrStop t false).padDrive 6 t
    d.put (TMR_STAT t) TMR_STAT_OUT (d.get a TMR_CTL_OUTINIT)

/-- TIMER_CONTROL_WRITE (R348). -/
def execTimerControlWrite (c : Fin 7) (t : Fin 24) (v : Word) (s : State) : Host.Outcome State Fault Refusal :=
  s.run fun d => d.byCore c (TMR_CTL t) true fun d => d.tmrCtlWrite t v

/-- A bit of TMR_GMASK. -/
def Dev.tmrMasked (d : Dev) (t : Nat) : Bool := (d.get TMR_GMASK TMR_GMASK_MASK).testBit t

/-- START of TMR_GCMD: the masked timers start (R348). -/
def Dev.tmrGroupStart (d : Dev) : Dev := (span 0 24).foldl (fun d t => if d.tmrMasked t then d.tmrStart t false else d) d

/-- STOP of TMR_GCMD: the masked timers stop (R348). -/
def Dev.tmrGroupStop (d : Dev) : Dev := (span 0 24).foldl (fun d t => if d.tmrMasked t then d.tmrStop t false else d) d

/-- TIMER_GROUP_START (R348). -/
def execTimerGroupStart (c : Fin 7) (s : State) : Host.Outcome State Fault Refusal :=
  s.run fun d => d.byCore c TMR_GCMD true fun d => d.tmrGroupStart

/-- TIMER_GROUP_STOP (R348). -/
def execTimerGroupStop (c : Fin 7) (s : State) : Host.Outcome State Fault Refusal :=
  s.run fun d => d.byCore c TMR_GCMD true fun d => d.tmrGroupStop

/-- The registers of a 48-bit value. -/
def tmrLoAddr (t : Nat) : TmrVal → Nat
  | .cnt => TMR_CNT_LO t
  | .per => TMR_PER_LO t
  | .cmp0 => TMR_CMP_LO t 0
  | .cmp1 => TMR_CMP_LO t 1

def tmrHiAddr (t : Nat) : TmrVal → Nat
  | .cnt => TMR_CNT_HI t
  | .per => TMR_PER_HI t
  | .cmp0 => TMR_CMP_HI t 0
  | .cmp1 => TMR_CMP_HI t 1

/-- The staged low word, and the state with none staged. -/
def TmrSt.staged (x : TmrSt) : TmrVal → Option Nat
  | .cnt => x.loCnt
  | .per => x.loPer
  | .cmp0 => x.lo0
  | .cmp1 => x.lo1

def TmrSt.stage (x : TmrSt) (k : TmrVal) (v : Option Nat) : TmrSt :=
  match k with
  | .cnt => { x with loCnt := v }
  | .per => { x with loPer := v }
  | .cmp0 => { x with lo0 := v }
  | .cmp1 => { x with lo1 := v }

/-- A write to a _LO register is staged (R350). -/
def Dev.tmrStage (d : Dev) (t : Nat) (k : TmrVal) (v : Word) : Dev :=
  d.setTmr t ((d.tmrOf t).stage k (some v.toNat))

/-- A write to a _HI register commits both halves (R350); a PERIOD outside 1 to 2^47 − 1 changes neither. A commit of a
compare arms it, and a commit of the count arms both (R346). -/
def Dev.tmrCommit (d : Dev) (t : Nat) (k : TmrVal) (v : Word) : Dev :=
  let lo := ((d.tmrOf t).staged k).getD (d.reg (tmrLoAddr t k)).toNat
  let n := lo + 2 ^ 32 * (v.toNat % 2 ^ 16)
  let d := d.setTmr t ((d.tmrOf t).stage k none)
  match k with
  | .per => if 1 ≤ n ∧ n < 2 ^ 47 then d.put48 (tmrLoAddr t k) (tmrHiAddr t k) n else d
  | .cnt =>
    let d := (d.tmrNote t).put48 (tmrLoAddr t k) (tmrHiAddr t k) n
    (d.setTmr t { d.tmrOf t with cntWr := d.clk.cyc + 1 }).tmrArm t none
  | .cmp0 =>
    let d := d.put48 (tmrLoAddr t k) (tmrHiAddr t k) n
    d.setTmr t { d.tmrOf t with arm0 := true }
  | .cmp1 =>
    let d := d.put48 (tmrLoAddr t k) (tmrHiAddr t k) n
    d.setTmr t { d.tmrOf t with arm1 := true }

/-- TIMER_COMMIT (R350). -/
def execTimerCommit (c : Fin 7) (t : Fin 24) (k : TmrVal) (v : Word) (s : State) : Host.Outcome State Fault Refusal :=
  s.run fun d => d.byCore c (tmrHiAddr t k) true fun d => d.tmrCommit t k v

/-- One kind of event within one low-frequency edge: the first fires, every further one counts in LFMERGE (R352). -/
def Dev.lfEvent (d : Dev) (t k : Nat) (fired : List Nat) : Dev × List Nat :=
  if fired.contains k then (d.count (TMR_CNT 1), fired) else (d.tmrEvent t k, k :: fired)

/-- `n` steps taken at one low-frequency edge (R352). -/
def Dev.lfSteps (d : Dev) (t : Nat) (fired : List Nat) : Nat → Dev
  | 0 => d
  | n + 1 =>
    if d.flag (TMR_CTL t) TMR_CTL_RUN then
      let r := d.tmrStep t
      let p := if r.2 then r.1.lfEvent t 0 fired else (r.1, fired)
      let q := if p.1.tmrCmpDue t 0 then (p.1.tmrDisarm t 0).lfEvent t 1 p.2 else p
      let u := if q.1.tmrCmpDue t 1 then (q.1.tmrDisarm t 1).lfEvent t 2 q.2 else q
      u.1.lfSteps t u.2 n
    else d

/-- The edge's RTC advance added to the prescaler remainder, and the steps it makes (R352). -/
def Dev.lfAdd (d : Dev) (t : Nat) : Dev :=
  let x := d.tmrOf t
  let q := d.get (TMR_CTL t) TMR_CTL_PRESC + 1
  let r := x.pre + d.clk.rtcAdv
  (d.setTmr t { x with pre := r % q }).lfSteps t [] (r / q)

/-- LF_EDGE_COUNT (R352, R353): the timer enters low-frequency counting at an edge, counts while it lasts and leaves it at an
edge; HALTFRZ takes precedence. -/
def execLfEdgeCount (t : Fin 24) (s : State) : Host.Outcome State Fault Refusal :=
  s.awake fun d =>
    if d.tmrFrozen t then d
    else
      let inLf := d.flag (TMR_STAT t) TMR_STAT_LFRUN
      let on := d.flag (TMR_CTL t) TMR_CTL_RUN
      let d := d.when (inLf && on) (fun d => d.lfAdd t)
      d.putB (TMR_STAT t) TMR_STAT_LFRUN (d.tmrLf t)

/-! ### Always-on timers (R356, R357) -/

def Dev.atOf (d : Dev) (t : Nat) : AtSt := sget AtSt.init d.aont t
def Dev.setAont (d : Dev) (t : Nat) (x : AtSt) : Dev := { d with aont := sset AtSt.init d.aont t x }

/-- AON_TIMER_WRITE (R357): the write pends until the next edge; a second one before it replaces the first. -/
def execAonTimerWrite (c : Fin 7) (t : Fin 8) (load : Bool) (v : Word) (s : State) : Host.Outcome State Fault Refusal :=
  s.run fun d => d.byCore c (if load then RTC_ATLOAD t else RTC_ATCTL t) true fun d =>
    let x := d.atOf t
    let d := d.setAont t (if load then { x with load := some v } else { x with ctl := some v })
    d.put (RTC_ATCTL t) RTC_ATCTL_PEND 1

/-- The fields that a pended write of RTC_ATCTL sets at its edge, RUN apart: EXPF clears on a 1, and a reserved GSTART leaves
that field (R366). -/
def Dev.atApply (d : Dev) (t : Nat) (v : Word) : Dev :=
  let a := RTC_ATCTL t
  let d := d.put a RTC_ATCTL_PERIODIC (getF v RTC_ATCTL_PERIODIC)
  let d := d.put a RTC_ATCTL_WAKE (getF v RTC_ATCTL_WAKE)
  let d := d.put a RTC_ATCTL_IE (getF v RTC_ATCTL_IE)
  let d := d.when (decide (getF v RTC_ATCTL_GSTART ≤ 8)) (fun d => d.put a RTC_ATCTL_GSTART (getF v RTC_ATCTL_GSTART))
  d.when (decide (getF v RTC_ATCTL_EXPF = 1)) (fun d => d.put a RTC_ATCTL_EXPF 0)

/-- AON_TIMER_EDGE (R356, R357): a running timer counts down and marks the expiry when it reaches 0, reloading LOAD under PERIODIC and stopping
without it; then the pended writes take effect, so that a written stop comes after the expiry and over a gated start. A start loads LOAD instead (a
start with LOAD 0 is ignored). -/
def execAonTimerEdge (t : Fin 8) (s : State) : Host.Outcome State Fault Refusal :=
  s.awake fun d =>
    let x := d.atOf t
    let a := RTC_ATCTL t
    let wrRun := match x.ctl with | none => false | some v => getF v RTC_ATCTL_RUN = 1
    let wrStop := match x.ctl with | none => false | some v => getF v RTC_ATCTL_RUN = 0
    let ld := x.load.getD (d.reg (RTC_ATLOAD t))
    let start := (wrRun || (x.start && !wrStop)) && decide (ld ≠ 0)
    let n := (d.reg (RTC_ATCNT t)).toNat
    let ends := d.flag a RTC_ATCTL_RUN && !start && n = 1
    let down : Dev :=
      if !d.flag a RTC_ATCTL_RUN || n = 0 then d
      else if n ≠ 1 then d.setReg (RTC_ATCNT t) (BitVec.ofNat 32 (n - 1))
      else if d.flag a RTC_ATCTL_PERIODIC then d.setReg (RTC_ATCNT t) (d.reg (RTC_ATLOAD t))
      else (d.setReg (RTC_ATCNT t) 0).put a RTC_ATCTL_RUN 0
    let e := if start then (d.setReg (RTC_ATCNT t) ld).put a RTC_ATCTL_RUN 1 else down
    let e := e.setAont t { AtSt.init with exp := x.exp || ends, wake := if ends then d.flag a RTC_ATCTL_WAKE else x.wake }
    let e := (e.setReg (RTC_ATLOAD t) ld).put a RTC_ATCTL_PEND 0
    let e := match x.ctl with | none => e | some v => e.atApply t v
    e.when wrStop (fun e => e.put a RTC_ATCTL_RUN 0)

/-- AON_TIMER_EXPIRY (R356): EXPF and the headland event of an expiry that its edge has marked. -/
def execAonTimerExpiry (t : Fin 8) (s : State) : Host.Outcome State Fault Refusal :=
  s.awake fun d =>
    let x := d.atOf t
    if x.exp then ((d.setAont t { x with exp := false }).put (RTC_ATCTL t) RTC_ATCTL_EXPF 1).hdlEvent (0x300 + t) else d

/-! ### The RTC time base (R358 to R360) -/

def Dev.rtcT (d : Dev) : Nat := d.pair RTC_T_LO RTC_T_HI

/-- RTC_T is locked to mesh time (R359). -/
def Dev.rtcLocks (d : Dev) : Bool :=
  d.fieldOn 4 && !d.flag CLK_STAT CLK_STAT_FALLBACK && d.flag RTC_CTL RTC_CTL_MESHLOCK && !d.flag FLD_STAT FLD_STAT_ACQ

/-- F applies only with COMPEN, CURVEOK and the crystal in use, after the first sample (R358). -/
def Dev.rtcFNow (d : Dev) : Int :=
  if d.flag RTC_CTL RTC_CTL_COMPEN && d.flag RTC_STAT RTC_STAT_CURVEOK && !d.flag CLK_STAT CLK_STAT_LFSUB && d.clk.tempOk
  then d.clk.rtcF else 0

/-- Days before a year since 2020-01-01 under the Gregorian rules. -/
def daysToYear (y : Nat) : Nat :=
  let n := y - 1
  365 * (y - 2020) + (n / 4 - n / 100 + n / 400) - (2019 / 4 - 2019 / 100 + 2019 / 400)

def leapYear (y : Nat) : Bool := y % 4 = 0 && (y % 100 ≠ 0 || y % 400 = 0)

/-- Days in a month. -/
def monthDays (y m : Nat) : Nat :=
  match m with
  | 2 => if leapYear y then 29 else 28
  | 4 => 30
  | 6 => 30
  | 9 => 30
  | 11 => 30
  | _ => 31

/-- Month and day from the day of the year, the months from `m` on. -/
def monthOf (y : Nat) : Nat → Nat → Nat → Nat × Nat
  | 0, m, dd => (m, dd + 1)
  | n + 1, m, dd => if dd < monthDays y m then (m, dd + 1) else monthOf y n (m + 1) (dd - monthDays y m)

/-- Year, month and day of a day number counted from 2020-01-01: a first estimate of the year and two corrections. -/
def dateOf (n : Nat) : Nat × Nat × Nat :=
  let y0 := 2020 + n * 400 / 146097
  let y1 := if daysToYear (y0 + 1) ≤ n then y0 + 1 else if n < daysToYear y0 then y0 - 1 else y0
  (y1, monthOf y1 11 1 (n - daysToYear y1))

/-- Day number of a date. -/
def dayNo (y m dd : Nat) : Nat := daysToYear y + ((span 1 (m - 1)).map (monthDays y)).foldl (· + ·) 0 + (dd - 1)

/-- The last second the calendar shows: 2399-12-31 23:59:59 (R361). -/
def calLast : Nat := daysToYear 2400 * 86400 - 1

/-- RTC_TIME of a second count: WDAY, hour, minute, second (R361). -/
def calTime (sec : Nat) : Word :=
  mkWord [(RTC_TIME_WDAY, (sec / 86400 + 2) % 7 + 1), (RTC_TIME_HOUR, toBcd 2 (sec % 86400 / 3600)),
    (RTC_TIME_MIN, toBcd 2 (sec % 3600 / 60)), (RTC_TIME_SEC, toBcd 2 (sec % 60))]

/-- RTC_DATE of a second count. -/
def calDate (sec : Nat) : Word :=
  let r := dateOf (sec / 86400)
  mkWord [(RTC_DATE_YEAR, toBcd 4 r.1), (RTC_DATE_MONTH, toBcd 2 r.2.1), (RTC_DATE_DAY, toBcd 2 r.2.2)]

/-- K of R361. -/
def Dev.calK (d : Dev) : Nat := (d.rtcT + d.pair RTC_CALOFS_LO RTC_CALOFS_HI) % 2 ^ 64

/-- The seconds the calendar shows, held at its last value. -/
def Dev.calSec (d : Dev) : Nat := min (d.calK / 122880000) calLast

/-- The calendar registers follow K (R361), unless the calendar is halted. -/
def Dev.calShow (d : Dev) : Dev :=
  if d.flag RTC_STAT RTC_STAT_HALTED then d
  else
    let k := d.calK
    let out := decide (k / 122880000 > calLast)
    let d := d.put RTC_SUB RTC_SUB_SUB (if out then 32767 else k % 122880000 / 3750)
    let d := (d.setReg RTC_TIME (calTime d.calSec)).setReg RTC_DATE (calDate d.calSec)
    d.putB RTC_STAT RTC_STAT_RANGE out

/-- What ACCPPM of a compensated crystal is from this sample on; the one case that R360 leaves out, a temperature that moves too fast, is a free
value. -/
def Dev.accSample (d : Dev) (slow : Bool) : Dev :=
  if slow then { d with clk := { d.clk with accComp := 3 } }
  else { d.free.2 with clk := { d.free.2.clk with accComp := d.free.1.toNat % 256 } }

/-- While FALLBACK is 1, mesh time follows RTC_T at each edge without stepping back (R359). -/
def Dev.meshFollow (d : Dev) : Dev :=
  if (d.flag CLK_STAT CLK_STAT_FALLBACK || d.clk.meshHold) && d.fieldOn 4 then
    if atOrPast d.rtcT d.meshNow then
      { d with clk := { d.clk with mesh := BitVec.ofNat 64 d.rtcT, meshHold := false } }
    else { d with clk := { d.clk with meshHold := true } }
  else d

/-- RTC_EDGE (R358, R359, R361, R424): RTC_T takes mesh time while locked, else advances by 3,750 + F with the fraction carried. -/
def execRtcEdge (s : State) : Host.Outcome State Fault Refusal :=
  s.awake fun d =>
    let lk := d.rtcLocks
    let sum := (d.clk.rtcFrac : Int) + d.rtcFNow
    let adv := (3750 + sum / (2 ^ 32 : Nat)).toNat
    let d := { d with clk := { d.clk with rtcFrac := (sum % (2 ^ 32 : Nat)).toNat, rtcAdv := adv } }
    let d := d.setPair RTC_T_LO RTC_T_HI (if lk then d.meshNow else (d.rtcT + adv) % 2 ^ 64)
    let d := d.putB RTC_STAT RTC_STAT_LOCKED lk
    let d : Dev := { d with svc := { d.svc with confN := d.svc.confN + 1 } }
    d.meshFollow.calShow

/-- The curve entry at −45 + 5i °C, in 1/128 ppm. -/
def Dev.curve (d : Dev) (i : Nat) : Int := sext 16 (d.get (RTC_CURVE i) RTC_CURVE_ERR)

/-- Eighty times e of R358 at a temperature in 1/16 °C: linear interpolation, clamped to the end entries. -/
def Dev.curve80 (d : Dev) (t : Int) : Int :=
  let o := clampI 0 2560 (t + 720)
  let i := o.toNat / 80
  if i ≥ 32 then 80 * d.curve 32
  else 80 * d.curve i + (d.curve (i + 1) - d.curve i) * (o - 80 * (i : Int))

/-- e and F of R358 at the last measured temperature, from the curve as it stands: both round down (log entry 8). -/
def Dev.rtcComp (d : Dev) : Dev :=
  let e80 := d.curve80 (sext 16 (d.get RTC_STAT RTC_STAT_TEMP))
  Dev.put { d with clk := { d.clk with rtcF := -(3750 * e80 * (2 ^ 32 : Nat)) / 10240000000 } } RTC_CORR RTC_CORR_ERR (twos 16 (e80 / 80))

/-- RTC_TEMP_SAMPLE (R358, R360): TEMP, e, F and ACCPPM. -/
def execRtcTempSample (temp : BitVec 16) (s : State) : Host.Outcome State Fault Refusal :=
  s.awake fun d =>
    let old := sext 16 (d.get RTC_STAT RTC_STAT_TEMP)
    let slow := !d.clk.tempOk || decide ((temp.toInt - old).natAbs * 60 ≤ 32 * 2 ^ d.get RTC_CTL RTC_CTL_COMPINT)
    let d := { d with clk := { d.clk with tempOk := true } }
    (d.put RTC_STAT RTC_STAT_TEMP temp.toNat).rtcComp.accSample slow

/-! ### Calendar, alarm and tick (R362 to R364) -/

/-- CALENDAR_FREEZE (R362): SUB is read, and TIME and DATE of the same instant go into the core's shadow. -/
def execCalendarFreeze (c : Fin 7) (s : State) : Host.Outcome State Fault Refusal :=
  s.run fun d => d.byCore c RTC_SUB false fun d =>
    { d.setCore c { d.core c with cal := some (d.reg RTC_TIME, d.reg RTC_DATE) } with rdata := d.reg RTC_SUB }

/-- CALENDAR_HALT (R363): with HALT written 1, HALTED reads 1 from the edge and the calendar holds. -/
def execCalendarHalt (s : State) : Host.Outcome State Fault Refusal :=
  s.awake fun d => if d.flag RTC_CTL RTC_CTL_HALT then d.put RTC_STAT RTC_STAT_HALTED 1 else d

/-- A time word the calendar takes: decimal digits, not past 23:59:59. -/
def timeOk (v : Word) : Bool :=
  isBcd 6 (v.toNat % 2 ^ 24) && decide (ofBcd 2 (getF v RTC_TIME_HOUR) ≤ 23) && decide (ofBcd 2 (getF v RTC_TIME_MIN) ≤ 59)
    && decide (ofBcd 2 (getF v RTC_TIME_SEC) ≤ 59)

/-- A date word the calendar takes: decimal digits, a date that exists, a year 2020 to 2399. -/
def dateOk (v : Word) : Bool :=
  let y := ofBcd 4 (getF v RTC_DATE_YEAR)
  let m := ofBcd 2 (getF v RTC_DATE_MONTH)
  let n := ofBcd 2 (getF v RTC_DATE_DAY)
  isBcd 8 v.toNat && decide (2020 ≤ y ∧ y ≤ 2399 ∧ 1 ≤ m ∧ m ≤ 12 ∧ 1 ≤ n ∧ n ≤ monthDays y m)

/-- A write to RTC_TIME or RTC_DATE: taken while halted and valid, else ignored with BADSET (R363). -/
def Dev.calWrite (d : Dev) (date : Bool) (v : Word) : Dev :=
  if d.flag RTC_STAT RTC_STAT_HALTED && (if date then dateOk v else timeOk v) then
    if date then d.setReg RTC_DATE v
    else d.setReg RTC_TIME (setF (v &&& 0x00FFFFFF) RTC_TIME_WDAY (d.get RTC_TIME RTC_TIME_WDAY))
  else d.put RTC_STAT RTC_STAT_BADSET 1

/-- CALENDAR_WRITE (R363). -/
def execCalendarWrite (c : Fin 7) (date : Bool) (v : Word) (s : State) : Host.Outcome State Fault Refusal :=
  s.run fun d => d.byCore c (if date then RTC_DATE else RTC_TIME) true fun d => d.calWrite date v

/-- The second that RTC_DATE and RTC_TIME name. -/
def secOfWords (date time : Word) : Nat :=
  dayNo (ofBcd 4 (getF date RTC_DATE_YEAR)) (ofBcd 2 (getF date RTC_DATE_MONTH)) (ofBcd 2 (getF date RTC_DATE_DAY)) * 86400
    + ofBcd 2 (getF time RTC_TIME_HOUR) * 3600 + ofBcd 2 (getF time RTC_TIME_MIN) * 60 + ofBcd 2 (getF time RTC_TIME_SEC)

/-- CALENDAR_RESUME (R363): with HALT written 0, CALOFS takes the written instant minus RTC_T and the calendar resumes. -/
def execCalendarResume (s : State) : Host.Outcome State Fault Refusal :=
  s.awake fun d =>
    if d.flag RTC_STAT RTC_STAT_HALTED && !d.flag RTC_CTL RTC_CTL_HALT then
      let k := secOfWords (d.reg RTC_DATE) (d.reg RTC_TIME) * 122880000
      let d := d.setPair RTC_CALOFS_LO RTC_CALOFS_HI ((k + 2 ^ 64 - d.rtcT) % 2 ^ 64)
      let d := { d with clk := { d.clk with lastK := d.calK } }
      (d.put RTC_STAT RTC_STAT_HALTED 0).calShow
    else d

/-- The decimal number YYYYMMDDhhmmss of a date and a time word. -/
def calNumber (date time : Word) : Nat := ofBcd 8 date.toNat * 1000000 + ofBcd 6 (time.toNat % 2 ^ 24)

/-- RTC_ALARM (R364). -/
def execRtcAlarm (s : State) : Host.Outcome State Fault Refusal :=
  s.awake fun d =>
    if d.flag RTC_CTL RTC_CTL_ALEN && !d.flag RTC_STAT RTC_STAT_HALTED
        && decide (calNumber (d.reg RTC_ALDATE) (d.reg RTC_ALTIME) ≤ calNumber (d.reg RTC_DATE) (d.reg RTC_TIME)) then
      ((d.put RTC_CTL RTC_CTL_ALEN 0).put RTC_STAT RTC_STAT_ALARMF 1).hdlEvent 0x308
    else d

/-- Ticks of the unit TICKSEL selects, 0 for off and the reserved codes. -/
def tickUnit : Nat → Nat
  | 1 => 1920000
  | 2 => 122880000
  | 3 => 7372800000
  | 4 => 442368000000
  | 5 => 10616832000000
  | _ => 0

/-- RTC_TICK (R364): TICKF when the calendar, which holds at its last value, has crossed a boundary forward since the last judgement. -/
def execRtcTick (s : State) : Host.Outcome State Fault Refusal :=
  s.awake fun d =>
    if d.flag RTC_STAT RTC_STAT_HALTED then d
    else
      let u := tickUnit (d.get RTC_CTL RTC_CTL_TICKSEL)
      let k := min d.calK (calLast * 122880000 + 122879999)
      let hit := decide (u ≠ 0 ∧ d.clk.lastK / u < k / u)
      let d := { d with clk := { d.clk with lastK := k } }
      d.when hit (fun d => (d.put RTC_STAT RTC_STAT_TICKF 1).hdlEvent 0x309)

end Sys2Proof.Machine
end

