-- ==== Sys2Proof/Machine/Calib.lean ====
section
/-! DEFINITION. Calibration and trimming (chapter 20): receive corrections, synthesiser measurements, the records of bank 2. -/

namespace Sys2Proof.Machine

/-- Calibrations run (R377): no FALLBACK, the RF die reachable, the control field powered. -/
def Dev.calOk (d : Dev) : Bool := !d.flag CLK_STAT CLK_STAT_FALLBACK && !d.pwr.rfIso && d.fieldOn 1

/-- New work is taken: the records have been read (R385), and CALM has not agreed to a power state (R371). -/
def Dev.calFresh (d : Dev) : Bool := d.calOk && d.cal.loaded && !d.rests 24

/-! ### Receive corrections (R379 to R381) -/

/-- A correction of kind `i` (0 RXDC, 1 RXIQ, 2 RXGAIN) of chain `c` becomes pending; a newer one replaces it. -/
def Dev.calPend (d : Dev) (c i : Nat) : Dev :=
  let a := CAL_CHSTAT c
  let d := d.put a CAL_CHSTAT_PEND (d.get a CAL_CHSTAT_PEND ||| 2 ^ i)
  let d := d.put a CAL_CHSTAT_STALE 1
  if i = 2 then
    let t := sext 16 (d.get CAL_TEMP CAL_TEMP_TEMP)
    { d with cal := { d.cal with gainP := sset none d.cal.gainP c (some t) } }
  else d

/-- RXGAIN runs for a chain: READY, with the temperature 2 °C or more from that of the correction in force. -/
def Dev.gainDue (d : Dev) (c : Nat) : Bool :=
  d.rxReady c && d.calSeen &&
    match sget none d.cal.gainT c with
    | none => true
    | some t => decide (32 ≤ (sext 16 (d.get CAL_TEMP CAL_TEMP_TEMP) - t).natAbs)

/-- CORRECTION_COMPUTE (R377, R379, R381): RXDC and RXIQ while the chain is READY and not blanked, RXGAIN by temperature. -/
def execCorrectionCompute (c : Fin 4) (i : Fin 3) (s : State) : Host.Outcome State Fault Refusal :=
  s.run fun d =>
    let run := if i.val = 2 then d.gainDue c else d.rxReady c && !d.flag (RFC_RXSTAT c) RFC_RXSTAT_BLANKED
    if d.calFresh && run then d.calPend c i else d

/-- A unit that keeps chain `c` from being quiet: past its sync word, with the chain's samples (R379). -/
def Dev.unquiet (d : Dev) (c : Nat) (p : Nat × Rcv) : Bool :=
  let on := if isSc p.1 then d.stripChain (p.1 / 64) == c
    else d.get (RFC_MCTAP (p.1 - 1024)) RFC_MCTAP_CHAIN == c
  on && (p.2.state == rsHDR || p.2.state == rsADDR || p.2.state == rsCOMMITTED)

/-- Chain `c` is quiet (R379). -/
def Dev.quiet (d : Dev) (c : Nat) : Bool :=
  !d.rcv.any (d.unquiet c) && (span 0 32).all (fun n => !((d.slotOf n).chain == c && d.recording n))

/-- The pending corrections of a chain apply together. -/
def Dev.calApply (d : Dev) (c : Nat) : Dev :=
  let p := d.get (CAL_CHSTAT c) CAL_CHSTAT_PEND
  let d := (span 0 3).foldl (fun d i => d.when (p.testBit i) (fun d => d.calRun (4 * i + c))) d
  let d := if p.testBit 2 then
      { d with cal := { d.cal with gainT := sset none d.cal.gainT c (sget none d.cal.gainP c), gainP := sset none d.cal.gainP c none } }
    else d
  (d.put (CAL_CHSTAT c) CAL_CHSTAT_PEND 0).put (CAL_CHSTAT c) CAL_CHSTAT_STALE 0

/-- CORRECTION_APPLY (R379). -/
def execCorrectionApply (c : Fin 4) (s : State) : Host.Outcome State Fault Refusal :=
  s.run fun d => if d.calOk && d.get (CAL_CHSTAT c) CAL_CHSTAT_PEND != 0 && d.quiet c then d.calApply c else d

/-- CORRECTION_FORCED (R380): the correction of kind `i` has been pending 2 s. -/
def execCorrectionForced (c : Fin 4) (i : Fin 3) (s : State) : Host.Outcome State Fault Refusal :=
  s.run fun d =>
    if d.calOk && (d.get (CAL_CHSTAT c) CAL_CHSTAT_PEND).testBit i then
      let d := d.slotStep c
      let d := { d with rcv := d.rcv.map (fun (p : Nat × Rcv) => if d.unquiet c p then (p.1, { p.2 with cal := true }) else p) }
      let d := (d.count (CAL_FORCE c)).put CAL_STAT CAL_STAT_FORCED 1
      let d := d.report 24 (4 * i.val + c.val) 1 (d.reg CAL_TEMP) []
      d.calApply c
    else d

/-! ### Temperature (R378, R383) -/

/-- STALE of an entry judged against the reading `t` (R85); an entry measured before the first reading takes that as its own. -/
def Dev.staleJudge (d : Dev) (t : Int) (c i : Nat) : Dev :=
  let a := SYN_CALF c i
  if d.flag a SYN_CALF_VALID then
    match sget none d.cal.measT (256 * c + i) with
    | none => { d with cal := { d.cal with measT := sset none d.cal.measT (256 * c + i) (some t) } }
    | some m => if 320 < (t - m).natAbs then d.put a SYN_CALF_STALE 1 else d
  else d

/-- CAL_TEMP_SAMPLE (R378, R85, R383): the reading, STALE, the gain corrections and the DRV corrections. -/
def execCalTempSample (temp : BitVec 16) (s : State) : Host.Outcome State Fault Refusal :=
  s.run fun d =>
    if d.pwr.rfIso || !d.fieldOn 1 then d
    else
      let d := { d.put CAL_TEMP CAL_TEMP_TEMP temp.toNat with calSeen := true }
      let d := (span 0 2).foldl (fun d c => (span 0 256).foldl (fun d i => d.staleJudge temp.toInt c i) d) d
      if d.calOk then
        let d := (span 0 4).foldl (fun d c => d.when (d.gainDue c) (fun d => d.calPend c 2)) d
        let d := { d with cal := { d.cal with drvT := some temp.toNat } }
        (d.calRun 18).calRun 19
      else d

/-! ### Transmit synthesisers (R382) -/

/-- The entry measured next: the lowest queued, else, under AUTOSYN, the lowest STALE one. -/
def Dev.synNext (d : Dev) (t : Nat) : Option Nat :=
  match (span 0 256).find? (fun i => d.calQ.contains (256 * t + i)) with
  | some i => some i
  | none =>
    if d.flag CAL_CTL CAL_CTL_AUTOSYN then (span 0 256).find? (fun i => d.flag (SYN_CALF t i) SYN_CALF_STALE) else none

/-- TXSYN_MEASURE_START (R382). -/
def execTxsynMeasureStart (t : Fin 2) (s : State) : Host.Outcome State Fault Refusal :=
  s.run fun d =>
    if d.calFresh && (d.txOf t).isNone && (sget none d.calMeas t).isNone then
      match d.synNext t with
      | none => d
      | some i => ({ d with calMeas := sset none d.calMeas t (some i) }).put (SYN_STAT t) SYN_STAT_ENTRY i
    else d

/-- TXSYN_MEASURE_END (R382): the codes, whose layout is internal, are stored, or SYNFAIL is set. While no calibration runs (R377) the measurement is
abandoned. -/
def execTxsynMeasureEnd (t : Fin 2) (locked : Bool) (s : State) : Host.Outcome State Fault Refusal :=
  s.run fun d =>
    match sget none d.calMeas t with
    | none => d
    | some i =>
      if !d.calOk then d.calAbandon t else
      let key := 256 * t.val + i
      let d := { d with calMeas := sset none d.calMeas t none, calQ := d.calQ.filter (· ≠ key) }
      let d := (d.put (SYN_STAT t) SYN_STAT_LOCK 0).calRun (16 + t)
      if locked then
        let a := SYN_CALF t i
        let code := Config.synCodes t i (d.get a SYN_CALF_FREQ_KHZ) d.freeCtr
        let d := { d with freeCtr := d.freeCtr + 1 }
        let d := ((d.setReg (SYN_CALC t i) code).put a SYN_CALF_VALID 1).put a SYN_CALF_STALE 0
        let m := if d.calSeen then some (sext 16 (d.get CAL_TEMP CAL_TEMP_TEMP)) else none
        let l := d.cal.dirty.filter (· ≠ t.val)
        { d with cal := { d.cal with measT := sset none d.cal.measT key m, dirty := l ++ [t.val] } }
      else (d.put CAL_STAT CAL_STAT_SYNFAIL 1).report 24 (16 + t.val) 2 (d.reg CAL_TEMP) []

/-- Every VALID entry of a chain is queued (RECAL, R377); one marked BAD is not calibrated (R85). -/
def Dev.calRequeue (d : Dev) (t : Nat) : Dev :=
  (span 0 256).foldl (fun d i =>
    d.when (d.flag (SYN_CALF t i) SYN_CALF_VALID && !d.flag (SYN_CALF t i) SYN_CALF_BAD) (fun d => d.calEnqueue t i)) d

/-! ### Records of bank 2 (R384 to R386) -/

/-- Full-view address of a sector of bank 2. -/
def bank2 (s : Nat) : Nat := flashFull + 0x01000000 + 4096 * s

/-- First sector of the copies of a kind (Table 20.2). -/
def calSector (k : Nat) : Nat := if k = 1 then 17 else 14 + 2 * k

/-- Bytes of a body; 0 for TRIM, whose layout is internal. -/
def calLen (k : Nat) : Nat := if k = 2 then 66 else if k = 1 then 0 else 2048

/-- A record of a kind (R384). -/
def calRecord (k seq : Nat) (body : List Byte) : List Byte :=
  let h : List Byte := [0x43, 0x4C] ++ leBytes 1 k ++ [1] ++ leBytes 4 seq ++ leBytes 4 body.length ++ [0, 0, 0, 0]
  let n := h.length + body.length
  h ++ body ++ List.replicate ((16 - (n + 4) % 16) % 16) 0 ++ leBytes 4 (crc32 (h ++ body))

/-- The copy in a sector is good: its SEQ and body (R384). -/
def Dev.calCopy (d : Dev) (k s : Nat) : Option (Nat × List Byte) :=
  let a := bank2 s
  let len := d.load (a + 8) 4
  let n := (16 + len + 4 + 15) / 16
  let sound := (span 0 n).all (fun i => sget 0 d.flWeak (a / 16 + i) == 0 && decide ((sget [] d.flErr (a / 16 + i)).length ≤ 2))
  if d.byte a = 0x43 ∧ d.byte (a + 1) = 0x4C ∧ (d.byte (a + 2)).toNat = k ∧ (k = 1 ∨ len = calLen k) ∧ len ≤ 4076 ∧ sound
      ∧ d.load (a + 16 * n - 4) 4 = crc32 (d.bytes a (16 + len)) then
    some (d.load (a + 4) 4, d.bytes (a + 16) len)
  else none

/-- The good copy of a kind with the highest SEQ: sector, SEQ, body. -/
def Dev.calBest (d : Dev) (k : Nat) : Option (Nat × Nat × List Byte) :=
  let s := calSector k
  match d.calCopy k s, (if k = 1 then none else d.calCopy k (s + 1)) with
  | some x, some y => if x.1 < y.1 then some (s + 1, y) else some (s, x)
  | some x, none => some (s, x)
  | none, some y => some (s + 1, y)
  | none, none => none

/-- A kind without a good copy: STOREBAD and its entry (R385). -/
def Dev.storeBad (d : Dev) (unit : Nat) : Dev :=
  (d.put CAL_STAT CAL_STAT_STOREBAD 1).reportNext 24 unit 3 (d.reg CAL_TEMP) []

/-- One entry of a SYN body restored as it was stored, with VALID set (R385; log entry 170); STALE waits for the first reading, and the temperature the
entry was measured at is not in the record's stated fields and is free. -/
def Dev.synRestore (d : Dev) (t i : Nat) (b : List Byte) : Dev :=
  let f := d.free
  let d := f.2.setReg (SYN_CALF t i) (setF (setF (BitVec.ofNat 32 (u32 b (8 * i))) SYN_CALF_VALID 1) SYN_CALF_STALE 0)
  let d := d.setReg (SYN_CALC t i) (BitVec.ofNat 32 (u32 b (8 * i + 4)))
  { d with cal := { d.cal with measT := sset none d.cal.measT (256 * t + i) (some (sext 16 f.1.toNat)) } }

/-- The kind's copy in use noted. -/
def Dev.calUsed (d : Dev) (k : Nat) (x : Option (Nat × Nat)) : Dev := { d with cal := { d.cal with use := sset none d.cal.use k x } }

/-- The records are read (R385). -/
def Dev.calLoad (d : Dev) : Dev :=
  let d : Dev := { d with cal := { d.cal with loaded := true } }
  let d := match d.calBest 1 with
    | none => (d.put CAL_STAT CAL_STAT_TRIMBAD 1).storeBad 21
    | some _ => d
  let d := match d.calBest 2 with
    | none => if d.flag RTC_STAT RTC_STAT_CURVEOK then d else d.storeBad 20
    | some (s, q, b) =>
      let d := d.calUsed 2 (some (s, q))
      if d.flag RTC_STAT RTC_STAT_CURVEOK then d
      else
        let d := (span 0 33).foldl (fun d i => d.put (RTC_CURVE i) RTC_CURVE_ERR (u16 b (2 * i))) d
        let d := (d.put RTC_STAT RTC_STAT_CURVEOK 1).calRun 20
        d.when d.clk.tempOk Dev.rtcComp
  (span 0 2).foldl (fun d t =>
    match d.calBest (3 + t) with
    | none => d.storeBad 21
    | some (s, q, b) => (span 0 256).foldl (fun d i => d.synRestore t i b) (d.calUsed (3 + t) (some (s, q)))) d

/-- CALIBRATION_LOAD (R385): once after each system reset, when calibrations run (R377); the chains that were asked to power up meanwhile do now. -/
def execCalibrationLoad (s : State) : Host.Outcome State Fault Refusal :=
  s.run fun d =>
    if d.cal.loaded || !d.calOk then d
    else (span 0 4).foldl (fun d c => d.when (d.flag (RFC_RXCTL c) RFC_RXCTL_ON) (fun d => d.rxOn c)) d.calLoad

/-- 60 s have passed since the last store of kind `k`; they have where none came since the system reset (DESIGN CHOICE, log entry 148). -/
def Dev.saveAged (d : Dev) (k : Nat) : Bool := match sget none d.cal.saved k with
  | none => true
  | some t => decide (t + 7372800000 ≤ d.clk.cyc)

/-- A store of kind `k` is due (R386): the curve where it is commanded, a SYN copy with an entry measured since its last store, commanded or by AUTOSAVE,
60 s old. -/
def Dev.storeDue (d : Dev) (k : Nat) : Bool :=
  if k < 3 then d.cal.due.contains k
  else d.cal.dirty.contains (k - 3) && (d.cal.due.contains k || (d.flag CAL_CTL CAL_CTL_AUTOSAVE && d.saveAged k))

/-- The sector a new copy goes to and its SEQ. -/
def Dev.storeAt (d : Dev) (k : Nat) : Nat × Nat :=
  let s := calSector k
  match sget none d.cal.use k with
  | none => (s, 1)
  | some (x, q) => (if x = s then s + 1 else s, (q + 1) % 2 ^ 32)

/-- CAL_STORE (R386, R387): the other copy's sector is erased, which makes bank 2 busy; with SLOW the store waits. -/
def execCalStore (k : Fin 3) (s : State) : Host.Outcome State Fault Refusal :=
  s.run fun d =>
    if d.storeDue (2 + k) && d.cal.store.isNone && !d.flag PWR_SUPPLY PWR_SUPPLY_SLOW && !d.bankBusy 2 && d.calFresh then
      let a := bank2 (d.storeAt (2 + k)).1
      let d := (d.setFlagCell a true).eraseSector a
      let d := { d with cal := { d.cal with store := some (2 + k.val), due := d.cal.due.filter (· ≠ 2 + k.val) } }
      (d.put CAL_STAT CAL_STAT_BUSY 1).engBegin 2
    else d

/-- Body of a record from the registers. -/
def Dev.calBody (d : Dev) (k : Nat) : List Byte :=
  if k = 2 then (span 0 33).flatMap (fun i => leBytes 2 (d.get (RTC_CURVE i) RTC_CURVE_ERR))
  else (span 0 256).flatMap (fun i => leBytes 4 (d.reg (SYN_CALF (k - 3) i)).toNat ++ leBytes 4 (d.reg (SYN_CALC (k - 3) i)).toNat)

/-- Words programmed one after another; `ok` tells whether the last one, the check word, verifies. -/
def Dev.progWords (d : Dev) (a : Nat) (ok : Bool) : List (List Byte) → Dev
  | [] => d
  | w :: r => (d.progVerify a w (ok || !r.isEmpty)).progWords (a + 16) ok r

/-- CAL_STORE_END (R386): the record is programmed and verified; a failed one leaves the copy before it in use. -/
def execCalStoreEnd (ok : Bool) (s : State) : Host.Outcome State Fault Refusal :=
  s.run fun d =>
    match d.cal.store with
    | none => d
    | some k =>
      let p := d.storeAt k
      let r := calRecord k p.2 (d.calBody k)
      let d := (d.setFlagCell (bank2 p.1) false).progWords (bank2 p.1) ok (pieces 16 r (r.length / 16))
      let d := { d with cal := { d.cal with store := none } }
      let d := (d.put CAL_STAT CAL_STAT_BUSY 0).engEnd 2
      if ok then
        let d := (d.calUsed k (some p)).calRun 21
        let d : Dev := { d with cal := { d.cal with saved := sset none d.cal.saved k (some d.clk.cyc) } }
        if k = 2 then (d.put RTC_STAT RTC_STAT_CURVEOK 1).calRun 20
        else { d with cal := { d.cal with dirty := d.cal.dirty.filter (· ≠ k - 3), due := d.cal.due.filter (· ≠ k) } }
      else d

/-- A store cut by a power loss or a reset of the flash die: during its erase, or during its programs. -/
def Dev.calCut (d : Dev) : Dev :=
  match d.cal.store with
  | none => d
  | some k =>
    let f := d.free
    let p := f.2.storeAt k
    let d := if f.1.getLsbD 0 then (f.2.setFlagCell (bank2 p.1) false).wordsCut (bank2 p.1) (calRecord k p.2 (f.2.calBody k)) else f.2
    ({ d with cal := { d.cal with store := none } }.put CAL_STAT CAL_STAT_BUSY 0).engEnd 2

/-! ### CAL_CMD (R389) -/

/-- A store commanded. -/
def Dev.calAsk (d : Dev) (k : Nat) : Dev :=
  { d with cal := { d.cal with due := d.cal.due.filter (· ≠ k) ++ [k] } }

/-- The operation of a write to CAL_CMD with its key: 1 SAVECURVE, 2 SAVESYN (only with an entry measured since the last store), 3
RECAL. -/
def Dev.calCmd (d : Dev) (op t : Nat) : Dev :=
  match op with
  | 1 => d.calAsk 2
  | 2 => d.when (d.cal.dirty.contains t) (fun d => d.calAsk (3 + t))
  | 3 => d.calRequeue t
  | _ => d

/-- SAVECURVE (R386). -/
def execSavecurve (c : Fin 7) (s : State) : Host.Outcome State Fault Refusal :=
  s.ask (.savecurve c) CAL_CMD fun d => d.byCore c CAL_CMD true fun d => d.calCmd 1 0

/-- SAVESYN (R386). -/
def execSavesyn (c : Fin 7) (t : Fin 2) (s : State) : Host.Outcome State Fault Refusal :=
  s.ask (.savesyn c t) CAL_CMD fun d => d.byCore c CAL_CMD true fun d => d.calCmd 2 t

/-- RECAL (R389). -/
def execRecal (c : Fin 7) (t : Fin 2) (s : State) : Host.Outcome State Fault Refusal :=
  s.ask (.recal c t) CAL_CMD fun d => d.byCore c CAL_CMD true fun d => d.calCmd 3 t

end Sys2Proof.Machine
end

