-- ==== Sys2Proof/Machine/Cipher.lean ====
section
/-! DEFINITION. The AES engines' firmware jobs and the SHA-256 contexts (R234 to R240). -/

namespace Sys2Proof.Machine

/-! ### AES jobs (R236 to R238) -/

/-- Job status (Table 11.10). -/
def jsOK : Nat := 1
def jsTAGFAIL : Nat := 2
def jsBADDESC : Nat := 3
def jsNOKEY : Nat := 4
def jsDENIED : Nat := 5
def jsBUSFAULT : Nat := 8

/-- AES_JOB_SUBMIT (R236): the write is ignored and counted where the core has 8 jobs outstanding. -/
def execAesJobSubmit (c : Fin 7) (v : Word) (s : State) : Host.Outcome State Fault Refusal :=
  s.ask (.aesJobSubmit c v) AES_SUB fun d => d.byCore c AES_SUB true fun d =>
    if 8 ≤ (d.aesJobs.filter (fun j => j.core == c.val)).length then d.count (AES_CNT 3)
    else
      let j : AesJob := { id := d.aesSeq, core := c, addr := v.toNat / 32 * 32, engine := none, slot := 0, status := 0, writes := [], fault := none, left := 0, live := false }
      { d with aesJobs := d.aesJobs ++ [j], aesSeq := d.aesSeq + 1 }

/-- TAGLEN is permitted for the operation (Table 11.9). -/
def tagLenOk (op n : Nat) : Bool :=
  match op with
  | 1 => n == 0
  | 2 | 3 => n == 0 || n == 4 || n == 8 || n == 16
  | 4 | 5 => n == 12 || n == 16
  | _ => decide (4 ≤ n ∧ n ≤ 16)

/-- A job descriptor lies within its limits. -/
def jobOk (b : List Byte) : Bool :=
  let op := u8 b 0
  let len := u32 b 0x18
  let aad := u16 b 0x1C
  decide (1 ≤ op ∧ op ≤ 7) && decide (u8 b 1 ≤ 254) && tagLenOk op (u8 b 2) && decide (u8 b 3 ≤ 1)
    && decide (len ≤ (if op = 2 ∨ op = 3 then 65535 else 16777216)) && decide (aad ≤ 65279)
    && (aad == 0 || !(op == 1 || op == 6 || op == 7)) && u8 b 0x1E == 0

/-- The operation encrypts or generates a tag. -/
def jobCharges (op : Nat) : Bool := op == 1 || op == 2 || op == 4 || op == 6

/-- Bytes of a nonce: none for CMAC. -/
def nonceLen (op : Nat) : Nat := if op = 1 then 16 else if op = 2 ∨ op = 3 then 13 else if op ≤ 5 then 12 else 0

/-- The nonce a device-formed use takes (Table 11.11). -/
def Dev.formNonce (d : Dev) (op tagLen used : Nat) : List Byte :=
  let base := beBytes 8 d.devuid ++ beBytes 4 used
  if op = 1 then base ++ [0, 0, 0, 1]
  else if op = 2 then base ++ [BitVec.ofNat 8 (if tagLen = 0 then 4 else if tagLen = 4 then 5 else if tagLen = 8 then 6 else 7)]
  else base

/-- What a job's status and outputs are, once it has been admitted. -/
def jobRun (key : List Byte) (op tagLen : Nat) (nonce aad src tag : List Byte) : Nat × List Byte × List Byte :=
  match op with
  | 1 => (jsOK, ctrMode key 4 nonce src, [])
  | 2 => (jsOK, ccmCrypt key nonce src, ccmTag key nonce aad src tagLen)
  | 3 => let p := ccmCrypt key nonce src
         if ccmTag key nonce aad p tagLen = tag then (jsOK, p, []) else (jsTAGFAIL, [], [])
  | 4 => let ct := gcmCrypt key nonce src
         (jsOK, ct, gcmTag key nonce aad ct tagLen)
  | 5 => if gcmTag key nonce aad src tagLen = tag then (jsOK, gcmCrypt key nonce src, []) else (jsTAGFAIL, [], [])
  | 6 => (jsOK, [], (cmac key src).take tagLen)
  | _ => (if (cmac key src).take tagLen = tag then jsOK else jsTAGFAIL, [], [])

/-- The checks of a job before its charge (R236): 0 when they pass. -/
def Dev.jobCheck (d : Dev) (core : Nat) (b : List Byte) : Nat :=
  let op := u8 b 0
  let k := d.kslot (u8 b 1)
  let fw := u8 b 3 == 1
  if !jobOk b then jsBADDESC
  else if !k.opens || (jobCharges op && k.state == 3) then jsNOKEY
  else if !k.use.testBit (op - 1) || !k.cores.testBit core then jsDENIED
  else if jobCharges op && op != 6 && (if fw then !k.use.testBit useFWNONCE else k.uctr == 0 || d.uidBad) then jsDENIED
  else 0

/-- The operation verifies a tag before anything is written (R237). -/
def jobVerifies (op : Nat) : Bool := op == 3 || op == 5 || op == 7

/-- The job's reads that fault. -/
def Dev.jobReads (d : Dev) (core : Nat) (b : List Byte) (formed : Bool) : Option (Nat × Nat) :=
  let op := u8 b 0
  let rd := fun a n => d.busCode false core a n false
  [rd (u32 b 4) (u32 b 0x18), rd (u32 b 0xC) (u16 b 0x1C), if jobVerifies op then rd (u32 b 0x10) (u8 b 2) else none,
   if formed then none else rd (u32 b 0x14) (nonceLen op)].findSome? id

/-- The writes of a job that reaches them that fault. -/
def Dev.jobWrites (d : Dev) (core : Nat) (b : List Byte) (formed : Bool) : Option (Nat × Nat) :=
  let op := u8 b 0
  let wr := fun a n => d.busCode false core a n true
  [if jobVerifies op then none else wr (u32 b 0x10) (u8 b 2), if formed then wr (u32 b 0x14) (nonceLen op) else none,
   if op = 6 ∨ op = 7 then none else wr (u32 b 8) (u32 b 0x18)].findSome? id

/-- Block operations of a job (R234, as the example of R239 counts them). -/
def jobOps (b : List Byte) : Nat :=
  let n := ceilDiv (u32 b 0x18) 16
  let aad := u16 b 0x1C
  match u8 b 0 with
  | 2 | 3 => 2 + 2 * n + (if aad = 0 then 0 else ceilDiv (aad + 2) 16)
  | _ => n

/-- A job ends BUSFAULT, with its report. -/
def Dev.jobFaults (d : Dev) (e : Nat) (p : Nat × Nat) (write : Bool) : Dev :=
  (d.faultNote (some p)).report 8 e 1 (esynOf p.1 p.2 write false false) [BitVec.ofNat 32 p.1]

/-- A job starts on an engine (R236): its checks, its charge, and the outputs it will write. -/
def Dev.jobStart (d : Dev) (e : Nat) (j : AesJob) : Dev :=
  let keep := fun (d : Dev) (x : AesJob) =>
    { d with aesJobs := d.aesJobs.map (fun y => if y.id = x.id then x else y), aesLast := j.core }
  let j := { j with engine := some e, live := true }
  let d := d.put AES_STAT ⟨e, e⟩ 1
  let d := d.touchRange j.addr 32
  match d.busCode false j.core j.addr 32 false with
  | some p => keep (d.jobFaults e p false) { j with status := jsBUSFAULT, fault := some p.1 }
  | none =>
    let b := d.seen j.addr 32
    let op := u8 b 0
    let tagLen := u8 b 2
    let k := d.kslot (u8 b 1)
    let j := { j with slot := u8 b 1 }
    let refuse := fun (d : Dev) st => keep (d.count (AES_CNT 2)) { j with status := st }
    let st := d.jobCheck j.core b
    if st ≠ 0 then refuse d st
    else
      let ch := if jobCharges op then d.charge (u8 b 1) else (0, d)
      if ch.1 ≠ 0 then refuse ch.2 ch.1
      else
        let d := ch.2
        let formed := jobCharges op && op != 6 && u8 b 3 == 0
        let d := (d.touchRange (u32 b 4) (u32 b 0x18)).touchRange (u32 b 0xC) (u16 b 0x1C)
        let d := d.touchRange (u32 b 0x10) (if jobVerifies op then tagLen else 0)
        let d := d.touchRange (u32 b 0x14) (if formed then 0 else nonceLen op)
        match d.jobReads j.core b formed with
        | some p => keep (d.jobFaults e p false) { j with status := jsBUSFAULT }
        | none =>
          let nonce := if formed then d.formNonce op tagLen k.used else d.seen (u32 b 0x14) (nonceLen op)
          let r := jobRun k.key op tagLen nonce (d.seen (u32 b 0xC) (u16 b 0x1C)) (d.seen (u32 b 4) (u32 b 0x18)) (d.seen (u32 b 0x10) tagLen)
          let j := { j with left := jobOps b, status := r.1 }
          if r.1 ≠ jsOK then keep d j
          else
            match d.jobWrites j.core b formed with
            | some p => keep (d.jobFaults e p true) { j with status := jsBUSFAULT }
            | none => keep d { j with writes := [(u32 b 8, r.2.1), (u32 b 0x10, r.2.2)] ++ (if formed then [(u32 b 0x14, nonce)] else []) }

/-- Block operations of a firmware grant (R235). -/
def aesBudget : Nat := 64

/-- The firmware job that engine `e` is granted next (R4, R235): the cores in turn after the last one served, each core's jobs in order; one that was
preempted goes on where it ran. -/
def Dev.nextJob (d : Dev) (e : Nat) : Option AesJob :=
  (span 1 7).findSome? (fun i => d.aesJobs.find? (fun j => j.core == (d.aesLast + i) % 7 && (j.engine.isNone || (j.engine == some e && !j.live))))

def Dev.setJob (d : Dev) (x : AesJob) : Dev := { d with aesJobs := d.aesJobs.map (fun y => if y.id = x.id then x else y) }

/-- An engine takes the next job of the round. -/
def Dev.grantJob (d : Dev) (e : Nat) : Dev :=
  match d.nextJob e with
  | none => d
  | some j => if j.engine.isNone then d.jobStart e j else { d.setJob { j with live := true } with aesLast := j.core }

def Dev.liveJob (d : Dev) (e : Nat) : Option AesJob := d.aesJobs.find? (fun j => j.engine == some e && j.live)

/-- AES_JOB_START (R235, R236): an engine takes the next job; one whose job has more than a grant left has come to that grant's end, and the job goes
to the back of the round. While work of higher classes waits for both engines, neither takes a firmware job. -/
def execAesJobStart (e : Fin 2) (s : State) : Host.Outcome State Fault Refusal :=
  s.run fun d =>
    if 2 ≤ d.aesAbove then d
    else
      match d.liveJob e with
      | none => d.grantJob e
      | some x =>
        if x.left ≤ aesBudget then d
        else Dev.grantJob { d.setJob { x with left := x.left - aesBudget, live := false } with aesLast := x.core } e

/-- Grants that a started job still needs. -/
def AesJob.grants (j : AesJob) : Nat := max 1 (ceilDiv j.left aesBudget)

/-- Turns from the job that holds the engine to `j`'s. -/
def AesJob.turn (j x : AesJob) : Nat := (j.core + 7 - x.core) % 7

/-- The job of engine `e` that ends first as the grants go round, `x` holding the engine. -/
def Dev.firstDone (d : Dev) (e : Nat) (x : AesJob) : AesJob :=
  (d.aesJobs.filter (fun j => j.engine == some e)).foldl (fun m j =>
    if j.grants < m.grants ∨ (j.grants = m.grants ∧ j.turn x < m.turn x) then j else m) x

/-- What the other jobs of the engine have run when `j` ends. -/
def AesJob.ran (y j x : AesJob) (e : Nat) : AesJob :=
  if y.engine = some e then { y with left := y.left - aesBudget * (if y.turn x < j.turn x then j.grants else j.grants - 1), live := false } else y

/-- The engine goes on with a job it had set aside. -/
def Dev.resumeJob (d : Dev) (e core : Nat) : Dev :=
  let d := { d with aesLast := core }
  match (span 1 7).findSome? (fun i => d.aesJobs.find? (fun j => j.core == (core + i) % 7 && j.engine == some e)) with
  | none => d.put AES_STAT ⟨e, e⟩ 0
  | some j => { d.setJob { j with live := true } with aesLast := j.core }

/-- A job's outputs, then STATUS, and with STATUS written the completion source of its core (R236, Table 16.1); a STATUS byte that may not be written stays, and is reported (log
entry 140). -/
def Dev.jobEnd (d : Dev) (e : Nat) (j : AesJob) : Dev :=
  let d := j.writes.foldl (fun d w => d.setBytes w.1 w.2) d
  let d := d.when (j.status == jsTAGFAIL) (fun d => d.count (AES_CNT 1))
  let d := d.when (j.status == jsOK || j.status == jsTAGFAIL || j.status == jsBUSFAULT) (fun d => d.count (AES_CNT 0))
  if j.fault.isSome then d
  else match d.busCode false j.core (j.addr + 0x1F) 1 true with
    | some p => d.jobFaults e p true
    | none => (d.setBytes (j.addr + 0x1F) [BitVec.ofNat 8 j.status]).pulse (1032 + j.core)

/-- AES_STAT.BUSY (R243): an engine that runs a firmware job, or work of the classes above, which takes an idle engine, the lowest first (log entry
167), or both. -/
def Dev.aesBusy (d : Dev) : Nat :=
  let v := getF (d.reg AES_STAT) AES_STAT_BUSY
  if d.aesAbove = 0 then v else if d.aesAbove = 1 ∧ v = 0 then 1 else 3

/-- AES_JOB_END (R235 to R237): of the jobs set going on the engine, the one that ends first. While work of higher classes has both engines, none
ends. -/
def execAesJobEnd (e : Fin 2) (s : State) : Host.Outcome State Fault Refusal :=
  s.run fun d =>
    if 2 ≤ d.aesAbove then d else
    match d.liveJob e with
    | none => d
    | some x =>
      let j := d.firstDone e x
      (Dev.resumeJob { d with aesJobs := (d.aesJobs.filter (fun y => y.id != j.id)).map (fun y => y.ran j x e) } e j.core).jobEnd e j

/-! ### SHA-256 contexts (R240) -/

def Dev.sha (d : Dev) (n : Nat) : ShaCtx := sget ShaCtx.init d.shaCtx n
def Dev.setSha (d : Dev) (n : Nat) (x : ShaCtx) : Dev := { d with shaCtx := sset ShaCtx.init d.shaCtx n x }

/-- SHA_START (R240). -/
def execShaStart (c : Fin 7) (n : Fin 4) (s : State) : Host.Outcome State Fault Refusal :=
  s.ask (.shaStart c n) (SHA_CMD n) fun d => d.byCore c (SHA_CMD n) true fun d =>
    let d := d.setSha n ⟨true, shaInit, 0, [], 0, false⟩
    let a := SHA_STAT n
    ((d.put a SHA_STAT_OWNER c.val).put a SHA_STAT_BUSY 0).put a SHA_STAT_ERR 0

/-- An UPDATE or FINAL by core `c`: refused to a core that is not OWNER; ignored with ERR STATE while BUSY or before START, where no core is OWNER. -/
def Dev.shaRun (d : Dev) (c : Fin 7) (n : Nat) (f : Dev → Dev) : Dev :=
  let a := SHA_STAT n
  d.byCoreDeny c (SHA_CMD n) true (d.get a SHA_STAT_OWNER != c.val && d.get a SHA_STAT_OWNER != 7) fun d =>
    if (d.sha n).busy ≠ 0 ∨ !(d.sha n).taken then d.put a SHA_STAT_ERR 2 else (f d).put a SHA_STAT_BUSY 1

/-- SHA_UPDATE (R240): the bytes join the partial block; whole blocks are hashed. -/
def execShaUpdate (c : Fin 7) (n : Fin 4) (s : State) : Host.Outcome State Fault Refusal :=
  s.ask (.shaUpdate c n) (SHA_CMD n) fun d => d.shaRun c n fun d =>
    let x := d.sha n
    let at_ := (d.reg (SHA_ADDR n)).toNat
    let len := d.get (SHA_LEN n) SHA_LEN_LEN
    let d := d.touchRange at_ len
    if d.busOk false c at_ len false then
      let m := x.part ++ d.seen at_ len
      d.setSha n { x with h := shaBlocks x.h m, n := x.n + len, part := m.drop (m.length / 64 * 64), busy := 1 }
    else (d.faultNote (d.busCode false c at_ len false)).setSha n { x with busy := 1, bad := true }

/-- SHA_FINAL (R240): the message is padded. -/
def execShaFinal (c : Fin 7) (n : Fin 4) (s : State) : Host.Outcome State Fault Refusal :=
  s.ask (.shaFinal c n) (SHA_CMD n) fun d => d.shaRun c n fun d =>
    let x := d.sha n
    d.setSha n { x with h := shaBlocks x.h (x.part ++ shaPad x.n), part := [], busy := 2 }

/-- SHA_END (R240): the operation completes; after FINAL the digest is shown and DONE set; a faulted input sets ERR. -/
def execShaEnd (n : Fin 4) (s : State) : Host.Outcome State Fault Refusal :=
  s.run fun d =>
    let x := d.sha n
    let a := SHA_STAT n
    if x.busy = 0 then d
    else
      let d := d.put a SHA_STAT_BUSY 0
      if x.bad then (d.setSha n { x with busy := 0, bad := false }).put a SHA_STAT_ERR 1
      else if x.busy = 2 then
        let d := (d.setSha n { x with busy := 0, taken := false }).put a SHA_STAT_DONE 1
        ((span 0 8).zip x.h).foldl (fun d p => d.setReg (SHA_DIG n p.1) p.2) d
      else d.setSha n { x with busy := 0 }

end Sys2Proof.Machine
end

