-- ==== Sys2Proof/Machine/Headland.lean ====
section
/-! DEFINITION. Headland event routing (chapter 17): channels, cells, groups, gated channels, firing and owners. -/

namespace Sys2Proof.Machine

/-! ### The HEADLAND section (Table 4.13) -/

def hlNcons (b : List Byte) : Nat := u16 b 0
def hlOwner (b : List Byte) (a : Nat) : Nat := u8 b (6 + 4 * a)
def hlAttr (b : List Byte) (a : Nat) : Nat := u8 b (7 + 4 * a)
def hlCons (b : List Byte) (j : Nat) : Nat × Nat := (u16 b (1028 + 4 * j), u8 b (1030 + 4 * j))
def hlCellAt (b : List Byte) (n : Nat) : Nat := 1028 + 4 * hlNcons b + 8 * n
def hlGroupAt (b : List Byte) (g : Nat) : Nat := 2052 + 4 * hlNcons b + 36 * g
def hlGatedAt (b : List Byte) (i : Nat) : Nat := 2628 + 4 * hlNcons b + 4 * i
def hlMember (b : List Byte) (g a : Nat) : Bool := (u8 b (hlGroupAt b g + a / 8)).testBit (a % 8)

/-- Cell `n` is named as producer of some channel, and of which. -/
def cellChannel (b : List Byte) (n : Nat) : Option Nat := (span 0 256).find? (fun a => hlProducer b a = 0x0F00 + n)

/-- A channel is blocked: it belongs to a disabled group (R340). -/
def Dev.chBlocked (d : Dev) (a : Nat) : Bool :=
  (span 0 16).any (fun g => hlMember d.hl g a && !(d.get HDL_GRPEN HDL_GRPEN_EN).testBit g)

/-- The channel shows a pulse in this cycle. -/
def Dev.chPulses (d : Dev) (a : Nat) : Bool := decide (sget 0 d.chPuls a = d.clk.cyc + 1)

/-- The channel has shown a pulse in this cycle or in the one before. -/
def Dev.chLate (d : Dev) (a : Nat) : Bool := decide (0 < sget 0 d.chPuls a ∧ d.clk.cyc ≤ sget 0 d.chPuls a)

/-- What the producer drives, or a pulse of this cycle, and what the channel shows. -/
def Dev.chDriven (d : Dev) (a : Nat) : Bool := sget false d.chRaw a || d.chPulses a
def Dev.chShows (d : Dev) (a : Nat) : Bool := d.chDriven a && !d.chBlocked a

/-- G of gated channel `i` (R341). -/
def Dev.gate (d : Dev) (i : Nat) : Bool :=
  let o := hlGatedAt d.hl i
  d.chShows (u8 d.hl o) && d.chShows (u8 d.hl (o + 1))

/-- What G of the gated channels was up to now, kept for a cycle: those that are at 1 (R341). -/
def Dev.gatesNote (d : Dev) : Dev :=
  { d with gateOn := (span 0 8).foldl (fun (m : List (Nat × Nat)) i => if d.gate i then sset 0 m i (d.clk.cyc + 1) else m) d.gateOn }

/-- Rising edges of G between two moments set the latches in the AON field; one still set merges (R341). G that was at 1 in the cycle before
makes none. -/
def Dev.latchGates (before d : Dev) : Dev :=
  ((span 0 8).foldl (fun (x : Dev) i =>
    if d.gate i && !before.gate i && !decide (0 < sget 0 before.gateOn i ∧ d.clk.cyc ≤ sget 0 before.gateOn i) then
      if (x.get HDL_GATED HDL_GATED_LATCH).testBit i then x.count (HDL_CNT 0) else x.put HDL_GATED ⟨8 + i, 8 + i⟩ 1
    else x) d).gatesNote

/-- HDL_GATED.G as a read shows it: SRC AND GATE of each gated channel now; 0 without a plan that has channels (R341, R344). -/
def Dev.gatesNow (d : Dev) : Nat :=
  if (d.sec tHEADLAND 0).isNone then 0 else (span 0 8).foldl (fun n i => if d.gate i then n ||| 2 ^ i else n) 0

/-- A timer's consumer action (Table 17.1). -/
def Dev.tmrConsume (d : Dev) (t k : Nat) : Dev :=
  match k with
  | 0 => d.tmrStart t true
  | 1 => d.tmrStop t true
  | 2 => d.tmrClear t
  | _ => d.tmrCapture t

/-- The event consumers of channel `a` act: starts before stops, so that both leave a timer stopped (R348). -/
def Dev.consume (d : Dev) (a : Nat) : Dev :=
  let l := ((span 0 (hlNcons d.hl)).map (hlCons d.hl)).filter (fun p => p.2 = a && 0x200 ≤ p.1 && p.1 < 0x260)
  let act := fun (d : Dev) (k : Nat) =>
    (l.filter (fun p => (p.1 - 0x200) % 4 = k)).foldl (fun d p => d.tmrConsume ((p.1 - 0x200) / 4) k) d
  act (act (act (act d 3) 2) 0) 1

/-- Groups that an event on channel `a` disables or enables; EN_CH equal to DIS_CH gives no event control (R340). -/
def Dev.groupsBy (d : Dev) (a : Nat) (off : Bool) : List Nat :=
  (span 0 16).filter (fun g =>
    let o := hlGroupAt d.hl g + 32
    d.sec tHEADLAND 0 ≠ none && u8 d.hl o ≠ u8 d.hl (o + 1) && u8 d.hl (if off then o + 1 else o) = a)

/-- A mask of groups. -/
def groupMask (l : List Nat) : Nat := l.foldl (fun m g => m ||| 2 ^ g) 0

/-- Groups that the next cycle enables and disables (R340). -/
def Dev.groupAsk (d : Dev) (on off : Nat) : Dev := { d with grpOn := d.grpOn ||| on, grpOff := d.grpOff ||| off }

/-- An event on channel `a`: marked in HDL_SEEN, its consumers act, and the group changes it asks for come in the cycle after (R334, R340). -/
def Dev.chEvent (d : Dev) (a : Nat) : Dev :=
  ((d.put (HDL_SEEN (a / 32)) ⟨a % 32, a % 32⟩ 1).consume a).groupAsk (groupMask (d.groupsBy a false)) (groupMask (d.groupsBy a true))

/-- A rising edge on channel `a`: an event, or, where the channel is blocked, one counted if its producer makes it (`own`; R340). One that comes with a
pulse of the channel or in the cycle after it is no new edge, and is counted as lost (R334). -/
def Dev.chRise (d : Dev) (a : Nat) (own late : Bool) : Dev :=
  if d.chBlocked a then (if own then d.count (HDL_CNT 1) else d)
  else if late then d.count (HDL_CNT 0)
  else d.chEvent a

/-- The producers of some channels drive their levels in one cycle (R334). -/
def Dev.chSet (d : Dev) (l : List (Nat × Bool)) : Dev :=
  let up := l.filter (fun p => p.2 && !sget false d.chRaw p.1)
  let d1 : Dev := { d with
    chRaw := l.foldl (fun (m : List (Nat × Bool)) p => sset false m p.1 p.2) d.chRaw
    chRose := up.foldl (fun (m : List (Nat × Nat)) p => sset 0 m p.1 (d.clk.cyc + 1)) d.chRose }
  d.latchGates (up.foldl (fun (x : Dev) p => x.chRise p.1 true (d.chLate p.1)) d1)

/-- The producer of channel `a` drives `v`. -/
def Dev.chDrive (d : Dev) (a : Nat) (v : Bool) : Dev := d.chSet [(a, v)]

/-- A one-cycle pulse on channel `a`, ORed with what its producer drives; the cycle's end takes it away (R334, R342). One that lands with a rising
edge of a level, or in the cycle after it, is lost in it. -/
def Dev.chPulse (d : Dev) (a : Nat) (own : Bool) : Dev :=
  if sget false d.chRaw a then
    (if !d.chBlocked a && decide (0 < sget 0 d.chRose a ∧ d.clk.cyc ≤ sget 0 d.chRose a) then d.count (HDL_CNT 0) else d)
  else d.latchGates (Dev.chRise { d with chPuls := sset 0 d.chPuls a (d.clk.cyc + 1) } a own (d.chLate a))

/-- Pulse producers (Table 17.1). -/
def isPulse (p : Nat) : Bool :=
  (0x200 ≤ p && p < 0x260) || (0x300 ≤ p && p ≤ 0x309) || (0x400 ≤ p && p < 0x404) || (0x500 ≤ p && p < 0x504)

/-- The mode a field line is in (Table 1.4, Table 1.9, R25, R28): OFF until the plan is sown, while the RF die is isolated or in reset, and with
MODE 6 or 7. -/
def Dev.lineMode (d : Dev) (n : Nat) : Nat :=
  let m := d.get (FLN_CFG n) FLN_CFG_MODE
  if d.pwr.pins = .sown ∧ !d.pwr.rfIso ∧ !d.pwr.rfReset ∧ m ≤ 5 then m else 0

/-- The comparator of a field line is on (Table 1.9); a tripped line keeps it. -/
def Dev.lineComparator (d : Dev) (n : Nat) : Bool := decide (d.lineMode n ≠ 0)

/-- The register bit that follows a level producer's input, where one shows it; a field line's only while its comparator is on. -/
def Dev.inputLevel (d : Dev) (p : Nat) (v : Bool) : Dev :=
  if 0x100 ≤ p ∧ p < 0x130 then d.putB (GPIO_IN ((p - 0x100) / 32)) ⟨(p - 0x100) % 32, (p - 0x100) % 32⟩ v
  else if 0x600 ≤ p ∧ p < 0x608 then d.putB FLN_STAT ⟨p - 0x600, p - 0x600⟩ (v && d.lineComparator (p - 0x600))
  else if p = 0x700 then d.putB COX_STAT COX_STAT_GNT v
  else if p = 0x701 then d.putB COX_STAT COX_STAT_ACT v
  else d

/-- A level producer on the RF die (Table 17.1). -/
def onRfDie (p : Nat) : Bool := decide ((0x410 ≤ p ∧ p < 0x412) ∨ (0x504 ≤ p ∧ p < 0x508) ∨ (0x600 ≤ p ∧ p < 0x608) ∨ p = 0x700 ∨ p = 0x701)

/-- The level a level producer drives: what the state shows of it, or the level measured at the input. A transmit chain's ends with its ramp; a field
line that is OFF or tripped drives 0, and so does what comes from an RF die that is isolated or in reset (R8, R25). -/
def Dev.producerLevel (d : Dev) (p : Nat) (lvl : Bool) : Bool :=
  if onRfDie p && (d.pwr.rfIso || d.pwr.rfReset) then false
  else if 0x410 ≤ p ∧ p < 0x412 then decide (3 < d.get (RFC_TXSTAT (p - 0x410)) RFC_TXSTAT_STATE) && (sget none d.txs (p - 0x410)).any (fun (x : TxRec) => x.paen)
  else if 0x504 ≤ p ∧ p < 0x508 then d.flag (RFC_RXSTAT (p - 0x504)) RFC_RXSTAT_BLANKED
  else if 0x600 ≤ p ∧ p < 0x608 then
    lvl && d.lineComparator (p - 0x600) && !(d.get FLN_STAT FLN_STAT_TRIP).testBit (p - 0x600)
  else lvl

/-- The level a level producer shows at this moment, as the registers hold it. -/
def Dev.producerNow (d : Dev) (p : Nat) : Bool :=
  if p = 0 || isPulse p then false
  else d.producerLevel p
    (if 0x100 ≤ p ∧ p < 0x130 then testBit (d.reg (GPIO_IN ((p - 0x100) / 32))) ((p - 0x100) % 32)
      else if 0x600 ≤ p ∧ p < 0x608 then testBit (d.reg FLN_STAT) (p - 0x600)
      else if p = 0x700 then d.flag COX_STAT COX_STAT_GNT
      else p == 0x701 && d.flag COX_STAT COX_STAT_ACT)

/-- A pulse producer's event waits to be shown: the first one raised, but not in the cycle of its last one nor in the next. -/
def Dev.pulseDue (d : Dev) (p : Nat) : Option (Nat × Nat) :=
  if decide (0 < sget 0 d.hdlDone p ∧ d.clk.cyc ≤ sget 0 d.hdlDone p) then none else d.hdlPend.find? (fun e => e.1 == p)

/-- An event of a pulse producer reaches channel `a`. -/
def Dev.pulseShow (d : Dev) (a : Nat) (e : Nat × Nat) : Dev :=
  Dev.chPulse { d with hdlPend := d.hdlPend.erase e, hdlDone := sset 0 d.hdlDone e.1 (d.clk.cyc + 1) } a true

/-- The producer gives nothing: the control field is down, and with it every channel (R343), or, for a ball, the I/O field, whose sown inputs are
ignored then (R24). -/
def Dev.producerOff (d : Dev) (p : Nat) : Bool := !d.fieldOn 1 || (decide (0x100 ≤ p ∧ p < 0x130) && !d.fieldOn 6)

/-- CHANNEL_EVENT (R334 to R337, R340, R341): a pulse producer's waiting event reaches its channel, or a level producer drives
its present level. A channel without producer, and a cell's channel (CELL_FILTER_EXPIRY moves it), take nothing here. -/
def execChannelEvent (a : Fin 256) (lvl : Bool) (s : State) : Host.Outcome State Fault Refusal :=
  s.run fun d =>
    let p := hlProducer d.hl a
    if p = 0 ∨ 0xF00 ≤ p ∨ d.producerOff p then d
    else if isPulse p then (d.pulseDue p).elim d (d.pulseShow a)
    else (d.inputLevel p lvl).chDrive a (d.producerLevel p lvl)

/-- The channels that level producers on the RF die drive, once the die is isolated or in reset (R8, R25). -/
def Dev.rfChannels (d : Dev) : Dev :=
  d.chSet (((span 0 256).filter (fun a => onRfDie (hlProducer d.hl a) && sget false d.chRaw a)).map (fun a => (a, d.producerLevel (hlProducer d.hl a) false)))

/-- Events raised before this cycle that still wait are delivered under the routing that is about to go (Table 4.20); those of this cycle come under
the new one. -/
def Dev.hdlFlush (d : Dev) : Dev :=
  let l := d.hdlPend.filter (fun e => decide (e.2 < d.clk.cyc))
  l.foldl (fun (d : Dev) e => match (span 0 256).find? (fun a => hlProducer d.hl a == e.1) with
    | some a => d.pulseShow a e
    | none => d) d

/-- L of cell `n`: its truth table at the value of its inputs (R338). -/
def Dev.cellL (d : Dev) (n : Nat) : Bool :=
  let o := hlCellAt d.hl n
  let inp := fun k => (d.chShows (u8 d.hl (o + k))).toNat
  let ff := (u8 d.hl (o + 6)).testBit 0
  let top := if ff then d.get (HDL_LUT n) HDL_LUT_OUT else inp 3
  (d.get (HDL_LUT n) HDL_LUT_LUT).testBit (inp 0 + 2 * inp 1 + 4 * inp 2 + 8 * top)

/-- Cycles for which L of cell `n` must differ from O (Table 4.13). -/
def Dev.cellWait (d : Dev) (n : Nat) : Nat := 2 ^ (u8 d.hl (hlCellAt d.hl n + 6) / 4 % 8)

/-- L of cell `n` differs from O. -/
def Dev.cellOff (d : Dev) (n : Nat) : Bool := d.cellL n != d.flag (HDL_LUT n) HDL_LUT_OUT

/-- L has differed from O for as many consecutive cycles as the filter asks, the running one not among them (R338). -/
def Dev.cellRipe (d : Dev) (n : Nat) : Bool := (cellChannel d.hl n).isSome && decide (d.cellWait n ≤ sget 0 d.cellCnt n)

/-- O of some cells takes L, which has been its opposite, and their channels follow, all in one cycle. -/
def Dev.cellsMove (d : Dev) (l : List Nat) : Dev :=
  let d1 := l.foldl (fun (x : Dev) n => { x.putB (HDL_LUT n) HDL_LUT_OUT (!d.flag (HDL_LUT n) HDL_LUT_OUT) with cellCnt := serase n x.cellCnt }) d
  d1.chSet (l.filterMap (fun n => (cellChannel d.hl n).map (fun a => (a, !d.flag (HDL_LUT n) HDL_LUT_OUT))))

/-- CELL_FILTER_EXPIRY (R338): in the cycle after L has differed from O for the filter's cycles, O takes L. -/
def execCellFilterExpiry (n : Fin 128) (s : State) : Host.Outcome State Fault Refusal :=
  s.run fun d => if d.cellRipe n then d.cellsMove [n.val] else d

/-- The cells that a channel names. -/
def Dev.cellsUsed (d : Dev) : List Nat := (span 0 128).filter (fun n => d.flag (HDL_LUT n) HDL_LUT_INUSE)

/-- A cycle of the headland ends: the cells that were due in it and that no command has moved move together, and every cell counts a cycle in which L
differs from O, or starts again (R338). -/
def Dev.hdlEnd (d : Dev) : Dev :=
  if (d.sec tHEADLAND 0).isNone then d
  else
    let l := d.cellsUsed
    let d := d.cellsMove (l.filter d.cellRipe)
    { d with cellCnt := l.foldl (fun (m : List (Nat × Nat)) n => sset 0 m n (if d.cellOff n then sget 0 m n + 1 else 0)) d.cellCnt }

/-- A cycle of the headland begins: the group changes asked for in the last one turn, disabling winning, and a channel that shows 1 by it has an event
(R340); level producers drive what the state shows of them (R334), so that a field line that has tripped or gone OFF drives 0. -/
def Dev.hdlBegin (d : Dev) : Dev :=
  if (d.sec tHEADLAND 0).isNone then d
  else
    let e : Dev := { d.put HDL_GRPEN HDL_GRPEN_EN ((d.get HDL_GRPEN HDL_GRPEN_EN ||| d.grpOn) - ((d.get HDL_GRPEN HDL_GRPEN_EN ||| d.grpOn) &&& d.grpOff)) with grpOn := 0, grpOff := 0 }
    let e := if d.grpOn = 0 ∧ d.grpOff = 0 then e
      else d.latchGates (((span 0 256).filter (fun a => e.chShows a && !d.chShows a)).foldl (fun (x : Dev) a => x.chEvent a) e)
    let on := fun (p : Nat) => p ≠ 0 && !isPulse p && decide (p < 0xF00) && !e.producerOff p
    e.chSet (((span 0 256).filter (fun a => on (hlProducer e.hl a) && e.producerNow (hlProducer e.hl a) != sget false e.chRaw a)).map
      (fun a => (a, e.producerNow (hlProducer e.hl a))))

/-- The owner test of R342. -/
def Dev.notOwner (d : Dev) (c a : Nat) : Bool := hlOwner d.hl a ≠ 7 && hlOwner d.hl a ≠ c

/-- A write of channel `a` to HDL_FIRE is refused to core `c` (R342). -/
def Dev.fireDenied (d : Dev) (c a : Nat) : Bool := !(hlAttr d.hl a).testBit 0 || d.notOwner c a

/-- CHANNEL_FIRE (R342). -/
def execChannelFire (c : Fin 7) (a : Fin 256) (s : State) : Host.Outcome State Fault Refusal :=
  s.run fun d => d.byCoreDeny c HDL_FIRE true (d.fireDenied c a) fun d => (d.count (HDL_CNT 2)).chPulse a false

/-- A write to HDL_LUT[n] is refused to core `c`: the owner test on the channel the cell drives (R342). -/
def Dev.lutDenied (d : Dev) (c n : Nat) : Bool :=
  match cellChannel d.hl n with
  | none => false
  | some a => d.notOwner c a

/-- A LUT write (R339, R343): O and the filter stay; a cell not in use ignores it, and one that a swap changes in this cycle loses it. -/
def Dev.lutWrite (d : Dev) (n v : Nat) : Dev :=
  if (cellChannel d.hl n).isSome ∧ sget 0 d.lutSwap n ≠ d.clk.cyc + 1 then d.put (HDL_LUT n) HDL_LUT_LUT v else d

/-- LUT_WRITE (R339, R342). -/
def execLutWrite (c : Fin 7) (n : Fin 128) (v : BitVec 16) (s : State) : Host.Outcome State Fault Refusal :=
  s.run fun d => d.byCoreDeny c (HDL_LUT n) true (d.lutDenied c n) fun d => d.lutWrite n v.toNat

/-- A write to HDL_GRPSET or HDL_GRPCLR is refused to core `c`: the owner test on every secure member of each group named. -/
def Dev.groupDenied (d : Dev) (c m : Nat) : Bool :=
  (span 0 16).any (fun g => m.testBit g &&
    (span 0 256).any (fun a => hlMember d.hl g a && (hlAttr d.hl a).testBit 1 && d.notOwner c a))

/-- Groups enabled or disabled by a register write, from the next cycle (R340, Table 17.3). -/
def Dev.groupWrite (d : Dev) (m : Nat) (on : Bool) : Dev := if on then d.groupAsk m 0 else d.groupAsk 0 m

/-- GROUP_ENABLE (R340, R342). -/
def execGroupEnable (c : Fin 7) (m : BitVec 16) (s : State) : Host.Outcome State Fault Refusal :=
  s.run fun d => d.byCoreDeny c HDL_GRPSET true (d.groupDenied c m.toNat) fun d => d.groupWrite m.toNat true

/-- GROUP_DISABLE (R340, R342). -/
def execGroupDisable (c : Fin 7) (m : BitVec 16) (s : State) : Host.Outcome State Fault Refusal :=
  s.run fun d => d.byCoreDeny c HDL_GRPCLR true (d.groupDenied c m.toNat) fun d => d.groupWrite m.toNat false

/-- GATED_INPUT_DELIVERY (R341, R356): an always-on timer whose GSTART names the input takes its latch and starts at the next
edge; with no such timer the latch stays set. -/
def execGatedInputDelivery (i : Fin 8) (s : State) : Host.Outcome State Fault Refusal :=
  s.awake fun d =>
    if (d.get HDL_GATED HDL_GATED_LATCH).testBit i then
      let l := (span 0 8).filter (fun t => d.get (RTC_ATCTL t) RTC_ATCTL_GSTART = i.val + 1)
      if l.isEmpty then d
      else
        let d := d.put HDL_GATED ⟨8 + i.val, 8 + i.val⟩ 0
        l.foldl (fun d t => d.setAont t { d.atOf t with start := true }) d
    else d

/-! ### Sowing of the HEADLAND section (R338, R340, R343) -/

/-- The bytes of one entry of a body. -/
def entryBytes (b : List Byte) (o n : Nat) : List Byte := (b.drop o).take n

/-- HEADLAND applies: cells, groups and gated channels whose entry differs from the one in force take their new start values;
unchanged ones keep their state. `full`: a start-up sowing or a wake, where every entry counts as changed; at a `wake` the latches, which the AON field
holds, stay set (R341, R343). -/
def Dev.hdlApply (d : Dev) (old new : List Byte) (full wake : Bool) : Dev :=
  let d := (span 0 128).foldl (fun d n =>
    let e := entryBytes new (hlCellAt new n) 8
    if full || e ≠ entryBytes old (hlCellAt old n) 8 then
      let d := { d with cellCnt := serase n d.cellCnt, lutSwap := if full then d.lutSwap else sset 0 d.lutSwap n (d.clk.cyc + 1) }
      d.setReg (HDL_LUT n) (mkWord [(HDL_LUT_INUSE, (cellChannel new n).isSome.toNat),
        (HDL_LUT_OUT, ((u8 e 6).testBit 1).toNat), (HDL_LUT_LUT, u16 e 4)])
    else d.put (HDL_LUT n) HDL_LUT_INUSE (cellChannel new n).isSome.toNat) d
  let d := (span 0 16).foldl (fun d g =>
    if full || entryBytes new (hlGroupAt new g) 36 ≠ entryBytes old (hlGroupAt old g) 36 then
      d.put HDL_GRPEN ⟨g, g⟩ (u8 new (hlGroupAt new g + 34) % 2)
    else d) d
  let d := (span 0 8).foldl (fun d i =>
    if !wake && (full || entryBytes new (hlGatedAt new i) 4 ≠ entryBytes old (hlGatedAt old i) 4) then
      d.put HDL_GATED ⟨8 + i, 8 + i⟩ 0
    else d) d
  let d : Dev := { d with hdlPend := d.hdlPend.filter (fun e => hlRouted new e.1) }
  (span 0 256).foldl (fun d a =>
    let p := hlProducer new a
    let cell := decide (0xF00 ≤ p) && entryBytes new (hlCellAt new (p - 0xF00)) 8 != entryBytes old (hlCellAt old (p - 0xF00)) 8
    if full || cell || hlProducer new a ≠ hlProducer old a then
      let v := if 0xF00 ≤ p then d.flag (HDL_LUT (p - 0xF00)) HDL_LUT_OUT else d.producerNow p
      { d with chRaw := sset false d.chRaw a v, chRose := if v && !sget false d.chRaw a then sset 0 d.chRose a (d.clk.cyc + 1) else d.chRose }
    else d) d

/-- Channels that a sowing makes rise have an event (R343); `d` is the device before it. -/
def Dev.hdlRise (d e : Dev) : Dev :=
  d.latchGates (((span 0 256).filter (fun a => e.chShows a && !d.chShows a)).foldl (fun (x : Dev) a => x.chEvent a) e)

end Sys2Proof.Machine
end

