-- ==== Sys2Proof/Machine/Plan.lean ====
section
/-! DEFINITION. The field plan: its layout, the checks 1 to 13 of Table 4.18 and the field that each failure names (R59 to R71). -/

namespace Sys2Proof.Machine

/-- A failure: code, directory index and byte offset, as SOW_ERR shows them (R71). -/
abbrev PFail := Nat × Nat × Nat

/-- A directory entry (Table 4.2); `idx` its index, `pos` its offset in the plan. -/
structure PEnt where
  idx  : Nat
  pos  : Nat
  typ  : Nat
  inst : Nat
  ver  : Nat
  zero : Nat
  ofs  : Nat
  size : Nat
  crc  : Nat

def planLen (b : List Byte) : Nat := u32 b 0x08
def planSeq (b : List Byte) : Nat := u32 b 0x0C
def planBase (b : List Byte) : Nat := u32 b 0x10
def planNsect (b : List Byte) : Nat := u16 b 0x18
def planDrain (b : List Byte) : Nat := u16 b 0x1A
def planPartial (b : List Byte) : Bool := (u16 b 6).testBit 0
def planId (b : List Byte) : List Byte := (b.drop 0x20).take 16
def planPub (b : List Byte) : List Byte := (b.drop (planLen b - 128)).take 64
def planSig (b : List Byte) : List Byte := (b.drop (planLen b - 64)).take 64

def planEnt (b : List Byte) (i : Nat) : PEnt :=
  let p := 64 + 16 * i
  ⟨i, p, u8 b p, u8 b (p + 1), u8 b (p + 2), u8 b (p + 3), u32 b (p + 4), u32 b (p + 8), u32 b (p + 12)⟩

def planEnts (b : List Byte) : List PEnt := (span 0 (planNsect b)).map (planEnt b)
def PEnt.body (e : PEnt) (b : List Byte) : List Byte := (b.drop e.ofs).take e.size

/-- Every byte of a run is 0. -/
def zeros (b : List Byte) (o n : Nat) : Bool := ((b.drop o).take n).all (· == 0)

/-- Size a body of this type must have (Table 4.4); none: too short to tell, or a reserved type. -/
def secSize (typ : Nat) (b : List Byte) : Option Nat :=
  match typ with
  | 0x01 => some 20
  | 0x02 => some 12
  | 0x03 => if 3 ≤ b.length then some (4 + 12 * u8 b 2) else none
  | 0x04 => some 196
  | 0x05 => some 16
  | 0x06 => some 44
  | 0x07 => some 128
  | 0x08 => if 2 ≤ b.length then some (2660 + 4 * u16 b 0) else none
  | 0x09 => some 2376
  | 0x0A => if 1 ≤ b.length then some (4 + 12 * u8 b 0) else none
  | 0x0B => some 68
  | 0x0C => some 8
  | _ => none

def secKnown (typ : Nat) : Bool := decide (1 ≤ typ ∧ typ ≤ 12)
def secInst (typ : Nat) : Nat := if typ = tGRID ∨ typ = tDETECT then 4 else 1
def secMandatory : List Nat := [tCLOCK, tPOWER, tMEMORY, tPADS, tIRQ]
def secResow (typ : Nat) : Bool := secKnown typ && typ != tCLOCK && typ != tMEMORY

/-- The least of the failing fields, by the order of the plan. -/
def leastField (l : List (Nat × Nat)) : Option (Nat × Nat) :=
  l.foldl (fun (m : Option (Nat × Nat)) (y : Nat × Nat) => match m with
    | none => some y
    | some x => if y.1 < x.1 ∨ (y.1 = x.1 ∧ y.2 < x.2) then some y else m) none

/-- A code with the section and field it names. -/
def failAt (code : Nat) (x : Option (Nat × Nat)) : Option PFail := x.map (fun p => (code, p.1, p.2))

/-- The first that fails. -/
def firstOf : List (Option PFail) → Option PFail
  | [] => none
  | some f :: _ => some f
  | none :: r => firstOf r

/-! ### Checks 1 to 10 -/

/-- Checks 1 to 3: `b` runs to the end of the plan's bank or of general SRAM. -/
def planHead (b : List Byte) : Option PFail :=
  let n := planLen b
  if u32 b 0 ≠ 0x5046584B then some (1, 0, 0x00)
  else if u16 b 4 ≠ 1 then some (1, 0, 0x04)
  else if u16 b 0x14 ≠ 0x1024 then some (1, 0, 0x14)
  else if n % 4 ≠ 0 ∨ n < 512 ∨ 262144 < n ∨ b.length < n then some (2, 0, 0x08)
  else if crc32 (b.take 0x3C) ≠ u32 b 0x3C then some (3, 0, 0x3C)
  else none

/-- Checks 4 to 6: silicon revision, key and signature (R61). A digest that differs is a failure of KEYIDX and PUBKEY, of which KEYIDX comes
first (R71). -/
def Dev.planKey (d : Dev) (b : List Byte) : Option PFail :=
  let n := planLen b
  let k := u8 b 0x17
  if d.silicon < u8 b 0x16 then some (4, 0, 0x16)
  else if 3 < k ∨ d.revoked k then some (5, 0, 0x17)
  else if sha256 (planPub b) ≠ d.fuseBytes (16 + 8 * k) 8 then some (5, 0, 0x17)
  else if !ecdsaOk (planPub b) (planSig b) (sha256 (b.take (n - 64))) then some (6, 0, n - 64)
  else none

/-- Check 7: the plan floor of persistent counter 0, or the SEQ in force. -/
def Dev.planOrder (d : Dev) (part : Bool) (b : List Byte) : Option PFail :=
  let cur := (d.reg SOW_SEQ).toNat
  if part then
    if !seqLater 32 (planSeq b) cur then some (7, 0, 0x0C)
    else if planBase b ≠ cur then some (7, 0, 0x10) else none
  else if planSeq b < d.ctrVal 0 then some (7, 0, 0x0C) else none

/-- Check 8: layout (R62). -/
def planLayout (b : List Byte) : Option PFail :=
  let n := planNsect b
  let lim := planLen b - 128
  if n < 1 ∨ 32 < n ∨ lim < 64 + 16 * n then some (8, 0, 0x18)
  else
    let es := planEnts b
    let bad := es.flatMap (fun e =>
      let before := es.filter (fun x => decide (x.idx < e.idx))
      let dup := (before.filter (fun x => x.typ == e.typ && x.inst == e.inst)).map (fun x => (x.pos, x.idx))
      let inside := decide (64 + 16 * n ≤ e.ofs ∧ e.ofs + e.size ≤ lim)
      let ovr := (before.filter (fun x => decide (0 < x.size ∧ 0 < e.size ∧ e.ofs < x.ofs + x.size ∧ x.ofs < e.ofs + e.size))).map
        (fun x => (x.pos + 4, x.idx))
      let size := inside && secKnown e.typ && secSize e.typ (e.body b) != some e.size
      dup ++ ovr ++ (if inside then [] else [(e.pos + 4, e.idx)]) ++ (if size then [(e.pos + 8, e.idx)] else []))
    failAt 8 ((leastField bad).map (fun p => (p.2, p.1)))

/-- Check 9: section CRCs (R60). -/
def planCrcs (b : List Byte) : Option PFail :=
  ((planEnts b).find? (fun e => crc32 (e.body b) != e.crc)).map (fun e => (9, e.idx, e.pos + 12))

/-- Check 10: the set of sections (R63). A type that is reserved or not re-sowable is reported before a missing mandatory section, an order that the
manual does not give (DESIGN CHOICE, log entry 131). -/
def planSet (part : Bool) (b : List Byte) : Option PFail :=
  let es := planEnts b
  if planPartial b ≠ part then some (10, 0, 0x06)
  else match es.find? (fun e => !secKnown e.typ || (part && !secResow e.typ)) with
    | some e => some (10, e.idx, e.pos)
    | none =>
      if !part && secMandatory.any (fun t => !es.any (fun e => e.typ == t)) then some (10, 0, 0x18) else none

/-! ### Check 11: values -/

/-- The first offset whose limit is broken. -/
def badOfs (l : List (Bool × Nat)) : Option Nat := (l.find? (fun p => !p.1)).map (·.2)

/-- A domain that is Idle in Table 3.2. -/
def idleDomain (i : Nat) : Bool :=
  decide ((14 ≤ i ∧ i ≤ 17) ∨ (20 ≤ i ∧ i ≤ 69) ∨ (72 ≤ i ∧ i ≤ 77) ∨ i = 85 ∨ i = 86 ∨ (93 ≤ i ∧ i ≤ 95) ∨ (101 ≤ i ∧ i ≤ 110))

/-- Bits of CLK_GATEEN[k] that exist. -/
def idleMask (k : Nat) : Nat := ((span 0 32).map (fun i => if idleDomain (32 * k + i) then 2 ^ i else 0)).foldl (· + ·) 0

def valCLOCK (b : List Byte) : List (Bool × Nat) :=
  [(decide (u8 b 0 ≤ 1), 0), (decide (u8 b 1 ≤ 1), 1), (zeros b 2 2, 2)]
    ++ (span 0 4).map (fun k => (decide (u32 b (4 + 4 * k) &&& idleMask k = u32 b (4 + 4 * k)), 4 + 4 * k))

def valPOWER (b : List Byte) : List (Bool × Nat) :=
  [(decide (1200 ≤ u16 b 0 ∧ u16 b 0 ≤ 3400), 0), (decide (u8 b 2 &&& 0xE3 = 0x63), 2), (decide (u8 b 3 < 16), 3)]
    ++ (span 0 7).map (fun c => (decide (u8 b (4 + c) ≤ 3) || (decide (u8 b (4 + c) = 0xFF) && c != 0 && c != 6), 4 + c))
    ++ [(zeros b 11 1, 11)]

/-- End of general SRAM below the carve. -/
def carveAt (b : List Byte) : Nat := 0x21400000 - 1024 * u16 b 0

def valMEMORY (b : List Byte) : List (Bool × Nat) :=
  [(decide (u16 b 0 % 512 = 0 ∧ u16 b 0 ≤ 4096), 0), (decide (u8 b 2 ≤ 16), 2), (zeros b 3 1, 3)]
    ++ (span 0 (u8 b 2)).flatMap (fun j =>
      let o := 4 + 12 * j
      [(decide (u32 b o % 4096 = 0 ∧ 0x20000000 ≤ u32 b o ∧ u32 b o < carveAt b), o),
       (decide (u32 b (o + 4) ≠ 0 ∧ u32 b (o + 4) % 4096 = 0), o + 4), (decide (u8 b (o + 8) < 128), o + 8),
       (decide (u8 b (o + 9) < 128 ∧ u8 b (o + 9) &&& u8 b (o + 8) = u8 b (o + 9)), o + 9), (zeros b (o + 10) 2, o + 10)])

def padFunc (b : List Byte) (g : Nat) : Nat := u8 b (4 + 4 * g)
def padElec (b : List Byte) (g : Nat) : Nat := u8 b (5 + 4 * g)
def padArg (b : List Byte) (g : Nat) : Nat := u8 b (6 + 4 * g)

def valPADS (b : List Byte) : List (Bool × Nat) :=
  [(decide (u8 b 0 ≤ 1), 0), (decide (u8 b 1 < 4), 1), (zeros b 2 2, 2)]
    ++ (span 0 48).flatMap (fun g =>
      let o := 4 + 4 * g
      let f := padFunc b g
      let arg := if f = 5 ∨ f = 6 then decide (padArg b g ≤ 23) else f == 3 || f == 4 || padArg b g == 0
      [(decide (padElec b g / 8 % 4 ≠ 3 ∧ padElec b g < 64), o + 1), (arg, o + 2), (zeros b (o + 3) 1, o + 3)])

def valGRID (b : List Byte) : List (Bool × Nat) :=
  [(decide (62500 ≤ u32 b 8), 8), (decide (1 ≤ u16 b 12 ∧ u16 b 12 ≤ 192), 12), (decide (u8 b 14 < 32), 14), (zeros b 15 1, 15)]

def valDETECT (b : List Byte) : List (Bool × Nat) :=
  (span 0 40).map (fun i => (decide (u8 b i ≤ 160), i))
    ++ [(decide (4 ≤ u8 b 40 ∧ u8 b 40 ≤ 8), 40), (zeros b 41 3, 41)]

/-- Limits of STRIPS. An unassigned strip (CHAIN 0xFF) need not hold CH_LAST at or above CH_FIRST, which Table 4.12 leaves open (DESIGN CHOICE, log
entry 132). -/
def valSTRIPS (b : List Byte) : List (Bool × Nat) :=
  (span 0 16).flatMap (fun s =>
    let o := 8 * s
    [(decide (u8 b o ≤ 3 ∨ u8 b o = 0xFF), o), (decide (u8 b (o + 1) ≤ 1), o + 1),
     (decide (u8 b o = 0xFF ∨ u8 b (o + 2) ≤ u8 b (o + 3)), o + 3), (zeros b (o + 4) 4, o + 4)])

/-- Codes of Table 17.1. -/
def producerCode (c : Nat) : Bool :=
  decide (c = 0 ∨ (0x100 ≤ c ∧ c < 0x130) ∨ (0x200 ≤ c ∧ c < 0x260) ∨ (0x300 ≤ c ∧ c ≤ 0x309) ∨ (0x400 ≤ c ∧ c < 0x404)
    ∨ c = 0x410 ∨ c = 0x411 ∨ (0x500 ≤ c ∧ c < 0x508) ∨ (0x600 ≤ c ∧ c < 0x608) ∨ c = 0x700 ∨ c = 0x701 ∨ (0xF00 ≤ c ∧ c < 0xF80))
def consumerCode (c : Nat) : Bool :=
  decide ((0x100 ≤ c ∧ c < 0x130) ∨ (0x200 ≤ c ∧ c < 0x260) ∨ (0x800 ≤ c ∧ c < 0x804))

def valHEADLAND (b : List Byte) : List (Bool × Nat) :=
  [(decide (u16 b 0 ≤ 1024), 0), (zeros b 2 2, 2)]
    ++ (span 0 256).flatMap (fun a => [(producerCode (hlProducer b a), 4 + 4 * a), (decide (hlOwner b a ≤ 7), 6 + 4 * a),
      (decide (hlAttr b a < 4), 7 + 4 * a)])
    ++ (span 0 (hlNcons b)).flatMap (fun j => [(consumerCode (hlCons b j).1, 1028 + 4 * j), (zeros b (1031 + 4 * j) 1, 1031 + 4 * j)])
    ++ (span 0 128).map (fun n => (decide (u8 b (hlCellAt b n + 6) < 32), hlCellAt b n + 6))
    ++ (span 0 16).flatMap (fun g => [(decide (u8 b (hlGroupAt b g + 34) ≤ 1), hlGroupAt b g + 34), (zeros b (hlGroupAt b g + 35) 1, hlGroupAt b g + 35)])
    ++ (span 0 8).map (fun i => (zeros b (hlGatedAt b i + 2) 2, hlGatedAt b i + 2))

/-- The privileged set of sources, which alone may be LOWPRI. -/
def irqShared (n : Nat) : Bool := decide (n ≤ 1025 ∨ (1027 ≤ n ∧ n ≤ 1029))

def valIRQ (b : List Byte) : List (Bool × Nat) :=
  (span 0 1152).map (fun n =>
    let w := u16 b (2 * n)
    (decide (w % 8 ≠ 7 ∧ w < 2048) && (!w.testBit 3 || irqShared n), 2 * n))

def valRETAIN (b : List Byte) : List (Bool × Nat) :=
  [(decide (u8 b 0 ≤ 64), 0), (zeros b 2 2, 2)]
    ++ (span 0 (u8 b 0)).flatMap (fun j =>
      let o := 4 + 12 * j
      let a := u32 b o
      [(decide (a % 64 = 0 ∧ ((0x20000000 ≤ a ∧ a + u32 b (o + 8) ≤ 0x21400000) ∨ (0x40000000 ≤ a ∧ a < 0x50000000))), o),
       (decide (u32 b (o + 4) % 64 = 0), o + 4), (decide (u32 b (o + 8) ≠ 0 ∧ u32 b (o + 8) % 64 = 0), o + 8)])

def valCOEX (b : List Byte) : List (Bool × Nat) :=
  [(decide (u8 b 0 ≤ 1), 0), (decide (u8 b 1 ≤ 1), 1), (decide (1 ≤ u16 b 2 ∧ u16 b 2 ≤ 10000), 2)]
    ++ (span 0 16).flatMap (fun c =>
      let o := 4 + 4 * c
      [(decide (u8 b o ≤ 1), o), (decide (u8 b (o + 1) ≤ 200), o + 1), (decide (u8 b (o + 2) ≤ 1), o + 2), (zeros b (o + 3) 1, o + 3)])

/-- The record of profile `i` in bank 2. -/
def Dev.profileAt (d : Dev) (i : Nat) : List Byte := d.bytes (profileAddr i) 256

/-- Profile `i` is valid for chain `t` (R87): its layout, and its CMAC under the profile key of slot 255 (R222). -/
def Dev.profileValid (d : Dev) (t i : Nat) : Bool :=
  let p := d.profileAt i
  let k := d.kslot 255
  decide (i ≤ 15) && profileOk t i p && k.opens && k.use.testBit usePROFILE && cmac k.key (p.take 0xF0) == (p.drop 0xF0).take 16

def Dev.valRADIO (d : Dev) (b : List Byte) : List (Bool × Nat) :=
  [(decide (u8 b 0 ≤ 1), 0), (d.profileValid 0 (u8 b 1), 1), (decide (u8 b 2 < 8), 2), (decide (u8 b 3 ≤ 1), 3), (decide (u8 b 4 ≤ 1), 4),
   (d.profileValid 1 (u8 b 5), 5), (decide (u8 b 6 < 8), 6), (zeros b 7 1, 7)]

/-- Limits of a body, in ascending offset. -/
def Dev.secLimits (d : Dev) (typ : Nat) (b : List Byte) : List (Bool × Nat) :=
  match typ with
  | 0x01 => valCLOCK b
  | 0x02 => valPOWER b
  | 0x03 => valMEMORY b
  | 0x04 => valPADS b
  | 0x05 => valGRID b
  | 0x06 => valDETECT b
  | 0x07 => valSTRIPS b
  | 0x08 => valHEADLAND b
  | 0x09 => valIRQ b
  | 0x0A => valRETAIN b
  | 0x0B => valCOEX b
  | _ => d.valRADIO b

/-- Limits of the header. -/
def headLimits (part : Bool) (b : List Byte) : List (Bool × Nat) :=
  [(decide (u16 b 6 ≤ 1), 0x06), (part || decide (planBase b = 0), 0x10),
   (if part then decide (1 ≤ planDrain b ∧ planDrain b ≤ 2000) else decide (planDrain b = 0), 0x1A), (zeros b 0x1C 4, 0x1C), (zeros b 0x30 12, 0x30)]

def entLimits (e : PEnt) : List (Bool × Nat) :=
  [(decide (e.inst < secInst e.typ), e.pos + 1), (decide (e.ver = 1), e.pos + 2), (decide (e.zero = 0), e.pos + 3), (decide (e.ofs % 4 = 0), e.pos + 4)]

/-- The first byte that no part claims and that is not 0 (R59). -/
def unclaimed (b : List Byte) : Option Nat :=
  let es := planEnts b
  let lo := 64 + 16 * planNsect b
  (span lo (planLen b - 128 - lo)).find? (fun o => u8 b o != 0 && !es.any (fun e => decide (e.ofs ≤ o ∧ o < e.ofs + e.size)))

/-- Check 11. A byte that no part claims and that is not 0 fails here with SECT 0, after the directory entries and before the sections: the manual
names neither the check nor the place of such a byte (DESIGN CHOICE, log entry 130). -/
def Dev.planValues (d : Dev) (part : Bool) (b : List Byte) : Option PFail :=
  let es := planEnts b
  let ent (l : List (Option PFail)) : Option PFail := firstOf l
  firstOf [(badOfs (headLimits part b)).map (fun o => (11, 0, o)),
    ent (es.map (fun e => (badOfs (entLimits e)).map (fun o => (11, e.idx, o)))),
    (unclaimed b).map (fun o => (11, 0, o)),
    ent (es.map (fun e => (badOfs (d.secLimits e.typ (e.body b))).map (fun o => (11, e.idx, e.ofs + o))))]

/-! ### Check 12: rules

A failure is the list of the fields that take part in it, each by section and offset in the body. -/

/-- Section TYPE, INST and offset in its body. -/
abbrev Field := Nat × Nat × Nat

/-- The sections that the rules judge: the plan's own, over those in force. -/
structure PSecs where
  own  : List (PEnt × List Byte)
  base : List Section

def PSecs.get (s : PSecs) (typ inst : Nat) : Option (List Byte) :=
  match s.own.find? (fun p => p.1.typ == typ && p.1.inst == inst) with
  | some p => some p.2
  | none => secOf s.base typ inst

/-- Where a field lies in the plan being checked: directory index and offset. -/
def PSecs.place (s : PSecs) (f : Field) : Option (Nat × Nat) :=
  (s.own.find? (fun p => p.1.typ == f.1 && p.1.inst == f.2.1)).map (fun p => (p.1.idx, p.1.ofs + f.2.2))

/-- The field named for one failure: the first of this plan that takes part. -/
def PSecs.blame (s : PSecs) (l : List Field) : Nat × Nat := (leastField (l.filterMap s.place)).getD (0, 0)

/-- One rule: its first failure. -/
def PSecs.rule (s : PSecs) (fails : List (List Field)) : Option PFail := failAt 12 (leastField (fails.map s.blame))

/-- Regions of a MEMORY body. -/
def memRegions (b : List Byte) : List (Nat × Nat × Nat) := (span 0 (u8 b 2)).map (fun j => (j, u32 b (4 + 12 * j), u32 b (8 + 12 * j)))

/-- R65. A region that runs past the end of general SRAM fails this rule with L2_KIB 0 too, where the manual names no code (DESIGN CHOICE, log entry
133). -/
def ruleR65 (s : PSecs) : List (List Field) :=
  match s.get tMEMORY 0 with
  | none => []
  | some b =>
    let l := memRegions b
    l.flatMap (fun x =>
      (if x.2.1 + x.2.2 ≤ carveAt b then [] else [[(tMEMORY, 0, 4 + 12 * x.1)] ++ (if u16 b 0 = 0 then [] else [(tMEMORY, 0, 0)])])
      ++ (l.filter (fun y => decide (y.1 < x.1 ∧ x.2.1 < y.2.1 + y.2.2 ∧ y.2.1 < x.2.1 + x.2.2))).map
        (fun y => [(tMEMORY, 0, 4 + 12 * y.1), (tMEMORY, 0, 4 + 12 * x.1)]))

/-- Half of the widest searched bandwidth, doubled to stay whole. -/
def gridW (g : List Byte) : Nat := if gridBw g = 0 then 0 else widest (gridBw g)

def ruleR67 (s : PSecs) : List (List Field) :=
  (span 0 4).flatMap (fun c =>
    match s.get tGRID c with
    | none => []
    | some g =>
      let h := segHz c
      let lo := if c < 2 then 400000000 else 2400000000
      let hi := if c < 2 then 1020000000 else 2500000000
      let far (k : Nat) : Bool := decide (2 * h < 2 * (s32 g 4 + k * (u32 g 8 : Int)).natAbs + gridW g)
      (if far 0 || far (gridChans g - 1) then [[(tGRID, c, 4)]] else [])
        ++ (if lo + h ≤ u32 g 0 ∧ u32 g 0 + h ≤ hi then [] else [[(tGRID, c, 0)]]))

/-- PLEVEL holds core `c` in reset. -/
def PSecs.heldCore (s : PSecs) (c : Nat) : Bool := match s.get tPOWER 0 with
  | some b => u8 b (4 + c) == 0xFF
  | none => false

def ruleR68 (s : PSecs) : List (List Field) :=
  let strips := (s.get tSTRIPS 0).getD (List.replicate 128 0xFF)
  let served (c k : Nat) : Bool := (span 0 16).any (fun i => u8 strips (8 * i) == c && decide (u8 strips (8 * i + 2) ≤ k ∧ k ≤ u8 strips (8 * i + 3)))
  let bw := (span 0 4).flatMap (fun c => match s.get tDETECT c with
    | none => []
    | some t =>
      let m := match s.get tGRID c with | some g => gridBw g | none => 0
      ((span 0 40).filter (fun i => u8 t i != 0 && !m.testBit (i / 8))).map (fun i => [(tDETECT, c, i), (tGRID, c, 14)]))
  let last := (span 0 16).flatMap (fun i =>
    let c := u8 strips (8 * i)
    if c = 0xFF then [] else match s.get tGRID c with
      | none => [[(tSTRIPS, 0, 8 * i)]]
      | some g => if u8 strips (8 * i + 3) < gridChans g then [] else [[(tSTRIPS, 0, 8 * i + 3), (tGRID, c, 12)]])
  let cover := (span 0 4).flatMap (fun c => match s.get tDETECT c, s.get tGRID c with
    | some t, some g =>
      match (span 0 40).find? (fun i => u8 t i != 0) with
      | none => []
      | some i => if (span 0 (gridChans g)).all (served c) then [] else [[(tSTRIPS, 0, 0), (tDETECT, c, i), (tGRID, c, 12)]]
    | _, _ => [])
  let irq := match s.get tIRQ 0 with
    | none => []
    | some b => ((span 0 1152).filter (fun n => s.heldCore (u16 b (2 * n) % 8))).map (fun n => [(tIRQ, 0, 2 * n), (tPOWER, 0, 4 + u16 b (2 * n) % 8)])
  bw ++ last ++ cover ++ irq

/-- A code belongs to a block that the plan leaves unused, and the field that says so (R69). -/
def PSecs.unused (s : PSecs) (code : Nat) (consumer : Bool) : Option (List Field) :=
  if 0x100 ≤ code ∧ code < 0x130 then
    let g := code - 0x100
    if (s.get tPADS 0).any (fun b => padFunc b g == if consumer then 4 else 3) then none else some [(tPADS, 0, 4 + 4 * g)]
  else if code = 0x410 ∨ code = 0x411 then
    if (s.get tRADIO 0).any (fun b => u8 b (4 * (code % 2)) == 1) then none else some [(tRADIO, 0, 4 * (code % 2))]
  else if 0x500 ≤ code ∧ code < 0x508 then if (s.get tGRID (code % 4)).isSome then none else some []
  else if code = 0x700 ∨ code = 0x701 then
    if (s.get tCOEX 0).any (fun b => u8 b 0 == 1) then none else some [(tCOEX, 0, 0)]
  else none

/-- R69 with R336, judged where HEADLAND is present. -/
def ruleR69 (s : PSecs) : List (List Field) :=
  match s.get tHEADLAND 0 with
  | none => []
  | some b =>
    let h (o : Nat) : Field := (tHEADLAND, 0, o)
    let chans := (span 0 256).flatMap (fun a =>
      let p := hlProducer b a
      (if p = 0 then [] else
        (((span 0 a).find? (fun x => hlProducer b x == p)).toList.map (fun x => [h (4 + 4 * x), h (4 + 4 * a)]))
        ++ (match s.unused p false with | some l => [h (4 + 4 * a) :: l] | none => []))
      ++ (if (hlAttr b a).testBit 1 && hlOwner b a == 7 then [[h (6 + 4 * a)]] else []))
    let cons := (span 0 (hlNcons b)).flatMap (fun j =>
      let x := hlCons b j
      (((span 0 j).find? (fun i => (hlCons b i).1 == x.1)).toList.map (fun i => [h (1028 + 4 * i), h (1028 + 4 * j)]))
      ++ (match s.unused x.1 true with | some l => [h (1028 + 4 * j) :: l] | none => [])
      ++ (if (hlAttr b x.2).testBit 1 && decide (0x100 ≤ x.1 ∧ x.1 < 0x130) then [[h (7 + 4 * x.2), h (1028 + 4 * j)]] else []))
    let cells := (span 0 128).flatMap (fun n =>
      let o := hlCellAt b n
      match cellChannel b n with
      | none => if zeros b o 8 then [] else [[h o]]
      | some a =>
        (if hlProducer b (u8 b (o + 7)) = 0xF00 + n ∨ u8 b (o + 7) = a then [] else [[h (4 + 4 * u8 b (o + 7)), h (o + 7)]])
        ++ (if (u8 b (o + 6)).testBit 0 && u8 b (o + 3) != 0 then [[h (o + 3)]] else []))
    let groups := (span 0 16).flatMap (fun g =>
      ((span 0 g).filter (fun x => (span 0 256).any (fun a => hlMember b g a && hlMember b x a))).map (fun x => [h (hlGroupAt b x), h (hlGroupAt b g)]))
    let pads := match s.get tPADS 0 with
      | none => []
      | some p => (span 0 48).flatMap (fun g =>
        let a := padArg p g
        let named := (span 0 (hlNcons b)).filter (fun j => (hlCons b j).1 == 0x100 + g)
        if padFunc p g == 3 && hlProducer b a != 0x100 + g then [[h (4 + 4 * a), (tPADS, 0, 4 + 4 * g)]]
        else if padFunc p g == 4 && !(named.any (fun j => (hlCons b j).2 == a)) then
          [(tPADS, 0, 4 + 4 * g) :: (if named.isEmpty && (s.place (tPADS, 0, 4 + 4 * g)).isNone then [h 0] else named.map (fun j => h (1028 + 4 * j)))]
        else [])
    chans ++ cons ++ cells ++ groups ++ pads

/-- Retainable peripheral ranges (Table 19.3, R442): block base, first and last offset. -/
def retainable : List (Nat × Nat × Nat) :=
  [(0x40050000, 0x050, 0x053), (0x40050000, 0x100, 0x2FF), (0x40060000, 0x600, 0x603), (0x40040000, 0, 0x11FF), (0x40040000, 0x1400, 0x148F),
   (0x40310000, 0, 0xFFFF), (0x40300000, 0, 0x05B), (0x40320000, 0, 0x01B), (0x40200000, 0, 0x01F), (0x40200000, 0x0B0, 0x0B3),
   (0x40520000, 0, 0x00F), (0x40520000, 0x014, 0x017), (0x40530000, 0, 3), (0x40531000, 0, 3), (0x40540000, 0, 3), (0x40550000, 0, 3),
   (0x40551000, 0, 3), (0x40560000, 8, 0xF)] ++ (span 0 24).map (fun t => (0x40060000, 0x40 * t, 0x40 * t + 0x27))

/-- The word at a peripheral address is retainable. -/
def retainWord (a : Nat) : Bool := retainable.any (fun x => decide (x.1 + x.2.1 ≤ a ∧ a ≤ x.1 + x.2.2))

/-- The entry names retainable words alone, taken by the 64-byte pieces that SRC and SIZE are multiples of: a piece is named for the
retainable words in it, and the words beside them save as 0 and are not written back (DEDUCED, log entry 40). The child table runs on through its
pages (Table 19.3). -/
def retainsOnly (src n : Nat) : Bool :=
  if 0x40310000 ≤ src ∧ src < 0x40320000 then decide (src + n ≤ 0x40350000)
  else (span 0 (n / 64)).all (fun k => (span 0 16).any (fun w => retainWord (src + 64 * k + 4 * w)))

def ruleR70 (s : PSecs) : List (List Field) :=
  match s.get tRETAIN 0 with
  | none => []
  | some b =>
    let f (o : Nat) : Field := (tRETAIN, 0, o)
    (span 0 (u8 b 0)).flatMap (fun j =>
      let o := 4 + 12 * j
      let src := u32 b o
      let dst := u32 b (o + 4)
      let n := u32 b (o + 8)
      let outside := decide (0x40000000 ≤ src) && !retainsOnly src n
      (if outside then [[f o]] else [])
      ++ (if dst + n ≤ 0x80000 then [] else [[f (o + 4)]])
      ++ (if (span (dst / 65536) ((dst + n - 1) / 65536 + 1 - dst / 65536)).any (fun k => decide (k < 8) && (u8 b 1).testBit k) then [[f 1, f (o + 4)]] else [])
      ++ ((span 0 j).filter (fun i => decide (dst < u32 b (8 + 12 * i) + u32 b (12 + 12 * i) ∧ u32 b (8 + 12 * i) < dst + n))).map
        (fun i => [f (8 + 12 * i), f (o + 4)]))

/-- Locations of Table 1.3; a UART needs only its first two balls. -/
def padLocs : List (Nat × List (List Nat)) :=
  [(0x10, [[0, 1], [16, 17]]), (0x11, [[2, 3], [18, 19]]), (0x12, [span 4 7, span 20 7]), (0x13, [span 11 4, span 32 4]), (0x14, [span 36 4, span 40 4])]

def ruleR20 (s : PSecs) : List (List Field) :=
  match s.get tPADS 0 with
  | none => []
  | some b =>
    let ball (g : Nat) : Field := (tPADS, 0, 4 + 4 * g)
    let locs := padLocs.flatMap (fun x =>
      let got := (span 0 48).filter (fun g => padFunc b g == x.1)
      let fits (l : List Nat) : Bool := got.all (fun g => l.contains g) && (if x.1 = 0x13 ∨ x.1 = 0x14 then l.take 2 else l).all (fun g => got.contains g)
      match got with
      | [] => []
      | g :: _ => if x.2.any fits then [] else [[ball g]])
    let wake := ((span 0 44).filter (fun g => padFunc b g == 7)).map (fun g => [ball g])
    let strong := [(0, 16), (16, 32)].flatMap (fun x =>
      let big := (span x.1 x.2).filter (fun g => padElec b g % 4 == 3)
      if big.length ≤ 8 then [] else [[(tPADS, 0, 5 + 4 * big.headD 0)]])
    locs ++ wake ++ strong

/-- FUNC codes of Table 4.9. -/
def funcOk (f : Nat) : Bool := decide (f ≤ 7 ∨ (0x10 ≤ f ∧ f ≤ 0x14))

/-- R66: reserved codes, and VIO_B as measured (none: absent) against VIOB, judged where the plan carries PADS. -/
def ruleR66 (s : PSecs) (viob : Option Nat) : List (List Field) :=
  match s.get tPADS 0 with
  | none => []
  | some b =>
    ((span 0 48).filter (fun g => !funcOk (padFunc b g))).map (fun g => [(tPADS, 0, 4 + 4 * g)])
      ++ (if (s.own.any (fun p => p.1.typ == tPADS)) && viob != some (u8 b 0) then [[(tPADS, 0, 0)]] else [])

/-- R64: a partial POWER section changes CEIL_MW only. -/
def ruleR64 (s : PSecs) (part : Bool) : List (List Field) :=
  match part, s.own.find? (fun p => p.1.typ == tPOWER), secOf s.base tPOWER 0 with
  | true, some p, some old => (((span 2 10).find? (fun i => u8 p.2 i != u8 old i)).toList).map (fun i => [(tPOWER, 0, i)])
  | _, _, _ => []

/-- Check 12, its rules in the order of Table 4.18. -/
def planRules (s : PSecs) (part : Bool) (viob : Option Nat) : Option PFail :=
  firstOf [s.rule (ruleR65 s), s.rule (ruleR67 s), s.rule (ruleR68 s), s.rule (ruleR69 s), s.rule (ruleR70 s), s.rule (ruleR20 s),
    s.rule (ruleR66 s viob), s.rule (ruleR64 s part)]

/-- Check 13: R42 for a partial plan; for a full one the base reservation with the cores at their PLEVEL, a core that already runs
counting at the larger of the two (R64). -/
def Dev.planCeiling (d : Dev) (s : PSecs) (part : Bool) : Option PFail :=
  match s.own.find? (fun p => p.1.typ == tPOWER) with
  | none => none
  | some p =>
    let need := if part then d.reserved
      else ((span 0 7).map (fun c => max (if u8 p.2 (4 + c) = 0xFF then 0 else coreMw (u8 p.2 (4 + c))) (d.resvOf (resvCore c)))).foldl (· + ·) 300
    if need ≤ u16 p.2 0 then none else some (13, p.1.idx, p.1.ofs)

/-! ### The whole judgement -/

/-- Bytes from `a` on that a plan may take: to the end of its flash bank or of general SRAM, none where neither lies or the flash die is isolated. -/
def Dev.planRoom (d : Dev) (a : Nat) : Nat :=
  if flashAddr a then if d.pwr.flIso then 0 else 0x00800000 - a % 0x00800000
  else if 0x20000000 ≤ a ∧ a < 0x21400000 then 0x21400000 - a else 0

/-- Bytes that the sowing engine reads for a plan at `a`. -/
def Dev.planSpan (d : Dev) (a : Nat) : Nat := min (d.planRoom a) (max 64 (min 262144 (planLen (d.seen a (min (d.planRoom a) 12)))))

/-- The bytes of a plan as the sowing engine reads them (R306, R317); a word with an uncorrectable error gives open bytes (log entry 124). -/
def Dev.planBytes (d : Dev) (a : Nat) : List Byte := d.seen a (d.planSpan a)

/-- The sowing engine's reads of a plan, which are privileged traffic (R75, R306). -/
def Dev.planRead (d : Dev) (a : Nat) : Dev :=
  let d := d.touchRange a (d.planSpan a)
  if flashAddr a && decide (0 < d.planRoom a) then d.bankServed (bankOf (d.canon a)) else d

/-- The sections of a plan, over those in force where it is partial. -/
def Dev.planSecs (d : Dev) (part : Bool) (b : List Byte) : PSecs :=
  ⟨(planEnts b).map (fun e => (e, e.body b)), if part then d.sow.force else []⟩

/-- Checks 1 to 13 of Table 4.18, stopping at the first that fails (R71). -/
def Dev.planCheck (d : Dev) (part : Bool) (b : List Byte) (viob : Option Nat) : Option PFail :=
  match planHead b with
  | some f => some f
  | none =>
    let b := b.take (planLen b)
    match firstOf [d.planKey b, d.planOrder part b, planLayout b] with
    | some f => some f
    | none => firstOf [planCrcs b, planSet part b, d.planValues part b, planRules (d.planSecs part b) part viob,
        d.planCeiling (d.planSecs part b) part]

/-- A plan as the sowing engine keeps it. -/
def planOf (b : List Byte) (a : Nat) : Plan :=
  let b := b.take (planLen b)
  ⟨planSeq b, planBase b, planDrain b, planId b, sha256 b, a, (planEnts b).map (fun e => ⟨e.typ, e.inst, e.body b⟩)⟩

end Sys2Proof.Machine
end

