-- ==== Sys2Proof/Machine/Access.lean ====
section
/-! DEFINITION. What a write leaves in a register's fields by their access codes (Table 0.4, R14), and what a read clears. -/

namespace Sys2Proof.Machine

/-- A field locked by the W1S field of its register (access code RWL). -/
def RegDef.locked (r : RegDef) (old : Word) : Bool := r.fields.any (fun p => decide (p.2 = .w1s) && decide (getF old p.1 ≠ 0))

/-- One field after a write of `v` (R14). -/
def accField (locked : Bool) (old v w : Word) (f : Fld) : Acc → Word
  | .rw => setF w f (getF v f)
  | .ro | .rc => w
  | .wo => setF w f 0
  | .w1c => setF w f (getF (old &&& ~~~v) f)
  | .w1s => setF w f (getF (old ||| v) f)
  | .rwl => if locked then w else setF w f (getF v f)

/-- A register after a write of `v`: reserved bits keep reading 0 (R15). -/
def RegDef.write (r : RegDef) (old v : Word) : Word :=
  r.fields.foldl (fun (w : Word) p => accField (r.locked old) old v w p.1 p.2) old

/-- A plain write by the register's access codes. -/
def Dev.plainWrite (d : Dev) (a : Nat) (v : Word) : Dev :=
  match regAt a with
  | some (r, _) => d.setReg a (r.write (d.reg a) v)
  | none => d

/-- A register after a read: its RC fields are cleared (R14). -/
def RegDef.afterRead (r : RegDef) (old : Word) : Word :=
  r.fields.foldl (fun (w : Word) p => if p.2 = .rc then setF w p.1 0 else w) old

/-- The RC fields of a register cleared by a read. -/
def Dev.readClear (d : Dev) (a : Nat) : Dev :=
  match regAt a with
  | some (r, _) => d.setReg a (r.afterRead (d.reg a))
  | none => d

end Sys2Proof.Machine
end

