-- ==== Sys2Proof/Machine/Ledger.lean ====
section
/-! DEFINITION. The custody ledger (chapter 12): appends, verifications, push, recovery, the directory and lookups. -/

namespace Sys2Proof.Machine

/-! ### Status codes (Table 12.4) -/

def lsOK : Nat := 1
def lsBADDRAFT : Nat := 2
def lsNOKEY : Nat := 3
def lsLIMIT : Nat := 4
def lsCEILING : Nat := 5
def lsFULL : Nat := 6
def lsSTREAMEND : Nat := 7
def lsFLASHFAIL : Nat := 8
def lsNOORIGIN : Nat := 9
def lsBADRECORD : Nat := 10
def lsBADCHAIN : Nat := 11
def lsBADANCHOR : Nat := 12
def lsBUSFAULT : Nat := 13

/-! ### Records (R245 to R247) -/

/-- S of a FORMAT byte; 0 for the reserved SIZE. -/
def recSize (f : Nat) : Nat :=
  match f / 64 with
  | 0 => 64
  | 1 => 128
  | 2 => 256
  | _ => 0

def recOrigin (b : List Byte) : Nat := u8 b 4 + 256 * u8 b 5 + 65536 * u8 b 6
def recSeq (b : List Byte) : Nat := u32 b 8
def recTime (b : List Byte) : Nat := u32 b 12 + 2 ^ 32 * u32 b 16

/-- The chain value of a record (R246). -/
def chainOf (b : List Byte) : List Byte := (sha256 b).take 16

/-- Every field lies within its limits and every byte marked 0 is 0 (R245, R247); a reserved TYPE is outside them. -/
def recOk (b : List Byte) : Bool :=
  let n := recSize (u8 b 0)
  let t := u8 b 1
  decide (n ≠ 0) && u8 b 0 % 64 == 1 && b.length == n && !decide (3 ≤ t ∧ t ≤ 15) && decide (u8 b 2 + 48 ≤ n)
    && decide (u8 b 3 ≤ 1) && decide (recOrigin b < 2 ^ 20) && (t != 0 || u8 b 2 == 0)
    && ((b.drop (0x24 + u8 b 2)).take (n - 48 - u8 b 2)).all (· == 0)

/-- Record `m` follows record `n` (R247). -/
def follows (n m : List Byte) : Bool :=
  recOrigin m == recOrigin n && recSeq m == recSeq n + 1 && decide ((m.drop 0x14).take 16 = chainOf n)
    && decide (recTime n ≤ recTime m)

/-- The tag verifies under an open ledger key of one of the three slots with the record's KEYID (R253). -/
def Dev.tagOk (d : Dev) (b : List Byte) : Bool :=
  let n := b.length
  [d.get LGR_KEYS LGR_KEYS_SEAL, d.get LGR_KEYS LGR_KEYS_VSLOT0, d.get LGR_KEYS LGR_KEYS_VSLOT1].any (fun i =>
    let k := d.kslot i
    decide (i ≠ 255) && k.opens && k.use.testBit useLEDGER && k.keyid == u8 b 7
      && decide ((cmac k.key (b.take (n - 12))).take 12 = b.drop (n - 12)))

/-! ### The ring (R251) -/

/-- Low-view address of a stream offset. -/
def ringAt (o : Nat) : Nat := 0x01800000 + 4096 * (o / 4096 % 2040) + o % 4096

def Dev.head (d : Dev) : Nat := (d.reg LGR_HEAD).toNat
def Dev.archived (d : Dev) : Nat := (d.reg LGR_ARCH).toNat

/-- FREESECT of R251. -/
def Dev.freeSect (d : Dev) : Nat := 2040 - (ceilDiv d.head 4096 - d.archived / 4096)

/-- LGR_STAT follows: QLEN, FREESECT; the alert when FREESECT falls to LOWMARK or below. -/
def Dev.lgrSync (d : Dev) : Dev :=
  let low := d.get LGR_LOW LGR_LOW_LOWMARK
  let was := d.get LGR_STAT LGR_STAT_FREESECT
  let n := d.freeSect
  let d := (d.put LGR_STAT LGR_STAT_QLEN d.lgr.queue.length).put LGR_STAT LGR_STAT_FREESECT n
  d.when (decide (low < was ∧ n ≤ low)) (fun d => d.pulse 1041)

/-- The record at a ring offset, as many bytes as its FORMAT gives. -/
def Dev.recAt (d : Dev) (o : Nat) : List Byte := d.seen (ringAt o) (recSize (d.seenByte (ringAt o)).toNat)

/-- The reads of the ring that find errors (R317). -/
def Dev.ringReads (d : Dev) : Dev :=
  (d.flErr.filter (fun p => decide (0x09800000 ≤ 16 * p.1 ∧ 16 * p.1 < 0x0A000000))).foldl (fun (d : Dev) p => (d.flashFind (16 * p.1)).2) d

/-! ### The queue (R250) -/

/-- An operation joins the queue, or is ignored and counted. -/
def Dev.lgrQueue (d : Dev) (q : LgrOp) : Dev :=
  if 16 ≤ d.lgr.queue.length then d.count (LGR_CNT 2)
  else Dev.lgrSync { d with lgr := { d.lgr with queue := d.lgr.queue ++ [q] } }

/-- APPEND_SUBMIT (R250). -/
def execAppendSubmit (c : Fin 7) (v : Word) (s : State) : Host.Outcome State Fault Refusal :=
  s.ask (.appendSubmit c v) LGR_APPEND fun d => d.byCore c LGR_APPEND true fun d => d.lgrQueue ⟨0, c, v.toNat / 16 * 16⟩

/-- VERIFY_SUBMIT (R253). -/
def execVerifySubmit (c : Fin 7) (v : Word) (s : State) : Host.Outcome State Fault Refusal :=
  s.ask (.verifySubmit c v) LGR_VERIFY fun d => d.byCore c LGR_VERIFY true fun d => d.lgrQueue ⟨1, c, v.toNat / 16 * 16⟩

/-- The record of the ring that ends at offset `e`, walking records from offset `o` on (fuel). -/
def Dev.recEnding (d : Dev) (e : Nat) : Nat → Nat → Option (List Byte)
  | 0, _ => none
  | n + 1, o =>
    let r := d.recAt o
    if r.length = 0 then none
    else if o + r.length = e then some r
    else if e < o + r.length then none
    else d.recEnding e n (o + r.length)

/-- The record that a new ARCHIVED of `v` covers last: none where `v` is refused (R251). -/
def Dev.archLast (d : Dev) (v : Nat) : Option (List Byte) :=
  if d.archived < v ∧ v ≤ d.head then d.recEnding v ((v - d.archived) / 64 + 1) d.archived else none

/-- ARCHIVE_SUBMIT (R251): a write to LGR_ARCH is queued like an append and judged when it is served. -/
def execArchiveSubmit (c : Fin 7) (v : Word) (s : State) : Host.Outcome State Fault Refusal :=
  s.ask (.archiveSubmit c v) LGR_ARCH fun d => d.byCore c LGR_ARCH true fun d => d.lgrQueue ⟨2, c, v.toNat⟩

/-! ### Sealing (R248, R250) -/

/-- FILL records before a record of `n` bytes at offset `o` (R248). -/
def fillsAt (o n : Nat) : Nat := if 4096 < o % 4096 + n then (4096 - o % 4096) / 64 else 0

/-- A slot charged `n` uses at once (R250): 0 admitted, else LIMIT or CEILING. -/
def Dev.chargeN (d : Dev) (i n : Nat) : Nat × Dev :=
  let k := d.kslot i
  if k.used + n ≤ k.ceil then
    let d := d.setKslot i { k with used := k.used + n }
    (0, if k.limit ≤ k.used + n then d.exhaust i else d)
  else if k.ceil = k.limit then (lsLIMIT, d.count (KEY_CNT 1)) else (lsCEILING, d.count (KEY_CNT 2))

/-- A record sealed after `prev` (R245, R246). -/
def Dev.seal (d : Dev) (prev : Option (List Byte)) (fmt typ seq : Nat) (payload : List Byte) : List Byte :=
  let k := d.kslot (d.get LGR_KEYS LGR_KEYS_SEAL)
  let n := recSize fmt
  let t := match prev with
    | some p => max d.meshNow (recTime p)
    | none => d.meshNow
  let chain := match prev with
    | some p => chainOf p
    | none => List.replicate 16 0
  let unsync := if d.synced then 0 else 1
  let body : List Byte := leBytes 1 fmt ++ leBytes 1 typ ++ leBytes 1 payload.length ++ leBytes 1 unsync
    ++ leBytes 3 (d.get LGR_ORIGIN LGR_ORIGIN_ORIGIN) ++ leBytes 1 k.keyid ++ leBytes 4 seq ++ leBytes 8 t ++ chain ++ payload
    ++ List.replicate (n - 48 - payload.length) 0
  body ++ (cmac k.key body).take 12

/-- `f` FILL records and the record, sealed in order from offset `o` on. -/
def Dev.sealRun (d : Dev) (fmt typ : Nat) (payload : List Byte) (prev : Option (List Byte)) (o seq : Nat) : Nat → List (Nat × List Byte)
  | 0 => [(o, d.seal prev fmt typ seq payload)]
  | f + 1 =>
    let r := d.seal prev 1 0 seq []
    (o, r) :: d.sealRun fmt typ payload (some r) (o + 64) (seq + 1) f

/-- Steps 2 to 4 of R250 for a record: its status, 0 when the records are sealed and their programming has begun. -/
def Dev.lgrSeal (d : Dev) (fmt typ : Nat) (payload : List Byte) (desc : Option (Nat × Bool)) (push : Option Nat) : Nat × Dev :=
  let n := recSize fmt
  let f := fillsAt d.head n
  let o := d.head + 64 * f
  let slot := d.get LGR_KEYS LGR_KEYS_SEAL
  let k := d.kslot slot
  if !d.flag LGR_ORIGIN LGR_ORIGIN_LOCK then (lsNOORIGIN, d)
  else if d.flag LGR_STAT LGR_STAT_ENDED then (lsSTREAMEND, d)
  else if 2 ^ 32 ≤ o + n then (lsSTREAMEND, d.put LGR_STAT LGR_STAT_ENDED 1)
  else if slot = 255 ∨ k.state ≠ 2 ∨ !k.use.testBit useLEDGER then (lsNOKEY, d)
  else if k.ceil < k.used + f + 1 then d.chargeN slot (f + 1)
  else if o % 4096 = 0 ∧ d.archived + 4096 * 2039 < o then (lsFULL, d.put LGR_STAT LGR_STAT_FULLF 1)
  else
    let d := (d.chargeN slot (f + 1)).2
    let recs := d.sealRun fmt typ payload d.lgr.last d.head (d.reg LGR_HSEQ).toNat f
    (0, (if d.mayProg then d.engBegin 3 else d) |> fun d => { d with lgr := { d.lgr with run := some ⟨recs, desc, push, d.mayProg⟩ } })

/-- An operation ends with a status: REFUSED, STATUS of its descriptor, the completion source. -/
def Dev.lgrEnd (d : Dev) (desc : Option Nat) (st : Nat) : Dev :=
  let d := d.when (decide (st ≠ lsOK)) (fun d => d.count (LGR_CNT 1))
  let d := match desc with
    | some a => d.setBytes (a + 12) [BitVec.ofNat 8 st]
    | none => d
  (d.pulse 1040).lgrSync

/-- The operation at the front of the queue, of kind `k`, taken for service: recovery is over, nothing runs, and an AES engine is free of the work of
higher classes (R235). -/
def Dev.lgrServe (d : Dev) (k : Nat) (f : Dev → LgrOp → Dev) : Dev :=
  match d.lgr.queue with
  | [] => d
  | q :: r =>
    if q.kind = k ∧ d.lgr.run = none ∧ d.get LGR_STAT LGR_STAT_STATE = 2 ∧ d.aesAbove < 2 then
      f (Dev.lgrSync { d with lgr := { d.lgr with queue := r } }) q
    else d

/-- The draft and its descriptor judged (step 1 of R250). -/
def draftOk (desc draft : List Byte) : Bool :=
  let n := recSize (u8 draft 0)
  u32 desc 0 % 4 == 0 && (desc.drop 13).all (· == 0) && decide (n ≠ 0) && u8 draft 0 % 64 == 1 && decide (0x10 ≤ u8 draft 1)
    && decide (u8 draft 2 + 48 ≤ n)

/-- A descriptor the engine can read and write with the rights of its core; one it cannot takes no STATUS (log entry 140). -/
def Dev.lgrDesc (d : Dev) (q : LgrOp) : Bool := d.busOk true q.core q.arg 16 false && d.busOk true q.core q.arg 16 true

/-- LEDGER_APPEND (R250). -/
def execLedgerAppend (s : State) : Host.Outcome State Fault Refusal :=
  s.run fun d => d.lgrServe 0 fun d q =>
    let d := d.touchRange q.arg 16
    if !d.lgrDesc q then d.lgrEnd none lsBUSFAULT
    else
      let desc := d.seen q.arg 16
      let a := u32 desc 0
      let n := recSize (d.seenByte a).toNat
      let d := d.touchRange a (max 4 n)
      if !d.busOk true q.core a (max 4 n) false then d.lgrEnd (some q.arg) lsBUSFAULT
      else
        let draft := d.seen a (max 4 n)
        if !draftOk desc draft then d.lgrEnd (some q.arg) lsBADDRAFT
        else
          let r := d.lgrSeal (u8 draft 0) (u8 draft 1) ((draft.drop 0x24).take (u8 draft 2)) (some (q.arg, true)) none
          if r.1 = 0 then r.2 else r.2.lgrEnd (some q.arg) r.1

/-- Payload of a RECEIPT or PUSH. -/
def spanPayload (origin first last : Nat) (rec : List Byte) : List Byte :=
  leBytes 4 origin ++ leBytes 4 first ++ leBytes 4 last ++ (sha256 rec).take 4

/-- LEDGER_PUSH (R251): a value that is not above ARCHIVED, is above HEAD, or lies on no record boundary is ignored. -/
def execLedgerPush (s : State) : Host.Outcome State Fault Refusal :=
  s.run fun d => d.lgrServe 2 fun d q =>
    match d.archLast q.arg with
    | none => d.put LGR_STAT LGR_STAT_BADARCH 1
    | some last =>
      let p := spanPayload (d.get LGR_ORIGIN LGR_ORIGIN_ORIGIN) (recSeq (d.recAt d.archived)) (recSeq last) last
      let r := d.lgrSeal 1 2 p none (some q.arg)
      if r.1 = 0 then r.2 else r.2.lgrEnd none r.1

/-! ### Verification (R253) -/

/-- The first failure of a run of records from address `a` on: status and index. -/
def Dev.verifyRun (d : Dev) (core : Nat) (anchor : Option (List Byte)) (prev : Option (List Byte)) (i : Nat) : Nat → Nat → Nat × Nat × List Byte
  | 0, _ => (lsOK, i, prev.getD [])
  | n + 1, a =>
    if !d.busOk true core a 64 false then (lsBUSFAULT, i, [])
    else
      let len := recSize (d.seenByte a).toNat
      if len = 0 then (lsBADRECORD, i, [])
      else if !d.busOk true core a len false then (lsBUSFAULT, i, [])
      else
        let b := d.seen a len
        if !(recOk b && d.tagOk b) then (lsBADRECORD, i, [])
        else if (match prev with | some p => !follows p b | none => false) then (lsBADCHAIN, i, [])
        else if (match prev, anchor with | none, some x => decide ((b.drop 0x14).take 16 ≠ x) | _, _ => false) then (lsBADANCHOR, i, [])
        else d.verifyRun core anchor (some b) (i + 1) n (a + len)

/-- A verify descriptor lies within its limits; `own`: this device's origin. -/
def verifyDescOk (v : List Byte) : Bool :=
  u32 v 0 % 4 == 0 && decide (1 ≤ u16 v 4 ∧ u16 v 4 ≤ 4096 ∧ u8 v 6 ≤ 3) && u8 v 7 == 0 && u8 v 13 == 0

/-- LEDGER_VERIFY (R253). -/
def execLedgerVerify (s : State) : Host.Outcome State Fault Refusal :=
  s.run fun d => d.lgrServe 1 fun d q =>
    let d := d.touchRange q.arg 16
    if !d.lgrDesc q then d.lgrEnd none lsBUSFAULT
    else
      let v := d.seen q.arg 16
      let src := u32 v 0
      let anch := (u8 v 6).testBit 0
      let receipt := (u8 v 6).testBit 1
      if !verifyDescOk v then d.lgrEnd (some q.arg) lsBADDRAFT
      else
      let d := d.touchRange src 64
      if !(d.busOk true q.core src 64 false && (!anch || d.busOk true q.core (u32 v 8) 16 false)) then d.lgrEnd (some q.arg) lsBUSFAULT
      else
        let first := d.seen src 64
        if receipt && recOrigin first == d.get LGR_ORIGIN LGR_ORIGIN_ORIGIN then d.lgrEnd (some q.arg) lsBADDRAFT
        else
          let r := d.verifyRun q.core (if anch then some (d.seen (u32 v 8) 16) else none) none 0 (u16 v 4) src
          if r.1 = lsOK then
            if receipt then
              let p := spanPayload (recOrigin first) (recSeq first) (recSeq r.2.2) r.2.2
              let x := d.lgrSeal 1 1 p (some (q.arg, false)) none
              if x.1 = 0 then x.2 else x.2.lgrEnd (some q.arg) x.1
            else d.lgrEnd (some q.arg) lsOK
          else
            let d := d.when (r.1 != lsBUSFAULT) (fun d => (d.setBytes (q.arg + 14) (leBytes 2 r.2.1)).count (LGR_CNT 4))
            d.lgrEnd (some q.arg) r.1

/-! ### Programming and durability (R250 to R252) -/

/-- The words of a record programmed in ascending address; `good` words verify. True when all do. -/
def Dev.progRec (d : Dev) (a : Nat) (good : Nat) : List (List Byte) → Bool × Dev
  | [] => (true, d)
  | w :: r =>
    let d := d.progVerify (d.canon a) w (decide (0 < good))
    if good = 0 then (false, d) else d.progRec (a + 16) (good - 1) r

/-- A torn part of a stream sector (R252): the durable bytes below `o` go to a fresh physical sector and the old one is erased, by a
remap or, where the table is full, by a copy-back (R311). -/
def Dev.tornFix (d : Dev) (o : Nat) : Dev :=
  let w := 1
  let x := d.winOf w
  let slot := x.slotOf w (o / 4096 % 2040)
  let i := x.idx slot
  let keep := fun (d : Dev) (dst : Nat) =>
    (d.mem.filter (fun p => inSector (winHome w i) p.1 && decide (p.1 < winHome w i + o % 4096))).foldl
      (fun d p => d.setByte (dst + (p.1 - winHome w i)) p.2) (d.eraseSector dst)
  let d := d.count (LGR_CNT 3)
  match x.pick w slot with
  | some q => (((keep d (winHome w q)).winRemap w slot q).eraseSector (winHome w i)).winShow w
  | none =>
    match (x.pool w).head? with
    | none => d
    | some p =>
      let d := (keep d (winHome w p)).setWin w { x with copyback := x.copyback ++ [(slot, p)] }
      (((d.winPut w 4 slot p).copyBackEnd w slot p).count (FLC_CNT 10)).winShow w

/-- One record made durable: HEAD and HSEQ move past it. -/
def Dev.headPast (d : Dev) (o : Nat) (r : List Byte) : Dev :=
  let d := { d with lgr := { d.lgr with last := some r } }
  (d.setReg LGR_HEAD (BitVec.ofNat 32 (o + r.length))).setReg LGR_HSEQ (BitVec.ofNat 32 (recSeq r + 1))

/-- The records of a run programmed; a new stream sector is erased first (`erOk`: the erase verifies). `none` when every word verified; else the
offset of the record that failed, where bytes of it were left. -/
def Dev.progRun (d : Dev) (erOk : Bool) (good : Nat) : List (Nat × List Byte) → Option (Option Nat) × Dev
  | [] => (none, d)
  | (o, r) :: l =>
    let d := d.bankServed 3
    let e := if o % 4096 = 0 then
        let q := d.winErase 1 (o / 4096 % 2040) erOk
        (q.1, { q.2 with lgr := { q.2.lgr with opened := o / 4096 } })
      else (true, d)
    if !e.1 then (some none, e.2)
    else
      let p := e.2.progRec (ringAt o) good (pieces 16 r (r.length / 16))
      if !p.1 then (some (some o), p.2)
      else
        let d := if r.getD 1 0 = 0 then p.2.count (LGR_CNT 0) else p.2
        (d.headPast o r).progRun erOk (good - r.length / 16) l

/-- A run that opens a stream sector meets an erase of its bank, and waits for it (R306). -/
def Dev.runMeets (d : Dev) (x : LgrRun) : Bool :=
  x.recs.any (fun p => decide (p.1 % 4096 = 0)) && (d.flag (FLC_STAT 3) FLC_STAT_MOVE || (d.bankOfs 3).op == 3)

/-- The engine cannot program now: the flash is starting up (R313), an erase goes on where it erases itself, or SLOW keeps its programs from
beginning (R37; log entry 141). -/
def Dev.lgrHeld (d : Dev) (x : LgrRun) : Bool :=
  !d.flag FLC_BOOT FLC_BOOT_READY || d.runMeets x || !(x.began || d.mayProg)

/-- A program of the engine failed: FLASHFAIL (R250). -/
def Dev.lgrFails (d : Dev) (x : LgrRun) : Dev := (d.count (LGR_CNT 8)).lgrEnd (x.desc.map (·.1)) lsFLASHFAIL

/-- RECORD_DURABLE (R250, R251): the sealed records are programmed; with every word verified, ADDR and then STATUS are written, ARCHIVED
moves for a PUSH, and a RECEIPT counts. Else FLASHFAIL, and what was left is cleared away as torn; an isolated die takes no program (R8). While SLOW
is 1 nothing starts, and what has begun goes on (R37). -/
def execRecordDurable (erOk : Bool) (good : Nat) (s : State) : Host.Outcome State Fault Refusal :=
  s.run fun d =>
    match d.lgr.run with
    | none => d
    | some x => if d.lgrHeld x && !d.pwr.flIso then d else
      let d := d.when x.began (fun d => d.engEnd 3)
      let d := { d with lgr := { d.lgr with run := none } }
      if d.pwr.flIso then d.lgrFails x else
      let r := d.progRun erOk good x.recs
      let d := r.2
      match r.1 with
      | some torn => (torn.elim d d.tornFix).lgrFails x
      | none =>
        let o := (x.recs.getLast?.map (·.1)).getD 0
        let d := match x.push with
          | some v => d.setReg LGR_ARCH (BitVec.ofNat 32 v)
          | none => d
        let d := match x.desc with
          | some (a, true) => (d.store (a + 4) 4 o).store (a + 8) 4 (d.get LGR_ORIGIN LGR_ORIGIN_ORIGIN)
          | some (_, false) => d.count (LGR_CNT 5)
          | none => d
        d.lgrEnd (x.desc.map (·.1)) lsOK

/-- A run cut short by a power loss, a reset or the loss of its die (R252, R313): some words of it stand, the one under way is not valid at either
margin, and the rest is not programmed; a run that had not begun leaves nothing. -/
def Dev.lgrCut (d : Dev) : Dev :=
  match d.lgr.run with
  | none => d
  | some x =>
    if !x.began then { d with lgr := { d.lgr with run := none } }
    else
      let f := d.free
      let n := (x.recs.map (fun p => p.2.length / 16)).sum
      let r := f.2.progRun true (f.1.toNat % max 1 n) x.recs
      { r.2 with lgr := { r.2.lgr with run := none, torn := r.1.getD none } }

/-- Every operation of the flash is cut. -/
def Dev.cutAll (d : Dev) : Dev := d.flashCut.lgrCut.keyCut

/-- The flash die is reset alone or lost (R8, R9, R313): what it has under way is cut, a ledger program ends FLASHFAIL, what it left being torn, and a
raise of the key store RAISEFAIL. -/
def Dev.flashDieDown (d : Dev) : Dev :=
  let d := d.flashDieCut.keyDieDown
  match d.lgr.run with
  | none => d
  | some x => d.lgrCut.lgrFails x

/-- The flash die starts anew when it runs again (R313). -/
def Dev.flashDieOff (d : Dev) : Dev := d.flashDieDown.put FLC_BOOT FLC_BOOT_READY 0

/-- What a cut of the flash die left torn is cleared away (R250, R252), once the flash is ready again. -/
def Dev.tornClear (d : Dev) : Dev :=
  match d.lgr.torn with
  | none => d
  | some o => { d.tornFix o with lgr := { (d.tornFix o).lgr with torn := none } }

/-- FLASH_STARTUP (R313). -/
def execFlashStartup (s : State) : Host.Outcome State Fault Refusal :=
  s.run fun d =>
    if d.flag FLC_BOOT FLC_BOOT_READY || d.pwr.flIso || !d.fieldOn 1 then d
    else d.unlessSlow d.flashStart.tornClear

/-! ### Recovery (R252) -/

/-- The record at `o` of the ring is whole: its words free of uncorrectable errors, the last of them, which is programmed last, programmed, its
fields in place. -/
def Dev.recWhole (d : Dev) (o : Nat) : Bool :=
  let r := d.recAt o
  let a := d.canon (ringAt o)
  recOk r && decide (o % 4096 + r.length ≤ 4096) && !d.blankWord (a + r.length - 16) && (span 0 (r.length / 16)).all (fun i =>
    sget 0 d.flWeak (a / 16 + i) == 0 && decide ((sget [] d.flErr (a / 16 + i)).length ≤ 2))

/-- The records of a ring sector from offset `o` on, each following the one before it: offset and bytes. -/
def Dev.sectorRecs (d : Dev) (prev : Option (List Byte)) : Nat → Nat → List (Nat × List Byte)
  | 0, _ => []
  | n + 1, o =>
    let r := d.recAt o
    if d.recWhole o && (match prev with | some p => follows p r | none => true) then
      (o, r) :: (if (o + r.length) % 4096 = 0 then [] else d.sectorRecs (some r) n (o + r.length))
    else []

/-- The stream sector that a ring sector holds: the highest opened one that lies there (log entry 29). -/
def streamSector (opened l : Nat) : Nat := opened - (opened + 2040 - l % 2040) % 2040

/-- Every record of the ring, by stream offset. -/
def Dev.ringRecs (d : Dev) : List (Nat × List Byte) :=
  (span 0 2040).flatMap (fun l =>
    if (d.lgr.opened + 2040 - l) % 2040 ≤ d.lgr.opened then d.sectorRecs none 64 (4096 * streamSector d.lgr.opened l) else [])

/-- A record whose predecessor is not the one before it in the ring ends the search there, unless that sector is not held any more. -/
def joined (l : List (Nat × List Byte)) (x : Nat × List Byte) : Bool :=
  x.1 % 4096 != 0 || recSeq x.2 == 0 ||
    match l.find? (fun y => y.1 + y.2.length == x.1) with
    | some y => follows y.2 x.2
    | none => true

/-- `x` is not later than `y`: by OTIME, then OSEQ. -/
def notLater (x y : Nat × List Byte) : Bool :=
  decide (recTime x.2 < recTime y.2) || (recTime x.2 == recTime y.2 && decide (recSeq x.2 ≤ recSeq y.2))

/-- The latest of some records. -/
def latest (l : List (Nat × List Byte)) : Option (Nat × List Byte) :=
  l.foldl (fun (m : Option (Nat × List Byte)) (y : Nat × List Byte) =>
    match m with
    | none => some y
    | some x => if notLater x y then some y else some x) none

/-- ARCHIVED as the latest PUSH record gives it (R252); where the record it names has been overwritten, the oldest offset held. -/
def archivedBy (l : List (Nat × List Byte)) (top : Nat) : Nat :=
  match latest (l.filter (fun (x : Nat × List Byte) => u8 x.2 1 == 2)) with
  | none => 0
  | some p =>
    match l.find? (fun (x : Nat × List Byte) => recSeq x.2 == u32 p.2 0x2C) with
    | some x => x.1 + x.2.length
    | none => l.foldl (fun (m : Nat) (x : Nat × List Byte) => min m x.1) top

/-- HEAD, HSEQ, ORIGIN and ARCHIVED from the records of the ring. -/
def Dev.recoverHead (d : Dev) : Dev :=
  let l := d.ringRecs
  let l := l.filter (joined l)
  match latest l with
  | none =>
    let d := ({ d with lgr := { d.lgr with last := none } }.setReg LGR_HEAD 0).setReg LGR_HSEQ 0
    d.setReg LGR_ARCH 0
  | some h =>
    let org := recOrigin h.2
    let d := (d.headPast h.1 h.2).put LGR_ORIGIN LGR_ORIGIN_ORIGIN org
    let arch := archivedBy (l.filter (fun (x : Nat × List Byte) => recOrigin x.2 == org)) h.1
    d.setReg LGR_ARCH (BitVec.ofNat 32 arch)

/-- Some word of the head's sector above the head is programmed; a head on a sector border has a sector of its own only once that was opened. -/
def Dev.tornAbove (d : Dev) : Bool :=
  let base := d.canon (ringAt d.head)
  (decide (d.head % 4096 ≠ 0) || d.lgr.opened == d.head / 4096) &&
    (d.mem.any (fun p => decide (base ≤ p.1 ∧ p.1 < base + (4096 - d.head % 4096))) ||
      d.flWeak.any (fun p => decide (base ≤ 16 * p.1 ∧ 16 * p.1 < base + (4096 - d.head % 4096))))

/-- LEDGER_RECOVERY (R252): head, ORIGIN and ARCHIVED from the ring; torn bytes above the head are cleared away. -/
def execLedgerRecovery (s : State) : Host.Outcome State Fault Refusal :=
  s.run fun d =>
    if d.get LGR_STAT LGR_STAT_STATE ≠ 1 ∨ !d.flag FLC_BOOT FLC_BOOT_READY then d
    else
      let d := d.ringReads
      let r := d.recoverHead
      let e := if r.tornAbove then r.tornFix r.head else r
      d.unlessSlow (e.put LGR_STAT LGR_STAT_STATE 2).lgrSync

/-! ### The merged view (R256, R257) -/

/-- A record passes (R247). -/
def Dev.passes (d : Dev) (b : List Byte) : Bool := recOk b && d.tagOk b

/-- Record `r`, of OSEQ `n`, passes, and so do the records before it down to OSEQ 0, each following the one before (R256). -/
def Dev.rooted (d : Dev) (recs : List (List Byte)) : Nat → List Byte → Bool
  | 0, r => recSeq r == 0 && d.passes r
  | n + 1, r => recSeq r == n + 1 && d.passes r && recs.any (fun q => follows q r && d.rooted recs n q)

/-- The `ok` of R256. -/
def Dev.viewOk (d : Dev) (recs : List (List Byte)) : List (List Byte) := recs.filter (fun r => d.rooted recs (recSeq r) r)

/-- `x`, a RECEIPT or a PUSH, vouches for `r`: its span takes `r` in and its LASTH matches record LAST. -/
def vouches (ok : List (List Byte)) (r x : List Byte) : Bool :=
  let last := u32 x 0x2C
  (u8 x 1 == 1 || u8 x 1 == 2) && u32 x 0x24 % 2 ^ 20 == recOrigin r && decide (u32 x 0x28 ≤ recSeq r ∧ recSeq r ≤ last)
    && ok.any (fun y => recOrigin y == recOrigin r && recSeq y == last && decide ((sha256 y).take 4 = (x.drop 0x30).take 4))

/-- Arrival of a record: the least OTIME of those that vouch for it; none: pending. -/
def viewArrival (ok : List (List Byte)) (r : List Byte) : Option Nat := ((ok.filter (vouches ok r)).map recTime).min?

/-- The settling horizon in ticks of mesh time. -/
def settling : Nat := 600 * 122880000

/-- What the view is ordered by: OTIME, ORIGIN, OSEQ; records that agree in all three (no stream of one device holds two) go by their
bytes, so that the order is one of the set alone (R257). -/
def viewKey (r : List Byte) : List Nat := recTime r :: recOrigin r :: recSeq r :: r.map (·.toNat)

/-- Lexicographic order. -/
def lexLt : List Nat → List Nat → Bool
  | _, [] => false
  | [], _ :: _ => true
  | a :: l, b :: m => decide (a < b) || (a == b && lexLt l m)

/-- A record put in its place; one that is there already is not put twice. -/
def viewPut (r : List Byte) : List (List Byte) → List (List Byte)
  | [] => [r]
  | x :: l => if r = x then x :: l else if lexLt (viewKey r) (viewKey x) then r :: x :: l else x :: viewPut r l

def viewSort (l : List (List Byte)) : List (List Byte) := l.foldr viewPut []

/-- The merged view of the records delivered: its main part and its annex (R256). -/
def Dev.mergedView (d : Dev) (recs : List (List Byte)) : List (List Byte) × List (List Byte) :=
  let ok := d.viewOk recs
  let shown := ok.filter (fun r => decide (0x10 ≤ u8 r 1) && (viewArrival ok r).isSome)
  let inTime := fun (r : List Byte) => decide ((viewArrival ok r).getD 0 ≤ recTime r + settling)
  (viewSort (shown.filter inTime), viewSort (shown.filter (fun r => !inTime r)))

/-! ### Origin (R249) -/

/-- A write to LGR_ORIGIN (R249): under LOCK nothing changes; a changed ORIGIN begins a new stream where the old one is empty or
wholly archived, and is refused elsewhere. -/
def Dev.originWrite (d : Dev) (v : Word) : Dev :=
  if d.flag LGR_ORIGIN LGR_ORIGIN_LOCK then d
  else
    let o := getF v LGR_ORIGIN_ORIGIN
    let lock := fun (d : Dev) => d.put LGR_ORIGIN LGR_ORIGIN_LOCK (getF v LGR_ORIGIN_LOCK)
    if o = d.get LGR_ORIGIN LGR_ORIGIN_ORIGIN then lock d
    else if d.head = 0 ∨ d.archived = d.head then
      let d := (d.put LGR_ORIGIN LGR_ORIGIN_ORIGIN o).put LGR_STAT LGR_STAT_ENDED 0
      let d := ((d.setReg LGR_HEAD 0).setReg LGR_HSEQ 0).setReg LGR_ARCH 0
      lock (Dev.lgrSync { d with lgr := { d.lgr with last := none } })
    else d

/-- ORIGIN_WRITE (R249). -/
def execOriginWrite (c : Fin 7) (v : Word) (s : State) : Host.Outcome State Fault Refusal :=
  s.ask (.originWrite c v) LGR_ORIGIN fun d => d.byCore c LGR_ORIGIN true fun d => d.originWrite v

/-! ### Directory and lookups (R254, R255) -/

def dirSet (org seg : Nat) : Nat := (org + 40503 * seg) % 16384
def Dev.dirOf (d : Dev) (n : Nat) : List DirE := sget [] d.dir n
def DirE.is (e : DirE) (org seg : Nat) : Bool := e.org == org && e.seg == seg

/-- A set with new content, USED following. -/
def Dev.setDir (d : Dev) (n : Nat) (l : List DirE) : Dev :=
  let u := d.get LGR_DIRUSED LGR_DIRUSED_USED + l.length - (d.dirOf n).length
  ({ d with dir := sset [] d.dir n l }).put LGR_DIRUSED LGR_DIRUSED_USED u

/-- INSERT (R254); WHERE 0 and 3 are reserved and leave the directory alone. -/
def Dev.dirInsert (d : Dev) : Dev :=
  let org := d.get LGR_DIRORG LGR_DIRORG_ORIGIN
  let seg := d.get LGR_DIRSEG LGR_DIRSEG_SEG
  let wh := d.get LGR_DIRVAL LGR_DIRVAL_WHERE
  let n := dirSet org seg
  let l := d.dirOf n
  let e : DirE := ⟨org, seg, decide (wh = 2), d.get LGR_DIRVAL LGR_DIRVAL_VALUE⟩
  if wh = 0 ∨ wh = 3 then d
  else if l.any (fun x => x.is org seg) then d.setDir n (e :: l.filter (fun x => !x.is org seg))
  else if l.length < 4 then d.setDir n (e :: l)
  else (d.count (LGR_CNT 7)).setDir n (e :: l.dropLast)

/-- REMOVE (R254). -/
def Dev.dirRemove (d : Dev) : Dev :=
  let org := d.get LGR_DIRORG LGR_DIRORG_ORIGIN
  let seg := d.get LGR_DIRSEG LGR_DIRSEG_SEG
  d.setDir (dirSet org seg) ((d.dirOf (dirSet org seg)).filter (fun x => !x.is org seg))

/-- CLEAR (R254). -/
def Dev.dirClear (d : Dev) : Dev := { d with dir := [] }.put LGR_DIRUSED LGR_DIRUSED_USED 0

/-- DIRECTORY_INSERT (R254). -/
def execDirectoryInsert (c : Fin 7) (s : State) : Host.Outcome State Fault Refusal :=
  s.ask (.directoryInsert c) LGR_DIRCMD fun d => d.byCore c LGR_DIRCMD true fun d => d.dirInsert

/-- DIRECTORY_REMOVE (R254). -/
def execDirectoryRemove (c : Fin 7) (s : State) : Host.Outcome State Fault Refusal :=
  s.ask (.directoryRemove c) LGR_DIRCMD fun d => d.byCore c LGR_DIRCMD true fun d => d.dirRemove

/-- DIRECTORY_CLEAR (R254). -/
def execDirectoryClear (c : Fin 7) (s : State) : Host.Outcome State Fault Refusal :=
  s.ask (.directoryClear c) LGR_DIRCMD fun d => d.byCore c LGR_DIRCMD true fun d => d.dirClear

/-- Key of a register that every core has for itself: the lookup registers (R255). -/
def banked (c a : Nat) : Nat := a + 2 ^ 32 * (c + 1)

/-- The result of a lookup: code and value, and the device (R255). -/
def Dev.dirLookup (d : Dev) (org off : Nat) : (Nat × Nat) × Dev :=
  if org = d.get LGR_ORIGIN LGR_ORIGIN_ORIGIN then
    if d.head ≤ off then ((4, 0), d)
    else if ceilDiv d.head 4096 * 4096 ≤ off + 2040 * 4096 then ((1, ringAt off), d)
    else ((2, 0), d)
  else
    let seg := off / 65536
    let n := dirSet org seg
    match (d.dirOf n).find? (fun x => x.is org seg) with
    | some e => ((if e.peer then 3 else 2, e.value), d.setDir n (e :: (d.dirOf n).filter (fun x => !x.is org seg)))
    | none => ((5, 0), d.count (LGR_CNT 6))

/-- A write of LGR_LOOK_HI by core `c`. -/
def Dev.lookWrite (d : Dev) (c : Nat) (v : Word) : Dev :=
  let org := getF v LGR_LOOK_HI_ORIGIN
  let d := d.setReg (banked c LGR_LOOK_HI) (BitVec.ofNat 32 org)
  let r := d.dirLookup org (d.reg (banked c LGR_LOOK_LO)).toNat
  r.2.setReg (banked c LGR_LOOKRES) (mkWord [(LGR_LOOKRES_RDY, 1), (LGR_LOOKRES_RESULT, r.1.1), (LGR_LOOKRES_VALUE, r.1.2)])

/-- LEDGER_LOOKUP (R255). -/
def execLedgerLookup (c : Fin 7) (v : Word) (s : State) : Host.Outcome State Fault Refusal :=
  s.ask (.ledgerLookup c v) LGR_LOOK_HI fun d => d.byCore c LGR_LOOK_HI true fun d => d.lookWrite c v

end Sys2Proof.Machine
end

