-- ==== Sys2Proof/Machine/Nfc.lean ====
section
/-! DEFINITION. Contactless seals and inspection (chapter 21): the reader, the card and the inspection engine. -/

namespace Sys2Proof.Machine

/-! ### Frames (R393) -/

/-- One byte of the 16-bit CRC of R393, reflected. -/
def crcByte16 (c : Nat) (b : Byte) : Nat :=
  (span 0 8).foldl (fun c _ => if c % 2 = 1 then (c / 2) ^^^ 0x8408 else c / 2) (c ^^^ b.toNat)

/-- The CRC of R393; over "123456789" it is 0x906E. -/
def crcNfc (l : List Byte) : Nat := l.foldl crcByte16 0xFFFF ^^^ 0xFFFF

/-- A frame with its CRC, low byte first. -/
def nfcSeal (l : List Byte) : List Byte := l ++ leBytes 2 (crcNfc l)

/-- The bytes before a CRC that is right. -/
def nfcOpen (l : List Byte) : Option (List Byte) :=
  let n := l.length - 2
  if 2 < l.length ∧ leVal (l.drop n) = crcNfc (l.take n) then some (l.take n) else none

/-- FLAGS bits (Table 21.2). -/
def nfAddr (r : List Byte) : Bool := (u8 r 0).testBit 0
def nfAck (r : List Byte) : Bool := (u8 r 0).testBit 1
def nfLast (r : List Byte) : Bool := (u8 r 0).testBit 2

/-- A request's parameters. -/
def nfPars (r : List Byte) : List Byte := r.drop (if nfAddr r then 10 else 2)

/-- The addressed SUID is this head's, or none is given. -/
def Dev.nfMine (d : Dev) (r : List Byte) : Bool := !nfAddr r || leVal ((r.drop 2).take 8) == d.devuid

/-! ### Results (Table 21.9) and STATUS (Table 21.4) -/

def nrOK : Nat := 1
def nrNORESP : Nat := 2
def nrCRCERR : Nat := 3
def nrNOCARRIER : Nat := 4
def nrEXTFIELD : Nat := 5
def nrBADLEN : Nat := 6
def nrBUSFAULT : Nat := 7
def nrMAXFRAMES : Nat := 8
def nrFIFOFULL : Nat := 9

def nsOK : Nat := 0
def nsNOTSUPP : Nat := 1
def nsBADPARAM : Nat := 2
def nsWRITEFAIL : Nat := 5
def nsFULL : Nat := 6
def nsNOTAVAIL : Nat := 7
def nsBUSY : Nat := 8

/-! ### Commands (R392, R396, R397, R400) -/

/-- A buffer of the controller in general SRAM answers it. -/
def Dev.nfcBus (d : Dev) (a n : Nat) (write : Bool) : Bool :=
  inSram a n && d.fieldOn 1 && (span a n).all (fun x => !d.inCarve x && (write || decide (sget 0 d.memErr (x / 4) ≠ 2)))

def Dev.nfcBuf (d : Dev) : Nat := (d.reg NFC_BUF).toNat / 4 * 4
def Dev.nfcRx (d : Dev) : Nat := (d.reg NFC_RXADDR).toNat / 4 * 4
def Dev.nfcLen (d : Dev) : Nat := d.get NFC_LEN NFC_LEN_LEN

/-- A command ends. -/
def Dev.nfcEnd (d : Dev) (res : Nat) : Dev :=
  let d := { d with nfc := { d.nfc with op := 0 } }
  let d := ((d.put NFC_STAT NFC_STAT_RESULT res).put NFC_STAT NFC_STAT_BUSY 0).put NFC_STAT NFC_STAT_DONE 1
  if res = nrEXTFIELD then d.count (NFC_CNT 4)
  else if res = nrNORESP then d.count (NFC_CNT 2)
  else if res = nrCRCERR then d.count (NFC_CNT 0)
  else d

/-- The code that refuses a command, none where it goes ahead. -/
def Dev.nfcJudge (d : Dev) (op : Nat) : Option Nat :=
  let mode := d.get NFC_CTL NFC_CTL_MODE
  let len := (op = 3 || op = 5) && !decide (1 ≤ d.nfcLen ∧ d.nfcLen ≤ 64)
  if mode ≠ (if op ≤ 4 then 1 else 2) || len then some nrBADLEN
  else if (op = 1 || op = 4) && d.flag NFC_STAT NFC_STAT_FIELD then some nrEXTFIELD
  else if (op = 3 || op = 4) && !d.flag NFC_STAT NFC_STAT_CARRIER then some nrNOCARRIER
  else if (op = 3 || op = 5) && !d.nfcBus d.nfcBuf d.nfcLen false then some nrBUSFAULT
  else none

/-- The request that awaited firmware is settled. -/
def Dev.nfcSettle (d : Dev) : Dev := { d with nfc := { d.nfc with wait := false } }.put NFC_STAT NFC_STAT_CRXF 0

/-- The carrier comes on and its command ends. -/
def Dev.carrierNow (d : Dev) : Dev :=
  ({ d with nfc := { d.nfc with carOn := d.clk.cyc } }.put NFC_STAT NFC_STAT_CARRIER 1).nfcEnd nrOK

/-- The carrier has been off for 1 ms (R392). -/
def Dev.carrierMay (d : Dev) : Bool := match d.nfc.carOff with
  | none => true
  | some t => decide (t + 122880 ≤ d.clk.cyc)

/-- CARRIER_ON: within 1 ms of the carrier's going off the command runs until that time is over (R392; log entry 149). -/
def Dev.carrierOn (d : Dev) : Dev :=
  if d.flag NFC_STAT NFC_STAT_CARRIER then d.nfcEnd nrOK
  else if d.carrierMay then d.carrierNow
  else { d with nfc := { d.nfc with op := 1 } }.put NFC_STAT NFC_STAT_BUSY 1

/-- CARRIER_OFF. -/
def Dev.carrierOff (d : Dev) : Dev :=
  let d := if d.flag NFC_STAT NFC_STAT_CARRIER then { d with nfc := { d.nfc with carOff := some d.clk.cyc } } else d
  (d.put NFC_STAT NFC_STAT_CARRIER 0).nfcEnd nrOK

/-- A carrier that waited comes on. -/
def Dev.carrierDue (d : Dev) : Dev := if d.nfc.op = 1 ∧ d.carrierMay then d.carrierNow else d

/-- GUARD_US have passed since the carrier came on, before which nothing is sent (R392). -/
def Dev.guardOver (d : Dev) : Bool := decide (d.nfc.carOn + d.get NFC_CTL NFC_CTL_GUARD_US * 12288 / 100 ≤ d.clk.cyc)

/-- A command written to NFC_CMD; an unknown one is ignored, and so is one written while another runs (DESIGN CHOICE, log entry 118). -/
def Dev.nfcCmd (d : Dev) (op : Nat) : Dev :=
  if d.flag NFC_STAT NFC_STAT_BUSY || op = 0 || decide (6 < op) then d
  else
    let d := d.put NFC_STAT NFC_STAT_OP op
    let d := if op = 3 ∨ op = 5 then d.touchRange d.nfcBuf d.nfcLen else d
    match d.nfcJudge op with
    | some res => d.nfcEnd res
    | none =>
      match op with
      | 1 => d.carrierOn
      | 2 => d.carrierOff
      | 3 => { d with nfc := { d.nfc with op := 3, out := [nfcSeal (d.bytes d.nfcBuf d.nfcLen)] } }.put NFC_STAT NFC_STAT_BUSY 1
      | 4 => { d with nfc := { d.nfc with op := 4, out := [] } }.put NFC_STAT NFC_STAT_BUSY 1
      | 5 =>
        let f := if d.nfc.wait then [nfcSeal (d.bytes d.nfcBuf d.nfcLen)] else []
        ({ d with nfc := { d.nfc with out := f } }.nfcSettle).nfcEnd nrOK
      | _ => ({ d with nfc := { d.nfc with out := [] } }.nfcSettle).nfcEnd nrOK

/-- A row that writes an operation to NFC_CMD. -/
def Dev.nfcRow (d : Dev) (c : Fin 7) (op : Nat) : Dev := d.byCore c NFC_CMD true fun d => d.nfcCmd op

/-- CARRIER_ON (R392, R397). -/
def execCarrierOn (c : Fin 7) (s : State) : Host.Outcome State Fault Refusal := s.ask (.carrierOn c) NFC_CMD fun d => d.nfcRow c 1

/-- CARRIER_OFF (R392). -/
def execCarrierOff (c : Fin 7) (s : State) : Host.Outcome State Fault Refusal := s.ask (.carrierOff c) NFC_CMD fun d => d.nfcRow c 2

/-- NFC_SEND (R391, R393). -/
def execNfcSend (c : Fin 7) (s : State) : Host.Outcome State Fault Refusal := s.ask (.nfcSend c) NFC_CMD fun d => d.nfcRow c 3

/-- NFC_INVENTORY (R396, R397). -/
def execNfcInventory (c : Fin 7) (s : State) : Host.Outcome State Fault Refusal := s.ask (.nfcInventory c) NFC_CMD fun d => d.nfcRow c 4

/-- CRESP (R400). -/
def execCresp (c : Fin 7) (s : State) : Host.Outcome State Fault Refusal := s.ask (.cresp c) NFC_CMD fun d => d.nfcRow c 5

/-- CDROP (R400). -/
def execCdrop (c : Fin 7) (s : State) : Host.Outcome State Fault Refusal := s.ask (.cdrop c) NFC_CMD fun d => d.nfcRow c 6

/-! ### The inventory FIFO (R397, R406) -/

/-- NFC_SUID_LO, NFC_SUID_HI and NFC_INVN follow the FIFO. -/
def Dev.nfcSync (d : Dev) : Dev :=
  let v := d.nfc.fifo.headD 0
  let d := (d.setReg NFC_SUID_LO (BitVec.ofNat 32 v)).setReg NFC_SUID_HI (BitVec.ofNat 32 (v / 2 ^ 32))
  d.put NFC_INVN NFC_INVN_N d.nfc.fifo.length

/-- SUID_READ (R406): a read of NFC_SUID_HI removes the oldest entry. -/
def execSuidRead (c : Fin 7) (s : State) : Host.Outcome State Fault Refusal :=
  s.run fun d => d.byCore c NFC_SUID_HI false fun d =>
    ({ d with rdata := d.reg NFC_SUID_HI, nfc := { d.nfc with fifo := d.nfc.fifo.drop 1 } }).nfcSync

/-! ### Singulation (R396) -/

/-- The least n with 2^n at or above `v`. -/
def ceilLog2 (v : Nat) : Nat := ((span 0 20).find? (fun n => decide (v ≤ 2 ^ n))).getD 20

/-- Requests of an inventory. -/
def nfInvent (q : Nat) (ack : Option Nat) : List Byte :=
  nfcSeal ([if ack.isSome then 2 else 0, 1, BitVec.ofNat 8 q] ++ leBytes 2 (ack.getD 0))
def nfNext (ack : Option Nat) (last : Bool) : List Byte :=
  nfcSeal ([(if ack.isSome then 2 else 0) + (if last then 4 else 0), 2] ++ leBytes 2 (ack.getD 0))

/-- What a frame of slots leaves: collisions, whether the FIFO was found full, the acknowledgement to send, what is still to be
heard. -/
structure InvSt where
  coll  : Nat
  full  : Bool
  ack   : Option Nat
  heard : List (Option (List Byte))

/-- One slot of a frame. -/
def Dev.invSlot (d : Dev) (x : InvSt) : InvSt × Dev :=
  let r := x.heard.headD none
  let x := { x with ack := none, heard := x.heard.drop 1 }
  match r with
  | none => (x, d)
  | some f =>
    match nfcOpen f with
    | some b =>
      if b.length ≠ 8 then ({ x with coll := x.coll + 1 }, d.count (NFC_CNT 1))
      else if d.nfc.fifo.length < 64 then
        ({ x with ack := some (crcNfc b) }, { d with nfc := { d.nfc with fifo := d.nfc.fifo ++ [leVal b] } })
      else ({ x with full := true }, d.count (NFC_CNT 3))
    | none => ({ x with coll := x.coll + 1 }, (d.count (NFC_CNT 0)).count (NFC_CNT 1))

/-- Slots 1 on of a frame, each opened by NEXT. -/
def Dev.invSlots (d : Dev) (x : InvSt) : Nat → InvSt × Dev
  | 0 => (x, d)
  | n + 1 =>
    let d := { d with nfc := { d.nfc with out := d.nfc.out ++ [nfNext x.ack false] } }
    let r := d.invSlot x
    r.2.invSlots r.1 n

/-- The frames of an inventory, at most `n`; the answer is the result. -/
def Dev.invFrames (d : Dev) (q : Nat) (ack : Option Nat) (heard : List (Option (List Byte))) : Nat → Nat × Dev
  | 0 => (nrMAXFRAMES, d)
  | n + 1 =>
    let d := { d with nfc := { d.nfc with out := d.nfc.out ++ [nfInvent q ack] } }
    let r := d.invSlot ⟨0, false, none, heard⟩
    let r := r.2.invSlots r.1 (2 ^ q - 1)
    let x := r.1
    let d := r.2
    if x.coll = 0 || x.full || n = 0 then
      let d := if x.ack.isSome then { d with nfc := { d.nfc with out := d.nfc.out ++ [nfNext x.ack true] } } else d
      (if x.full then nrFIFOFULL else if x.coll = 0 then nrOK else nrMAXFRAMES, d)
    else
      let q := max (d.get NFC_INV NFC_INV_QMIN) (min (d.get NFC_INV NFC_INV_QMAX) (ceilLog2 (ceilDiv (239 * x.coll) 100)))
      d.invFrames q x.ack x.heard n

/-- NFC_COMMAND_END (R391, R392, R396): the exchange or the inventory ends, not before its first request has gone out. -/
def execNfcCommandEnd (heard : List (Option (List Byte))) (s : State) : Host.Outcome State Fault Refusal :=
  s.run fun d =>
    if d.nfc.op = 1 then d.carrierDue
    else if !d.guardOver then d
    else if d.nfc.op = 3 then
      match heard.headD none with
      | none => d.nfcEnd nrNORESP
      | some f =>
        match nfcOpen f with
        | none => d.nfcEnd nrCRCERR
        | some b =>
          let b := b.take 64
          if d.nfcBus d.nfcRx b.length true then
            ((d.setBytes d.nfcRx b).put NFC_STAT NFC_STAT_RXLEN b.length).nfcEnd nrOK
          else d.nfcEnd nrBUSFAULT
    else if d.nfc.op = 4 then
      let r := d.invFrames (d.get NFC_INV NFC_INV_QINIT) none heard (d.get NFC_INV NFC_INV_MAXFRAMES)
      (r.2.nfcSync).nfcEnd r.1
    else d

/-! ### The inspection area (R401, R403) -/

/-- A flash word that is valid at both margins and free of uncorrectable errors. -/
def Dev.goodWord (d : Dev) (a : Nat) : Bool := sget 0 d.flWeak (a / 16) == 0 && decide ((sget [] d.flErr (a / 16)).length ≤ 2)

def inspArea : Nat := flashAt 0x017F8000
def mboxSlot (i : Nat) : Nat := flashAt (0x017FE000 + 64 * i)

/-- IMGBLK of a valid header: the image is present. -/
def Dev.inspImage (d : Dev) : Option Nat :=
  let b := d.bytes inspArea 16
  let n := u16 b 4
  if b.take 4 = [0x49, 0x4D, 1, 0] ∧ 1 ≤ n ∧ n ≤ 1535 ∧ (b.drop 6).take 6 = List.replicate 6 0 ∧ u32 b 12 = crc32 (b.take 12)
      ∧ d.goodWord inspArea then some n else none

/-- SEQ of a mailbox slot's valid record. -/
def Dev.mboxSeq (d : Dev) (i : Nat) : Option Nat :=
  let a := mboxSlot i
  let f := d.bytes (a + 48) 16
  if f.take 2 = [0x49, 0x46] ∧ u32 f 8 = u32 f 4 ^^^ 0xFFFFFFFF ∧ u32 f 12 = crc32 (d.bytes a 48 ++ f.take 12) ∧ (span 0 4).all (fun k => d.goodWord (a + 16 * k))
  then some (u32 f 4) else none

/-- A slot that reads wholly blank at the erase margin. -/
def Dev.mboxBlank (d : Dev) (i : Nat) : Bool := (span 0 4).all (fun k => d.blankWord (mboxSlot i + 16 * k))

/-- The identity block (Table 21.5). -/
def Dev.identity (d : Dev) (insp : Bool) : List Byte :=
  let free := ((span 0 128).filter d.mboxBlank).length
  leBytes 8 d.devuid ++ [0x10, BitVec.ofNat 8 (insp.toNat + 2 * d.inspImage.isSome.toNat)] ++ leBytes 2 (d.inspImage.getD 0)
    ++ leBytes 1 (min 255 free) ++ [1, 0, 0]

/-- The record of a NOTE, its flag word last (Table 21.7). -/
def Dev.noteRecord (d : Dev) (item len : Nat) (data : List Byte) : List Byte :=
  let body := data ++ List.replicate (48 - data.length) 0
  let seq := ((span 0 128).filterMap d.mboxSeq).foldl max 0 + 1
  let f : List Byte := [0x49, 0x46] ++ leBytes 1 item ++ leBytes 1 len ++ leBytes 4 seq ++ leBytes 4 (seq ^^^ 0xFFFFFFFF)
  body ++ f ++ leBytes 4 (crc32 (body ++ f))

/-- Bank 2 is busy under R305, or its die cannot be reached (log entry 150). -/
def Dev.inspBusy (d : Dev) (insp : Bool) : Bool := !insp && (d.bankBusy 2 || d.pwr.flIso)

/-- READ: STATUS and data. -/
def Dev.nfcRead (d : Dev) (insp : Bool) (p : List Byte) : Nat × List Byte :=
  let b := u16 p 0
  let n := u8 p 2
  if d.inspBusy insp then (nsBUSY, [])
  else if b = 0xFFFF then (if p.length = 3 ∧ n = 1 then (nsOK, d.identity insp) else (nsBADPARAM, []))
  else match d.inspImage with
    | none => (nsNOTAVAIL, [])
    | some m =>
      if p.length = 3 ∧ 1 ≤ n ∧ n ≤ 3 ∧ 1 ≤ b ∧ b + n ≤ m + 1 then (nsOK, d.bytes (inspArea + 16 * b) (16 * n))
      else (nsBADPARAM, [])

/-! ### Requests to a head (R394, R400, R402) -/

/-- A response goes out: STATUS and data. -/
def Dev.respond (d : Dev) (st : Nat) (data : List Byte) : Dev :=
  { d with nfc := { d.nfc with out := [nfcSeal (BitVec.ofNat 8 st :: data)] } }

/-- The acknowledgement test of R396: the responder that replied in the slot just ended goes QUIET where ACK matches its reply. -/
def Dev.ackTest (d : Dev) (r : List Byte) (ack : Nat) : Dev :=
  let hit := nfAck r && d.nfc.reply == some ack
  { d with nfc := { d.nfc with reply := none, quiet := d.nfc.quiet || hit } }

/-- The slot reply, in the slot this head has drawn. -/
def Dev.slotReply (d : Dev) : Dev :=
  if !d.nfc.quiet && d.nfc.drawn == some d.nfc.slot then
    let b := leBytes 8 d.devuid
    { d with nfc := { d.nfc with reply := some (crcNfc b), out := [nfcSeal b] } }
  else d

/-- INVENT, NEXT and RESETQUIET (R396). -/
def Dev.singulate (d : Dev) (r : List Byte) : Dev :=
  let p := nfPars r
  match u8 r 1 with
  | 1 =>
    let q := u8 p 0
    if p.length = 3 ∧ q ≤ 8 then
      let d := d.ackTest r (u16 p 1)
      if d.nfc.quiet then { d with nfc := { d.nfc with drawn := none } }
      else
        let f := d.free
        ({ f.2 with nfc := { f.2.nfc with slot := 0, drawn := some (f.1.toNat % 2 ^ q) } }).slotReply
    else d
  | 2 =>
    if p.length = 2 then
      let d := d.ackTest r (u16 p 0)
      if nfLast r then d else ({ d with nfc := { d.nfc with slot := d.nfc.slot + 1 } }).slotReply
    else d
  | _ => { d with nfc := { d.nfc with quiet := false, drawn := none, reply := none } }

/-- A NOTE begins to program, which keeps bank 2 busy as an engine's program does, or is turned away (R403; log entry 150). -/
def Dev.noteStart (d : Dev) (insp : Bool) (p : List Byte) : Dev :=
  let len := u8 p 1
  if d.inspBusy insp then d.respond nsBUSY []
  else if d.inspImage.isNone then d.respond nsNOTAVAIL []
  else if ¬(2 ≤ p.length ∧ 1 ≤ len ∧ len ≤ 48 ∧ p.length = 2 + len) then d.respond nsBADPARAM []
  else match (span 0 128).find? d.mboxBlank with
    | none => d.respond nsFULL []
    | some i =>
      if !insp && d.flag PWR_SUPPLY PWR_SUPPLY_SLOW then d.respond nsWRITEFAIL []
      else { d with nfc := { d.nfc with note := some (i, d.noteRecord (u8 p 0) len (p.drop 2)), mute := false } }.engBegin 2

/-- A request that firmware answers (R400): its bytes to NFC_RXADDR, RXLEN and CRXF. -/
def Dev.toFirmware (d : Dev) (r : List Byte) : Dev :=
  let d := if d.nfcBus d.nfcRx r.length true then d.setBytes d.nfcRx r else d
  let d := (d.put NFC_STAT NFC_STAT_RXLEN r.length).put NFC_STAT NFC_STAT_CRXF 1
  { d with nfc := { d.nfc with wait := true } }

/-- A request whose CRC is right, judged; `insp`: by the inspection engine. -/
def Dev.nfcRequest (d : Dev) (insp : Bool) (r : List Byte) : Dev :=
  let cmd := u8 r 1
  let d := { d with nfc := { d.nfc with out := [] } }
  if r.length < 2 ∨ 64 < r.length ∨ 8 ≤ u8 r 0 ∨ (nfAddr r && decide (r.length < 10)) || !d.nfMine r then d
  else if 1 ≤ cmd ∧ cmd ≤ 3 then d.singulate r
  else if !nfAddr r then d
  else match cmd with
    | 0x10 => let x := d.nfcRead insp (nfPars r); d.respond x.1 x.2
    | 0x12 => d.noteStart insp (nfPars r)
    | 0x30 | 0x31 | 0x32 => if insp then d.respond nsNOTAVAIL [] else d.toFirmware r
    | _ => d.respond nsNOTSUPP []

/-- CARD_REQUEST (R400): in ACTIVE with MODE CARD, unless a request awaits firmware or, as one exchange has not ended, a NOTE is programming. -/
def execCardRequest (frame : List Byte) (s : State) : Host.Outcome State Fault Refusal :=
  s.run fun d =>
    let on := d.fieldOn 6 && d.get PWR_STAT PWR_STAT_STATE == 0 && d.get NFC_CTL NFC_CTL_MODE == 2
    match nfcOpen frame with
    | some r =>
      if on && !d.flag NFC_STAT NFC_STAT_CRXF && d.nfc.note.isNone && !d.rests 13 then d.nfcRequest false r else d
    | none => d

/-- INSPECT_REQUEST (R402): only when the image is present. -/
def execInspectRequest (frame : List Byte) (s : State) : Host.Outcome State Fault Refusal :=
  s.on fun d =>
    match nfcOpen frame with
    | some r =>
      if d.get PWR_STAT PWR_STAT_STATE == 5 && d.inspImage.isSome && d.nfc.note.isNone then d.nfcRequest true r else d
    | none => d

/-- A write to the register at `a` by core `c` would reach it. -/
def Dev.reaches (d : Dev) (c : Fin 7) (a : Nat) : Bool :=
  d.coreActs c && (d.periphCode c a (decide (getF (d.core c).fl flU = 1)) true).isNone

/-- The command is a CRESP or a CDROP that settles the request which awaits firmware. -/
def Dev.settles (d : Dev) (i : Instr) : Bool :=
  let does (c : Fin 7) (op : Nat) : Bool := d.reaches c NFC_CMD && !d.flag NFC_STAT NFC_STAT_BUSY && (d.nfcJudge op).isNone
  match i with
  | .cresp c => does c 5
  | .cdrop c => does c 6
  | .registerWrite c a v => decide (a.toNat = NFC_CMD ∧ getF v NFC_CMD_KEY = 0xD2 ∧ (getF v NFC_CMD_OP = 5 ∨ getF v NFC_CMD_OP = 6)) && does c (getF v NFC_CMD_OP)
  | _ => false

/-- CARD_TIMEOUT (R400): 20 ms have passed without CRESP or CDROP; one of the same cycle wins (R17). -/
def execCardTimeout (s : State) : Host.Outcome State Fault Refusal :=
  s.run fun d => if d.nfc.wait && !s.arrives d.settles then (d.count (NFC_CNT 5)).nfcSettle else d

/-- The words of a record from `a` on, until one does not verify. -/
def Dev.noteWords (d : Dev) (a good : Nat) (b : List Byte) : Nat → Dev
  | 0 => d
  | n + 1 =>
    let d := d.progVerify a (b.take 16) (decide (0 < good))
    if good = 0 then d else d.noteWords (a + 16) (good - 1) (b.drop 16) n

/-- Somebody awaits the answer to a NOTE: the inspection engine's reader, or in card mode one whose field has stayed (R400, R402). -/
def Dev.noteAwaited (d : Dev) : Bool :=
  d.get PWR_STAT PWR_STAT_STATE == 5 || (d.fieldOn 6 && d.get NFC_CTL NFC_CTL_MODE == 2 && !d.nfc.mute)

/-- NOTE_STORED (R403): the record has verified, or a program has failed; the answer goes out where it is awaited. -/
def execNoteStored (good : Nat) (s : State) : Host.Outcome State Fault Refusal :=
  s.on fun d =>
    match d.nfc.note with
    | none => d
    | some x =>
      let d := { d with nfc := { d.nfc with note := none } }.engEnd 2
      let d := d.noteWords (mboxSlot x.1) good x.2 4
      let say := d.noteAwaited
      let d := d.when (decide (4 ≤ good)) (fun d => (d.count (NFC_CNT 7)).put NFC_STAT NFC_STAT_MBOXF 1)
      if say then d.respond (if 4 ≤ good then nsOK else nsWRITEFAIL) [] else d

/-- A NOTE cut by a power loss or a reset of the flash die: its slot is torn and nothing is answered (R403). -/
def Dev.noteCut (d : Dev) : Dev :=
  match d.nfc.note with
  | none => d
  | some x =>
    let d := d.wordsCut (mboxSlot x.1) x.2
    { d with nfc := { d.nfc with note := none } }.engEnd 2

/-- FIELD_CHANGE (R397, R392): an external field comes or goes; without it a responder returns to its power-up state. -/
def execFieldChange (on : Bool) (s : State) : Host.Outcome State Fault Refusal :=
  s.on fun d =>
    if !d.fieldOn 6 || d.flag NFC_STAT NFC_STAT_FIELD == on then d
    else
      let d := (d.putB NFC_STAT NFC_STAT_FIELD on).put NFC_STAT NFC_STAT_FIELDF 1
      if on then d else { d with nfc := { d.nfc with quiet := false, drawn := none, reply := none, mute := d.nfc.note.isSome } }

/-- TORN_WRITE (R404): any write to NFC_TORN counts one. -/
def execTornWrite (c : Fin 7) (s : State) : Host.Outcome State Fault Refusal :=
  s.ask (.tornWrite c) NFC_TORN fun d => d.byCore c NFC_TORN true fun d => d.count (NFC_CNT 6)

/-- NFC_CTL, NFC_INV, NFC_BUF, NFC_LEN and NFC_RXADDR (R406): ignored while BUSY, and a field outside its range keeps its value. -/
def Dev.nfcWrite (d : Dev) (a : Nat) (v : Word) : Dev :=
  if d.flag NFC_STAT NFC_STAT_BUSY then d
  else if a = NFC_CTL then
    let keep (f : Fld) (ok : Bool) (d : Dev) : Dev := if ok then d.put a f (getF v f) else d
    let d := keep NFC_CTL_MODE (decide (getF v NFC_CTL_MODE ≤ 2)) d
    let d := keep NFC_CTL_GUARD_US (decide (500 ≤ getF v NFC_CTL_GUARD_US ∧ getF v NFC_CTL_GUARD_US ≤ 10000)) d
    [NFC_CTL_ASK100, NFC_CTL_C256, NFC_CTL_DRV, NFC_CTL_IE].foldl (fun d f => d.put a f (getF v f)) d
  else if a = NFC_INV then
    let d := if getF v NFC_INV_QINIT ≤ 8 then d.put a NFC_INV_QINIT (getF v NFC_INV_QINIT) else d
    let d := if getF v NFC_INV_QMAX ≤ 8 then d.put a NFC_INV_QMAX (getF v NFC_INV_QMAX) else d
    let d := if getF v NFC_INV_QMIN ≤ d.get a NFC_INV_QMAX then d.put a NFC_INV_QMIN (getF v NFC_INV_QMIN) else d
    if 1 ≤ getF v NFC_INV_MAXFRAMES then d.put a NFC_INV_MAXFRAMES (getF v NFC_INV_MAXFRAMES) else d
  else if a = NFC_LEN then
    if 1 ≤ getF v NFC_LEN_LEN ∧ getF v NFC_LEN_LEN ≤ 64 then d.put a NFC_LEN_LEN (getF v NFC_LEN_LEN) else d
  else d.put a ⟨31, 2⟩ (getF v ⟨31, 2⟩)

end Sys2Proof.Machine
end

