-- ==== Sys2Proof/Machine/Pins.lean ====
section
/-! DEFINITION. The states of the pins (Table 1.4, R10, R21, R24): what each group is in each condition, and the level every sown output drives
or, while the I/O field is unpowered, holds. -/

namespace Sys2Proof.Machine

/-! ### Table 1.4 -/

/-- The rows of Table 1.4. -/
inductive PinGroup where
  | rx | tx | fem | xref | xlf | nfc | fieldLine | resetWake | tmode | svcAtn | svc | banks
  deriving DecidableEq, Repr

/-- The states that Table 1.4 names. -/
inductive PinState where
  | passive            -- no bias
  | rxOff              -- a receive port that is off
  | rxSet              -- as field plan and firmware set
  | noRf               -- no RF output
  | chainsOff          -- a transmit port whose chain is off
  | gated              -- transmits only through the regulatory gate
  | hiZ                -- high impedance, no pull, receiver off
  | driven             -- a front-end line that is driven
  | highImpedance      -- XREF_IN, tolerating the TCXO swing
  | receiving
  | oscOff
  | oscillating
  | harvesting         -- from a reader's field
  | passiveLoad        -- no carrier
  | contactless        -- as the contactless chapter sets
  | lineMode           -- the mode of FLN_CFG[n], off after sowing
  | input              -- receiver on, no pull
  | inputUp            -- receiver on, 50 kΩ pull-up to the AON rail
  | inputDown          -- receiver on, 50 kΩ pull-down
  | asPlan             -- as the field plan sets
  deriving DecidableEq, Repr

/-- Table 1.4 (R21). -/
def pinTable : PinGroup → PinCond → PinState
  | .rx, .unpowered => .passive
  | .rx, .inReset => .rxOff
  | .rx, .notSown => .rxOff
  | .rx, .sown => .rxSet
  | .tx, .unpowered => .noRf
  | .tx, .inReset => .chainsOff
  | .tx, .notSown => .chainsOff
  | .tx, .sown => .gated
  | .fem, .sown => .driven
  | .fem, _ => .hiZ
  | .xref, .unpowered => .highImpedance
  | .xref, _ => .receiving
  | .xlf, .unpowered => .oscOff
  | .xlf, _ => .oscillating
  | .nfc, .unpowered => .harvesting
  | .nfc, .sown => .contactless
  | .nfc, _ => .passiveLoad
  | .fieldLine, .sown => .lineMode
  | .fieldLine, _ => .hiZ
  | .resetWake, .unpowered => .input
  | .resetWake, _ => .inputUp
  | .tmode, .unpowered => .input
  | .tmode, _ => .inputDown
  | .svcAtn, .notSown => .input
  | .svcAtn, .sown => .asPlan
  | .svcAtn, _ => .hiZ
  | .svc, .sown => .asPlan
  | .svc, _ => .hiZ
  | .banks, .sown => .asPlan
  | .banks, _ => .hiZ

/-- The groups of the RF die, which its reset or isolation puts back to In reset (R25). -/
def PinGroup.onRf : PinGroup → Bool
  | .rx | .tx | .fem | .fieldLine => true
  | _ => false

/-- The state a group of pins is in now (R21, R25). -/
def Dev.pinState (d : Dev) (g : PinGroup) : PinState :=
  if g.onRf && decide (d.pwr.pins = .sown) && (d.pwr.rfIso || d.pwr.rfReset) then pinTable g .inReset else pinTable g d.pwr.pins

/-! ### What sown outputs drive -/

/-- The PADS body in force; an unused ball everywhere where there is none. -/
def Dev.padBody (d : Dev) : List Byte := (d.sec tPADS 0).getD []

/-- Place of a ball among the signals of its peripheral (Table 1.3). -/
def padPlace (f g : Nat) : Nat :=
  ((padLocs.find? (fun x => x.1 == f)).bind (fun x => x.2.find? (fun l => l.contains g))).elim 7 (fun l => l.findIdx (· == g))

/-- HST_IRQ (R10, R432, Table 4.8): driven once a plan that enables the host port balls is sown, low while an enabled flag is set. -/
def Dev.hostIrq (d : Dev) : Option Bool := if d.pwr.pins = .sown ∧ (u8 d.padBody 1).testBit 0 then some (decide (d.reg HST_HFLG &&& d.reg HST_HEN = 0)) else none

/-- An output that the SPI controller or a UART drives while it is at rest: the clock at its polarity, selects, TX and RTS at the inactive
level, high; what MOSI and an unused RTS show then the manual does not say (log entry 126). -/
def Dev.restLevel (d : Dev) (f g : Nat) : Option Bool :=
  let open_ := (Config.freeWord d.freeCtr).getLsbD g
  if f = 0x12 then
    match padPlace f g with
    | 0 => some ((d.get SPI_CFG SPI_CFG_MODE).testBit 1)
    | 1 => some open_
    | 2 => none
    | k => some (!(d.spi.held == some (k - 3)) && !(d.spi.xfer.any (fun (w : Word) => getF w SPI_XFER_CS == k - 3)))
  else
    let n := f - 0x13
    match padPlace f g with
    | 0 => some true
    | 2 => some (if d.flag (UART_CFG n) UART_CFG_FLOW then decide (24 ≤ (sget UartSt.init d.uart n).rx.length) else open_)
    | _ => none

/-- The level that GPIO ball `g` drives by its function (Table 4.9); none: an input, an open drain at rest, or unused. -/
def Dev.ballOwn (d : Dev) (g : Nat) : Option Bool :=
  if d.pwr.pins ≠ .sown then none
  else match padFunc d.padBody g with
    | 2 => some (d.flag (GPIO_OUT (g / 32)) ⟨g % 32, g % 32⟩)
    | 4 => some (d.chShows (padArg d.padBody g))
    | 6 => some (d.flag (TMR_STAT (padArg d.padBody g)) TMR_STAT_OUT)
    | 0x12 => d.restLevel 0x12 g
    | 0x13 => d.restLevel 0x13 g
    | 0x14 => d.restLevel 0x14 g
    | _ => none

/-- What GPIO ball `g` drives: the level it holds since a re-sowing changed its function, until that drives it (Table 4.20), else its function's. -/
def Dev.ballDrives (d : Dev) (g : Nat) : Option Bool :=
  match d.padHold.find? (fun p => p.1 == g) with
  | some p => if d.pwr.pins = .sown then some p.2 else none
  | none => d.ballOwn g

/-- A re-sowing of PADS (Table 4.20), `d` before it and `e` after: an output ball that becomes a timer's or a controller's holds its level until that
first drives it; a general output starts at INIT and a headland output follows its channel at once (log entry 166). -/
def Dev.padsHold (d e : Dev) : Dev :=
  let same := fun (g : Nat) => padFunc e.padBody g == padFunc d.padBody g && padArg e.padBody g == padArg d.padBody g
  let own := fun (g : Nat) => ([6, 0x12, 0x13, 0x14] : List Nat).contains (padFunc e.padBody g) && (e.ballOwn g).isSome
  { e with padHold := (span 0 48).filterMap (fun g =>
      if same g then d.padHold.find? (fun p => p.1 == g)
      else if own g then (d.ballDrives g).map (fun v => (g, v))
      else none) }

/-- Every sown output of the I/O banks: a GPIO ball by its number, HST_IRQ 48, COEX_REQ 49, COEX_PRI 50. -/
def Dev.outLevel (d : Dev) (g : Nat) : Option Bool :=
  if g < 48 then d.ballDrives g
  else if g = 48 then d.hostIrq
  else d.pinCoex (decide (g = 50))

/-- What the pads hold from the moment the I/O field loses its power (R24). -/
def Dev.padLevels (d : Dev) : Option (List (Nat × Bool)) :=
  match d.pwr.padHeld with
  | some l => some l
  | none => if d.pwr.pins = .sown then some ((span 0 51).filterMap (fun g => (d.outLevel g).map (fun b => (g, b)))) else none

/-- The level on an output now: what is held while the I/O field is unpowered and until the wake is complete, else what drives it (R24). -/
def Dev.padShows (d : Dev) (g : Nat) : Option Bool :=
  match d.pwr.padHeld with
  | some l => (l.find? (fun p => p.1 == g)).map (·.2)
  | none => d.outLevel g

/-- With the I/O field powered again, the general outputs take back what their balls hold, so that they hand over without a glitch (R24). -/
def Dev.padBack (d : Dev) : Dev :=
  match d.pwr.padHeld with
  | none => d
  | some l => l.foldl (fun (d : Dev) p => if p.1 < 48 ∧ padFunc d.padBody p.1 = 2 then d.putB (GPIO_OUT (p.1 / 32)) ⟨p.1 % 32, p.1 % 32⟩ p.2 else d) d

/-- The balls are their peripherals' again. -/
def Dev.padRelease (d : Dev) : Dev := { d with pwr := { d.pwr with padHeld := none } }

/-- A ball sown as pad-ring wake input, armed while VIO_B is supplied (R24). -/
def Dev.padWakeArmed (d : Dev) : Bool := d.pwr.vioB.isSome && (span 44 4).any (fun g => padFunc d.padBody g == 7)

/-! ### Field lines (Table 1.9, R10, R25, R28) -/

/-- Driver of a field line: the level it drives, none while it is off. -/
def Dev.lineDriver (d : Dev) (n : Nat) : Option Bool :=
  if (d.get FLN_STAT FLN_STAT_TRIP).testBit n then none
  else if d.lineMode n = 4 then some false
  else if d.lineMode n = 5 then some true
  else none

/-- Wetting of a field line: its current by WET, and whether it is sourced from VIN or sunk to VSS. -/
def Dev.lineWetting (d : Dev) (n : Nat) : Option (Nat × Bool) :=
  if (d.get FLN_STAT FLN_STAT_TRIP).testBit n then none
  else if d.lineMode n = 2 then some (d.get (FLN_CFG n) FLN_CFG_WET, true)
  else if d.lineMode n = 3 then some (d.get (FLN_CFG n) FLN_CFG_WET, false)
  else none

/-- The bits of FLN_STAT as a read shows them: LVL where a headland channel follows the comparator, else an open bit while it is on, and LIM an
open bit while a driver is on: the manual gives the device no other word of what lies on a line (log entry 127). -/
def Dev.lineView (d : Dev) : Word × Dev :=
  let f := d.free
  let named (n : Nat) : Bool := (span 0 256).any (fun a => hlProducer d.hl a == 0x600 + n)
  let lvl := fun (w : Word) (n : Nat) =>
    if !d.lineComparator n then putBit w n false
    else if named n then putBit w n ((d.get FLN_STAT FLN_STAT_LVL).testBit n)
    else putBit w n (f.1.getLsbD n)
  let lim := fun (w : Word) (n : Nat) => putBit w (16 + n) ((d.lineDriver n).isSome && f.1.getLsbD (16 + n))
  ((span 0 8).foldl lim ((span 0 8).foldl lvl (d.reg FLN_STAT)), f.2)

end Sys2Proof.Machine
end

