-- ==== Sys2Proof/Machine/Receive.lean ====
section
/-! DEFINITION. The receive path's commands (chapters 5, 7 and 8): detector windows and candidates, furrow and MC symbols, verdicts,
the decoder pool, capture slots and the registers of those blocks. -/

namespace Sys2Proof.Machine

/-! ### Receive chains -/

/-- RX_CHAIN_ON (R80). -/
def execRxChainOn (c : Fin 7) (x : Fin 4) (v : Word) (s : State) : Host.Outcome State Fault Refusal :=
  s.run fun d => d.byCore c (RFC_RXCTL x) true fun d =>
    let d := d.rxFields x v
    if d.flag (RFC_RXCTL x) RFC_RXCTL_ON then d else d.rxOn x

/-- RX_CHAIN_OFF (R80, R137, R169). -/
def execRxChainOff (c : Fin 7) (x : Fin 4) (v : Word) (s : State) : Host.Outcome State Fault Refusal :=
  s.run fun d => d.byCore c (RFC_RXCTL x) true fun d =>
    let d := d.rxFields x v
    if d.flag (RFC_RXCTL x) RFC_RXCTL_ON then d.rxStop x dcCHAIN stCHAINOFF else d

/-! ### The search (R121 to R127) -/

/-- Threshold `t` in 0.25 dB is reached: `10 ^ (t / 40) ≤ a / b`, decided exactly. -/
def reach40 (t a b : Nat) : Bool := decide (10 ^ t * b ^ 40 ≤ a ^ 40)

/-- The detector of a chain raises no candidates: a re-sowing touches the chain (R77), or it has agreed to a power state (R371). -/
def Dev.detPaused (d : Dev) (c : Nat) : Bool :=
  d.sow.draining.contains c || d.sow.reloading.contains c || d.sow.resuming.contains c || d.rests 1

/-- THR[b][e] + THROFS of a search pair; 0 where the pair is not searched. -/
def Dev.detThr (d : Dev) (c b e : Nat) : Nat :=
  let t := d.plan8 tDETECT c (8 * b + e)
  if t = 0 then 0 else t + d.get (DET_CTL c) DET_CTL_THROFS

/-- The detector searches a channel and pair. -/
def Dev.searches (d : Dev) (c ch b e : Nat) : Bool :=
  match d.grid c with
  | none => false
  | some g => d.rxReady c && !d.detPaused c && d.flag (DET_CTL c) DET_CTL_EN && decide (0 < d.resvOf (resvDet c)) && decide (ch < gridChans g)
      && (gridBw g).testBit b && d.detThr c b e != 0

/-- Bins `a` and `b` of N lie within ±1 of each other. -/
def nearBin (n a b : Nat) : Bool := a == b || (a + 1) % n == b || (b + 1) % n == a

/-- A furrow of this chain, channel and pair is past its candidate and has symbols to come (R124). -/
def Dev.atWork (d : Dev) (c ch b e : Nat) (p : Nat × Rcv) : Bool :=
  isSc p.1 && p.2.chain == c && p.2.ch == ch && p.2.b == b && p.2.e == e && p.2.reent.isNone
    && (p.2.state == rsSYNC || p.2.state == rsHDR || (decide (p.2.state = rsADDR ∨ p.2.state = rsCOMMITTED) && decide (p.2.psym < d.paySyms p.1 p.2)))

/-- MCGUARD keeps a channel from raising candidates (R125). -/
def Dev.mcGuarded (d : Dev) (c ch : Nat) : Bool :=
  d.flag (DET_CTL c) DET_CTL_MCGUARD && match d.grid c with
    | none => false
    | some g => (span 0 2).any (fun m =>
        let r := d.rcvOf (1024 + m)
        let a := RFC_MCTAP m
        decide (1 ≤ r.state ∧ r.state ≤ rsCOMMITTED) && d.flag a RFC_MCTAP_EN && d.get a RFC_MCTAP_CHAIN == c
          && overlaps (gridCentre g ch) (widest (gridBw g)) ((u32 g 0 : Int) + sext 27 (d.get a RFC_MCTAP_OFFSET_HZ)) (mcHz (d.linkBw m)))

/-- Free furrows of a strip, lowest first; one freed in this cycle is first available in the next (R127). -/
def Dev.freeFurrows (d : Dev) (s : Nat) : List Nat :=
  (span (64 * s) 64).filter (fun f => (d.rcvOf f).state == 0 && (d.rcvOf f).freed != d.clk.cyc + 1)

/-- A unit returns to FREE. -/
def Dev.freeUnit (d : Dev) (u : Nat) : Dev := d.setRcv u { Rcv.init with freed := d.clk.cyc + 1 }

/-- The furrow an offer of a channel takes: the awake serving strip with the most free furrows, its lowest (R126). -/
def Dev.offer (d : Dev) (c ch : Nat) (reent : Bool) : Option Nat :=
  let l := (span 0 16).filter (fun s => d.stripServes s c ch && decide (0 < d.resvOf (resvStrip s)) && (!reent || d.stripReentry s))
  let best := l.foldl (fun (b : Option Nat × Nat) s =>
    let n := (d.freeFurrows s).length
    if b.2 < n then (some s, n) else b) (none, 0)
  match best.1 with
  | none => none
  | some s => (d.freeFurrows s).head?

/-- A furrow takes a candidate; of a re-entry, it reads the recording from its first sample (R167). -/
def Dev.furrowTake (d : Dev) (f c ch b e bin power time : Nat) (reent : Option Nat) : Dev :=
  d.setRcv f { Rcv.init with state := rsSYNC, chain := c, ch := ch, b := b, e := e, bin := bin, power := power, time := time, reent := reent }

/-- Reasons of UNW_DROP in the order of R161; 0 when the request passes. -/
def Dev.slotRefused (d : Dev) (c ch b e : Nat) : Nat :=
  if !d.flag UNW_CTL UNW_CTL_ON then 1
  else if !(span 0 16).any (fun s => d.stripServes s c ch && d.stripReentry s) then 2
  else if (span 0 32).any (fun n =>
      let s := d.slotOf n
      s.state != 0 && s.chain == c && s.ch == ch && s.b == b && s.e == e) then 3
  else if (span 0 32).all (fun n => (d.slotOf n).state != 0) then 4
  else if 4096 - d.pagesUsed < d.get UNW_CFG UNW_CFG_OPENFLOOR then 5
  else 0

/-- A slot request (R161): furrow `a` and the candidate, with its furrow if it took one. -/
def Dev.slotRequest (d : Dev) (a c ch b e bin power : Nat) (fb : Option Nat) : Dev :=
  let why := d.slotRefused c ch b e
  if why ≠ 0 then d.count (UNW_DROP (why - 1))
  else
    match (span 0 32).find? (fun n => (d.slotOf n).state == 0) with
    | none => d
    | some n =>
      let r := d.rcvOf a
      let endA := if rsADDR ≤ r.state then some (r.tsync + scQuarterU (7 + 4 * scHdrSyms r.e + 4 * d.paySyms a r) r.b r.e / 25) else none
      let s : Slot := { Slot.init with state := 1, chain := c, ch := ch, b := b, e := e, furA := a, furB := fb, clsB := if fb.isNone then 2 else 0, late := decide (rsHDR ≤ r.state), endA := endA, bin := bin, time := d.meshNow, power := power, binA := r.bin, timeA := r.time, powerA := r.power, serial := d.slotSeq }
      let d := { d.setSlot n s with slotSeq := d.slotSeq + 1 }
      (d.count UNW_OPEN).pageTake n

/-- The furrow at work with the largest summed power. -/
def strongest (l : List (Nat × Rcv)) : Option Nat :=
  (l.foldl (fun (b : Option (Nat × Nat)) p => match b with
    | none => some (p.1, p.2.power)
    | some x => if x.2 < p.2.power then some (p.1, p.2.power) else b) none).map (·.1)

/-- A candidate counted with its channel. -/
def Dev.countCh (d : Dev) (a ch : Nat) : Dev := (d.count a).put a DET_CAND_CHANNEL ch

/-- A slot in WAITFUR offers its target (R166, R167): a strip with REENTRY takes it, seeded with its estimates at the opening. While the chain drains for
a re-sowing the offer waits for the new STRIPS (R169), and while the strips have agreed to a power state for their return (R371). -/
def Dev.reenter (d : Dev) (n : Nat) : Dev :=
  let x := d.slotOf n
  if x.state = 3 ∧ ¬ d.sow.draining.contains x.chain ∧ ¬ d.rests 0 then
    match d.offer x.chain x.ch true with
    | none => d
    | some f =>
      let bin := if x.clsB = 2 then x.bin else x.binA
      let power := if x.clsB = 2 then x.power else x.powerA
      let time := if x.clsB = 2 then x.time else x.timeA
      (d.furrowTake f x.chain x.ch x.b x.e bin power time (some n)).setSlot n { x with state := 4, furR := some f }
  else d

/-- A candidate is raised (R122, R124 to R127); its time is the end of its last window. One dropped for want of a free furrow counts in DET_CAND too, as
a candidate offered (Table 7.12; R127 names only DET_NOFUR: DESIGN CHOICE, log entry 138). What re-enters is offered in every cycle, before any candidate (R126, R167). -/
def Dev.candidate (d : Dev) (c ch b e bin power : Nat) : Dev :=
  let n := 2 ^ e
  let l := d.rcv.filter (d.atWork c ch b e)
  if d.mcGuarded c ch || l.any (fun p => nearBin n p.2.bin bin) then d
  else
    let d := (span 0 32).foldl (fun d n => d.reenter n) (d.countCh (DET_CAND c) ch)
    let f := d.offer c ch false
    let d := match f with
      | some f => d.furrowTake f c ch b e bin power d.meshNow none
      | none => d.countCh (DET_NOFUR c) ch
    match strongest l with
    | none => d
    | some a => d.slotRequest a c ch b e bin power f

/-- Key of a track's run. -/
def runKey (c ch b e : Nat) (track : Bool) : Nat := 65536 * c + 256 * ch + 32 * b + 2 * e + track.toNat

/-- The bin whose sum over the windows is largest, with the sum; the lowest of equals. -/
def bestBin (n : Nat) (l : List (List Nat)) : Nat × Nat :=
  (span 0 n).foldl (fun (b : Nat × Nat) k =>
    let s := (l.map (fun w => w.getD k 0)).foldl (· + ·) 0
    if b.2 < s then (k, s) else b) (0, 0)

/-- A chain delivers blanked samples (R84). -/
def Dev.blanked (d : Dev) (c : Nat) : Bool := d.flag (RFC_RXSTAT c) RFC_RXSTAT_BLANKED

/-- The samples a unit takes are blanked now: those of its chain, unless it replays a recording. -/
def Dev.unitBlanked (d : Dev) (u : Nat) : Bool := (d.rcvOf u).reent.isNone && d.blanked (d.rcvOf u).chain

/-- A window's q(k), judged with the run of its track (R122 to R127). -/
def Dev.window (d : Dev) (c ch b e : Nat) (track marked : Bool) (q : List Nat) : Dev :=
  let key := runKey c ch b (e - 5) track
  let set := fun (d : Dev) (l : List (List Nat)) => { d with detRun := sset [] d.detRun key l }
  if !d.searches c ch b (e - 5) || marked then set d []
  else
    let r := d.plan8 tDETECT c 0x28
    let l := (q :: sget [] d.detRun key).take r
    let d := set d l
    if l.length < r then d
    else
      let x := bestBin (2 ^ e) l
      if reach40 (d.detThr c b (e - 5)) x.2 (65536 * r) then d.candidate c ch b e x.1 x.2 else d

/-- DETECTOR_WINDOW (R121 to R127). While the strips have agreed to a power state and the detectors have not, a window whose candidate they would take
waits for their return (R371). -/
def execDetectorWindow (c : Fin 4) (ch : Fin 256) (b : Fin 5) (e : Fin 8) (track marked : Bool) (x : List Cx) (s : State) :
    Host.Outcome State Fault Refusal :=
  s.run fun d =>
    if d.rests 0 ∧ ¬ d.rests 1 then d.hold (.detectorWindow c ch b e track marked x)
    else d.window c ch b (e + 5) track (marked || d.blanked c) (windowQ (e + 5) x)

/-! ### Furrow symbols (R131, R135, R136, R138) -/

/-- Sync words enabled for a chain (R131, R146). -/
def Dev.syncWords (d : Dev) (c : Nat) : List Nat :=
  ((span 0 4).filter (fun i => (d.get (DET_CTL c) DET_CTL_SWEN).testBit i)).map (fun i => (d.reg (DET_SYNC c)).toNat / 256 ^ i % 256)

/-- The nibble of a sync symbol at bin `k`, from the preamble bin: the nearest odd multiple of 2^(e − 5) (R104). -/
def syncNibble (e k bin : Nat) : Nat := (k + 2 ^ e - bin % 2 ^ e) % 2 ^ e / 2 ^ (e - 4)

/-- A symbol of quality `q` is faded (R135). -/
def Dev.faded (d : Dev) (q : Nat) : Bool := !reach40 (d.get DET_FURCFG DET_FURCFG_FREEZE) q 65536

/-- One symbol of quality `q` noted, the trackers with it (R135, R136). -/
def Dev.noteTrack (d : Dev) (u q : Nat) (marked : Bool) (freq drift : Nat) : Dev :=
  d.setRcv u (((d.rcvOf u).noted (d.faded q) marked).track (marked || d.faded q) freq drift)

/-- A preamble symbol: LOST after two weak ones in a row, or beyond 4,096; a marked window is skipped. -/
def Dev.preSymbol (d : Dev) (u q : Nat) (marked : Bool) (freq drift : Nat) : Dev :=
  if marked then d
  else
    let d := d.noteTrack u q false freq drift
    let r := d.rcvOf u
    let weak := if q < 65536 then r.weak + 1 else 0
    let d := d.setRcv u { r with weak := weak, pre := r.pre + 1 }
    if 2 ≤ weak ∨ 4096 < r.pre + 1 then d.reclaim u dcLOST else d

/-- Address of a page of the pool, its stamp and its count of blocks (Table 8.4). -/
def pageAt (p : Nat) : Nat := 0x21C00000 + 4096 * p
def Dev.pageStamp (d : Dev) (p : Nat) : Nat :=
  let b := d.bytes (pageAt p + 8) 8
  u32 b 0 + 2 ^ 32 * u32 b 4
def Dev.pageBlocks (d : Dev) (p : Nat) : Nat := u32 (d.bytes (pageAt p + 4) 4) 0

/-- W of a chain's grid in Hz (R82). -/
def Dev.chainW (d : Dev) (c : Nat) : Nat := match d.grid c with
  | some g => widest (gridBw g)
  | none => 0

/-- Mesh time of sample `pos` of a slot's recording, from its page stamps (R162, R167). -/
def Dev.recTime (d : Dev) (n pos : Nat) : Nat :=
  let s := d.slotOf n
  let w := d.chainW s.chain
  let p := s.pages.getD (pos / 1280) 0
  (d.pageStamp p + pos % 1280 * 122880000 / (2 * max 1 w)) % 2 ^ 64

/-- Mesh time of t_sync: now, or of a replay the instant on the air. -/
def Dev.syncTime (d : Dev) (r : Rcv) (pos : Nat) : Nat := match r.reent with
  | some n => d.recTime n pos
  | none => d.meshNow

/-- A mesh time not after now, in the time of `TxRec`. -/
def Dev.localU (d : Dev) (t : Nat) : Nat := d.nowU - 25 * ((d.meshNow + 2 ^ 64 - t) % 2 ^ 64)

/-- A sync symbol. -/
def Dev.syncSymbol (d : Dev) (u k q : Nat) (marked : Bool) (rssi snr pos freq drift : Nat) : Dev :=
  if marked then d.reclaim u dcBLANK
  else
    let d := d.noteTrack u q false freq drift
    let r := d.rcvOf u
    let nib := syncNibble r.e k r.bin
    let words := d.syncWords r.chain
    if r.step = 0 then
      if words.any (fun w => w / 16 == nib) then d.setRcv u { r with step := 1, hi := nib } else d.reclaim u dcSYNC
    else if words.contains (16 * r.hi + nib) then
      d.setRcv u { r with step := 2, word := 16 * r.hi + nib, rssi := rssi, snr := snr, tsync := d.syncTime r pos, syncU := d.localU (d.syncTime r pos) }
    else d.reclaim u dcSYNC

/-- The down-chirps end: SYNC is decided (R131). -/
def Dev.downSymbol (d : Dev) (u q : Nat) (marked : Bool) (foff drift : Nat) : Dev :=
  if marked then d.reclaim u dcBLANK
  else
    let d := d.noteTrack u q false foff drift
    let r := d.rcvOf u
    if reach40 (d.detThr r.chain r.b (r.e - 5)) (4 * q) 65536 then d.setRcv u { r with state := rsHDR, foff := foff } else d.reclaim u dcSYNC

/-- Soft values of a symbol (R108, R136): each bit as the decided chirp spells it, of the size measured, which the manual gives no formula for (log entry
172) and which shrinks with the noise where the symbol holds a gain step; 0 where it is marked. -/
def Rcv.scSoft (r : Rcv) (x : List Cx) (size : List Byte) (marked : Bool) : List Byte :=
  let k := symBin r.e x
  let p := dechirp r.e x
  let nu := (p.foldl (· + ·) 0 - p.getD k 0) / (2 ^ r.e - 1)
  (span 0 r.e).map (fun i =>
    let m := (size.getD i 0).toNat
    let m := if r.noise nu = nu then m else m * nu / r.noise nu
    if marked then 0 else llrByte (if (k ^^^ k / 2).testBit (r.e - 1 - i) then -(m : Int) else m))

/-- A header or payload symbol of a furrow; one that comes before the header has returned waits for it. -/
def Dev.dataSymbol (d : Dev) (u : Nat) (soft : List Byte) (q : Nat) (marked : Bool) (freq drift : Nat) : Dev :=
  let r := d.rcvOf u
  let s := scHdrSyms r.e
  if r.state ≠ rsHDR then d.dataPay u soft (d.faded q) marked freq drift
  else if r.hsym < s then
    let d := d.noteTrack u q marked freq drift
    let d := (span 0 r.e).foldl (fun d p =>
      if r.hsym + s * p < 96 then d.setByte (softAt u + 0x1D00 + r.hsym + s * p) (soft.getD p 0) else d) d
    let d := d.setRcv u { d.rcvOf u with hsym := r.hsym + 1 }
    if r.hsym + 1 = s then d.handHeader u else d
  else d.setRcv u { r with raw := r.raw ++ [(soft, d.faded q, marked, freq, drift)], step1 := false }

/-- The measure belongs to the furrow's point of the frame. -/
def Rcv.takes (r : Rcv) : Meas → Bool
  | .preamble .. => decide (r.state = rsSYNC ∧ r.step = 0)
  | .sync .. => decide (r.state = rsSYNC ∧ r.step ≤ 1)
  | .down .. => decide (r.state = rsSYNC ∧ r.step = 2)
  | .data .. => decide (r.state = rsHDR ∨ r.state = rsADDR ∨ r.state = rsCOMMITTED)

/-- A measure that belongs to the furrow's point of the frame. -/
def Dev.measure (d : Dev) (f : Nat) (m : Meas) : Dev :=
  let r := d.rcvOf f
  match m with
  | .preamble x marked freq drift => d.preSymbol f (symQAt r.e x r.bin) (marked || d.unitBlanked f) freq.toNat drift.toNat
  | .sync x marked rssi snr pos freq drift =>
    d.syncSymbol f (symBin r.e x) (symQ r.e x) (marked || d.unitBlanked f) rssi.toNat snr.toNat pos freq.toNat drift.toNat
  | .down x marked foff drift => d.downSymbol f (downQ r.e x) (marked || d.unitBlanked f) foff.toNat drift.toNat
  | .data size x marked freq drift =>
    d.dataSymbol f (r.scSoft x size (marked || d.unitBlanked f)) (symQ r.e x) (marked || d.unitBlanked f) freq.toNat drift.toNat

/-! A replay reads its symbols in the recording (R167) -/

/-- Sample `i` of a page (Table 8.4), on the scale of R82. -/
def Dev.pageExp (d : Dev) (p i : Nat) : Nat := u8 (d.bytes (pageAt p + 0xF10 + i / 64) 1) 0 / 16 ^ (i / 32 % 2) % 16
def Dev.pageSample (d : Dev) (p i : Nat) : Cx :=
  let b := d.bytes (pageAt p + 0x10 + 3 * i) 3
  (sext 12 (16 * u8 b 0 + u8 b 1 / 16) * 2 ^ d.pageExp p i, sext 12 (u8 b 1 % 16 * 256 + u8 b 2) * 2 ^ d.pageExp p i)

/-- A block of a page holds a blanked sample. -/
def Dev.blockMarked (d : Dev) (p b : Nat) : Bool := (u8 (d.bytes (pageAt p + 0xF24 + b / 8) 1) 0).testBit (b % 8)

/-- Sample `pos` of a slot's recording, and whether it is marked; none beyond the write point. -/
def Dev.recorded (d : Dev) (x : Slot) (pos : Nat) : Option (Cx × Bool) :=
  let p := x.pages.getD (pos / 1280) 0
  if pos / 1280 < x.wrote ∧ pos % 1280 < 32 * d.pageBlocks p then some (d.pageSample p (pos % 1280), d.blockMarked p (pos % 1280 / 32)) else none

/-- Recorded samples a chip (R121, R162). -/
def Dev.perChip (d : Dev) (r : Rcv) : Nat := 2 * d.chainW r.chain / bwHz r.b

/-- The check bits of the pool act as `n` samples from `pos` on are read (R446). -/
def Dev.pageTouch (d : Dev) (x : Slot) (pos n : Nat) : Dev :=
  if d.memErr.isEmpty then d
  else (wordSpan 1280 pos n).foldl (fun (d : Dev) k =>
    let lo := max pos (1280 * k)
    d.touchRange (pageAt (x.pages.getD k 0) + 0x10 + 3 * (lo % 1280)) (3 * (min (pos + n) (1280 * (k + 1)) - lo))) d

/-- The symbol a replay reads next: its chips, taken at their instants, the carrier offset found taken out once it is known, and whether one of its
samples is marked; none while the recording has not come that far. -/
def Dev.replayed (d : Dev) (r : Rcv) (n : Nat) : Option (List Cx × Bool) :=
  let l := (span r.rpos (2 ^ r.e * d.perChip r)).map (d.recorded (d.slotOf n))
  if l.any (·.isNone) then none
  else
    let off := if r.state = rsSYNC then 0 else sext 24 r.trkF
    let chip := fun i => cmul (((l.getD (i * d.perChip r) none).map (·.1)).getD (0, 0)) (cis (twos 13 (-(off * i * 8192 / (bwHz r.b : Nat)))))
    some ((span 0 (2 ^ r.e)).map chip, l.any (fun y => y.any (·.2)))

/-- The measure with a symbol's chips and mark put in. -/
def readingOf (y : List Cx × Bool) : Meas → Meas
  | .preamble _ _ f g => .preamble y.1 y.2 f g
  | .sync _ _ a b p f g => .sync y.1 y.2 a b p f g
  | .down _ _ f g => .down y.1 y.2 f g
  | .data l _ _ f g => .data l y.1 y.2 f g

/-- Sample at which a replay's next symbol begins: t_sync counts from `pos`, and the down-chirps last 1.75 symbols. -/
def Rcv.nextPos (r : Rcv) (len : Nat) : Meas → Nat
  | .sync _ _ _ _ pos _ _ => if r.step = 1 then pos else r.rpos + len
  | .down .. => r.rpos + 7 * len / 4
  | _ => r.rpos + len

/-- A replay's furrow goes on to its next symbol. -/
def Dev.replayOn (d : Dev) (f pos : Nat) : Dev :=
  let r := d.rcvOf f
  d.when (decide (1 ≤ r.state ∧ r.state ≤ rsCOMMITTED)) (fun d => d.setRcv f { r with rpos := pos })

/-- FURROW_SYMBOL (R131, R135, R136, R148, R167): a measure that does not belong to the furrow's point of the frame changes nothing, nor does one of a
replay that has reached the write point of its recording. -/
def execFurrowSymbol (f : Fin 1024) (x : Meas) (s : State) : Host.Outcome State Fault Refusal :=
  s.run fun d =>
    let r := d.rcvOf f
    if !r.takes x then d
    else match r.reent with
      | none => d.measure f x
      | some n => match d.replayed r n with
        | none => d
        | some y => ((d.pageTouch (d.slotOf n) r.rpos (2 ^ r.e * d.perChip r)).measure f (readingOf y x)).replayOn f (r.nextPos (2 ^ r.e * d.perChip r) x)

/-- RECLAIM_COMPLETE (R132). -/
def execReclaimComplete (u : Fin 1026) (s : State) : Host.Outcome State Fault Refusal :=
  s.run fun d => if (d.rcvOf u).state = rsRECLAIM then d.freeUnit u else d

/-- EARLY_VERDICT (R176). -/
def execEarlyVerdict (u : Fin 1026) (s : State) : Host.Outcome State Fault Refusal :=
  s.run fun d =>
    let r := d.rcvOf u
    if r.state = rsADDR ∧ !r.early then
      if d.earlyPass u r.chain (r.info u) then d.setRcv u { r with early := true } else d.reclaim u dcEARLYADDR
    else d

/-- The filter's answer on the decoded link header (R177): the unit is confirmed, or reclaimed. -/
def Dev.filterAnswer (d : Dev) (u : Nat) : Dev :=
  let r := d.rcvOf u
  let f := d.bytes (decodedAt u) (min 13 (r.len u))
  let code := d.addrFilter r.syncU (r.info u) (r.len u) f
  if code ≠ 0 then (d.put LNK_STAT LNK_STAT_LASTREJ code).reclaim u dcADDR
  else
    let d := d.accept r.syncU f
    let d := d.when (d.lateU.contains u && d.ackAwaited u) (fun d => d.count (LNK_CNT 1))
    let st := if r.psym < d.paySyms u r then rsCOMMITTED else rsDECODING
    let d := (d.setRcv u { r with state := st, addr := true }).tallyFlush u
    if st = rsDECODING ∧ r.out = 0 then d.finishBlocks u else d

/-- ADDRESS_FILTER (R177, R187): block 0 has converged and the early verdict was PASS. -/
def execAddressFilter (u : Fin 1026) (s : State) : Host.Outcome State Fault Refusal :=
  s.run fun d =>
    let r := d.rcvOf u
    if r.state = rsADDR ∧ r.early ∧ r.blk0 = some true then d.filterAnswer u else d

/-! ### The decoder pool (R148 to R156) -/

/-- With ON cleared and nothing under decode, the pool's reservation goes and queued blocks return unserved (R155). -/
def Dev.poolSettle (d : Dev) : Dev :=
  if d.poolOn || d.decBusy != [] then d
  else
    let l := d.decQ
    let d := (Dev.decSync { d with decQ := [] }).setResv resvPool 0
    l.foldl (fun d b => d.returnTo b.unit (fun d => d.blockUnserved b 11)) d

/-- BLOCK_DECODED (R149): a cancelled block's result is discarded. -/
def execBlockDecoded (k : Fin 10) (s : State) : Host.Outcome State Fault Refusal :=
  s.run fun d =>
    match sget none d.decBusy k with
    | none => d
    | some j =>
      let x := d.decodeBlk j.blk j.imax j.stall
      let d := ((d.blockTouch j.blk).decFree k).decSync
      (if j.live then d.blockReturn k j.blk x else d).poolSettle

/-- The grants of one cycle (R151). -/
def Dev.grantCycle (d : Dev) : Dev := if d.poolOn then (d.grants false 8).grants true 2 else d

/-- DECODER_GRANT (R151). -/
def execDecoderGrant (s : State) : Host.Outcome State Fault Refusal := s.run Dev.grantCycle

/-- BLOCK_EXPIRE (R154): a grant of the same cycle wins (R17, R153). -/
def execBlockExpire (u : Fin 1026) (hdr : Bool) (idx : Nat) (s : State) : Host.Outcome State Fault Refusal :=
  s.run fun d =>
    match d.decQ.find? (fun b => b.unit == u.val && b.hdr == hdr && b.idx == idx) with
    | none => d
    | some b =>
      if d.get DEC_WAIT DEC_WAIT_WAITMAX = 0 ∨ (s.arrives (· == .decoderGrant) && !(d.grantCycle.decQ.contains b)) then d
      else (Dev.decSync { d with decQ := dropBlk b d.decQ }).blockUnserved b 10

/-- POOL_ON (R155). -/
def execPoolOn (c : Fin 7) (s : State) : Host.Outcome State Fault Refusal :=
  s.ask (.poolOn c) DEC_CTL fun d => d.byCore c DEC_CTL true fun d =>
    if d.poolOn then d
    else
      let r := d.requestResv resvPool 200 2
      if r.1 then r.2.put DEC_CTL DEC_CTL_ON 1 else r.2.put DEC_STAT DEC_STAT_ERR 1

/-- POOL_OFF (R155). -/
def execPoolOff (c : Fin 7) (s : State) : Host.Outcome State Fault Refusal :=
  s.ask (.poolOff c) DEC_CTL fun d => d.byCore c DEC_CTL true fun d => if d.poolOn then (d.put DEC_CTL DEC_CTL_ON 0).poolSettle else d

/-! ### Furrow and MC registers -/

/-- FURROW_RELEASE (R139, R134). -/
def Dev.furrowRelease (d : Dev) (u : Nat) : Dev := if (d.rcvOf u).state = rsDONE then d.freeUnit u else d

/-- An ABORT of firmware (R134, R137). -/
def Dev.furrowAbort (d : Dev) (u : Nat) : Dev := d.imposedEnd u dcABORT stABORTED

def execFurrowRelease (c : Fin 7) (f : Fin 1024) (s : State) : Host.Outcome State Fault Refusal :=
  s.ask (.furrowRelease c f) (FUR_CTL f) fun d => d.byCore c (FUR_CTL f) true fun d => d.furrowRelease f

/-- FURROW_ABORT (R137). -/
def execFurrowAbort (c : Fin 7) (f : Fin 1024) (s : State) : Host.Outcome State Fault Refusal :=
  s.ask (.furrowAbort c f) (FUR_CTL f) fun d => d.byCore c (FUR_CTL f) true fun d => d.furrowAbort f

/-- A write to MCX_CTL (R144, R147). -/
def Dev.mcxWrite (d : Dev) (m : Nat) (v : Word) : Dev :=
  let a := MCX_CTL m
  let u := 1024 + m
  let was := d.flag a MCX_CTL_EN
  let d := d.put a MCX_CTL_THR (getF v MCX_CTL_THR)
  let d := if was then d
    else
      let d := if getF v MCX_CTL_MSEL = 3 then d else d.put a MCX_CTL_MSEL (getF v MCX_CTL_MSEL)
      d.put a MCX_CTL_G (getF v MCX_CTL_G)
  let d := d.when (getF v MCX_CTL_RELEASE == 1) (fun d => d.furrowRelease u)
  let d := d.when (getF v MCX_CTL_ABORT == 1 || (was && getF v MCX_CTL_EN == 0)) (fun d => d.furrowAbort u)
  d.put a MCX_CTL_EN (getF v MCX_CTL_EN)

/-- MCX_RELEASE (R144). -/
def execMcxRelease (c : Fin 7) (m : Fin 2) (v : Word) (s : State) : Host.Outcome State Fault Refusal :=
  s.ask (.mcxRelease c m v) (MCX_CTL m) fun d => d.byCore c (MCX_CTL m) true fun d => d.mcxWrite m (setF v MCX_CTL_RELEASE 1)

/-- MCX_ABORT (R147). -/
def execMcxAbort (c : Fin 7) (m : Fin 2) (v : Word) (s : State) : Host.Outcome State Fault Refusal :=
  s.ask (.mcxAbort c m v) (MCX_CTL m) fun d => d.byCore c (MCX_CTL m) true fun d => d.mcxWrite m (setF v MCX_CTL_ABORT 1)

/-- MCX_ENABLE (R147). -/
def execMcxEnable (c : Fin 7) (m : Fin 2) (v : Word) (s : State) : Host.Outcome State Fault Refusal :=
  s.ask (.mcxEnable c m v) (MCX_CTL m) fun d => d.byCore c (MCX_CTL m) true fun d => d.mcxWrite m (setF (setF v MCX_CTL_RELEASE 0) MCX_CTL_ABORT 0)

/-! ### MC demodulators (R141 to R144) -/

/-- MC_TRAINING (R141): while a frame is held the symbol is ignored and counts; a demodulator that has agreed to a power state takes none (R371). -/
def execMcTraining (m : Fin 2) (w : List Cx × List Cx) (s : State) : Host.Outcome State Fault Refusal :=
  s.run fun d =>
    let u := 1024 + m.val
    let c := d.get (RFC_MCTAP m) RFC_MCTAP_CHAIN
    let x := trainStat (d.linkM m) w
    if d.flag (MCX_CTL m) MCX_CTL_EN && d.flag (RFC_MCTAP m) RFC_MCTAP_EN && d.rxReady c && !d.rests 4
        && reach40 (d.get (MCX_CTL m) MCX_CTL_THR) x.1 (2 * x.2) then
      if (d.rcvOf u).state = 0 then d.setRcv u { Rcv.init with state := rsSYNC, chain := c }
      else d.count (MCX_BUSY m)
    else d

/-- An MC header symbol at noise `nu`: its LLRs join the copies before it (R118, R143). How the running sums saturate the manual does not say: at 511 at
every addition, as values inside the decoder do (DESIGN CHOICE, log entry 162). -/
def Dev.mcHdrSymbol (d : Dev) (m : Nat) (a : List Cx) (nu : Nat) (faded marked : Bool) (drift : Int) : Dev :=
  let u := 1024 + m
  let k := d.linkM m
  let r := (d.rcvOf u).mcNote faded marked drift
  let soft := softOf (mcLlrs k 0 nu r.chan a) (mcData k) marked
  let base := r.hsym * mcData k
  let acc0 := if r.hacc = [] then List.replicate 128 0 else r.hacc
  let acc := (span 0 (mcData k)).foldl (fun (l : List Int) i => setAt l ((base + i) % 128) (sat511 (l.getD ((base + i) % 128) 0 + llrInt (soft.getD i 0)))) acc0
  let d := d.setRcv u { r with hacc := acc, hsym := r.hsym + 1 }
  if r.hsym + 1 = mcHdrSyms k then d.handHeader u else d

/-- One MC symbol received (R142, R143): its chirps equalised and turned by θ_l, the carrier tracked from symbol to symbol unless it is faded or marked
(R135), the timing corrected to the side that the pilots' energy spreads to, its LLRs taken. A data symbol that comes before the header has returned
waits for it, as its constellation is not known. -/
def Dev.mcReceive (d : Dev) (m : Nat) (x : List Cx) (marked : Bool) (size : Nat) : Dev :=
  let u := 1024 + m
  let r := d.rcvOf u
  let k := d.linkM m
  let a := mcEqualise k r.chan x
  let p := pilotSum k (r.hsym + r.psym + r.mcRaw.length) a
  let b := a.map (derotate p)
  let faded := mcFaded k a
  let nu := r.noise r.nu
  let drift := (pilotLean k a).sign * (min size 127 : Nat)
  let r := if marked || faded then r else { r with pil := p, rot := cmul p (cconj r.pil) }
  let d := d.setRcv u r
  if r.state ≠ rsHDR then d.mcPay u b nu faded marked drift
  else if r.hsym < mcHdrSyms k then d.mcHdrSymbol m b nu faded marked drift
  else d.setRcv u { r with mcRaw := r.mcRaw ++ [(b, nu, faded, marked, drift)], step1 := false }

/-- TRAIN passes (R144): each training symbol reaches the threshold that R141 sets for a window (log entry 173), and the pilots of the first header symbol,
equalised, agree in sign. -/
def trainPass (m thr : Nat) (h r1 r2 : List Cx) : Bool :=
  let ok := fun (r : List Cx) => let c := trainCorr m r; decide (c.2 ≠ 0) && reach40 thr c.1 c.2
  ok r1 && ok r2 && pilotsAgree m (mcEqualise m (mcTrained m r1 r2).chan h)

/-- MC_SYMBOL (R142 to R144). -/
def execMcSymbol (m : Fin 2) (x : McMeas) (s : State) : Host.Outcome State Fault Refusal :=
  s.run fun d =>
    let u := 1024 + m.val
    let r := d.rcvOf u
    match x with
    | .train h rssi snr foff r1 r2 =>
      if r.state = rsSYNC then
        if trainPass (d.linkM m) (d.get (MCX_CTL m) MCX_CTL_THR) h r1 r2 then
          let t := mcTrained (d.linkM m) r1 r2
          d.setRcv u { r with state := rsHDR, rssi := rssi.toNat, snr := snr.toNat, foff := foff.toNat, low := t.low, tsync := d.meshNow, syncU := d.nowU, chan := t.chan, nu := t.nu }
        else d.reclaim u dcSYNC
      else d
    | .data x marked drift =>
      if r.state = rsHDR ∨ r.state = rsADDR ∨ r.state = rsCOMMITTED then d.mcReceive m x (marked || d.unitBlanked u) drift.toNat else d

/-! ### The unwinding engine (R161 to R169) -/

/-- The head of a page up to its last block, and its exponents, marks and end (Table 8.4). -/
def pageHead (n seq t0 : Nat) (blks : List (List Cx × Bool)) : List Byte :=
  leBytes 1 n ++ [0] ++ leBytes 2 seq ++ leBytes 4 blks.length ++ leBytes 8 t0 ++ blks.flatMap (fun b => blockBytes b.1)
def pageTail (blks : List (List Cx × Bool)) : List Byte :=
  let e := fun (i : Nat) => match blks[i]? with
    | some b => blockExp b.1
    | none => 0
  (span 0 20).map (fun i => BitVec.ofNat 8 (e (2 * i) + 16 * e (2 * i + 1)))
    ++ leBytes 8 (((span 0 blks.length).map (fun i => if (blks.getD i ([], false)).2 then 2 ^ i else 0)).foldl (· + ·) 0) ++ List.replicate 212 0

/-- A page written to the pool. -/
def Dev.pageWrite (d : Dev) (n p seq t0 : Nat) (blks : List (List Cx × Bool)) : Dev :=
  let d := (d.setBytes (pageAt p) (pageHead n seq t0 blks)).setBytes (pageAt p + 0xF10) (pageTail blks)
  d.setSlot n { d.slotOf n with wrote := (d.slotOf n).pages.length }

/-! Subtraction (R165, R166) -/

/-- The symbol of a packet at a quarter symbol counted from its t_sync: preamble and sync below 0, the down-chirps 0 and 1, header and payload from 2
(Table 6.2). -/
def symAt (q : Int) : Int := if q < 4 then q / 4 else if q < 7 then 1 else 2 + (q - 7) / 4

/-- The instant `t` against a packet's t_sync, in quarter symbols. -/
def quarterAt (tsync b e t : Nat) : Int := sext 64 ((t + 2 ^ 64 - tsync) % 2 ^ 64) * 4 * bwHz b / (122880000 * 2 ^ e : Nat)

/-- Known packet of a slot: its t_sync, its end. -/
def Slot.knownSync (x : Slot) : Nat := x.est.getD 4 0
def Slot.knownEnd (x : Slot) : Option Nat := if x.clsA = 1 then x.endA else x.endB

/-- The symbol of the known packet that sample `i` of page `p` belongs to. -/
def Dev.knownSym (d : Dev) (x : Slot) (p i : Nat) : Int :=
  symAt (quarterAt x.knownSync x.b x.e (d.pageStamp p + i * 122880000 / (2 * max 1 (d.chainW x.chain))))

/-- Symbols of the known packet that hold a blanked sample: they are not subtracted (R166). -/
def Dev.knownBlanked (d : Dev) (x : Slot) : List Int :=
  x.pages.flatMap (fun p => ((span 0 (d.pageBlocks p)).filter (d.blockMarked p)).flatMap (fun b => (span (32 * b) 32).map (d.knownSym x p)))

/-- Sample `i` of page `p` is one the known packet occupies, in a symbol that is subtracted. -/
def Dev.subtracts (d : Dev) (x : Slot) (bad : List Int) (p i : Nat) : Bool :=
  let t := d.pageStamp p + i * 122880000 / (2 * max 1 (d.chainW x.chain))
  decide (i < 32 * d.pageBlocks p) && !bad.contains (d.knownSym x p i) && match x.knownEnd with
    | none => true
    | some e => !atOrPast t e

/-- Mesh time of sample `i` of page `p`. -/
def Dev.sampleTime (d : Dev) (x : Slot) (p i : Nat) : Nat := d.pageStamp p + i * 122880000 / (2 * max 1 (d.chainW x.chain))

/-- Place in the rebuilt frame of symbol `s` counted from t_sync: behind the preamble chirps and the two sync symbols. -/
def Slot.modelAt (x : Slot) (s : Int) : Nat := (s + (x.model.takeWhile (· == .up 0)).length + 2).toNat

/-- Phase in 1/8192 of a turn at `num` ÷ `den` chips into the up-chirp of value `k` (R101). -/
def upPhase (e k : Nat) (num den : Int) : Int :=
  let n : Int := (2 ^ e : Nat)
  num * num * 4096 / (n * den * den) + k * num * 8192 / (n * den) - num * 4096 / den
    - (if (n - k) * den < num then (num - (n - k) * den) * 8192 / den else 0)

/-- The rebuilt waveform at mesh time `t`, of amplitude 1, at the fitted carrier and chip-rate offsets (R165). -/
def Slot.waveAt (x : Slot) (t : Nat) : Cx :=
  let dt := sext 64 ((t + 2 ^ 64 - x.knownSync) % 2 ^ 64)
  let s := symAt (quarterAt x.knownSync x.b x.e t)
  let sym : Int := scQuarterU 4 x.b x.e
  let into := 25 * dt - (if s ≤ 1 then s * sym else (4 * s - 1) * sym / 4)
  let num := into * bwHz x.b * (4000000 + x.fitD)
  let den := 25 * 122880000 * 4000000
  let turn := match x.model.getD (x.modelAt s) (.up 0) with
    | .up k => upPhase x.e k num den
    | .down _ => -upPhase x.e 0 num den
  cis (twos 13 (turn + x.fitF * dt * 8192 / 122880000))

/-- The known packet's amplitude in a symbol, fitted by least squares against the samples that some pages hold of it (R165). -/
def Dev.knownAmp (d : Dev) (x : Slot) (pages : List Nat) (s : Int) : Cx :=
  let l := pages.flatMap (fun p => ((span 0 (32 * d.pageBlocks p)).filter (fun i => d.knownSym x p i == s)).map (fun i =>
    cmul (d.pageSample p i) (cconj (x.waveAt (d.sampleTime x p i)))))
  ((csum l).1 / l.length, (csum l).2 / l.length)

/-- The largest amplitude that lies `ratio` × 0.25 dB below power `p`. -/
def belowBy (ratio p : Nat) : Nat := (span 0 40).reverse.foldl (fun b i => if reach40 ratio p ((b + 2 ^ i) ^ 2) then b + 2 ^ i else b) 0

/-- What remains of the known packet in a sample: a free value as far below its power as its cancellation ratio says (R166). -/
def residue (ratio : Nat) (amp : Cx) (k : Nat) : Cx :=
  let b := belowBy ratio (cpow amp)
  let i : Int := (Config.freeWord (2 * k)).toNat % (2 * b + 1) - (b : Int)
  let c := isqrt (b * b - (i * i).toNat)
  (i, (Config.freeWord (2 * k + 1)).toNat % (2 * c + 1) - (c : Int))

/-- The recording of one page after the subtraction, the amplitudes fitted against `pages` of the recording `e` (R165, R166; log entries 27 and 145): from
a sample that is subtracted the rebuilt waveform goes, but for what the cancellation leaves. -/
def Dev.pageSubtract (d : Dev) (e : Dev) (x : Slot) (bad : List Int) (pages : List Nat) (p : Nat) : Dev :=
  let d := d.touchRange (pageAt p) 4096
  let old := d.bytes (pageAt p + 0x10) 3840
  let one := fun (i : Nat) =>
    if d.subtracts x bad p i then
      let s := d.knownSym x p i
      let amp := e.knownAmp x pages s
      let rest := residue (x.ratio.getD (x.modelAt s) 0) amp (d.freeCtr + i)
      sampleBytes (d.pageExp p i) (cadd (csub (d.pageSample p i) (cmul amp (x.waveAt (d.sampleTime x p i)))) rest)
    else (old.drop (3 * i)).take 3
  { d.setBytes (pageAt p + 0x10) ((span 0 1280).flatMap one) with freeCtr := d.freeCtr + 2560 }

/-- CAPTURE_PAGE_FULL (R162, R168): a full page makes the slot take another; the last one is written as it stands once the recording has stopped. What is
written after the subtraction has begun is subtracted as it is written (R165). -/
def execCapturePageFull (n : Fin 32) (t0 : BitVec 64) (blks : List (List Cx × Bool)) (s : State) : Host.Outcome State Fault Refusal :=
  s.run fun d =>
    let x := d.slotOf n
    match x.pages.getLast? with
    | none => if d.recording n then d.pageTake n else d
    | some p =>
      if x.wrote = x.pages.length ∨ (d.recording n ∧ blks.length ≠ 40) then d
      else
        let rec' := d.recording n
        let d := d.pageWrite n p (x.pages.length - 1) t0.toNat blks
        let d := if x.begun then d.pageSubtract d x (d.knownBlanked x) [p] p else d
        if rec' then d.pageTake n else d

/-- A slot in SUBTRACT is under way. -/
def Dev.subtracting (d : Dev) : Bool := (span 0 32).any (fun n => (d.slotOf n).state == 2 && (d.slotOf n).begun)

/-- The known packet rebuilt (R165): preamble chirps back to the first recorded sample, its sync word, down-chirps, and its decoded bytes encoded again. -/
def Dev.knownFrame (d : Dev) (x : Slot) : List Chirp := match x.known with
  | none => []
  | some k =>
    let back := -quarterAt x.knownSync x.b x.e (d.pageStamp (x.pages.headD 0)) - 8
    scFrame (ceilDiv back.toNat 4) x.e k.2.1 k.1 (k.2.2.take (scHdrLen k.1))

/-- Symbols of the known packet that hold a gain step (R166, R380). -/
def Slot.stepped (x : Slot) : List Int := x.steps.map (fun t => symAt (quarterAt x.knownSync x.b x.e t))

/-- The bound of R166 on the cancellation ratio of symbol `s` in 0.25 dB: 30 dB, or 20 dB with a gain step in it, and SNR + 10 log10 N − 3 dB. -/
def Slot.ratioMin (x : Slot) (s : Int) : Nat :=
  (min (if x.stepped.contains s then 80 else 120) (sext 16 (x.est.getD 1 0) + (120412 * x.e / 10000 : Nat) - 12)).toNat

/-- The rebuilding begins: the fitted offsets, which the recording fixes in a way that R165 leaves to the engine, and every symbol's cancellation ratio at
or above its bound are free values (log entry 145). -/
def Dev.rebuild (d : Dev) (n : Nat) (x : Slot) : Dev :=
  let m := d.knownFrame x
  let lead := ((m.takeWhile (· == .up 0)).length : Int) + 2
  let r := (span 0 m.length).map (fun (i : Nat) => x.ratioMin ((i : Nat) - lead) + (Config.freeWord (d.freeCtr + 2 + i)).toNat)
  { d.setSlot n { x with begun := true, model := m, ratio := r, fitF := (Config.freeWord d.freeCtr).toInt, fitD := sext 8 (Config.freeWord (d.freeCtr + 1)).toNat } with
    freeCtr := d.freeCtr + 2 + m.length }

/-- SUBTRACTION_START (R165): the slot that entered SUBTRACT first, one at a time. -/
def execSubtractionStart (n : Fin 32) (s : State) : Host.Outcome State Fault Refusal :=
  s.run fun d =>
    let x := d.slotOf n
    if x.state = 2 ∧ !d.subtracting ∧ (span 0 32).all (fun m => (d.slotOf m).state != 2 || decide (x.sub ≤ (d.slotOf m).sub)) then
      d.rebuild n x
    else d

/-- SUBTRACTION_END (R165). -/
def execSubtractionEnd (n : Fin 32) (s : State) : Host.Outcome State Fault Refusal :=
  s.run fun d =>
    let x := d.slotOf n
    if x.state = 2 ∧ x.begun then
      let bad := d.knownBlanked x
      (x.pages.take x.wrote).foldl (fun e p => e.pageSubtract d x bad (x.pages.take x.wrote) p) (d.setSlot n { x with state := 3 })
    else d

/-- REENTRY_ACCEPT (R166, R167). -/
def execReentryAccept (n : Fin 32) (s : State) : Host.Outcome State Fault Refusal := s.run fun d => d.reenter n

/-- REWAIT_EXPIRY (R164): an acceptance of the same cycle wins (R17). -/
def execRewaitExpiry (n : Fin 32) (s : State) : Host.Outcome State Fault Refusal :=
  s.run fun d =>
    if (d.slotOf n).state = 3 ∧ ¬ (s.arrives (· == .reentryAccept n) ∧ ((d.reenter n).slotOf n).state = 4) then d.slotClose n uoNOFURROW else d

/-- A slot closes ABORTED, its re-run furrow with it (R169). -/
def Dev.slotAbort (d : Dev) (n : Nat) : Dev :=
  let x := d.slotOf n
  if x.state = 0 then d
  else
    let d := d.slotClose n uoABORTED
    match x.furR with
    | some f => if x.state = 4 ∧ (d.rcvOf f).reent = some n then d.furrowAbort f else d
    | none => d

/-- SLOT_ABORT (R169). -/
def execSlotAbort (c : Fin 7) (v : Word) (s : State) : Host.Outcome State Fault Refusal :=
  s.ask (.slotAbort c v) UNW_ABORT fun d => d.byCore c UNW_ABORT true fun d => (span 0 32).foldl (fun d n => if v.getLsbD n then d.slotAbort n else d) d

/-- UNWIND_ON (R161, R172). -/
def execUnwindOn (c : Fin 7) (s : State) : Host.Outcome State Fault Refusal :=
  s.ask (.unwindOn c) UNW_CTL fun d => d.byCore c UNW_CTL true fun d =>
    if d.flag UNW_CTL UNW_CTL_ON then d
    else
      let r := d.requestResv resvUnw 140 3
      if r.1 then r.2.put UNW_CTL UNW_CTL_ON 1 else r.2.put UNW_STAT UNW_STAT_ERR 1

/-- UNWIND_OFF (R169). The re-run furrow of a slot in REPLAY is aborted as under UNW_ABORT, which the manual does not say of this end (DESIGN CHOICE, log
entry 113). -/
def Dev.unwindOff (d : Dev) : Dev := ((span 0 32).foldl (fun d n => d.slotAbort n) (d.put UNW_CTL UNW_CTL_ON 0)).setResv resvUnw 0

def execUnwindOff (c : Fin 7) (s : State) : Host.Outcome State Fault Refusal :=
  s.ask (.unwindOff c) UNW_CTL fun d => d.byCore c UNW_CTL true fun d => if d.flag UNW_CTL UNW_CTL_ON then d.unwindOff else d

/-! ### Registers as a read shows them (Tables 7.11, 7.13, 8.10) -/

/-- The fields of a unit show only once it is confirmed. -/
def Rcv.shown (r : Rcv) : Bool := decide (rsCOMMITTED ≤ r.state ∧ r.state ≤ rsDONE)

/-- FUR register at offset `o` of furrow `f`. -/
def Dev.furView (d : Dev) (f o : Nat) : Word :=
  let r := d.rcvOf f
  let w := fun (x : Word) => if r.shown then x else 0
  let z := fun (x : Word) => if r.state = rsDONE then x else 0
  match o with
  | 0x00 => mkWord [(FUR_STAT_STATUS, if r.state = rsDONE then r.status else 0), (FUR_STAT_STATE, r.state)]
  | 0x08 => w (mkWord [(FUR_SRC_CHAIN, r.chain), (FUR_SRC_BW, r.b), (FUR_SRC_EXP, r.e - 5), (FUR_SRC_CHANNEL, r.ch), (FUR_SRC_REENTRY, r.reent.isSome.toNat), (FUR_SRC_BIN, r.bin)])
  | 0x0C => w (BitVec.ofNat 32 r.hdr)
  | 0x10 => w (mkWord [(⟨31, 16⟩, r.rssi), (⟨15, 0⟩, r.snr)])
  | 0x14 => w (mkWord [(⟨31, 24⟩, r.drift), (⟨23, 0⟩, r.foff)])
  | 0x18 => w (BitVec.ofNat 32 r.tsync)
  | 0x1C => w (BitVec.ofNat 32 (r.tsync / 2 ^ 32))
  | 0x20 => w (BitVec.ofNat 32 r.rpt)
  | 0x24 => w (mkWord [(⟨31, 16⟩, r.fade), (⟨15, 0⟩, r.blank)])
  | 0x28 => z (mkWord [(⟨31, 16⟩, r.iter), (⟨15, 8⟩, r.handed), (⟨7, 0⟩, r.bad)])
  | _ => 0

/-- MCX register at offset `o`, 0x004 to 0x01C, of demodulator `m`. -/
def Dev.mcxView (d : Dev) (m o : Nat) : Word :=
  let r := d.rcvOf (1024 + m)
  let w := fun (x : Word) => if r.shown then x else 0
  let st := if r.state = 0 ∧ !d.flag (MCX_CTL m) MCX_CTL_EN then 0 else r.state + 1
  match o with
  | 0x04 => mkWord [(MCX_STAT_STATUS, if r.state = rsDONE then r.status else 0), (MCX_STAT_STATE, st)]
  | 0x08 => w (mkWord [(⟨31, 16⟩, r.rssi), (⟨15, 0⟩, r.snr)])
  | 0x0C => w (mkWord [(⟨31, 24⟩, r.drift), (⟨23, 0⟩, r.foff)])
  | 0x10 => w (BitVec.ofNat 32 r.tsync)
  | 0x14 => w (BitVec.ofNat 32 (r.tsync / 2 ^ 32))
  | 0x18 => w (BitVec.ofNat 32 r.rpt)
  | 0x1C => w (mkWord [(⟨31, 16⟩, r.low), (⟨15, 0⟩, r.blank)])
  | _ => 0

/-- UNW_SLOT[n], UNW_SLOTF[n], UNW_BUSY and FREEPAGES. -/
def Dev.slotView (d : Dev) (n : Nat) : Word :=
  let s := d.slotOf n
  mkWord [(UNW_SLOT_STATE, s.state), (UNW_SLOT_OUTCOME, s.outcome), (UNW_SLOT_REC, (d.recording n).toNat), (UNW_SLOT_CHAIN, s.chain), (UNW_SLOT_CHANNEL, s.ch), (UNW_SLOT_PAGES, s.pages.length)]
def Dev.slotfView (d : Dev) (n : Nat) : Word :=
  let s := d.slotOf n
  mkWord [(UNW_SLOTF_LIVEB, s.furB.isSome.toNat), (UNW_SLOTF_FURA, s.furA), (UNW_SLOTF_FURB, s.furB.getD 0), (UNW_SLOTF_FURR, if s.state = 4 then s.furR.getD 0 else 0)]
def Dev.unwBusy (d : Dev) : Word :=
  BitVec.ofNat 32 (((span 0 32).map (fun n => if (d.slotOf n).state = 0 then 0 else 2 ^ n)).foldl (· + ·) 0)
def Dev.unwStat (d : Dev) : Word := setF (d.reg UNW_STAT) UNW_STAT_FREEPAGES (4096 - d.pagesUsed)

/-- A word of the soft store, or of an MC demodulator's fixed area, is open to reads (R128, R158). -/
def Dev.softOpen (d : Dev) (a : Nat) : Bool :=
  if 0x21400000 ≤ a ∧ a < 0x21C00000 then
    let f := (a - 0x21400000) / 0x80000 * 64 + (a - 0x21400000) % 0x80000 / 0x2000
    (d.rcvOf f).shown
  else if 0x22C00000 ≤ a ∧ a < 0x22D00000 then (d.rcvOf (1024 + (a - 0x22C00000) / 0x80000)).shown
  else true

end Sys2Proof.Machine
end

