-- ==== Sys2Proof/Machine/Reset.lean ====
section
/-! DEFINITION. Resets (chapter 2), die isolation (R8, R25), and what a field loses when its power goes (R5, R372). -/

namespace Sys2Proof.Machine

/-- The program of a transfer is cut: the transfer has failed (R413). -/
def Dev.xferCut (d : Dev) : Dev :=
  match d.svc.xfer with
  | none => d
  | some x =>
    if !x.began then d
    else
      let d := match x.bufs with
        | [] => d
        | b :: _ => d.wordsCut (imgBase x.slot + b.1) b.2
      { d with svc := { d.svc with xfer := some { x with began := false, failed := true } } }.engEnd x.slot

/-- The programs of the calibration manager, of the contactless controller and of a transfer are cut with the flash die. -/
def Dev.enginesCut (d : Dev) : Dev := d.calCut.noteCut.xferCut

/-! ### What survives -/

/-- The home of the block that holds a register; keys above 2^32 are per-core copies of the register below them. -/
def homeOf (a : Nat) : Nat :=
  match blockAt (a % 2 ^ 32) with
  | some b => b.home
  | none => 8

/-- Registers outside the AON field whose content lies in the AON field (R198, R341) and so survives. -/
def aonHeld (a : Nat) : Bool := a == FLD_TRIM || a == HDL_GATED

/-- Registers of the AON field that a system reset sets back (R58, R300, R368, Table 2.10, Table 2.13). -/
def aonReset (a : Nat) : Bool :=
  a == CLK_FAILCFG || a == SYS_CORESTAT || a == PWR_STAT || a == PWR_CEIL || (span 0 7).any (fun c => a == PWR_PLEVEL c)

/-- A register kept across a system reset (Table 2.6, R58). -/
def keptAtReset (a : Nat) : Bool := aonHeld a || (homeOf a == 0 && !aonReset a)

/-- Flash content, in the stored form. -/
def isFlash (a : Nat) : Bool := decide (flashFull ≤ a ∧ a < 0x0A000000)

/-- The registers that `p` picks go back to their reset values. -/
def Dev.dropRegs (d : Dev) (p : Nat → Bool) : Dev := { d with regs := d.regs.filter (fun e => !p e.1) }

/-- The content of a range of RAM is lost. -/
def Dev.dropMem (d : Dev) (lo hi : Nat) : Dev :=
  { d with mem := d.mem.filter (fun e => !(decide (lo ≤ e.1 ∧ e.1 < hi))), memErr := d.memErr.filter (fun e => !(decide (lo ≤ 4 * e.1 ∧ 4 * e.1 < hi))) }

/-! ### The RF die (R8, R25) -/

/-- A receive chain and its synthesiser power down with no word to its packets (R54). -/
def Dev.rxDark (d : Dev) (c : Nat) : Dev :=
  let d := ((d.put (RFC_RXCTL c) RFC_RXCTL_ON 0).put (RFC_RXSTAT c) RFC_RXSTAT_READY 0).put (RFC_RXSTAT c) RFC_RXSTAT_BLANKED 0
  let d := (d.calDrop c).setRx c RxSt.init
  { d with detRun := d.detRun.filter (fun p => p.1 / 65536 != c) }

/-- Both transmissions stop without a ramp and both measurements are abandoned (R25, R38, R54). -/
def Dev.txAllStop (d : Dev) : Dev := (span 0 2).foldl (fun d t => (d.endStopped t).calAbandon t) d

/-- The RF die's lines go to their In reset state, its transmissions stop and its chains' packets and slots end (R25, R137, R169). -/
def Dev.rfLost (d : Dev) : Dev :=
  let d := { d with pwr := { d.pwr with femDriven := false } }
  (span 0 4).foldl (fun d c => if d.flag (RFC_RXCTL c) RFC_RXCTL_ON then d.rxStop c dcCHAIN stCHAINOFF else d) d.txAllStop

/-- A link is declared lost and the die behind it isolated (R8): 1 the RF die, 2 the flash die. -/
def Dev.isolate (d : Dev) (die : Nat) : Dev :=
  let d := d.report 35 die 1 8 []
  if die = 1 then
    let d := d.rfLost
    Dev.rfChannels { d with pwr := { d.pwr with rfIso := true } }
  else
    let d := d.flashDieDown.enginesCut
    { d with pwr := { d.pwr with flIso := true } }

def Dev.isoOf (d : Dev) (die : Nat) : Bool := if die = 1 then d.pwr.rfIso else d.pwr.flIso

def Dev.failsOf (d : Dev) (die : Nat) : Nat := if die = 1 then d.pwr.rfFail else d.pwr.flFail

def Dev.setFails (d : Dev) (die n : Nat) : Dev :=
  if die = 1 then { d with pwr := { d.pwr with rfFail := n } } else { d with pwr := { d.pwr with flFail := n } }

/-- INTER_DIE_TRANSFER (R8): one attempt; one that passes its CRC ends the run of failures, and the eighth failure of a run loses the link. -/
def execInterDieTransfer (die : Fin 2) (ok : Bool) (s : State) : Host.Outcome State Fault Refusal :=
  s.run fun d =>
    let n := d.failsOf (die + 1) + 1
    if d.isoOf (die + 1) then d
    else if ok then d.setFails (die + 1) 0
    else if n < 8 then d.setFails (die + 1) n
    else (d.setFails (die + 1) 8).isolate (die + 1)

/-- LINK_LOST (R8): the failed attempts that are left of a run of 8 come at once, as R8 has them follow each other, and the link is declared
lost; the die behind it may be isolated already by the eighth INTER_DIE_TRANSFER. -/
def execLinkLost (die : Fin 2) (s : State) : Host.Outcome State Fault Refusal :=
  s.run fun d => if d.isoOf (die + 1) then d else (d.setFails (die + 1) 8).isolate (die + 1)

/-- A reset of the RF die alone (R9, R25, R47): it lifts an isolation; every register of the die returns to its reset value. -/
def Dev.rfDie (d : Dev) : Dev :=
  let d := (d.put SYS_RSTREC SYS_RSTREC_RFD 1).rfLost
  let d := d.dropRegs (fun a => homeOf a == 7)
  Dev.rfChannels { d with pwr := { d.pwr with rfIso := false, rfFail := 0, rfReset := true, rfStale := true }, calQ := [], calMeas := [], antSel := false }

/-- A reset of the flash die alone (R9, R313). -/
def Dev.flDie (d : Dev) : Dev :=
  let d := ((d.put SYS_RSTREC SYS_RSTREC_FLD 1).flashDieOff).enginesCut
  { d with pwr := { d.pwr with flIso := false, flFail := 0 } }

/-- RF_DIE_RESET_END (R25). -/
def execRfDieResetEnd (s : State) : Host.Outcome State Fault Refusal :=
  s.awake fun d => { d with pwr := { d.pwr with rfReset := false } }

/-- The RADIO section of the plan in force applied again to the RF die (R25, R87, R372): the profile of each chain that has one loaded; under a plan without the
section nothing applies. -/
def Dev.radioAgain (d : Dev) : Dev :=
  (span 0 2).foldl (fun d t => if (d.gateOf t).prof = [] || (d.sec tRADIO 0).isNone then d else d.loadProfile t (d.gateOf t).prof) d

/-- RF_DIE_RESOW (R25, R92): GRID, RADIO and COEX apply again and the lines are driven. -/
def execRfDieResow (s : State) : Host.Outcome State Fault Refusal :=
  s.awake fun d =>
    if !d.pwr.rfStale ∨ d.pwr.pins ≠ .sown ∨ d.pwr.rfIso ∨ d.pwr.rfReset ∨ d.clk.stopped then d
    else
      let d := d.radioAgain
      { d with pwr := { d.pwr with femDriven := true, rfStale := false } }

/-- A core runs in the sense of R43: it is not held in reset. -/
def Dev.coreLive (d : Dev) (c : Nat) : Bool := decide (d.coreState c ≠ 0)

/-- The forced drop of R43 and R367: every running core that is not at P3 goes there, BUSY until VDD_CORE has come down. -/
def Dev.forceP3 (d : Dev) : Dev :=
  let l := (span 0 7).filter (fun c => d.coreLive c && (d.get (PWR_PLEVEL c) PWR_PLEVEL_LEVEL != 3 || d.get (PWR_PLEVEL c) PWR_PLEVEL_CUR != 3))
  let d : Dev := if l.isEmpty then d else { d with pwr := { d.pwr with lvlRun := none } }
  l.foldl (fun (d : Dev) c =>
    let a := PWR_PLEVEL c
    ((d.put a PWR_PLEVEL_LEVEL 3).put a PWR_PLEVEL_CUR 3).put a PWR_PLEVEL_BUSY 1) d

/-- The link field powers up: the mesh counter restarts from the RTC, never stepping back (R198), and CACHESTART is noted (R214). -/
def Dev.meshReload (d : Dev) : Dev :=
  let t := if atOrPast d.rtcT d.meshNow then d.rtcT else d.meshNow
  { d with clk := { d.clk with mesh := BitVec.ofNat 64 t, frac := 0, slew := 0, slewFrac := 0, meshHold := false }, fld := { d.fld with start := t } }

/-! ### System reset (R47) -/

/-- Bit of a source in SYS_RSTREC, by its code in FIRST (Table 2.7). -/
def rstBit : Nat → Fld
  | 0 => SYS_RSTREC_POR
  | 1 => SYS_RSTREC_BOR
  | 2 => SYS_RSTREC_TSHD
  | 3 => SYS_RSTREC_CLKF
  | 4 => SYS_RSTREC_PIN
  | 5 => SYS_RSTREC_SVC
  | _ => SYS_RSTREC_SWR

/-- The clocks after a system reset: the AON time base runs on, the mesh counter restarts from it (R198), the AON field is back on
the crystal (R57), and a failure episode is closed (R54). -/
def ClockSt.afterReset (k : ClockSt) (rtc : Nat) : ClockSt :=
  { k with mesh := BitVec.ofNat 64 (if atOrPast rtc k.mesh.toNat then rtc else k.mesh.toNat), frac := 0, slew := 0, slewFrac := 0, meshHold := false, lfPend := false, episode := false, rootUp := false, stopped := false, restoring := false }

/-- The power state after a system reset: pins in reset, every field powered until sowing, the base reservation alone. -/
def PowerSt.afterReset (p : PowerSt) : PowerSt :=
  { PowerSt.init with phase := .held, brownOut := p.brownOut, thermal := p.thermal, pinLow := p.pinLow, vioB := p.vioB, mon := p.mon, off := p.off, rstCyc := p.rstCyc }

/-- The device is in INSPECT: its engine runs from the harvested field, whatever becomes of the rails (R369, R402). -/
def Dev.inspecting (d : Dev) : Bool := decide (d.get PWR_STAT PWR_STAT_STATE = 5)

/-- A reset cuts what the dies have under way; not the NOTE of an inspection engine. -/
def Dev.dieCut (d : Dev) : Dev :=
  let d : Dev := if d.inspecting then { d with nfc := { d.nfc with note := none } } else d
  d.cutAll.enginesCut

/-- The device `e` after a reset or a power-on, `d` before it: INSPECT goes on, since only the end of the field or of the brown-out ends it (R369). -/
def Dev.inspectKeeps (d e : Dev) : Dev :=
  if d.inspecting then
    let e : Dev := { e with nfc := d.nfc, pwr := { e.pwr with pins := .unpowered } }
    (e.put PWR_STAT PWR_STAT_STATE 5).when d.nfc.note.isSome (fun e => e.engBegin 2)
  else e

/-- All dies reset, the AON field kept (Table 2.6): what lies in the AON field, in flash or in fuses stays, and RAM keeps its content
(log entry 30). -/
def Dev.resetDies (d : Dev) : Dev :=
  let rtc := d.rtcT
  let before := d
  let d := d.txAllStop.dieCut
  let n : Dev :=
    { Dev.reset with
      regs := d.regs.filter (fun e => keptAtReset e.1)
      mem := d.mem
      memErr := d.memErr
      asyncL := d.asyncL
      aont := d.aont
      clk := d.clk.afterReset rtc
      pwr := d.pwr.afterReset
      rdata := d.rdata
      gates := d.gates
      fuse := d.fuse
      fuseRead := d.fuseRead
      fuseBad := d.fuseBad
      blown := d.blown
      flWeak := d.flWeak
      wins := d.wins
      flErr := d.flErr
      flFlag := d.flFlag
      flRow := d.flRow
      lgr := { LgrSt.init with opened := d.lgr.opened }
      erlNext := d.erlNext
      freeCtr := d.freeCtr }
  before.inspectKeeps (((n.put CLK_STAT CLK_STAT_LOCK 0).put CLK_STAT CLK_STAT_FALLBACK 0).put CLK_STAT CLK_STAT_LFSUB 0)

/-- FIRST after a source of code `code` (R47): a reset that begins takes it, and of several sources of the cycle in which it began the one of
the highest priority, which is the lowest code; a source that comes while a reset holds the dies leaves FIRST. -/
def Dev.noteFirst (d : Dev) (code : Nat) : Dev :=
  if d.pwr.rstCyc = some d.clk.cyc then d.put SYS_RSTREC SYS_RSTREC_FIRST (min (d.get SYS_RSTREC SYS_RSTREC_FIRST) code)
  else if d.pwr.phase = .held then d
  else Dev.put { d with pwr := { d.pwr with rstCyc := some d.clk.cyc } } SYS_RSTREC SYS_RSTREC_FIRST code

/-- A system reset from a source (R47): its bit is set, FIRST follows, and all dies reset. -/
def Dev.systemReset (d : Dev) (code : Nat) : Dev := ((d.noteFirst code).resetDies).put SYS_RSTREC (rstBit code) 1

/-- Start-up begins once nothing holds the dies (R38, R47, Table 2.13). -/
def Dev.startUp (d : Dev) : Dev :=
  if d.pwr.phase = .held ∧ !d.pwr.brownOut ∧ !d.pwr.thermal ∧ !d.pwr.off then { d with pwr := { d.pwr with phase := .rails } } else d

/-- A reset source that holds nothing: the reset, and start-up at once. -/
def Dev.resetPulse (d : Dev) (code : Nat) : Dev := (d.systemReset code).startUp

/-- The dies without AON power: only flash and fuses keep their content (R38). -/
def Dev.coldDies (d : Dev) : Dev :=
  let before := d
  let d := d.dieCut
  before.inspectKeeps { Dev.reset with
    mem := d.mem.filter (fun e => isFlash e.1)
    clk := { ClockSt.init with cyc := d.clk.cyc }
    pwr := { PowerSt.init with rstCyc := some d.clk.cyc }
    rdata := d.rdata
    fuse := d.fuse
    fuseRead := d.fuseRead
    fuseBad := d.fuseBad
    blown := d.blown
    flWeak := d.flWeak
    wins := d.wins.map (fun (p : Nat × Win) => (p.1, { p.2 with ecount := 0 }))
    flErr := d.flErr
    flFlag := d.flFlag
    flRow := d.flRow
    lgr := { LgrSt.init with opened := d.lgr.opened }
    freeCtr := d.freeCtr }

/-- The gates' histories start empty, their buckets counted from now (R89, R91). -/
def Dev.gatesCold (d : Dev) : Dev := (d.setGate 0 { GateSt.init with born := d.nowU }).setGate 1 { GateSt.init with born := d.nowU }

/-- ALWAYS_ON_RAIL_COLLAPSE (R38): below 1.80 V the AON field loses everything and every pin is Unpowered. -/
def execAlwaysOnRailCollapse (s : State) : Host.Outcome State Fault Refusal :=
  s.on fun d =>
    let d := d.coldDies.gatesCold
    { d with pwr := { d.pwr with pins := .unpowered, fields := 0 } }

/-- POWER_ON_RESET (R47): everything, the reset record included; the dies stay in reset until VIN has risen (Table 2.13). -/
def execPowerOnReset (s : State) : Host.Outcome State Fault Refusal := s.on fun d => d.coldDies.gatesCold

/-- BROWN_OUT (R38). The pins stand In reset, as R38 says, although R21 has Unpowered mean VIN below the brown-out threshold: the model takes
Unpowered where the always-on rail has collapsed and in INSPECT (DESIGN CHOICE, log entry 125). In OFF, where nothing but the wake logic has power, and
in INSPECT the threshold is noted and no more. -/
def execBrownOut (s : State) : Host.Outcome State Fault Refusal :=
  s.on fun d =>
    let d := if d.pwr.off || d.inspecting then d else d.systemReset 1
    { d with pwr := { d.pwr with brownOut := true } }

/-- VIN has passed the rising brown-out threshold (R38, R369): INSPECT ends, the pins are powered, and start-up runs, out of OFF too where INSPECT has
been entered from there. -/
def Dev.vinBack (d : Dev) : Dev :=
  let insp := d.inspecting
  let d := if insp then d.noteCut.put PWR_STAT PWR_STAT_STATE 0 else d
  let pins := if d.pwr.pins = .unpowered then PinCond.inReset else d.pwr.pins
  Dev.startUp { d with pwr := { d.pwr with
    brownOut := false
    pins := pins
    off := d.pwr.off && !insp
    fields := if insp && d.pwr.off then PowerSt.init.fields else d.pwr.fields } }

/-- BROWN_OUT_RELEASE (R38, R36, R369). -/
def execBrownOutRelease (s : State) : Host.Outcome State Fault Refusal := s.on Dev.vinBack

/-- THERMAL_SHUTDOWN (R47). -/
def execThermalShutdown (s : State) : Host.Outcome State Fault Refusal :=
  s.awake fun d =>
    let d := d.systemReset 2
    { d with pwr := { d.pwr with thermal := true } }

/-- THERMAL_RELEASE (R47). -/
def execThermalRelease (s : State) : Host.Outcome State Fault Refusal :=
  s.awake fun d => Dev.startUp { d with pwr := { d.pwr with thermal := false } }

/-- Start-up out of OFF (R373, R374): exactly as after a power-on reset, every field powered until sowing. -/
def Dev.leaveOff (d : Dev) : Dev := Dev.startUp { d with pwr := { d.pwr with off := false, fields := PowerSt.init.fields } }

/-- RESET_PIN (R47, R49, R373): a system reset, which restarts a start-up under way; in OFF it starts the device as after a power-on reset,
and its bit joins POR. Dies that another source holds stay held. -/
def execResetPin (s : State) : Host.Outcome State Fault Refusal :=
  s.on fun d =>
    let d := { d with pwr := { d.pwr with pinLow := true } }
    if d.pwr.off then (d.put SYS_RSTREC SYS_RSTREC_PIN 1).leaveOff else d.resetPulse 4

/-- A write to SYS_RSTCTL (Table 2.8): without the key nothing; SYSRST takes precedence. -/
def Dev.rstctlWrite (d : Dev) (v : Word) : Dev :=
  if getF v SYS_RSTCTL_KEY ≠ 0x5A then d
  else if getF v SYS_RSTCTL_SYSRST = 1 then d.resetPulse 6
  else
    let d := d.when (decide (getF v SYS_RSTCTL_RFDIE = 1)) (fun d => d.rfDie)
    d.when (decide (getF v SYS_RSTCTL_FLDIE = 1)) (fun d => d.flDie)

/-- SYSRST (R47). -/
def execSysrst (c : Fin 7) (s : State) : Host.Outcome State Fault Refusal :=
  s.run fun d => d.byCore c SYS_RSTCTL true fun d => d.rstctlWrite 0x5A000001

/-- RFDIE (R47). -/
def execRfdie (c : Fin 7) (s : State) : Host.Outcome State Fault Refusal :=
  s.run fun d => d.byCore c SYS_RSTCTL true fun d => d.rstctlWrite 0x5A000002

/-- FLDIE (R47). -/
def execFldie (c : Fin 7) (s : State) : Host.Outcome State Fault Refusal :=
  s.run fun d => d.byCore c SYS_RSTCTL true fun d => d.rstctlWrite 0x5A000004

/-- ROOT_PLL_LOCK (Table 2.13, R49): the PLL locks to the TCXO, and each inter-die link trains or its die is isolated. -/
def execRootPllLock (rf fl : Bool) (s : State) : Host.Outcome State Fault Refusal :=
  s.on fun d =>
    if d.pwr.phase ≠ .rails then d
    else
      let d := { d with pwr := { d.pwr with phase := .locked }, clk := { d.clk with rootUp := true } }
      let d := d.put CLK_STAT CLK_STAT_LOCK 1
      (d.when (!rf) (fun d => d.isolate 1)).when (!fl) (fun d => d.isolate 2)

/-- RESET_RELEASE (R19, R22, R49, R449): the device does not leave reset while TMODE is high. Fuse words are read, SVC_ATN is sampled, pins are
Not sown, C0 and K0 run at P1 with their reservations, at P3 while OVER lasts (R43); mesh time goes on from the RTC and CACHESTART is noted
(R198, R214). -/
def execResetRelease (reads : List (Word × Word)) (pins : Bool × Bool) (s : State) : Host.Outcome State Fault Refusal :=
  s.on fun d =>
    if d.pwr.phase ≠ .locked ∨ pins.2 then d
    else
      let d := (d.readFuses reads).meshReload
      let d := { d with pwr := { d.pwr with phase := .running, pins := .notSown, pinLow := false }, svc := { d.svc with atn := pins.1 } }
      let d := ((d.setResv (resvCore 0) 27).setResv (resvCore 6) 27).putB SVC_STAT SVC_STAT_ATN pins.1
      d.when (d.flag PWR_MON PWR_MON_OVER) Dev.forceP3

/-! ### A field loses its power (R5, R372) -/

/-- Cores of a field (Table 14.1). -/
def coresOf : Nat → List (Fin 7)
  | 1 => [0, 1, 2, 3]
  | 4 => [4, 5]
  | 5 => [6]
  | _ => []

/-- A timer that counts on in the AON field keeps its registers (R353). -/
def Dev.lfKept (d : Dev) (a : Nat) : Bool :=
  decide (0x40060000 ≤ a ∧ a < 0x40060600) && d.flag (TMR_CTL ((a - 0x40060000) / 64)) TMR_CTL_LFCONT

/-- Registers a field keeps without power: those held in the AON field, the sowing engine's record of the plan in force, and what
shows counters and images that lie in flash (log entry 31); the lock of LGR_ORIGIN, which holds until a system reset (R14), and LNK_TXFCNT
(R231); the error log's account of lost reports and marginal fuse words (R447, R449; log entry 152); the pending receive corrections (R377). -/
def Dev.keptOff (d : Dev) (a : Nat) : Bool :=
  aonHeld a || d.lfKept a || decide (0x40030000 ≤ a ∧ a < 0x40040000) || decide (0x40080000 ≤ a ∧ a < 0x40090000) ||
    decide (0x400A0028 ≤ a ∧ a < 0x400A0048) || (span 0 4).any (fun c => a == CAL_CHSTAT c) || a == KEY_FCNTCEIL || a == LNK_TXFCNT || (a == LGR_ORIGIN && d.flag LGR_ORIGIN LGR_ORIGIN_LOCK) || (span 0 64).any (fun i => a == KEY_CTR i) || a == SVC_IMG || a == SVC_VER

/-- A core whose field is unpowered: in reset, its registers lost. -/
def Dev.coreOff (d : Dev) (c : Fin 7) : Dev := ((d.setCore c CoreSt.init).setCoreState c 0).cacheLost c

/-- The field of the producers of Table 24.2: blocks as Table 19.1 numbers them; the clock monitors, the power manager and the links lie in the AON
field, the fuse block in the keep field, memory's check bits with general SRAM. -/
def blockHome (b : Nat) : Nat :=
  [2, 2, 2, 2, 2, 3, 4, 4, 5, 5, 5, 5, 1, 6, 6, 6, 6, 6, 6, 6, 6, 6, 6, 3, 1, 1, 1, 1, 1, 1, 4, 4, 5, 0, 0, 0, 1, 5].getD b 0

/-- What a field other than AON loses beside its registers (R214, R222, R254, R447). -/
def Dev.fieldLost (d : Dev) : Nat → Dev
  | 1 =>
    let d := d.erlPowerDown
    let d := { d with erlFifo := [], locks := [], carve := [], chRaw := [], chPuls := [], cellCnt := [], lutSwap := [], holdDue := [], hdlPend := [], hdlLast := [], hdlDone := [], chRose := [], gateOn := [], grpOn := 0, grpOff := 0, irqNew := [], irqPulse := [], lpOrder := [0, 1, 2, 3, 4, 5, 6], calSeen := false }
    let d := (span 0 2).foldl (fun d t => d.calAbandon t) d
    let d := { d with tmr := d.tmr.filter (fun p => d.flag (TMR_CTL p.1) TMR_CTL_LFCONT), cal := { d.cal with drvT := none, store := none } }
    d.dropMem 0x20000000 0x21400000
  | 2 =>
    let d := (span 0 4).foldl (fun d c => d.rxDark c) d
    let d := { d with detRun := [], rcv := [], decQ := [], decBusy := [], decFreed := [], decLast := [], slots := [], ring := [], lateU := [] }
    let d := { d with pwr := { d.pwr with resv := d.pwr.resv.filter (fun p => !(decide (1 ≤ p.1 ∧ p.1 < 48))) } }
    (d.dropMem 0x21400000 0x23000000).setResv 1 0
  | 3 => d.txAllStop
  | 4 =>
    { d with cht := [], descs := [], comps := [], vq := [], qpool := [], queues := [], deferred := [], bound := [], awaits := [], ccaHeld := [], winSeen := [], winWait := [], relayHeld := [], frames := [], lostEvt := false, linkSeq := 0, cache := [], fld := { d.fld with events := [], lastAt := none } }
  | 5 => { d with kslots := [], keyPend := none, aesJobs := [], shaCtx := [], lgr := { LgrSt.init with opened := d.lgr.opened }, dir := [] }
  | 6 =>
    { d with nfc := NfcSt.init, i2c := [], spi := SpiSt.init, uart := [], host := HostSt.init, svc := { d.svc with nonce := none, oz := none, cmd := none, xfer := none }, pwr := { d.pwr with padHeld := d.padLevels } }
  | _ => d

/-- A field powers down (R5, R372): its registers, its cores and its memory lose their content. -/
def Dev.fieldOff (d : Dev) (f : Nat) : Dev :=
  let d := (coresOf f).foldl (fun (d : Dev) c => d.coreOff c) (d.fieldLost f)
  let d := { d with waiting := d.waiting.filter (fun r => blockHome r.blk != f) }
  let d := d.dropRegs (fun a => homeOf a == f && !d.keptOff (a % 2 ^ 32))
  { d with pwr := { d.pwr with fields := d.pwr.fields - (if d.pwr.fields.testBit f then 2 ^ f else 0), gated := d.pwr.gated.filter (fun p => domainField p.1 != f) } }

/-- A field powers up: mesh time goes on with the link field (R198, R214), what the fuses hold shows again with the keep field (R218), and
general outputs take back what their balls hold with the I/O field (R24). -/
def Dev.fieldUp (d : Dev) (f : Nat) : Dev :=
  let d := { d with pwr := { d.pwr with fields := d.pwr.fields ||| 2 ^ f } }
  if f = 4 then d.meshReload
  else if f = 5 then d.fuseShow
  else if f = 6 then d.padBack
  else d

end Sys2Proof.Machine
end

