-- ==== Sys2Proof/Machine/Supply.lean ====
section
/-! DEFINITION. Field lines (chapter 1), supply, power ceiling and input monitor (chapter 2), clocks and domains (chapter 3). -/

namespace Sys2Proof.Machine

/-! ### Field lines (R28 to R31) -/

/-- Bit `n` of a field set to `b`. -/
def Dev.putAt (d : Dev) (a : Nat) (f : Fld) (n : Nat) (b : Bool) : Dev := d.putB a ⟨f.lo + n, f.lo + n⟩ b

def Dev.bitAt (d : Dev) (a : Nat) (f : Fld) (n : Nat) : Bool := (d.get a f).testBit n

/-- CAUSEn of FLN_CAUSE (Table 1.11). -/
def flnCause (n : Nat) : Fld := ⟨4 * n + 3, 4 * n⟩

/-- The cause a declaration latches (R30): 1 SHORT_HIGH, 2 SHORT_LOW, 3 CONTENTION, 4 OVERRANGE. -/
def lineCause (mode : Nat) (v : LineV) : Nat :=
  if mode ≤ 3 then 4
  else match v with
    | .high => 1
    | .low => 2
    | .mid => 3

/-- The line can declare (Table 1.9): in some mode other than OFF, not held off, and in an input mode outside the rails. -/
def Dev.lineLive (d : Dev) (n : Nat) (v : LineV) : Bool :=
  d.lineComparator n && !d.bitAt FLN_STAT FLN_STAT_TRIP n && (decide (4 ≤ d.lineMode n) || decide (v ≠ .mid))

/-- FIELD_LINE_FAULT (R29, R30). -/
def execFieldLineFault (n : Fin 8) (v : LineV) (s : State) : Host.Outcome State Fault Refusal :=
  s.awake fun d =>
    if !d.lineLive n v then d
    else
      let d := if d.bitAt FLN_FLT FLN_FLT_FLT n then d else d.put FLN_CAUSE (flnCause n) (lineCause (d.get (FLN_CFG n) FLN_CFG_MODE) v)
      let d := (d.putAt FLN_STAT FLN_STAT_TRIP n true).putAt FLN_STAT FLN_STAT_LIM n false
      let d := (d.putAt FLN_FLT FLN_FLT_FLT n true).count (FLN_FLTCNT n)
      let d := { d with fltCyc := sset 0 d.fltCyc n (d.clk.cyc + 1) }
      d.report 22 n 1 (BitVec.ofNat 32 (d.get FLN_CAUSE (flnCause n))) []

/-- FIELD_LINE_RETRY (R31): the interval expires; only TRIP clears. -/
def execFieldLineRetry (n : Fin 8) (s : State) : Host.Outcome State Fault Refusal :=
  s.awake fun d => if d.get (FLN_CFG n) FLN_CFG_RETRY = 0 then d else d.putAt FLN_STAT FLN_STAT_TRIP n false

/-- A write to FLN_CFG[n] (R28): in OFF, or with MODE 6 or 7, the comparator is off. -/
def Dev.flnWrite (d : Dev) (n : Nat) (v : Word) : Dev :=
  let d := d.plainWrite (FLN_CFG n) v
  let m := d.get (FLN_CFG n) FLN_CFG_MODE
  let d := if m = 4 ∨ m = 5 then d else d.putAt FLN_STAT FLN_STAT_LIM n false
  if 1 ≤ m ∧ m ≤ 5 then d else d.putAt FLN_STAT FLN_STAT_LVL n false

/-- FLN_CFG_WRITE (R28). -/
def execFlnCfgWrite (c : Fin 7) (n : Fin 8) (v : Word) (s : State) : Host.Outcome State Fault Refusal :=
  s.ask (.flnCfgWrite c n v) (FLN_CFG n) fun d => d.byCore c (FLN_CFG n) true fun d => d.flnWrite n v

/-- A write to FLN_FLT (R31): each 1 clears FLT, TRIP and CAUSE of its line, unless a declaration of the same cycle wins. -/
def Dev.fltClear (d : Dev) (v : Word) : Dev :=
  (span 0 8).foldl (fun d n =>
    if testBit v n && sget 0 d.fltCyc n ≠ d.clk.cyc + 1 then ((d.putAt FLN_FLT FLN_FLT_FLT n false).putAt FLN_STAT FLN_STAT_TRIP n false).put FLN_CAUSE (flnCause n) 0
    else d) d

/-- FLT_CLEAR (R31). -/
def execFltClear (c : Fin 7) (v : Word) (s : State) : Host.Outcome State Fault Refusal :=
  s.ask (.fltClear c v) FLN_FLT fun d => d.byCore c FLN_FLT true fun d => d.fltClear v

/-! ### Supply (R37, R462) -/

/-- SUPPLY_LOW_WARNING (Table 2.2). -/
def execSupplyLowWarning (s : State) : Host.Outcome State Fault Refusal :=
  s.awake fun d => (d.put PWR_SUPPLY PWR_SUPPLY_SLOW 1).put PWR_SUPPLY PWR_SUPPLY_SLOWF 1

/-- SUPPLY_LOW_CLEAR (Table 2.2). -/
def execSupplyLowClear (s : State) : Host.Outcome State Fault Refusal := s.awake fun d => d.put PWR_SUPPLY PWR_SUPPLY_SLOW 0

/-- VIN_WINDOW_END (R462): VIN_MV takes the mean of the window. -/
def execVinWindowEnd (mv : BitVec 16) (s : State) : Host.Outcome State Fault Refusal :=
  s.awake fun d => d.put PWR_SUPPLY PWR_SUPPLY_VIN_MV mv.toNat

/-! ### Reservations and the backstop (R41, R43) -/

/-- The chain that a holder of a receive chain, detector or strip belongs to is off. -/
def Dev.chainOff (d : Dev) (c : Nat) : Bool := !d.flag (RFC_RXCTL c) RFC_RXCTL_ON && !(d.rxOf c).locking

/-- The holder's block is fully off (R41). -/
def Dev.blockOff (d : Dev) (h : Nat) : Bool :=
  if h = 0 then false
  else if h < 5 then d.chainOff (h - 1)
  else if h < 9 then d.chainOff (h - 5)
  else if 16 ≤ h ∧ h < 32 then
    let c := d.stripChain (h - 16)
    if c < 4 then d.chainOff c else true
  else if h = resvPool then !d.poolOn && d.decBusy.all (fun (p : Nat × Option Job) => p.2.isNone)
  else if h = resvUnw then !d.flag UNW_CTL UNW_CTL_ON
  else if 48 ≤ h ∧ h < 55 then decide (d.coreState (h - 48) = 0)
  else if h = 60 ∨ h = 61 then (d.txOf (h - 60)).isNone
  else false

/-- RESERVATION_RELEASE (R41). -/
def execReservationRelease (h : Fin 64) (s : State) : Host.Outcome State Fault Refusal :=
  s.run fun d => if d.blockOff h then d.setResv h 0 else d

/-- Sum of the monitor's samples, and how many there are. -/
def Dev.monSum (d : Dev) : Nat := d.pwr.mon.foldl (· + ·) 0

/-- The moving average exceeds the ceiling by more than `pct` per cent. -/
def Dev.monOver (d : Dev) (pct : Nat) : Bool :=
  decide (d.get PWR_CEIL PWR_CEIL_CEIL * (100 + pct) * d.pwr.mon.length < 100 * d.monSum)

/-- The backstop (R43). -/
def Dev.backstop (d : Dev) : Dev :=
  (d.put PWR_MON PWR_MON_OVER 1).forceP3.report 34 0 1 (BitVec.ofNat 32 (d.get PWR_MON PWR_MON_AVG_MW)) []

/-- POWER_MONITOR_SAMPLE (R43): the average is over the last 100 samples, or all there are (log entry 87), rounded down to whole milliwatts, where
the manual does not say how it rounds (DESIGN CHOICE, log entry 128). While OVER lasts every running core stays at P3. -/
def execPowerMonitorSample (mw : BitVec 16) (s : State) : Host.Outcome State Fault Refusal :=
  s.awake fun d =>
    let d := { d with pwr := { d.pwr with mon := (mw.toNat :: d.pwr.mon).take 100 } }
    let d := d.put PWR_MON PWR_MON_AVG_MW (d.monSum / d.pwr.mon.length)
    if d.flag PWR_MON PWR_MON_OVER then d.forceP3 else if d.monOver 5 then d.backstop else d

/-- A write to PWR_MON (R43): a 1 clears OVER only while the average is at or below the ceiling. -/
def Dev.overClear (d : Dev) (v : Word) : Dev :=
  if getF v PWR_MON_OVER = 1 ∧ !d.monOver 0 then d.put PWR_MON PWR_MON_OVER 0 else d

/-- OVER_CLEAR (R43). -/
def execOverClear (c : Fin 7) (s : State) : Host.Outcome State Fault Refusal :=
  s.run fun d => d.byCore c PWR_MON true fun d => d.overClear 0x80000000

/-! ### Domains (R51, R52) -/

/-- The core whose Halt domain this is. -/
def domainCore (i : Nat) : Option Nat :=
  if 8 ≤ i ∧ i < 12 then some (i - 8) else if i = 80 ∨ i = 81 then some (i - 76) else if i = 92 then some 6 else none

/-- A domain of Table 3.2 has work in flight, or a request to run stands (R52). -/
def Dev.domainBusy (d : Dev) (i : Nat) : Bool :=
  let unit (u : Nat) : Bool := decide ((sget Rcv.init d.rcv u).state ≠ 0)
  if 20 ≤ i ∧ i < 24 then (span (6 * (i - 20)) 6).any (fun t => d.flag (TMR_CTL t) TMR_CTL_RUN || d.get (TMR_CTL t) TMR_CTL_CAPEDGE != 0)
  else if i = 25 then d.cal.store.isSome || !d.cal.due.isEmpty || !d.calQ.isEmpty || d.calMeas.any (fun (p : Nat × Option Nat) => p.2.isSome)
  else if i = 26 then !d.waiting.isEmpty
  else if i = 27 then d.sow.verifying.isSome || !d.sow.draining.isEmpty || !d.sow.reloading.isEmpty || !d.sow.resuming.isEmpty || d.sow.viobWait.isSome
  else if 28 ≤ i ∧ i < 44 then (span (64 * (i - 28)) 64).any unit
  else if 44 ≤ i ∧ i < 48 then d.flag (RFC_RXSTAT (i - 44)) RFC_RXSTAT_READY && d.flag (DET_CTL (i - 44)) DET_CTL_EN && decide (0 < d.resvOf (resvDet (i - 44)))
  else if 48 ≤ i ∧ i < 52 then d.flag (RFC_RXSTAT (i - 48)) RFC_RXSTAT_READY || d.sow.reloading.contains (i - 48)
  else if 52 ≤ i ∧ i < 62 then (sget none d.decBusy (i - 52)).isSome
  else if i = 62 then d.slots.any (fun (p : Nat × Slot) => p.2.state != 0)
  else if i = 63 then d.slots.any (fun (p : Nat × Slot) => p.2.state == 1)
  else if i = 64 ∨ i = 65 then unit (960 + i)
  else if 66 ≤ i ∧ i < 70 then d.flag (RFC_RXCTL (i - 66)) RFC_RXCTL_ON
  else if i = 72 ∨ i = 73 then (d.txOf (i - 72)).isSome
  else if i = 74 ∨ i = 75 then (d.txOf (i - 74)).isSome
  else if i = 76 ∨ i = 77 then (d.txOf (i - 76)).isSome
  else if i = 85 then d.cache.any (fun (p : Nat × CacheE) => relayPends p.2.state) || d.descs.any (fun x => x.owner == DescOwner.origination)
  else if i = 93 ∨ i = 94 then d.aesJobs.any (fun j => j.engine == some (i - 93))
  else if i = 95 then (span 0 4).any (fun n => d.flag (SHA_STAT n) SHA_STAT_BUSY)
  else if i = 101 then d.svc.xfer.isSome || d.svc.cmd.isSome || d.svc.oz.isSome
  else if i = 103 ∨ i = 104 then d.flag (I2C_STAT (i - 103)) I2C_STAT_BUSY
  else if i = 105 then d.flag SPI_STAT SPI_STAT_BUSY
  else if i = 106 ∨ i = 107 then d.flag (UART_STAT (i - 106)) UART_STAT_TXBUSY || d.get (UART_STAT (i - 106)) UART_STAT_TXN != 0
  else if i = 109 then d.flag NFC_STAT NFC_STAT_BUSY || d.flag NFC_STAT NFC_STAT_CARRIER
  else false

/-- DOMAIN_GATE (R52): an Idle domain whose bit is 1 and that has been idle. -/
def execDomainGate (i : Fin 112) (s : State) : Host.Outcome State Fault Refusal :=
  s.run fun d =>
    if idleDomain i && testBit (d.reg (CLK_GATEEN (i / 32))) (i % 32) && d.fieldOn (domainField i) && !d.domainBusy i then
      { d with pwr := { d.pwr with gated := sset false d.pwr.gated i true } }
    else d

/-- DOMAIN_WAKE (R52). -/
def execDomainWake (i : Fin 112) (s : State) : Host.Outcome State Fault Refusal := s.run fun d => d.domainRun i

/-- A write to CLK_GATEEN[k]: bits of domains that are not Idle stay 0; clearing a bit is a request-to-run (R52, Table 3.8). -/
def Dev.gateenWrite (d : Dev) (k : Nat) (v : Word) : Dev :=
  let d := d.setReg (CLK_GATEEN k) (v &&& BitVec.ofNat 32 (idleMask k))
  (span 0 32).foldl (fun d b => if testBit (d.reg (CLK_GATEEN k)) b then d else d.domainRun (32 * k + b)) d

/-- The clock of a domain runs now (Table 3.8). A debug freeze stops the general timers' clocks alone (R415). Of a core that is held in reset the
bit shows a stopped clock, which the manual leaves open (DESIGN CHOICE, log entry 129). -/
def Dev.domainOn (d : Dev) (i : Nat) : Bool :=
  if i < 8 then true
  else
    let core := match domainCore i with
      | some c => decide (d.coreState c ≠ 0 ∧ d.coreState c ≠ 2)
      | none => true
    d.fieldOn (domainField i) && !d.clk.stopped && !(d.frozen && decide (20 ≤ i ∧ i < 24)) && core && !(sget false d.pwr.gated i)

/-- CLK_RUN[k] as a read shows it. -/
def Dev.clkRun (d : Dev) (k : Nat) : Word :=
  (span 0 32).foldl (fun w b => if 32 * k + b < 112 ∧ d.domainOn (32 * k + b) then putBit w b true else w) 0

/-! ### Reference failure (R54 to R56) -/

/-- A reference failure is declared (R54), unless an episode is open or the PLL has not yet locked: transmissions stop, the front-end
lines go to reset, chains and synthesisers power down; then ACTION (R55). -/
def Dev.refFail (d : Dev) : Dev :=
  if d.clk.episode ∨ !d.clk.rootUp then d
  else
    let d := ((d.put CLK_STAT CLK_STAT_REFFAIL 1).count CLK_FAILCNT).txAllStop
    let d := (span 0 4).foldl (fun d c => d.rxDark c) d
    let d : Dev := { d with clk := { d.clk with episode := true, restoring := false }, pwr := { d.pwr with femDriven := false } }
    if d.get CLK_FAILCFG CLK_FAILCFG_ACTION = 0 then d.resetPulse 3
    else
      let d := { d with clk := { d.clk with stopped := true } }
      d.put CLK_STAT CLK_STAT_LOCK 0

/-- REFERENCE_FAILURE (R54, R55). -/
def execReferenceFailure (s : State) : Host.Outcome State Fault Refusal := s.awake fun d => d.refFail

/-- FALLBACK_RELOCK (R55): the root runs from the internal oscillator; the packets under way at the declaration and every slot end
(R137, R169), the failure is logged and the lines are driven again (R92). -/
def execFallbackRelock (s : State) : Host.Outcome State Fault Refusal :=
  s.awake fun d =>
    if !(d.clk.stopped && d.clk.episode && d.clk.rootUp && !d.clk.restoring) then d
    else
      let d := { d with clk := { d.clk with stopped := false } }
      let d := (d.put CLK_STAT CLK_STAT_FALLBACK 1).put CLK_STAT CLK_STAT_LOCK 1
      let d := d.report 33 0 1 (BitVec.ofNat 32 (d.get CLK_STAT CLK_STAT_REFCNT)) []
      let d := (d.slotsEndAll (fun _ => true) uoENDED).imposedAll (fun _ _ => true) dcCLOCK stCLOCKFAIL
      { d with pwr := { d.pwr with femDriven := decide (d.pwr.pins = .sown) && !d.pwr.rfIso && !d.pwr.rfReset && !d.pwr.rfStale } }

/-- REF_COUNT_WINDOW (R54, R56): REFCNT and REFOK; a count out of range declares a failure. -/
def execRefCountWindow (n : BitVec 16) (s : State) : Host.Outcome State Fault Refusal :=
  s.awake fun d =>
    let ok := decide (29700 ≤ n.toNat ∧ n.toNat ≤ 30300)
    let d := (d.put CLK_STAT CLK_STAT_REFCNT n.toNat).putB CLK_STAT CLK_STAT_REFOK ok
    if ok then d else d.refFail

/-- A write to CLK_FAILCFG (R56, R58): RESTORE acts while REFOK is 1. -/
def Dev.failcfgWrite (d : Dev) (v : Word) : Dev :=
  let d := d.plainWrite CLK_FAILCFG v
  if getF v CLK_FAILCFG_RESTORE = 1 ∧ d.flag CLK_STAT CLK_STAT_REFOK then
    let d := { d with clk := { d.clk with stopped := true, restoring := true } }
    d.put CLK_STAT CLK_STAT_LOCK 0
  else d

/-- RESTORE (R56). -/
def execRestore (c : Fin 7) (v : Word) (s : State) : Host.Outcome State Fault Refusal :=
  s.run fun d => d.byCore c CLK_FAILCFG true fun d => d.failcfgWrite (setF v CLK_FAILCFG_RESTORE 1)

/-- RESTORE_RELOCK (R54, R56): FALLBACK clears, the episode closes, and every VALID calibration entry is queued again (R377). -/
def execRestoreRelock (s : State) : Host.Outcome State Fault Refusal :=
  s.awake fun d =>
    if !d.clk.restoring then d
    else
      let d := { d with clk := { d.clk with stopped := false, restoring := false, episode := false } }
      let d := (d.put CLK_STAT CLK_STAT_FALLBACK 0).put CLK_STAT CLK_STAT_LOCK 1
      (d.calRequeue 0).calRequeue 1

/-! ### The low-frequency crystal (R57) -/

/-- LF_CRYSTAL_FAILURE (R57): while the root runs, or in FALLOW, LFFAIL, the oscillator-stopped flag and the log entry; the switch follows at an aligned edge. -/
def execLfCrystalFailure (s : State) : Host.Outcome State Fault Refusal :=
  s.awake fun d =>
    if d.flag CLK_STAT CLK_STAT_LFSUB ∨ d.clk.lfPend ∨ (d.get PWR_STAT PWR_STAT_STATE ≠ 3 ∧ (!d.clk.rootUp ∨ d.clk.stopped)) then d
    else
      let d := (d.put CLK_STAT CLK_STAT_LFFAIL 1).put RTC_STAT RTC_STAT_OSCSTOP 1
      let d := d.report 33 0 2 (BitVec.ofNat 32 (d.get CLK_STAT CLK_STAT_REFCNT)) []
      { d with clk := { d.clk with lfPend := true } }

/-- SUBSTITUTE_SWITCH (R50, R57): at an aligned edge of the substitute clock, which the root gives. -/
def execSubstituteSwitch (s : State) : Host.Outcome State Fault Refusal :=
  s.awake fun d =>
    if d.clk.lfPend && d.clk.rootUp && !d.clk.stopped then Dev.put { d with clk := { d.clk with lfPend := false } } CLK_STAT CLK_STAT_LFSUB 1 else d

end Sys2Proof.Machine
end

