-- ==== Sys2Proof/Machine/Sow.lean ====
section
/-! DEFINITION. Sowing (chapter 4): full plans at start-up, the recovery plan, staging and swapping of partial plans, drains, and the
hand-off from the boot ROM (R286). -/

namespace Sys2Proof.Machine

/-! ### States and failures (R71) -/

def swNONE : Nat := 0
def swVERIFYING : Nat := 1
def swSTAGED : Nat := 2
def swARMED : Nat := 3
def swDRAINING : Nat := 4
def swAPPLYING : Nat := 5
def swINFORCE : Nat := 6

def Dev.sowState (d : Dev) : Nat := d.get SOW_STAT SOW_STAT_STATE
def Dev.setSow (d : Dev) (v : Nat) : Dev := d.put SOW_STAT SOW_STAT_STATE v

/-- The state a sowing engine with nothing staged rests in. -/
def Dev.sowRest (d : Dev) : Nat := if d.sow.force = [] then swNONE else swINFORCE

/-- The words of a PLAN_ID, as the error log takes them. -/
def idWords (l : List Byte) : List Word := (span 0 4).map (fun i => BitVec.ofNat 32 (u32 l (4 * i)))

/-- A check or an application fails (R71): SOW_ERR, FAIL, SOW_FAILCNT and the log entry. -/
def Dev.sowFail (d : Dev) (f : PFail) (id : List Byte) : Dev :=
  let w := mkWord [(SOW_ERR_CODE, f.1), (SOW_ERR_SECT, f.2.1), (SOW_ERR_OFFSET, f.2.2)]
  let d := ((d.setReg SOW_ERR w).put SOW_STAT SOW_STAT_FAIL 1).count SOW_FAILCNT
  d.report 25 0 f.1 w (idWords id)

/-! ### Sections (R73, Table 4.20) -/

/-- The body of a section among those of a plan; empty where it is absent. -/
def bodyOf (l : List Section) (typ inst : Nat) : List Byte := (secOf l typ inst).getD []

/-- CLOCK: CLK_GATEEN, and CLK_FAILCFG unless it is locked (R58, Table 4.5). -/
def Dev.applyClock (d : Dev) (b : List Byte) : Dev :=
  let d := (span 0 4).foldl (fun (d : Dev) k => d.gateenWrite k (BitVec.ofNat 32 (u32 b (4 + 4 * k)))) d
  if d.flag CLK_FAILCFG CLK_FAILCFG_LOCK then d
  else (d.put CLK_FAILCFG CLK_FAILCFG_ACTION (u8 b 0)).put CLK_FAILCFG CLK_FAILCFG_LOCK (u8 b 1)

/-- POWER: the ceiling, and the fields that stay powered (Table 4.6, R368). -/
def Dev.applyPower (d : Dev) (b : List Byte) : Dev :=
  let d := d.put PWR_CEIL PWR_CEIL_CEIL (u16 b 0)
  [6, 3, 2, 1, 5, 4].foldl (fun d f => if (u8 b 2).testBit f then d else d.fieldOff f) d

/-- One source of an IRQ section (Table 4.14): its entry changes, a pending or active source stays so. -/
def Dev.applySrc (d : Dev) (n v : Nat) : Dev := d.put (IRQ_CFG n) ⟨10, 0⟩ v

/-- The source is one that the interrupt registers hold. -/
def irqSources : Nat := 1152

/-- The hold-off timer of group `g` runs for its interval from now on (R331). -/
def Dev.holdRun (d : Dev) (g : Nat) : Dev :=
  { d.put (IRQ_HOLD g) IRQ_HOLD_RUN 1 with holdDue := sset 0 d.holdDue g (d.nowU + 3072 * d.get (IRQ_HOLD g) IRQ_HOLD_INTERVAL) }

/-- The hold-off of group `g` is over. -/
def Dev.holdEnd (d : Dev) (g : Nat) : Dev := { d.put (IRQ_HOLD g) IRQ_HOLD_RUN 0 with holdDue := serase g d.holdDue }

/-- A new interval (R331): a running timer restarts with it; with none it is over (log entry 147). -/
def Dev.holdSet (d : Dev) (g v : Nat) : Dev :=
  let d := d.put (IRQ_HOLD g) IRQ_HOLD_INTERVAL v
  if !d.flag (IRQ_HOLD g) IRQ_HOLD_RUN then d else if v = 0 then d.holdEnd g else d.holdRun g

/-- IRQ: source entries and hold-off intervals (Table 4.14). -/
def Dev.applyIrq (d : Dev) (b : List Byte) : Dev :=
  let d := (span 0 irqSources).foldl (fun d n => d.applySrc n (u16 b (2 * n))) d
  (span 0 36).foldl (fun d g =>
    let v := u16 b (2304 + 2 * g)
    if v = d.get (IRQ_HOLD g) IRQ_HOLD_INTERVAL then d else d.holdSet g v) d

/-- PADS: a general output that was none before starts at INIT (Table 4.8, Table 4.20); GPIO_IN reads 0 for a ball that is no input any more (R441). -/
def Dev.applyPads (d : Dev) (old new : List Byte) : Dev :=
  (span 0 48).foldl (fun d g =>
    let d := if padFunc new g = 1 ∨ padFunc new g = 3 then d else d.put (GPIO_IN (g / 32)) ⟨g % 32, g % 32⟩ 0
    if padFunc new g = 2 ∧ padFunc old g ≠ 2 then
      d.put (GPIO_OUT (g / 32)) ⟨g % 32, g % 32⟩ ((padElec new g).testBit 5).toNat
    else d) d

/-- Profiles copied at a validation (R87): RADIO names one for each chain, whatever TXEN is. -/
def Dev.copyProfiles (d : Dev) (l : List Section) : Dev :=
  match secOf l tRADIO 0 with
  | none => { d with profStaged := [] }
  | some b => { d with profStaged := (span 0 2).map (fun t => (t, d.profileAt (u8 b (4 * t + 1)))) }

/-- Every field line is off after sowing (Table 1.4). -/
def Dev.linesOff (d : Dev) : Dev :=
  (span 0 8).foldl (fun (d : Dev) n => (d.put (FLN_CFG n) FLN_CFG_MODE 0).putB FLN_STAT ⟨n, n⟩ false) d

/-- A full plan applied (R73): every section, PADS last; then every pin takes its sown state and the plan is in force. -/
def Dev.applyFull (d : Dev) (l : List Section) (seq : Nat) (sram recovery : Bool) : Dev :=
  let before := d
  let d := (d.applyClock (bodyOf l tCLOCK 0)).applyPower (bodyOf l tPOWER 0)
  let d := (d.applyIrq (bodyOf l tIRQ 0)).hdlApply [] (bodyOf l tHEADLAND 0) true false
  let d := before.hdlRise { d with sow := { SowSt.init with force := l, fromSram := sram } }
  let d := d.profStaged.foldl (fun (d : Dev) p => d.loadProfile p.1 p.2) d
  let d := d.applyPads [] (bodyOf l tPADS 0)
  let d := { d.linesOff with pwr := { d.pwr with pins := .sown, femDriven := !d.pwr.rfIso && !d.pwr.rfReset, rfStale := d.pwr.rfReset } }
  let d := ((d.setReg SOW_SEQ (BitVec.ofNat 32 seq)).setSow swINFORCE).putB SOW_STAT SOW_STAT_RECOVERY recovery
  (d.put SOW_STAT SOW_STAT_DONE 1).count SOW_OKCNT

/-! ### Start-up (R66, R72, R73) -/

/-- The verdict on a full plan with VIO_B as measured: it fails, or it applies. `true`: it has been sown. -/
def Dev.sowJudge (d : Dev) (a : Nat) (viob : Option Nat) : Bool × Dev :=
  let b := d.planBytes a
  let d := d.planRead a
  let d := { d with pwr := { d.pwr with vioB := viob }, sow := { d.sow with viobWait := none } }
  match d.planCheck false b viob with
  | some f => (false, (d.setSow d.sowRest).sowFail f (planId b))
  | none =>
    let p := planOf b a
    (true, (d.copyProfiles p.secs).applyFull p.secs p.seq (decide (0x20000000 ≤ a ∧ a < 0x30000000)) false)

/-- The level PADS of a plan declares. -/
def planViob (b : List Byte) : Nat := u8 (bodyOf (planOf b 0).secs tPADS 0) 0

/-- VIO_B, absent now, is all that the plan fails on: the sowing waits for it (R66). -/
def Dev.viobOnly (d : Dev) (b : List Byte) : Bool :=
  decide (d.planCheck false b none ≠ d.planCheck false b (some (planViob b)))

/-- FULL_PLAN_SOW (R66, R71, R73): the boot ROM sows the full plan at an address, once the flash is ready (R313) and it has loaded its keys and renewed
counter 2 (R222, R231). -/
def execFullPlanSow (a : Word) (viob : Option (Fin 2)) (s : State) : Host.Outcome State Fault Refusal :=
  s.run fun d =>
    let a := a.toNat / 4 * 4
    if d.romHidden ∨ d.pwr.phase ≠ .running ∨ (!d.flag FLC_BOOT FLC_BOOT_READY ∧ !d.pwr.flIso) then d
    else
      let d := d.bootKeys []
      let d := Dev.setSow (Dev.setReg { d with sow := { d.sow with bootLeft := [] } } SOW_SRC (BitVec.ofNat 32 a)) swVERIFYING
      if viob.isNone && d.viobOnly (d.planBytes a) then { d with sow := { d.sow with viobWait := some (100, a) } }
      else (d.sowJudge a (viob.map (fun v => v.val))).2

/-- The recovery plan of R72. -/
def recoverySecs (viob : Nat) : List Section :=
  [⟨tCLOCK, 0, List.replicate 20 0⟩,
   ⟨tPOWER, 0, [0xB0, 0x04, 0x63, 0x00, 1, 0xFF, 0xFF, 0xFF, 0xFF, 0xFF, 2, 0]⟩,
   ⟨tMEMORY, 0, [0, 0, 0, 0]⟩,
   ⟨tPADS, 0, BitVec.ofNat 8 viob :: 2 :: List.replicate 194 0⟩,
   ⟨tIRQ, 0, List.replicate 2376 0⟩]

/-- The level a core starts at: P3 while the backstop is in force (R43). -/
def Dev.levelNow (d : Dev) (lvl : Nat) : Nat := if d.flag PWR_MON PWR_MON_OVER then 3 else lvl

/-- A core at a level, with its reservation. -/
def Dev.setLevel (d : Dev) (c lvl : Nat) : Dev :=
  ((d.put (PWR_PLEVEL c) PWR_PLEVEL_LEVEL lvl).put (PWR_PLEVEL c) PWR_PLEVEL_CUR lvl).setResv (resvCore c) (coreMw lvl)

/-- A core leaves reset at a level: its registers in their reset state, its pc at its entry (R259, R286). The release requests its reservation; one that
does not fit leaves the core in reset, reports over-ceiling and is counted (R40). -/
def Dev.coreStart (d : Dev) (c : Fin 7) (lvl : Nat) : Dev :=
  let l := d.levelNow lvl
  if d.resvFits (resvCore c) (coreMw l) then
    ((d.setCore c { CoreSt.init with pc := d.reg (SYS_ENTRY c) }).setCoreState c 1).setLevel c l
  else (d.refuseResv (26 + c)).put (PWR_PLEVEL c) PWR_PLEVEL_ERR 1

/-- The level a plan gives a core (Table 4.6). -/
def Dev.planLevel (d : Dev) (c : Nat) : Nat := d.plan8 tPOWER 0 (4 + c)

/-- PLEVEL of a plan applied to the two cores that the boot ROM holds at P1 until sowing ends (R64, R72). -/
def Dev.bootLevels (d : Dev) : Dev := (d.setLevel 0 (d.levelNow (d.planLevel 0))).setLevel 6 (d.levelNow (d.planLevel 6))

/-- The recovery plan is sown, without checks; C0 runs at P1 and K0 at P2 (R72). -/
def Dev.sowRecovery (d : Dev) : Dev :=
  (Dev.applyFull { d with profStaged := [] } (recoverySecs (d.pwr.vioB.getD 0)) 0 false true).bootLevels

/-- General registers left by the boot ROM, which the manual does not specify (R286; log entry 3). -/
def Dev.romLeft (d : Dev) (c : Fin 7) : Dev :=
  let f := d.frees 16
  f.2.setCore c { f.2.core c with g := Vector.ofFn (fun i : Fin 16 => f.1.getD i 0) }

/-- Cores take the levels of the plan and start at their entries (R64, R286). -/
def Dev.coresGo (d : Dev) : Dev :=
  ([0, 1, 2, 3, 4, 5, 6] : List (Fin 7)).foldl (fun (d : Dev) (c : Fin 7) =>
    if d.planLevel c = 0xFF then d
    else
      let d := d.coreStart c (d.planLevel c)
      if (c = 0 ∨ c = 6) ∧ d.coreState c = 1 then d.romLeft c else d) d

/-- BOOT_HANDOFF (R74, R286): in one cycle the ROM hides, C0 and K0 go to their entries, the other cores leave reset. In service boot
the ROM stays. -/
def execBootHandoff (s : State) : Host.Outcome State Fault Refusal :=
  s.run fun d =>
    if d.romHidden ∨ d.sowState ≠ swINFORCE ∨ d.flag SOW_STAT SOW_STAT_RECOVERY then d
    else Dev.coresGo { d with romHidden := true }

/-! ### Partial plans (R75 to R78) -/

/-- A command in a state that does not accept it. No plan is read for it, and the PLAN_ID words of its log entry are 0, of which the manual does not
speak (DESIGN CHOICE, log entry 134). -/
def Dev.sowRefuse (d : Dev) : Dev := d.sowFail ⟨0x10, 0, 0⟩ []

/-- The engine is busy with a plan (R78). -/
def Dev.sowBusy (d : Dev) : Bool := d.sowState == swVERIFYING || d.sowState == swDRAINING || d.sowState == swAPPLYING

/-- STAGE: verification starts. -/
def Dev.sowStage (d : Dev) : Dev :=
  if d.sowBusy then d.sowRefuse
  else Dev.setSow { d with sow := { d.sow with verifying := some ((d.reg SOW_SRC).toNat, d.sowState) } } swVERIFYING

/-- STAGE_VALIDATED (R66, R71, R78): the verdict on a partial plan; one that fails leaves a staged plan staged. -/
def execStageValidated (viob : Option (Fin 2)) (s : State) : Host.Outcome State Fault Refusal :=
  s.run fun d =>
    match d.sow.verifying with
    | none => d
    | some (a, prev) =>
      let b := d.planBytes a
      let d := d.planRead a
      let v := viob.map (fun (x : Fin 2) => x.val)
      let d := { d with sow := { d.sow with verifying := none }, pwr := { d.pwr with vioB := v } }
      match d.planCheck true b v with
      | some f => (d.setSow prev).sowFail f (planId b)
      | none =>
        let p := planOf b a
        ({ d with sow := { d.sow with staged := some p } }.copyProfiles p.secs).setSow swSTAGED

/-- Chains that a partial plan touches by GRID, DETECT or STRIPS (R77): a STRIPS section those that its changed entries name. -/
def Dev.touched (d : Dev) (l : List Section) : List Nat :=
  (span 0 4).filter (fun c =>
    (secOf l tGRID c).isSome || (secOf l tDETECT c).isSome ||
      (match secOf l tSTRIPS 0 with
        | none => false
        | some b => (span 0 16).any (fun s =>
            let old := (bodyOf d.sow.force tSTRIPS 0)
            entryBytes b (8 * s) 8 != entryBytes old (8 * s) 8 && (u8 b (8 * s) == c || d.stripChain s == c))))

/-- A strip of the new plan re-enters packets of a channel of a chain (R77). -/
def reentryUnder (b : List Byte) (c ch : Nat) : Bool :=
  (span 0 16).any (fun s => decide (u8 b (8 * s) = c ∧ (u8 b (8 * s + 1)).testBit 0 ∧ u8 b (8 * s + 2) ≤ ch ∧ ch ≤ u8 b (8 * s + 3)))

/-- The detector of a touched chain stops (R77): its tentative furrows are reclaimed, and slots that cannot complete close. -/
def Dev.drainBegin (d : Dev) (l : List Section) (c : Nat) : Dev :=
  let b := (secOf l tSTRIPS 0).getD (bodyOf d.sow.force tSTRIPS 0)
  let d := d.slotsEndAll (fun x => x.chain == c && !(reentryUnder b c x.ch)) uoRESOWN
  d.imposedAll (fun _u r => r.chain == c && decide (1 ≤ r.state ∧ r.state ≤ rsADDR)) dcRESOW stRESOWN

/-- A section of a partial plan that applies at the start of the swap (Table 4.20). -/
def Dev.applyAtSwap (d : Dev) (x : Section) : Dev :=
  let old := bodyOf d.sow.force x.typ x.inst
  if x.typ = tPOWER then (d.put PWR_CEIL PWR_CEIL_CEIL (u16 x.body 0)).setSec x
  else if x.typ = tHEADLAND then d.hdlRise ((d.hdlApply old x.body false false).setSec x)
  else if x.typ = tIRQ then (d.applyIrq x.body).setSec x
  else if x.typ = tPADS then d.padsHold ((d.applyPads old x.body).setSec x)
  else if x.typ = tRETAIN then d.setSec x
  else if x.typ = tCOEX then { d with sow := { d.sow with waiting := d.sow.waiting ++ [x] } }
  else if x.typ = tRADIO then
    { d with sow := { d.sow with waiting := d.sow.waiting ++ [⟨tRADIO, 0, x.body⟩, ⟨tRADIO, 1, x.body⟩] } }
  else d

/-- What a chain takes at the end of its drain: its GRID and DETECT, and the strips that serve it under either plan (R77). -/
def Dev.chainApply (d : Dev) (l : List Section) (c : Nat) : Dev :=
  let one := fun (d : Dev) t => match secOf l t c with
    | some b => d.setSec ⟨t, c, b⟩
    | none => d
  let d := one (one d tGRID) tDETECT
  match secOf l tSTRIPS 0 with
  | none => if d.rxReady c then d.rxWake c else d
  | some b =>
    let old := (secOf d.sow.force tSTRIPS 0).getD ((List.replicate 16 [0xFF, 0, 0, 0, 0, 0, 0, 0]).flatten)
    let new := (span 0 16).flatMap (fun s =>
      if u8 b (8 * s) = c ∨ u8 old (8 * s) = c then entryBytes b (8 * s) 8 else entryBytes old (8 * s) 8)
    let d := d.setSec ⟨tSTRIPS, 0, new⟩
    if d.rxReady c then d.rxWake c else d

/-- The drain of a chain is over (R77). -/
def Dev.drainOver (d : Dev) (c : Nat) : Dev :=
  match d.sow.staged with
  | none => d
  | some p =>
    let d := d.chainApply p.secs c
    let d := { d with sow := { d.sow with draining := d.sow.draining.filter (· ≠ c), reloading := d.sow.reloading ++ [c] } }
    if d.sow.draining = [] then d.setSow swAPPLYING else d

/-- The swap fails before it begins. What becomes of the staged plan and of STATE after CHANGED, SEQ or CEILING, and that CHANGED is judged before SEQ, R76
does not say: the model stages nothing any more and rests in INFORCE, or in NONE without a plan (DESIGN CHOICE, log entry 168). -/
def Dev.swapFail (d : Dev) (f : PFail) (id : List Byte) : Dev :=
  Dev.sowFail (Dev.setSow { d with sow := { d.sow with staged := none } } d.sowRest) f id

/-- The swap (R75 to R77): digest, SEQ and ceiling judged, then the sections of this boundary, then the drains. -/
def Dev.swap (d : Dev) : Dev :=
  match d.sow.staged with
  | none => d
  | some p =>
    let b := d.planBytes p.addr
    let d := d.planRead p.addr
    if sha256 (b.take (planLen b)) ≠ p.digest then d.swapFail ⟨0x12, 0, 0⟩ p.planId
    else if (d.reg SOW_SEQ).toNat ≠ p.baseSeq then d.swapFail ⟨0x07, 0, 0⟩ p.planId
    else
      match d.planCeiling (d.planSecs true b) true with
      | some f => d.swapFail f p.planId
      | none =>
        let cs := d.touched p.secs
        let d := { d with sow := { d.sow with draining := cs } }
        let d := d.setSow (if cs = [] then swAPPLYING else swDRAINING)
        let d := if (secOf p.secs tHEADLAND 0).isSome then d.hdlFlush else d
        let d := p.secs.foldl (fun (d : Dev) x => d.applyAtSwap x) d
        (cs.foldl (fun (d : Dev) c => d.drainBegin p.secs c) d).sowRelease

/-- APPLY (R76, R78). -/
def Dev.sowApplyCmd (d : Dev) : Dev :=
  if d.sowBusy ∨ d.sow.staged.isNone then d.sowRefuse else d.swap

/-- SOW_WHEN. -/
def Dev.sowWhen (d : Dev) : Nat := d.pair SOW_WHEN_LO SOW_WHEN_HI

/-- ARM (R76, R78). -/
def Dev.sowArmCmd (d : Dev) : Dev :=
  if d.sowBusy ∨ d.sow.staged.isNone then d.sowRefuse
  else if d.sowState = swARMED then d
  else if atOrPast d.meshNow d.sowWhen then
    d.sowFail ⟨0x11, 0, 0⟩ ((d.sow.staged.map (fun (p : Plan) => p.planId)).getD [])
  else d.setSow swARMED

/-- CANCEL (R78). -/
def Dev.sowCancelCmd (d : Dev) : Dev :=
  if d.sowState = swSTAGED ∨ d.sowState = swARMED then Dev.setSow { d with sow := { d.sow with staged := none } } d.sowRest else d

/-- A write to SOW_CMD (Table 4.24). -/
def Dev.sowCmd (d : Dev) (v : Word) : Dev :=
  if getF v SOW_CMD_KEY ≠ 0xC3 then d
  else match getF v SOW_CMD_CMD with
    | 1 => d.sowStage
    | 2 => d.sowApplyCmd
    | 3 => d.sowArmCmd
    | 4 => d.sowCancelCmd
    | _ => d

/-- SOW_STAGE (R75, R78). -/
def execSowStage (c : Fin 7) (s : State) : Host.Outcome State Fault Refusal :=
  s.ask (.sowStage c) SOW_CMD fun d => d.byCore c SOW_CMD true fun d => d.sowCmd 0xC3000001

/-- SOW_APPLY (R76). -/
def execSowApply (c : Fin 7) (s : State) : Host.Outcome State Fault Refusal :=
  s.ask (.sowApply c) SOW_CMD fun d => d.byCore c SOW_CMD true fun d => d.sowCmd 0xC3000002

/-- SOW_ARM (R76). -/
def execSowArm (c : Fin 7) (s : State) : Host.Outcome State Fault Refusal :=
  s.ask (.sowArm c) SOW_CMD fun d => d.byCore c SOW_CMD true fun d => d.sowCmd 0xC3000003

/-- SOW_CANCEL (R78). -/
def execSowCancel (c : Fin 7) (s : State) : Host.Outcome State Fault Refusal :=
  s.ask (.sowCancel c) SOW_CMD fun d => d.byCore c SOW_CMD true fun d => d.sowCmd 0xC3000004

/-- The swap of an armed plan once mesh time is at or past SOW_WHEN (R76, R204). A STAGE that verifies over an armed plan is given up. -/
def Dev.sowFire (d : Dev) : Dev :=
  if !atOrPast d.meshNow d.sowWhen then d
  else if d.sowState = swARMED then d.swap
  else match d.sow.verifying with
    | some (_, prev) => if prev = swARMED then (Dev.sowRefuse { d with sow := { d.sow with verifying := none } }).swap else d
    | none => d

/-- SOW_ACTIVATION (R76). -/
def execSowActivation (s : State) : Host.Outcome State Fault Refusal := s.run Dev.sowFire

/-- A committed furrow or MC demodulator of the chain is at work (R77, R137). -/
def Dev.committedOn (d : Dev) (c : Nat) : Bool :=
  d.rcv.any (fun (p : Nat × Rcv) => p.2.chain == c && decide (p.2.state = rsCOMMITTED ∨ p.2.state = rsDECODING))

/-- DRAIN_END (R77). -/
def execDrainEnd (c : Fin 4) (s : State) : Host.Outcome State Fault Refusal :=
  s.run fun d => if d.sow.draining.contains c.val && !d.committedOn c then d.drainOver c else d

/-- DRAIN_LIMIT (R77): committed furrows end RESOWN. -/
def execDrainLimit (c : Fin 4) (s : State) : Host.Outcome State Fault Refusal :=
  s.run fun d =>
    if d.sow.draining.contains c.val then
      (d.imposedAll (fun _ r => r.chain == c.val) dcRESOW stRESOWN).drainOver c
    else d

/-- CHANNELIZER_RELOAD (R77, R83). -/
def execChannelizerReload (c : Fin 4) (s : State) : Host.Outcome State Fault Refusal :=
  s.run fun d =>
    if d.sow.reloading.contains c.val then
      { d with sow := { d.sow with reloading := d.sow.reloading.filter (· ≠ c.val), resuming := d.sow.resuming ++ [c.val] } }
    else d

/-- DETECTOR_RESUME (R77): with the last section applied the new plan is in force. -/
def execDetectorResume (c : Fin 4) (s : State) : Host.Outcome State Fault Refusal :=
  s.run fun d =>
    if d.sow.resuming.contains c.val then
      Dev.sowSettle { d with sow := { d.sow with resuming := d.sow.resuming.filter (· ≠ c.val) } }
    else d

end Sys2Proof.Machine
end

