-- ==== Sys2Proof/Machine/Irq.lean ====
section
/-! DEFINITION. Interrupt controller (chapter 16): levels of the sources, pending state, presentation, acknowledge, completion,
hold-off. -/

namespace Sys2Proof.Machine

/-! ### Levels (R324, Table 16.1) -/

/-- A channel that feeds consumer `code` shows 1. -/
def Dev.consumerLevel (d : Dev) (code : Nat) : Bool :=
  (span 0 (hlNcons d.hl)).any (fun j => decide ((hlCons d.hl j).1 = code) && d.chShows (hlCons d.hl j).2)

/-- Level of an I/O source (1,090 to 1,097). -/
def Dev.ioLevel (d : Dev) (n : Nat) : Bool :=
  let both := fun (a b : Nat) => decide (a &&& b ≠ 0)
  let bit := fun (b : Bool) (k : Nat) => if b then 2 ^ k else 0
  match n with
  | 1090 =>
    let s := NFC_STAT
    both (bit (d.flag s NFC_STAT_DONE) 3 + bit (d.flag s NFC_STAT_CRXF) 2 + bit (d.flag s NFC_STAT_MBOXF) 1 + bit (d.flag s NFC_STAT_FIELDF) 0) (d.get NFC_CTL NFC_CTL_IE)
  | 1091 => both (d.get SVC_STAT ⟨3, 0⟩) (d.get SVC_STAT SVC_STAT_IE)
  | 1092 => both (bit (d.flag HST_STAT HST_STAT_DBF) 0 + bit (d.flag HST_STAT HST_STAT_ERR) 1) (d.get HST_STAT HST_STAT_IE)
  | 1093 => d.flag (I2C_STAT 0) I2C_STAT_DONE && d.flag (I2C_STAT 0) I2C_STAT_IE
  | 1094 => d.flag (I2C_STAT 1) I2C_STAT_DONE && d.flag (I2C_STAT 1) I2C_STAT_IE
  | 1095 => d.flag SPI_STAT SPI_STAT_DONE && d.flag SPI_STAT SPI_STAT_IE
  | _ =>
    let a := UART_STAT (n - 1096)
    both (bit (decide (d.get a UART_STAT_RXN ≠ 0)) 0 + bit (decide (d.get a UART_STAT_TXN ≤ 8)) 1 + bit (d.flag a UART_STAT_ERRF) 2) (d.get a UART_STAT_IE)

/-- Level of a general timer (R348) or of an always-on timer (R356). -/
def Dev.timerLevel (d : Dev) (n : Nat) : Bool :=
  if n < 1080 then decide (d.get (TMR_STAT (n - 1056)) ⟨3, 0⟩ &&& d.get (TMR_STAT (n - 1056)) ⟨7, 4⟩ ≠ 0)
  else d.flag (RTC_ATCTL (n - 1080)) RTC_ATCTL_EXPF && d.flag (RTC_ATCTL (n - 1080)) RTC_ATCTL_IE

/-- The level a source's condition drives (Table 16.1); `ext` is that of the die-temperature warning, whose condition the manual does
not state. The outputs of an isolated RF die are inactive (R8). -/
def Dev.srcLevel (d : Dev) (n : Nat) (ext : Bool) : Bool :=
  if n < 1026 then decide ((d.rcvOf n).state = rsDONE)
  else if 1043 ≤ n ∧ n ≤ 1046 then d.flag (FLC_STAT (n - 1043)) FLC_STAT_DONE
  else if 1056 ≤ n ∧ n ≤ 1087 then d.timerLevel n
  else if 1090 ≤ n ∧ n ≤ 1097 then d.ioLevel n
  else if 1098 ≤ n ∧ n ≤ 1101 then d.consumerLevel (0x800 + (n - 1098))
  else if 1104 ≤ n then
    let g := n - 1104
    decide (padFunc ((d.sec tPADS 0).getD []) g = 1 ∨ padFunc ((d.sec tPADS 0).getD []) g = 3) && testBit (d.reg (GPIO_IN (g / 32))) (g % 32)
  else match n with
    | 1026 => d.lostEvt
    | 1027 => !d.comps.isEmpty
    | 1028 => !d.vq.isEmpty
    | 1029 => decide (d.get FLD_ALARMCTL FLD_ALARMCTL_FIRED ≠ 0) || !d.fld.events.isEmpty
    | 1030 => d.flag COX_STAT COX_STAT_GNTSTUCK && !d.pwr.rfIso
    | 1031 => decide (d.get FLN_FLT FLN_FLT_FLT ≠ 0) && !d.pwr.rfIso
    | 1039 => (span 0 4).any (fun i => d.flag (SHA_STAT i) SHA_STAT_DONE)
    | 1042 => d.flag KEY_STAT KEY_STAT_EXHAUST || d.flag KEY_STAT KEY_STAT_RAISEF || d.flag KEY_STAT KEY_STAT_RNGFAIL
    | 1047 => (span 0 4).any (fun b => d.flag (FLC_COL b) FLC_COL_SUSPECT)
    | 1048 => decide (d.reg SEM_ORPH_LO ≠ 0 ∨ d.reg SEM_ORPH_HI ≠ 0)
    | 1049 => d.flag PWR_SUPPLY PWR_SUPPLY_SLOWF
    | 1050 => d.flag CLK_STAT CLK_STAT_REFFAIL || d.flag CLK_STAT CLK_STAT_LFFAIL
    | 1051 => !d.erlFifo.isEmpty
    | 1052 => d.flag SOW_STAT SOW_STAT_DONE || d.flag SOW_STAT SOW_STAT_FAIL
    | 1053 => (span 0 7).any (fun c => d.flag (IRQ_STAT c) IRQ_STAT_ORDERFLT)
    | 1054 => decide (d.get CAL_STAT ⟨3, 0⟩ &&& d.get CAL_CTL CAL_CTL_IE ≠ 0)
    | 1088 => d.flag RTC_STAT RTC_STAT_ALARMF
    | 1089 => d.flag RTC_STAT RTC_STAT_TICKF
    | 1102 => ext
    | _ => false

/-! ### Pending (R325, R326) -/

def Dev.srcPend (d : Dev) (n : Nat) (b : Bool) : Dev := d.putB (IRQ_CFG n) IRQ_CFG_PEND b

/-- The source is edge-sensed. -/
def Dev.srcEdge (d : Dev) (n : Nat) : Bool := decide (d.get (IRQ_CFG n) IRQ_CFG_SENSE ≠ 0)

/-- A sample of a source (R325): its level, then what SENSE makes of it. -/
def Dev.srcSample (d : Dev) (n : Nat) (lvl : Bool) : Dev :=
  let a := IRQ_CFG n
  let old := d.flag a IRQ_CFG_LINE
  let d := d.putB a IRQ_CFG_LINE lvl
  match d.get a IRQ_CFG_SENSE with
  | 0 => d.srcPend n (lvl && !d.flag a IRQ_CFG_ACT)
  | 1 => if lvl && !old then d.srcPend n true else d
  | 2 => if old && !lvl then d.srcPend n true else d
  | _ => if old != lvl then d.srcPend n true else d

/-- The level at a ball sown as general input or as headland event in, which `ext` gives, on its way to its source (R324, R441). -/
def Dev.ballSample (d : Dev) (n : Nat) (ext : Bool) : Dev :=
  let g := n - 1104
  if 1104 ≤ n ∧ (padFunc ((d.sec tPADS 0).getD []) g = 1 ∨ padFunc ((d.sec tPADS 0).getD []) g = 3) ∧ d.fieldOn 6 then d.putB (GPIO_IN (g / 32)) ⟨g % 32, g % 32⟩ ext else d

/-- SOURCE_CHANGE (R324, R325): the controller samples source `n`. The first sample of an outside level after a power-up is no edge (R326). -/
def execSourceChange (n : Fin 1152) (ext : Bool) (s : State) : Host.Outcome State Fault Refusal :=
  s.run fun d =>
    if !d.fieldOn 1 ∨ d.clk.stopped then d
    else
      let d := d.ballSample n ext
      let lvl := d.srcLevel n ext || sget false d.irqPulse n
      let new := sget false d.irqNew n
      let d : Dev := { d with irqPulse := sset false d.irqPulse n false, irqNew := sset false d.irqNew n false }
      if new && d.srcEdge n then d.putB (IRQ_CFG n) IRQ_CFG_LINE lvl else d.srcSample n lvl

/-- A source with an asynchronous latch (R326). -/
def latched (n : Nat) : Bool := n == 1049 || n == 1050 || (1080 ≤ n && n ≤ 1089) || (1148 ≤ n && n ≤ 1151)

/-- ASYNC_LATCH_EDGE (R326): the first edge of the kind SENSE of the plan selects, while the control field is unpowered. -/
def execAsyncLatchEdge (n : Fin 1152) (rising : Bool) (s : State) : Host.Outcome State Fault Refusal :=
  s.awake fun d =>
    let sense := d.plan16 tIRQ 0 (2 * n) / 16 % 4
    if latched n && !d.fieldOn 1 && (sense == 3 || (sense == 1 && rising) || (sense == 2 && !rising)) then
      { d with asyncL := sset false d.asyncL n true }
    else d

/-- The latches are replayed at power-up of the control field (R326). -/
def Dev.latchReplay (d : Dev) : Dev :=
  let l := d.asyncL.map (fun (p : Nat × Bool) => p.1)
  let d := l.foldl (fun (d : Dev) n => (d.srcPend n true).count (IRQ_CNT 2)) d
  { d with asyncL := [] }

/-- The sources as the control field comes up (R326): those whose condition the state shows are sampled, and a level-sensed one is pending where it is
1; those driven from outside wait for their first sample. An edge given while the field was off is lost. -/
def Dev.sourcesAgain (d : Dev) : Dev :=
  let d := (span 0 1152).foldl (fun (x : Dev) n =>
    if d.srcLevel n false then (let x := x.put (IRQ_CFG n) IRQ_CFG_LINE 1; if x.srcEdge n then x else x.srcPend n true) else x) d
  { d with irqNew := (1102, true) :: (span 1104 48).map (fun n => (n, true)) }

/-- Pending of edge-sensed sources of a word of 32 set or cleared by a write (R325). -/
def Dev.pendWrite (d : Dev) (k : Nat) (v : Word) (b : Bool) : Dev :=
  (span 0 32).foldl (fun d i => if testBit v i && d.srcEdge (32 * k + i) then d.srcPend (32 * k + i) b else d) d

/-- SOFTWARE_PEND (R325). -/
def execSoftwarePend (c : Fin 7) (k : Fin 36) (v : Word) (s : State) : Host.Outcome State Fault Refusal :=
  s.run fun d => d.byCore c (IRQ_SWPEND k) true fun d => d.pendWrite k v true

/-- PENDING_CLEAR (R325). -/
def execPendingClear (c : Fin 7) (k : Fin 36) (v : Word) (s : State) : Host.Outcome State Fault Refusal :=
  s.run fun d => d.byCore c (IRQ_PEND k) true fun d => d.pendWrite k v false

/-! ### Presentation (R327) -/

/-- Sources whose entry differs from its reset value: only these can be pending. -/
def Dev.srcListed (d : Dev) : List Nat :=
  (d.regs.filter (fun p => decide (0x40040000 ≤ p.1 ∧ p.1 < 0x40041200))).map (fun p => (p.1 - 0x40040000) / 4)

def Dev.runPri (d : Dev) (c : Fin 7) : Option Nat := (d.core c).stk.head?.map (·.2)

/-- The priority of a source beats the running priority of a core. -/
def Dev.beats (d : Dev) (c : Fin 7) (p : Nat) : Bool :=
  match d.runPri c with
  | none => true
  | some r => decide (r < p)

/-- A source is eligible for a core (R327). -/
def Dev.eligible (d : Dev) (n : Nat) (c : Fin 7) : Bool :=
  let a := IRQ_CFG n
  d.flag a IRQ_CFG_PEND && !d.flag a IRQ_CFG_ACT && d.flag a IRQ_CFG_EN && !d.flag (IRQ_HOLD (n / 32)) IRQ_HOLD_RUN
    && d.beats c (d.get a IRQ_CFG_PRI)
    && (if d.flag a IRQ_CFG_LOWPRI then (d.get IRQ_LPSET IRQ_LPSET_CORES).testBit c else decide (d.get a IRQ_CFG_TARGET = c.val))
    && decide (d.coreState c ≠ 0 ∧ d.coreState c ≠ 3 ∧ d.coreState c ≠ 4)

/-- How a core ranks for a LOWPRI source: running priority, an idle core lowest, then the order of LOWPRI acknowledges, then number. -/
def Dev.lpRank (d : Dev) (c : Fin 7) : Nat :=
  (match d.runPri c with
    | none => 0
    | some p => p + 1) * 100 + (d.lpOrder.findIdx (· == c.val)) * 10 + c

def allCores : List (Fin 7) := [0, 1, 2, 3, 4, 5, 6]

/-- The core of least rank. -/
def leastRank (f : Fin 7 → Nat) : List (Fin 7) → Option (Fin 7)
  | [] => none
  | c :: r =>
    match leastRank f r with
    | none => some c
    | some x => if f c ≤ f x then some c else some x

/-- The core a LOWPRI source is assigned to. -/
def Dev.assigned (d : Dev) (n : Nat) : Option (Fin 7) := leastRank d.lpRank (allCores.filter (fun c => d.eligible n c))

/-- A source that may be presented to a core. -/
def Dev.offered (d : Dev) (n : Nat) (c : Fin 7) : Bool :=
  d.eligible n c && (!d.flag (IRQ_CFG n) IRQ_CFG_LOWPRI || d.assigned n == some c)

/-- The source presented to a core: the highest priority, the lowest number on a tie. -/
def Dev.presented (d : Dev) (c : Fin 7) : Option Nat :=
  (d.srcListed.filter (fun n => d.offered n c)).foldl (fun (b : Option Nat) n =>
    match b with
    | none => some n
    | some m => if d.get (IRQ_CFG m) IRQ_CFG_PRI < d.get (IRQ_CFG n) IRQ_CFG_PRI then some n else some m) none

/-! ### Acknowledge and completion (R328 to R331) -/

/-- A core acknowledges what is presented to it (R328); the word read is left in `rdata`. -/
def Dev.irqAck (d : Dev) (c : Fin 7) : Dev :=
  match d.presented c with
  | none => Dev.count { d with rdata := 0x80000000 } (IRQ_CNT 1)
  | some n =>
    let a := IRQ_CFG n
    let p := d.get a IRQ_CFG_PRI
    let lp := d.flag a IRQ_CFG_LOWPRI
    let d := ((d.srcPend n false).put a IRQ_CFG_ACT 1).put a IRQ_CFG_ONCORE c
    let d := d.setCore c { d.core c with stk := (n, p) :: (d.core c).stk }
    let d := if d.get (IRQ_HOLD (n / 32)) IRQ_HOLD_INTERVAL = 0 then d else d.holdRun (n / 32)
    { d with
      lpOrder := if lp then d.lpOrder.filter (· ≠ c.val) ++ [c.val] else d.lpOrder
      lostEvt := d.lostEvt && n != 1026
      rdata := mkWord [(IRQ_ACK_PRI, p), (IRQ_ACK_SRC, n)] }

/-- INTERRUPT_ACKNOWLEDGE (R328): core `c` reads its own IRQ_ACK. -/
def execInterruptAcknowledge (c : Fin 7) (s : State) : Host.Outcome State Fault Refusal :=
  s.run fun d => d.byCore c (IRQ_ACK c) false fun d => d.irqAck c

/-- A source stops being active; a level-sensed one is pending again while its level is 1 (R330). -/
def Dev.srcIdle (d : Dev) (n : Nat) : Dev :=
  let a := IRQ_CFG n
  let d := (d.put a IRQ_CFG_ACT 0).put a IRQ_CFG_ONCORE 7
  if d.srcEdge n then d else d.srcPend n (d.flag a IRQ_CFG_LINE)

/-- A word of IRQ_STK. -/
def stkWord (x : Nat × Nat) : Word := mkWord [(⟨31, 31⟩, 1), (⟨14, 11⟩, x.2), (⟨10, 0⟩, x.1)]

/-- A completion (R329). -/
def Dev.irqEoi (d : Dev) (c : Fin 7) (n : Nat) : Dev :=
  let x := d.core c
  let bad := fun (d : Dev) (top : Word) =>
    ((d.put (IRQ_STAT c) IRQ_STAT_ORDERFLT 1).count (IRQ_CNT 0)).report (26 + c) c 2 (BitVec.ofNat 32 n) [top]
  match x.stk with
  | [] => bad d 0
  | t :: r => if t.1 = n then (d.setCore c { x with stk := r }).srcIdle n else bad d (stkWord t)

/-- INTERRUPT_COMPLETE (R329): core `c` writes its own IRQ_EOI. -/
def execInterruptComplete (c : Fin 7) (v : Word) (s : State) : Host.Outcome State Fault Refusal :=
  s.run fun d => d.byCore c (IRQ_EOI c) true fun d => d.irqEoi c (getF v IRQ_EOI_SRC)

/-- The timer of group `g` has run for its interval. -/
def Dev.holdOver (d : Dev) (g : Nat) : Bool := d.flag (IRQ_HOLD g) IRQ_HOLD_RUN && decide (sget 0 d.holdDue g ≤ d.nowU)

/-- HOLDOFF_EXPIRY (R331): the group never opens early. -/
def execHoldoffExpiry (g : Fin 36) (s : State) : Host.Outcome State Fault Refusal :=
  s.run fun d => if d.holdOver g then d.holdEnd g else d

/-- Hold-offs that have run for their interval end within a cycle (R331). -/
def Dev.holdsDue (d : Dev) : Dev :=
  d.holdDue.foldl (fun (d : Dev) p => if d.holdOver p.1 then d.holdEnd p.1 else d) d

/-- A write to IRQ_HOLD (R331): a running timer restarts with the new interval; with none it is over. -/
def Dev.holdWrite (d : Dev) (g : Nat) (v : Word) : Dev := d.holdSet g (getF v IRQ_HOLD_INTERVAL)

/-- HOLDOFF_WRITE (R331, R333). -/
def execHoldoffWrite (c : Fin 7) (g : Fin 36) (v : Word) (s : State) : Host.Outcome State Fault Refusal :=
  s.run fun d => d.byCore c (IRQ_HOLD g) true fun d => d.holdWrite g v

/-- The stack of a core being reset is emptied (R332). -/
def Dev.irqCoreReset (d : Dev) (c : Fin 7) : Dev :=
  let l := (d.core c).stk
  let d := d.setCore c { d.core c with stk := [] }
  l.foldl (fun (d : Dev) x => (d.srcIdle x.1).count (IRQ_CNT 3)) d

/-! ### Registers as a read shows them (Tables 16.3, 16.4) -/

/-- IRQ_PEND[k]. -/
def Dev.pendView (d : Dev) (k : Nat) : Word :=
  (span 0 32).foldl (fun w i => if d.flag (IRQ_CFG (32 * k + i)) IRQ_CFG_PEND then putBit w i true else w) 0

/-- IRQ_STAT[c]. -/
def Dev.irqStat (d : Dev) (c : Fin 7) : Word :=
  let x := (d.core c).stk
  let p := d.presented c
  mkWord [(IRQ_STAT_ORDERFLT, d.get (IRQ_STAT c) IRQ_STAT_ORDERFLT), (IRQ_STAT_DEPTH, x.length), (IRQ_STAT_PRES, p.isSome.toNat),
    (IRQ_STAT_PRESPRI, (p.map (fun n => d.get (IRQ_CFG n) IRQ_CFG_PRI)).getD 0), (IRQ_STAT_IDLE, x.isEmpty.toNat),
    (IRQ_STAT_RUNPRI, (d.runPri c).getD 0)]

/-- IRQ_STK[c][i]: entry 0 is the bottom. -/
def Dev.stkView (d : Dev) (c : Fin 7) (i : Nat) : Word :=
  match (d.core c).stk.reverse[i]? with
  | some x => stkWord x
  | none => 0

end Sys2Proof.Machine
end

