-- ==== Sys2Proof/Machine/Io.lean ====
section
/-! DEFINITION. The host port, the I²C, SPI and UART controllers and the general I/O balls (chapter 23). -/

namespace Sys2Proof.Machine

/-! ### Host port (R428 to R432) -/

/-- The host port serves frames (R428). -/
def Dev.hostOn (d : Dev) : Bool := d.fieldOn 6 && decide (d.pwr.pins = .sown) && (d.plan8 tPADS 0 1).testBit 0

/-- Memory a window may lie in (R429): general SRAM below the carve, or the frame store. -/
def Dev.hostMem (d : Dev) (a n : Nat) : Bool :=
  decide (0x20000000 ≤ a ∧ a + n ≤ 0x21400000 - d.carveBytes) || decide (0x22C00000 ≤ a ∧ a + n ≤ 0x23000000)

/-- Base and size of window `w`. -/
def Dev.hostBase (d : Dev) (w : Nat) : Nat := 4096 * d.get (HST_WINB w) HST_WINB_ADDR
def Dev.hostSize (d : Dev) (w : Nat) : Nat := 4096 * d.get (HST_WINC w) HST_WINC_PAGES

/-- The window may be enabled as it stands. -/
def Dev.hostWinOk (d : Dev) (w : Nat) : Bool :=
  let n := d.get (HST_WINC w) HST_WINC_PAGES
  decide (1 ≤ n ∧ n ≤ 4096) && d.hostMem (d.hostBase w) (d.hostSize w)

/-- EN stays at 0 where the window may not be enabled (R429). -/
def Dev.hostJudge (d : Dev) (w : Nat) : Dev := if d.hostWinOk w then d else d.put (HST_WINC w) HST_WINC_EN 0

/-- A write to HST_WINC[w], or to HST_WINB[w] under an enabled window. -/
def Dev.hostWinWrite (d : Dev) (a w : Nat) (v : Word) : Dev := (d.plainWrite a v).hostJudge w

/-- HOST_WINDOW_WRITE (R429). -/
def execHostWindowWrite (c : Fin 7) (w : Fin 2) (v : Word) (s : State) : Host.Outcome State Fault Refusal :=
  s.ask (.hostWindowWrite c w v) (HST_WINC w) fun d => d.byCore c (HST_WINC w) true fun d => d.hostWinWrite (HST_WINC w) w v

/-- An enabled window grants the byte. -/
def Dev.hostGrants (d : Dev) (a : Nat) (write : Bool) : Bool :=
  (span 0 2).any (fun w => d.flag (HST_WINC w) HST_WINC_EN && (!write || d.flag (HST_WINC w) HST_WINC_WR)
    && decide (d.hostBase w ≤ a ∧ a < d.hostBase w + d.hostSize w))

/-- The first byte of a frame outside every granting window (R429). -/
def Dev.hostErr (d : Dev) (k : Nat) : Dev :=
  ({ d with host := { d.host with herr := true } }.put HST_STAT HST_STAT_ERR 1).count (HST_CNT k)

/-- The byte at position `i` of a frame that started at `a`; addresses wrap. -/
def frameAddr (a : Word) (i : Nat) : Nat := (a.toNat + i) % 2 ^ 32

/-- Some byte of the frame lies outside every granting window. -/
def Dev.hostMiss (d : Dev) (a : Word) (n : Nat) (write : Bool) : Bool := (span 0 n).any (fun i => !d.hostGrants (frameAddr a i) write)

/-- A group of four bytes of a READ frame, read whole as it is fetched (R429): bytes of a word whose check bits cannot correct it read 0 (R295, R446),
and those of an unpowered field, which a write does not change (R6, R53). -/
def Dev.hostGroup (d : Dev) (a : Word) (k : Nat) : List Byte × Dev :=
  (span 0 4).foldl (fun (q : List Byte × Dev) j =>
    let x := frameAddr a (4 * k + j)
    if q.2.hostGrants x false && q.2.fieldOn (targetOf x).2 then
      let r := if j = 0 ∨ x % 4 = 0 then (q.2.touchDomain x).eccRead x (esynOf x synECC false false false) else (!q.2.wordBad x, q.2)
      (q.1 ++ [if r.1 then r.2.byte x else 0], r.2)
    else (q.1 ++ [0], q.2)) ([], d)

/-- Bytes a READ frame drives: the first group is fetched whether or not the host takes a byte of it (R429). -/
def Dev.hostBytes (d : Dev) (a : Word) (n : Nat) : List Byte × Dev :=
  let r := (span 0 (max 1 ((n + 3) / 4))).foldl (fun (q : List Byte × Dev) k =>
    let g := q.2.hostGroup a k
    (q.1 ++ g.1, g.2)) ([], d)
  (r.1.take n, r.2)

/-- HST_CS is low now: a frame has taken place in this cycle. -/
def Dev.csLow (d : Dev) : Bool := d.host.csAt == some d.clk.cyc

/-- A frame of the host: HST_CS is low in the cycle of its command (R432; log entry 119). -/
def Dev.hostFrame (d : Dev) (f : Dev → Dev) : Dev :=
  if !d.hostOn then d else f { d with host := { d.host with csAt := some d.clk.cyc } }

/-- HOST_READ (R428, R429): the frame's `n` data bytes. -/
def execHostRead (a : Word) (n : Nat) (s : State) : Host.Outcome State Fault Refusal :=
  s.run fun d => d.hostFrame fun d =>
    let d := if d.hostMiss a n false then d.hostErr 0 else d
    let r := d.hostBytes a n
    { r.2 with host := { r.2.host with out := r.1 } }

/-- Bytes of a WRITE frame, in ascending order; those outside every granting window are discarded. -/
def Dev.hostPut (d : Dev) (a : Word) : Nat → List Byte → Dev
  | _, [] => d
  | i, b :: r =>
    let x := frameAddr a i
    (if d.hostGrants x true && d.fieldOn (targetOf x).2 then d.setByte x b else d).hostPut a (i + 1) r

/-- HOST_WRITE (R429, R430). -/
def execHostWrite (a : Word) (bytes : List Byte) (s : State) : Host.Outcome State Fault Refusal :=
  s.ask (.hostWrite a bytes) HST_STAT fun d => d.hostFrame fun d =>
    let miss := d.hostMiss a bytes.length true
    let d := d.hostPut a 0 bytes
    let d := if miss then d else d.eccClear a.toNat bytes.length
    if miss then d.hostErr 0 else d

/-- HOST_STAT (R428): the flags and HSTAT; the read clears HERR. -/
def execHostStat (s : State) : Host.Outcome State Fault Refusal :=
  s.run fun d => d.hostFrame fun d =>
    let st := (d.flag HST_STAT HST_STAT_DBF).toNat + 2 * d.host.herr.toNat
    { d with host := { d.host with herr := false, out := leBytes 4 (d.reg HST_HFLG).toNat ++ leBytes 4 st } }

/-- DOORBELL (R431). -/
def execDoorbell (v : Word) (s : State) : Host.Outcome State Fault Refusal :=
  s.ask (.doorbell v) HST_STAT fun d => d.hostFrame fun d =>
    if d.flag HST_STAT HST_STAT_DBF then d.hostErr 1
    else (d.setReg HST_DB v).put HST_STAT HST_STAT_DBF 1

/-- IRQCLR (R428). -/
def execIrqclr (m : Word) (s : State) : Host.Outcome State Fault Refusal :=
  s.ask (.irqclr m) HST_STAT fun d => d.hostFrame fun d => d.setReg HST_HFLG (d.reg HST_HFLG &&& ~~~m)

/-- HOST_UNKNOWN_COMMAND (R428). -/
def execHostUnknownCommand (b : Byte) (s : State) : Host.Outcome State Fault Refusal :=
  s.run fun d => d.hostFrame fun d => if [0x0B, 0x02, 0x05, 0x31, 0x35].contains b.toNat then d else d.count (HST_CNT 2)

/-- HOST_FLAG_SET (R432). -/
def execHostFlagSet (c : Fin 7) (v : Word) (s : State) : Host.Outcome State Fault Refusal :=
  s.ask (.hostFlagSet c v) HST_HFLG fun d => d.byCore c HST_HFLG true fun d => d.plainWrite HST_HFLG v

/-! ### I²C controllers (R434 to R438) -/

def irOK : Nat := 1
def irNACKADDR : Nat := 2
def irNACKDATA : Nat := 3
def irARBLOST : Nat := 4
def irSCLLOW : Nat := 5
def irSDALOW : Nat := 6
def irSTUCK : Nat := 7
def irABORTED : Nat := 8

def Dev.i2cOf (d : Dev) (n : Nat) : I2cSt := sget I2cSt.init d.i2c n

/-- A controller's new state; TXN and RXN follow its FIFOs. -/
def Dev.setI2c (d : Dev) (n : Nat) (x : I2cSt) : Dev :=
  let d := { d with i2c := sset I2cSt.init d.i2c n x }
  (d.put (I2C_STAT n) I2C_STAT_TXN x.tx.length).put (I2C_STAT n) I2C_STAT_RXN x.rx.length

/-- A command ends (R435): RESULT, DONE. -/
def Dev.i2cEnd (d : Dev) (n res : Nat) : Dev :=
  let d := d.setI2c n { d.i2cOf n with cmd := none }
  ((d.put (I2C_STAT n) I2C_STAT_BUSY 0).put (I2C_STAT n) I2C_STAT_RESULT res).put (I2C_STAT n) I2C_STAT_DONE 1

/-- A command that ends SDALOW or SCLLOW sticks (R436). -/
def Dev.i2cStick (d : Dev) (n res : Nat) : Dev :=
  let d := d.setI2c n { d.i2cOf n with rep := false }
  let d := ((d.i2cEnd n res).put (I2C_STAT n) I2C_STAT_STUCK 1).count (I2C_CNT n 2)
  d.report (16 + n) 0 1 (BitVec.ofNat 32 res) []

/-- A write to I2C_CMD (R435, R437). One with LEN 0, outside its range, moves no byte (log entry 63). -/
def Dev.i2cCmd (d : Dev) (n : Nat) (v : Word) : Dev :=
  let a := I2C_STAT n
  if d.flag a I2C_STAT_BUSY ∨ !d.flag (I2C_CFG n) I2C_CFG_EN then d
  else if d.flag a I2C_STAT_STUCK ∧ getF v I2C_CMD_RECOVER = 0 then d.i2cEnd n irSTUCK
  else (d.setI2c n { d.i2cOf n with cmd := some v, n := 0, sent := [] }).put a I2C_STAT_BUSY 1

/-- I2C_TRANSFER (R435). -/
def execI2cTransfer (c : Fin 7) (n : Fin 2) (v : Word) (s : State) : Host.Outcome State Fault Refusal :=
  s.ask (.i2cTransfer c n v) (I2C_CMD n) fun d => d.byCore c (I2C_CMD n) true fun d => d.i2cCmd n (setF v I2C_CMD_RECOVER 0)

/-- I2C_RECOVER (R436). -/
def execI2cRecover (c : Fin 7) (n : Fin 2) (s : State) : Host.Outcome State Fault Refusal :=
  s.ask (.i2cRecover c n) (I2C_CMD n) fun d => d.byCore c (I2C_CMD n) true fun d => d.i2cCmd n 0x80000000

/-- One byte of the transfer moves (R435): a write byte leaves the TX FIFO, a read byte `b` enters the RX FIFO. -/
def I2cSt.move (x : I2cSt) (b : Byte) : I2cSt :=
  match x.cmd with
  | none => x
  | some v =>
    if getF v I2C_CMD_LEN ≤ x.n then x
    else if getF v I2C_CMD_RD = 1 then
      if x.rx.length < 16 then { x with rx := x.rx ++ [b], n := x.n + 1 } else x
    else match x.tx with
      | [] => x
      | t :: r => { x with tx := r, n := x.n + 1, sent := x.sent ++ [t] }

/-- ADDR with RD goes out, once in a transfer and first (R435). -/
def I2cSt.address (x : I2cSt) : I2cSt :=
  match x.cmd with
  | none => x
  | some v =>
    if getF v I2C_CMD_RECOVER = 1 ∨ x.sent ≠ [] then x
    else { x with sent := [BitVec.ofNat 8 (2 * getF v I2C_CMD_ADDR + getF v I2C_CMD_RD)] }

/-- The bytes that have moved since the controller's last command, the address before the first of them. -/
def Dev.i2cMoved (d : Dev) (n : Nat) (bus : List Byte) : Dev :=
  if bus.isEmpty then d else d.setI2c n (bus.foldl I2cSt.move (d.i2cOf n).address)

/-- A NACK (R435): a STOP is sent, the TX FIFO flushed. -/
def Dev.i2cNack (d : Dev) (n res : Nat) : Dev :=
  ((d.setI2c n { d.i2cOf n with tx := [], rep := false }).count (I2C_CNT n 0)).i2cEnd n res

/-- I2C_COMMAND_END (R435, R436): a START that is not repeated, and RECOVER, first clear a bus whose SDA is low (`clears`). -/
def execI2cCommandEnd (n : Fin 2) (bus : List Byte) (clears : Bool) (e : I2cEnd) (s : State) : Host.Outcome State Fault Refusal :=
  s.run fun d =>
    let x := d.i2cOf n
    match x.cmd with
    | none => d
    | some v =>
      let recover := decide (getF v I2C_CMD_RECOVER = 1)
      let first := recover || !x.rep
      let d := if clears && first && e != .sdaLow then d.count (I2C_CNT n 1) else d
      if e = .sdaLow then (if first then d.i2cStick n irSDALOW else d)
      else if recover then (d.put (I2C_STAT n) I2C_STAT_STUCK 0).i2cEnd n irOK
      else match e with
        | .nackAddr => (d.setI2c n (d.i2cOf n).address).i2cNack n irNACKADDR
        | .nackData => (d.i2cMoved n bus).i2cNack n irNACKDATA
        | .arbLost => Dev.i2cEnd ((d.i2cMoved n bus).setI2c n { (d.i2cMoved n bus).i2cOf n with rep := false }) n irARBLOST
        | _ =>
          let d := (d.setI2c n (d.i2cOf n).address).i2cMoved n bus
          if (d.i2cOf n).n < getF v I2C_CMD_LEN then d
          else (d.setI2c n { d.i2cOf n with rep := decide (getF v I2C_CMD_STOP = 0) }).i2cEnd n irOK

/-- SCL_STRETCH_TIMEOUT (R436). -/
def execSclStretchTimeout (n : Fin 2) (s : State) : Host.Outcome State Fault Refusal :=
  s.run fun d => if d.flag (I2C_STAT n) I2C_STAT_BUSY then d.i2cStick n irSCLLOW else d

/-- A write to I2C_CFG (R438). -/
def Dev.i2cCfg (d : Dev) (n : Nat) (v : Word) : Dev :=
  let d := d.plainWrite (I2C_CFG n) v
  if getF v I2C_CFG_EN = 0 ∧ d.flag (I2C_STAT n) I2C_STAT_BUSY then
    (d.setI2c n { d.i2cOf n with tx := [], rx := [], rep := false }).i2cEnd n irABORTED
  else d

/-- I2C_DISABLE (R438). -/
def execI2cDisable (c : Fin 7) (n : Fin 2) (v : Word) (s : State) : Host.Outcome State Fault Refusal :=
  s.ask (.i2cDisable c n v) (I2C_CFG n) fun d => d.byCore c (I2C_CFG n) true fun d => d.i2cCfg n (setF v I2C_CFG_EN 0)

/-- A byte pushed to the TX FIFO; one that finds it full is dropped. -/
def Dev.i2cPush (d : Dev) (n : Nat) (b : Byte) : Dev :=
  let x := d.i2cOf n
  if x.tx.length < 16 then d.setI2c n { x with tx := x.tx ++ [b] } else d

/-- The oldest byte of the RX FIFO; an empty one reads 0. -/
def Dev.i2cPop (d : Dev) (n : Nat) : Dev :=
  let x := d.i2cOf n
  match x.rx with
  | [] => { d with rdata := 0 }
  | b :: r => d.setI2c n { x with rx := r } |> fun d => { d with rdata := b.setWidth 32 }

/-- I2C_DATA_WRITE (R435). -/
def execI2cDataWrite (c : Fin 7) (n : Fin 2) (b : Byte) (bus : List Byte) (s : State) : Host.Outcome State Fault Refusal :=
  s.ask (.i2cDataWrite c n b bus) (I2C_DATA n) fun d => (d.i2cMoved n bus).byCore c (I2C_DATA n) true fun d => d.i2cPush n b

/-- I2C_DATA_READ (R435). -/
def execI2cDataRead (c : Fin 7) (n : Fin 2) (bus : List Byte) (s : State) : Host.Outcome State Fault Refusal :=
  s.run fun d => (d.i2cMoved n bus).byCore c (I2C_DATA n) false fun d => d.i2cPop n

/-! ### SPI (R439) -/

/-- A write to SPI_XFER. One with LEN 0, outside its range, moves no byte (log entry 63). -/
def Dev.spiStart (d : Dev) (v : Word) : Dev :=
  if d.flag SPI_STAT SPI_STAT_BUSY ∨ !d.flag SPI_CFG SPI_CFG_EN then d
  else Dev.put { d.padDrive 0x12 0 with spi := ⟨some v, none, []⟩ } SPI_STAT SPI_STAT_BUSY 1

/-- SPI_TRANSFER (R439). -/
def execSpiTransfer (c : Fin 7) (v : Word) (s : State) : Host.Outcome State Fault Refusal :=
  s.ask (.spiTransfer c v) SPI_XFER fun d => d.byCore c SPI_XFER true fun d => d.spiStart v

/-- `n` bytes of a transfer from byte `i` on, `rx` what the target sends: the bytes sent, and how many were moved before a buffer
faulted. -/
def Dev.spiMove (d : Dev) (rx : List Byte) : Nat → Nat → Nat × List Byte × Dev
  | i, 0 => (i, [], d)
  | i, n + 1 =>
    let t := (d.reg SPI_TXA).toNat
    let r := (d.reg SPI_RXA).toNat
    let d := if t = 0 then d else d.touchRange (t + i) 1
    if (t != 0 && !d.nfcBus (t + i) 1 false) || (r != 0 && !d.nfcBus (r + i) 1 true) then (i, [], d)
    else
      let b := if t = 0 then 0xFF else d.byte (t + i)
      let d := if r = 0 then d else d.setByte (r + i) (rx.getD i 0xFF)
      let q := d.spiMove rx (i + 1) n
      (q.1, b :: q.2.1, q.2.2)

/-- A transfer ends (R439). -/
def Dev.spiEnd (d : Dev) (res : Nat) (held : Option Nat) (sent : List Byte) : Dev :=
  let d := { d with spi := ⟨none, held, sent⟩ }
  ((d.put SPI_STAT SPI_STAT_BUSY 0).put SPI_STAT SPI_STAT_RESULT res).put SPI_STAT SPI_STAT_DONE 1

/-- SPI_TRANSFER_END (R439). -/
def execSpiTransferEnd (rx : List Byte) (s : State) : Host.Outcome State Fault Refusal :=
  s.run fun d =>
    match d.spi.xfer with
    | none => d
    | some v =>
      let n := getF v SPI_XFER_LEN
      let q := d.spiMove rx 0 n
      let held := if getF v SPI_XFER_HOLD = 1 then some (getF v SPI_XFER_CS) else none
      if q.1 < n then q.2.2.spiEnd 2 held q.2.1 else q.2.2.spiEnd 1 held q.2.1

/-- A write to SPI_CFG (R439): DIV 0 leaves DIV; EN = 0 ends a transfer, of which the bytes `rx` had been moved, and releases the chip
selects. -/
def Dev.spiCfg (d : Dev) (v : Word) (rx : List Byte) : Dev :=
  let v := if getF v SPI_CFG_DIV = 0 then setF v SPI_CFG_DIV (d.get SPI_CFG SPI_CFG_DIV) else v
  let d := d.plainWrite SPI_CFG v
  if getF v SPI_CFG_EN = 1 then d
  else match d.spi.xfer with
    | none => { d with spi := { d.spi with held := none } }
    | some x =>
      let q := d.spiMove rx 0 (min rx.length (getF x SPI_XFER_LEN))
      q.2.2.spiEnd 3 none q.2.1

/-- SPI_DISABLE (R439). -/
def execSpiDisable (c : Fin 7) (v : Word) (rx : List Byte) (s : State) : Host.Outcome State Fault Refusal :=
  s.ask (.spiDisable c v rx) SPI_CFG fun d => d.byCore c SPI_CFG true fun d => d.spiCfg (setF v SPI_CFG_EN 0) rx

/-! ### UARTs (R440, R442) -/

def Dev.uartOf (d : Dev) (n : Nat) : UartSt := sget UartSt.init d.uart n

/-- A UART's new state; TXBUSY, TXN and RXN follow it. -/
def Dev.setUart (d : Dev) (n : Nat) (x : UartSt) : Dev :=
  let d := { d with uart := sset UartSt.init d.uart n x }
  ((d.putB (UART_STAT n) UART_STAT_TXBUSY x.sh.isSome).put (UART_STAT n) UART_STAT_TXN x.tx.length).put (UART_STAT n) UART_STAT_RXN x.rx.length

/-- The transmitter may start a new byte (R440). -/
def Dev.uartMay (d : Dev) (n : Nat) : Bool :=
  d.flag (UART_CFG n) UART_CFG_EN && (!d.flag (UART_CFG n) UART_CFG_FLOW || (d.uartOf n).cts)

/-- An idle transmitter starts the oldest byte of its FIFO where it may. -/
def Dev.uartKick (d : Dev) (n : Nat) : Dev :=
  let x := d.uartOf n
  match x.sh, x.tx with
  | none, b :: r => if d.uartMay n then (d.padDrive (0x13 + n) 0).setUart n { x with tx := r, sh := some b } else d
  | _, _ => d

/-- RTS is deasserted (R440). -/
def Dev.uartRtsOff (d : Dev) (n : Nat) : Bool := d.flag (UART_CFG n) UART_CFG_FLOW && decide (24 ≤ (d.uartOf n).rx.length)

/-- A byte pushed to the TX FIFO; one that finds it full is dropped. -/
def Dev.uartPush (d : Dev) (n : Nat) (b : Byte) : Dev :=
  let x := d.uartOf n
  if x.tx.length < 32 then (d.setUart n { x with tx := x.tx ++ [b] }).uartKick n else d

/-- UART_TX_PUSH (R440). -/
def execUartTxPush (c : Fin 7) (n : Fin 2) (b : Byte) (s : State) : Host.Outcome State Fault Refusal :=
  s.ask (.uartTxPush c n b) (UART_DATA n) fun d => d.byCore c (UART_DATA n) true fun d => d.uartPush n b

/-- A read of UART_DATA. -/
def Dev.uartPop (d : Dev) (n : Nat) : Dev :=
  let x := d.uartOf n
  match x.rx with
  | [] => { d with rdata := 0 }
  | b :: r => d.setUart n { x with rx := r } |> fun d => { d with rdata := 0x100 ||| b.setWidth 32 }

/-- UART_RX_POP (R440). -/
def execUartRxPop (c : Fin 7) (n : Fin 2) (s : State) : Host.Outcome State Fault Refusal :=
  s.run fun d => d.byCore c (UART_DATA n) false fun d => d.uartPop n

/-- A discarded byte: counted, ERRF set. -/
def Dev.uartErr (d : Dev) (n k : Nat) : Dev := (d.count (UART_CNT n k)).put (UART_STAT n) UART_STAT_ERRF 1

/-- UART_BYTE_RECEIVED (R440, R442). -/
def execUartByteReceived (n : Fin 2) (b : Byte) (frame parity : Bool) (s : State) : Host.Outcome State Fault Refusal :=
  s.run fun d =>
    let par := parity && decide (1 ≤ d.get (UART_CFG n) UART_CFG_PARITY ∧ d.get (UART_CFG n) UART_CFG_PARITY ≤ 2)
    if !d.fieldOn 6 ∨ !d.flag (UART_CFG n) UART_CFG_EN ∨ d.rests (19 + n) then d
    else if frame || par then
      let d := if frame then d.uartErr n 0 else d
      if par then d.uartErr n 1 else d
    else
      let x := d.uartOf n
      if x.rx.length < 32 then d.setUart n { x with rx := x.rx ++ [b] } else d.uartErr n 2

/-- UART_BYTE_SENT (R440). -/
def execUartByteSent (n : Fin 2) (s : State) : Host.Outcome State Fault Refusal :=
  s.run fun d =>
    let x := d.uartOf n
    if x.sh.isNone then d else (d.setUart n { x with sh := none }).uartKick n

/-- UART_CTS_CHANGE (R440). -/
def execUartCtsChange (n : Fin 2) (on : Bool) (s : State) : Host.Outcome State Fault Refusal :=
  s.run fun d => (d.setUart n { d.uartOf n with cts := on }).uartKick n

/-! ### General I/O (R441) -/

/-- Balls of GPIO_OUT[k] sown as general output. -/
def Dev.gpioMask (d : Dev) (k : Nat) : Word :=
  let b := (d.sec tPADS 0).getD []
  (span 0 32).foldl (fun w i => if 32 * k + i < 48 ∧ padFunc b (32 * k + i) = 2 then putBit w i true else w) 0

/-- GPIO_OUT[k] as a read shows it. -/
def Dev.gpioOut (d : Dev) (k : Nat) : Word := d.reg (GPIO_OUT k) &&& d.gpioMask k

/-- GPIO_OUT[k] written: other balls' bits ignore it. -/
def Dev.gpioWrite (d : Dev) (k : Nat) (v : Word) : Dev := d.setReg (GPIO_OUT k) (v &&& d.gpioMask k)

/-- GPIO_SET (R441). -/
def execGpioSet (c : Fin 7) (k : Fin 2) (v : Word) (s : State) : Host.Outcome State Fault Refusal :=
  s.ask (.gpioSet c k v) (GPIO_SET k) fun d => d.byCore c (GPIO_SET k) true fun d => d.gpioWrite k (d.reg (GPIO_OUT k) ||| v)

/-- GPIO_CLR (R441). -/
def execGpioClr (c : Fin 7) (k : Fin 2) (v : Word) (s : State) : Host.Outcome State Fault Refusal :=
  s.ask (.gpioClr c k v) (GPIO_CLR k) fun d => d.byCore c (GPIO_CLR k) true fun d => d.gpioWrite k (d.reg (GPIO_OUT k) &&& ~~~v)

end Sys2Proof.Machine
end

