-- ==== Sys2Proof/Machine/Svc.lean ====
section
/-! DEFINITION. The image controller (chapter 22): images and their judgement, slot states, settings versions, the choice at start,
scheduled activation, switch, confirmation and fallback; the commands of SVC_CMD. -/

namespace Sys2Proof.Machine

/-! ### Status codes (Table 22.3) -/

def ssOK : Nat := 0x00
def ssACCEPTED : Nat := 0x01
def ssWAIT : Nat := 0x02
def ssCRCERR : Nat := 0x03
def ssBADTYPE : Nat := 0x04
def ssBADARG : Nat := 0x05
def ssLOCKED : Nat := 0x06
def ssSTATE : Nat := 0x07
def ssGAP : Nat := 0x08
def ssPROGFAIL : Nat := 0x09
def ssBUSFAULT : Nat := 0x0A
def ssNOKEY : Nat := 0x0B
def ssLOCKOUT : Nat := 0x0C
def ssBADHDR : Nat := 0x0D
def ssKEYHASH : Nat := 0x0E
def ssDIGEST : Nat := 0x0F
def ssFLOOR : Nat := 0x10
def ssSETVER : Nat := 0x11
def ssREV : Nat := 0x12
def ssPROTECTED : Nat := 0x13
def ssBUSY : Nat := 0x14
def ssLATE : Nat := 0x15
def ssPLANDIFF : Nat := 0x16
def ssNOTCHECKED : Nat := 0x17
def ssDEBUG : Nat := 0x18
def ssSUPPLYLOW : Nat := 0x19
def ssRNG : Nat := 0x1A
def ssRAISEFAIL : Nat := 0x1B

/-! ### Slots and headers (R416, Table 22.4) -/

/-- Full-view address of a slot's state sector. -/
def stateSector (n : Nat) : Nat := flashAt (0x007FF000 + 0x00800000 * n)

/-- The 256-byte header. -/
def Dev.imgHdr (d : Dev) (n : Nat) : List Byte := d.bytes (imgBase n) 256

def ihVersion (h : List Byte) : Nat := u32 h 0x08
def ihFloor (h : List Byte) : Nat := u32 h 0x0C
def ihLength (h : List Byte) : Nat := u32 h 0x10
def ihSetver (h : List Byte) : Nat := u16 h 0x14
def ihKeyidx (h : List Byte) : Nat := u8 h 0x16
def ihPlan (h : List Byte) : Nat := u32 h 0x18
def ihEntry (h : List Byte) (c : Nat) : Nat := u32 h (0x1C + 4 * c)
def ihId (h : List Byte) : List Byte := (h.drop 0x38).take 16
def ihDigest (h : List Byte) : List Byte := (h.drop 0x48).take 32
def ihPub (h : List Byte) : List Byte := (h.drop 0x80).take 64
def ihSig (h : List Byte) : List Byte := (h.drop 0xC0).take 64

/-- The plan an image carries. -/
def Dev.imgPlan (d : Dev) (n : Nat) : Plan :=
  let a := imgBase n + ihPlan (d.imgHdr n)
  planOf (d.planBytes a) a

/-- The ENTRY rule: in range, or 0 for a core that the image's own plan holds in reset. -/
def Dev.imgEntryOk (d : Dev) (n : Nat) (h : List Byte) (c : Nat) : Bool :=
  let e := ihEntry h c
  (e == 0 && n ≤ 1 && u8 (bodyOf (d.imgPlan n).secs tPOWER 0) (4 + c) == 0xFF)
    || (e % 4 == 0 && decide (imgRun n + 0x100 ≤ e ∧ e < imgRun n + ihLength h))

/-- The header's layout and limits, SLOT included; a boot extension differs in its LENGTH, PLANOFF and entries. -/
def Dev.imgHdrOk (d : Dev) (n : Nat) : Bool :=
  let h := d.imgHdr n
  let ext := decide (2 ≤ n)
  let p := ihPlan h
  u32 h 0 == 0x4D49584B && u16 h 4 == 1 && u8 h 6 == n && decide (1 ≤ ihVersion h ∧ ihVersion h ≤ 0xFFFFFFFE)
    && decide (ihFloor h ≤ ihVersion h) && ihLength h % 16 == 0 && decide (0x200 ≤ ihLength h ∧ ihLength h ≤ (if ext then 0x3FFF0 else 0x7BF000))
    && decide (1 ≤ ihSetver h) && decide (ihKeyidx h ≤ 3) && u8 h 0x17 == 0 && zeros h 0x68 24
    && (if ext then p == 0 else p % 4 == 0 && decide (0x100 ≤ p ∧ p < ihLength h ∧ p + planLen (d.planBytes (imgBase n + p)) ≤ ihLength h))
    && (if ext then d.imgEntryOk n h 0 else (span 0 7).all (fun c => d.imgEntryOk n h c))

/-- The public key's digest is that of its fuse hash, which is not revoked. -/
def Dev.imgKeyOk (d : Dev) (n : Nat) : Bool :=
  let h := d.imgHdr n
  let k := ihKeyidx h
  decide (sha256 (ihPub h) = d.fuseBytes (16 + 8 * k) 8) && !d.revoked k

/-- SIG over the digest of bytes 0x00 to 0xBF (R416). -/
def Dev.imgSigOk (d : Dev) (n : Nat) : Bool :=
  let h := d.imgHdr n
  ecdsaOk (ihPub h) (ihSig h) (sha256 (h.take 0xC0))

/-- DIGEST over bytes 0x100 to LENGTH − 1. -/
def Dev.imgDigestOk (d : Dev) (n : Nat) : Bool :=
  let h := d.imgHdr n
  decide (sha256 (d.bytes (imgBase n + 0x100) (ihLength h - 0x100)) = ihDigest h)

/-! ### Settings versions (R425) -/

/-- CUR and KEEP of the settings version record in force. -/
def Dev.setVers (d : Dev) : Nat × Nat :=
  let r := (span 0 256).foldl (fun (best : Option (Nat × Nat × Nat)) i =>
    let a := 0x010A0000 + 16 * i
    let b := d.bytes a 16
    let ok := u8 b 0 == 0x53 && u8 b 1 == 0x56 && u16 b 2 == 0 && u32 b 12 == crc32 (b.take 12) && d.goodWord (d.canon a)
    let later := match best with
      | none => true
      | some x => decide (x.1 < u32 b 8)
    if ok && later then some (u32 b 8, u16 b 4, u16 b 6) else best) none
  match r with
  | some x => x.2
  | none => (0, 0)

/-- SETVER is acceptable. -/
def Dev.setverOk (d : Dev) (v : Nat) : Bool :=
  let c := d.setVers
  c.1 == 0 || v == c.1 || v == c.2 || decide (c.1 < v)

/-- CHECK of a slot (R417): the first failure, or OK. -/
def Dev.imgCheck (d : Dev) (n : Nat) : Nat :=
  let h := d.imgHdr n
  if !d.imgHdrOk n then ssBADHDR
  else if !d.imgKeyOk n then ssKEYHASH
  else if d.silicon < u8 h 7 then ssREV
  else if ihVersion h < d.ctrVal 1 then ssFLOOR
  else if !d.setverOk (ihSetver h) then ssSETVER
  else if !d.imgDigestOk n then ssDIGEST
  else ssOK

/-- CHECK and its mark: OK makes the slot checked. A busy bank is not judged. -/
def Dev.imgJudge (d : Dev) (n : Nat) : Nat × Dev :=
  if d.bankBusy n then (ssBUSY, d)
  else
    let r := d.imgCheck n
    let rest := d.svc.checked.filter (· ≠ n)
    (r, { d with svc := { d.svc with checked := if r = ssOK then rest ++ [n] else rest } })

/-! ### State records (R418, Table 22.5) -/

def kiTRIAL : Nat := 1
def kiTRY : Nat := 2
def kiARMED : Nat := 3
def kiGOOD : Nat := 4
def kiSUPERSEDED : Nat := 5
def kiBAD : Nat := 6

/-- KIND of the record in word `i` of a slot's state sector, where it is valid at both margins with clean check bits. -/
def Dev.stateKind (d : Dev) (n i : Nat) : Option Nat :=
  let a := stateSector n + 16 * i
  let b := d.bytes a 16
  if u8 b 0 = 0x53 ∧ u8 b 1 = 0x54 ∧ u32 b 12 = crc32 (b.take 12) ∧ sget 0 d.flWeak (a / 16) = 0 ∧ sget [] d.flErr (a / 16) = [] then
    some (u8 b 2)
  else none

/-- The valid records, in order. -/
def Dev.stateKinds (d : Dev) (n : Nat) : List Nat := (span 0 256).filterMap (fun i => d.stateKind n i)

/-- The state of a slot: the KIND of its last valid record, 0 for NONE. -/
def Dev.slotState (d : Dev) (n : Nat) : Nat := (d.stateKinds n).getLast?.getD 0

/-- TRY records after the last TRIAL. -/
def Dev.slotTries (d : Dev) (n : Nat) : Nat :=
  (d.stateKinds n).foldl (fun k x => if x = kiTRIAL then 0 else if x = kiTRY then k + 1 else k) 0

/-- A slot on trial: TRIAL, or TRY. -/
def Dev.onTrial (d : Dev) (n : Nat) : Bool := d.slotState n == kiTRIAL || d.slotState n == kiTRY

/-- The bytes of a record. -/
def stateRecord (kind value : Nat) : List Byte :=
  let h : List Byte := [0x53, 0x54] ++ leBytes 1 kind ++ [0] ++ leBytes 8 value
  h ++ leBytes 4 (crc32 h)

/-- A record programmed in the next blank word; a full sector is erased first. `ok`: it verifies. -/
def Dev.stateProg (d : Dev) (n kind value : Nat) (ok : Bool) : Dev :=
  let a := stateSector n
  match (span 0 256).find? (fun i => d.blankWord (a + 16 * i)) with
  | some i => d.progVerify (a + 16 * i) (stateRecord kind value) ok
  | none => (d.eraseSector a).progVerify a (stateRecord kind value) ok

/-- STATE and TRIES of SVC_IMG follow the running slot. -/
def Dev.svcShow (d : Dev) : Dev :=
  let n := d.get SVC_IMG SVC_IMG_RUNNING
  if 2 ≤ n then (d.put SVC_IMG SVC_IMG_STATE 0).put SVC_IMG SVC_IMG_TRIES 0
  else (d.put SVC_IMG SVC_IMG_STATE (d.slotState n)).put SVC_IMG SVC_IMG_TRIES (if d.onTrial n then min 255 (d.slotTries n) else 0)

/-! ### The choice at start (R420) -/

/-- SYS_ENTRY takes the entries of an image. -/
def Dev.takeEntries (d : Dev) (n : Nat) : Dev :=
  let h := d.imgHdr n
  (span 0 7).foldl (fun d c => d.setReg (SYS_ENTRY c) (BitVec.ofNat 32 (ihEntry h c))) d

/-- SVC_IMG and SVC_VER for a running slot. -/
def Dev.runSlot (d : Dev) (n : Nat) : Dev :=
  let h := d.imgHdr n
  let d := (d.put SVC_IMG SVC_IMG_RUNNING n).setReg SVC_VER (BitVec.ofNat 32 (ihVersion h))
  (d.putB SVC_IMG SVC_IMG_MIGRATE (decide (d.setVers.1 ≠ 0 ∧ d.setVers.1 < ihSetver h ∧ d.setVers.2 ≠ ihSetver h))).svcShow

/-- The slots in the order in which the boot ROM tries them. -/
def Dev.bootOrder (d : Dev) : List Nat :=
  let good := [0, 1].filter (fun n => d.slotState n == kiGOOD)
  let good := if ihVersion (d.imgHdr 0) < ihVersion (d.imgHdr 1) then good.reverse else good
  [0, 1].filter (fun n => d.onTrial n) ++ good ++ [0, 1].filter (fun n => d.slotState n == kiSUPERSEDED)

/-- The plan of a slot is sown, or is in force already from a sowing of the same start-up. -/
def Dev.bootSow (d : Dev) (n : Nat) (viob : Option Nat) : Bool × Dev :=
  let a := imgBase n + ihPlan (d.imgHdr n)
  if d.sowState = swINFORCE ∧ (d.canon (d.reg SOW_SRC).toNat = a) then (true, d)
  else ((d.setReg SOW_SRC (BitVec.ofNat 32 a)).setSow swVERIFYING).sowJudge a viob

/-- Service boot: the recovery plan, and C0 and K0 halted. -/
def Dev.serviceBoot (d : Dev) : Dev :=
  let d := d.sowRecovery
  let d := ((d.put SVC_STAT SVC_STAT_SERVICE 1).put SVC_IMG SVC_IMG_RUNNING 3).setReg SVC_VER 0
  (d.svcShow.setCoreState 0 2).setCoreState 6 2

/-- The slot's image passes, and VIO_B, absent, is all that its plan fails on. -/
def Dev.bootWaits (d : Dev) (n : Nat) : Bool :=
  let a := imgBase n + ihPlan (d.imgHdr n)
  decide (d.imgCheck n = ssOK) && d.imgSigOk n && !(d.sowState == swINFORCE && d.canon (d.reg SOW_SRC).toNat == a) && d.viobOnly (d.planBytes a)

/-- The sowing of a slot's plan waits for VIO_B, the slots after it with it (R66). -/
def Dev.bootHold (d : Dev) (n : Nat) (r : List Nat) : Dev :=
  let a := imgBase n + ihPlan (d.imgHdr n)
  let d := (d.setReg SOW_SRC (BitVec.ofNat 32 a)).setSow swVERIFYING
  { d with sow := { d.sow with viobWait := some (100, a), bootLeft := n :: r } }

/-- The slots left to try; `waited`: the first has had its wait for VIO_B. -/
def Dev.bootTry (d : Dev) (viob : Option Nat) (waited : Bool) : List Nat → Dev
  | [] => d.serviceBoot
  | n :: r =>
    let trial := d.onTrial n
    if trial ∧ 3 ≤ d.slotTries n then (d.stateProg n kiBAD 0 true).bootTry viob false r
    else if viob.isNone && !waited && d.bootWaits n then d.bootHold n r
    else
      let q := if d.imgCheck n = ssOK ∧ d.imgSigOk n then d.bootSow n viob else (false, d)
      let d := q.2
      if q.1 then
        let d := if trial then d.stateProg n kiTRY (d.slotTries n + 1) true else d
        (d.takeEntries n).runSlot n
      else (if trial then d.stateProg n kiBAD 0 true else d).bootTry viob false r

/-- VIOB_MEASURE (R66): measured again; the wait ends with VIO_B present, or after 100 ms, and the sowing or the boot choice that waits goes on. -/
def execViobMeasure (viob : Option (Fin 2)) (s : State) : Host.Outcome State Fault Refusal :=
  s.run fun d =>
    let v := viob.map (fun (x : Fin 2) => x.val)
    match d.sow.viobWait with
    | none => { d with pwr := { d.pwr with vioB := v } }
    | some (n, a) =>
      if v.isNone ∧ 1 < n then { d with sow := { d.sow with viobWait := some (n - 1, a) } }
      else
        match d.sow.bootLeft with
        | [] => (d.sowJudge a v).2
        | l => d.unlessSlow <| Dev.bootTry { d with pwr := { d.pwr with vioB := v }, sow := { d.sow with bootLeft := [], viobWait := none } } v true l

/-- No boot extension runs: no twin verifies, or the active one's header or SIG fails (R420). -/
def Dev.noExt (d : Dev) : Bool :=
  let n := 2 + d.get FLC_BOOT FLC_BOOT_ACTIVE
  d.flag FLC_BOOT FLC_BOOT_NOTWIN || !d.imgHdrOk n || !d.imgSigOk n

/-- The boot ROM calls entry[0] of the extension on C0 as CALLR does (R420, R267); its stack and the address after the call are free values
(log entry 177). -/
def Dev.extCall (d : Dev) : Dev :=
  let n := 2 + d.get FLC_BOOT FLC_BOOT_ACTIVE
  let ret := BitVec.ofNat 32 (0x10000000 + 4 * (Config.romNext % 0x4000))
  let sp := BitVec.ofNat 32 (0x20000000 + 4 * (Config.romStack % 0x500000))
  let d := (d.setCore 0 { CoreSt.init with g := CoreSt.init.g.set 15 sp, pc := BitVec.ofNat 32 (ihEntry (d.imgHdr n) 0) }).setCoreState 0 1
  { d.store sp.toNat 4 ret.toNat with pwr := { d.pwr with extRet := some ret } }

/-- The rest of the choice: the slots in their order. -/
def Dev.bootSlots (d : Dev) (viob : Option Nat) : Dev := d.unlessSlow (d.bootTry viob false d.bootOrder)

/-- BOOT_CHOICE (R420), once READY is 1: a boot extension that verifies is called on C0 first, and the command given again once C0 has returned from
it makes the choice. A state record that SLOW keeps from being programmed makes it wait (R37; log entry 141); the cores are released by the
hand-off that follows. Before it sows the boot ROM loads slot 255 and renews counter 2 (R222, R231); `ins` gives VIO_B as measured and the outcomes of those raises. -/
def execBootChoice (ins : Option (Fin 2) × List Bool) (s : State) : Host.Outcome State Fault Refusal :=
  s.run fun d =>
    if d.romHidden ∨ d.pwr.phase ≠ .running ∨ !d.flag FLC_BOOT FLC_BOOT_READY ∨ d.flag SVC_STAT SVC_STAT_SERVICE ∨ d.sow.viobWait.isSome then d
    else
      let v := ins.1.map (fun (x : Fin 2) => x.val)
      match d.pwr.extRet with
      | some ret =>
        if (d.core 0).pc = ret then Dev.bootSlots { d with pwr := { d.pwr with extRet := none, extDone := true, vioB := v } } v else d
      | none =>
      let d := Dev.bootKeys { d with pwr := { d.pwr with vioB := v } } ins.2
      if d.svc.atn then d.serviceBoot
      else
        let d := d.putB SVC_IMG SVC_IMG_NOEXT d.noExt
        let d := if [0, 1].any (fun n => d.slotState n == kiARMED) then d.put SVC_IMG SVC_IMG_ARMLEFT 1 else d
        if d.flag SVC_IMG SVC_IMG_NOEXT || d.pwr.extDone then d.bootSlots v else d.extCall

/-! ### The switch (R422) -/

/-- SHA context `n` is freed; an UPDATE or FINAL that runs in it finishes (Table 22.6). -/
def Dev.shaFree (d : Dev) (n : Nat) : Dev :=
  let x := d.sha n
  if x.busy = 0 then (d.setSha n ShaCtx.init).resetReg (SHA_STAT n)
  else (d.setSha n { x with taken := false }).put (SHA_STAT n) SHA_STAT_OWNER 7

/-- The queues the switch drops (Table 22.6): descriptors not yet armed, unbound frames of child queues, queued AES jobs, SHA contexts. -/
def Dev.switchQueues (d : Dev) : Dev :=
  let d := (d.descs.filter (fun x => decide (x.stage = 0) && x.owner == .firmware)).foldl (fun (d : Dev) x => d.descEnd x csCANCELLED 0) d
  let d := d.queues.foldl (fun (d : Dev) q =>
    (q.2.filter (fun k => !d.bound.any (fun b => b.entry == q.1 && b.idx == k))).foldl (fun (d : Dev) k => d.unqueue q.1 k (some csCANCELLED) 0) d) d
  let d := { d with aesJobs := d.aesJobs.filter (fun j => j.engine.isSome) }
  (span 0 4).foldl (fun d n => d.shaFree n) d

/-- Interrupt stacks emptied without a count; EN, PRI, hold-off intervals and IRQ_LPSET retaken from the plan in force. -/
def Dev.switchIrq (d : Dev) : Dev :=
  let d := allCores.foldl (fun (d : Dev) c =>
    let l := (d.core c).stk
    l.foldl (fun (d : Dev) x => d.srcIdle x.1) (d.setCore c { d.core c with stk := [] })) d
  let b := bodyOf d.sow.force tIRQ 0
  let d := (span 0 irqSources).foldl (fun (d : Dev) n =>
    let v := BitVec.ofNat 32 (u16 b (2 * n))
    let a := IRQ_CFG n
    let d := if d.get a IRQ_CFG_EN = getF v IRQ_CFG_EN then d else d.put a IRQ_CFG_EN (getF v IRQ_CFG_EN)
    if d.get a IRQ_CFG_PRI = getF v IRQ_CFG_PRI then d else d.put a IRQ_CFG_PRI (getF v IRQ_CFG_PRI)) d
  let d := (span 0 36).foldl (fun (d : Dev) g => d.holdWrite g (BitVec.ofNat 32 (u16 b (2304 + 2 * g)))) d
  d.resetReg IRQ_LPSET

/-- Every cell FREE, without a count. -/
def Dev.switchLocks (d : Dev) : Dev := Dev.setReg (Dev.setReg { d with locks := [] } SEM_ORPH_LO 0) SEM_ORPH_HI 0

/-- Every core that PLEVEL does not hold starts from its entry, at its level in force. -/
def Dev.switchCores (d : Dev) : Dev :=
  allCores.foldl (fun (d : Dev) (c : Fin 7) =>
    if d.planLevel c = 0xFF then d
    else if d.coreState c = 0 then d.coreStart c (d.get (PWR_PLEVEL c) PWR_PLEVEL_LEVEL)
    else (d.setCore c { CoreSt.init with pc := d.reg (SYS_ENTRY c) }).setCoreState c 1) d

/-- All cores change to the image of a slot (R422). -/
def Dev.switchTo (d : Dev) (n : Nat) : Dev :=
  let d := d.switchQueues.switchLocks.switchIrq
  let d := ((d.takeEntries n).switchCores).runSlot n
  let d := { d with svc := { d.svc with armed := none, fall := false } }
  ((d.put SVC_IMG SVC_IMG_ARMED 0).put SVC_STAT SVC_STAT_SWITCHF 1).count (SVC_CNT 3)

/-- The switch of an armed activation once mesh time has reached its instant W (R204, R421, R422). -/
def Dev.imageFire (d : Dev) : Dev :=
  match d.svc.armed with
  | none => d
  | some n =>
    if atOrPast d.meshNow (d.pair SVC_WHEN_LO SVC_WHEN_HI) then
      let d := { d with svc := { d.svc with prev := d.get SVC_IMG SVC_IMG_RUNNING } }
      Dev.put { d.switchTo n with svc := { (d.switchTo n).svc with confN := 0 } } SVC_IMG SVC_IMG_CONFWAIT 1
    else d

/-- IMAGE_SWITCH (R421, R422). -/
def execImageSwitch (s : State) : Host.Outcome State Fault Refusal := s.run Dev.imageFire

/-- The BAD record of an abandoned slot, once its bank is free (R424). -/
def Dev.svcBad (d : Dev) : Dev :=
  match d.svc.bad with
  | none => d
  | some n =>
    if d.bankBusy n || !d.mayProg then d
    else Dev.svcShow { d.stateProg n kiBAD 0 true with svc := { d.svc with bad := none } }

/-- A fallback (R424): the switch back, BAD for the abandoned slot, FELLBACK, the count and the log entry. -/
def Dev.fallBack (d : Dev) : Dev :=
  if !d.flag SVC_IMG SVC_IMG_CONFWAIT then { d with svc := { d.svc with fall := false } }
  else
    let gone := d.get SVC_IMG SVC_IMG_RUNNING
    let id := idWords (ihId (d.imgHdr gone))
    let d := (d.switchTo d.svc.prev).put SVC_IMG SVC_IMG_CONFWAIT 0
    let d := Dev.svcBad { d with svc := { d.svc with bad := some gone } }
    ((d.put SVC_STAT SVC_STAT_FELLBACK 1).count (SVC_CNT 4)).report 14 0 1 (BitVec.ofNat 32 gone) id

/-- CONFWIN_S seconds of the 32.768 kHz clock have passed since the switch (R424). -/
def Dev.confOver (d : Dev) : Bool := d.flag SVC_IMG SVC_IMG_CONFWAIT && decide (32768 * d.get SVC_ARG SVC_ARG_CONFWIN_S ≤ d.svc.confN)

/-- What the image controller has due: a fallback after a double fault or at the end of the confirmation window, a BAD record whose bank was busy. -/
def Dev.svcDue (d : Dev) : Dev := (if d.svc.fall || d.confOver then d.fallBack else d).svcBad

/-- CONFIRM_WINDOW_EXPIRY (R424): once the window has run out. -/
def execConfirmWindowExpiry (s : State) : Host.Outcome State Fault Refusal := s.run fun d => if d.confOver then d.fallBack else d

/-! ### SVC_CMD (R421, R423, R427) -/

/-- A command ends: RESULT, DONE. -/
def Dev.svcEnd (d : Dev) (res : Nat) : Dev :=
  let d := { d with svc := { d.svc with cmd := none } }
  ((d.put SVC_RES SVC_RES_BUSY 0).put SVC_RES SVC_RES_RESULT res).put SVC_STAT SVC_STAT_DONE 1

/-- CLOCK, MEMORY and POWER apart from CEIL_MW are those of the plan in force (R421). -/
def Dev.planSame (d : Dev) (n : Nat) : Bool :=
  let l := (d.imgPlan n).secs
  secOf l tCLOCK 0 == secOf d.sow.force tCLOCK 0 && secOf l tMEMORY 0 == secOf d.sow.force tMEMORY 0
    && (secOf l tPOWER 0).map (fun b => b.drop 2) == (secOf d.sow.force tPOWER 0).map (fun b => b.drop 2)

/-- The instant W. -/
def Dev.svcWhen (d : Dev) : Nat := d.pair SVC_WHEN_LO SVC_WHEN_HI

/-- ARM judged (R421): the first failure, none where it is accepted. -/
def Dev.armJudge (d : Dev) (n : Nat) : Option Nat :=
  let h := d.imgHdr n
  if d.svc.armed.isSome ∨ d.flag SVC_IMG SVC_IMG_CONFWAIT then some ssSTATE
  else if d.flag SVC_STAT SVC_STAT_SESSION then some ssDEBUG
  else if d.get SVC_IMG SVC_IMG_RUNNING = n then some ssPROTECTED
  else if !d.svc.checked.contains n then some ssNOTCHECKED
  else if ihVersion h < d.ctrVal 1 then some ssFLOOR
  else if !d.setverOk (ihSetver h) then some ssSETVER
  else if !d.planSame n then some ssPLANDIFF
  else if atOrPast d.meshNow d.svcWhen then some ssLATE
  else if d.flag PWR_SUPPLY PWR_SUPPLY_SLOW then some ssSUPPLYLOW
  else none

/-- CANCEL (R421, R424). -/
def Dev.svcCancel (d : Dev) : Dev :=
  if d.flag SVC_IMG SVC_IMG_CONFWAIT then d.fallBack.svcEnd ssOK
  else if d.svc.armed.isSome then (Dev.put { d with svc := { d.svc with armed := none } } SVC_IMG SVC_IMG_ARMED 0).svcEnd ssOK
  else d.svcEnd ssSTATE

/-- A command written to SVC_CMD with its key. -/
def Dev.svcOp (d : Dev) (op : Nat) : Dev :=
  let n := d.get SVC_ARG SVC_ARG_SLOT
  if d.flag SVC_RES SVC_RES_BUSY ∨ op = 0 ∨ 4 < op then d
  else
    let d := (d.put SVC_RES SVC_RES_OP op).put SVC_RES SVC_RES_BUSY 1
    let run := { d with svc := { d.svc with cmd := some (op, n) } }
    match op with
    | 2 =>
      match d.armJudge n with
      | some r => d.svcEnd r
      | none => run
    | 3 => d.svcCancel
    | _ => run

/-- A write to SVC_CMD (Table 22.8). -/
def Dev.svcCmd (d : Dev) (v : Word) : Dev := if getF v SVC_CMD_KEY = 0x6B then d.svcOp (getF v SVC_CMD_OP) else d

/-- IMAGE_CHECK (R417). -/
def execImageCheck (c : Fin 7) (s : State) : Host.Outcome State Fault Refusal :=
  s.ask (.imageCheck c) SVC_CMD fun d => d.byCore c SVC_CMD true fun d => d.svcCmd 0x6B000001

/-- ACTIVATION_ARM (R421). -/
def execActivationArm (c : Fin 7) (s : State) : Host.Outcome State Fault Refusal :=
  s.ask (.activationArm c) SVC_CMD fun d => d.byCore c SVC_CMD true fun d => d.svcCmd 0x6B000002

/-- ACTIVATION_CANCEL (R421, R424). -/
def execActivationCancel (c : Fin 7) (s : State) : Host.Outcome State Fault Refusal :=
  s.ask (.activationCancel c) SVC_CMD fun d => d.byCore c SVC_CMD true fun d => d.svcCmd 0x6B000003

/-- IMAGE_CONFIRM (R423). -/
def execImageConfirm (c : Fin 7) (s : State) : Host.Outcome State Fault Refusal :=
  s.ask (.imageConfirm c) SVC_CMD fun d => d.byCore c SVC_CMD true fun d => d.svcCmd 0x6B000004

/-- The ARMED record has been programmed (R421): armed where it verifies before W. A busy bank ends it BUSY (log entry 151). -/
def Dev.armEnd (d : Dev) (n : Nat) (ok : Bool) : Dev :=
  if d.bankBusy n then d.svcEnd ssBUSY else
  let d := d.stateProg n kiARMED d.svcWhen ok
  if !ok then d.svcEnd ssPROGFAIL
  else if atOrPast d.meshNow d.svcWhen then d.svcEnd ssLATE
  else (Dev.put { d with svc := { d.svc with armed := some n } } SVC_IMG SVC_IMG_ARMED 1).svcEnd ssOK

/-- Steps 3 and 4 of CONFIRM (R423). -/
def Dev.confirmFloor (d : Dev) (n : Nat) (outs : List Bool) : Dev :=
  let f := ihFloor (d.imgHdr n)
  let r := if d.ctrVal 1 < f then d.raise 1 f outs else (krOK, d)
  if r.1 = krOK then (r.2.put SVC_IMG SVC_IMG_CONFWAIT 0).svcShow.svcEnd ssOK else r.2.svcShow.svcEnd ssRAISEFAIL

/-- CONFIRM of the running image (R423); `outs`: whether each record verifies, in order. -/
def Dev.confirm (d : Dev) (outs : List Bool) : Dev :=
  let n := d.get SVC_IMG SVC_IMG_RUNNING
  if 2 ≤ n then d.svcEnd ssSTATE
  else if d.slotState n = kiGOOD then d.svcEnd ssOK
  else if d.bankBusy n || (d.slotState (1 - n) == kiGOOD && d.bankBusy (1 - n)) then d.svcEnd ssBUSY
  else if d.flag PWR_SUPPLY PWR_SUPPLY_SLOW then d.svcEnd ssSUPPLYLOW
  else
    let d := d.stateProg n kiGOOD 0 (outs.headD true)
    if !(outs.headD true) then d.svcShow.svcEnd ssPROGFAIL
    else if d.slotState (1 - n) = kiGOOD then
      let ok := (outs.drop 1).headD true
      let d := d.stateProg (1 - n) kiSUPERSEDED 0 ok
      if ok then d.confirmFloor n (outs.drop 2) else d.svcShow.svcEnd ssPROGFAIL
    else d.confirmFloor n (outs.drop 1)

/-- The end of a command of SVC_CMD. -/
def Dev.svcCmdEnd (d : Dev) (outs : List Bool) : Dev :=
  match d.svc.cmd with
  | none => d
  | some (1, n) => (d.imgJudge n).2.svcEnd (d.imgJudge n).1
  | some (2, n) => d.armEnd n (outs.headD true)
  | some _ => d.confirm outs

end Sys2Proof.Machine
end

