-- ==== Sys2Proof/Machine/Writes.lean ====
section
/-! DEFINITION. A word written to a register once the bus has carried it there: a register with a command of its own runs that command;
any other follows its access codes (R14) and the limits its chapter states. The blocks PWR, SYS and SEM add theirs elsewhere. -/

namespace Sys2Proof.Machine

/-- Privilege of every core set aside: the access has passed its checks. -/
def Dev.privileged (d : Dev) : Dev := { d with cores := d.cores.map (fun x => { x with fl := setF x.fl flU 0 }) }

/-- The effect of a command of the table on the device, once the bus has let the access through; FL is no part of it. -/
def Dev.row (d : Dev) (f : State → Host.Outcome State Fault Refusal) : Dev :=
  match f ⟨d.privileged, []⟩ with
  | .next s => { s.dev with cores := Vector.ofFn (fun (i : Fin 7) => { s.dev.cores[i] with fl := d.cores[i].fl }) }
  | _ => d

/-- Free truth values for the flash programming that a register write starts (log entry 3). -/
def Dev.freeBits (d : Dev) : List Bool × Dev := ((span 0 32).map (fun i => d.free.1.getLsbD i), d.free.2)

/-- `row` for a command with outcomes of flash programming. -/
def Dev.rowOuts (d : Dev) (f : List Bool → State → Host.Outcome State Fault Refusal) : Dev := d.freeBits.2.row (f d.freeBits.1)

/-- A field written only while the new value is allowed. -/
def Dev.keepF (d : Dev) (a : Nat) (f : Fld) (v : Word) (ok : Nat → Bool) : Dev := if ok (getF v f) then d.put a f (getF v f) else d

def within (lo hi : Nat) (n : Nat) : Bool := decide (lo ≤ n ∧ n ≤ hi)

/-- SOW (R75, Table 4.21): SOW_SRC is read-only while STATE is STAGED to APPLYING, SOW_WHEN while it is ARMED. -/
def Dev.sowWrite (d : Dev) (name : String) (a : Nat) (v : Word) : Dev :=
  let st := d.get SOW_STAT SOW_STAT_STATE
  match name with
  | "SOW_CMD" => d.sowCmd v
  | "SOW_SRC" => if 2 ≤ st ∧ st ≤ 5 then d else d.plainWrite a v
  | "SOW_WHEN_LO" => if st = 3 then d else d.plainWrite a v
  | "SOW_WHEN_HI" => if st = 3 then d else d.plainWrite a v
  | _ => d.plainWrite a v

/-- CLK (R56, R58, Table 3.8). -/
def Dev.clkWrite (d : Dev) (name : String) (i a : Nat) (v : Word) : Dev :=
  match name with
  | "CLK_FAILCFG" => d.failcfgWrite v
  | "CLK_GATEEN" => d.gateenWrite i v
  | _ => d.plainWrite a v

/-- IRQ (R325, R331, Table 16.3). -/
def Dev.irqWrite (d : Dev) (c : Fin 7) (name : String) (i a : Nat) (v : Word) : Dev :=
  match name with
  | "IRQ_PEND" => d.pendWrite i v false
  | "IRQ_SWPEND" => d.pendWrite i v true
  | "IRQ_HOLD" => d.holdWrite i v
  | "IRQ_EOI" => d.irqEoi c (getF v IRQ_EOI_SRC)
  | "IRQ_LPSET" => d.plainWrite a (v &&& 0x3F)
  | _ => d.plainWrite a v

/-- Bits of HDL_SEEN[k] and HDL_CHLVL[k] that core `c` neither sees nor clears: secure channels of another owner (R342). -/
def Dev.hdlSecret (d : Dev) (c k : Nat) : Word :=
  (span 0 32).foldl (fun (w : Word) i => if (hlAttr d.hl (32 * k + i)).testBit 1 && d.notOwner c (32 * k + i) then putBit w i true else w) 0

/-- HDL (R339, R340, R342). -/
def Dev.hdlWrite (d : Dev) (c : Fin 7) (name : String) (i a : Nat) (v : Word) : Dev :=
  match name with
  | "HDL_FIRE" => (d.count (HDL_CNT 2)).chPulse (getF v HDL_FIRE_CH) false
  | "HDL_LUT" => d.lutWrite i (getF v HDL_LUT_LUT)
  | "HDL_GRPSET" => d.groupWrite (getF v HDL_GRPSET_GRP) true
  | "HDL_GRPCLR" => d.groupWrite (getF v HDL_GRPCLR_GRP) false
  | "HDL_SEEN" => d.plainWrite a (v &&& ~~~(d.hdlSecret c i))
  | _ => d.plainWrite a v

/-- TMR (R348, R350, R355): STOP wins over START. -/
def Dev.tmrWrite (d : Dev) (name : String) (i a : Nat) (v : Word) : Dev :=
  match name with
  | "TMR_CTL" => d.tmrCtlWrite i v
  | "TMR_CNT_LO" => d.tmrStage i .cnt v
  | "TMR_CNT_HI" => d.tmrCommit i .cnt v
  | "TMR_PER_LO" => d.tmrStage i .per v
  | "TMR_PER_HI" => d.tmrCommit i .per v
  | "TMR_CMP_LO" => d.tmrStage (i / 2) (if i % 2 = 0 then .cmp0 else .cmp1) v
  | "TMR_CMP_HI" => d.tmrCommit (i / 2) (if i % 2 = 0 then .cmp0 else .cmp1) v
  | "TMR_GCMD" => if getF v TMR_GCMD_STOP = 1 then d.tmrGroupStop else if getF v TMR_GCMD_START = 1 then d.tmrGroupStart else d
  | _ => d.plainWrite a v

/-- RTC (R357, R363, R364, R366). -/
def Dev.rtcWrite (d : Dev) (c : Fin 7) (name : String) (i a : Nat) (v : Word) : Dev :=
  let armed := d.flag RTC_CTL RTC_CTL_ALEN
  match name with
  | "RTC_CTL" => d.plainWrite a (if getF v RTC_CTL_TICKSEL ≤ 5 then v else setF v RTC_CTL_TICKSEL (d.get RTC_CTL RTC_CTL_TICKSEL))
  | "RTC_TIME" => d.calWrite false v
  | "RTC_DATE" => d.calWrite true v
  | "RTC_ALTIME" => if armed then d else d.plainWrite a v
  | "RTC_ALDATE" => if armed then d else d.plainWrite a v
  | "RTC_CURVE" => (d.plainWrite a v).put RTC_STAT RTC_STAT_CURVEOK 0
  | "RTC_ATCTL" => d.row (execAonTimerWrite c (Fin.ofNat 8 i) false v)
  | "RTC_ATLOAD" => d.row (execAonTimerWrite c (Fin.ofNat 8 i) true v)
  | _ => d.plainWrite a v

/-- FLC (R322). -/
def Dev.flcWrite (d : Dev) (c : Fin 7) (name : String) (i a : Nat) (v : Word) : Dev :=
  let busy (b : Nat) (d : Dev) : Dev := if d.flag (FLC_STAT b) FLC_STAT_BUSY then d else d.plainWrite a v
  match name with
  | "FLC_CMD" => if getF v FLC_CMD_KEY = 0x9C ∧ 1 ≤ getF v FLC_CMD_OP ∧ getF v FLC_CMD_OP ≤ 7 then d.flcCmd c i (getF v FLC_CMD_OP) else d
  | "FLC_ADDR" => busy i d
  | "FLC_BUF" => busy i d
  | "FLC_ARG" => busy i d
  | "FLC_DATA" => busy (i / 4) d
  | _ => d.plainWrite a v

/-- CAL (R386, Table 20.5) and ERL (R447). -/
def Dev.calErlWrite (d : Dev) (name : String) (a : Nat) (v : Word) : Dev :=
  match name with
  | "CAL_CMD" => if getF v CAL_CMD_KEY = 0xB4 then d.calCmd (getF v CAL_CMD_OP) (getF v CAL_CMD_CHAIN) else d
  | "ERL_STAT" => if getF v ERL_STAT_OVF = 1 then d.ovfClear else d
  | _ => d.plainWrite a v

/-- RFC, SYN and COX (R80, R81, R83, R85, R86, R93). -/
def Dev.radioWrite (d : Dev) (c : Fin 7) (name : String) (i a : Nat) (v : Word) : Dev :=
  match name with
  | "RFC_RXCTL" =>
    if getF v RFC_RXCTL_ON = 1 then d.row (execRxChainOn c (Fin.ofNat 4 i) v) else d.row (execRxChainOff c (Fin.ofNat 4 i) v)
  | "RFC_MCTAP" => d.mctapWrite i v
  | "RFC_ANT" => d.row (execAntennaWrite c (decide (getF v RFC_ANT_SEL = 1)))
  | "RFC_PWRTAB" => d.pwrtabWrite (i / 64) (i % 64) v
  | "SYN_CALF" => d.calfWrite (i / 256) (i % 256) (getF v SYN_CALF_FREQ_KHZ)
  | _ => d.plainWrite a v

/-- A write to DET_CTL[c]: one that enables the detector of a READY chain asks for its reservation; refused, EN stays 0 (R40; log entry 164). -/
def Dev.detCtlWrite (d : Dev) (c : Nat) (v : Word) : Dev :=
  let a := DET_CTL c
  let up := getF v DET_CTL_EN = 1 ∧ d.get a DET_CTL_EN = 0 ∧ d.rxReady c
  let d := d.plainWrite a v
  if up then
    let r := d.detAsk c
    if r.1 then r.2 else r.2.put a DET_CTL_EN 0
  else d

/-- DET, FUR, MCX, DEC and UNW (R139, R144, R146, R147, R155, R160, R169, R171, R172). SWEN is written by L0, L1, C0 and K0 only. -/
def Dev.recvWrite (d : Dev) (c : Fin 7) (name : String) (i a : Nat) (v : Word) : Dev :=
  match name with
  | "DET_CTL" => d.detCtlWrite i (if c = 0 ∨ 4 ≤ c then v else setF v DET_CTL_SWEN (d.get a DET_CTL_SWEN))
  | "FUR_CTL" =>
    let d := if getF v FUR_CTL_RELEASE = 1 then d.furrowRelease i else d
    if getF v FUR_CTL_ABORT = 1 then d.furrowAbort i else d
  | "MCX_CTL" => d.mcxWrite i v
  | "DEC_CTL" => if getF v DEC_CTL_ON = 1 then d.row (execPoolOn c) else d.row (execPoolOff c)
  | "DEC_CFG" =>
    let d := d.put a DEC_CFG_STALL (getF v DEC_CFG_STALL)
    let d := d.keepF a DEC_CFG_DS_SHARE v (within 1 8)
    [DEC_CFG_ITERMAX_MC, DEC_CFG_ITERMAX_SC, DEC_CFG_ITERMAX_HDR].foldl (fun (d : Dev) f => d.keepF a f v (within 1 32)) d
  | "DEC_FSFREE" => d.row (execRecordGiveBack c v)
  | "UNW_CTL" => if getF v UNW_CTL_ON = 1 then d.row (execUnwindOn c) else d.row (execUnwindOff c)
  | "UNW_ABORT" => d.row (execSlotAbort c v)
  | "UNW_CFG" => (d.put a UNW_CFG_OPENFLOOR (getF v UNW_CFG_OPENFLOOR)).keepF a UNW_CFG_MAXPAGES v (within 1 4096)
  | "UNW_REWAIT" => d.keepF a UNW_REWAIT_REWAIT v (within 1 1000)
  | _ => d.plainWrite a v

/-- LNK (R185, R190, R195, Table 9.5). -/
def Dev.lnkWrite (d : Dev) (c : Fin 7) (name : String) (a : Nat) (v : Word) : Dev :=
  match name with
  | "LNK_TA" => d.keepF a ⟨15, 0⟩ v (within 100 10000)
  | "LNK_TAMC" => d.keepF a ⟨15, 0⟩ v (within 40 1000)
  | "LNK_TXSUB" => d.row (execTxSubmit c v)
  | "LNK_QOP" =>
    let op := getF v LNK_QOP_OP
    if 1 ≤ op ∧ op ≤ 4 then d.qop (getF v LNK_QOP_ENTRY) op else d
  | "LNK_TXFCNT" => d.row (execTxfcntWrite c v)
  | _ => d.plainWrite a v

/-- FLD (R200, R205, R213, R216): a field outside its stated range is left unchanged. -/
def Dev.fldWrite (d : Dev) (name : String) (i a : Nat) (v : Word) : Dev :=
  match name with
  | "FLD_CFG" =>
    let d := [FLD_CFG_BACKSTEP, FLD_CFG_BEACON, FLD_CFG_TIMEROOT, FLD_CFG_RELAY].foldl (fun (d : Dev) f => d.put a f (getF v f)) d
    let d := (d.keepF a FLD_CFG_SUPK v (· != 1)).keepF a FLD_CFG_MICLEN v (within 0 2)
    d.keepF a FLD_CFG_LIFE_S v (within 16 255)
  | "FLD_DELAY" => (d.put a FLD_DELAY_DMIN_MS (getF v FLD_DELAY_DMIN_MS)).keepF a FLD_DELAY_DSPAN_MS v (within 1 65535)
  | "FLD_BCN" =>
    let d := d.keepF a FLD_BCN_BCNINT_MS v (within 100 65535)
    d.keepF a FLD_BCN_BCNOFS_MS v (fun n => decide (n < d.get a FLD_BCN_BCNINT_MS))
  | "FLD_TIME" => (d.keepF a FLD_TIME_AGEMAX_S v (within 1 255)).keepF a FLD_TIME_STEPTHR_US v (within 20 4095)
  | "FLD_CMD" => d.fldCmd v
  | "FLD_ORIG" => d.originate (v.toNat / 32 * 32)
  | "FLD_ALARMCTL" => d.alarmCtl v
  | "FLD_ALARM_LO" => d.alarmWrite i a v
  | "FLD_ALARM_HI" => d.alarmWrite i a v
  | _ => d.plainWrite a v

/-- KEY, AES and SHA (R221, R236, R240). -/
def Dev.keepWrite (d : Dev) (c : Fin 7) (name : String) (i a : Nat) (v : Word) : Dev :=
  match name with
  | "KEY_CMD" =>
    if getF v KEY_CMD_KEY ≠ 0xA5 then d
    else
      let s := Fin.ofNat 256 (getF v KEY_CMD_SLOT)
      match getF v KEY_CMD_OP with
      | 1 => d.rowOuts (execKeyLoad c s)
      | 2 => d.rowOuts (execKeyLoadname c s)
      | 3 => d.row (execKeyUnload c s)
      | 4 => d.rowOuts (execKeyGenerate c s)
      | 5 => d.rowOuts (execKeyRaise c)
      | 6 => d.row (execKeyRevoke c)
      | _ => d
  | "AES_SUB" => d.row (execAesJobSubmit c v)
  | "SHA_CMD" =>
    match getF v SHA_CMD_OP with
    | 1 => d.row (execShaStart c (Fin.ofNat 4 i))
    | 2 => d.row (execShaUpdate c (Fin.ofNat 4 i))
    | 3 => d.row (execShaFinal c (Fin.ofNat 4 i))
    | _ => d
  | _ => d.plainWrite a v

/-- LGR (R249 to R255): the lookup registers are each core's own. -/
def Dev.lgrWrite (d : Dev) (c : Fin 7) (name : String) (a : Nat) (v : Word) : Dev :=
  match name with
  | "LGR_ORIGIN" => d.originWrite v
  | "LGR_APPEND" => d.lgrQueue ⟨0, c, v.toNat / 16 * 16⟩
  | "LGR_VERIFY" => d.lgrQueue ⟨1, c, v.toNat / 16 * 16⟩
  | "LGR_ARCH" => d.lgrQueue ⟨2, c, v.toNat⟩
  | "LGR_LOOK_LO" => d.setReg (banked c a) v
  | "LGR_LOOK_HI" => d.lookWrite c v
  | "LGR_DIRCMD" =>
    if getF v LGR_DIRCMD_KEY ≠ 0x3C then d
    else match getF v LGR_DIRCMD_OP with
      | 1 => d.dirInsert
      | 2 => d.dirRemove
      | 3 => d.dirClear
      | _ => d
  | _ => d.plainWrite a v

/-- NFC (R404, R406) and SVC (R427). -/
def Dev.nfcSvcWrite (d : Dev) (name : String) (a : Nat) (v : Word) : Dev :=
  match name with
  | "NFC_CMD" => if getF v NFC_CMD_KEY = 0xD2 then d.nfcCmd (getF v NFC_CMD_OP) else d
  | "NFC_TORN" => d.count (NFC_CNT 6)
  | "NFC_STAT" => d.plainWrite a v
  | "NFC_CTL" => d.nfcWrite a v
  | "NFC_INV" => d.nfcWrite a v
  | "NFC_BUF" => d.nfcWrite a v
  | "NFC_LEN" => d.nfcWrite a v
  | "NFC_RXADDR" => d.nfcWrite a v
  | "SVC_CMD" => d.svcCmd v
  | "SVC_ARG" => (d.put a SVC_ARG_SLOT (getF v SVC_ARG_SLOT)).keepF a SVC_ARG_CONFWIN_S v (within 1 65535)
  | "SVC_WHEN_LO" => if d.flag SVC_IMG SVC_IMG_ARMED then d else d.plainWrite a v
  | "SVC_WHEN_HI" => if d.flag SVC_IMG SVC_IMG_ARMED then d else d.plainWrite a v
  | _ => d.plainWrite a v

/-- HST, I2C, SPI, UART, GPIO and FLN (chapter 23, R28, R31). A byte on a bus that no command has reported stays unmoved. -/
def Dev.ioWrite (d : Dev) (name : String) (i a : Nat) (v : Word) : Dev :=
  match name with
  | "HST_WINB" => d.hostWinWrite a i v
  | "HST_WINC" => d.hostWinWrite a i v
  | "I2C_CFG" => d.i2cCfg i v
  | "I2C_CMD" => d.i2cCmd i v
  | "I2C_DATA" => d.i2cPush i (v.setWidth 8)
  | "SPI_CFG" => d.spiCfg v []
  | "SPI_XFER" => d.spiStart v
  | "UART_CFG" => (d.plainWrite a v).uartKick i
  | "UART_DATA" => d.uartPush i (v.setWidth 8)
  | "GPIO_OUT" => d.gpioWrite i v
  | "GPIO_SET" => d.gpioWrite i (d.reg (GPIO_OUT i) ||| v)
  | "GPIO_CLR" => d.gpioWrite i (d.reg (GPIO_OUT i) &&& ~~~v)
  | "FLN_CFG" => d.flnWrite i v
  | "FLN_FLT" => d.fltClear v
  | _ => d.plainWrite a v

/-- A word that core `c` writes to the register named `name`, element `i`, of a block other than PWR, SYS, SEM and CHT. -/
def Dev.namedWrite (d : Dev) (c : Fin 7) (block name : String) (i a : Nat) (v : Word) : Dev :=
  match block with
  | "CLK" => d.clkWrite name i a v
  | "SOW" => d.sowWrite name a v
  | "IRQ" => d.irqWrite c name i a v
  | "HDL" => d.hdlWrite c name i a v
  | "TMR" => d.tmrWrite name i a v
  | "RTC" => d.rtcWrite c name i a v
  | "FLC" => d.flcWrite c name i a v
  | "CAL" => d.calErlWrite name a v
  | "ERL" => d.calErlWrite name a v
  | "RFC" => d.radioWrite c name i a v
  | "SYN" => d.radioWrite c name i a v
  | "DET" => d.recvWrite c name i a v
  | "FUR" => d.recvWrite c name i a v
  | "MCX" => d.recvWrite c name i a v
  | "DEC" => d.recvWrite c name i a v
  | "UNW" => d.recvWrite c name i a v
  | "LNK" => d.lnkWrite c name a v
  | "FLD" => d.fldWrite name i a v
  | "KEY" => d.keepWrite c name i a v
  | "AES" => d.keepWrite c name i a v
  | "SHA" => d.keepWrite c name i a v
  | "LGR" => d.lgrWrite c name a v
  | "NFC" => d.nfcSvcWrite name a v
  | "SVC" => d.nfcSvcWrite name a v
  | "HST" => d.ioWrite name i a v
  | "I2C" => d.ioWrite name i a v
  | "SPI" => d.ioWrite name i a v
  | "UART" => d.ioWrite name i a v
  | "GPIO" => d.ioWrite name i a v
  | "FLN" => d.ioWrite name i a v
  | _ => d.plainWrite a v

/-- A word written at a peripheral address of a block other than PWR, SYS and SEM. -/
def Dev.regWrite (d : Dev) (c : Fin 7) (a : Nat) (v : Word) : Dev :=
  match blockAt a with
  | none => d
  | some b =>
    if b.name == "CHT" then
      let o := (a - b.base) / 4
      d.chtWrite (2048 * d.get LNK_CHTPAGE LNK_CHTPAGE_PAGE + o / 8) (o % 8) v
    else match regAt a with
      | none => d
      | some (r, i) => d.namedWrite c b.name r.name i a v

/-- A register refuses the writer for a reason of its own (R240, R342): the privilege syndrome. -/
def Dev.writeDenied (d : Dev) (c : Fin 7) (a : Nat) (v : Word) : Bool :=
  match regAt a with
  | none => false
  | some (r, i) =>
    match r.name with
    | "HDL_FIRE" => d.fireDenied c (getF v HDL_FIRE_CH)
    | "HDL_LUT" => d.lutDenied c i
    | "HDL_GRPSET" => d.groupDenied c (getF v HDL_GRPSET_GRP)
    | "HDL_GRPCLR" => d.groupDenied c (getF v HDL_GRPCLR_GRP)
    | "SHA_CMD" => decide (2 ≤ getF v SHA_CMD_OP) && d.get (SHA_STAT i) SHA_STAT_OWNER != c.val && d.get (SHA_STAT i) SHA_STAT_OWNER != 7
    | _ => false

end Sys2Proof.Machine
end

