-- ==== Sys2Proof/Machine/Cores.lean ====
section
/-! DEFINITION. Caches and writeback buffers, lock cells, and the reset of one core (chapter 14). -/

namespace Sys2Proof.Machine

/-! ### Caches (R291 to R294)

What a cache holds is what memory shows, so only which lines it holds, and how, is kept. Which line leaves a full set the manual leaves open: the one
used least recently does (log entry 169). -/

def inRom (a : Nat) : Bool := decide (0x10000000 ≤ a ∧ a < 0x10010000)
def inGeneral (a : Nat) : Bool := decide (0x20000000 ≤ a ∧ a < 0x21400000)
/-- Caches hold general SRAM outside the carve, flash and the boot ROM (R291). -/
def Dev.cacheable (d : Dev) (a : Nat) : Bool := (inGeneral a && !d.inCarve a) || flashAddr a || inRom a

def Dev.l1 (d : Dev) (c : Fin 7) : CacheSt := sget CacheSt.init d.caches c

/-- Another core reads the line: a copy becomes shared, a dirty one merged first, and a writeback that waits is void (Table 14.6, R294). -/
def CacheSt.snooped (x : CacheSt) (l : Nat) : CacheSt :=
  { x with data := x.data.map (fun e => if e.1 = l then (l, .s) else e), wb := x.wb.map (fun e => (e.1, e.2 || e.1 == l)) }

/-- The core has the line modified, in its cache or in its writeback buffer. -/
def CacheSt.holdsDirty (x : CacheSt) (l : Nat) : Bool := x.data.contains (l, .m) || x.wb.contains (l, false)

/-- A set of `ways` with line `l` put in front: what stays, and the line that leaves. -/
def setFill {α : Type} (num : α → Nat) (sets ways : Nat) (v : α) (old : List α) : List α × Option α :=
  let rest := old.filter (fun e => num e != num v)
  let mates := rest.filter (fun e => num e % sets == num v % sets)
  match if ways ≤ mates.length then mates.getLast? else none with
  | none => (v :: rest, none)
  | some x => (v :: rest.filter (fun e => num e != num x), some x)

/-- The carve takes a line, dirty where it has merged a dirty copy; the line that leaves takes its first-level copies with it (R293). -/
def Dev.carveFill (d : Dev) (l : Nat) (dirty : Bool) : Dev :=
  let sets := d.plan16 tMEMORY 0 0
  if sets = 0 then d
  else
    let r := setFill (fun (e : Nat × Bool) => e.1) sets 16 (l, dirty || d.carve.contains (l, true)) d.carve
    let d := { d with carve := r.1 }
    match r.2 with
    | none => d
    | some v => { d with caches := d.caches.map (fun e => if e.1 = 6 then e else (e.1, e.2.gone (· == v.1))) }

/-- The misses of every core but K0 go through the carve. -/
def Dev.below (d : Dev) (c : Fin 7) (l : Nat) (dirty : Bool) : Dev := if c = 6 then d else d.carveFill l dirty

/-- A modified line leaves a core's data cache for its writeback buffer of 8 entries; of nine the oldest is taken. A clean one leaves with a notice. -/
def CacheSt.evict (x : CacheSt) (v : Option (Nat × Mesi)) : CacheSt :=
  match v with
  | some (l, .m) => { x with wb := x.wb.drop (x.wb.length - 7) ++ [(l, false)] }
  | _ => x

/-- Core `c` has data line `l` for a load, or for a store that makes it modified (R292, R294): other cores are snooped, an entry of its own writeback
buffer is taken first, and a miss fills the line. -/
def Dev.dataLine (d : Dev) (c : Fin 7) (store : Bool) (l : Nat) : Dev :=
  let others := d.caches.filter (fun e => e.1 != c.val)
  let shared := others.any (fun e => e.2.data.any (fun y => y.1 == l))
  let seen (e : Nat × CacheSt) : Nat × CacheSt := if e.1 = c.val then e else (e.1, if store then e.2.gone (· == l) else e.2.snooped l)
  let d := { d with caches := d.caches.map seen }
  let x := d.l1 c
  let d := d.below c l (others.any (fun e => e.2.holdsDirty l) || x.wb.contains (l, false))
  let x := d.l1 c
  let x := { x with wb := x.wb.filter (fun (e : Nat × Bool) => e.1 != l) }
  let st : Mesi := if store then .m else ((x.data.find? (fun (e : Nat × Mesi) => e.1 == l)).map (fun e => e.2)).getD (if shared then .s else .e)
  let r := setFill (fun (e : Nat × Mesi) => e.1) 64 8 (l, st) x.data
  { d with caches := sset CacheSt.init d.caches c ({ x with data := r.1 }.evict r.2) }

/-- Core `c` fetches from line `l`. -/
def Dev.insnLine (d : Dev) (c : Fin 7) (l : Nat) : Dev :=
  let d := d.below c l (d.caches.any (fun e => e.2.holdsDirty l))
  let x := d.l1 c
  { d with caches := sset CacheSt.init d.caches c { x with insn := (setFill id 64 8 l x.insn).1 } }

/-- The lines of an access of `n` bytes pass through the caches. -/
def Dev.cached (d : Dev) (c : Fin 7) (store : Bool) (a n : Nat) : Dev :=
  if d.cacheable a then ((span a n).map (fun y => d.canon y / 64)).eraseDups.foldl (fun (d : Dev) l => d.dataLine c store l) d else d

/-! ### Lock cells (R296, R298, Table 14.10) -/

def Dev.lock (d : Dev) (n : Nat) : Lock := sget Lock.free d.locks n
def Dev.setLock (d : Dev) (n : Nat) (x : Lock) : Dev := { d with locks := sset Lock.free d.locks n x }

/-- Holder of a cell; 7 none. -/
def Lock.owner : Lock → Nat
  | .held c => c
  | _ => 7

/-- The word a take or a rescue returns. -/
def semWord (result owner : Nat) : Word := mkWord [(SEM_TAKE_RESULT, result), (SEM_TAKE_OWNER, owner)]

/-- A read of SEM_TAKE[n] by core `c`. -/
def Dev.semTake (d : Dev) (c n : Nat) : Dev :=
  match d.lock n with
  | .free => { d.setLock n (.held c) with rdata := semWord 0 c }
  | .held h => if h = c then { d with rdata := semWord 1 c } else { d.count (SEM_CNT 0) with rdata := semWord 2 h }
  | .orphaned _ => { d with rdata := semWord 3 7 }

/-- A read of SEM_RESCUE[n] by core `c`. -/
def Dev.semRescue (d : Dev) (c n : Nat) : Dev :=
  match d.lock n, (d.get SEM_CFG SEM_CFG_RESCUE).testBit c with
  | .orphaned _, true =>
    let d := d.setLock n (.held c)
    let d := if n < 32 then d.put SEM_ORPH_LO ⟨n, n⟩ 0 else d.put SEM_ORPH_HI ⟨n - 32, n - 32⟩ 0
    { d with rdata := semWord 4 c }
  | x, _ => { d with rdata := semWord 5 x.owner }

/-- A write to SEM_GIVE[n] by core `c`. -/
def Dev.semGive (d : Dev) (c n : Nat) (v : Word) : Dev :=
  if getF v SEM_GIVE_GIVE = 0 then d
  else if d.lock n = .held c then d.setLock n .free
  else d.count (SEM_CNT 1)

/-- SEM_STAT[n]. -/
def Dev.semStat (d : Dev) (n : Nat) : Word :=
  match d.lock n with
  | .free => mkWord [(SEM_STAT_OWNER, 7)]
  | .held c => mkWord [(SEM_STAT_HELD, 1), (SEM_STAT_OWNER, c)]
  | .orphaned c => mkWord [(SEM_STAT_ORPHAN, 1), (SEM_STAT_OWNER, c)]

/-- SEM_TAKE (R296). -/
def execSemTake (c : Fin 7) (n : Fin 64) (s : State) : Host.Outcome State Fault Refusal :=
  s.run fun d => d.byCore c (SEM_TAKE n) false fun d => d.semTake c n

/-- SEM_GIVE (R296). -/
def execSemGive (c : Fin 7) (n : Fin 64) (v : Word) (s : State) : Host.Outcome State Fault Refusal :=
  s.run fun d => d.byCore c (SEM_GIVE n) true fun d => d.semGive c n v

/-- SEM_RESCUE (R296). -/
def execSemRescue (c : Fin 7) (n : Fin 64) (s : State) : Host.Outcome State Fault Refusal :=
  s.run fun d => d.byCore c (SEM_RESCUE n) false fun d => d.semRescue c n

/-! ### Reset of one core (R287) -/

/-- Step 1 for core `n`: a bit for a core held in reset, or already draining, is ignored. -/
def Dev.drainCore (d : Dev) (n : Fin 7) : Dev :=
  if d.planLevel n = 0xFF ∨ d.coreState n = 0 ∨ d.coreState n = 4 then d
  else (d.setCore n { d.core n with draining := true }).setCoreState n 4

/-- A write to SYS_CORERST. -/
def Dev.corerstWrite (d : Dev) (v : Word) : Dev :=
  if getF v SYS_CORERST_KEY ≠ 0x5A then d
  else allCores.foldl (fun (d : Dev) (n : Fin 7) => if testBit v n then d.drainCore n else d) d

/-- CORE_RESET (R287, R300). -/
def execCoreReset (c : Fin 7) (v : Word) (s : State) : Host.Outcome State Fault Refusal :=
  s.run fun d => d.byCore c SYS_CORERST true fun d => d.corerstWrite v

/-- CORE_RESTART (R287, R298, R332): the cells it held are orphaned, its interrupt stack is emptied, its lines are written back, and it
restarts from its entry at the level it had. -/
def execCoreRestart (n : Fin 7) (s : State) : Host.Outcome State Fault Refusal :=
  s.run fun d =>
    if d.coreState n ≠ 4 then d
    else
      let d := (d.orphanCells n).irqCoreReset n
      ((d.setCore n { CoreSt.init with pc := d.reg (SYS_ENTRY n) }).setCoreState n 1).cacheLost n

/-- WRITEBACK_ARRIVAL (R294): the ordering point takes a writeback of core `c`, into the carve where its misses go through it, or drops a void one; a
line that had not left its cache, as a line may at any time (R291), leaves it with this arrival, a clean one by its notice. Memory shows every store at
once either way. -/
def execWritebackArrival (c : Fin 7) (line : Nat) (s : State) : Host.Outcome State Fault Refusal :=
  s.run fun d =>
    let x := d.l1 c
    let d := d.when (x.holdsDirty line) (fun d => d.below c line true)
    let y := d.l1 c
    { d with caches := sset CacheSt.init d.caches c { y with data := y.data.filter (fun e => e.1 != line), wb := y.wb.filter (fun e => e.1 != line) } }

end Sys2Proof.Machine
end

