-- ==== Sys2Proof/Machine/Power.lean ====
section
/-! DEFINITION. Power states and performance levels (chapter 19): levels of the cores, requests, participants and rollback, retention,
wakes, LISTEN windows and INSPECT. -/

namespace Sys2Proof.Machine

/-! ### Performance levels (R367) -/

/-- A refusal of a level write. -/
def Dev.levelRefuse (d : Dev) (t err : Nat) : Dev := d.put (PWR_PLEVEL t) PWR_PLEVEL_ERR err

/-- The next change of a level begins where none runs: changes are applied one at a time, in ascending core number. A lowering switches the clock
first, a raise at its end. -/
def Dev.levelNext (d : Dev) : Dev :=
  if d.pwr.lvlRun.isSome then d
  else
    match (span 0 7).find? (fun c => d.flag (PWR_PLEVEL c) PWR_PLEVEL_BUSY) with
    | none => d
    | some c =>
      let a := PWR_PLEVEL c
      let n := d.get a PWR_PLEVEL_LEVEL
      let d : Dev := { d with pwr := { d.pwr with lvlRun := some c } }
      d.when (decide (d.get a PWR_PLEVEL_CUR < n)) (fun d => d.put a PWR_PLEVEL_CUR n)

/-- A write to PWR_PLEVEL[t]: the reservation of a raise is taken at once, the difference of a lowering is kept until its end. -/
def Dev.levelWrite (d : Dev) (t : Nat) (v : Word) : Dev :=
  let a := PWR_PLEVEL t
  let new := getF v PWR_PLEVEL_LEVEL
  let old := d.get a PWR_PLEVEL_LEVEL
  if d.flag a PWR_PLEVEL_BUSY then d
  else if d.planLevel t = 0xFF then d.levelRefuse t 3
  else if new = old then d
  else if old < new then ((d.put a PWR_PLEVEL_LEVEL new).put a PWR_PLEVEL_BUSY 1).levelNext
  else if d.flag PWR_MON PWR_MON_OVER then d.levelRefuse t 2
  else
    let r := d.requestResv (resvCore t) (coreMw new) (26 + t)
    if r.1 then ((r.2.put a PWR_PLEVEL_LEVEL new).put a PWR_PLEVEL_BUSY 1).levelNext else r.2.levelRefuse t 1

/-- VDD_CORE has the voltage of core `t`'s level: its reservation is that of the level and BUSY clears. -/
def Dev.levelEnd (d : Dev) (t : Nat) : Dev :=
  let a := PWR_PLEVEL t
  let n := d.get a PWR_PLEVEL_LEVEL
  ((d.put a PWR_PLEVEL_CUR n).put a PWR_PLEVEL_BUSY 0).setResv (resvCore t) (coreMw n)

/-- LEVEL_CHANGE (R367). -/
def execLevelChange (c t : Fin 7) (v : Word) (s : State) : Host.Outcome State Fault Refusal :=
  s.run fun d => d.byCore c (PWR_PLEVEL t) true fun d => d.levelWrite t v

/-- LEVEL_CHANGE_END (R367): of the change that runs, or of a forced drop; the next change then begins. -/
def execLevelChangeEnd (t : Fin 7) (s : State) : Host.Outcome State Fault Refusal :=
  s.run fun d =>
    let a := PWR_PLEVEL t
    if !d.flag a PWR_PLEVEL_BUSY then d
    else if d.pwr.lvlRun = some t.val then
      let d := d.levelEnd t
      Dev.levelNext { d with pwr := { d.pwr with lvlRun := none } }
    else if d.get a PWR_PLEVEL_LEVEL = d.get a PWR_PLEVEL_CUR then d.levelEnd t
    else d

/-! ### Participants (R368, R370, Table 19.1) -/

/-- Codes of PWR_REQ.STATE; PWR_STAT.STATE takes the first two, and 3 in FALLOW, which nothing can read. -/
def psIDLE : Nat := 1
def psLISTEN : Nat := 2
def psFALLOW : Nat := 3
def psOFF : Nat := 4

def Dev.pwrState (d : Dev) : Nat := d.get PWR_STAT PWR_STAT_STATE
def Dev.setPwrState (d : Dev) (v : Nat) : Dev := d.put PWR_STAT PWR_STAT_STATE v

/-- Field of a block (Tables 14.1 and 14.4): 7 the RF die. FLSH, CALM and SOWE lie in the control field. -/
def partField (b : Nat) : Nat :=
  if b ≤ 4 then 2 else if b = 5 then 3 else if b ≤ 7 then 4 else if b ≤ 11 then 5 else if b = 12 then 1 else if b ≤ 21 then 6
  else if b ≤ 23 then 7 else if b ≤ 29 then 1 else if b ≤ 31 then 4 else 5

/-- The core a block number names. -/
def partCore (b : Nat) : Option Nat := if 26 ≤ b ∧ b ≤ 32 then some (b - 26) else none

/-- The core runs: not in reset, not stopped by a double fault. -/
def Dev.running (d : Dev) (c : Nat) : Bool := d.coreState c != 0 && d.coreState c != 3

/-- The participants of an entry, in ascending number; `window`: of the close of a LISTEN window. SOWE is asked in a drain whatever the
target (R78). -/
def Dev.participants (d : Dev) (target : Nat) (window : Bool) : List Nat :=
  (span 0 33).filter (fun b =>
    if window then partField b == 2 || partField b == 3
    else if target = psFALLOW ∨ target = psOFF then true
    else if b = 25 ∧ d.sowState = swDRAINING then true
    else match partCore b with
      | some c => d.running c
      | none => decide (target = psLISTEN) && ([1, 2, 3, 6].contains (partField b)))

/-- A flash bank is at work, or a move or copy-back is pending, or the die is not ready (R321). -/
def Dev.flashAtWork (d : Dev) : Bool :=
  !d.flag FLC_BOOT FLC_BOOT_READY || (span 0 4).any (fun b => d.flag (FLC_STAT b) FLC_STAT_BUSY || d.flag (FLC_STAT b) FLC_STAT_MOVE)
    || (span 0 2).any (fun w => (d.winOf w).defer || !(d.winOf w).copyback.isEmpty)

/-- A transmission of the kind is armed. -/
def Dev.txsAny (d : Dev) (p : TxRec → Bool) : Bool :=
  d.txs.any (fun (x : Nat × Option TxRec) => match x.2 with
    | some r => p r
    | none => false)

def isAckResp : TxReq → Bool
  | .ack _ _ _ => true
  | .response _ _ => true
  | _ => false

/-- An origination has not completed. -/
def Dev.originating (d : Dev) : Bool := d.descs.any (fun x => x.owner == DescOwner.origination)

/-- A unit of `p` is in use and has not reached its end. -/
def Dev.unitsAtWork (d : Dev) (p : Nat → Bool) : Bool :=
  d.rcv.any (fun (x : Nat × Rcv) => p x.1 && x.2.state != 0 && x.2.state != rsDONE)

/-- A command of the host port: a frame. -/
def isHostFrame : Instr → Bool
  | .hostRead _ _ => true
  | .hostWrite _ _ => true
  | .hostStat => true
  | .doorbell _ => true
  | .irqclr _ => true
  | .hostUnknownCommand _ => true
  | _ => false

/-- What a block answers now to a request for a state (R370 and the chapters it names): `some true` agrees, `some false` refuses,
`none` gives no answer yet. A wait applies to FALLOW and OFF alone where the block stays powered in LISTEN. -/
def Dev.answer (d : Dev) (target b : Nat) : Option Bool :=
  let deep := decide (3 ≤ target)
  let refuse (p : Bool) : Option Bool := some (!p)
  match partCore b with
  | some c =>
    match d.coreState c with
    | 0 => some true
    | 2 => some true
    | 3 => some true
    | _ => none
  | none =>
    match b with
    | 0 => if d.unitsAtWork isSc then none else some true
    | 2 => refuse (decide (2 ≤ target) && (!d.decQ.isEmpty || d.decBusy.any (fun (p : Nat × Option Job) => p.2.isSome)))
    | 3 => refuse (decide (2 ≤ target) && d.slots.any (fun (p : Nat × Slot) => p.2.state != 0))
    | 4 => if d.unitsAtWork (fun u => !isSc u) then none else some true
    | 5 => if d.txsAny (fun _ => true) then none else some true
    | 6 => refuse (deep && (d.chtIndices.any d.qLocked || d.txsAny (fun x => isAckResp x.req)))
    | 7 => refuse (deep && (d.cache.any (fun (p : Nat × CacheE) => relayPends p.2.state) || d.originating || d.get FLD_ALARMCTL FLD_ALARMCTL_ARM != 0))
    | 8 => refuse (deep && !d.aesJobs.isEmpty)
    | 9 => if (span 0 4).any (fun n => d.flag (SHA_STAT n) SHA_STAT_BUSY) then none else some true
    | 10 => refuse (deep && (d.keyPend.isSome || d.aesJobs.any (fun j => j.engine.isSome) || (span 0 256).any (fun i => (d.kslot i).state != 0 && d.slotInUse i)))
    | 11 => refuse (deep && (d.get LGR_STAT LGR_STAT_STATE == 1 || !d.lgr.queue.isEmpty || d.lgr.run.isSome))
    | 12 => refuse d.flashAtWork
    | 13 => refuse (d.flag NFC_STAT NFC_STAT_CARRIER || d.flag NFC_STAT NFC_STAT_BUSY || d.flag NFC_STAT NFC_STAT_CRXF || d.nfc.note.isSome)
    | 14 => refuse (d.flag SVC_STAT SVC_STAT_ATN || d.svc.xfer.isSome || d.svc.oz.isSome || d.svc.cmd.isSome || d.svc.bad.isSome
        || d.svc.armed.isSome || d.flag SVC_IMG SVC_IMG_CONFWAIT)
    | 15 => refuse d.csLow
    | 16 => refuse (d.flag (I2C_STAT 0) I2C_STAT_BUSY)
    | 17 => refuse (d.flag (I2C_STAT 1) I2C_STAT_BUSY)
    | 18 => refuse (d.flag SPI_STAT SPI_STAT_BUSY)
    | 19 => refuse (d.get (UART_STAT 0) UART_STAT_TXN != 0 || d.flag (UART_STAT 0) UART_STAT_TXBUSY)
    | 20 => refuse (d.get (UART_STAT 1) UART_STAT_TXN != 0 || d.flag (UART_STAT 1) UART_STAT_TXBUSY)
    | 22 => refuse (decide (target = psOFF) && (span 0 8).any (fun n => d.get (FLN_CFG n) FLN_CFG_MODE != 0))
    | 24 => refuse (d.cal.store.isSome || (deep && (span 2 3).any d.storeDue))
    | 25 => refuse (d.sowState == swDRAINING || (decide (2 ≤ target) && d.sow.fromSram)
        || (deep && d.sowState != swINFORCE && d.sowState != swNONE))
    | _ => some true

/-! ### Retention (R372) -/

/-- One entry of the RETAIN section in force: source, address in retention SRAM, size. -/
def Dev.retainEntries (d : Dev) : List (Nat × Nat × Nat) :=
  let b := bodyOf d.sow.force tRETAIN 0
  (span 0 (u8 b 0)).map (fun j => (u32 b (4 + 12 * j), 0x30000000 + u32 b (8 + 12 * j), u32 b (12 + 12 * j)))

/-- Field of a retention source; the child table runs on past its page (log entry 40). -/
def retainField (src : Nat) : Nat := if 0x40310000 ≤ src ∧ src < 0x40320000 then 4 else (targetOf src).2

/-- A source word: child-table entries by page in turn, other registers as they read. -/
def Dev.retainRead (d : Dev) (src o : Nat) : Word :=
  if src < 0x40000000 then BitVec.ofNat 32 (d.load (src + o) 4)
  else if retainField src = 4 ∧ src < 0x40320000 ∧ 0x40310000 ≤ src then sget 0 d.cht ((src + o - 0x40310000) / 4)
  else if retainWord (src + o) then d.reg (src + o) else 0

/-- A word copied back: a register by an ordinary write, group states through HDL_GRPSET and HDL_GRPCLR. -/
def Dev.retainWrite (d : Dev) (src o : Nat) (v : Word) : Dev :=
  let a := src + o
  if src < 0x40000000 then d.store a 4 v.toNat
  else if 0x40310000 ≤ src ∧ src < 0x40320000 then
    let i := (a - 0x40310000) / 4
    d.chtWrite (i / 8) (i % 8) v
  else if !retainWord a then d
  else if a = HDL_GRPEN then (d.groupWrite (v.toNat % 65536) true).groupWrite (65535 - v.toNat % 65536) false
  else d.regWrite 6 a v

/-- The entries whose source lies in one of the fields are saved. -/
def Dev.retainSave (d : Dev) (fields : List Nat) : Dev :=
  d.retainEntries.foldl (fun (d : Dev) e =>
    if fields.contains (retainField e.1) then
      (span 0 (e.2.2 / 4)).foldl (fun (d : Dev) k => d.store (e.2.1 + 4 * k) 4 (d.retainRead e.1 (4 * k)).toNat)
        (if e.1 < 0x40000000 then d.touchRange e.1 e.2.2 else d)
    else d) d

/-- The entries whose source lies in one of the fields are copied back. -/
def Dev.retainRestore (d : Dev) (fields : List Nat) : Dev :=
  d.retainEntries.foldl (fun (d : Dev) e =>
    if fields.contains (retainField e.1) then
      (span 0 (e.2.2 / 4)).foldl (fun (d : Dev) k => d.retainWrite e.1 (4 * k) (BitVec.ofNat 32 (d.load (e.2.1 + 4 * k) 4)))
        (d.touchRange e.2.1 e.2.2)
    else d) d

/-- A retention bank stays powered in FALLOW (R70); without a RETAIN section Bank 0 does (Table 4.4). -/
def Dev.bankKept (d : Dev) (k : Nat) : Bool :=
  (match secOf d.sow.force tRETAIN 0 with
    | some b => (u8 b 1).testBit k
    | none => decide (k = 0))
    || d.retainEntries.any (fun e => decide (e.2.1 < 0x30000000 + 65536 * (k + 1) ∧ 0x30000000 + 65536 * k < e.2.1 + e.2.2))

/-- The sections of the plan that belong to a field applied again (R372): IRQ and HEADLAND are the control field's; those of the other
fields hold no register of theirs. -/
def Dev.sectionsAgain (d : Dev) (f : Nat) : Dev :=
  if f = 1 then d.hdlRise ((d.applyIrq (bodyOf d.sow.force tIRQ 0)).hdlApply [] (bodyOf d.sow.force tHEADLAND 0) true true) else d

/-! ### Entry and rollback (R371) -/

/-- Fields that power down on the way to a state, in order (R371, Table 19.2). -/
def downFields (target : Nat) (window : Bool) : List Nat :=
  if window then [3, 2] else if target = psLISTEN then [6, 3, 2, 1] else if target = psIDLE then [] else [6, 3, 2, 1, 5, 4]

def Dev.setEntry (d : Dev) (e : Option PwrEntry) : Dev :=
  Dev.putB { d with pwr := { d.pwr with entry := e } } PWR_STAT PWR_STAT_ENTERING e.isSome

/-- The fields go down, their retention entries saved first; with the control field the flash die goes. -/
def Dev.fieldsDown (d : Dev) (l : List Nat) : Dev :=
  let l := l.filter d.fieldOn
  let d := d.retainSave l
  let d := if l.contains 1 then d.flashDieOff else d
  l.foldl (fun (d : Dev) f => d.fieldOff f) d

/-- Every participant has agreed. -/
def Dev.entryDone (d : Dev) (target : Nat) (window : Bool) : Dev :=
  let d := (d.setEntry none).fieldsDown (downFields target window)
  if window then d.put PWR_STAT PWR_STAT_WINDOW 0
  else if target = psIDLE then d.setPwrState psIDLE
  else if target = psLISTEN then
    (([0, 1, 2, 3, 4, 5] : List (Fin 7)).foldl (fun (d : Dev) c => d.coreOff c) d).setPwrState psLISTEN
  else if target = psFALLOW then
    let d := (span 0 8).foldl (fun (d : Dev) k => if d.bankKept k then d else d.dropMem (0x30000000 + 65536 * k) (0x30000000 + 65536 * (k + 1))) d
    let d : Dev := { d with clk := { d.clk with stopped := true, rootUp := false } }
    (d.put CLK_STAT CLK_STAT_LOCK 0).setPwrState psFALLOW
  else
    let d := d.coldDies.gatesCold
    { d with pwr := { d.pwr with off := true, brownOut := false, fields := 0 } }

/-- The participants still to be asked. -/
def Dev.toAsk (d : Dev) (e : PwrEntry) : List Nat := (d.participants e.target e.window).filter (fun b => !e.agreed.contains b)

/-- The next participant agrees; with the last one the entry is done. -/
def Dev.entryNext (d : Dev) (e : PwrEntry) : Dev := if d.toAsk e = [] then d.entryDone e.target e.window else d.setEntry (some e)

/-- A refusal (1) or a timeout (2) of a block: everyone is released and the refusal recorded. -/
def Dev.entryRefused (d : Dev) (e : PwrEntry) (b why : Nat) : Dev :=
  let d := ((d.setEntry none).count PWR_REF).put PWR_REF PWR_REF_BLOCK b
  let d := (d.put PWR_REF PWR_REF_REASON why).put PWR_REF PWR_REF_STATE e.target
  (d.count (PWR_REFBLK b)).pulse 1055

/-- A write to PWR_REQ (R368, R371). -/
def Dev.pwrReq (d : Dev) (v : Word) : Dev :=
  let t := getF v PWR_REQ_STATE
  if getF v PWR_REQ_KEY ≠ 0x7E ∨ t = 0 ∨ 4 < t ∨ d.pwr.entry.isSome ∨ d.pwrState ≠ 0 then d
  else if !(d.plan8 tPOWER 0 3).testBit (t - 1) then
    ((d.count PWR_REF).put PWR_REF PWR_REF_REASON 3).put PWR_REF PWR_REF_STATE t
  else d.entryNext ⟨t, [], false⟩

def Dev.reqRow (d : Dev) (c : Fin 7) (t : Nat) : Dev := d.byCore c PWR_REQ true fun d => d.pwrReq (BitVec.ofNat 32 (0x7E000000 + t))

/-- REQUEST_IDLE (R368). -/
def execRequestIdle (c : Fin 7) (s : State) : Host.Outcome State Fault Refusal := s.run fun d => d.reqRow c psIDLE

/-- REQUEST_LISTEN (R368). -/
def execRequestListen (c : Fin 7) (s : State) : Host.Outcome State Fault Refusal := s.run fun d => d.reqRow c psLISTEN

/-- REQUEST_FALLOW (R368). -/
def execRequestFallow (c : Fin 7) (s : State) : Host.Outcome State Fault Refusal := s.run fun d => d.reqRow c psFALLOW

/-- REQUEST_OFF (R368). -/
def execRequestOff (c : Fin 7) (s : State) : Host.Outcome State Fault Refusal := s.run fun d => d.reqRow c psOFF

/-- HOST refuses in a cycle in which a frame of the host is still to come, too: HST_CS is low in it (R432; log entry 119). -/
def State.answer (s : State) (d : Dev) (target b : Nat) : Option Bool :=
  if b = 15 ∧ s.arrives isHostFrame then some false else d.answer target b

/-- PARTICIPANT_ANSWER (R370, R371): the next participant is asked and answers. -/
def execParticipantAnswer (s : State) : Host.Outcome State Fault Refusal :=
  s.run fun d =>
    match d.pwr.entry with
    | none => d
    | some e =>
      match d.toAsk e with
      | [] => d.entryNext e
      | b :: _ =>
        match s.answer d e.target b with
        | none => d
        | some true => d.entryNext { e with agreed := e.agreed ++ [b] }
        | some false => d.entryRefused e b 1

/-- PARTICIPANT_TIMEOUT (R371): the participant asked has given no answer. -/
def execParticipantTimeout (s : State) : Host.Outcome State Fault Refusal :=
  s.run fun d =>
    match d.pwr.entry with
    | none => d
    | some e =>
      match d.toAsk e with
      | [] => d
      | b :: _ => if (s.answer d e.target b).isNone then d.entryRefused e b 2 else d

/-! ### Waking (R373, R374) -/

/-- States in which Table 19.4 lists a reason. -/
def wakeFrom (r state : Nat) : Bool :=
  if r = 1 then decide (2 ≤ state ∧ state ≤ 4)
  else if 2 ≤ r ∧ r ≤ 8 then decide (state = psLISTEN ∨ state = psFALLOW)
  else if r = 9 ∨ r = 10 then decide (state = psLISTEN)
  else decide (r = 11 ∧ state = psIDLE)

/-- The bit of EN; reasons 1 and 8 always wake. -/
def Dev.wakeEnabled (d : Dev) (r : Nat) : Bool := r == 1 || r == 8 || (d.get PWR_WAKE PWR_WAKE_EN).testBit r

/-- What the device itself shows of the source of a wake; the others come from outside. -/
def Dev.wakeSource (d : Dev) (r : Nat) : Bool :=
  match r with
  | 2 => d.padWakeArmed
  | 3 => (span 0 8).any (fun t => d.flag (RTC_ATCTL t) RTC_ATCTL_EXPF && (d.atOf t).wake)
  | 4 => (span 0 24).any (fun n => d.flag (TMR_CTL n) TMR_CTL_WAKE && d.timerLevel (1056 + n))
  | 5 => d.flag RTC_STAT RTC_STAT_ALARMF || d.flag RTC_STAT RTC_STAT_TICKF
  | 6 => d.get HDL_GATED HDL_GATED_LATCH != 0
  | 7 => d.flag PWR_SUPPLY PWR_SUPPLY_SLOWF
  | 8 => d.flag CLK_STAT CLK_STAT_LFFAIL
  | 9 => d.rcv.any (fun (p : Nat × Rcv) => p.2.state == rsDONE)
  | 10 => !d.comps.isEmpty || !d.vq.isEmpty || !d.fld.events.isEmpty
  | 11 => allCores.any (fun c => d.coreState c == 2 && (d.presented c).isSome)
  | _ => true

/-- A field belongs to the plan (Table 4.6). -/
def Dev.planField (d : Dev) (f : Nat) : Bool := (d.plan8 tPOWER 0 2).testBit f

/-- Fields of the plan that are down, in the order in which they power up. -/
def Dev.fieldsToUp (d : Dev) (l : List Nat) : List Nat := l.filter (fun f => d.planField f && !d.fieldOn f)

def maskOf (l : List Nat) : Nat := l.foldl (fun m f => m ||| 2 ^ f) 0
def fieldsOf (m : Nat) : List Nat := [4, 5, 1, 2, 3, 6].filter (fun f => m.testBit f)

/-- A wake from LISTEN or FALLOW: an entry or window under way is given up, the root PLL runs and the fields power up. -/
def Dev.wakeUp (d : Dev) : Dev :=
  let d := (d.setEntry none).put PWR_STAT PWR_STAT_WINDOW 0
  let l := d.fieldsToUp [4, 5, 1, 2, 3, 6]
  let d := if d.clk.rootUp then d
    else Dev.put { d with clk := { d.clk with stopped := false, rootUp := true } } CLK_STAT CLK_STAT_LOCK 1
  let d := l.foldl (fun (d : Dev) f => d.fieldUp f) d
  { d with pwr := { d.pwr with waking := some (maskOf l) } }

/-- An entry given up by a wake (R371). -/
def Dev.entryAbort (d : Dev) (r : Nat) : Dev := (((d.setEntry none).count PWR_ABORT).put PWR_ABORT PWR_ABORT_REASON r).pulse 1055

/-- Wake reason `r` wakes the device in the state or during the entry it is in (R373). -/
def Dev.rouses (d : Dev) (r : Nat) : Bool :=
  d.wakeEnabled r && d.wakeSource r &&
    (if d.pwrState = 0 then (match d.pwr.entry with | some e => wakeFrom r e.target | none => false) else wakeFrom r d.pwrState)

/-- WAKE (R371, R373): reason `r` aborts an entry or leaves IDLE, LISTEN or FALLOW; of several in one cycle the lower code is the one that
REASON takes. In OFF only WAKE_N wakes, with a start (R374). -/
def execWake (r : Fin 12) (s : State) : Host.Outcome State Fault Refusal :=
  s.on fun d =>
    if d.pwr.off then (if r.val = 1 then d.leaveOff else d)
    else if d.pwr.phase ≠ .running ∨ !d.rouses r ∨ d.pwr.waking.isSome then d
    else if s.arrives (fun i => match i with | .wake q => decide (q.val < r.val) && d.rouses q | _ => false) then d
    else if d.pwrState = 0 then d.entryAbort r
    else
      let st := d.pwrState
      let d := d.put PWR_WAKE PWR_WAKE_REASON r
      if st = psIDLE then d.setPwrState 0 else d.wakeUp

/-- The cores whose field had been down, and L0 and L1, start at their levels; K0 goes on after its HALT where it kept its power. -/
def Dev.coresWake (d : Dev) (up : List Nat) : Dev :=
  allCores.foldl (fun (d : Dev) (c : Fin 7) =>
    let f := if c.val < 4 then 1 else if c.val < 6 then 4 else 5
    if d.planLevel c = 0xFF ∨ !d.fieldOn f then d
    else if c = 6 ∧ !up.contains 5 then (if d.coreState 6 = 2 then d.setCoreState 6 1 else d)
    else d.coreStart c (d.get (PWR_PLEVEL c) PWR_PLEVEL_LEVEL)) d

/-- WAKE_COMPLETE (R372, R374): sections again, retention back, latches replayed, then the cores; the state is ACTIVE. -/
def execWakeComplete (s : State) : Host.Outcome State Fault Refusal :=
  s.run fun d =>
    match d.pwr.waking with
    | none => d
    | some m =>
      let l := fieldsOf m
      let d := (l.foldl (fun (d : Dev) f => d.sectionsAgain f) d).retainRestore l
      let d := if l.contains 1 then d.sourcesAgain.latchReplay else d
      let d : Dev := Dev.padRelease { d with pwr := { d.pwr with waking := none } }
      (d.coresWake l).setPwrState 0

/-! ### LISTEN windows (R375) -/

/-- A chain of CHAINS is switched on; one that is refused counts in PWR_ABORT with code 0. -/
def Dev.windowChain (d : Dev) (c : Nat) : Dev :=
  let d := d.rxOn c
  if d.flag (RFC_RXCTL c) RFC_RXCTL_ON then d else (d.count PWR_ABORT).put PWR_ABORT PWR_ABORT_REASON 0

/-- The instant of the window of PERIOD_MS that is due: the next multiple 200 µs ahead, or the last one while its WIN_MS run. -/
def Dev.periodDue (d : Dev) : Option Nat :=
  let p := 122880 * d.get PWR_LISTEN PWR_LISTEN_PERIOD_MS
  let t := d.meshNow / p * p
  if p = 0 then none
  else if t + p ≤ d.meshNow + 24576 then some (t + p)
  else if d.meshNow < t + 122880 * d.get PWR_LISTEN PWR_LISTEN_WIN_MS then some t
  else none

/-- The window of PERIOD_MS that is open has still to run. -/
def Dev.periodRuns (d : Dev) : Bool := match d.pwr.winAt with
  | none => false
  | some t => !atOrPast d.meshNow (t + 122880 * d.get PWR_LISTEN PWR_LISTEN_WIN_MS)

/-- Mesh time lies in an expectation window of the parent, or up to `lead` ticks before one, in which no frame of its has committed yet (R193). -/
def Dev.parentWindow (d : Dev) (lead : Nat) : Bool := match d.parent with
  | none => false
  | some i => (d.windowNow i lead).any (fun n => d.pwr.heard != some (d.chtGet i 3 CHT_LASTSEEN, n))

/-- LISTEN_WINDOW_OPEN (R375): for a period of PERIOD_MS, or for an expectation window. -/
def execListenWindowOpen (s : State) : Host.Outcome State Fault Refusal :=
  s.run fun d =>
    let t := d.periodDue
    if d.pwrState ≠ psLISTEN ∨ d.flag PWR_STAT PWR_STAT_WINDOW ∨ d.pwr.waking.isSome ∨ (t.isNone ∧ !d.parentWindow 24576) then d
    else
      let d : Dev := { d with pwr := { d.pwr with winAt := t } }
      let l := d.fieldsToUp [2, 3]
      let d := (l.foldl (fun (d : Dev) f => d.fieldUp f) d)
      let d := (l.foldl (fun (d : Dev) f => d.sectionsAgain f) d).retainRestore l
      let m := d.get PWR_LISTEN PWR_LISTEN_CHAINS
      let d := (span 0 4).foldl (fun (d : Dev) c => if m.testBit c then d.windowChain c else d) d
      d.put PWR_STAT PWR_STAT_WINDOW 1

/-- The close of a window that is over starts, or is tried again. -/
def Dev.windowClose (d : Dev) : Dev :=
  if d.flag PWR_STAT PWR_STAT_WINDOW ∧ d.pwr.entry.isNone ∧ !d.periodRuns ∧ !d.parentWindow 0 then d.setEntry (some ⟨psLISTEN, [], true⟩) else d

/-- LISTEN_WINDOW_CLOSE (R375). -/
def execListenWindowClose (s : State) : Host.Outcome State Fault Refusal := s.run fun d => d.windowClose

/-- CLOSE_RETRY (R375). -/
def execCloseRetry (s : State) : Host.Outcome State Fault Refusal := s.run fun d => d.windowClose

/-! ### INSPECT (R369) -/

/-- INSPECT_ENTRY (R21, R369): VIN below the brown-out threshold and a reader's field harvested; the responder starts from power-up, and the pins are
Unpowered. -/
def execInspectEntry (s : State) : Host.Outcome State Fault Refusal :=
  s.on fun d =>
    if d.pwr.brownOut ∧ d.pwrState ≠ 5 then
      Dev.setPwrState { d with nfc := { d.nfc with quiet := false, drawn := none, reply := none }, pwr := { d.pwr with pins := .unpowered } } 5
    else d

/-- INSPECT_EXIT (R369, R403): the field is lost, or VIN passes the rising threshold and start-up runs; a NOTE under way is cut (log entry 150). -/
def execInspectExit (up : Bool) (s : State) : Host.Outcome State Fault Refusal :=
  s.on fun d => if d.pwrState ≠ 5 then d else if up then d.vinBack else d.noteCut.setPwrState 0

end Sys2Proof.Machine
end

