-- ==== Sys2Proof/Machine/Periph.lean ====
section
/-! DEFINITION. Word reads and writes of the peripheral range by a core (R14, R15, R295): what each register shows, what reading it
does, and COUNTER_READ and REGISTER_WRITE. -/

namespace Sys2Proof.Machine

/-- `rdata` takes a word. -/
def Dev.gives (d : Dev) (w : Word) : Dev := { d with rdata := w }

/-- A read of IRQ, HDL, TMR or RTC registers that show more than they store. -/
def Dev.ctlRead (d : Dev) (c : Fin 7) (name : String) (i a : Nat) : Dev :=
  match name with
  | "IRQ_PEND" => d.gives (d.pendView i)
  | "IRQ_ACK" => d.irqAck c
  | "IRQ_STAT" => d.gives (d.irqStat (Fin.ofNat 7 i))
  | "IRQ_STK" => d.gives (d.stkView (Fin.ofNat 7 (i / 16)) (i % 16))
  | "HDL_CHLVL" =>
    let w := (span 0 32).foldl (fun (w : Word) k => if d.chShows (32 * i + k) then putBit w k true else w) 0
    d.gives (w &&& ~~~(d.hdlSecret c i))
  | "HDL_GATED" => d.gives (setF (d.reg a) HDL_GATED_G d.gatesNow)
  | "HDL_SEEN" => d.gives (d.reg a &&& ~~~(d.hdlSecret c i))
  | "TMR_GRUN" => d.gives ((span 0 24).foldl (fun (w : Word) t => if d.flag (TMR_CTL t) TMR_CTL_RUN then putBit w t true else w) 0)
  | "RTC_SUB" => d.row (execCalendarFreeze c)
  | "RTC_TIME" => d.gives (match (d.core c).cal with
    | some p => p.1
    | none => d.reg a)
  | "RTC_DATE" =>
    match (d.core c).cal with
    | some p => (d.setCore c { d.core c with cal := none }).gives p.2
    | none => d.gives (d.reg a)
  | "RTC_STAT" => d.gives (setF (d.reg a) RTC_STAT_ACCPPM d.accppm)
  | "RTC_T_LO" => (d.setCore c { d.core c with rtcHi := d.reg RTC_T_HI }).gives (d.reg a)
  | "RTC_T_HI" => d.gives (d.core c).rtcHi
  | "CLK_RUN" => d.gives (d.clkRun i)
  | _ => (d.readClear a).gives (d.reg a)

/-- A read of the registers of the receive, transmit and link paths that show more than they store. -/
def Dev.airRead (d : Dev) (c : Fin 7) (block name : String) (i a : Nat) : Dev :=
  match name with
  | "RFC_DUTY" => d.gives (d.dutyView (i / 8) (i % 8))
  | "MCX_CTL" => d.gives (d.reg a)
  | "MCX_DISC" => (d.readClear a).gives (d.reg a)
  | "MCX_BUSY" => (d.readClear a).gives (d.reg a)
  | "UNW_STAT" => d.gives d.unwStat
  | "UNW_BUSY" => d.gives d.unwBusy
  | "UNW_SLOT" => d.gives (d.slotView i)
  | "UNW_SLOTF" => d.gives (d.slotfView i)
  | "LNK_TXDONE_TAG" => d.gives (BitVec.ofNat 32 ((d.comps.head?.map (·.1)).getD 0))
  | "LNK_TXDONE_ST" => d.row (execCompletionRead c)
  | "LNK_VQ" => if i = 3 then d.row (execVerdictRead c) else d.gives (d.vqView i)
  | "FLD_MESH_LO" => d.row (execMeshTimeRead c)
  | "FLD_MESH_HI" => d.gives (d.core c).meshHi
  | "FLD_STAT" => d.gives (mkWord [(FLD_STAT_SYNCED, d.synced.toNat), (FLD_STAT_ACQ, d.get FLD_STAT FLD_STAT_ACQ), (FLD_STAT_DEPTH, d.fldDepth), (FLD_STAT_ACC, d.fldAcc), (FLD_STAT_AGE_S, d.ageS)])
  | "FLD_EVQ" => if i = 3 then d.row (execFloodEventRead c) else d.gives (d.evqView i)
  | _ =>
    if block == "FUR" then d.gives (d.furView i (a % 64))
    else if block == "MCX" then d.gives (d.mcxView i (a % 64))
    else (d.readClear a).gives (d.reg a)

/-- A read of the registers of the keep and I/O fields, the error log and the lock cells that show more than they store. -/
def Dev.keepRead (d : Dev) (c : Fin 7) (name : String) (i a : Nat) : Dev :=
  match name with
  | "KEY_STAT" => d.gives (setF (setF (d.reg a) KEY_STAT_TXLOW d.txLow.toNat) KEY_STAT_TXCEIL d.txCeil.toNat)
  | "KEY_RAND" => d.row (execRandomRead c)
  | "KEY_SST" => d.gives (d.slotReg i 0x00)
  | "KEY_SATR" => d.gives (d.slotReg i 0x04)
  | "KEY_USED" => d.gives (d.slotReg i 0x08)
  | "KEY_LIMIT" => d.gives (d.slotReg i 0x0C)
  | "KEY_CEIL" => d.gives (d.slotReg i 0x10)
  | "KEY_GEN" => d.gives (d.slotReg i 0x14)
  | "AES_STAT" => d.gives (setF (setF (d.reg a) AES_STAT_OUT (d.aesJobs.countP (fun j => j.core == c.val))) AES_STAT_BUSY d.aesBusy)
  | "KEY_CTR" => (d.when (d.flag FLC_BOOT FLC_BOOT_READY) Dev.scanned).gives ((d.when (d.flag FLC_BOOT FLC_BOOT_READY) Dev.scanned).reg a)
  | "LGR_LOOK_LO" => d.gives (d.reg (banked c a))
  | "LGR_LOOK_HI" => d.gives (d.reg (banked c a))
  | "LGR_LOOKRES" => d.gives (d.reg (banked c a))
  | "NFC_SUID_HI" => d.row (execSuidRead c)
  | "I2C_DATA" => d.i2cPop i
  | "HST_STAT" => d.gives (setF (d.reg a) HST_STAT_CSLOW d.csLow.toNat)
  | "UART_DATA" => d.uartPop i
  | "GPIO_OUT" => d.gives (d.gpioOut i)
  | "COX_STAT" => d.coxView.2.gives d.coxView.1
  | "FLN_STAT" => d.lineView.2.gives d.lineView.1
  | "ERL_ENT" => if i = 0 then d.erlLatch c else if i = 9 then d.erlPop c else d.gives (d.erlWord c i)
  | "SEM_TAKE" => d.semTake c i
  | "SEM_RESCUE" => d.semRescue c i
  | "SEM_STAT" => d.gives (d.semStat i)
  | _ => (d.readClear a).gives (d.reg a)

/-- A word read at a peripheral address by core `c`, left in `rdata`, with what reading it does (R14, R450). -/
def Dev.wordRead (d : Dev) (c : Fin 7) (a : Nat) : Dev :=
  match blockAt a with
  | none => d.gives 0
  | some b =>
    if b.name == "CHT" then d.gives (sget 0 d.cht (8 * (2048 * d.get LNK_CHTPAGE LNK_CHTPAGE_PAGE) + (a - b.base) / 4))
    else match regAt a with
      | none => d.gives 0
      | some (r, i) =>
        if ["CLK", "IRQ", "HDL", "TMR", "RTC"].contains b.name then d.ctlRead c r.name i a
        else if ["RFC", "FUR", "MCX", "UNW", "LNK", "FLD"].contains b.name then d.airRead c b.name r.name i a
        else d.keepRead c r.name i a

/-- A word written at a peripheral address by core `c`. -/
def Dev.wordWrite (d : Dev) (c : Fin 7) (a : Nat) (v : Word) : Dev :=
  match regAt a with
  | none => d.regWrite c a v
  | some (r, i) =>
    match r.name with
    | "SYS_RSTCTL" => d.rstctlWrite v
    | "SYS_CORERST" => d.corerstWrite v
    | "PWR_REQ" => d.pwrReq v
    | "PWR_PLEVEL" => d.levelWrite i v
    | "PWR_MON" => d.overClear v
    | "PWR_WAKE" => d.plainWrite a (v ||| 0x01020000)
    | "SEM_GIVE" => d.semGive c i v
    | _ => d.regWrite c a v

/-- Address of the word that holds a byte. -/
def wordAt (a : Word) : Nat := a.toNat / 4 * 4

/-- COUNTER_READ (R450, R14): a read of a register; RC fields clear. -/
def execCounterRead (c : Fin 7) (a : Word) (s : State) : Host.Outcome State Fault Refusal :=
  s.run fun d => d.byCore c (wordAt a) false fun d => d.wordRead c (wordAt a)

/-- REGISTER_WRITE (R14). -/
def execRegisterWrite (c : Fin 7) (a v : Word) (s : State) : Host.Outcome State Fault Refusal :=
  s.ask (.registerWrite c a v) (wordAt a) fun d => d.byCoreDeny c (wordAt a) true (d.writeDenied c (wordAt a) v) fun d => d.wordWrite c (wordAt a) v

end Sys2Proof.Machine
end

