-- ==== Sys2Proof/Machine/Bus.lean ====
section
/-! DEFINITION. How a core reaches memory and the peripheral range (R273, R282, R289, R295, R305, R317, R446): the syndrome an access
ends with, what a load finds, what a store leaves. -/

namespace Sys2Proof.Machine

/-! ### Syndromes (Table 14.9) -/

inductive AccKind where
  | load | store | fetch
  deriving DecidableEq, Repr

/-- An access of a core: its kind, the mode, whether it is a whole word without a size prefix, whether it is an exclusive. -/
structure Access where
  kind : AccKind
  user : Bool
  word : Bool
  excl : Bool
  deriving DecidableEq, Repr

def Access.write (x : Access) : Bool := decide (x.kind = .store)
def Access.isFetch (x : Access) : Bool := decide (x.kind = .fetch)

/-- Place of a syndrome in the order of precedence of Table 14.9. -/
def synRank (code : Nat) : Nat := [synPRIVILEGE, synUNMAPPED, synPROTECTION, synUNSUPPORTED, synDIEISOLATED, synFIELDOFF, synFLASHBUSY, synECC].findIdx (· == code)

/-- Soft store, unwinding pool and frame store. -/
def inAir (a : Nat) : Bool := decide (0x21400000 ≤ a ∧ a < 0x23000000)
def inRetention (a : Nat) : Bool := decide (0x30000000 ≤ a ∧ a < 0x30080000)
def inPeriph (a : Nat) : Bool := decide (0x40000000 ≤ a ∧ a < 0x50000000)

/-- Peripheral range: word loads and stores follow the register; anything else is unsupported (R282, R289). -/
def Dev.accPeriph (d : Dev) (x : Access) (c : Fin 7) (a : Nat) : Option Nat :=
  let code := d.periphCode c (a / 4 * 4) (x.user && !x.isFetch) x.write
  if x.word && !x.excl && !x.isFetch then code
  else if code = some synPRIVILEGE ∨ code = some synUNMAPPED then code
  else some synUNSUPPORTED

/-- Boot ROM (R273, R286). -/
def Dev.accRom (d : Dev) (x : Access) : Option Nat :=
  if d.romHidden then some synUNMAPPED
  else if x.user then some synPRIVILEGE
  else if x.write || x.excl then some synUNSUPPORTED
  else none

/-- Flash (R289, R304, R8, R6): the flash die is powered with the control field. -/
def Dev.accFlash (d : Dev) (x : Access) (a : Nat) : Option Nat :=
  if lowHole a then some synUNMAPPED
  else if x.write || x.excl then some synUNSUPPORTED
  else if d.pwr.flIso then some synDIEISOLATED
  else if !d.fieldOn 1 then some synFIELDOFF
  else none

/-- RAM (R65, R274, R289, R6). -/
def Dev.accRam (d : Dev) (x : Access) (c : Fin 7) (a : Nat) : Option Nat :=
  if inGeneral a && d.denied c a x.write then some synPROTECTION
  else if (x.excl && !inGeneral a) || (x.isFetch && inAir a) then some synUNSUPPORTED
  else if !d.fieldOn (targetOf a).2 then some synFIELDOFF
  else none

/-- The syndrome one byte of an access ends with, before the content of a memory counts. -/
def Dev.accByte (d : Dev) (x : Access) (c : Fin 7) (a : Nat) : Option Nat :=
  if inPeriph a then d.accPeriph x c a
  else if inRom a then d.accRom x
  else if flashAddr a then d.accFlash x a
  else if inGeneral a || inAir a || inRetention a then d.accRam x c a
  else some synUNMAPPED

/-- Of two findings the one that comes first in Table 14.9, with its byte. -/
def firstSyn (p : Option (Nat × Nat)) (code : Option Nat) (a : Nat) : Option (Nat × Nat) :=
  match code, p with
  | none, p => p
  | some k, none => some (k, a)
  | some k, some q => if synRank k < synRank q.1 then some (k, a) else some q

/-- The syndrome of an access of `n` bytes, and the byte it concerns. -/
def Dev.accCode (d : Dev) (x : Access) (c : Fin 7) (a n : Nat) : Option (Nat × Nat) :=
  (span a n).foldl (fun p y => firstSyn p (d.accByte x c y) y) none

/-! ### What the memory word holds (R305, R306, R317, R446) -/

/-- Bits of the memory word that holds `a` have gone bad by the time it is read: of a flash word by their numbers (R317), of a RAM word
by how many (R446). -/
def Dev.upset (d : Dev) (a : Nat) (up : List Nat) : Dev :=
  if up.isEmpty then d
  else if flashAddr a then
    let w := d.canon a / 16
    { d with flErr := sset [] d.flErr w ((span 0 144).filter (fun j => (sget [] d.flErr w).contains j || up.contains j)) }
  else if inGeneral a || inAir a || inRetention a then
    { d with memErr := sset 0 d.memErr (a / 4) (if up.length = 1 ∧ sget 0 d.memErr (a / 4) = 0 then 1 else 2) }
  else d

/-- K0 reads a sector whose erase goes on: its content and its errors are open (R306). -/
def Dev.halfErased (d : Dev) : Option Nat × Bool × Dev :=
  let f := d.free
  if f.1.getLsbD 0 then (some synECC, true, f.2.count (FLC_CNT 1))
  else (none, true, if f.1.getLsbD 1 then f.2.count (FLC_CNT 0) else f.2)

/-- A core reads the flash word at `a`: the syndrome, and whether its value is open. Whether a line of a busy bank, or of a word gone
bad, is in a cache is not specified (R291). K0 is privileged traffic (R306). -/
def Dev.touchFlash (d : Dev) (c : Fin 7) (a : Nat) : Option Nat × Bool × Dev :=
  let p := d.canon a
  let b := bankOf p
  let d := if c = 6 then d.bankServed b else d
  let bad := !(sget [] d.flErr (p / 16)).isEmpty
  if c = 6 ∧ !d.flag FLC_BOOT FLC_BOOT_READY then (none, false, { d with k0Wait := true })
  else if d.bankBusy b ∧ c ≠ 6 then
    let f := d.free
    if f.1.getLsbD 0 then (none, false, f.2) else (some synFLASHBUSY, false, f.2.count (FLC_CNT 2))
  else if (d.bankOfs b).op = 3 ∧ (d.bankOfs b).addr / 4096 = p / 4096 then d.halfErased
  else if bad then
    let f := d.free
    if f.1.getLsbD 0 then (none, false, f.2)
    else
      let r := f.2.flashFind p
      (if r.1 = 3 then some synECC else none, decide (4 ≤ r.1), r.2)
  else (none, false, d)

/-- A core reads the RAM word at `a`. -/
def Dev.touchRam (d : Dev) (a : Nat) (syn : Word) : Option Nat × Bool × Dev :=
  let r := d.eccRead a syn
  (if r.1 then none else some synECC, false, r.2)

/-- A core reads the memory word that holds `a`. -/
def Dev.touch (d : Dev) (x : Access) (c : Fin 7) (a : Nat) : Option Nat × Bool × Dev :=
  if flashAddr a then d.touchFlash c a
  else if inRom a || !d.softOpen a then (none, false, d)
  else d.touchRam a (esynOf a synECC x.write x.isFetch x.user)

/-- Addresses that stand for the memory words, of `g` bytes each, that an access of `n` bytes touches. -/
def wordsOf (g a n : Nat) : List Nat := (span (a / g) ((a + n - 1) / g + 1 - a / g)).map (fun w => max a (g * w))

/-- The memory words of an access, in order, up to the first that faults. -/
def Dev.touchAll (d : Dev) (x : Access) (c : Fin 7) : List Nat → Option (Nat × Nat) × Bool × Dev
  | [] => (none, false, d)
  | a :: r =>
    let q := d.touch x c a
    match q.1 with
    | some k => (some (k, a), q.2.1, q.2.2)
    | none =>
      let t := q.2.2.touchAll x c r
      (t.1, q.2.1 || t.2.1, t.2.2)

/-! ### Loads -/

/-- A byte as a core reads it: 0 where the soft store shows nothing (R128). -/
def Dev.shownByte (d : Dev) (a : Nat) : Byte := if d.softOpen a then d.byte a else 0

/-- The domains that an access of `n` bytes is addressed to run (R52). -/
def Dev.wakes (d : Dev) (a n : Nat) : Dev := (d.touchDomain a).touchDomain (a + n - 1)

/-- A read of `n` bytes with the rights of core `c`: the fault with its byte, or the value. `up`: bits gone bad in the memory word at `a`. -/
def Dev.busLoad (d : Dev) (x : Access) (c : Fin 7) (a n : Nat) (up : List Nat) : Option (Nat × Nat) × Nat × Dev :=
  match d.accCode x c a n with
  | some p => (some p, 0, d)
  | none =>
    let d := d.wakes a n
    if inPeriph a then
      let d := d.wordRead c a
      (none, d.rdata.toNat, d)
    else
      let q := (d.upset a up).touchAll x c (wordsOf (if flashAddr a then 16 else 4) a n)
      let d := q.2.2
      match q.1 with
      | some p => (some p, 0, d)
      | none =>
        if q.2.1 then
          let f := d.free
          (none, f.1.toNat % 256 ^ n, f.2)
        else (none, leVal ((span a n).map d.shownByte), d)

/-- A load of a core. -/
def Dev.coreLoad (d : Dev) (x : Access) (c : Fin 7) (a n : Nat) (up : List Nat) : Option (Nat × Nat) × Nat × Dev :=
  let q := d.busLoad x c a n up
  if q.1.isNone then (none, q.2.1, q.2.2.cached c false a n) else q

/-! ### Stores -/

/-- Cores' writes that the soft store, an MC demodulator's area and the unwinding pool ignore (R128, R158, R162). -/
def airKept (a : Nat) : Bool := decide (0x21400000 ≤ a ∧ a < 0x22D00000)

/-- Bytes a core stores in RAM: its own reservation stands (R274), and the lines are its own modified ones where they are cacheable
(R292). -/
def Dev.coreBytes (d : Dev) (c : Fin 7) (a : Nat) (l : List Byte) : Dev :=
  let own := (d.core c).resv
  let d := (d.setBytes a l).cached c true a l.length
  d.setCore c { d.core c with resv := own }

/-- RAM words that a store covers in part are read first (R446). -/
def Dev.partRead (d : Dev) (x : Access) (c : Fin 7) (a n : Nat) : Option (Nat × Nat) × Bool × Dev :=
  if n = 4 then (none, false, d.eccClear a 4) else d.touchAll x c (wordsOf 4 a n)

/-- A store of `n` bytes: the fault with its byte; a register that refuses the writer comes first (Table 14.9). -/
def Dev.coreStore (d : Dev) (x : Access) (c : Fin 7) (a n v : Nat) (up : List Nat) : Option (Nat × Nat) × Dev :=
  if inPeriph a && d.writeDenied c (a / 4 * 4) (BitVec.ofNat 32 v) then (some (synPRIVILEGE, a), d)
  else match d.accCode x c a n with
  | some p => (some p, d)
  | none =>
    let d := d.wakes a n
    if inPeriph a then
      if d.restsAt a then (none, d.hold (.registerWrite c (BitVec.ofNat 32 a) (BitVec.ofNat 32 v)))
      else (none, d.wordWrite c a (BitVec.ofNat 32 v))
    else if airKept a then (none, d)
    else
      let q := (d.upset a up).partRead x c a n
      match q.1 with
      | some p => (some p, q.2.2)
      | none => (none, q.2.2.coreBytes c a (leBytes n v))

/-- The BUS exception of an access at `a`, its instruction at `pc`. -/
def Access.exc (x : Access) (pc : Word) (a : Nat) (p : Nat × Nat) : Exc :=
  ⟨if x.isFetch then excFETCH else excBUS, 0, pc, some (BitVec.ofNat 32 a), some (esynOf p.2 p.1 x.write x.isFetch x.user)⟩

end Sys2Proof.Machine
end

