-- ==== Sys2Proof/Machine/Oztis.lean ====
section
/-! DEFINITION. The Oztis port (chapter 22): frames, the session, transfers, the debug commands. -/

namespace Sys2Proof.Machine

/-! ### Frames (R407 to R409, Table 22.1) -/

def ozHELLO : Nat := 0x01
def ozRESET : Nat := 0x02
def ozCHALLENGE : Nat := 0x03
def ozUNLOCK : Nat := 0x04
def ozLOCK : Nat := 0x05
def ozOPEN : Nat := 0x10
def ozBURST : Nat := 0x11
def ozCHECK : Nat := 0x12
def ozTRY : Nat := 0x13
def ozREAD : Nat := 0x20
def ozWRITE : Nat := 0x21
def ozHALT : Nat := 0x22
def ozRUN : Nat := 0x23
def ozREGS : Nat := 0x24
def ozSETREG : Nat := 0x25

/-- A TYPE of Table 22.2. -/
def ozKnown (t : Nat) : Bool :=
  [ozHELLO, ozRESET, ozCHALLENGE, ozUNLOCK, ozLOCK, ozOPEN, ozBURST, ozCHECK, ozTRY, ozREAD, ozWRITE, ozHALT, ozRUN, ozREGS, ozSETREG].contains t

/-- The port answers (R407). -/
def Dev.portOn (d : Dev) : Bool := d.fieldOn 6 && decide (d.pwr.pins = .sown) && (d.plan8 tPADS 0 1).testBit 1

/-- A frame from START to CRC (Table 22.1). -/
def ozFrame (typ : Nat) (tag : Byte) (pay : List Byte) : List Byte :=
  let body : List Byte := leBytes 1 typ ++ [tag] ++ leBytes 2 pay.length ++ pay
  [0x3C] ++ body ++ leBytes 4 (crc32 body)

/-- The response to a request: its TYPE with bit 7 set, its TAG, STATUS and data. -/
def Dev.ozSend (d : Dev) (typ : Nat) (tag : Byte) (status : Nat) (data : List Byte) : Dev :=
  { d with svc := { d.svc with resp := ozFrame (typ % 128 + 128) tag (leBytes 1 status ++ data) } }

/-- OZTIS_BAD_FRAME (R409, R411). -/
def execOztisBadFrame (crc : Bool) (typ tag : Byte) (s : State) : Host.Outcome State Fault Refusal :=
  s.run fun d =>
    if !d.portOn then d
    else if crc then (d.count (SVC_CNT 0)).ozSend 0xFF 0 ssCRCERR []
    else if ozKnown typ.toNat then d
    else d.ozSend typ.toNat tag ssBADTYPE []

/-- Gates of Table 22.2. -/
inductive OzGate where
  | none | image | unlock
  deriving DecidableEq, Repr

def Dev.ozOpen (d : Dev) : OzGate → Bool
  | .none => true
  | .image => d.flag SVC_STAT SVC_STAT_SESSION || d.flag SVC_STAT SVC_STAT_SERVICE
  | .unlock => d.flag SVC_STAT SVC_STAT_SESSION

/-- A request (R411): its payload's length, its gate, then the command, which answers STATUS and data. WAIT while SVCP has agreed to a power state and
takes no work (R371, R409). -/
def Dev.ozReq (d : Dev) (typ : Nat) (tag : Byte) (len : Bool) (g : OzGate) (f : Dev → Nat × List Byte × Dev) : Dev :=
  if !d.portOn then d
  else if d.rests 14 then (d.count (SVC_CNT 1)).ozSend typ tag ssWAIT []
  else if !len then d.ozSend typ tag ssBADARG []
  else if !d.ozOpen g then d.ozSend typ tag ssLOCKED []
  else (f d).2.2.ozSend typ tag (f d).1 (f d).2.1

/-- A command that runs longer than the response window: ACCEPTED, or BUSY while another runs. -/
def Dev.ozAccept (d : Dev) (typ : Nat) (pay : List Byte) (image : Bool) : Nat × List Byte × Dev :=
  if d.svc.oz.isSome || (image && d.svc.cmd.isSome) then (ssBUSY, [], d)
  else (ssACCEPTED, [], { d with svc := { d.svc with oz := some (typ, pay) } })

/-! ### The session (R410, R411, R414) -/

/-- HELLO's data. -/
def Dev.helloData (d : Dev) : List Byte :=
  let last := if d.svc.oz.isSome then (0, 0) else d.svc.last
  let flags := (d.flag SVC_STAT SVC_STAT_SESSION).toNat + 2 * (d.flag SVC_STAT SVC_STAT_SERVICE).toNat + 4 * (d.flag SVC_STAT SVC_STAT_XFER).toNat
  leBytes 8 d.devuid ++ leBytes 1 d.silicon ++ leBytes 1 (d.get SVC_IMG SVC_IMG_RUNNING) ++ leBytes 4 (d.reg SVC_VER).toNat ++ leBytes 1 flags
    ++ leBytes 1 last.1 ++ leBytes 1 last.2

/-- OZTIS_HELLO (R411). -/
def execOztisHello (tag : Byte) (pay : List Byte) (s : State) : Host.Outcome State Fault Refusal :=
  s.run fun d => d.ozReq ozHELLO tag pay.isEmpty .none fun d => (ssOK, d.helloData, d)

/-- OZTIS_RESET (R411, R47): the answer, then a system reset of source SVC. -/
def execOztisReset (tag : Byte) (pay : List Byte) (s : State) : Host.Outcome State Fault Refusal :=
  s.run fun d =>
    let d := d.ozReq ozRESET tag pay.isEmpty .none fun d => (ssOK, [], d)
    if d.portOn && pay.isEmpty && !d.rests 14 then
      let r := d.svc.resp
      let d := d.resetPulse 5
      { d with svc := { d.svc with resp := r } }
    else d

/-- CHALLENGE (R414). -/
def execChallenge (tag : Byte) (pay : List Byte) (s : State) : Host.Outcome State Fault Refusal :=
  s.run fun d => d.ozReq ozCHALLENGE tag pay.isEmpty .none fun d =>
    if d.flag KEY_STAT KEY_STAT_RNGFAIL then (ssRNG, [], d)
    else
      let f := d.freeBytes 16
      (ssOK, f.1, { f.2 with svc := { f.2.svc with nonce := some f.1 } })

/-- UNLOCK (R414): it answers ACCEPTED. -/
def execUnlock (tag : Byte) (pay : List Byte) (s : State) : Host.Outcome State Fault Refusal :=
  s.run fun d => d.ozReq ozUNLOCK tag (pay.length == 16) .none fun d => d.ozAccept ozUNLOCK pay false

/-- The verification of UNLOCK. -/
def Dev.unlockEnd (d : Dev) (t : List Byte) : Nat × Dev :=
  let q : Dev := { d with svc := { d.svc with nonce := none } }
  match d.svc.nonce with
  | none => (ssSTATE, d)
  | some n =>
    if (d.kslot 254).state = 0 then (ssNOKEY, q)
    else if 8 ≤ d.svc.fails then (ssLOCKOUT, q)
    else if d.svc.armed.isSome ∨ d.flag SVC_IMG SVC_IMG_CONFWAIT then (ssDEBUG, q)
    else if cmac (d.kslot 254).key ([0x44] ++ leBytes 8 d.devuid ++ n) = t then (ssOK, q.put SVC_STAT SVC_STAT_SESSION 1)
    else (ssLOCKED, Dev.count { q with svc := { q.svc with fails := q.svc.fails + 1 } } (SVC_CNT 2))

/-- The session ends: the port locks, every core in DEBUG runs on, a freeze ends (R410). -/
def Dev.sessionEnd (d : Dev) : Dev :=
  let d := d.put SVC_STAT SVC_STAT_SESSION 0
  let d := (span 0 7).foldl (fun (d : Dev) c => if d.coreState c = 5 then d.setCoreState c 1 else d) d
  { d with svc := { d.svc with freeze := false } }

/-- OZTIS_LOCK (R414). -/
def execOztisLock (tag : Byte) (pay : List Byte) (s : State) : Host.Outcome State Fault Refusal :=
  s.run fun d => d.ozReq ozLOCK tag pay.isEmpty .none fun d => (ssOK, [], d.sessionEnd)

/-- The receiver of SVC_ATN is on (R21, R66): while nothing is sown, and sown with the port's balls on. -/
def Dev.atnSeen (d : Dev) : Bool := d.fieldOn 6 && decide (d.pwr.pins = .notSown) || d.portOn

/-- ATN_FALL (R410). -/
def execAtnFall (frame : Bool) (s : State) : Host.Outcome State Fault Refusal :=
  s.run fun d =>
    if !d.atnSeen then d
    else
      let d := (d.put SVC_STAT SVC_STAT_ATN 1).put SVC_STAT SVC_STAT_ATNF 1
      if frame && d.portOn then { d.count (SVC_CNT 5) with svc := { d.svc with resp := [] } } else d

/-- SESSION_TIMEOUT (R410): an open transfer stays open. It is also where the model learns that the pin has risen, and SVC_STAT.ATN reads 1 up to it
(DESIGN CHOICE, log entry 178). -/
def execSessionTimeout (s : State) : Host.Outcome State Fault Refusal :=
  s.run fun d => if d.atnSeen then d.sessionEnd.put SVC_STAT SVC_STAT_ATN 0 else d

/-! ### Transfers (R413, R419) -/

/-- A transfer as it stands; XFER follows. -/
def Dev.setXfer (d : Dev) (x : Option Xfer) : Dev :=
  Dev.putB { d with svc := { d.svc with xfer := x } } SVC_STAT SVC_STAT_XFER x.isSome

/-- The transfer with its oldest buffer: programming begins where the bank is free and SLOW 0 (R37, R307). -/
def Dev.xferGo (d : Dev) (x : Xfer) : Dev :=
  if x.began || x.failed || x.bufs.isEmpty || !d.mayProg || d.bankBusy x.slot then d.setXfer (some x)
  else (d.setXfer (some { x with began := true })).engBegin x.slot

/-- A transfer whose DONE has reached LENGTH ends. -/
def Dev.keepXfer (d : Dev) (x : Xfer) : Dev := if x.done = x.len ∧ !x.failed then d.setXfer none else d.xferGo x

/-- NEXT and DONE. -/
def Xfer.data (x : Xfer) : List Byte := leBytes 4 x.next ++ leBytes 4 x.done

/-- The slot is no longer checked. -/
def Dev.unchecked (d : Dev) (n : Nat) : Dev := { d with svc := { d.svc with checked := d.svc.checked.filter (· ≠ n) } }

/-- The start of the lowest sector of the range that holds a word reading blank at the erase margin or failing a read at either
margin; LENGTH where none does. -/
def Dev.resumeAt (d : Dev) (slot len : Nat) : Nat :=
  let bad (o : Nat) : Bool := d.blankWord (imgBase slot + o) || !d.goodWord (imgBase slot + o)
  match (span 0 (len / 16)).find? (fun i => bad (16 * i)) with
  | some i => 16 * i / 4096 * 4096
  | none => len

/-- OPEN judged: the first failure. -/
def Dev.openJudge (d : Dev) (slot len : Nat) : Option Nat :=
  if 1 < slot ∨ len % 16 ≠ 0 ∨ 0x7BF000 < len then some ssBADARG
  else if d.svc.oz.isSome ∨ d.svc.cmd.isSome then some ssBUSY
  else if d.get SVC_IMG SVC_IMG_RUNNING = slot then some ssPROTECTED
  else if d.bankBusy slot then some ssBUSY
  else if d.flag PWR_SUPPLY PWR_SUPPLY_SLOW then some ssSUPPLYLOW
  else none

/-- OPEN (R413): `ok` tells whether the state sector's erase verifies. -/
def Dev.ozOpenXfer (d : Dev) (pay : List Byte) (ok : Bool) : Nat × List Byte × Dev :=
  let slot := u8 pay 0
  let len := u32 pay 2
  let d := d.unchecked slot
  match d.openJudge slot len with
  | some r => (r, [], d)
  | none =>
    let d := d.setXfer none
    if (u8 pay 1).testBit 0 then d.ozAccept ozOPEN pay true
    else
      let d := d.eraseSector (stateSector slot)
      let x : Xfer := { slot := slot, len := len, next := 0, done := 0, failed := !ok, bufs := [], began := false }
      if ok then (ssOK, x.data, d.keepXfer x) else (ssPROGFAIL, [], d.keepXfer x)

/-- OPEN. -/
def execOpenXfer (tag : Byte) (pay : List Byte) (ok : Bool) (s : State) : Host.Outcome State Fault Refusal :=
  s.run fun d => d.ozReq ozOPEN tag (pay.length == 6) .image fun d => d.ozOpenXfer pay ok

/-- The end of an OPEN with RESUME. -/
def Dev.resumeEnd (d : Dev) (pay : List Byte) : Nat × Dev :=
  let slot := u8 pay 0
  let len := u32 pay 2
  if d.bankBusy slot then (ssBUSY, d)
  else
    let n := d.resumeAt slot len
    (ssOK, d.keepXfer { slot := slot, len := len, next := n, done := n, failed := false, bufs := [], began := false })

/-- BURST (R413). -/
def Dev.ozBurst (d : Dev) (off : Nat) (data : List Byte) : Nat × List Byte × Dev :=
  match d.svc.xfer with
  | none => (ssSTATE, [], d)
  | some x =>
    if x.failed then (ssPROGFAIL, [], d)
    else if x.len < off + data.length then (ssBADARG, [], d)
    else if off < x.next then (ssOK, x.data, d)
    else if x.next < off then (ssGAP, [], d)
    else if 2 ≤ x.bufs.length then (ssWAIT, [], d.count (SVC_CNT 1))
    else if d.flag PWR_SUPPLY PWR_SUPPLY_SLOW then (ssSUPPLYLOW, [], d)
    else
      let x := { x with next := x.next + data.length, bufs := x.bufs ++ [(off, data)] }
      (ssOK, x.data, d.xferGo x)

/-- BURST. -/
def execBurst (tag : Byte) (pay : List Byte) (s : State) : Host.Outcome State Fault Refusal :=
  s.run fun d => d.ozReq ozBURST tag (decide (20 ≤ pay.length ∧ pay.length ≤ 4100 ∧ pay.length % 16 = 4)) .image fun d =>
    d.ozBurst (u32 pay 0) (pay.drop 4)

/-- The words of a buffer programmed, a sector erased where its first data begins; DONE follows the words that verify. -/
def Dev.xferWords (d : Dev) (x : Xfer) (erased : Bool) (good off : Nat) : List Byte → Nat → Xfer × Dev
  | _, 0 => (x, d)
  | data, n + 1 =>
    let a := imgBase x.slot + off
    let d := if off % 4096 = 0 then d.eraseSector a else d
    if off % 4096 = 0 ∧ !erased then ({ x with failed := true }, d.count (FLC_CNT 7))
    else
      let d := d.progVerify a (data.take 16) (decide (0 < good))
      if good = 0 then ({ x with failed := true }, d)
      else d.xferWords { x with done := off + 16 } erased (good - 1) (off + 16) (data.drop 16) n

/-- TRANSFER_PROGRAM_END (R413): the oldest buffer taken; its programming does not begin while the bank is busy or SLOW is 1, and goes on once it has
(R37; log entry 141). -/
def execTransferProgramEnd (erased : Bool) (good : Nat) (s : State) : Host.Outcome State Fault Refusal :=
  s.run fun d =>
    match d.svc.xfer with
    | none => d
    | some x =>
      match x.bufs with
      | [] => d
      | b :: r =>
        if x.failed || d.pwr.flIso || !(x.began || (d.mayProg && !d.bankBusy x.slot)) then d
        else
          let d := d.when x.began (fun d => d.engEnd x.slot)
          let q := (d.unchecked x.slot).xferWords { x with bufs := r, began := false } erased good b.1 b.2 (b.2.length / 16)
          q.2.keepXfer q.1

/-- OZTIS_CHECK (R417). -/
def execOztisCheck (tag : Byte) (pay : List Byte) (s : State) : Host.Outcome State Fault Refusal :=
  s.run fun d => d.ozReq ozCHECK tag (pay.length == 1) .image fun d =>
    if 1 < u8 pay 0 then (ssBADARG, [], d) else d.ozAccept ozCHECK pay true

/-- OZTIS_TRY (R419). -/
def execOztisTry (tag : Byte) (pay : List Byte) (s : State) : Host.Outcome State Fault Refusal :=
  s.run fun d => d.ozReq ozTRY tag (pay.length == 1) .image fun d =>
    if 1 < u8 pay 0 then (ssBADARG, [], d) else d.ozAccept ozTRY pay true

/-- The end of TRY. -/
def Dev.tryEnd (d : Dev) (n : Nat) (ok : Bool) : Nat × Dev :=
  if d.get SVC_IMG SVC_IMG_RUNNING = n then (ssPROTECTED, d)
  else if !d.svc.checked.contains n then (ssNOTCHECKED, d)
  else if d.bankBusy n then (ssBUSY, d)
  else if d.flag PWR_SUPPLY PWR_SUPPLY_SLOW then (ssSUPPLYLOW, d)
  else (if ok then ssOK else ssPROGFAIL, d.stateProg n kiTRIAL 0 ok)

/-- The end of an ACCEPTED Oztis command: HELLO shows its TYPE and STATUS. -/
def Dev.ozEnd (d : Dev) (outs : List Bool) : Dev :=
  match d.svc.oz with
  | none => d
  | some (typ, pay) =>
    let r := if typ = ozUNLOCK then d.unlockEnd pay
      else if typ = ozOPEN then d.resumeEnd pay
      else if typ = ozCHECK then d.imgJudge (u8 pay 0)
      else d.tryEnd (u8 pay 0) (outs.headD true)
    { r.2 with svc := { r.2.svc with oz := none, last := (typ, r.1) } }

/-- SVC_COMMAND_END (R411, R427). -/
def execSvcCommandEnd (oz : Bool) (outs : List Bool) (s : State) : Host.Outcome State Fault Refusal :=
  s.run fun d => if oz then d.ozEnd outs else d.svcCmdEnd outs

/-! ### Debug (R415) -/

/-- The port's word accesses: supervisor mode. -/
def portAcc (k : AccKind) : Access := ⟨k, false, true, false⟩

/-- A fault of a READ or WRITE: BUSFAULT with ESYN and the address. -/
def portFault (a : Nat) (p : Nat × Nat) (write : Bool) : List Byte :=
  leBytes 4 (esynOf p.2 p.1 write false false).toNat ++ leBytes 4 a

/-- A lock cell that a read of the port is addressed to: it is read through SEM_STAT (R296). -/
def semCell (a : Nat) : Option Nat :=
  match regAt a with
  | some (r, i) => if r.name == "SEM_TAKE" || r.name == "SEM_RESCUE" then some i else none
  | none => none

/-- A word that the port reads, with the rights of C0: only cores take lock cells (R296). -/
def Dev.portLoad (d : Dev) (a : Nat) : Option (Nat × Nat) × Nat × Dev :=
  match semCell a, d.accCode (portAcc .load) 0 a 4 with
  | some n, none => (none, (d.semStat n).toNat, d.touchDomain a)
  | _, _ => d.busLoad (portAcc .load) 0 a 4 []

/-- Words read from an address on, with the rights of C0. -/
def Dev.portRead (d : Dev) (a : Nat) : Nat → Nat × List Byte × Dev
  | 0 => (ssOK, [], d)
  | n + 1 =>
    let q := d.portLoad a
    match q.1 with
    | some p => (ssBUSFAULT, portFault a p false, q.2.2)
    | none =>
      let r := q.2.2.portRead (a + 4) n
      (r.1, if r.1 = ssOK then leBytes 4 q.2.1 ++ r.2.1 else r.2.1, r.2.2)

/-- A word written as a bus master writes it; a give is a core's alone (R296). -/
def Dev.portStore (d : Dev) (a v : Nat) : Option (Nat × Nat) × Dev :=
  if inPeriph a && d.writeDenied 0 a (BitVec.ofNat 32 v) then (some (synPRIVILEGE, a), d)
  else match d.accCode (portAcc .store) 0 a 4 with
  | some p => (some p, d)
  | none =>
    let d := d.touchDomain a
    if inPeriph a then
      if d.restsAt a then (none, d.hold (.registerWrite 0 (BitVec.ofNat 32 a) (BitVec.ofNat 32 v)))
      else if (regAt a).any (fun p => p.1.name == "SEM_GIVE") then (none, d)
      else (none, d.wordWrite 0 a (BitVec.ofNat 32 v))
    else if airKept a then (none, d)
    else (none, (d.eccClear a 4).setBytes a (leBytes 4 v))

/-- Words written from an address on. -/
def Dev.portWrite (d : Dev) (a : Nat) (data : List Byte) : Nat → Nat × List Byte × Dev
  | 0 => (ssOK, [], d)
  | n + 1 =>
    let q := d.portStore a (leVal (data.take 4))
    match q.1 with
    | some p => (ssBUSFAULT, portFault a p true, q.2)
    | none => q.2.portWrite (a + 4) (data.drop 4) n

/-- OZTIS_READ. -/
def execOztisRead (tag : Byte) (pay : List Byte) (s : State) : Host.Outcome State Fault Refusal :=
  s.run fun d => d.ozReq ozREAD tag (pay.length == 6) .unlock fun d =>
    let n := u16 pay 4
    if u32 pay 0 % 4 ≠ 0 ∨ n % 4 ≠ 0 ∨ n < 4 ∨ 4096 < n then (ssBADARG, [], d) else d.portRead (u32 pay 0) (n / 4)

/-- OZTIS_WRITE. -/
def execOztisWrite (tag : Byte) (pay : List Byte) (s : State) : Host.Outcome State Fault Refusal :=
  s.run fun d => d.ozReq ozWRITE tag (decide (8 ≤ pay.length ∧ pay.length ≤ 4100 ∧ pay.length % 4 = 0)) .unlock fun d =>
    if u32 pay 0 % 4 ≠ 0 then (ssBADARG, [], d) else d.portWrite (u32 pay 0) (pay.drop 4) (pay.length / 4 - 1)

/-- Cores of a mask that run or are halted enter DEBUG. -/
def Dev.debugHalt (d : Dev) (mask : Nat) : Dev :=
  (span 0 7).foldl (fun (d : Dev) c => if mask.testBit c ∧ (d.coreState c = 1 ∨ d.coreState c = 2) then d.setCoreState c 5 else d) d

/-- OZTIS_HALT. -/
def execOztisHalt (tag : Byte) (pay : List Byte) (s : State) : Host.Outcome State Fault Refusal :=
  s.run fun d => d.ozReq ozHALT tag (pay.length == 2) .unlock fun d =>
    (ssOK, [], Dev.debugHalt { d with svc := { d.svc with freeze := decide (u8 pay 1 = 1) } } (u8 pay 0))

/-- OZTIS_RUN. -/
def execOztisRun (tag : Byte) (pay : List Byte) (s : State) : Host.Outcome State Fault Refusal :=
  s.run fun d => d.ozReq ozRUN tag (pay.length == 1) .unlock fun d =>
    (ssOK, [], (span 0 7).foldl (fun (d : Dev) c => if (u8 pay 0).testBit c ∧ d.coreState c = 5 then d.setCoreState c 1 else d) d)

/-- The 18 words of REGS. -/
def CoreSt.words (x : CoreSt) : List Word := x.g.toList ++ [x.pc, x.fl]

/-- The registers that 18 words spell; FL keeps its reserved bits 0. -/
def CoreSt.ofWords (x : CoreSt) (b : List Byte) : CoreSt :=
  { x with
    g := Vector.ofFn (fun (i : Fin 16) => BitVec.ofNat 32 (u32 b (4 * i)))
    pc := BitVec.ofNat 32 (u32 b 64)
    fl := BitVec.ofNat 32 (u32 b 68) &&& 0xFFFF }

/-- The core a request names, where it is in DEBUG. -/
def Dev.debugCore (d : Dev) (n : Nat) : Option (Fin 7) :=
  if h : n < 7 then (if d.coreState n = 5 then some ⟨n, h⟩ else none) else none

/-- REGS. -/
def execRegs (tag : Byte) (pay : List Byte) (s : State) : Host.Outcome State Fault Refusal :=
  s.run fun d => d.ozReq ozREGS tag (pay.length == 1) .unlock fun d =>
    match d.debugCore (u8 pay 0) with
    | none => (ssSTATE, [], d)
    | some c => (ssOK, (d.core c).words.flatMap (fun w => leBytes 4 w.toNat), d)

/-- SETREG. -/
def execSetreg (tag : Byte) (pay : List Byte) (s : State) : Host.Outcome State Fault Refusal :=
  s.run fun d => d.ozReq ozSETREG tag (pay.length == 73) .unlock fun d =>
    match d.debugCore (u8 pay 0) with
    | none => (ssSTATE, [], d)
    | some c => (ssOK, [], d.setCore c ((d.core c).ofWords (pay.drop 1)))

end Sys2Proof.Machine
end

