-- ==== Sys2Proof/Machine/Operands.lean ====
section
/-! DEFINITION. Vorok instructions as bytes: prefixes, opcode maps, forms, memory operands, and the rules whose breach raises UD
(R261 to R265). -/

namespace Sys2Proof.Machine

/-- Mnemonics of Tables 13.4 and 13.5; FENCE by its argument. -/
inductive Mn where
  | nop | halt | fenceFull | fenceLoad | fenceStore | fenceSync | trap | ret | iret | brk | ud
  | add | adc | sub | sbb | and | or | xor | cmp | mov | movs | xchg | not | neg | tst
  | shl | shr | sar | rol | ror | mul | mulh | mulhu | div | divu | rem | remu
  | bcc | ld | st | lds | lea | push | pop | call | callr | jmp | jmpr | ldx | stx
  | clz | bswap | sext | movfl | setfl | csrr | csrw | daja | dajs | cvbd | cvdb | chkd | spmulc | spmag | ldsp | stsp
  | reserved
  deriving DecidableEq, Repr

/-- Forms (Table 13.2). -/
inductive Form where
  | n | i8 | j8 | j32 | rr | r | ri8 | ri16 | ri32 | rm
  deriving DecidableEq, Repr

/-- Prefixes (Table 13.3). -/
inductive Pfx where
  | dec | smp | nf | sz8 | sz16 | acq | rel
  deriving DecidableEq, Repr

def pfxOf (b : Byte) : Option Pfx :=
  match b.toNat with
  | 0xF0 => some .dec
  | 0xF1 => some .smp
  | 0xF2 => some .nf
  | 0xF3 => some .sz8
  | 0xF4 => some .sz16
  | 0xF5 => some .acq
  | 0xF6 => some .rel
  | _ => none

def Pfx.group : Pfx → Nat
  | .dec => 0
  | .smp => 0
  | .nf => 1
  | .sz8 => 2
  | .sz16 => 2
  | .acq => 3
  | .rel => 3

/-- At most one prefix of each group (R262). -/
def groupsOk (l : List Pfx) : Bool := (span 0 4).all (fun g => decide (l.countP (fun p => p.group == g) ≤ 1))

/-! ### Opcode maps (R264, R265) -/

/-- An entry: mnemonic, form, prefixes permitted. -/
structure Entry where
  mn   : Mn
  form : Form
  ok   : List Pfx
  deriving DecidableEq, Repr

def sizes : List Pfx := [.sz8, .sz16]

/-- The eight operations of 0x10 to 0x27, in their order. -/
def aluMn (k : Nat) : Mn := [Mn.add, .adc, .sub, .sbb, .and, .or, .xor, .cmp].getD k .reserved

/-- Prefixes of the eight operations: DEC on all but the logical ones, SMP on ADD and SUB in the register form. -/
def aluOk (k : Nat) (rr : Bool) : List Pfx :=
  (if k ≤ 3 ∨ k = 7 then [.dec] else []) ++ (if rr ∧ (k = 0 ∨ k = 2) then [.smp] else []) ++ [.nf, .sz8, .sz16]

def shiftMn (k : Nat) : Mn := [Mn.shl, .shr, .sar, .rol, .ror].getD k .reserved

/-- Page 0 (Table 13.4); none: reserved. -/
def page0 (op : Nat) : Option Entry :=
  if 0x10 ≤ op ∧ op ≤ 0x17 then some ⟨aluMn (op - 0x10), .rr, aluOk (op - 0x10) true⟩
  else if 0x18 ≤ op ∧ op ≤ 0x1F then some ⟨aluMn (op - 0x18), .ri8, aluOk (op - 0x18) false⟩
  else if 0x20 ≤ op ∧ op ≤ 0x27 then some ⟨aluMn (op - 0x20), .ri32, aluOk (op - 0x20) false⟩
  else if 0x30 ≤ op ∧ op ≤ 0x34 then some ⟨shiftMn (op - 0x30), .rr, [.nf]⟩
  else if 0x38 ≤ op ∧ op ≤ 0x3C then some ⟨shiftMn (op - 0x38), .ri8, if op = 0x3A then [.nf, .smp] else [.nf]⟩
  else if 0x40 ≤ op ∧ op ≤ 0x4F then some ⟨.bcc, .j8, []⟩
  else if 0x50 ≤ op ∧ op ≤ 0x5F then some ⟨.bcc, .j32, []⟩
  else match op with
    | 0x00 => some ⟨.nop, .n, []⟩
    | 0x01 => some ⟨.halt, .n, []⟩
    | 0x02 => some ⟨.fenceFull, .i8, []⟩
    | 0x03 => some ⟨.trap, .i8, []⟩
    | 0x04 => some ⟨.ret, .n, []⟩
    | 0x05 => some ⟨.iret, .n, []⟩
    | 0x06 => some ⟨.brk, .n, []⟩
    | 0x07 => some ⟨.ud, .n, []⟩
    | 0x28 => some ⟨.mov, .rr, sizes⟩
    | 0x29 => some ⟨.mov, .ri32, []⟩
    | 0x2A => some ⟨.movs, .ri8, []⟩
    | 0x2B => some ⟨.xchg, .rr, []⟩
    | 0x2C => some ⟨.not, .r, [.nf, .sz8, .sz16]⟩
    | 0x2D => some ⟨.neg, .r, [.dec, .smp, .nf, .sz8, .sz16]⟩
    | 0x2E => some ⟨.tst, .rr, [.nf, .sz8, .sz16]⟩
    | 0x2F => some ⟨.tst, .ri32, [.nf, .sz8, .sz16]⟩
    | 0x35 => some ⟨.mul, .rr, [.smp, .nf]⟩
    | 0x36 => some ⟨.mulh, .rr, [.nf]⟩
    | 0x37 => some ⟨.mulhu, .rr, [.nf]⟩
    | 0x3D => some ⟨.div, .rr, [.nf]⟩
    | 0x3E => some ⟨.divu, .rr, [.nf]⟩
    | 0x3F => some ⟨.rem, .rr, [.nf]⟩
    | 0x60 => some ⟨.ld, .rm, [.acq, .sz8, .sz16]⟩
    | 0x61 => some ⟨.st, .rm, [.rel, .sz8, .sz16]⟩
    | 0x62 => some ⟨.lds, .rm, [.acq, .sz8, .sz16]⟩
    | 0x63 => some ⟨.lea, .rm, []⟩
    | 0x64 => some ⟨.push, .r, []⟩
    | 0x65 => some ⟨.pop, .r, []⟩
    | 0x66 => some ⟨.call, .j32, []⟩
    | 0x67 => some ⟨.callr, .r, []⟩
    | 0x68 => some ⟨.jmp, .j8, []⟩
    | 0x69 => some ⟨.jmp, .j32, []⟩
    | 0x6A => some ⟨.jmpr, .r, []⟩
    | 0x6B => some ⟨.ldx, .rm, [.acq]⟩
    | 0x6C => some ⟨.stx, .rm, [.rel]⟩
    | 0xF7 => some ⟨.ud, .n, []⟩
    | _ => none

/-- Page 1 (Table 13.5); none: reserved. -/
def page1 (op : Nat) : Option Entry :=
  match op with
  | 0x00 => some ⟨.remu, .rr, [.nf]⟩
  | 0x01 => some ⟨.clz, .rr, [.nf]⟩
  | 0x02 => some ⟨.bswap, .rr, []⟩
  | 0x03 => some ⟨.sext, .rr, sizes⟩
  | 0x08 => some ⟨.movfl, .r, []⟩
  | 0x09 => some ⟨.setfl, .r, []⟩
  | 0x0A => some ⟨.csrr, .ri16, []⟩
  | 0x0B => some ⟨.csrw, .ri16, []⟩
  | 0x10 => some ⟨.daja, .r, []⟩
  | 0x11 => some ⟨.dajs, .r, []⟩
  | 0x12 => some ⟨.cvbd, .rr, []⟩
  | 0x13 => some ⟨.cvdb, .rr, []⟩
  | 0x14 => some ⟨.chkd, .r, []⟩
  | 0x18 => some ⟨.spmulc, .rr, [.nf]⟩
  | 0x19 => some ⟨.spmag, .rr, [.nf]⟩
  | 0x1A => some ⟨.ldsp, .rm, [.acq]⟩
  | 0x1B => some ⟨.stsp, .rm, [.rel]⟩
  | _ => none

/-! ### An instruction (R261 to R263) -/

/-- An instruction read from its bytes. `imm`: the immediate or the offset as its bytes spell it; `bad`: a rule is broken that raises
UD. -/
structure Insn where
  mn   : Mn
  form : Form
  pfx  : List Pfx
  op   : Nat
  d    : Fin 16
  s    : Fin 16
  mf   : Nat
  disp : Word
  imm  : Nat
  len  : Nat
  bad  : Bool
  deriving DecidableEq, Repr

/-- Bytes of a displacement (R263). -/
def dispLen (mf : Nat) : Nat := [0, 1, 2, 4].getD (mf / 64 % 4) 0

/-- Bytes after the opcode, F1 and MF included; `r`: the bytes there so far. -/
def Form.bytes (f : Form) (r : List Byte) : Nat :=
  match f with
  | .n => 0
  | .i8 => 1
  | .j8 => 1
  | .j32 => 4
  | .rr => 1
  | .r => 1
  | .ri8 => 2
  | .ri16 => 3
  | .ri32 => 5
  | .rm => 2 + (if r.length < 2 then 1 else dispLen (u8 r 1))

/-- Prefixes, page and opcode, and what follows; none where no opcode has come yet. -/
structure Opening where
  pfx  : List Pfx
  page : Nat
  op   : Nat
  rest : List Byte
  pre  : Nat
  deriving DecidableEq, Repr

def opening (b : List Byte) : Option Opening :=
  let ps := (b.takeWhile (fun x => (pfxOf x).isSome)).filterMap pfxOf
  match b.drop ps.length with
  | [] => none
  | o :: r =>
    if o.toNat = 0xE0 then
      match r with
      | [] => none
      | o :: r => some ⟨ps, 1, o.toNat, r, ps.length + 2⟩
    else some ⟨ps, 0, o.toNat, r, ps.length + 1⟩

def Opening.entry (o : Opening) : Option Entry := if o.page = 0 then page0 o.op else page1 o.op

/-- The bytes hold a whole instruction, or more prefixes than one may carry. -/
def insnDone (b : List Byte) : Bool :=
  match opening b with
  | none => decide (4 ≤ b.length) && (b.take 4).all (fun x => (pfxOf x).isSome)
  | some o =>
    match o.entry with
    | none => true
    | some e => decide (e.form.bytes o.rest ≤ o.rest.length)

/-- Field rules (R263, R264, R265): fields that must be 0, index rules, immediate ranges, required size prefixes. -/
def fieldBad (e : Entry) (o : Opening) (lo mf imm : Nat) : Bool :=
  match e.form with
  | .r => lo != 0
  | .ri8 =>
    lo != 0 || ([Mn.shl, .shr, .sar, .rol, .ror].contains e.mn && decide ((if o.pfx.contains .smp then 11 else 31) < imm))
  | .ri16 => lo != 0
  | .ri32 => lo != 0
  | .rm =>
    let sc := mf / 16 % 4
    (mf % 16 == 15 && (sc == 1 || sc == 2 || (sc == 3 && lo != 0))) || (e.mn == .lds && !o.pfx.any sizes.contains)
  | .rr => e.mn == .sext && !o.pfx.any sizes.contains
  | .i8 => e.mn == .fenceFull && decide (3 < imm)
  | .j8 => e.mn == .bcc && o.op % 16 == 15
  | .j32 => e.mn == .bcc && o.op % 16 == 15
  | .n => false

/-- FENCE by its argument; another argument raises UD. -/
def fenceMn (i : Nat) : Mn := [Mn.fenceFull, .fenceLoad, .fenceStore, .fenceSync].getD i .ud

/-- An instruction that only raises UD. -/
def Insn.udOf (len : Nat) : Insn := ⟨.ud, .n, [], 0x07, 0, 0, 0, 0, 0, len, true⟩

/-- The instruction that the bytes spell. -/
def parse (b : List Byte) : Insn :=
  match opening b with
  | none => Insn.udOf b.length
  | some o =>
    match o.entry with
    | none => ⟨.reserved, .n, o.pfx, o.op, 0, 0, 0, 0, 0, o.pre, !groupsOk o.pfx⟩
    | some e =>
      let r := o.rest
      let f1 := u8 r 0
      let mf := if e.form = .rm then u8 r 1 else 0
      let dl := dispLen mf
      let disp : Int := if e.form = .rm ∧ dl ≠ 0 then sext (8 * dl) (leVal ((r.drop 2).take dl)) else 0
      let imm := match e.form with
        | .i8 => u8 r 0
        | .j8 => u8 r 0
        | .j32 => u32 r 0
        | .ri8 => u8 r 1
        | .ri16 => u16 r 1
        | .ri32 => u32 r 1
        | _ => 0
      let len := o.pre + e.form.bytes r
      let bad := !groupsOk o.pfx || o.pfx.any (fun p => !e.ok.contains p) || fieldBad e o (f1 % 16) mf imm || decide (9 < len)
      let mn := if e.mn = .fenceFull then fenceMn imm else e.mn
      ⟨mn, e.form, o.pfx, o.op, Fin.ofNat 16 (f1 / 16), Fin.ofNat 16 f1, mf, BitVec.ofInt 32 disp, imm, len, bad⟩

/-! ### Operands -/

def Insn.has (i : Insn) (p : Pfx) : Bool := i.pfx.contains p

/-- Bytes of the operation (R268). -/
def Insn.size (i : Insn) : Nat := if i.has .sz8 then 1 else if i.has .sz16 then 2 else 4

/-- Bits of the operation. -/
def Insn.bits (i : Insn) : Nat := 8 * i.size

/-- A general register. -/
def CoreSt.gr (x : CoreSt) (n : Fin 16) : Word := x.g[n]

/-- A general register written. -/
def CoreSt.setGr (x : CoreSt) (n : Fin 16) (v : Word) : CoreSt := { x with g := x.g.set n v }

/-- The low bits of a register replaced by a narrow result (R268). -/
def mergeLow (old : Word) (w r : Nat) : Word := setF old ⟨w - 1, 0⟩ r

/-- The second operand of a register or immediate form (R264). -/
def Insn.rhs (i : Insn) (x : CoreSt) : Word :=
  match i.form with
  | .ri8 => if i.has .dec then BitVec.ofNat 32 i.imm else BitVec.ofInt 32 (sext 8 i.imm)
  | .ri32 => BitVec.ofNat 32 i.imm
  | _ => x.gr i.s

/-- The address of a memory form (R263); `next`: the address of the next instruction. -/
def Insn.addr (i : Insn) (x : CoreSt) (next : Word) : Word :=
  let idx := i.mf % 16
  let sc := i.mf / 16 % 4
  if idx ≠ 15 then x.gr i.s + (x.gr (Fin.ofNat 16 idx) <<< sc) + i.disp
  else if sc = 3 then next + i.disp
  else x.gr i.s + i.disp

/-- The target of a relative jump (R261, R267). -/
def Insn.target (i : Insn) (next : Word) : Word :=
  next + (if i.form = .j8 then BitVec.ofInt 32 (sext 8 i.imm) else BitVec.ofNat 32 i.imm)

end Sys2Proof.Machine
end

