-- ==== Sys2Proof/Machine/Flags.lean ====
section
/-! DEFINITION. Results and flags of Vorok's arithmetic: binary (R266, R268), packed decimal (R269 to R271), sample pairs (R272), and the
conditions of Table 13.6. -/

namespace Sys2Proof.Machine

/-- A result with the flags it sets. -/
structure AluOut where
  r  : Nat
  n  : Bool
  z  : Bool
  c  : Bool
  v  : Bool
  hc : Nat
  deriving DecidableEq, Repr

def fBit (fl : Word) (f : Fld) : Bool := decide (getF fl f ≠ 0)
def fPut (fl : Word) (f : Fld) (b : Bool) : Word := setF fl f b.toNat

/-- N and Z of a result of `w` bits. -/
def topBit (w r : Nat) : Bool := r.testBit (w - 1)

/-- Bits 0 to n − 1, each as `f` tells. -/
def bitsOf (n : Nat) (f : Nat → Bool) : Nat := (span 0 n).foldl (fun a i => a + (if f i then 2 ^ i else 0)) 0

/-! ### Binary (R266) -/

/-- Sum of `w` bits with a carry in. -/
def addBin (w a b cin : Nat) : AluOut :=
  let r := (a + b + cin) % 2 ^ w
  { r := r
    n := topBit w r
    z := decide (r = 0)
    c := decide (2 ^ w ≤ a + b + cin)
    v := topBit w a == topBit w b && topBit w r != topBit w a
    hc := bitsOf (w / 4) (fun i => decide (16 ^ (i + 1) ≤ a % 16 ^ (i + 1) + b % 16 ^ (i + 1) + cin)) }

/-- Difference of `w` bits with a borrow in. -/
def subBin (w a b cin : Nat) : AluOut :=
  let r := (a + 2 ^ w - (b + cin)) % 2 ^ w
  { r := r
    n := topBit w r
    z := decide (r = 0)
    c := decide (a < b + cin)
    v := topBit w a != topBit w b && topBit w r != topBit w a
    hc := bitsOf (w / 4) (fun i => decide (a % 16 ^ (i + 1) < b % 16 ^ (i + 1) + cin)) }

/-- FL after the arithmetic class: N, Z, C, V and all of HC. -/
def AluOut.arith (o : AluOut) (fl : Word) : Word :=
  setF (fPut (fPut (fPut (fPut fl flN o.n) flZ o.z) flC o.c) flV o.v) flHC o.hc

/-- FL after the logical class. -/
def logicFl (fl : Word) (w r : Nat) : Word := fPut (fPut (fPut (fPut fl flN (topBit w r)) flZ (decide (r = 0))) flC false) flV false

/-- N and Z alone. -/
def nzFl (fl : Word) (w r : Nat) : Word := fPut (fPut fl flN (topBit w r)) flZ (decide (r = 0))

/-- Shifts and rotations of 32 bits by 1 to 31, with the last bit shifted out. -/
inductive ShiftOp where
  | shl | shr | sar | rol | ror
  deriving DecidableEq, Repr

def shiftVal (k : ShiftOp) (a : Word) (n : Nat) : Word :=
  match k with
  | .shl => a <<< n
  | .shr => a >>> n
  | .sar => a.sshiftRight n
  | .rol => a.rotateLeft n
  | .ror => a.rotateRight n

def shiftOut (k : ShiftOp) (a : Word) (n : Nat) : Bool :=
  match k with
  | .shl => a.getLsbD (32 - n)
  | .rol => a.getLsbD (32 - n)
  | _ => a.getLsbD (n - 1)

/-- FL after the shift class; a count of 0 leaves C. -/
def shiftFl (fl : Word) (k : ShiftOp) (a : Word) (n : Nat) : Word :=
  let fl := fPut (nzFl fl 32 (shiftVal k a n).toNat) flV false
  if n = 0 then fl else fPut fl flC (shiftOut k a n)

/-- FL after MUL: C and V where the signed product does not fit. -/
def mulFl (fl : Word) (a b : Word) : Word :=
  let p := a.toInt * b.toInt
  let ovr := decide (p < -2147483648 ∨ 2147483647 < p)
  fPut (fPut (nzFl fl 32 (a * b).toNat) flC ovr) flV ovr

/-- The high half of the signed product. -/
def mulHigh (a b : Word) : Word := BitVec.ofInt 32 (a.toInt * b.toInt / 4294967296)

/-- The high half of the unsigned product. -/
def mulHighU (a b : Word) : Word := BitVec.ofNat 32 (a.toNat * b.toNat / 4294967296)

/-- Quotient and remainder, truncating toward zero. -/
def divS (a b : Word) : Word := BitVec.ofInt 32 (a.toInt.tdiv b.toInt)
def remS (a b : Word) : Word := BitVec.ofInt 32 (a.toInt.tmod b.toInt)
def divU (a b : Word) : Word := BitVec.ofNat 32 (a.toNat / b.toNat)
def remU (a b : Word) : Word := BitVec.ofNat 32 (a.toNat % b.toNat)

/-- FL after the divide class. -/
def divFl (fl : Word) (r : Word) (v : Bool) : Word := fPut (fPut (nzFl fl 32 r.toNat) flC false) flV v

/-- Number of leading zero bits. -/
def leadZeros (a : Word) : Nat := 32 - (if a = 0 then 0 else Nat.log2 a.toNat + 1)

/-- The four bytes reversed. -/
def byteSwap (a : Word) : Word := BitVec.ofNat 32 (leVal (leBytes 4 a.toNat).reverse)

/-- Conditions (Table 13.6). -/
def cond (cc : Nat) (fl : Word) : Bool :=
  let z := fBit fl flZ
  let n := fBit fl flN
  let v := fBit fl flV
  let c := fBit fl flC
  match cc with
  | 0 => z
  | 1 => !z
  | 2 => c
  | 3 => !c
  | 4 => n
  | 5 => !n
  | 6 => v
  | 7 => !v
  | 8 => !c && !z
  | 9 => c || z
  | 10 => n == v
  | 11 => n != v
  | 12 => !z && n == v
  | 13 => z || n != v
  | _ => true

/-! ### Packed decimal (R269 to R271) -/

def nibble (a i : Nat) : Nat := a / 16 ^ i % 16

/-- Some digit of the `n` is invalid. -/
def badDigit (n a : Nat) : Bool := (span 0 n).any (fun i => decide (9 < nibble a i))

/-- One digit: its result and the carry or borrow out. -/
def decDigit (sub : Bool) (x y c : Nat) : Nat × Nat :=
  if sub then (if x < y + c then ((x + 10 + 16 - (y + c)) % 16, 1) else ((x - (y + c)) % 16, 0))
  else if 9 < x + y + c then ((x + y + c - 10) % 16, 1) else ((x + y + c) % 16, 0)

/-- Digits from `i` on: the result's value from digit `i` on in place, the carry out, and HC. -/
def decDigits (sub : Bool) (a b : Nat) : Nat → Nat → Nat → Nat × Nat × Nat
  | _, c, 0 => (0, c, 0)
  | i, c, n + 1 =>
    let t := decDigit sub (nibble a i) (nibble b i) c
    let q := decDigits sub a b (i + 1) t.2 n
    (t.1 * 16 ^ i + q.1, q.2.1, t.2 * 2 ^ i + q.2.2)

/-- Decimal sum or difference of `n` digits. -/
def decOp (sub : Bool) (n a b cin : Nat) : AluOut :=
  let q := decDigits sub a b 0 cin n
  { r := q.1
    n := decide (5 ≤ nibble q.1 (n - 1))
    z := decide (q.1 = 0)
    c := decide (q.2.1 ≠ 0)
    v := badDigit n a || badDigit n b
    hc := q.2.2 }

/-- DAJA's digits: result and carry. -/
def dajaDigits (d hc : Nat) : Nat → Nat → Nat → Nat × Nat
  | _, c, 0 => (0, c)
  | i, c, n + 1 =>
    let x := nibble d i + c
    let t := if hc.testBit i then ((x + 6) % 16, 0) else if 9 < x then ((x - 10) % 16, 1) else (x % 16, 0)
    let q := dajaDigits d hc (i + 1) t.2 n
    (t.1 * 16 ^ i + q.1, q.2)

/-- DAJS's digits. -/
def dajsVal (d hc : Nat) : Nat :=
  (span 0 8).foldl (fun r i => r + (if hc.testBit i then (nibble d i + 10) % 16 else nibble d i) * 16 ^ i) 0

/-- Z and N as R269 sets them, V and HC cleared, C as given. -/
def dajFl (fl : Word) (r : Nat) (c : Bool) : Word :=
  setF (fPut (fPut (fPut (fPut fl flZ (decide (r = 0))) flN (decide (5 ≤ nibble r 7))) flC c) flV false) flHC 0

/-- CVDB's value: invalid digits at their nibble value. -/
def decValue (s : Nat) : Nat := (span 0 8).foldl (fun r i => r + nibble s i * 10 ^ i) 0

/-! ### Sample pairs (R272) -/

/-- Lanes I and Q of a register. -/
def laneI (w : Word) : Int := sext 12 w.toNat
def laneQ (w : Word) : Int := sext 12 (w.toNat / 65536)

/-- A lane result bounded, and whether it saturated. -/
def satLane (x : Int) : Int := clampI (-2048) 2047 x

/-- A pair written with sign extension. -/
def pairWord (i q : Int) : Word := BitVec.ofNat 32 (twos 16 i + 65536 * twos 16 q)

/-- A sample-pair result before saturation: the word, Z, V. -/
structure SmpOut where
  r : Word
  z : Bool
  v : Bool
  deriving DecidableEq, Repr

def smpOut (i q : Int) : SmpOut :=
  let si := satLane i
  let sq := satLane q
  ⟨pairWord si sq, decide (si = 0 ∧ sq = 0), decide (si ≠ i ∨ sq ≠ q)⟩

/-- FL after a sample-pair operation: Z, V, and QS where V. -/
def SmpOut.fl (o : SmpOut) (fl : Word) : Word :=
  let fl := fPut (fPut fl flZ o.z) flV o.v
  if o.v then fPut fl flQS true else fl

/-- The complex product, `conj` with s.Q negated first. -/
def smpMul (conj : Bool) (d s : Word) : SmpOut :=
  let sq := if conj then -laneQ s else laneQ s
  smpOut ((laneI d * laneI s - laneQ d * sq + 1024) / 2048) ((laneI d * sq + laneQ d * laneI s + 1024) / 2048)

/-- The squared magnitude. -/
def smpMag (s : Word) : Word := BitVec.ofInt 32 (laneI s * laneI s + laneQ s * laneQ s)

/-- The 3-byte capture sample of a register (R273): byte 0 lowest. -/
def captureOf (w : Word) : Nat :=
  let i := w.toNat % 4096
  let q := w.toNat / 65536 % 4096
  i / 16 + 256 * (i % 16 * 16 + q / 256) + 65536 * (q % 256)

/-- The sample pair that three bytes spell. -/
def captureTo (v : Nat) : Word :=
  let i := v % 256 * 16 + v / 256 % 256 / 16
  let q := v / 256 % 16 * 256 + v / 65536 % 256
  pairWord (sext 12 i) (sext 12 q)

end Sys2Proof.Machine
end

