-- ==== Sys2Proof/Machine/Run.lean ====
section
/-! DEFINITION. How a core fetches and runs one Vorok instruction, raises its exceptions (R276, R277) and is interrupted (R278). -/

namespace Sys2Proof.Machine

/-- The core executes instructions: it is in RUN, out of reset, and its clock runs. -/
def Dev.coreRuns (d : Dev) (c : Fin 7) : Bool := decide (d.coreState c = 1) && decide (d.pwr.phase = .running) && !d.clk.stopped

/-- User mode (R275). -/
def Dev.inUser (d : Dev) (c : Fin 7) : Bool := fBit (d.core c).fl flU

/-! ### Fetch -/

inductive Fetched where
  | whole (b : List Byte)
  | fault (a : Nat) (p : Nat × Nat)
  deriving DecidableEq, Repr

/-- One byte of an instruction. `first`: nothing of its memory word has been read for this instruction yet. -/
def Dev.fetchByte (d : Dev) (c : Fin 7) (a : Nat) (first : Bool) : Option (Nat × Nat) × Byte × Dev :=
  let x : Access := ⟨.fetch, d.inUser c, false, false⟩
  match d.accByte x c a with
  | some k => (some (k, a), 0, d)
  | none =>
    if first || a % (if flashAddr a then 16 else 4) = 0 then
      let q := (d.touchDomain a).touch x c a
      match q.1 with
      | some k => (some (k, a), 0, q.2.2)
      | none =>
        let d := if q.2.2.cacheable a then q.2.2.insnLine c (q.2.2.canon a / 64) else q.2.2
        if q.2.1 then
          let f := d.free
          (none, f.1.setWidth 8, f.2)
        else (none, d.byte a, d)
    else (none, d.byte a, d)

/-- The bytes of the instruction at `pc`, at most `n` more than `b`. -/
def Dev.fetchFrom (d : Dev) (c : Fin 7) (pc : Nat) (b : List Byte) : Nat → Fetched × Dev
  | 0 => (.whole b, d)
  | n + 1 =>
    if insnDone b then (.whole b, d)
    else
      let a := (pc + b.length) % 2 ^ 32
      let q := d.fetchByte c a b.isEmpty
      match q.1 with
      | some p => (.fault a p, q.2.2)
      | none => q.2.2.fetchFrom c pc (b ++ [q.2.1]) n

/-- The instruction at a core's PC: 9 bytes at most (R261). -/
def Dev.fetch (d : Dev) (c : Fin 7) : Fetched × Dev := d.fetchFrom c (d.core c).pc.toNat [] 9

/-! ### Exceptions -/

/-- An exception that writes neither EADDR nor ESYN; EPC is the instruction's first byte. -/
def plainExc (code : Nat) (pc : Word) : Exc := ⟨code, 0, pc, none, none⟩

/-- ALIGN with the access address. -/
def alignExc (pc a : Word) : Exc := ⟨excALIGN, 0, pc, some a, none⟩

/-- FETCH at the faulting byte. -/
def Dev.fetchExc (d : Dev) (c : Fin 7) (a : Nat) (p : Nat × Nat) : Exc :=
  Access.exc ⟨.fetch, d.inUser c, false, false⟩ (d.core c).pc a p

/-! ### One instruction -/

/-- What a meaning sees: the core, the address of the instruction and of the next one, the instruction, and the device with the core's PC
already at the next instruction. -/
structure Ctx where
  c    : Fin 7
  pc   : Word
  next : Word
  i    : Insn
  deriving DecidableEq, Repr

/-- The registers of the core changed. -/
def Dev.onCore (d : Dev) (k : Ctx) (f : CoreSt → CoreSt) : Dev := d.setCore k.c (f (d.core k.c))

/-- An exception of the instruction under way; PC is what EPC takes. -/
def Dev.raiseAt (d : Dev) (k : Ctx) (e : Exc) : Dev := (d.onCore k (fun x => { x with pc := e.epc })).enter k.c e

/-- Core `c` executes the instruction at its PC where it is one that `mn` picks; a fetch fault raises FETCH and a broken rule UD, in the
order of Table 13.7. What the image controller has due follows (R424). A core whose next instruction is another one, or that does not
run, is left as it is. K0 waits where its access meets a flash that is starting up (R313). -/
def Dev.vorok (d : Dev) (c : Fin 7) (mn : Mn) (f : Ctx → Dev → Dev) : Dev :=
  if !d.coreRuns c then d
  else
    let q := d.fetch c
    let e := match q.1 with
      | .fault a p => (q.2.enter c (d.fetchExc c a p)).svcDue
      | .whole b =>
        let i := parse b
        let pc := (d.core c).pc
        if i.mn ≠ mn then d
        else if i.bad then (q.2.enter c (plainExc excUD pc)).svcDue
        else
          let k : Ctx := ⟨c, pc, pc + BitVec.ofNat 32 i.len, i⟩
          (f k (q.2.onCore k (fun x => { x with pc := k.next }))).svcDue
    if e.k0Wait then { d with k0Wait := false } else e

/-- A meaning that only supervisor mode has (R275). -/
def Dev.supervised (k : Ctx) (f : Dev → Dev) (d : Dev) : Dev :=
  if d.inUser k.c then d.raiseAt k (plainExc excPRIV k.pc) else f d

/-! ### Data accesses -/

/-- The access of a load or store instruction. -/
def Dev.acc (d : Dev) (k : Ctx) (kind : AccKind) (word excl : Bool) : Access := ⟨kind, d.inUser k.c, word, excl⟩

/-- A load of `n` bytes at `a` for an instruction, aligned to `al`; the device is left to `f` with the value. A load that faults leaves
every register (R273). -/
def Dev.loadFor (d : Dev) (k : Ctx) (x : Access) (a : Word) (n al : Nat) (up : List Nat) (f : Nat → Dev → Dev) : Dev :=
  if a.toNat % al ≠ 0 then d.raiseAt k (alignExc k.pc a)
  else
    let q := d.coreLoad x k.c a.toNat n up
    match q.1 with
    | some p => q.2.2.raiseAt k (x.exc k.pc a.toNat p)
    | none => f q.2.1 q.2.2

/-- A store of `n` bytes. -/
def Dev.storeFor (d : Dev) (k : Ctx) (x : Access) (a : Word) (n al v : Nat) (up : List Nat) (f : Dev → Dev) : Dev :=
  if a.toNat % al ≠ 0 then d.raiseAt k (alignExc k.pc a)
  else
    let q := d.coreStore x k.c a.toNat n v up
    match q.1 with
    | some p => q.2.raiseAt k (x.exc k.pc a.toNat p)
    | none => f q.2

/-! ### Interrupts (R278) -/

/-- An interrupt is pending at the core. -/
def Dev.irqAt (d : Dev) (c : Fin 7) : Bool := (d.presented c).isSome

/-- An interrupt may be taken at this boundary. -/
def Dev.irqTaken (d : Dev) (c : Fin 7) : Bool := d.irqAt c && fBit (d.core c).fl flIE && !fBit (d.core c).fl flEXL

/-- INTERRUPT_ENTRY (R278): EPC is the next instruction. -/
def execInterruptEntry (c : Fin 7) (s : State) : Host.Outcome State Fault Refusal :=
  s.run fun d => if d.coreRuns c && d.irqTaken c then d.enter c (plainExc excINT (d.core c).pc) else d

/-- The power manager keeps the core's clock gated: the device is in IDLE, or the core has agreed in an entry under way (R371). -/
def Dev.heldHalted (d : Dev) (c : Fin 7) : Bool :=
  decide (d.get PWR_STAT PWR_STAT_STATE = 1) || (match d.pwr.entry with
    | some e => e.agreed.contains (26 + c.val)
    | none => false)

/-- HALT_WAKE (R278): the clock runs again, and an interrupt is taken at once if IE is 1 and EXL is 0. -/
def execHaltWake (c : Fin 7) (s : State) : Host.Outcome State Fault Refusal :=
  s.run fun d =>
    if d.coreState c ≠ 2 ∨ !d.irqAt c ∨ d.heldHalted c then d
    else
      let d := d.setCoreState c 1
      if d.irqTaken c then d.enter c (plainExc excINT (d.core c).pc) else d

end Sys2Proof.Machine
end

