-- ==== Sys2Proof/Machine/Vorok.lean ====
section
/-! DEFINITION. The Vorok instructions (chapter 13): each row's meaning is what core `c` does when the instruction at its PC is that
one. -/

namespace Sys2Proof.Machine

/-! ### Arithmetic, logic, moves -/

/-- FL changed unless NF is present. -/
def Ctx.setFl (k : Ctx) (x : CoreSt) (fl : Word) : CoreSt := if k.i.has .nf then x else { x with fl := fl }

/-- The arithmetic class on two operands (R266, R268, R269, R272): binary, decimal or sample-pair; `write`: the result goes to d. -/
def Ctx.arith (k : Ctx) (sub useC write : Bool) (a b : Word) (x : CoreSt) : CoreSt :=
  let w := k.i.bits
  let a := a.toNat % 2 ^ w
  let b := b.toNat % 2 ^ w
  let cin := if useC then getF x.fl flC else 0
  let put := fun (r : Nat) => if write then x.setGr k.i.d (mergeLow (x.gr k.i.d) w r) else x
  if k.i.has .smp then
    let p := BitVec.ofNat 32 a
    let q := BitVec.ofNat 32 b
    let o := if sub then smpOut (laneI p - laneI q) (laneQ p - laneQ q) else smpOut (laneI p + laneI q) (laneQ p + laneQ q)
    k.setFl (put o.r.toNat) (o.fl x.fl)
  else
    let o := if k.i.has .dec then decOp sub (w / 4) a b cin else if sub then subBin w a b cin else addBin w a b cin
    k.setFl (put o.r) (o.arith x.fl)

/-- The logical class. -/
def Ctx.logic (k : Ctx) (write : Bool) (f : Nat → Nat → Nat) (x : CoreSt) : CoreSt :=
  let w := k.i.bits
  let r := f ((x.gr k.i.d).toNat % 2 ^ w) ((k.i.rhs x).toNat % 2 ^ w)
  k.setFl (if write then x.setGr k.i.d (mergeLow (x.gr k.i.d) w r) else x) (logicFl x.fl w r)

/-- ADD, ADC, SUB, SBB and CMP. -/
def Ctx.arithRow (k : Ctx) (sub useC write : Bool) (d : Dev) : Dev :=
  d.onCore k (fun x => k.arith sub useC write (x.gr k.i.d) (k.i.rhs x) x)

/-- ADD (R266): d + s or i; lanes under SMP -/
def execAdd (c : Fin 7) (s : State) : Host.Outcome State Fault Refusal :=
  s.on fun d => d.vorok c .add fun k d => k.arithRow false false true d

/-- ADC (R266): the sum with C -/
def execAdc (c : Fin 7) (s : State) : Host.Outcome State Fault Refusal :=
  s.on fun d => d.vorok c .adc fun k d => k.arithRow false true true d

/-- SUB (R266): d − s or i -/
def execSub (c : Fin 7) (s : State) : Host.Outcome State Fault Refusal :=
  s.on fun d => d.vorok c .sub fun k d => k.arithRow true false true d

/-- SBB (R266): the difference less C -/
def execSbb (c : Fin 7) (s : State) : Host.Outcome State Fault Refusal :=
  s.on fun d => d.vorok c .sbb fun k d => k.arithRow true true true d

/-- CMP (R266): SUB that writes only FL -/
def execCmp (c : Fin 7) (s : State) : Host.Outcome State Fault Refusal :=
  s.on fun d => d.vorok c .cmp fun k d => k.arithRow true false false d

/-- NEG (R266): 0 − d -/
def execNeg (c : Fin 7) (s : State) : Host.Outcome State Fault Refusal :=
  s.on fun d => d.vorok c .neg fun k d => d.onCore k (fun x => k.arith true false true 0 (x.gr k.i.d) x)

/-- AND (R266): bitwise -/
def execAnd (c : Fin 7) (s : State) : Host.Outcome State Fault Refusal :=
  s.on fun d => d.vorok c .and fun k d => d.onCore k (k.logic true (fun a b => a &&& b))

/-- OR (R266): bitwise -/
def execOr (c : Fin 7) (s : State) : Host.Outcome State Fault Refusal :=
  s.on fun d => d.vorok c .or fun k d => d.onCore k (k.logic true (fun a b => a ||| b))

/-- XOR (R266): bitwise -/
def execXor (c : Fin 7) (s : State) : Host.Outcome State Fault Refusal :=
  s.on fun d => d.vorok c .xor fun k d => d.onCore k (k.logic true (fun a b => a ^^^ b))

/-- TST (R266): AND that writes only FL -/
def execTst (c : Fin 7) (s : State) : Host.Outcome State Fault Refusal :=
  s.on fun d => d.vorok c .tst fun k d => d.onCore k (k.logic false (fun a b => a &&& b))

/-- NOT: N and Z only. -/
def Ctx.notOp (k : Ctx) (x : CoreSt) : CoreSt :=
  let w := k.i.bits
  let r := 2 ^ w - 1 - (x.gr k.i.d).toNat % 2 ^ w
  k.setFl (x.setGr k.i.d (mergeLow (x.gr k.i.d) w r)) (nzFl x.fl w r)

/-- NOT (R264): the complement -/
def execNot (c : Fin 7) (s : State) : Host.Outcome State Fault Refusal :=
  s.on fun d => d.vorok c .not fun k d => d.onCore k k.notOp

/-- MOV (R264, R268): d ← s or i -/
def execMov (c : Fin 7) (s : State) : Host.Outcome State Fault Refusal :=
  s.on fun d => d.vorok c .mov fun k d => d.onCore k (fun x => x.setGr k.i.d (mergeLow (x.gr k.i.d) k.i.bits (k.i.rhs x).toNat))

/-- MOVS (R264): d ← i, sign-extended -/
def execMovs (c : Fin 7) (s : State) : Host.Outcome State Fault Refusal :=
  s.on fun d => d.vorok c .movs fun k d => d.onCore k (fun x => x.setGr k.i.d (k.i.rhs x))

/-- XCHG (R264): d ↔ s -/
def execXchg (c : Fin 7) (s : State) : Host.Outcome State Fault Refusal :=
  s.on fun d => d.vorok c .xchg fun k d => d.onCore k (fun x => (x.setGr k.i.d (x.gr k.i.s)).setGr k.i.s (x.gr k.i.d))

/-! ### Shifts, products, quotients -/

/-- A shift or rotation by a count (R266); SAR under SMP shifts each lane (R272). -/
def Ctx.shift (k : Ctx) (op : ShiftOp) (x : CoreSt) : CoreSt :=
  let a := x.gr k.i.d
  let n := (if k.i.form = .ri8 then k.i.imm else (x.gr k.i.s).toNat) % 32
  if k.i.has .smp then
    let o := smpOut (laneI a / 2 ^ n) (laneQ a / 2 ^ n)
    k.setFl (x.setGr k.i.d o.r) (o.fl x.fl)
  else k.setFl (x.setGr k.i.d (shiftVal op a n)) (shiftFl x.fl op a n)

/-- SHL (R266): to the left -/
def execShl (c : Fin 7) (s : State) : Host.Outcome State Fault Refusal :=
  s.on fun d => d.vorok c .shl fun k d => d.onCore k (k.shift .shl)

/-- SHR (R266): to the right, zeros in -/
def execShr (c : Fin 7) (s : State) : Host.Outcome State Fault Refusal :=
  s.on fun d => d.vorok c .shr fun k d => d.onCore k (k.shift .shr)

/-- SAR (R266): to the right, sign in; lanes under SMP -/
def execSar (c : Fin 7) (s : State) : Host.Outcome State Fault Refusal :=
  s.on fun d => d.vorok c .sar fun k d => d.onCore k (k.shift .sar)

/-- ROL (R266): rotation to the left -/
def execRol (c : Fin 7) (s : State) : Host.Outcome State Fault Refusal :=
  s.on fun d => d.vorok c .rol fun k d => d.onCore k (k.shift .rol)

/-- ROR (R266): rotation to the right -/
def execRor (c : Fin 7) (s : State) : Host.Outcome State Fault Refusal :=
  s.on fun d => d.vorok c .ror fun k d => d.onCore k (k.shift .ror)

/-- MUL (R266): under SMP the complex product (R272). -/
def Ctx.mulOp (k : Ctx) (x : CoreSt) : CoreSt :=
  let a := x.gr k.i.d
  let b := x.gr k.i.s
  if k.i.has .smp then k.setFl (x.setGr k.i.d (smpMul false a b).r) ((smpMul false a b).fl x.fl)
  else k.setFl (x.setGr k.i.d (a * b)) (mulFl x.fl a b)

/-- MULH and MULHU: N and Z, C and V cleared. -/
def Ctx.mulHi (k : Ctx) (r : Word) (x : CoreSt) : CoreSt := k.setFl (x.setGr k.i.d r) (logicFl x.fl 32 r.toNat)

/-- The divide class (R266): DIVZ for a divisor of 0, d unchanged. -/
def Ctx.divide (k : Ctx) (f : Word → Word → Word) (v : Word → Word → Bool) (d : Dev) : Dev :=
  let x := d.core k.c
  let a := x.gr k.i.d
  let b := x.gr k.i.s
  if b = 0 then d.raiseAt k (plainExc excDIVZ k.pc)
  else d.onCore k (fun x => k.setFl (x.setGr k.i.d (f a b)) (divFl x.fl (f a b) (v a b)))

/-- The one quotient that does not fit. -/
def divOver (a b : Word) : Bool := decide (a = 0x80000000 ∧ b = 0xFFFFFFFF)

/-- MUL (R266): the low half of the product, or the complex product -/
def execMul (c : Fin 7) (s : State) : Host.Outcome State Fault Refusal :=
  s.on fun d => d.vorok c .mul fun k d => d.onCore k k.mulOp

/-- MULH (R266): the high half, signed -/
def execMulh (c : Fin 7) (s : State) : Host.Outcome State Fault Refusal :=
  s.on fun d => d.vorok c .mulh fun k d => d.onCore k (fun x => k.mulHi (mulHigh (x.gr k.i.d) (x.gr k.i.s)) x)

/-- MULHU (R266): the high half, unsigned -/
def execMulhu (c : Fin 7) (s : State) : Host.Outcome State Fault Refusal :=
  s.on fun d => d.vorok c .mulhu fun k d => d.onCore k (fun x => k.mulHi (mulHighU (x.gr k.i.d) (x.gr k.i.s)) x)

/-- DIV (R266): the signed quotient -/
def execDiv (c : Fin 7) (s : State) : Host.Outcome State Fault Refusal :=
  s.on fun d => d.vorok c .div fun k d => k.divide divS divOver d

/-- DIVU (R266): the unsigned quotient -/
def execDivu (c : Fin 7) (s : State) : Host.Outcome State Fault Refusal :=
  s.on fun d => d.vorok c .divu fun k d => k.divide divU (fun _ _ => false) d

/-- REM (R266): the signed remainder -/
def execRem (c : Fin 7) (s : State) : Host.Outcome State Fault Refusal :=
  s.on fun d => d.vorok c .rem fun k d => k.divide remS (fun _ _ => false) d

/-- REMU (R265): the unsigned remainder -/
def execRemu (c : Fin 7) (s : State) : Host.Outcome State Fault Refusal :=
  s.on fun d => d.vorok c .remu fun k d => k.divide remU (fun _ _ => false) d

/-! ### Page 1: bits, decimal conversion, sample pairs -/

/-- CLZ (R265): leading zero bits of s; Z -/
def execClz (c : Fin 7) (s : State) : Host.Outcome State Fault Refusal :=
  s.on fun d => d.vorok c .clz fun k d => d.onCore k (fun x => k.setFl (x.setGr k.i.d (BitVec.ofNat 32 (leadZeros (x.gr k.i.s)))) (fPut x.fl flZ (decide (leadZeros (x.gr k.i.s) = 0))))

/-- BSWAP (R265): the bytes of s reversed -/
def execBswap (c : Fin 7) (s : State) : Host.Outcome State Fault Refusal :=
  s.on fun d => d.vorok c .bswap fun k d => d.onCore k (fun x => x.setGr k.i.d (byteSwap (x.gr k.i.s)))

/-- SEXT (R265): the low byte or half-word of s, sign-extended -/
def execSext (c : Fin 7) (s : State) : Host.Outcome State Fault Refusal :=
  s.on fun d => d.vorok c .sext fun k d => d.onCore k (fun x => x.setGr k.i.d (BitVec.ofInt 32 (sext k.i.bits (x.gr k.i.s).toNat)))

/-- DAJA (R270). -/
def Ctx.dajaOp (k : Ctx) (x : CoreSt) : CoreSt :=
  let q := dajaDigits (x.gr k.i.d).toNat (getF x.fl flHC) 0 0 8
  { x.setGr k.i.d (BitVec.ofNat 32 q.1) with fl := dajFl x.fl q.1 (fBit x.fl flC || decide (q.2 ≠ 0)) }

/-- DAJS (R270). -/
def Ctx.dajsOp (k : Ctx) (x : CoreSt) : CoreSt :=
  let r := dajsVal (x.gr k.i.d).toNat (getF x.fl flHC)
  { x.setGr k.i.d (BitVec.ofNat 32 r) with fl := dajFl x.fl r (fBit x.fl flC) }

/-- CVBD (R271). -/
def Ctx.cvbdOp (k : Ctx) (x : CoreSt) : CoreSt :=
  let s := (x.gr k.i.s).toNat
  let r := toBcd 8 (s % 100000000)
  let fl := fPut (fPut x.fl flC (decide (100000000 ≤ s))) flV false
  { x.setGr k.i.d (BitVec.ofNat 32 r) with fl := fPut (fPut fl flZ (decide (r = 0))) flN (decide (5 ≤ nibble r 7)) }

/-- CVDB (R271). -/
def Ctx.cvdbOp (k : Ctx) (x : CoreSt) : CoreSt :=
  let s := (x.gr k.i.s).toNat
  let r := decValue s
  let fl := fPut (fPut (fPut x.fl flV (badDigit 8 s)) flN false) flC false
  { x.setGr k.i.d (BitVec.ofNat 32 r) with fl := fPut fl flZ (decide (r = 0)) }

/-- CHKD (R271). -/
def Ctx.chkdOp (k : Ctx) (x : CoreSt) : CoreSt :=
  let v := (x.gr k.i.d).toNat
  { x with fl := fPut (fPut (fPut (fPut x.fl flV (badDigit 8 v)) flZ (decide (v = 0))) flN false) flC false }

/-- DAJA (R270): decimal adjust after addition -/
def execDaja (c : Fin 7) (s : State) : Host.Outcome State Fault Refusal :=
  s.on fun d => d.vorok c .daja fun k d => d.onCore k k.dajaOp

/-- DAJS (R270): decimal adjust after subtraction -/
def execDajs (c : Fin 7) (s : State) : Host.Outcome State Fault Refusal :=
  s.on fun d => d.vorok c .dajs fun k d => d.onCore k k.dajsOp

/-- CVBD (R271): binary to packed decimal -/
def execCvbd (c : Fin 7) (s : State) : Host.Outcome State Fault Refusal :=
  s.on fun d => d.vorok c .cvbd fun k d => d.onCore k k.cvbdOp

/-- CVDB (R271): packed decimal to binary -/
def execCvdb (c : Fin 7) (s : State) : Host.Outcome State Fault Refusal :=
  s.on fun d => d.vorok c .cvdb fun k d => d.onCore k k.cvdbOp

/-- CHKD (R271): invalid digits looked for -/
def execChkd (c : Fin 7) (s : State) : Host.Outcome State Fault Refusal :=
  s.on fun d => d.vorok c .chkd fun k d => d.onCore k k.chkdOp

/-- SPMULC (R272): d × conj(s) -/
def execSpmulc (c : Fin 7) (s : State) : Host.Outcome State Fault Refusal :=
  s.on fun d => d.vorok c .spmulc fun k d => d.onCore k (fun x => k.setFl (x.setGr k.i.d (smpMul true (x.gr k.i.d) (x.gr k.i.s)).r) ((smpMul true (x.gr k.i.d) (x.gr k.i.s)).fl x.fl))

/-- SPMAG (R272): I² + Q² of s; Z -/
def execSpmag (c : Fin 7) (s : State) : Host.Outcome State Fault Refusal :=
  s.on fun d => d.vorok c .spmag fun k d => d.onCore k (fun x => k.setFl (x.setGr k.i.d (smpMag (x.gr k.i.s))) (fPut x.fl flZ (decide (smpMag (x.gr k.i.s) = 0))))

/-! ### Jumps and the stack -/

/-- The stack pointer. -/
def spReg : Fin 16 := 15

/-- PC takes a target. -/
def Dev.jump (d : Dev) (k : Ctx) (t : Word) : Dev := d.onCore k (fun x => { x with pc := t })

/-- A word pushed: SP moves, then `f`; a store that has reset the core ends there. -/
def Dev.pushWord (d : Dev) (k : Ctx) (v : Word → Word) (f : Dev → Dev) : Dev :=
  let sp := (d.core k.c).gr spReg - 4
  d.storeFor k (d.acc k .store true false) sp 4 4 (v sp).toNat [] fun d => if d.coreRuns k.c then f (d.onCore k (fun x => x.setGr spReg sp)) else d

/-- A word popped. -/
def Dev.popWord (d : Dev) (k : Ctx) (up : List Nat) (f : Word → Dev → Dev) : Dev :=
  let sp := (d.core k.c).gr spReg
  d.loadFor k (d.acc k .load true false) sp 4 4 up fun v d => f (BitVec.ofNat 32 v) (d.onCore k (fun x => x.setGr spReg (sp + 4)))

/-- BCC (R264, R266): the condition of Table 13.6 -/
def execBcc (c : Fin 7) (s : State) : Host.Outcome State Fault Refusal :=
  s.on fun d => d.vorok c .bcc fun k d => d.onCore k (fun x => if cond (k.i.op % 16) x.fl then { x with pc := k.i.target k.next } else x)

/-- JMP (R267): to a relative target -/
def execJmp (c : Fin 7) (s : State) : Host.Outcome State Fault Refusal :=
  s.on fun d => d.vorok c .jmp fun k d => d.jump k (k.i.target k.next)

/-- JMPR (R264): to d -/
def execJmpr (c : Fin 7) (s : State) : Host.Outcome State Fault Refusal :=
  s.on fun d => d.vorok c .jmpr fun k d => d.jump k ((d.core c).gr k.i.d)

/-- PUSH (R264, R267): SP ← SP − 4; [SP] ← d, in that order -/
def execPush (c : Fin 7) (s : State) : Host.Outcome State Fault Refusal :=
  s.on fun d => d.vorok c .push fun k d => d.pushWord k (fun sp => if k.i.d = spReg then sp else (d.core c).gr k.i.d) fun d => d

/-- POP (R264, R267): d takes the word, for G15 too -/
def execPop (c : Fin 7) (up : List Nat) (s : State) : Host.Outcome State Fault Refusal :=
  s.on fun d => d.vorok c .pop fun k d => d.popWord k up fun v d => d.onCore k (fun x => x.setGr k.i.d v)

/-- CALL (R264, R267): the next PC pushed, then the jump -/
def execCall (c : Fin 7) (s : State) : Host.Outcome State Fault Refusal :=
  s.on fun d => d.vorok c .call fun k d => d.pushWord k (fun _ => k.next) fun d => d.jump k (k.i.target k.next)

/-- CALLR (R264, R267): the next PC pushed, then PC ← d -/
def execCallr (c : Fin 7) (s : State) : Host.Outcome State Fault Refusal :=
  s.on fun d => d.vorok c .callr fun k d => d.pushWord k (fun _ => k.next) fun d => d.jump k ((d.core c).gr k.i.d)

/-- RET (R264, R267): PC popped -/
def execRet (c : Fin 7) (up : List Nat) (s : State) : Host.Outcome State Fault Refusal :=
  s.on fun d => d.vorok c .ret fun k d => d.popWord k up fun v d => d.jump k v

/-! ### Loads and stores (R273, R274) -/

/-- The address of the instruction's memory form. -/
def Dev.addrOf (d : Dev) (k : Ctx) : Word := k.i.addr (d.core k.c) k.next

/-- LD and LDS: `n` bytes, extended into d. -/
def Dev.loadReg (d : Dev) (k : Ctx) (signed : Bool) (up : List Nat) : Dev :=
  let n := k.i.size
  d.loadFor k (d.acc k .load (decide (n = 4)) false) (d.addrOf k) n n up fun v d =>
    d.onCore k (fun x => x.setGr k.i.d (if signed then BitVec.ofInt 32 (sext (8 * n) v) else BitVec.ofNat 32 v))

/-- LDX: the word, and the reservation on its granule. -/
def Dev.loadExcl (d : Dev) (k : Ctx) (up : List Nat) : Dev :=
  let a := d.addrOf k
  d.loadFor k (d.acc k .load true true) a 4 4 up fun v d =>
    d.onCore k (fun x => { x.setGr k.i.d (BitVec.ofNat 32 v) with resv := some (a.toNat / 64) })

/-- STX: stored only while the core holds the reservation on the granule; Z tells; the reservation ends either way. -/
def Dev.storeExcl (d : Dev) (k : Ctx) : Dev :=
  let a := d.addrOf k
  let x := d.acc k .store true true
  if a.toNat % 4 ≠ 0 then d.raiseAt k (alignExc k.pc a)
  else match d.accCode x k.c a.toNat 4 with
    | some p => d.raiseAt k (x.exc k.pc a.toNat p)
    | none =>
      let ok := decide ((d.core k.c).resv = some (a.toNat / 64))
      let v := ((d.core k.c).gr k.i.d).toNat
      let d := if ok then ((d.wakes a.toNat 4).eccClear a.toNat 4).coreBytes k.c a.toNat (leBytes 4 v) else d
      d.onCore k (fun x => { x with fl := fPut x.fl flZ ok, resv := none })

/-- LD (R273): zero-extended -/
def execLd (c : Fin 7) (up : List Nat) (s : State) : Host.Outcome State Fault Refusal :=
  s.on fun d => d.vorok c .ld fun k d => d.loadReg k false up

/-- LDS (R273): sign-extended -/
def execLds (c : Fin 7) (up : List Nat) (s : State) : Host.Outcome State Fault Refusal :=
  s.on fun d => d.vorok c .lds fun k d => d.loadReg k true up

/-- ST (R273): the low bytes of d -/
def execSt (c : Fin 7) (up : List Nat) (s : State) : Host.Outcome State Fault Refusal :=
  s.on fun d => d.vorok c .st fun k d => d.storeFor k (d.acc k .store (decide (k.i.size = 4)) false) (d.addrOf k) k.i.size k.i.size ((d.core c).gr k.i.d).toNat up fun d => d

/-- LEA (R263, R264): d ← address -/
def execLea (c : Fin 7) (s : State) : Host.Outcome State Fault Refusal :=
  s.on fun d => d.vorok c .lea fun k d => d.onCore k (fun x => x.setGr k.i.d (k.i.addr x k.next))

/-- LDX (R274): load exclusive -/
def execLdx (c : Fin 7) (up : List Nat) (s : State) : Host.Outcome State Fault Refusal :=
  s.on fun d => d.vorok c .ldx fun k d => d.loadExcl k up

/-- STX (R274): store exclusive -/
def execStx (c : Fin 7) (s : State) : Host.Outcome State Fault Refusal :=
  s.on fun d => d.vorok c .stx fun k d => d.storeExcl k

/-- LDSP (R273): a capture sample into both lanes -/
def execLdsp (c : Fin 7) (up : List Nat) (s : State) : Host.Outcome State Fault Refusal :=
  s.on fun d => d.vorok c .ldsp fun k d => d.loadFor k (d.acc k .load false false) (d.addrOf k) 3 1 up fun v d => d.onCore k (fun x => x.setGr k.i.d (captureTo v))

/-- STSP (R273): both lanes as a capture sample -/
def execStsp (c : Fin 7) (up : List Nat) (s : State) : Host.Outcome State Fault Refusal :=
  s.on fun d => d.vorok c .stsp fun k d => d.storeFor k (d.acc k .store false false) (d.addrOf k) 3 1 (captureOf ((d.core c).gr k.i.d)) up fun d => d

/-! ### System registers (R260, R279, Table 13.10) -/

/-- FL as SETFL leaves it: in user mode EXL, U and IE stay; U is entered only through IRET (R275). -/
def setFlOf (user : Bool) (old v : Word) : Word := (old &&& (if user then 0xE000 else 0x4000)) ||| (v &&& (if user then 0x1FFF else 0xBFFF))

/-- A number of Table 13.10. -/
def csrKnown (n : Nat) : Bool := n == 0 || decide (0x10 ≤ n ∧ n ≤ 0x15) || n == 0x20 || n == 0x21

/-- A number user mode may read. -/
def csrUser (n : Nat) : Bool := n == 0 || n == 0x20 || n == 0x21

/-- The value of a system register. -/
def CoreSt.csr (x : CoreSt) (c : Fin 7) (n : Nat) : Word :=
  match n with
  | 0x10 => x.vbase
  | 0x11 => x.epc
  | 0x12 => x.efl
  | 0x13 => x.ecause
  | 0x14 => x.eaddr
  | 0x15 => x.esyn
  | 0x20 => x.cycle.setWidth 32
  | 0x21 => x.cycleHi
  | _ => BitVec.ofNat 32 c

/-- A read of CYCLE_LO latches CYCLE_HI. -/
def CoreSt.csrSeen (x : CoreSt) (n : Nat) : CoreSt := if n = 0x20 then { x with cycleHi := (x.cycle >>> 32).setWidth 32 } else x

/-- A system register written in supervisor mode; reserved bits stay 0 and a read-only register ignores it. -/
def CoreSt.csrPut (x : CoreSt) (n : Nat) (v : Word) : CoreSt :=
  match n with
  | 0x10 => { x with vbase := v &&& 0xFFFFFF00 }
  | 0x11 => { x with epc := v }
  | 0x12 => { x with efl := v &&& 0xFFFF }
  | 0x13 => { x with ecause := v &&& 0xFFFF }
  | 0x14 => { x with eaddr := v }
  | 0x20 => { x with cycle := (x.cycle &&& 0xFFFFFFFF00000000) ||| v.setWidth 64 }
  | 0x21 => { x with cycle := (x.cycle &&& 0xFFFFFFFF) ||| (v.setWidth 64 <<< 32), cycleHi := v }
  | _ => x

/-- MOVFL (R265): d ← FL -/
def execMovfl (c : Fin 7) (s : State) : Host.Outcome State Fault Refusal :=
  s.on fun d => d.vorok c .movfl fun k d => d.onCore k (fun x => x.setGr k.i.d x.fl)

/-- SETFL (R260, R265): FL ← d -/
def execSetfl (c : Fin 7) (s : State) : Host.Outcome State Fault Refusal :=
  s.on fun d => d.vorok c .setfl fun k d => d.onCore k (fun x => { x with fl := setFlOf (d.inUser c) x.fl (x.gr k.i.d) })

/-- CSRR and CSRW: UD for a number not listed, then PRIV. -/
def Dev.csrFor (d : Dev) (k : Ctx) (userOk : Bool) (f : Dev → Dev) : Dev :=
  if !csrKnown k.i.imm then d.raiseAt k (plainExc excUD k.pc)
  else if d.inUser k.c && !userOk then d.raiseAt k (plainExc excPRIV k.pc)
  else f d

/-- CSRR (R275, R279): a system register read -/
def execCsrr (c : Fin 7) (s : State) : Host.Outcome State Fault Refusal :=
  s.on fun d => d.vorok c .csrr fun k d => d.csrFor k (csrUser k.i.imm) fun d => d.onCore k (fun x => (x.csrSeen k.i.imm).setGr k.i.d (x.csr c k.i.imm))

/-- CSRW (R275, R279): a system register written -/
def execCsrw (c : Fin 7) (s : State) : Host.Outcome State Fault Refusal :=
  s.on fun d => d.vorok c .csrw fun k d => d.csrFor k false fun d => d.onCore k (fun x => x.csrPut k.i.imm (x.gr k.i.d))

/-! ### Barriers, exceptions, waiting -/

/-- NOP (R264): nothing but the PC -/
def execNop (c : Fin 7) (s : State) : Host.Outcome State Fault Refusal :=
  s.on fun d => d.vorok c .nop fun _ d => d

/-- FENCE_FULL (R281): accesses are in program order here, and instructions are fetched as they run: only the PC -/
def execFenceFull (c : Fin 7) (s : State) : Host.Outcome State Fault Refusal :=
  s.on fun d => d.vorok c .fenceFull fun _ d => d

/-- FENCE_LOAD (R281): accesses are in program order here, and instructions are fetched as they run: only the PC -/
def execFenceLoad (c : Fin 7) (s : State) : Host.Outcome State Fault Refusal :=
  s.on fun d => d.vorok c .fenceLoad fun _ d => d

/-- FENCE_STORE (R281): accesses are in program order here, and instructions are fetched as they run: only the PC -/
def execFenceStore (c : Fin 7) (s : State) : Host.Outcome State Fault Refusal :=
  s.on fun d => d.vorok c .fenceStore fun _ d => d

/-- FENCE_SYNC (R281): accesses are in program order here, and instructions are fetched as they run: only the PC -/
def execFenceSync (c : Fin 7) (s : State) : Host.Outcome State Fault Refusal :=
  s.on fun d => d.vorok c .fenceSync fun _ d => d

/-- TRAP (R276): TRAP with number i, EPC the next instruction -/
def execTrap (c : Fin 7) (s : State) : Host.Outcome State Fault Refusal :=
  s.on fun d => d.vorok c .trap fun k d => d.raiseAt k ⟨excTRAP, k.i.imm, k.next, none, none⟩

/-- BRK: the exception, or debug halt while a session is unlocked (R276, R415). -/
def Dev.brkAt (d : Dev) (k : Ctx) : Dev :=
  if d.flag SVC_STAT SVC_STAT_SESSION then d.setCoreState k.c 5 else d.raiseAt k (plainExc excBRK k.pc)

/-- BRK (R276, R415): BRK -/
def execBrk (c : Fin 7) (s : State) : Host.Outcome State Fault Refusal :=
  s.on fun d => d.vorok c .brk fun k d => d.brkAt k

/-- UD (R262, R264): UD, 0xF7, and every encoding that belongs to no other row and raises UD. -/
def execUd (c : Fin 7) (s : State) : Host.Outcome State Fault Refusal :=
  s.on fun d => d.vorok c .ud fun k d => d.raiseAt k (plainExc excUD k.pc)

/-- HALT (R278): the clock stops until an interrupt is pending -/
def execHalt (c : Fin 7) (s : State) : Host.Outcome State Fault Refusal :=
  s.on fun d => d.vorok c .halt fun k d => Dev.supervised k (fun d => d.setCoreState c 2) d

/-- IRET (R274, R277): PC ← EPC, FL ← EFL; the reservation ends -/
def execIret (c : Fin 7) (s : State) : Host.Outcome State Fault Refusal :=
  s.on fun d => d.vorok c .iret fun k d => Dev.supervised k (fun d => d.onCore k (fun x => { x with pc := x.epc, fl := x.efl, resv := none })) d

/-! ### Reserved opcodes (R284, R285) -/

/-- The exceptions of Table 13.7 by code. -/
def excCode (n : Nat) : Bool := decide (1 ≤ n ∧ n ≤ 8) || n == 10

/-- The entry of an exception that a reserved opcode raises. -/
def reservedEntry (e : ReservedExc) (k : Ctx) (next : Word) : Exc :=
  let addr := e.code = excALIGN ∨ e.code = excFETCH ∨ e.code = excBUS
  let syn := e.code = excFETCH ∨ e.code = excBUS
  ⟨e.code, if e.code = excTRAP then e.trap.toNat else 0, if e.code = excTRAP ∨ e.code = excINT then next else k.pc,
    if addr then some e.eaddr else none, if syn then some e.esyn else none⟩

/-- General registers and the flags QS, HC, V, N, Z and C left at any value. -/
def CoreSt.anyRegs (x : CoreSt) (g : List Word) (fl : Word) : CoreSt :=
  { x with g := Vector.ofFn (fun (i : Fin 16) => g.getD i x.g[i]), fl := (x.fl &&& 0xE000) ||| (fl &&& 0x1FFF) }

/-- Bytes written where an ordinary store of the core could put them, never in the peripheral range. -/
def Dev.anyStores (d : Dev) (k : Ctx) (l : List (Word × Byte)) : Dev :=
  l.foldl (fun (d : Dev) p => (d.coreStore (d.acc k .store false false) k.c p.1.toNat 1 p.2.toNat []).2) d

/-- RESERVED_OPCODE (R284, R285). A broken prefix rule raises UD (R262). -/
def execReservedOpcode (c : Fin 7) (len : Nat) (g : List Word) (fl : Word) (stores : List (Word × Byte)) (exc : Option ReservedExc) (s : State) : Host.Outcome State Fault Refusal :=
  s.on fun d => d.vorok c .reserved fun k d =>
    let next := k.pc + BitVec.ofNat 32 (max 1 (min 9 len))
    let d := (d.anyStores k stores).onCore k (fun x => { x.anyRegs g fl with pc := next })
    match exc with
    | none => d
    | some e =>
      if !excCode e.code then d
      else if e.code = excBRK ∧ d.flag SVC_STAT SVC_STAT_SESSION then d.setCoreState c 5
      else d.raiseAt k (reservedEntry e k next)

end Sys2Proof.Machine
end

