-- ==== Sys2Proof/Machine/Dispatch.lean ====
section
/-! DEFINITION. `exec`: one arm per command, each one direct call of its meaning. -/

namespace Sys2Proof.Machine

def exec (i : Instr) (s : State) : Host.Outcome State Fault Refusal :=
  match i with
  | .fieldLineFault n v => Sys2Proof.Machine.execFieldLineFault n v s
  | .fieldLineRetry n => Sys2Proof.Machine.execFieldLineRetry n s
  | .flnCfgWrite c n v => Sys2Proof.Machine.execFlnCfgWrite c n v s
  | .fltClear c v => Sys2Proof.Machine.execFltClear c v s
  | .interDieTransfer die ok => Sys2Proof.Machine.execInterDieTransfer die ok s
  | .linkLost die => Sys2Proof.Machine.execLinkLost die s
  | .rfDieResetEnd => Sys2Proof.Machine.execRfDieResetEnd s
  | .rfDieResow => Sys2Proof.Machine.execRfDieResow s
  | .supplyLowWarning => Sys2Proof.Machine.execSupplyLowWarning s
  | .supplyLowClear => Sys2Proof.Machine.execSupplyLowClear s
  | .brownOut => Sys2Proof.Machine.execBrownOut s
  | .brownOutRelease => Sys2Proof.Machine.execBrownOutRelease s
  | .powerOnReset => Sys2Proof.Machine.execPowerOnReset s
  | .vinWindowEnd mv => Sys2Proof.Machine.execVinWindowEnd mv s
  | .reservationRelease h => Sys2Proof.Machine.execReservationRelease h s
  | .powerMonitorSample mw => Sys2Proof.Machine.execPowerMonitorSample mw s
  | .overClear c => Sys2Proof.Machine.execOverClear c s
  | .thermalShutdown => Sys2Proof.Machine.execThermalShutdown s
  | .thermalRelease => Sys2Proof.Machine.execThermalRelease s
  | .resetPin => Sys2Proof.Machine.execResetPin s
  | .sysrst c => Sys2Proof.Machine.execSysrst c s
  | .rfdie c => Sys2Proof.Machine.execRfdie c s
  | .fldie c => Sys2Proof.Machine.execFldie c s
  | .rootPllLock rf fl => Sys2Proof.Machine.execRootPllLock rf fl s
  | .resetRelease reads pins => Sys2Proof.Machine.execResetRelease reads pins s
  | .domainGate ix => Sys2Proof.Machine.execDomainGate ix s
  | .domainWake ix => Sys2Proof.Machine.execDomainWake ix s
  | .referenceFailure => Sys2Proof.Machine.execReferenceFailure s
  | .fallbackRelock => Sys2Proof.Machine.execFallbackRelock s
  | .refCountWindow n => Sys2Proof.Machine.execRefCountWindow n s
  | .restore c v => Sys2Proof.Machine.execRestore c v s
  | .restoreRelock => Sys2Proof.Machine.execRestoreRelock s
  | .lfCrystalFailure => Sys2Proof.Machine.execLfCrystalFailure s
  | .substituteSwitch => Sys2Proof.Machine.execSubstituteSwitch s
  | .fullPlanSow a viob => Sys2Proof.Machine.execFullPlanSow a viob s
  | .viobMeasure viob => Sys2Proof.Machine.execViobMeasure viob s
  | .bootHandoff => Sys2Proof.Machine.execBootHandoff s
  | .sowStage c => Sys2Proof.Machine.execSowStage c s
  | .stageValidated viob => Sys2Proof.Machine.execStageValidated viob s
  | .sowApply c => Sys2Proof.Machine.execSowApply c s
  | .sowArm c => Sys2Proof.Machine.execSowArm c s
  | .sowCancel c => Sys2Proof.Machine.execSowCancel c s
  | .sowActivation => Sys2Proof.Machine.execSowActivation s
  | .drainEnd c => Sys2Proof.Machine.execDrainEnd c s
  | .drainLimit c => Sys2Proof.Machine.execDrainLimit c s
  | .channelizerReload c => Sys2Proof.Machine.execChannelizerReload c s
  | .detectorResume c => Sys2Proof.Machine.execDetectorResume c s
  | .rxChainOn c x v => Sys2Proof.Machine.execRxChainOn c x v s
  | .rxChainReady c => Sys2Proof.Machine.execRxChainReady c s
  | .rxChainOff c x v => Sys2Proof.Machine.execRxChainOff c x v s
  | .agcWindowEnd c peak clip => Sys2Proof.Machine.execAgcWindowEnd c peak clip s
  | .agcStepUp c => Sys2Proof.Machine.execAgcStepUp c s
  | .gainWrite c x g => Sys2Proof.Machine.execGainWrite c x g s
  | .mctapWrite c m v => Sys2Proof.Machine.execMctapWrite c m v s
  | .blankingEnd c => Sys2Proof.Machine.execBlankingEnd c s
  | .calfWrite c t ix v => Sys2Proof.Machine.execCalfWrite c t ix v s
  | .pwrtabWrite c t ix v => Sys2Proof.Machine.execPwrtabWrite c t ix v s
  | .txArm t ent bHz pwr lead toa cls => Sys2Proof.Machine.execTxArm t ent bHz pwr lead toa cls s
  | .coexRequestRaise t => Sys2Proof.Machine.execCoexRequestRaise t s
  | .txSetup t => Sys2Proof.Machine.execTxSetup t s
  | .trswToTransmit t => Sys2Proof.Machine.execTrswToTransmit t s
  | .lockCheck t locked => Sys2Proof.Machine.execLockCheck t locked s
  | .rampStart t gnt => Sys2Proof.Machine.execRampStart t gnt s
  | .grantSeen t => Sys2Proof.Machine.execGrantSeen t s
  | .grantWaitTimeout t => Sys2Proof.Machine.execGrantWaitTimeout t s
  | .coexAbort t act => Sys2Proof.Machine.execCoexAbort t act s
  | .txLastSample t => Sys2Proof.Machine.execTxLastSample t s
  | .rampDownEnd t => Sys2Proof.Machine.execRampDownEnd t s
  | .txEnd t => Sys2Proof.Machine.execTxEnd t s
  | .antennaWrite c sel => Sys2Proof.Machine.execAntennaWrite c sel s
  | .dwellTrackerFree t khz => Sys2Proof.Machine.execDwellTrackerFree t khz s
  | .txHoldEnd t => Sys2Proof.Machine.execTxHoldEnd t s
  | .detectorWindow c ch b e track marked x => Sys2Proof.Machine.execDetectorWindow c ch b e track marked x s
  | .furrowSymbol f x => Sys2Proof.Machine.execFurrowSymbol f x s
  | .reclaimComplete u => Sys2Proof.Machine.execReclaimComplete u s
  | .earlyVerdict u => Sys2Proof.Machine.execEarlyVerdict u s
  | .addressFilter u => Sys2Proof.Machine.execAddressFilter u s
  | .decoderGrant => Sys2Proof.Machine.execDecoderGrant s
  | .blockDecoded k => Sys2Proof.Machine.execBlockDecoded k s
  | .blockExpire u hdr idx => Sys2Proof.Machine.execBlockExpire u hdr idx s
  | .furrowRelease c f => Sys2Proof.Machine.execFurrowRelease c f s
  | .furrowAbort c f => Sys2Proof.Machine.execFurrowAbort c f s
  | .mcTraining m w => Sys2Proof.Machine.execMcTraining m w s
  | .mcSymbol m x => Sys2Proof.Machine.execMcSymbol m x s
  | .mcxRelease c m v => Sys2Proof.Machine.execMcxRelease c m v s
  | .mcxAbort c m v => Sys2Proof.Machine.execMcxAbort c m v s
  | .mcxEnable c m v => Sys2Proof.Machine.execMcxEnable c m v s
  | .poolOn c => Sys2Proof.Machine.execPoolOn c s
  | .poolOff c => Sys2Proof.Machine.execPoolOff c s
  | .recordGiveBack c v => Sys2Proof.Machine.execRecordGiveBack c v s
  | .capturePageFull n t0 blks => Sys2Proof.Machine.execCapturePageFull n t0 blks s
  | .subtractionStart n => Sys2Proof.Machine.execSubtractionStart n s
  | .subtractionEnd n => Sys2Proof.Machine.execSubtractionEnd n s
  | .reentryAccept n => Sys2Proof.Machine.execReentryAccept n s
  | .rewaitExpiry n => Sys2Proof.Machine.execRewaitExpiry n s
  | .slotAbort c v => Sys2Proof.Machine.execSlotAbort c v s
  | .unwindOn c => Sys2Proof.Machine.execUnwindOn c s
  | .unwindOff c => Sys2Proof.Machine.execUnwindOff c s
  | .micCheckEnd => Sys2Proof.Machine.execMicCheckEnd s
  | .verdictDeadline u => Sys2Proof.Machine.execVerdictDeadline u s
  | .txSubmit c v => Sys2Proof.Machine.execTxSubmit c v s
  | .descriptorArm t => Sys2Proof.Machine.execDescriptorArm t s
  | .ccaAssessment t p0 p1 => Sys2Proof.Machine.execCcaAssessment t p0 p1 s
  | .ccaBackoffEnd t => Sys2Proof.Machine.execCcaBackoffEnd t s
  | .ackWaitExpiry t dst seq => Sys2Proof.Machine.execAckWaitExpiry t dst seq s
  | .completionRead c => Sys2Proof.Machine.execCompletionRead c s
  | .verdictRead c => Sys2Proof.Machine.execVerdictRead c s
  | .pollResponseArm t => Sys2Proof.Machine.execPollResponseArm t s
  | .queueEnq c ix => Sys2Proof.Machine.execQueueEnq c ix s
  | .queueReplace c ix => Sys2Proof.Machine.execQueueReplace c ix s
  | .queueCancel c ix => Sys2Proof.Machine.execQueueCancel c ix s
  | .queueFlush c ix => Sys2Proof.Machine.execQueueFlush c ix s
  | .expectationWindowClose ix => Sys2Proof.Machine.execExpectationWindowClose ix s
  | .childTableWrite c ix w v => Sys2Proof.Machine.execChildTableWrite c ix w v s
  | .txfcntWrite c v => Sys2Proof.Machine.execTxfcntWrite c v s
  | .meshTimeSet c v => Sys2Proof.Machine.execMeshTimeSet c v s
  | .syncAgeLimit => Sys2Proof.Machine.execSyncAgeLimit s
  | .beaconArm => Sys2Proof.Machine.execBeaconArm s
  | .alarmArm c v => Sys2Proof.Machine.execAlarmArm c v s
  | .alarmFire a => Sys2Proof.Machine.execAlarmFire a s
  | .cacheExpiry ix => Sys2Proof.Machine.execCacheExpiry ix s
  | .relayDelayExpiry ix => Sys2Proof.Machine.execRelayDelayExpiry ix s
  | .relayHoldEnd ix => Sys2Proof.Machine.execRelayHoldEnd ix s
  | .originate c v => Sys2Proof.Machine.execOriginate c v s
  | .floodEventRead c => Sys2Proof.Machine.execFloodEventRead c s
  | .meshTimeRead c => Sys2Proof.Machine.execMeshTimeRead c s
  | .keyLoad c ix outs => Sys2Proof.Machine.execKeyLoad c ix outs s
  | .keyLoadname c ix outs => Sys2Proof.Machine.execKeyLoadname c ix outs s
  | .keyUnload c ix => Sys2Proof.Machine.execKeyUnload c ix s
  | .keyGenerate c ix outs => Sys2Proof.Machine.execKeyGenerate c ix outs s
  | .keyRaise c outs => Sys2Proof.Machine.execKeyRaise c outs s
  | .keyRevoke c => Sys2Proof.Machine.execKeyRevoke c s
  | .keyCommandEnd => Sys2Proof.Machine.execKeyCommandEnd s
  | .slotErased ix => Sys2Proof.Machine.execSlotErased ix s
  | .counterScan c outs => Sys2Proof.Machine.execCounterScan c outs s
  | .spanRaise ix outs => Sys2Proof.Machine.execSpanRaise ix outs s
  | .raiseRetry ix outs => Sys2Proof.Machine.execRaiseRetry ix outs s
  | .fcntCeilingRaise outs => Sys2Proof.Machine.execFcntCeilingRaise outs s
  | .aesJobSubmit c v => Sys2Proof.Machine.execAesJobSubmit c v s
  | .aesJobStart e => Sys2Proof.Machine.execAesJobStart e s
  | .aesJobEnd e => Sys2Proof.Machine.execAesJobEnd e s
  | .shaStart c n => Sys2Proof.Machine.execShaStart c n s
  | .shaUpdate c n => Sys2Proof.Machine.execShaUpdate c n s
  | .shaFinal c n => Sys2Proof.Machine.execShaFinal c n s
  | .shaEnd n => Sys2Proof.Machine.execShaEnd n s
  | .rngFailure => Sys2Proof.Machine.execRngFailure s
  | .randomRead c => Sys2Proof.Machine.execRandomRead c s
  | .appendSubmit c v => Sys2Proof.Machine.execAppendSubmit c v s
  | .verifySubmit c v => Sys2Proof.Machine.execVerifySubmit c v s
  | .archiveSubmit c v => Sys2Proof.Machine.execArchiveSubmit c v s
  | .ledgerAppend => Sys2Proof.Machine.execLedgerAppend s
  | .ledgerVerify => Sys2Proof.Machine.execLedgerVerify s
  | .ledgerPush => Sys2Proof.Machine.execLedgerPush s
  | .recordDurable erOk good => Sys2Proof.Machine.execRecordDurable erOk good s
  | .ledgerRecovery => Sys2Proof.Machine.execLedgerRecovery s
  | .originWrite c v => Sys2Proof.Machine.execOriginWrite c v s
  | .directoryInsert c => Sys2Proof.Machine.execDirectoryInsert c s
  | .directoryRemove c => Sys2Proof.Machine.execDirectoryRemove c s
  | .directoryClear c => Sys2Proof.Machine.execDirectoryClear c s
  | .ledgerLookup c v => Sys2Proof.Machine.execLedgerLookup c v s
  | .nop c => Sys2Proof.Machine.execNop c s
  | .halt c => Sys2Proof.Machine.execHalt c s
  | .fenceFull c => Sys2Proof.Machine.execFenceFull c s
  | .fenceLoad c => Sys2Proof.Machine.execFenceLoad c s
  | .fenceStore c => Sys2Proof.Machine.execFenceStore c s
  | .fenceSync c => Sys2Proof.Machine.execFenceSync c s
  | .trap c => Sys2Proof.Machine.execTrap c s
  | .ret c up => Sys2Proof.Machine.execRet c up s
  | .iret c => Sys2Proof.Machine.execIret c s
  | .brk c => Sys2Proof.Machine.execBrk c s
  | .ud c => Sys2Proof.Machine.execUd c s
  | .add c => Sys2Proof.Machine.execAdd c s
  | .adc c => Sys2Proof.Machine.execAdc c s
  | .sub c => Sys2Proof.Machine.execSub c s
  | .sbb c => Sys2Proof.Machine.execSbb c s
  | .and c => Sys2Proof.Machine.execAnd c s
  | .or c => Sys2Proof.Machine.execOr c s
  | .xor c => Sys2Proof.Machine.execXor c s
  | .cmp c => Sys2Proof.Machine.execCmp c s
  | .mov c => Sys2Proof.Machine.execMov c s
  | .movs c => Sys2Proof.Machine.execMovs c s
  | .xchg c => Sys2Proof.Machine.execXchg c s
  | .not c => Sys2Proof.Machine.execNot c s
  | .neg c => Sys2Proof.Machine.execNeg c s
  | .tst c => Sys2Proof.Machine.execTst c s
  | .shl c => Sys2Proof.Machine.execShl c s
  | .shr c => Sys2Proof.Machine.execShr c s
  | .sar c => Sys2Proof.Machine.execSar c s
  | .rol c => Sys2Proof.Machine.execRol c s
  | .ror c => Sys2Proof.Machine.execRor c s
  | .mul c => Sys2Proof.Machine.execMul c s
  | .mulh c => Sys2Proof.Machine.execMulh c s
  | .mulhu c => Sys2Proof.Machine.execMulhu c s
  | .div c => Sys2Proof.Machine.execDiv c s
  | .divu c => Sys2Proof.Machine.execDivu c s
  | .rem c => Sys2Proof.Machine.execRem c s
  | .remu c => Sys2Proof.Machine.execRemu c s
  | .bcc c => Sys2Proof.Machine.execBcc c s
  | .ld c up => Sys2Proof.Machine.execLd c up s
  | .st c up => Sys2Proof.Machine.execSt c up s
  | .lds c up => Sys2Proof.Machine.execLds c up s
  | .lea c => Sys2Proof.Machine.execLea c s
  | .push c => Sys2Proof.Machine.execPush c s
  | .pop c up => Sys2Proof.Machine.execPop c up s
  | .call c => Sys2Proof.Machine.execCall c s
  | .callr c => Sys2Proof.Machine.execCallr c s
  | .jmp c => Sys2Proof.Machine.execJmp c s
  | .jmpr c => Sys2Proof.Machine.execJmpr c s
  | .ldx c up => Sys2Proof.Machine.execLdx c up s
  | .stx c => Sys2Proof.Machine.execStx c s
  | .clz c => Sys2Proof.Machine.execClz c s
  | .bswap c => Sys2Proof.Machine.execBswap c s
  | .sext c => Sys2Proof.Machine.execSext c s
  | .movfl c => Sys2Proof.Machine.execMovfl c s
  | .setfl c => Sys2Proof.Machine.execSetfl c s
  | .csrr c => Sys2Proof.Machine.execCsrr c s
  | .csrw c => Sys2Proof.Machine.execCsrw c s
  | .daja c => Sys2Proof.Machine.execDaja c s
  | .dajs c => Sys2Proof.Machine.execDajs c s
  | .cvbd c => Sys2Proof.Machine.execCvbd c s
  | .cvdb c => Sys2Proof.Machine.execCvdb c s
  | .chkd c => Sys2Proof.Machine.execChkd c s
  | .spmulc c => Sys2Proof.Machine.execSpmulc c s
  | .spmag c => Sys2Proof.Machine.execSpmag c s
  | .ldsp c up => Sys2Proof.Machine.execLdsp c up s
  | .stsp c up => Sys2Proof.Machine.execStsp c up s
  | .reservedOpcode c len g fl stores exc => Sys2Proof.Machine.execReservedOpcode c len g fl stores exc s
  | .interruptEntry c => Sys2Proof.Machine.execInterruptEntry c s
  | .haltWake c => Sys2Proof.Machine.execHaltWake c s
  | .coreReset c v => Sys2Proof.Machine.execCoreReset c v s
  | .coreRestart n => Sys2Proof.Machine.execCoreRestart n s
  | .writebackArrival c line => Sys2Proof.Machine.execWritebackArrival c line s
  | .semTake c n => Sys2Proof.Machine.execSemTake c n s
  | .semGive c n v => Sys2Proof.Machine.execSemGive c n v s
  | .semRescue c n => Sys2Proof.Machine.execSemRescue c n s
  | .flashProgram c b => Sys2Proof.Machine.execFlashProgram c b s
  | .flashProgbuf c b => Sys2Proof.Machine.execFlashProgbuf c b s
  | .flashErase c b => Sys2Proof.Machine.execFlashErase c b s
  | .flashMread c b => Sys2Proof.Machine.execFlashMread c b s
  | .flashBlank c b => Sys2Proof.Machine.execFlashBlank c b s
  | .flashColtest c b => Sys2Proof.Machine.execFlashColtest c b s
  | .flashColrepair c b => Sys2Proof.Machine.execFlashColrepair c b s
  | .flashCommandEnd b good line n => Sys2Proof.Machine.execFlashCommandEnd b good line n s
  | .moveEnd w ok => Sys2Proof.Machine.execMoveEnd w ok s
  | .deferredMove w => Sys2Proof.Machine.execDeferredMove w s
  | .eraseSuspend b => Sys2Proof.Machine.execEraseSuspend b s
  | .eraseResume b => Sys2Proof.Machine.execEraseResume b s
  | .flashStartup => Sys2Proof.Machine.execFlashStartup s
  | .sourceChange n ext => Sys2Proof.Machine.execSourceChange n ext s
  | .softwarePend c k v => Sys2Proof.Machine.execSoftwarePend c k v s
  | .pendingClear c k v => Sys2Proof.Machine.execPendingClear c k v s
  | .interruptAcknowledge c => Sys2Proof.Machine.execInterruptAcknowledge c s
  | .interruptComplete c v => Sys2Proof.Machine.execInterruptComplete c v s
  | .holdoffExpiry g => Sys2Proof.Machine.execHoldoffExpiry g s
  | .holdoffWrite c g v => Sys2Proof.Machine.execHoldoffWrite c g v s
  | .channelEvent a lvl => Sys2Proof.Machine.execChannelEvent a lvl s
  | .cellFilterExpiry n => Sys2Proof.Machine.execCellFilterExpiry n s
  | .channelFire c a => Sys2Proof.Machine.execChannelFire c a s
  | .lutWrite c n v => Sys2Proof.Machine.execLutWrite c n v s
  | .groupEnable c m => Sys2Proof.Machine.execGroupEnable c m s
  | .groupDisable c m => Sys2Proof.Machine.execGroupDisable c m s
  | .gatedInputDelivery ix => Sys2Proof.Machine.execGatedInputDelivery ix s
  | .timerTick t => Sys2Proof.Machine.execTimerTick t s
  | .timerPeriodEnd t => Sys2Proof.Machine.execTimerPeriodEnd t s
  | .timerCompare t k => Sys2Proof.Machine.execTimerCompare t k s
  | .timerCapture t edge => Sys2Proof.Machine.execTimerCapture t edge s
  | .timerControlWrite c t v => Sys2Proof.Machine.execTimerControlWrite c t v s
  | .timerGroupStart c => Sys2Proof.Machine.execTimerGroupStart c s
  | .timerGroupStop c => Sys2Proof.Machine.execTimerGroupStop c s
  | .timerCommit c t k v => Sys2Proof.Machine.execTimerCommit c t k v s
  | .lfEdgeCount t => Sys2Proof.Machine.execLfEdgeCount t s
  | .aonTimerEdge t => Sys2Proof.Machine.execAonTimerEdge t s
  | .aonTimerExpiry t => Sys2Proof.Machine.execAonTimerExpiry t s
  | .aonTimerWrite c t load v => Sys2Proof.Machine.execAonTimerWrite c t load v s
  | .rtcEdge => Sys2Proof.Machine.execRtcEdge s
  | .rtcTempSample temp => Sys2Proof.Machine.execRtcTempSample temp s
  | .calendarFreeze c => Sys2Proof.Machine.execCalendarFreeze c s
  | .calendarHalt => Sys2Proof.Machine.execCalendarHalt s
  | .calendarWrite c date v => Sys2Proof.Machine.execCalendarWrite c date v s
  | .calendarResume => Sys2Proof.Machine.execCalendarResume s
  | .rtcAlarm => Sys2Proof.Machine.execRtcAlarm s
  | .rtcTick => Sys2Proof.Machine.execRtcTick s
  | .levelChange c t v => Sys2Proof.Machine.execLevelChange c t v s
  | .levelChangeEnd t => Sys2Proof.Machine.execLevelChangeEnd t s
  | .requestIdle c => Sys2Proof.Machine.execRequestIdle c s
  | .requestListen c => Sys2Proof.Machine.execRequestListen c s
  | .requestFallow c => Sys2Proof.Machine.execRequestFallow c s
  | .requestOff c => Sys2Proof.Machine.execRequestOff c s
  | .participantAnswer => Sys2Proof.Machine.execParticipantAnswer s
  | .participantTimeout => Sys2Proof.Machine.execParticipantTimeout s
  | .wake r => Sys2Proof.Machine.execWake r s
  | .wakeComplete => Sys2Proof.Machine.execWakeComplete s
  | .listenWindowOpen => Sys2Proof.Machine.execListenWindowOpen s
  | .listenWindowClose => Sys2Proof.Machine.execListenWindowClose s
  | .closeRetry => Sys2Proof.Machine.execCloseRetry s
  | .inspectEntry => Sys2Proof.Machine.execInspectEntry s
  | .inspectExit up => Sys2Proof.Machine.execInspectExit up s
  | .calTempSample temp => Sys2Proof.Machine.execCalTempSample temp s
  | .correctionCompute c ix => Sys2Proof.Machine.execCorrectionCompute c ix s
  | .correctionApply c => Sys2Proof.Machine.execCorrectionApply c s
  | .correctionForced c ix => Sys2Proof.Machine.execCorrectionForced c ix s
  | .txsynMeasureStart t => Sys2Proof.Machine.execTxsynMeasureStart t s
  | .txsynMeasureEnd t locked => Sys2Proof.Machine.execTxsynMeasureEnd t locked s
  | .calibrationLoad => Sys2Proof.Machine.execCalibrationLoad s
  | .calStore k => Sys2Proof.Machine.execCalStore k s
  | .calStoreEnd ok => Sys2Proof.Machine.execCalStoreEnd ok s
  | .savecurve c => Sys2Proof.Machine.execSavecurve c s
  | .savesyn c t => Sys2Proof.Machine.execSavesyn c t s
  | .recal c t => Sys2Proof.Machine.execRecal c t s
  | .carrierOn c => Sys2Proof.Machine.execCarrierOn c s
  | .carrierOff c => Sys2Proof.Machine.execCarrierOff c s
  | .nfcSend c => Sys2Proof.Machine.execNfcSend c s
  | .nfcInventory c => Sys2Proof.Machine.execNfcInventory c s
  | .cresp c => Sys2Proof.Machine.execCresp c s
  | .cdrop c => Sys2Proof.Machine.execCdrop c s
  | .nfcCommandEnd heard => Sys2Proof.Machine.execNfcCommandEnd heard s
  | .cardRequest frame => Sys2Proof.Machine.execCardRequest frame s
  | .cardTimeout => Sys2Proof.Machine.execCardTimeout s
  | .inspectRequest frame => Sys2Proof.Machine.execInspectRequest frame s
  | .noteStored good => Sys2Proof.Machine.execNoteStored good s
  | .fieldChange on => Sys2Proof.Machine.execFieldChange on s
  | .tornWrite c => Sys2Proof.Machine.execTornWrite c s
  | .suidRead c => Sys2Proof.Machine.execSuidRead c s
  | .oztisHello tag pay => Sys2Proof.Machine.execOztisHello tag pay s
  | .oztisReset tag pay => Sys2Proof.Machine.execOztisReset tag pay s
  | .challenge tag pay => Sys2Proof.Machine.execChallenge tag pay s
  | .unlock tag pay => Sys2Proof.Machine.execUnlock tag pay s
  | .oztisLock tag pay => Sys2Proof.Machine.execOztisLock tag pay s
  | .openXfer tag pay ok => Sys2Proof.Machine.execOpenXfer tag pay ok s
  | .burst tag pay => Sys2Proof.Machine.execBurst tag pay s
  | .oztisCheck tag pay => Sys2Proof.Machine.execOztisCheck tag pay s
  | .oztisTry tag pay => Sys2Proof.Machine.execOztisTry tag pay s
  | .oztisRead tag pay => Sys2Proof.Machine.execOztisRead tag pay s
  | .oztisWrite tag pay => Sys2Proof.Machine.execOztisWrite tag pay s
  | .oztisHalt tag pay => Sys2Proof.Machine.execOztisHalt tag pay s
  | .oztisRun tag pay => Sys2Proof.Machine.execOztisRun tag pay s
  | .regs tag pay => Sys2Proof.Machine.execRegs tag pay s
  | .setreg tag pay => Sys2Proof.Machine.execSetreg tag pay s
  | .atnFall frame => Sys2Proof.Machine.execAtnFall frame s
  | .sessionTimeout => Sys2Proof.Machine.execSessionTimeout s
  | .svcCommandEnd oz outs => Sys2Proof.Machine.execSvcCommandEnd oz outs s
  | .transferProgramEnd erased good => Sys2Proof.Machine.execTransferProgramEnd erased good s
  | .imageCheck c => Sys2Proof.Machine.execImageCheck c s
  | .activationArm c => Sys2Proof.Machine.execActivationArm c s
  | .activationCancel c => Sys2Proof.Machine.execActivationCancel c s
  | .imageConfirm c => Sys2Proof.Machine.execImageConfirm c s
  | .imageSwitch => Sys2Proof.Machine.execImageSwitch s
  | .confirmWindowExpiry => Sys2Proof.Machine.execConfirmWindowExpiry s
  | .bootChoice ins => Sys2Proof.Machine.execBootChoice ins s
  | .hostRead a n => Sys2Proof.Machine.execHostRead a n s
  | .hostWrite a bytes => Sys2Proof.Machine.execHostWrite a bytes s
  | .hostStat => Sys2Proof.Machine.execHostStat s
  | .doorbell v => Sys2Proof.Machine.execDoorbell v s
  | .irqclr m => Sys2Proof.Machine.execIrqclr m s
  | .hostFlagSet c v => Sys2Proof.Machine.execHostFlagSet c v s
  | .hostWindowWrite c w v => Sys2Proof.Machine.execHostWindowWrite c w v s
  | .i2cTransfer c n v => Sys2Proof.Machine.execI2cTransfer c n v s
  | .i2cRecover c n => Sys2Proof.Machine.execI2cRecover c n s
  | .i2cCommandEnd n bus clears e => Sys2Proof.Machine.execI2cCommandEnd n bus clears e s
  | .sclStretchTimeout n => Sys2Proof.Machine.execSclStretchTimeout n s
  | .i2cDisable c n v => Sys2Proof.Machine.execI2cDisable c n v s
  | .i2cDataWrite c n b bus => Sys2Proof.Machine.execI2cDataWrite c n b bus s
  | .i2cDataRead c n bus => Sys2Proof.Machine.execI2cDataRead c n bus s
  | .spiTransfer c v => Sys2Proof.Machine.execSpiTransfer c v s
  | .spiTransferEnd rx => Sys2Proof.Machine.execSpiTransferEnd rx s
  | .spiDisable c v rx => Sys2Proof.Machine.execSpiDisable c v rx s
  | .uartTxPush c n b => Sys2Proof.Machine.execUartTxPush c n b s
  | .uartRxPop c n => Sys2Proof.Machine.execUartRxPop c n s
  | .uartByteReceived n b frame parity => Sys2Proof.Machine.execUartByteReceived n b frame parity s
  | .uartByteSent n => Sys2Proof.Machine.execUartByteSent n s
  | .gpioSet c k v => Sys2Proof.Machine.execGpioSet c k v s
  | .gpioClr c k v => Sys2Proof.Machine.execGpioClr c k v s
  | .errorLogTake => Sys2Proof.Machine.execErrorLogTake s
  | .errorLogLatch c => Sys2Proof.Machine.execErrorLogLatch c s
  | .errorLogPop c => Sys2Proof.Machine.execErrorLogPop c s
  | .ovfClear c => Sys2Proof.Machine.execOvfClear c s
  | .counterRead c a => Sys2Proof.Machine.execCounterRead c a s
  | .registerWrite c a v => Sys2Proof.Machine.execRegisterWrite c a v s
  | .alwaysOnRailCollapse => Sys2Proof.Machine.execAlwaysOnRailCollapse s
  | .asyncLatchEdge n rising => Sys2Proof.Machine.execAsyncLatchEdge n rising s
  | .uartCtsChange n on => Sys2Proof.Machine.execUartCtsChange n on s
  | .oztisBadFrame crc typ tag => Sys2Proof.Machine.execOztisBadFrame crc typ tag s
  | .hostUnknownCommand b => Sys2Proof.Machine.execHostUnknownCommand b s

end Sys2Proof.Machine
end

