-- ==== Sys2Proof/Machine/Tick.lean ====
section
/-! DEFINITION. What one cycle of 122.88 MHz does by itself, for which the table has no row: the step of an empty queue. Mesh time and
its slew (R198, R200), what falls due by it (R201, R204, R208) and the waits of R179, the cells, pulses, hold-offs and timers of the control field (R331, R338, R345 to R347), the cycle counts of the running cores (R288, Table 13.10), and what the image controller has due. -/

namespace Sys2Proof.Machine

/-- The rate of a slew: 500 ppm of elapsed time, in 2^-32 tick per tick. -/
def slewRate : Nat := 2147483

/-- Direction of the slew in progress. -/
def ClockSt.slewSign (k : ClockSt) : Int := if 0 < k.slew then 1 else if k.slew < 0 then -1 else 0

/-- Mesh time one cycle on: one tick, TRIM and the slew (R198, R200). -/
def ClockSt.meshTick (k : ClockSt) (trim : Int) : ClockSt :=
  let sgn := k.slewSign
  let sum : Int := (k.frac : Int) + trim + sgn * (slewRate : Int)
  let spent := if sgn = 0 then 0 else k.slewFrac + slewRate
  { k with
    mesh := k.mesh + 1 + BitVec.ofInt 64 (sum / (4294967296 : Int))
    frac := (sum % (4294967296 : Int)).toNat
    slew := if 4294967296 ≤ spent then k.slew - sgn else k.slew
    slewFrac := spent % 4294967296 }

/-- Cycles of a core clock at a level in one cycle of 122.88 MHz that starts at `t`: 12, 6, 3, and 3 in every 4 of them. -/
def coreCycles (level t : Nat) : Nat :=
  match level with
  | 0 => 12
  | 1 => 6
  | 2 => 3
  | _ => 3 * (t + 1) / 4 - 3 * t / 4

/-- CYCLE of the cores whose clock runs. -/
def Dev.coresTick (d : Dev) : Dev :=
  { d with
    cores := Vector.ofFn (fun (c : Fin 7) =>
      let x := d.cores[c]
      if d.pwr.phase = .running ∧ !d.clk.stopped ∧ (d.coreState c = 1 ∨ d.coreState c = 4) then
        { x with cycle := x.cycle + BitVec.ofNat 64 (coreCycles (d.get (PWR_PLEVEL c) PWR_PLEVEL_CUR) d.clk.cyc) }
      else x) }

/-- What mesh time has reached: the mesh-time triggers in their order (R204), the age limit of SYNCED (R201), the expiries of the cache (R208). -/
def Dev.meshDue (d : Dev) : Dev :=
  let d := (span 0 4).foldl (fun d a => d.alarmFire a) d.sowFire.imageFire
  (d.cache.map (·.1)).foldl (fun d i => d.cacheExpire i) d.ageLimit

/-- Waits that ran out while a frame in time was under way, and whose frames have ended since (R179). -/
def Dev.waitsDue (d : Dev) : Dev := d.awaitsSettle.windowsSettle

/-- The next request that waited for a block and may be served: no entry is under way, and the state is ACTIVE (R371). -/
def Dev.serve (d : Dev) : Option (Instr × Dev) :=
  match d.parked with
  | [] => none
  | i :: l => if d.pwr.entry.isNone && d.pwr.waking.isNone && decide (d.pwrState = 0) then some (i, { d with parked := l }) else none

/-- One cycle of 122.88 MHz: what the running cycle still has due in the control field, then the cycle that follows it begins. Mesh time stands while
the link field is down or its clock stopped, and while R359 holds it. -/
def Dev.tick (d : Dev) : Dev :=
  let ctl := d.fieldOn 1 && !d.clk.stopped
  let d := d.coresTick
  let d := if d.clk.stopped then d else d.timersCycle
  let d := if ctl then d.hdlEnd else d
  let live := d.fieldOn 4 && !d.clk.stopped
  let d := if live then d.ccaDue.relaysDue else d
  let k := if live && !d.clk.meshHold then d.clk.meshTick (sext 32 (d.reg FLD_TRIM).toNat) else d.clk
  let d : Dev := { d with clk := { k with cyc := k.cyc + 1 } }
  let d := if ctl then d.hdlBegin.holdsDue else d
  let d := if d.fieldOn 6 && !d.clk.stopped then d.carrierDue else d
  (if live then d.meshDue.waitsDue else d).svcDue

end Sys2Proof.Machine
end

