-- ==== Sys2Proof/Machine/Step.lean ====
section
/-! DEFINITION. The step: the command at the front of the queue, or one cycle of the clock where none waits. -/

namespace Sys2Proof.Machine

/-- One step. On an empty queue a request that waited for a block to end an entry is served once the device is awake (R371); else a cycle
passes. -/
def step (s : State) : Host.Outcome State Fault Refusal :=
  match s.pending with
  | [] =>
    match s.dev.serve with
    | some p => exec p.1 { s with dev := p.2 }
    | none => s.on Dev.tick
  | c :: r => exec c { s with pending := r }

/-- The state with the command a word spells put at the front of its queue. -/
def State.withFetchWord (s : State) (nbits w : Nat) : State :=
  match decodeTableWord nbits w with
  | some c => { s with pending := c :: s.pending }
  | none => s

end Sys2Proof.Machine
end

