-- ==== Sys2Proof/Safety.lean ====
section
/-! DEFINITION. What counts as a safe run: no step ends in a fault or a refusal, and memory keeps its canonical form. -/

namespace Sys2Proof.Machine

/-- An outcome from which the run goes on. -/
def goesOn : Host.Outcome State Fault Refusal → Bool
  | .next _ => true
  | _ => false

/-- Memory in its one canonical form. -/
def Dev.memWf (d : Dev) : Bool := swf memDflt d.mem

/-- The invariant that every step keeps. -/
def State.Inv (s : State) : Prop := s.dev.memWf = true

/-- Commands that need no root clock: what the always-on domain, the supply, the pins and the root itself do (R55, R342). -/
def rootFree : Instr → Bool
  | .fieldLineFault .. | .fieldLineRetry .. | .rfDieResetEnd | .rfDieResow | .supplyLowWarning | .supplyLowClear | .brownOut | .brownOutRelease
  | .powerOnReset | .vinWindowEnd .. | .powerMonitorSample .. | .thermalShutdown | .thermalRelease | .resetPin | .rootPllLock .. | .resetRelease ..
  | .referenceFailure | .fallbackRelock | .refCountWindow .. | .restoreRelock | .lfCrystalFailure | .substituteSwitch | .gatedInputDelivery ..
  | .lfEdgeCount .. | .aonTimerEdge .. | .aonTimerExpiry .. | .rtcEdge .. | .rtcTempSample .. | .calendarHalt | .calendarResume | .rtcAlarm | .rtcTick
  | .wake .. | .inspectEntry | .inspectExit .. | .inspectRequest .. | .noteStored .. | .fieldChange .. | .alwaysOnRailCollapse | .asyncLatchEdge .. => true
  | _ => false

/-- The clock that the command needs runs. -/
def Clocked (i : Instr) (s : State) : Prop := rootFree i = true ∨ s.dev.clk.stopped = false

/-- With its clock running the command completes in state `s`, the queue as it stands, with `d` as the device; a gated domain to which
anything was delivered runs again (R52). -/
def Gives (i : Instr) (s : State) (d : Dev) : Prop := Clocked i s → exec i s = .next { s with dev := (s.dev.wakeBy d).settle }

/-- With its clock running the command completes in state `s`, the queue as it stands, with a device of which `P` holds. -/
def After (i : Instr) (s : State) (P : Dev → Prop) : Prop := Clocked i s → ∃ t, exec i s = .next t ∧ t.pending = s.pending ∧ P t.dev

/-- Core `c` can make an access, and the access reaches the register at `a`: no bus fault (R295), for a write no block that rests (R371),
and a domain that runs (an access to a gated one first wakes it, R52: `Obligations.AccessTurnedAway`). -/
def BusOpen (s : State) (c : Fin 7) (a : Nat) (write : Bool) : Prop :=
  s.dev.coreActs c = true ∧ s.dev.periphCode c a (decide (getF (s.dev.core c).fl flU = 1)) write = none ∧
    (write = true → s.dev.restsAt a = false) ∧ s.dev.touchDomain a = s.dev

/-- The bus fault a core takes in place of the access (R276, R295): the code `k` at the register `a`. -/
def busFault (d : Dev) (c : Fin 7) (a k : Nat) (write : Bool) : Exc :=
  ⟨excBUS, 0, (d.core c).pc, some (BitVec.ofNat 32 a), some (esynOf a k write false (decide (getF (d.core c).fl flU = 1)))⟩

/-- Nothing but the listed registers has changed, and which of the gated domains run. -/
def OnlyRegs (l : List Nat) (d e : Dev) : Prop :=
  (∀ a, a ∉ l → e.reg a = d.reg a) ∧ { e with regs := d.regs, pwr := { e.pwr with gated := d.pwr.gated } } = d.settle

/-! ### What the statements say of a register write -/

/-- Registers that a write changes by the access codes of their fields alone (R14, R15). -/
def plainRegs : List RegDef :=
  [row_SYS_RSTREC, row_SYS_ENTRY, row_CLK_STAT, row_PWR_LISTEN, row_PWR_SUPPLY, row_SOW_STAT, row_IRQ_CFG, row_IRQ_STAT, row_TMR_STAT,
   row_TMR_CAP_LO, row_TMR_GMASK, row_RTC_STAT, row_FLC_STAT, row_FLC_COL, row_FLC_CFG, row_CAL_CTL, row_CAL_STAT, row_SEM_CFG, row_RFC_RXSTAT,
   row_COX_STAT, row_DET_SYNC, row_DET_FURCFG, row_DEC_WAIT, row_DEC_FSSTAT, row_LNK_ADDR, row_LNK_CFG, row_LNK_ACKCFG, row_LNK_ACKWAIT,
   row_LNK_ALIAS, row_LNK_MCLNK, row_LNK_POLL, row_LNK_GUARD] ++
  [row_LNK_CCA, row_LNK_QARG, row_LNK_STAT, row_LNK_CHTPAGE, row_FLD_RTPL, row_FLD_BTPL, row_FLD_SET_LO, row_FLD_SET_HI, row_FLD_MSEQ,
   row_KEY_ARG0, row_KEY_ARG1, row_KEY_STAT, row_SHA_ADDR, row_SHA_LEN, row_SHA_STAT, row_LGR_KEYS, row_LGR_STAT, row_LGR_LOW, row_LGR_DIRORG,
   row_LGR_DIRSEG, row_LGR_DIRVAL, row_SVC_STAT, row_SVC_IMG, row_HST_HFLG, row_HST_HEN, row_HST_STAT, row_I2C_STAT, row_SPI_TXA, row_SPI_RXA,
   row_SPI_STAT, row_UART_STAT]

/-- Registers whose write is a command of its own: the address `a`, and the command `i` of core `c` that a write of `v` there is. -/
def WriteRow (c : Fin 7) (v : Word) (a : Nat) (i : Instr) : Prop :=
  (a, i) ∈ [(FLN_FLT, Instr.fltClear c v), (SYS_CORERST, .coreReset c v), (IRQ_EOI c, .interruptComplete c v), (LNK_TXSUB, .txSubmit c v),
    (LGR_APPEND, .appendSubmit c v), (LGR_VERIFY, .verifySubmit c v), (LGR_ARCH, .archiveSubmit c v), (LGR_ORIGIN, .originWrite c v),
    (LGR_LOOK_HI, .ledgerLookup c v), (HST_HFLG, .hostFlagSet c v), (SPI_XFER, .spiTransfer c v), (RTC_TIME, .calendarWrite c false v),
    (RTC_DATE, .calendarWrite c true v)] ∨
  (∃ n : Fin 2, (a, i) ∈ [(RFC_MCTAP n, Instr.mctapWrite c n v), (HST_WINC n, .hostWindowWrite c n v), (GPIO_SET n, .gpioSet c n v),
    (GPIO_CLR n, .gpioClr c n v)]) ∨
  (∃ t : Fin 7, a = PWR_PLEVEL t ∧ i = .levelChange c t v) ∨ (∃ n : Fin 8, a = FLN_CFG n ∧ i = .flnCfgWrite c n v) ∨
  (∃ t : Fin 24, a = TMR_CTL t ∧ i = .timerControlWrite c t v) ∨ (∃ n : Fin 64, a = SEM_GIVE n ∧ i = .semGive c n v) ∨
  ∃ k : Fin 36, (a, i) ∈ [(IRQ_SWPEND k, Instr.softwarePend c k v), (IRQ_PEND k, .pendingClear c k v), (IRQ_HOLD k, .holdoffWrite c k v)]

/-! ### What the statements say of a core -/

/-- Core `c` is about to run the instruction of `k`, which `mn` picks and which breaks no rule; `e` is the device once its bytes are fetched,
with nothing due at the image controller: no fallback, no confirmation window that has run out, no record that waits (R424). -/
def Runs (d : Dev) (c : Fin 7) (mn : Mn) (k : Ctx) (e : Dev) : Prop :=
  d.coreRuns c = true ∧ k.c = c ∧ k.pc = (d.core c).pc ∧ k.next = k.pc + BitVec.ofNat 32 k.i.len ∧
    (∃ b, d.fetch c = (.whole b, e) ∧ parse b = k.i) ∧ k.i.mn = mn ∧ k.i.bad = false ∧ e.svc.fall = false ∧ e.confOver = false ∧ e.svc.bad = none

/-- The command completes; of the device that `e` is, nothing but core `c` changes, and of that core's new registers `P` holds. -/
def CoreGives (i : Instr) (s : State) (e : Dev) (c : Fin 7) (P : CoreSt → Prop) : Prop := ∃ y, Gives i s (e.setCore c y) ∧ P y

/-- Two states of a core agree but for PC, FL and the listed general registers. -/
def CoreSt.agree (x y : CoreSt) (l : List (Fin 16)) : Prop :=
  (∀ n, n ∉ l → y.gr n = x.gr n) ∧ { y with g := x.g, fl := x.fl, pc := x.pc } = x

/-- Two values of FL agree but for the listed flags. -/
def keepsFl (a b : Word) (l : List Fld) : Prop := ∀ f ∈ [⟨31, 16⟩, flEXL, flU, flIE, flQS, flHC, flV, flN, flZ, flC], f ∉ l → getF b f = getF a f

/-- The instruction moved on by one, with the general registers `l` and the flags `m` alone written. -/
def MovesOn (x : CoreSt) (k : Ctx) (l : List (Fin 16)) (m : List Fld) (y : CoreSt) : Prop :=
  y.pc = k.next ∧ x.agree y l ∧ keepsFl x.fl y.fl m

/-- The core takes the exception `z` in place of the instruction's effect. -/
def Takes (i : Instr) (s : State) (e : Dev) (c : Fin 7) (z : Exc) : Prop :=
  getF (e.core c).fl flEXL = 0 → Gives i s (e.setCore c ((e.core c).enter z))

/-- A cell of memory, by its stored address. -/
def Dev.cell (d : Dev) (a : Nat) : Byte := sget (memDflt a) d.mem a

/-- The `n` bytes at `a` lie in general SRAM, open to the access by core `c`, their words sound. -/
def RamOpen (d : Dev) (x : Access) (c : Fin 7) (a n : Nat) : Prop :=
  0x20000000 ≤ a ∧ a + n ≤ 0x21400000 ∧ d.accCode x c a n = none ∧ ∀ w, a / 4 ≤ w → w ≤ (a + n - 1) / 4 → sget 0 d.memErr w = 0

/-- The `n` bytes at `a` of general SRAM take `v`, and nothing else in memory changes. -/
def Stored (d e : Dev) (a n v : Nat) : Prop :=
  e.load a n = v % 256 ^ n ∧ (∀ y, ¬ (a ≤ y ∧ y < a + n) → e.cell y = d.cell y) ∧ e.regs = d.regs ∧ e.locks = d.locks

/-- The rows of the instruction set: core and mnemonic. -/
def vorokRow : Instr → Option (Fin 7 × Mn)
  | .add c => some (c, .add)
  | .adc c => some (c, .adc)
  | .sub c => some (c, .sub)
  | .sbb c => some (c, .sbb)
  | .cmp c => some (c, .cmp)
  | .neg c => some (c, .neg)
  | .and c => some (c, .and)
  | .or c => some (c, .or)
  | .xor c => some (c, .xor)
  | .tst c => some (c, .tst)
  | .not c => some (c, .not)
  | .mov c => some (c, .mov)
  | .movs c => some (c, .movs)
  | .xchg c => some (c, .xchg)
  | .shl c => some (c, .shl)
  | .shr c => some (c, .shr)
  | .sar c => some (c, .sar)
  | .rol c => some (c, .rol)
  | .ror c => some (c, .ror)
  | .mul c => some (c, .mul)
  | .mulh c => some (c, .mulh)
  | .mulhu c => some (c, .mulhu)
  | .div c => some (c, .div)
  | .divu c => some (c, .divu)
  | .rem c => some (c, .rem)
  | .remu c => some (c, .remu)
  | .clz c => some (c, .clz)
  | .bswap c => some (c, .bswap)
  | .sext c => some (c, .sext)
  | .daja c => some (c, .daja)
  | .dajs c => some (c, .dajs)
  | .cvbd c => some (c, .cvbd)
  | .cvdb c => some (c, .cvdb)
  | .chkd c => some (c, .chkd)
  | .spmulc c => some (c, .spmulc)
  | .spmag c => some (c, .spmag)
  | .bcc c => some (c, .bcc)
  | .jmp c => some (c, .jmp)
  | .jmpr c => some (c, .jmpr)
  | .push c => some (c, .push)
  | .pop c _ => some (c, .pop)
  | .call c => some (c, .call)
  | .callr c => some (c, .callr)
  | .ret c _ => some (c, .ret)
  | .ld c _ => some (c, .ld)
  | .lds c _ => some (c, .lds)
  | .st c _ => some (c, .st)
  | .lea c => some (c, .lea)
  | .ldx c _ => some (c, .ldx)
  | .stx c => some (c, .stx)
  | .ldsp c _ => some (c, .ldsp)
  | .stsp c _ => some (c, .stsp)
  | .movfl c => some (c, .movfl)
  | .setfl c => some (c, .setfl)
  | .csrr c => some (c, .csrr)
  | .csrw c => some (c, .csrw)
  | .nop c => some (c, .nop)
  | .fenceFull c => some (c, .fenceFull)
  | .fenceLoad c => some (c, .fenceLoad)
  | .fenceStore c => some (c, .fenceStore)
  | .fenceSync c => some (c, .fenceSync)
  | .trap c => some (c, .trap)
  | .brk c => some (c, .brk)
  | .ud c => some (c, .ud)
  | .halt c => some (c, .halt)
  | .iret c => some (c, .iret)
  | .reservedOpcode c _ _ _ _ _ => some (c, .reserved)
  | _ => none

/-! ### What the whole-machine statements say of the commands -/

/-- Nothing falls due in a cycle that passes: nothing at the image controller, and in each field that has power and a clock no timer, hold-off or headland
plan, no carrier that waits, and nothing that waits for mesh time. -/
def Dev.still (d : Dev) : Prop :=
  d.svc.fall = false ∧ d.confOver = false ∧ d.svc.bad = none ∧
    (d.clk.stopped = true ∨
      ((d.fieldOn 1 = false ∨ (d.sec tHEADLAND 0 = none ∧ d.holdDue = [] ∧ d.tmr = [] ∧ ∀ t, t < 24 → d.flag (TMR_CTL t) TMR_CTL_RUN = false)) ∧
        (d.fieldOn 6 = false ∨ d.nfc.op ≠ 1) ∧
        (d.fieldOn 4 = false ∨ (d.get FLD_ALARMCTL FLD_ALARMCTL_ARM = 0 ∧ d.sowState ≠ swARMED ∧ d.sow.verifying = none ∧ d.svc.armed = none ∧
          d.cache = [] ∧ d.awaits = [] ∧ d.winWait = [] ∧ d.flag FLD_STAT FLD_STAT_SYNCED = false))))

/-- The register access through which a core gives the command, where it gives it through one and no other effect comes before: core, address, write. -/
def accessOf : Instr → Option (Fin 7 × Nat × Bool)
  | .flnCfgWrite c n _ => some (c, FLN_CFG n, true)
  | .fltClear c _ => some (c, FLN_FLT, true)
  | .overClear c => some (c, PWR_MON, true)
  | .sysrst c => some (c, SYS_RSTCTL, true)
  | .rfdie c => some (c, SYS_RSTCTL, true)
  | .fldie c => some (c, SYS_RSTCTL, true)
  | .restore c _ => some (c, CLK_FAILCFG, true)
  | .sowStage c => some (c, SOW_CMD, true)
  | .sowApply c => some (c, SOW_CMD, true)
  | .sowArm c => some (c, SOW_CMD, true)
  | .sowCancel c => some (c, SOW_CMD, true)
  | .rxChainOn c x _ => some (c, RFC_RXCTL x, true)
  | .rxChainOff c x _ => some (c, RFC_RXCTL x, true)
  | .gainWrite c x _ => some (c, RFC_RXCTL x, true)
  | .mctapWrite c m _ => some (c, RFC_MCTAP m, true)
  | .calfWrite c t i _ => some (c, SYN_CALF t i, true)
  | .pwrtabWrite c t i _ => some (c, RFC_PWRTAB t i, true)
  | .antennaWrite c _ => some (c, RFC_ANT, true)
  | .furrowRelease c f => some (c, FUR_CTL f, true)
  | .furrowAbort c f => some (c, FUR_CTL f, true)
  | .mcxRelease c m _ => some (c, MCX_CTL m, true)
  | .mcxAbort c m _ => some (c, MCX_CTL m, true)
  | .mcxEnable c m _ => some (c, MCX_CTL m, true)
  | .poolOn c => some (c, DEC_CTL, true)
  | .poolOff c => some (c, DEC_CTL, true)
  | .recordGiveBack c _ => some (c, DEC_FSFREE, true)
  | .slotAbort c _ => some (c, UNW_ABORT, true)
  | .unwindOn c => some (c, UNW_CTL, true)
  | .unwindOff c => some (c, UNW_CTL, true)
  | .txSubmit c _ => some (c, LNK_TXSUB, true)
  | .completionRead c => some (c, LNK_TXDONE_ST, false)
  | .verdictRead c => some (c, LNK_VQ 3, false)
  | .queueEnq c _ => some (c, LNK_QOP, true)
  | .queueReplace c _ => some (c, LNK_QOP, true)
  | .queueCancel c _ => some (c, LNK_QOP, true)
  | .queueFlush c _ => some (c, LNK_QOP, true)
  | .childTableWrite c i w _ => some (c, chtAddr i w, true)
  | .txfcntWrite c _ => some (c, LNK_TXFCNT, true)
  | .meshTimeSet c _ => some (c, FLD_CMD, true)
  | .alarmArm c _ => some (c, FLD_ALARMCTL, true)
  | .originate c _ => some (c, FLD_ORIG, true)
  | .floodEventRead c => some (c, FLD_EVQ 3, false)
  | .meshTimeRead c => some (c, FLD_MESH_LO, false)
  | .keyLoad c _ _ => some (c, KEY_CMD, true)
  | .keyLoadname c _ _ => some (c, KEY_CMD, true)
  | .keyUnload c _ => some (c, KEY_CMD, true)
  | .keyGenerate c _ _ => some (c, KEY_CMD, true)
  | .keyRaise c _ => some (c, KEY_CMD, true)
  | .keyRevoke c => some (c, KEY_CMD, true)
  | .aesJobSubmit c _ => some (c, AES_SUB, true)
  | .shaStart c n => some (c, SHA_CMD n, true)
  | .randomRead c => some (c, KEY_RAND, false)
  | .appendSubmit c _ => some (c, LGR_APPEND, true)
  | .verifySubmit c _ => some (c, LGR_VERIFY, true)
  | .archiveSubmit c _ => some (c, LGR_ARCH, true)
  | .originWrite c _ => some (c, LGR_ORIGIN, true)
  | .directoryInsert c => some (c, LGR_DIRCMD, true)
  | .directoryRemove c => some (c, LGR_DIRCMD, true)
  | .directoryClear c => some (c, LGR_DIRCMD, true)
  | .ledgerLookup c _ => some (c, LGR_LOOK_HI, true)
  | .coreReset c _ => some (c, SYS_CORERST, true)
  | .semTake c n => some (c, SEM_TAKE n, false)
  | .semGive c n _ => some (c, SEM_GIVE n, true)
  | .semRescue c n => some (c, SEM_RESCUE n, false)
  | .flashProgram c b => some (c, FLC_CMD b, true)
  | .flashProgbuf c b => some (c, FLC_CMD b, true)
  | .flashErase c b => some (c, FLC_CMD b, true)
  | .flashMread c b => some (c, FLC_CMD b, true)
  | .flashBlank c b => some (c, FLC_CMD b, true)
  | .flashColtest c b => some (c, FLC_CMD b, true)
  | .flashColrepair c b => some (c, FLC_CMD b, true)
  | .softwarePend c k _ => some (c, IRQ_SWPEND k, true)
  | .pendingClear c k _ => some (c, IRQ_PEND k, true)
  | .interruptAcknowledge c => some (c, IRQ_ACK c, false)
  | .interruptComplete c _ => some (c, IRQ_EOI c, true)
  | .holdoffWrite c g _ => some (c, IRQ_HOLD g, true)
  | .timerControlWrite c t _ => some (c, TMR_CTL t, true)
  | .timerGroupStart c => some (c, TMR_GCMD, true)
  | .timerGroupStop c => some (c, TMR_GCMD, true)
  | .timerCommit c t k _ => some (c, tmrHiAddr t k, true)
  | .aonTimerWrite c t load _ => some (c, if load then RTC_ATLOAD t else RTC_ATCTL t, true)
  | .calendarFreeze c => some (c, RTC_SUB, false)
  | .calendarWrite c date _ => some (c, if date then RTC_DATE else RTC_TIME, true)
  | .levelChange c t _ => some (c, PWR_PLEVEL t, true)
  | .requestIdle c => some (c, PWR_REQ, true)
  | .requestListen c => some (c, PWR_REQ, true)
  | .requestFallow c => some (c, PWR_REQ, true)
  | .requestOff c => some (c, PWR_REQ, true)
  | .savecurve c => some (c, CAL_CMD, true)
  | .savesyn c _ => some (c, CAL_CMD, true)
  | .recal c _ => some (c, CAL_CMD, true)
  | .carrierOn c => some (c, NFC_CMD, true)
  | .carrierOff c => some (c, NFC_CMD, true)
  | .nfcSend c => some (c, NFC_CMD, true)
  | .nfcInventory c => some (c, NFC_CMD, true)
  | .cresp c => some (c, NFC_CMD, true)
  | .cdrop c => some (c, NFC_CMD, true)
  | .tornWrite c => some (c, NFC_TORN, true)
  | .suidRead c => some (c, NFC_SUID_HI, false)
  | .imageCheck c => some (c, SVC_CMD, true)
  | .activationArm c => some (c, SVC_CMD, true)
  | .activationCancel c => some (c, SVC_CMD, true)
  | .imageConfirm c => some (c, SVC_CMD, true)
  | .hostFlagSet c _ => some (c, HST_HFLG, true)
  | .hostWindowWrite c w _ => some (c, HST_WINC w, true)
  | .i2cTransfer c n _ => some (c, I2C_CMD n, true)
  | .i2cRecover c n => some (c, I2C_CMD n, true)
  | .i2cDisable c n _ => some (c, I2C_CFG n, true)
  | .spiTransfer c _ => some (c, SPI_XFER, true)
  | .spiDisable c _ _ => some (c, SPI_CFG, true)
  | .uartTxPush c n _ => some (c, UART_DATA n, true)
  | .uartRxPop c n => some (c, UART_DATA n, false)
  | .gpioSet c k _ => some (c, GPIO_SET k, true)
  | .gpioClr c k _ => some (c, GPIO_CLR k, true)
  | .errorLogLatch c => some (c, ERL_ENT 0, false)
  | .errorLogPop c => some (c, ERL_ENT 9, false)
  | .ovfClear c => some (c, ERL_STAT, true)
  | .counterRead c a => some (c, wordAt a, false)
  | _ => none

/-- Commands in which a byte of memory may change: those that store, program or erase, that move records or captures, that take a power or a reset away, and a core's instructions. -/
def mayStore : Instr → Bool
  | .interDieTransfer .. | .linkLost .. | .brownOut | .powerOnReset | .thermalShutdown | .resetPin | .sysrst .. | .rfdie .. | .fldie .. | .rootPllLock ..
  | .referenceFailure | .fallbackRelock | .refCountWindow .. | .fullPlanSow .. | .viobMeasure .. | .sowStage .. | .sowApply .. | .sowArm ..
  | .sowCancel .. | .sowActivation | .drainLimit .. | .rxChainOff .. | .furrowSymbol .. | .addressFilter .. | .blockDecoded .. | .blockExpire ..
  | .furrowAbort .. | .mcSymbol .. | .mcxRelease .. | .mcxAbort .. | .mcxEnable .. | .poolOff .. | .capturePageFull .. | .subtractionEnd ..
  | .slotAbort .. | .unwindOff .. | .micCheckEnd | .keyLoad .. | .keyLoadname .. | .keyGenerate .. | .keyRaise .. | .counterScan .. | .spanRaise ..
  | .raiseRetry .. | .fcntCeilingRaise .. | .aesJobEnd .. | .ledgerAppend | .ledgerVerify | .ledgerPush | .recordDurable .. | .ledgerRecovery
  | .flashCommandEnd .. | .moveEnd .. | .flashStartup | .requestIdle .. | .requestListen .. | .requestFallow .. | .requestOff .. | .participantAnswer
  | .wakeComplete | .listenWindowOpen | .calStore .. | .calStoreEnd .. | .nfcCommandEnd .. | .cardRequest .. | .inspectRequest .. | .inspectExit .. | .noteStored ..
  | .oztisReset .. | .openXfer .. | .oztisWrite .. | .svcCommandEnd .. | .transferProgramEnd .. | .imageCheck .. | .activationArm ..
  | .activationCancel .. | .imageConfirm .. | .confirmWindowExpiry | .bootChoice .. | .hostWrite .. | .spiTransferEnd .. | .spiDisable ..
  | .registerWrite .. | .alwaysOnRailCollapse => true
  | i => (vorokRow i).isSome

/-- Commands, besides those that may store, in which a register inside a core may change. -/
def mayTouchCores : Instr → Bool
  | .bootHandoff | .meshTimeRead .. | .shaUpdate .. | .shaFinal .. | .interruptEntry .. | .haltWake .. | .coreReset .. | .coreRestart ..
  | .writebackArrival .. | .interruptAcknowledge .. | .interruptComplete .. | .channelFire .. | .lutWrite .. | .groupEnable .. | .groupDisable ..
  | .calendarFreeze .. | .oztisRead .. | .setreg .. | .imageSwitch | .i2cDataWrite .. | .i2cDataRead .. | .errorLogLatch .. | .counterRead .. => true
  | _ => false

end Sys2Proof.Machine
end

