-- ==== Sys2Proof/Certificates/Slice0/Obligations.lean ====
section
/-! DEFINITION. What is claimed of the model: one statement for each family of commands and each kind of state. -/

set_option maxRecDepth 4000

open Sys2Proof Sys2Proof.Machine

/-- A step runs the command at the front of the queue with the queue's rest. An empty queue serves the oldest request that waited for a block, once no
entry or wake is under way and the state is ACTIVE (R371); else it lets one cycle of 122.88 MHz pass: the model's choice of notes/assumptions/10. A
cycle in which nothing falls due moves time on by one, mesh time as its rate says, and CYCLE of the cores that run, and changes no register, no memory
and no other core. -/
def Obligations.StepRunsTheFront : Prop :=
  ∀ (s : State) (c : Instr) (r : List Instr) (k : Fin 7),
    step { s with pending := c :: r } = exec c { s with pending := r } ∧
    (s.dev.parked = c :: r → s.dev.pwr.entry = none → s.dev.pwr.waking = none → s.dev.get PWR_STAT PWR_STAT_STATE = 0 →
      step { s with pending := [] } = exec c { s with dev := { s.dev with parked := r }, pending := [] }) ∧
    (s.dev.parked = [] ∨ s.dev.pwr.entry ≠ none ∨ s.dev.pwr.waking ≠ none ∨ s.dev.get PWR_STAT PWR_STAT_STATE ≠ 0 →
      step { s with pending := [] } = State.on { s with pending := [] } Dev.tick ∧
      (s.dev.still → ∃ t, step { s with pending := [] } = .next t ∧ t.pending = [] ∧
        t.dev.clk.cyc = s.dev.clk.cyc + 1 ∧ (∀ a, t.dev.reg a = s.dev.reg a) ∧ (∀ y, t.dev.cell y = s.dev.cell y) ∧
        (s.dev.fieldOn 4 = false ∨ s.dev.clk.stopped = true → t.dev.clk.mesh = s.dev.clk.mesh) ∧
        (s.dev.fieldOn 4 = true → s.dev.clk.stopped = false → s.dev.clk.meshHold = false → s.dev.reg FLD_TRIM = 0 → s.dev.clk.slew = 0 → s.dev.clk.frac < 2 ^ 32 →
          t.dev.clk.mesh = s.dev.clk.mesh + 1 ∧ t.dev.clk.frac = s.dev.clk.frac) ∧
        (s.dev.pwr.phase = .running → s.dev.clk.stopped = false → s.dev.coreState k = 1 → s.dev.get (PWR_PLEVEL k) PWR_PLEVEL_CUR = 0 →
          t.dev.core k = { s.dev.core k with cycle := (s.dev.core k).cycle + 12 }) ∧
        (s.dev.coreState k = 2 → t.dev.core k = s.dev.core k)))

/-- Every command completes: it answers a next state with the queue as it stands, and never a fault or a refusal; while the root clock is stopped (R54,
R55, R372) a command of a root-derived domain changes nothing. -/
def Obligations.EveryCommandCompletes : Prop :=
  ∀ (i : Instr) (s : State), (∃ t, exec i s = .next t ∧ t.pending = s.pending) ∧
    (rootFree i = false → s.dev.clk.stopped = true → exec i s = s.on id)

/-- At a core's reset its general registers, FL and the system registers read 0, so that the core is in supervisor mode with interrupts disabled, with no
reservation (R259, R260). The device right after reset: registers at the values that the register tables give, memory with nothing listed and
canonical, every list empty. -/
def Obligations.ResetState : Prop :=
  (∀ (c : Fin 7), (∀ n, (State.reset.dev.core c).gr n = 0) ∧ (State.reset.dev.core c).fl = 0 ∧ (State.reset.dev.core c).vbase = 0 ∧ (State.reset.dev.core c).epc = 0 ∧
      (State.reset.dev.core c).pc = 0x10000000 ∧ (State.reset.dev.core c).resv = none ∧ getF (State.reset.dev.core c).fl flU = 0 ∧ getF (State.reset.dev.core c).fl flIE = 0) ∧
  (State.reset.Inv ∧ State.reset.pending = [] ∧ (∀ a, State.reset.dev.reg a = regReset a) ∧ (∀ a, State.reset.dev.cell a = memDflt a) ∧
      (∀ n, State.reset.dev.reg (I2C_CFG n) = regReset (I2C_CFG n)) ∧ State.reset.dev.get SPI_CFG SPI_CFG_DIV = 3 ∧ State.reset.dev.reg PWR_WAKE = 0x01020000 ∧
      (∀ c : Fin 7, State.reset.dev.reg (PWR_PLEVEL c) = 0x00000101) ∧ State.reset.dev.reg SYS_RSTREC = 0x00000001 ∧
      State.reset.dev.waiting = [] ∧ State.reset.dev.erlFifo = [] ∧ State.reset.dev.descs = [] ∧ State.reset.dev.locks = [])

/-- Memory stays in its one canonical form: whatever command runs, in whatever state that has it, the next state has it. -/
def Obligations.StepKeepsInv : Prop :=
  ∀ (s t : State), s.Inv → step s = .next t → t.Inv

/-- What comes between a core and the register it addresses (R7, R52, R276, R287, R295, R371): a core that is in reset, stopped or in HALT makes no
access; a write to a block that has agreed to a power state waits, whatever else holds; an access that the bus denies is a bus fault and nothing else:
everything but the core is left, which takes BUS with the register's address, and a read returns 0; an access to a gated domain does what it does to
one that runs. -/
def Obligations.AccessTurnedAway : Prop :=
  ∀ (d : Dev) (q : List Instr) (i : Instr) (c : Fin 7) (a k : Nat) (w : Bool), accessOf i = some (c, a, w) →
    (w = true → d.restsAt a = true → Gives i ⟨d, q⟩ (d.hold i)) ∧
    (w = false ∨ d.restsAt a = false →
      (d.coreActs c = false → Gives i ⟨d, q⟩ d) ∧
      (d.coreActs c = true → d.periphCode c a (decide (getF (d.core c).fl flU = 1)) w = some k →
        Gives i ⟨d, q⟩ ((if w then d else { d with rdata := 0 }).enter c (busFault d c a k w))) ∧
      (d.coreActs c = true → d.periphCode c a (decide (getF (d.core c).fl flU = 1)) w = none → exec i ⟨d, q⟩ = exec i ⟨d.touchDomain a, q⟩))

/-- What a command leaves alone: no byte of memory changes but by a command that may store, and no register inside a core but by one that may touch it,
where the bus lets the access through. -/
def Obligations.MemoryAndCoresKept : Prop :=
  ∀ (s t : State) (i : Instr), mayStore i = false → exec i s = .next t →
    (∀ y, t.dev.cell y = s.dev.cell y) ∧
    (mayTouchCores i = false → (∀ c a w, accessOf i = some (c, a, w) → BusOpen s c a w) → t.dev.cores = s.dev.cores)

/-- Field lines (R28, R29, R31): a declaration sets TRIP and FLT, latches the cause of a line that has declared none, counts one and is logged; the retry
interval clears only TRIP; a write of FLN_CFG takes MODE, WET, ILIM and RETRY; a 1 in FLN_FLT clears FLT, TRIP and CAUSE of its line, unless a
declaration of the same cycle wins. Supply, reservations and the backstop (R37, R41, R43, R462): while OVER lasts, a sample leaves the levels of cores
that stand at P3 alone. Completion: for each of these commands a clause concludes that exec answers the next state given, under conditions on the
state and the operands alone: fieldLineFault, fieldLineRetry, flnCfgWrite, fltClear, supplyLowWarning, supplyLowClear, vinWindowEnd,
reservationRelease, powerMonitorSample, overClear. -/
def Obligations.SupplyAndFieldLines : Prop :=
  (∀ (d : Dev) (q : List Instr) (c : Fin 7) (n : Fin 8) (v : LineV) (w : Word),
      (d.pwr.off = false → d.lineLive n v = true → d.bitAt FLN_FLT FLN_FLT_FLT n = false → Gives (.fieldLineFault n v) ⟨d, q⟩
        (let e := (((((d.put FLN_CAUSE (flnCause n) (lineCause (d.get (FLN_CFG n) FLN_CFG_MODE) v)).putAt FLN_STAT FLN_STAT_TRIP n true).putAt FLN_STAT FLN_STAT_LIM n false).putAt FLN_FLT FLN_FLT_FLT n true).count (FLN_FLTCNT n))
         let e : Dev := { e with fltCyc := sset 0 e.fltCyc n (d.clk.cyc + 1) }
         e.report 22 n 1 (BitVec.ofNat 32 (e.get FLN_CAUSE (flnCause n))) [])) ∧
      (d.pwr.off = false → d.lineLive n v = true → d.bitAt FLN_FLT FLN_FLT_FLT n = true → After (.fieldLineFault n v) ⟨d, q⟩ (fun e =>
        e.reg FLN_CAUSE = d.reg FLN_CAUSE ∧ e.bitAt FLN_STAT FLN_STAT_TRIP n = true ∧ e.cores = d.cores ∧ ∀ a, e.byte a = d.byte a)) ∧
      (d.pwr.off = false → d.get (FLN_CFG n) FLN_CFG_RETRY ≠ 0 → Gives (.fieldLineRetry n) ⟨d, q⟩ (d.putAt FLN_STAT FLN_STAT_TRIP n false)) ∧
      (BusOpen ⟨d, q⟩ c (FLN_CFG n) true → After (.flnCfgWrite c n w) ⟨d, q⟩ (fun e =>
        (∀ f, f ∈ [FLN_CFG_MODE, FLN_CFG_WET, FLN_CFG_ILIM, FLN_CFG_RETRY] → e.get (FLN_CFG n) f = getF w f) ∧
        (∀ a, a ≠ FLN_STAT → a ≠ FLN_CFG n → e.reg a = d.reg a) ∧ e.cores = d.cores ∧ ∀ a, e.byte a = d.byte a)) ∧
      (BusOpen ⟨d, q⟩ c FLN_FLT true → After (.fltClear c w) ⟨d, q⟩ (fun e =>
        (∀ k < 8, testBit w k = true → sget 0 d.fltCyc k ≠ d.clk.cyc + 1 → e.bitAt FLN_FLT FLN_FLT_FLT k = false ∧ e.bitAt FLN_STAT FLN_STAT_TRIP k = false ∧ e.get FLN_CAUSE (flnCause k) = 0) ∧
        (∀ k < 8, testBit w k = false ∨ sget 0 d.fltCyc k = d.clk.cyc + 1 →
          e.bitAt FLN_FLT FLN_FLT_FLT k = d.bitAt FLN_FLT FLN_FLT_FLT k ∧ e.bitAt FLN_STAT FLN_STAT_TRIP k = d.bitAt FLN_STAT FLN_STAT_TRIP k) ∧
        (∀ a, a ∉ [FLN_STAT, FLN_FLT, FLN_CAUSE] → e.reg a = d.reg a) ∧ e.cores = d.cores ∧ ∀ a, e.byte a = d.byte a))) ∧
  (∀ (d : Dev) (q : List Instr) (c : Fin 7) (h : Fin 64) (mv mw : BitVec 16),
      (d.pwr.off = false →
       Gives .supplyLowWarning ⟨d, q⟩ ((d.put PWR_SUPPLY PWR_SUPPLY_SLOW 1).put PWR_SUPPLY PWR_SUPPLY_SLOWF 1) ∧
       Gives .supplyLowClear ⟨d, q⟩ (d.put PWR_SUPPLY PWR_SUPPLY_SLOW 0) ∧
       Gives (.vinWindowEnd mv) ⟨d, q⟩ (d.put PWR_SUPPLY PWR_SUPPLY_VIN_MV mv.toNat) ∧
       After (.powerMonitorSample mw) ⟨d, q⟩ (fun e => e.pwr.mon = (mw.toNat :: d.pwr.mon).take 100)) ∧
      (d.blockOff h = true → Gives (.reservationRelease h) ⟨d, q⟩ (d.setResv h 0)) ∧
      (d.blockOff h = false → Gives (.reservationRelease h) ⟨d, q⟩ d) ∧
      (let m := (mw.toNat :: d.pwr.mon).take 100
       d.pwr.off = false → d.get PWR_CEIL PWR_CEIL_CEIL * 105 * m.length < 100 * m.foldl (· + ·) 0 → d.flag PWR_MON PWR_MON_OVER = false →
        After (.powerMonitorSample mw) ⟨d, q⟩ (fun e =>
          e.flag PWR_MON PWR_MON_OVER = true ∧ ∀ k : Fin 7, d.coreState k ≠ 0 → e.get (PWR_PLEVEL k) PWR_PLEVEL_LEVEL = 3 ∧ e.get (PWR_PLEVEL k) PWR_PLEVEL_CUR = 3)) ∧
      (d.pwr.off = false → d.flag PWR_MON PWR_MON_OVER = true → (∀ k : Fin 7, d.coreLive k = true → d.get (PWR_PLEVEL k) PWR_PLEVEL_LEVEL = 3 ∧ d.get (PWR_PLEVEL k) PWR_PLEVEL_CUR = 3) →
        After (.powerMonitorSample mw) ⟨d, q⟩ (fun e => ∀ k : Fin 7, e.reg (PWR_PLEVEL k) = d.reg (PWR_PLEVEL k))) ∧
      (BusOpen ⟨d, q⟩ c PWR_MON true → d.monOver 0 = false → Gives (.overClear c) ⟨d, q⟩ (d.put PWR_MON PWR_MON_OVER 0)) ∧
      (BusOpen ⟨d, q⟩ c PWR_MON true → d.monOver 0 = true → Gives (.overClear c) ⟨d, q⟩ d))

/-- What a system reset does, whatever its source (R47, R198, Tables 2.6 and 2.7): the source's bit is set; FIRST takes its code when no reset was under
way, and of several sources in the cycle in which the reset began the one of the highest priority; every core stands as R259 resets it, nothing is
sown, mesh time goes on from the RTC and never steps back, and every register that Table 2.6 does not keep reads its reset value. The sources of a
reset and their releases (R38, R47, Table 2.8): each performs the reset of its code, or a reset of one die; a source that holds the dies keeps them in
reset, and start-up begins once nothing holds them. Completion: for each of these commands a clause concludes that exec answers the next state given,
under conditions on the state and the operands alone: brownOut, brownOutRelease, powerOnReset, thermalShutdown, thermalRelease, resetPin, sysrst,
rfdie, fldie, alwaysOnRailCollapse. -/
def Obligations.SystemResets : Prop :=
  (∀ (d : Dev) (code : Nat) (c : Fin 7) (a : Nat), code < 7 →
      (d.systemReset code).get SYS_RSTREC (rstBit code) = 1 ∧
      (d.pwr.phase ≠ .held → d.pwr.rstCyc ≠ some d.clk.cyc → (d.systemReset code).get SYS_RSTREC SYS_RSTREC_FIRST = code) ∧
      (d.pwr.phase = .held → d.pwr.rstCyc ≠ some d.clk.cyc → (d.systemReset code).get SYS_RSTREC SYS_RSTREC_FIRST = d.get SYS_RSTREC SYS_RSTREC_FIRST) ∧
      (d.pwr.rstCyc = some d.clk.cyc → (d.systemReset code).get SYS_RSTREC SYS_RSTREC_FIRST = min (d.get SYS_RSTREC SYS_RSTREC_FIRST) code) ∧
      (d.systemReset code).core c = CoreSt.init ∧
      (d.systemReset code).sow = SowSt.init ∧
      (d.systemReset code).clk.mesh = (if atOrPast d.rtcT d.meshNow then BitVec.ofNat 64 d.rtcT else d.clk.mesh) ∧
      (keptAtReset a = false → d.inspecting = false → a ≠ CLK_STAT → a ≠ SYS_RSTREC → (d.systemReset code).reg a = regReset a) ∧
      (d.systemReset code).get CLK_STAT CLK_STAT_LOCK = 0) ∧
  (∀ (d : Dev) (q : List Instr) (c : Fin 7),
      (d.pwr.off = false → d.inspecting = false → Gives .brownOut ⟨d, q⟩ { d.systemReset 1 with pwr := { (d.systemReset 1).pwr with brownOut := true } }) ∧
      (d.pwr.off = true ∨ d.inspecting = true → Gives .brownOut ⟨d, q⟩ { d with pwr := { d.pwr with brownOut := true } }) ∧
      (d.pwr.off = false → Gives .thermalShutdown ⟨d, q⟩ { d.systemReset 2 with pwr := { (d.systemReset 2).pwr with thermal := true } } ∧
        Gives .thermalRelease ⟨d, q⟩ (Dev.startUp { d with pwr := { d.pwr with thermal := false } })) ∧
      (d.inspecting = false → d.pwr.pins ≠ .unpowered → Gives .brownOutRelease ⟨d, q⟩ (Dev.startUp { d with pwr := { d.pwr with brownOut := false } })) ∧
      (d.inspecting = true → After .brownOutRelease ⟨d, q⟩ (fun e => e.inspecting = false ∧ e.pwr.brownOut = false ∧ e.pwr.off = false ∧ e.pwr.pins ≠ .unpowered)) ∧
      (d.pwr.off = false → Gives .resetPin ⟨d, q⟩ (Dev.systemReset { d with pwr := { d.pwr with pinLow := true } } 4).startUp) ∧
      (d.pwr.off = true → Gives .resetPin ⟨d, q⟩
        (Dev.startUp { d.put SYS_RSTREC SYS_RSTREC_PIN 1 with pwr := { d.pwr with pinLow := true, off := false, fields := PowerSt.init.fields } })) ∧
      (BusOpen ⟨d, q⟩ c SYS_RSTCTL true → Gives (.sysrst c) ⟨d, q⟩ (d.systemReset 6).startUp ∧
        Gives (.rfdie c) ⟨d, q⟩ d.rfDie ∧ Gives (.fldie c) ⟨d, q⟩ d.flDie) ∧
      (∀ k w, d.coreActs c = true → d.periphCode c SYS_RSTCTL (decide (getF (d.core c).fl flU = 1)) true = some k → w ∈ [Instr.sysrst c, .rfdie c, .fldie c] →
        Gives w ⟨d, q⟩ (d.enter c (busFault d c SYS_RSTCTL k true))) ∧
      Gives .powerOnReset ⟨d, q⟩ d.coldDies.gatesCold ∧
      Gives .alwaysOnRailCollapse ⟨d, q⟩ { d.coldDies.gatesCold with pwr := { d.coldDies.gatesCold.pwr with pins := .unpowered, fields := 0 } } ∧
      d.coldDies.gatesCold.pwr.brownOut = true ∧ d.coldDies.gatesCold.pwr.phase = .held ∧ d.coldDies.gatesCold.sow = SowSt.init ∧
      (∀ a, d.inspecting = false → d.coldDies.gatesCold.reg a = regReset a) ∧ (∀ k, d.coldDies.gatesCold.core k = CoreSt.init))

/-- Gating and request-to-run (R52), reference failure, relock and RESTORE (R54 to R56), the low-frequency crystal (R57). Start-up and the dies behind a
link (R8, R9, R25, R49, Table 2.13): an inter-die transfer that passes ends the run of failures, the eighth failure of a run isolates the die, the
root PLL locks and trains both links, the release of the reset, which waits for TMODE to be low (R19), starts C0 and K0 with their reservations, and
the RF die's reset ends before its plan applies again. Completion: for each of these commands a clause concludes that exec answers the next state
given, under conditions on the state and the operands alone: interDieTransfer, linkLost, rfDieResetEnd, rfDieResow, rootPllLock, resetRelease,
domainGate, domainWake, referenceFailure, fallbackRelock, refCountWindow, restore, restoreRelock, lfCrystalFailure, substituteSwitch. -/
def Obligations.ClocksAndStartUp : Prop :=
  (∀ (d : Dev) (q : List Instr) (c : Fin 7) (i : Fin 112) (n : BitVec 16) (v : Word),
      (idleDomain i = true → testBit (d.reg (CLK_GATEEN (i / 32))) (i % 32) = true → d.fieldOn (domainField i) = true → d.domainBusy i = false →
        After (.domainGate i) ⟨d, q⟩ (fun e => sget false e.pwr.gated i = true ∧ e.domainOn i = false ∧ e.regs = d.regs)) ∧
      (idleDomain i = false ∨ d.domainBusy i = true → Gives (.domainGate i) ⟨d, q⟩ d) ∧
      After (.domainWake i) ⟨d, q⟩ (fun e => sget false e.pwr.gated i = false ∧ e.regs = d.regs ∧ e.cores = d.cores) ∧
      (d.pwr.off = false → d.clk.episode = false → d.clk.rootUp = true → d.get CLK_FAILCFG CLK_FAILCFG_ACTION = 1 → After .referenceFailure ⟨d, q⟩ (fun e =>
        e.clk.episode = true ∧ e.clk.stopped = true ∧ e.flag CLK_STAT CLK_STAT_LOCK = false)) ∧
      (d.clk.episode = true → Gives .referenceFailure ⟨d, q⟩ d) ∧
      (d.clk.rootUp = false → Gives .referenceFailure ⟨d, q⟩ d) ∧
      (d.pwr.off = false → d.clk.stopped = true → d.clk.episode = true → d.clk.rootUp = true → d.clk.restoring = false → After .fallbackRelock ⟨d, q⟩ (fun e =>
        e.clk.stopped = false ∧ e.flag CLK_STAT CLK_STAT_FALLBACK = true ∧ e.flag CLK_STAT CLK_STAT_LOCK = true)) ∧
      (d.pwr.off = false → 29700 ≤ n.toNat → n.toNat ≤ 30300 → Gives (.refCountWindow n) ⟨d, q⟩ ((d.put CLK_STAT CLK_STAT_REFCNT n.toNat).putB CLK_STAT CLK_STAT_REFOK true)) ∧
      (d.pwr.off = false → n.toNat < 29700 ∨ 30300 < n.toNat → d.clk.episode = true →
        Gives (.refCountWindow n) ⟨d, q⟩ ((d.put CLK_STAT CLK_STAT_REFCNT n.toNat).putB CLK_STAT CLK_STAT_REFOK false)) ∧
      (BusOpen ⟨d, q⟩ c CLK_FAILCFG true → d.flag CLK_STAT CLK_STAT_REFOK = true → After (.restore c v) ⟨d, q⟩ (fun e =>
        e.clk.stopped = true ∧ e.clk.restoring = true ∧ e.flag CLK_STAT CLK_STAT_LOCK = false)) ∧
      (d.pwr.off = false → d.clk.restoring = true → After .restoreRelock ⟨d, q⟩ (fun e => e.clk.stopped = false ∧ e.clk.restoring = false ∧ e.clk.episode = false)) ∧
      (d.pwr.off = false → d.flag CLK_STAT CLK_STAT_LFSUB = false → d.clk.lfPend = false → d.get PWR_STAT PWR_STAT_STATE = 3 ∨ (d.clk.rootUp = true ∧ d.clk.stopped = false) → After .lfCrystalFailure ⟨d, q⟩ (fun e =>
        e.clk.lfPend = true ∧ e.flag CLK_STAT CLK_STAT_LFFAIL = true ∧ e.flag RTC_STAT RTC_STAT_OSCSTOP = true)) ∧
      (d.get PWR_STAT PWR_STAT_STATE ≠ 3 → d.clk.rootUp = false ∨ d.clk.stopped = true → Gives .lfCrystalFailure ⟨d, q⟩ d) ∧
      (d.pwr.off = false → d.clk.lfPend = true → d.clk.rootUp = true → d.clk.stopped = false → Gives .substituteSwitch ⟨d, q⟩ (Dev.put { d with clk := { d.clk with lfPend := false } } CLK_STAT CLK_STAT_LFSUB 1))) ∧
  (∀ (d : Dev) (q : List Instr) (die : Fin 2) (reads : List (Word × Word)) (atn : Bool),
      (d.isoOf (die + 1) = false → Gives (.interDieTransfer die true) ⟨d, q⟩ (d.setFails (die + 1) 0)) ∧
      (d.isoOf (die + 1) = false → d.failsOf (die + 1) < 7 → Gives (.interDieTransfer die false) ⟨d, q⟩ (d.setFails (die + 1) (d.failsOf (die + 1) + 1))) ∧
      (d.isoOf (die + 1) = false → 7 ≤ d.failsOf (die + 1) → After (.interDieTransfer die false) ⟨d, q⟩ (fun e => e.isoOf (die + 1) = true)) ∧
      (d.isoOf (die + 1) = false → After (.linkLost die) ⟨d, q⟩ (fun e => e.isoOf (die + 1) = true ∧ e.failsOf (die + 1) = 8)) ∧
      (d.isoOf (die + 1) = true → Gives (.interDieTransfer die false) ⟨d, q⟩ d ∧ Gives (.linkLost die) ⟨d, q⟩ d) ∧
      (d.pwr.off = false → Gives .rfDieResetEnd ⟨d, q⟩ { d with pwr := { d.pwr with rfReset := false } }) ∧
      (d.pwr.off = false → d.pwr.rfStale = true → d.pwr.pins = .sown → d.pwr.rfIso = false → d.pwr.rfReset = false → d.clk.stopped = false →
        Gives .rfDieResow ⟨d, q⟩ { d.radioAgain with pwr := { d.radioAgain.pwr with femDriven := true, rfStale := false } }) ∧
      (d.pwr.phase = .rails → Gives (.rootPllLock true true) ⟨d, q⟩
        (Dev.put { d with pwr := { d.pwr with phase := .locked }, clk := { d.clk with rootUp := true } } CLK_STAT CLK_STAT_LOCK 1)) ∧
      (d.pwr.phase = .rails → After (.rootPllLock false true) ⟨d, q⟩ (fun e => e.isoOf 1 = true)) ∧
      (d.pwr.phase = .locked → Gives (.resetRelease reads (atn, true)) ⟨d, q⟩ d) ∧
      (d.pwr.phase = .locked → After (.resetRelease reads (atn, false)) ⟨d, q⟩ (fun e =>
        e.pwr.phase = .running ∧ e.pwr.pins = .notSown ∧ e.svc.atn = atn ∧ e.flag SVC_STAT SVC_STAT_ATN = atn ∧ e.resvOf (resvCore 0) = 27 ∧ e.resvOf (resvCore 6) = 27)))

/-- Full plans and the hand-off (R66, R71, R73, R74, R222, R231, R286): a full plan at start-up, once the flash is ready and the boot keys are loaded, is
judged and sown, or waits for VIO_B and is judged when it is there or 100 measurements have passed, the choice of an image that waits with it going on
then; a plan that passes is in force and its pins are sown; the hand-off hides the boot ROM and starts the cores at their entries. Completion: for
each of these commands a clause concludes that exec answers the next state given, under conditions on the state and the operands alone: fullPlanSow,
viobMeasure, bootHandoff. -/
def Obligations.FullPlans : Prop :=
  ∀ (d : Dev) (q : List Instr) (a : Word) (v : Option (Fin 2)),
    (let b := a.toNat / 4 * 4
     let k := d.bootKeys []
     let e := Dev.setSow (Dev.setReg { k with sow := { k.sow with bootLeft := [] } } SOW_SRC (BitVec.ofNat 32 b)) swVERIFYING
     d.romHidden = false → d.pwr.phase = .running → d.flag FLC_BOOT FLC_BOOT_READY = true ∨ d.pwr.flIso = true → Gives (.fullPlanSow a v) ⟨d, q⟩
       (if v.isNone && e.viobOnly (e.planBytes b) then { e with sow := { e.sow with viobWait := some (100, b) } } else (e.sowJudge b (v.map (·.val))).2)) ∧
    (d.romHidden = true ∨ d.pwr.phase ≠ .running ∨ (d.flag FLC_BOOT FLC_BOOT_READY = false ∧ d.pwr.flIso = false) → Gives (.fullPlanSow a v) ⟨d, q⟩ d) ∧
    (d.sow.viobWait = none → Gives (.viobMeasure v) ⟨d, q⟩ { d with pwr := { d.pwr with vioB := v.map (·.val) } }) ∧
    (∀ n b, d.sow.viobWait = some (n, b) → v.isSome = true ∨ n ≤ 1 →
      (d.sow.bootLeft = [] → Gives (.viobMeasure v) ⟨d, q⟩ (d.sowJudge b (v.map (·.val))).2) ∧
      (d.sow.bootLeft ≠ [] → d.flag PWR_SUPPLY PWR_SUPPLY_SLOW = false → Gives (.viobMeasure v) ⟨d, q⟩ (Dev.bootTry
        { d with pwr := { d.pwr with vioB := v.map (·.val) }, sow := { d.sow with bootLeft := [], viobWait := none } } (v.map (·.val)) true d.sow.bootLeft))) ∧
    (∀ n b, d.sow.viobWait = some (n, b) → v = none → 1 < n →
      Gives (.viobMeasure v) ⟨d, q⟩ { d with sow := { d.sow with viobWait := some (n - 1, b) } }) ∧
    (∀ l seq sram, (d.applyFull l seq sram false).sow.force = l ∧ (d.applyFull l seq sram false).pwr.pins = .sown ∧
      (d.applyFull l seq sram false).sowState = swINFORCE ∧ (d.applyFull l seq sram false).reg SOW_SEQ = BitVec.ofNat 32 seq) ∧
    (d.romHidden = false → d.sowState = swINFORCE → d.flag SOW_STAT SOW_STAT_RECOVERY = false →
      Gives .bootHandoff ⟨d, q⟩ (Dev.coresGo { d with romHidden := true })) ∧
    (d.romHidden = true ∨ d.sowState ≠ swINFORCE ∨ d.flag SOW_STAT SOW_STAT_RECOVERY = true → Gives .bootHandoff ⟨d, q⟩ d)

/-- Partial plans (R71, R75, R76, R78): STAGE, APPLY, ARM and CANCEL, each accepted in its states only and refused with code 0x10 in the others;
verification stages a plan or leaves what was staged; an armed plan swaps when mesh time reaches SOW_WHEN, a STAGE under way over it being given up.
The drain of a chain that a swap touches (R77): it ends when no committed furrow of the chain is at work, or at its limit, with the packets of the
chain RESOWN; then the channelizer reloads and the detector resumes, and the last to resume puts the plan in force. Completion: for each of these
commands a clause concludes that exec answers the next state given, under conditions on the state and the operands alone: sowStage, stageValidated,
sowApply, sowArm, sowCancel, sowActivation, drainEnd, drainLimit, channelizerReload, detectorResume. -/
def Obligations.PartialPlansAndSwaps : Prop :=
  (∀ (d : Dev) (q : List Instr) (c : Fin 7) (v : Option (Fin 2)),
      (BusOpen ⟨d, q⟩ c SOW_CMD true →
        (d.sowBusy = false → Gives (.sowStage c) ⟨d, q⟩
          ({ d with sow := { d.sow with verifying := some ((d.reg SOW_SRC).toNat, d.sowState) } }.setSow swVERIFYING)) ∧
        (d.sowBusy = true → Gives (.sowStage c) ⟨d, q⟩ (d.sowFail ⟨0x10, 0, 0⟩ []) ∧ Gives (.sowApply c) ⟨d, q⟩ (d.sowFail ⟨0x10, 0, 0⟩ []) ∧
          Gives (.sowArm c) ⟨d, q⟩ (d.sowFail ⟨0x10, 0, 0⟩ [])) ∧
        (d.sow.staged = none → Gives (.sowApply c) ⟨d, q⟩ (d.sowFail ⟨0x10, 0, 0⟩ []) ∧ Gives (.sowArm c) ⟨d, q⟩ (d.sowFail ⟨0x10, 0, 0⟩ [])) ∧
        (d.sowBusy = false → d.sow.staged.isSome = true → Gives (.sowApply c) ⟨d, q⟩ d.swap) ∧
        (d.sowBusy = false → d.sow.staged.isSome = true → d.sowState ≠ swARMED → atOrPast d.meshNow d.sowWhen = false →
          Gives (.sowArm c) ⟨d, q⟩ (d.setSow swARMED)) ∧
        (∀ p, d.sowBusy = false → d.sow.staged = some p → d.sowState ≠ swARMED → atOrPast d.meshNow d.sowWhen = true →
          Gives (.sowArm c) ⟨d, q⟩ (d.sowFail ⟨0x11, 0, 0⟩ p.planId)) ∧
        (d.sowState = swSTAGED ∨ d.sowState = swARMED → Gives (.sowCancel c) ⟨d, q⟩ ({ d with sow := { d.sow with staged := none } }.setSow d.sowRest)) ∧
        (d.sowState ≠ swSTAGED → d.sowState ≠ swARMED → Gives (.sowCancel c) ⟨d, q⟩ d)) ∧
      (∀ a p, d.sow.verifying = some (a, p) →
        let e := d.planRead a
        let e : Dev := { e with sow := { e.sow with verifying := none }, pwr := { e.pwr with vioB := v.map (·.val) } }
        (∀ f, e.planCheck true (d.planBytes a) (v.map (·.val)) = some f → Gives (.stageValidated v) ⟨d, q⟩ ((e.setSow p).sowFail f (planId (d.planBytes a)))) ∧
        (e.planCheck true (d.planBytes a) (v.map (·.val)) = none →
          After (.stageValidated v) ⟨d, q⟩ (fun t => t.sowState = swSTAGED ∧ t.sow.staged = some (planOf (d.planBytes a) a)))) ∧
      (d.sow.verifying = none → Gives (.stageValidated v) ⟨d, q⟩ d) ∧
      (atOrPast d.meshNow d.sowWhen = true → d.sowState = swARMED → Gives .sowActivation ⟨d, q⟩ d.swap) ∧
      (∀ a, atOrPast d.meshNow d.sowWhen = true → d.sowState ≠ swARMED → d.sow.verifying = some (a, swARMED) →
        Gives .sowActivation ⟨d, q⟩ (Dev.swap (Dev.sowRefuse { d with sow := { d.sow with verifying := none } }))) ∧
      (atOrPast d.meshNow d.sowWhen = false ∨ (d.sowState ≠ swARMED ∧ d.sow.verifying = none) → Gives .sowActivation ⟨d, q⟩ d)) ∧
  (∀ (d : Dev) (q : List Instr) (c : Fin 4),
      (c.val ∈ d.sow.draining → d.committedOn c = false → Gives (.drainEnd c) ⟨d, q⟩ (d.drainOver c)) ∧
      (d.committedOn c = true ∨ c.val ∉ d.sow.draining → Gives (.drainEnd c) ⟨d, q⟩ d) ∧
      (c.val ∈ d.sow.draining → Gives (.drainLimit c) ⟨d, q⟩
        ((d.imposedAll (fun _ r => r.chain == c.val) dcRESOW stRESOWN).drainOver c)) ∧
      (c.val ∉ d.sow.draining → Gives (.drainLimit c) ⟨d, q⟩ d) ∧
      (c.val ∈ d.sow.reloading → Gives (.channelizerReload c) ⟨d, q⟩
        { d with sow := { d.sow with reloading := d.sow.reloading.filter (· ≠ c.val), resuming := d.sow.resuming ++ [c.val] } }) ∧
      (c.val ∈ d.sow.resuming → Gives (.detectorResume c) ⟨d, q⟩
        (Dev.sowSettle { d with sow := { d.sow with resuming := d.sow.resuming.filter (· ≠ c.val) } })) ∧
      (c.val ∉ d.sow.reloading → Gives (.channelizerReload c) ⟨d, q⟩ d) ∧
      (c.val ∉ d.sow.resuming → Gives (.detectorResume c) ⟨d, q⟩ d))

/-- Receive chains and the search (R80, R121 to R127, R137): turning a chain on or off, a blanked or unsearched window starts the run over, a run shorter
than RUN windows raises nothing, and a full run raises a candidate at its largest bin exactly when the sum reaches the threshold; a window that comes
while the strips rest and the detectors do not waits (R371). Completion: for each of these commands a clause concludes that exec answers the next
state given, under conditions on the state and the operands alone: rxChainOn, rxChainOff, detectorWindow. -/
def Obligations.ChainsAndSearch : Prop :=
  ∀ (d : Dev) (q : List Instr) (c : Fin 7) (x : Fin 4) (v : Word) (ch : Fin 256) (b : Fin 5) (e : Fin 8) (track marked : Bool) (s : List Cx),
    (BusOpen ⟨d, q⟩ c (RFC_RXCTL x) true →
      ((d.rxFields x v).flag (RFC_RXCTL x) RFC_RXCTL_ON = false → Gives (.rxChainOn c x v) ⟨d, q⟩ ((d.rxFields x v).rxOn x) ∧
        Gives (.rxChainOff c x v) ⟨d, q⟩ (d.rxFields x v)) ∧
      ((d.rxFields x v).flag (RFC_RXCTL x) RFC_RXCTL_ON = true → Gives (.rxChainOn c x v) ⟨d, q⟩ (d.rxFields x v) ∧
        Gives (.rxChainOff c x v) ⟨d, q⟩ ((d.rxFields x v).rxStop x dcCHAIN stCHAINOFF))) ∧
    (let key := runKey x ch b e track
     let hidden := marked || d.blanked x
     let run := (windowQ (e + 5) s :: sget [] d.detRun key).take (d.plan8 tDETECT x 0x28)
     let w : Dev := { d with detRun := sset [] d.detRun key run }
     let best := bestBin (2 ^ (e.val + 5)) run
     let waits := d.rests 0 && !d.rests 1
     (waits = true → Gives (.detectorWindow x ch b e track marked s) ⟨d, q⟩ (d.hold (.detectorWindow x ch b e track marked s))) ∧
     (waits = false → hidden = true ∨ d.searches x ch b e = false → Gives (.detectorWindow x ch b e track marked s) ⟨d, q⟩ { d with detRun := sset [] d.detRun key [] }) ∧
     (waits = false → hidden = false → d.searches x ch b e = true →
      (run.length < d.plan8 tDETECT x 0x28 → Gives (.detectorWindow x ch b e track marked s) ⟨d, q⟩ w) ∧
      (run.length = d.plan8 tDETECT x 0x28 → reach40 (d.detThr x b e) best.2 (65536 * d.plan8 tDETECT x 0x28) = true →
        Gives (.detectorWindow x ch b e track marked s) ⟨d, q⟩ (w.candidate x ch b (e + 5) best.1 best.2)) ∧
      (run.length = d.plan8 tDETECT x 0x28 → reach40 (d.detThr x b e) best.2 (65536 * d.plan8 tDETECT x 0x28) = false →
        Gives (.detectorWindow x ch b e track marked s) ⟨d, q⟩ w)))

/-- Furrow symbols (R131, R135, R136, R84): two weak preamble symbols in a row, or more than 4,096, reclaim the furrow LOST; the two sync symbols must
spell an enabled word; the down-chirps decide SYNC; a blanked symbol is skipped in the preamble and ends the furrow later; each symbol moves the
trackers unless it is faded; a header or payload symbol is taken in the states that expect one; a replay reads its symbols from its recording and
waits at its write point (R167); a symbol that does not belong to the furrow's point of the frame changes nothing. MC demodulators (R141 to R144): the
training statistic of the two windows against THR claims the demodulator or counts in BUSY, the training symbol gives the channel estimate and opens
the header or reclaims the unit, and data is taken in its states only. Completion: for each of these commands a clause concludes that exec answers the
next state given, under conditions on the state and the operands alone: furrowSymbol, mcTraining, mcSymbol. -/
def Obligations.Demodulators : Prop :=
  (∀ (d : Dev) (q : List Instr) (f : Fin 1024) (x : List Cx) (pos : Nat) (marked : Bool) (rssi snr : BitVec 16) (freq : BitVec 24) (size : List Byte) (drift : Byte) (y : Meas) (n : Nat),
      let r := d.rcvOf f
      let hidden := marked || d.unitBlanked f
      let seen := fun (p : Nat) => (r.noted (d.faded p) false).track (d.faded p) freq.toNat drift.toNat
      let p := symQAt r.e x r.bin
      let s := symQ r.e x
      let v := downQ r.e x
      let pre := Instr.furrowSymbol f (.preamble x marked freq drift)
      let sync := Instr.furrowSymbol f (.sync x marked rssi snr pos freq drift)
      let down := Instr.furrowSymbol f (.down x marked freq drift)
      (∀ k, (seen k).trkF = (if d.faded k then r.trkF else freq.toNat) ∧ (seen k).trkD = (if d.faded k then r.trkD else drift.toNat) ∧
        (seen k).fade = (if d.faded k then min 0xFFFF (r.fade + 1) else r.fade) ∧ (seen k).blank = r.blank) ∧
      (r.reent = none →
        (r.state = rsSYNC → r.step = 0 →
          (hidden = true → Gives pre ⟨d, q⟩ d) ∧
          (hidden = false → 65536 ≤ p → r.pre < 4096 → Gives pre ⟨d, q⟩ (d.setRcv f { seen p with weak := 0, pre := r.pre + 1 })) ∧
          (hidden = false → p < 65536 → r.weak = 0 → r.pre < 4096 → Gives pre ⟨d, q⟩ (d.setRcv f { seen p with weak := 1, pre := r.pre + 1 })) ∧
          (hidden = false → (p < 65536 ∧ 1 ≤ r.weak) ∨ 4096 ≤ r.pre → Gives pre ⟨d, q⟩
            ((d.setRcv f { seen p with weak := if p < 65536 then r.weak + 1 else 0, pre := r.pre + 1 }).reclaim f dcLOST))) ∧
        (r.state = rsSYNC → r.step ≤ 1 → hidden = true → Gives sync ⟨d, q⟩ (d.reclaim f dcBLANK)) ∧
        (r.state = rsSYNC → r.step = 0 → hidden = false →
          let nib := syncNibble r.e (symBin r.e x) r.bin
          ((d.syncWords r.chain).any (fun w => w / 16 == nib) = true → Gives sync ⟨d, q⟩ (d.setRcv f { seen s with step := 1, hi := nib })) ∧
          ((d.syncWords r.chain).any (fun w => w / 16 == nib) = false → Gives sync ⟨d, q⟩ ((d.setRcv f (seen s)).reclaim f dcSYNC))) ∧
        (r.state = rsSYNC → r.step = 1 → hidden = false →
          let nib := syncNibble r.e (symBin r.e x) r.bin
          ((d.syncWords r.chain).contains (16 * r.hi + nib) = true → Gives sync ⟨d, q⟩
            (d.setRcv f { seen s with step := 2, word := 16 * r.hi + nib, rssi := rssi.toNat, snr := snr.toNat, tsync := d.meshNow, syncU := d.nowU })) ∧
          ((d.syncWords r.chain).contains (16 * r.hi + nib) = false → Gives sync ⟨d, q⟩ ((d.setRcv f (seen s)).reclaim f dcSYNC))) ∧
        (r.state = rsSYNC → r.step = 2 → hidden = true → Gives down ⟨d, q⟩ (d.reclaim f dcBLANK)) ∧
        (r.state = rsSYNC → r.step = 2 → hidden = false →
          (reach40 (d.detThr r.chain r.b (r.e - 5)) (4 * v) 65536 = true →
            Gives down ⟨d, q⟩ (d.setRcv f { seen v with state := rsHDR, foff := freq.toNat })) ∧
          (reach40 (d.detThr r.chain r.b (r.e - 5)) (4 * v) 65536 = false → Gives down ⟨d, q⟩ ((d.setRcv f (seen v)).reclaim f dcSYNC))) ∧
        (r.state = rsHDR ∨ r.state = rsADDR ∨ r.state = rsCOMMITTED → Gives (.furrowSymbol f (.data size x marked freq drift)) ⟨d, q⟩
          (d.dataSymbol f (r.scSoft x size hidden) (symQ r.e x) hidden freq.toNat drift.toNat))) ∧
      (r.reent = some n → r.takes y = true → d.replayed r n = none → Gives (.furrowSymbol f y) ⟨d, q⟩ d) ∧
      (∀ z, r.reent = some n → r.takes y = true → d.replayed r n = some z → Gives (.furrowSymbol f y) ⟨d, q⟩
        (((d.pageTouch (d.slotOf n) r.rpos (2 ^ r.e * d.perChip r)).measure f (readingOf z y)).replayOn f (r.nextPos (2 ^ r.e * d.perChip r) y))) ∧
      (r.takes y = false → Gives (.furrowSymbol f y) ⟨d, q⟩ d) ∧
      (r.takes (.preamble x marked freq drift) = true ↔ r.state = rsSYNC ∧ r.step = 0) ∧ (r.takes (.sync x marked rssi snr pos freq drift) = true ↔ r.state = rsSYNC ∧ r.step ≤ 1) ∧
      (r.takes (.down x marked freq drift) = true ↔ r.state = rsSYNC ∧ r.step = 2) ∧
      (r.takes (.data size x marked freq drift) = true ↔ r.state = rsHDR ∨ r.state = rsADDR ∨ r.state = rsCOMMITTED)) ∧
  (∀ (d : Dev) (q : List Instr) (m : Fin 2) (w : List Cx × List Cx) (marked : Bool) (rssi snr : BitVec 16) (foff : BitVec 24) (h r1 r2 x : List Cx) (drift : Byte),
      let u := 1024 + m.val
      let c := d.get (RFC_MCTAP m) RFC_MCTAP_CHAIN
      let stat := trainStat (d.linkM m) w
      let trained := mcTrained (d.linkM m) r1 r2
      let pass := trainPass (d.linkM m) (d.get (MCX_CTL m) MCX_CTL_THR) h r1 r2
      (d.flag (MCX_CTL m) MCX_CTL_EN = true → d.flag (RFC_MCTAP m) RFC_MCTAP_EN = true → d.rxReady c = true → d.rests 4 = false →
        reach40 (d.get (MCX_CTL m) MCX_CTL_THR) stat.1 (2 * stat.2) = true →
        ((d.rcvOf u).state = 0 → Gives (.mcTraining m w) ⟨d, q⟩ (d.setRcv u { Rcv.init with state := rsSYNC, chain := c })) ∧
        ((d.rcvOf u).state ≠ 0 → Gives (.mcTraining m w) ⟨d, q⟩ (d.count (MCX_BUSY m)))) ∧
      (d.flag (MCX_CTL m) MCX_CTL_EN = false ∨ d.rests 4 = true ∨ reach40 (d.get (MCX_CTL m) MCX_CTL_THR) stat.1 (2 * stat.2) = false → Gives (.mcTraining m w) ⟨d, q⟩ d) ∧
      ((d.rcvOf u).state = rsSYNC →
        (pass = true → Gives (.mcSymbol m (.train h rssi snr foff r1 r2)) ⟨d, q⟩
          (d.setRcv u { d.rcvOf u with state := rsHDR, rssi := rssi.toNat, snr := snr.toNat, foff := foff.toNat, low := trained.low, tsync := d.meshNow, syncU := d.nowU, chan := trained.chan, nu := trained.nu })) ∧
        (pass = false → Gives (.mcSymbol m (.train h rssi snr foff r1 r2)) ⟨d, q⟩ (d.reclaim u dcSYNC)) ∧
        Gives (.mcSymbol m (.data x marked drift)) ⟨d, q⟩ d) ∧
      ((d.rcvOf u).state ≠ rsSYNC → Gives (.mcSymbol m (.train h rssi snr foff r1 r2)) ⟨d, q⟩ d) ∧
      ((d.rcvOf u).state = rsHDR ∨ (d.rcvOf u).state = rsADDR ∨ (d.rcvOf u).state = rsCOMMITTED →
        Gives (.mcSymbol m (.data x marked drift)) ⟨d, q⟩ (d.mcReceive m x (marked || d.unitBlanked u) drift.toNat)))

/-- Verdicts, release and abort of a receive unit (R132, R134, R137, R139, R144, R176, R177). The decoder pool (R148 to R156): grants while the pool is
on, results, expiry of a queued block unless a grant of the same cycle takes it (R153), and the pool's reservation. Completion: for each of these
commands a clause concludes that exec answers the next state given, under conditions on the state and the operands alone: reclaimComplete,
earlyVerdict, addressFilter, decoderGrant, blockDecoded, blockExpire, furrowRelease, furrowAbort, mcxRelease, mcxAbort, mcxEnable, poolOn, poolOff. -/
def Obligations.UnitsAndDecoding : Prop :=
  (∀ (d : Dev) (q : List Instr) (c : Fin 7) (u : Fin 1026) (f : Fin 1024) (m : Fin 2) (v : Word),
      ((d.rcvOf u).state = rsRECLAIM → Gives (.reclaimComplete u) ⟨d, q⟩ (d.setRcv u { Rcv.init with freed := d.clk.cyc + 1 })) ∧
      ((d.rcvOf u).state ≠ rsRECLAIM → Gives (.reclaimComplete u) ⟨d, q⟩ d) ∧
      ((d.rcvOf u).state = rsADDR → (d.rcvOf u).early = false →
        (d.earlyPass u (d.rcvOf u).chain ((d.rcvOf u).info u) = true → Gives (.earlyVerdict u) ⟨d, q⟩ (d.setRcv u { d.rcvOf u with early := true })) ∧
        (d.earlyPass u (d.rcvOf u).chain ((d.rcvOf u).info u) = false → Gives (.earlyVerdict u) ⟨d, q⟩ (d.reclaim u dcEARLYADDR))) ∧
      ((d.rcvOf u).state ≠ rsADDR → Gives (.earlyVerdict u) ⟨d, q⟩ d ∧ Gives (.addressFilter u) ⟨d, q⟩ d) ∧
      ((d.rcvOf u).state = rsADDR → (d.rcvOf u).early = true → (d.rcvOf u).blk0 = some true →
        let k := d.addrFilter (d.rcvOf u).syncU ((d.rcvOf u).info u) ((d.rcvOf u).len u) (d.bytes (decodedAt u) (min 13 ((d.rcvOf u).len u)))
        k ≠ 0 → Gives (.addressFilter u) ⟨d, q⟩ ((d.put LNK_STAT LNK_STAT_LASTREJ k).reclaim u dcADDR)) ∧
      ((d.rcvOf u).state = rsADDR → (d.rcvOf u).early = true → (d.rcvOf u).blk0 = some true → Gives (.addressFilter u) ⟨d, q⟩ (d.filterAnswer u)) ∧
      (BusOpen ⟨d, q⟩ c (FUR_CTL f) true →
        ((d.rcvOf f).state = rsDONE → Gives (.furrowRelease c f) ⟨d, q⟩ (d.setRcv f { Rcv.init with freed := d.clk.cyc + 1 })) ∧
        ((d.rcvOf f).state ≠ rsDONE → Gives (.furrowRelease c f) ⟨d, q⟩ d) ∧
        Gives (.furrowAbort c f) ⟨d, q⟩ (d.imposedEnd f dcABORT stABORTED)) ∧
      (BusOpen ⟨d, q⟩ c (MCX_CTL m) true →
        Gives (.mcxRelease c m v) ⟨d, q⟩ (d.mcxWrite m (setF v MCX_CTL_RELEASE 1)) ∧
        Gives (.mcxAbort c m v) ⟨d, q⟩ (d.mcxWrite m (setF v MCX_CTL_ABORT 1)) ∧
        Gives (.mcxEnable c m v) ⟨d, q⟩ (d.mcxWrite m (setF (setF v MCX_CTL_RELEASE 0) MCX_CTL_ABORT 0)) ∧
        (∀ w, (d.mcxWrite m w).get (MCX_CTL m) MCX_CTL_EN = getF w MCX_CTL_EN))) ∧
  (∀ (d : Dev) (q : List Instr) (c : Fin 7) (k : Fin 10) (u : Fin 1026) (hdr : Bool) (n : Nat) (j : Job) (b : Blk),
      (d.poolOn = true → Gives .decoderGrant ⟨d, q⟩ ((d.grants false 8).grants true 2)) ∧
      (d.poolOn = false → Gives .decoderGrant ⟨d, q⟩ d) ∧
      (sget none d.decBusy k = none → Gives (.blockDecoded k) ⟨d, q⟩ d) ∧
      (sget none d.decBusy k = some j →
        let e := Dev.decSync { d.blockTouch j.blk with decBusy := sset none (d.blockTouch j.blk).decBusy k none, decFreed := sset 0 (d.blockTouch j.blk).decFreed k ((d.blockTouch j.blk).clk.cyc + 1) }
        (j.live = true → Gives (.blockDecoded k) ⟨d, q⟩ (e.blockReturn k j.blk (d.decodeBlk j.blk j.imax j.stall)).poolSettle) ∧
        (j.live = false → Gives (.blockDecoded k) ⟨d, q⟩ e.poolSettle)) ∧
      (d.decQ.find? (fun b => b.unit == u.val && b.hdr == hdr && b.idx == n) = some b →
        (d.get DEC_WAIT DEC_WAIT_WAITMAX ≠ 0 → Instr.decoderGrant ∉ q ∨ b ∈ d.grantCycle.decQ → Gives (.blockExpire u hdr n) ⟨d, q⟩ ((Dev.decSync { d with decQ := dropBlk b d.decQ }).blockUnserved b 10)) ∧
        (d.get DEC_WAIT DEC_WAIT_WAITMAX = 0 ∨ (Instr.decoderGrant ∈ q ∧ b ∉ d.grantCycle.decQ) → Gives (.blockExpire u hdr n) ⟨d, q⟩ d)) ∧
      (d.decQ.find? (fun b => b.unit == u.val && b.hdr == hdr && b.idx == n) = none → Gives (.blockExpire u hdr n) ⟨d, q⟩ d) ∧
      (BusOpen ⟨d, q⟩ c DEC_CTL true →
        (d.poolOn = false → d.resvFits resvPool 200 = true → Gives (.poolOn c) ⟨d, q⟩ ((d.setResv resvPool 200).put DEC_CTL DEC_CTL_ON 1)) ∧
        (d.poolOn = false → d.resvFits resvPool 200 = false → Gives (.poolOn c) ⟨d, q⟩ ((d.refuseResv 2).put DEC_STAT DEC_STAT_ERR 1)) ∧
        (d.poolOn = true → Gives (.poolOn c) ⟨d, q⟩ d) ∧
        (d.poolOn = true → Gives (.poolOff c) ⟨d, q⟩ (d.put DEC_CTL DEC_CTL_ON 0).poolSettle) ∧
        (d.poolOn = false → Gives (.poolOff c) ⟨d, q⟩ d)))

/-- The unwinding engine (R161 to R169, R172): a full page is written and the slot takes another, the last one is written as it stands once the recording
has stopped, and a page written after the subtraction began is subtracted as it is written; the slot that entered SUBTRACT first is subtracted alone,
its target re-enters a free furrow of a REENTRY strip, and slots close on expiry, on SLOT_ABORT and when the engine goes off. Completion: for each of
these commands a clause concludes that exec answers the next state given, under conditions on the state and the operands alone: capturePageFull,
subtractionStart, subtractionEnd, reentryAccept, rewaitExpiry, slotAbort, unwindOn, unwindOff. -/
def Obligations.Unwinding : Prop :=
  ∀ (d : Dev) (q : List Instr) (c : Fin 7) (n : Fin 32) (t0 : BitVec 64) (blks : List (List Cx × Bool)) (p : Nat) (v : Word) (f : Nat),
    let x := d.slotOf n
    let page := d.pageWrite n p (x.pages.length - 1) t0.toNat blks
    (d.recording n = true → blks.length = 40 → x.pages.getLast? = some p → x.wrote ≠ x.pages.length → x.begun = false →
      Gives (.capturePageFull n t0 blks) ⟨d, q⟩ (page.pageTake n)) ∧
    (d.recording n = false → x.pages.getLast? = some p → x.wrote ≠ x.pages.length →
      (x.begun = false → Gives (.capturePageFull n t0 blks) ⟨d, q⟩ page) ∧
      (x.begun = true → Gives (.capturePageFull n t0 blks) ⟨d, q⟩ (page.pageSubtract page x (page.knownBlanked x) [p] p))) ∧
    (x.pages.getLast? = some p → x.wrote = x.pages.length ∨ (d.recording n = true ∧ blks.length ≠ 40) → Gives (.capturePageFull n t0 blks) ⟨d, q⟩ d) ∧
    (d.recording n = true → x.pages = [] → Gives (.capturePageFull n t0 blks) ⟨d, q⟩ (d.pageTake n)) ∧
    (x.state = 2 → d.subtracting = false → (∀ m : Fin 32, (d.slotOf m).state = 2 → x.sub ≤ (d.slotOf m).sub) →
      Gives (.subtractionStart n) ⟨d, q⟩ (d.rebuild n x)) ∧
    (x.state ≠ 2 ∨ d.subtracting = true → Gives (.subtractionStart n) ⟨d, q⟩ d) ∧
    (x.state = 2 → x.begun = true → Gives (.subtractionEnd n) ⟨d, q⟩
      ((x.pages.take x.wrote).foldl (fun e p => e.pageSubtract d x (d.knownBlanked x) (x.pages.take x.wrote) p) (d.setSlot n { x with state := 3 }))) ∧
    (x.state ≠ 2 ∨ x.begun = false → Gives (.subtractionEnd n) ⟨d, q⟩ d) ∧
    (x.state = 3 → x.chain ∉ d.sow.draining → d.rests 0 = false → d.offer x.chain x.ch true = some f → x.clsB = 2 →
      Gives (.reentryAccept n) ⟨d, q⟩ ((d.furrowTake f x.chain x.ch x.b x.e x.bin x.power x.time (some n)).setSlot n { x with state := 4, furR := some f })) ∧
    (x.state = 3 → x.chain ∉ d.sow.draining → d.rests 0 = false → d.offer x.chain x.ch true = some f → x.clsB ≠ 2 →
      Gives (.reentryAccept n) ⟨d, q⟩ ((d.furrowTake f x.chain x.ch x.b x.e x.binA x.powerA x.timeA (some n)).setSlot n { x with state := 4, furR := some f })) ∧
    (x.state = 3 → x.chain ∈ d.sow.draining ∨ d.rests 0 = true ∨ d.offer x.chain x.ch true = none → Gives (.reentryAccept n) ⟨d, q⟩ d) ∧
    (x.state = 3 → Instr.reentryAccept n ∉ q ∨ ((d.reenter n).slotOf n).state ≠ 4 → Gives (.rewaitExpiry n) ⟨d, q⟩ (d.slotClose n uoNOFURROW)) ∧
    (x.state = 3 → Instr.reentryAccept n ∈ q → ((d.reenter n).slotOf n).state = 4 → Gives (.rewaitExpiry n) ⟨d, q⟩ d) ∧
    (x.state ≠ 3 → Gives (.rewaitExpiry n) ⟨d, q⟩ d ∧ Gives (.reentryAccept n) ⟨d, q⟩ d) ∧
    (BusOpen ⟨d, q⟩ c UNW_ABORT true → Gives (.slotAbort c v) ⟨d, q⟩ ((span 0 32).foldl (fun d n => if v.getLsbD n then d.slotAbort n else d) d)) ∧
    (BusOpen ⟨d, q⟩ c UNW_CTL true →
      (d.flag UNW_CTL UNW_CTL_ON = false → d.resvFits resvUnw 140 = true → Gives (.unwindOn c) ⟨d, q⟩ ((d.setResv resvUnw 140).put UNW_CTL UNW_CTL_ON 1)) ∧
      (d.flag UNW_CTL UNW_CTL_ON = false → d.resvFits resvUnw 140 = false → Gives (.unwindOn c) ⟨d, q⟩ ((d.refuseResv 3).put UNW_STAT UNW_STAT_ERR 1)) ∧
      (d.flag UNW_CTL UNW_CTL_ON = true → Gives (.unwindOn c) ⟨d, q⟩ d) ∧
      (d.flag UNW_CTL UNW_CTL_ON = true → After (.unwindOff c) ⟨d, q⟩ (fun e => e.resvOf resvUnw = 0 ∧ e.flag UNW_CTL UNW_CTL_ON = false)) ∧
      (d.flag UNW_CTL UNW_CTL_ON = false → Gives (.unwindOff c) ⟨d, q⟩ d))

/-- Receive front end, MC taps and synthesiser entries (R80, R81, R83 to R86): each write or event with its limits. Completion: for each of these commands
a clause concludes that exec answers the next state given, under conditions on the state and the operands alone: rxChainReady, agcWindowEnd,
agcStepUp, gainWrite, mctapWrite, blankingEnd, calfWrite, pwrtabWrite, antennaWrite, dwellTrackerFree, txHoldEnd. -/
def Obligations.RadioFrontEnd : Prop :=
  ∀ (d : Dev) (q : List Instr) (c : Fin 7) (x : Fin 4) (t m : Fin 2) (i : Fin 256) (k : Fin 64) (g : BitVec 3) (v : Word) (peak : BitVec 8) (clip : Bool),
    ((d.rxOf x).locking = false → Gives (.rxChainReady x) ⟨d, q⟩ d) ∧
    ((d.rxOf x).locking = true → Gives (.rxChainReady x) ⟨d, q⟩
      ((((d.setRx x { d.rxOf x with locking := false, blk := d.flag (RFC_RXSTAT x) RFC_RXSTAT_BLANKED }).put (RFC_RXSTAT x) RFC_RXSTAT_READY 1).rxWake x).calRun (12 + x))) ∧
    (d.rxReady x = false → Gives (.agcWindowEnd x peak clip) ⟨d, q⟩ d ∧ Gives (.agcStepUp x) ⟨d, q⟩ d) ∧
    (d.rxReady x = true → Gives (.agcWindowEnd x peak false) ⟨d, q⟩
      ((d.put (RFC_RXSTAT x) RFC_RXSTAT_PEAK peak.toNat).setRx x { d.rxOf x with since := min 4 ((d.rxOf x).since + 1), blk := d.flag (RFC_RXSTAT x) RFC_RXSTAT_BLANKED })) ∧
    (d.rxReady x = true → d.get (RFC_RXCTL x) RFC_RXCTL_AGC = 1 → (d.rxOf x).blk = false → d.flag (RFC_RXSTAT x) RFC_RXSTAT_BLANKED = false →
      3 ≤ (d.rxOf x).since → d.get (RFC_RXSTAT x) RFC_RXSTAT_GAINNOW < 7 → After (.agcWindowEnd x peak true) ⟨d, q⟩ (fun e =>
        e.get (RFC_RXSTAT x) RFC_RXSTAT_GAINNOW = d.get (RFC_RXSTAT x) RFC_RXSTAT_GAINNOW + 1 ∧ e.flag (RFC_RXSTAT x) RFC_RXSTAT_AGCSTEP = true ∧ (e.rxOf x).since = 0)) ∧
    (d.rxReady x = true → d.get (RFC_RXCTL x) RFC_RXCTL_AGC = 1 → d.flag (RFC_RXSTAT x) RFC_RXSTAT_BLANKED = false →
      (0 < d.get (RFC_RXSTAT x) RFC_RXSTAT_GAINNOW → Gives (.agcStepUp x) ⟨d, q⟩ (d.gainStep x (d.get (RFC_RXSTAT x) RFC_RXSTAT_GAINNOW - 1))) ∧
      (d.get (RFC_RXSTAT x) RFC_RXSTAT_GAINNOW = 0 → Gives (.agcStepUp x) ⟨d, q⟩ d)) ∧
    (BusOpen ⟨d, q⟩ c (RFC_RXCTL x) true → Gives (.gainWrite c x g) ⟨d, q⟩ (d.rxFields x (setF (d.reg (RFC_RXCTL x)) RFC_RXCTL_GAIN g.toNat))) ∧
    (BusOpen ⟨d, q⟩ c (RFC_MCTAP m) true → getF v RFC_MCTAP_BW ≠ 3 →
      let out := 2 * segHz (getF v RFC_MCTAP_CHAIN) < 2 * (sext 27 (getF v RFC_MCTAP_OFFSET_HZ)).natAbs + mcHz (getF v RFC_MCTAP_BW)
      (getF v RFC_MCTAP_EN = 1 → out → Gives (.mctapWrite c m v) ⟨d, q⟩ d) ∧
      (getF v RFC_MCTAP_EN = 0 ∨ ¬ out → Gives (.mctapWrite c m v) ⟨d, q⟩ (d.setReg (RFC_MCTAP m) v))) ∧
    (d.bandTx (bandOf x) = false → Gives (.blankingEnd x) ⟨d, q⟩ (d.put (RFC_RXSTAT x) RFC_RXSTAT_BLANKED 0)) ∧
    (BusOpen ⟨d, q⟩ c (SYN_CALF t i) true → d.txOf t = none → sget none d.calMeas t ≠ some i.val →
      let f := getF v SYN_CALF_FREQ_KHZ
      (inBand t f = true → Gives (.calfWrite c t i v) ⟨d, q⟩ ((d.setReg (SYN_CALF t i) (mkWord [(SYN_CALF_FREQ_KHZ, f)])).calEnqueue t i)) ∧
      (inBand t f = false → Gives (.calfWrite c t i v) ⟨d, q⟩
        (Dev.setReg { d with calQ := d.calQ.filter (· ≠ 256 * t.val + i.val) } (SYN_CALF t i) (mkWord [(SYN_CALF_BAD, 1), (SYN_CALF_FREQ_KHZ, f)])))) ∧
    (∀ r, d.txOf t = some r → r.ent = i.val → BusOpen ⟨d, q⟩ c (SYN_CALF t i) true → Gives (.calfWrite c t i v) ⟨d, q⟩ d) ∧
    (∀ r, d.txOf t = some r → r.pwr = k.val → BusOpen ⟨d, q⟩ c (RFC_PWRTAB t k) true → Gives (.pwrtabWrite c t k v) ⟨d, q⟩ d) ∧
    (BusOpen ⟨d, q⟩ c (RFC_PWRTAB t k) true → d.txOf t = none → After (.pwrtabWrite c t k v) ⟨d, q⟩ (fun e =>
      let ok := targetOk t (sext 9 (getF v RFC_PWRTAB_TARGET))
      e.flag (RFC_PWRTAB t k) RFC_PWRTAB_VALID = ok ∧ e.get (RFC_PWRTAB t k) RFC_PWRTAB_TARGET = getF v RFC_PWRTAB_TARGET ∧
      (∀ a, a ≠ RFC_PWRTAB t k → e.reg a = d.reg a) ∧ e.cores = d.cores ∧ ∀ a, e.byte a = d.byte a)) ∧
    (BusOpen ⟨d, q⟩ c RFC_ANT true → ∀ sel,
      (d.antFree = true → After (.antennaWrite c sel) ⟨d, q⟩ (fun e => e.antSel = sel ∧ e.get RFC_ANT RFC_ANT_PEND = 0)) ∧
      (d.antFree = false → After (.antennaWrite c sel) ⟨d, q⟩ (fun e => e.antSel = d.antSel ∧ e.get RFC_ANT RFC_ANT_PEND = 1 ∧ e.flag RFC_ANT RFC_ANT_SEL = sel))) ∧
    (d.held t = false → (d.gateOf t).prof ≠ [] → Gives (.txHoldEnd t) ⟨d, q⟩ (d.setGate t { d.gateOf t with hold := false })) ∧
    (d.held t = true ∨ (d.gateOf t).prof = [] → Gives (.txHoldEnd t) ⟨d, q⟩ d) ∧
    (∀ khz : BitVec 22, Gives (.dwellTrackerFree t khz) ⟨d, q⟩
      (d.setGate t { d.gateOf t with track := (d.gateOf t).track.filter (fun y => decide (y.khz ≠ khz.toNat) || decide (d.nowU < y.upto)) }))

/-- The regulatory gate (R88 to R91): whatever TX_ARM asks, a transmission that the gate admits lies within the loaded profile. The RF die is neither
isolated nor in reset (R8), the chain is enabled and free, the clock is not in FALLBACK, the input is not over the ceiling, the occupied range lies in
an enabled sub-band, the target is at or below the sub-band's ceiling, the calibration entry is valid, the duty of the window is kept and no hold
runs. -/
def Obligations.GateAdmitsWithinProfile : Prop :=
  ∀ (d : Dev) (t : Nat) (r : Arming), (d.gateArm t r).1 = 0 →
    d.txEnabled t = true ∧ d.flag CLK_STAT CLK_STAT_FALLBACK = false ∧ d.flag PWR_MON PWR_MON_OVER = false ∧ d.txOf t = none ∧ d.pwr.rfIso = false ∧ d.pwr.rfReset = false ∧
    d.nowU + usU (d.armLead r.cls) ≤ r.start ∧ d.flag (SYN_CALF t r.ent) SYN_CALF_VALID = true ∧ d.held t = false ∧
    d.resvFits (resvTx t) (d.get (RFC_PWRTAB t r.pwr) RFC_PWRTAB_RSV_MW) = true ∧
    ∃ k, subBandOf (d.gateOf t).prof (d.get (SYN_CALF t r.ent) SYN_CALF_FREQ_KHZ) r.bHz = some k ∧
      sext 9 (d.get (RFC_PWRTAB t r.pwr) RFC_PWRTAB_TARGET) ≤ subCeil (d.gateOf t).prof k ∧
      usedUs (d.gateOf t) k d.nowU + (r.toa + 4) ≤ subDuty (d.gateOf t).prof k * subWindow (d.gateOf t).prof k ∧
      (subTon (d.gateOf t).prof k = 0 ∨ r.toa + 4 ≤ 1000 * subTon (d.gateOf t).prof k)

/-- The course of a transmission (R85, R88, R92, R94 to R96, R188): arming through the gate, then one command for each instant of Table 5.8, taken in its
state only; nothing is armed while the modulators or the link rest (R371), and a grant in the cycle of a timeout wins (R17). Completion: for each of
these commands a clause concludes that exec answers the next state given, under conditions on the state and the operands alone: txArm,
coexRequestRaise, txSetup, trswToTransmit, lockCheck, rampStart, grantSeen, grantWaitTimeout, coexAbort, txLastSample, rampDownEnd, txEnd. -/
def Obligations.TransmissionCourse : Prop :=
  ∀ (d : Dev) (q : List Instr) (t : Fin 2) (x : TxRec) (ent : Fin 256) (bHz : Nat) (pwr : Fin 64) (lead toa : Nat) (cls : Fin 16),
    (d.noArm = false → Gives (.txArm t ent bHz pwr lead toa cls) ⟨d, q⟩ (d.gateArm t ⟨.direct, cls, ent, bHz, pwr, d.nowU + usU lead, toa, [], none, 0, 0, 0, 0⟩).2) ∧
    (d.noArm = true → Gives (.txArm t ent bHz pwr lead toa cls) ⟨d, q⟩ d) ∧
    (d.txOf t = none → ∀ w, w ∈ [Instr.coexRequestRaise t, .txSetup t, .trswToTransmit t, .lockCheck t true, .lockCheck t false, .rampStart t true,
      .rampStart t false, .grantSeen t, .grantWaitTimeout t, .txLastSample t, .rampDownEnd t, .txEnd t] → Gives w ⟨d, q⟩ d) ∧
    (d.txOf t = some x →
      (d.txState t = 1 → Gives (.txSetup t) ⟨d, q⟩ ((d.setTxState t 2).put (SYN_STAT t) SYN_STAT_ENTRY x.ent)) ∧
      (d.txState t = 1 ∨ d.txState t = 2 → d.coexOn = true → Gives (.coexRequestRaise t) ⟨d, q⟩ (d.setTx t (some { x with raised := true })).coexSync) ∧
      (d.txState t = 2 → Gives (.trswToTransmit t) ⟨d, q⟩ (((d.setTx t (some { x with trsw := true })).blankNow (2 * t)).blankNow (2 * t + 1))) ∧
      (d.txState t = 2 → Gives (.lockCheck t true) ⟨d, q⟩ ((d.setTx t (some { x with paen := true })).put (SYN_STAT t) SYN_STAT_LOCK 1)) ∧
      (d.txState t = 2 → Gives (.lockCheck t false) ⟨d, q⟩ (((d.count (SYN_HOPFAIL t)).report 5 t 1 (BitVec.ofNat 32 x.ent) []).endDropped t x 0x24)) ∧
      (d.txState t = 2 → x.paen = true → d.coexOn = false → ∀ g, Gives (.rampStart t g) ⟨d, q⟩ (d.ramp t x)) ∧
      (d.txState t = 2 → x.paen = true → d.coexOn = true →
        Gives (.rampStart t true) ⟨d, q⟩ ((d.putB COX_STAT COX_STAT_GNT true).coexSeen.ramp t x) ∧
        (hardStart x.cls = true → Gives (.rampStart t false) ⟨d, q⟩ ((d.putB COX_STAT COX_STAT_GNT false).endDropped t x 0x22)) ∧
        (hardStart x.cls = false → Gives (.rampStart t false) ⟨d, q⟩ ((d.putB COX_STAT COX_STAT_GNT false).setTxState t 3))) ∧
      (d.txState t = 3 → Gives (.grantSeen t) ⟨d, q⟩ ((d.put COX_STAT COX_STAT_GNT 1).coexSeen.ramp t x)) ∧
      (d.txState t = 1 ∨ d.txState t = 2 → x.raised = true → Gives (.grantSeen t) ⟨d, q⟩ (d.put COX_STAT COX_STAT_GNT 1).coexSeen) ∧
      (d.txState t = 3 → Instr.grantSeen t ∉ q → d.plan8 tCOEX 0 1 = 1 → Gives (.grantWaitTimeout t) ⟨d, q⟩ (d.ramp t { x with noGnt := true })) ∧
      (d.txState t = 3 → Instr.grantSeen t ∉ q → d.plan8 tCOEX 0 1 ≠ 1 → Gives (.grantWaitTimeout t) ⟨d, q⟩ (d.endDropped t x 0x22)) ∧
      (Instr.grantSeen t ∈ q → Gives (.grantWaitTimeout t) ⟨d, q⟩ d) ∧
      (d.txState t = 4 → x.req = .direct → Gives (.txLastSample t) ⟨d, q⟩
        ((d.setTx t (some { x with code := if x.noGnt then 0x21 else 0x20, last := d.nowU })).setTxState t 5)) ∧
      (d.txState t = 5 → x.paen = true → Gives (.rampDownEnd t) ⟨d, q⟩ ((d.setTx t (some { x with paen := false })).gateEnd t x.sub)) ∧
      (d.txState t = 5 → x.paen = true → Gives (.txEnd t) ⟨d, q⟩ d) ∧
      (d.txState t = 5 → x.paen = false → x.code ≠ 0x21 → Gives (.txEnd t) ⟨d, q⟩ ((d.txFinish t x.code).txEnded t x x.code)) ∧
      (d.txState t = 4 → d.coexAborts x.cls = true → d.coexOn = true → ∀ a, After (.coexAbort t a) ⟨d, q⟩ (fun e =>
        e.txState t = 5 ∧ e.txOf t = some { x with code := 0x23 }))) ∧
    (d.coexOn = false → ∀ a, Gives (.coexAbort t a) ⟨d, q⟩ d)

/-- Queues of sleepy children (R188, R190): an operation on a locked queue is deferred; ENQ takes the lowest free descriptor of the pool, unless the queue
or the pool is full; CANCEL and FLUSH take frames off with their completion; a name that is not queued is BADIDX. Reads that take an entry off a FIFO,
the child table and the transmit counter (R194, R195, R160, R216): the oldest entry leaves and the read shows it, an empty FIFO reads 0; a write to H
or MAP of a valid entry is refused BUSY; LNK_TXFCNT never goes down. Completion: for each of these commands a clause concludes that exec answers the
next state given, under conditions on the state and the operands alone: recordGiveBack, completionRead, verdictRead, queueEnq, queueReplace,
queueCancel, queueFlush, childTableWrite, txfcntWrite, floodEventRead. -/
def Obligations.LinkQueuesAndRegisters : Prop :=
  (∀ (d : Dev) (q : List Instr) (c : Fin 7) (i : Fin 8192) (k : Nat), BusOpen ⟨d, q⟩ c LNK_QOP true →
      let arg := (d.reg LNK_QARG).toNat
      (d.qLocked i = true → ∀ p, p ∈ [(Instr.queueEnq c i, 1), (.queueReplace c i, 2), (.queueCancel c i, 3), (.queueFlush c i, 4)] →
        Gives p.1 ⟨d, q⟩ { d.qres qrDEFERRED 0 with deferred := d.deferred ++ [(i.val, p.2, arg)] }) ∧
      (d.qLocked i = false →
        (d.chtValid i = false → Gives (.queueEnq c i) ⟨d, q⟩ (d.qres qrNOENTRY 0)) ∧
        (d.chtValid i = true → d.chtGet i 0 CHT_SLEEPY = 1 →
          (d.get LNK_POLL LNK_POLL_QMAX ≤ (d.queueOf i).length → Gives (.queueEnq c i) ⟨d, q⟩ ((d.count (LNK_CNT 11)).qres qrQFULL 0)) ∧
          ((d.queueOf i).length < d.get LNK_POLL LNK_POLL_QMAX → poolFree d.qpool = none →
            Gives (.queueEnq c i) ⟨d, q⟩ ((d.count (LNK_CNT 11)).qres qrPOOL 0)) ∧
          ((d.queueOf i).length < d.get LNK_POLL LNK_POLL_QMAX → poolFree d.qpool = some k →
            Gives (.queueEnq c i) ⟨d, q⟩ ((((d.descTouch arg).setPool k (some (d.readDesc arg))).setQueue i (d.queueOf i ++ [k])).qres qrDONE k))) ∧
        (inSram (replAddr arg) 32 = true → qopIdx 2 arg ∉ d.queueOf i → Gives (.queueReplace c i) ⟨d, q⟩ (d.qres qrBADIDX 0)) ∧
        (inSram (replAddr arg) 32 = true → qopIdx 2 arg ∈ d.queueOf i →
          After (.queueReplace c i) ⟨d, q⟩ (fun e => e.get LNK_QRES LNK_QRES_RESULT = qrDONE ∧ e.qdesc (qopIdx 2 arg) = some (d.readDesc (replAddr arg)) ∧
            e.queues = d.queues ∧ ((d.queueOf i).headD 1024 = qopIdx 2 arg → e.chtGet i 6 CHT_RETRY = 0))) ∧
        (qopIdx 3 arg ∉ d.queueOf i → Gives (.queueCancel c i) ⟨d, q⟩ (d.qres qrBADIDX 0)) ∧
        (qopIdx 3 arg ∈ d.queueOf i → Gives (.queueCancel c i) ⟨d, q⟩ ((d.unqueue i (qopIdx 3 arg) (some csCANCELLED) 0).qres qrDONE 0)) ∧
        Gives (.queueFlush c i) ⟨d, q⟩ (((d.queueOf i).foldl (fun d k => d.unqueue i k (some csCANCELLED) 0) d).qres qrDONE 0))) ∧
  (∀ (d : Dev) (q : List Instr) (c : Fin 7) (i : Fin 2048) (w : Fin 8) (v : Word),
      (BusOpen ⟨d, q⟩ c LNK_TXDONE_ST false →
        (d.comps = [] → Gives (.completionRead c) ⟨d, q⟩ { d with rdata := 0 }) ∧
        (∀ x r, d.comps = x :: r → Gives (.completionRead c) ⟨d, q⟩ { d with rdata := compWord x, comps := r })) ∧
      (BusOpen ⟨d, q⟩ c (LNK_VQ 3) false →
        (d.vq = [] → Gives (.verdictRead c) ⟨d, q⟩ { d with rdata := 0 }) ∧
        (∀ x r, d.vq = x :: r → Gives (.verdictRead c) ⟨d, q⟩ (Dev.put { d with rdata := x.getD 3 0, vq := r } LNK_STAT LNK_STAT_VQN r.length))) ∧
      (BusOpen ⟨d, q⟩ c (FLD_EVQ 3) false →
        (d.fld.events = [] → Gives (.floodEventRead c) ⟨d, q⟩ { d with rdata := 0 }) ∧
        (∀ x r, d.fld.events = x :: r → Gives (.floodEventRead c) ⟨d, q⟩ { d with rdata := x.getD 3 0, fld := { d.fld with events := r } })) ∧
      (BusOpen ⟨d, q⟩ c (chtAddr i w) true →
        let n := 2048 * d.get LNK_CHTPAGE LNK_CHTPAGE_PAGE + i
        (w.val = 1 ∨ w.val = 2 → d.chtValid n = true → Gives (.childTableWrite c i w v) ⟨d, q⟩ (d.put LNK_STAT LNK_STAT_BUSY 1)) ∧
        (w.val = 1 ∨ w.val = 2 → d.chtValid n = false → Gives (.childTableWrite c i w v) ⟨d, q⟩ (d.setChtW n w v)) ∧
        (w.val = 3 ∨ w.val = 7 → Gives (.childTableWrite c i w v) ⟨d, q⟩ (d.setChtW n w v)) ∧
        (w.val = 0 → d.qLocked n = true → Gives (.childTableWrite c i w v) ⟨d, q⟩ (d.put LNK_STAT LNK_STAT_BUSY 1)) ∧
        (w.val = 5 → Gives (.childTableWrite c i w v) ⟨d, q⟩ d)) ∧
      (BusOpen ⟨d, q⟩ c LNK_TXFCNT true →
        (d.reg LNK_TXFCNT ≤ v → Gives (.txfcntWrite c v) ⟨d, q⟩ (d.setReg LNK_TXFCNT v)) ∧
        (v < d.reg LNK_TXFCNT → Gives (.txfcntWrite c v) ⟨d, q⟩ d)) ∧
      (BusOpen ⟨d, q⟩ c DEC_FSFREE true →
        let hit := fun (r : RingRec) => !r.pad && !r.freed && ringBase + 64 * r.base == v.toNat
        (d.ring.any hit = false → Gives (.recordGiveBack c v) ⟨d, q⟩ (d.put DEC_FSSTAT DEC_FSSTAT_BADFREE 1)) ∧
        (d.ring.any hit = true → Gives (.recordGiveBack c v) ⟨d, q⟩
          (Dev.ringSettle { d with ring := d.ring.map (fun r => if hit r then { r with freed := true } else r) }))))

/-- The replay window never accepts a frame twice (R183): a counter judged FRESH is a DUP from then on, and what was not FRESH before a move of the window
is not FRESH after it. -/
def Obligations.ReplayNeverTwice : Prop :=
  ∀ (h map n g : Nat), map < 2 ^ 32 → replayJudge h map n = vdFRESH →
    replayJudge (replayMove h map n).1 (replayMove h map n).2 n = vdDUP ∧
    (replayJudge h map g ≠ vdFRESH → replayJudge (replayMove h map n).1 (replayMove h map n).2 g ≠ vdFRESH) ∧
    (replayMove h map n).2 < 2 ^ 32 ∧ h ≤ (replayMove h map n).1

/-- Received frames after their commit (R178, R179, R182, R192): the result of the oldest frame's MIC check, its deadline, and the window of a child that
is not heard; a t_sync latched in the cycle of a close, and a verdict in the cycle of its deadline, win. Completion: for each of these commands a
clause concludes that exec answers the next state given, under conditions on the state and the operands alone: micCheckEnd, verdictDeadline,
expectationWindowClose. -/
def Obligations.LinkReceive : Prop :=
  ∀ (d : Dev) (q : List Instr) (i : Fin 8192) (u : Fin 1026) (f : LFrame) (r : List LFrame) (e : Nat),
    (d.frames = [] → Gives .micCheckEnd ⟨d, q⟩ d) ∧
    (d.frames = f :: r → f.entry = some e →
      let x : Dev := { d with frames := r }
      let key := (d.kslot (f.w 0 CHT_KEYSLOT)).key
      let plain := ccmCrypt key (lfNonce f.bytes) (lfBody f.bytes)
      (micOk f key plain = true → Gives .micCheckEnd ⟨d, q⟩ (x.micPassed f e plain)) ∧
      (micOk f key plain = false → Gives .micCheckEnd ⟨d, q⟩
        (let y := (x.count (LNK_CNT 5)).ackDecide f vdMICFAIL
         y.2.2.postVerdict f vdMICFAIL ((x.count (LNK_CNT 5)).verdictFlags f.bytes false false false)))) ∧
    (d.chtValid i = false ∨ d.chtGet i 4 CHT_INTERVAL_S = 0 → Gives (.expectationWindowClose i) ⟨d, q⟩ d) ∧
    (let n := sget 0 d.winSeen i + 1
     (d.windowOver i n = false ∨ d.winWait.contains i.val = true → Gives (.expectationWindowClose i) ⟨d, q⟩ d) ∧
     (d.chtValid i = true → d.chtGet i 4 CHT_INTERVAL_S ≠ 0 → d.windowOver i n = true → d.winWait.contains i.val = false →
      let y : Dev := { d with winSeen := sset 0 d.winSeen i n, winWait := d.winWait ++ [i.val] }
      (q.any latches = true → Gives (.expectationWindowClose i) ⟨d, q⟩ y) ∧
      (q.any latches = false → y.windowComing i n = true → Gives (.expectationWindowClose i) ⟨d, q⟩ y) ∧
      (q.any latches = false → y.windowComing i n = false →
        let m := min 255 (d.chtGet i 4 CHT_MISS + 1)
        let x := (Dev.chtPut { y with winWait := y.winWait.filter (· ≠ i.val) } i 4 CHT_MISS m).count (LNK_CNT 14)
        (m = x.get LNK_GUARD LNK_GUARD_MISSMAX → x.chtGet i 0 CHT_LOST = 0 →
          Gives (.expectationWindowClose i) ⟨d, q⟩ { (x.chtPut i 0 CHT_LOST 1).count (LNK_CNT 15) with lostEvt := true }) ∧
        (m ≠ x.get LNK_GUARD LNK_GUARD_MISSMAX → Gives (.expectationWindowClose i) ⟨d, q⟩ x)))) ∧
    ((⟨d, q⟩ : State).verdictComes d u = true → Gives (.verdictDeadline u) ⟨d, q⟩ d) ∧
    ((⟨d, q⟩ : State).verdictComes d u = false →
      (f ∈ d.frames → f.unit = u.val → f.late = false → After (.verdictDeadline u) ⟨d, q⟩ (fun t =>
        (∀ g, g ∈ t.frames → g.unit = u.val → g.late = true) ∧ t.frames.length = d.frames.length ∧ t.cores = d.cores ∧ ∀ a, t.byte a = d.byte a)) ∧
      (d.frames = [] → 3 ≤ (d.rcvOf u).state → (d.rcvOf u).state ≤ 5 → (d.rcvOf u).addr = false → u.val ∉ d.lateU →
        Gives (.verdictDeadline u) ⟨d, q⟩ { d with lateU := d.lateU ++ [u.val] }) ∧
      (d.frames = [] → (d.rcvOf u).state < 3 → Gives (.verdictDeadline u) ⟨d, q⟩ d))

/-- Transmit descriptors (R185, R186, R188, R189): submission up to 32 outstanding, arming at the head of a chain, clear-channel assessment (after a
t_sync latched in its cycle, R179) and its backoff, the response to a poll, and an acknowledgement that does not come in time: one whose t_sync was
latched in time is waited for (R179). Completion: for each of these commands a clause concludes that exec answers the next state given, under
conditions on the state and the operands alone: txSubmit, descriptorArm, ccaAssessment, ccaBackoffEnd, ackWaitExpiry, pollResponseArm. -/
def Obligations.LinkTransmit : Prop :=
  ∀ (d : Dev) (q : List Instr) (c : Fin 7) (t : Fin 2) (v : Word) (x : Desc) (p0 p1 : Int) (dst : BitVec 16) (seq : BitVec 8) (a : Await) (r : Bound),
    (BusOpen ⟨d, q⟩ c LNK_TXSUB true →
      (32 ≤ d.outstanding → Gives (.txSubmit c v) ⟨d, q⟩ (d.count (LNK_CNT 9))) ∧
      (d.outstanding < 32 → Gives (.txSubmit c v) ⟨d, q⟩ (d.submitAt (v.toNat / 32 * 32) .firmware id)) ∧
      (d.outstanding < 32 → inSram (v.toNat / 32 * 32) 32 = false → (∀ y, y ∈ d.descs → y.id ≠ d.descSeq) →
        After (.txSubmit c v) ⟨d, q⟩ (fun e => e.descs = d.descs ∧ e.comps = d.comps ++ [(descTag (d.bytes (v.toNat / 32 * 32) 32), csREFUSED, 0)]))) ∧
    (d.headDesc t = none → Gives (.descriptorArm t) ⟨d, q⟩ d ∧ (q.any latches = false → Gives (.ccaAssessment t p0 p1) ⟨d, q⟩ d) ∧ Gives (.ccaBackoffEnd t) ⟨d, q⟩ d) ∧
    (q.any latches = true → Gives (.ccaAssessment t p0 p1) ⟨d, q⟩ { d with ccaHeld := d.ccaHeld ++ [(t.val, p0, p1)] }) ∧
    (d.headDesc t = some x →
      (d.noArm = false → d.mayArm t x.body = true → assesses x.body = false → Gives (.descriptorArm t) ⟨d, q⟩ (d.descArm x)) ∧
      (d.noArm = true ∨ d.mayArm t x.body = false ∨ assesses x.body = true → Gives (.descriptorArm t) ⟨d, q⟩ d) ∧
      (q.any latches = false → d.noArm = false → d.mayArm t x.body = true → assesses x.body = true → x.back = none →
        Gives (.ccaAssessment t p0 p1) ⟨d, q⟩ (d.assess t x (fun k => if k = 0 then p0 else p1))) ∧
      (q.any latches = false → assesses x.body = false ∨ x.back ≠ none → Gives (.ccaAssessment t p0 p1) ⟨d, q⟩ d) ∧
      (x.back.all (fun t => decide (t ≤ d.clk.cyc)) = true → Gives (.ccaBackoffEnd t) ⟨d, q⟩ (d.setDesc { x with back := none })) ∧
      (x.back.all (fun t => decide (t ≤ d.clk.cyc)) = false → Gives (.ccaBackoffEnd t) ⟨d, q⟩ d)) ∧
    (d.bound = [] ∨ d.noArm = true → Gives (.pollResponseArm t) ⟨d, q⟩ d) ∧
    (d.bound.find? (fun y => y.chain == t.val && y.last.isSome) = some r → d.txOf t = none → d.noArm = false →
      Gives (.pollResponseArm t) ⟨d, q⟩ (d.responseArm t r (r.last.getD 0))) ∧
    (d.awaits.find? (fun y => y.chain == t.val && y.dst == dst.toNat && y.seq == seq.toNat) = none → Gives (.ackWaitExpiry t dst seq) ⟨d, q⟩ d) ∧
    (d.awaits.find? (fun y => y.chain == t.val && y.dst == dst.toNat && y.seq == seq.toNat) = some a →
      let b : Await := { a with past := true }
      let y : Dev := { d with awaits := d.awaits.map (fun z => if z = a then b else z) }
      (d.nowU < a.due → Gives (.ackWaitExpiry t dst seq) ⟨d, q⟩ d) ∧
      (a.due ≤ d.nowU → q.any latches = true ∨ y.ackComing b = true → Gives (.ackWaitExpiry t dst seq) ⟨d, q⟩ y) ∧
      (a.due ≤ d.nowU → q.any latches = false → y.ackComing b = false → Gives (.ackWaitExpiry t dst seq) ⟨d, q⟩ (y.ackExpired b)))

/-- Mesh time, alarms, beacons, relays and originations (R200, R201, R203 to R205, R208, R210, R213, R216): each event only once its instant has come, and
none of them while the flood block rests (R371). Completion: for each of these commands a clause concludes that exec answers the next state given,
under conditions on the state and the operands alone: meshTimeSet, syncAgeLimit, beaconArm, alarmArm, alarmFire, cacheExpiry, relayDelayExpiry,
relayHoldEnd, originate, meshTimeRead. -/
def Obligations.FloodAndMeshTime : Prop :=
  ∀ (d : Dev) (q : List Instr) (c : Fin 7) (a : Fin 4) (i : Fin 4096) (v : Word),
    ((d.timeRoot = true ∧ d.fld.wasSet = true) ∨ d.ageS < d.get FLD_TIME FLD_TIME_AGEMAX_S → Gives .syncAgeLimit ⟨d, q⟩ d) ∧
    (d.timeRoot = false ∨ d.fld.wasSet = false → d.get FLD_TIME FLD_TIME_AGEMAX_S ≤ d.ageS → Gives .syncAgeLimit ⟨d, q⟩ (d.put FLD_STAT FLD_STAT_SYNCED 0)) ∧
    (BusOpen ⟨d, q⟩ c FLD_CMD true →
      (getF v FLD_CMD_KEY = 0x96 → getF v FLD_CMD_SET = 1 → After (.meshTimeSet c v) ⟨d, q⟩ (fun e =>
        e.clk.mesh = BitVec.ofNat 64 (d.pair FLD_SET_LO FLD_SET_HI) ∧ e.clk.slew = 0 ∧ e.flag FLD_STAT FLD_STAT_ACQ = false ∧ e.fld.wasSet = true)) ∧
      (getF v FLD_CMD_KEY ≠ 0x96 ∨ getF v FLD_CMD_SET = 0 → Gives (.meshTimeSet c v) ⟨d, q⟩ d)) ∧
    (BusOpen ⟨d, q⟩ c FLD_MESH_LO false → After (.meshTimeRead c) ⟨d, q⟩ (fun e =>
      e.rdata = BitVec.ofNat 32 d.meshNow ∧ (e.core c).meshHi = BitVec.ofNat 32 (d.meshNow / 2 ^ 32) ∧ e.regs = d.regs ∧ ∀ k, k ≠ c → e.core k = d.core k)) ∧
    (BusOpen ⟨d, q⟩ c FLD_ALARMCTL true → After (.alarmArm c v) ⟨d, q⟩ (fun e =>
      e.get FLD_ALARMCTL FLD_ALARMCTL_ARM = d.get FLD_ALARMCTL FLD_ALARMCTL_ARM ||| getF v FLD_ALARMCTL_ARM)) ∧
    ((d.get FLD_ALARMCTL FLD_ALARMCTL_ARM).testBit a = true → atOrPast d.meshNow (d.pair (FLD_ALARM_LO a) (FLD_ALARM_HI a)) = true → Gives (.alarmFire a) ⟨d, q⟩
      (((d.put FLD_ALARMCTL ⟨a, a⟩ 0).put FLD_ALARMCTL ⟨8 + a, 8 + a⟩ 1).hdlEvent (0x400 + a))) ∧
    ((d.get FLD_ALARMCTL FLD_ALARMCTL_ARM).testBit a = false ∨ atOrPast d.meshNow (d.pair (FLD_ALARM_LO a) (FLD_ALARM_HI a)) = false → Gives (.alarmFire a) ⟨d, q⟩ d) ∧
    (d.flag FLD_CFG FLD_CFG_BEACON = true → d.noArm = false → d.rests 7 = false → Gives .beaconArm ⟨d, q⟩ d.beaconArm) ∧
    (d.flag FLD_CFG FLD_CFG_BEACON = false ∨ d.noArm = true ∨ d.rests 7 = true → Gives .beaconArm ⟨d, q⟩ d) ∧
    ((d.cacheOf i).state = 0 ∨ relayPends (d.cacheOf i).state = true ∨ atOrPast d.meshNow (d.cacheOf i).expiry = false → Gives (.cacheExpiry i) ⟨d, q⟩ d) ∧
    ((d.cacheOf i).state ≠ 0 → relayPends (d.cacheOf i).state = false → atOrPast d.meshNow (d.cacheOf i).expiry = true → Gives (.cacheExpiry i) ⟨d, q⟩ (d.setCache i CacheE.init)) ∧
    ((d.cacheOf i).state = ceWAIT → d.rests 7 = false → (d.cacheOf i).since + 122880 * (d.cacheOf i).delay ≤ d.clk.cyc →
      (q.any latches = true → Gives (.relayDelayExpiry i) ⟨d, q⟩ { d with relayHeld := d.relayHeld ++ [i.val] }) ∧
      (q.any latches = false → d.inFlight d.meshNow = true → Gives (.relayDelayExpiry i) ⟨d, q⟩ (d.setCache i { d.cacheOf i with state := ceHOLD, upTo := d.meshNow })) ∧
      (q.any latches = false → d.inFlight d.meshNow = false → Gives (.relayDelayExpiry i) ⟨d, q⟩ (d.relaySubmit i))) ∧
    ((d.cacheOf i).state = ceHOLD → d.rests 7 = false →
      (d.inFlight (d.cacheOf i).upTo = false → Gives (.relayHoldEnd i) ⟨d, q⟩ (d.relaySubmit i)) ∧
      (d.inFlight (d.cacheOf i).upTo = true → Gives (.relayHoldEnd i) ⟨d, q⟩ d)) ∧
    ((d.cacheOf i).state ≠ ceWAIT ∨ d.rests 7 = true ∨ d.clk.cyc < (d.cacheOf i).since + 122880 * (d.cacheOf i).delay → Gives (.relayDelayExpiry i) ⟨d, q⟩ d) ∧
    (BusOpen ⟨d, q⟩ c FLD_ORIG true → Gives (.originate c v) ⟨d, q⟩ (d.originate (v.toNat / 32 * 32))) ∧
    (BusOpen ⟨d, q⟩ c FLD_ORIG true → 32 ≤ d.outstanding → Gives (.originate c v) ⟨d, q⟩ (d.count (LNK_CNT 9)))

/-- Key-store commands (R219, R221, R222, R226, R229, R232): a command that starts while one runs is ignored; each runs under BUSY with its slot LOADING
or ERASING, and bank 2 is busy where it raises a counter (R307); at its end, which waits for the flash and for an engine, its work is done and its
result written. Events of the key store (R226, R228, R230, R231, R241): the raise of a ceiling and its retry, which wait for the flash (R306, R313),
the scan of a counter, an erased slot, which waits for every operation admitted on it, and the random source. Completion: for each of these commands a
clause concludes that exec answers the next state given, under conditions on the state and the operands alone: keyLoad, keyLoadname, keyUnload,
keyGenerate, keyRaise, keyRevoke, keyCommandEnd, slotErased, counterScan, spanRaise, raiseRetry, fcntCeilingRaise, rngFailure, randomRead. -/
def Obligations.KeyStore : Prop :=
  ((∀ (d : Dev) (q : List Instr) (c : Fin 7) (i : Fin 256) (o : List Bool), BusOpen ⟨d, q⟩ c KEY_CMD true →
      let all := [(Instr.keyLoad c i o, 1, i.val, o), (.keyLoadname c i o, 2, i.val, o), (.keyUnload c i, 3, i.val, []), (.keyGenerate c i o, 4, i.val, o), (.keyRaise c o, 5, 0, o), (.keyRevoke c, 6, 0, [])]
      (d.flag KEY_RES KEY_RES_BUSY = true → ∀ w ∈ all, Gives w.1 ⟨d, q⟩ d) ∧
      (d.flag KEY_RES KEY_RES_BUSY = false → ∀ w ∈ all,
        let b := (if d.flag FLC_BOOT FLC_BOOT_READY then d.scanned else d).setReg KEY_RES (mkWord [(KEY_RES_BUSY, 1), (KEY_RES_OP, w.2.1)])
        let full := decide ((b.kslot w.2.2.1).state ≠ 0)
        let x : KeyRun := ⟨w.2.2.1, w.2.1, (b.reg KEY_ARG0).toNat, (b.reg KEY_ARG1).toNat, w.2.2.2, b.mayProg, full, false⟩
        let prog := b.mayProg && !b.pwr.flIso && (b.keyRaises x).any (fun p => decide (b.ctrVal p.1 < p.2))
        After w.1 ⟨d, q⟩ (fun e => e.keyPend = some { x with prog := prog } ∧ e.flag KEY_RES KEY_RES_BUSY = true ∧ e.get KEY_RES KEY_RES_OP = w.2.1 ∧
          (x.loads = true → full = false → (e.kslot w.2.2.1).state = 1) ∧ (w.2.1 = 3 → full = true → (e.kslot w.2.2.1).state = 4) ∧
          (∀ k, k ≠ w.2.2.1 → e.kslot k = b.kslot k) ∧ (prog = true → e.flag (FLC_STAT 2) FLC_STAT_BUSY = true)))) ∧
    (∀ (d : Dev) (q : List Instr) (x : KeyRun), d.keyPend = some x →
      let e := d.scanned
      let f := e.touchRange x.arg0 64
      let ends := fun (r : KeyOut) => r.2.2.keyFinish x (e.keyNotes x) r.1 r.2.1
      (d.keyWaits x = true → Gives .keyCommandEnd ⟨d, q⟩ d) ∧
      (d.keyWaits x = false →
        (x.op = 1 ∨ x.op = 2 → x.full = true → Gives .keyCommandEnd ⟨d, q⟩ (ends (krBUSY, none, e))) ∧
        (x.op = 1 → x.full = false →
          (f.busOk true 6 x.arg0 64 false = true → Gives .keyCommandEnd ⟨d, q⟩ (ends (f.loadBlob x.go x.slot (f.seen x.arg0 64) (x.arg1 % 256) x.outs))) ∧
          (f.busOk true 6 x.arg0 64 false = false → Gives .keyCommandEnd ⟨d, q⟩ (ends (krBUSFAULT, none, f)))) ∧
        (x.op = 2 → x.full = false → Gives .keyCommandEnd ⟨d, q⟩ (ends (e.loadName x.go x.slot (x.arg1 % 256) (x.arg0 % 256) x.outs))) ∧
        (x.op = 3 → Gives .keyCommandEnd ⟨d, q⟩ (ends (krOK, none, e))) ∧
        (x.op = 4 →
          let kek := x.arg1 % 256
          (f.flag KEY_STAT KEY_STAT_RNGFAIL = true → Gives .keyCommandEnd ⟨d, q⟩ (ends (krRNG, none, f))) ∧
          (f.flag KEY_STAT KEY_STAT_RNGFAIL = false →
            (f.busOk true 6 x.arg0 64 false = false ∨ f.busOk true 6 x.arg0 64 true = false → Gives .keyCommandEnd ⟨d, q⟩ (ends (krBUSFAULT, none, f))) ∧
            (f.busOk true 6 x.arg0 64 false = true → f.busOk true 6 x.arg0 64 true = true →
              let t := f.seen x.arg0 64
              (blobHdrOk t = false ∨ u8 t 8 = 0 ∨ 3 < u8 t 8 → Gives .keyCommandEnd ⟨d, q⟩ (ends (krBADBLOB, none, f))) ∧
              (blobHdrOk t = true → 1 ≤ u8 t 8 → u8 t 8 ≤ 3 →
                (∀ r, f.wrapKey (u8 t 3) kek = .inl r → Gives .keyCommandEnd ⟨d, q⟩ (ends (r, none, f))) ∧
                (∀ k, f.wrapKey (u8 t 3) kek = .inr k →
                  let g := f.genPlain t
                  let blob := f.seen x.arg0 8 ++ keyWrap k g.1
                  let y := g.2.setBytes x.arg0 blob
                  (x.full = true → Gives .keyCommandEnd ⟨d, q⟩ (ends (krBUSY, none, y))) ∧
                  (x.full = false → Gives .keyCommandEnd ⟨d, q⟩ (ends (y.loadBlob x.go x.slot blob kek x.outs)))))))) ∧
        (x.op = 5 → 63 < x.arg1 → Gives .keyCommandEnd ⟨d, q⟩ (ends (krDENIED, none, e))) ∧
        (x.op = 5 → x.arg1 ≤ 63 → let r := e.raiseGo x.go x.arg1 x.arg0 x.outs
          Gives .keyCommandEnd ⟨d, q⟩ (ends (r.1, none, r.2))) ∧
        (x.op = 6 → 3 < x.arg1 → Gives .keyCommandEnd ⟨d, q⟩ (ends (krDENIED, none, e))) ∧
        (x.op = 6 → x.arg1 ≤ 3 → (∀ k < 4, k ≠ x.arg1 → e.revoked k = true) → Gives .keyCommandEnd ⟨d, q⟩ (ends (krLASTKEY, none, e))) ∧
        (∀ k, x.op = 6 → x.arg1 ≤ 3 → k < 4 → k ≠ x.arg1 → e.revoked k = false →
          Gives .keyCommandEnd ⟨d, q⟩ (ends (krOK, none, Dev.fuseShow { e with blown := e.blown ||| 2 ^ x.arg1 }))))) ∧
    (∀ (d : Dev) (x : KeyRun) (note : Bool) (r : Nat) (load : Option KSlot), r < 256 →
      let e := d.keyFinish x note r load
      e.keyPend = none ∧ e.flag KEY_RES KEY_RES_BUSY = false ∧ e.get KEY_RES KEY_RES_RESULT = r ∧
      (∀ k, load = some k → e.kslot x.slot = k ∧ (k.state = 3 → e.flag KEY_STAT KEY_STAT_EXHAUST = true)) ∧
      (load = none → (d.kslot x.slot).state = 1 → e.kslot x.slot = KSlot.init) ∧ (load = none → (d.kslot x.slot).state ≠ 1 → e.kslots = d.kslots) ∧
      (load = none → note = true → r ≠ krOK → d.get (KEY_CNT 0) KEY_CNT_COUNT < 0xFFFF → e.get (KEY_CNT 0) KEY_CNT_COUNT = d.get (KEY_CNT 0) KEY_CNT_COUNT + 1))) ∧
  (∀ (d : Dev) (q : List Instr) (c : Fin 7) (i : Fin 256) (n : Fin 64) (o : List Bool),
      (d.keyPend = none → Gives .keyCommandEnd ⟨d, q⟩ d) ∧
      ((d.kslot i).state = 4 → d.slotInUse i = false → Gives (.slotErased i) ⟨d, q⟩ (d.setKslot i KSlot.init)) ∧
      (d.slotInUse i = true → Gives (.slotErased i) ⟨d, q⟩ d) ∧
      (∀ j, j ∈ d.aesJobs → j.engine.isSome = true → j.slot = i.val → d.slotInUse i = true) ∧
      (∀ f, f ∈ d.frames → f.w 0 CHT_KEYSLOT = i.val → d.slotInUse i = true) ∧
      ((d.kslot i).state ≠ 4 → Gives (.slotErased i) ⟨d, q⟩ d) ∧
      (let k := d.kslot i
       let r := d.raise k.uctr (d.ctrVal k.uctr + 1) o
       k.state = 2 → k.uctr ≠ 0 → k.ceil - k.used ≤ 1024 → k.ceil < k.limit → d.raiseWaits k.uctr (d.ctrVal k.uctr + 1) = false → r.1 = krOK →
         Gives (.spanRaise i o) ⟨d, q⟩ (r.2.setKslot i { k with ceil := spanCeil k.uctr k.limit (d.ctrVal k.uctr + 1) }) ∧
         Gives (.raiseRetry (some i) o) ⟨d, q⟩ (r.2.setKslot i { k with ceil := spanCeil k.uctr k.limit (d.ctrVal k.uctr + 1) })) ∧
      (1024 < (d.kslot i).ceil - (d.kslot i).used ∨ d.raiseWaits (d.kslot i).uctr (d.ctrVal (d.kslot i).uctr + 1) = true → Gives (.spanRaise i o) ⟨d, q⟩ d) ∧
      (let w := min (((d.reg LNK_TXFCNT).toNat + 1024) / 4096 + 1) (ctrCap 2)
       d.txLow = true → (d.reg KEY_FCNTCEIL).toNat < 0xFFFFFFFF → d.raiseWaits 2 w = false → (d.raise 2 w o).1 = krOK →
         Gives (.fcntCeilingRaise o) ⟨d, q⟩ ((d.raise 2 w o).2.setReg KEY_FCNTCEIL (BitVec.ofNat 32 (fcntCeil w))) ∧
         Gives (.raiseRetry none o) ⟨d, q⟩ ((d.raise 2 w o).2.setReg KEY_FCNTCEIL (BitVec.ofNat 32 (fcntCeil w)))) ∧
      (d.txLow = false → Gives (.fcntCeilingRaise o) ⟨d, q⟩ d) ∧
      (d.flag FLC_BOOT FLC_BOOT_READY = false ∨ d.fieldOn 5 = false ∨ d.pwr.flIso = true → Gives (.counterScan n o) ⟨d, q⟩ d) ∧
      (d.flag FLC_BOOT FLC_BOOT_READY = true → d.fieldOn 5 = true → d.pwr.flIso = false →
        let t := d.touchRange (ctrBase n) 8192
        let x : Dev := { t.setReg (KEY_CTR n) (BitVec.ofNat 32 (t.ctrScan n).1) with ctrBad := t.ctrBad.filter (· ≠ n.val), ctrLeft := t.ctrLeft.filter (· ≠ n.val) }
        ((t.ctrScan n).2 = none → Gives (.counterScan n o) ⟨d, q⟩ x) ∧
        (∀ a, (t.ctrScan n).2 = some a → x.ctrValid n a 0 = true → x.ctrValid n a 1 = true → Gives (.counterScan n o) ⟨d, q⟩ x) ∧
        (∀ a, (t.ctrScan n).2 = some a → x.ctrValid n a 0 = false ∨ x.ctrValid n a 1 = false →
          let r := (x.count (KEY_CNT 4)).raiseCore x.mayProg n (t.ctrScan n).1 true o
          (r.1 = krOK → Gives (.counterScan n o) ⟨d, q⟩ r.2) ∧
          (r.1 ≠ krOK → Gives (.counterScan n o) ⟨d, q⟩
            (Dev.put { r.2.count (KEY_CNT 3) with ctrBad := r.2.ctrBad ++ [n.val] } KEY_STAT KEY_STAT_RAISEF 1)))) ∧
      Gives .rngFailure ⟨d, q⟩ ((d.put KEY_STAT KEY_STAT_RNGFAIL 1).report 10 0 0x41 0 []) ∧
      (BusOpen ⟨d, q⟩ c KEY_RAND false →
        (d.flag KEY_STAT KEY_STAT_RNGFAIL = true → Gives (.randomRead c) ⟨d, q⟩ { d with rdata := 0 }) ∧
        (d.flag KEY_STAT KEY_STAT_RNGFAIL = false → After (.randomRead c) ⟨d, q⟩ (fun e =>
          e.rdata = Config.freeWord d.freeCtr ∧ e.freeCtr = d.freeCtr + 1 ∧ e.regs = d.regs ∧ e.kslots = d.kslots))))

/-- Persistent counters never go down (R229), and a use of a key is never admitted at or above its ceiling (R225): an admitted use counts one and leaves
the key as it was; the use that reaches LIMIT exhausts the slot. -/
def Obligations.CountersAndUses : Prop :=
  (∀ (d : Dev) (c v : Nat) (o : List Bool), c < 64 → d.ctrVal c ≤ (d.raise c v o).2.ctrVal c) ∧
  (∀ (d : Dev) (c v : Nat) (o : List Bool), c < 64 → (d.raise c v o).1 = krOK → v ≤ (d.raise c v o).2.ctrVal c) ∧
  (∀ (d : Dev) (i : Nat), (d.charge i).1 = 0 →
    (d.kslot i).used < (d.kslot i).ceil ∧ ((d.charge i).2.kslot i).used = (d.kslot i).used + 1 ∧ ((d.charge i).2.kslot i).key = (d.kslot i).key ∧
    ((d.kslot i).limit ≤ (d.kslot i).used + 1 → ((d.charge i).2.kslot i).state = 3) ∧ ∀ j, j ≠ i → (d.charge i).2.kslot j = d.kslot j) ∧
  (∀ (d : Dev) (i : Nat), (d.charge i).1 ≠ 0 → (d.kslot i).ceil ≤ (d.kslot i).used ∧ (d.charge i).2.kslots = d.kslots)

/-- AES jobs and SHA contexts (R235, R236, R237, R240): at most eight jobs of a core; an engine takes the next job of the round for a grant of 64 block
operations, unless work of higher classes holds both engines; the end writes the outputs, then STATUS. A SHA context serves its owner alone, one
operation at a time. Completion: for each of these commands a clause concludes that exec answers the next state given, under conditions on the state
and the operands alone: aesJobSubmit, aesJobStart, aesJobEnd, shaStart, shaUpdate, shaFinal, shaEnd. -/
def Obligations.AesAndSha : Prop :=
  ∀ (d : Dev) (q : List Instr) (c : Fin 7) (e : Fin 2) (n : Fin 4) (v : Word) (j : AesJob),
    (BusOpen ⟨d, q⟩ c AES_SUB true →
      (8 ≤ (d.aesJobs.filter (fun j => j.core == c.val)).length → Gives (.aesJobSubmit c v) ⟨d, q⟩ (d.count (AES_CNT 3))) ∧
      ((d.aesJobs.filter (fun j => j.core == c.val)).length < 8 → Gives (.aesJobSubmit c v) ⟨d, q⟩
        { d with aesJobs := d.aesJobs ++ [⟨d.aesSeq, c, v.toNat / 32 * 32, none, 0, 0, [], none, 0, false⟩], aesSeq := d.aesSeq + 1 })) ∧
    (2 ≤ d.aesAbove → Gives (.aesJobStart e) ⟨d, q⟩ d) ∧
    (d.aesAbove < 2 → d.liveJob e = none →
      (d.nextJob e = none → Gives (.aesJobStart e) ⟨d, q⟩ d) ∧
      (d.nextJob e = some j → j.engine = none → Gives (.aesJobStart e) ⟨d, q⟩ (d.jobStart e j)) ∧
      (d.nextJob e = some j → j.engine ≠ none → Gives (.aesJobStart e) ⟨d, q⟩ { d.setJob { j with live := true } with aesLast := j.core })) ∧
    (d.aesAbove < 2 → d.liveJob e = some j →
      (j.left ≤ 64 → Gives (.aesJobStart e) ⟨d, q⟩ d) ∧
      (64 < j.left → Gives (.aesJobStart e) ⟨d, q⟩ (Dev.grantJob { d.setJob { j with left := j.left - 64, live := false } with aesLast := j.core } e))) ∧
    (2 ≤ d.aesAbove ∨ d.liveJob e = none → Gives (.aesJobEnd e) ⟨d, q⟩ d) ∧
    (∀ x, d.aesAbove < 2 → d.liveJob e = some x → d.firstDone e x = j → j.status = jsOK → j.fault = none →
      let y := Dev.resumeJob { d with aesJobs := (d.aesJobs.filter (fun y => y.id != j.id)).map (fun y => y.ran j x e) } e j.core
      let z := (j.writes.foldl (fun d w => d.setBytes w.1 w.2) y).count (AES_CNT 0)
      z.busCode false j.core (j.addr + 0x1F) 1 true = none →
        Gives (.aesJobEnd e) ⟨d, q⟩ ((z.setBytes (j.addr + 0x1F) [BitVec.ofNat 8 jsOK]).pulse (1032 + j.core))) ∧
    (BusOpen ⟨d, q⟩ c (SHA_CMD n) true →
      Gives (.shaStart c n) ⟨d, q⟩ ((((d.setSha n ⟨true, shaInit, 0, [], 0, false⟩).put (SHA_STAT n) SHA_STAT_OWNER c.val).put (SHA_STAT n) SHA_STAT_BUSY 0).put (SHA_STAT n) SHA_STAT_ERR 0)) ∧
    (BusOpen ⟨d, q⟩ c (SHA_CMD n) true → d.get (SHA_STAT n) SHA_STAT_OWNER = c.val ∨ d.get (SHA_STAT n) SHA_STAT_OWNER = 7 →
      let x := d.sha n
      let a := (d.reg (SHA_ADDR n)).toNat
      let l := d.get (SHA_LEN n) SHA_LEN_LEN
      let y := d.touchRange a l
      (x.busy ≠ 0 ∨ x.taken = false → Gives (.shaUpdate c n) ⟨d, q⟩ (d.put (SHA_STAT n) SHA_STAT_ERR 2) ∧ Gives (.shaFinal c n) ⟨d, q⟩ (d.put (SHA_STAT n) SHA_STAT_ERR 2)) ∧
      (x.busy = 0 → x.taken = true →
        Gives (.shaFinal c n) ⟨d, q⟩ ((d.setSha n { x with h := shaBlocks x.h (x.part ++ shaPad x.n), part := [], busy := 2 }).put (SHA_STAT n) SHA_STAT_BUSY 1) ∧
        (y.busOk false c a l false = true → let m := x.part ++ y.seen a l
          Gives (.shaUpdate c n) ⟨d, q⟩ ((y.setSha n { x with h := shaBlocks x.h m, n := x.n + l, part := m.drop (m.length / 64 * 64), busy := 1 }).put (SHA_STAT n) SHA_STAT_BUSY 1)) ∧
        (y.busOk false c a l false = false →
          Gives (.shaUpdate c n) ⟨d, q⟩ (((y.faultNote (y.busCode false c a l false)).setSha n { x with busy := 1, bad := true }).put (SHA_STAT n) SHA_STAT_BUSY 1)))) ∧
    (d.coreActs c = true → d.restsAt (SHA_CMD n) = false → d.get (SHA_STAT n) SHA_STAT_OWNER ≠ c.val → d.get (SHA_STAT n) SHA_STAT_OWNER ≠ 7 →
      ∀ w, w ∈ [Instr.shaUpdate c n, .shaFinal c n] → Gives w ⟨d, q⟩ (d.enter c (busFault d c (SHA_CMD n) synPRIVILEGE true))) ∧
    ((d.sha n).busy = 0 → Gives (.shaEnd n) ⟨d, q⟩ d) ∧
    ((d.sha n).busy = 2 → (d.sha n).bad = false → After (.shaEnd n) ⟨d, q⟩ (fun t =>
      t.flag (SHA_STAT n) SHA_STAT_DONE = true ∧ t.flag (SHA_STAT n) SHA_STAT_BUSY = false ∧ ((d.sha n).h.length = 8 → ∀ k < 8, t.reg (SHA_DIG n k) = (d.sha n).h.getD k 0)))

/-- Operations of the ledger engine (R249 to R253): submission up to sixteen, service of the front operation in its kind only and only with an AES engine
free of higher classes (R235), durability, which does not begin while SLOW is 1 (R37) and ends FLASHFAIL on a die that is isolated (R8), recovery and
the origin. The directory and lookups (R254, R255): a set of four holds the most recently used first, a full set loses its last entry and counts, and
a lookup shows where a segment lies. Completion: for each of these commands a clause concludes that exec answers the next state given, under
conditions on the state and the operands alone: appendSubmit, verifySubmit, archiveSubmit, ledgerAppend, ledgerVerify, ledgerPush, recordDurable,
ledgerRecovery, originWrite, directoryInsert, directoryRemove, directoryClear, ledgerLookup. -/
def Obligations.Ledger : Prop :=
  (∀ (d : Dev) (q : List Instr) (c : Fin 7) (v : Word) (erOk : Bool) (good : Nat) (x : LgrOp) (r : List LgrOp) (y : LgrRun),
      (BusOpen ⟨d, q⟩ c LGR_APPEND true →
        (16 ≤ d.lgr.queue.length → Gives (.appendSubmit c v) ⟨d, q⟩ (d.count (LGR_CNT 2))) ∧
        (d.lgr.queue.length < 16 → Gives (.appendSubmit c v) ⟨d, q⟩
          (Dev.lgrSync { d with lgr := { d.lgr with queue := d.lgr.queue ++ [⟨0, c, v.toNat / 16 * 16⟩] } }))) ∧
      (BusOpen ⟨d, q⟩ c LGR_VERIFY true →
        (16 ≤ d.lgr.queue.length → Gives (.verifySubmit c v) ⟨d, q⟩ (d.count (LGR_CNT 2))) ∧
        (d.lgr.queue.length < 16 → Gives (.verifySubmit c v) ⟨d, q⟩
          (Dev.lgrSync { d with lgr := { d.lgr with queue := d.lgr.queue ++ [⟨1, c, v.toNat / 16 * 16⟩] } }))) ∧
      (BusOpen ⟨d, q⟩ c LGR_ARCH true →
        (16 ≤ d.lgr.queue.length → Gives (.archiveSubmit c v) ⟨d, q⟩ (d.count (LGR_CNT 2))) ∧
        (d.lgr.queue.length < 16 → Gives (.archiveSubmit c v) ⟨d, q⟩
          (Dev.lgrSync { d with lgr := { d.lgr with queue := d.lgr.queue ++ [⟨2, c, v.toNat⟩] } }))) ∧
      (d.lgr.queue = [] ∨ d.get LGR_STAT LGR_STAT_STATE ≠ 2 ∨ d.lgr.run ≠ none ∨ 2 ≤ d.aesAbove →
        Gives .ledgerAppend ⟨d, q⟩ d ∧ Gives .ledgerVerify ⟨d, q⟩ d ∧ Gives .ledgerPush ⟨d, q⟩ d) ∧
      (d.lgr.queue = x :: r → d.lgr.run = none → d.get LGR_STAT LGR_STAT_STATE = 2 → d.aesAbove < 2 →
        let e := Dev.lgrSync { d with lgr := { d.lgr with queue := r } }
        let y := e.touchRange x.arg 16
        let w := y.seen x.arg 16
        let open16 := y.busOk true x.core x.arg 16 false && y.busOk true x.core x.arg 16 true
        (open16 = false → (x.kind = 0 → Gives .ledgerAppend ⟨d, q⟩ (y.lgrEnd none lsBUSFAULT)) ∧ (x.kind = 1 → Gives .ledgerVerify ⟨d, q⟩ (y.lgrEnd none lsBUSFAULT))) ∧
        (let a := u32 w 0
         let n := max 4 (recSize (y.seenByte a).toNat)
         let z := y.touchRange a n
         let draft := z.seen a n
         let s := z.lgrSeal (u8 draft 0) (u8 draft 1) ((draft.drop 0x24).take (u8 draft 2)) (some (x.arg, true)) none
         x.kind = 0 → open16 = true →
          (z.busOk true x.core a n false = false → Gives .ledgerAppend ⟨d, q⟩ (z.lgrEnd (some x.arg) lsBUSFAULT)) ∧
          (z.busOk true x.core a n false = true → draftOk w draft = false → Gives .ledgerAppend ⟨d, q⟩ (z.lgrEnd (some x.arg) lsBADDRAFT)) ∧
          (z.busOk true x.core a n false = true → draftOk w draft = true → s.1 = 0 → Gives .ledgerAppend ⟨d, q⟩ s.2) ∧
          (z.busOk true x.core a n false = true → draftOk w draft = true → s.1 ≠ 0 → Gives .ledgerAppend ⟨d, q⟩ (s.2.lgrEnd (some x.arg) s.1))) ∧
        (x.kind = 1 → open16 = true → verifyDescOk w = false → Gives .ledgerVerify ⟨d, q⟩ (y.lgrEnd (some x.arg) lsBADDRAFT)) ∧
        (let z := y.touchRange (u32 w 0) 64
         x.kind = 1 → open16 = true → verifyDescOk w = true → u8 w 6 = 0 → z.busOk true x.core (u32 w 0) 64 false = true →
          (z.verifyRun x.core none none 0 (u16 w 4) (u32 w 0)).1 = lsOK → Gives .ledgerVerify ⟨d, q⟩ (z.lgrEnd (some x.arg) lsOK)) ∧
        (x.kind = 2 → e.archLast x.arg = none → Gives .ledgerPush ⟨d, q⟩ (e.put LGR_STAT LGR_STAT_BADARCH 1)) ∧
        (∀ z, x.kind = 2 → e.archLast x.arg = some z →
          let s := e.lgrSeal 1 2 (spanPayload (e.get LGR_ORIGIN LGR_ORIGIN_ORIGIN) (recSeq (e.recAt e.archived)) (recSeq z) z) none (some x.arg)
          s.1 = 0 → Gives .ledgerPush ⟨d, q⟩ s.2)) ∧
      (d.lgr.run = none → Gives (.recordDurable erOk good) ⟨d, q⟩ d) ∧
      (d.lgr.run = some y → d.lgrHeld y = true → d.pwr.flIso = false → Gives (.recordDurable erOk good) ⟨d, q⟩ d) ∧
      (d.lgr.run = some y →
        let e := d.when y.began (fun d => d.engEnd 3)
        let e : Dev := { e with lgr := { e.lgr with run := none } }
        let p := e.progRun erOk good y.recs
        (d.pwr.flIso = true → Gives (.recordDurable erOk good) ⟨d, q⟩ ((e.count (LGR_CNT 8)).lgrEnd (y.desc.map (·.1)) lsFLASHFAIL)) ∧
        (d.lgrHeld y = false → d.pwr.flIso = false →
          (p.1 = some none → Gives (.recordDurable erOk good) ⟨d, q⟩ ((p.2.count (LGR_CNT 8)).lgrEnd (y.desc.map (·.1)) lsFLASHFAIL)) ∧
          (∀ o, p.1 = some (some o) → Gives (.recordDurable erOk good) ⟨d, q⟩ (((p.2.tornFix o).count (LGR_CNT 8)).lgrEnd (y.desc.map (·.1)) lsFLASHFAIL)) ∧
          (∀ v, p.1 = none → y.desc = none → y.push = some v →
            Gives (.recordDurable erOk good) ⟨d, q⟩ ((p.2.setReg LGR_ARCH (BitVec.ofNat 32 v)).lgrEnd none lsOK)) ∧
          (p.1 = none → y.desc = none → y.push = none → Gives (.recordDurable erOk good) ⟨d, q⟩ (p.2.lgrEnd none lsOK)))) ∧
      (d.get LGR_STAT LGR_STAT_STATE = 1 → d.flag FLC_BOOT FLC_BOOT_READY = true → d.flag PWR_SUPPLY PWR_SUPPLY_SLOW = false → After .ledgerRecovery ⟨d, q⟩ (fun e => e.get LGR_STAT LGR_STAT_STATE = 2)) ∧
      (d.flag FLC_BOOT FLC_BOOT_READY = false → Gives .ledgerRecovery ⟨d, q⟩ d) ∧
      (BusOpen ⟨d, q⟩ c LGR_ORIGIN true →
        (d.flag LGR_ORIGIN LGR_ORIGIN_LOCK = true → Gives (.originWrite c v) ⟨d, q⟩ d) ∧
        (d.flag LGR_ORIGIN LGR_ORIGIN_LOCK = false → getF v LGR_ORIGIN_ORIGIN = d.get LGR_ORIGIN LGR_ORIGIN_ORIGIN →
          Gives (.originWrite c v) ⟨d, q⟩ (d.put LGR_ORIGIN LGR_ORIGIN_LOCK (getF v LGR_ORIGIN_LOCK))) ∧
        (d.flag LGR_ORIGIN LGR_ORIGIN_LOCK = false → getF v LGR_ORIGIN_ORIGIN ≠ d.get LGR_ORIGIN LGR_ORIGIN_ORIGIN → d.head ≠ 0 → d.archived ≠ d.head →
          Gives (.originWrite c v) ⟨d, q⟩ d))) ∧
  (∀ (d : Dev) (q : List Instr) (c : Fin 7) (v : Word),
      let org := d.get LGR_DIRORG LGR_DIRORG_ORIGIN
      let seg := d.get LGR_DIRSEG LGR_DIRSEG_SEG
      let n := dirSet org seg
      let wh := d.get LGR_DIRVAL LGR_DIRVAL_WHERE
      let e : DirE := ⟨org, seg, decide (wh = 2), d.get LGR_DIRVAL LGR_DIRVAL_VALUE⟩
      (BusOpen ⟨d, q⟩ c LGR_DIRCMD true →
        (wh = 1 ∨ wh = 2 → (d.dirOf n).any (fun x => x.is org seg) = true →
          Gives (.directoryInsert c) ⟨d, q⟩ (d.setDir n (e :: (d.dirOf n).filter (fun x => !x.is org seg)))) ∧
        (wh = 1 ∨ wh = 2 → (d.dirOf n).any (fun x => x.is org seg) = false → (d.dirOf n).length < 4 →
          Gives (.directoryInsert c) ⟨d, q⟩ (d.setDir n (e :: d.dirOf n))) ∧
        (wh = 1 ∨ wh = 2 → (d.dirOf n).any (fun x => x.is org seg) = false → 4 ≤ (d.dirOf n).length →
          Gives (.directoryInsert c) ⟨d, q⟩ ((d.count (LGR_CNT 7)).setDir n (e :: (d.dirOf n).dropLast))) ∧
        Gives (.directoryRemove c) ⟨d, q⟩ (d.setDir n ((d.dirOf n).filter (fun x => !x.is org seg))) ∧
        Gives (.directoryClear c) ⟨d, q⟩ (Dev.put { d with dir := [] } LGR_DIRUSED LGR_DIRUSED_USED 0)) ∧
      (BusOpen ⟨d, q⟩ c LGR_LOOK_HI true → After (.ledgerLookup c v) ⟨d, q⟩ (fun t =>
        let o := getF v LGR_LOOK_HI_ORIGIN
        let l := (d.reg (banked c LGR_LOOK_LO)).toNat
        let res := t.get (banked c LGR_LOOKRES) LGR_LOOKRES_RESULT
        t.flag (banked c LGR_LOOKRES) LGR_LOOKRES_RDY = true ∧
        (o = d.get LGR_ORIGIN LGR_ORIGIN_ORIGIN → d.head ≤ l → res = 4) ∧
        (o = d.get LGR_ORIGIN LGR_ORIGIN_ORIGIN → l < d.head → (res = 1 ↔ ceilDiv d.head 4096 * 4096 ≤ l + 2040 * 4096) ∧ (res = 1 ∨ res = 2)) ∧
        (o ≠ d.get LGR_ORIGIN LGR_ORIGIN_ORIGIN → (d.dirOf (dirSet o (l / 65536))).any (fun x => x.is o (l / 65536)) = false → res = 5) ∧
        t.cores = d.cores ∧ ∀ a, t.byte a = d.byte a)))

/-- The merged view depends on the set of records delivered alone (R257): two heads that hold the same records and verify tags alike show the same main
part and annex, whatever the order and however often each record came. Its two parts are strictly ordered by OTIME, ORIGIN, OSEQ (and, the model's
choice where all three agree, bytes), hold no record twice, and hold just the delivered records with a whole chain, of TYPE 0x10 or above, that some
receipt or push vouches for: within 600 s of their OTIME in the main part, later in the annex (R256). -/
def Obligations.MergedViewOfTheSet : Prop :=
  (∀ (d e : Dev) (l m : List (List Byte)), (∀ r, d.tagOk r = e.tagOk r) → (∀ r, r ∈ l ↔ r ∈ m) → d.mergedView l = e.mergedView m) ∧
  (∀ (d : Dev) (l : List (List Byte)),
    (d.mergedView l).1.Pairwise (fun x y => lexLt (viewKey x) (viewKey y) = true) ∧
    (d.mergedView l).2.Pairwise (fun x y => lexLt (viewKey x) (viewKey y) = true) ∧
    (∀ r, r ∈ (d.mergedView l).1 ↔ r ∈ l ∧ d.rooted l (recSeq r) r = true ∧ 0x10 ≤ u8 r 1 ∧
      ∃ x ∈ d.viewOk l, vouches (d.viewOk l) r x = true ∧ recTime x ≤ recTime r + settling) ∧
    (∀ r, r ∈ (d.mergedView l).2 ↔ r ∈ l ∧ d.rooted l (recSeq r) r = true ∧ 0x10 ≤ u8 r 1 ∧
      (∃ x ∈ d.viewOk l, vouches (d.viewOk l) r x = true) ∧
      ∀ x ∈ d.viewOk l, vouches (d.viewOk l) r x = true → recTime r + settling < recTime x))

/-- A run of sealed records is one chain (R245 to R248, R250): FILL records and the record they precede lie one after the other from the head, each
follows the one before it in ORIGIN, OSEQ, chain value and time, and each ends with the CMAC of the bytes before it. -/
def Obligations.SealedRunsChain : Prop :=
  ∀ (d : Dev) (fmt typ : Nat) (payload : List Byte) (prev : Option (List Byte)) (o seq f : Nat),
    recSize fmt ≠ 0 → fmt < 256 → payload.length + 48 ≤ recSize fmt → seq + f < 2 ^ 32 →
    d.get LGR_ORIGIN LGR_ORIGIN_ORIGIN < 2 ^ 20 →
    let l := d.sealRun fmt typ payload prev o seq f
    l.length = f + 1 ∧
    (∀ i x, l[i]? = some x → x.1 = o + 64 * i ∧ recSeq x.2 = seq + i ∧ recOrigin x.2 = d.get LGR_ORIGIN LGR_ORIGIN_ORIGIN ∧
      ∃ body, x.2 = body ++ (cmac (d.kslot (d.get LGR_KEYS LGR_KEYS_SEAL)).key body).take 12 ∧ body.length + 12 = recSize (u8 body 0)) ∧
    (∀ i x y, l[i]? = some x → l[i + 1]? = some y → follows x.2 y.2 = true) ∧
    (∀ p x, prev = some p → l[0]? = some x → recOrigin p = d.get LGR_ORIGIN LGR_ORIGIN_ORIGIN → recSeq p + 1 = seq → follows p x.2 = true)

/-- Commands of the flash controller (R306, R308, R310, R313): a command that its judgement refuses ends at once with that code and nothing else; one it
accepts makes its bank busy; its end frees the bank; suspension after 200 µs of erasing and resumption 2 µs after the last request, moves and
start-up. Completion: for each of these commands a clause concludes that exec answers the next state given, under conditions on the state and the
operands alone: flashProgram, flashProgbuf, flashErase, flashMread, flashBlank, flashColtest, flashColrepair, flashCommandEnd, moveEnd, deferredMove,
eraseSuspend, eraseResume, flashStartup. -/
def Obligations.FlashController : Prop :=
  ∀ (d : Dev) (q : List Instr) (c : Fin 7) (b : Fin 4) (w : Fin 2) (ok : Bool) (good line n : Nat),
    (BusOpen ⟨d, q⟩ c (FLC_CMD b) true →
      ∀ p, p ∈ [(Instr.flashProgram c b, 1), (.flashProgbuf c b, 2), (.flashErase c b, 3), (.flashMread c b, 4), (.flashBlank c b, 5),
        (.flashColtest c b, 6), (.flashColrepair c b, 7)] →
      (∀ k, d.flcJudge c b p.2 = some k → Gives p.1 ⟨d, q⟩ (d.flcEnd b p.2 k)) ∧
      (d.flcJudge c b p.2 = none → After p.1 ⟨d, q⟩ (fun e =>
        (e.bankOfs b).op = p.2 ∧ (e.bankOfs b).core = c.val ∧ e.flag (FLC_STAT b) FLC_STAT_BUSY = true ∧ e.cores = d.cores ∧
        (∀ a, a ≠ FLC_STAT b → e.reg a = d.reg a) ∧ ∀ a, e.byte a = d.byte a))) ∧
    (d.bankBusy b = true → ∀ op, d.flcJudge c b op = some frBUSY) ∧
    ((d.bankOfs b).op = 0 → Gives (.flashCommandEnd b good line n) ⟨d, q⟩ d) ∧
    ((d.bankOfs b).op = 1 → d.blankWord (d.bankOfs b).addr = true → After (.flashCommandEnd b (good + 1) line n) ⟨d, q⟩ (fun e =>
      e.get (FLC_STAT b) FLC_STAT_RESULT = frOK ∧ (e.bankOfs b).op = 0 ∧ e.flag (FLC_STAT b) FLC_STAT_DONE = true)) ∧
    ((d.bankOfs b).op = 1 → d.blankWord (d.bankOfs b).addr = false → After (.flashCommandEnd b good line n) ⟨d, q⟩ (fun e =>
      e.get (FLC_STAT b) FLC_STAT_RESULT = frNOTBLANK ∧ ∀ a, e.byte a = d.byte a)) ∧
    (d.erasing b = true → d.flag (FLC_STAT b) FLC_STAT_SUSP = false → (d.bankOfs b).mark ≤ d.clk.cyc + 1 →
      Gives (.eraseSuspend b) ⟨d, q⟩ (((d.put (FLC_STAT b) FLC_STAT_SUSP 1).count (FLC_CNT 3)).bankMark b 0)) ∧
    (d.clk.cyc + 1 < (d.bankOfs b).mark → Gives (.eraseSuspend b) ⟨d, q⟩ d) ∧
    (d.erasing b = false → Gives (.eraseSuspend b) ⟨d, q⟩ d) ∧
    (d.flag (FLC_STAT b) FLC_STAT_SUSP = true → (d.bankOfs b).mark + 246 ≤ d.clk.cyc + 1 →
      Gives (.eraseResume b) ⟨d, q⟩ ((d.put (FLC_STAT b) FLC_STAT_SUSP 0).bankMark b 24576)) ∧
    (d.flag (FLC_STAT b) FLC_STAT_SUSP = false ∨ d.clk.cyc + 1 < (d.bankOfs b).mark + 246 → Gives (.eraseResume b) ⟨d, q⟩ d) ∧
    (d.flag (FLC_STAT (winBank w)) FLC_STAT_MOVE = true → Gives (.moveEnd w ok) ⟨d, q⟩
      ((((d.winMove w ok).put (FLC_STAT (winBank w)) FLC_STAT_MOVE 0).put (FLC_STAT (winBank w)) FLC_STAT_SUSP 0).bankShow (winBank w))) ∧
    (d.flag (FLC_STAT (winBank w)) FLC_STAT_MOVE = false → Gives (.moveEnd w ok) ⟨d, q⟩ d) ∧
    ((d.winOf w).defer = true → d.flag PWR_SUPPLY PWR_SUPPLY_SLOW = false → d.flag (FLC_STAT (winBank w)) FLC_STAT_BUSY = false →
      Gives (.deferredMove w) ⟨d, q⟩ ((d.moveStart w).winShow w)) ∧
    ((d.winOf w).defer = false ∨ d.flag PWR_SUPPLY PWR_SUPPLY_SLOW = true → Gives (.deferredMove w) ⟨d, q⟩ d) ∧
    (d.flag FLC_BOOT FLC_BOOT_READY = false → d.pwr.flIso = false → d.fieldOn 1 = true → d.flag PWR_SUPPLY PWR_SUPPLY_SLOW = false → After .flashStartup ⟨d, q⟩ (fun e =>
      e.flag FLC_BOOT FLC_BOOT_READY = true ∧ e.flFlag = [])) ∧
    (d.flag FLC_BOOT FLC_BOOT_READY = true ∨ d.pwr.flIso = true → Gives .flashStartup ⟨d, q⟩ d)

/-- The rotating windows (R309, R310): logical sectors lie in different slots of the window, none in the gap; after a move every logical sector has the
slot it had before, but for the one that was beside the gap, which the old gap takes. A programmed flash word reads back, an erase reads 0xFF, and
neither touches a byte outside its word or its sector (R305, R308; the full view). -/
def Obligations.FlashArray : Prop :=
  (∀ (x : Win) (w l m : Nat), w < 2 → x.back ≤ winN w → x.start < winN w → l < winN w → m < winN w →
      x.slotOf w l ≤ winN w ∧ x.slotOf w l ≠ x.gap w ∧ (x.slotOf w l = x.slotOf w m → l = m) ∧
      (let y : Win := if 0 < x.gap w then { x with back := x.back + 1 } else { x with start := (x.start + 1) % winN w, back := 0 }
       let src := if 0 < x.gap w then x.gap w - 1 else winN w
       y.gap w = src ∧ (x.slotOf w l ≠ src → y.slotOf w l = x.slotOf w l) ∧ (x.slotOf w l = src → y.slotOf w l = x.gap w))) ∧
  (∀ (d : Dev) (a k : Nat) (b : List Byte) (ok : Bool), flashFull ≤ a → a + 4096 ≤ 0x0A000000 → 0x02000000 ≤ k →
      (b.length ≤ 4096 → (∀ i, i < b.length → (d.progWord a b ok).byte (a + i) = b.getD i 0) ∧
        (k < a ∨ a + b.length ≤ k → (d.progWord a b ok).byte k = d.byte k)) ∧
      (a ≤ k → k < a + 4096 → (d.eraseSector a).byte k = 0xFF) ∧
      (k < a ∨ a + 4096 ≤ k → (d.eraseSector a).byte k = d.byte k))

/-- Lock cells (R296, R298): a take of a free cell holds it, of a held one says by whom, of an orphaned one waits for a rescue, which takes it in a core
of the RESCUE mask alone; only the holder gives. Reset and restart of a core, its writebacks, and its interrupts (R278, R287, R294): a core under
reset drains, and restarts at its entry with the registers R259 gives it; an interrupt is entered at a boundary with IE 1 and EXL 0. Completion: for
each of these commands a clause concludes that exec answers the next state given, under conditions on the state and the operands alone:
interruptEntry, haltWake, coreReset, coreRestart, writebackArrival, semTake, semGive, semRescue. -/
def Obligations.LockCellsAndCores : Prop :=
  (∀ (d : Dev) (q : List Instr) (c : Fin 7) (n : Fin 64) (h : Nat) (v : Word),
      (BusOpen ⟨d, q⟩ c (SEM_TAKE n) false →
        (d.lock n = .free → Gives (.semTake c n) ⟨d, q⟩ { d.setLock n (.held c) with rdata := semWord 0 c }) ∧
        (d.lock n = .held c → Gives (.semTake c n) ⟨d, q⟩ { d with rdata := semWord 1 c }) ∧
        (d.lock n = .held h → h ≠ c.val → Gives (.semTake c n) ⟨d, q⟩ { d.count (SEM_CNT 0) with rdata := semWord 2 h }) ∧
        (d.lock n = .orphaned h → Gives (.semTake c n) ⟨d, q⟩ { d with rdata := semWord 3 7 })) ∧
      (BusOpen ⟨d, q⟩ c (SEM_GIVE n) true → getF v SEM_GIVE_GIVE = 1 →
        (d.lock n = .held c → Gives (.semGive c n v) ⟨d, q⟩ (d.setLock n .free)) ∧
        (d.lock n ≠ .held c → Gives (.semGive c n v) ⟨d, q⟩ (d.count (SEM_CNT 1)))) ∧
      (BusOpen ⟨d, q⟩ c (SEM_GIVE n) true → getF v SEM_GIVE_GIVE = 0 → Gives (.semGive c n v) ⟨d, q⟩ d) ∧
      (BusOpen ⟨d, q⟩ c (SEM_RESCUE n) false →
        (d.lock n = .orphaned h → (d.get SEM_CFG SEM_CFG_RESCUE).testBit c = true → After (.semRescue c n) ⟨d, q⟩ (fun e =>
          e.lock n = .held c ∧ e.rdata = semWord 4 c ∧ (∀ m, m ≠ n.val → e.lock m = d.lock m) ∧ e.cores = d.cores ∧
          (n.val < 32 → testBit (e.reg SEM_ORPH_LO) n = false))) ∧
        ((d.get SEM_CFG SEM_CFG_RESCUE).testBit c = false → Gives (.semRescue c n) ⟨d, q⟩ { d with rdata := semWord 5 (d.lock n).owner }) ∧
        (d.lock n = .free → Gives (.semRescue c n) ⟨d, q⟩ { d with rdata := semWord 5 7 }))) ∧
  (∀ (d : Dev) (q : List Instr) (c n : Fin 7) (v : Word) (line : Nat),
      (BusOpen ⟨d, q⟩ c SYS_CORERST true →
        (getF v SYS_CORERST_KEY ≠ 0x5A → Gives (.coreReset c v) ⟨d, q⟩ d) ∧
        (getF v SYS_CORERST_KEY = 0x5A → testBit v n = true → d.planLevel n ≠ 0xFF → d.coreState n ≠ 0 → After (.coreReset c v) ⟨d, q⟩ (fun e => e.coreState n = 4)) ∧
        (getF v SYS_CORERST_KEY = 0x5A → testBit v n = false → After (.coreReset c v) ⟨d, q⟩ (fun e => e.coreState n = d.coreState n ∧ e.core n = d.core n))) ∧
      (d.coreState n = 4 → After (.coreRestart n) ⟨d, q⟩ (fun e =>
        e.coreState n = 1 ∧ e.core n = { CoreSt.init with pc := d.reg (SYS_ENTRY n) } ∧ ∀ k, d.lock k ≠ Lock.held n.val → e.lock k = d.lock k)) ∧
      (d.coreState n ≠ 4 → Gives (.coreRestart n) ⟨d, q⟩ d) ∧
      After (.writebackArrival c line) ⟨d, q⟩ (fun e => (∀ y ∈ (e.l1 c).data, y.1 ≠ line) ∧ (∀ y ∈ (e.l1 c).wb, y.1 ≠ line) ∧ (∀ k : Fin 7, k ≠ c → e.l1 k = d.l1 k) ∧
        e.regs = d.regs ∧ e.cores = d.cores ∧ ∀ a, e.byte a = d.byte a) ∧
      (d.coreRuns c = true → (d.presented c).isSome = true → getF (d.core c).fl flIE = 1 → getF (d.core c).fl flEXL = 0 →
        Gives (.interruptEntry c) ⟨d, q⟩ (d.setCore c ((d.core c).enter ⟨excINT, 0, (d.core c).pc, none, none⟩))) ∧
      (d.coreRuns c = false ∨ d.presented c = none → Gives (.interruptEntry c) ⟨d, q⟩ d) ∧
      (d.coreState c = 2 → (d.presented c).isSome = true → d.heldHalted c = false → getF (d.core c).fl flIE = 0 →
        Gives (.haltWake c) ⟨d, q⟩ (d.setCoreState c 1)) ∧
      (d.coreState c ≠ 2 ∨ d.presented c = none → Gives (.haltWake c) ⟨d, q⟩ d))

/-- Interrupt sources (R325, R326, R328, R329, R331): pending by SENSE, software pend and clear of edge-sensed sources alone, acknowledge of what is
presented, completion in stack order, hold-off, which never ends early. Completion: for each of these commands a clause concludes that exec answers
the next state given, under conditions on the state and the operands alone: sourceChange, softwarePend, pendingClear, interruptAcknowledge,
interruptComplete, holdoffExpiry, holdoffWrite, asyncLatchEdge. -/
def Obligations.Interrupts : Prop :=
  ∀ (d : Dev) (q : List Instr) (c : Fin 7) (k g : Fin 36) (n : Fin 1152) (v : Word) (up lvl : Bool) (m : Nat) (t : Nat × Nat) (r : List (Nat × Nat)),
    (d.fieldOn 1 = true → d.clk.stopped = false → n.val < 1104 →
      let e : Dev := { d with irqPulse := sset false d.irqPulse n false, irqNew := sset false d.irqNew n false }
      let w := d.srcLevel n lvl || sget false d.irqPulse n
      (sget false d.irqNew n = false ∨ d.srcEdge n = false → Gives (.sourceChange n lvl) ⟨d, q⟩ (e.srcSample n w)) ∧
      (sget false d.irqNew n = true → d.srcEdge n = true → Gives (.sourceChange n lvl) ⟨d, q⟩ (e.putB (IRQ_CFG n) IRQ_CFG_LINE w))) ∧
    (d.fieldOn 1 = true → d.clk.stopped = false → 1104 ≤ n.val → padFunc ((d.sec tPADS 0).getD []) (n.val - 1104) = 1 → d.fieldOn 6 = true →
      sget false d.irqPulse n = false → After (.sourceChange n lvl) ⟨d, q⟩ (fun e =>
        e.flag (IRQ_CFG n) IRQ_CFG_LINE = lvl ∧ testBit (e.reg (GPIO_IN ((n.val - 1104) / 32))) ((n.val - 1104) % 32) = lvl)) ∧
    (d.fieldOn 1 = false ∨ d.clk.stopped = true → Gives (.sourceChange n lvl) ⟨d, q⟩ d) ∧
    ((d.srcSample n true).flag (IRQ_CFG n) IRQ_CFG_LINE = true ∧
      (d.get (IRQ_CFG n) IRQ_CFG_SENSE = 0 → d.flag (IRQ_CFG n) IRQ_CFG_ACT = false → ∀ b, (d.srcSample n b).flag (IRQ_CFG n) IRQ_CFG_PEND = b) ∧
      (d.get (IRQ_CFG n) IRQ_CFG_SENSE = 1 → d.flag (IRQ_CFG n) IRQ_CFG_LINE = false → (d.srcSample n true).flag (IRQ_CFG n) IRQ_CFG_PEND = true) ∧
      (d.get (IRQ_CFG n) IRQ_CFG_SENSE = 1 → (d.srcSample n false).flag (IRQ_CFG n) IRQ_CFG_PEND = d.flag (IRQ_CFG n) IRQ_CFG_PEND)) ∧
    (d.pwr.off = false → latched n = true → d.fieldOn 1 = false → d.plan16 tIRQ 0 (2 * n) / 16 % 4 = 3 →
      Gives (.asyncLatchEdge n up) ⟨d, q⟩ { d with asyncL := sset false d.asyncL n true }) ∧
    (d.fieldOn 1 = true → Gives (.asyncLatchEdge n up) ⟨d, q⟩ d) ∧
    (BusOpen ⟨d, q⟩ c (IRQ_SWPEND k) true → After (.softwarePend c k v) ⟨d, q⟩ (fun e => ∀ i, i < 32 → e.flag (IRQ_CFG (32 * k + i)) IRQ_CFG_PEND =
      (d.flag (IRQ_CFG (32 * k + i)) IRQ_CFG_PEND || (testBit v i && d.srcEdge (32 * k + i))))) ∧
    (BusOpen ⟨d, q⟩ c (IRQ_PEND k) true → After (.pendingClear c k v) ⟨d, q⟩ (fun e => ∀ i, i < 32 → e.flag (IRQ_CFG (32 * k + i)) IRQ_CFG_PEND =
      (d.flag (IRQ_CFG (32 * k + i)) IRQ_CFG_PEND && !(testBit v i && d.srcEdge (32 * k + i))))) ∧
    (BusOpen ⟨d, q⟩ c (IRQ_ACK c) false →
      (d.presented c = none → Gives (.interruptAcknowledge c) ⟨d, q⟩ (Dev.count { d with rdata := 0x80000000 } (IRQ_CNT 1))) ∧
      (d.presented c = some m → m < 1152 → After (.interruptAcknowledge c) ⟨d, q⟩ (fun e =>
        e.flag (IRQ_CFG m) IRQ_CFG_PEND = false ∧ e.flag (IRQ_CFG m) IRQ_CFG_ACT = true ∧ e.get (IRQ_CFG m) IRQ_CFG_ONCORE = c.val ∧
        (e.core c).stk = (m, d.get (IRQ_CFG m) IRQ_CFG_PRI) :: (d.core c).stk ∧ getF e.rdata IRQ_ACK_SRC = m ∧
        (e.core c).g = (d.core c).g ∧ (e.core c).pc = (d.core c).pc))) ∧
    (BusOpen ⟨d, q⟩ c (IRQ_EOI c) true →
      ((d.core c).stk = t :: r → t.1 = getF v IRQ_EOI_SRC → Gives (.interruptComplete c v) ⟨d, q⟩ ((d.setCore c { d.core c with stk := r }).srcIdle t.1)) ∧
      ((d.core c).stk = t :: r → t.1 ≠ getF v IRQ_EOI_SRC → Gives (.interruptComplete c v) ⟨d, q⟩
        (((d.put (IRQ_STAT c) IRQ_STAT_ORDERFLT 1).count (IRQ_CNT 0)).report (26 + c) c 2 (BitVec.ofNat 32 (getF v IRQ_EOI_SRC)) [stkWord t])) ∧
      ((d.core c).stk = [] → Gives (.interruptComplete c v) ⟨d, q⟩
        (((d.put (IRQ_STAT c) IRQ_STAT_ORDERFLT 1).count (IRQ_CNT 0)).report (26 + c) c 2 (BitVec.ofNat 32 (getF v IRQ_EOI_SRC)) [0]))) ∧
    (d.flag (IRQ_HOLD g) IRQ_HOLD_RUN = true → sget 0 d.holdDue g ≤ d.nowU →
      Gives (.holdoffExpiry g) ⟨d, q⟩ { d.put (IRQ_HOLD g) IRQ_HOLD_RUN 0 with holdDue := serase g d.holdDue }) ∧
    (d.flag (IRQ_HOLD g) IRQ_HOLD_RUN = false ∨ d.nowU < sget 0 d.holdDue g → Gives (.holdoffExpiry g) ⟨d, q⟩ d) ∧
    (BusOpen ⟨d, q⟩ c (IRQ_HOLD g) true →
      let x := d.put (IRQ_HOLD g) IRQ_HOLD_INTERVAL (getF v IRQ_HOLD_INTERVAL)
      (x.flag (IRQ_HOLD g) IRQ_HOLD_RUN = false → Gives (.holdoffWrite c g v) ⟨d, q⟩ x) ∧
      (x.flag (IRQ_HOLD g) IRQ_HOLD_RUN = true → getF v IRQ_HOLD_INTERVAL ≠ 0 → Gives (.holdoffWrite c g v) ⟨d, q⟩
        { x.put (IRQ_HOLD g) IRQ_HOLD_RUN 1 with holdDue := sset 0 x.holdDue g (x.nowU + 3072 * x.get (IRQ_HOLD g) IRQ_HOLD_INTERVAL) }) ∧
      (x.flag (IRQ_HOLD g) IRQ_HOLD_RUN = true → getF v IRQ_HOLD_INTERVAL = 0 → Gives (.holdoffWrite c g v) ⟨d, q⟩
        { x.put (IRQ_HOLD g) IRQ_HOLD_RUN 0 with holdDue := serase g x.holdDue }))

/-- What is presented to a core is eligible for it, is never active, beats the core's running priority, and no eligible source that is not LOWPRI has a
higher priority (R327). -/
def Obligations.PresentedIsHighest : Prop :=
  ∀ (d : Dev) (c : Fin 7) (n m : Nat), d.presented c = some n →
    d.flag (IRQ_CFG n) IRQ_CFG_PEND = true ∧ d.flag (IRQ_CFG n) IRQ_CFG_ACT = false ∧ d.flag (IRQ_CFG n) IRQ_CFG_EN = true ∧
    d.flag (IRQ_HOLD (n / 32)) IRQ_HOLD_RUN = false ∧ d.beats c (d.get (IRQ_CFG n) IRQ_CFG_PRI) = true ∧
    (m ∈ d.srcListed → d.eligible m c = true → d.flag (IRQ_CFG m) IRQ_CFG_LOWPRI = false → d.get (IRQ_CFG m) IRQ_CFG_PRI ≤ d.get (IRQ_CFG n) IRQ_CFG_PRI)

/-- Headland channels, cells, groups and gated channels (R336 to R342, R356): an event on a channel, a cell whose output flips once its table's value has
differed from it for its filter's cycles, firing and group writes by cores that own the channels, refused with the privilege syndrome to others.
Completion: for each of these commands a clause concludes that exec answers the next state given, under conditions on the state and the operands
alone: channelEvent, cellFilterExpiry, channelFire, lutWrite, groupEnable, groupDisable, gatedInputDelivery. -/
def Obligations.HeadlandRouting : Prop :=
  ∀ (d : Dev) (q : List Instr) (c : Fin 7) (a : Fin 256) (n : Fin 128) (i : Fin 8) (lvl : Bool) (v m : BitVec 16) (ch : Nat),
    (hlProducer d.hl a = 0 ∨ 0xF00 ≤ hlProducer d.hl a → Gives (.channelEvent a lvl) ⟨d, q⟩ d) ∧
    (d.producerOff (hlProducer d.hl a) = true → Gives (.channelEvent a lvl) ⟨d, q⟩ d) ∧
    (hlProducer d.hl a < 0xF00 → isPulse (hlProducer d.hl a) = true → d.producerOff (hlProducer d.hl a) = false →
      (∀ e, d.pulseDue (hlProducer d.hl a) = some e → Gives (.channelEvent a lvl) ⟨d, q⟩
        (Dev.chPulse { d with hdlPend := d.hdlPend.erase e, hdlDone := sset 0 d.hdlDone e.1 (d.clk.cyc + 1) } a true)) ∧
      (d.pulseDue (hlProducer d.hl a) = none → Gives (.channelEvent a lvl) ⟨d, q⟩ d)) ∧
    (hlProducer d.hl a ≠ 0 → hlProducer d.hl a < 0xF00 → isPulse (hlProducer d.hl a) = false →
      let w := d.producerLevel (hlProducer d.hl a) lvl
      d.producerOff (hlProducer d.hl a) = false → Gives (.channelEvent a lvl) ⟨d, q⟩ ((d.inputLevel (hlProducer d.hl a) lvl).chDrive a w)) ∧
    (cellChannel d.hl n = none ∨ sget 0 d.cellCnt n < d.cellWait n → Gives (.cellFilterExpiry n) ⟨d, q⟩ d) ∧
    (cellChannel d.hl n = some ch → d.cellWait n ≤ sget 0 d.cellCnt n →
      let w := !d.flag (HDL_LUT n) HDL_LUT_OUT
      Gives (.cellFilterExpiry n) ⟨d, q⟩ (Dev.chDrive { d.putB (HDL_LUT n) HDL_LUT_OUT w with cellCnt := serase n d.cellCnt } ch w)) ∧
    (d.coreActs c = true → d.fireDenied c a = true → Gives (.channelFire c a) ⟨d, q⟩ (d.enter c (busFault d c HDL_FIRE synPRIVILEGE true))) ∧
    (d.fireDenied c a = false → BusOpen ⟨d, q⟩ c HDL_FIRE true → Gives (.channelFire c a) ⟨d, q⟩ ((d.count (HDL_CNT 2)).chPulse a false)) ∧
    (d.coreActs c = true → d.lutDenied c n = true → Gives (.lutWrite c n v) ⟨d, q⟩ (d.enter c (busFault d c (HDL_LUT n) synPRIVILEGE true))) ∧
    (d.lutDenied c n = false → BusOpen ⟨d, q⟩ c (HDL_LUT n) true →
      (cellChannel d.hl n = none ∨ sget 0 d.lutSwap n = d.clk.cyc + 1 → Gives (.lutWrite c n v) ⟨d, q⟩ d) ∧
      (cellChannel d.hl n = some ch → sget 0 d.lutSwap n ≠ d.clk.cyc + 1 → Gives (.lutWrite c n v) ⟨d, q⟩ (d.put (HDL_LUT n) HDL_LUT_LUT v.toNat))) ∧
    (d.coreActs c = true → d.groupDenied c m.toNat = true → Gives (.groupEnable c m) ⟨d, q⟩ (d.enter c (busFault d c HDL_GRPSET synPRIVILEGE true)) ∧
      Gives (.groupDisable c m) ⟨d, q⟩ (d.enter c (busFault d c HDL_GRPCLR synPRIVILEGE true))) ∧
    (d.groupDenied c m.toNat = false →
      (BusOpen ⟨d, q⟩ c HDL_GRPSET true → Gives (.groupEnable c m) ⟨d, q⟩
        { d with grpOn := d.grpOn ||| m.toNat }) ∧
      (BusOpen ⟨d, q⟩ c HDL_GRPCLR true → Gives (.groupDisable c m) ⟨d, q⟩
        { d with grpOff := d.grpOff ||| m.toNat })) ∧
    ((d.get HDL_GATED HDL_GATED_LATCH).testBit i = false → Gives (.gatedInputDelivery i) ⟨d, q⟩ d) ∧
    (d.pwr.off = false → (d.get HDL_GATED HDL_GATED_LATCH).testBit i = true → (∀ t < 8, d.get (RTC_ATCTL t) RTC_ATCTL_GSTART ≠ i.val + 1) → Gives (.gatedInputDelivery i) ⟨d, q⟩ d) ∧
    (d.pwr.off = false → (d.get HDL_GATED HDL_GATED_LATCH).testBit i = true → ∀ t, t < 8 → d.get (RTC_ATCTL t) RTC_ATCTL_GSTART = i.val + 1 →
      After (.gatedInputDelivery i) ⟨d, q⟩ (fun e => (e.atOf t).start = true ∧ (e.get HDL_GATED HDL_GATED_LATCH).testBit i = false))

/-- One tick of a general timer (R345, Table 18.1): the count stays below 2^48 and within the period of its mode, and the tick at which a period ends is
the one that leaves it. General timers (R345 to R350, R352): ticks, period ends, compares, captures, control, groups and the commit of 48-bit values.
Always-on timers, the RTC and the calendar (R356 to R364): pended writes take effect at the edge after the expiry, the edge advances the time base,
and the calendar halts, takes a valid date and time, resumes, and raises its alarm and tick. Completion: for each of these commands a clause concludes
that exec answers the next state given, under conditions on the state and the operands alone: timerTick, timerPeriodEnd, timerCompare, timerCapture,
timerControlWrite, timerGroupStart, timerGroupStop, timerCommit, lfEdgeCount, aonTimerEdge, aonTimerExpiry, aonTimerWrite, rtcEdge, rtcTempSample,
calendarFreeze, calendarHalt, calendarWrite, calendarResume, rtcAlarm, rtcTick. -/
def Obligations.Timers : Prop :=
  (∀ (mode period count : Nat) (down : Bool), mode < 3 → 1 ≤ period → period < 2 ^ 47 → count < period →
      (tickTo mode period count down).count ≤ period ∧
      (mode = 0 → tickTo 0 period count down = ⟨count + 1, false, false, false⟩ ∧ tickTo 0 period period down = ⟨0, false, true, false⟩) ∧
      (mode = 1 → (0 < count → tickTo 1 period count down = ⟨count - 1, true, false, false⟩) ∧ tickTo 1 period 0 down = ⟨period, true, true, false⟩) ∧
      (mode = 2 → tickTo 2 period count false = ⟨count + 1, false, false, false⟩ ∧ tickTo 2 period period false = ⟨period - 1, true, false, true⟩ ∧
        (0 < count → tickTo 2 period count true = ⟨count - 1, true, false, false⟩) ∧ tickTo 2 period 0 true = ⟨1, false, true, true⟩)) ∧
  (∀ (d : Dev) (q : List Instr) (c : Fin 7) (t : Fin 24) (k : Fin 2) (w : TmrVal) (v : Word) (up : Bool),
      (d.flag (TMR_CTL t) TMR_CTL_RUN = false ∨ d.tmrHeld t = true ∨ d.flag (TMR_STAT t) TMR_STAT_LFRUN = true ∨ (d.tmrOf t).pre < d.get (TMR_CTL t) TMR_CTL_PRESC + 1 →
        Gives (.timerTick t) ⟨d, q⟩ d) ∧
      (d.flag (TMR_CTL t) TMR_CTL_RUN = true → d.tmrFrozen t = false → d.flag (TMR_STAT t) TMR_STAT_LFRUN = false → d.clk.stopped = false →
        d.flag (TMR_CTL t) TMR_CTL_LFCONT = true ∨ (d.fieldOn 1 = true ∧ d.frozen = false) → (d.tmrOf t).cntWr ≠ d.clk.cyc + 1 → d.get (TMR_CTL t) TMR_CTL_PRESC + 1 ≤ (d.tmrOf t).pre → d.flag (TMR_CTL t) TMR_CTL_ONESHOT = false → After (.timerTick t) ⟨d, q⟩ (fun e =>
          e.tmrCount t = (tickTo (d.get (TMR_CTL t) TMR_CTL_MODE) (d.tmrPeriod t) (d.tmrCount t) (d.tmrDown t)).count % 2 ^ 48 ∧
          e.flag (TMR_CTL t) TMR_CTL_RUN = true ∧ e.cores = d.cores ∧ ∀ a, e.byte a = d.byte a)) ∧
      ((d.tmrOf t).per = false ∨ d.tmrHeld t = true → Gives (.timerPeriodEnd t) ⟨d, q⟩ d) ∧
      ((d.tmrOf t).per = true → d.tmrHeld t = false → After (.timerPeriodEnd t) ⟨d, q⟩ (fun e => e.flag (TMR_STAT t) TMR_STAT_PERF = true ∧ (e.tmrOf t).per = false ∧
        e.flag (TMR_STAT t) TMR_STAT_OUT = outAct (d.get (TMR_CTL t) TMR_CTL_ACTP) (d.flag (TMR_STAT t) TMR_STAT_OUT))) ∧
      (d.tmrCmpDue t k = false ∨ d.tmrHeld t = true → Gives (.timerCompare t k) ⟨d, q⟩ d) ∧
      (d.tmrCmpDue t k = true → d.tmrHeld t = false → After (.timerCompare t k) ⟨d, q⟩ (fun e => e.tmrCmpDue t k = false ∧
        e.flag (TMR_STAT t) (if k.val = 0 then TMR_STAT_CMP0F else TMR_STAT_CMP1F) = true)) ∧
      (d.fieldOn 1 = true → (d.tmrOf t).capAt = d.clk.cyc + 1 → Gives (.timerCapture t none) ⟨d, q⟩ d) ∧
      (d.fieldOn 1 = true → (d.tmrOf t).capAt ≠ d.clk.cyc + 1 → After (.timerCapture t none) ⟨d, q⟩ (fun e => e.flag (TMR_STAT t) TMR_STAT_CAPF = true ∧
        ((d.tmrOf t).oldAt ≠ d.clk.cyc + 1 → e.reg (TMR_CAP_LO t) = d.reg (TMR_CNT_LO t)) ∧
        (d.flag (TMR_STAT t) TMR_STAT_CAPF = true → e.flag (TMR_STAT t) TMR_STAT_CAPOVR = true))) ∧
      (d.fieldOn 1 = false → Gives (.timerCapture t none) ⟨d, q⟩ d) ∧
      (d.fieldOn 6 = false ∨ d.ballWith 5 t = false → Gives (.timerCapture t (some up)) ⟨d, q⟩ d) ∧
      (BusOpen ⟨d, q⟩ c (TMR_CTL t) true → getF v TMR_CTL_RUN = 0 → After (.timerControlWrite c t v) ⟨d, q⟩ (fun e =>
        e.flag (TMR_CTL t) TMR_CTL_RUN = false ∧ e.get (TMR_STAT t) TMR_STAT_OUT = getF v TMR_CTL_OUTINIT)) ∧
      (BusOpen ⟨d, q⟩ c (TMR_CTL t) true → getF v TMR_CTL_RUN = 1 → (d.tmrOf t).evStop ≠ d.clk.cyc + 1 → After (.timerControlWrite c t v) ⟨d, q⟩ (fun e =>
        e.flag (TMR_CTL t) TMR_CTL_RUN = true ∧ (d.flag (TMR_CTL t) TMR_CTL_RUN = true →
          e.get (TMR_CTL t) TMR_CTL_MODE = d.get (TMR_CTL t) TMR_CTL_MODE ∧ e.get (TMR_CTL t) TMR_CTL_PRESC = d.get (TMR_CTL t) TMR_CTL_PRESC))) ∧
      (BusOpen ⟨d, q⟩ c TMR_GCMD true →
        After (.timerGroupStart c) ⟨d, q⟩ (fun e => (d.tmrOf t).evStop ≠ d.clk.cyc + 1 → e.flag (TMR_CTL t) TMR_CTL_RUN = (d.flag (TMR_CTL t) TMR_CTL_RUN || d.tmrMasked t)) ∧
        After (.timerGroupStop c) ⟨d, q⟩ (fun e => e.flag (TMR_CTL t) TMR_CTL_RUN = (d.flag (TMR_CTL t) TMR_CTL_RUN && !d.tmrMasked t))) ∧
      (BusOpen ⟨d, q⟩ c (tmrHiAddr t w) true →
        let n := ((d.tmrOf t).staged w).getD (d.reg (tmrLoAddr t w)).toNat + 2 ^ 32 * (v.toNat % 2 ^ 16)
        let e := d.setTmr t ((d.tmrOf t).stage w none)
        (w = .per → ¬ (1 ≤ n ∧ n < 2 ^ 47) → Gives (.timerCommit c t w v) ⟨d, q⟩ e) ∧
        (w = .per → 1 ≤ n → n < 2 ^ 47 → Gives (.timerCommit c t w v) ⟨d, q⟩ (e.put48 (TMR_PER_LO t) (TMR_PER_HI t) n)) ∧
        (w = .cnt → After (.timerCommit c t w v) ⟨d, q⟩ (fun g => g.tmrCount t = n % 2 ^ 48 ∧ (g.tmrOf t).arm0 = true ∧ (g.tmrOf t).arm1 = true ∧
          (g.tmrOf t).cntWr = d.clk.cyc + 1 ∧ (∀ a, a ≠ TMR_CNT_LO t → a ≠ TMR_CNT_HI t → g.reg a = d.reg a) ∧ g.cores = d.cores ∧ ∀ a, g.byte a = d.byte a))) ∧
      (d.tmrFrozen t = true → Gives (.lfEdgeCount t) ⟨d, q⟩ d) ∧
      (d.pwr.off = false → d.tmrFrozen t = false → d.flag (TMR_STAT t) TMR_STAT_LFRUN = false → Gives (.lfEdgeCount t) ⟨d, q⟩ (d.putB (TMR_STAT t) TMR_STAT_LFRUN (d.tmrLf t)))) ∧
  (∀ (d : Dev) (q : List Instr) (c : Fin 7) (t : Fin 8) (v : Word) (temp : BitVec 16),
      (BusOpen ⟨d, q⟩ c (RTC_ATLOAD t) true → Gives (.aonTimerWrite c t true v) ⟨d, q⟩
        ((d.setAont t { d.atOf t with load := some v }).put (RTC_ATCTL t) RTC_ATCTL_PEND 1)) ∧
      (BusOpen ⟨d, q⟩ c (RTC_ATCTL t) true → Gives (.aonTimerWrite c t false v) ⟨d, q⟩
        ((d.setAont t { d.atOf t with ctl := some v }).put (RTC_ATCTL t) RTC_ATCTL_PEND 1)) ∧
      (d.pwr.off = false → d.atOf t = AtSt.init → d.flag (RTC_ATCTL t) RTC_ATCTL_RUN = true → After (.aonTimerEdge t) ⟨d, q⟩ (fun e =>
        (0 < (d.reg (RTC_ATCNT t)).toNat → (e.reg (RTC_ATCNT t)).toNat = (d.reg (RTC_ATCNT t)).toNat - 1) ∧ ((e.atOf t).exp = true ↔ d.reg (RTC_ATCNT t) = 1))) ∧
      ((d.atOf t).exp = false → Gives (.aonTimerExpiry t) ⟨d, q⟩ d) ∧
      (d.pwr.off = false → (d.atOf t).exp = true → After (.aonTimerExpiry t) ⟨d, q⟩ (fun e => e.flag (RTC_ATCTL t) RTC_ATCTL_EXPF = true ∧ (e.atOf t).exp = false ∧
        (∀ a, a ≠ RTC_ATCTL t → a ≠ HDL_CNT 0 → e.reg a = d.reg a))) ∧
      (d.pwr.off = false → (∀ u, (d.atOf t).ctl = some u → getF u RTC_ATCTL_RUN = 0) → (d.atOf t).start = false ∨ (d.atOf t).ctl ≠ none →
        d.flag (RTC_ATCTL t) RTC_ATCTL_RUN = true → d.reg (RTC_ATCNT t) = 1 → After (.aonTimerEdge t) ⟨d, q⟩ (fun e =>
          (e.atOf t).exp = true ∧ (e.atOf t).wake = d.flag (RTC_ATCTL t) RTC_ATCTL_WAKE ∧
          (d.flag (RTC_ATCTL t) RTC_ATCTL_PERIODIC = true → e.reg (RTC_ATCNT t) = d.reg (RTC_ATLOAD t)) ∧
          (d.flag (RTC_ATCTL t) RTC_ATCTL_PERIODIC = false → e.reg (RTC_ATCNT t) = 0) ∧
          (e.flag (RTC_ATCTL t) RTC_ATCTL_RUN = true ↔ d.flag (RTC_ATCTL t) RTC_ATCTL_PERIODIC = true ∧ (d.atOf t).ctl = none))) ∧
      (d.pwr.off = false → After .rtcEdge ⟨d, q⟩ (fun e =>
        (d.rtcLocks = true → e.rtcT = d.meshNow ∧ e.flag RTC_STAT RTC_STAT_LOCKED = true) ∧
        (d.rtcLocks = false → d.rtcFNow = 0 → d.clk.rtcFrac < 2 ^ 32 → e.rtcT = (d.rtcT + 3750) % 2 ^ 64))) ∧
      (d.pwr.off = false → After (.rtcTempSample temp) ⟨d, q⟩ (fun e => e.get RTC_STAT RTC_STAT_TEMP = temp.toNat % 2 ^ RTC_STAT_TEMP.width ∧ e.clk.tempOk = true ∧ e.cores = d.cores)) ∧
      (BusOpen ⟨d, q⟩ c RTC_SUB false → Gives (.calendarFreeze c) ⟨d, q⟩
        { d.setCore c { d.core c with cal := some (d.reg RTC_TIME, d.reg RTC_DATE) } with rdata := d.reg RTC_SUB }) ∧
      (d.pwr.off = false → d.flag RTC_CTL RTC_CTL_HALT = true → Gives .calendarHalt ⟨d, q⟩ (d.put RTC_STAT RTC_STAT_HALTED 1)) ∧
      (d.flag RTC_CTL RTC_CTL_HALT = false → Gives .calendarHalt ⟨d, q⟩ d) ∧
      (BusOpen ⟨d, q⟩ c RTC_DATE true → d.flag RTC_STAT RTC_STAT_HALTED = true → dateOk v = true → Gives (.calendarWrite c true v) ⟨d, q⟩ (d.setReg RTC_DATE v)) ∧
      (BusOpen ⟨d, q⟩ c RTC_DATE true → d.flag RTC_STAT RTC_STAT_HALTED = false ∨ dateOk v = false →
        Gives (.calendarWrite c true v) ⟨d, q⟩ (d.put RTC_STAT RTC_STAT_BADSET 1)) ∧
      (BusOpen ⟨d, q⟩ c RTC_TIME true → d.flag RTC_STAT RTC_STAT_HALTED = true → timeOk v = true → Gives (.calendarWrite c false v) ⟨d, q⟩
        (d.setReg RTC_TIME (setF (v &&& 0x00FFFFFF) RTC_TIME_WDAY (d.get RTC_TIME RTC_TIME_WDAY)))) ∧
      (BusOpen ⟨d, q⟩ c RTC_TIME true → timeOk v = false → Gives (.calendarWrite c false v) ⟨d, q⟩ (d.put RTC_STAT RTC_STAT_BADSET 1)) ∧
      (d.pwr.off = false → d.flag RTC_STAT RTC_STAT_HALTED = true → d.flag RTC_CTL RTC_CTL_HALT = false → After .calendarResume ⟨d, q⟩ (fun e =>
        e.flag RTC_STAT RTC_STAT_HALTED = false ∧ e.calK = secOfWords (d.reg RTC_DATE) (d.reg RTC_TIME) * 122880000 % 2 ^ 64)) ∧
      (d.flag RTC_STAT RTC_STAT_HALTED = false → Gives .calendarResume ⟨d, q⟩ d) ∧
      (d.flag RTC_STAT RTC_STAT_HALTED = true → Gives .rtcAlarm ⟨d, q⟩ d ∧ Gives .rtcTick ⟨d, q⟩ d) ∧
      (d.pwr.off = false → d.flag RTC_CTL RTC_CTL_ALEN = true → d.flag RTC_STAT RTC_STAT_HALTED = false →
        calNumber (d.reg RTC_ALDATE) (d.reg RTC_ALTIME) ≤ calNumber (d.reg RTC_DATE) (d.reg RTC_TIME) →
        After .rtcAlarm ⟨d, q⟩ (fun e => e.flag RTC_CTL RTC_CTL_ALEN = false ∧ e.flag RTC_STAT RTC_STAT_ALARMF = true)) ∧
      (d.pwr.off = false → d.flag RTC_STAT RTC_STAT_HALTED = false → tickUnit (d.get RTC_CTL RTC_CTL_TICKSEL) ≠ 0 → d.calK / 122880000 ≤ calLast →
        After .rtcTick ⟨d, q⟩ (fun e => e.clk.lastK = d.calK ∧
          (d.clk.lastK / tickUnit (d.get RTC_CTL RTC_CTL_TICKSEL) < d.calK / tickUnit (d.get RTC_CTL RTC_CTL_TICKSEL) → e.flag RTC_STAT RTC_STAT_TICKF = true))))

/-- The calendar shows what was set (R361, R363): for every date and time that it takes, the second they name is shown as that date and that time of day.
A frame opens to the bytes that were sealed in it (R393). What REGS reads, SETREG writes back: a core set to its own eighteen words is as it was,
where FL's reserved bits read 0 (R260, R415). -/
def Obligations.RoundTrips : Prop :=
  (∀ (date time : Word), dateOk date = true → timeOk time = true →
      calDate (secOfWords date time) = date ∧ calTime (secOfWords date time) &&& 0x00FFFFFF = time &&& 0x00FFFFFF ∧ secOfWords date time ≤ calLast) ∧
  (∀ (l : List Byte), l ≠ [] → nfcOpen (nfcSeal l) = some l) ∧
  (∀ (x : CoreSt), x.fl &&& 0xFFFF = x.fl → x.ofWords (x.words.flatMap (fun w => leBytes 4 w.toNat)) = x ∧ (x.words.flatMap (fun w => leBytes 4 w.toNat)).length = 72)

/-- Which instruction a core runs (R261, R262, R276): a core that is not running, or whose next instruction is another row's, is left as it is; a byte
that cannot be fetched raises FETCH, and a broken rule of prefixes, fields or length raises UD; fetching changes no core, no memory and no lock cell. -/
def Obligations.InstructionPicked : Prop :=
  ∀ (d : Dev) (q : List Instr) (i : Instr) (c : Fin 7) (mn : Mn), vorokRow i = some (c, mn) →
    (d.coreRuns c = false → Gives i ⟨d, q⟩ d) ∧
    (d.coreRuns c = true →
      (∀ a p e, d.fetch c = (.fault a p, e) → Gives i ⟨d, q⟩ (e.enter c (d.fetchExc c a p)).svcDue) ∧
      (∀ b e, d.fetch c = (.whole b, e) →
        ((parse b).mn ≠ mn → Gives i ⟨d, q⟩ d) ∧
        ((parse b).mn = mn → (parse b).bad = true → Gives i ⟨d, q⟩ (e.enter c ⟨excUD, 0, (d.core c).pc, none, none⟩).svcDue)) ∧
      ((d.fetch c).2.cores = d.cores ∧ (d.fetch c).2.mem = d.mem ∧ (d.fetch c).2.locks = d.locks))

/-- Entry to an exception (R260, R274, R277): EPC, EFL, ECAUSE and, where the exception has them, EADDR and ESYN are written, EXL is set, U and IE are
cleared, PC is VBASE plus sixteen times the code and the reservation ends; with EXL set the core stops instead and keeps its registers. -/
def Obligations.ExceptionEntry : Prop :=
  ∀ (d : Dev) (c : Fin 7) (z : Exc),
    (getF (d.core c).fl flEXL = 0 →
      let y := (d.enter c z).core c
      let x := d.core c
      y.epc = z.epc ∧ y.efl = x.fl ∧ y.ecause = BitVec.ofNat 32 (z.code + 256 * z.trap) ∧ y.eaddr = z.eaddr.getD x.eaddr ∧ y.esyn = z.esyn.getD x.esyn ∧
      getF y.fl flEXL = 1 ∧ getF y.fl flU = 0 ∧ getF y.fl flIE = 0 ∧ keepsFl x.fl y.fl [flEXL, flU, flIE] ∧
      y.pc = x.vbase + BitVec.ofNat 32 (16 * z.code) ∧ y.resv = none ∧ y.g = x.g ∧ y.vbase = x.vbase ∧ y.stk = x.stk ∧
      (∀ k, k ≠ c → (d.enter c z).core k = d.core k) ∧ (d.enter c z).regs = d.regs ∧ (d.enter c z).mem = d.mem) ∧
    (getF (d.core c).fl flEXL = 1 →
      (d.enter c z).coreState c = 3 ∧ (d.enter c z).core c = { d.core c with resv := none, dbl := true } ∧
      (∀ k, d.lock k ≠ .held c → (d.enter c z).lock k = d.lock k) ∧ (∀ n, n < 64 → d.lock n = .held c → (d.enter c z).lock n = .orphaned c) ∧
      (d.enter c z).mem = d.mem)

/-- ADD, ADC, SUB, SBB, CMP and NEG in binary, 8, 16 or 32 bits wide (R266, R268): the low bits of d take the result, N and Z come from it, C is the carry
or borrow out, V the signed overflow, HC the carries or borrows out of the nibbles; under NF, FL stays. Completion: for each of these commands a
clause concludes that exec answers the next state given, under conditions on the state and the operands alone: add, adc, sub, sbb, cmp, neg. -/
def Obligations.BinaryArithmetic : Prop :=
  ∀ (d : Dev) (q : List Instr) (c : Fin 7) (k : Ctx) (e : Dev) (row : Instr × Mn × Bool × Bool × Bool × Bool),
    row ∈ [(Instr.add c, Mn.add, false, false, true, false), (.adc c, .adc, false, true, true, false), (.sub c, .sub, true, false, true, false),
      (.sbb c, .sbb, true, true, true, false), (.cmp c, .cmp, true, false, false, false), (.neg c, .neg, true, false, true, true)] →
    Runs d c row.2.1 k e → k.i.has .dec = false → k.i.has .smp = false →
    let sub := row.2.2.1
    let useC := row.2.2.2.1
    let writes := row.2.2.2.2.1
    let neg := row.2.2.2.2.2
    let x := e.core c
    let w := k.i.bits
    let a := if neg then 0 else (x.gr k.i.d).toNat % 2 ^ w
    let b := (if neg then x.gr k.i.d else k.i.rhs x).toNat % 2 ^ w
    let cin := if useC then getF x.fl flC else 0
    let s : Int := if sub then (a : Int) - b - cin else (a : Int) + b + cin
    let t : Int := if sub then sext w a - sext w b - cin else sext w a + sext w b + cin
    CoreGives row.1 ⟨d, q⟩ e c (fun y =>
      MovesOn x k (if writes then [k.i.d] else []) [flHC, flV, flN, flZ, flC] y ∧
      (writes = true → (((y.gr k.i.d).toNat % 2 ^ w : Nat) : Int) = s % (2 ^ w : Nat) ∧ (y.gr k.i.d).toNat / 2 ^ w = (x.gr k.i.d).toNat / 2 ^ w) ∧
      (k.i.has .nf = true → y.fl = x.fl) ∧
      (k.i.has .nf = false →
        (getF y.fl flN = 1 ↔ 2 ^ (w - 1) ≤ (s % (2 ^ w : Nat)).toNat) ∧ (getF y.fl flZ = 1 ↔ s % (2 ^ w : Nat) = 0) ∧
        (getF y.fl flC = 1 ↔ s < 0 ∨ (2 ^ w : Nat) ≤ s) ∧ (getF y.fl flV = 1 ↔ t < -(2 ^ (w - 1) : Nat) ∨ (2 ^ (w - 1) : Nat) ≤ t) ∧
        ∀ j, j < 8 → (getF y.fl flHC).testBit j = (decide (4 * j < w) &&
          (if sub then decide (a % 16 ^ (j + 1) < b % 16 ^ (j + 1) + cin) else decide (16 ^ (j + 1) ≤ a % 16 ^ (j + 1) + b % 16 ^ (j + 1) + cin)))))

/-- Packed decimal arithmetic is exact on valid digits (R269): the sum or difference of n digits modulo ten to the n, valid digits again, the decimal
carry or borrow in C, V clear; an invalid digit sets V. DAJA after ADD and DAJS after SUB give what the DEC form gives, for every pair of valid
packed-decimal values (R270). CVBD and CVDB are inverse to each other on eight digits (R271). -/
def Obligations.DecimalTables : Prop :=
  (∀ (n a b cin : Nat), cin ≤ 1 → (isBcd n a = true → isBcd n b = true →
        isBcd n (decOp false n a b cin).r = true ∧ ofBcd n (decOp false n a b cin).r = (ofBcd n a + ofBcd n b + cin) % 10 ^ n ∧
        ((decOp false n a b cin).c = true ↔ 10 ^ n ≤ ofBcd n a + ofBcd n b + cin) ∧ (decOp false n a b cin).v = false ∧
        isBcd n (decOp true n a b cin).r = true ∧ ofBcd n (decOp true n a b cin).r = (ofBcd n a + 10 ^ n - (ofBcd n b + cin)) % 10 ^ n ∧
        ((decOp true n a b cin).c = true ↔ ofBcd n a < ofBcd n b + cin) ∧ (decOp true n a b cin).v = false) ∧
      (∀ sub, (decOp sub n a b cin).v = true ↔ (isBcd n a = false ∨ isBcd n b = false))) ∧
  (∀ (a b : Nat), a < 2 ^ 32 → b < 2 ^ 32 → isBcd 8 a = true → isBcd 8 b = true →
      (let o := addBin 32 a b 0
       (dajaDigits o.r o.hc 0 0 8).1 = (decOp false 8 a b 0).r ∧ (o.c || decide ((dajaDigits o.r o.hc 0 0 8).2 ≠ 0)) = (decOp false 8 a b 0).c) ∧
      (let o := subBin 32 a b 0
       dajsVal o.r o.hc = (decOp true 8 a b 0).r ∧ o.c = (decOp true 8 a b 0).c)) ∧
  ((∀ s, s < 100000000 → isBcd 8 (toBcd 8 s) = true ∧ toBcd 8 s < 2 ^ 32 ∧ decValue (toBcd 8 s) = s) ∧
    (∀ v, v < 2 ^ 32 → (badDigit 8 v = false ↔ isBcd 8 v = true) ∧ (isBcd 8 v = true → decValue v < 100000000 ∧ toBcd 8 (decValue v) = v)))

/-- The DEC forms, DAJA, DAJS, CVBD, CVDB and CHKD as instructions (R269 to R271): where the result goes and what each flag becomes. Completion: for each
of these commands a clause concludes that exec answers the next state given, under conditions on the state and the operands alone: add, adc, sub, sbb,
cmp, neg, daja, dajs, cvbd, cvdb, chkd. -/
def Obligations.DecimalInstructions : Prop :=
  ∀ (d : Dev) (q : List Instr) (c : Fin 7) (k : Ctx) (e : Dev),
    let x := e.core c
    let v := (x.gr k.i.d).toNat
    let s := (x.gr k.i.s).toNat
    (∀ row : Instr × Mn × Bool × Bool × Bool × Bool, row ∈ [(.add c, .add, false, false, true, false), (.adc c, .adc, false, true, true, false),
        (.sub c, .sub, true, false, true, false), (.sbb c, .sbb, true, true, true, false), (.cmp c, .cmp, true, false, false, false), (.neg c, .neg, true, false, true, true)] →
      Runs d c row.2.1 k e → k.i.has .dec = true → k.i.has .smp = false →
      let w := k.i.bits
      let writes := row.2.2.2.2.1
      let neg := row.2.2.2.2.2
      let o := decOp row.2.2.1 (w / 4) (if neg then 0 else v % 2 ^ w) ((if neg then v else (k.i.rhs x).toNat) % 2 ^ w) (if row.2.2.2.1 then getF x.fl flC else 0)
      CoreGives row.1 ⟨d, q⟩ e c (fun y =>
        MovesOn x k (if writes then [k.i.d] else []) [flHC, flV, flN, flZ, flC] y ∧
        (writes = true → (y.gr k.i.d).toNat % 2 ^ w = o.r ∧ (y.gr k.i.d).toNat / 2 ^ w = v / 2 ^ w) ∧
        (k.i.has .nf = true → y.fl = x.fl) ∧
        (k.i.has .nf = false → (getF y.fl flC = 1 ↔ o.c = true) ∧ (getF y.fl flV = 1 ↔ o.v = true) ∧ (getF y.fl flZ = 1 ↔ o.r = 0) ∧
          (getF y.fl flN = 1 ↔ 5 ≤ nibble o.r (w / 4 - 1)) ∧ getF y.fl flHC = o.hc))) ∧
    (Runs d c .daja k e → CoreGives (.daja c) ⟨d, q⟩ e c (fun y =>
      let r := dajaDigits v (getF x.fl flHC) 0 0 8
      MovesOn x k [k.i.d] [flHC, flV, flN, flZ, flC] y ∧ (y.gr k.i.d).toNat = r.1 ∧ getF y.fl flV = 0 ∧ getF y.fl flHC = 0 ∧
      (getF y.fl flZ = 1 ↔ r.1 = 0) ∧ (getF y.fl flN = 1 ↔ 5 ≤ nibble r.1 7) ∧ (getF y.fl flC = 1 ↔ getF x.fl flC = 1 ∨ r.2 ≠ 0))) ∧
    (Runs d c .dajs k e → CoreGives (.dajs c) ⟨d, q⟩ e c (fun y =>
      let r := dajsVal v (getF x.fl flHC)
      MovesOn x k [k.i.d] [flHC, flV, flN, flZ] y ∧ (y.gr k.i.d).toNat = r ∧ getF y.fl flV = 0 ∧ getF y.fl flHC = 0 ∧
      (getF y.fl flZ = 1 ↔ r = 0) ∧ (getF y.fl flN = 1 ↔ 5 ≤ nibble r 7))) ∧
    (Runs d c .cvbd k e → CoreGives (.cvbd c) ⟨d, q⟩ e c (fun y =>
      MovesOn x k [k.i.d] [flV, flN, flZ, flC] y ∧ (y.gr k.i.d).toNat = toBcd 8 (s % 100000000) ∧ (getF y.fl flC = 1 ↔ 100000000 ≤ s) ∧ getF y.fl flV = 0 ∧
      (getF y.fl flZ = 1 ↔ s % 100000000 = 0) ∧ (getF y.fl flN = 1 ↔ 50000000 ≤ s % 100000000))) ∧
    (Runs d c .cvdb k e → CoreGives (.cvdb c) ⟨d, q⟩ e c (fun y =>
      MovesOn x k [k.i.d] [flV, flN, flZ, flC] y ∧ (y.gr k.i.d).toNat = decValue s ∧ (getF y.fl flV = 1 ↔ badDigit 8 s = true) ∧
      (getF y.fl flZ = 1 ↔ decValue s = 0) ∧ getF y.fl flN = 0 ∧ getF y.fl flC = 0)) ∧
    (Runs d c .chkd k e → CoreGives (.chkd c) ⟨d, q⟩ e c (fun y =>
      MovesOn x k [] [flV, flN, flZ, flC] y ∧ (getF y.fl flV = 1 ↔ badDigit 8 v = true) ∧ (getF y.fl flZ = 1 ↔ v = 0) ∧ getF y.fl flN = 0 ∧ getF y.fl flC = 0))

/-- Logic, moves and single-register operations (R264, R265, R266, R268). Shifts, rotations, products and quotients (R264, R266): a count of 0 leaves C;
the quotient truncates toward zero and the remainder takes the sign of its dividend; a divisor of 0 raises DIVZ and leaves d. Completion: for each of
these commands a clause concludes that exec answers the next state given, under conditions on the state and the operands alone: nop, fenceFull,
fenceLoad, fenceStore, fenceSync, and, or, xor, mov, movs, xchg, not, tst, shl, shr, sar, rol, ror, mul, mulh, mulhu, div, divu, rem, remu, lea, clz,
bswap, sext, movfl. -/
def Obligations.LogicShiftsAndProducts : Prop :=
  (∀ (d : Dev) (q : List Instr) (c : Fin 7) (k : Ctx) (e : Dev),
      let x := e.core c
      let w := k.i.bits
      let a := (x.gr k.i.d).toNat % 2 ^ w
      let b := (k.i.rhs x).toNat % 2 ^ w
      let top := (x.gr k.i.d).toNat / 2 ^ w
      (∀ row : Instr × Mn × Nat × Bool, row ∈ [(.and c, .and, a &&& b, true), (.or c, .or, a ||| b, true), (.xor c, .xor, a ^^^ b, true), (.tst c, .tst, a &&& b, false)] →
        Runs d c row.2.1 k e → CoreGives row.1 ⟨d, q⟩ e c (fun y =>
          let r := row.2.2.1
          MovesOn x k (if row.2.2.2 then [k.i.d] else []) [flV, flN, flZ, flC] y ∧
          (row.2.2.2 = true → (y.gr k.i.d).toNat % 2 ^ w = r ∧ (y.gr k.i.d).toNat / 2 ^ w = top) ∧ (k.i.has .nf = true → y.fl = x.fl) ∧
          (k.i.has .nf = false → (getF y.fl flN = 1 ↔ 2 ^ (w - 1) ≤ r) ∧ (getF y.fl flZ = 1 ↔ r = 0) ∧ getF y.fl flC = 0 ∧ getF y.fl flV = 0))) ∧
      (Runs d c .not k e → CoreGives (.not c) ⟨d, q⟩ e c (fun y =>
        MovesOn x k [k.i.d] [flN, flZ] y ∧ (y.gr k.i.d).toNat % 2 ^ w + a + 1 = 2 ^ w ∧ (y.gr k.i.d).toNat / 2 ^ w = top ∧
        (k.i.has .nf = true → y.fl = x.fl) ∧
        (k.i.has .nf = false → (getF y.fl flN = 1 ↔ a < 2 ^ (w - 1)) ∧ (getF y.fl flZ = 1 ↔ a + 1 = 2 ^ w)))) ∧
      (Runs d c .mov k e → CoreGives (.mov c) ⟨d, q⟩ e c (fun y =>
        MovesOn x k [k.i.d] [] y ∧ y.fl = x.fl ∧ (y.gr k.i.d).toNat % 2 ^ w = b ∧ (y.gr k.i.d).toNat / 2 ^ w = top)) ∧
      (Runs d c .movs k e → CoreGives (.movs c) ⟨d, q⟩ e c (fun y => MovesOn x k [k.i.d] [] y ∧ (y.gr k.i.d).toInt = sext 8 k.i.imm)) ∧
      (Runs d c .xchg k e → CoreGives (.xchg c) ⟨d, q⟩ e c (fun y =>
        MovesOn x k [k.i.d, k.i.s] [] y ∧ y.gr k.i.d = x.gr k.i.s ∧ y.gr k.i.s = x.gr k.i.d)) ∧
      (Runs d c .clz k e → CoreGives (.clz c) ⟨d, q⟩ e c (fun y =>
        let z := (y.gr k.i.d).toNat
        MovesOn x k [k.i.d] [flZ] y ∧ z ≤ 32 ∧ (∀ j, j < z → (x.gr k.i.s).getLsbD (31 - j) = false) ∧ (z < 32 → (x.gr k.i.s).getLsbD (31 - z) = true) ∧
        (k.i.has .nf = true → y.fl = x.fl) ∧ (k.i.has .nf = false → (getF y.fl flZ = 1 ↔ z = 0)))) ∧
      (Runs d c .bswap k e → CoreGives (.bswap c) ⟨d, q⟩ e c (fun y =>
        MovesOn x k [k.i.d] [] y ∧ ∀ j : Fin 4, (y.gr k.i.d).toNat / 256 ^ j.val % 256 = (x.gr k.i.s).toNat / 256 ^ (3 - j.val) % 256)) ∧
      (Runs d c .sext k e → CoreGives (.sext c) ⟨d, q⟩ e c (fun y => MovesOn x k [k.i.d] [] y ∧ (y.gr k.i.d).toInt = sext w (x.gr k.i.s).toNat)) ∧
      (Runs d c .lea k e → CoreGives (.lea c) ⟨d, q⟩ e c (fun y => MovesOn x k [k.i.d] [] y ∧ y.gr k.i.d = k.i.addr x k.next)) ∧
      (Runs d c .movfl k e → CoreGives (.movfl c) ⟨d, q⟩ e c (fun y => MovesOn x k [k.i.d] [] y ∧ y.gr k.i.d = x.fl)) ∧
      (∀ row ∈ [(Instr.nop c, Mn.nop), (.fenceFull c, .fenceFull), (.fenceLoad c, .fenceLoad), (.fenceStore c, .fenceStore), (.fenceSync c, .fenceSync)],
        Runs d c row.2 k e → CoreGives row.1 ⟨d, q⟩ e c (fun y => y = { x with pc := k.next }))) ∧
  (∀ (d : Dev) (q : List Instr) (c : Fin 7) (k : Ctx) (e : Dev),
      let x := e.core c
      let a := x.gr k.i.d
      let b := x.gr k.i.s
      let n := (if k.i.form = .ri8 then k.i.imm else b.toNat) % 32
      let nz := fun (y : CoreSt) => (getF y.fl flN = 1 ↔ (y.gr k.i.d).getLsbD 31 = true) ∧ (getF y.fl flZ = 1 ↔ y.gr k.i.d = 0)
      (∀ row : Instr × Mn × (Word → Prop) × Nat, row ∈ [
          (.shl c, .shl, fun r => r.toNat = a.toNat * 2 ^ n % 2 ^ 32, 32 - n), (.shr c, .shr, fun r => r.toNat = a.toNat / 2 ^ n, n - 1),
          (.sar c, .sar, fun r => r.toInt = a.toInt / (2 ^ n : Nat), n - 1),
          (.rol c, .rol, fun r => ∀ j, j < 32 → r.getLsbD ((j + n) % 32) = a.getLsbD j, 32 - n),
          (.ror c, .ror, fun r => ∀ j, j < 32 → r.getLsbD j = a.getLsbD ((j + n) % 32), n - 1)] →
        Runs d c row.2.1 k e → k.i.has .smp = false → CoreGives row.1 ⟨d, q⟩ e c (fun y =>
          MovesOn x k [k.i.d] [flV, flN, flZ, flC] y ∧ row.2.2.1 (y.gr k.i.d) ∧ (k.i.has .nf = true → y.fl = x.fl) ∧
          (k.i.has .nf = false → nz y ∧ getF y.fl flV = 0 ∧ (n = 0 → getF y.fl flC = getF x.fl flC) ∧
            (n ≠ 0 → (getF y.fl flC = 1 ↔ a.getLsbD row.2.2.2 = true))))) ∧
      (Runs d c .mul k e → k.i.has .smp = false → CoreGives (.mul c) ⟨d, q⟩ e c (fun y =>
        let p := a.toInt * b.toInt
        MovesOn x k [k.i.d] [flV, flN, flZ, flC] y ∧ y.gr k.i.d = a * b ∧ (k.i.has .nf = true → y.fl = x.fl) ∧
        (k.i.has .nf = false → nz y ∧ (getF y.fl flC = 1 ↔ p ≠ (a * b).toInt) ∧ (getF y.fl flV = 1 ↔ p ≠ (a * b).toInt)))) ∧
      (∀ row : Instr × Mn × (Word → Prop), row ∈ [
          (.mulh c, .mulh, fun r => r.toInt = a.toInt * b.toInt / (2 ^ 32 : Nat)), (.mulhu c, .mulhu, fun r => r.toNat = a.toNat * b.toNat / 2 ^ 32)] →
        Runs d c row.2.1 k e → CoreGives row.1 ⟨d, q⟩ e c (fun y =>
          MovesOn x k [k.i.d] [flV, flN, flZ, flC] y ∧ row.2.2 (y.gr k.i.d) ∧ (k.i.has .nf = true → y.fl = x.fl) ∧
          (k.i.has .nf = false → nz y ∧ getF y.fl flC = 0 ∧ getF y.fl flV = 0))) ∧
      (∀ row : Instr × Mn × (Word → Prop) × Bool, row ∈ [
          (.div c, .div, fun r => if a = 0x80000000 ∧ b = 0xFFFFFFFF then r = 0x80000000 else r.toInt = a.toInt.tdiv b.toInt, true),
          (.divu c, .divu, fun r => r.toNat = a.toNat / b.toNat, false), (.rem c, .rem, fun r => r.toInt = a.toInt.tmod b.toInt, false),
          (.remu c, .remu, fun r => r.toNat = a.toNat % b.toNat, false)] →
        Runs d c row.2.1 k e →
          (b = 0 → Takes row.1 ⟨d, q⟩ e c ⟨excDIVZ, 0, k.pc, none, none⟩) ∧
          (b ≠ 0 → CoreGives row.1 ⟨d, q⟩ e c (fun y =>
            MovesOn x k [k.i.d] [flV, flN, flZ, flC] y ∧ row.2.2.1 (y.gr k.i.d) ∧ (k.i.has .nf = true → y.fl = x.fl) ∧
            (k.i.has .nf = false → nz y ∧ getF y.fl flC = 0 ∧ (getF y.fl flV = 1 ↔ row.2.2.2 = true ∧ a = 0x80000000 ∧ b = 0xFFFFFFFF))))))

/-- Sample pairs (R272): each lane by itself, saturated to twelve bits and written with sign extension; Z when both lanes are 0, V when one saturates, QS
with V, and N, C and HC as they were. Completion: for each of these commands a clause concludes that exec answers the next state given, under
conditions on the state and the operands alone: add, sub, neg, sar, mul, spmulc, spmag. -/
def Obligations.SamplePairs : Prop :=
  ∀ (d : Dev) (q : List Instr) (c : Fin 7) (k : Ctx) (e : Dev),
    let x := e.core c
    let a := x.gr k.i.d
    let b := x.gr k.i.s
    (∀ row : Instr × Mn × Bool × Int × Int, row ∈ [
        (.add c, .add, true, laneI a + laneI b, laneQ a + laneQ b), (.sub c, .sub, true, laneI a - laneI b, laneQ a - laneQ b),
        (.neg c, .neg, true, -laneI a, -laneQ a), (.sar c, .sar, true, laneI a / (2 ^ k.i.imm : Nat), laneQ a / (2 ^ k.i.imm : Nat)),
        (.mul c, .mul, true, (laneI a * laneI b - laneQ a * laneQ b + 1024) / 2048, (laneI a * laneQ b + laneQ a * laneI b + 1024) / 2048),
        (.spmulc c, .spmulc, false, (laneI a * laneI b + laneQ a * laneQ b + 1024) / 2048, (laneQ a * laneI b - laneI a * laneQ b + 1024) / 2048)] →
      Runs d c row.2.1 k e → (row.2.2.1 = true → k.i.has .smp = true ∧ k.i.size = 4) → CoreGives row.1 ⟨d, q⟩ e c (fun y =>
        let i := row.2.2.2.1
        let j := row.2.2.2.2
        let sat := decide (i < -2048 ∨ 2047 < i ∨ j < -2048 ∨ 2047 < j)
        MovesOn x k [k.i.d] [flQS, flV, flZ] y ∧
        laneI (y.gr k.i.d) = max (-2048) (min 2047 i) ∧ laneQ (y.gr k.i.d) = max (-2048) (min 2047 j) ∧ pairWord (laneI (y.gr k.i.d)) (laneQ (y.gr k.i.d)) = y.gr k.i.d ∧
        (k.i.has .nf = true → y.fl = x.fl) ∧
        (k.i.has .nf = false → (getF y.fl flZ = 1 ↔ i = 0 ∧ j = 0) ∧ (getF y.fl flV = 1 ↔ sat = true) ∧
          (getF y.fl flQS = 1 ↔ sat = true ∨ getF x.fl flQS = 1)))) ∧
    (Runs d c .spmag k e → CoreGives (.spmag c) ⟨d, q⟩ e c (fun y =>
      MovesOn x k [k.i.d] [flZ] y ∧ (((y.gr k.i.d).toNat : Nat) : Int) = laneI b * laneI b + laneQ b * laneQ b ∧ (y.gr k.i.d).toNat ≤ 8388608 ∧
      (k.i.has .nf = true → y.fl = x.fl) ∧ (k.i.has .nf = false → (getF y.fl flZ = 1 ↔ y.gr k.i.d = 0)))) ∧
    (∀ w : Word, captureTo (captureOf w) = pairWord (laneI w) (laneQ w)) ∧ (∀ v, v < 2 ^ 24 → captureOf (captureTo v) = v)

/-- Jumps, calls and the stack (R264, R267): a branch is taken where its condition of Table 13.6 holds; a push stores below SP and a pop loads at SP, in
RAM open to the core; SP off a multiple of 4 raises ALIGN. Completion: for each of these commands a clause concludes that exec answers the next state
given, under conditions on the state and the operands alone: ret, bcc, push, pop, call, callr, jmp, jmpr. -/
def Obligations.JumpsAndStack : Prop :=
  ∀ (d : Dev) (q : List Instr) (c : Fin 7) (k : Ctx) (e : Dev),
    let x := e.core c
    let fl := x.fl
    let f := fun (g : Fld) => getF fl g
    let holds : List Prop := [f flZ = 1, f flZ = 0, f flC = 1, f flC = 0, f flN = 1, f flN = 0, f flV = 1, f flV = 0, f flC = 0 ∧ f flZ = 0,
      f flC = 1 ∨ f flZ = 1, f flN = f flV, f flN ≠ f flV, f flZ = 0 ∧ f flN = f flV, f flZ = 1 ∨ f flN ≠ f flV, True]
    let rel : Word := k.next + (if k.i.form = .j8 then BitVec.ofInt 32 (sext 8 k.i.imm) else BitVec.ofNat 32 k.i.imm)
    let sp := x.gr spReg
    (Runs d c .bcc k e → ∀ p, holds[k.i.op % 16]? = some p →
      (p → CoreGives (.bcc c) ⟨d, q⟩ e c (fun y => y = { x with pc := rel })) ∧ (¬ p → CoreGives (.bcc c) ⟨d, q⟩ e c (fun y => y = { x with pc := k.next }))) ∧
    (Runs d c .jmp k e → CoreGives (.jmp c) ⟨d, q⟩ e c (fun y => y = { x with pc := rel })) ∧
    (Runs d c .jmpr k e → CoreGives (.jmpr c) ⟨d, q⟩ e c (fun y => y = { x with pc := x.gr k.i.d })) ∧
    (∀ row : Instr × Mn × Word × Word, row ∈ [(.push c, .push, (if k.i.d = spReg then sp - 4 else x.gr k.i.d), k.next), (.call c, .call, k.next, rel),
        (.callr c, .callr, k.next, if k.i.d = spReg then sp - 4 else x.gr k.i.d)] →
      Runs d c row.2.1 k e →
        ((sp - 4).toNat % 4 ≠ 0 → Takes row.1 ⟨d, q⟩ e c ⟨excALIGN, 0, k.pc, some (sp - 4), none⟩) ∧
        ((sp - 4).toNat % 4 = 0 → RamOpen e (e.acc k .store true false) c (sp - 4).toNat 4 → After row.1 ⟨d, q⟩ (fun t =>
          Stored e t (sp - 4).toNat 4 row.2.2.1.toNat ∧ (t.core c).pc = row.2.2.2 ∧ (t.core c).gr spReg = sp - 4 ∧
          (∀ n, n ≠ spReg → (t.core c).gr n = x.gr n) ∧ (t.core c).fl = x.fl))) ∧
    (∀ row ∈ [(Instr.pop c [], Mn.pop), (.ret c [], .ret)], Runs d c row.2 k e →
        (sp.toNat % 4 ≠ 0 → Takes row.1 ⟨d, q⟩ e c ⟨excALIGN, 0, k.pc, some sp, none⟩) ∧
        (sp.toNat % 4 = 0 → RamOpen e (e.acc k .load true false) c sp.toNat 4 → CoreGives row.1 ⟨d, q⟩ ((e.wakes sp.toNat 4).cached c false sp.toNat 4) c (fun y =>
          let v := BitVec.ofNat 32 (e.load sp.toNat 4)
          y.fl = x.fl ∧ (row.2 = .ret → y.pc = v ∧ y.gr spReg = sp + 4 ∧ x.agree y [spReg]) ∧
          (row.2 = .pop → y.pc = k.next ∧ y.gr k.i.d = v ∧ (k.i.d ≠ spReg → y.gr spReg = sp + 4) ∧ x.agree y [spReg, k.i.d]))))

/-- Loads, stores and exclusives in RAM (R263, R268, R273, R274): little-endian, extended as the instruction says, no other byte of memory touched; a
misaligned access raises ALIGN; STX stores only while the core holds the reservation on the 64-byte granule, and any store ends the other cores'
reservations on it. Completion: for each of these commands a clause concludes that exec answers the next state given, under conditions on the state
and the operands alone: ld, st, lds, ldx, stx, ldsp, stsp. -/
def Obligations.LoadsAndStores : Prop :=
  ∀ (d : Dev) (q : List Instr) (c : Fin 7) (k : Ctx) (e : Dev),
    let x := e.core c
    let a := k.i.addr x k.next
    let n := k.i.size
    let v := (x.gr k.i.d).toNat
    let kept := fun (t : Dev) => (t.core c).pc = k.next ∧ (t.core c).g = x.g ∧ (t.core c).resv = x.resv ∧
      ∀ j, j ≠ c → (t.core j).g = (e.core j).g ∧ (t.core j).pc = (e.core j).pc ∧
        (∀ y, a.toNat ≤ y → y < a.toNat + n → (e.core j).resv = some (y / 64) → (t.core j).resv = none) ∧
        ((∀ y, a.toNat ≤ y → y < a.toNat + n → (e.core j).resv ≠ some (y / 64)) → (t.core j).resv = (e.core j).resv)
    (∀ row ∈ [(Instr.ld c [], Mn.ld, false), (.lds c [], .lds, true)], Runs d c row.2.1 k e →
      (a.toNat % n ≠ 0 → Takes row.1 ⟨d, q⟩ e c ⟨excALIGN, 0, k.pc, some a, none⟩) ∧
      (a.toNat % n = 0 → RamOpen e (e.acc k .load (decide (n = 4)) false) c a.toNat n → CoreGives row.1 ⟨d, q⟩ ((e.wakes a.toNat n).cached c false a.toNat n) c (fun y =>
        MovesOn x k [k.i.d] [] y ∧ (row.2.2 = false → (y.gr k.i.d).toNat = e.load a.toNat n) ∧
        (row.2.2 = true → (y.gr k.i.d).toInt = sext (8 * n) (e.load a.toNat n))))) ∧
    (Runs d c .st k e →
      (a.toNat % n ≠ 0 → Takes (.st c []) ⟨d, q⟩ e c ⟨excALIGN, 0, k.pc, some a, none⟩) ∧
      (a.toNat % n = 0 → RamOpen e (e.acc k .store (decide (n = 4)) false) c a.toNat n → After (.st c []) ⟨d, q⟩ (fun t => Stored e t a.toNat n v ∧ kept t))) ∧
    (Runs d c .ldx k e → a.toNat % 4 = 0 → RamOpen e (e.acc k .load true true) c a.toNat 4 → CoreGives (.ldx c []) ⟨d, q⟩ ((e.wakes a.toNat 4).cached c false a.toNat 4) c (fun y =>
      y.pc = k.next ∧ y.fl = x.fl ∧ y.resv = some (a.toNat / 64) ∧ (y.gr k.i.d).toNat = e.load a.toNat 4 ∧ ∀ j, j ≠ k.i.d → y.gr j = x.gr j)) ∧
    (Runs d c .stx k e → a.toNat % 4 ≠ 0 → Takes (.stx c) ⟨d, q⟩ e c ⟨excALIGN, 0, k.pc, some a, none⟩) ∧
    (Runs d c .stx k e → a.toNat % 4 = 0 → RamOpen e (e.acc k .store true true) c a.toNat 4 →
      (x.resv = some (a.toNat / 64) → After (.stx c) ⟨d, q⟩ (fun t => Stored e t a.toNat 4 v ∧ getF (t.core c).fl flZ = 1 ∧ keepsFl x.fl (t.core c).fl [flZ] ∧
        (t.core c).resv = none ∧ (t.core c).pc = k.next ∧ (t.core c).g = x.g ∧ ∀ j, j ≠ c → (e.core j).resv = some (a.toNat / 64) → (t.core j).resv = none)) ∧
      (x.resv ≠ some (a.toNat / 64) → CoreGives (.stx c) ⟨d, q⟩ e c (fun y =>
        y.pc = k.next ∧ y.g = x.g ∧ getF y.fl flZ = 0 ∧ keepsFl x.fl y.fl [flZ] ∧ y.resv = none))) ∧
    (Runs d c .ldsp k e → RamOpen e (e.acc k .load false false) c a.toNat 3 → CoreGives (.ldsp c []) ⟨d, q⟩ ((e.wakes a.toNat 3).cached c false a.toNat 3) c (fun y =>
      MovesOn x k [k.i.d] [] y ∧ y.gr k.i.d = captureTo (e.load a.toNat 3))) ∧
    (Runs d c .stsp k e → RamOpen e (e.acc k .store false false) c a.toNat 3 → After (.stsp c []) ⟨d, q⟩ (fun t =>
      Stored e t a.toNat 3 (captureOf (x.gr k.i.d)) ∧ (t.core c).pc = k.next ∧ (t.core c).g = x.g ∧ (t.core c).fl = x.fl))

/-- System instructions (R260, R275 to R279, R284, R285, R415): the exceptions that TRAP, BRK and UD raise, what supervisor mode alone may do, the system
registers, and what a reserved opcode may at most do. Completion: for each of these commands a clause concludes that exec answers the next state
given, under conditions on the state and the operands alone: halt, trap, iret, brk, ud, setfl, csrr, csrw, reservedOpcode. -/
def Obligations.SystemInstructions : Prop :=
  ∀ (d : Dev) (q : List Instr) (c : Fin 7) (k : Ctx) (e : Dev) (len : Nat) (g : List Word) (w : Word),
    let x := e.core c
    let u := decide (getF x.fl flU = 1)
    let v := x.gr k.i.d
    (Runs d c .trap k e → Takes (.trap c) ⟨d, q⟩ e c ⟨excTRAP, k.i.imm, k.next, none, none⟩) ∧
    (Runs d c .ud k e → Takes (.ud c) ⟨d, q⟩ e c ⟨excUD, 0, k.pc, none, none⟩) ∧
    (Runs d c .brk k e → e.flag SVC_STAT SVC_STAT_SESSION = false → Takes (.brk c) ⟨d, q⟩ e c ⟨excBRK, 0, k.pc, none, none⟩) ∧
    (Runs d c .brk k e → e.flag SVC_STAT SVC_STAT_SESSION = true → After (.brk c) ⟨d, q⟩ (fun t => t.coreState c = 5 ∧ (t.core c).pc = k.next ∧ (t.core c).g = x.g)) ∧
    (Runs d c .halt k e → u = false → Gives (.halt c) ⟨d, q⟩ ((e.setCore c { x with pc := k.next }).setCoreState c 2)) ∧
    (Runs d c .iret k e → u = false → CoreGives (.iret c) ⟨d, q⟩ e c (fun y => y = { x with pc := x.epc, fl := x.efl, resv := none })) ∧
    (∀ row ∈ [(Instr.halt c, Mn.halt), (.iret c, .iret)], Runs d c row.2 k e → u = true → Takes row.1 ⟨d, q⟩ e c ⟨excPRIV, 0, k.pc, none, none⟩) ∧
    (Runs d c .setfl k e → CoreGives (.setfl c) ⟨d, q⟩ e c (fun y =>
      y.pc = k.next ∧ y.g = x.g ∧ getF y.fl ⟨12, 0⟩ = getF v ⟨12, 0⟩ ∧ getF y.fl ⟨31, 16⟩ = 0 ∧ getF y.fl flU = getF x.fl flU ∧
      (u = true → getF y.fl flEXL = getF x.fl flEXL ∧ getF y.fl flIE = getF x.fl flIE) ∧
      (u = false → getF y.fl flEXL = getF v flEXL ∧ getF y.fl flIE = getF v flIE))) ∧
    (∀ row ∈ [(Instr.csrr c, Mn.csrr), (.csrw c, .csrw)], Runs d c row.2 k e → k.i.imm ∉ [0x00, 0x10, 0x11, 0x12, 0x13, 0x14, 0x15, 0x20, 0x21] →
      Takes row.1 ⟨d, q⟩ e c ⟨excUD, 0, k.pc, none, none⟩) ∧
    (Runs d c .csrr k e → u = true → k.i.imm ∈ [0x10, 0x11, 0x12, 0x13, 0x14, 0x15] → Takes (.csrr c) ⟨d, q⟩ e c ⟨excPRIV, 0, k.pc, none, none⟩) ∧
    (Runs d c .csrw k e → u = true → k.i.imm ∈ [0x00, 0x10, 0x11, 0x12, 0x13, 0x14, 0x15, 0x20, 0x21] → Takes (.csrw c) ⟨d, q⟩ e c ⟨excPRIV, 0, k.pc, none, none⟩) ∧
    (∀ row ∈ [(0x00, BitVec.ofNat 32 c.val), (0x20, x.cycle.setWidth 32), (0x21, x.cycleHi)], Runs d c .csrr k e → k.i.imm = row.1 →
      CoreGives (.csrr c) ⟨d, q⟩ e c (fun y => y.pc = k.next ∧ y.fl = x.fl ∧ y.gr k.i.d = row.2 ∧ (∀ n, n ≠ k.i.d → y.gr n = x.gr n) ∧ y.cycle = x.cycle ∧
        (row.1 = 0x20 → y.cycleHi = (x.cycle >>> 32).setWidth 32))) ∧
    (∀ row ∈ [(0x10, x.vbase), (0x11, x.epc), (0x12, x.efl), (0x13, x.ecause), (0x14, x.eaddr), (0x15, x.esyn)], Runs d c .csrr k e → u = false →
      k.i.imm = row.1 → CoreGives (.csrr c) ⟨d, q⟩ e c (fun y => MovesOn x k [k.i.d] [] y ∧ y.gr k.i.d = row.2)) ∧
    (∀ row ∈ [(0x10, { x with vbase := v &&& 0xFFFFFF00 }), (0x11, { x with epc := v }), (0x12, { x with efl := v &&& 0xFFFF }),
        (0x13, { x with ecause := v &&& 0xFFFF }), (0x14, { x with eaddr := v })], Runs d c .csrw k e → u = false → k.i.imm = row.1 →
      CoreGives (.csrw c) ⟨d, q⟩ e c (fun y => y = { row.2 with pc := k.next })) ∧
    (Runs d c .reserved k e → CoreGives (.reservedOpcode c len g w [] none) ⟨d, q⟩ e c (fun y =>
      (∃ n, 1 ≤ n ∧ n ≤ 9 ∧ y.pc = k.pc + BitVec.ofNat 32 n) ∧ getF y.fl ⟨15, 13⟩ = getF x.fl ⟨15, 13⟩ ∧ getF y.fl ⟨12, 0⟩ = getF w ⟨12, 0⟩ ∧
      y.epc = x.epc ∧ y.vbase = x.vbase ∧ y.resv = x.resv))

/-- A request for a reservation (R40): granted, it leaves the sum of all reservations at or below the ceiling; refused, it changes no reservation and
counts with the block's number. -/
def Obligations.PowerCeilingHolds : Prop :=
  ∀ (d : Dev) (h mw blk : Nat),
    ((d.requestResv h mw blk).1 = true →
      (d.requestResv h mw blk).2.reserved ≤ d.get PWR_CEIL PWR_CEIL_CEIL ∧ (d.requestResv h mw blk).2.resvOf h = mw ∧
      (∀ k, k ≠ h → (d.requestResv h mw blk).2.resvOf k = d.resvOf k) ∧
      (d.requestResv h mw blk).2.get PWR_CEIL PWR_CEIL_CEIL = d.get PWR_CEIL PWR_CEIL_CEIL ∧
      (d.requestResv h mw blk).2.get PWR_CEIL PWR_CEIL_RSVD = (d.requestResv h mw blk).2.reserved % 2 ^ 16) ∧
    ((d.requestResv h mw blk).1 = false →
      (d.requestResv h mw blk).2.pwr = d.pwr ∧ (d.requestResv h mw blk).2.get PWR_CEILREF PWR_CEILREF_BLOCK = blk % 2 ^ 6 ∧
      (d.get PWR_CEILREF PWR_CEILREF_COUNT < 0xFFFF → (d.requestResv h mw blk).2.get PWR_CEILREF PWR_CEILREF_COUNT = d.get PWR_CEILREF PWR_CEILREF_COUNT + 1) ∧
      (∀ a, a ≠ PWR_CEILREF → (d.requestResv h mw blk).2.reg a = d.reg a))

/-- Performance levels (R367): a lower level is taken with its reservation kept to the end, a higher one needs its reservation and no OVER, a level being
changed or held in reset is refused, and the end releases the difference; changes are applied one at a time, the lowest core first, and a lowering
switches the clock first. Completion: for each of these commands a clause concludes that exec answers the next state given, under conditions on the
state and the operands alone: levelChange, levelChangeEnd. -/
def Obligations.PerformanceLevels : Prop :=
  ∀ (d : Dev) (q : List Instr) (c t : Fin 7) (v : Word),
    let a := PWR_PLEVEL t
    let new := getF v PWR_PLEVEL_LEVEL
    let old := d.get a PWR_PLEVEL_LEVEL
    (BusOpen ⟨d, q⟩ c a true →
      (d.flag a PWR_PLEVEL_BUSY = true → Gives (.levelChange c t v) ⟨d, q⟩ d) ∧
      (d.flag a PWR_PLEVEL_BUSY = false → d.planLevel t = 0xFF → Gives (.levelChange c t v) ⟨d, q⟩ (d.put a PWR_PLEVEL_ERR 3)) ∧
      (d.flag a PWR_PLEVEL_BUSY = false → d.planLevel t ≠ 0xFF →
        (new = old → Gives (.levelChange c t v) ⟨d, q⟩ d) ∧
        (old < new → Gives (.levelChange c t v) ⟨d, q⟩ ((d.put a PWR_PLEVEL_LEVEL new).put a PWR_PLEVEL_BUSY 1).levelNext) ∧
        (new < old → d.flag PWR_MON PWR_MON_OVER = true → Gives (.levelChange c t v) ⟨d, q⟩ (d.put a PWR_PLEVEL_ERR 2)) ∧
        (new < old → d.flag PWR_MON PWR_MON_OVER = false → d.resvFits (resvCore t) (coreMw new) = true →
          Gives (.levelChange c t v) ⟨d, q⟩ (((d.setResv (resvCore t) (coreMw new)).put a PWR_PLEVEL_LEVEL new).put a PWR_PLEVEL_BUSY 1).levelNext) ∧
        (new < old → d.flag PWR_MON PWR_MON_OVER = false → d.resvFits (resvCore t) (coreMw new) = false →
          Gives (.levelChange c t v) ⟨d, q⟩ ((d.refuseResv (26 + t)).put a PWR_PLEVEL_ERR 1)))) ∧
    (d.flag a PWR_PLEVEL_BUSY = false → Gives (.levelChangeEnd t) ⟨d, q⟩ d) ∧
    (d.flag a PWR_PLEVEL_BUSY = true → d.pwr.lvlRun ≠ some t.val → old ≠ d.get a PWR_PLEVEL_CUR → Gives (.levelChangeEnd t) ⟨d, q⟩ d) ∧
    (d.flag a PWR_PLEVEL_BUSY = true → d.pwr.lvlRun = some t.val ∨ old = d.get a PWR_PLEVEL_CUR → After (.levelChangeEnd t) ⟨d, q⟩ (fun e =>
      e.get a PWR_PLEVEL_CUR = old ∧ e.flag a PWR_PLEVEL_BUSY = false ∧ e.get a PWR_PLEVEL_LEVEL = old ∧ e.resvOf (resvCore t) = coreMw old ∧
      e.cores = d.cores ∧ (∀ y, e.byte y = d.byte y) ∧
      (d.pwr.lvlRun = some t.val → e.pwr.lvlRun = (span 0 7).find? (fun k => d.flag (PWR_PLEVEL k) PWR_PLEVEL_BUSY && decide (k ≠ t.val))))) ∧
    (∀ k, k < 7 → d.pwr.lvlRun = none → d.flag (PWR_PLEVEL k) PWR_PLEVEL_BUSY = true → (∀ j, j < k → d.flag (PWR_PLEVEL j) PWR_PLEVEL_BUSY = false) →
      d.levelNext.pwr.lvlRun = some k ∧
      d.levelNext.get (PWR_PLEVEL k) PWR_PLEVEL_CUR = max (d.get (PWR_PLEVEL k) PWR_PLEVEL_CUR) (d.get (PWR_PLEVEL k) PWR_PLEVEL_LEVEL) ∧
      ∀ y, y ≠ PWR_PLEVEL k → d.levelNext.reg y = d.reg y)

/-- Requests for a state and the answers of the participants (R368, R370, R371): a request that the plan does not permit is counted as refused, the
participants answer one after another, the last agreement enters the state, and a refusal or a timeout releases everyone; HOST refuses while a frame
of the host is in progress (R432). Waking, LISTEN windows and INSPECT (R369, R371, R373 to R375): a reason wakes only where it is enabled and the
state lists it; it aborts an entry under way, ends IDLE, or powers the fields up until the wake is complete; of several reasons in one cycle the one
with the lower code is taken. Completion: for each of these commands a clause concludes that exec answers the next state given, under conditions on
the state and the operands alone: supplyLowWarning, supplyLowClear, thermalShutdown, referenceFailure, lfCrystalFailure, rtcEdge, calendarHalt,
calendarResume, rtcAlarm, rtcTick, requestIdle, requestListen, requestFallow, requestOff, participantAnswer, participantTimeout, wake, wakeComplete,
listenWindowOpen, listenWindowClose, closeRetry, inspectEntry, inspectExit. -/
def Obligations.PowerStates : Prop :=
  (∀ (d : Dev) (q : List Instr) (c : Fin 7) (e : PwrEntry) (b : Nat) (r : List Nat) (i : Instr),
      (∀ row ∈ [(Instr.requestIdle c, 1), (.requestListen c, 2), (.requestFallow c, 3), (.requestOff c, 4)], BusOpen ⟨d, q⟩ c PWR_REQ true →
        (d.pwr.entry ≠ none ∨ d.pwrState ≠ 0 → Gives row.1 ⟨d, q⟩ d) ∧
        (d.pwr.entry = none → d.pwrState = 0 → (d.plan8 tPOWER 0 3).testBit (row.2 - 1) = false →
          Gives row.1 ⟨d, q⟩ (((d.count PWR_REF).put PWR_REF PWR_REF_REASON 3).put PWR_REF PWR_REF_STATE row.2)) ∧
        (d.pwr.entry = none → d.pwrState = 0 → (d.plan8 tPOWER 0 3).testBit (row.2 - 1) = true →
          (d.toAsk ⟨row.2, [], false⟩ ≠ [] → Gives row.1 ⟨d, q⟩ (d.setEntry (some ⟨row.2, [], false⟩))) ∧
          (d.toAsk ⟨row.2, [], false⟩ = [] → Gives row.1 ⟨d, q⟩ (d.entryDone row.2 false)))) ∧
      (d.pwr.entry = none → Gives .participantAnswer ⟨d, q⟩ d ∧ Gives .participantTimeout ⟨d, q⟩ d) ∧
      (d.pwr.entry = some e → d.toAsk e = b :: r →
        (b = 15 → isHostFrame i = true → i ∈ q → After .participantAnswer ⟨d, q⟩ (fun t =>
          t.pwr.entry = none ∧ t.get PWR_REF PWR_REF_BLOCK = 15 ∧ t.get PWR_REF PWR_REF_REASON = 1 ∧ t.pwrState = d.pwrState)) ∧
        (b ≠ 15 ∨ ¬ q.any isHostFrame →
        (d.answer e.target b = none → Gives .participantAnswer ⟨d, q⟩ d) ∧
        (d.answer e.target b = some true → r ≠ [] → Gives .participantAnswer ⟨d, q⟩ (d.setEntry (some { e with agreed := e.agreed ++ [b] }))) ∧
        (d.answer e.target b = some true → r = [] → Gives .participantAnswer ⟨d, q⟩ (d.entryDone e.target e.window)) ∧
        (d.answer e.target b = some false → After .participantAnswer ⟨d, q⟩ (fun t =>
          t.pwr.entry = none ∧ t.flag PWR_STAT PWR_STAT_ENTERING = false ∧ t.get PWR_REF PWR_REF_BLOCK = b ∧ t.get PWR_REF PWR_REF_REASON = 1 ∧
          t.get PWR_REF PWR_REF_STATE = e.target % 16 ∧ t.pwrState = d.pwrState ∧ t.cores = d.cores ∧ ∀ y, t.byte y = d.byte y)) ∧
        (d.answer e.target b ≠ none → Gives .participantTimeout ⟨d, q⟩ d) ∧
        (d.answer e.target b = none → After .participantTimeout ⟨d, q⟩ (fun t =>
          t.pwr.entry = none ∧ t.get PWR_REF PWR_REF_BLOCK = b ∧ t.get PWR_REF PWR_REF_REASON = 2 ∧ t.pwrState = d.pwrState ∧ t.cores = d.cores)))) ∧
      (d.pwr.off = true → ∀ j ∈ [Instr.supplyLowWarning, .supplyLowClear, .rtcEdge, .rtcAlarm, .rtcTick, .calendarHalt, .calendarResume, .referenceFailure,
        .lfCrystalFailure, .thermalShutdown], Gives j ⟨d, q⟩ d) ∧
      (∀ p, d.entryDone 1 false = p → p.pwrState = 1 ∧ p.pwr.entry = none ∧ p.cores = d.cores ∧ ∀ y, p.byte y = d.byte y)) ∧
  (∀ (d : Dev) (q : List Instr) (r : Fin 12) (e : PwrEntry) (m : Nat),
      (d.pwr.off = true → r.val ≠ 1 → Gives (.wake r) ⟨d, q⟩ d) ∧
      (d.pwr.off = true → r.val = 1 → Gives (.wake r) ⟨d, q⟩ (Dev.startUp { d with pwr := { d.pwr with off := false, fields := PowerSt.init.fields } })) ∧
      (d.pwr.off = false → d.wakeEnabled r = false ∨ d.wakeSource r = false ∨ d.pwr.waking ≠ none → Gives (.wake r) ⟨d, q⟩ d) ∧
      (d.pwr.off = false → ∀ k : Fin 12, k.val < r.val → Instr.wake k ∈ q → d.rouses k = true → Gives (.wake r) ⟨d, q⟩ d) ∧
      (d.pwr.off = false → d.pwr.phase = .running → d.wakeEnabled r = true → d.wakeSource r = true → d.pwr.waking = none →
        (∀ k : Fin 12, k.val < r.val → Instr.wake k ∈ q → d.rouses k = false) →
        (d.pwrState = 0 → d.pwr.entry = none → Gives (.wake r) ⟨d, q⟩ d) ∧
        (d.pwrState = 0 → d.pwr.entry = some e → wakeFrom r e.target = false → Gives (.wake r) ⟨d, q⟩ d) ∧
        (d.pwrState = 0 → d.pwr.entry = some e → wakeFrom r e.target = true → After (.wake r) ⟨d, q⟩ (fun t =>
          t.pwr.entry = none ∧ t.pwrState = 0 ∧ t.get PWR_ABORT PWR_ABORT_REASON = r.val ∧ t.cores = d.cores ∧ sget false t.irqPulse 1055 = true)) ∧
        (d.pwrState = 1 → r.val = 11 → After (.wake r) ⟨d, q⟩ (fun t => t.pwrState = 0 ∧ t.get PWR_WAKE PWR_WAKE_REASON = 11 ∧ t.cores = d.cores)) ∧
        (d.pwrState = 2 → wakeFrom r 2 = true → Gives (.wake r) ⟨d, q⟩ (d.put PWR_WAKE PWR_WAKE_REASON r).wakeUp) ∧
        (d.pwrState ≠ 0 → wakeFrom r d.pwrState = false → Gives (.wake r) ⟨d, q⟩ d)) ∧
      (d.pwr.waking = none → Gives .wakeComplete ⟨d, q⟩ d) ∧
      (d.pwr.waking = some m → After .wakeComplete ⟨d, q⟩ (fun t => t.pwr.waking = none ∧ t.pwrState = 0)) ∧
      (d.pwrState ≠ 2 ∨ d.flag PWR_STAT PWR_STAT_WINDOW = true ∨ d.pwr.waking ≠ none ∨ (d.periodDue = none ∧ d.parentWindow 24576 = false) →
        Gives .listenWindowOpen ⟨d, q⟩ d) ∧
      (d.pwrState = 2 → d.flag PWR_STAT PWR_STAT_WINDOW = false → d.pwr.waking = none → d.periodDue ≠ none ∨ d.parentWindow 24576 = true →
        After .listenWindowOpen ⟨d, q⟩ (fun t => t.flag PWR_STAT PWR_STAT_WINDOW = true ∧ (d.retainEntries = [] → t.pwr.winAt = d.periodDue))) ∧
      (d.flag PWR_STAT PWR_STAT_WINDOW = true → d.pwr.entry = none → d.periodRuns = false → d.parentWindow 0 = false →
        Gives .listenWindowClose ⟨d, q⟩ (d.setEntry (some ⟨2, [], true⟩)) ∧ Gives .closeRetry ⟨d, q⟩ (d.setEntry (some ⟨2, [], true⟩))) ∧
      (d.flag PWR_STAT PWR_STAT_WINDOW = false ∨ d.pwr.entry ≠ none ∨ d.periodRuns = true ∨ d.parentWindow 0 = true →
        Gives .listenWindowClose ⟨d, q⟩ d ∧ Gives .closeRetry ⟨d, q⟩ d) ∧
      (∀ t, d.periodDue = some t → 0 < d.get PWR_LISTEN PWR_LISTEN_PERIOD_MS ∧ t % (122880 * d.get PWR_LISTEN PWR_LISTEN_PERIOD_MS) = 0 ∧
        t ≤ d.meshNow + 24576 ∧ (d.meshNow < t ∨ d.meshNow < t + 122880 * d.get PWR_LISTEN PWR_LISTEN_WIN_MS)) ∧
      (d.pwr.brownOut = true → d.pwrState ≠ 5 → After .inspectEntry ⟨d, q⟩ (fun t =>
        t.pwrState = 5 ∧ t.pwr.pins = .unpowered ∧ t.nfc = { d.nfc with quiet := false, drawn := none, reply := none } ∧ t.cores = d.cores ∧ (∀ y, t.byte y = d.byte y) ∧
        ∀ y, y ≠ PWR_STAT → t.reg y = d.reg y)) ∧
      (d.pwr.brownOut = false ∨ d.pwrState = 5 → Gives .inspectEntry ⟨d, q⟩ d) ∧
      (d.pwrState = 5 → d.nfc.note = none → d.pwr.off = false → Gives (.inspectExit false) ⟨d, q⟩ (d.put PWR_STAT PWR_STAT_STATE 0) ∧
        Gives (.inspectExit true) ⟨d, q⟩ (Dev.startUp { d.put PWR_STAT PWR_STAT_STATE 0 with
          pwr := { d.pwr with brownOut := false, pins := if d.pwr.pins = .unpowered then .inReset else d.pwr.pins } })) ∧
      (d.pwrState = 5 → ∀ up, After (.inspectExit up) ⟨d, q⟩ (fun t => t.pwrState = 0 ∧ t.nfc.note = none ∧
        (up = true → t.pwr.brownOut = false ∧ t.pwr.off = false ∧ (d.pwr.phase = .held → d.pwr.thermal = false → t.pwr.phase = .rails)))) ∧
      (d.pwrState ≠ 5 → ∀ up, Gives (.inspectExit up) ⟨d, q⟩ d))

/-- Receive corrections and synthesiser measurements (R377 to R382): a correction is computed while its chain is READY, applied while the chain is quiet,
forced after two seconds with an entry in the log; a measured entry takes its codes and loses STALE; once the manager has agreed to a power state it
takes no new work. Calibration records (R384 to R387, R389): a store that is due erases the other copy's sector, its end programs the record with the
next SEQ, a failed one leaves the copy before it in use, the records are loaded once after a reset, and the commands ask for a store or queue the
valid entries again. Completion: for each of these commands a clause concludes that exec answers the next state given, under conditions on the state
and the operands alone: calTempSample, correctionCompute, correctionApply, correctionForced, txsynMeasureStart, txsynMeasureEnd, calibrationLoad,
calStore, calStoreEnd, savecurve, savesyn, recal. -/
def Obligations.Calibration : Prop :=
  (∀ (d : Dev) (q : List Instr) (c : Fin 4) (i : Fin 3) (t : Fin 2) (n : Nat) (temp : BitVec 16),
      (d.calOk = false → Gives (.correctionApply c) ⟨d, q⟩ d ∧ Gives (.correctionForced c i) ⟨d, q⟩ d) ∧
      (d.calFresh = false → Gives (.correctionCompute c i) ⟨d, q⟩ d ∧ Gives (.txsynMeasureStart t) ⟨d, q⟩ d) ∧
      (d.calFresh = true → (if i.val = 2 then d.gainDue c = true else d.rxReady c = true ∧ d.flag (RFC_RXSTAT c) RFC_RXSTAT_BLANKED = false) → After (.correctionCompute c i) ⟨d, q⟩ (fun e =>
        (e.get (CAL_CHSTAT c) CAL_CHSTAT_PEND).testBit i = true ∧ e.flag (CAL_CHSTAT c) CAL_CHSTAT_STALE = true ∧ e.cores = d.cores ∧
        (∀ a, a ≠ CAL_CHSTAT c → e.reg a = d.reg a) ∧ ∀ a, e.byte a = d.byte a)) ∧
      ((if i.val = 2 then d.gainDue c = false else d.rxReady c = false ∨ d.flag (RFC_RXSTAT c) RFC_RXSTAT_BLANKED = true) →
        Gives (.correctionCompute c i) ⟨d, q⟩ d) ∧
      (d.get (CAL_CHSTAT c) CAL_CHSTAT_PEND = 0 ∨ d.quiet c = false → Gives (.correctionApply c) ⟨d, q⟩ d) ∧
      (d.calOk = true → d.get (CAL_CHSTAT c) CAL_CHSTAT_PEND ≠ 0 → d.quiet c = true → After (.correctionApply c) ⟨d, q⟩ (fun e =>
        e.get (CAL_CHSTAT c) CAL_CHSTAT_PEND = 0 ∧ e.flag (CAL_CHSTAT c) CAL_CHSTAT_STALE = false ∧ e.cores = d.cores ∧ ∀ a, e.byte a = d.byte a)) ∧
      ((d.get (CAL_CHSTAT c) CAL_CHSTAT_PEND).testBit i = false → Gives (.correctionForced c i) ⟨d, q⟩ d) ∧
      (d.calOk = true → (d.get (CAL_CHSTAT c) CAL_CHSTAT_PEND).testBit i = true → After (.correctionForced c i) ⟨d, q⟩ (fun e =>
        e.get (CAL_CHSTAT c) CAL_CHSTAT_PEND = 0 ∧ e.flag CAL_STAT CAL_STAT_FORCED = true ∧ ∀ p, p ∈ e.rcv → d.unquiet c p = true → p.2.cal = true)) ∧
      (d.calFresh = true → d.txOf t = none → sget none d.calMeas t = none →
        (d.synNext t = none → Gives (.txsynMeasureStart t) ⟨d, q⟩ d) ∧
        (d.synNext t = some n → Gives (.txsynMeasureStart t) ⟨d, q⟩ (Dev.put { d with calMeas := sset none d.calMeas t (some n) } (SYN_STAT t) SYN_STAT_ENTRY n))) ∧
      (sget none d.calMeas t = none → ∀ ok, Gives (.txsynMeasureEnd t ok) ⟨d, q⟩ d) ∧
      (sget none d.calMeas t = some n → d.calOk = false → ∀ ok, Gives (.txsynMeasureEnd t ok) ⟨d, q⟩ (d.calAbandon t)) ∧
      (sget none d.calMeas t = some n → d.calOk = true → n < 256 → After (.txsynMeasureEnd t true) ⟨d, q⟩ (fun e =>
        e.flag (SYN_CALF t n) SYN_CALF_VALID = true ∧ e.flag (SYN_CALF t n) SYN_CALF_STALE = false ∧
        e.get (SYN_CALF t n) SYN_CALF_FREQ_KHZ = d.get (SYN_CALF t n) SYN_CALF_FREQ_KHZ ∧ sget none e.calMeas t = none ∧ (256 * t.val + n) ∉ e.calQ ∧ t.val ∈ e.cal.dirty)) ∧
      (sget none d.calMeas t = some n → d.calOk = true → n < 256 → After (.txsynMeasureEnd t false) ⟨d, q⟩ (fun e =>
        e.flag CAL_STAT CAL_STAT_SYNFAIL = true ∧ e.reg (SYN_CALF t n) = d.reg (SYN_CALF t n) ∧ sget none e.calMeas t = none)) ∧
      (d.pwr.rfIso = true ∨ d.fieldOn 1 = false → Gives (.calTempSample temp) ⟨d, q⟩ d) ∧
      (d.pwr.rfIso = false → d.fieldOn 1 = true → After (.calTempSample temp) ⟨d, q⟩ (fun e =>
        e.calSeen = true ∧ e.get CAL_TEMP CAL_TEMP_TEMP = temp.toNat % 2 ^ CAL_TEMP_TEMP.width ∧ e.cores = d.cores ∧ ∀ a, e.byte a = d.byte a))) ∧
  (∀ (d : Dev) (q : List Instr) (c : Fin 7) (t : Fin 2) (k : Fin 3) (n : Nat),
      (d.storeDue (2 + k) = false ∨ d.cal.store ≠ none ∨ d.flag PWR_SUPPLY PWR_SUPPLY_SLOW = true ∨ d.bankBusy 2 = true ∨ d.calFresh = false →
        Gives (.calStore k) ⟨d, q⟩ d) ∧
      (d.storeDue (2 + k) = true → d.cal.store = none → d.flag PWR_SUPPLY PWR_SUPPLY_SLOW = false → d.bankBusy 2 = false → d.calFresh = true →
        After (.calStore k) ⟨d, q⟩ (fun e =>
          e.cal.store = some (2 + k.val) ∧ e.flag CAL_STAT CAL_STAT_BUSY = true ∧ e.flag (FLC_STAT 2) FLC_STAT_BUSY = true ∧
          (∀ y, inSector (bank2 (d.storeAt (2 + k)).1) y = true → e.cell y = memDflt y) ∧
          (∀ y, inSector (bank2 (d.storeAt (2 + k)).1) y = false → e.cell y = d.cell y))) ∧
      (d.cal.store = none → ∀ ok, Gives (.calStoreEnd ok) ⟨d, q⟩ d) ∧
      (d.cal.store = some n → After (.calStoreEnd true) ⟨d, q⟩ (fun e =>
        e.cal.store = none ∧ e.flag CAL_STAT CAL_STAT_BUSY = false ∧
        ((d.bankOfs 2).op = 0 → (d.bankOfs 2).eng ≤ 1 → d.flag (FLC_STAT 2) FLC_STAT_MOVE = false → e.flag (FLC_STAT 2) FLC_STAT_BUSY = false) ∧ sget none e.cal.use n = some (d.storeAt n) ∧
        sget none e.cal.saved n = some d.clk.cyc ∧ (3 ≤ n → (n - 3) ∉ e.cal.dirty ∧ n ∉ e.cal.due))) ∧
      (d.cal.store = some n → After (.calStoreEnd false) ⟨d, q⟩ (fun e =>
        e.cal.store = none ∧ e.flag CAL_STAT CAL_STAT_BUSY = false ∧ e.cal.use = d.cal.use)) ∧
      (d.cal.loaded = true ∨ d.calOk = false → Gives .calibrationLoad ⟨d, q⟩ d) ∧
      (d.cal.loaded = false → d.calOk = true → After .calibrationLoad ⟨d, q⟩ (fun e =>
        e.cal.loaded = true ∧ (d.calBest 1 = none → e.flag CAL_STAT CAL_STAT_TRIMBAD = true ∧ e.flag CAL_STAT CAL_STAT_STOREBAD = true) ∧
        (d.flag RTC_STAT RTC_STAT_CURVEOK = true → e.flag RTC_STAT RTC_STAT_CURVEOK = true ∧ ∀ i, i < 33 → e.reg (RTC_CURVE i) = d.reg (RTC_CURVE i)) ∧
        e.cores = d.cores ∧ ∀ a, e.byte a = d.byte a)) ∧
      (∀ n, d.storeDue n = true ↔ (n < 3 ∧ n ∈ d.cal.due) ∨ (3 ≤ n ∧ (n - 3) ∈ d.cal.dirty ∧ (n ∈ d.cal.due ∨ (d.flag CAL_CTL CAL_CTL_AUTOSAVE = true ∧
        ∀ y, sget none d.cal.saved n = some y → y + 60 * 122880000 ≤ d.clk.cyc)))) ∧
      (BusOpen ⟨d, q⟩ c CAL_CMD true →
        Gives (.savecurve c) ⟨d, q⟩ { d with cal := { d.cal with due := d.cal.due.filter (· ≠ 2) ++ [2] } } ∧
        (t.val ∈ d.cal.dirty → Gives (.savesyn c t) ⟨d, q⟩ { d with cal := { d.cal with due := d.cal.due.filter (· ≠ 3 + t.val) ++ [3 + t.val] } }) ∧
        (t.val ∉ d.cal.dirty → Gives (.savesyn c t) ⟨d, q⟩ d) ∧
        After (.recal c t) ⟨d, q⟩ (fun e => ∀ i, i < 256 → d.flag (SYN_CALF t i) SYN_CALF_VALID = true → (256 * t.val + i) ∈ e.calQ)))

/-- Commands of the contactless controller (R391, R392, R396, R397, R400, R406): one at a time, judged by mode, length, field, carrier and buffer before
it acts; the carrier, off for 1 ms at least, a request with its CRC not before GUARD_US have passed, an inventory, the answer to a request that awaits
firmware. Requests to a head (R392, R396, R400, R402, R403): a frame with a wrong CRC, or one that this head may not answer now, leaves everything;
reads and notes are answered by the controller, other requests go to firmware; a stored note is counted and shown. Completion: for each of these
commands a clause concludes that exec answers the next state given, under conditions on the state and the operands alone: carrierOn, carrierOff,
nfcSend, nfcInventory, cresp, cdrop, nfcCommandEnd, cardRequest, cardTimeout, inspectRequest, noteStored, fieldChange, tornWrite, suidRead. -/
def Obligations.Contactless : Prop :=
  (∀ (d : Dev) (q : List Instr) (c : Fin 7) (heard : List (Option (List Byte))) (f b : List Byte) (x : Nat) (r : List Nat),
      let e := fun (n : Nat) => if n = 3 ∨ n = 5 then (d.put NFC_STAT NFC_STAT_OP n).touchRange d.nfcBuf d.nfcLen else d.put NFC_STAT NFC_STAT_OP n
      let rows := [(Instr.carrierOn c, 1), (.carrierOff c, 2), (.nfcSend c, 3), (.nfcInventory c, 4), (.cresp c, 5), (.cdrop c, 6)]
      (∀ row ∈ rows, BusOpen ⟨d, q⟩ c NFC_CMD true →
        (d.flag NFC_STAT NFC_STAT_BUSY = true → Gives row.1 ⟨d, q⟩ d) ∧
        (∀ res, d.flag NFC_STAT NFC_STAT_BUSY = false → (e row.2).nfcJudge row.2 = some res → Gives row.1 ⟨d, q⟩ ((e row.2).nfcEnd res))) ∧
      (d.get NFC_CTL NFC_CTL_MODE ≠ 1 → d.nfcJudge 1 = some nrBADLEN ∧ d.nfcJudge 3 = some nrBADLEN) ∧
      (d.get NFC_CTL NFC_CTL_MODE = 1 → d.flag NFC_STAT NFC_STAT_FIELD = true → d.nfcJudge 1 = some nrEXTFIELD) ∧
      (BusOpen ⟨d, q⟩ c NFC_CMD true → d.flag NFC_STAT NFC_STAT_BUSY = false →
        ((e 1).nfcJudge 1 = none → d.flag NFC_STAT NFC_STAT_CARRIER = true → Gives (.carrierOn c) ⟨d, q⟩ ((e 1).nfcEnd nrOK)) ∧
        ((e 1).nfcJudge 1 = none → d.flag NFC_STAT NFC_STAT_CARRIER = false → (∀ y, d.nfc.carOff = some y → y + 122880 ≤ d.clk.cyc) →
          After (.carrierOn c) ⟨d, q⟩ (fun t => t.flag NFC_STAT NFC_STAT_CARRIER = true ∧ t.nfc.carOn = d.clk.cyc ∧ t.get NFC_STAT NFC_STAT_RESULT = nrOK ∧
            t.flag NFC_STAT NFC_STAT_DONE = true ∧ t.cores = d.cores ∧ (∀ a, a ≠ NFC_STAT → t.reg a = d.reg a) ∧ ∀ a, t.byte a = d.byte a)) ∧
        (∀ y, (e 1).nfcJudge 1 = none → d.flag NFC_STAT NFC_STAT_CARRIER = false → d.nfc.carOff = some y → d.clk.cyc < y + 122880 →
          Gives (.carrierOn c) ⟨d, q⟩ (Dev.put { e 1 with nfc := { d.nfc with op := 1 } } NFC_STAT NFC_STAT_BUSY 1)) ∧
        ((e 2).nfcJudge 2 = none → After (.carrierOff c) ⟨d, q⟩ (fun t =>
          t.flag NFC_STAT NFC_STAT_CARRIER = false ∧ t.nfc.carOff = (if d.flag NFC_STAT NFC_STAT_CARRIER then some d.clk.cyc else d.nfc.carOff) ∧
          t.get NFC_STAT NFC_STAT_RESULT = nrOK ∧ t.flag NFC_STAT NFC_STAT_DONE = true ∧ t.cores = d.cores ∧
          (∀ a, a ≠ NFC_STAT → t.reg a = d.reg a) ∧ ∀ a, t.byte a = d.byte a)) ∧
        ((e 3).nfcJudge 3 = none → After (.nfcSend c) ⟨d, q⟩ (fun t =>
          t.nfc.out = [nfcSeal (d.bytes d.nfcBuf d.nfcLen)] ∧ t.nfc.op = 3 ∧ t.flag NFC_STAT NFC_STAT_BUSY = true ∧ t.cores = d.cores ∧ ∀ a, t.byte a = d.byte a)) ∧
        ((e 4).nfcJudge 4 = none → After (.nfcInventory c) ⟨d, q⟩ (fun t => t.nfc.out = [] ∧ t.nfc.op = 4 ∧ t.flag NFC_STAT NFC_STAT_BUSY = true ∧ t.nfc.fifo = d.nfc.fifo)) ∧
        ((e 5).nfcJudge 5 = none → After (.cresp c) ⟨d, q⟩ (fun t =>
          t.nfc.out = (if d.nfc.wait then [nfcSeal (d.bytes d.nfcBuf d.nfcLen)] else []) ∧ t.nfc.wait = false ∧ t.flag NFC_STAT NFC_STAT_CRXF = false ∧
          t.get NFC_STAT NFC_STAT_RESULT = nrOK ∧ t.flag NFC_STAT NFC_STAT_DONE = true)) ∧
        ((e 6).nfcJudge 6 = none → After (.cdrop c) ⟨d, q⟩ (fun t =>
          t.nfc.out = [] ∧ t.nfc.wait = false ∧ t.flag NFC_STAT NFC_STAT_CRXF = false ∧ t.get NFC_STAT NFC_STAT_RESULT = nrOK))) ∧
      (BusOpen ⟨d, q⟩ c NFC_SUID_HI false → d.nfc.fifo = x :: r → After (.suidRead c) ⟨d, q⟩ (fun t =>
        t.rdata = d.reg NFC_SUID_HI ∧ t.nfc.fifo = r ∧ t.get NFC_INVN NFC_INVN_N = r.length % 2 ^ NFC_INVN_N.width)) ∧
      (d.nfc.op ∉ [1, 3, 4] → Gives (.nfcCommandEnd heard) ⟨d, q⟩ d) ∧
      (d.nfc.op = 1 → d.carrierMay = false → Gives (.nfcCommandEnd heard) ⟨d, q⟩ d) ∧
      (d.nfc.op = 1 → d.carrierMay = true → After (.nfcCommandEnd heard) ⟨d, q⟩ (fun t => t.flag NFC_STAT NFC_STAT_CARRIER = true ∧
        t.flag NFC_STAT NFC_STAT_BUSY = false ∧ t.get NFC_STAT NFC_STAT_RESULT = nrOK ∧ t.nfc.op = 0)) ∧
      (d.nfc.op ≠ 1 → d.guardOver = false → Gives (.nfcCommandEnd heard) ⟨d, q⟩ d) ∧
      (d.nfc.op = 3 → d.guardOver = true →
        (heard.headD none = none → Gives (.nfcCommandEnd heard) ⟨d, q⟩ (d.nfcEnd nrNORESP)) ∧
        (heard.headD none = some f → nfcOpen f = none → Gives (.nfcCommandEnd heard) ⟨d, q⟩ (d.nfcEnd nrCRCERR)) ∧
        (heard.headD none = some f → nfcOpen f = some b → d.nfcBus d.nfcRx (b.take 64).length true = true →
          Gives (.nfcCommandEnd heard) ⟨d, q⟩ (((d.setBytes d.nfcRx (b.take 64)).put NFC_STAT NFC_STAT_RXLEN (b.take 64).length).nfcEnd nrOK)) ∧
        (heard.headD none = some f → nfcOpen f = some b → d.nfcBus d.nfcRx (b.take 64).length true = false → Gives (.nfcCommandEnd heard) ⟨d, q⟩ (d.nfcEnd nrBUSFAULT))) ∧
      (d.nfc.op = 4 → d.guardOver = true → After (.nfcCommandEnd heard) ⟨d, q⟩ (fun t => t.nfc.op = 0 ∧ t.flag NFC_STAT NFC_STAT_BUSY = false ∧ t.flag NFC_STAT NFC_STAT_DONE = true ∧
        d.nfc.fifo <+: t.nfc.fifo)) ∧
      (BusOpen ⟨d, q⟩ c NFC_TORN true → Gives (.tornWrite c) ⟨d, q⟩ (d.count (NFC_CNT 6)))) ∧
  (∀ (d : Dev) (q : List Instr) (f r rec : List Byte) (i good : Nat) (on : Bool),
      (nfcOpen f = none → Gives (.cardRequest f) ⟨d, q⟩ d ∧ Gives (.inspectRequest f) ⟨d, q⟩ d) ∧
      (nfcOpen f = some r →
        (d.fieldOn 6 = false ∨ d.get PWR_STAT PWR_STAT_STATE ≠ 0 ∨ d.get NFC_CTL NFC_CTL_MODE ≠ 2 ∨ d.flag NFC_STAT NFC_STAT_CRXF = true ∨ d.nfc.note ≠ none ∨ d.rests 13 = true →
          Gives (.cardRequest f) ⟨d, q⟩ d) ∧
        (d.fieldOn 6 = true → d.get PWR_STAT PWR_STAT_STATE = 0 → d.get NFC_CTL NFC_CTL_MODE = 2 → d.flag NFC_STAT NFC_STAT_CRXF = false →
          d.nfc.note = none → d.rests 13 = false → 10 ≤ r.length → r.length ≤ 64 → u8 r 0 = 1 → d.nfMine r = true →
          let z : Dev := { d with nfc := { d.nfc with out := [] } }
          (u8 r 1 = 0x10 → Gives (.cardRequest f) ⟨d, q⟩ (z.respond (d.nfcRead false (r.drop 10)).1 (d.nfcRead false (r.drop 10)).2)) ∧
          (u8 r 1 = 0x12 → Gives (.cardRequest f) ⟨d, q⟩ (z.noteStart false (r.drop 10))) ∧
          (u8 r 1 = 0x30 ∨ u8 r 1 = 0x31 ∨ u8 r 1 = 0x32 → Gives (.cardRequest f) ⟨d, q⟩ (z.toFirmware r)) ∧
          (u8 r 1 = 0x40 → Gives (.cardRequest f) ⟨d, q⟩ (z.respond nsNOTSUPP []))) ∧
        (d.get PWR_STAT PWR_STAT_STATE ≠ 5 ∨ d.inspImage = none ∨ d.nfc.note ≠ none → Gives (.inspectRequest f) ⟨d, q⟩ d) ∧
        (d.get PWR_STAT PWR_STAT_STATE = 5 → d.inspImage ≠ none → d.nfc.note = none → 10 ≤ r.length → r.length ≤ 64 → u8 r 0 = 1 → d.nfMine r = true →
          u8 r 1 = 0x10 → Gives (.inspectRequest f) ⟨d, q⟩
            (Dev.respond { d with nfc := { d.nfc with out := [] } } (d.nfcRead true (r.drop 10)).1 (d.nfcRead true (r.drop 10)).2))) ∧
      (d.nfc.wait = true → q.any d.settles = false → Gives .cardTimeout ⟨d, q⟩ ((d.count (NFC_CNT 5)).nfcSettle)) ∧
      (d.nfc.wait = false ∨ q.any d.settles = true → Gives .cardTimeout ⟨d, q⟩ d) ∧
      (d.nfc.note = none → Gives (.noteStored good) ⟨d, q⟩ d) ∧
      (d.nfc.note = some (i, rec) → After (.noteStored good) ⟨d, q⟩ (fun t =>
        t.nfc.note = none ∧ (d.noteAwaited = true → t.nfc.out = [nfcSeal [if 4 ≤ good then 0 else 5]]) ∧ (d.noteAwaited = false → t.nfc.out = d.nfc.out) ∧
        ((d.bankOfs 2).op = 0 → (d.bankOfs 2).eng ≤ 1 → d.flag (FLC_STAT 2) FLC_STAT_MOVE = false → t.flag (FLC_STAT 2) FLC_STAT_BUSY = false) ∧ t.flag NFC_STAT NFC_STAT_MBOXF = (decide (4 ≤ good) || d.flag NFC_STAT NFC_STAT_MBOXF))) ∧
      (d.fieldOn 6 = false ∨ d.flag NFC_STAT NFC_STAT_FIELD = on → Gives (.fieldChange on) ⟨d, q⟩ d) ∧
      (d.fieldOn 6 = true → d.flag NFC_STAT NFC_STAT_FIELD ≠ on → After (.fieldChange on) ⟨d, q⟩ (fun t =>
        t.flag NFC_STAT NFC_STAT_FIELD = on ∧ t.flag NFC_STAT NFC_STAT_FIELDF = true ∧ (on = false → t.nfc.quiet = false ∧ t.nfc.drawn = none ∧ t.nfc.reply = none) ∧
        (on = true → t.nfc = d.nfc))))

/-- Every request of the Oztis port passes the same three doors before it acts (R407, R411, Table 22.2): a port that is not sown does nothing, a payload
of the wrong length is answered BADARG, and a request whose gate is shut is answered LOCKED; while the port has agreed to a power state it answers
WAIT. The session of the Oztis port (R409 to R411, R414): bad frames, HELLO, RESET, the challenge and its answer, LOCK, attention and the timeout.
Completion: for each of these commands a clause concludes that exec answers the next state given, under conditions on the state and the operands
alone: oztisHello, oztisReset, challenge, unlock, oztisLock, openXfer, burst, oztisCheck, oztisTry, oztisRead, oztisWrite, oztisHalt, oztisRun, regs,
setreg, atnFall, sessionTimeout, svcCommandEnd, oztisBadFrame. -/
def Obligations.OztisSession : Prop :=
  (∀ (d : Dev) (q : List Instr) (tag : Byte) (p : List Byte) (ok : Bool) (row : Instr × Nat × Bool × OzGate),
      row ∈ [(.oztisHello tag p, 0x01, p.isEmpty, .none), (.challenge tag p, 0x03, p.isEmpty, .none), (.unlock tag p, 0x04, p.length == 16, .none),
        (.oztisLock tag p, 0x05, p.isEmpty, .none), (.openXfer tag p ok, 0x10, p.length == 6, .image),
        (.burst tag p, 0x11, decide (20 ≤ p.length ∧ p.length ≤ 4100 ∧ p.length % 16 = 4), .image), (.oztisCheck tag p, 0x12, p.length == 1, .image),
        (.oztisTry tag p, 0x13, p.length == 1, .image), (.oztisRead tag p, 0x20, p.length == 6, .unlock),
        (.oztisWrite tag p, 0x21, decide (8 ≤ p.length ∧ p.length ≤ 4100 ∧ p.length % 4 = 0), .unlock), (.oztisHalt tag p, 0x22, p.length == 2, .unlock),
        (.oztisRun tag p, 0x23, p.length == 1, .unlock), (.regs tag p, 0x24, p.length == 1, .unlock), (.setreg tag p, 0x25, p.length == 73, .unlock)] →
      (d.portOn = false → Gives row.1 ⟨d, q⟩ d) ∧
      (d.portOn = true → d.rests 14 = true → Gives row.1 ⟨d, q⟩ ((d.count (SVC_CNT 1)).ozSend row.2.1 tag 0x02 [])) ∧
      (d.portOn = true → d.rests 14 = false → row.2.2.1 = false → Gives row.1 ⟨d, q⟩ (d.ozSend row.2.1 tag 0x05 [])) ∧
      (d.portOn = true → d.rests 14 = false → row.2.2.1 = true → d.ozOpen row.2.2.2 = false → Gives row.1 ⟨d, q⟩ (d.ozSend row.2.1 tag 0x06 [])) ∧
      (d.flag SVC_STAT SVC_STAT_SESSION = false → d.ozOpen .unlock = false) ∧
      (d.flag SVC_STAT SVC_STAT_SESSION = false → d.flag SVC_STAT SVC_STAT_SERVICE = false → d.ozOpen .image = false)) ∧
  (∀ (d : Dev) (q : List Instr) (tag typ : Byte) (p n : List Byte),
      (d.portOn = false → Gives (.oztisBadFrame true typ tag) ⟨d, q⟩ d ∧ Gives (.oztisReset tag []) ⟨d, q⟩ d) ∧
      (d.atnSeen = false → (∀ f, Gives (.atnFall f) ⟨d, q⟩ d) ∧ Gives .sessionTimeout ⟨d, q⟩ d) ∧
      (d.atnSeen = true → After (.atnFall false) ⟨d, q⟩ (fun e => e.flag SVC_STAT SVC_STAT_ATN = true ∧ e.flag SVC_STAT SVC_STAT_ATNF = true ∧ e.svc = d.svc) ∧
        After .sessionTimeout ⟨d, q⟩ (fun e => e.flag SVC_STAT SVC_STAT_SESSION = false ∧ e.flag SVC_STAT SVC_STAT_ATN = false ∧ e.svc.xfer = d.svc.xfer)) ∧
      (d.portOn = true →
        Gives (.oztisBadFrame true typ tag) ⟨d, q⟩ ((d.count (SVC_CNT 0)).ozSend 0xFF 0 0x03 []) ∧
        (ozKnown typ.toNat = false → Gives (.oztisBadFrame false typ tag) ⟨d, q⟩ (d.ozSend typ.toNat tag 0x04 [])) ∧
        (d.rests 14 = true → Gives (.oztisReset tag []) ⟨d, q⟩ ((d.count (SVC_CNT 1)).ozSend 0x02 tag 0x02 [])) ∧
        After (.atnFall true) ⟨d, q⟩ (fun e => e.flag SVC_STAT SVC_STAT_ATN = true ∧ e.flag SVC_STAT SVC_STAT_ATNF = true ∧ e.svc.resp = [])) ∧
      (d.portOn = true → d.rests 14 = false →
        Gives (.oztisHello tag []) ⟨d, q⟩ (d.ozSend 0x01 tag 0x00 d.helloData) ∧
        Gives (.oztisReset tag []) ⟨d, q⟩
          (let e := (d.ozSend 0x02 tag 0x00 []).resetPulse 5
           { e with svc := { e.svc with resp := (d.ozSend 0x02 tag 0x00 []).svc.resp } }) ∧
        (d.flag KEY_STAT KEY_STAT_RNGFAIL = true → Gives (.challenge tag []) ⟨d, q⟩ (d.ozSend 0x03 tag 0x1A [])) ∧
        (d.flag KEY_STAT KEY_STAT_RNGFAIL = false → After (.challenge tag []) ⟨d, q⟩ (fun e =>
          ∃ b, b.length = 16 ∧ e.svc.nonce = some b ∧ e.svc.resp = ozFrame 0x83 tag (0x00 :: b) ∧ e.regs = d.regs ∧ e.cores = d.cores)) ∧
        (p.length = 16 → d.svc.oz = none → After (.unlock tag p) ⟨d, q⟩ (fun e =>
          e.svc.oz = some (0x04, p) ∧ e.svc.resp = ozFrame 0x84 tag [0x01] ∧ e.regs = d.regs ∧ e.cores = d.cores)) ∧
        (p.length = 16 → d.svc.oz ≠ none → Gives (.unlock tag p) ⟨d, q⟩ (d.ozSend 0x04 tag 0x14 [])) ∧
        After (.oztisLock tag []) ⟨d, q⟩ (fun e => e.flag SVC_STAT SVC_STAT_SESSION = false ∧ e.svc.freeze = false ∧ ∀ c, c < 7 → e.coreState c = if d.coreState c = 5 then 1 else d.coreState c)) ∧
      (d.svc.oz = some (0x04, p) → d.svc.nonce = some n → (d.kslot 254).state ≠ 0 → d.svc.armed = none → d.flag SVC_IMG SVC_IMG_CONFWAIT = false →
        let good := cmac (d.kslot 254).key ([0x44] ++ leBytes 8 d.devuid ++ n) = p
        (8 ≤ d.svc.fails → After (.svcCommandEnd true []) ⟨d, q⟩ (fun e => e.svc.last = (0x04, 0x0C) ∧ e.regs = d.regs ∧ e.svc.nonce = none)) ∧
        (d.svc.fails < 8 → good → After (.svcCommandEnd true []) ⟨d, q⟩ (fun e =>
          e.flag SVC_STAT SVC_STAT_SESSION = true ∧ e.svc.last = (0x04, 0x00) ∧ e.svc.nonce = none ∧ e.svc.fails = d.svc.fails)) ∧
        (d.svc.fails < 8 → ¬ good → After (.svcCommandEnd true []) ⟨d, q⟩ (fun e =>
          e.flag SVC_STAT SVC_STAT_SESSION = d.flag SVC_STAT SVC_STAT_SESSION ∧ e.svc.last = (0x04, 0x06) ∧ e.svc.nonce = none ∧ e.svc.fails = d.svc.fails + 1))) ∧
      (d.svc.oz = none → Gives (.svcCommandEnd true []) ⟨d, q⟩ d))

/-- Image transfers (R413, R417, R419): OPEN in the order of its checks, a burst only where the last one ended and a buffer is free, buffers programmed in
order, and CHECK and TRY accepted for a slot. Completion: for each of these commands a clause concludes that exec answers the next state given, under
conditions on the state and the operands alone: openXfer, burst, oztisCheck, oztisTry, svcCommandEnd, transferProgramEnd. -/
def Obligations.ImageTransfers : Prop :=
  ∀ (d : Dev) (q : List Instr) (tag : Byte) (p : List Byte) (ok er : Bool) (good res : Nat) (x : Xfer) (b : Nat × List Byte) (r : List (Nat × List Byte)),
    let slot := u8 p 0
    let len := u32 p 2
    let off := u32 p 0
    let data := p.drop 4
    (d.portOn = true → d.rests 14 = false → d.ozOpen .image = true →
      (p.length = 6 →
        (d.openJudge slot len = some res → Gives (.openXfer tag p ok) ⟨d, q⟩ (Dev.ozSend { d with svc := { d.svc with checked := d.svc.checked.filter (· ≠ slot) } } 0x10 tag res [])) ∧
        (d.openJudge slot len = none → (u8 p 1).testBit 0 = false → 0 < len → After (.openXfer tag p true) ⟨d, q⟩ (fun e =>
          e.svc.xfer = some ⟨slot, len, 0, 0, false, [], false⟩ ∧ slot ∉ e.svc.checked ∧ e.flag SVC_STAT SVC_STAT_XFER = true ∧
          (∀ y, inSector (stateSector slot) y = true → e.cell y = memDflt y) ∧ (∀ y, inSector (stateSector slot) y = false → e.cell y = d.cell y)))) ∧
      (20 ≤ p.length → p.length ≤ 4100 → p.length % 16 = 4 →
        (d.svc.xfer = none → Gives (.burst tag p) ⟨d, q⟩ (d.ozSend 0x11 tag 0x07 [])) ∧
        (d.svc.xfer = some x → x.failed = false → off + data.length ≤ x.len →
          (off < x.next → Gives (.burst tag p) ⟨d, q⟩ (d.ozSend 0x11 tag 0x00 x.data)) ∧
          (x.next < off → Gives (.burst tag p) ⟨d, q⟩ (d.ozSend 0x11 tag 0x08 [])) ∧
          (x.next = off → 2 ≤ x.bufs.length → Gives (.burst tag p) ⟨d, q⟩ ((d.count (SVC_CNT 1)).ozSend 0x11 tag 0x02 [])) ∧
          (x.next = off → x.bufs.length < 2 → d.flag PWR_SUPPLY PWR_SUPPLY_SLOW = false → After (.burst tag p) ⟨d, q⟩ (fun e =>
            (∃ y, e.svc.xfer = some { x with next := x.next + data.length, bufs := x.bufs ++ [(off, data)], began := y }) ∧ e.cores = d.cores ∧ ∀ y, e.byte y = d.byte y)))) ∧
      (p.length = 1 →
        (1 < slot → Gives (.oztisCheck tag p) ⟨d, q⟩ (d.ozSend 0x12 tag 0x05 []) ∧ Gives (.oztisTry tag p) ⟨d, q⟩ (d.ozSend 0x13 tag 0x05 [])) ∧
        (slot ≤ 1 → d.svc.oz = none → d.svc.cmd = none →
          Gives (.oztisCheck tag p) ⟨d, q⟩ (Dev.ozSend { d with svc := { d.svc with oz := some (0x12, p) } } 0x12 tag 0x01 []) ∧
          Gives (.oztisTry tag p) ⟨d, q⟩ (Dev.ozSend { d with svc := { d.svc with oz := some (0x13, p) } } 0x13 tag 0x01 [])))) ∧
    (d.svc.xfer = none → Gives (.transferProgramEnd er good) ⟨d, q⟩ d) ∧
    (d.svc.xfer = some x → x.bufs = [] ∨ x.failed = true ∨ d.pwr.flIso = true ∨ (x.began = false ∧ (d.flag PWR_SUPPLY PWR_SUPPLY_SLOW = true ∨ d.bankBusy x.slot = true)) → Gives (.transferProgramEnd er good) ⟨d, q⟩ d) ∧
    (d.svc.xfer = some x → x.bufs = b :: r → x.failed = false → d.pwr.flIso = false → x.began = true ∨ (d.mayProg = true ∧ d.bankBusy x.slot = false) → After (.transferProgramEnd er good) ⟨d, q⟩ (fun e =>
      x.slot ∉ e.svc.checked ∧ (∀ y, e.svc.xfer = some y → y.bufs = r ∧ y.next = x.next ∧ y.slot = x.slot) ∧
      (good = 0 → 16 ≤ b.2.length → ∃ y, e.svc.xfer = some y ∧ y.failed = true ∧ y.done = x.done))) ∧
    (d.svc.oz = some (0x12, p) → After (.svcCommandEnd true []) ⟨d, q⟩ (fun e =>
      e.svc.oz = none ∧ e.svc.last.1 = 0x12 ∧
      (d.bankBusy slot = true → e.svc.last.2 = 0x14 ∧ e.svc.checked = d.svc.checked) ∧
      (d.bankBusy slot = false → e.svc.last.2 = d.imgCheck slot ∧ (slot ∈ e.svc.checked ↔ d.imgCheck slot = 0)))) ∧
    (d.svc.oz = some (0x13, p) → After (.svcCommandEnd true [ok]) ⟨d, q⟩ (fun e =>
      e.svc.oz = none ∧ (d.get SVC_IMG SVC_IMG_RUNNING = slot → e.svc.last = (0x13, 0x13)) ∧
      (d.get SVC_IMG SVC_IMG_RUNNING ≠ slot → slot ∉ d.svc.checked → e.svc.last = (0x13, 0x17)) ∧
      (d.get SVC_IMG SVC_IMG_RUNNING ≠ slot → slot ∈ d.svc.checked → d.bankBusy slot = false → d.flag PWR_SUPPLY PWR_SUPPLY_SLOW = false →
        e.svc.last = (0x13, if ok then 0x00 else 0x09))))

/-- Debug commands (R415): READ and WRITE reach what C0 reaches and answer BUSFAULT where it would fault, HALT and RUN move cores to DEBUG and back, and
REGS and SETREG show and set the eighteen words of a core in DEBUG. Completion: for each of these commands a clause concludes that exec answers the
next state given, under conditions on the state and the operands alone: oztisRead, oztisWrite, oztisHalt, oztisRun, regs, setreg. -/
def Obligations.DebugCommands : Prop :=
  ∀ (d : Dev) (q : List Instr) (tag : Byte) (p : List Byte) (c : Fin 7) (f : Nat × Nat), d.portOn = true → d.rests 14 = false → d.flag SVC_STAT SVC_STAT_SESSION = true →
    (p.length = 6 → u32 p 0 % 4 ≠ 0 → Gives (.oztisRead tag p) ⟨d, q⟩ (d.ozSend 0x20 tag 0x05 [])) ∧
    (p.length = 6 → u32 p 0 % 4 = 0 → u16 p 4 = 4 → RamOpen d ⟨.load, false, true, false⟩ 0 (u32 p 0) 4 →
      Gives (.oztisRead tag p) ⟨d, q⟩ ((d.wakes (u32 p 0) 4).ozSend 0x20 tag 0x00 (leBytes 4 (d.load (u32 p 0) 4)))) ∧
    (p.length = 6 → u32 p 0 % 4 = 0 → u16 p 4 = 4 → d.accCode ⟨.load, false, true, false⟩ 0 (u32 p 0) 4 = some f →
      Gives (.oztisRead tag p) ⟨d, q⟩ (d.ozSend 0x20 tag 0x0A (leBytes 4 (esynOf f.2 f.1 false false false).toNat ++ leBytes 4 (u32 p 0)))) ∧
    (p.length = 8 → u32 p 0 % 4 ≠ 0 → Gives (.oztisWrite tag p) ⟨d, q⟩ (d.ozSend 0x21 tag 0x05 [])) ∧
    (p.length = 8 → u32 p 0 % 4 = 0 → RamOpen d ⟨.store, false, true, false⟩ 0 (u32 p 0) 4 → After (.oztisWrite tag p) ⟨d, q⟩ (fun e =>
      Stored d e (u32 p 0) 4 (leVal (p.drop 4)) ∧ e.svc.resp = ozFrame 0xA1 tag [0x00])) ∧
    (p.length = 2 → After (.oztisHalt tag p) ⟨d, q⟩ (fun e =>
      (∀ k, k < 7 → e.coreState k = if (u8 p 0).testBit k ∧ (d.coreState k = 1 ∨ d.coreState k = 2) then 5 else d.coreState k) ∧
      (e.svc.freeze = true ↔ u8 p 1 = 1) ∧ e.cores = d.cores ∧ ∀ y, e.byte y = d.byte y)) ∧
    (p.length = 1 → After (.oztisRun tag p) ⟨d, q⟩ (fun e =>
      (∀ k, k < 7 → e.coreState k = if (u8 p 0).testBit k ∧ d.coreState k = 5 then 1 else d.coreState k) ∧ e.cores = d.cores)) ∧
    (p.length = 1 → u8 p 0 = c.val →
      (d.coreState c = 5 → Gives (.regs tag p) ⟨d, q⟩ (d.ozSend 0x24 tag 0x00 ((d.core c).words.flatMap (fun w => leBytes 4 w.toNat)))) ∧
      (d.coreState c ≠ 5 → Gives (.regs tag p) ⟨d, q⟩ (d.ozSend 0x24 tag 0x07 []))) ∧
    (p.length = 73 → u8 p 0 = c.val →
      (d.coreState c = 5 → After (.setreg tag p) ⟨d, q⟩ (fun e =>
        (∀ n : Fin 16, ((e.core c).gr n).toNat = u32 p (1 + 4 * n.val)) ∧ ((e.core c).pc).toNat = u32 p 65 ∧ ((e.core c).fl).toNat = u32 p 69 % 65536 ∧
        { e.core c with g := (d.core c).g, pc := (d.core c).pc, fl := (d.core c).fl } = d.core c ∧ (∀ k, k ≠ c → e.core k = d.core k) ∧ e.regs = d.regs)) ∧
      (d.coreState c ≠ 5 → Gives (.setreg tag p) ⟨d, q⟩ (d.ozSend 0x25 tag 0x07 [])))

/-- Images (R417, R418, R420 to R424, R427): commands of SVC_CMD one at a time, ARM in the order of its checks, the switch at its instant, confirmation,
cancellation, the fallback where the confirmation window has run out, and the choice at start-up: service where SVC_ATN was low, else a boot extension
that verifies is called on C0 first and then a slot's image, a wait for VIO_B, or service. Completion: for each of these commands a clause concludes
that exec answers the next state given, under conditions on the state and the operands alone: svcCommandEnd, imageCheck, activationArm,
activationCancel, imageConfirm, imageSwitch, confirmWindowExpiry, bootChoice. -/
def Obligations.ImageActivation : Prop :=
  ∀ (d : Dev) (q : List Instr) (c : Fin 7) (n r : Nat) (ok : Bool) (ins : Option (Fin 2) × List Bool),
    let slot := d.get SVC_ARG SVC_ARG_SLOT
    let e := fun (op : Nat) => (d.put SVC_RES SVC_RES_OP op).put SVC_RES SVC_RES_BUSY 1
    (BusOpen ⟨d, q⟩ c SVC_CMD true →
      (d.flag SVC_RES SVC_RES_BUSY = true → ∀ i ∈ [Instr.imageCheck c, .activationArm c, .activationCancel c, .imageConfirm c], Gives i ⟨d, q⟩ d) ∧
      (d.flag SVC_RES SVC_RES_BUSY = false →
        Gives (.imageCheck c) ⟨d, q⟩ { e 1 with svc := { d.svc with cmd := some (1, slot) } } ∧
        Gives (.imageConfirm c) ⟨d, q⟩ { e 4 with svc := { d.svc with cmd := some (4, slot) } } ∧
        ((e 2).armJudge slot = some r → Gives (.activationArm c) ⟨d, q⟩ ((e 2).svcEnd r)) ∧
        ((e 2).armJudge slot = none → Gives (.activationArm c) ⟨d, q⟩ { e 2 with svc := { d.svc with cmd := some (2, slot) } }) ∧
        (d.flag SVC_IMG SVC_IMG_CONFWAIT = true → Gives (.activationCancel c) ⟨d, q⟩ ((e 3).fallBack.svcEnd 0x00)) ∧
        (d.flag SVC_IMG SVC_IMG_CONFWAIT = false → d.svc.armed = none → Gives (.activationCancel c) ⟨d, q⟩ ((e 3).svcEnd 0x07)) ∧
        (d.flag SVC_IMG SVC_IMG_CONFWAIT = false → d.svc.armed ≠ none → After (.activationCancel c) ⟨d, q⟩ (fun t =>
          t.svc.armed = none ∧ t.flag SVC_IMG SVC_IMG_ARMED = false ∧ t.get SVC_RES SVC_RES_RESULT = 0 ∧ t.flag SVC_RES SVC_RES_BUSY = false ∧ t.cores = d.cores)))) ∧
    (d.svc.armed ≠ none ∨ d.flag SVC_IMG SVC_IMG_CONFWAIT = true → d.armJudge n = some 0x07) ∧
    (d.svc.armed = none → d.flag SVC_IMG SVC_IMG_CONFWAIT = false → d.flag SVC_STAT SVC_STAT_SESSION = true → d.armJudge n = some 0x18) ∧
    (d.svc.cmd = none → Gives (.svcCommandEnd false []) ⟨d, q⟩ d) ∧
    (d.svc.cmd = some (1, n) → After (.svcCommandEnd false []) ⟨d, q⟩ (fun t =>
      t.svc.cmd = none ∧ t.flag SVC_RES SVC_RES_BUSY = false ∧ t.flag SVC_STAT SVC_STAT_DONE = true ∧
      t.get SVC_RES SVC_RES_RESULT = (if d.bankBusy n then 0x14 else d.imgCheck n) ∧ (d.bankBusy n = false → (n ∈ t.svc.checked ↔ d.imgCheck n = 0)))) ∧
    (d.svc.cmd = some (2, n) → d.bankBusy n = true → Gives (.svcCommandEnd false [ok]) ⟨d, q⟩ (d.svcEnd 0x14)) ∧
    (d.svc.cmd = some (2, n) → d.bankBusy n = false → After (.svcCommandEnd false [ok]) ⟨d, q⟩ (fun t =>
      t.svc.cmd = none ∧ (ok = false → t.get SVC_RES SVC_RES_RESULT = 0x09 ∧ t.svc.armed = d.svc.armed) ∧
      (ok = true → atOrPast d.meshNow d.svcWhen = true → t.get SVC_RES SVC_RES_RESULT = 0x15 ∧ t.svc.armed = d.svc.armed) ∧
      (ok = true → atOrPast d.meshNow d.svcWhen = false → t.get SVC_RES SVC_RES_RESULT = 0 ∧ t.svc.armed = some n ∧ t.flag SVC_IMG SVC_IMG_ARMED = true))) ∧
    (d.svc.armed = none ∨ atOrPast d.meshNow d.svcWhen = false → Gives .imageSwitch ⟨d, q⟩ d) ∧
    (d.svc.armed = some n → n < 2 → atOrPast d.meshNow d.svcWhen = true → After .imageSwitch ⟨d, q⟩ (fun t =>
      t.get SVC_IMG SVC_IMG_RUNNING = n ∧ t.flag SVC_IMG SVC_IMG_CONFWAIT = true ∧ t.svc.armed = none ∧ t.flag SVC_IMG SVC_IMG_ARMED = false ∧
      t.svc.prev = d.get SVC_IMG SVC_IMG_RUNNING ∧ t.svc.confN = 0 ∧ t.flag SVC_STAT SVC_STAT_SWITCHF = true ∧
      (∀ k : Fin 7, d.planLevel k ≠ 0xFF → d.coreState k ≠ 0 ∨ t.coreState k = 1 → (t.core k).pc = BitVec.ofNat 32 (ihEntry (t.imgHdr n) k) ∧ t.coreState k = 1))) ∧
    (d.flag SVC_IMG SVC_IMG_CONFWAIT = false ∨ d.svc.confN < 32768 * d.get SVC_ARG SVC_ARG_CONFWIN_S → Gives .confirmWindowExpiry ⟨d, q⟩ d) ∧
    (d.flag SVC_IMG SVC_IMG_CONFWAIT = true → 32768 * d.get SVC_ARG SVC_ARG_CONFWIN_S ≤ d.svc.confN → d.svc.prev < 2 → After .confirmWindowExpiry ⟨d, q⟩ (fun t =>
      t.get SVC_IMG SVC_IMG_RUNNING = d.svc.prev ∧ t.flag SVC_IMG SVC_IMG_CONFWAIT = false ∧ t.flag SVC_STAT SVC_STAT_FELLBACK = true)) ∧
    (d.romHidden = true ∨ d.pwr.phase ≠ .running ∨ d.flag FLC_BOOT FLC_BOOT_READY = false ∨ d.flag SVC_STAT SVC_STAT_SERVICE = true ∨ d.sow.viobWait ≠ none →
      Gives (.bootChoice ins) ⟨d, q⟩ d) ∧
    (d.romHidden = false → d.pwr.phase = .running → d.flag FLC_BOOT FLC_BOOT_READY = true → d.flag SVC_STAT SVC_STAT_SERVICE = false → d.sow.viobWait = none →
      (d.pwr.extRet = none → d.svc.atn = true → After (.bootChoice ins) ⟨d, q⟩ (fun t =>
        t.flag SVC_STAT SVC_STAT_SERVICE = true ∧ t.get SVC_IMG SVC_IMG_RUNNING = 3 ∧ t.coreState 0 = 2 ∧ t.coreState 6 = 2)) ∧
      (∀ w, d.pwr.extRet = some w → (d.core 0).pc ≠ w → Gives (.bootChoice ins) ⟨d, q⟩ d) ∧
      (d.pwr.extRet = none → d.svc.atn = false → d.noExt = false → d.pwr.extDone = false → After (.bootChoice ins) ⟨d, q⟩ (fun t => ∃ w, t.pwr.extRet = some w ∧
        t.coreState 0 = 1 ∧ (t.core 0).pc = BitVec.ofNat 32 (ihEntry (d.imgHdr (2 + d.get FLC_BOOT FLC_BOOT_ACTIVE)) 0))) ∧
      (d.pwr.extRet = some (d.core 0).pc ∨ (d.pwr.extRet = none ∧ d.svc.atn = false ∧ (d.noExt = true ∨ d.pwr.extDone = true)) →
        d.flag PWR_SUPPLY PWR_SUPPLY_SLOW = false → After (.bootChoice ins) ⟨d, q⟩ (fun t =>
          t.flag SVC_STAT SVC_STAT_SERVICE = true ∨ t.sow.viobWait ≠ none ∨ t.get SVC_IMG SVC_IMG_RUNNING < 2)))

/-- The host port (R428 to R432): a port that is not sown serves nothing; reads and writes serve the bytes that an enabled window grants, count a frame
that strays outside, and nothing else moves; the doorbell holds one value; flags are set by cores and cleared by the host; a window is enabled only in
memory that it may lie in; bytes of an unpowered field read 0 and are not written, and while the port has agreed to a power state its requests wait.
Completion: for each of these commands a clause concludes that exec answers the next state given, under conditions on the state and the operands
alone: hostRead, hostWrite, hostStat, doorbell, irqclr, hostFlagSet, hostWindowWrite, hostUnknownCommand. -/
def Obligations.HostPort : Prop :=
  ∀ (d : Dev) (q : List Instr) (c : Fin 7) (w : Fin 2) (a v m : Word) (n : Nat) (bytes : List Byte) (b : Byte),
    (d.restsAt HST_STAT = true → ∀ i ∈ [Instr.hostWrite a bytes, .doorbell v, .irqclr m], Gives i ⟨d, q⟩ (d.hold i)) ∧
    (d.hostOn = false → d.restsAt HST_STAT = false → ∀ i ∈ [Instr.hostRead a n, .hostWrite a bytes, .hostStat, .doorbell v, .irqclr m, .hostUnknownCommand b], Gives i ⟨d, q⟩ d) ∧
    (d.hostOn = true → d.restsAt HST_STAT = false →
      After (.hostRead a n) ⟨d, q⟩ (fun e => e.host.out.length = n ∧ e.cores = d.cores ∧ (∀ y, e.byte y = d.byte y) ∧
        (∀ i, i < n → d.hostGrants (frameAddr a i) false = true → d.fieldOn (targetOf (frameAddr a i)).2 = true → sget 0 d.memErr (frameAddr a i / 4) ≤ 1 → e.host.out[i]? = some (d.byte (frameAddr a i))) ∧
        (∀ i, i < n → d.fieldOn (targetOf (frameAddr a i)).2 = false → e.host.out[i]? = some 0) ∧
        (∀ i, i < n → d.hostGrants (frameAddr a i) false = false → e.host.out[i]? = some 0 ∧ e.host.herr = true ∧ e.flag HST_STAT HST_STAT_ERR = true) ∧
        ((∀ i, i < n → d.hostGrants (frameAddr a i) false = true) → e.host.herr = d.host.herr ∧ e.reg HST_STAT = d.reg HST_STAT ∧ e.reg (HST_CNT 0) = d.reg (HST_CNT 0))) ∧
      After (.hostWrite a bytes) ⟨d, q⟩ (fun e => e.host.out = d.host.out ∧
        (0x20000000 ≤ a.toNat → a.toNat + bytes.length ≤ 2 ^ 32 → ∀ i x, bytes[i]? = some x →
          e.cell (a.toNat + i) = if d.hostGrants (a.toNat + i) true && d.fieldOn (targetOf (a.toNat + i)).2 then x else d.cell (a.toNat + i)) ∧
        (∀ y, (∀ i, i < bytes.length → d.hostGrants (frameAddr a i) true = true → d.canon (frameAddr a i) ≠ y) → e.cell y = d.cell y) ∧
        (d.hostMiss a bytes.length true = true → e.host.herr = true ∧ e.flag HST_STAT HST_STAT_ERR = true) ∧
        (d.hostMiss a bytes.length true = false → e.regs = d.regs ∧ e.host = { d.host with csAt := some d.clk.cyc })) ∧
      Gives .hostStat ⟨d, q⟩ { d with host := ⟨false, leBytes 4 (d.reg HST_HFLG).toNat ++ leBytes 4 ((d.flag HST_STAT HST_STAT_DBF).toNat + 2 * d.host.herr.toNat), some d.clk.cyc⟩ } ∧
      (d.flag HST_STAT HST_STAT_DBF = false → After (.doorbell v) ⟨d, q⟩ (fun e => e.reg HST_DB = v ∧ e.flag HST_STAT HST_STAT_DBF = true ∧ OnlyRegs [HST_DB, HST_STAT] { d with host := { d.host with csAt := some d.clk.cyc } } e)) ∧
      (d.flag HST_STAT HST_STAT_DBF = true → After (.doorbell v) ⟨d, q⟩ (fun e =>
        e.reg HST_DB = d.reg HST_DB ∧ e.host.herr = true ∧ e.flag HST_STAT HST_STAT_ERR = true ∧ (d.get (HST_CNT 1) HST_CNT_COUNT < 0xFFFF → e.get (HST_CNT 1) HST_CNT_COUNT = d.get (HST_CNT 1) HST_CNT_COUNT + 1))) ∧
      Gives (.irqclr m) ⟨d, q⟩ { d.setReg HST_HFLG (d.reg HST_HFLG &&& ~~~m) with host := { d.host with csAt := some d.clk.cyc } } ∧
      (b.toNat ∉ [0x0B, 0x02, 0x05, 0x31, 0x35] → Gives (.hostUnknownCommand b) ⟨d, q⟩ { d.count (HST_CNT 2) with host := { d.host with csAt := some d.clk.cyc } })) ∧
    (∀ x, d.srcLevel 1092 x = true ↔ (d.flag HST_STAT HST_STAT_DBF = true ∧ (d.get HST_STAT HST_STAT_IE).testBit 0 = true) ∨
      (d.flag HST_STAT HST_STAT_ERR = true ∧ (d.get HST_STAT HST_STAT_IE).testBit 1 = true)) ∧
    (BusOpen ⟨d, q⟩ c HST_HFLG true → Gives (.hostFlagSet c v) ⟨d, q⟩ (d.setReg HST_HFLG (d.reg HST_HFLG ||| v))) ∧
    (BusOpen ⟨d, q⟩ c (HST_WINC w) true → After (.hostWindowWrite c w v) ⟨d, q⟩ (fun e => OnlyRegs [HST_WINC w] d e ∧ e.get (HST_WINC w) HST_WINC_PAGES = getF v HST_WINC_PAGES ∧
      e.get (HST_WINC w) HST_WINC_WR = getF v HST_WINC_WR ∧
      (e.flag (HST_WINC w) HST_WINC_EN = true ↔ getF v HST_WINC_EN = 1 ∧ 1 ≤ getF v HST_WINC_PAGES ∧ getF v HST_WINC_PAGES ≤ 4096 ∧
        d.hostMem (d.hostBase w) (4096 * getF v HST_WINC_PAGES) = true)))

/-- The I²C controllers (R435 to R438): a command starts where none runs, its bytes move through the FIFOs, it ends with its result, a stuck bus takes
only RECOVER, and EN = 0 flushes and aborts. SPI, the UARTs and general output (R439 to R442). Completion: for each of these commands a clause
concludes that exec answers the next state given, under conditions on the state and the operands alone: i2cTransfer, i2cRecover, i2cCommandEnd,
sclStretchTimeout, i2cDisable, i2cDataWrite, i2cDataRead, spiTransfer, spiTransferEnd, spiDisable, uartTxPush, uartRxPop, uartByteReceived,
uartByteSent, gpioSet, gpioClr, uartCtsChange. -/
def Obligations.SensorBuses : Prop :=
  (∀ (d : Dev) (q : List Instr) (c : Fin 7) (n : Fin 2) (v u : Word) (b : Byte) (bus : List Byte) (cl : Bool) (en : I2cEnd),
      (BusOpen ⟨d, q⟩ c (I2C_CMD n) true →
        (d.flag (I2C_STAT n) I2C_STAT_BUSY = true → Gives (.i2cTransfer c n v) ⟨d, q⟩ d ∧ Gives (.i2cRecover c n) ⟨d, q⟩ d) ∧
        (d.flag (I2C_STAT n) I2C_STAT_BUSY = false → d.flag (I2C_CFG n) I2C_CFG_EN = true →
          (d.flag (I2C_STAT n) I2C_STAT_STUCK = false → After (.i2cTransfer c n v) ⟨d, q⟩ (fun e =>
            (e.i2cOf n).cmd = some (setF v I2C_CMD_RECOVER 0) ∧ (e.i2cOf n).n = 0 ∧ (e.i2cOf n).tx = (d.i2cOf n).tx ∧ e.flag (I2C_STAT n) I2C_STAT_BUSY = true)) ∧
          (d.flag (I2C_STAT n) I2C_STAT_STUCK = true → After (.i2cTransfer c n v) ⟨d, q⟩ (fun e =>
            e.get (I2C_STAT n) I2C_STAT_RESULT = 7 ∧ (e.i2cOf n).sent = (d.i2cOf n).sent ∧ e.flag (I2C_STAT n) I2C_STAT_DONE = true ∧ e.flag (I2C_STAT n) I2C_STAT_BUSY = false)) ∧
          After (.i2cRecover c n) ⟨d, q⟩ (fun e => (e.i2cOf n).cmd = some 0x80000000 ∧ e.flag (I2C_STAT n) I2C_STAT_BUSY = true))) ∧
      (BusOpen ⟨d, q⟩ c (I2C_CFG n) true → d.flag (I2C_STAT n) I2C_STAT_BUSY = true → After (.i2cDisable c n v) ⟨d, q⟩ (fun e =>
        e.flag (I2C_CFG n) I2C_CFG_EN = false ∧ (e.i2cOf n).tx = [] ∧ (e.i2cOf n).rx = [] ∧ e.get (I2C_STAT n) I2C_STAT_RESULT = 8 ∧
        e.flag (I2C_STAT n) I2C_STAT_BUSY = false ∧ e.flag (I2C_STAT n) I2C_STAT_DONE = true)) ∧
      ((d.i2cOf n).cmd = none → BusOpen ⟨d.i2cMoved n bus, q⟩ c (I2C_DATA n) true → (d.i2cOf n).tx.length < 16 →
        After (.i2cDataWrite c n b bus) ⟨d, q⟩ (fun e => (e.i2cOf n).tx = (d.i2cOf n).tx ++ [b] ∧ (e.i2cOf n).rx = (d.i2cOf n).rx)) ∧
      ((d.i2cOf n).cmd = none → BusOpen ⟨d.i2cMoved n bus, q⟩ c (I2C_DATA n) false → ∀ y r, (d.i2cOf n).rx = y :: r →
        After (.i2cDataRead c n bus) ⟨d, q⟩ (fun e => e.rdata = y.setWidth 32 ∧ (e.i2cOf n).rx = r ∧ (e.i2cOf n).tx = (d.i2cOf n).tx)) ∧
      ((d.i2cOf n).cmd = none → Gives (.i2cCommandEnd n bus cl en) ⟨d, q⟩ d) ∧
      ((d.i2cOf n).cmd = some u →
        (getF u I2C_CMD_RECOVER = 1 → en ≠ .sdaLow → After (.i2cCommandEnd n bus cl en) ⟨d, q⟩ (fun e =>
          e.flag (I2C_STAT n) I2C_STAT_STUCK = false ∧ e.get (I2C_STAT n) I2C_STAT_RESULT = 1 ∧ (e.i2cOf n).cmd = none)) ∧
        (getF u I2C_CMD_RECOVER = 1 ∨ (d.i2cOf n).rep = false → After (.i2cCommandEnd n bus cl .sdaLow) ⟨d, q⟩ (fun e =>
          e.flag (I2C_STAT n) I2C_STAT_STUCK = true ∧ e.get (I2C_STAT n) I2C_STAT_RESULT = 6 ∧ (e.i2cOf n).cmd = none)) ∧
        (getF u I2C_CMD_RECOVER = 0 → After (.i2cCommandEnd n bus cl .nackAddr) ⟨d, q⟩ (fun e =>
          e.get (I2C_STAT n) I2C_STAT_RESULT = 2 ∧ (e.i2cOf n).tx = [] ∧ (e.i2cOf n).cmd = none ∧ e.flag (I2C_STAT n) I2C_STAT_BUSY = false)) ∧
        (getF u I2C_CMD_RECOVER = 0 → getF u I2C_CMD_RD = 0 → (d.i2cOf n).n = 0 → (d.i2cOf n).sent = [] → getF u I2C_CMD_LEN = bus.length → bus.length ≤ (d.i2cOf n).tx.length →
          After (.i2cCommandEnd n bus cl .ok) ⟨d, q⟩ (fun e =>
            e.get (I2C_STAT n) I2C_STAT_RESULT = 1 ∧ (e.i2cOf n).sent = BitVec.ofNat 8 (2 * getF u I2C_CMD_ADDR) :: (d.i2cOf n).tx.take bus.length ∧ (e.i2cOf n).tx = (d.i2cOf n).tx.drop bus.length)) ∧
        (getF u I2C_CMD_RECOVER = 0 → getF u I2C_CMD_RD = 1 → (d.i2cOf n).n = 0 → getF u I2C_CMD_LEN = bus.length → (d.i2cOf n).rx.length + bus.length ≤ 16 →
          After (.i2cCommandEnd n bus cl .ok) ⟨d, q⟩ (fun e => e.get (I2C_STAT n) I2C_STAT_RESULT = 1 ∧ (e.i2cOf n).rx = (d.i2cOf n).rx ++ bus))) ∧
      (d.flag (I2C_STAT n) I2C_STAT_BUSY = true → After (.sclStretchTimeout n) ⟨d, q⟩ (fun e =>
        e.flag (I2C_STAT n) I2C_STAT_STUCK = true ∧ e.get (I2C_STAT n) I2C_STAT_RESULT = 5 ∧ e.flag (I2C_STAT n) I2C_STAT_BUSY = false)) ∧
      (d.flag (I2C_STAT n) I2C_STAT_BUSY = false → Gives (.sclStretchTimeout n) ⟨d, q⟩ d)) ∧
  (∀ (d : Dev) (q : List Instr) (c : Fin 7) (n k : Fin 2) (v u : Word) (b s : Byte) (rx r : List Byte) (on fr pa : Bool),
      (BusOpen ⟨d, q⟩ c SPI_XFER true →
        (d.flag SPI_STAT SPI_STAT_BUSY = true → Gives (.spiTransfer c v) ⟨d, q⟩ d) ∧
        (d.flag SPI_STAT SPI_STAT_BUSY = false → d.flag SPI_CFG SPI_CFG_EN = true → After (.spiTransfer c v) ⟨d, q⟩ (fun e =>
          e.spi = ⟨some v, none, []⟩ ∧ e.flag SPI_STAT SPI_STAT_BUSY = true ∧ e.cores = d.cores))) ∧
      (d.spi.xfer = none → Gives (.spiTransferEnd rx) ⟨d, q⟩ d) ∧
      (d.spi.xfer = some u → After (.spiTransferEnd rx) ⟨d, q⟩ (fun e =>
        e.flag SPI_STAT SPI_STAT_BUSY = false ∧ e.flag SPI_STAT SPI_STAT_DONE = true ∧ e.spi.xfer = none ∧
        (d.reg SPI_TXA = 0 → d.reg SPI_RXA = 0 → e.get SPI_STAT SPI_STAT_RESULT = 1 ∧ e.spi.sent = List.replicate (getF u SPI_XFER_LEN) 0xFF ∧
          e.spi.held = (if getF u SPI_XFER_HOLD = 1 then some (getF u SPI_XFER_CS) else none) ∧ ∀ y, e.cell y = d.cell y) ∧
        (d.reg SPI_TXA ≠ 0 → 0 < getF u SPI_XFER_LEN → d.nfcBus (d.reg SPI_TXA).toNat 1 false = false → e.get SPI_STAT SPI_STAT_RESULT = 2 ∧ e.spi.sent = []) ∧
        (d.reg SPI_TXA = 0 → d.reg SPI_RXA ≠ 0 → d.nfcBus (d.reg SPI_RXA).toNat 1 true = true → 0x20000000 ≤ (d.reg SPI_RXA).toNat → getF u SPI_XFER_LEN = 1 →
          e.get SPI_STAT SPI_STAT_RESULT = 1 ∧ e.cell (d.reg SPI_RXA).toNat = rx.getD 0 0xFF ∧ ∀ y, y ≠ (d.reg SPI_RXA).toNat → e.cell y = d.cell y))) ∧
      (BusOpen ⟨d, q⟩ c SPI_CFG true → After (.spiDisable c v rx) ⟨d, q⟩ (fun e =>
        e.flag SPI_CFG SPI_CFG_EN = false ∧ e.spi.xfer = none ∧ e.spi.held = none ∧
        e.get SPI_CFG SPI_CFG_DIV = (if getF v SPI_CFG_DIV = 0 then d.get SPI_CFG SPI_CFG_DIV else getF v SPI_CFG_DIV) ∧
        (d.spi.xfer ≠ none → e.get SPI_STAT SPI_STAT_RESULT = 3 ∧ e.flag SPI_STAT SPI_STAT_DONE = true))) ∧
      (BusOpen ⟨d, q⟩ c (UART_DATA n) true → (d.uartOf n).tx.length < 32 →
        ((d.uartOf n).sh ≠ none ∨ d.uartMay n = false → After (.uartTxPush c n b) ⟨d, q⟩ (fun e => (e.uartOf n).tx = (d.uartOf n).tx ++ [b] ∧ (e.uartOf n).sh = (d.uartOf n).sh)) ∧
        ((d.uartOf n).sh = none → (d.uartOf n).tx = [] → d.uartMay n = true → After (.uartTxPush c n b) ⟨d, q⟩ (fun e =>
          (e.uartOf n).tx = [] ∧ (e.uartOf n).sh = some b ∧ e.flag (UART_STAT n) UART_STAT_TXBUSY = true))) ∧
      (BusOpen ⟨d, q⟩ c (UART_DATA n) false →
        ((d.uartOf n).rx = [] → Gives (.uartRxPop c n) ⟨d, q⟩ { d with rdata := 0 }) ∧
        ((d.uartOf n).rx = s :: r → After (.uartRxPop c n) ⟨d, q⟩ (fun e => e.rdata = 0x100 ||| s.setWidth 32 ∧ (e.uartOf n).rx = r ∧ (e.uartOf n).tx = (d.uartOf n).tx))) ∧
      (d.fieldOn 6 = false ∨ d.flag (UART_CFG n) UART_CFG_EN = false ∨ d.rests (19 + n) = true → Gives (.uartByteReceived n b fr pa) ⟨d, q⟩ d) ∧
      (d.fieldOn 6 = true → d.flag (UART_CFG n) UART_CFG_EN = true → d.rests (19 + n) = false →
        ((d.uartOf n).rx.length < 32 → After (.uartByteReceived n b false false) ⟨d, q⟩ (fun e => (e.uartOf n).rx = (d.uartOf n).rx ++ [b])) ∧
        (32 ≤ (d.uartOf n).rx.length → Gives (.uartByteReceived n b false false) ⟨d, q⟩ ((d.count (UART_CNT n 2)).put (UART_STAT n) UART_STAT_ERRF 1)) ∧
        Gives (.uartByteReceived n b true false) ⟨d, q⟩ ((d.count (UART_CNT n 0)).put (UART_STAT n) UART_STAT_ERRF 1) ∧
        (d.get (UART_CFG n) UART_CFG_PARITY = 1 ∨ d.get (UART_CFG n) UART_CFG_PARITY = 2 → Gives (.uartByteReceived n b false true) ⟨d, q⟩ ((d.count (UART_CNT n 1)).put (UART_STAT n) UART_STAT_ERRF 1))) ∧
      ((d.uartOf n).sh = none → Gives (.uartByteSent n) ⟨d, q⟩ d) ∧
      ((d.uartOf n).sh ≠ none → After (.uartByteSent n) ⟨d, q⟩ (fun e =>
        ((d.uartOf n).tx = [] ∨ d.uartMay n = false → (e.uartOf n).sh = none ∧ (e.uartOf n).tx = (d.uartOf n).tx) ∧
        ((d.uartOf n).tx = s :: r → d.uartMay n = true → (e.uartOf n).sh = some s ∧ (e.uartOf n).tx = r))) ∧
      After (.uartCtsChange n on) ⟨d, q⟩ (fun e => (e.uartOf n).cts = on ∧ (e.uartOf n).rx = (d.uartOf n).rx) ∧
      (BusOpen ⟨d, q⟩ c (GPIO_SET k) true → After (.gpioSet c k v) ⟨d, q⟩ (fun e => OnlyRegs [GPIO_OUT k] d e ∧ e.gpioOut k = d.gpioMask k &&& (d.reg (GPIO_OUT k) ||| v))) ∧
      (BusOpen ⟨d, q⟩ c (GPIO_CLR k) true → After (.gpioClr c k v) ⟨d, q⟩ (fun e => OnlyRegs [GPIO_OUT k] d e ∧ e.gpioOut k = d.gpioMask k &&& (d.reg (GPIO_OUT k) &&& ~~~v))))

/-- The error log (R444, R445, R447, R448): the report taken is the first in order; it coalesces into the newest entry, opens one, or is lost; a core
reads the entry that it latched, and pops that one only. Completion: for each of these commands a clause concludes that exec answers the next state
given, under conditions on the state and the operands alone: errorLogTake, errorLogLatch, errorLogPop, ovfClear, counterRead. -/
def Obligations.ErrorLog : Prop :=
  ∀ (d : Dev) (q : List Instr) (c : Fin 7) (r : Report) (e : ErlEntry) (l : List ErlEntry) (i : Nat) (w : List Word),
    (d.waiting = [] ∨ d.fieldOn 1 = false → Gives .errorLogTake ⟨d, q⟩ d) ∧
    (nextReport d.waiting = some r → r ∈ d.waiting ∧ (∀ x ∈ d.waiting, x.before r = false) ∧
      (d.fieldOn 1 = true → After .errorLogTake ⟨d, q⟩ (fun t => t.waiting = d.waiting.erase r ∧
        (d.erlFifo = l ++ [e] → d.coalesces r e = true →
          t.erlFifo = l ++ [{ e with rep := if e.rep = 0xFFFF then 0xFFFF else e.rep + 1, last := d.meshNow % 2 ^ 32 }] ∧ t.regs = d.regs) ∧
        (d.erlFifo.length < 64 → (∀ x, d.erlFifo.getLast? = some x → d.coalesces r x = false) →
          t.erlFifo = d.erlFifo ++ [⟨d.erlNext, r.blk, r.unit, r.code, r.detail, d.meshNow, 0, d.meshNow % 2 ^ 32, r.extra⟩] ∧ t.get ERL_STAT ERL_STAT_N = d.erlFifo.length + 1) ∧
        (64 ≤ d.erlFifo.length → (∀ x, d.erlFifo.getLast? = some x → d.coalesces r x = false) → t.erlFifo = d.erlFifo ∧ t.flag ERL_STAT ERL_STAT_OVF = true)))) ∧
    (BusOpen ⟨d, q⟩ c (ERL_ENT 0) false →
      (d.erlFifo = [] → After (.errorLogLatch c) ⟨d, q⟩ (fun t => t.rdata = 0xFC000000 ∧ (t.core c).erl = none)) ∧
      (d.erlFifo = e :: l → After (.errorLogLatch c) ⟨d, q⟩ (fun t =>
        t.rdata = mkWord [(⟨31, 26⟩, e.blk), (⟨25, 12⟩, e.unit), (⟨7, 0⟩, e.code)] ∧ (t.core c).erl = some (e.id, e.words) ∧ t.erlFifo = d.erlFifo ∧
        ∀ k, k ≠ c → t.core k = d.core k))) ∧
    (∀ n : Fin 10, 1 ≤ n.val → n.val ≤ 8 → BusOpen ⟨d, q⟩ c (ERL_ENT n) false → (d.core c).erl = some (i, w) →
      Gives (.counterRead c (BitVec.ofNat 32 (ERL_ENT n))) ⟨d, q⟩ { d with rdata := w.getD n 0 }) ∧
    (BusOpen ⟨d, q⟩ c (ERL_ENT 9) false →
      ((d.core c).erl = none → Gives (.errorLogPop c) ⟨d, q⟩ { d with rdata := 0 }) ∧
      ((d.core c).erl = some (i, w) → After (.errorLogPop c) ⟨d, q⟩ (fun t => t.rdata = w.getD 9 0 ∧
        (d.erlFifo = e :: l → e.id = i → t.erlFifo = l) ∧ (d.erlFifo = e :: l → e.id ≠ i → t.erlFifo = d.erlFifo ∧ t.regs = d.regs)))) ∧
    (BusOpen ⟨d, q⟩ c ERL_STAT true → d.erlCyc ≠ d.clk.cyc + 1 → After (.ovfClear c) ⟨d, q⟩ (fun t => t.flag ERL_STAT ERL_STAT_OVF = false ∧ t.flag ERL_FIRSTLOST ERL_FIRSTLOST_VALID = false ∧
      t.flag ERL_LASTLOST ERL_LASTLOST_VALID = false ∧ OnlyRegs [ERL_STAT, ERL_FIRSTLOST, ERL_LASTLOST] d t))

/-- Reads and writes of registers (R14, R15, R295, R450): a counter's read shows COUNT and SAT and clears them, counters saturate, every register that the
bus lets a core write takes the write: a plain register keeps what is written in its fields and ignores the rest, a register whose write is a command
does what that command does; and an access that the bus turns away is a bus fault and nothing else. Completion: for each of these commands a clause
concludes that exec answers the next state given, under conditions on the state and the operands alone: counterRead, registerWrite. -/
def Obligations.RegisterAccess : Prop :=
  ∀ (d : Dev) (q : List Instr) (c : Fin 7) (a v : Word) (k : Nat),
    (BusOpen ⟨d, q⟩ c (HST_CNT 0) false → Gives (.counterRead c (BitVec.ofNat 32 (HST_CNT 0))) ⟨d, q⟩
      { d.setReg (HST_CNT 0) (setF (setF (d.reg (HST_CNT 0)) HST_CNT_SAT 0) HST_CNT_COUNT 0) with rdata := d.reg (HST_CNT 0) }) ∧
    (BusOpen ⟨d, q⟩ c HST_HEN true → Gives (.registerWrite c (BitVec.ofNat 32 HST_HEN) v) ⟨d, q⟩ (d.setReg HST_HEN v)) ∧
    (BusOpen ⟨d, q⟩ c (wordAt a) true → d.writeDenied c (wordAt a) v = false →
      Gives (.registerWrite c a v) ⟨d, q⟩ (d.wordWrite c (wordAt a) v) ∧
      (∀ r i, regAt (wordAt a) = some (r, i) → r ∈ plainRegs → Gives (.registerWrite c a v) ⟨d, q⟩ (d.setReg (wordAt a) (r.write (d.reg (wordAt a)) v))) ∧
      (∀ i, WriteRow c v (wordAt a) i → exec (.registerWrite c a v) ⟨d, q⟩ = exec i ⟨d, q⟩)) ∧
    (d.coreActs c = true → d.restsAt (wordAt a) = false → d.writeDenied c (wordAt a) v = false → d.periphCode c (wordAt a) (decide (getF (d.core c).fl flU = 1)) true = some k → Gives (.registerWrite c a v) ⟨d, q⟩ (d.enter c (busFault d c (wordAt a) k true))) ∧
    (BusOpen ⟨d, q⟩ c (wordAt a) true → d.writeDenied c (wordAt a) v = true → Gives (.registerWrite c a v) ⟨d, q⟩ (d.enter c (busFault d c (wordAt a) synPRIVILEGE true))) ∧
    (∀ n, d.get n ⟨15, 0⟩ < 0xFFFF → (d.count n).get n ⟨15, 0⟩ = d.get n ⟨15, 0⟩ + 1) ∧
    (∀ n, d.get n ⟨15, 0⟩ = 0xFFFF → (d.count n).get n ⟨15, 0⟩ = 0xFFFF ∧ (d.count n).get n ⟨31, 31⟩ = 1)
end

