-- ==== Sys2Proof/Laws/Bits.lean ====
section
/-! SUPPORT. The laws of register fields: a field read after a field write. -/

namespace Sys2Proof.Machine

theorem fmask_getLsbD (f : Fld) (j : Nat) (h2 : f.hi < 32) (hl : f.lo ≤ f.hi) :
    (fmask f).getLsbD j = decide (f.lo ≤ j ∧ j ≤ f.hi) := by
  unfold fmask Fld.width
  rw [BitVec.getLsbD_ofNat, Nat.testBit_shiftLeft, Nat.testBit_two_pow_sub_one]
  by_cases h : f.lo ≤ j ∧ j ≤ f.hi
  · have : j < 32 := by omega
    simp [h.1, h.2, this]; omega
  · by_cases h1 : f.lo ≤ j
    · have h3 : ¬ j ≤ f.hi := fun h3 => h ⟨h1, h3⟩
      simp [h1, h3]; omega
    · simp [h1]

theorem setF_getLsbD (w : Word) (f : Fld) (v j : Nat) (h2 : f.hi < 32) (hl : f.lo ≤ f.hi) :
    (setF w f v).getLsbD j = if f.lo ≤ j ∧ j ≤ f.hi then v.testBit (j - f.lo) else w.getLsbD j := by
  unfold setF
  rw [BitVec.getLsbD_or, BitVec.getLsbD_and, BitVec.getLsbD_not, fmask_getLsbD f j h2 hl, BitVec.getLsbD_ofNat,
    Nat.testBit_shiftLeft, Nat.testBit_mod_two_pow]
  by_cases h : f.lo ≤ j ∧ j ≤ f.hi
  · have h3 : j < 32 := by omega
    have h4 : j - f.lo < f.width := by unfold Fld.width; omega
    simp [h.1, h.2, h3, h4]
  · by_cases h1 : f.lo ≤ j
    · have h3 : ¬ j ≤ f.hi := fun h3 => h ⟨h1, h3⟩
      have h4 : ¬ (j - f.lo < f.width) := by unfold Fld.width; omega
      by_cases h5 : j < 32
      · simp [h3, h4, h5]
      · simp [h3, h4, BitVec.getLsbD_of_ge w j (by omega)]
    · by_cases h5 : j < 32
      · simp [h1, h5]
      · simp [h1, BitVec.getLsbD_of_ge w j (by omega)]

theorem getF_testBit (w : Word) (f : Fld) (i : Nat) :
    (getF w f).testBit i = (decide (i < f.width) && w.getLsbD (f.lo + i)) := by
  unfold getF
  rw [Nat.testBit_mod_two_pow, Nat.testBit_shiftRight]
  rfl

/-- A field reads back what was written to it, cut to its width. -/
theorem getF_setF_same (w : Word) (f : Fld) (v : Nat) (h2 : f.hi < 32) (hl : f.lo ≤ f.hi) :
    getF (setF w f v) f = v % 2 ^ f.width := by
  apply Nat.eq_of_testBit_eq
  intro i
  rw [getF_testBit, setF_getLsbD w f v _ h2 hl, Nat.testBit_mod_two_pow]
  by_cases h : i < f.width
  · have h' : f.lo ≤ f.lo + i ∧ f.lo + i ≤ f.hi := by unfold Fld.width at h; omega
    simp [h, h'.2]
  · simp [h]

/-- A write to one field leaves a field that shares no bit with it. -/
theorem getF_setF_other (w : Word) (f g : Fld) (v : Nat) (h2 : f.hi < 32) (hl : f.lo ≤ f.hi)
    (hd : g.hi < f.lo ∨ f.hi < g.lo) : getF (setF w f v) g = getF w g := by
  apply Nat.eq_of_testBit_eq
  intro i
  rw [getF_testBit, getF_testBit, setF_getLsbD w f v _ h2 hl]
  by_cases h : i < g.width
  · have h' : ¬ (f.lo ≤ g.lo + i ∧ g.lo + i ≤ f.hi) := by unfold Fld.width at h; omega
    rw [if_neg h']
  · simp [h]

/-- A field's value lies below two to its width. -/
theorem getF_lt (w : Word) (f : Fld) : getF w f < 2 ^ f.width := Nat.mod_lt _ (Nat.two_pow_pos _)

end Sys2Proof.Machine
end

