-- ==== Sys2Proof/Laws/Exec.lean ====
section
/-! SUPPORT. `exec` on each command is that command's meaning. -/

namespace Sys2Proof.Machine

@[simp] theorem exec_fieldLineFault (n : Fin 8) (v : LineV) (st : State) : exec (.fieldLineFault n v) st = execFieldLineFault n v st := rfl
@[simp] theorem exec_fieldLineRetry (n : Fin 8) (st : State) : exec (.fieldLineRetry n) st = execFieldLineRetry n st := rfl
@[simp] theorem exec_flnCfgWrite (c : Fin 7) (n : Fin 8) (v : Word) (st : State) : exec (.flnCfgWrite c n v) st = execFlnCfgWrite c n v st := rfl
@[simp] theorem exec_fltClear (c : Fin 7) (v : Word) (st : State) : exec (.fltClear c v) st = execFltClear c v st := rfl
@[simp] theorem exec_interDieTransfer (die : Fin 2) (ok : Bool) (st : State) : exec (.interDieTransfer die ok) st = execInterDieTransfer die ok st := rfl
@[simp] theorem exec_linkLost (die : Fin 2) (st : State) : exec (.linkLost die) st = execLinkLost die st := rfl
@[simp] theorem exec_rfDieResetEnd (st : State) : exec (.rfDieResetEnd) st = execRfDieResetEnd st := rfl
@[simp] theorem exec_rfDieResow (st : State) : exec (.rfDieResow) st = execRfDieResow st := rfl
@[simp] theorem exec_supplyLowWarning (st : State) : exec (.supplyLowWarning) st = execSupplyLowWarning st := rfl
@[simp] theorem exec_supplyLowClear (st : State) : exec (.supplyLowClear) st = execSupplyLowClear st := rfl
@[simp] theorem exec_brownOut (st : State) : exec (.brownOut) st = execBrownOut st := rfl
@[simp] theorem exec_brownOutRelease (st : State) : exec (.brownOutRelease) st = execBrownOutRelease st := rfl
@[simp] theorem exec_powerOnReset (st : State) : exec (.powerOnReset) st = execPowerOnReset st := rfl
@[simp] theorem exec_vinWindowEnd (mv : BitVec 16) (st : State) : exec (.vinWindowEnd mv) st = execVinWindowEnd mv st := rfl
@[simp] theorem exec_reservationRelease (h : Fin 64) (st : State) : exec (.reservationRelease h) st = execReservationRelease h st := rfl
@[simp] theorem exec_powerMonitorSample (mw : BitVec 16) (st : State) : exec (.powerMonitorSample mw) st = execPowerMonitorSample mw st := rfl
@[simp] theorem exec_overClear (c : Fin 7) (st : State) : exec (.overClear c) st = execOverClear c st := rfl
@[simp] theorem exec_thermalShutdown (st : State) : exec (.thermalShutdown) st = execThermalShutdown st := rfl
@[simp] theorem exec_thermalRelease (st : State) : exec (.thermalRelease) st = execThermalRelease st := rfl
@[simp] theorem exec_resetPin (st : State) : exec (.resetPin) st = execResetPin st := rfl
@[simp] theorem exec_sysrst (c : Fin 7) (st : State) : exec (.sysrst c) st = execSysrst c st := rfl
@[simp] theorem exec_rfdie (c : Fin 7) (st : State) : exec (.rfdie c) st = execRfdie c st := rfl
@[simp] theorem exec_fldie (c : Fin 7) (st : State) : exec (.fldie c) st = execFldie c st := rfl
@[simp] theorem exec_rootPllLock (rf fl : Bool) (st : State) : exec (.rootPllLock rf fl) st = execRootPllLock rf fl st := rfl
@[simp] theorem exec_resetRelease (reads : List (Word × Word)) (pins : Bool × Bool) (st : State) : exec (.resetRelease reads pins) st = execResetRelease reads pins st := rfl
@[simp] theorem exec_domainGate (i : Fin 112) (st : State) : exec (.domainGate i) st = execDomainGate i st := rfl
@[simp] theorem exec_domainWake (i : Fin 112) (st : State) : exec (.domainWake i) st = execDomainWake i st := rfl
@[simp] theorem exec_referenceFailure (st : State) : exec (.referenceFailure) st = execReferenceFailure st := rfl
@[simp] theorem exec_fallbackRelock (st : State) : exec (.fallbackRelock) st = execFallbackRelock st := rfl
@[simp] theorem exec_refCountWindow (n : BitVec 16) (st : State) : exec (.refCountWindow n) st = execRefCountWindow n st := rfl
@[simp] theorem exec_restore (c : Fin 7) (v : Word) (st : State) : exec (.restore c v) st = execRestore c v st := rfl
@[simp] theorem exec_restoreRelock (st : State) : exec (.restoreRelock) st = execRestoreRelock st := rfl
@[simp] theorem exec_lfCrystalFailure (st : State) : exec (.lfCrystalFailure) st = execLfCrystalFailure st := rfl
@[simp] theorem exec_substituteSwitch (st : State) : exec (.substituteSwitch) st = execSubstituteSwitch st := rfl
@[simp] theorem exec_fullPlanSow (a : Word) (viob : Option (Fin 2)) (st : State) : exec (.fullPlanSow a viob) st = execFullPlanSow a viob st := rfl
@[simp] theorem exec_viobMeasure (viob : Option (Fin 2)) (st : State) : exec (.viobMeasure viob) st = execViobMeasure viob st := rfl
@[simp] theorem exec_bootHandoff (st : State) : exec (.bootHandoff) st = execBootHandoff st := rfl
@[simp] theorem exec_sowStage (c : Fin 7) (st : State) : exec (.sowStage c) st = execSowStage c st := rfl
@[simp] theorem exec_stageValidated (viob : Option (Fin 2)) (st : State) : exec (.stageValidated viob) st = execStageValidated viob st := rfl
@[simp] theorem exec_sowApply (c : Fin 7) (st : State) : exec (.sowApply c) st = execSowApply c st := rfl
@[simp] theorem exec_sowArm (c : Fin 7) (st : State) : exec (.sowArm c) st = execSowArm c st := rfl
@[simp] theorem exec_sowCancel (c : Fin 7) (st : State) : exec (.sowCancel c) st = execSowCancel c st := rfl
@[simp] theorem exec_sowActivation (st : State) : exec (.sowActivation) st = execSowActivation st := rfl
@[simp] theorem exec_drainEnd (c : Fin 4) (st : State) : exec (.drainEnd c) st = execDrainEnd c st := rfl
@[simp] theorem exec_drainLimit (c : Fin 4) (st : State) : exec (.drainLimit c) st = execDrainLimit c st := rfl
@[simp] theorem exec_channelizerReload (c : Fin 4) (st : State) : exec (.channelizerReload c) st = execChannelizerReload c st := rfl
@[simp] theorem exec_detectorResume (c : Fin 4) (st : State) : exec (.detectorResume c) st = execDetectorResume c st := rfl
@[simp] theorem exec_rxChainOn (c : Fin 7) (x : Fin 4) (v : Word) (st : State) : exec (.rxChainOn c x v) st = execRxChainOn c x v st := rfl
@[simp] theorem exec_rxChainReady (c : Fin 4) (st : State) : exec (.rxChainReady c) st = execRxChainReady c st := rfl
@[simp] theorem exec_rxChainOff (c : Fin 7) (x : Fin 4) (v : Word) (st : State) : exec (.rxChainOff c x v) st = execRxChainOff c x v st := rfl
@[simp] theorem exec_agcWindowEnd (c : Fin 4) (peak : BitVec 8) (clip : Bool) (st : State) : exec (.agcWindowEnd c peak clip) st = execAgcWindowEnd c peak clip st := rfl
@[simp] theorem exec_agcStepUp (c : Fin 4) (st : State) : exec (.agcStepUp c) st = execAgcStepUp c st := rfl
@[simp] theorem exec_gainWrite (c : Fin 7) (x : Fin 4) (g : BitVec 3) (st : State) : exec (.gainWrite c x g) st = execGainWrite c x g st := rfl
@[simp] theorem exec_mctapWrite (c : Fin 7) (m : Fin 2) (v : Word) (st : State) : exec (.mctapWrite c m v) st = execMctapWrite c m v st := rfl
@[simp] theorem exec_blankingEnd (c : Fin 4) (st : State) : exec (.blankingEnd c) st = execBlankingEnd c st := rfl
@[simp] theorem exec_calfWrite (c : Fin 7) (t : Fin 2) (i : Fin 256) (v : Word) (st : State) : exec (.calfWrite c t i v) st = execCalfWrite c t i v st := rfl
@[simp] theorem exec_pwrtabWrite (c : Fin 7) (t : Fin 2) (i : Fin 64) (v : Word) (st : State) : exec (.pwrtabWrite c t i v) st = execPwrtabWrite c t i v st := rfl
@[simp] theorem exec_txArm (t : Fin 2) (ent : Fin 256) (bHz : Nat) (pwr : Fin 64) (lead : Nat) (toa : Nat) (cls : Fin 16) (st : State) : exec (.txArm t ent bHz pwr lead toa cls) st = execTxArm t ent bHz pwr lead toa cls st := rfl
@[simp] theorem exec_coexRequestRaise (t : Fin 2) (st : State) : exec (.coexRequestRaise t) st = execCoexRequestRaise t st := rfl
@[simp] theorem exec_txSetup (t : Fin 2) (st : State) : exec (.txSetup t) st = execTxSetup t st := rfl
@[simp] theorem exec_trswToTransmit (t : Fin 2) (st : State) : exec (.trswToTransmit t) st = execTrswToTransmit t st := rfl
@[simp] theorem exec_lockCheck (t : Fin 2) (locked : Bool) (st : State) : exec (.lockCheck t locked) st = execLockCheck t locked st := rfl
@[simp] theorem exec_rampStart (t : Fin 2) (gnt : Bool) (st : State) : exec (.rampStart t gnt) st = execRampStart t gnt st := rfl
@[simp] theorem exec_grantSeen (t : Fin 2) (st : State) : exec (.grantSeen t) st = execGrantSeen t st := rfl
@[simp] theorem exec_grantWaitTimeout (t : Fin 2) (st : State) : exec (.grantWaitTimeout t) st = execGrantWaitTimeout t st := rfl
@[simp] theorem exec_coexAbort (t : Fin 2) (act : Bool) (st : State) : exec (.coexAbort t act) st = execCoexAbort t act st := rfl
@[simp] theorem exec_txLastSample (t : Fin 2) (st : State) : exec (.txLastSample t) st = execTxLastSample t st := rfl
@[simp] theorem exec_rampDownEnd (t : Fin 2) (st : State) : exec (.rampDownEnd t) st = execRampDownEnd t st := rfl
@[simp] theorem exec_txEnd (t : Fin 2) (st : State) : exec (.txEnd t) st = execTxEnd t st := rfl
@[simp] theorem exec_antennaWrite (c : Fin 7) (sel : Bool) (st : State) : exec (.antennaWrite c sel) st = execAntennaWrite c sel st := rfl
@[simp] theorem exec_dwellTrackerFree (t : Fin 2) (khz : BitVec 22) (st : State) : exec (.dwellTrackerFree t khz) st = execDwellTrackerFree t khz st := rfl
@[simp] theorem exec_txHoldEnd (t : Fin 2) (st : State) : exec (.txHoldEnd t) st = execTxHoldEnd t st := rfl
@[simp] theorem exec_detectorWindow (c : Fin 4) (ch : Fin 256) (b : Fin 5) (e : Fin 8) (track marked : Bool) (x : List Cx) (st : State) : exec (.detectorWindow c ch b e track marked x) st = execDetectorWindow c ch b e track marked x st := rfl
@[simp] theorem exec_furrowSymbol (f : Fin 1024) (x : Meas) (st : State) : exec (.furrowSymbol f x) st = execFurrowSymbol f x st := rfl
@[simp] theorem exec_reclaimComplete (u : Fin 1026) (st : State) : exec (.reclaimComplete u) st = execReclaimComplete u st := rfl
@[simp] theorem exec_earlyVerdict (u : Fin 1026) (st : State) : exec (.earlyVerdict u) st = execEarlyVerdict u st := rfl
@[simp] theorem exec_addressFilter (u : Fin 1026) (st : State) : exec (.addressFilter u) st = execAddressFilter u st := rfl
@[simp] theorem exec_decoderGrant (st : State) : exec (.decoderGrant) st = execDecoderGrant st := rfl
@[simp] theorem exec_blockDecoded (k : Fin 10) (st : State) : exec (.blockDecoded k) st = execBlockDecoded k st := rfl
@[simp] theorem exec_blockExpire (u : Fin 1026) (hdr : Bool) (idx : Nat) (st : State) : exec (.blockExpire u hdr idx) st = execBlockExpire u hdr idx st := rfl
@[simp] theorem exec_furrowRelease (c : Fin 7) (f : Fin 1024) (st : State) : exec (.furrowRelease c f) st = execFurrowRelease c f st := rfl
@[simp] theorem exec_furrowAbort (c : Fin 7) (f : Fin 1024) (st : State) : exec (.furrowAbort c f) st = execFurrowAbort c f st := rfl
@[simp] theorem exec_mcTraining (m : Fin 2) (w : List Cx × List Cx) (st : State) : exec (.mcTraining m w) st = execMcTraining m w st := rfl
@[simp] theorem exec_mcSymbol (m : Fin 2) (x : McMeas) (st : State) : exec (.mcSymbol m x) st = execMcSymbol m x st := rfl
@[simp] theorem exec_mcxRelease (c : Fin 7) (m : Fin 2) (v : Word) (st : State) : exec (.mcxRelease c m v) st = execMcxRelease c m v st := rfl
@[simp] theorem exec_mcxAbort (c : Fin 7) (m : Fin 2) (v : Word) (st : State) : exec (.mcxAbort c m v) st = execMcxAbort c m v st := rfl
@[simp] theorem exec_mcxEnable (c : Fin 7) (m : Fin 2) (v : Word) (st : State) : exec (.mcxEnable c m v) st = execMcxEnable c m v st := rfl
@[simp] theorem exec_poolOn (c : Fin 7) (st : State) : exec (.poolOn c) st = execPoolOn c st := rfl
@[simp] theorem exec_poolOff (c : Fin 7) (st : State) : exec (.poolOff c) st = execPoolOff c st := rfl
@[simp] theorem exec_recordGiveBack (c : Fin 7) (v : Word) (st : State) : exec (.recordGiveBack c v) st = execRecordGiveBack c v st := rfl
@[simp] theorem exec_capturePageFull (n : Fin 32) (t0 : BitVec 64) (blks : List (List Cx × Bool)) (st : State) : exec (.capturePageFull n t0 blks) st = execCapturePageFull n t0 blks st := rfl
@[simp] theorem exec_subtractionStart (n : Fin 32) (st : State) : exec (.subtractionStart n) st = execSubtractionStart n st := rfl
@[simp] theorem exec_subtractionEnd (n : Fin 32) (st : State) : exec (.subtractionEnd n) st = execSubtractionEnd n st := rfl
@[simp] theorem exec_reentryAccept (n : Fin 32) (st : State) : exec (.reentryAccept n) st = execReentryAccept n st := rfl
@[simp] theorem exec_rewaitExpiry (n : Fin 32) (st : State) : exec (.rewaitExpiry n) st = execRewaitExpiry n st := rfl
@[simp] theorem exec_slotAbort (c : Fin 7) (v : Word) (st : State) : exec (.slotAbort c v) st = execSlotAbort c v st := rfl
@[simp] theorem exec_unwindOn (c : Fin 7) (st : State) : exec (.unwindOn c) st = execUnwindOn c st := rfl
@[simp] theorem exec_unwindOff (c : Fin 7) (st : State) : exec (.unwindOff c) st = execUnwindOff c st := rfl
@[simp] theorem exec_micCheckEnd (st : State) : exec (.micCheckEnd) st = execMicCheckEnd st := rfl
@[simp] theorem exec_verdictDeadline (u : Fin 1026) (st : State) : exec (.verdictDeadline u) st = execVerdictDeadline u st := rfl
@[simp] theorem exec_txSubmit (c : Fin 7) (v : Word) (st : State) : exec (.txSubmit c v) st = execTxSubmit c v st := rfl
@[simp] theorem exec_descriptorArm (t : Fin 2) (st : State) : exec (.descriptorArm t) st = execDescriptorArm t st := rfl
@[simp] theorem exec_ccaAssessment (t : Fin 2) (p0 : Int) (p1 : Int) (st : State) : exec (.ccaAssessment t p0 p1) st = execCcaAssessment t p0 p1 st := rfl
@[simp] theorem exec_ccaBackoffEnd (t : Fin 2) (st : State) : exec (.ccaBackoffEnd t) st = execCcaBackoffEnd t st := rfl
@[simp] theorem exec_ackWaitExpiry (t : Fin 2) (dst : BitVec 16) (seq : BitVec 8) (st : State) : exec (.ackWaitExpiry t dst seq) st = execAckWaitExpiry t dst seq st := rfl
@[simp] theorem exec_completionRead (c : Fin 7) (st : State) : exec (.completionRead c) st = execCompletionRead c st := rfl
@[simp] theorem exec_verdictRead (c : Fin 7) (st : State) : exec (.verdictRead c) st = execVerdictRead c st := rfl
@[simp] theorem exec_pollResponseArm (t : Fin 2) (st : State) : exec (.pollResponseArm t) st = execPollResponseArm t st := rfl
@[simp] theorem exec_queueEnq (c : Fin 7) (i : Fin 8192) (st : State) : exec (.queueEnq c i) st = execQueueEnq c i st := rfl
@[simp] theorem exec_queueReplace (c : Fin 7) (i : Fin 8192) (st : State) : exec (.queueReplace c i) st = execQueueReplace c i st := rfl
@[simp] theorem exec_queueCancel (c : Fin 7) (i : Fin 8192) (st : State) : exec (.queueCancel c i) st = execQueueCancel c i st := rfl
@[simp] theorem exec_queueFlush (c : Fin 7) (i : Fin 8192) (st : State) : exec (.queueFlush c i) st = execQueueFlush c i st := rfl
@[simp] theorem exec_expectationWindowClose (i : Fin 8192) (st : State) : exec (.expectationWindowClose i) st = execExpectationWindowClose i st := rfl
@[simp] theorem exec_childTableWrite (c : Fin 7) (i : Fin 2048) (w : Fin 8) (v : Word) (st : State) : exec (.childTableWrite c i w v) st = execChildTableWrite c i w v st := rfl
@[simp] theorem exec_txfcntWrite (c : Fin 7) (v : Word) (st : State) : exec (.txfcntWrite c v) st = execTxfcntWrite c v st := rfl
@[simp] theorem exec_meshTimeSet (c : Fin 7) (v : Word) (st : State) : exec (.meshTimeSet c v) st = execMeshTimeSet c v st := rfl
@[simp] theorem exec_syncAgeLimit (st : State) : exec (.syncAgeLimit) st = execSyncAgeLimit st := rfl
@[simp] theorem exec_beaconArm (st : State) : exec (.beaconArm) st = execBeaconArm st := rfl
@[simp] theorem exec_alarmArm (c : Fin 7) (v : Word) (st : State) : exec (.alarmArm c v) st = execAlarmArm c v st := rfl
@[simp] theorem exec_alarmFire (a : Fin 4) (st : State) : exec (.alarmFire a) st = execAlarmFire a st := rfl
@[simp] theorem exec_cacheExpiry (i : Fin 4096) (st : State) : exec (.cacheExpiry i) st = execCacheExpiry i st := rfl
@[simp] theorem exec_relayDelayExpiry (i : Fin 4096) (st : State) : exec (.relayDelayExpiry i) st = execRelayDelayExpiry i st := rfl
@[simp] theorem exec_relayHoldEnd (i : Fin 4096) (st : State) : exec (.relayHoldEnd i) st = execRelayHoldEnd i st := rfl
@[simp] theorem exec_originate (c : Fin 7) (v : Word) (st : State) : exec (.originate c v) st = execOriginate c v st := rfl
@[simp] theorem exec_floodEventRead (c : Fin 7) (st : State) : exec (.floodEventRead c) st = execFloodEventRead c st := rfl
@[simp] theorem exec_meshTimeRead (c : Fin 7) (st : State) : exec (.meshTimeRead c) st = execMeshTimeRead c st := rfl
@[simp] theorem exec_keyLoad (c : Fin 7) (i : Fin 256) (outs : List Bool) (st : State) : exec (.keyLoad c i outs) st = execKeyLoad c i outs st := rfl
@[simp] theorem exec_keyLoadname (c : Fin 7) (i : Fin 256) (outs : List Bool) (st : State) : exec (.keyLoadname c i outs) st = execKeyLoadname c i outs st := rfl
@[simp] theorem exec_keyUnload (c : Fin 7) (i : Fin 256) (st : State) : exec (.keyUnload c i) st = execKeyUnload c i st := rfl
@[simp] theorem exec_keyGenerate (c : Fin 7) (i : Fin 256) (outs : List Bool) (st : State) : exec (.keyGenerate c i outs) st = execKeyGenerate c i outs st := rfl
@[simp] theorem exec_keyRaise (c : Fin 7) (outs : List Bool) (st : State) : exec (.keyRaise c outs) st = execKeyRaise c outs st := rfl
@[simp] theorem exec_keyRevoke (c : Fin 7) (st : State) : exec (.keyRevoke c) st = execKeyRevoke c st := rfl
@[simp] theorem exec_keyCommandEnd (st : State) : exec (.keyCommandEnd) st = execKeyCommandEnd st := rfl
@[simp] theorem exec_slotErased (i : Fin 256) (st : State) : exec (.slotErased i) st = execSlotErased i st := rfl
@[simp] theorem exec_counterScan (c : Fin 64) (outs : List Bool) (st : State) : exec (.counterScan c outs) st = execCounterScan c outs st := rfl
@[simp] theorem exec_spanRaise (i : Fin 256) (outs : List Bool) (st : State) : exec (.spanRaise i outs) st = execSpanRaise i outs st := rfl
@[simp] theorem exec_raiseRetry (i : Option (Fin 256)) (outs : List Bool) (st : State) : exec (.raiseRetry i outs) st = execRaiseRetry i outs st := rfl
@[simp] theorem exec_fcntCeilingRaise (outs : List Bool) (st : State) : exec (.fcntCeilingRaise outs) st = execFcntCeilingRaise outs st := rfl
@[simp] theorem exec_aesJobSubmit (c : Fin 7) (v : Word) (st : State) : exec (.aesJobSubmit c v) st = execAesJobSubmit c v st := rfl
@[simp] theorem exec_aesJobStart (e : Fin 2) (st : State) : exec (.aesJobStart e) st = execAesJobStart e st := rfl
@[simp] theorem exec_aesJobEnd (e : Fin 2) (st : State) : exec (.aesJobEnd e) st = execAesJobEnd e st := rfl
@[simp] theorem exec_shaStart (c : Fin 7) (n : Fin 4) (st : State) : exec (.shaStart c n) st = execShaStart c n st := rfl
@[simp] theorem exec_shaUpdate (c : Fin 7) (n : Fin 4) (st : State) : exec (.shaUpdate c n) st = execShaUpdate c n st := rfl
@[simp] theorem exec_shaFinal (c : Fin 7) (n : Fin 4) (st : State) : exec (.shaFinal c n) st = execShaFinal c n st := rfl
@[simp] theorem exec_shaEnd (n : Fin 4) (st : State) : exec (.shaEnd n) st = execShaEnd n st := rfl
@[simp] theorem exec_rngFailure (st : State) : exec (.rngFailure) st = execRngFailure st := rfl
@[simp] theorem exec_randomRead (c : Fin 7) (st : State) : exec (.randomRead c) st = execRandomRead c st := rfl
@[simp] theorem exec_appendSubmit (c : Fin 7) (v : Word) (st : State) : exec (.appendSubmit c v) st = execAppendSubmit c v st := rfl
@[simp] theorem exec_verifySubmit (c : Fin 7) (v : Word) (st : State) : exec (.verifySubmit c v) st = execVerifySubmit c v st := rfl
@[simp] theorem exec_archiveSubmit (c : Fin 7) (v : Word) (st : State) : exec (.archiveSubmit c v) st = execArchiveSubmit c v st := rfl
@[simp] theorem exec_ledgerAppend (st : State) : exec (.ledgerAppend) st = execLedgerAppend st := rfl
@[simp] theorem exec_ledgerVerify (st : State) : exec (.ledgerVerify) st = execLedgerVerify st := rfl
@[simp] theorem exec_ledgerPush (st : State) : exec (.ledgerPush) st = execLedgerPush st := rfl
@[simp] theorem exec_recordDurable (erOk : Bool) (good : Nat) (st : State) : exec (.recordDurable erOk good) st = execRecordDurable erOk good st := rfl
@[simp] theorem exec_ledgerRecovery (st : State) : exec (.ledgerRecovery) st = execLedgerRecovery st := rfl
@[simp] theorem exec_originWrite (c : Fin 7) (v : Word) (st : State) : exec (.originWrite c v) st = execOriginWrite c v st := rfl
@[simp] theorem exec_directoryInsert (c : Fin 7) (st : State) : exec (.directoryInsert c) st = execDirectoryInsert c st := rfl
@[simp] theorem exec_directoryRemove (c : Fin 7) (st : State) : exec (.directoryRemove c) st = execDirectoryRemove c st := rfl
@[simp] theorem exec_directoryClear (c : Fin 7) (st : State) : exec (.directoryClear c) st = execDirectoryClear c st := rfl
@[simp] theorem exec_ledgerLookup (c : Fin 7) (v : Word) (st : State) : exec (.ledgerLookup c v) st = execLedgerLookup c v st := rfl
@[simp] theorem exec_nop (c : Fin 7) (st : State) : exec (.nop c) st = execNop c st := rfl
@[simp] theorem exec_halt (c : Fin 7) (st : State) : exec (.halt c) st = execHalt c st := rfl
@[simp] theorem exec_fenceFull (c : Fin 7) (st : State) : exec (.fenceFull c) st = execFenceFull c st := rfl
@[simp] theorem exec_fenceLoad (c : Fin 7) (st : State) : exec (.fenceLoad c) st = execFenceLoad c st := rfl
@[simp] theorem exec_fenceStore (c : Fin 7) (st : State) : exec (.fenceStore c) st = execFenceStore c st := rfl
@[simp] theorem exec_fenceSync (c : Fin 7) (st : State) : exec (.fenceSync c) st = execFenceSync c st := rfl
@[simp] theorem exec_trap (c : Fin 7) (st : State) : exec (.trap c) st = execTrap c st := rfl
@[simp] theorem exec_ret (c : Fin 7) (up : List Nat) (st : State) : exec (.ret c up) st = execRet c up st := rfl
@[simp] theorem exec_iret (c : Fin 7) (st : State) : exec (.iret c) st = execIret c st := rfl
@[simp] theorem exec_brk (c : Fin 7) (st : State) : exec (.brk c) st = execBrk c st := rfl
@[simp] theorem exec_ud (c : Fin 7) (st : State) : exec (.ud c) st = execUd c st := rfl
@[simp] theorem exec_add (c : Fin 7) (st : State) : exec (.add c) st = execAdd c st := rfl
@[simp] theorem exec_adc (c : Fin 7) (st : State) : exec (.adc c) st = execAdc c st := rfl
@[simp] theorem exec_sub (c : Fin 7) (st : State) : exec (.sub c) st = execSub c st := rfl
@[simp] theorem exec_sbb (c : Fin 7) (st : State) : exec (.sbb c) st = execSbb c st := rfl
@[simp] theorem exec_and (c : Fin 7) (st : State) : exec (.and c) st = execAnd c st := rfl
@[simp] theorem exec_or (c : Fin 7) (st : State) : exec (.or c) st = execOr c st := rfl
@[simp] theorem exec_xor (c : Fin 7) (st : State) : exec (.xor c) st = execXor c st := rfl
@[simp] theorem exec_cmp (c : Fin 7) (st : State) : exec (.cmp c) st = execCmp c st := rfl
@[simp] theorem exec_mov (c : Fin 7) (st : State) : exec (.mov c) st = execMov c st := rfl
@[simp] theorem exec_movs (c : Fin 7) (st : State) : exec (.movs c) st = execMovs c st := rfl
@[simp] theorem exec_xchg (c : Fin 7) (st : State) : exec (.xchg c) st = execXchg c st := rfl
@[simp] theorem exec_not (c : Fin 7) (st : State) : exec (.not c) st = execNot c st := rfl
@[simp] theorem exec_neg (c : Fin 7) (st : State) : exec (.neg c) st = execNeg c st := rfl
@[simp] theorem exec_tst (c : Fin 7) (st : State) : exec (.tst c) st = execTst c st := rfl
@[simp] theorem exec_shl (c : Fin 7) (st : State) : exec (.shl c) st = execShl c st := rfl
@[simp] theorem exec_shr (c : Fin 7) (st : State) : exec (.shr c) st = execShr c st := rfl
@[simp] theorem exec_sar (c : Fin 7) (st : State) : exec (.sar c) st = execSar c st := rfl
@[simp] theorem exec_rol (c : Fin 7) (st : State) : exec (.rol c) st = execRol c st := rfl
@[simp] theorem exec_ror (c : Fin 7) (st : State) : exec (.ror c) st = execRor c st := rfl
@[simp] theorem exec_mul (c : Fin 7) (st : State) : exec (.mul c) st = execMul c st := rfl
@[simp] theorem exec_mulh (c : Fin 7) (st : State) : exec (.mulh c) st = execMulh c st := rfl
@[simp] theorem exec_mulhu (c : Fin 7) (st : State) : exec (.mulhu c) st = execMulhu c st := rfl
@[simp] theorem exec_div (c : Fin 7) (st : State) : exec (.div c) st = execDiv c st := rfl
@[simp] theorem exec_divu (c : Fin 7) (st : State) : exec (.divu c) st = execDivu c st := rfl
@[simp] theorem exec_rem (c : Fin 7) (st : State) : exec (.rem c) st = execRem c st := rfl
@[simp] theorem exec_remu (c : Fin 7) (st : State) : exec (.remu c) st = execRemu c st := rfl
@[simp] theorem exec_bcc (c : Fin 7) (st : State) : exec (.bcc c) st = execBcc c st := rfl
@[simp] theorem exec_ld (c : Fin 7) (up : List Nat) (st : State) : exec (.ld c up) st = execLd c up st := rfl
@[simp] theorem exec_st (c : Fin 7) (up : List Nat) (st : State) : exec (.st c up) st = execSt c up st := rfl
@[simp] theorem exec_lds (c : Fin 7) (up : List Nat) (st : State) : exec (.lds c up) st = execLds c up st := rfl
@[simp] theorem exec_lea (c : Fin 7) (st : State) : exec (.lea c) st = execLea c st := rfl
@[simp] theorem exec_push (c : Fin 7) (st : State) : exec (.push c) st = execPush c st := rfl
@[simp] theorem exec_pop (c : Fin 7) (up : List Nat) (st : State) : exec (.pop c up) st = execPop c up st := rfl
@[simp] theorem exec_call (c : Fin 7) (st : State) : exec (.call c) st = execCall c st := rfl
@[simp] theorem exec_callr (c : Fin 7) (st : State) : exec (.callr c) st = execCallr c st := rfl
@[simp] theorem exec_jmp (c : Fin 7) (st : State) : exec (.jmp c) st = execJmp c st := rfl
@[simp] theorem exec_jmpr (c : Fin 7) (st : State) : exec (.jmpr c) st = execJmpr c st := rfl
@[simp] theorem exec_ldx (c : Fin 7) (up : List Nat) (st : State) : exec (.ldx c up) st = execLdx c up st := rfl
@[simp] theorem exec_stx (c : Fin 7) (st : State) : exec (.stx c) st = execStx c st := rfl
@[simp] theorem exec_clz (c : Fin 7) (st : State) : exec (.clz c) st = execClz c st := rfl
@[simp] theorem exec_bswap (c : Fin 7) (st : State) : exec (.bswap c) st = execBswap c st := rfl
@[simp] theorem exec_sext (c : Fin 7) (st : State) : exec (.sext c) st = execSext c st := rfl
@[simp] theorem exec_movfl (c : Fin 7) (st : State) : exec (.movfl c) st = execMovfl c st := rfl
@[simp] theorem exec_setfl (c : Fin 7) (st : State) : exec (.setfl c) st = execSetfl c st := rfl
@[simp] theorem exec_csrr (c : Fin 7) (st : State) : exec (.csrr c) st = execCsrr c st := rfl
@[simp] theorem exec_csrw (c : Fin 7) (st : State) : exec (.csrw c) st = execCsrw c st := rfl
@[simp] theorem exec_daja (c : Fin 7) (st : State) : exec (.daja c) st = execDaja c st := rfl
@[simp] theorem exec_dajs (c : Fin 7) (st : State) : exec (.dajs c) st = execDajs c st := rfl
@[simp] theorem exec_cvbd (c : Fin 7) (st : State) : exec (.cvbd c) st = execCvbd c st := rfl
@[simp] theorem exec_cvdb (c : Fin 7) (st : State) : exec (.cvdb c) st = execCvdb c st := rfl
@[simp] theorem exec_chkd (c : Fin 7) (st : State) : exec (.chkd c) st = execChkd c st := rfl
@[simp] theorem exec_spmulc (c : Fin 7) (st : State) : exec (.spmulc c) st = execSpmulc c st := rfl
@[simp] theorem exec_spmag (c : Fin 7) (st : State) : exec (.spmag c) st = execSpmag c st := rfl
@[simp] theorem exec_ldsp (c : Fin 7) (up : List Nat) (st : State) : exec (.ldsp c up) st = execLdsp c up st := rfl
@[simp] theorem exec_stsp (c : Fin 7) (up : List Nat) (st : State) : exec (.stsp c up) st = execStsp c up st := rfl
@[simp] theorem exec_reservedOpcode (c : Fin 7) (len : Nat) (g : List Word) (fl : Word) (stores : List (Word × Byte)) (exc : Option ReservedExc) (st : State) : exec (.reservedOpcode c len g fl stores exc) st = execReservedOpcode c len g fl stores exc st := rfl
@[simp] theorem exec_interruptEntry (c : Fin 7) (st : State) : exec (.interruptEntry c) st = execInterruptEntry c st := rfl
@[simp] theorem exec_haltWake (c : Fin 7) (st : State) : exec (.haltWake c) st = execHaltWake c st := rfl
@[simp] theorem exec_coreReset (c : Fin 7) (v : Word) (st : State) : exec (.coreReset c v) st = execCoreReset c v st := rfl
@[simp] theorem exec_coreRestart (n : Fin 7) (st : State) : exec (.coreRestart n) st = execCoreRestart n st := rfl
@[simp] theorem exec_writebackArrival (c : Fin 7) (line : Nat) (st : State) : exec (.writebackArrival c line) st = execWritebackArrival c line st := rfl
@[simp] theorem exec_semTake (c : Fin 7) (n : Fin 64) (st : State) : exec (.semTake c n) st = execSemTake c n st := rfl
@[simp] theorem exec_semGive (c : Fin 7) (n : Fin 64) (v : Word) (st : State) : exec (.semGive c n v) st = execSemGive c n v st := rfl
@[simp] theorem exec_semRescue (c : Fin 7) (n : Fin 64) (st : State) : exec (.semRescue c n) st = execSemRescue c n st := rfl
@[simp] theorem exec_flashProgram (c : Fin 7) (b : Fin 4) (st : State) : exec (.flashProgram c b) st = execFlashProgram c b st := rfl
@[simp] theorem exec_flashProgbuf (c : Fin 7) (b : Fin 4) (st : State) : exec (.flashProgbuf c b) st = execFlashProgbuf c b st := rfl
@[simp] theorem exec_flashErase (c : Fin 7) (b : Fin 4) (st : State) : exec (.flashErase c b) st = execFlashErase c b st := rfl
@[simp] theorem exec_flashMread (c : Fin 7) (b : Fin 4) (st : State) : exec (.flashMread c b) st = execFlashMread c b st := rfl
@[simp] theorem exec_flashBlank (c : Fin 7) (b : Fin 4) (st : State) : exec (.flashBlank c b) st = execFlashBlank c b st := rfl
@[simp] theorem exec_flashColtest (c : Fin 7) (b : Fin 4) (st : State) : exec (.flashColtest c b) st = execFlashColtest c b st := rfl
@[simp] theorem exec_flashColrepair (c : Fin 7) (b : Fin 4) (st : State) : exec (.flashColrepair c b) st = execFlashColrepair c b st := rfl
@[simp] theorem exec_flashCommandEnd (b : Fin 4) (good line n : Nat) (st : State) : exec (.flashCommandEnd b good line n) st = execFlashCommandEnd b good line n st := rfl
@[simp] theorem exec_moveEnd (w : Fin 2) (ok : Bool) (st : State) : exec (.moveEnd w ok) st = execMoveEnd w ok st := rfl
@[simp] theorem exec_deferredMove (w : Fin 2) (st : State) : exec (.deferredMove w) st = execDeferredMove w st := rfl
@[simp] theorem exec_eraseSuspend (b : Fin 4) (st : State) : exec (.eraseSuspend b) st = execEraseSuspend b st := rfl
@[simp] theorem exec_eraseResume (b : Fin 4) (st : State) : exec (.eraseResume b) st = execEraseResume b st := rfl
@[simp] theorem exec_flashStartup (st : State) : exec (.flashStartup) st = execFlashStartup st := rfl
@[simp] theorem exec_sourceChange (n : Fin 1152) (ext : Bool) (st : State) : exec (.sourceChange n ext) st = execSourceChange n ext st := rfl
@[simp] theorem exec_softwarePend (c : Fin 7) (k : Fin 36) (v : Word) (st : State) : exec (.softwarePend c k v) st = execSoftwarePend c k v st := rfl
@[simp] theorem exec_pendingClear (c : Fin 7) (k : Fin 36) (v : Word) (st : State) : exec (.pendingClear c k v) st = execPendingClear c k v st := rfl
@[simp] theorem exec_interruptAcknowledge (c : Fin 7) (st : State) : exec (.interruptAcknowledge c) st = execInterruptAcknowledge c st := rfl
@[simp] theorem exec_interruptComplete (c : Fin 7) (v : Word) (st : State) : exec (.interruptComplete c v) st = execInterruptComplete c v st := rfl
@[simp] theorem exec_holdoffExpiry (g : Fin 36) (st : State) : exec (.holdoffExpiry g) st = execHoldoffExpiry g st := rfl
@[simp] theorem exec_holdoffWrite (c : Fin 7) (g : Fin 36) (v : Word) (st : State) : exec (.holdoffWrite c g v) st = execHoldoffWrite c g v st := rfl
@[simp] theorem exec_channelEvent (a : Fin 256) (lvl : Bool) (st : State) : exec (.channelEvent a lvl) st = execChannelEvent a lvl st := rfl
@[simp] theorem exec_cellFilterExpiry (n : Fin 128) (st : State) : exec (.cellFilterExpiry n) st = execCellFilterExpiry n st := rfl
@[simp] theorem exec_channelFire (c : Fin 7) (a : Fin 256) (st : State) : exec (.channelFire c a) st = execChannelFire c a st := rfl
@[simp] theorem exec_lutWrite (c : Fin 7) (n : Fin 128) (v : BitVec 16) (st : State) : exec (.lutWrite c n v) st = execLutWrite c n v st := rfl
@[simp] theorem exec_groupEnable (c : Fin 7) (m : BitVec 16) (st : State) : exec (.groupEnable c m) st = execGroupEnable c m st := rfl
@[simp] theorem exec_groupDisable (c : Fin 7) (m : BitVec 16) (st : State) : exec (.groupDisable c m) st = execGroupDisable c m st := rfl
@[simp] theorem exec_gatedInputDelivery (i : Fin 8) (st : State) : exec (.gatedInputDelivery i) st = execGatedInputDelivery i st := rfl
@[simp] theorem exec_timerTick (t : Fin 24) (st : State) : exec (.timerTick t) st = execTimerTick t st := rfl
@[simp] theorem exec_timerPeriodEnd (t : Fin 24) (st : State) : exec (.timerPeriodEnd t) st = execTimerPeriodEnd t st := rfl
@[simp] theorem exec_timerCompare (t : Fin 24) (k : Fin 2) (st : State) : exec (.timerCompare t k) st = execTimerCompare t k st := rfl
@[simp] theorem exec_timerCapture (t : Fin 24) (edge : Option Bool) (st : State) : exec (.timerCapture t edge) st = execTimerCapture t edge st := rfl
@[simp] theorem exec_timerControlWrite (c : Fin 7) (t : Fin 24) (v : Word) (st : State) : exec (.timerControlWrite c t v) st = execTimerControlWrite c t v st := rfl
@[simp] theorem exec_timerGroupStart (c : Fin 7) (st : State) : exec (.timerGroupStart c) st = execTimerGroupStart c st := rfl
@[simp] theorem exec_timerGroupStop (c : Fin 7) (st : State) : exec (.timerGroupStop c) st = execTimerGroupStop c st := rfl
@[simp] theorem exec_timerCommit (c : Fin 7) (t : Fin 24) (k : TmrVal) (v : Word) (st : State) : exec (.timerCommit c t k v) st = execTimerCommit c t k v st := rfl
@[simp] theorem exec_lfEdgeCount (t : Fin 24) (st : State) : exec (.lfEdgeCount t) st = execLfEdgeCount t st := rfl
@[simp] theorem exec_aonTimerEdge (t : Fin 8) (st : State) : exec (.aonTimerEdge t) st = execAonTimerEdge t st := rfl
@[simp] theorem exec_aonTimerExpiry (t : Fin 8) (st : State) : exec (.aonTimerExpiry t) st = execAonTimerExpiry t st := rfl
@[simp] theorem exec_aonTimerWrite (c : Fin 7) (t : Fin 8) (load : Bool) (v : Word) (st : State) : exec (.aonTimerWrite c t load v) st = execAonTimerWrite c t load v st := rfl
@[simp] theorem exec_rtcEdge (st : State) : exec (.rtcEdge) st = execRtcEdge st := rfl
@[simp] theorem exec_rtcTempSample (temp : BitVec 16) (st : State) : exec (.rtcTempSample temp) st = execRtcTempSample temp st := rfl
@[simp] theorem exec_calendarFreeze (c : Fin 7) (st : State) : exec (.calendarFreeze c) st = execCalendarFreeze c st := rfl
@[simp] theorem exec_calendarHalt (st : State) : exec (.calendarHalt) st = execCalendarHalt st := rfl
@[simp] theorem exec_calendarWrite (c : Fin 7) (date : Bool) (v : Word) (st : State) : exec (.calendarWrite c date v) st = execCalendarWrite c date v st := rfl
@[simp] theorem exec_calendarResume (st : State) : exec (.calendarResume) st = execCalendarResume st := rfl
@[simp] theorem exec_rtcAlarm (st : State) : exec (.rtcAlarm) st = execRtcAlarm st := rfl
@[simp] theorem exec_rtcTick (st : State) : exec (.rtcTick) st = execRtcTick st := rfl
@[simp] theorem exec_levelChange (c t : Fin 7) (v : Word) (st : State) : exec (.levelChange c t v) st = execLevelChange c t v st := rfl
@[simp] theorem exec_levelChangeEnd (t : Fin 7) (st : State) : exec (.levelChangeEnd t) st = execLevelChangeEnd t st := rfl
@[simp] theorem exec_requestIdle (c : Fin 7) (st : State) : exec (.requestIdle c) st = execRequestIdle c st := rfl
@[simp] theorem exec_requestListen (c : Fin 7) (st : State) : exec (.requestListen c) st = execRequestListen c st := rfl
@[simp] theorem exec_requestFallow (c : Fin 7) (st : State) : exec (.requestFallow c) st = execRequestFallow c st := rfl
@[simp] theorem exec_requestOff (c : Fin 7) (st : State) : exec (.requestOff c) st = execRequestOff c st := rfl
@[simp] theorem exec_participantAnswer (st : State) : exec (.participantAnswer) st = execParticipantAnswer st := rfl
@[simp] theorem exec_participantTimeout (st : State) : exec (.participantTimeout) st = execParticipantTimeout st := rfl
@[simp] theorem exec_wake (r : Fin 12) (st : State) : exec (.wake r) st = execWake r st := rfl
@[simp] theorem exec_wakeComplete (st : State) : exec (.wakeComplete) st = execWakeComplete st := rfl
@[simp] theorem exec_listenWindowOpen (st : State) : exec (.listenWindowOpen) st = execListenWindowOpen st := rfl
@[simp] theorem exec_listenWindowClose (st : State) : exec (.listenWindowClose) st = execListenWindowClose st := rfl
@[simp] theorem exec_closeRetry (st : State) : exec (.closeRetry) st = execCloseRetry st := rfl
@[simp] theorem exec_inspectEntry (st : State) : exec (.inspectEntry) st = execInspectEntry st := rfl
@[simp] theorem exec_inspectExit (up : Bool) (st : State) : exec (.inspectExit up) st = execInspectExit up st := rfl
@[simp] theorem exec_calTempSample (temp : BitVec 16) (st : State) : exec (.calTempSample temp) st = execCalTempSample temp st := rfl
@[simp] theorem exec_correctionCompute (c : Fin 4) (i : Fin 3) (st : State) : exec (.correctionCompute c i) st = execCorrectionCompute c i st := rfl
@[simp] theorem exec_correctionApply (c : Fin 4) (st : State) : exec (.correctionApply c) st = execCorrectionApply c st := rfl
@[simp] theorem exec_correctionForced (c : Fin 4) (i : Fin 3) (st : State) : exec (.correctionForced c i) st = execCorrectionForced c i st := rfl
@[simp] theorem exec_txsynMeasureStart (t : Fin 2) (st : State) : exec (.txsynMeasureStart t) st = execTxsynMeasureStart t st := rfl
@[simp] theorem exec_txsynMeasureEnd (t : Fin 2) (locked : Bool) (st : State) : exec (.txsynMeasureEnd t locked) st = execTxsynMeasureEnd t locked st := rfl
@[simp] theorem exec_calibrationLoad (st : State) : exec (.calibrationLoad) st = execCalibrationLoad st := rfl
@[simp] theorem exec_calStore (k : Fin 3) (st : State) : exec (.calStore k) st = execCalStore k st := rfl
@[simp] theorem exec_calStoreEnd (ok : Bool) (st : State) : exec (.calStoreEnd ok) st = execCalStoreEnd ok st := rfl
@[simp] theorem exec_savecurve (c : Fin 7) (st : State) : exec (.savecurve c) st = execSavecurve c st := rfl
@[simp] theorem exec_savesyn (c : Fin 7) (t : Fin 2) (st : State) : exec (.savesyn c t) st = execSavesyn c t st := rfl
@[simp] theorem exec_recal (c : Fin 7) (t : Fin 2) (st : State) : exec (.recal c t) st = execRecal c t st := rfl
@[simp] theorem exec_carrierOn (c : Fin 7) (st : State) : exec (.carrierOn c) st = execCarrierOn c st := rfl
@[simp] theorem exec_carrierOff (c : Fin 7) (st : State) : exec (.carrierOff c) st = execCarrierOff c st := rfl
@[simp] theorem exec_nfcSend (c : Fin 7) (st : State) : exec (.nfcSend c) st = execNfcSend c st := rfl
@[simp] theorem exec_nfcInventory (c : Fin 7) (st : State) : exec (.nfcInventory c) st = execNfcInventory c st := rfl
@[simp] theorem exec_cresp (c : Fin 7) (st : State) : exec (.cresp c) st = execCresp c st := rfl
@[simp] theorem exec_cdrop (c : Fin 7) (st : State) : exec (.cdrop c) st = execCdrop c st := rfl
@[simp] theorem exec_nfcCommandEnd (heard : List (Option (List Byte))) (st : State) : exec (.nfcCommandEnd heard) st = execNfcCommandEnd heard st := rfl
@[simp] theorem exec_cardRequest (frame : List Byte) (st : State) : exec (.cardRequest frame) st = execCardRequest frame st := rfl
@[simp] theorem exec_cardTimeout (st : State) : exec (.cardTimeout) st = execCardTimeout st := rfl
@[simp] theorem exec_inspectRequest (frame : List Byte) (st : State) : exec (.inspectRequest frame) st = execInspectRequest frame st := rfl
@[simp] theorem exec_noteStored (good : Nat) (st : State) : exec (.noteStored good) st = execNoteStored good st := rfl
@[simp] theorem exec_fieldChange (on : Bool) (st : State) : exec (.fieldChange on) st = execFieldChange on st := rfl
@[simp] theorem exec_tornWrite (c : Fin 7) (st : State) : exec (.tornWrite c) st = execTornWrite c st := rfl
@[simp] theorem exec_suidRead (c : Fin 7) (st : State) : exec (.suidRead c) st = execSuidRead c st := rfl
@[simp] theorem exec_oztisHello (tag : Byte) (pay : List Byte) (st : State) : exec (.oztisHello tag pay) st = execOztisHello tag pay st := rfl
@[simp] theorem exec_oztisReset (tag : Byte) (pay : List Byte) (st : State) : exec (.oztisReset tag pay) st = execOztisReset tag pay st := rfl
@[simp] theorem exec_challenge (tag : Byte) (pay : List Byte) (st : State) : exec (.challenge tag pay) st = execChallenge tag pay st := rfl
@[simp] theorem exec_unlock (tag : Byte) (pay : List Byte) (st : State) : exec (.unlock tag pay) st = execUnlock tag pay st := rfl
@[simp] theorem exec_oztisLock (tag : Byte) (pay : List Byte) (st : State) : exec (.oztisLock tag pay) st = execOztisLock tag pay st := rfl
@[simp] theorem exec_openXfer (tag : Byte) (pay : List Byte) (ok : Bool) (st : State) : exec (.openXfer tag pay ok) st = execOpenXfer tag pay ok st := rfl
@[simp] theorem exec_burst (tag : Byte) (pay : List Byte) (st : State) : exec (.burst tag pay) st = execBurst tag pay st := rfl
@[simp] theorem exec_oztisCheck (tag : Byte) (pay : List Byte) (st : State) : exec (.oztisCheck tag pay) st = execOztisCheck tag pay st := rfl
@[simp] theorem exec_oztisTry (tag : Byte) (pay : List Byte) (st : State) : exec (.oztisTry tag pay) st = execOztisTry tag pay st := rfl
@[simp] theorem exec_oztisRead (tag : Byte) (pay : List Byte) (st : State) : exec (.oztisRead tag pay) st = execOztisRead tag pay st := rfl
@[simp] theorem exec_oztisWrite (tag : Byte) (pay : List Byte) (st : State) : exec (.oztisWrite tag pay) st = execOztisWrite tag pay st := rfl
@[simp] theorem exec_oztisHalt (tag : Byte) (pay : List Byte) (st : State) : exec (.oztisHalt tag pay) st = execOztisHalt tag pay st := rfl
@[simp] theorem exec_oztisRun (tag : Byte) (pay : List Byte) (st : State) : exec (.oztisRun tag pay) st = execOztisRun tag pay st := rfl
@[simp] theorem exec_regs (tag : Byte) (pay : List Byte) (st : State) : exec (.regs tag pay) st = execRegs tag pay st := rfl
@[simp] theorem exec_setreg (tag : Byte) (pay : List Byte) (st : State) : exec (.setreg tag pay) st = execSetreg tag pay st := rfl
@[simp] theorem exec_atnFall (frame : Bool) (st : State) : exec (.atnFall frame) st = execAtnFall frame st := rfl
@[simp] theorem exec_sessionTimeout (st : State) : exec (.sessionTimeout) st = execSessionTimeout st := rfl
@[simp] theorem exec_svcCommandEnd (oz : Bool) (outs : List Bool) (st : State) : exec (.svcCommandEnd oz outs) st = execSvcCommandEnd oz outs st := rfl
@[simp] theorem exec_transferProgramEnd (erased : Bool) (good : Nat) (st : State) : exec (.transferProgramEnd erased good) st = execTransferProgramEnd erased good st := rfl
@[simp] theorem exec_imageCheck (c : Fin 7) (st : State) : exec (.imageCheck c) st = execImageCheck c st := rfl
@[simp] theorem exec_activationArm (c : Fin 7) (st : State) : exec (.activationArm c) st = execActivationArm c st := rfl
@[simp] theorem exec_activationCancel (c : Fin 7) (st : State) : exec (.activationCancel c) st = execActivationCancel c st := rfl
@[simp] theorem exec_imageConfirm (c : Fin 7) (st : State) : exec (.imageConfirm c) st = execImageConfirm c st := rfl
@[simp] theorem exec_imageSwitch (st : State) : exec (.imageSwitch) st = execImageSwitch st := rfl
@[simp] theorem exec_confirmWindowExpiry (st : State) : exec (.confirmWindowExpiry) st = execConfirmWindowExpiry st := rfl
@[simp] theorem exec_bootChoice (ins : Option (Fin 2) × List Bool) (st : State) : exec (.bootChoice ins) st = execBootChoice ins st := rfl
@[simp] theorem exec_hostRead (a : Word) (n : Nat) (st : State) : exec (.hostRead a n) st = execHostRead a n st := rfl
@[simp] theorem exec_hostWrite (a : Word) (bytes : List Byte) (st : State) : exec (.hostWrite a bytes) st = execHostWrite a bytes st := rfl
@[simp] theorem exec_hostStat (st : State) : exec (.hostStat) st = execHostStat st := rfl
@[simp] theorem exec_doorbell (v : Word) (st : State) : exec (.doorbell v) st = execDoorbell v st := rfl
@[simp] theorem exec_irqclr (m : Word) (st : State) : exec (.irqclr m) st = execIrqclr m st := rfl
@[simp] theorem exec_hostFlagSet (c : Fin 7) (v : Word) (st : State) : exec (.hostFlagSet c v) st = execHostFlagSet c v st := rfl
@[simp] theorem exec_hostWindowWrite (c : Fin 7) (w : Fin 2) (v : Word) (st : State) : exec (.hostWindowWrite c w v) st = execHostWindowWrite c w v st := rfl
@[simp] theorem exec_i2cTransfer (c : Fin 7) (n : Fin 2) (v : Word) (st : State) : exec (.i2cTransfer c n v) st = execI2cTransfer c n v st := rfl
@[simp] theorem exec_i2cRecover (c : Fin 7) (n : Fin 2) (st : State) : exec (.i2cRecover c n) st = execI2cRecover c n st := rfl
@[simp] theorem exec_i2cCommandEnd (n : Fin 2) (bus : List Byte) (clears : Bool) (e : I2cEnd) (st : State) : exec (.i2cCommandEnd n bus clears e) st = execI2cCommandEnd n bus clears e st := rfl
@[simp] theorem exec_sclStretchTimeout (n : Fin 2) (st : State) : exec (.sclStretchTimeout n) st = execSclStretchTimeout n st := rfl
@[simp] theorem exec_i2cDisable (c : Fin 7) (n : Fin 2) (v : Word) (st : State) : exec (.i2cDisable c n v) st = execI2cDisable c n v st := rfl
@[simp] theorem exec_i2cDataWrite (c : Fin 7) (n : Fin 2) (b : Byte) (bus : List Byte) (st : State) : exec (.i2cDataWrite c n b bus) st = execI2cDataWrite c n b bus st := rfl
@[simp] theorem exec_i2cDataRead (c : Fin 7) (n : Fin 2) (bus : List Byte) (st : State) : exec (.i2cDataRead c n bus) st = execI2cDataRead c n bus st := rfl
@[simp] theorem exec_spiTransfer (c : Fin 7) (v : Word) (st : State) : exec (.spiTransfer c v) st = execSpiTransfer c v st := rfl
@[simp] theorem exec_spiTransferEnd (rx : List Byte) (st : State) : exec (.spiTransferEnd rx) st = execSpiTransferEnd rx st := rfl
@[simp] theorem exec_spiDisable (c : Fin 7) (v : Word) (rx : List Byte) (st : State) : exec (.spiDisable c v rx) st = execSpiDisable c v rx st := rfl
@[simp] theorem exec_uartTxPush (c : Fin 7) (n : Fin 2) (b : Byte) (st : State) : exec (.uartTxPush c n b) st = execUartTxPush c n b st := rfl
@[simp] theorem exec_uartRxPop (c : Fin 7) (n : Fin 2) (st : State) : exec (.uartRxPop c n) st = execUartRxPop c n st := rfl
@[simp] theorem exec_uartByteReceived (n : Fin 2) (b : Byte) (frame parity : Bool) (st : State) : exec (.uartByteReceived n b frame parity) st = execUartByteReceived n b frame parity st := rfl
@[simp] theorem exec_uartByteSent (n : Fin 2) (st : State) : exec (.uartByteSent n) st = execUartByteSent n st := rfl
@[simp] theorem exec_gpioSet (c : Fin 7) (k : Fin 2) (v : Word) (st : State) : exec (.gpioSet c k v) st = execGpioSet c k v st := rfl
@[simp] theorem exec_gpioClr (c : Fin 7) (k : Fin 2) (v : Word) (st : State) : exec (.gpioClr c k v) st = execGpioClr c k v st := rfl
@[simp] theorem exec_errorLogTake (st : State) : exec (.errorLogTake) st = execErrorLogTake st := rfl
@[simp] theorem exec_errorLogLatch (c : Fin 7) (st : State) : exec (.errorLogLatch c) st = execErrorLogLatch c st := rfl
@[simp] theorem exec_errorLogPop (c : Fin 7) (st : State) : exec (.errorLogPop c) st = execErrorLogPop c st := rfl
@[simp] theorem exec_ovfClear (c : Fin 7) (st : State) : exec (.ovfClear c) st = execOvfClear c st := rfl
@[simp] theorem exec_counterRead (c : Fin 7) (a : Word) (st : State) : exec (.counterRead c a) st = execCounterRead c a st := rfl
@[simp] theorem exec_registerWrite (c : Fin 7) (a v : Word) (st : State) : exec (.registerWrite c a v) st = execRegisterWrite c a v st := rfl
@[simp] theorem exec_alwaysOnRailCollapse (st : State) : exec (.alwaysOnRailCollapse) st = execAlwaysOnRailCollapse st := rfl
@[simp] theorem exec_asyncLatchEdge (n : Fin 1152) (rising : Bool) (st : State) : exec (.asyncLatchEdge n rising) st = execAsyncLatchEdge n rising st := rfl
@[simp] theorem exec_uartCtsChange (n : Fin 2) (on : Bool) (st : State) : exec (.uartCtsChange n on) st = execUartCtsChange n on st := rfl
@[simp] theorem exec_oztisBadFrame (crc : Bool) (typ tag : Byte) (st : State) : exec (.oztisBadFrame crc typ tag) st = execOztisBadFrame crc typ tag st := rfl
@[simp] theorem exec_hostUnknownCommand (b : Byte) (st : State) : exec (.hostUnknownCommand b) st = execHostUnknownCommand b st := rfl

end Sys2Proof.Machine
end

