-- ==== Sys2Proof/Laws/Sparse.lean ====
section
/-! SUPPORT. The laws of the canonical sparse tables: a read after a write, and the canonical form kept. -/

namespace Sys2Proof.Machine

variable {α : Type}

theorem sget_serase (d : α) (m : List (Nat × α)) (k a : Nat) :
    sget d (serase k m) a = if a = k then d else sget d m a := by
  induction m with
  | nil => simp [serase, sget]
  | cons p r ih =>
    obtain ⟨k', v'⟩ := p
    by_cases h : k' = k
    · subst h
      simp only [serase, if_true, ih, sget]
      by_cases ha : a = k' <;> simp [ha]
    · by_cases ha : a = k
      · subst ha
        simp [serase, sget, h, ih, Ne.symm h]
      · simp [serase, sget, h, ih, ha]

theorem sget_sinsert (d : α) (m : List (Nat × α)) (k : Nat) (v : α) (a : Nat)
    (hno : ∀ p ∈ m, p.1 ≠ k) :
    sget d (sinsert k v m) a = if a = k then v else sget d m a := by
  induction m with
  | nil => simp [sinsert, sget]
  | cons p r ih =>
    obtain ⟨k', v'⟩ := p
    have hk' : k' ≠ k := hno _ (List.mem_cons_self ..)
    have ih' := ih (fun p hp => hno p (List.mem_cons_of_mem _ hp))
    by_cases h : k < k'
    · simp [sinsert, sget, h]
    · by_cases ha : a = k
      · subst ha
        simp [sinsert, sget, h, ih', Ne.symm hk']
      · simp [sinsert, sget, h, ih', ha]

theorem serase_no_key (m : List (Nat × α)) (k : Nat) : ∀ p ∈ serase k m, p.1 ≠ k := by
  induction m with
  | nil => intro p hp; cases hp
  | cons q r ih =>
    obtain ⟨k', v'⟩ := q
    by_cases h : k' = k
    · simp only [serase, h, if_true]; exact ih
    · simp only [serase, h, if_false]
      intro p hp
      rcases List.mem_cons.mp hp with rfl | hp
      · exact h
      · exact ih p hp

/-- A read after a write gives the value at that key and what stood there before at every other. -/
theorem sget_sset [DecidableEq α] (d : α) (m : List (Nat × α)) (k : Nat) (v : α) (a : Nat) :
    sget d (sset d m k v) a = if a = k then v else sget d m a := by
  unfold sset
  split
  · next h => rw [sget_serase]; split <;> simp_all
  · rw [sget_sinsert d _ k v a (serase_no_key m k), sget_serase]
    by_cases ha : a = k <;> simp [ha]

/-- Reads at one key ignore which default belongs to other keys. -/
theorem sget_sset_other [DecidableEq α] (d d' : α) (m : List (Nat × α)) (k : Nat) (v : α) (a : Nat) (h : a ≠ k) :
    sget d (sset d' m k v) a = sget d m a := by
  unfold sset
  split
  · rw [sget_serase]; simp [h]
  · rw [sget_sinsert d _ k v a (serase_no_key m k), sget_serase]; simp [h]

theorem srising_mono (m : List (Nat × α)) (lo lo' : Nat) (h : lo' ≤ lo) (hm : srising lo m = true) :
    srising lo' m = true := by
  cases m with
  | nil => rfl
  | cons p r =>
    obtain ⟨k, v⟩ := p
    simp only [srising, Bool.and_eq_true, decide_eq_true_eq] at hm ⊢
    exact ⟨by omega, hm.2⟩

theorem srising_serase (m : List (Nat × α)) (lo k : Nat) (hm : srising lo m = true) :
    srising lo (serase k m) = true := by
  induction m generalizing lo with
  | nil => rfl
  | cons p r ih =>
    obtain ⟨k', v'⟩ := p
    simp only [srising, Bool.and_eq_true, decide_eq_true_eq] at hm
    by_cases h : k' = k
    · simp only [serase, h, if_true]
      exact ih lo (srising_mono r (k' + 1) lo (by omega) hm.2)
    · simp only [serase, h, if_false, srising, Bool.and_eq_true, decide_eq_true_eq]
      exact ⟨hm.1, ih _ hm.2⟩

theorem srising_sinsert (m : List (Nat × α)) (lo k : Nat) (v : α) (hlo : lo ≤ k) (hm : srising lo m = true)
    (hno : ∀ p ∈ m, p.1 ≠ k) : srising lo (sinsert k v m) = true := by
  induction m generalizing lo with
  | nil => simp [sinsert, srising, hlo]
  | cons p r ih =>
    obtain ⟨k', v'⟩ := p
    have hne : k' ≠ k := hno _ (List.mem_cons_self ..)
    simp only [srising, Bool.and_eq_true, decide_eq_true_eq] at hm
    by_cases h : k < k'
    · simp only [sinsert, h, if_true, srising, Bool.and_eq_true, decide_eq_true_eq]
      exact ⟨hlo, by omega, hm.2⟩
    · simp only [sinsert, h, if_false, srising, Bool.and_eq_true, decide_eq_true_eq]
      exact ⟨hm.1, ih _ (by omega) hm.2 (fun p hp => hno p (List.mem_cons_of_mem _ hp))⟩

theorem mem_serase (m : List (Nat × α)) (k : Nat) (p : Nat × α) (h : p ∈ serase k m) : p ∈ m := by
  induction m with
  | nil => exact h
  | cons q r ih =>
    obtain ⟨k', v'⟩ := q
    by_cases hk : k' = k
    · simp only [serase, hk, if_true] at h
      exact List.mem_cons_of_mem _ (ih h)
    · simp only [serase, hk, if_false] at h
      rcases List.mem_cons.mp h with rfl | h
      · exact List.mem_cons_self ..
      · exact List.mem_cons_of_mem _ (ih h)

theorem mem_sinsert (m : List (Nat × α)) (k : Nat) (v : α) (p : Nat × α) (h : p ∈ sinsert k v m) :
    p = (k, v) ∨ p ∈ m := by
  induction m with
  | nil => simpa [sinsert] using h
  | cons q r ih =>
    obtain ⟨k', v'⟩ := q
    by_cases hk : k < k'
    · simp only [sinsert, hk, if_true] at h
      exact List.mem_cons.mp h
    · simp only [sinsert, hk, if_false] at h
      rcases List.mem_cons.mp h with rfl | h
      · exact Or.inr (List.mem_cons_self ..)
      · rcases ih h with h | h
        · exact Or.inl h
        · exact Or.inr (List.mem_cons_of_mem _ h)

/-- A write keeps the canonical form. -/
theorem swf_sset [DecidableEq α] (d : Nat → α) (m : List (Nat × α)) (k : Nat) (v : α) (h : swf d m = true) :
    swf d (sset (d k) m k v) = true := by
  simp only [swf, Bool.and_eq_true, List.all_eq_true, decide_eq_true_eq] at h ⊢
  unfold sset
  split
  · exact ⟨srising_serase m 0 k h.1, fun p hp => h.2 p (mem_serase m k p hp)⟩
  · next hv =>
    refine ⟨srising_sinsert _ 0 k v (Nat.zero_le _) (srising_serase m 0 k h.1) (serase_no_key m k), ?_⟩
    intro p hp
    rcases mem_sinsert _ k v p hp with rfl | hp
    · exact hv
    · exact h.2 p (mem_serase m k p hp)

end Sys2Proof.Machine
end

