-- ==== Sys2Proof/Laws/State.lean ====
section
/-! SUPPORT. One lemma per field of the device and update: what a shared operation leaves as it was. -/

namespace Sys2Proof.Machine

/-! ### setReg -/

@[simp] theorem Dev.setReg_mem (d : Dev) (a : Nat) (v : Word) : (d.setReg a v).mem = d.mem := rfl
@[simp] theorem Dev.setReg_memErr (d : Dev) (a : Nat) (v : Word) : (d.setReg a v).memErr = d.memErr := rfl
@[simp] theorem Dev.setReg_cores (d : Dev) (a : Nat) (v : Word) : (d.setReg a v).cores = d.cores := rfl
@[simp] theorem Dev.setReg_caches (d : Dev) (a : Nat) (v : Word) : (d.setReg a v).caches = d.caches := rfl
@[simp] theorem Dev.setReg_carve (d : Dev) (a : Nat) (v : Word) : (d.setReg a v).carve = d.carve := rfl
@[simp] theorem Dev.setReg_locks (d : Dev) (a : Nat) (v : Word) : (d.setReg a v).locks = d.locks := rfl
@[simp] theorem Dev.setReg_romHidden (d : Dev) (a : Nat) (v : Word) : (d.setReg a v).romHidden = d.romHidden := rfl
@[simp] theorem Dev.setReg_lpOrder (d : Dev) (a : Nat) (v : Word) : (d.setReg a v).lpOrder = d.lpOrder := rfl
@[simp] theorem Dev.setReg_asyncL (d : Dev) (a : Nat) (v : Word) : (d.setReg a v).asyncL = d.asyncL := rfl
@[simp] theorem Dev.setReg_irqNew (d : Dev) (a : Nat) (v : Word) : (d.setReg a v).irqNew = d.irqNew := rfl
@[simp] theorem Dev.setReg_irqPulse (d : Dev) (a : Nat) (v : Word) : (d.setReg a v).irqPulse = d.irqPulse := rfl
@[simp] theorem Dev.setReg_chRaw (d : Dev) (a : Nat) (v : Word) : (d.setReg a v).chRaw = d.chRaw := rfl
@[simp] theorem Dev.setReg_chPuls (d : Dev) (a : Nat) (v : Word) : (d.setReg a v).chPuls = d.chPuls := rfl
@[simp] theorem Dev.setReg_hdlPend (d : Dev) (a : Nat) (v : Word) : (d.setReg a v).hdlPend = d.hdlPend := rfl
@[simp] theorem Dev.setReg_hdlLast (d : Dev) (a : Nat) (v : Word) : (d.setReg a v).hdlLast = d.hdlLast := rfl
@[simp] theorem Dev.setReg_hdlDone (d : Dev) (a : Nat) (v : Word) : (d.setReg a v).hdlDone = d.hdlDone := rfl
@[simp] theorem Dev.setReg_chRose (d : Dev) (a : Nat) (v : Word) : (d.setReg a v).chRose = d.chRose := rfl
@[simp] theorem Dev.setReg_gateOn (d : Dev) (a : Nat) (v : Word) : (d.setReg a v).gateOn = d.gateOn := rfl
@[simp] theorem Dev.setReg_grpOn (d : Dev) (a : Nat) (v : Word) : (d.setReg a v).grpOn = d.grpOn := rfl
@[simp] theorem Dev.setReg_grpOff (d : Dev) (a : Nat) (v : Word) : (d.setReg a v).grpOff = d.grpOff := rfl
@[simp] theorem Dev.setReg_erlCyc (d : Dev) (a : Nat) (v : Word) : (d.setReg a v).erlCyc = d.erlCyc := rfl
@[simp] theorem Dev.setReg_fltCyc (d : Dev) (a : Nat) (v : Word) : (d.setReg a v).fltCyc = d.fltCyc := rfl
@[simp] theorem Dev.setReg_cellCnt (d : Dev) (a : Nat) (v : Word) : (d.setReg a v).cellCnt = d.cellCnt := rfl
@[simp] theorem Dev.setReg_lutSwap (d : Dev) (a : Nat) (v : Word) : (d.setReg a v).lutSwap = d.lutSwap := rfl
@[simp] theorem Dev.setReg_holdDue (d : Dev) (a : Nat) (v : Word) : (d.setReg a v).holdDue = d.holdDue := rfl
@[simp] theorem Dev.setReg_parked (d : Dev) (a : Nat) (v : Word) : (d.setReg a v).parked = d.parked := rfl
@[simp] theorem Dev.setReg_waiting (d : Dev) (a : Nat) (v : Word) : (d.setReg a v).waiting = d.waiting := rfl
@[simp] theorem Dev.setReg_erlFifo (d : Dev) (a : Nat) (v : Word) : (d.setReg a v).erlFifo = d.erlFifo := rfl
@[simp] theorem Dev.setReg_erlNext (d : Dev) (a : Nat) (v : Word) : (d.setReg a v).erlNext = d.erlNext := rfl
@[simp] theorem Dev.setReg_tmr (d : Dev) (a : Nat) (v : Word) : (d.setReg a v).tmr = d.tmr := rfl
@[simp] theorem Dev.setReg_aont (d : Dev) (a : Nat) (v : Word) : (d.setReg a v).aont = d.aont := rfl
@[simp] theorem Dev.setReg_clk (d : Dev) (a : Nat) (v : Word) : (d.setReg a v).clk = d.clk := rfl
@[simp] theorem Dev.setReg_pwr (d : Dev) (a : Nat) (v : Word) : (d.setReg a v).pwr = d.pwr := rfl
@[simp] theorem Dev.setReg_sow (d : Dev) (a : Nat) (v : Word) : (d.setReg a v).sow = d.sow := rfl
@[simp] theorem Dev.setReg_rdata (d : Dev) (a : Nat) (v : Word) : (d.setReg a v).rdata = d.rdata := rfl
@[simp] theorem Dev.setReg_ccaHeld (d : Dev) (a : Nat) (v : Word) : (d.setReg a v).ccaHeld = d.ccaHeld := rfl
@[simp] theorem Dev.setReg_padHold (d : Dev) (a : Nat) (v : Word) : (d.setReg a v).padHold = d.padHold := rfl
@[simp] theorem Dev.setReg_txs (d : Dev) (a : Nat) (v : Word) : (d.setReg a v).txs = d.txs := rfl
@[simp] theorem Dev.setReg_gates (d : Dev) (a : Nat) (v : Word) : (d.setReg a v).gates = d.gates := rfl
@[simp] theorem Dev.setReg_profStaged (d : Dev) (a : Nat) (v : Word) : (d.setReg a v).profStaged = d.profStaged := rfl
@[simp] theorem Dev.setReg_rx (d : Dev) (a : Nat) (v : Word) : (d.setReg a v).rx = d.rx := rfl
@[simp] theorem Dev.setReg_antSel (d : Dev) (a : Nat) (v : Word) : (d.setReg a v).antSel = d.antSel := rfl
@[simp] theorem Dev.setReg_calQ (d : Dev) (a : Nat) (v : Word) : (d.setReg a v).calQ = d.calQ := rfl
@[simp] theorem Dev.setReg_calMeas (d : Dev) (a : Nat) (v : Word) : (d.setReg a v).calMeas = d.calMeas := rfl
@[simp] theorem Dev.setReg_detRun (d : Dev) (a : Nat) (v : Word) : (d.setReg a v).detRun = d.detRun := rfl
@[simp] theorem Dev.setReg_rcv (d : Dev) (a : Nat) (v : Word) : (d.setReg a v).rcv = d.rcv := rfl
@[simp] theorem Dev.setReg_decQ (d : Dev) (a : Nat) (v : Word) : (d.setReg a v).decQ = d.decQ := rfl
@[simp] theorem Dev.setReg_decBusy (d : Dev) (a : Nat) (v : Word) : (d.setReg a v).decBusy = d.decBusy := rfl
@[simp] theorem Dev.setReg_decFreed (d : Dev) (a : Nat) (v : Word) : (d.setReg a v).decFreed = d.decFreed := rfl
@[simp] theorem Dev.setReg_decLast (d : Dev) (a : Nat) (v : Word) : (d.setReg a v).decLast = d.decLast := rfl
@[simp] theorem Dev.setReg_slots (d : Dev) (a : Nat) (v : Word) : (d.setReg a v).slots = d.slots := rfl
@[simp] theorem Dev.setReg_slotSeq (d : Dev) (a : Nat) (v : Word) : (d.setReg a v).slotSeq = d.slotSeq := rfl
@[simp] theorem Dev.setReg_ring (d : Dev) (a : Nat) (v : Word) : (d.setReg a v).ring = d.ring := rfl
@[simp] theorem Dev.setReg_calSeen (d : Dev) (a : Nat) (v : Word) : (d.setReg a v).calSeen = d.calSeen := rfl
@[simp] theorem Dev.setReg_fuse (d : Dev) (a : Nat) (v : Word) : (d.setReg a v).fuse = d.fuse := rfl
@[simp] theorem Dev.setReg_fuseRead (d : Dev) (a : Nat) (v : Word) : (d.setReg a v).fuseRead = d.fuseRead := rfl
@[simp] theorem Dev.setReg_fuseBad (d : Dev) (a : Nat) (v : Word) : (d.setReg a v).fuseBad = d.fuseBad := rfl
@[simp] theorem Dev.setReg_blown (d : Dev) (a : Nat) (v : Word) : (d.setReg a v).blown = d.blown := rfl
@[simp] theorem Dev.setReg_kslots (d : Dev) (a : Nat) (v : Word) : (d.setReg a v).kslots = d.kslots := rfl
@[simp] theorem Dev.setReg_keyPend (d : Dev) (a : Nat) (v : Word) : (d.setReg a v).keyPend = d.keyPend := rfl
@[simp] theorem Dev.setReg_k0Wait (d : Dev) (a : Nat) (v : Word) : (d.setReg a v).k0Wait = d.k0Wait := rfl
@[simp] theorem Dev.setReg_bootKeyed (d : Dev) (a : Nat) (v : Word) : (d.setReg a v).bootKeyed = d.bootKeyed := rfl
@[simp] theorem Dev.setReg_ctrLeft (d : Dev) (a : Nat) (v : Word) : (d.setReg a v).ctrLeft = d.ctrLeft := rfl
@[simp] theorem Dev.setReg_ctrBad (d : Dev) (a : Nat) (v : Word) : (d.setReg a v).ctrBad = d.ctrBad := rfl
@[simp] theorem Dev.setReg_flWeak (d : Dev) (a : Nat) (v : Word) : (d.setReg a v).flWeak = d.flWeak := rfl
@[simp] theorem Dev.setReg_aesJobs (d : Dev) (a : Nat) (v : Word) : (d.setReg a v).aesJobs = d.aesJobs := rfl
@[simp] theorem Dev.setReg_aesSeq (d : Dev) (a : Nat) (v : Word) : (d.setReg a v).aesSeq = d.aesSeq := rfl
@[simp] theorem Dev.setReg_aesLast (d : Dev) (a : Nat) (v : Word) : (d.setReg a v).aesLast = d.aesLast := rfl
@[simp] theorem Dev.setReg_shaCtx (d : Dev) (a : Nat) (v : Word) : (d.setReg a v).shaCtx = d.shaCtx := rfl
@[simp] theorem Dev.setReg_cht (d : Dev) (a : Nat) (v : Word) : (d.setReg a v).cht = d.cht := rfl
@[simp] theorem Dev.setReg_descs (d : Dev) (a : Nat) (v : Word) : (d.setReg a v).descs = d.descs := rfl
@[simp] theorem Dev.setReg_descSeq (d : Dev) (a : Nat) (v : Word) : (d.setReg a v).descSeq = d.descSeq := rfl
@[simp] theorem Dev.setReg_comps (d : Dev) (a : Nat) (v : Word) : (d.setReg a v).comps = d.comps := rfl
@[simp] theorem Dev.setReg_vq (d : Dev) (a : Nat) (v : Word) : (d.setReg a v).vq = d.vq := rfl
@[simp] theorem Dev.setReg_qpool (d : Dev) (a : Nat) (v : Word) : (d.setReg a v).qpool = d.qpool := rfl
@[simp] theorem Dev.setReg_queues (d : Dev) (a : Nat) (v : Word) : (d.setReg a v).queues = d.queues := rfl
@[simp] theorem Dev.setReg_deferred (d : Dev) (a : Nat) (v : Word) : (d.setReg a v).deferred = d.deferred := rfl
@[simp] theorem Dev.setReg_bound (d : Dev) (a : Nat) (v : Word) : (d.setReg a v).bound = d.bound := rfl
@[simp] theorem Dev.setReg_awaits (d : Dev) (a : Nat) (v : Word) : (d.setReg a v).awaits = d.awaits := rfl
@[simp] theorem Dev.setReg_frames (d : Dev) (a : Nat) (v : Word) : (d.setReg a v).frames = d.frames := rfl
@[simp] theorem Dev.setReg_lateU (d : Dev) (a : Nat) (v : Word) : (d.setReg a v).lateU = d.lateU := rfl
@[simp] theorem Dev.setReg_winSeen (d : Dev) (a : Nat) (v : Word) : (d.setReg a v).winSeen = d.winSeen := rfl
@[simp] theorem Dev.setReg_winWait (d : Dev) (a : Nat) (v : Word) : (d.setReg a v).winWait = d.winWait := rfl
@[simp] theorem Dev.setReg_lostEvt (d : Dev) (a : Nat) (v : Word) : (d.setReg a v).lostEvt = d.lostEvt := rfl
@[simp] theorem Dev.setReg_linkSeq (d : Dev) (a : Nat) (v : Word) : (d.setReg a v).linkSeq = d.linkSeq := rfl
@[simp] theorem Dev.setReg_relayHeld (d : Dev) (a : Nat) (v : Word) : (d.setReg a v).relayHeld = d.relayHeld := rfl
@[simp] theorem Dev.setReg_cache (d : Dev) (a : Nat) (v : Word) : (d.setReg a v).cache = d.cache := rfl
@[simp] theorem Dev.setReg_fld (d : Dev) (a : Nat) (v : Word) : (d.setReg a v).fld = d.fld := rfl
@[simp] theorem Dev.setReg_wins (d : Dev) (a : Nat) (v : Word) : (d.setReg a v).wins = d.wins := rfl
@[simp] theorem Dev.setReg_banks (d : Dev) (a : Nat) (v : Word) : (d.setReg a v).banks = d.banks := rfl
@[simp] theorem Dev.setReg_flErr (d : Dev) (a : Nat) (v : Word) : (d.setReg a v).flErr = d.flErr := rfl
@[simp] theorem Dev.setReg_flFlag (d : Dev) (a : Nat) (v : Word) : (d.setReg a v).flFlag = d.flFlag := rfl
@[simp] theorem Dev.setReg_flRow (d : Dev) (a : Nat) (v : Word) : (d.setReg a v).flRow = d.flRow := rfl
@[simp] theorem Dev.setReg_lgr (d : Dev) (a : Nat) (v : Word) : (d.setReg a v).lgr = d.lgr := rfl
@[simp] theorem Dev.setReg_dir (d : Dev) (a : Nat) (v : Word) : (d.setReg a v).dir = d.dir := rfl
@[simp] theorem Dev.setReg_svc (d : Dev) (a : Nat) (v : Word) : (d.setReg a v).svc = d.svc := rfl
@[simp] theorem Dev.setReg_cal (d : Dev) (a : Nat) (v : Word) : (d.setReg a v).cal = d.cal := rfl
@[simp] theorem Dev.setReg_nfc (d : Dev) (a : Nat) (v : Word) : (d.setReg a v).nfc = d.nfc := rfl
@[simp] theorem Dev.setReg_i2c (d : Dev) (a : Nat) (v : Word) : (d.setReg a v).i2c = d.i2c := rfl
@[simp] theorem Dev.setReg_spi (d : Dev) (a : Nat) (v : Word) : (d.setReg a v).spi = d.spi := rfl
@[simp] theorem Dev.setReg_uart (d : Dev) (a : Nat) (v : Word) : (d.setReg a v).uart = d.uart := rfl
@[simp] theorem Dev.setReg_host (d : Dev) (a : Nat) (v : Word) : (d.setReg a v).host = d.host := rfl
@[simp] theorem Dev.setReg_freeCtr (d : Dev) (a : Nat) (v : Word) : (d.setReg a v).freeCtr = d.freeCtr := rfl

/-! ### put -/

@[simp] theorem Dev.put_mem (d : Dev) (a : Nat) (f : Fld) (v : Nat) : (d.put a f v).mem = d.mem := rfl
@[simp] theorem Dev.put_memErr (d : Dev) (a : Nat) (f : Fld) (v : Nat) : (d.put a f v).memErr = d.memErr := rfl
@[simp] theorem Dev.put_cores (d : Dev) (a : Nat) (f : Fld) (v : Nat) : (d.put a f v).cores = d.cores := rfl
@[simp] theorem Dev.put_caches (d : Dev) (a : Nat) (f : Fld) (v : Nat) : (d.put a f v).caches = d.caches := rfl
@[simp] theorem Dev.put_carve (d : Dev) (a : Nat) (f : Fld) (v : Nat) : (d.put a f v).carve = d.carve := rfl
@[simp] theorem Dev.put_locks (d : Dev) (a : Nat) (f : Fld) (v : Nat) : (d.put a f v).locks = d.locks := rfl
@[simp] theorem Dev.put_romHidden (d : Dev) (a : Nat) (f : Fld) (v : Nat) : (d.put a f v).romHidden = d.romHidden := rfl
@[simp] theorem Dev.put_lpOrder (d : Dev) (a : Nat) (f : Fld) (v : Nat) : (d.put a f v).lpOrder = d.lpOrder := rfl
@[simp] theorem Dev.put_asyncL (d : Dev) (a : Nat) (f : Fld) (v : Nat) : (d.put a f v).asyncL = d.asyncL := rfl
@[simp] theorem Dev.put_irqNew (d : Dev) (a : Nat) (f : Fld) (v : Nat) : (d.put a f v).irqNew = d.irqNew := rfl
@[simp] theorem Dev.put_irqPulse (d : Dev) (a : Nat) (f : Fld) (v : Nat) : (d.put a f v).irqPulse = d.irqPulse := rfl
@[simp] theorem Dev.put_chRaw (d : Dev) (a : Nat) (f : Fld) (v : Nat) : (d.put a f v).chRaw = d.chRaw := rfl
@[simp] theorem Dev.put_chPuls (d : Dev) (a : Nat) (f : Fld) (v : Nat) : (d.put a f v).chPuls = d.chPuls := rfl
@[simp] theorem Dev.put_hdlPend (d : Dev) (a : Nat) (f : Fld) (v : Nat) : (d.put a f v).hdlPend = d.hdlPend := rfl
@[simp] theorem Dev.put_hdlLast (d : Dev) (a : Nat) (f : Fld) (v : Nat) : (d.put a f v).hdlLast = d.hdlLast := rfl
@[simp] theorem Dev.put_hdlDone (d : Dev) (a : Nat) (f : Fld) (v : Nat) : (d.put a f v).hdlDone = d.hdlDone := rfl
@[simp] theorem Dev.put_chRose (d : Dev) (a : Nat) (f : Fld) (v : Nat) : (d.put a f v).chRose = d.chRose := rfl
@[simp] theorem Dev.put_gateOn (d : Dev) (a : Nat) (f : Fld) (v : Nat) : (d.put a f v).gateOn = d.gateOn := rfl
@[simp] theorem Dev.put_grpOn (d : Dev) (a : Nat) (f : Fld) (v : Nat) : (d.put a f v).grpOn = d.grpOn := rfl
@[simp] theorem Dev.put_grpOff (d : Dev) (a : Nat) (f : Fld) (v : Nat) : (d.put a f v).grpOff = d.grpOff := rfl
@[simp] theorem Dev.put_erlCyc (d : Dev) (a : Nat) (f : Fld) (v : Nat) : (d.put a f v).erlCyc = d.erlCyc := rfl
@[simp] theorem Dev.put_fltCyc (d : Dev) (a : Nat) (f : Fld) (v : Nat) : (d.put a f v).fltCyc = d.fltCyc := rfl
@[simp] theorem Dev.put_cellCnt (d : Dev) (a : Nat) (f : Fld) (v : Nat) : (d.put a f v).cellCnt = d.cellCnt := rfl
@[simp] theorem Dev.put_lutSwap (d : Dev) (a : Nat) (f : Fld) (v : Nat) : (d.put a f v).lutSwap = d.lutSwap := rfl
@[simp] theorem Dev.put_holdDue (d : Dev) (a : Nat) (f : Fld) (v : Nat) : (d.put a f v).holdDue = d.holdDue := rfl
@[simp] theorem Dev.put_parked (d : Dev) (a : Nat) (f : Fld) (v : Nat) : (d.put a f v).parked = d.parked := rfl
@[simp] theorem Dev.put_waiting (d : Dev) (a : Nat) (f : Fld) (v : Nat) : (d.put a f v).waiting = d.waiting := rfl
@[simp] theorem Dev.put_erlFifo (d : Dev) (a : Nat) (f : Fld) (v : Nat) : (d.put a f v).erlFifo = d.erlFifo := rfl
@[simp] theorem Dev.put_erlNext (d : Dev) (a : Nat) (f : Fld) (v : Nat) : (d.put a f v).erlNext = d.erlNext := rfl
@[simp] theorem Dev.put_tmr (d : Dev) (a : Nat) (f : Fld) (v : Nat) : (d.put a f v).tmr = d.tmr := rfl
@[simp] theorem Dev.put_aont (d : Dev) (a : Nat) (f : Fld) (v : Nat) : (d.put a f v).aont = d.aont := rfl
@[simp] theorem Dev.put_clk (d : Dev) (a : Nat) (f : Fld) (v : Nat) : (d.put a f v).clk = d.clk := rfl
@[simp] theorem Dev.put_pwr (d : Dev) (a : Nat) (f : Fld) (v : Nat) : (d.put a f v).pwr = d.pwr := rfl
@[simp] theorem Dev.put_sow (d : Dev) (a : Nat) (f : Fld) (v : Nat) : (d.put a f v).sow = d.sow := rfl
@[simp] theorem Dev.put_rdata (d : Dev) (a : Nat) (f : Fld) (v : Nat) : (d.put a f v).rdata = d.rdata := rfl
@[simp] theorem Dev.put_ccaHeld (d : Dev) (a : Nat) (f : Fld) (v : Nat) : (d.put a f v).ccaHeld = d.ccaHeld := rfl
@[simp] theorem Dev.put_padHold (d : Dev) (a : Nat) (f : Fld) (v : Nat) : (d.put a f v).padHold = d.padHold := rfl
@[simp] theorem Dev.put_txs (d : Dev) (a : Nat) (f : Fld) (v : Nat) : (d.put a f v).txs = d.txs := rfl
@[simp] theorem Dev.put_gates (d : Dev) (a : Nat) (f : Fld) (v : Nat) : (d.put a f v).gates = d.gates := rfl
@[simp] theorem Dev.put_profStaged (d : Dev) (a : Nat) (f : Fld) (v : Nat) : (d.put a f v).profStaged = d.profStaged := rfl
@[simp] theorem Dev.put_rx (d : Dev) (a : Nat) (f : Fld) (v : Nat) : (d.put a f v).rx = d.rx := rfl
@[simp] theorem Dev.put_antSel (d : Dev) (a : Nat) (f : Fld) (v : Nat) : (d.put a f v).antSel = d.antSel := rfl
@[simp] theorem Dev.put_calQ (d : Dev) (a : Nat) (f : Fld) (v : Nat) : (d.put a f v).calQ = d.calQ := rfl
@[simp] theorem Dev.put_calMeas (d : Dev) (a : Nat) (f : Fld) (v : Nat) : (d.put a f v).calMeas = d.calMeas := rfl
@[simp] theorem Dev.put_detRun (d : Dev) (a : Nat) (f : Fld) (v : Nat) : (d.put a f v).detRun = d.detRun := rfl
@[simp] theorem Dev.put_rcv (d : Dev) (a : Nat) (f : Fld) (v : Nat) : (d.put a f v).rcv = d.rcv := rfl
@[simp] theorem Dev.put_decQ (d : Dev) (a : Nat) (f : Fld) (v : Nat) : (d.put a f v).decQ = d.decQ := rfl
@[simp] theorem Dev.put_decBusy (d : Dev) (a : Nat) (f : Fld) (v : Nat) : (d.put a f v).decBusy = d.decBusy := rfl
@[simp] theorem Dev.put_decFreed (d : Dev) (a : Nat) (f : Fld) (v : Nat) : (d.put a f v).decFreed = d.decFreed := rfl
@[simp] theorem Dev.put_decLast (d : Dev) (a : Nat) (f : Fld) (v : Nat) : (d.put a f v).decLast = d.decLast := rfl
@[simp] theorem Dev.put_slots (d : Dev) (a : Nat) (f : Fld) (v : Nat) : (d.put a f v).slots = d.slots := rfl
@[simp] theorem Dev.put_slotSeq (d : Dev) (a : Nat) (f : Fld) (v : Nat) : (d.put a f v).slotSeq = d.slotSeq := rfl
@[simp] theorem Dev.put_ring (d : Dev) (a : Nat) (f : Fld) (v : Nat) : (d.put a f v).ring = d.ring := rfl
@[simp] theorem Dev.put_calSeen (d : Dev) (a : Nat) (f : Fld) (v : Nat) : (d.put a f v).calSeen = d.calSeen := rfl
@[simp] theorem Dev.put_fuse (d : Dev) (a : Nat) (f : Fld) (v : Nat) : (d.put a f v).fuse = d.fuse := rfl
@[simp] theorem Dev.put_fuseRead (d : Dev) (a : Nat) (f : Fld) (v : Nat) : (d.put a f v).fuseRead = d.fuseRead := rfl
@[simp] theorem Dev.put_fuseBad (d : Dev) (a : Nat) (f : Fld) (v : Nat) : (d.put a f v).fuseBad = d.fuseBad := rfl
@[simp] theorem Dev.put_blown (d : Dev) (a : Nat) (f : Fld) (v : Nat) : (d.put a f v).blown = d.blown := rfl
@[simp] theorem Dev.put_kslots (d : Dev) (a : Nat) (f : Fld) (v : Nat) : (d.put a f v).kslots = d.kslots := rfl
@[simp] theorem Dev.put_keyPend (d : Dev) (a : Nat) (f : Fld) (v : Nat) : (d.put a f v).keyPend = d.keyPend := rfl
@[simp] theorem Dev.put_k0Wait (d : Dev) (a : Nat) (f : Fld) (v : Nat) : (d.put a f v).k0Wait = d.k0Wait := rfl
@[simp] theorem Dev.put_bootKeyed (d : Dev) (a : Nat) (f : Fld) (v : Nat) : (d.put a f v).bootKeyed = d.bootKeyed := rfl
@[simp] theorem Dev.put_ctrLeft (d : Dev) (a : Nat) (f : Fld) (v : Nat) : (d.put a f v).ctrLeft = d.ctrLeft := rfl
@[simp] theorem Dev.put_ctrBad (d : Dev) (a : Nat) (f : Fld) (v : Nat) : (d.put a f v).ctrBad = d.ctrBad := rfl
@[simp] theorem Dev.put_flWeak (d : Dev) (a : Nat) (f : Fld) (v : Nat) : (d.put a f v).flWeak = d.flWeak := rfl
@[simp] theorem Dev.put_aesJobs (d : Dev) (a : Nat) (f : Fld) (v : Nat) : (d.put a f v).aesJobs = d.aesJobs := rfl
@[simp] theorem Dev.put_aesSeq (d : Dev) (a : Nat) (f : Fld) (v : Nat) : (d.put a f v).aesSeq = d.aesSeq := rfl
@[simp] theorem Dev.put_aesLast (d : Dev) (a : Nat) (f : Fld) (v : Nat) : (d.put a f v).aesLast = d.aesLast := rfl
@[simp] theorem Dev.put_shaCtx (d : Dev) (a : Nat) (f : Fld) (v : Nat) : (d.put a f v).shaCtx = d.shaCtx := rfl
@[simp] theorem Dev.put_cht (d : Dev) (a : Nat) (f : Fld) (v : Nat) : (d.put a f v).cht = d.cht := rfl
@[simp] theorem Dev.put_descs (d : Dev) (a : Nat) (f : Fld) (v : Nat) : (d.put a f v).descs = d.descs := rfl
@[simp] theorem Dev.put_descSeq (d : Dev) (a : Nat) (f : Fld) (v : Nat) : (d.put a f v).descSeq = d.descSeq := rfl
@[simp] theorem Dev.put_comps (d : Dev) (a : Nat) (f : Fld) (v : Nat) : (d.put a f v).comps = d.comps := rfl
@[simp] theorem Dev.put_vq (d : Dev) (a : Nat) (f : Fld) (v : Nat) : (d.put a f v).vq = d.vq := rfl
@[simp] theorem Dev.put_qpool (d : Dev) (a : Nat) (f : Fld) (v : Nat) : (d.put a f v).qpool = d.qpool := rfl
@[simp] theorem Dev.put_queues (d : Dev) (a : Nat) (f : Fld) (v : Nat) : (d.put a f v).queues = d.queues := rfl
@[simp] theorem Dev.put_deferred (d : Dev) (a : Nat) (f : Fld) (v : Nat) : (d.put a f v).deferred = d.deferred := rfl
@[simp] theorem Dev.put_bound (d : Dev) (a : Nat) (f : Fld) (v : Nat) : (d.put a f v).bound = d.bound := rfl
@[simp] theorem Dev.put_awaits (d : Dev) (a : Nat) (f : Fld) (v : Nat) : (d.put a f v).awaits = d.awaits := rfl
@[simp] theorem Dev.put_frames (d : Dev) (a : Nat) (f : Fld) (v : Nat) : (d.put a f v).frames = d.frames := rfl
@[simp] theorem Dev.put_lateU (d : Dev) (a : Nat) (f : Fld) (v : Nat) : (d.put a f v).lateU = d.lateU := rfl
@[simp] theorem Dev.put_winSeen (d : Dev) (a : Nat) (f : Fld) (v : Nat) : (d.put a f v).winSeen = d.winSeen := rfl
@[simp] theorem Dev.put_winWait (d : Dev) (a : Nat) (f : Fld) (v : Nat) : (d.put a f v).winWait = d.winWait := rfl
@[simp] theorem Dev.put_lostEvt (d : Dev) (a : Nat) (f : Fld) (v : Nat) : (d.put a f v).lostEvt = d.lostEvt := rfl
@[simp] theorem Dev.put_linkSeq (d : Dev) (a : Nat) (f : Fld) (v : Nat) : (d.put a f v).linkSeq = d.linkSeq := rfl
@[simp] theorem Dev.put_relayHeld (d : Dev) (a : Nat) (f : Fld) (v : Nat) : (d.put a f v).relayHeld = d.relayHeld := rfl
@[simp] theorem Dev.put_cache (d : Dev) (a : Nat) (f : Fld) (v : Nat) : (d.put a f v).cache = d.cache := rfl
@[simp] theorem Dev.put_fld (d : Dev) (a : Nat) (f : Fld) (v : Nat) : (d.put a f v).fld = d.fld := rfl
@[simp] theorem Dev.put_wins (d : Dev) (a : Nat) (f : Fld) (v : Nat) : (d.put a f v).wins = d.wins := rfl
@[simp] theorem Dev.put_banks (d : Dev) (a : Nat) (f : Fld) (v : Nat) : (d.put a f v).banks = d.banks := rfl
@[simp] theorem Dev.put_flErr (d : Dev) (a : Nat) (f : Fld) (v : Nat) : (d.put a f v).flErr = d.flErr := rfl
@[simp] theorem Dev.put_flFlag (d : Dev) (a : Nat) (f : Fld) (v : Nat) : (d.put a f v).flFlag = d.flFlag := rfl
@[simp] theorem Dev.put_flRow (d : Dev) (a : Nat) (f : Fld) (v : Nat) : (d.put a f v).flRow = d.flRow := rfl
@[simp] theorem Dev.put_lgr (d : Dev) (a : Nat) (f : Fld) (v : Nat) : (d.put a f v).lgr = d.lgr := rfl
@[simp] theorem Dev.put_dir (d : Dev) (a : Nat) (f : Fld) (v : Nat) : (d.put a f v).dir = d.dir := rfl
@[simp] theorem Dev.put_svc (d : Dev) (a : Nat) (f : Fld) (v : Nat) : (d.put a f v).svc = d.svc := rfl
@[simp] theorem Dev.put_cal (d : Dev) (a : Nat) (f : Fld) (v : Nat) : (d.put a f v).cal = d.cal := rfl
@[simp] theorem Dev.put_nfc (d : Dev) (a : Nat) (f : Fld) (v : Nat) : (d.put a f v).nfc = d.nfc := rfl
@[simp] theorem Dev.put_i2c (d : Dev) (a : Nat) (f : Fld) (v : Nat) : (d.put a f v).i2c = d.i2c := rfl
@[simp] theorem Dev.put_spi (d : Dev) (a : Nat) (f : Fld) (v : Nat) : (d.put a f v).spi = d.spi := rfl
@[simp] theorem Dev.put_uart (d : Dev) (a : Nat) (f : Fld) (v : Nat) : (d.put a f v).uart = d.uart := rfl
@[simp] theorem Dev.put_host (d : Dev) (a : Nat) (f : Fld) (v : Nat) : (d.put a f v).host = d.host := rfl
@[simp] theorem Dev.put_freeCtr (d : Dev) (a : Nat) (f : Fld) (v : Nat) : (d.put a f v).freeCtr = d.freeCtr := rfl

/-! ### putB -/

@[simp] theorem Dev.putB_mem (d : Dev) (a : Nat) (f : Fld) (b : Bool) : (d.putB a f b).mem = d.mem := rfl
@[simp] theorem Dev.putB_memErr (d : Dev) (a : Nat) (f : Fld) (b : Bool) : (d.putB a f b).memErr = d.memErr := rfl
@[simp] theorem Dev.putB_cores (d : Dev) (a : Nat) (f : Fld) (b : Bool) : (d.putB a f b).cores = d.cores := rfl
@[simp] theorem Dev.putB_caches (d : Dev) (a : Nat) (f : Fld) (b : Bool) : (d.putB a f b).caches = d.caches := rfl
@[simp] theorem Dev.putB_carve (d : Dev) (a : Nat) (f : Fld) (b : Bool) : (d.putB a f b).carve = d.carve := rfl
@[simp] theorem Dev.putB_locks (d : Dev) (a : Nat) (f : Fld) (b : Bool) : (d.putB a f b).locks = d.locks := rfl
@[simp] theorem Dev.putB_romHidden (d : Dev) (a : Nat) (f : Fld) (b : Bool) : (d.putB a f b).romHidden = d.romHidden := rfl
@[simp] theorem Dev.putB_lpOrder (d : Dev) (a : Nat) (f : Fld) (b : Bool) : (d.putB a f b).lpOrder = d.lpOrder := rfl
@[simp] theorem Dev.putB_asyncL (d : Dev) (a : Nat) (f : Fld) (b : Bool) : (d.putB a f b).asyncL = d.asyncL := rfl
@[simp] theorem Dev.putB_irqNew (d : Dev) (a : Nat) (f : Fld) (b : Bool) : (d.putB a f b).irqNew = d.irqNew := rfl
@[simp] theorem Dev.putB_irqPulse (d : Dev) (a : Nat) (f : Fld) (b : Bool) : (d.putB a f b).irqPulse = d.irqPulse := rfl
@[simp] theorem Dev.putB_chRaw (d : Dev) (a : Nat) (f : Fld) (b : Bool) : (d.putB a f b).chRaw = d.chRaw := rfl
@[simp] theorem Dev.putB_chPuls (d : Dev) (a : Nat) (f : Fld) (b : Bool) : (d.putB a f b).chPuls = d.chPuls := rfl
@[simp] theorem Dev.putB_hdlPend (d : Dev) (a : Nat) (f : Fld) (b : Bool) : (d.putB a f b).hdlPend = d.hdlPend := rfl
@[simp] theorem Dev.putB_hdlLast (d : Dev) (a : Nat) (f : Fld) (b : Bool) : (d.putB a f b).hdlLast = d.hdlLast := rfl
@[simp] theorem Dev.putB_hdlDone (d : Dev) (a : Nat) (f : Fld) (b : Bool) : (d.putB a f b).hdlDone = d.hdlDone := rfl
@[simp] theorem Dev.putB_chRose (d : Dev) (a : Nat) (f : Fld) (b : Bool) : (d.putB a f b).chRose = d.chRose := rfl
@[simp] theorem Dev.putB_gateOn (d : Dev) (a : Nat) (f : Fld) (b : Bool) : (d.putB a f b).gateOn = d.gateOn := rfl
@[simp] theorem Dev.putB_grpOn (d : Dev) (a : Nat) (f : Fld) (b : Bool) : (d.putB a f b).grpOn = d.grpOn := rfl
@[simp] theorem Dev.putB_grpOff (d : Dev) (a : Nat) (f : Fld) (b : Bool) : (d.putB a f b).grpOff = d.grpOff := rfl
@[simp] theorem Dev.putB_erlCyc (d : Dev) (a : Nat) (f : Fld) (b : Bool) : (d.putB a f b).erlCyc = d.erlCyc := rfl
@[simp] theorem Dev.putB_fltCyc (d : Dev) (a : Nat) (f : Fld) (b : Bool) : (d.putB a f b).fltCyc = d.fltCyc := rfl
@[simp] theorem Dev.putB_cellCnt (d : Dev) (a : Nat) (f : Fld) (b : Bool) : (d.putB a f b).cellCnt = d.cellCnt := rfl
@[simp] theorem Dev.putB_lutSwap (d : Dev) (a : Nat) (f : Fld) (b : Bool) : (d.putB a f b).lutSwap = d.lutSwap := rfl
@[simp] theorem Dev.putB_holdDue (d : Dev) (a : Nat) (f : Fld) (b : Bool) : (d.putB a f b).holdDue = d.holdDue := rfl
@[simp] theorem Dev.putB_parked (d : Dev) (a : Nat) (f : Fld) (b : Bool) : (d.putB a f b).parked = d.parked := rfl
@[simp] theorem Dev.putB_waiting (d : Dev) (a : Nat) (f : Fld) (b : Bool) : (d.putB a f b).waiting = d.waiting := rfl
@[simp] theorem Dev.putB_erlFifo (d : Dev) (a : Nat) (f : Fld) (b : Bool) : (d.putB a f b).erlFifo = d.erlFifo := rfl
@[simp] theorem Dev.putB_erlNext (d : Dev) (a : Nat) (f : Fld) (b : Bool) : (d.putB a f b).erlNext = d.erlNext := rfl
@[simp] theorem Dev.putB_tmr (d : Dev) (a : Nat) (f : Fld) (b : Bool) : (d.putB a f b).tmr = d.tmr := rfl
@[simp] theorem Dev.putB_aont (d : Dev) (a : Nat) (f : Fld) (b : Bool) : (d.putB a f b).aont = d.aont := rfl
@[simp] theorem Dev.putB_clk (d : Dev) (a : Nat) (f : Fld) (b : Bool) : (d.putB a f b).clk = d.clk := rfl
@[simp] theorem Dev.putB_pwr (d : Dev) (a : Nat) (f : Fld) (b : Bool) : (d.putB a f b).pwr = d.pwr := rfl
@[simp] theorem Dev.putB_sow (d : Dev) (a : Nat) (f : Fld) (b : Bool) : (d.putB a f b).sow = d.sow := rfl
@[simp] theorem Dev.putB_rdata (d : Dev) (a : Nat) (f : Fld) (b : Bool) : (d.putB a f b).rdata = d.rdata := rfl
@[simp] theorem Dev.putB_ccaHeld (d : Dev) (a : Nat) (f : Fld) (b : Bool) : (d.putB a f b).ccaHeld = d.ccaHeld := rfl
@[simp] theorem Dev.putB_padHold (d : Dev) (a : Nat) (f : Fld) (b : Bool) : (d.putB a f b).padHold = d.padHold := rfl
@[simp] theorem Dev.putB_txs (d : Dev) (a : Nat) (f : Fld) (b : Bool) : (d.putB a f b).txs = d.txs := rfl
@[simp] theorem Dev.putB_gates (d : Dev) (a : Nat) (f : Fld) (b : Bool) : (d.putB a f b).gates = d.gates := rfl
@[simp] theorem Dev.putB_profStaged (d : Dev) (a : Nat) (f : Fld) (b : Bool) : (d.putB a f b).profStaged = d.profStaged := rfl
@[simp] theorem Dev.putB_rx (d : Dev) (a : Nat) (f : Fld) (b : Bool) : (d.putB a f b).rx = d.rx := rfl
@[simp] theorem Dev.putB_antSel (d : Dev) (a : Nat) (f : Fld) (b : Bool) : (d.putB a f b).antSel = d.antSel := rfl
@[simp] theorem Dev.putB_calQ (d : Dev) (a : Nat) (f : Fld) (b : Bool) : (d.putB a f b).calQ = d.calQ := rfl
@[simp] theorem Dev.putB_calMeas (d : Dev) (a : Nat) (f : Fld) (b : Bool) : (d.putB a f b).calMeas = d.calMeas := rfl
@[simp] theorem Dev.putB_detRun (d : Dev) (a : Nat) (f : Fld) (b : Bool) : (d.putB a f b).detRun = d.detRun := rfl
@[simp] theorem Dev.putB_rcv (d : Dev) (a : Nat) (f : Fld) (b : Bool) : (d.putB a f b).rcv = d.rcv := rfl
@[simp] theorem Dev.putB_decQ (d : Dev) (a : Nat) (f : Fld) (b : Bool) : (d.putB a f b).decQ = d.decQ := rfl
@[simp] theorem Dev.putB_decBusy (d : Dev) (a : Nat) (f : Fld) (b : Bool) : (d.putB a f b).decBusy = d.decBusy := rfl
@[simp] theorem Dev.putB_decFreed (d : Dev) (a : Nat) (f : Fld) (b : Bool) : (d.putB a f b).decFreed = d.decFreed := rfl
@[simp] theorem Dev.putB_decLast (d : Dev) (a : Nat) (f : Fld) (b : Bool) : (d.putB a f b).decLast = d.decLast := rfl
@[simp] theorem Dev.putB_slots (d : Dev) (a : Nat) (f : Fld) (b : Bool) : (d.putB a f b).slots = d.slots := rfl
@[simp] theorem Dev.putB_slotSeq (d : Dev) (a : Nat) (f : Fld) (b : Bool) : (d.putB a f b).slotSeq = d.slotSeq := rfl
@[simp] theorem Dev.putB_ring (d : Dev) (a : Nat) (f : Fld) (b : Bool) : (d.putB a f b).ring = d.ring := rfl
@[simp] theorem Dev.putB_calSeen (d : Dev) (a : Nat) (f : Fld) (b : Bool) : (d.putB a f b).calSeen = d.calSeen := rfl
@[simp] theorem Dev.putB_fuse (d : Dev) (a : Nat) (f : Fld) (b : Bool) : (d.putB a f b).fuse = d.fuse := rfl
@[simp] theorem Dev.putB_fuseRead (d : Dev) (a : Nat) (f : Fld) (b : Bool) : (d.putB a f b).fuseRead = d.fuseRead := rfl
@[simp] theorem Dev.putB_fuseBad (d : Dev) (a : Nat) (f : Fld) (b : Bool) : (d.putB a f b).fuseBad = d.fuseBad := rfl
@[simp] theorem Dev.putB_blown (d : Dev) (a : Nat) (f : Fld) (b : Bool) : (d.putB a f b).blown = d.blown := rfl
@[simp] theorem Dev.putB_kslots (d : Dev) (a : Nat) (f : Fld) (b : Bool) : (d.putB a f b).kslots = d.kslots := rfl
@[simp] theorem Dev.putB_keyPend (d : Dev) (a : Nat) (f : Fld) (b : Bool) : (d.putB a f b).keyPend = d.keyPend := rfl
@[simp] theorem Dev.putB_k0Wait (d : Dev) (a : Nat) (f : Fld) (b : Bool) : (d.putB a f b).k0Wait = d.k0Wait := rfl
@[simp] theorem Dev.putB_bootKeyed (d : Dev) (a : Nat) (f : Fld) (b : Bool) : (d.putB a f b).bootKeyed = d.bootKeyed := rfl
@[simp] theorem Dev.putB_ctrLeft (d : Dev) (a : Nat) (f : Fld) (b : Bool) : (d.putB a f b).ctrLeft = d.ctrLeft := rfl
@[simp] theorem Dev.putB_ctrBad (d : Dev) (a : Nat) (f : Fld) (b : Bool) : (d.putB a f b).ctrBad = d.ctrBad := rfl
@[simp] theorem Dev.putB_flWeak (d : Dev) (a : Nat) (f : Fld) (b : Bool) : (d.putB a f b).flWeak = d.flWeak := rfl
@[simp] theorem Dev.putB_aesJobs (d : Dev) (a : Nat) (f : Fld) (b : Bool) : (d.putB a f b).aesJobs = d.aesJobs := rfl
@[simp] theorem Dev.putB_aesSeq (d : Dev) (a : Nat) (f : Fld) (b : Bool) : (d.putB a f b).aesSeq = d.aesSeq := rfl
@[simp] theorem Dev.putB_aesLast (d : Dev) (a : Nat) (f : Fld) (b : Bool) : (d.putB a f b).aesLast = d.aesLast := rfl
@[simp] theorem Dev.putB_shaCtx (d : Dev) (a : Nat) (f : Fld) (b : Bool) : (d.putB a f b).shaCtx = d.shaCtx := rfl
@[simp] theorem Dev.putB_cht (d : Dev) (a : Nat) (f : Fld) (b : Bool) : (d.putB a f b).cht = d.cht := rfl
@[simp] theorem Dev.putB_descs (d : Dev) (a : Nat) (f : Fld) (b : Bool) : (d.putB a f b).descs = d.descs := rfl
@[simp] theorem Dev.putB_descSeq (d : Dev) (a : Nat) (f : Fld) (b : Bool) : (d.putB a f b).descSeq = d.descSeq := rfl
@[simp] theorem Dev.putB_comps (d : Dev) (a : Nat) (f : Fld) (b : Bool) : (d.putB a f b).comps = d.comps := rfl
@[simp] theorem Dev.putB_vq (d : Dev) (a : Nat) (f : Fld) (b : Bool) : (d.putB a f b).vq = d.vq := rfl
@[simp] theorem Dev.putB_qpool (d : Dev) (a : Nat) (f : Fld) (b : Bool) : (d.putB a f b).qpool = d.qpool := rfl
@[simp] theorem Dev.putB_queues (d : Dev) (a : Nat) (f : Fld) (b : Bool) : (d.putB a f b).queues = d.queues := rfl
@[simp] theorem Dev.putB_deferred (d : Dev) (a : Nat) (f : Fld) (b : Bool) : (d.putB a f b).deferred = d.deferred := rfl
@[simp] theorem Dev.putB_bound (d : Dev) (a : Nat) (f : Fld) (b : Bool) : (d.putB a f b).bound = d.bound := rfl
@[simp] theorem Dev.putB_awaits (d : Dev) (a : Nat) (f : Fld) (b : Bool) : (d.putB a f b).awaits = d.awaits := rfl
@[simp] theorem Dev.putB_frames (d : Dev) (a : Nat) (f : Fld) (b : Bool) : (d.putB a f b).frames = d.frames := rfl
@[simp] theorem Dev.putB_lateU (d : Dev) (a : Nat) (f : Fld) (b : Bool) : (d.putB a f b).lateU = d.lateU := rfl
@[simp] theorem Dev.putB_winSeen (d : Dev) (a : Nat) (f : Fld) (b : Bool) : (d.putB a f b).winSeen = d.winSeen := rfl
@[simp] theorem Dev.putB_winWait (d : Dev) (a : Nat) (f : Fld) (b : Bool) : (d.putB a f b).winWait = d.winWait := rfl
@[simp] theorem Dev.putB_lostEvt (d : Dev) (a : Nat) (f : Fld) (b : Bool) : (d.putB a f b).lostEvt = d.lostEvt := rfl
@[simp] theorem Dev.putB_linkSeq (d : Dev) (a : Nat) (f : Fld) (b : Bool) : (d.putB a f b).linkSeq = d.linkSeq := rfl
@[simp] theorem Dev.putB_relayHeld (d : Dev) (a : Nat) (f : Fld) (b : Bool) : (d.putB a f b).relayHeld = d.relayHeld := rfl
@[simp] theorem Dev.putB_cache (d : Dev) (a : Nat) (f : Fld) (b : Bool) : (d.putB a f b).cache = d.cache := rfl
@[simp] theorem Dev.putB_fld (d : Dev) (a : Nat) (f : Fld) (b : Bool) : (d.putB a f b).fld = d.fld := rfl
@[simp] theorem Dev.putB_wins (d : Dev) (a : Nat) (f : Fld) (b : Bool) : (d.putB a f b).wins = d.wins := rfl
@[simp] theorem Dev.putB_banks (d : Dev) (a : Nat) (f : Fld) (b : Bool) : (d.putB a f b).banks = d.banks := rfl
@[simp] theorem Dev.putB_flErr (d : Dev) (a : Nat) (f : Fld) (b : Bool) : (d.putB a f b).flErr = d.flErr := rfl
@[simp] theorem Dev.putB_flFlag (d : Dev) (a : Nat) (f : Fld) (b : Bool) : (d.putB a f b).flFlag = d.flFlag := rfl
@[simp] theorem Dev.putB_flRow (d : Dev) (a : Nat) (f : Fld) (b : Bool) : (d.putB a f b).flRow = d.flRow := rfl
@[simp] theorem Dev.putB_lgr (d : Dev) (a : Nat) (f : Fld) (b : Bool) : (d.putB a f b).lgr = d.lgr := rfl
@[simp] theorem Dev.putB_dir (d : Dev) (a : Nat) (f : Fld) (b : Bool) : (d.putB a f b).dir = d.dir := rfl
@[simp] theorem Dev.putB_svc (d : Dev) (a : Nat) (f : Fld) (b : Bool) : (d.putB a f b).svc = d.svc := rfl
@[simp] theorem Dev.putB_cal (d : Dev) (a : Nat) (f : Fld) (b : Bool) : (d.putB a f b).cal = d.cal := rfl
@[simp] theorem Dev.putB_nfc (d : Dev) (a : Nat) (f : Fld) (b : Bool) : (d.putB a f b).nfc = d.nfc := rfl
@[simp] theorem Dev.putB_i2c (d : Dev) (a : Nat) (f : Fld) (b : Bool) : (d.putB a f b).i2c = d.i2c := rfl
@[simp] theorem Dev.putB_spi (d : Dev) (a : Nat) (f : Fld) (b : Bool) : (d.putB a f b).spi = d.spi := rfl
@[simp] theorem Dev.putB_uart (d : Dev) (a : Nat) (f : Fld) (b : Bool) : (d.putB a f b).uart = d.uart := rfl
@[simp] theorem Dev.putB_host (d : Dev) (a : Nat) (f : Fld) (b : Bool) : (d.putB a f b).host = d.host := rfl
@[simp] theorem Dev.putB_freeCtr (d : Dev) (a : Nat) (f : Fld) (b : Bool) : (d.putB a f b).freeCtr = d.freeCtr := rfl

/-! ### resetReg -/

@[simp] theorem Dev.resetReg_mem (d : Dev) (a : Nat) : (d.resetReg a).mem = d.mem := rfl
@[simp] theorem Dev.resetReg_memErr (d : Dev) (a : Nat) : (d.resetReg a).memErr = d.memErr := rfl
@[simp] theorem Dev.resetReg_cores (d : Dev) (a : Nat) : (d.resetReg a).cores = d.cores := rfl
@[simp] theorem Dev.resetReg_caches (d : Dev) (a : Nat) : (d.resetReg a).caches = d.caches := rfl
@[simp] theorem Dev.resetReg_carve (d : Dev) (a : Nat) : (d.resetReg a).carve = d.carve := rfl
@[simp] theorem Dev.resetReg_locks (d : Dev) (a : Nat) : (d.resetReg a).locks = d.locks := rfl
@[simp] theorem Dev.resetReg_romHidden (d : Dev) (a : Nat) : (d.resetReg a).romHidden = d.romHidden := rfl
@[simp] theorem Dev.resetReg_lpOrder (d : Dev) (a : Nat) : (d.resetReg a).lpOrder = d.lpOrder := rfl
@[simp] theorem Dev.resetReg_asyncL (d : Dev) (a : Nat) : (d.resetReg a).asyncL = d.asyncL := rfl
@[simp] theorem Dev.resetReg_irqNew (d : Dev) (a : Nat) : (d.resetReg a).irqNew = d.irqNew := rfl
@[simp] theorem Dev.resetReg_irqPulse (d : Dev) (a : Nat) : (d.resetReg a).irqPulse = d.irqPulse := rfl
@[simp] theorem Dev.resetReg_chRaw (d : Dev) (a : Nat) : (d.resetReg a).chRaw = d.chRaw := rfl
@[simp] theorem Dev.resetReg_chPuls (d : Dev) (a : Nat) : (d.resetReg a).chPuls = d.chPuls := rfl
@[simp] theorem Dev.resetReg_hdlPend (d : Dev) (a : Nat) : (d.resetReg a).hdlPend = d.hdlPend := rfl
@[simp] theorem Dev.resetReg_hdlLast (d : Dev) (a : Nat) : (d.resetReg a).hdlLast = d.hdlLast := rfl
@[simp] theorem Dev.resetReg_hdlDone (d : Dev) (a : Nat) : (d.resetReg a).hdlDone = d.hdlDone := rfl
@[simp] theorem Dev.resetReg_chRose (d : Dev) (a : Nat) : (d.resetReg a).chRose = d.chRose := rfl
@[simp] theorem Dev.resetReg_gateOn (d : Dev) (a : Nat) : (d.resetReg a).gateOn = d.gateOn := rfl
@[simp] theorem Dev.resetReg_grpOn (d : Dev) (a : Nat) : (d.resetReg a).grpOn = d.grpOn := rfl
@[simp] theorem Dev.resetReg_grpOff (d : Dev) (a : Nat) : (d.resetReg a).grpOff = d.grpOff := rfl
@[simp] theorem Dev.resetReg_erlCyc (d : Dev) (a : Nat) : (d.resetReg a).erlCyc = d.erlCyc := rfl
@[simp] theorem Dev.resetReg_fltCyc (d : Dev) (a : Nat) : (d.resetReg a).fltCyc = d.fltCyc := rfl
@[simp] theorem Dev.resetReg_cellCnt (d : Dev) (a : Nat) : (d.resetReg a).cellCnt = d.cellCnt := rfl
@[simp] theorem Dev.resetReg_lutSwap (d : Dev) (a : Nat) : (d.resetReg a).lutSwap = d.lutSwap := rfl
@[simp] theorem Dev.resetReg_holdDue (d : Dev) (a : Nat) : (d.resetReg a).holdDue = d.holdDue := rfl
@[simp] theorem Dev.resetReg_parked (d : Dev) (a : Nat) : (d.resetReg a).parked = d.parked := rfl
@[simp] theorem Dev.resetReg_waiting (d : Dev) (a : Nat) : (d.resetReg a).waiting = d.waiting := rfl
@[simp] theorem Dev.resetReg_erlFifo (d : Dev) (a : Nat) : (d.resetReg a).erlFifo = d.erlFifo := rfl
@[simp] theorem Dev.resetReg_erlNext (d : Dev) (a : Nat) : (d.resetReg a).erlNext = d.erlNext := rfl
@[simp] theorem Dev.resetReg_tmr (d : Dev) (a : Nat) : (d.resetReg a).tmr = d.tmr := rfl
@[simp] theorem Dev.resetReg_aont (d : Dev) (a : Nat) : (d.resetReg a).aont = d.aont := rfl
@[simp] theorem Dev.resetReg_clk (d : Dev) (a : Nat) : (d.resetReg a).clk = d.clk := rfl
@[simp] theorem Dev.resetReg_pwr (d : Dev) (a : Nat) : (d.resetReg a).pwr = d.pwr := rfl
@[simp] theorem Dev.resetReg_sow (d : Dev) (a : Nat) : (d.resetReg a).sow = d.sow := rfl
@[simp] theorem Dev.resetReg_rdata (d : Dev) (a : Nat) : (d.resetReg a).rdata = d.rdata := rfl
@[simp] theorem Dev.resetReg_ccaHeld (d : Dev) (a : Nat) : (d.resetReg a).ccaHeld = d.ccaHeld := rfl
@[simp] theorem Dev.resetReg_padHold (d : Dev) (a : Nat) : (d.resetReg a).padHold = d.padHold := rfl
@[simp] theorem Dev.resetReg_txs (d : Dev) (a : Nat) : (d.resetReg a).txs = d.txs := rfl
@[simp] theorem Dev.resetReg_gates (d : Dev) (a : Nat) : (d.resetReg a).gates = d.gates := rfl
@[simp] theorem Dev.resetReg_profStaged (d : Dev) (a : Nat) : (d.resetReg a).profStaged = d.profStaged := rfl
@[simp] theorem Dev.resetReg_rx (d : Dev) (a : Nat) : (d.resetReg a).rx = d.rx := rfl
@[simp] theorem Dev.resetReg_antSel (d : Dev) (a : Nat) : (d.resetReg a).antSel = d.antSel := rfl
@[simp] theorem Dev.resetReg_calQ (d : Dev) (a : Nat) : (d.resetReg a).calQ = d.calQ := rfl
@[simp] theorem Dev.resetReg_calMeas (d : Dev) (a : Nat) : (d.resetReg a).calMeas = d.calMeas := rfl
@[simp] theorem Dev.resetReg_detRun (d : Dev) (a : Nat) : (d.resetReg a).detRun = d.detRun := rfl
@[simp] theorem Dev.resetReg_rcv (d : Dev) (a : Nat) : (d.resetReg a).rcv = d.rcv := rfl
@[simp] theorem Dev.resetReg_decQ (d : Dev) (a : Nat) : (d.resetReg a).decQ = d.decQ := rfl
@[simp] theorem Dev.resetReg_decBusy (d : Dev) (a : Nat) : (d.resetReg a).decBusy = d.decBusy := rfl
@[simp] theorem Dev.resetReg_decFreed (d : Dev) (a : Nat) : (d.resetReg a).decFreed = d.decFreed := rfl
@[simp] theorem Dev.resetReg_decLast (d : Dev) (a : Nat) : (d.resetReg a).decLast = d.decLast := rfl
@[simp] theorem Dev.resetReg_slots (d : Dev) (a : Nat) : (d.resetReg a).slots = d.slots := rfl
@[simp] theorem Dev.resetReg_slotSeq (d : Dev) (a : Nat) : (d.resetReg a).slotSeq = d.slotSeq := rfl
@[simp] theorem Dev.resetReg_ring (d : Dev) (a : Nat) : (d.resetReg a).ring = d.ring := rfl
@[simp] theorem Dev.resetReg_calSeen (d : Dev) (a : Nat) : (d.resetReg a).calSeen = d.calSeen := rfl
@[simp] theorem Dev.resetReg_fuse (d : Dev) (a : Nat) : (d.resetReg a).fuse = d.fuse := rfl
@[simp] theorem Dev.resetReg_fuseRead (d : Dev) (a : Nat) : (d.resetReg a).fuseRead = d.fuseRead := rfl
@[simp] theorem Dev.resetReg_fuseBad (d : Dev) (a : Nat) : (d.resetReg a).fuseBad = d.fuseBad := rfl
@[simp] theorem Dev.resetReg_blown (d : Dev) (a : Nat) : (d.resetReg a).blown = d.blown := rfl
@[simp] theorem Dev.resetReg_kslots (d : Dev) (a : Nat) : (d.resetReg a).kslots = d.kslots := rfl
@[simp] theorem Dev.resetReg_keyPend (d : Dev) (a : Nat) : (d.resetReg a).keyPend = d.keyPend := rfl
@[simp] theorem Dev.resetReg_k0Wait (d : Dev) (a : Nat) : (d.resetReg a).k0Wait = d.k0Wait := rfl
@[simp] theorem Dev.resetReg_bootKeyed (d : Dev) (a : Nat) : (d.resetReg a).bootKeyed = d.bootKeyed := rfl
@[simp] theorem Dev.resetReg_ctrLeft (d : Dev) (a : Nat) : (d.resetReg a).ctrLeft = d.ctrLeft := rfl
@[simp] theorem Dev.resetReg_ctrBad (d : Dev) (a : Nat) : (d.resetReg a).ctrBad = d.ctrBad := rfl
@[simp] theorem Dev.resetReg_flWeak (d : Dev) (a : Nat) : (d.resetReg a).flWeak = d.flWeak := rfl
@[simp] theorem Dev.resetReg_aesJobs (d : Dev) (a : Nat) : (d.resetReg a).aesJobs = d.aesJobs := rfl
@[simp] theorem Dev.resetReg_aesSeq (d : Dev) (a : Nat) : (d.resetReg a).aesSeq = d.aesSeq := rfl
@[simp] theorem Dev.resetReg_aesLast (d : Dev) (a : Nat) : (d.resetReg a).aesLast = d.aesLast := rfl
@[simp] theorem Dev.resetReg_shaCtx (d : Dev) (a : Nat) : (d.resetReg a).shaCtx = d.shaCtx := rfl
@[simp] theorem Dev.resetReg_cht (d : Dev) (a : Nat) : (d.resetReg a).cht = d.cht := rfl
@[simp] theorem Dev.resetReg_descs (d : Dev) (a : Nat) : (d.resetReg a).descs = d.descs := rfl
@[simp] theorem Dev.resetReg_descSeq (d : Dev) (a : Nat) : (d.resetReg a).descSeq = d.descSeq := rfl
@[simp] theorem Dev.resetReg_comps (d : Dev) (a : Nat) : (d.resetReg a).comps = d.comps := rfl
@[simp] theorem Dev.resetReg_vq (d : Dev) (a : Nat) : (d.resetReg a).vq = d.vq := rfl
@[simp] theorem Dev.resetReg_qpool (d : Dev) (a : Nat) : (d.resetReg a).qpool = d.qpool := rfl
@[simp] theorem Dev.resetReg_queues (d : Dev) (a : Nat) : (d.resetReg a).queues = d.queues := rfl
@[simp] theorem Dev.resetReg_deferred (d : Dev) (a : Nat) : (d.resetReg a).deferred = d.deferred := rfl
@[simp] theorem Dev.resetReg_bound (d : Dev) (a : Nat) : (d.resetReg a).bound = d.bound := rfl
@[simp] theorem Dev.resetReg_awaits (d : Dev) (a : Nat) : (d.resetReg a).awaits = d.awaits := rfl
@[simp] theorem Dev.resetReg_frames (d : Dev) (a : Nat) : (d.resetReg a).frames = d.frames := rfl
@[simp] theorem Dev.resetReg_lateU (d : Dev) (a : Nat) : (d.resetReg a).lateU = d.lateU := rfl
@[simp] theorem Dev.resetReg_winSeen (d : Dev) (a : Nat) : (d.resetReg a).winSeen = d.winSeen := rfl
@[simp] theorem Dev.resetReg_winWait (d : Dev) (a : Nat) : (d.resetReg a).winWait = d.winWait := rfl
@[simp] theorem Dev.resetReg_lostEvt (d : Dev) (a : Nat) : (d.resetReg a).lostEvt = d.lostEvt := rfl
@[simp] theorem Dev.resetReg_linkSeq (d : Dev) (a : Nat) : (d.resetReg a).linkSeq = d.linkSeq := rfl
@[simp] theorem Dev.resetReg_relayHeld (d : Dev) (a : Nat) : (d.resetReg a).relayHeld = d.relayHeld := rfl
@[simp] theorem Dev.resetReg_cache (d : Dev) (a : Nat) : (d.resetReg a).cache = d.cache := rfl
@[simp] theorem Dev.resetReg_fld (d : Dev) (a : Nat) : (d.resetReg a).fld = d.fld := rfl
@[simp] theorem Dev.resetReg_wins (d : Dev) (a : Nat) : (d.resetReg a).wins = d.wins := rfl
@[simp] theorem Dev.resetReg_banks (d : Dev) (a : Nat) : (d.resetReg a).banks = d.banks := rfl
@[simp] theorem Dev.resetReg_flErr (d : Dev) (a : Nat) : (d.resetReg a).flErr = d.flErr := rfl
@[simp] theorem Dev.resetReg_flFlag (d : Dev) (a : Nat) : (d.resetReg a).flFlag = d.flFlag := rfl
@[simp] theorem Dev.resetReg_flRow (d : Dev) (a : Nat) : (d.resetReg a).flRow = d.flRow := rfl
@[simp] theorem Dev.resetReg_lgr (d : Dev) (a : Nat) : (d.resetReg a).lgr = d.lgr := rfl
@[simp] theorem Dev.resetReg_dir (d : Dev) (a : Nat) : (d.resetReg a).dir = d.dir := rfl
@[simp] theorem Dev.resetReg_svc (d : Dev) (a : Nat) : (d.resetReg a).svc = d.svc := rfl
@[simp] theorem Dev.resetReg_cal (d : Dev) (a : Nat) : (d.resetReg a).cal = d.cal := rfl
@[simp] theorem Dev.resetReg_nfc (d : Dev) (a : Nat) : (d.resetReg a).nfc = d.nfc := rfl
@[simp] theorem Dev.resetReg_i2c (d : Dev) (a : Nat) : (d.resetReg a).i2c = d.i2c := rfl
@[simp] theorem Dev.resetReg_spi (d : Dev) (a : Nat) : (d.resetReg a).spi = d.spi := rfl
@[simp] theorem Dev.resetReg_uart (d : Dev) (a : Nat) : (d.resetReg a).uart = d.uart := rfl
@[simp] theorem Dev.resetReg_host (d : Dev) (a : Nat) : (d.resetReg a).host = d.host := rfl
@[simp] theorem Dev.resetReg_freeCtr (d : Dev) (a : Nat) : (d.resetReg a).freeCtr = d.freeCtr := rfl

/-! ### count -/

@[simp] theorem Dev.count_mem (d : Dev) (a : Nat) : (d.count a).mem = d.mem := by unfold Dev.count; split <;> rfl
@[simp] theorem Dev.count_memErr (d : Dev) (a : Nat) : (d.count a).memErr = d.memErr := by unfold Dev.count; split <;> rfl
@[simp] theorem Dev.count_cores (d : Dev) (a : Nat) : (d.count a).cores = d.cores := by unfold Dev.count; split <;> rfl
@[simp] theorem Dev.count_caches (d : Dev) (a : Nat) : (d.count a).caches = d.caches := by unfold Dev.count; split <;> rfl
@[simp] theorem Dev.count_carve (d : Dev) (a : Nat) : (d.count a).carve = d.carve := by unfold Dev.count; split <;> rfl
@[simp] theorem Dev.count_locks (d : Dev) (a : Nat) : (d.count a).locks = d.locks := by unfold Dev.count; split <;> rfl
@[simp] theorem Dev.count_romHidden (d : Dev) (a : Nat) : (d.count a).romHidden = d.romHidden := by unfold Dev.count; split <;> rfl
@[simp] theorem Dev.count_lpOrder (d : Dev) (a : Nat) : (d.count a).lpOrder = d.lpOrder := by unfold Dev.count; split <;> rfl
@[simp] theorem Dev.count_asyncL (d : Dev) (a : Nat) : (d.count a).asyncL = d.asyncL := by unfold Dev.count; split <;> rfl
@[simp] theorem Dev.count_irqNew (d : Dev) (a : Nat) : (d.count a).irqNew = d.irqNew := by unfold Dev.count; split <;> rfl
@[simp] theorem Dev.count_irqPulse (d : Dev) (a : Nat) : (d.count a).irqPulse = d.irqPulse := by unfold Dev.count; split <;> rfl
@[simp] theorem Dev.count_chRaw (d : Dev) (a : Nat) : (d.count a).chRaw = d.chRaw := by unfold Dev.count; split <;> rfl
@[simp] theorem Dev.count_chPuls (d : Dev) (a : Nat) : (d.count a).chPuls = d.chPuls := by unfold Dev.count; split <;> rfl
@[simp] theorem Dev.count_hdlPend (d : Dev) (a : Nat) : (d.count a).hdlPend = d.hdlPend := by unfold Dev.count; split <;> rfl
@[simp] theorem Dev.count_hdlLast (d : Dev) (a : Nat) : (d.count a).hdlLast = d.hdlLast := by unfold Dev.count; split <;> rfl
@[simp] theorem Dev.count_hdlDone (d : Dev) (a : Nat) : (d.count a).hdlDone = d.hdlDone := by unfold Dev.count; split <;> rfl
@[simp] theorem Dev.count_chRose (d : Dev) (a : Nat) : (d.count a).chRose = d.chRose := by unfold Dev.count; split <;> rfl
@[simp] theorem Dev.count_gateOn (d : Dev) (a : Nat) : (d.count a).gateOn = d.gateOn := by unfold Dev.count; split <;> rfl
@[simp] theorem Dev.count_grpOn (d : Dev) (a : Nat) : (d.count a).grpOn = d.grpOn := by unfold Dev.count; split <;> rfl
@[simp] theorem Dev.count_grpOff (d : Dev) (a : Nat) : (d.count a).grpOff = d.grpOff := by unfold Dev.count; split <;> rfl
@[simp] theorem Dev.count_erlCyc (d : Dev) (a : Nat) : (d.count a).erlCyc = d.erlCyc := by unfold Dev.count; split <;> rfl
@[simp] theorem Dev.count_fltCyc (d : Dev) (a : Nat) : (d.count a).fltCyc = d.fltCyc := by unfold Dev.count; split <;> rfl
@[simp] theorem Dev.count_cellCnt (d : Dev) (a : Nat) : (d.count a).cellCnt = d.cellCnt := by unfold Dev.count; split <;> rfl
@[simp] theorem Dev.count_lutSwap (d : Dev) (a : Nat) : (d.count a).lutSwap = d.lutSwap := by unfold Dev.count; split <;> rfl
@[simp] theorem Dev.count_holdDue (d : Dev) (a : Nat) : (d.count a).holdDue = d.holdDue := by unfold Dev.count; split <;> rfl
@[simp] theorem Dev.count_parked (d : Dev) (a : Nat) : (d.count a).parked = d.parked := by unfold Dev.count; split <;> rfl
@[simp] theorem Dev.count_waiting (d : Dev) (a : Nat) : (d.count a).waiting = d.waiting := by unfold Dev.count; split <;> rfl
@[simp] theorem Dev.count_erlFifo (d : Dev) (a : Nat) : (d.count a).erlFifo = d.erlFifo := by unfold Dev.count; split <;> rfl
@[simp] theorem Dev.count_erlNext (d : Dev) (a : Nat) : (d.count a).erlNext = d.erlNext := by unfold Dev.count; split <;> rfl
@[simp] theorem Dev.count_tmr (d : Dev) (a : Nat) : (d.count a).tmr = d.tmr := by unfold Dev.count; split <;> rfl
@[simp] theorem Dev.count_aont (d : Dev) (a : Nat) : (d.count a).aont = d.aont := by unfold Dev.count; split <;> rfl
@[simp] theorem Dev.count_clk (d : Dev) (a : Nat) : (d.count a).clk = d.clk := by unfold Dev.count; split <;> rfl
@[simp] theorem Dev.count_pwr (d : Dev) (a : Nat) : (d.count a).pwr = d.pwr := by unfold Dev.count; split <;> rfl
@[simp] theorem Dev.count_sow (d : Dev) (a : Nat) : (d.count a).sow = d.sow := by unfold Dev.count; split <;> rfl
@[simp] theorem Dev.count_rdata (d : Dev) (a : Nat) : (d.count a).rdata = d.rdata := by unfold Dev.count; split <;> rfl
@[simp] theorem Dev.count_ccaHeld (d : Dev) (a : Nat) : (d.count a).ccaHeld = d.ccaHeld := by unfold Dev.count; split <;> rfl
@[simp] theorem Dev.count_padHold (d : Dev) (a : Nat) : (d.count a).padHold = d.padHold := by unfold Dev.count; split <;> rfl
@[simp] theorem Dev.count_txs (d : Dev) (a : Nat) : (d.count a).txs = d.txs := by unfold Dev.count; split <;> rfl
@[simp] theorem Dev.count_gates (d : Dev) (a : Nat) : (d.count a).gates = d.gates := by unfold Dev.count; split <;> rfl
@[simp] theorem Dev.count_profStaged (d : Dev) (a : Nat) : (d.count a).profStaged = d.profStaged := by unfold Dev.count; split <;> rfl
@[simp] theorem Dev.count_rx (d : Dev) (a : Nat) : (d.count a).rx = d.rx := by unfold Dev.count; split <;> rfl
@[simp] theorem Dev.count_antSel (d : Dev) (a : Nat) : (d.count a).antSel = d.antSel := by unfold Dev.count; split <;> rfl
@[simp] theorem Dev.count_calQ (d : Dev) (a : Nat) : (d.count a).calQ = d.calQ := by unfold Dev.count; split <;> rfl
@[simp] theorem Dev.count_calMeas (d : Dev) (a : Nat) : (d.count a).calMeas = d.calMeas := by unfold Dev.count; split <;> rfl
@[simp] theorem Dev.count_detRun (d : Dev) (a : Nat) : (d.count a).detRun = d.detRun := by unfold Dev.count; split <;> rfl
@[simp] theorem Dev.count_rcv (d : Dev) (a : Nat) : (d.count a).rcv = d.rcv := by unfold Dev.count; split <;> rfl
@[simp] theorem Dev.count_decQ (d : Dev) (a : Nat) : (d.count a).decQ = d.decQ := by unfold Dev.count; split <;> rfl
@[simp] theorem Dev.count_decBusy (d : Dev) (a : Nat) : (d.count a).decBusy = d.decBusy := by unfold Dev.count; split <;> rfl
@[simp] theorem Dev.count_decFreed (d : Dev) (a : Nat) : (d.count a).decFreed = d.decFreed := by unfold Dev.count; split <;> rfl
@[simp] theorem Dev.count_decLast (d : Dev) (a : Nat) : (d.count a).decLast = d.decLast := by unfold Dev.count; split <;> rfl
@[simp] theorem Dev.count_slots (d : Dev) (a : Nat) : (d.count a).slots = d.slots := by unfold Dev.count; split <;> rfl
@[simp] theorem Dev.count_slotSeq (d : Dev) (a : Nat) : (d.count a).slotSeq = d.slotSeq := by unfold Dev.count; split <;> rfl
@[simp] theorem Dev.count_ring (d : Dev) (a : Nat) : (d.count a).ring = d.ring := by unfold Dev.count; split <;> rfl
@[simp] theorem Dev.count_calSeen (d : Dev) (a : Nat) : (d.count a).calSeen = d.calSeen := by unfold Dev.count; split <;> rfl
@[simp] theorem Dev.count_fuse (d : Dev) (a : Nat) : (d.count a).fuse = d.fuse := by unfold Dev.count; split <;> rfl
@[simp] theorem Dev.count_fuseRead (d : Dev) (a : Nat) : (d.count a).fuseRead = d.fuseRead := by unfold Dev.count; split <;> rfl
@[simp] theorem Dev.count_fuseBad (d : Dev) (a : Nat) : (d.count a).fuseBad = d.fuseBad := by unfold Dev.count; split <;> rfl
@[simp] theorem Dev.count_blown (d : Dev) (a : Nat) : (d.count a).blown = d.blown := by unfold Dev.count; split <;> rfl
@[simp] theorem Dev.count_kslots (d : Dev) (a : Nat) : (d.count a).kslots = d.kslots := by unfold Dev.count; split <;> rfl
@[simp] theorem Dev.count_keyPend (d : Dev) (a : Nat) : (d.count a).keyPend = d.keyPend := by unfold Dev.count; split <;> rfl
@[simp] theorem Dev.count_k0Wait (d : Dev) (a : Nat) : (d.count a).k0Wait = d.k0Wait := by unfold Dev.count; split <;> rfl
@[simp] theorem Dev.count_bootKeyed (d : Dev) (a : Nat) : (d.count a).bootKeyed = d.bootKeyed := by unfold Dev.count; split <;> rfl
@[simp] theorem Dev.count_ctrLeft (d : Dev) (a : Nat) : (d.count a).ctrLeft = d.ctrLeft := by unfold Dev.count; split <;> rfl
@[simp] theorem Dev.count_ctrBad (d : Dev) (a : Nat) : (d.count a).ctrBad = d.ctrBad := by unfold Dev.count; split <;> rfl
@[simp] theorem Dev.count_flWeak (d : Dev) (a : Nat) : (d.count a).flWeak = d.flWeak := by unfold Dev.count; split <;> rfl
@[simp] theorem Dev.count_aesJobs (d : Dev) (a : Nat) : (d.count a).aesJobs = d.aesJobs := by unfold Dev.count; split <;> rfl
@[simp] theorem Dev.count_aesSeq (d : Dev) (a : Nat) : (d.count a).aesSeq = d.aesSeq := by unfold Dev.count; split <;> rfl
@[simp] theorem Dev.count_aesLast (d : Dev) (a : Nat) : (d.count a).aesLast = d.aesLast := by unfold Dev.count; split <;> rfl
@[simp] theorem Dev.count_shaCtx (d : Dev) (a : Nat) : (d.count a).shaCtx = d.shaCtx := by unfold Dev.count; split <;> rfl
@[simp] theorem Dev.count_cht (d : Dev) (a : Nat) : (d.count a).cht = d.cht := by unfold Dev.count; split <;> rfl
@[simp] theorem Dev.count_descs (d : Dev) (a : Nat) : (d.count a).descs = d.descs := by unfold Dev.count; split <;> rfl
@[simp] theorem Dev.count_descSeq (d : Dev) (a : Nat) : (d.count a).descSeq = d.descSeq := by unfold Dev.count; split <;> rfl
@[simp] theorem Dev.count_comps (d : Dev) (a : Nat) : (d.count a).comps = d.comps := by unfold Dev.count; split <;> rfl
@[simp] theorem Dev.count_vq (d : Dev) (a : Nat) : (d.count a).vq = d.vq := by unfold Dev.count; split <;> rfl
@[simp] theorem Dev.count_qpool (d : Dev) (a : Nat) : (d.count a).qpool = d.qpool := by unfold Dev.count; split <;> rfl
@[simp] theorem Dev.count_queues (d : Dev) (a : Nat) : (d.count a).queues = d.queues := by unfold Dev.count; split <;> rfl
@[simp] theorem Dev.count_deferred (d : Dev) (a : Nat) : (d.count a).deferred = d.deferred := by unfold Dev.count; split <;> rfl
@[simp] theorem Dev.count_bound (d : Dev) (a : Nat) : (d.count a).bound = d.bound := by unfold Dev.count; split <;> rfl
@[simp] theorem Dev.count_awaits (d : Dev) (a : Nat) : (d.count a).awaits = d.awaits := by unfold Dev.count; split <;> rfl
@[simp] theorem Dev.count_frames (d : Dev) (a : Nat) : (d.count a).frames = d.frames := by unfold Dev.count; split <;> rfl
@[simp] theorem Dev.count_lateU (d : Dev) (a : Nat) : (d.count a).lateU = d.lateU := by unfold Dev.count; split <;> rfl
@[simp] theorem Dev.count_winSeen (d : Dev) (a : Nat) : (d.count a).winSeen = d.winSeen := by unfold Dev.count; split <;> rfl
@[simp] theorem Dev.count_winWait (d : Dev) (a : Nat) : (d.count a).winWait = d.winWait := by unfold Dev.count; split <;> rfl
@[simp] theorem Dev.count_lostEvt (d : Dev) (a : Nat) : (d.count a).lostEvt = d.lostEvt := by unfold Dev.count; split <;> rfl
@[simp] theorem Dev.count_linkSeq (d : Dev) (a : Nat) : (d.count a).linkSeq = d.linkSeq := by unfold Dev.count; split <;> rfl
@[simp] theorem Dev.count_relayHeld (d : Dev) (a : Nat) : (d.count a).relayHeld = d.relayHeld := by unfold Dev.count; split <;> rfl
@[simp] theorem Dev.count_cache (d : Dev) (a : Nat) : (d.count a).cache = d.cache := by unfold Dev.count; split <;> rfl
@[simp] theorem Dev.count_fld (d : Dev) (a : Nat) : (d.count a).fld = d.fld := by unfold Dev.count; split <;> rfl
@[simp] theorem Dev.count_wins (d : Dev) (a : Nat) : (d.count a).wins = d.wins := by unfold Dev.count; split <;> rfl
@[simp] theorem Dev.count_banks (d : Dev) (a : Nat) : (d.count a).banks = d.banks := by unfold Dev.count; split <;> rfl
@[simp] theorem Dev.count_flErr (d : Dev) (a : Nat) : (d.count a).flErr = d.flErr := by unfold Dev.count; split <;> rfl
@[simp] theorem Dev.count_flFlag (d : Dev) (a : Nat) : (d.count a).flFlag = d.flFlag := by unfold Dev.count; split <;> rfl
@[simp] theorem Dev.count_flRow (d : Dev) (a : Nat) : (d.count a).flRow = d.flRow := by unfold Dev.count; split <;> rfl
@[simp] theorem Dev.count_lgr (d : Dev) (a : Nat) : (d.count a).lgr = d.lgr := by unfold Dev.count; split <;> rfl
@[simp] theorem Dev.count_dir (d : Dev) (a : Nat) : (d.count a).dir = d.dir := by unfold Dev.count; split <;> rfl
@[simp] theorem Dev.count_svc (d : Dev) (a : Nat) : (d.count a).svc = d.svc := by unfold Dev.count; split <;> rfl
@[simp] theorem Dev.count_cal (d : Dev) (a : Nat) : (d.count a).cal = d.cal := by unfold Dev.count; split <;> rfl
@[simp] theorem Dev.count_nfc (d : Dev) (a : Nat) : (d.count a).nfc = d.nfc := by unfold Dev.count; split <;> rfl
@[simp] theorem Dev.count_i2c (d : Dev) (a : Nat) : (d.count a).i2c = d.i2c := by unfold Dev.count; split <;> rfl
@[simp] theorem Dev.count_spi (d : Dev) (a : Nat) : (d.count a).spi = d.spi := by unfold Dev.count; split <;> rfl
@[simp] theorem Dev.count_uart (d : Dev) (a : Nat) : (d.count a).uart = d.uart := by unfold Dev.count; split <;> rfl
@[simp] theorem Dev.count_host (d : Dev) (a : Nat) : (d.count a).host = d.host := by unfold Dev.count; split <;> rfl
@[simp] theorem Dev.count_freeCtr (d : Dev) (a : Nat) : (d.count a).freeCtr = d.freeCtr := by unfold Dev.count; split <;> rfl

/-! ### setPair -/

@[simp] theorem Dev.setPair_mem (d : Dev) (lo hi v : Nat) : (d.setPair lo hi v).mem = d.mem := rfl
@[simp] theorem Dev.setPair_memErr (d : Dev) (lo hi v : Nat) : (d.setPair lo hi v).memErr = d.memErr := rfl
@[simp] theorem Dev.setPair_cores (d : Dev) (lo hi v : Nat) : (d.setPair lo hi v).cores = d.cores := rfl
@[simp] theorem Dev.setPair_caches (d : Dev) (lo hi v : Nat) : (d.setPair lo hi v).caches = d.caches := rfl
@[simp] theorem Dev.setPair_carve (d : Dev) (lo hi v : Nat) : (d.setPair lo hi v).carve = d.carve := rfl
@[simp] theorem Dev.setPair_locks (d : Dev) (lo hi v : Nat) : (d.setPair lo hi v).locks = d.locks := rfl
@[simp] theorem Dev.setPair_romHidden (d : Dev) (lo hi v : Nat) : (d.setPair lo hi v).romHidden = d.romHidden := rfl
@[simp] theorem Dev.setPair_lpOrder (d : Dev) (lo hi v : Nat) : (d.setPair lo hi v).lpOrder = d.lpOrder := rfl
@[simp] theorem Dev.setPair_asyncL (d : Dev) (lo hi v : Nat) : (d.setPair lo hi v).asyncL = d.asyncL := rfl
@[simp] theorem Dev.setPair_irqNew (d : Dev) (lo hi v : Nat) : (d.setPair lo hi v).irqNew = d.irqNew := rfl
@[simp] theorem Dev.setPair_irqPulse (d : Dev) (lo hi v : Nat) : (d.setPair lo hi v).irqPulse = d.irqPulse := rfl
@[simp] theorem Dev.setPair_chRaw (d : Dev) (lo hi v : Nat) : (d.setPair lo hi v).chRaw = d.chRaw := rfl
@[simp] theorem Dev.setPair_chPuls (d : Dev) (lo hi v : Nat) : (d.setPair lo hi v).chPuls = d.chPuls := rfl
@[simp] theorem Dev.setPair_hdlPend (d : Dev) (lo hi v : Nat) : (d.setPair lo hi v).hdlPend = d.hdlPend := rfl
@[simp] theorem Dev.setPair_hdlLast (d : Dev) (lo hi v : Nat) : (d.setPair lo hi v).hdlLast = d.hdlLast := rfl
@[simp] theorem Dev.setPair_hdlDone (d : Dev) (lo hi v : Nat) : (d.setPair lo hi v).hdlDone = d.hdlDone := rfl
@[simp] theorem Dev.setPair_chRose (d : Dev) (lo hi v : Nat) : (d.setPair lo hi v).chRose = d.chRose := rfl
@[simp] theorem Dev.setPair_gateOn (d : Dev) (lo hi v : Nat) : (d.setPair lo hi v).gateOn = d.gateOn := rfl
@[simp] theorem Dev.setPair_grpOn (d : Dev) (lo hi v : Nat) : (d.setPair lo hi v).grpOn = d.grpOn := rfl
@[simp] theorem Dev.setPair_grpOff (d : Dev) (lo hi v : Nat) : (d.setPair lo hi v).grpOff = d.grpOff := rfl
@[simp] theorem Dev.setPair_erlCyc (d : Dev) (lo hi v : Nat) : (d.setPair lo hi v).erlCyc = d.erlCyc := rfl
@[simp] theorem Dev.setPair_fltCyc (d : Dev) (lo hi v : Nat) : (d.setPair lo hi v).fltCyc = d.fltCyc := rfl
@[simp] theorem Dev.setPair_cellCnt (d : Dev) (lo hi v : Nat) : (d.setPair lo hi v).cellCnt = d.cellCnt := rfl
@[simp] theorem Dev.setPair_lutSwap (d : Dev) (lo hi v : Nat) : (d.setPair lo hi v).lutSwap = d.lutSwap := rfl
@[simp] theorem Dev.setPair_holdDue (d : Dev) (lo hi v : Nat) : (d.setPair lo hi v).holdDue = d.holdDue := rfl
@[simp] theorem Dev.setPair_parked (d : Dev) (lo hi v : Nat) : (d.setPair lo hi v).parked = d.parked := rfl
@[simp] theorem Dev.setPair_waiting (d : Dev) (lo hi v : Nat) : (d.setPair lo hi v).waiting = d.waiting := rfl
@[simp] theorem Dev.setPair_erlFifo (d : Dev) (lo hi v : Nat) : (d.setPair lo hi v).erlFifo = d.erlFifo := rfl
@[simp] theorem Dev.setPair_erlNext (d : Dev) (lo hi v : Nat) : (d.setPair lo hi v).erlNext = d.erlNext := rfl
@[simp] theorem Dev.setPair_tmr (d : Dev) (lo hi v : Nat) : (d.setPair lo hi v).tmr = d.tmr := rfl
@[simp] theorem Dev.setPair_aont (d : Dev) (lo hi v : Nat) : (d.setPair lo hi v).aont = d.aont := rfl
@[simp] theorem Dev.setPair_clk (d : Dev) (lo hi v : Nat) : (d.setPair lo hi v).clk = d.clk := rfl
@[simp] theorem Dev.setPair_pwr (d : Dev) (lo hi v : Nat) : (d.setPair lo hi v).pwr = d.pwr := rfl
@[simp] theorem Dev.setPair_sow (d : Dev) (lo hi v : Nat) : (d.setPair lo hi v).sow = d.sow := rfl
@[simp] theorem Dev.setPair_rdata (d : Dev) (lo hi v : Nat) : (d.setPair lo hi v).rdata = d.rdata := rfl
@[simp] theorem Dev.setPair_ccaHeld (d : Dev) (lo hi v : Nat) : (d.setPair lo hi v).ccaHeld = d.ccaHeld := rfl
@[simp] theorem Dev.setPair_padHold (d : Dev) (lo hi v : Nat) : (d.setPair lo hi v).padHold = d.padHold := rfl
@[simp] theorem Dev.setPair_txs (d : Dev) (lo hi v : Nat) : (d.setPair lo hi v).txs = d.txs := rfl
@[simp] theorem Dev.setPair_gates (d : Dev) (lo hi v : Nat) : (d.setPair lo hi v).gates = d.gates := rfl
@[simp] theorem Dev.setPair_profStaged (d : Dev) (lo hi v : Nat) : (d.setPair lo hi v).profStaged = d.profStaged := rfl
@[simp] theorem Dev.setPair_rx (d : Dev) (lo hi v : Nat) : (d.setPair lo hi v).rx = d.rx := rfl
@[simp] theorem Dev.setPair_antSel (d : Dev) (lo hi v : Nat) : (d.setPair lo hi v).antSel = d.antSel := rfl
@[simp] theorem Dev.setPair_calQ (d : Dev) (lo hi v : Nat) : (d.setPair lo hi v).calQ = d.calQ := rfl
@[simp] theorem Dev.setPair_calMeas (d : Dev) (lo hi v : Nat) : (d.setPair lo hi v).calMeas = d.calMeas := rfl
@[simp] theorem Dev.setPair_detRun (d : Dev) (lo hi v : Nat) : (d.setPair lo hi v).detRun = d.detRun := rfl
@[simp] theorem Dev.setPair_rcv (d : Dev) (lo hi v : Nat) : (d.setPair lo hi v).rcv = d.rcv := rfl
@[simp] theorem Dev.setPair_decQ (d : Dev) (lo hi v : Nat) : (d.setPair lo hi v).decQ = d.decQ := rfl
@[simp] theorem Dev.setPair_decBusy (d : Dev) (lo hi v : Nat) : (d.setPair lo hi v).decBusy = d.decBusy := rfl
@[simp] theorem Dev.setPair_decFreed (d : Dev) (lo hi v : Nat) : (d.setPair lo hi v).decFreed = d.decFreed := rfl
@[simp] theorem Dev.setPair_decLast (d : Dev) (lo hi v : Nat) : (d.setPair lo hi v).decLast = d.decLast := rfl
@[simp] theorem Dev.setPair_slots (d : Dev) (lo hi v : Nat) : (d.setPair lo hi v).slots = d.slots := rfl
@[simp] theorem Dev.setPair_slotSeq (d : Dev) (lo hi v : Nat) : (d.setPair lo hi v).slotSeq = d.slotSeq := rfl
@[simp] theorem Dev.setPair_ring (d : Dev) (lo hi v : Nat) : (d.setPair lo hi v).ring = d.ring := rfl
@[simp] theorem Dev.setPair_calSeen (d : Dev) (lo hi v : Nat) : (d.setPair lo hi v).calSeen = d.calSeen := rfl
@[simp] theorem Dev.setPair_fuse (d : Dev) (lo hi v : Nat) : (d.setPair lo hi v).fuse = d.fuse := rfl
@[simp] theorem Dev.setPair_fuseRead (d : Dev) (lo hi v : Nat) : (d.setPair lo hi v).fuseRead = d.fuseRead := rfl
@[simp] theorem Dev.setPair_fuseBad (d : Dev) (lo hi v : Nat) : (d.setPair lo hi v).fuseBad = d.fuseBad := rfl
@[simp] theorem Dev.setPair_blown (d : Dev) (lo hi v : Nat) : (d.setPair lo hi v).blown = d.blown := rfl
@[simp] theorem Dev.setPair_kslots (d : Dev) (lo hi v : Nat) : (d.setPair lo hi v).kslots = d.kslots := rfl
@[simp] theorem Dev.setPair_keyPend (d : Dev) (lo hi v : Nat) : (d.setPair lo hi v).keyPend = d.keyPend := rfl
@[simp] theorem Dev.setPair_k0Wait (d : Dev) (lo hi v : Nat) : (d.setPair lo hi v).k0Wait = d.k0Wait := rfl
@[simp] theorem Dev.setPair_bootKeyed (d : Dev) (lo hi v : Nat) : (d.setPair lo hi v).bootKeyed = d.bootKeyed := rfl
@[simp] theorem Dev.setPair_ctrLeft (d : Dev) (lo hi v : Nat) : (d.setPair lo hi v).ctrLeft = d.ctrLeft := rfl
@[simp] theorem Dev.setPair_ctrBad (d : Dev) (lo hi v : Nat) : (d.setPair lo hi v).ctrBad = d.ctrBad := rfl
@[simp] theorem Dev.setPair_flWeak (d : Dev) (lo hi v : Nat) : (d.setPair lo hi v).flWeak = d.flWeak := rfl
@[simp] theorem Dev.setPair_aesJobs (d : Dev) (lo hi v : Nat) : (d.setPair lo hi v).aesJobs = d.aesJobs := rfl
@[simp] theorem Dev.setPair_aesSeq (d : Dev) (lo hi v : Nat) : (d.setPair lo hi v).aesSeq = d.aesSeq := rfl
@[simp] theorem Dev.setPair_aesLast (d : Dev) (lo hi v : Nat) : (d.setPair lo hi v).aesLast = d.aesLast := rfl
@[simp] theorem Dev.setPair_shaCtx (d : Dev) (lo hi v : Nat) : (d.setPair lo hi v).shaCtx = d.shaCtx := rfl
@[simp] theorem Dev.setPair_cht (d : Dev) (lo hi v : Nat) : (d.setPair lo hi v).cht = d.cht := rfl
@[simp] theorem Dev.setPair_descs (d : Dev) (lo hi v : Nat) : (d.setPair lo hi v).descs = d.descs := rfl
@[simp] theorem Dev.setPair_descSeq (d : Dev) (lo hi v : Nat) : (d.setPair lo hi v).descSeq = d.descSeq := rfl
@[simp] theorem Dev.setPair_comps (d : Dev) (lo hi v : Nat) : (d.setPair lo hi v).comps = d.comps := rfl
@[simp] theorem Dev.setPair_vq (d : Dev) (lo hi v : Nat) : (d.setPair lo hi v).vq = d.vq := rfl
@[simp] theorem Dev.setPair_qpool (d : Dev) (lo hi v : Nat) : (d.setPair lo hi v).qpool = d.qpool := rfl
@[simp] theorem Dev.setPair_queues (d : Dev) (lo hi v : Nat) : (d.setPair lo hi v).queues = d.queues := rfl
@[simp] theorem Dev.setPair_deferred (d : Dev) (lo hi v : Nat) : (d.setPair lo hi v).deferred = d.deferred := rfl
@[simp] theorem Dev.setPair_bound (d : Dev) (lo hi v : Nat) : (d.setPair lo hi v).bound = d.bound := rfl
@[simp] theorem Dev.setPair_awaits (d : Dev) (lo hi v : Nat) : (d.setPair lo hi v).awaits = d.awaits := rfl
@[simp] theorem Dev.setPair_frames (d : Dev) (lo hi v : Nat) : (d.setPair lo hi v).frames = d.frames := rfl
@[simp] theorem Dev.setPair_lateU (d : Dev) (lo hi v : Nat) : (d.setPair lo hi v).lateU = d.lateU := rfl
@[simp] theorem Dev.setPair_winSeen (d : Dev) (lo hi v : Nat) : (d.setPair lo hi v).winSeen = d.winSeen := rfl
@[simp] theorem Dev.setPair_winWait (d : Dev) (lo hi v : Nat) : (d.setPair lo hi v).winWait = d.winWait := rfl
@[simp] theorem Dev.setPair_lostEvt (d : Dev) (lo hi v : Nat) : (d.setPair lo hi v).lostEvt = d.lostEvt := rfl
@[simp] theorem Dev.setPair_linkSeq (d : Dev) (lo hi v : Nat) : (d.setPair lo hi v).linkSeq = d.linkSeq := rfl
@[simp] theorem Dev.setPair_relayHeld (d : Dev) (lo hi v : Nat) : (d.setPair lo hi v).relayHeld = d.relayHeld := rfl
@[simp] theorem Dev.setPair_cache (d : Dev) (lo hi v : Nat) : (d.setPair lo hi v).cache = d.cache := rfl
@[simp] theorem Dev.setPair_fld (d : Dev) (lo hi v : Nat) : (d.setPair lo hi v).fld = d.fld := rfl
@[simp] theorem Dev.setPair_wins (d : Dev) (lo hi v : Nat) : (d.setPair lo hi v).wins = d.wins := rfl
@[simp] theorem Dev.setPair_banks (d : Dev) (lo hi v : Nat) : (d.setPair lo hi v).banks = d.banks := rfl
@[simp] theorem Dev.setPair_flErr (d : Dev) (lo hi v : Nat) : (d.setPair lo hi v).flErr = d.flErr := rfl
@[simp] theorem Dev.setPair_flFlag (d : Dev) (lo hi v : Nat) : (d.setPair lo hi v).flFlag = d.flFlag := rfl
@[simp] theorem Dev.setPair_flRow (d : Dev) (lo hi v : Nat) : (d.setPair lo hi v).flRow = d.flRow := rfl
@[simp] theorem Dev.setPair_lgr (d : Dev) (lo hi v : Nat) : (d.setPair lo hi v).lgr = d.lgr := rfl
@[simp] theorem Dev.setPair_dir (d : Dev) (lo hi v : Nat) : (d.setPair lo hi v).dir = d.dir := rfl
@[simp] theorem Dev.setPair_svc (d : Dev) (lo hi v : Nat) : (d.setPair lo hi v).svc = d.svc := rfl
@[simp] theorem Dev.setPair_cal (d : Dev) (lo hi v : Nat) : (d.setPair lo hi v).cal = d.cal := rfl
@[simp] theorem Dev.setPair_nfc (d : Dev) (lo hi v : Nat) : (d.setPair lo hi v).nfc = d.nfc := rfl
@[simp] theorem Dev.setPair_i2c (d : Dev) (lo hi v : Nat) : (d.setPair lo hi v).i2c = d.i2c := rfl
@[simp] theorem Dev.setPair_spi (d : Dev) (lo hi v : Nat) : (d.setPair lo hi v).spi = d.spi := rfl
@[simp] theorem Dev.setPair_uart (d : Dev) (lo hi v : Nat) : (d.setPair lo hi v).uart = d.uart := rfl
@[simp] theorem Dev.setPair_host (d : Dev) (lo hi v : Nat) : (d.setPair lo hi v).host = d.host := rfl
@[simp] theorem Dev.setPair_freeCtr (d : Dev) (lo hi v : Nat) : (d.setPair lo hi v).freeCtr = d.freeCtr := rfl

/-! ### setCore -/

@[simp] theorem Dev.setCore_regs (d : Dev) (c : Fin 7) (x : CoreSt) : (d.setCore c x).regs = d.regs := rfl
@[simp] theorem Dev.setCore_mem (d : Dev) (c : Fin 7) (x : CoreSt) : (d.setCore c x).mem = d.mem := rfl
@[simp] theorem Dev.setCore_memErr (d : Dev) (c : Fin 7) (x : CoreSt) : (d.setCore c x).memErr = d.memErr := rfl
@[simp] theorem Dev.setCore_caches (d : Dev) (c : Fin 7) (x : CoreSt) : (d.setCore c x).caches = d.caches := rfl
@[simp] theorem Dev.setCore_carve (d : Dev) (c : Fin 7) (x : CoreSt) : (d.setCore c x).carve = d.carve := rfl
@[simp] theorem Dev.setCore_locks (d : Dev) (c : Fin 7) (x : CoreSt) : (d.setCore c x).locks = d.locks := rfl
@[simp] theorem Dev.setCore_romHidden (d : Dev) (c : Fin 7) (x : CoreSt) : (d.setCore c x).romHidden = d.romHidden := rfl
@[simp] theorem Dev.setCore_lpOrder (d : Dev) (c : Fin 7) (x : CoreSt) : (d.setCore c x).lpOrder = d.lpOrder := rfl
@[simp] theorem Dev.setCore_asyncL (d : Dev) (c : Fin 7) (x : CoreSt) : (d.setCore c x).asyncL = d.asyncL := rfl
@[simp] theorem Dev.setCore_irqNew (d : Dev) (c : Fin 7) (x : CoreSt) : (d.setCore c x).irqNew = d.irqNew := rfl
@[simp] theorem Dev.setCore_irqPulse (d : Dev) (c : Fin 7) (x : CoreSt) : (d.setCore c x).irqPulse = d.irqPulse := rfl
@[simp] theorem Dev.setCore_chRaw (d : Dev) (c : Fin 7) (x : CoreSt) : (d.setCore c x).chRaw = d.chRaw := rfl
@[simp] theorem Dev.setCore_chPuls (d : Dev) (c : Fin 7) (x : CoreSt) : (d.setCore c x).chPuls = d.chPuls := rfl
@[simp] theorem Dev.setCore_hdlPend (d : Dev) (c : Fin 7) (x : CoreSt) : (d.setCore c x).hdlPend = d.hdlPend := rfl
@[simp] theorem Dev.setCore_hdlLast (d : Dev) (c : Fin 7) (x : CoreSt) : (d.setCore c x).hdlLast = d.hdlLast := rfl
@[simp] theorem Dev.setCore_hdlDone (d : Dev) (c : Fin 7) (x : CoreSt) : (d.setCore c x).hdlDone = d.hdlDone := rfl
@[simp] theorem Dev.setCore_chRose (d : Dev) (c : Fin 7) (x : CoreSt) : (d.setCore c x).chRose = d.chRose := rfl
@[simp] theorem Dev.setCore_gateOn (d : Dev) (c : Fin 7) (x : CoreSt) : (d.setCore c x).gateOn = d.gateOn := rfl
@[simp] theorem Dev.setCore_grpOn (d : Dev) (c : Fin 7) (x : CoreSt) : (d.setCore c x).grpOn = d.grpOn := rfl
@[simp] theorem Dev.setCore_grpOff (d : Dev) (c : Fin 7) (x : CoreSt) : (d.setCore c x).grpOff = d.grpOff := rfl
@[simp] theorem Dev.setCore_erlCyc (d : Dev) (c : Fin 7) (x : CoreSt) : (d.setCore c x).erlCyc = d.erlCyc := rfl
@[simp] theorem Dev.setCore_fltCyc (d : Dev) (c : Fin 7) (x : CoreSt) : (d.setCore c x).fltCyc = d.fltCyc := rfl
@[simp] theorem Dev.setCore_cellCnt (d : Dev) (c : Fin 7) (x : CoreSt) : (d.setCore c x).cellCnt = d.cellCnt := rfl
@[simp] theorem Dev.setCore_lutSwap (d : Dev) (c : Fin 7) (x : CoreSt) : (d.setCore c x).lutSwap = d.lutSwap := rfl
@[simp] theorem Dev.setCore_holdDue (d : Dev) (c : Fin 7) (x : CoreSt) : (d.setCore c x).holdDue = d.holdDue := rfl
@[simp] theorem Dev.setCore_parked (d : Dev) (c : Fin 7) (x : CoreSt) : (d.setCore c x).parked = d.parked := rfl
@[simp] theorem Dev.setCore_waiting (d : Dev) (c : Fin 7) (x : CoreSt) : (d.setCore c x).waiting = d.waiting := rfl
@[simp] theorem Dev.setCore_erlFifo (d : Dev) (c : Fin 7) (x : CoreSt) : (d.setCore c x).erlFifo = d.erlFifo := rfl
@[simp] theorem Dev.setCore_erlNext (d : Dev) (c : Fin 7) (x : CoreSt) : (d.setCore c x).erlNext = d.erlNext := rfl
@[simp] theorem Dev.setCore_tmr (d : Dev) (c : Fin 7) (x : CoreSt) : (d.setCore c x).tmr = d.tmr := rfl
@[simp] theorem Dev.setCore_aont (d : Dev) (c : Fin 7) (x : CoreSt) : (d.setCore c x).aont = d.aont := rfl
@[simp] theorem Dev.setCore_clk (d : Dev) (c : Fin 7) (x : CoreSt) : (d.setCore c x).clk = d.clk := rfl
@[simp] theorem Dev.setCore_pwr (d : Dev) (c : Fin 7) (x : CoreSt) : (d.setCore c x).pwr = d.pwr := rfl
@[simp] theorem Dev.setCore_sow (d : Dev) (c : Fin 7) (x : CoreSt) : (d.setCore c x).sow = d.sow := rfl
@[simp] theorem Dev.setCore_rdata (d : Dev) (c : Fin 7) (x : CoreSt) : (d.setCore c x).rdata = d.rdata := rfl
@[simp] theorem Dev.setCore_ccaHeld (d : Dev) (c : Fin 7) (x : CoreSt) : (d.setCore c x).ccaHeld = d.ccaHeld := rfl
@[simp] theorem Dev.setCore_padHold (d : Dev) (c : Fin 7) (x : CoreSt) : (d.setCore c x).padHold = d.padHold := rfl
@[simp] theorem Dev.setCore_txs (d : Dev) (c : Fin 7) (x : CoreSt) : (d.setCore c x).txs = d.txs := rfl
@[simp] theorem Dev.setCore_gates (d : Dev) (c : Fin 7) (x : CoreSt) : (d.setCore c x).gates = d.gates := rfl
@[simp] theorem Dev.setCore_profStaged (d : Dev) (c : Fin 7) (x : CoreSt) : (d.setCore c x).profStaged = d.profStaged := rfl
@[simp] theorem Dev.setCore_rx (d : Dev) (c : Fin 7) (x : CoreSt) : (d.setCore c x).rx = d.rx := rfl
@[simp] theorem Dev.setCore_antSel (d : Dev) (c : Fin 7) (x : CoreSt) : (d.setCore c x).antSel = d.antSel := rfl
@[simp] theorem Dev.setCore_calQ (d : Dev) (c : Fin 7) (x : CoreSt) : (d.setCore c x).calQ = d.calQ := rfl
@[simp] theorem Dev.setCore_calMeas (d : Dev) (c : Fin 7) (x : CoreSt) : (d.setCore c x).calMeas = d.calMeas := rfl
@[simp] theorem Dev.setCore_detRun (d : Dev) (c : Fin 7) (x : CoreSt) : (d.setCore c x).detRun = d.detRun := rfl
@[simp] theorem Dev.setCore_rcv (d : Dev) (c : Fin 7) (x : CoreSt) : (d.setCore c x).rcv = d.rcv := rfl
@[simp] theorem Dev.setCore_decQ (d : Dev) (c : Fin 7) (x : CoreSt) : (d.setCore c x).decQ = d.decQ := rfl
@[simp] theorem Dev.setCore_decBusy (d : Dev) (c : Fin 7) (x : CoreSt) : (d.setCore c x).decBusy = d.decBusy := rfl
@[simp] theorem Dev.setCore_decFreed (d : Dev) (c : Fin 7) (x : CoreSt) : (d.setCore c x).decFreed = d.decFreed := rfl
@[simp] theorem Dev.setCore_decLast (d : Dev) (c : Fin 7) (x : CoreSt) : (d.setCore c x).decLast = d.decLast := rfl
@[simp] theorem Dev.setCore_slots (d : Dev) (c : Fin 7) (x : CoreSt) : (d.setCore c x).slots = d.slots := rfl
@[simp] theorem Dev.setCore_slotSeq (d : Dev) (c : Fin 7) (x : CoreSt) : (d.setCore c x).slotSeq = d.slotSeq := rfl
@[simp] theorem Dev.setCore_ring (d : Dev) (c : Fin 7) (x : CoreSt) : (d.setCore c x).ring = d.ring := rfl
@[simp] theorem Dev.setCore_calSeen (d : Dev) (c : Fin 7) (x : CoreSt) : (d.setCore c x).calSeen = d.calSeen := rfl
@[simp] theorem Dev.setCore_fuse (d : Dev) (c : Fin 7) (x : CoreSt) : (d.setCore c x).fuse = d.fuse := rfl
@[simp] theorem Dev.setCore_fuseRead (d : Dev) (c : Fin 7) (x : CoreSt) : (d.setCore c x).fuseRead = d.fuseRead := rfl
@[simp] theorem Dev.setCore_fuseBad (d : Dev) (c : Fin 7) (x : CoreSt) : (d.setCore c x).fuseBad = d.fuseBad := rfl
@[simp] theorem Dev.setCore_blown (d : Dev) (c : Fin 7) (x : CoreSt) : (d.setCore c x).blown = d.blown := rfl
@[simp] theorem Dev.setCore_kslots (d : Dev) (c : Fin 7) (x : CoreSt) : (d.setCore c x).kslots = d.kslots := rfl
@[simp] theorem Dev.setCore_keyPend (d : Dev) (c : Fin 7) (x : CoreSt) : (d.setCore c x).keyPend = d.keyPend := rfl
@[simp] theorem Dev.setCore_k0Wait (d : Dev) (c : Fin 7) (x : CoreSt) : (d.setCore c x).k0Wait = d.k0Wait := rfl
@[simp] theorem Dev.setCore_bootKeyed (d : Dev) (c : Fin 7) (x : CoreSt) : (d.setCore c x).bootKeyed = d.bootKeyed := rfl
@[simp] theorem Dev.setCore_ctrLeft (d : Dev) (c : Fin 7) (x : CoreSt) : (d.setCore c x).ctrLeft = d.ctrLeft := rfl
@[simp] theorem Dev.setCore_ctrBad (d : Dev) (c : Fin 7) (x : CoreSt) : (d.setCore c x).ctrBad = d.ctrBad := rfl
@[simp] theorem Dev.setCore_flWeak (d : Dev) (c : Fin 7) (x : CoreSt) : (d.setCore c x).flWeak = d.flWeak := rfl
@[simp] theorem Dev.setCore_aesJobs (d : Dev) (c : Fin 7) (x : CoreSt) : (d.setCore c x).aesJobs = d.aesJobs := rfl
@[simp] theorem Dev.setCore_aesSeq (d : Dev) (c : Fin 7) (x : CoreSt) : (d.setCore c x).aesSeq = d.aesSeq := rfl
@[simp] theorem Dev.setCore_aesLast (d : Dev) (c : Fin 7) (x : CoreSt) : (d.setCore c x).aesLast = d.aesLast := rfl
@[simp] theorem Dev.setCore_shaCtx (d : Dev) (c : Fin 7) (x : CoreSt) : (d.setCore c x).shaCtx = d.shaCtx := rfl
@[simp] theorem Dev.setCore_cht (d : Dev) (c : Fin 7) (x : CoreSt) : (d.setCore c x).cht = d.cht := rfl
@[simp] theorem Dev.setCore_descs (d : Dev) (c : Fin 7) (x : CoreSt) : (d.setCore c x).descs = d.descs := rfl
@[simp] theorem Dev.setCore_descSeq (d : Dev) (c : Fin 7) (x : CoreSt) : (d.setCore c x).descSeq = d.descSeq := rfl
@[simp] theorem Dev.setCore_comps (d : Dev) (c : Fin 7) (x : CoreSt) : (d.setCore c x).comps = d.comps := rfl
@[simp] theorem Dev.setCore_vq (d : Dev) (c : Fin 7) (x : CoreSt) : (d.setCore c x).vq = d.vq := rfl
@[simp] theorem Dev.setCore_qpool (d : Dev) (c : Fin 7) (x : CoreSt) : (d.setCore c x).qpool = d.qpool := rfl
@[simp] theorem Dev.setCore_queues (d : Dev) (c : Fin 7) (x : CoreSt) : (d.setCore c x).queues = d.queues := rfl
@[simp] theorem Dev.setCore_deferred (d : Dev) (c : Fin 7) (x : CoreSt) : (d.setCore c x).deferred = d.deferred := rfl
@[simp] theorem Dev.setCore_bound (d : Dev) (c : Fin 7) (x : CoreSt) : (d.setCore c x).bound = d.bound := rfl
@[simp] theorem Dev.setCore_awaits (d : Dev) (c : Fin 7) (x : CoreSt) : (d.setCore c x).awaits = d.awaits := rfl
@[simp] theorem Dev.setCore_frames (d : Dev) (c : Fin 7) (x : CoreSt) : (d.setCore c x).frames = d.frames := rfl
@[simp] theorem Dev.setCore_lateU (d : Dev) (c : Fin 7) (x : CoreSt) : (d.setCore c x).lateU = d.lateU := rfl
@[simp] theorem Dev.setCore_winSeen (d : Dev) (c : Fin 7) (x : CoreSt) : (d.setCore c x).winSeen = d.winSeen := rfl
@[simp] theorem Dev.setCore_winWait (d : Dev) (c : Fin 7) (x : CoreSt) : (d.setCore c x).winWait = d.winWait := rfl
@[simp] theorem Dev.setCore_lostEvt (d : Dev) (c : Fin 7) (x : CoreSt) : (d.setCore c x).lostEvt = d.lostEvt := rfl
@[simp] theorem Dev.setCore_linkSeq (d : Dev) (c : Fin 7) (x : CoreSt) : (d.setCore c x).linkSeq = d.linkSeq := rfl
@[simp] theorem Dev.setCore_relayHeld (d : Dev) (c : Fin 7) (x : CoreSt) : (d.setCore c x).relayHeld = d.relayHeld := rfl
@[simp] theorem Dev.setCore_cache (d : Dev) (c : Fin 7) (x : CoreSt) : (d.setCore c x).cache = d.cache := rfl
@[simp] theorem Dev.setCore_fld (d : Dev) (c : Fin 7) (x : CoreSt) : (d.setCore c x).fld = d.fld := rfl
@[simp] theorem Dev.setCore_wins (d : Dev) (c : Fin 7) (x : CoreSt) : (d.setCore c x).wins = d.wins := rfl
@[simp] theorem Dev.setCore_banks (d : Dev) (c : Fin 7) (x : CoreSt) : (d.setCore c x).banks = d.banks := rfl
@[simp] theorem Dev.setCore_flErr (d : Dev) (c : Fin 7) (x : CoreSt) : (d.setCore c x).flErr = d.flErr := rfl
@[simp] theorem Dev.setCore_flFlag (d : Dev) (c : Fin 7) (x : CoreSt) : (d.setCore c x).flFlag = d.flFlag := rfl
@[simp] theorem Dev.setCore_flRow (d : Dev) (c : Fin 7) (x : CoreSt) : (d.setCore c x).flRow = d.flRow := rfl
@[simp] theorem Dev.setCore_lgr (d : Dev) (c : Fin 7) (x : CoreSt) : (d.setCore c x).lgr = d.lgr := rfl
@[simp] theorem Dev.setCore_dir (d : Dev) (c : Fin 7) (x : CoreSt) : (d.setCore c x).dir = d.dir := rfl
@[simp] theorem Dev.setCore_svc (d : Dev) (c : Fin 7) (x : CoreSt) : (d.setCore c x).svc = d.svc := rfl
@[simp] theorem Dev.setCore_cal (d : Dev) (c : Fin 7) (x : CoreSt) : (d.setCore c x).cal = d.cal := rfl
@[simp] theorem Dev.setCore_nfc (d : Dev) (c : Fin 7) (x : CoreSt) : (d.setCore c x).nfc = d.nfc := rfl
@[simp] theorem Dev.setCore_i2c (d : Dev) (c : Fin 7) (x : CoreSt) : (d.setCore c x).i2c = d.i2c := rfl
@[simp] theorem Dev.setCore_spi (d : Dev) (c : Fin 7) (x : CoreSt) : (d.setCore c x).spi = d.spi := rfl
@[simp] theorem Dev.setCore_uart (d : Dev) (c : Fin 7) (x : CoreSt) : (d.setCore c x).uart = d.uart := rfl
@[simp] theorem Dev.setCore_host (d : Dev) (c : Fin 7) (x : CoreSt) : (d.setCore c x).host = d.host := rfl
@[simp] theorem Dev.setCore_freeCtr (d : Dev) (c : Fin 7) (x : CoreSt) : (d.setCore c x).freeCtr = d.freeCtr := rfl

/-! ### setCoreState -/

@[simp] theorem Dev.setCoreState_mem (d : Dev) (c v : Nat) : (d.setCoreState c v).mem = d.mem := rfl
@[simp] theorem Dev.setCoreState_memErr (d : Dev) (c v : Nat) : (d.setCoreState c v).memErr = d.memErr := rfl
@[simp] theorem Dev.setCoreState_cores (d : Dev) (c v : Nat) : (d.setCoreState c v).cores = d.cores := rfl
@[simp] theorem Dev.setCoreState_caches (d : Dev) (c v : Nat) : (d.setCoreState c v).caches = d.caches := rfl
@[simp] theorem Dev.setCoreState_carve (d : Dev) (c v : Nat) : (d.setCoreState c v).carve = d.carve := rfl
@[simp] theorem Dev.setCoreState_locks (d : Dev) (c v : Nat) : (d.setCoreState c v).locks = d.locks := rfl
@[simp] theorem Dev.setCoreState_romHidden (d : Dev) (c v : Nat) : (d.setCoreState c v).romHidden = d.romHidden := rfl
@[simp] theorem Dev.setCoreState_lpOrder (d : Dev) (c v : Nat) : (d.setCoreState c v).lpOrder = d.lpOrder := rfl
@[simp] theorem Dev.setCoreState_asyncL (d : Dev) (c v : Nat) : (d.setCoreState c v).asyncL = d.asyncL := rfl
@[simp] theorem Dev.setCoreState_irqNew (d : Dev) (c v : Nat) : (d.setCoreState c v).irqNew = d.irqNew := rfl
@[simp] theorem Dev.setCoreState_irqPulse (d : Dev) (c v : Nat) : (d.setCoreState c v).irqPulse = d.irqPulse := rfl
@[simp] theorem Dev.setCoreState_chRaw (d : Dev) (c v : Nat) : (d.setCoreState c v).chRaw = d.chRaw := rfl
@[simp] theorem Dev.setCoreState_chPuls (d : Dev) (c v : Nat) : (d.setCoreState c v).chPuls = d.chPuls := rfl
@[simp] theorem Dev.setCoreState_hdlPend (d : Dev) (c v : Nat) : (d.setCoreState c v).hdlPend = d.hdlPend := rfl
@[simp] theorem Dev.setCoreState_hdlLast (d : Dev) (c v : Nat) : (d.setCoreState c v).hdlLast = d.hdlLast := rfl
@[simp] theorem Dev.setCoreState_hdlDone (d : Dev) (c v : Nat) : (d.setCoreState c v).hdlDone = d.hdlDone := rfl
@[simp] theorem Dev.setCoreState_chRose (d : Dev) (c v : Nat) : (d.setCoreState c v).chRose = d.chRose := rfl
@[simp] theorem Dev.setCoreState_gateOn (d : Dev) (c v : Nat) : (d.setCoreState c v).gateOn = d.gateOn := rfl
@[simp] theorem Dev.setCoreState_grpOn (d : Dev) (c v : Nat) : (d.setCoreState c v).grpOn = d.grpOn := rfl
@[simp] theorem Dev.setCoreState_grpOff (d : Dev) (c v : Nat) : (d.setCoreState c v).grpOff = d.grpOff := rfl
@[simp] theorem Dev.setCoreState_erlCyc (d : Dev) (c v : Nat) : (d.setCoreState c v).erlCyc = d.erlCyc := rfl
@[simp] theorem Dev.setCoreState_fltCyc (d : Dev) (c v : Nat) : (d.setCoreState c v).fltCyc = d.fltCyc := rfl
@[simp] theorem Dev.setCoreState_cellCnt (d : Dev) (c v : Nat) : (d.setCoreState c v).cellCnt = d.cellCnt := rfl
@[simp] theorem Dev.setCoreState_lutSwap (d : Dev) (c v : Nat) : (d.setCoreState c v).lutSwap = d.lutSwap := rfl
@[simp] theorem Dev.setCoreState_holdDue (d : Dev) (c v : Nat) : (d.setCoreState c v).holdDue = d.holdDue := rfl
@[simp] theorem Dev.setCoreState_parked (d : Dev) (c v : Nat) : (d.setCoreState c v).parked = d.parked := rfl
@[simp] theorem Dev.setCoreState_waiting (d : Dev) (c v : Nat) : (d.setCoreState c v).waiting = d.waiting := rfl
@[simp] theorem Dev.setCoreState_erlFifo (d : Dev) (c v : Nat) : (d.setCoreState c v).erlFifo = d.erlFifo := rfl
@[simp] theorem Dev.setCoreState_erlNext (d : Dev) (c v : Nat) : (d.setCoreState c v).erlNext = d.erlNext := rfl
@[simp] theorem Dev.setCoreState_tmr (d : Dev) (c v : Nat) : (d.setCoreState c v).tmr = d.tmr := rfl
@[simp] theorem Dev.setCoreState_aont (d : Dev) (c v : Nat) : (d.setCoreState c v).aont = d.aont := rfl
@[simp] theorem Dev.setCoreState_clk (d : Dev) (c v : Nat) : (d.setCoreState c v).clk = d.clk := rfl
@[simp] theorem Dev.setCoreState_pwr (d : Dev) (c v : Nat) : (d.setCoreState c v).pwr = d.pwr := rfl
@[simp] theorem Dev.setCoreState_sow (d : Dev) (c v : Nat) : (d.setCoreState c v).sow = d.sow := rfl
@[simp] theorem Dev.setCoreState_rdata (d : Dev) (c v : Nat) : (d.setCoreState c v).rdata = d.rdata := rfl
@[simp] theorem Dev.setCoreState_ccaHeld (d : Dev) (c v : Nat) : (d.setCoreState c v).ccaHeld = d.ccaHeld := rfl
@[simp] theorem Dev.setCoreState_padHold (d : Dev) (c v : Nat) : (d.setCoreState c v).padHold = d.padHold := rfl
@[simp] theorem Dev.setCoreState_txs (d : Dev) (c v : Nat) : (d.setCoreState c v).txs = d.txs := rfl
@[simp] theorem Dev.setCoreState_gates (d : Dev) (c v : Nat) : (d.setCoreState c v).gates = d.gates := rfl
@[simp] theorem Dev.setCoreState_profStaged (d : Dev) (c v : Nat) : (d.setCoreState c v).profStaged = d.profStaged := rfl
@[simp] theorem Dev.setCoreState_rx (d : Dev) (c v : Nat) : (d.setCoreState c v).rx = d.rx := rfl
@[simp] theorem Dev.setCoreState_antSel (d : Dev) (c v : Nat) : (d.setCoreState c v).antSel = d.antSel := rfl
@[simp] theorem Dev.setCoreState_calQ (d : Dev) (c v : Nat) : (d.setCoreState c v).calQ = d.calQ := rfl
@[simp] theorem Dev.setCoreState_calMeas (d : Dev) (c v : Nat) : (d.setCoreState c v).calMeas = d.calMeas := rfl
@[simp] theorem Dev.setCoreState_detRun (d : Dev) (c v : Nat) : (d.setCoreState c v).detRun = d.detRun := rfl
@[simp] theorem Dev.setCoreState_rcv (d : Dev) (c v : Nat) : (d.setCoreState c v).rcv = d.rcv := rfl
@[simp] theorem Dev.setCoreState_decQ (d : Dev) (c v : Nat) : (d.setCoreState c v).decQ = d.decQ := rfl
@[simp] theorem Dev.setCoreState_decBusy (d : Dev) (c v : Nat) : (d.setCoreState c v).decBusy = d.decBusy := rfl
@[simp] theorem Dev.setCoreState_decFreed (d : Dev) (c v : Nat) : (d.setCoreState c v).decFreed = d.decFreed := rfl
@[simp] theorem Dev.setCoreState_decLast (d : Dev) (c v : Nat) : (d.setCoreState c v).decLast = d.decLast := rfl
@[simp] theorem Dev.setCoreState_slots (d : Dev) (c v : Nat) : (d.setCoreState c v).slots = d.slots := rfl
@[simp] theorem Dev.setCoreState_slotSeq (d : Dev) (c v : Nat) : (d.setCoreState c v).slotSeq = d.slotSeq := rfl
@[simp] theorem Dev.setCoreState_ring (d : Dev) (c v : Nat) : (d.setCoreState c v).ring = d.ring := rfl
@[simp] theorem Dev.setCoreState_calSeen (d : Dev) (c v : Nat) : (d.setCoreState c v).calSeen = d.calSeen := rfl
@[simp] theorem Dev.setCoreState_fuse (d : Dev) (c v : Nat) : (d.setCoreState c v).fuse = d.fuse := rfl
@[simp] theorem Dev.setCoreState_fuseRead (d : Dev) (c v : Nat) : (d.setCoreState c v).fuseRead = d.fuseRead := rfl
@[simp] theorem Dev.setCoreState_fuseBad (d : Dev) (c v : Nat) : (d.setCoreState c v).fuseBad = d.fuseBad := rfl
@[simp] theorem Dev.setCoreState_blown (d : Dev) (c v : Nat) : (d.setCoreState c v).blown = d.blown := rfl
@[simp] theorem Dev.setCoreState_kslots (d : Dev) (c v : Nat) : (d.setCoreState c v).kslots = d.kslots := rfl
@[simp] theorem Dev.setCoreState_keyPend (d : Dev) (c v : Nat) : (d.setCoreState c v).keyPend = d.keyPend := rfl
@[simp] theorem Dev.setCoreState_k0Wait (d : Dev) (c v : Nat) : (d.setCoreState c v).k0Wait = d.k0Wait := rfl
@[simp] theorem Dev.setCoreState_bootKeyed (d : Dev) (c v : Nat) : (d.setCoreState c v).bootKeyed = d.bootKeyed := rfl
@[simp] theorem Dev.setCoreState_ctrLeft (d : Dev) (c v : Nat) : (d.setCoreState c v).ctrLeft = d.ctrLeft := rfl
@[simp] theorem Dev.setCoreState_ctrBad (d : Dev) (c v : Nat) : (d.setCoreState c v).ctrBad = d.ctrBad := rfl
@[simp] theorem Dev.setCoreState_flWeak (d : Dev) (c v : Nat) : (d.setCoreState c v).flWeak = d.flWeak := rfl
@[simp] theorem Dev.setCoreState_aesJobs (d : Dev) (c v : Nat) : (d.setCoreState c v).aesJobs = d.aesJobs := rfl
@[simp] theorem Dev.setCoreState_aesSeq (d : Dev) (c v : Nat) : (d.setCoreState c v).aesSeq = d.aesSeq := rfl
@[simp] theorem Dev.setCoreState_aesLast (d : Dev) (c v : Nat) : (d.setCoreState c v).aesLast = d.aesLast := rfl
@[simp] theorem Dev.setCoreState_shaCtx (d : Dev) (c v : Nat) : (d.setCoreState c v).shaCtx = d.shaCtx := rfl
@[simp] theorem Dev.setCoreState_cht (d : Dev) (c v : Nat) : (d.setCoreState c v).cht = d.cht := rfl
@[simp] theorem Dev.setCoreState_descs (d : Dev) (c v : Nat) : (d.setCoreState c v).descs = d.descs := rfl
@[simp] theorem Dev.setCoreState_descSeq (d : Dev) (c v : Nat) : (d.setCoreState c v).descSeq = d.descSeq := rfl
@[simp] theorem Dev.setCoreState_comps (d : Dev) (c v : Nat) : (d.setCoreState c v).comps = d.comps := rfl
@[simp] theorem Dev.setCoreState_vq (d : Dev) (c v : Nat) : (d.setCoreState c v).vq = d.vq := rfl
@[simp] theorem Dev.setCoreState_qpool (d : Dev) (c v : Nat) : (d.setCoreState c v).qpool = d.qpool := rfl
@[simp] theorem Dev.setCoreState_queues (d : Dev) (c v : Nat) : (d.setCoreState c v).queues = d.queues := rfl
@[simp] theorem Dev.setCoreState_deferred (d : Dev) (c v : Nat) : (d.setCoreState c v).deferred = d.deferred := rfl
@[simp] theorem Dev.setCoreState_bound (d : Dev) (c v : Nat) : (d.setCoreState c v).bound = d.bound := rfl
@[simp] theorem Dev.setCoreState_awaits (d : Dev) (c v : Nat) : (d.setCoreState c v).awaits = d.awaits := rfl
@[simp] theorem Dev.setCoreState_frames (d : Dev) (c v : Nat) : (d.setCoreState c v).frames = d.frames := rfl
@[simp] theorem Dev.setCoreState_lateU (d : Dev) (c v : Nat) : (d.setCoreState c v).lateU = d.lateU := rfl
@[simp] theorem Dev.setCoreState_winSeen (d : Dev) (c v : Nat) : (d.setCoreState c v).winSeen = d.winSeen := rfl
@[simp] theorem Dev.setCoreState_winWait (d : Dev) (c v : Nat) : (d.setCoreState c v).winWait = d.winWait := rfl
@[simp] theorem Dev.setCoreState_lostEvt (d : Dev) (c v : Nat) : (d.setCoreState c v).lostEvt = d.lostEvt := rfl
@[simp] theorem Dev.setCoreState_linkSeq (d : Dev) (c v : Nat) : (d.setCoreState c v).linkSeq = d.linkSeq := rfl
@[simp] theorem Dev.setCoreState_relayHeld (d : Dev) (c v : Nat) : (d.setCoreState c v).relayHeld = d.relayHeld := rfl
@[simp] theorem Dev.setCoreState_cache (d : Dev) (c v : Nat) : (d.setCoreState c v).cache = d.cache := rfl
@[simp] theorem Dev.setCoreState_fld (d : Dev) (c v : Nat) : (d.setCoreState c v).fld = d.fld := rfl
@[simp] theorem Dev.setCoreState_wins (d : Dev) (c v : Nat) : (d.setCoreState c v).wins = d.wins := rfl
@[simp] theorem Dev.setCoreState_banks (d : Dev) (c v : Nat) : (d.setCoreState c v).banks = d.banks := rfl
@[simp] theorem Dev.setCoreState_flErr (d : Dev) (c v : Nat) : (d.setCoreState c v).flErr = d.flErr := rfl
@[simp] theorem Dev.setCoreState_flFlag (d : Dev) (c v : Nat) : (d.setCoreState c v).flFlag = d.flFlag := rfl
@[simp] theorem Dev.setCoreState_flRow (d : Dev) (c v : Nat) : (d.setCoreState c v).flRow = d.flRow := rfl
@[simp] theorem Dev.setCoreState_lgr (d : Dev) (c v : Nat) : (d.setCoreState c v).lgr = d.lgr := rfl
@[simp] theorem Dev.setCoreState_dir (d : Dev) (c v : Nat) : (d.setCoreState c v).dir = d.dir := rfl
@[simp] theorem Dev.setCoreState_svc (d : Dev) (c v : Nat) : (d.setCoreState c v).svc = d.svc := rfl
@[simp] theorem Dev.setCoreState_cal (d : Dev) (c v : Nat) : (d.setCoreState c v).cal = d.cal := rfl
@[simp] theorem Dev.setCoreState_nfc (d : Dev) (c v : Nat) : (d.setCoreState c v).nfc = d.nfc := rfl
@[simp] theorem Dev.setCoreState_i2c (d : Dev) (c v : Nat) : (d.setCoreState c v).i2c = d.i2c := rfl
@[simp] theorem Dev.setCoreState_spi (d : Dev) (c v : Nat) : (d.setCoreState c v).spi = d.spi := rfl
@[simp] theorem Dev.setCoreState_uart (d : Dev) (c v : Nat) : (d.setCoreState c v).uart = d.uart := rfl
@[simp] theorem Dev.setCoreState_host (d : Dev) (c v : Nat) : (d.setCoreState c v).host = d.host := rfl
@[simp] theorem Dev.setCoreState_freeCtr (d : Dev) (c v : Nat) : (d.setCoreState c v).freeCtr = d.freeCtr := rfl

/-! ### setByte -/

@[simp] theorem Dev.setByte_regs (d : Dev) (a : Nat) (b : Byte) : (d.setByte a b).regs = d.regs := rfl
@[simp] theorem Dev.setByte_memErr (d : Dev) (a : Nat) (b : Byte) : (d.setByte a b).memErr = d.memErr := rfl
@[simp] theorem Dev.setByte_carve (d : Dev) (a : Nat) (b : Byte) : (d.setByte a b).carve = d.carve := rfl
@[simp] theorem Dev.setByte_locks (d : Dev) (a : Nat) (b : Byte) : (d.setByte a b).locks = d.locks := rfl
@[simp] theorem Dev.setByte_romHidden (d : Dev) (a : Nat) (b : Byte) : (d.setByte a b).romHidden = d.romHidden := rfl
@[simp] theorem Dev.setByte_lpOrder (d : Dev) (a : Nat) (b : Byte) : (d.setByte a b).lpOrder = d.lpOrder := rfl
@[simp] theorem Dev.setByte_asyncL (d : Dev) (a : Nat) (b : Byte) : (d.setByte a b).asyncL = d.asyncL := rfl
@[simp] theorem Dev.setByte_irqNew (d : Dev) (a : Nat) (b : Byte) : (d.setByte a b).irqNew = d.irqNew := rfl
@[simp] theorem Dev.setByte_irqPulse (d : Dev) (a : Nat) (b : Byte) : (d.setByte a b).irqPulse = d.irqPulse := rfl
@[simp] theorem Dev.setByte_chRaw (d : Dev) (a : Nat) (b : Byte) : (d.setByte a b).chRaw = d.chRaw := rfl
@[simp] theorem Dev.setByte_chPuls (d : Dev) (a : Nat) (b : Byte) : (d.setByte a b).chPuls = d.chPuls := rfl
@[simp] theorem Dev.setByte_hdlPend (d : Dev) (a : Nat) (b : Byte) : (d.setByte a b).hdlPend = d.hdlPend := rfl
@[simp] theorem Dev.setByte_hdlLast (d : Dev) (a : Nat) (b : Byte) : (d.setByte a b).hdlLast = d.hdlLast := rfl
@[simp] theorem Dev.setByte_hdlDone (d : Dev) (a : Nat) (b : Byte) : (d.setByte a b).hdlDone = d.hdlDone := rfl
@[simp] theorem Dev.setByte_chRose (d : Dev) (a : Nat) (b : Byte) : (d.setByte a b).chRose = d.chRose := rfl
@[simp] theorem Dev.setByte_gateOn (d : Dev) (a : Nat) (b : Byte) : (d.setByte a b).gateOn = d.gateOn := rfl
@[simp] theorem Dev.setByte_grpOn (d : Dev) (a : Nat) (b : Byte) : (d.setByte a b).grpOn = d.grpOn := rfl
@[simp] theorem Dev.setByte_grpOff (d : Dev) (a : Nat) (b : Byte) : (d.setByte a b).grpOff = d.grpOff := rfl
@[simp] theorem Dev.setByte_erlCyc (d : Dev) (a : Nat) (b : Byte) : (d.setByte a b).erlCyc = d.erlCyc := rfl
@[simp] theorem Dev.setByte_fltCyc (d : Dev) (a : Nat) (b : Byte) : (d.setByte a b).fltCyc = d.fltCyc := rfl
@[simp] theorem Dev.setByte_cellCnt (d : Dev) (a : Nat) (b : Byte) : (d.setByte a b).cellCnt = d.cellCnt := rfl
@[simp] theorem Dev.setByte_lutSwap (d : Dev) (a : Nat) (b : Byte) : (d.setByte a b).lutSwap = d.lutSwap := rfl
@[simp] theorem Dev.setByte_holdDue (d : Dev) (a : Nat) (b : Byte) : (d.setByte a b).holdDue = d.holdDue := rfl
@[simp] theorem Dev.setByte_parked (d : Dev) (a : Nat) (b : Byte) : (d.setByte a b).parked = d.parked := rfl
@[simp] theorem Dev.setByte_waiting (d : Dev) (a : Nat) (b : Byte) : (d.setByte a b).waiting = d.waiting := rfl
@[simp] theorem Dev.setByte_erlFifo (d : Dev) (a : Nat) (b : Byte) : (d.setByte a b).erlFifo = d.erlFifo := rfl
@[simp] theorem Dev.setByte_erlNext (d : Dev) (a : Nat) (b : Byte) : (d.setByte a b).erlNext = d.erlNext := rfl
@[simp] theorem Dev.setByte_tmr (d : Dev) (a : Nat) (b : Byte) : (d.setByte a b).tmr = d.tmr := rfl
@[simp] theorem Dev.setByte_aont (d : Dev) (a : Nat) (b : Byte) : (d.setByte a b).aont = d.aont := rfl
@[simp] theorem Dev.setByte_clk (d : Dev) (a : Nat) (b : Byte) : (d.setByte a b).clk = d.clk := rfl
@[simp] theorem Dev.setByte_pwr (d : Dev) (a : Nat) (b : Byte) : (d.setByte a b).pwr = d.pwr := rfl
@[simp] theorem Dev.setByte_sow (d : Dev) (a : Nat) (b : Byte) : (d.setByte a b).sow = d.sow := rfl
@[simp] theorem Dev.setByte_rdata (d : Dev) (a : Nat) (b : Byte) : (d.setByte a b).rdata = d.rdata := rfl
@[simp] theorem Dev.setByte_ccaHeld (d : Dev) (a : Nat) (b : Byte) : (d.setByte a b).ccaHeld = d.ccaHeld := rfl
@[simp] theorem Dev.setByte_padHold (d : Dev) (a : Nat) (b : Byte) : (d.setByte a b).padHold = d.padHold := rfl
@[simp] theorem Dev.setByte_txs (d : Dev) (a : Nat) (b : Byte) : (d.setByte a b).txs = d.txs := rfl
@[simp] theorem Dev.setByte_gates (d : Dev) (a : Nat) (b : Byte) : (d.setByte a b).gates = d.gates := rfl
@[simp] theorem Dev.setByte_profStaged (d : Dev) (a : Nat) (b : Byte) : (d.setByte a b).profStaged = d.profStaged := rfl
@[simp] theorem Dev.setByte_rx (d : Dev) (a : Nat) (b : Byte) : (d.setByte a b).rx = d.rx := rfl
@[simp] theorem Dev.setByte_antSel (d : Dev) (a : Nat) (b : Byte) : (d.setByte a b).antSel = d.antSel := rfl
@[simp] theorem Dev.setByte_calQ (d : Dev) (a : Nat) (b : Byte) : (d.setByte a b).calQ = d.calQ := rfl
@[simp] theorem Dev.setByte_calMeas (d : Dev) (a : Nat) (b : Byte) : (d.setByte a b).calMeas = d.calMeas := rfl
@[simp] theorem Dev.setByte_detRun (d : Dev) (a : Nat) (b : Byte) : (d.setByte a b).detRun = d.detRun := rfl
@[simp] theorem Dev.setByte_rcv (d : Dev) (a : Nat) (b : Byte) : (d.setByte a b).rcv = d.rcv := rfl
@[simp] theorem Dev.setByte_decQ (d : Dev) (a : Nat) (b : Byte) : (d.setByte a b).decQ = d.decQ := rfl
@[simp] theorem Dev.setByte_decBusy (d : Dev) (a : Nat) (b : Byte) : (d.setByte a b).decBusy = d.decBusy := rfl
@[simp] theorem Dev.setByte_decFreed (d : Dev) (a : Nat) (b : Byte) : (d.setByte a b).decFreed = d.decFreed := rfl
@[simp] theorem Dev.setByte_decLast (d : Dev) (a : Nat) (b : Byte) : (d.setByte a b).decLast = d.decLast := rfl
@[simp] theorem Dev.setByte_slots (d : Dev) (a : Nat) (b : Byte) : (d.setByte a b).slots = d.slots := rfl
@[simp] theorem Dev.setByte_slotSeq (d : Dev) (a : Nat) (b : Byte) : (d.setByte a b).slotSeq = d.slotSeq := rfl
@[simp] theorem Dev.setByte_ring (d : Dev) (a : Nat) (b : Byte) : (d.setByte a b).ring = d.ring := rfl
@[simp] theorem Dev.setByte_calSeen (d : Dev) (a : Nat) (b : Byte) : (d.setByte a b).calSeen = d.calSeen := rfl
@[simp] theorem Dev.setByte_fuse (d : Dev) (a : Nat) (b : Byte) : (d.setByte a b).fuse = d.fuse := rfl
@[simp] theorem Dev.setByte_fuseRead (d : Dev) (a : Nat) (b : Byte) : (d.setByte a b).fuseRead = d.fuseRead := rfl
@[simp] theorem Dev.setByte_fuseBad (d : Dev) (a : Nat) (b : Byte) : (d.setByte a b).fuseBad = d.fuseBad := rfl
@[simp] theorem Dev.setByte_blown (d : Dev) (a : Nat) (b : Byte) : (d.setByte a b).blown = d.blown := rfl
@[simp] theorem Dev.setByte_kslots (d : Dev) (a : Nat) (b : Byte) : (d.setByte a b).kslots = d.kslots := rfl
@[simp] theorem Dev.setByte_keyPend (d : Dev) (a : Nat) (b : Byte) : (d.setByte a b).keyPend = d.keyPend := rfl
@[simp] theorem Dev.setByte_k0Wait (d : Dev) (a : Nat) (b : Byte) : (d.setByte a b).k0Wait = d.k0Wait := rfl
@[simp] theorem Dev.setByte_bootKeyed (d : Dev) (a : Nat) (b : Byte) : (d.setByte a b).bootKeyed = d.bootKeyed := rfl
@[simp] theorem Dev.setByte_ctrLeft (d : Dev) (a : Nat) (b : Byte) : (d.setByte a b).ctrLeft = d.ctrLeft := rfl
@[simp] theorem Dev.setByte_ctrBad (d : Dev) (a : Nat) (b : Byte) : (d.setByte a b).ctrBad = d.ctrBad := rfl
@[simp] theorem Dev.setByte_flWeak (d : Dev) (a : Nat) (b : Byte) : (d.setByte a b).flWeak = d.flWeak := rfl
@[simp] theorem Dev.setByte_aesJobs (d : Dev) (a : Nat) (b : Byte) : (d.setByte a b).aesJobs = d.aesJobs := rfl
@[simp] theorem Dev.setByte_aesSeq (d : Dev) (a : Nat) (b : Byte) : (d.setByte a b).aesSeq = d.aesSeq := rfl
@[simp] theorem Dev.setByte_aesLast (d : Dev) (a : Nat) (b : Byte) : (d.setByte a b).aesLast = d.aesLast := rfl
@[simp] theorem Dev.setByte_shaCtx (d : Dev) (a : Nat) (b : Byte) : (d.setByte a b).shaCtx = d.shaCtx := rfl
@[simp] theorem Dev.setByte_cht (d : Dev) (a : Nat) (b : Byte) : (d.setByte a b).cht = d.cht := rfl
@[simp] theorem Dev.setByte_descs (d : Dev) (a : Nat) (b : Byte) : (d.setByte a b).descs = d.descs := rfl
@[simp] theorem Dev.setByte_descSeq (d : Dev) (a : Nat) (b : Byte) : (d.setByte a b).descSeq = d.descSeq := rfl
@[simp] theorem Dev.setByte_comps (d : Dev) (a : Nat) (b : Byte) : (d.setByte a b).comps = d.comps := rfl
@[simp] theorem Dev.setByte_vq (d : Dev) (a : Nat) (b : Byte) : (d.setByte a b).vq = d.vq := rfl
@[simp] theorem Dev.setByte_qpool (d : Dev) (a : Nat) (b : Byte) : (d.setByte a b).qpool = d.qpool := rfl
@[simp] theorem Dev.setByte_queues (d : Dev) (a : Nat) (b : Byte) : (d.setByte a b).queues = d.queues := rfl
@[simp] theorem Dev.setByte_deferred (d : Dev) (a : Nat) (b : Byte) : (d.setByte a b).deferred = d.deferred := rfl
@[simp] theorem Dev.setByte_bound (d : Dev) (a : Nat) (b : Byte) : (d.setByte a b).bound = d.bound := rfl
@[simp] theorem Dev.setByte_awaits (d : Dev) (a : Nat) (b : Byte) : (d.setByte a b).awaits = d.awaits := rfl
@[simp] theorem Dev.setByte_frames (d : Dev) (a : Nat) (b : Byte) : (d.setByte a b).frames = d.frames := rfl
@[simp] theorem Dev.setByte_lateU (d : Dev) (a : Nat) (b : Byte) : (d.setByte a b).lateU = d.lateU := rfl
@[simp] theorem Dev.setByte_winSeen (d : Dev) (a : Nat) (b : Byte) : (d.setByte a b).winSeen = d.winSeen := rfl
@[simp] theorem Dev.setByte_winWait (d : Dev) (a : Nat) (b : Byte) : (d.setByte a b).winWait = d.winWait := rfl
@[simp] theorem Dev.setByte_lostEvt (d : Dev) (a : Nat) (b : Byte) : (d.setByte a b).lostEvt = d.lostEvt := rfl
@[simp] theorem Dev.setByte_linkSeq (d : Dev) (a : Nat) (b : Byte) : (d.setByte a b).linkSeq = d.linkSeq := rfl
@[simp] theorem Dev.setByte_relayHeld (d : Dev) (a : Nat) (b : Byte) : (d.setByte a b).relayHeld = d.relayHeld := rfl
@[simp] theorem Dev.setByte_cache (d : Dev) (a : Nat) (b : Byte) : (d.setByte a b).cache = d.cache := rfl
@[simp] theorem Dev.setByte_fld (d : Dev) (a : Nat) (b : Byte) : (d.setByte a b).fld = d.fld := rfl
@[simp] theorem Dev.setByte_wins (d : Dev) (a : Nat) (b : Byte) : (d.setByte a b).wins = d.wins := rfl
@[simp] theorem Dev.setByte_banks (d : Dev) (a : Nat) (b : Byte) : (d.setByte a b).banks = d.banks := rfl
@[simp] theorem Dev.setByte_flErr (d : Dev) (a : Nat) (b : Byte) : (d.setByte a b).flErr = d.flErr := rfl
@[simp] theorem Dev.setByte_flFlag (d : Dev) (a : Nat) (b : Byte) : (d.setByte a b).flFlag = d.flFlag := rfl
@[simp] theorem Dev.setByte_flRow (d : Dev) (a : Nat) (b : Byte) : (d.setByte a b).flRow = d.flRow := rfl
@[simp] theorem Dev.setByte_lgr (d : Dev) (a : Nat) (b : Byte) : (d.setByte a b).lgr = d.lgr := rfl
@[simp] theorem Dev.setByte_dir (d : Dev) (a : Nat) (b : Byte) : (d.setByte a b).dir = d.dir := rfl
@[simp] theorem Dev.setByte_svc (d : Dev) (a : Nat) (b : Byte) : (d.setByte a b).svc = d.svc := rfl
@[simp] theorem Dev.setByte_cal (d : Dev) (a : Nat) (b : Byte) : (d.setByte a b).cal = d.cal := rfl
@[simp] theorem Dev.setByte_nfc (d : Dev) (a : Nat) (b : Byte) : (d.setByte a b).nfc = d.nfc := rfl
@[simp] theorem Dev.setByte_i2c (d : Dev) (a : Nat) (b : Byte) : (d.setByte a b).i2c = d.i2c := rfl
@[simp] theorem Dev.setByte_spi (d : Dev) (a : Nat) (b : Byte) : (d.setByte a b).spi = d.spi := rfl
@[simp] theorem Dev.setByte_uart (d : Dev) (a : Nat) (b : Byte) : (d.setByte a b).uart = d.uart := rfl
@[simp] theorem Dev.setByte_host (d : Dev) (a : Nat) (b : Byte) : (d.setByte a b).host = d.host := rfl
@[simp] theorem Dev.setByte_freeCtr (d : Dev) (a : Nat) (b : Byte) : (d.setByte a b).freeCtr = d.freeCtr := rfl

/-! ### pulse -/

@[simp] theorem Dev.pulse_regs (d : Dev) (n : Nat) : (d.pulse n).regs = d.regs := rfl
@[simp] theorem Dev.pulse_mem (d : Dev) (n : Nat) : (d.pulse n).mem = d.mem := rfl
@[simp] theorem Dev.pulse_memErr (d : Dev) (n : Nat) : (d.pulse n).memErr = d.memErr := rfl
@[simp] theorem Dev.pulse_cores (d : Dev) (n : Nat) : (d.pulse n).cores = d.cores := rfl
@[simp] theorem Dev.pulse_caches (d : Dev) (n : Nat) : (d.pulse n).caches = d.caches := rfl
@[simp] theorem Dev.pulse_carve (d : Dev) (n : Nat) : (d.pulse n).carve = d.carve := rfl
@[simp] theorem Dev.pulse_locks (d : Dev) (n : Nat) : (d.pulse n).locks = d.locks := rfl
@[simp] theorem Dev.pulse_romHidden (d : Dev) (n : Nat) : (d.pulse n).romHidden = d.romHidden := rfl
@[simp] theorem Dev.pulse_lpOrder (d : Dev) (n : Nat) : (d.pulse n).lpOrder = d.lpOrder := rfl
@[simp] theorem Dev.pulse_asyncL (d : Dev) (n : Nat) : (d.pulse n).asyncL = d.asyncL := rfl
@[simp] theorem Dev.pulse_irqNew (d : Dev) (n : Nat) : (d.pulse n).irqNew = d.irqNew := rfl
@[simp] theorem Dev.pulse_chRaw (d : Dev) (n : Nat) : (d.pulse n).chRaw = d.chRaw := rfl
@[simp] theorem Dev.pulse_chPuls (d : Dev) (n : Nat) : (d.pulse n).chPuls = d.chPuls := rfl
@[simp] theorem Dev.pulse_hdlPend (d : Dev) (n : Nat) : (d.pulse n).hdlPend = d.hdlPend := rfl
@[simp] theorem Dev.pulse_hdlLast (d : Dev) (n : Nat) : (d.pulse n).hdlLast = d.hdlLast := rfl
@[simp] theorem Dev.pulse_hdlDone (d : Dev) (n : Nat) : (d.pulse n).hdlDone = d.hdlDone := rfl
@[simp] theorem Dev.pulse_chRose (d : Dev) (n : Nat) : (d.pulse n).chRose = d.chRose := rfl
@[simp] theorem Dev.pulse_gateOn (d : Dev) (n : Nat) : (d.pulse n).gateOn = d.gateOn := rfl
@[simp] theorem Dev.pulse_grpOn (d : Dev) (n : Nat) : (d.pulse n).grpOn = d.grpOn := rfl
@[simp] theorem Dev.pulse_grpOff (d : Dev) (n : Nat) : (d.pulse n).grpOff = d.grpOff := rfl
@[simp] theorem Dev.pulse_erlCyc (d : Dev) (n : Nat) : (d.pulse n).erlCyc = d.erlCyc := rfl
@[simp] theorem Dev.pulse_fltCyc (d : Dev) (n : Nat) : (d.pulse n).fltCyc = d.fltCyc := rfl
@[simp] theorem Dev.pulse_cellCnt (d : Dev) (n : Nat) : (d.pulse n).cellCnt = d.cellCnt := rfl
@[simp] theorem Dev.pulse_lutSwap (d : Dev) (n : Nat) : (d.pulse n).lutSwap = d.lutSwap := rfl
@[simp] theorem Dev.pulse_holdDue (d : Dev) (n : Nat) : (d.pulse n).holdDue = d.holdDue := rfl
@[simp] theorem Dev.pulse_parked (d : Dev) (n : Nat) : (d.pulse n).parked = d.parked := rfl
@[simp] theorem Dev.pulse_waiting (d : Dev) (n : Nat) : (d.pulse n).waiting = d.waiting := rfl
@[simp] theorem Dev.pulse_erlFifo (d : Dev) (n : Nat) : (d.pulse n).erlFifo = d.erlFifo := rfl
@[simp] theorem Dev.pulse_erlNext (d : Dev) (n : Nat) : (d.pulse n).erlNext = d.erlNext := rfl
@[simp] theorem Dev.pulse_tmr (d : Dev) (n : Nat) : (d.pulse n).tmr = d.tmr := rfl
@[simp] theorem Dev.pulse_aont (d : Dev) (n : Nat) : (d.pulse n).aont = d.aont := rfl
@[simp] theorem Dev.pulse_clk (d : Dev) (n : Nat) : (d.pulse n).clk = d.clk := rfl
@[simp] theorem Dev.pulse_pwr (d : Dev) (n : Nat) : (d.pulse n).pwr = d.pwr := rfl
@[simp] theorem Dev.pulse_sow (d : Dev) (n : Nat) : (d.pulse n).sow = d.sow := rfl
@[simp] theorem Dev.pulse_rdata (d : Dev) (n : Nat) : (d.pulse n).rdata = d.rdata := rfl
@[simp] theorem Dev.pulse_ccaHeld (d : Dev) (n : Nat) : (d.pulse n).ccaHeld = d.ccaHeld := rfl
@[simp] theorem Dev.pulse_padHold (d : Dev) (n : Nat) : (d.pulse n).padHold = d.padHold := rfl
@[simp] theorem Dev.pulse_txs (d : Dev) (n : Nat) : (d.pulse n).txs = d.txs := rfl
@[simp] theorem Dev.pulse_gates (d : Dev) (n : Nat) : (d.pulse n).gates = d.gates := rfl
@[simp] theorem Dev.pulse_profStaged (d : Dev) (n : Nat) : (d.pulse n).profStaged = d.profStaged := rfl
@[simp] theorem Dev.pulse_rx (d : Dev) (n : Nat) : (d.pulse n).rx = d.rx := rfl
@[simp] theorem Dev.pulse_antSel (d : Dev) (n : Nat) : (d.pulse n).antSel = d.antSel := rfl
@[simp] theorem Dev.pulse_calQ (d : Dev) (n : Nat) : (d.pulse n).calQ = d.calQ := rfl
@[simp] theorem Dev.pulse_calMeas (d : Dev) (n : Nat) : (d.pulse n).calMeas = d.calMeas := rfl
@[simp] theorem Dev.pulse_detRun (d : Dev) (n : Nat) : (d.pulse n).detRun = d.detRun := rfl
@[simp] theorem Dev.pulse_rcv (d : Dev) (n : Nat) : (d.pulse n).rcv = d.rcv := rfl
@[simp] theorem Dev.pulse_decQ (d : Dev) (n : Nat) : (d.pulse n).decQ = d.decQ := rfl
@[simp] theorem Dev.pulse_decBusy (d : Dev) (n : Nat) : (d.pulse n).decBusy = d.decBusy := rfl
@[simp] theorem Dev.pulse_decFreed (d : Dev) (n : Nat) : (d.pulse n).decFreed = d.decFreed := rfl
@[simp] theorem Dev.pulse_decLast (d : Dev) (n : Nat) : (d.pulse n).decLast = d.decLast := rfl
@[simp] theorem Dev.pulse_slots (d : Dev) (n : Nat) : (d.pulse n).slots = d.slots := rfl
@[simp] theorem Dev.pulse_slotSeq (d : Dev) (n : Nat) : (d.pulse n).slotSeq = d.slotSeq := rfl
@[simp] theorem Dev.pulse_ring (d : Dev) (n : Nat) : (d.pulse n).ring = d.ring := rfl
@[simp] theorem Dev.pulse_calSeen (d : Dev) (n : Nat) : (d.pulse n).calSeen = d.calSeen := rfl
@[simp] theorem Dev.pulse_fuse (d : Dev) (n : Nat) : (d.pulse n).fuse = d.fuse := rfl
@[simp] theorem Dev.pulse_fuseRead (d : Dev) (n : Nat) : (d.pulse n).fuseRead = d.fuseRead := rfl
@[simp] theorem Dev.pulse_fuseBad (d : Dev) (n : Nat) : (d.pulse n).fuseBad = d.fuseBad := rfl
@[simp] theorem Dev.pulse_blown (d : Dev) (n : Nat) : (d.pulse n).blown = d.blown := rfl
@[simp] theorem Dev.pulse_kslots (d : Dev) (n : Nat) : (d.pulse n).kslots = d.kslots := rfl
@[simp] theorem Dev.pulse_keyPend (d : Dev) (n : Nat) : (d.pulse n).keyPend = d.keyPend := rfl
@[simp] theorem Dev.pulse_k0Wait (d : Dev) (n : Nat) : (d.pulse n).k0Wait = d.k0Wait := rfl
@[simp] theorem Dev.pulse_bootKeyed (d : Dev) (n : Nat) : (d.pulse n).bootKeyed = d.bootKeyed := rfl
@[simp] theorem Dev.pulse_ctrLeft (d : Dev) (n : Nat) : (d.pulse n).ctrLeft = d.ctrLeft := rfl
@[simp] theorem Dev.pulse_ctrBad (d : Dev) (n : Nat) : (d.pulse n).ctrBad = d.ctrBad := rfl
@[simp] theorem Dev.pulse_flWeak (d : Dev) (n : Nat) : (d.pulse n).flWeak = d.flWeak := rfl
@[simp] theorem Dev.pulse_aesJobs (d : Dev) (n : Nat) : (d.pulse n).aesJobs = d.aesJobs := rfl
@[simp] theorem Dev.pulse_aesSeq (d : Dev) (n : Nat) : (d.pulse n).aesSeq = d.aesSeq := rfl
@[simp] theorem Dev.pulse_aesLast (d : Dev) (n : Nat) : (d.pulse n).aesLast = d.aesLast := rfl
@[simp] theorem Dev.pulse_shaCtx (d : Dev) (n : Nat) : (d.pulse n).shaCtx = d.shaCtx := rfl
@[simp] theorem Dev.pulse_cht (d : Dev) (n : Nat) : (d.pulse n).cht = d.cht := rfl
@[simp] theorem Dev.pulse_descs (d : Dev) (n : Nat) : (d.pulse n).descs = d.descs := rfl
@[simp] theorem Dev.pulse_descSeq (d : Dev) (n : Nat) : (d.pulse n).descSeq = d.descSeq := rfl
@[simp] theorem Dev.pulse_comps (d : Dev) (n : Nat) : (d.pulse n).comps = d.comps := rfl
@[simp] theorem Dev.pulse_vq (d : Dev) (n : Nat) : (d.pulse n).vq = d.vq := rfl
@[simp] theorem Dev.pulse_qpool (d : Dev) (n : Nat) : (d.pulse n).qpool = d.qpool := rfl
@[simp] theorem Dev.pulse_queues (d : Dev) (n : Nat) : (d.pulse n).queues = d.queues := rfl
@[simp] theorem Dev.pulse_deferred (d : Dev) (n : Nat) : (d.pulse n).deferred = d.deferred := rfl
@[simp] theorem Dev.pulse_bound (d : Dev) (n : Nat) : (d.pulse n).bound = d.bound := rfl
@[simp] theorem Dev.pulse_awaits (d : Dev) (n : Nat) : (d.pulse n).awaits = d.awaits := rfl
@[simp] theorem Dev.pulse_frames (d : Dev) (n : Nat) : (d.pulse n).frames = d.frames := rfl
@[simp] theorem Dev.pulse_lateU (d : Dev) (n : Nat) : (d.pulse n).lateU = d.lateU := rfl
@[simp] theorem Dev.pulse_winSeen (d : Dev) (n : Nat) : (d.pulse n).winSeen = d.winSeen := rfl
@[simp] theorem Dev.pulse_winWait (d : Dev) (n : Nat) : (d.pulse n).winWait = d.winWait := rfl
@[simp] theorem Dev.pulse_lostEvt (d : Dev) (n : Nat) : (d.pulse n).lostEvt = d.lostEvt := rfl
@[simp] theorem Dev.pulse_linkSeq (d : Dev) (n : Nat) : (d.pulse n).linkSeq = d.linkSeq := rfl
@[simp] theorem Dev.pulse_relayHeld (d : Dev) (n : Nat) : (d.pulse n).relayHeld = d.relayHeld := rfl
@[simp] theorem Dev.pulse_cache (d : Dev) (n : Nat) : (d.pulse n).cache = d.cache := rfl
@[simp] theorem Dev.pulse_fld (d : Dev) (n : Nat) : (d.pulse n).fld = d.fld := rfl
@[simp] theorem Dev.pulse_wins (d : Dev) (n : Nat) : (d.pulse n).wins = d.wins := rfl
@[simp] theorem Dev.pulse_banks (d : Dev) (n : Nat) : (d.pulse n).banks = d.banks := rfl
@[simp] theorem Dev.pulse_flErr (d : Dev) (n : Nat) : (d.pulse n).flErr = d.flErr := rfl
@[simp] theorem Dev.pulse_flFlag (d : Dev) (n : Nat) : (d.pulse n).flFlag = d.flFlag := rfl
@[simp] theorem Dev.pulse_flRow (d : Dev) (n : Nat) : (d.pulse n).flRow = d.flRow := rfl
@[simp] theorem Dev.pulse_lgr (d : Dev) (n : Nat) : (d.pulse n).lgr = d.lgr := rfl
@[simp] theorem Dev.pulse_dir (d : Dev) (n : Nat) : (d.pulse n).dir = d.dir := rfl
@[simp] theorem Dev.pulse_svc (d : Dev) (n : Nat) : (d.pulse n).svc = d.svc := rfl
@[simp] theorem Dev.pulse_cal (d : Dev) (n : Nat) : (d.pulse n).cal = d.cal := rfl
@[simp] theorem Dev.pulse_nfc (d : Dev) (n : Nat) : (d.pulse n).nfc = d.nfc := rfl
@[simp] theorem Dev.pulse_i2c (d : Dev) (n : Nat) : (d.pulse n).i2c = d.i2c := rfl
@[simp] theorem Dev.pulse_spi (d : Dev) (n : Nat) : (d.pulse n).spi = d.spi := rfl
@[simp] theorem Dev.pulse_uart (d : Dev) (n : Nat) : (d.pulse n).uart = d.uart := rfl
@[simp] theorem Dev.pulse_host (d : Dev) (n : Nat) : (d.pulse n).host = d.host := rfl
@[simp] theorem Dev.pulse_freeCtr (d : Dev) (n : Nat) : (d.pulse n).freeCtr = d.freeCtr := rfl

/-! ### hdlEvent -/

@[simp] theorem Dev.hdlEvent_mem (d : Dev) (n : Nat) : (d.hdlEvent n).mem = d.mem := by
  unfold Dev.hdlEvent; split
  · rfl
  · dsimp only; split
    · exact Dev.count_mem _ _
    · rfl
@[simp] theorem Dev.hdlEvent_memErr (d : Dev) (n : Nat) : (d.hdlEvent n).memErr = d.memErr := by
  unfold Dev.hdlEvent; split
  · rfl
  · dsimp only; split
    · exact Dev.count_memErr _ _
    · rfl
@[simp] theorem Dev.hdlEvent_cores (d : Dev) (n : Nat) : (d.hdlEvent n).cores = d.cores := by
  unfold Dev.hdlEvent; split
  · rfl
  · dsimp only; split
    · exact Dev.count_cores _ _
    · rfl
@[simp] theorem Dev.hdlEvent_caches (d : Dev) (n : Nat) : (d.hdlEvent n).caches = d.caches := by
  unfold Dev.hdlEvent; split
  · rfl
  · dsimp only; split
    · exact Dev.count_caches _ _
    · rfl
@[simp] theorem Dev.hdlEvent_carve (d : Dev) (n : Nat) : (d.hdlEvent n).carve = d.carve := by
  unfold Dev.hdlEvent; split
  · rfl
  · dsimp only; split
    · exact Dev.count_carve _ _
    · rfl
@[simp] theorem Dev.hdlEvent_locks (d : Dev) (n : Nat) : (d.hdlEvent n).locks = d.locks := by
  unfold Dev.hdlEvent; split
  · rfl
  · dsimp only; split
    · exact Dev.count_locks _ _
    · rfl
@[simp] theorem Dev.hdlEvent_romHidden (d : Dev) (n : Nat) : (d.hdlEvent n).romHidden = d.romHidden := by
  unfold Dev.hdlEvent; split
  · rfl
  · dsimp only; split
    · exact Dev.count_romHidden _ _
    · rfl
@[simp] theorem Dev.hdlEvent_lpOrder (d : Dev) (n : Nat) : (d.hdlEvent n).lpOrder = d.lpOrder := by
  unfold Dev.hdlEvent; split
  · rfl
  · dsimp only; split
    · exact Dev.count_lpOrder _ _
    · rfl
@[simp] theorem Dev.hdlEvent_asyncL (d : Dev) (n : Nat) : (d.hdlEvent n).asyncL = d.asyncL := by
  unfold Dev.hdlEvent; split
  · rfl
  · dsimp only; split
    · exact Dev.count_asyncL _ _
    · rfl
@[simp] theorem Dev.hdlEvent_irqNew (d : Dev) (n : Nat) : (d.hdlEvent n).irqNew = d.irqNew := by
  unfold Dev.hdlEvent; split
  · rfl
  · dsimp only; split
    · exact Dev.count_irqNew _ _
    · rfl
@[simp] theorem Dev.hdlEvent_irqPulse (d : Dev) (n : Nat) : (d.hdlEvent n).irqPulse = d.irqPulse := by
  unfold Dev.hdlEvent; split
  · rfl
  · dsimp only; split
    · exact Dev.count_irqPulse _ _
    · rfl
@[simp] theorem Dev.hdlEvent_chRaw (d : Dev) (n : Nat) : (d.hdlEvent n).chRaw = d.chRaw := by
  unfold Dev.hdlEvent; split
  · rfl
  · dsimp only; split
    · exact Dev.count_chRaw _ _
    · rfl
@[simp] theorem Dev.hdlEvent_chPuls (d : Dev) (n : Nat) : (d.hdlEvent n).chPuls = d.chPuls := by
  unfold Dev.hdlEvent; split
  · rfl
  · dsimp only; split
    · exact Dev.count_chPuls _ _
    · rfl
@[simp] theorem Dev.hdlEvent_hdlDone (d : Dev) (n : Nat) : (d.hdlEvent n).hdlDone = d.hdlDone := by
  unfold Dev.hdlEvent; split
  · rfl
  · dsimp only; split
    · exact Dev.count_hdlDone _ _
    · rfl
@[simp] theorem Dev.hdlEvent_chRose (d : Dev) (n : Nat) : (d.hdlEvent n).chRose = d.chRose := by
  unfold Dev.hdlEvent; split
  · rfl
  · dsimp only; split
    · exact Dev.count_chRose _ _
    · rfl
@[simp] theorem Dev.hdlEvent_gateOn (d : Dev) (n : Nat) : (d.hdlEvent n).gateOn = d.gateOn := by
  unfold Dev.hdlEvent; split
  · rfl
  · dsimp only; split
    · exact Dev.count_gateOn _ _
    · rfl
@[simp] theorem Dev.hdlEvent_grpOn (d : Dev) (n : Nat) : (d.hdlEvent n).grpOn = d.grpOn := by
  unfold Dev.hdlEvent; split
  · rfl
  · dsimp only; split
    · exact Dev.count_grpOn _ _
    · rfl
@[simp] theorem Dev.hdlEvent_grpOff (d : Dev) (n : Nat) : (d.hdlEvent n).grpOff = d.grpOff := by
  unfold Dev.hdlEvent; split
  · rfl
  · dsimp only; split
    · exact Dev.count_grpOff _ _
    · rfl
@[simp] theorem Dev.hdlEvent_erlCyc (d : Dev) (n : Nat) : (d.hdlEvent n).erlCyc = d.erlCyc := by
  unfold Dev.hdlEvent; split
  · rfl
  · dsimp only; split
    · exact Dev.count_erlCyc _ _
    · rfl
@[simp] theorem Dev.hdlEvent_fltCyc (d : Dev) (n : Nat) : (d.hdlEvent n).fltCyc = d.fltCyc := by
  unfold Dev.hdlEvent; split
  · rfl
  · dsimp only; split
    · exact Dev.count_fltCyc _ _
    · rfl
@[simp] theorem Dev.hdlEvent_cellCnt (d : Dev) (n : Nat) : (d.hdlEvent n).cellCnt = d.cellCnt := by
  unfold Dev.hdlEvent; split
  · rfl
  · dsimp only; split
    · exact Dev.count_cellCnt _ _
    · rfl
@[simp] theorem Dev.hdlEvent_lutSwap (d : Dev) (n : Nat) : (d.hdlEvent n).lutSwap = d.lutSwap := by
  unfold Dev.hdlEvent; split
  · rfl
  · dsimp only; split
    · exact Dev.count_lutSwap _ _
    · rfl
@[simp] theorem Dev.hdlEvent_holdDue (d : Dev) (n : Nat) : (d.hdlEvent n).holdDue = d.holdDue := by
  unfold Dev.hdlEvent; split
  · rfl
  · dsimp only; split
    · exact Dev.count_holdDue _ _
    · rfl
@[simp] theorem Dev.hdlEvent_parked (d : Dev) (n : Nat) : (d.hdlEvent n).parked = d.parked := by
  unfold Dev.hdlEvent; split
  · rfl
  · dsimp only; split
    · exact Dev.count_parked _ _
    · rfl
@[simp] theorem Dev.hdlEvent_waiting (d : Dev) (n : Nat) : (d.hdlEvent n).waiting = d.waiting := by
  unfold Dev.hdlEvent; split
  · rfl
  · dsimp only; split
    · exact Dev.count_waiting _ _
    · rfl
@[simp] theorem Dev.hdlEvent_erlFifo (d : Dev) (n : Nat) : (d.hdlEvent n).erlFifo = d.erlFifo := by
  unfold Dev.hdlEvent; split
  · rfl
  · dsimp only; split
    · exact Dev.count_erlFifo _ _
    · rfl
@[simp] theorem Dev.hdlEvent_erlNext (d : Dev) (n : Nat) : (d.hdlEvent n).erlNext = d.erlNext := by
  unfold Dev.hdlEvent; split
  · rfl
  · dsimp only; split
    · exact Dev.count_erlNext _ _
    · rfl
@[simp] theorem Dev.hdlEvent_tmr (d : Dev) (n : Nat) : (d.hdlEvent n).tmr = d.tmr := by
  unfold Dev.hdlEvent; split
  · rfl
  · dsimp only; split
    · exact Dev.count_tmr _ _
    · rfl
@[simp] theorem Dev.hdlEvent_aont (d : Dev) (n : Nat) : (d.hdlEvent n).aont = d.aont := by
  unfold Dev.hdlEvent; split
  · rfl
  · dsimp only; split
    · exact Dev.count_aont _ _
    · rfl
@[simp] theorem Dev.hdlEvent_clk (d : Dev) (n : Nat) : (d.hdlEvent n).clk = d.clk := by
  unfold Dev.hdlEvent; split
  · rfl
  · dsimp only; split
    · exact Dev.count_clk _ _
    · rfl
@[simp] theorem Dev.hdlEvent_pwr (d : Dev) (n : Nat) : (d.hdlEvent n).pwr = d.pwr := by
  unfold Dev.hdlEvent; split
  · rfl
  · dsimp only; split
    · exact Dev.count_pwr _ _
    · rfl
@[simp] theorem Dev.hdlEvent_sow (d : Dev) (n : Nat) : (d.hdlEvent n).sow = d.sow := by
  unfold Dev.hdlEvent; split
  · rfl
  · dsimp only; split
    · exact Dev.count_sow _ _
    · rfl
@[simp] theorem Dev.hdlEvent_rdata (d : Dev) (n : Nat) : (d.hdlEvent n).rdata = d.rdata := by
  unfold Dev.hdlEvent; split
  · rfl
  · dsimp only; split
    · exact Dev.count_rdata _ _
    · rfl
@[simp] theorem Dev.hdlEvent_ccaHeld (d : Dev) (n : Nat) : (d.hdlEvent n).ccaHeld = d.ccaHeld := by
  unfold Dev.hdlEvent; split
  · rfl
  · dsimp only; split
    · exact Dev.count_ccaHeld _ _
    · rfl
@[simp] theorem Dev.hdlEvent_padHold (d : Dev) (n : Nat) : (d.hdlEvent n).padHold = d.padHold := by
  unfold Dev.hdlEvent; split
  · rfl
  · dsimp only; split
    · exact Dev.count_padHold _ _
    · rfl
@[simp] theorem Dev.hdlEvent_txs (d : Dev) (n : Nat) : (d.hdlEvent n).txs = d.txs := by
  unfold Dev.hdlEvent; split
  · rfl
  · dsimp only; split
    · exact Dev.count_txs _ _
    · rfl
@[simp] theorem Dev.hdlEvent_gates (d : Dev) (n : Nat) : (d.hdlEvent n).gates = d.gates := by
  unfold Dev.hdlEvent; split
  · rfl
  · dsimp only; split
    · exact Dev.count_gates _ _
    · rfl
@[simp] theorem Dev.hdlEvent_profStaged (d : Dev) (n : Nat) : (d.hdlEvent n).profStaged = d.profStaged := by
  unfold Dev.hdlEvent; split
  · rfl
  · dsimp only; split
    · exact Dev.count_profStaged _ _
    · rfl
@[simp] theorem Dev.hdlEvent_rx (d : Dev) (n : Nat) : (d.hdlEvent n).rx = d.rx := by
  unfold Dev.hdlEvent; split
  · rfl
  · dsimp only; split
    · exact Dev.count_rx _ _
    · rfl
@[simp] theorem Dev.hdlEvent_antSel (d : Dev) (n : Nat) : (d.hdlEvent n).antSel = d.antSel := by
  unfold Dev.hdlEvent; split
  · rfl
  · dsimp only; split
    · exact Dev.count_antSel _ _
    · rfl
@[simp] theorem Dev.hdlEvent_calQ (d : Dev) (n : Nat) : (d.hdlEvent n).calQ = d.calQ := by
  unfold Dev.hdlEvent; split
  · rfl
  · dsimp only; split
    · exact Dev.count_calQ _ _
    · rfl
@[simp] theorem Dev.hdlEvent_calMeas (d : Dev) (n : Nat) : (d.hdlEvent n).calMeas = d.calMeas := by
  unfold Dev.hdlEvent; split
  · rfl
  · dsimp only; split
    · exact Dev.count_calMeas _ _
    · rfl
@[simp] theorem Dev.hdlEvent_detRun (d : Dev) (n : Nat) : (d.hdlEvent n).detRun = d.detRun := by
  unfold Dev.hdlEvent; split
  · rfl
  · dsimp only; split
    · exact Dev.count_detRun _ _
    · rfl
@[simp] theorem Dev.hdlEvent_rcv (d : Dev) (n : Nat) : (d.hdlEvent n).rcv = d.rcv := by
  unfold Dev.hdlEvent; split
  · rfl
  · dsimp only; split
    · exact Dev.count_rcv _ _
    · rfl
@[simp] theorem Dev.hdlEvent_decQ (d : Dev) (n : Nat) : (d.hdlEvent n).decQ = d.decQ := by
  unfold Dev.hdlEvent; split
  · rfl
  · dsimp only; split
    · exact Dev.count_decQ _ _
    · rfl
@[simp] theorem Dev.hdlEvent_decBusy (d : Dev) (n : Nat) : (d.hdlEvent n).decBusy = d.decBusy := by
  unfold Dev.hdlEvent; split
  · rfl
  · dsimp only; split
    · exact Dev.count_decBusy _ _
    · rfl
@[simp] theorem Dev.hdlEvent_decFreed (d : Dev) (n : Nat) : (d.hdlEvent n).decFreed = d.decFreed := by
  unfold Dev.hdlEvent; split
  · rfl
  · dsimp only; split
    · exact Dev.count_decFreed _ _
    · rfl
@[simp] theorem Dev.hdlEvent_decLast (d : Dev) (n : Nat) : (d.hdlEvent n).decLast = d.decLast := by
  unfold Dev.hdlEvent; split
  · rfl
  · dsimp only; split
    · exact Dev.count_decLast _ _
    · rfl
@[simp] theorem Dev.hdlEvent_slots (d : Dev) (n : Nat) : (d.hdlEvent n).slots = d.slots := by
  unfold Dev.hdlEvent; split
  · rfl
  · dsimp only; split
    · exact Dev.count_slots _ _
    · rfl
@[simp] theorem Dev.hdlEvent_slotSeq (d : Dev) (n : Nat) : (d.hdlEvent n).slotSeq = d.slotSeq := by
  unfold Dev.hdlEvent; split
  · rfl
  · dsimp only; split
    · exact Dev.count_slotSeq _ _
    · rfl
@[simp] theorem Dev.hdlEvent_ring (d : Dev) (n : Nat) : (d.hdlEvent n).ring = d.ring := by
  unfold Dev.hdlEvent; split
  · rfl
  · dsimp only; split
    · exact Dev.count_ring _ _
    · rfl
@[simp] theorem Dev.hdlEvent_calSeen (d : Dev) (n : Nat) : (d.hdlEvent n).calSeen = d.calSeen := by
  unfold Dev.hdlEvent; split
  · rfl
  · dsimp only; split
    · exact Dev.count_calSeen _ _
    · rfl
@[simp] theorem Dev.hdlEvent_fuse (d : Dev) (n : Nat) : (d.hdlEvent n).fuse = d.fuse := by
  unfold Dev.hdlEvent; split
  · rfl
  · dsimp only; split
    · exact Dev.count_fuse _ _
    · rfl
@[simp] theorem Dev.hdlEvent_fuseRead (d : Dev) (n : Nat) : (d.hdlEvent n).fuseRead = d.fuseRead := by
  unfold Dev.hdlEvent; split
  · rfl
  · dsimp only; split
    · exact Dev.count_fuseRead _ _
    · rfl
@[simp] theorem Dev.hdlEvent_fuseBad (d : Dev) (n : Nat) : (d.hdlEvent n).fuseBad = d.fuseBad := by
  unfold Dev.hdlEvent; split
  · rfl
  · dsimp only; split
    · exact Dev.count_fuseBad _ _
    · rfl
@[simp] theorem Dev.hdlEvent_blown (d : Dev) (n : Nat) : (d.hdlEvent n).blown = d.blown := by
  unfold Dev.hdlEvent; split
  · rfl
  · dsimp only; split
    · exact Dev.count_blown _ _
    · rfl
@[simp] theorem Dev.hdlEvent_kslots (d : Dev) (n : Nat) : (d.hdlEvent n).kslots = d.kslots := by
  unfold Dev.hdlEvent; split
  · rfl
  · dsimp only; split
    · exact Dev.count_kslots _ _
    · rfl
@[simp] theorem Dev.hdlEvent_keyPend (d : Dev) (n : Nat) : (d.hdlEvent n).keyPend = d.keyPend := by
  unfold Dev.hdlEvent; split
  · rfl
  · dsimp only; split
    · exact Dev.count_keyPend _ _
    · rfl
@[simp] theorem Dev.hdlEvent_k0Wait (d : Dev) (n : Nat) : (d.hdlEvent n).k0Wait = d.k0Wait := by
  unfold Dev.hdlEvent; split
  · rfl
  · dsimp only; split
    · exact Dev.count_k0Wait _ _
    · rfl
@[simp] theorem Dev.hdlEvent_bootKeyed (d : Dev) (n : Nat) : (d.hdlEvent n).bootKeyed = d.bootKeyed := by
  unfold Dev.hdlEvent; split
  · rfl
  · dsimp only; split
    · exact Dev.count_bootKeyed _ _
    · rfl
@[simp] theorem Dev.hdlEvent_ctrLeft (d : Dev) (n : Nat) : (d.hdlEvent n).ctrLeft = d.ctrLeft := by
  unfold Dev.hdlEvent; split
  · rfl
  · dsimp only; split
    · exact Dev.count_ctrLeft _ _
    · rfl
@[simp] theorem Dev.hdlEvent_ctrBad (d : Dev) (n : Nat) : (d.hdlEvent n).ctrBad = d.ctrBad := by
  unfold Dev.hdlEvent; split
  · rfl
  · dsimp only; split
    · exact Dev.count_ctrBad _ _
    · rfl
@[simp] theorem Dev.hdlEvent_flWeak (d : Dev) (n : Nat) : (d.hdlEvent n).flWeak = d.flWeak := by
  unfold Dev.hdlEvent; split
  · rfl
  · dsimp only; split
    · exact Dev.count_flWeak _ _
    · rfl
@[simp] theorem Dev.hdlEvent_aesJobs (d : Dev) (n : Nat) : (d.hdlEvent n).aesJobs = d.aesJobs := by
  unfold Dev.hdlEvent; split
  · rfl
  · dsimp only; split
    · exact Dev.count_aesJobs _ _
    · rfl
@[simp] theorem Dev.hdlEvent_aesSeq (d : Dev) (n : Nat) : (d.hdlEvent n).aesSeq = d.aesSeq := by
  unfold Dev.hdlEvent; split
  · rfl
  · dsimp only; split
    · exact Dev.count_aesSeq _ _
    · rfl
@[simp] theorem Dev.hdlEvent_aesLast (d : Dev) (n : Nat) : (d.hdlEvent n).aesLast = d.aesLast := by
  unfold Dev.hdlEvent; split
  · rfl
  · dsimp only; split
    · exact Dev.count_aesLast _ _
    · rfl
@[simp] theorem Dev.hdlEvent_shaCtx (d : Dev) (n : Nat) : (d.hdlEvent n).shaCtx = d.shaCtx := by
  unfold Dev.hdlEvent; split
  · rfl
  · dsimp only; split
    · exact Dev.count_shaCtx _ _
    · rfl
@[simp] theorem Dev.hdlEvent_cht (d : Dev) (n : Nat) : (d.hdlEvent n).cht = d.cht := by
  unfold Dev.hdlEvent; split
  · rfl
  · dsimp only; split
    · exact Dev.count_cht _ _
    · rfl
@[simp] theorem Dev.hdlEvent_descs (d : Dev) (n : Nat) : (d.hdlEvent n).descs = d.descs := by
  unfold Dev.hdlEvent; split
  · rfl
  · dsimp only; split
    · exact Dev.count_descs _ _
    · rfl
@[simp] theorem Dev.hdlEvent_descSeq (d : Dev) (n : Nat) : (d.hdlEvent n).descSeq = d.descSeq := by
  unfold Dev.hdlEvent; split
  · rfl
  · dsimp only; split
    · exact Dev.count_descSeq _ _
    · rfl
@[simp] theorem Dev.hdlEvent_comps (d : Dev) (n : Nat) : (d.hdlEvent n).comps = d.comps := by
  unfold Dev.hdlEvent; split
  · rfl
  · dsimp only; split
    · exact Dev.count_comps _ _
    · rfl
@[simp] theorem Dev.hdlEvent_vq (d : Dev) (n : Nat) : (d.hdlEvent n).vq = d.vq := by
  unfold Dev.hdlEvent; split
  · rfl
  · dsimp only; split
    · exact Dev.count_vq _ _
    · rfl
@[simp] theorem Dev.hdlEvent_qpool (d : Dev) (n : Nat) : (d.hdlEvent n).qpool = d.qpool := by
  unfold Dev.hdlEvent; split
  · rfl
  · dsimp only; split
    · exact Dev.count_qpool _ _
    · rfl
@[simp] theorem Dev.hdlEvent_queues (d : Dev) (n : Nat) : (d.hdlEvent n).queues = d.queues := by
  unfold Dev.hdlEvent; split
  · rfl
  · dsimp only; split
    · exact Dev.count_queues _ _
    · rfl
@[simp] theorem Dev.hdlEvent_deferred (d : Dev) (n : Nat) : (d.hdlEvent n).deferred = d.deferred := by
  unfold Dev.hdlEvent; split
  · rfl
  · dsimp only; split
    · exact Dev.count_deferred _ _
    · rfl
@[simp] theorem Dev.hdlEvent_bound (d : Dev) (n : Nat) : (d.hdlEvent n).bound = d.bound := by
  unfold Dev.hdlEvent; split
  · rfl
  · dsimp only; split
    · exact Dev.count_bound _ _
    · rfl
@[simp] theorem Dev.hdlEvent_awaits (d : Dev) (n : Nat) : (d.hdlEvent n).awaits = d.awaits := by
  unfold Dev.hdlEvent; split
  · rfl
  · dsimp only; split
    · exact Dev.count_awaits _ _
    · rfl
@[simp] theorem Dev.hdlEvent_frames (d : Dev) (n : Nat) : (d.hdlEvent n).frames = d.frames := by
  unfold Dev.hdlEvent; split
  · rfl
  · dsimp only; split
    · exact Dev.count_frames _ _
    · rfl
@[simp] theorem Dev.hdlEvent_lateU (d : Dev) (n : Nat) : (d.hdlEvent n).lateU = d.lateU := by
  unfold Dev.hdlEvent; split
  · rfl
  · dsimp only; split
    · exact Dev.count_lateU _ _
    · rfl
@[simp] theorem Dev.hdlEvent_winSeen (d : Dev) (n : Nat) : (d.hdlEvent n).winSeen = d.winSeen := by
  unfold Dev.hdlEvent; split
  · rfl
  · dsimp only; split
    · exact Dev.count_winSeen _ _
    · rfl
@[simp] theorem Dev.hdlEvent_winWait (d : Dev) (n : Nat) : (d.hdlEvent n).winWait = d.winWait := by
  unfold Dev.hdlEvent; split
  · rfl
  · dsimp only; split
    · exact Dev.count_winWait _ _
    · rfl
@[simp] theorem Dev.hdlEvent_lostEvt (d : Dev) (n : Nat) : (d.hdlEvent n).lostEvt = d.lostEvt := by
  unfold Dev.hdlEvent; split
  · rfl
  · dsimp only; split
    · exact Dev.count_lostEvt _ _
    · rfl
@[simp] theorem Dev.hdlEvent_linkSeq (d : Dev) (n : Nat) : (d.hdlEvent n).linkSeq = d.linkSeq := by
  unfold Dev.hdlEvent; split
  · rfl
  · dsimp only; split
    · exact Dev.count_linkSeq _ _
    · rfl
@[simp] theorem Dev.hdlEvent_relayHeld (d : Dev) (n : Nat) : (d.hdlEvent n).relayHeld = d.relayHeld := by
  unfold Dev.hdlEvent; split
  · rfl
  · dsimp only; split
    · exact Dev.count_relayHeld _ _
    · rfl
@[simp] theorem Dev.hdlEvent_cache (d : Dev) (n : Nat) : (d.hdlEvent n).cache = d.cache := by
  unfold Dev.hdlEvent; split
  · rfl
  · dsimp only; split
    · exact Dev.count_cache _ _
    · rfl
@[simp] theorem Dev.hdlEvent_fld (d : Dev) (n : Nat) : (d.hdlEvent n).fld = d.fld := by
  unfold Dev.hdlEvent; split
  · rfl
  · dsimp only; split
    · exact Dev.count_fld _ _
    · rfl
@[simp] theorem Dev.hdlEvent_wins (d : Dev) (n : Nat) : (d.hdlEvent n).wins = d.wins := by
  unfold Dev.hdlEvent; split
  · rfl
  · dsimp only; split
    · exact Dev.count_wins _ _
    · rfl
@[simp] theorem Dev.hdlEvent_banks (d : Dev) (n : Nat) : (d.hdlEvent n).banks = d.banks := by
  unfold Dev.hdlEvent; split
  · rfl
  · dsimp only; split
    · exact Dev.count_banks _ _
    · rfl
@[simp] theorem Dev.hdlEvent_flErr (d : Dev) (n : Nat) : (d.hdlEvent n).flErr = d.flErr := by
  unfold Dev.hdlEvent; split
  · rfl
  · dsimp only; split
    · exact Dev.count_flErr _ _
    · rfl
@[simp] theorem Dev.hdlEvent_flFlag (d : Dev) (n : Nat) : (d.hdlEvent n).flFlag = d.flFlag := by
  unfold Dev.hdlEvent; split
  · rfl
  · dsimp only; split
    · exact Dev.count_flFlag _ _
    · rfl
@[simp] theorem Dev.hdlEvent_flRow (d : Dev) (n : Nat) : (d.hdlEvent n).flRow = d.flRow := by
  unfold Dev.hdlEvent; split
  · rfl
  · dsimp only; split
    · exact Dev.count_flRow _ _
    · rfl
@[simp] theorem Dev.hdlEvent_lgr (d : Dev) (n : Nat) : (d.hdlEvent n).lgr = d.lgr := by
  unfold Dev.hdlEvent; split
  · rfl
  · dsimp only; split
    · exact Dev.count_lgr _ _
    · rfl
@[simp] theorem Dev.hdlEvent_dir (d : Dev) (n : Nat) : (d.hdlEvent n).dir = d.dir := by
  unfold Dev.hdlEvent; split
  · rfl
  · dsimp only; split
    · exact Dev.count_dir _ _
    · rfl
@[simp] theorem Dev.hdlEvent_svc (d : Dev) (n : Nat) : (d.hdlEvent n).svc = d.svc := by
  unfold Dev.hdlEvent; split
  · rfl
  · dsimp only; split
    · exact Dev.count_svc _ _
    · rfl
@[simp] theorem Dev.hdlEvent_cal (d : Dev) (n : Nat) : (d.hdlEvent n).cal = d.cal := by
  unfold Dev.hdlEvent; split
  · rfl
  · dsimp only; split
    · exact Dev.count_cal _ _
    · rfl
@[simp] theorem Dev.hdlEvent_nfc (d : Dev) (n : Nat) : (d.hdlEvent n).nfc = d.nfc := by
  unfold Dev.hdlEvent; split
  · rfl
  · dsimp only; split
    · exact Dev.count_nfc _ _
    · rfl
@[simp] theorem Dev.hdlEvent_i2c (d : Dev) (n : Nat) : (d.hdlEvent n).i2c = d.i2c := by
  unfold Dev.hdlEvent; split
  · rfl
  · dsimp only; split
    · exact Dev.count_i2c _ _
    · rfl
@[simp] theorem Dev.hdlEvent_spi (d : Dev) (n : Nat) : (d.hdlEvent n).spi = d.spi := by
  unfold Dev.hdlEvent; split
  · rfl
  · dsimp only; split
    · exact Dev.count_spi _ _
    · rfl
@[simp] theorem Dev.hdlEvent_uart (d : Dev) (n : Nat) : (d.hdlEvent n).uart = d.uart := by
  unfold Dev.hdlEvent; split
  · rfl
  · dsimp only; split
    · exact Dev.count_uart _ _
    · rfl
@[simp] theorem Dev.hdlEvent_host (d : Dev) (n : Nat) : (d.hdlEvent n).host = d.host := by
  unfold Dev.hdlEvent; split
  · rfl
  · dsimp only; split
    · exact Dev.count_host _ _
    · rfl
@[simp] theorem Dev.hdlEvent_freeCtr (d : Dev) (n : Nat) : (d.hdlEvent n).freeCtr = d.freeCtr := by
  unfold Dev.hdlEvent; split
  · rfl
  · dsimp only; split
    · exact Dev.count_freeCtr _ _
    · rfl

/-! ### settle -/

@[simp] theorem Dev.settle_regs (d : Dev) : (d.settle).regs = d.regs := rfl
@[simp] theorem Dev.settle_memErr (d : Dev) : (d.settle).memErr = d.memErr := rfl
@[simp] theorem Dev.settle_cores (d : Dev) : (d.settle).cores = d.cores := rfl
@[simp] theorem Dev.settle_caches (d : Dev) : (d.settle).caches = d.caches := rfl
@[simp] theorem Dev.settle_carve (d : Dev) : (d.settle).carve = d.carve := rfl
@[simp] theorem Dev.settle_locks (d : Dev) : (d.settle).locks = d.locks := rfl
@[simp] theorem Dev.settle_romHidden (d : Dev) : (d.settle).romHidden = d.romHidden := rfl
@[simp] theorem Dev.settle_lpOrder (d : Dev) : (d.settle).lpOrder = d.lpOrder := rfl
@[simp] theorem Dev.settle_asyncL (d : Dev) : (d.settle).asyncL = d.asyncL := rfl
@[simp] theorem Dev.settle_irqNew (d : Dev) : (d.settle).irqNew = d.irqNew := rfl
@[simp] theorem Dev.settle_irqPulse (d : Dev) : (d.settle).irqPulse = d.irqPulse := rfl
@[simp] theorem Dev.settle_chRaw (d : Dev) : (d.settle).chRaw = d.chRaw := rfl
@[simp] theorem Dev.settle_chPuls (d : Dev) : (d.settle).chPuls = d.chPuls := rfl
@[simp] theorem Dev.settle_hdlPend (d : Dev) : (d.settle).hdlPend = d.hdlPend := rfl
@[simp] theorem Dev.settle_hdlLast (d : Dev) : (d.settle).hdlLast = d.hdlLast := rfl
@[simp] theorem Dev.settle_hdlDone (d : Dev) : (d.settle).hdlDone = d.hdlDone := rfl
@[simp] theorem Dev.settle_chRose (d : Dev) : (d.settle).chRose = d.chRose := rfl
@[simp] theorem Dev.settle_gateOn (d : Dev) : (d.settle).gateOn = d.gateOn := rfl
@[simp] theorem Dev.settle_grpOn (d : Dev) : (d.settle).grpOn = d.grpOn := rfl
@[simp] theorem Dev.settle_grpOff (d : Dev) : (d.settle).grpOff = d.grpOff := rfl
@[simp] theorem Dev.settle_erlCyc (d : Dev) : (d.settle).erlCyc = d.erlCyc := rfl
@[simp] theorem Dev.settle_fltCyc (d : Dev) : (d.settle).fltCyc = d.fltCyc := rfl
@[simp] theorem Dev.settle_cellCnt (d : Dev) : (d.settle).cellCnt = d.cellCnt := rfl
@[simp] theorem Dev.settle_lutSwap (d : Dev) : (d.settle).lutSwap = d.lutSwap := rfl
@[simp] theorem Dev.settle_holdDue (d : Dev) : (d.settle).holdDue = d.holdDue := rfl
@[simp] theorem Dev.settle_parked (d : Dev) : (d.settle).parked = d.parked := rfl
@[simp] theorem Dev.settle_waiting (d : Dev) : (d.settle).waiting = d.waiting := rfl
@[simp] theorem Dev.settle_erlFifo (d : Dev) : (d.settle).erlFifo = d.erlFifo := rfl
@[simp] theorem Dev.settle_erlNext (d : Dev) : (d.settle).erlNext = d.erlNext := rfl
@[simp] theorem Dev.settle_tmr (d : Dev) : (d.settle).tmr = d.tmr := rfl
@[simp] theorem Dev.settle_aont (d : Dev) : (d.settle).aont = d.aont := rfl
@[simp] theorem Dev.settle_clk (d : Dev) : (d.settle).clk = d.clk := rfl
@[simp] theorem Dev.settle_pwr (d : Dev) : (d.settle).pwr = d.pwr := rfl
@[simp] theorem Dev.settle_sow (d : Dev) : (d.settle).sow = d.sow := rfl
@[simp] theorem Dev.settle_rdata (d : Dev) : (d.settle).rdata = d.rdata := rfl
@[simp] theorem Dev.settle_ccaHeld (d : Dev) : (d.settle).ccaHeld = d.ccaHeld := rfl
@[simp] theorem Dev.settle_padHold (d : Dev) : (d.settle).padHold = d.padHold := rfl
@[simp] theorem Dev.settle_txs (d : Dev) : (d.settle).txs = d.txs := rfl
@[simp] theorem Dev.settle_gates (d : Dev) : (d.settle).gates = d.gates := rfl
@[simp] theorem Dev.settle_profStaged (d : Dev) : (d.settle).profStaged = d.profStaged := rfl
@[simp] theorem Dev.settle_rx (d : Dev) : (d.settle).rx = d.rx := rfl
@[simp] theorem Dev.settle_antSel (d : Dev) : (d.settle).antSel = d.antSel := rfl
@[simp] theorem Dev.settle_calQ (d : Dev) : (d.settle).calQ = d.calQ := rfl
@[simp] theorem Dev.settle_calMeas (d : Dev) : (d.settle).calMeas = d.calMeas := rfl
@[simp] theorem Dev.settle_detRun (d : Dev) : (d.settle).detRun = d.detRun := rfl
@[simp] theorem Dev.settle_rcv (d : Dev) : (d.settle).rcv = d.rcv := rfl
@[simp] theorem Dev.settle_decQ (d : Dev) : (d.settle).decQ = d.decQ := rfl
@[simp] theorem Dev.settle_decBusy (d : Dev) : (d.settle).decBusy = d.decBusy := rfl
@[simp] theorem Dev.settle_decFreed (d : Dev) : (d.settle).decFreed = d.decFreed := rfl
@[simp] theorem Dev.settle_decLast (d : Dev) : (d.settle).decLast = d.decLast := rfl
@[simp] theorem Dev.settle_slots (d : Dev) : (d.settle).slots = d.slots := rfl
@[simp] theorem Dev.settle_slotSeq (d : Dev) : (d.settle).slotSeq = d.slotSeq := rfl
@[simp] theorem Dev.settle_ring (d : Dev) : (d.settle).ring = d.ring := rfl
@[simp] theorem Dev.settle_calSeen (d : Dev) : (d.settle).calSeen = d.calSeen := rfl
@[simp] theorem Dev.settle_fuse (d : Dev) : (d.settle).fuse = d.fuse := rfl
@[simp] theorem Dev.settle_fuseRead (d : Dev) : (d.settle).fuseRead = d.fuseRead := rfl
@[simp] theorem Dev.settle_fuseBad (d : Dev) : (d.settle).fuseBad = d.fuseBad := rfl
@[simp] theorem Dev.settle_blown (d : Dev) : (d.settle).blown = d.blown := rfl
@[simp] theorem Dev.settle_kslots (d : Dev) : (d.settle).kslots = d.kslots := rfl
@[simp] theorem Dev.settle_keyPend (d : Dev) : (d.settle).keyPend = d.keyPend := rfl
@[simp] theorem Dev.settle_k0Wait (d : Dev) : (d.settle).k0Wait = d.k0Wait := rfl
@[simp] theorem Dev.settle_bootKeyed (d : Dev) : (d.settle).bootKeyed = d.bootKeyed := rfl
@[simp] theorem Dev.settle_ctrLeft (d : Dev) : (d.settle).ctrLeft = d.ctrLeft := rfl
@[simp] theorem Dev.settle_ctrBad (d : Dev) : (d.settle).ctrBad = d.ctrBad := rfl
@[simp] theorem Dev.settle_flWeak (d : Dev) : (d.settle).flWeak = d.flWeak := rfl
@[simp] theorem Dev.settle_aesJobs (d : Dev) : (d.settle).aesJobs = d.aesJobs := rfl
@[simp] theorem Dev.settle_aesSeq (d : Dev) : (d.settle).aesSeq = d.aesSeq := rfl
@[simp] theorem Dev.settle_aesLast (d : Dev) : (d.settle).aesLast = d.aesLast := rfl
@[simp] theorem Dev.settle_shaCtx (d : Dev) : (d.settle).shaCtx = d.shaCtx := rfl
@[simp] theorem Dev.settle_cht (d : Dev) : (d.settle).cht = d.cht := rfl
@[simp] theorem Dev.settle_descs (d : Dev) : (d.settle).descs = d.descs := rfl
@[simp] theorem Dev.settle_descSeq (d : Dev) : (d.settle).descSeq = d.descSeq := rfl
@[simp] theorem Dev.settle_comps (d : Dev) : (d.settle).comps = d.comps := rfl
@[simp] theorem Dev.settle_vq (d : Dev) : (d.settle).vq = d.vq := rfl
@[simp] theorem Dev.settle_qpool (d : Dev) : (d.settle).qpool = d.qpool := rfl
@[simp] theorem Dev.settle_queues (d : Dev) : (d.settle).queues = d.queues := rfl
@[simp] theorem Dev.settle_deferred (d : Dev) : (d.settle).deferred = d.deferred := rfl
@[simp] theorem Dev.settle_bound (d : Dev) : (d.settle).bound = d.bound := rfl
@[simp] theorem Dev.settle_awaits (d : Dev) : (d.settle).awaits = d.awaits := rfl
@[simp] theorem Dev.settle_frames (d : Dev) : (d.settle).frames = d.frames := rfl
@[simp] theorem Dev.settle_lateU (d : Dev) : (d.settle).lateU = d.lateU := rfl
@[simp] theorem Dev.settle_winSeen (d : Dev) : (d.settle).winSeen = d.winSeen := rfl
@[simp] theorem Dev.settle_winWait (d : Dev) : (d.settle).winWait = d.winWait := rfl
@[simp] theorem Dev.settle_lostEvt (d : Dev) : (d.settle).lostEvt = d.lostEvt := rfl
@[simp] theorem Dev.settle_linkSeq (d : Dev) : (d.settle).linkSeq = d.linkSeq := rfl
@[simp] theorem Dev.settle_relayHeld (d : Dev) : (d.settle).relayHeld = d.relayHeld := rfl
@[simp] theorem Dev.settle_cache (d : Dev) : (d.settle).cache = d.cache := rfl
@[simp] theorem Dev.settle_fld (d : Dev) : (d.settle).fld = d.fld := rfl
@[simp] theorem Dev.settle_wins (d : Dev) : (d.settle).wins = d.wins := rfl
@[simp] theorem Dev.settle_banks (d : Dev) : (d.settle).banks = d.banks := rfl
@[simp] theorem Dev.settle_flErr (d : Dev) : (d.settle).flErr = d.flErr := rfl
@[simp] theorem Dev.settle_flFlag (d : Dev) : (d.settle).flFlag = d.flFlag := rfl
@[simp] theorem Dev.settle_flRow (d : Dev) : (d.settle).flRow = d.flRow := rfl
@[simp] theorem Dev.settle_lgr (d : Dev) : (d.settle).lgr = d.lgr := rfl
@[simp] theorem Dev.settle_dir (d : Dev) : (d.settle).dir = d.dir := rfl
@[simp] theorem Dev.settle_svc (d : Dev) : (d.settle).svc = d.svc := rfl
@[simp] theorem Dev.settle_cal (d : Dev) : (d.settle).cal = d.cal := rfl
@[simp] theorem Dev.settle_nfc (d : Dev) : (d.settle).nfc = d.nfc := rfl
@[simp] theorem Dev.settle_i2c (d : Dev) : (d.settle).i2c = d.i2c := rfl
@[simp] theorem Dev.settle_spi (d : Dev) : (d.settle).spi = d.spi := rfl
@[simp] theorem Dev.settle_uart (d : Dev) : (d.settle).uart = d.uart := rfl
@[simp] theorem Dev.settle_host (d : Dev) : (d.settle).host = d.host := rfl
@[simp] theorem Dev.settle_freeCtr (d : Dev) : (d.settle).freeCtr = d.freeCtr := rfl

/-! ### wakeBy -/

@[simp] theorem Dev.wakeBy_regs (d e : Dev) : (d.wakeBy e).regs = e.regs := rfl
@[simp] theorem Dev.wakeBy_mem (d e : Dev) : (d.wakeBy e).mem = e.mem := rfl
@[simp] theorem Dev.wakeBy_memErr (d e : Dev) : (d.wakeBy e).memErr = e.memErr := rfl
@[simp] theorem Dev.wakeBy_cores (d e : Dev) : (d.wakeBy e).cores = e.cores := rfl
@[simp] theorem Dev.wakeBy_caches (d e : Dev) : (d.wakeBy e).caches = e.caches := rfl
@[simp] theorem Dev.wakeBy_carve (d e : Dev) : (d.wakeBy e).carve = e.carve := rfl
@[simp] theorem Dev.wakeBy_locks (d e : Dev) : (d.wakeBy e).locks = e.locks := rfl
@[simp] theorem Dev.wakeBy_romHidden (d e : Dev) : (d.wakeBy e).romHidden = e.romHidden := rfl
@[simp] theorem Dev.wakeBy_lpOrder (d e : Dev) : (d.wakeBy e).lpOrder = e.lpOrder := rfl
@[simp] theorem Dev.wakeBy_asyncL (d e : Dev) : (d.wakeBy e).asyncL = e.asyncL := rfl
@[simp] theorem Dev.wakeBy_irqNew (d e : Dev) : (d.wakeBy e).irqNew = e.irqNew := rfl
@[simp] theorem Dev.wakeBy_irqPulse (d e : Dev) : (d.wakeBy e).irqPulse = e.irqPulse := rfl
@[simp] theorem Dev.wakeBy_chRaw (d e : Dev) : (d.wakeBy e).chRaw = e.chRaw := rfl
@[simp] theorem Dev.wakeBy_chPuls (d e : Dev) : (d.wakeBy e).chPuls = e.chPuls := rfl
@[simp] theorem Dev.wakeBy_hdlPend (d e : Dev) : (d.wakeBy e).hdlPend = e.hdlPend := rfl
@[simp] theorem Dev.wakeBy_hdlLast (d e : Dev) : (d.wakeBy e).hdlLast = e.hdlLast := rfl
@[simp] theorem Dev.wakeBy_hdlDone (d e : Dev) : (d.wakeBy e).hdlDone = e.hdlDone := rfl
@[simp] theorem Dev.wakeBy_chRose (d e : Dev) : (d.wakeBy e).chRose = e.chRose := rfl
@[simp] theorem Dev.wakeBy_gateOn (d e : Dev) : (d.wakeBy e).gateOn = e.gateOn := rfl
@[simp] theorem Dev.wakeBy_grpOn (d e : Dev) : (d.wakeBy e).grpOn = e.grpOn := rfl
@[simp] theorem Dev.wakeBy_grpOff (d e : Dev) : (d.wakeBy e).grpOff = e.grpOff := rfl
@[simp] theorem Dev.wakeBy_erlCyc (d e : Dev) : (d.wakeBy e).erlCyc = e.erlCyc := rfl
@[simp] theorem Dev.wakeBy_fltCyc (d e : Dev) : (d.wakeBy e).fltCyc = e.fltCyc := rfl
@[simp] theorem Dev.wakeBy_cellCnt (d e : Dev) : (d.wakeBy e).cellCnt = e.cellCnt := rfl
@[simp] theorem Dev.wakeBy_lutSwap (d e : Dev) : (d.wakeBy e).lutSwap = e.lutSwap := rfl
@[simp] theorem Dev.wakeBy_holdDue (d e : Dev) : (d.wakeBy e).holdDue = e.holdDue := rfl
@[simp] theorem Dev.wakeBy_parked (d e : Dev) : (d.wakeBy e).parked = e.parked := rfl
@[simp] theorem Dev.wakeBy_waiting (d e : Dev) : (d.wakeBy e).waiting = e.waiting := rfl
@[simp] theorem Dev.wakeBy_erlFifo (d e : Dev) : (d.wakeBy e).erlFifo = e.erlFifo := rfl
@[simp] theorem Dev.wakeBy_erlNext (d e : Dev) : (d.wakeBy e).erlNext = e.erlNext := rfl
@[simp] theorem Dev.wakeBy_tmr (d e : Dev) : (d.wakeBy e).tmr = e.tmr := rfl
@[simp] theorem Dev.wakeBy_aont (d e : Dev) : (d.wakeBy e).aont = e.aont := rfl
@[simp] theorem Dev.wakeBy_clk (d e : Dev) : (d.wakeBy e).clk = e.clk := rfl
@[simp] theorem Dev.wakeBy_sow (d e : Dev) : (d.wakeBy e).sow = e.sow := rfl
@[simp] theorem Dev.wakeBy_rdata (d e : Dev) : (d.wakeBy e).rdata = e.rdata := rfl
@[simp] theorem Dev.wakeBy_ccaHeld (d e : Dev) : (d.wakeBy e).ccaHeld = e.ccaHeld := rfl
@[simp] theorem Dev.wakeBy_padHold (d e : Dev) : (d.wakeBy e).padHold = e.padHold := rfl
@[simp] theorem Dev.wakeBy_txs (d e : Dev) : (d.wakeBy e).txs = e.txs := rfl
@[simp] theorem Dev.wakeBy_gates (d e : Dev) : (d.wakeBy e).gates = e.gates := rfl
@[simp] theorem Dev.wakeBy_profStaged (d e : Dev) : (d.wakeBy e).profStaged = e.profStaged := rfl
@[simp] theorem Dev.wakeBy_rx (d e : Dev) : (d.wakeBy e).rx = e.rx := rfl
@[simp] theorem Dev.wakeBy_antSel (d e : Dev) : (d.wakeBy e).antSel = e.antSel := rfl
@[simp] theorem Dev.wakeBy_calQ (d e : Dev) : (d.wakeBy e).calQ = e.calQ := rfl
@[simp] theorem Dev.wakeBy_calMeas (d e : Dev) : (d.wakeBy e).calMeas = e.calMeas := rfl
@[simp] theorem Dev.wakeBy_detRun (d e : Dev) : (d.wakeBy e).detRun = e.detRun := rfl
@[simp] theorem Dev.wakeBy_rcv (d e : Dev) : (d.wakeBy e).rcv = e.rcv := rfl
@[simp] theorem Dev.wakeBy_decQ (d e : Dev) : (d.wakeBy e).decQ = e.decQ := rfl
@[simp] theorem Dev.wakeBy_decBusy (d e : Dev) : (d.wakeBy e).decBusy = e.decBusy := rfl
@[simp] theorem Dev.wakeBy_decFreed (d e : Dev) : (d.wakeBy e).decFreed = e.decFreed := rfl
@[simp] theorem Dev.wakeBy_decLast (d e : Dev) : (d.wakeBy e).decLast = e.decLast := rfl
@[simp] theorem Dev.wakeBy_slots (d e : Dev) : (d.wakeBy e).slots = e.slots := rfl
@[simp] theorem Dev.wakeBy_slotSeq (d e : Dev) : (d.wakeBy e).slotSeq = e.slotSeq := rfl
@[simp] theorem Dev.wakeBy_ring (d e : Dev) : (d.wakeBy e).ring = e.ring := rfl
@[simp] theorem Dev.wakeBy_calSeen (d e : Dev) : (d.wakeBy e).calSeen = e.calSeen := rfl
@[simp] theorem Dev.wakeBy_fuse (d e : Dev) : (d.wakeBy e).fuse = e.fuse := rfl
@[simp] theorem Dev.wakeBy_fuseRead (d e : Dev) : (d.wakeBy e).fuseRead = e.fuseRead := rfl
@[simp] theorem Dev.wakeBy_fuseBad (d e : Dev) : (d.wakeBy e).fuseBad = e.fuseBad := rfl
@[simp] theorem Dev.wakeBy_blown (d e : Dev) : (d.wakeBy e).blown = e.blown := rfl
@[simp] theorem Dev.wakeBy_kslots (d e : Dev) : (d.wakeBy e).kslots = e.kslots := rfl
@[simp] theorem Dev.wakeBy_keyPend (d e : Dev) : (d.wakeBy e).keyPend = e.keyPend := rfl
@[simp] theorem Dev.wakeBy_k0Wait (d e : Dev) : (d.wakeBy e).k0Wait = e.k0Wait := rfl
@[simp] theorem Dev.wakeBy_bootKeyed (d e : Dev) : (d.wakeBy e).bootKeyed = e.bootKeyed := rfl
@[simp] theorem Dev.wakeBy_ctrLeft (d e : Dev) : (d.wakeBy e).ctrLeft = e.ctrLeft := rfl
@[simp] theorem Dev.wakeBy_ctrBad (d e : Dev) : (d.wakeBy e).ctrBad = e.ctrBad := rfl
@[simp] theorem Dev.wakeBy_flWeak (d e : Dev) : (d.wakeBy e).flWeak = e.flWeak := rfl
@[simp] theorem Dev.wakeBy_aesJobs (d e : Dev) : (d.wakeBy e).aesJobs = e.aesJobs := rfl
@[simp] theorem Dev.wakeBy_aesSeq (d e : Dev) : (d.wakeBy e).aesSeq = e.aesSeq := rfl
@[simp] theorem Dev.wakeBy_aesLast (d e : Dev) : (d.wakeBy e).aesLast = e.aesLast := rfl
@[simp] theorem Dev.wakeBy_shaCtx (d e : Dev) : (d.wakeBy e).shaCtx = e.shaCtx := rfl
@[simp] theorem Dev.wakeBy_cht (d e : Dev) : (d.wakeBy e).cht = e.cht := rfl
@[simp] theorem Dev.wakeBy_descs (d e : Dev) : (d.wakeBy e).descs = e.descs := rfl
@[simp] theorem Dev.wakeBy_descSeq (d e : Dev) : (d.wakeBy e).descSeq = e.descSeq := rfl
@[simp] theorem Dev.wakeBy_comps (d e : Dev) : (d.wakeBy e).comps = e.comps := rfl
@[simp] theorem Dev.wakeBy_vq (d e : Dev) : (d.wakeBy e).vq = e.vq := rfl
@[simp] theorem Dev.wakeBy_qpool (d e : Dev) : (d.wakeBy e).qpool = e.qpool := rfl
@[simp] theorem Dev.wakeBy_queues (d e : Dev) : (d.wakeBy e).queues = e.queues := rfl
@[simp] theorem Dev.wakeBy_deferred (d e : Dev) : (d.wakeBy e).deferred = e.deferred := rfl
@[simp] theorem Dev.wakeBy_bound (d e : Dev) : (d.wakeBy e).bound = e.bound := rfl
@[simp] theorem Dev.wakeBy_awaits (d e : Dev) : (d.wakeBy e).awaits = e.awaits := rfl
@[simp] theorem Dev.wakeBy_frames (d e : Dev) : (d.wakeBy e).frames = e.frames := rfl
@[simp] theorem Dev.wakeBy_lateU (d e : Dev) : (d.wakeBy e).lateU = e.lateU := rfl
@[simp] theorem Dev.wakeBy_winSeen (d e : Dev) : (d.wakeBy e).winSeen = e.winSeen := rfl
@[simp] theorem Dev.wakeBy_winWait (d e : Dev) : (d.wakeBy e).winWait = e.winWait := rfl
@[simp] theorem Dev.wakeBy_lostEvt (d e : Dev) : (d.wakeBy e).lostEvt = e.lostEvt := rfl
@[simp] theorem Dev.wakeBy_linkSeq (d e : Dev) : (d.wakeBy e).linkSeq = e.linkSeq := rfl
@[simp] theorem Dev.wakeBy_relayHeld (d e : Dev) : (d.wakeBy e).relayHeld = e.relayHeld := rfl
@[simp] theorem Dev.wakeBy_cache (d e : Dev) : (d.wakeBy e).cache = e.cache := rfl
@[simp] theorem Dev.wakeBy_fld (d e : Dev) : (d.wakeBy e).fld = e.fld := rfl
@[simp] theorem Dev.wakeBy_wins (d e : Dev) : (d.wakeBy e).wins = e.wins := rfl
@[simp] theorem Dev.wakeBy_banks (d e : Dev) : (d.wakeBy e).banks = e.banks := rfl
@[simp] theorem Dev.wakeBy_flErr (d e : Dev) : (d.wakeBy e).flErr = e.flErr := rfl
@[simp] theorem Dev.wakeBy_flFlag (d e : Dev) : (d.wakeBy e).flFlag = e.flFlag := rfl
@[simp] theorem Dev.wakeBy_flRow (d e : Dev) : (d.wakeBy e).flRow = e.flRow := rfl
@[simp] theorem Dev.wakeBy_lgr (d e : Dev) : (d.wakeBy e).lgr = e.lgr := rfl
@[simp] theorem Dev.wakeBy_dir (d e : Dev) : (d.wakeBy e).dir = e.dir := rfl
@[simp] theorem Dev.wakeBy_svc (d e : Dev) : (d.wakeBy e).svc = e.svc := rfl
@[simp] theorem Dev.wakeBy_cal (d e : Dev) : (d.wakeBy e).cal = e.cal := rfl
@[simp] theorem Dev.wakeBy_nfc (d e : Dev) : (d.wakeBy e).nfc = e.nfc := rfl
@[simp] theorem Dev.wakeBy_i2c (d e : Dev) : (d.wakeBy e).i2c = e.i2c := rfl
@[simp] theorem Dev.wakeBy_spi (d e : Dev) : (d.wakeBy e).spi = e.spi := rfl
@[simp] theorem Dev.wakeBy_uart (d e : Dev) : (d.wakeBy e).uart = e.uart := rfl
@[simp] theorem Dev.wakeBy_host (d e : Dev) : (d.wakeBy e).host = e.host := rfl
@[simp] theorem Dev.wakeBy_freeCtr (d e : Dev) : (d.wakeBy e).freeCtr = e.freeCtr := rfl
@[simp] theorem Dev.wakeBy_pwr_phase (d e : Dev) : (d.wakeBy e).pwr.phase = e.pwr.phase := rfl
@[simp] theorem Dev.wakeBy_pwr_pins (d e : Dev) : (d.wakeBy e).pwr.pins = e.pwr.pins := rfl
@[simp] theorem Dev.wakeBy_pwr_femDriven (d e : Dev) : (d.wakeBy e).pwr.femDriven = e.pwr.femDriven := rfl
@[simp] theorem Dev.wakeBy_pwr_brownOut (d e : Dev) : (d.wakeBy e).pwr.brownOut = e.pwr.brownOut := rfl
@[simp] theorem Dev.wakeBy_pwr_thermal (d e : Dev) : (d.wakeBy e).pwr.thermal = e.pwr.thermal := rfl
@[simp] theorem Dev.wakeBy_pwr_pinLow (d e : Dev) : (d.wakeBy e).pwr.pinLow = e.pwr.pinLow := rfl
@[simp] theorem Dev.wakeBy_pwr_vioB (d e : Dev) : (d.wakeBy e).pwr.vioB = e.pwr.vioB := rfl
@[simp] theorem Dev.wakeBy_pwr_rfIso (d e : Dev) : (d.wakeBy e).pwr.rfIso = e.pwr.rfIso := rfl
@[simp] theorem Dev.wakeBy_pwr_flIso (d e : Dev) : (d.wakeBy e).pwr.flIso = e.pwr.flIso := rfl
@[simp] theorem Dev.wakeBy_pwr_rfFail (d e : Dev) : (d.wakeBy e).pwr.rfFail = e.pwr.rfFail := rfl
@[simp] theorem Dev.wakeBy_pwr_flFail (d e : Dev) : (d.wakeBy e).pwr.flFail = e.pwr.flFail := rfl
@[simp] theorem Dev.wakeBy_pwr_rfReset (d e : Dev) : (d.wakeBy e).pwr.rfReset = e.pwr.rfReset := rfl
@[simp] theorem Dev.wakeBy_pwr_flReset (d e : Dev) : (d.wakeBy e).pwr.flReset = e.pwr.flReset := rfl
@[simp] theorem Dev.wakeBy_pwr_resv (d e : Dev) : (d.wakeBy e).pwr.resv = e.pwr.resv := rfl
@[simp] theorem Dev.wakeBy_pwr_mon (d e : Dev) : (d.wakeBy e).pwr.mon = e.pwr.mon := rfl
@[simp] theorem Dev.wakeBy_pwr_fields (d e : Dev) : (d.wakeBy e).pwr.fields = e.pwr.fields := rfl
@[simp] theorem Dev.wakeBy_pwr_entry (d e : Dev) : (d.wakeBy e).pwr.entry = e.pwr.entry := rfl
@[simp] theorem Dev.wakeBy_pwr_waking (d e : Dev) : (d.wakeBy e).pwr.waking = e.pwr.waking := rfl
@[simp] theorem Dev.wakeBy_pwr_off (d e : Dev) : (d.wakeBy e).pwr.off = e.pwr.off := rfl
@[simp] theorem Dev.wakeBy_pwr_padHeld (d e : Dev) : (d.wakeBy e).pwr.padHeld = e.pwr.padHeld := rfl
@[simp] theorem Dev.wakeBy_pwr_rstCyc (d e : Dev) : (d.wakeBy e).pwr.rstCyc = e.pwr.rstCyc := rfl
@[simp] theorem Dev.wakeBy_pwr_rfStale (d e : Dev) : (d.wakeBy e).pwr.rfStale = e.pwr.rfStale := rfl
@[simp] theorem Dev.wakeBy_pwr_lvlRun (d e : Dev) : (d.wakeBy e).pwr.lvlRun = e.pwr.lvlRun := rfl
@[simp] theorem Dev.wakeBy_pwr_winAt (d e : Dev) : (d.wakeBy e).pwr.winAt = e.pwr.winAt := rfl
@[simp] theorem Dev.wakeBy_pwr_heard (d e : Dev) : (d.wakeBy e).pwr.heard = e.pwr.heard := rfl
@[simp] theorem Dev.wakeBy_pwr_extRet (d e : Dev) : (d.wakeBy e).pwr.extRet = e.pwr.extRet := rfl
@[simp] theorem Dev.wakeBy_pwr_extDone (d e : Dev) : (d.wakeBy e).pwr.extDone = e.pwr.extDone := rfl

end Sys2Proof.Machine
end

