-- ==== Sys2Proof/Laws/Regs.lean ====
section
/-! SUPPORT. What the named operations over registers, cores and memory do: a read after a write, and everything else unchanged. -/

namespace Sys2Proof.Machine

/-! ### Registers -/

@[simp] theorem Dev.reg_setReg_same (d : Dev) (a : Nat) (v : Word) : (d.setReg a v).reg a = v := by
  simp [Dev.reg, Dev.setReg, sget_sset]

theorem Dev.reg_setReg_other (d : Dev) (a b : Nat) (v : Word) (h : b ≠ a) : (d.setReg a v).reg b = d.reg b := by
  simp [Dev.reg, Dev.setReg, sget_sset_other _ _ _ _ _ _ h]

/-- A register after a register write. -/
theorem Dev.reg_setReg (d : Dev) (a b : Nat) (v : Word) : (d.setReg a v).reg b = if b = a then v else d.reg b := by
  by_cases h : b = a
  · subst h; simp
  · simp [h, Dev.reg_setReg_other]

@[simp] theorem Dev.reg_put_same (d : Dev) (a : Nat) (f : Fld) (v : Nat) : (d.put a f v).reg a = setF (d.reg a) f v := by
  simp [Dev.put]

theorem Dev.reg_put_other (d : Dev) (a b : Nat) (f : Fld) (v : Nat) (h : b ≠ a) : (d.put a f v).reg b = d.reg b :=
  Dev.reg_setReg_other d a b _ h

@[simp] theorem Dev.reg_resetReg_same (d : Dev) (a : Nat) : (d.resetReg a).reg a = regReset a := by simp [Dev.resetReg]

theorem Dev.reg_resetReg_other (d : Dev) (a b : Nat) (h : b ≠ a) : (d.resetReg a).reg b = d.reg b := Dev.reg_setReg_other d a b _ h

/-- A field after a write to that field. -/
theorem Dev.get_put_same (d : Dev) (a : Nat) (f : Fld) (v : Nat) (h2 : f.hi < 32) (hl : f.lo ≤ f.hi) :
    (d.put a f v).get a f = v % 2 ^ f.width := by
  simp [Dev.get, getF_setF_same _ f v h2 hl]

/-- A field of another register. -/
theorem Dev.get_put_other (d : Dev) (a b : Nat) (f g : Fld) (v : Nat) (h : b ≠ a) : (d.put a f v).get b g = d.get b g := by
  simp [Dev.get, Dev.reg_put_other d a b f v h]

/-- Another field of the same register. -/
theorem Dev.get_put_field (d : Dev) (a : Nat) (f g : Fld) (v : Nat) (h2 : f.hi < 32) (hl : f.lo ≤ f.hi)
    (hd : g.hi < f.lo ∨ f.hi < g.lo) : (d.put a f v).get a g = d.get a g := by
  simp [Dev.get, getF_setF_other _ f g v h2 hl hd]

/-- A counter leaves every other register. -/
theorem Dev.reg_count_other (d : Dev) (a b : Nat) (h : b ≠ a) : (d.count a).reg b = d.reg b := by
  unfold Dev.count; split <;> exact Dev.reg_put_other _ _ _ _ _ h

/-- A counter below its limit goes one up; at the limit it stays, and SAT is set. -/
theorem Dev.reg_count_same (d : Dev) (a : Nat) :
    (d.count a).reg a = if d.get a ⟨15, 0⟩ = 0xFFFF then setF (d.reg a) ⟨31, 31⟩ 1 else setF (d.reg a) ⟨15, 0⟩ (d.get a ⟨15, 0⟩ + 1) := by
  unfold Dev.count; split <;> simp

/-- Updates of other fields of the device leave the registers. -/
@[simp] theorem Dev.reg_setCore (d : Dev) (c : Fin 7) (x : CoreSt) (a : Nat) : (d.setCore c x).reg a = d.reg a := rfl
@[simp] theorem Dev.reg_setByte (d : Dev) (k : Nat) (b : Byte) (a : Nat) : (d.setByte k b).reg a = d.reg a := rfl
@[simp] theorem Dev.reg_settle (d : Dev) (a : Nat) : d.settle.reg a = d.reg a := rfl
@[simp] theorem Dev.get_settle (d : Dev) (a : Nat) (f : Fld) : d.settle.get a f = d.get a f := rfl

/-! ### Cores -/

@[simp] theorem Dev.core_setCore_same (d : Dev) (c : Fin 7) (x : CoreSt) : (d.setCore c x).core c = x := by
  simp [Dev.core, Dev.setCore]

theorem Dev.core_setCore_other (d : Dev) (c e : Fin 7) (x : CoreSt) (h : e ≠ c) : (d.setCore c x).core e = d.core e := by
  have : c.val ≠ e.val := fun hv => h (Fin.ext hv.symm)
  simp [Dev.core, Dev.setCore, this]

@[simp] theorem Dev.core_setReg (d : Dev) (a : Nat) (v : Word) (c : Fin 7) : (d.setReg a v).core c = d.core c := rfl
@[simp] theorem Dev.core_settle (d : Dev) (c : Fin 7) : d.settle.core c = d.core c := rfl

/-! ### Memory in its canonical form -/

theorem swf_nil {α : Type} [DecidableEq α] (d : Nat → α) : swf d ([] : List (Nat × α)) = true := rfl

/-- Memory built cell by cell is canonical, and reads as the list it is built from. -/
theorem foldr_sset_wf (m : List Host.Cell) :
    swf memDflt (m.foldr (fun (p : Host.Cell) r => sset (memDflt p.1) r p.1 p.2) []) = true := by
  induction m with
  | nil => rfl
  | cons p r ih => exact swf_sset memDflt _ p.1 p.2 ih

theorem foldr_sset_get (m : List Host.Cell) (a : Nat) :
    sget (memDflt a) (m.foldr (fun (p : Host.Cell) r => sset (memDflt p.1) r p.1 p.2) []) a = sget (memDflt a) m a := by
  induction m with
  | nil => rfl
  | cons p r ih =>
    obtain ⟨k, v⟩ := p
    by_cases h : a = k
    · subst h; simp [sget, sget_sset]
    · simp [sget, h, sget_sset_other _ _ _ _ _ _ h, ih]

/-- The canonical form of a memory is canonical. -/
theorem memCanon_wf (m : List Host.Cell) : swf memDflt (memCanon m) = true := by
  unfold memCanon
  split
  · assumption
  · exact foldr_sset_wf m

/-- The canonical form reads as the memory does. -/
theorem memCanon_get (m : List Host.Cell) (a : Nat) : sget (memDflt a) (memCanon m) a = sget (memDflt a) m a := by
  unfold memCanon
  split
  · rfl
  · exact foldr_sset_get m a

/-- A memory that is canonical stays as it is. -/
theorem Dev.settle_of_wf (d : Dev) (h : swf memDflt d.mem = true) : d.settle = d := by
  simp [Dev.settle, memCanon, h]

/-- Settling changes no address's stored form. -/
@[simp] theorem Dev.canon_settle (d : Dev) (a : Nat) : d.settle.canon a = d.canon a := rfl

/-- Settling changes what no address reads as. -/
@[simp] theorem Dev.byte_settle (d : Dev) (a : Nat) : d.settle.byte a = d.byte a := by
  unfold Dev.byte
  split
  · rfl
  · exact memCanon_get d.mem (d.canon a)

/-- A byte's stored form depends on the windows and the active twin alone. -/
@[simp] theorem Dev.canon_setByte (d : Dev) (k a : Nat) (b : Byte) : (d.setByte k b).canon a = d.canon a := rfl

/-- A byte after a byte write, outside the boot ROM. -/
theorem Dev.byte_setByte (d : Dev) (k a : Nat) (b : Byte) (h : ¬ (0x10000000 ≤ a ∧ a < 0x10010000)) :
    (d.setByte k b).byte a = if d.canon a = d.canon k then b else d.byte a := by
  unfold Dev.byte
  rw [if_neg h, if_neg h, Dev.canon_setByte]
  by_cases e : d.canon a = d.canon k
  · simp [e, Dev.setByte, sget_sset]
  · rw [if_neg e]; exact sget_sset_other _ _ _ _ _ _ e

/-- A byte write keeps the canonical form. -/
theorem Dev.setByte_wf (d : Dev) (k : Nat) (b : Byte) (h : swf memDflt d.mem = true) : swf memDflt (d.setByte k b).mem = true :=
  swf_sset memDflt d.mem (d.canon k) b h

/-- Check bits are no memory. -/
@[simp] theorem Dev.eccClear_mem (d : Dev) (a n : Nat) : (d.eccClear a n).mem = d.mem := by unfold Dev.eccClear; split <;> rfl

/-- A run of byte writes keeps the canonical form. -/
theorem Dev.putBytes_wf (d : Dev) (k : Nat) (l : List Byte) (h : swf memDflt d.mem = true) :
    swf memDflt (d.putBytes k l).mem = true := by
  induction l generalizing d k with
  | nil => exact h
  | cons b r ih => exact ih (d.setByte k b) (k + 1) (d.setByte_wf k b h)

theorem Dev.setBytes_wf (d : Dev) (k : Nat) (l : List Byte) (h : swf memDflt d.mem = true) :
    swf memDflt (d.setBytes k l).mem = true := by
  simpa [Dev.setBytes] using d.putBytes_wf k l h

theorem srising_filter {α : Type} (m : List (Nat × α)) (p : Nat × α → Bool) (lo : Nat) (h : srising lo m = true) :
    srising lo (m.filter p) = true := by
  induction m generalizing lo with
  | nil => rfl
  | cons q r ih =>
    obtain ⟨k, v⟩ := q
    simp only [srising, Bool.and_eq_true, decide_eq_true_eq] at h
    by_cases hp : p (k, v) = true
    · simp only [List.filter_cons, hp, if_true, srising, Bool.and_eq_true, decide_eq_true_eq]
      exact ⟨h.1, ih _ h.2⟩
    · simp only [List.filter_cons, hp]
      exact ih lo (srising_mono r (k + 1) lo (by omega) h.2)

/-- Dropping cells keeps the canonical form: an erase, or RAM that loses its content. -/
theorem swf_filter (m : List Host.Cell) (p : Host.Cell → Bool) (h : swf memDflt m = true) : swf memDflt (m.filter p) = true := by
  simp only [swf, Bool.and_eq_true, List.all_eq_true] at h ⊢
  exact ⟨srising_filter m p 0 h.1, fun q hq => h.2 q (List.mem_filter.mp hq).1⟩

/-- An erase keeps the canonical form. -/
theorem Dev.eraseSector_wf (d : Dev) (a : Nat) (h : swf memDflt d.mem = true) : swf memDflt (d.eraseSector a).mem = true :=
  swf_filter d.mem _ h

/-- A flash word programmed keeps the canonical form. -/
theorem Dev.progWord_wf (d : Dev) (a : Nat) (b : List Byte) (ok : Bool) (h : swf memDflt d.mem = true) :
    swf memDflt (d.progWord a b ok).mem = true := d.setBytes_wf a b h

end Sys2Proof.Machine
end

