-- ==== Sys2Proof/Laws/Steps.lean ====
section
/-! SUPPORT. How a command's answer follows from its meaning: what a meaning over the device gives, and an access that the bus lets
through or turns away. -/

namespace Sys2Proof.Machine

/-- A meaning over the device completes with what it makes of it. -/
theorem gives_of_on {i : Instr} {s : State} {f : Dev → Dev} {e : Dev} (h : exec i s = s.on f) (he : f s.dev = e) : Gives i s e :=
  fun _ => by subst he; exact h

/-- A meaning that needs the root clock completes with what it makes of the device. -/
theorem gives_of_run {i : Instr} {s : State} {f : Dev → Dev} {e : Dev} (hr : rootFree i = false) (h : exec i s = s.run f) (he : f s.dev = e) :
    Gives i s e := by
  subst he
  intro hc
  have hs : s.dev.clk.stopped = false := hc.resolve_left (by simp [hr])
  rw [h]; simp [State.run, State.on, hs]

/-- A request completes with what its meaning makes of the device, where the block does not rest. -/
theorem gives_of_ask {i j : Instr} {s : State} {a : Nat} {f : Dev → Dev} {e : Dev} (hr : rootFree i = false) (ha : s.dev.restsAt a = false)
    (h : exec i s = s.ask j a f) (he : f s.dev = e) : Gives i s e :=
  gives_of_run hr h (by simpa [ha] using he)

/-- What a command gives holds after it. -/
theorem after_of_gives {i : Instr} {s : State} {d : Dev} {P : Dev → Prop} (h : Gives i s d) (hp : P (s.dev.wakeBy d).settle) :
    After i s P := fun hc => ⟨_, h hc, rfl, hp⟩

/-- A device has received nothing that it did not hold. -/
@[simp] theorem Dev.domainSame_self (d : Dev) (i : Nat) : d.domainSame d i = true := by
  unfold Dev.domainSame; simp

/-- Where nothing changes, no domain wakes. -/
@[simp] theorem Dev.wakeBy_self (d : Dev) : d.wakeBy d = d := by
  unfold Dev.wakeBy; rw [List.filter_eq_self.2 (by simp)]

/-- A woken device answers for a register, a core and a byte as the device that woke it. -/
@[simp] theorem Dev.wakeBy_reg (d e : Dev) (a : Nat) : (d.wakeBy e).reg a = e.reg a := rfl
@[simp] theorem Dev.wakeBy_get (d e : Dev) (a : Nat) (f : Fld) : (d.wakeBy e).get a f = e.get a f := rfl
@[simp] theorem Dev.wakeBy_flag (d e : Dev) (a : Nat) (f : Fld) : (d.wakeBy e).flag a f = e.flag a f := rfl
@[simp] theorem Dev.wakeBy_core (d e : Dev) (c : Fin 7) : (d.wakeBy e).core c = e.core c := rfl
@[simp] theorem Dev.wakeBy_byte (d e : Dev) (a : Nat) : (d.wakeBy e).byte a = e.byte a := rfl
@[simp] theorem Dev.wakeBy_cell (d e : Dev) (a : Nat) : (d.wakeBy e).cell a = e.cell a := rfl

/-- An access that the bus lets through reaches its register. -/
theorem byCore_open {d : Dev} {q : List Instr} {c : Fin 7} {a : Nat} {w : Bool} (h : BusOpen ⟨d, q⟩ c a w) (f : Dev → Dev) :
    d.byCore c a w f = f d := by
  obtain ⟨h1, h2, -, h4⟩ := h
  simp only at h1 h2 h4
  simp [Dev.byCore, h1, h2, h4]

/-- A write that the bus turns away is a BUS exception of the core and nothing else. -/
theorem byCore_fault {d : Dev} {c : Fin 7} {a k : Nat} (hc : d.coreActs c = true)
    (h : d.periphCode c a (decide (getF (d.core c).fl flU = 1)) true = some k) (f : Dev → Dev) :
    d.byCore c a true f = d.enter c (busFault d c a k true) := by
  simp [Dev.byCore, hc, h, busFault]

/-- A write that a core makes, where its block does not rest, completes with what the register makes of the device. -/
theorem gives_of_askCore {i j : Instr} {d : Dev} {q : List Instr} {c : Fin 7} {a : Nat} {f : Dev → Dev} {e : Dev} (hr : rootFree i = false)
    (ho : BusOpen ⟨d, q⟩ c a true) (h : exec i ⟨d, q⟩ = State.ask ⟨d, q⟩ j a (fun d => d.byCore c a true f)) (he : f d = e) : Gives i ⟨d, q⟩ e :=
  gives_of_ask hr (ho.2.2.1 rfl) h ((byCore_open ho f).trans he)

/-- An access that a core makes completes with what the register makes of the device. -/
theorem gives_of_runCore {i : Instr} {d : Dev} {q : List Instr} {c : Fin 7} {a : Nat} {w : Bool} {f : Dev → Dev} {e : Dev} (hr : rootFree i = false)
    (ho : BusOpen ⟨d, q⟩ c a w) (h : exec i ⟨d, q⟩ = State.run ⟨d, q⟩ (fun d => d.byCore c a w f)) (he : f d = e) : Gives i ⟨d, q⟩ e :=
  gives_of_run hr h ((byCore_open ho f).trans he)

/-- A core that cannot act makes no access. -/
theorem byCore_idle {d : Dev} {c : Fin 7} {a : Nat} {w : Bool} (hc : d.coreActs c = false) (f : Dev → Dev) : d.byCore c a w f = d := by
  simp [Dev.byCore, hc]

/-- A write that its register does not refuse. -/
theorem byCoreDeny_open {d : Dev} {q : List Instr} {c : Fin 7} {a : Nat} {w : Bool} {deny : Bool} (hd : deny = false) (h : BusOpen ⟨d, q⟩ c a w)
    (f : Dev → Dev) : d.byCoreDeny c a w deny f = f d := by
  simp [Dev.byCoreDeny, hd, byCore_open h]

end Sys2Proof.Machine
end

