-- ==== Sys2Proof/Laws/Tables.lean ====
section
/-! SUPPORT. The tables of the device: what a read gives after a write. -/

namespace Sys2Proof.Machine

@[simp] theorem Dev.sha_setSha (d : Dev) (n m : Nat) (x : ShaCtx) : (d.setSha n x).sha m = if m = n then x else d.sha m := sget_sset _ _ _ _ _
@[simp] theorem Dev.lock_setLock (d : Dev) (n m : Nat) (x : Lock) : (d.setLock n x).lock m = if m = n then x else d.lock m := sget_sset _ _ _ _ _
@[simp] theorem Dev.winOf_setWin (d : Dev) (n m : Nat) (x : Win) : (d.setWin n x).winOf m = if m = n then x else d.winOf m := sget_sset _ _ _ _ _
@[simp] theorem Dev.kslot_setKslot (d : Dev) (n m : Nat) (x : KSlot) : (d.setKslot n x).kslot m = if m = n then x else d.kslot m := sget_sset _ _ _ _ _
@[simp] theorem Dev.bankOfs_setBank (d : Dev) (n m : Nat) (x : Bank) : (d.setBank n x).bankOfs m = if m = n then x else d.bankOfs m := sget_sset _ _ _ _ _
@[simp] theorem Dev.rxOf_setRx (d : Dev) (n m : Nat) (x : RxSt) : (d.setRx n x).rxOf m = if m = n then x else d.rxOf m := sget_sset _ _ _ _ _
@[simp] theorem Dev.rcvOf_setRcv (d : Dev) (n m : Nat) (x : Rcv) : (d.setRcv n x).rcvOf m = if m = n then x else d.rcvOf m := sget_sset _ _ _ _ _
@[simp] theorem Dev.slotOf_setSlot (d : Dev) (n m : Nat) (x : Slot) : (d.setSlot n x).slotOf m = if m = n then x else d.slotOf m := sget_sset _ _ _ _ _
@[simp] theorem Dev.txOf_setTx (d : Dev) (n m : Nat) (x : Option TxRec) : (d.setTx n x).txOf m = if m = n then x else d.txOf m := sget_sset _ _ _ _ _
@[simp] theorem Dev.gateOf_setGate (d : Dev) (n m : Nat) (x : GateSt) : (d.setGate n x).gateOf m = if m = n then x else d.gateOf m := sget_sset _ _ _ _ _
@[simp] theorem Dev.tmrOf_setTmr (d : Dev) (n m : Nat) (x : TmrSt) : (d.setTmr n x).tmrOf m = if m = n then x else d.tmrOf m := sget_sset _ _ _ _ _
@[simp] theorem Dev.atOf_setAont (d : Dev) (n m : Nat) (x : AtSt) : (d.setAont n x).atOf m = if m = n then x else d.atOf m := sget_sset _ _ _ _ _

/-- A word of the child table; the word's place in an entry is below 8. -/
theorem Dev.chtW_setChtW (d : Dev) (i w j k : Nat) (v : Word) : (d.setChtW i w v).chtW j k = if 8 * j + k = 8 * i + w then v else d.chtW j k :=
  sget_sset _ _ _ _ _

end Sys2Proof.Machine
end

