-- ==== Sys2Proof/Tests/Slice0.lean ====
section
/-! SUPPORT. Tests of the model: commands that are not well formed, worked examples of the manual and of the standards it cites, and for every
statement states and operands that meet its hypotheses. -/

namespace Sys2Proof.Tests

open Sys2Proof Sys2Proof.Machine

set_option Elab.async false
set_option maxRecDepth 100000

/-! ### States that the tests start from -/

/-- A device that runs: clocks up, pins sown, every core in RUN, the boot ROM hidden. -/
def up : Dev :=
  { Dev.reset.setReg SYS_CORESTAT 0x01111111 with
    pwr := { PowerSt.init with phase := .running, pins := .sown, femDriven := true, brownOut := false }
    clk := { ClockSt.init with rootUp := true }
    romHidden := true, ctrLeft := [] }

/-- Some fields of registers set. -/
def fields (l : List (Nat × Fld × Nat)) (d : Dev) : Dev := l.foldl (fun d p => d.put p.1 p.2.1 p.2.2) d

/-- A section of the plan in force. -/
def planned (typ inst : Nat) (body : List Byte) (d : Dev) : Dev := { d with sow := { d.sow with force := d.sow.force ++ [⟨typ, inst, body⟩] } }

/-- Core `c` changed. -/
def cored (c : Fin 7) (f : CoreSt → CoreSt) (d : Dev) : Dev := d.setCore c (f (d.core c))

/-- Bytes stored. -/
def holding (a : Nat) (b : List Byte) (d : Dev) : Dev := d.setBytes a b

/-- The command completes with a device of which `p` holds. -/
def ends (i : Instr) (d : Dev) (p : Dev → Bool) : Bool :=
  match exec i ⟨d, []⟩ with
  | .next t => p t.dev
  | _ => false

/-- A device in which a block has agreed to IDLE. -/
def resting (b : Nat) : Dev := { up with pwr := { up.pwr with entry := some ⟨1, [b], false⟩ } }

def unit (u : Nat) (r : Rcv) (d : Dev) : Dev := d.setRcv u r

/-- A descriptor of chain 1. -/
def desc (cls opts : Byte) : Desc := ⟨0, .firmware, [1, cls, 0, 0, 0, 0, 0, 0, 0, opts] ++ List.replicate 22 0, [], 0, 0, none⟩

/-- A transmission as it was armed. -/
def txRec : TxRec :=
  { req := .direct, cls := 4, ent := 255, khz := 868300, bHz := 125000, pwr := 63, start := 100, toa := 1000, sub := 0, bucket := 0, onUs := 1004, dwell := false,
    drv := none, raised := false, noGnt := false, trsw := false, paen := true, ramped := false, code := 0x20, frame := [], slot := none, mode := 0, rate := 0, pre := 8,
    last := 0, sync := 0x34, air := .none }

def lframe (e : Option Nat) : LFrame :=
  { unit := 1025, bytes := List.replicate 32 0, entry := e, words := [], tsync := 0, tEnd := 0, commit := 0, rpt := 0, chain := 0, ch := 0, b := 0, e := 5, sync := 0, recov := false, late := false }

def levels (d : Dev) : Dev := planned tPOWER 0 (List.replicate 64 1) d

/-- Source 1151 pending and enabled for core 6 at priority `p`, edge-sensed. -/
def asking (p : Nat) (d : Dev) : Dev :=
  fields [(IRQ_CFG 1151, IRQ_CFG_PEND, 1), (IRQ_CFG 1151, IRQ_CFG_EN, 1), (IRQ_CFG 1151, IRQ_CFG_PRI, p), (IRQ_CFG 1151, IRQ_CFG_TARGET, 6), (IRQ_CFG 1151, IRQ_CFG_SENSE, 1)] d
def taking : Dev := cored 6 (fun x => { x with fl := setF x.fl flIE 1 }) (asking 5 up)

/-- A HEADLAND body: channel 0 takes a pulse, channel 1 a field line, channel 2 cell 127, channel 3 nothing; they belong to core 4, and channel 1 to all;
a write may fire channels 0 and 1; group 0 holds channel 0, for which the owner test holds. -/
def headland : List Byte :=
  [0, 0, 0, 0] ++ [0x00, 0x02, 4, 3] ++ [0x00, 0x06, 7, 1] ++ [0x7F, 0x0F, 4, 0] ++ List.replicate 1012 0 ++ List.replicate 1024 0 ++ [1] ++ List.replicate 639 0
def routed (d : Dev) : Dev := planned tHEADLAND 0 headland d

def flashed : Dev := fields [(FLC_BOOT, FLC_BOOT_READY, 1)] up

/-- Core 4 at an instruction in SRAM, with general registers as listed. -/
def prog (b : List Byte) (g : List Word) : Dev :=
  holding 0x20000000 b (cored 4 (fun x => { x with pc := 0x20000000, g := Vector.ofFn (fun i : Fin 16 => g.getD i 0) }) up)
def flags (v : Word) (d : Dev) : Dev := cored 4 (fun x => { x with fl := v }) d

/-! ### Commands that are not well formed -/

/-- A bit number that no memory word has, and one given twice (R317). -/
theorem test_wf_bits : (Instr.ld 0 [144]).wf = false ∧ (Instr.st 0 [3, 3]).wf = false ∧ (Instr.ret 6 [143, 0]).wf = true := by decide
/-- A payload too long for the port (R408). -/
theorem test_wf_payload : (Instr.burst 0 (List.replicate 4105 0)).wf = false ∧ (Instr.burst 0 (List.replicate 4104 0)).wf = true := by decide +kernel
/-- A reserved opcode of no length, of ten bytes, with seventeen registers, with an exception that Table 13.7 has not (R285). -/
theorem test_wf_reserved :
    (Instr.reservedOpcode 0 0 [] 0 [] none).wf = false ∧ (Instr.reservedOpcode 0 10 [] 0 [] none).wf = false ∧
    (Instr.reservedOpcode 0 1 (List.replicate 17 0) 0 [] none).wf = false ∧ (Instr.reservedOpcode 0 9 [] 0 [] none).wf = true := by decide
/-- A line outside the address space (Table 14.5). -/
theorem test_wf_line : (Instr.writebackArrival 0 (2 ^ 26)).wf = false ∧ (Instr.writebackArrival 0 (2 ^ 26 - 1)).wf = true := by decide
/-- A frame that is not bad: its CRC holds and its TYPE is one of Table 22.2. -/
theorem test_wf_bad_frame : (Instr.oztisBadFrame false 0x25 0).wf = false ∧ (Instr.oztisBadFrame false 0x26 0).wf = true ∧ (Instr.oztisBadFrame true 0x25 0).wf = true := by decide
/-- A capture page of no block, of 41, and with a block of 31 samples (R82, R162). -/
theorem test_wf_page : 
    (Instr.capturePageFull 0 0 []).wf = false ∧ (Instr.capturePageFull 0 0 (List.replicate 41 (List.replicate 32 (0, 0), false))).wf = false ∧
    (Instr.capturePageFull 0 0 [(List.replicate 31 (0, 0), false)]).wf = false ∧
    (Instr.capturePageFull 0 0 (List.replicate 40 (List.replicate 32 (0, 0), false))).wf = true := by decide +kernel
/-- A bit line that no bank has (R317). -/
theorem test_wf_flash_end : (Instr.flashCommandEnd 0 0 581 0).wf = false ∧ (Instr.flashCommandEnd 0 0 0 581).wf = false ∧ (Instr.flashCommandEnd 0 0 580 580).wf = true := by decide
/-- A contactless request too short to hold a code and a CRC. -/
theorem test_wf_request : (Instr.cardRequest [1, 2, 3]).wf = false ∧ (Instr.inspectRequest [1, 2, 3, 4]).wf = true := by decide
/-- A block that no packet has (R158). -/
theorem test_wf_block : (Instr.blockExpire 0 false 114).wf = false ∧ (Instr.blockExpire 0 false 113).wf = true := by decide
/-- Wake reason 0, which Table 19.4 has not. -/
theorem test_wf_reason : (Instr.wake 0).wf = false ∧ (Instr.wake 11).wf = true := by decide
/-! ### Hypotheses that are met -/

theorem test_witness_StepRunsTheFront :
    ({ up with parked := [Instr.sysrst 0] }.parked = [Instr.sysrst 0] ∧ up.pwr.entry = none ∧ up.pwr.waking = none ∧ up.get PWR_STAT PWR_STAT_STATE = 0) ∧
    (up.parked = [] ∧ ((fields [(PWR_STAT, PWR_STAT_STATE, 1)] up).get PWR_STAT PWR_STAT_STATE) ≠ 0) ∧ up.still ∧ { up with clk := { up.clk with stopped := true } }.clk.stopped = true ∧
    (up.fieldOn 4 = true ∧ up.clk.stopped = false ∧ up.clk.meshHold = false ∧ up.reg FLD_TRIM = 0 ∧ up.clk.slew = 0 ∧ up.clk.frac < 2 ^ 32) ∧
    (up.pwr.phase = .running ∧ up.coreState 3 = 1 ∧ (fields [(PWR_PLEVEL 3, PWR_PLEVEL_CUR, 0)] up).get (PWR_PLEVEL 3) PWR_PLEVEL_CUR = 0) ∧
    (up.setCoreState 6 2).coreState 6 = 2 := by
  delta Dev.still; decide +kernel

theorem test_witness_EveryCommandCompletes : rootFree .fallbackRelock = true ∧ rootFree .listenWindowOpen = false ∧ { up with clk := { up.clk with stopped := true } }.clk.stopped = true := by
  decide +kernel

theorem test_witness_StepKeepsInv : State.Inv ⟨holding 0x20000000 [1, 2, 3] up, [.sysrst 0]⟩ ∧
    (ends (.sysrst 0) (holding 0x20000000 [1, 2, 3] up) fun e => e.byte 0x20000001 == 2) = true := by
  delta State.Inv; decide +kernel

theorem test_witness_AccessTurnedAway :
    accessOf (.sysrst 1) = some (1, SYS_RSTCTL, true) ∧ up.periphCode 1 SYS_RSTCTL (decide (getF (up.core 1).fl flU = 1)) true = some synPRIVILEGE ∧
    accessOf (.suidRead 2) = some (2, NFC_SUID_HI, false) ∧
    (let d := cored 2 (fun x => { x with fl := 0x4000 }) up
     d.periphCode 2 NFC_SUID_HI (decide (getF (d.core 2).fl flU = 1)) false = some synPRIVILEGE) ∧
    (up.coreActs 1 = true ∧ up.coreActs 2 = true ∧ (up.setCoreState 1 2).coreActs 1 = false ∧ up.restsAt SYS_RSTCTL = false) ∧
    (accessOf (.carrierOn 3) = some (3, NFC_CMD, true) ∧ (resting 13).restsAt NFC_CMD = true) ∧
    (accessOf (.tornWrite 3) = some (3, NFC_TORN, true) ∧ up.coreActs 3 = true ∧
      up.periphCode 3 NFC_TORN (decide (getF (up.core 3).fl flU = 1)) true = none ∧ up.restsAt NFC_TORN = false) := by decide +kernel

theorem test_witness_MemoryAndCoresKept :
    mayStore .supplyLowWarning = false ∧ ends .supplyLowWarning up (fun _ => true) = true ∧
    mayTouchCores (.overClear 0) = false ∧ mayStore (.overClear 0) = false ∧ accessOf (.overClear 0) = some (0, PWR_MON, true) ∧ BusOpen ⟨up, []⟩ 0 PWR_MON true := by
  delta BusOpen; decide +kernel

def lined : Dev := fields [(FLN_CFG 7, FLN_CFG_MODE, 5), (FLN_CFG 0, FLN_CFG_MODE, 1), (FLN_CFG 0, FLN_CFG_RETRY, 1)] up

theorem test_witness_SupplyAndFieldLines :
    (lined.lineLive 7 .mid = true ∧ lined.bitAt FLN_FLT FLN_FLT_FLT 7 = false) ∧
    ((lined.putAt FLN_FLT FLN_FLT_FLT 0 true).lineLive 0 .high = true ∧ (lined.putAt FLN_FLT FLN_FLT_FLT 0 true).bitAt FLN_FLT FLN_FLT_FLT 0 = true) ∧
    lined.get (FLN_CFG 0) FLN_CFG_RETRY ≠ 0 ∧ BusOpen ⟨up, []⟩ 1 (FLN_CFG 7) true ∧ BusOpen ⟨up, []⟩ 1 FLN_FLT true ∧
    up.blockOff 1 = true ∧ up.blockOff 0 = false ∧
    (let m := (4000 :: up.pwr.mon).take 100
     up.get PWR_CEIL PWR_CEIL_CEIL * 105 * m.length < 100 * m.foldl (· + ·) 0 ∧ up.flag PWR_MON PWR_MON_OVER = false ∧ up.coreState 6 ≠ 0) ∧
    (BusOpen ⟨up, []⟩ 0 PWR_MON true ∧ up.monOver 0 = false) ∧
    { up with pwr := { up.pwr with mon := [4000] } }.monOver 0 = true := by
  delta BusOpen; decide +kernel

theorem test_witness_SystemResets :
    (up.pwr.phase ≠ .held ∧ up.pwr.rstCyc ≠ some up.clk.cyc) ∧ (Dev.reset.pwr.phase = .held ∧ Dev.reset.pwr.rstCyc ≠ some Dev.reset.clk.cyc) ∧
    (up.systemReset 2).pwr.rstCyc = some (up.systemReset 2).clk.cyc ∧ up.pwr.off = false ∧ { up.pwr with off := true }.off = true ∧ keptAtReset IRQ_LPSET = false ∧ IRQ_LPSET ≠ CLK_STAT ∧ IRQ_LPSET ≠ SYS_RSTREC ∧
    BusOpen ⟨up, []⟩ 6 SYS_RSTCTL true ∧
    up.periphCode 3 SYS_RSTCTL (decide (getF (up.core 3).fl flU = 1)) true = some synPRIVILEGE := by
  delta BusOpen; decide +kernel

def failing : Dev := { up with clk := { up.clk with stopped := true, episode := true } }

theorem test_witness_ClocksAndStartUp :
    (idleDomain 14 = true ∧ testBit ((fields [(CLK_GATEEN 0, ⟨14, 14⟩, 1)] up).reg (CLK_GATEEN (14 / 32))) (14 % 32) = true ∧ up.fieldOn (domainField 14) = true ∧ up.domainBusy 14 = false) ∧
    (fields [(I2C_STAT 1, I2C_STAT_BUSY, 1)] up).domainBusy 104 = true ∧
    idleDomain 13 = false ∧ idleDomain 111 = false ∧
    (up.clk.episode = false ∧ up.clk.rootUp = true ∧ (fields [(CLK_FAILCFG, CLK_FAILCFG_ACTION, 1)] up).get CLK_FAILCFG CLK_FAILCFG_ACTION = 1) ∧
    failing.clk.episode = true ∧ Dev.reset.clk.rootUp = false ∧ failing.clk.restoring = false ∧
    BusOpen ⟨up, []⟩ 0 CLK_FAILCFG true ∧ (fields [(CLK_STAT, CLK_STAT_REFOK, 1)] up).flag CLK_STAT CLK_STAT_REFOK = true ∧
    { up.clk with restoring := true }.restoring = true ∧ (up.pwr.off = false ∧ up.flag CLK_STAT CLK_STAT_LFSUB = false ∧ up.clk.lfPend = false) ∧
    (let d : Dev := { up with clk := { up.clk with lfPend := true } }
     d.clk.lfPend = true ∧ d.clk.rootUp = true ∧ d.clk.stopped = false) ∧
    up.isoOf 1 = false ∧ up.isoOf 2 = false ∧ ((up.setFails 2 7).failsOf 2 = 7 ∧ (up.setFails 2 7).isoOf 2 = false) ∧ (up.setFails 1 6).failsOf 1 = 6 ∧ (up.isolate 1).isoOf 1 = true ∧
    ({ up.pwr with rfStale := true }.rfStale = true ∧ up.pwr.pins = .sown ∧ up.pwr.rfIso = false ∧ up.pwr.rfReset = false ∧ up.clk.stopped = false) ∧
    { up.pwr with phase := .rails }.phase = .rails ∧ { up.pwr with phase := .locked }.phase = .locked := by
  delta BusOpen; decide +kernel

def shown : Dev := { up with romHidden := false }

theorem test_witness_FullPlans :
    (shown.romHidden = false ∧ shown.pwr.phase = .running) ∧ Dev.reset.pwr.phase ≠ .running ∧ up.romHidden = true ∧ up.sow.viobWait = none ∧
    { up.sow with viobWait := some (1, 0x40000) }.viobWait = some (1, 0x40000) ∧ up.sow.bootLeft = [] ∧ { up.sow with bootLeft := [1] }.bootLeft ≠ [] ∧ { up.sow with viobWait := some (2, 0x40000) }.viobWait = some (2, 0x40000) ∧
    ((shown.setSow swINFORCE).romHidden = false ∧ (shown.setSow swINFORCE).sowState = swINFORCE ∧ (shown.setSow swINFORCE).flag SOW_STAT SOW_STAT_RECOVERY = false) ∧
    up.sowState ≠ swINFORCE ∧ (fields [(SOW_STAT, SOW_STAT_RECOVERY, 1)] up).flag SOW_STAT SOW_STAT_RECOVERY = true := by decide +kernel

def planP : Plan := ⟨5, 4, 0, List.replicate 16 1, [], 0x20000000, []⟩
def staged : Dev := ({ up with sow := { up.sow with staged := some planP } }).setSow swSTAGED
def armedPlan : Dev := fields [(SOW_WHEN_LO, ⟨31, 0⟩, 1)] (staged.setSow swARMED)
def drains : Dev := { up with sow := { up.sow with draining := [0, 3], reloading := [1], resuming := [2] } }

theorem test_witness_PartialPlansAndSwaps :
    BusOpen ⟨up, []⟩ 6 SOW_CMD true ∧ up.sowBusy = false ∧ (up.setSow swDRAINING).sowBusy = true ∧ up.sow.staged = none ∧
    (staged.sowBusy = false ∧ staged.sow.staged.isSome = true ∧ staged.sowState ≠ swARMED) ∧
    atOrPast (armedPlan.setSow swSTAGED).meshNow (armedPlan.setSow swSTAGED).sowWhen = false ∧ atOrPast staged.meshNow staged.sowWhen = true ∧
    (let d := { staged.setSow swVERIFYING with sow := { staged.sow with verifying := some (0x20000000, swARMED) } }
     atOrPast d.meshNow d.sowWhen = true ∧ d.sowState ≠ swARMED ∧ d.sow.verifying = some (0x20000000, swARMED)) ∧
    staged.sowState = swSTAGED ∧ armedPlan.sowState = swARMED ∧ (up.sowState ≠ swSTAGED ∧ up.sowState ≠ swARMED) ∧
    { up.sow with verifying := some (0x20000000, swINFORCE) }.verifying = some (0x20000000, swINFORCE) ∧ up.sow.verifying = none ∧
    (atOrPast (staged.setSow swARMED).meshNow (staged.setSow swARMED).sowWhen = true ∧ (staged.setSow swARMED).sowState = swARMED) ∧
    atOrPast armedPlan.meshNow armedPlan.sowWhen = false ∧
    ((0 : Fin 4).val ∈ drains.sow.draining ∧ drains.committedOn 0 = false) ∧ (3 : Fin 4).val ∈ drains.sow.draining ∧
    (unit 5 { Rcv.init with state := rsCOMMITTED, chain := 3 } drains).committedOn 3 = true ∧ (1 : Fin 4).val ∉ drains.sow.draining ∧
    (1 : Fin 4).val ∈ drains.sow.reloading ∧ (2 : Fin 4).val ∈ drains.sow.resuming ∧ (0 : Fin 4).val ∉ drains.sow.reloading ∧ (0 : Fin 4).val ∉ drains.sow.resuming := by
  delta BusOpen; decide +kernel

/-- A partial plan with a COEX section, of SEQ 1 upon 0, under key 0 and signed (the key pair of RFC 6979, A.2.5). -/
def signedPlan : List Byte :=
  leBytes 4 0x5046584B ++ [1, 0, 1, 0] ++ leBytes 4 512 ++ leBytes 4 1 ++ leBytes 4 0 ++ [0x24, 0x10, 0, 0] ++ [1, 0] ++ leBytes 2 500 ++ List.replicate 4 0 ++
  List.replicate 16 0x11 ++ List.replicate 12 0 ++ leBytes 4 0xD65878E8 ++ [0x0B, 0, 1, 0] ++ leBytes 4 80 ++ leBytes 4 68 ++ leBytes 4 0x455B6CDB ++
  [1, 1] ++ leBytes 2 200 ++ (List.replicate 16 ([1, 5, 1, 0] : List Byte)).flatten ++ List.replicate 236 0 ++
  beBytes 32 0x60FED4BA255A9D31C961EB74C6356D68C049B8923B61FA6CE669622E60F29FB6 ++ beBytes 32 0x7903FE1008B8BC99A41AE9E95628BC64F2F1B20C2D7E9F5177A3C294D4462299 ++
  beBytes 32 0xEFD48B2AACB6A8FD1140DD9CD45E81D69D2C877B56AAF991C34D0EA84EAF3716 ++ beBytes 32 0xFFFE8BFE263143162F9F5D6377E5725D8E52FCCE381B11F6C8893BCBC7B76C2D

/-- The head that takes it: KHASH0 is the digest of its key. -/
def keyHead : Dev :=
  { up with fuse := (List.zip (span 16 8) [0x273EC2D6, 0xCB40A844, 0xB6145A3A, 0x7CCE4C55, 0xC4570007, 0xB98C29E3, 0x68DE7735, 0x59E6EC7E]) }

/-- The plan passes every check of Table 4.18; under another KHASH0 it fails the fifth. -/
theorem test_witness_PartialPlansAndSwaps_passes : keyHead.planCheck true signedPlan none = none := by decide +kernel

theorem test_witness_PartialPlansAndSwaps_fails : up.planCheck true signedPlan none = some (5, 0, 0x17) := by decide +kernel

/-- The plan in SRAM, as memory lists it. -/
def planIn : Dev :=
  { keyHead with
    mem := ((List.zip (span 0x20000000 512) signedPlan).filter (fun p => decide (p.2 ≠ 0)))
    sow := { up.sow with verifying := some (0x20000000, swINFORCE) } }

theorem test_witness_PartialPlansAndSwaps_read :
    planIn.sow.verifying = some (0x20000000, swINFORCE) ∧ planIn.planBytes 0x20000000 = signedPlan ∧ swf memDflt planIn.mem = true := by decide +kernel

/-- OVER stands, and every core is at P3. -/
def backstopped : Dev := fields ((PWR_MON, PWR_MON_OVER, 1) :: (List.range 7).flatMap fun k => [(PWR_PLEVEL k, PWR_PLEVEL_LEVEL, 3), (PWR_PLEVEL k, PWR_PLEVEL_CUR, 3)]) up

theorem test_witness_SupplyAndFieldLines_cycle :
    up.pwr.off = false ∧ sget 0 up.fltCyc 7 ≠ up.clk.cyc + 1 ∧
    (let d : Dev := { up with fltCyc := sset 0 up.fltCyc 7 (up.clk.cyc + 1) }
     sget 0 d.fltCyc 7 = d.clk.cyc + 1 ∧ testBit 0x80 7 = true) ∧
    (backstopped.flag PWR_MON PWR_MON_OVER = true ∧ backstopped.coreLive 6 = true ∧
      ∀ k : Fin 7, backstopped.coreLive k = true → backstopped.get (PWR_PLEVEL k) PWR_PLEVEL_LEVEL = 3 ∧ backstopped.get (PWR_PLEVEL k) PWR_PLEVEL_CUR = 3) := by
  decide +kernel

/-- The state INSPECT, below the brown-out threshold. -/
def inInspect : Dev := { fields [(PWR_STAT, PWR_STAT_STATE, 5)] up with pwr := { up.pwr with brownOut := true, phase := .held, pins := .unpowered } }

theorem test_witness_ResetSources_inspect :
    up.inspecting = false ∧ up.pwr.pins ≠ .unpowered ∧ inInspect.inspecting = true ∧ inInspect.pwr.off = false := by decide +kernel

theorem test_witness_Clocks_crystal :
    ((fields [(PWR_STAT, PWR_STAT_STATE, 3)] up).get PWR_STAT PWR_STAT_STATE = 3 ∧ (fields [(PWR_STAT, PWR_STAT_STATE, 3)] up).clk.lfPend = false) ∧
    (up.clk.rootUp = true ∧ up.clk.stopped = false) ∧ (failing.get PWR_STAT PWR_STAT_STATE ≠ 3 ∧ failing.clk.stopped = true) ∧
    (Dev.reset.get PWR_STAT PWR_STAT_STATE ≠ 3 ∧ Dev.reset.clk.rootUp = false) := by decide +kernel

theorem test_witness_FullPlans_ready :
    (let d := fields [(FLC_BOOT, FLC_BOOT_READY, 1)] shown
     d.romHidden = false ∧ d.pwr.phase = .running ∧ d.flag FLC_BOOT FLC_BOOT_READY = true) ∧
    (shown.flag FLC_BOOT FLC_BOOT_READY = false ∧ shown.pwr.flIso = false) ∧ { shown.pwr with flIso := true }.flIso = true ∧
    (let d : Dev := { shown with sow := { shown.sow with bootLeft := [1], viobWait := some (1, 0x40000) } }
     d.sow.bootLeft ≠ [] ∧ d.flag PWR_SUPPLY PWR_SUPPLY_SLOW = false) := by decide +kernel
def fullPage : List (List Cx × Bool) := List.replicate 40 (List.replicate 32 (1, -1), false)
def rxUp : Dev :=
  (planned tDETECT 2 ([1, 0, 0, 0, 0, 0, 0, 0] ++ List.replicate 32 0 ++ [2]) (fields [(RFC_RXCTL 2, RFC_RXCTL_ON, 1), (RFC_RXSTAT 2, RFC_RXSTAT_READY, 1),
    (DET_CTL 2, DET_CTL_EN, 1), (RFC_RXCTL 2, RFC_RXCTL_AGC, 1)] up)).setResv (resvDet 2) 1
def searching : Dev := planned tGRID 2 (leBytes 4 868000000 ++ leBytes 4 0 ++ leBytes 4 200000 ++ [4, 0, 1, 0]) rxUp

/-- A window that shows every bin alike: one sample. -/
def flat : List Cx := (one30, 0) :: List.replicate 31 (0, 0)

theorem test_witness_ChainsAndSearch :
    BusOpen ⟨up, []⟩ 4 (RFC_RXCTL 3) true ∧ (up.rxFields 3 0).flag (RFC_RXCTL 3) RFC_RXCTL_ON = false ∧ (rxUp.rxFields 2 0).flag (RFC_RXCTL 2) RFC_RXCTL_ON = true ∧
    up.searches 0 0 0 0 = false ∧
    (searching.searches 2 0 0 0 = true ∧ searching.blanked 2 = false ∧
      ((windowQ 5 (upChirp 5 3) :: sget [] searching.detRun (runKey 2 0 0 0 false)).take (searching.plan8 tDETECT 2 0x28)).length < searching.plan8 tDETECT 2 0x28) ∧
    (let d := { searching with detRun := sset [] searching.detRun (runKey 2 0 0 0 false) [windowQ 5 (upChirp 5 3)] }
     let run := (windowQ 5 (upChirp 5 3) :: sget [] d.detRun (runKey 2 0 0 0 false)).take (d.plan8 tDETECT 2 0x28)
     d.searches 2 0 0 0 = true ∧ run.length = d.plan8 tDETECT 2 0x28 ∧ (bestBin 32 run).1 = 3 ∧
      reach40 (d.detThr 2 0 0) (bestBin 32 run).2 (65536 * d.plan8 tDETECT 2 0x28) = true) ∧
    (let d := { searching with detRun := sset [] searching.detRun (runKey 2 0 0 0 false) [windowQ 5 flat] }
     let run := (windowQ 5 flat :: sget [] d.detRun (runKey 2 0 0 0 false)).take (d.plan8 tDETECT 2 0x28)
     d.searches 2 0 0 0 = true ∧ run.length = d.plan8 tDETECT 2 0x28 ∧ reach40 (d.detThr 2 0 0) (bestBin 32 run).2 (65536 * d.plan8 tDETECT 2 0x28) = false) := by
  delta BusOpen; decide +kernel

def furrow (st step : Nat) : Dev := unit 1023 { Rcv.init with state := st, step := step, chain := 2, e := 5, pre := 4095 } rxUp
def mcUp : Dev := fields [(MCX_CTL 1, MCX_CTL_EN, 1), (RFC_MCTAP 1, RFC_MCTAP_EN, 1), (RFC_MCTAP 1, RFC_MCTAP_CHAIN, 2), (MCX_CTL 1, MCX_CTL_THR, 1)] rxUp

/-- The training waveform's first two samples, and one sample, which shows no more than noise does. -/
def training : List Cx × List Cx := ([(759250125, 759250125), (795590212, 721080936)], [(759250125, 759250125), (795590212, 721080936)])
def oneSample : List Cx × List Cx := ([(759250125, 759250125)], [(759250125, 759250125)])

theorem test_witness_Demodulators :
    ((furrow rsSYNC 0).rcvOf 1023).state = rsSYNC ∧ ((furrow rsSYNC 0).rcvOf 1023).step = 0 ∧ ((furrow rsSYNC 0).rcvOf 1023).pre < 4096 ∧ (furrow rsSYNC 0).unitBlanked 1023 = false ∧
    (fields [(RFC_RXSTAT 2, RFC_RXSTAT_BLANKED, 1)] (furrow rsSYNC 0)).unitBlanked 1023 = true ∧
    65536 ≤ symQAt 5 (upChirp 5 0) 0 ∧ (symQAt 5 (upChirp 5 3) 0 < 65536 ∧ ((furrow rsSYNC 0).rcvOf 1023).weak = 0) ∧
    (let d := unit 1023 { Rcv.init with state := rsSYNC, chain := 2, e := 5, weak := 1, pre := 4096 } rxUp
     1 ≤ (d.rcvOf 1023).weak ∧ 4096 ≤ (d.rcvOf 1023).pre) ∧
    (let d := fields [(DET_CTL 2, DET_CTL_SWEN, 1), (DET_SYNC 2, ⟨7, 0⟩, 0x34)] (furrow rsSYNC 0)
     (d.syncWords 2).any (fun w => w / 16 == syncNibble 5 (symBin 5 (upChirp 5 7)) 0) = true) ∧
    ((furrow rsSYNC 0).syncWords 2).any (fun w => w / 16 == syncNibble 5 (symBin 5 (upChirp 5 7)) 0) = false ∧
    (let d := fields [(DET_CTL 2, DET_CTL_SWEN, 1), (DET_SYNC 2, ⟨7, 0⟩, 0x34)] (unit 1023 { Rcv.init with state := rsSYNC, chain := 2, e := 5, step := 1, hi := 3 } rxUp)
     (d.syncWords 2).contains (16 * (d.rcvOf 1023).hi + syncNibble 5 (symBin 5 (upChirp 5 9)) 0) = true ∧
     (d.syncWords 2).contains (16 * (d.rcvOf 1023).hi + syncNibble 5 (symBin 5 (upChirp 5 7)) 0) = false) ∧
    ((furrow rsSYNC 1).rcvOf 1023).step ≤ 1 ∧ ((furrow rsSYNC 2).rcvOf 1023).step = 2 ∧
    reach40 ((furrow rsSYNC 2).detThr 2 0 0) (4 * downQ 5 (downChirp 5)) 65536 = true ∧
    (let d := fields [(DET_CTL 2, DET_CTL_THROFS, 63)] (furrow rsSYNC 2)
     reach40 (d.detThr 2 0 0) (4 * downQ 5 flat) 65536 = false) ∧
    ((furrow rsHDR 0).rcvOf 1023).state = rsHDR ∧ ((furrow rsADDR 0).rcvOf 1023).state = rsADDR ∧ ((furrow rsCOMMITTED 0).rcvOf 1023).state = rsCOMMITTED ∧
    (up.rcvOf 0).state ≠ rsSYNC ∧
    (mcUp.flag (MCX_CTL 1) MCX_CTL_EN = true ∧ mcUp.flag (RFC_MCTAP 1) RFC_MCTAP_EN = true ∧ mcUp.rxReady (mcUp.get (RFC_MCTAP 1) RFC_MCTAP_CHAIN) = true ∧
      reach40 (mcUp.get (MCX_CTL 1) MCX_CTL_THR) (trainStat (mcUp.linkM 1) training).1 (2 * (trainStat (mcUp.linkM 1) training).2) = true ∧ (mcUp.rcvOf 1025).state = 0) ∧
    ((unit 1025 { Rcv.init with state := rsHDR } mcUp).rcvOf 1025).state ≠ 0 ∧
    ((unit 1025 { Rcv.init with state := rsSYNC } mcUp).rcvOf 1025).state = rsSYNC ∧ up.flag (MCX_CTL 0) MCX_CTL_EN = false ∧
    reach40 (mcUp.get (MCX_CTL 1) MCX_CTL_THR) (trainStat (mcUp.linkM 1) oneSample).1 (2 * (trainStat (mcUp.linkM 1) oneSample).2) = false ∧ ((unit 1025 { Rcv.init with state := rsADDR } mcUp).rcvOf 1025).state = rsADDR := by
  decide +kernel

def blk : Blk := ⟨1025, true, 0, true, 0⟩
def pooled : Dev := { fields [(DEC_CTL, DEC_CTL_ON, 1)] up with decQ := [blk], decBusy := [(9, some ⟨blk, 8, 4, true, 0, 17⟩), (0, some ⟨blk, 8, 4, false, 0, 17⟩)] }
def hasAddr (info : Nat) : Rcv := { Rcv.init with state := rsADDR, hdr := info }

theorem test_witness_UnitsAndDecoding :
    ((unit 0 { Rcv.init with state := rsRECLAIM } up).rcvOf 0).state = rsRECLAIM ∧ (up.rcvOf 1025).state ≠ rsRECLAIM ∧
    (((unit 3 (hasAddr 0) up).rcvOf 3).state = rsADDR ∧ ((unit 3 (hasAddr 0) up).rcvOf 3).early = false ∧
      (unit 3 (hasAddr 0) up).earlyPass 3 ((unit 3 (hasAddr 0) up).rcvOf 3).chain (((unit 3 (hasAddr 0) up).rcvOf 3).info 3) = true) ∧
    ((unit 3 (hasAddr 0x300) up).earlyPass 3 ((unit 3 (hasAddr 0x300) up).rcvOf 3).chain (((unit 3 (hasAddr 0x300) up).rcvOf 3).info 3) = false) ∧
    (up.rcvOf 3).state ≠ rsADDR ∧
    (let d := unit 3 { hasAddr 0 with early := true, blk0 := some true } up
     d.addrFilter (d.rcvOf 3).syncU ((d.rcvOf 3).info 3) ((d.rcvOf 3).len 3) (d.bytes (decodedAt 3) (min 13 ((d.rcvOf 3).len 3))) ≠ 0) ∧
    BusOpen ⟨up, []⟩ 5 (FUR_CTL 1023) true ∧ ((unit 1023 { Rcv.init with state := rsDONE } up).rcvOf 1023).state = rsDONE ∧ (up.rcvOf 1023).state ≠ rsDONE ∧
    BusOpen ⟨up, []⟩ 5 (MCX_CTL 1) true ∧ pooled.poolOn = true ∧ up.poolOn = false ∧ sget none up.decBusy 0 = none ∧
    (sget none pooled.decBusy 9 = some ⟨blk, 8, 4, true, 0, 17⟩) ∧
    (pooled.decQ.find? (fun b => b.unit == 1025 && b.hdr == true && b.idx == 0) = some blk ∧ (fields [(DEC_WAIT, DEC_WAIT_WAITMAX, 1)] pooled).get DEC_WAIT DEC_WAIT_WAITMAX ≠ 0 ∧
      (fields [(DEC_WAIT, DEC_WAIT_WAITMAX, 0)] pooled).get DEC_WAIT DEC_WAIT_WAITMAX = 0) ∧
    up.decQ.find? (fun b => b.unit == 1025 && b.hdr == true && b.idx == 0) = none ∧ BusOpen ⟨up, []⟩ 0 DEC_CTL true ∧
    up.resvFits resvPool 200 = true ∧ (fields [(PWR_CEIL, PWR_CEIL_CEIL, 499)] up).resvFits resvPool 200 = false := by
  delta BusOpen; decide +kernel

def slotted (n : Nat) (x : Slot) : Dev := up.setSlot n x


theorem test_witness_Unwinding :
    (let d := (slotted 31 { Slot.init with state := 1, pages := [4095], clsA := 1, clsB := 2 })
     let e := slotted 30 { Slot.init with state := 2, pages := [7, 4095], wrote := 1, clsA := 3, clsB := 3 }
     let g := slotted 29 { Slot.init with state := 2, pages := [4095], begun := true, clsA := 3, clsB := 3 }
     let h := slotted 28 { Slot.init with state := 2, pages := [4095], wrote := 1 }
     (d.recording 31 = true ∧ fullPage.length = 40 ∧ (d.slotOf 31).pages.getLast? = some 4095 ∧ (d.slotOf 31).wrote ≠ (d.slotOf 31).pages.length ∧ (d.slotOf 31).begun = false) ∧
     (e.recording 30 = false ∧ (e.slotOf 30).pages.getLast? = some 4095 ∧ (e.slotOf 30).wrote ≠ (e.slotOf 30).pages.length ∧ (e.slotOf 30).begun = false) ∧
     (g.recording 29 = false ∧ (g.slotOf 29).wrote ≠ (g.slotOf 29).pages.length ∧ (g.slotOf 29).begun = true) ∧
     ((h.slotOf 28).pages.getLast? = some 4095 ∧ (h.slotOf 28).wrote = (h.slotOf 28).pages.length)) ∧
    (let d := slotted 31 { Slot.init with state := 1, clsA := 1, clsB := 2 }
     d.recording 31 = true ∧ (d.slotOf 31).pages = []) ∧ up.recording 0 = false ∧
    (let d := slotted 0 { Slot.init with state := 2 }
     (d.slotOf 0).state = 2 ∧ d.subtracting = false ∧ ∀ m : Fin 32, (d.slotOf m).state = 2 → (d.slotOf 0).sub ≤ (d.slotOf m).sub) ∧
    (up.slotOf 0).state ≠ 2 ∧ (up.slotOf 0).state ≠ 3 ∧ ({ Slot.init with state := 2, begun := true }.begun = true ∧ Slot.init.begun = false) ∧ (slotted 1 { Slot.init with state := 2, begun := true }).subtracting = true ∧
    (slotted 1 { Slot.init with state := 3 }).offer 0 0 true = none ∧
    BusOpen ⟨up, []⟩ 0 UNW_ABORT true ∧ BusOpen ⟨up, []⟩ 0 UNW_CTL true ∧ up.flag UNW_CTL UNW_CTL_ON = false ∧ up.resvFits resvUnw 140 = true ∧
    (fields [(PWR_CEIL, PWR_CEIL_CEIL, 439)] up).resvFits resvUnw 140 = false ∧ (fields [(UNW_CTL, UNW_CTL_ON, 1)] up).flag UNW_CTL UNW_CTL_ON = true ∧
    (let d := (planned tSTRIPS 0 ([0, 1, 0, 5] ++ List.replicate 60 0) (slotted 1 { Slot.init with state := 3, clsB := 2 })).setResv (resvStrip 0) 1
     d.offer 0 0 true = some 0 ∧ (d.slotOf 1).state = 3 ∧ (d.slotOf 1).clsB = 2 ∧ { d.slotOf 1 with clsB := 1 }.clsB ≠ 2) := by
  delta BusOpen; decide +kernel

theorem test_witness_RadioFrontEnd :
    (up.rxOf 3).locking = false ∧ ((up.setRx 3 ⟨true, 4, false⟩).rxOf 3).locking = true ∧ up.rxReady 0 = false ∧ rxUp.rxReady 2 = true ∧
    (rxUp.get (RFC_RXCTL 2) RFC_RXCTL_AGC = 1 ∧ rxUp.flag (RFC_RXSTAT 2) RFC_RXSTAT_BLANKED = false ∧ rxUp.get (RFC_RXSTAT 2) RFC_RXSTAT_GAINNOW = 0 ∧
      rxUp.get (RFC_RXSTAT 2) RFC_RXSTAT_GAINNOW < 7 ∧ ((rxUp.setRx 2 ⟨false, 3, false⟩).rxOf 2).blk = false ∧ 3 ≤ ((rxUp.setRx 2 ⟨false, 3, false⟩).rxOf 2).since) ∧
    0 < (fields [(RFC_RXSTAT 2, RFC_RXSTAT_GAINNOW, 1)] rxUp).get (RFC_RXSTAT 2) RFC_RXSTAT_GAINNOW ∧ BusOpen ⟨up, []⟩ 0 (RFC_RXCTL 3) true ∧
    BusOpen ⟨up, []⟩ 0 (RFC_MCTAP 1) true ∧ getF (0 : Word) RFC_MCTAP_BW ≠ 3 ∧ getF (setF 0 RFC_MCTAP_EN 1 : Word) RFC_MCTAP_EN = 1 ∧
    (let v : Word := setF (setF 0 RFC_MCTAP_EN 1) RFC_MCTAP_OFFSET_HZ 0x3FFFFFF
     2 * segHz (getF v RFC_MCTAP_CHAIN) < 2 * (sext 27 (getF v RFC_MCTAP_OFFSET_HZ)).natAbs + mcHz (getF v RFC_MCTAP_BW)) ∧
    (getF (0 : Word) RFC_MCTAP_EN = 0 ∧ up.held 0 = false ∧ (up.setGate 0 { GateSt.init with hold := true, prof := List.replicate 12 0 ++ [1, 0] }).held 0 = true) ∧
    up.bandTx 0 = false ∧ BusOpen ⟨up, []⟩ 0 (SYN_CALF 1 255) true ∧ up.txOf 1 = none ∧ sget none up.calMeas 1 ≠ some 255 ∧
    inBand 0 868000 = true ∧ inBand 0 0 = false ∧ BusOpen ⟨up, []⟩ 0 (RFC_PWRTAB 1 63) true ∧ BusOpen ⟨up, []⟩ 0 RFC_ANT true ∧ up.antFree = true ∧ (fields [(RFC_TXSTAT 1, RFC_TXSTAT_STATE, 2)] up).antFree = false ∧
    ((up.setTx 1 (some txRec)).txOf 1 = some txRec ∧ txRec.ent = (255 : Fin 256).val ∧ txRec.pwr = (63 : Fin 64).val) := by
  delta BusOpen; decide +kernel

/-- A furrow that re-runs slot 1, whose recording is one page. -/
def rerunning (pos : Nat) : Dev :=
  ((unit 1023 { Rcv.init with state := rsSYNC, chain := 2, e := 5, reent := some 1, rpos := pos } searching).setSlot 1
    { Slot.init with state := 4, pages := [0], chain := 2, furR := some 1023 }).pageWrite 1 0 0 0 (fullPage.take 2)

theorem test_witness_ReceivePath_rests :
    (let d : Dev := { rxUp with pwr := { rxUp.pwr with entry := some ⟨1, [0], false⟩ } }
     (d.rests 0 && !d.rests 1) = true) ∧ (searching.rests 0 && !searching.rests 1) = false ∧
    (mcUp.rests 4 = false ∧ (resting 4).rests 4 = true) ∧
    ((rerunning 0).rcvOf 1023).reent = some 1 ∧ ((furrow rsSYNC 0).rcvOf 1023).reent = none ∧
    ((furrow rsSYNC 0).rcvOf 1023).takes (.preamble [] false 0 0) = true ∧ ((furrow rsSYNC 1).rcvOf 1023).takes (.down [] false 0 0) = false ∧
    ((rerunning 1000000).replayed ((rerunning 1000000).rcvOf 1023) 1).isNone = true ∧ ((rerunning 0).replayed ((rerunning 0).rcvOf 1023) 1).isSome = true ∧
    (rerunning 0).perChip ((rerunning 0).rcvOf 1023) ≠ 0 := by
  decide +kernel

theorem test_witness_DecoderPool_grant :
    (let d : Dev := { pooled with decBusy := [] }
     blk ∈ d.grantCycle.decQ ∧ { blk with since := 1 } ∉ (Dev.grantCycle { d with decQ := [{ blk with since := 1 }] }).decQ) ∧
    (Instr.decoderGrant ∈ [Instr.decoderGrant] ∧ Instr.decoderGrant ∉ ([] : List Instr)) := by decide +kernel

/-- The training symbol of modulation 0 as it is sent, and one that shows nothing. -/
theorem test_witness_McDemodulators_train :
    (let r := fresnelInv (mcUp.linkM 1) (mcTrainSym (mcUp.linkM 1))
     trainPass (mcUp.linkM 1) (mcUp.get (MCX_CTL 1) MCX_CTL_THR) (fresnelInv (mcUp.linkM 1) (mcSymVals (mcUp.linkM 1) 0 [])) r r = true) ∧
    trainPass (mcUp.linkM 1) (mcUp.get (MCX_CTL 1) MCX_CTL_THR) [] [] [] = false := by decide +kernel

theorem test_witness_Unwinding_reentry :
    (let d := (planned tSTRIPS 0 ([0, 1, 0, 5] ++ List.replicate 60 0) (slotted 1 { Slot.init with state := 3, clsB := 2 })).setResv (resvStrip 0) 1
     (d.slotOf 1).chain ∉ d.sow.draining ∧ d.rests 0 = false ∧ ((d.reenter 1).slotOf 1).state = 4) ∧
    (let d : Dev := { slotted 1 { Slot.init with state := 3 } with sow := { SowSt.init with draining := [0] } }
     (d.slotOf 1).chain ∈ d.sow.draining ∧ ((d.reenter 1).slotOf 1).state ≠ 4) ∧ (resting 0).rests 0 = true ∧ Instr.reentryAccept 1 ∈ [Instr.reentryAccept 1] := by
  decide +kernel

theorem test_witness_RadioFrontEnd_hold :
    (up.gateOf 0).prof = [] ∧ (let d := up.setGate 0 { GateSt.init with prof := [1] }
     (d.gateOf 0).prof ≠ [] ∧ d.held 0 = false) := by decide +kernel
/-- A profile of chain 0 with one sub-band from 868.0 to 868.6 MHz, 1 % of an hour, ceiling 22 dBm, no hold. -/
def profile : List Byte :=
  leBytes 4 0x4750584B ++ [1, 0, 0, 1] ++ List.replicate 8 0 ++ leBytes 4 868000 ++ leBytes 4 868600 ++ leBytes 2 88 ++ leBytes 2 1 ++ leBytes 4 10000 ++
    leBytes 2 3600 ++ List.replicate 10 0 ++ List.replicate 212 0

def txUp : Dev :=
  (planned tRADIO 0 [1, 0, 0, 0, 0, 0, 0, 0] (fields [(SYN_CALF 0 255, SYN_CALF_FREQ_KHZ, 868300), (SYN_CALF 0 255, SYN_CALF_VALID, 1),
    (RFC_PWRTAB 0 63, RFC_PWRTAB_VALID, 1), (RFC_PWRTAB 0 63, RFC_PWRTAB_TARGET, 88), (RFC_PWRTAB 0 63, RFC_PWRTAB_RSV_MW, 400)] up)).setGate 0
    { GateSt.init with prof := profile }

def arming : Arming := ⟨.direct, 4, 255, 125000, 63, 24 * 3072, 1000, [], none, 0, 0, 0, 0⟩

theorem test_witness_GateAdmitsWithinProfile : profile.length = 256 ∧ profileOk 0 0 profile = true ∧ (txUp.gateArm 0 arming).1 = 0 := by decide +kernel

def onAir (st : Nat) (x : TxRec) : Dev := (txUp.setTx 0 (some x)).setTxState 0 st
def coex (b1 : Byte) (d : Dev) : Dev := planned tCOEX 0 ([1, b1, 0, 0] ++ (List.replicate 16 ([1, 0, 1, 0] : List Byte)).flatten) d

theorem test_witness_TransmissionCourse :
    up.noArm = false ∧ (resting 6).noArm = true ∧ (Instr.grantSeen 0 ∉ ([] : List Instr) ∧ Instr.grantSeen 0 ∈ [Instr.txEnd 1, .grantSeen 0]) ∧
    ((onAir 2 { txRec with raised := true }).txState 0 = 2 ∧ { txRec with raised := true }.raised = true) ∧
    up.txOf 0 = none ∧ ((onAir 1 txRec).txOf 0 = some txRec ∧ (onAir 1 txRec).txState 0 = 1) ∧ (coex 1 (onAir 2 txRec)).coexOn = true ∧ (onAir 2 txRec).txState 0 = 2 ∧
    txRec.paen = true ∧ (onAir 2 txRec).coexOn = false ∧ hardStart 0 = true ∧ hardStart txRec.cls = false ∧
    ((coex 1 (onAir 3 txRec)).txState 0 = 3 ∧ (coex 1 (onAir 3 txRec)).plan8 tCOEX 0 1 = 1 ∧ (coex 0 (onAir 3 txRec)).plan8 tCOEX 0 1 ≠ 1) ∧
    ((onAir 4 txRec).txState 0 = 4 ∧ txRec.req = .direct) ∧ (onAir 5 txRec).txState 0 = 5 ∧ ({ txRec with paen := false }.paen = false ∧ txRec.code ≠ 0x21) ∧
    ((coex 1 (onAir 4 txRec)).coexAborts txRec.cls = true ∧ (coex 1 (onAir 4 txRec)).coexOn = true) := by decide +kernel

/-- Child entry 8191 valid, sleepy, with `n` frames queued. -/
def sleepy (n : Nat) : Dev :=
  { ((up.chtPut 8191 0 CHT_VALID 1).chtPut 8191 0 CHT_SLEEPY 1) with
    qpool := (span 0 n).map (fun k => (k, some ⟨[], []⟩)), queues := [(8191, span 0 n)] }

/-- Its pool of descriptors is full. -/
def poolFull : Dev := { sleepy 1 with qpool := (span 0 1024).map (fun k => (k, some ⟨[], []⟩)) }

theorem test_witness_LinkQueuesAndRegisters :
    BusOpen ⟨up, []⟩ 5 LNK_QOP true ∧ ((sleepy 1).chtPut 8191 5 CHT_QLOCK 1).qLocked 8191 = true ∧ (sleepy 1).qLocked 8191 = false ∧ up.chtValid 0 = false ∧
    ((sleepy 1).chtValid 8191 = true ∧ (sleepy 1).chtGet 8191 0 CHT_SLEEPY = 1 ∧ ((sleepy 1).queueOf 8191).length < (sleepy 1).get LNK_POLL LNK_POLL_QMAX ∧
      poolFree (sleepy 1).qpool = some 1) ∧
    (sleepy 16).get LNK_POLL LNK_POLL_QMAX ≤ ((sleepy 16).queueOf 8191).length ∧
    (inSram (replAddr 655359) 32 = true ∧ qopIdx 2 655359 ∈ (sleepy 1).queueOf 8191 ∧ qopIdx 2 655359 ∉ up.queueOf 8191) ∧
    (let d := { (sleepy 1) with qpool := [] }
     (d.queueOf 8191).headD 1024 = qopIdx 2 655359) ∧
    (qopIdx 3 1 ∉ (sleepy 1).queueOf 8191 ∧ qopIdx 3 0 ∈ (sleepy 1).queueOf 8191) := by
  delta BusOpen; decide +kernel

theorem mem_span_lt : ∀ (n lo k : Nat), k ∈ span lo n → k < lo + n
  | 0, _, _, h => by simp [span] at h
  | n + 1, lo, k, h => by
    rcases List.mem_cons.1 h with rfl | h
    · omega
    · have := mem_span_lt n (lo + 1) k h; omega

theorem sget_span (v : Option QDesc) : ∀ (n lo k : Nat), lo ≤ k → k < lo + n → sget none ((span lo n).map (fun k => (k, v))) k = v
  | 0, _, _, h1, h2 => by omega
  | n + 1, lo, k, h1, h2 => by
    by_cases h : k = lo
    · subst h; simp [span, sget]
    · simp only [span, List.map_cons, sget, h, if_false]
      exact sget_span v n (lo + 1) k (by omega) (by omega)

theorem test_witness_LinkQueuesAndRegisters_pool :
    poolFull.chtValid 8191 = true ∧ (poolFull.queueOf 8191).length < poolFull.get LNK_POLL LNK_POLL_QMAX ∧ poolFree poolFull.qpool = none := by
  refine ⟨by decide +kernel, by decide +kernel, ?_⟩
  unfold poolFree
  rw [List.find?_eq_none]
  intro k hk
  have := mem_span_lt _ _ _ hk
  show ¬ (sget none ((span 0 1024).map (fun k => (k, some (⟨[], []⟩ : QDesc)))) k).isNone = true
  rw [sget_span _ 1024 0 k (by omega) (by omega)]
  exact Bool.false_ne_true

theorem test_witness_LinkQueuesAndRegisters_reads :
    BusOpen ⟨up, []⟩ 0 LNK_TXDONE_ST false ∧ BusOpen ⟨up, []⟩ 0 (LNK_VQ 3) false ∧ BusOpen ⟨up, []⟩ 0 (FLD_EVQ 3) false ∧ BusOpen ⟨up, []⟩ 4 (chtAddr 2047 7) true ∧
    ({ up with comps := [(0, 1, 2)] }.comps = (0, 1, 2) :: [] ∧ { up with vq := [[1, 2, 3, 4]] }.vq = [1, 2, 3, 4] :: [] ∧
      { up with fld := { up.fld with events := [[1, 2, 3, 4]] } }.fld.events = [1, 2, 3, 4] :: []) ∧
    ((fields [(LNK_CHTPAGE, LNK_CHTPAGE_PAGE, 3)] ((sleepy 1).chtPut 8191 5 CHT_QLOCK 1)).qLocked
      (2048 * (fields [(LNK_CHTPAGE, LNK_CHTPAGE_PAGE, 3)] (sleepy 1)).get LNK_CHTPAGE LNK_CHTPAGE_PAGE + 2047) = true) ∧
    up.ring.any (fun r => !r.pad && !r.freed && ringBase + 64 * r.base == 7) = false ∧
    (up.comps = [] ∧ up.vq = [] ∧ up.fld.events = []) ∧ up.chtValid (2048 * up.get LNK_CHTPAGE LNK_CHTPAGE_PAGE + 2047) = false ∧
    ((fields [(LNK_CHTPAGE, LNK_CHTPAGE_PAGE, 3)] (sleepy 1)).chtValid (2048 * (fields [(LNK_CHTPAGE, LNK_CHTPAGE_PAGE, 3)] (sleepy 1)).get LNK_CHTPAGE LNK_CHTPAGE_PAGE + 2047) = true) ∧
    BusOpen ⟨up, []⟩ 6 LNK_TXFCNT true ∧ up.reg LNK_TXFCNT ≤ (0 : Word) ∧ (4 : Word) < (fields [(LNK_TXFCNT, ⟨31, 0⟩, 5)] up).reg LNK_TXFCNT ∧
    BusOpen ⟨up, []⟩ 0 DEC_FSFREE true ∧
    (([⟨2, 3, false, false, false⟩] : List RingRec).any (fun r => !r.pad && !r.freed && ringBase + 64 * r.base == ringBase + 128) = true) := by
  delta BusOpen; decide +kernel

theorem test_witness_ReplayNeverTwice :
    replayJudge 10 0 11 = vdFRESH ∧ replayJudge 10 1 10 ≠ vdFRESH ∧ (0 : Nat) < 2 ^ 32 ∧ replayJudge 10 0 0xFFFFFFFF = vdFRESH ∧ replayJudge 10 0xFFFFFFFF 9 ≠ vdFRESH := by decide +kernel

/-- Entry 8191 expects a frame each second, and mesh time is past the close of the first window. -/
def heard (miss : Nat) (lost : Nat) : Dev :=
  let d := (((sleepy 0).chtPut 8191 4 CHT_INTERVAL_S 1).chtPut 8191 4 CHT_MISS miss).chtPut 8191 0 CHT_LOST lost
  { d with clk := { d.clk with mesh := 4 * 122880000 } }

theorem test_witness_LinkReceive :
    up.frames = [] ∧ (lframe (some 8191)).entry = some 8191 ∧ micOk { lframe (some 8191) with bytes := 8 :: List.replicate 31 0 } (List.replicate 16 0) [] = false ∧
    (let h : List Byte := 8 :: List.replicate 12 0
     micOk { lframe (some 8191) with bytes := h ++ ccmTag (List.replicate 16 0) (lfNonce h) h [] 4 } (List.replicate 16 0) [] = true) ∧ up.chtValid 8191 = false ∧
    (sleepy 0).chtGet 8191 4 CHT_INTERVAL_S = 0 ∧
    ((heard 255 0).chtValid 8191 = true ∧ (heard 255 0).chtGet 8191 4 CHT_INTERVAL_S ≠ 0 ∧ (heard 255 0).windowOver 8191 (sget 0 (heard 255 0).winSeen 8191 + 1) = true ∧
      (heard 255 0).winWait.contains 8191 = false ∧ (heard 255 0).windowComing 8191 1 = false ∧ ([] : List Instr).any latches = false ∧
      [Instr.mcSymbol 0 (.train [] 0 0 0 [] [])].any latches = true ∧
      (let x := ((heard 255 0).chtPut 8191 4 CHT_MISS 255).count (LNK_CNT 14)
       min 255 ((heard 255 0).chtGet 8191 4 CHT_MISS + 1) ≠ x.get LNK_GUARD LNK_GUARD_MISSMAX)) ∧
    (let m := (heard 0 0).get LNK_GUARD LNK_GUARD_MISSMAX
     let d := heard (m - 1) 0
     let n := min 255 (d.chtGet 8191 4 CHT_MISS + 1)
     let x := (d.chtPut 8191 4 CHT_MISS n).count (LNK_CNT 14)
     d.windowOver 8191 1 = true ∧ n = x.get LNK_GUARD LNK_GUARD_MISSMAX ∧ x.chtGet 8191 0 CHT_LOST = 0) ∧
    (let d := { heard 0 0 with frames := [{ lframe (some 8191) with tsync := 122880000 }] }
     d.windowOver 8191 1 = true ∧ d.windowComing 8191 1 = true) ∧
    (sleepy 0).windowOver 8191 1 = false ∧
    (up.frames = [] ∧ (⟨up, []⟩ : State).verdictComes up 3 = false ∧
      (let d : Dev := { up with frames := [lframe none] }
       (⟨d, [.micCheckEnd]⟩ : State).verdictComes d 1025 = true)) ∧
    (let d := unit 3 { Rcv.init with state := 3 } up
     d.frames = [] ∧ 3 ≤ (d.rcvOf 3).state ∧ (d.rcvOf 3).state ≤ 5 ∧ (d.rcvOf 3).addr = false ∧ (3 : Fin 1026).val ∉ d.lateU) ∧
    (let d := { up with frames := [lframe none] }
     lframe none ∈ d.frames ∧ (lframe none).unit = (1025 : Fin 1026).val ∧ (lframe none).late = false) ∧ (up.rcvOf 1025).state < 3 := by decide +kernel


theorem test_witness_LinkTransmit :
    BusOpen ⟨up, []⟩ 4 LNK_TXSUB true ∧ up.outstanding < 32 ∧ 32 ≤ { up with descs := List.replicate 32 (desc 0 0) }.outstanding ∧
    (inSram ((0x10000000 : Word).toNat / 32 * 32) 32 = false ∧ ∀ y, y ∈ up.descs → y.id ≠ up.descSeq) ∧ up.headDesc 1 = none ∧ up.bound = [] ∧
    ({ up with descs := [desc 4 0] }.headDesc 1 = some (desc 4 0) ∧ up.mayArm 1 (desc 4 0).body = true ∧ assesses (desc 4 0).body = false) ∧
    (assesses (desc 4 1).body = true ∧ (desc 4 1).back = none ∧ assesses (desc 3 1).body = false) ∧
    { up with bound := [⟨0, 0, 1, 0, 0, 0, none⟩] }.mayArm 1 (desc 4 0).body = false ∧ ({ desc 4 1 with back := some 0 }.back ≠ none ∧ { desc 4 1 with back := some 0 }.back.all (fun t => decide (t ≤ up.clk.cyc)) = true ∧
      { desc 4 1 with back := some 9 }.back.all (fun t => decide (t ≤ up.clk.cyc)) = false) ∧
    (up.noArm = false ∧ (resting 6).noArm = true) ∧
    (let b : Bound := ⟨8191, 0, 1, 0, 0, 0, some 7⟩
     let d := { up with bound := [b] }
     d.bound.find? (fun y => y.chain == (1 : Fin 2).val && y.last.isSome) = some b ∧ d.txOf 1 = none) ∧
    up.awaits.find? (fun y => y.chain == 1 && y.dst == 0xFFFF && y.seq == 255) = none ∧
    (let a : Await := ⟨1, 0xFFFF, 255, none, 0, 0, 0, false⟩
     (up.nowU < { a with due := up.nowU + 1 }.due ∧ a.due ≤ up.nowU ∧ up.ackComing { a with past := true } = false ∧
      (unit 1023 { Rcv.init with state := 2, chain := 2 } up).ackComing { a with past := true } = true) ∧
     { up with awaits := [a] }.awaits.find? (fun y => y.chain == (1 : Fin 2).val && y.dst == (0xFFFF : BitVec 16).toNat && y.seq == (255 : BitVec 8).toNat) = some a) := by
  delta BusOpen; decide +kernel

/-- Relays go out on 868.3 MHz of chain 0, where furrow 1023 decodes a frame. -/
def relaying : Dev :=
  unit 1023 { Rcv.init with state := 2 } (planned tGRID 0 (leBytes 4 868300000 ++ List.replicate 12 0) (fields [(SYN_CALF 0 0, SYN_CALF_FREQ_KHZ, 868300), (FLD_RTPL, ⟨31, 0⟩, 0x20000000)] up))
def caching (st : Nat) (d : Dev) : Dev := d.setCache 4095 { CacheE.init with state := st }

theorem test_witness_FloodAndMeshTime :
    (fields [(FLD_CFG, FLD_CFG_TIMEROOT, 1)] up).timeRoot = true ∧ up.timeRoot = false ∧ { up with fld := { up.fld with lastAt := some 0 } }.ageS < (fields [(FLD_TIME, FLD_TIME_AGEMAX_S, 9)] up).get FLD_TIME FLD_TIME_AGEMAX_S ∧
    (fields [(FLD_TIME, FLD_TIME_AGEMAX_S, 0)] up).get FLD_TIME FLD_TIME_AGEMAX_S ≤ up.ageS ∧ BusOpen ⟨up, []⟩ 6 FLD_CMD true ∧
    getF (mkWord [(FLD_CMD_KEY, 0x96), (FLD_CMD_SET, 1)]) FLD_CMD_KEY = 0x96 ∧ getF (mkWord [(FLD_CMD_KEY, 0x96), (FLD_CMD_SET, 1)]) FLD_CMD_SET = 1 ∧ getF (0 : Word) FLD_CMD_KEY ≠ 0x96 ∧
    BusOpen ⟨up, []⟩ 4 FLD_MESH_LO false ∧ BusOpen ⟨up, []⟩ 0 FLD_ALARMCTL true ∧
    ((fields [(FLD_ALARMCTL, FLD_ALARMCTL_ARM, 8)] up).get FLD_ALARMCTL FLD_ALARMCTL_ARM).testBit (3 : Fin 4) = true ∧
    (atOrPast up.meshNow (up.pair (FLD_ALARM_LO 3) (FLD_ALARM_HI 3)) = true ∧ atOrPast up.meshNow ((up.setReg (FLD_ALARM_LO 3) 9).pair (FLD_ALARM_LO 3) (FLD_ALARM_HI 3)) = false) ∧
    (up.noArm = false ∧ up.rests 7 = false ∧ (resting 7).rests 7 = true) ∧
    (up.get FLD_ALARMCTL FLD_ALARMCTL_ARM).testBit (0 : Fin 4) = false ∧
    (fields [(FLD_CFG, FLD_CFG_BEACON, 1)] up).flag FLD_CFG FLD_CFG_BEACON = true ∧ up.flag FLD_CFG FLD_CFG_BEACON = false ∧
    (relayPends ((caching ceHOLD up).cacheOf 4095).state = true ∧ (up.cacheOf 0).state = 0) ∧
    (((caching 5 up).cacheOf 4095).state ≠ 0 ∧ relayPends ((caching 5 up).cacheOf 4095).state = false ∧ atOrPast up.meshNow ((caching 5 up).cacheOf 4095).expiry = true ∧
      atOrPast up.meshNow ((up.setCache 4095 { CacheE.init with state := 5, expiry := 9 }).cacheOf 4095).expiry = false) ∧
    (((caching ceWAIT relaying).cacheOf 4095).state = ceWAIT ∧ (caching ceWAIT relaying).inFlight (caching ceWAIT relaying).meshNow = true) ∧
    (((caching ceWAIT up).cacheOf 4095).state = ceWAIT ∧ (caching ceWAIT up).inFlight (caching ceWAIT up).meshNow = false) ∧
    (((caching ceHOLD relaying).cacheOf 4095).state = ceHOLD ∧ (caching ceHOLD relaying).inFlight ((caching ceHOLD relaying).cacheOf 4095).upTo = true) ∧
    (((caching ceHOLD up).cacheOf 4095).state = ceHOLD ∧ (caching ceHOLD up).inFlight ((caching ceHOLD up).cacheOf 4095).upTo = false) ∧
    (up.cacheOf 0).state ≠ ceWAIT ∧ BusOpen ⟨up, []⟩ 5 FLD_ORIG true ∧ 32 ≤ { up with descs := List.replicate 32 (desc 0 0) }.outstanding := by
  delta BusOpen; decide +kernel

def keyed (k : KSlot) (d : Dev) : Dev := d.setKslot 255 k
/-- A key template of WRAPSEL 0 in SRAM. -/
def template : List Byte := [0x4B, 0x42, 1, 0, 0xFF, 0, 0, 0] ++ [1] ++ List.replicate 55 0
/-- A command of slot 255 that has started. -/
def kcmd (op a0 a1 : Nat) (full : Bool) : KeyRun := ⟨255, op, a0, a1, [], true, full, false⟩
/-- A device on which it runs: the flash ready, the counters read, DEVROOT blown, the template in SRAM. -/
def kdev (x : KeyRun) : Dev := { holding 0x20000000 template flashed with fuse := [(0, 1)], keyPend := some x }

theorem test_witness_KeyStore :
    BusOpen ⟨up, []⟩ 6 KEY_CMD true ∧ (fields [(KEY_RES, KEY_RES_BUSY, 1)] up).flag KEY_RES KEY_RES_BUSY = true ∧ up.flag KEY_RES KEY_RES_BUSY = false ∧
    (let d : Dev := { flashed with ctrLeft := [] }
     let b := d.scanned.setReg KEY_RES (mkWord [(KEY_RES_BUSY, 1), (KEY_RES_OP, 5)])
     (b.mayProg && !b.pwr.flIso && (b.keyRaises ⟨0, 5, 1, 63, [], b.mayProg, false, false⟩).any (fun p => decide (b.ctrVal p.1 < p.2))) = true) ∧
    ((keyed { KSlot.init with state := 2 } up).kslot (255 : Fin 256)).state ≠ 0 ∧ (up.kslot (0 : Fin 256)).state = 0 ∧ (kcmd 1 0 0 false).loads = true ∧
    (let x := kcmd 3 0 0 true
     (kdev x).keyPend = some x ∧ (kdev x).keyWaits x = false ∧ x.op = 3 ∧ (kcmd 1 0 0 true).full = true) ∧
    (let x := kcmd 1 0x20000000 0 false
     ({ kdev x with regs := up.regs } : Dev).keyWaits x = true ∧ (kdev x).keyWaits x = false ∧ ((kdev x).scanned.touchRange x.arg0 64).busOk true 6 x.arg0 64 false = true) ∧
    (let x := kcmd 1 0x0FFFFFF0 0 false
     (kdev x).keyWaits x = false ∧ ((kdev x).scanned.touchRange x.arg0 64).busOk true 6 x.arg0 64 false = false) ∧
    (let x := kcmd 5 0 64 false
     (kdev x).keyWaits x = false ∧ 63 < x.arg1) ∧ (kdev (kcmd 5 0 63 false)).keyWaits (kcmd 5 0 63 false) = false ∧
    (kdev (kcmd 6 0 4 false)).keyWaits (kcmd 6 0 4 false) = false ∧ (kdev (kcmd 6 0 3 false)).keyWaits (kcmd 6 0 3 false) = false ∧
    (∀ k < 4, k ≠ 0 → { kdev (kcmd 6 0 0 false) with blown := 14 }.revoked k = true) ∧ (kdev (kcmd 6 0 0 false)).revoked 3 = false := by
  delta BusOpen; decide +kernel

theorem test_witness_KeyStore_generate :
    (let x := kcmd 4 0x20000000 0 true
     let f := (kdev x).scanned.touchRange x.arg0 64
     let t := f.seen x.arg0 64
     (kdev x).keyWaits x = false ∧ f.flag KEY_STAT KEY_STAT_RNGFAIL = false ∧ f.busOk true 6 x.arg0 64 false = true ∧ f.busOk true 6 x.arg0 64 true = true ∧
     blobHdrOk t = true ∧ 1 ≤ u8 t 8 ∧ u8 t 8 ≤ 3 ∧ f.wrapKey (u8 t 3) (x.arg1 % 256) = .inr (1 :: List.replicate 31 0) ∧ f.wrapKey 2 0 = .inl krNOKEK) ∧
    (let x := kcmd 4 0x20000000 0 false
     (kdev x).keyWaits x = false) ∧
    (let x := kcmd 4 0x20000000 0 true
     let f := (fields [(KEY_STAT, KEY_STAT_RNGFAIL, 1)] (kdev x)).scanned.touchRange x.arg0 64
     f.flag KEY_STAT KEY_STAT_RNGFAIL = true) ∧
    (let x := kcmd 4 0x08000000 0 true
     let f := (kdev x).scanned.touchRange x.arg0 64
     (kdev x).keyWaits x = false ∧ f.busOk true 6 x.arg0 64 true = false) ∧
    (let x := kcmd 4 0x20000100 0 true
     let f := (kdev x).scanned.touchRange x.arg0 64
     (kdev x).keyWaits x = false ∧ f.busOk true 6 x.arg0 64 false = true ∧ f.busOk true 6 x.arg0 64 true = true ∧ blobHdrOk (f.seen x.arg0 64) = false) := by
  decide +kernel

theorem test_witness_KeyStore_events :
    up.keyPend = none ∧
    ((some { KSlot.init with state := 3 } : Option KSlot) = some { KSlot.init with state := 3 } ∧ ({ KSlot.init with state := 3 } : KSlot).state = 3 ∧
      ((keyed { KSlot.init with state := 1 } up).kslot 255).state = 1 ∧ (up.kslot 255).state ≠ 1 ∧ krICV ≠ krOK ∧ krICV < 256 ∧
      up.get (KEY_CNT 0) KEY_CNT_COUNT < 0xFFFF) ∧
    (((keyed { KSlot.init with state := 4 } up).kslot (255 : Fin 256)).state = 4 ∧ (keyed { KSlot.init with state := 4 } up).slotInUse 255 = false) ∧
    (let j : AesJob := ⟨0, 0, 0, some 1, 255, 0, [], none, 0, true⟩
     j ∈ { up with aesJobs := [j] }.aesJobs ∧ j.engine.isSome = true ∧ j.slot = (255 : Fin 256).val ∧ { up with aesJobs := [j] }.slotInUse 255 = true) ∧
    (let f : LFrame := { lframe none with words := [BitVec.ofNat 32 (mkWord [(CHT_KEYSLOT, 255)]).toNat] }
     f ∈ { up with frames := [f] }.frames ∧ f.w 0 CHT_KEYSLOT = (255 : Fin 256).val) ∧ (up.kslot (0 : Fin 256)).state ≠ 4 ∧
    (let k : KSlot := { KSlot.init with state := 2, uctr := 4, ceil := 4096, used := 3072, limit := 8192 }
     let d := keyed k up
     d.kslot 255 = k ∧ k.uctr ≠ 0 ∧ k.ceil - k.used ≤ 1024 ∧ k.ceil < k.limit ∧ (d.raise k.uctr (d.ctrVal k.uctr + 1) []).1 = krOK ∧ (keyed k flashed).raiseWaits k.uctr (d.ctrVal k.uctr + 1) = false ∧
      d.raiseWaits k.uctr (d.ctrVal k.uctr + 1) = true) ∧
    1024 < ((keyed { KSlot.init with ceil := 1025 } up).kslot (255 : Fin 256)).ceil - ((keyed { KSlot.init with ceil := 1025 } up).kslot (255 : Fin 256)).used ∧
    (let w := min (((up.reg LNK_TXFCNT).toNat + 1024) / 4096 + 1) (ctrCap 2)
     up.txLow = true ∧ (up.reg KEY_FCNTCEIL).toNat < 0xFFFFFFFF ∧ (up.raise 2 w []).1 = krOK ∧ flashed.raiseWaits 2 w = false) ∧
    (fields [(KEY_FCNTCEIL, ⟨31, 0⟩, 4096)] up).txLow = false ∧ up.flag FLC_BOOT FLC_BOOT_READY = false ∧
    (flashed.flag FLC_BOOT FLC_BOOT_READY = true ∧ flashed.fieldOn 5 = true ∧ flashed.pwr.flIso = false ∧ ((flashed.touchRange (ctrBase 63) 8192).ctrScan (63 : Fin 64)).2 = none) ∧
    (let t := (holding (ctrBase 63) (ctrRecord 63 7) flashed).touchRange (ctrBase 63) 8192
     (t.ctrScan (63 : Fin 64)).2 = some (ctrBase 63) ∧ t.ctrValid 63 (ctrBase 63) 0 = true ∧ t.ctrValid 63 (ctrBase 63) 1 = true) ∧
    BusOpen ⟨up, []⟩ 6 KEY_RAND false := by
  delta BusOpen; decide +kernel

/-- A counter whose newest record no longer verifies at one margin: it is repaired, or its repair fails. -/
theorem test_witness_KeyStore_repair :
    (let t := ({ holding (ctrBase 63) (ctrRecord 63 7) flashed with flWeak := [(ctrBase 63 / 16, 1)] } : Dev).touchRange (ctrBase 63) 8192
     let x : Dev := { t.setReg (KEY_CTR 63) (BitVec.ofNat 32 (t.ctrScan 63).1) with ctrBad := t.ctrBad.filter (· ≠ 63), ctrLeft := t.ctrLeft.filter (· ≠ 63) }
     (t.ctrScan (63 : Fin 64)).2 = some (ctrBase 63) ∧ x.ctrValid 63 (ctrBase 63) 0 = false ∧
      ((x.count (KEY_CNT 4)).raiseCore x.mayProg 63 (t.ctrScan 63).1 true []).1 = krOK ∧
      ((x.count (KEY_CNT 4)).raiseCore x.mayProg 63 (t.ctrScan 63).1 true [false, false]).1 ≠ krOK) := by
  decide +kernel

theorem test_witness_CountersAndUses :
    (up.raise 63 1 []).1 = krOK ∧
    (let d := keyed { KSlot.init with state := 2, ceil := 8, limit := 8, used := 7 } up
     (d.charge 255).1 = 0 ∧ (d.kslot 255).limit ≤ (d.kslot 255).used + 1 ∧ (0 : Nat) ≠ 255) ∧ (up.charge 0).1 ≠ 0 := by decide +kernel

def job (e : Option Nat) : AesJob := ⟨7, 6, 0x20000000, e, 3, jsOK, [(0x20000020, [1, 2])], none, 100, e.isSome⟩
def working (l : List AesJob) : Dev := { up with aesJobs := l }
def hashing (busy : Nat) (o : Nat) : Dev := fields [(SHA_STAT 3, SHA_STAT_OWNER, o)] (up.setSha 3 ⟨true, shaInit, 0, [], busy, false⟩)

theorem test_witness_AesAndSha :
    BusOpen ⟨up, []⟩ 6 AES_SUB true ∧ 8 ≤ ((working (List.replicate 8 (job none))).aesJobs.filter (fun j => j.core == (6 : Fin 7).val)).length ∧
    (up.aesJobs.filter (fun j => j.core == (6 : Fin 7).val)).length < 8 ∧
    (2 ≤ { up with frames := [lframe none, lframe none] }.aesAbove ∧ up.aesAbove < 2 ∧ up.liveJob 1 = none ∧ up.nextJob 1 = none) ∧
    ((working [job none]).liveJob 1 = none ∧ (working [job none]).nextJob 1 = some (job none) ∧ (job none).engine = none) ∧
    (let j := { job (some 1) with live := false }
     (working [j]).liveJob 1 = none ∧ (working [j]).nextJob 1 = some j ∧ j.engine ≠ none) ∧
    ((working [job (some 1)]).liveJob 1 = some (job (some 1)) ∧ 64 < (job (some 1)).left ∧ { job (some 1) with left := 64 }.left ≤ 64) ∧
    (let d := working [job (some 1)]
     let j := job (some 1)
     let y := Dev.resumeJob { d with aesJobs := (d.aesJobs.filter (fun y => y.id != j.id)).map (fun y => y.ran j j 1) } 1 j.core
     let z := (j.writes.foldl (fun d w => d.setBytes w.1 w.2) y).count (AES_CNT 0)
     d.firstDone 1 j = j ∧ j.status = jsOK ∧ j.fault = none ∧ z.busCode false j.core (j.addr + 0x1F) 1 true = none) ∧
    BusOpen ⟨up, []⟩ 0 (SHA_CMD 3) true ∧ (BusOpen ⟨hashing 0 5, []⟩ 5 (SHA_CMD 3) true ∧ (hashing 0 5).get (SHA_STAT 3) SHA_STAT_OWNER = (5 : Fin 7).val) ∧
    ((hashing 1 5).sha 3).busy ≠ 0 ∧ (up.sha 3).taken = false ∧
    (((hashing 0 5).sha 3).busy = 0 ∧ ((hashing 0 5).sha 3).taken = true ∧
      (let d := fields [(SHA_ADDR 3, ⟨31, 0⟩, 0x20000000), (SHA_LEN 3, SHA_LEN_LEN, 100)] (hashing 0 5)
       let a := (d.reg (SHA_ADDR 3)).toNat
       let l := d.get (SHA_LEN 3) SHA_LEN_LEN
       (d.touchRange a l).busOk false 5 a l false = true) ∧
      (let d := fields [(SHA_ADDR 3, ⟨31, 0⟩, 0x0FFFFFF0), (SHA_LEN 3, SHA_LEN_LEN, 100)] (hashing 0 5)
       let a := (d.reg (SHA_ADDR 3)).toNat
       let l := d.get (SHA_LEN 3) SHA_LEN_LEN
       (d.touchRange a l).busOk false 5 a l false = false)) ∧
    (up.get (SHA_STAT 3) SHA_STAT_OWNER = 7 ∧ up.coreActs 0 = true ∧ (hashing 0 5).restsAt (SHA_CMD 3) = false ∧ (hashing 0 5).get (SHA_STAT 3) SHA_STAT_OWNER ≠ 7) ∧
    (hashing 0 5).get (SHA_STAT 3) SHA_STAT_OWNER ≠ (0 : Fin 7).val ∧ (((hashing 2 5).sha 3).busy = 2 ∧ ((hashing 2 5).sha 3).bad = false ∧ ((hashing 2 5).sha 3).h.length = 8) := by
  delta BusOpen; decide +kernel

/-- The ledger with a sealing key in slot 3, ORIGIN locked, recovered, the queue `l`. -/
def ledger (l : List LgrOp) : Dev :=
  { (fields [(LGR_STAT, LGR_STAT_STATE, 2), (LGR_ORIGIN, LGR_ORIGIN_LOCK, 1), (LGR_ORIGIN, LGR_ORIGIN_ORIGIN, 5), (LGR_KEYS, LGR_KEYS_SEAL, 3)] up).setKslot 3
      { KSlot.init with state := 2, use := 2 ^ useLEDGER, key := List.replicate 16 0, ceil := 100, limit := 100 } with
    lgr := { LgrSt.init with queue := l } }

/-- A draft of TYPE 0x10 with no payload at 0x20000000, its descriptor at 0x20000080. -/
def drafted (d : Dev) : Dev := holding 0x20000000 ([1, 0x10] ++ List.replicate 62 0) (holding 0x20000080 (leBytes 4 0x20000000 ++ List.replicate 12 0) d)

theorem test_witness_Ledger :
    BusOpen ⟨up, []⟩ 0 LGR_APPEND true ∧ 16 ≤ (ledger (List.replicate 16 ⟨0, 0, 0⟩)).lgr.queue.length ∧ up.lgr.queue.length < 16 ∧
    BusOpen ⟨up, []⟩ 5 LGR_VERIFY true ∧ BusOpen ⟨up, []⟩ 6 LGR_ARCH true ∧ (Dev.lgrSync (ledger [])).archLast 0 = none ∧ up.lgr.queue = [] ∧
    ((ledger [⟨0, 6, 0⟩]).lgr.queue = [⟨0, 6, 0⟩] ∧ (ledger [⟨0, 6, 0⟩]).lgr.run = none ∧ (ledger [⟨0, 6, 0⟩]).get LGR_STAT LGR_STAT_STATE = 2) ∧
    (let y := (Dev.lgrSync { ledger [⟨0, 6, 0⟩] with lgr := LgrSt.init }).touchRange 0 16
     (y.busOk true 6 0 16 false && y.busOk true 6 0 16 true) = false) ∧
    (let e := Dev.lgrSync (drafted (ledger []))
     let x : LgrOp := ⟨0, 6, 0x20000080⟩
     let y := e.touchRange x.arg 16
     let w := y.seen x.arg 16
     let a := u32 w 0
     let n := max 4 (recSize (y.seenByte a).toNat)
     let z := y.touchRange a n
     let draft := z.seen a n
     (y.busOk true 6 x.arg 16 false && y.busOk true 6 x.arg 16 true) = true ∧ z.busOk true 6 a n false = true ∧ draftOk w draft = true ∧
     (z.lgrSeal (u8 draft 0) (u8 draft 1) ((draft.drop 0x24).take (u8 draft 2)) (some (x.arg, true)) none).1 = 0) ∧
    draftOk ((drafted up).bytes 0x20000080 16) (List.replicate 64 0) = false ∧
    (let z := (Dev.lgrSync (drafted (ledger []))).touchRange 0x0FFFFFF0 16
     z.busOk true 0 0x0FFFFFF0 16 false = false) ∧
    (let z := Dev.lgrSync (drafted (ledger []))
     let z := fields [(LGR_STAT, LGR_STAT_ENDED, 1)] z
     (z.lgrSeal 1 0x10 [] (some (0x20000080, true)) none).1 ≠ 0) ∧
    verifyDescOk (leBytes 4 0x20000000 ++ List.replicate 12 0) = false ∧
    (up.progRun true 0 []).1 = none ∧ (up.progRun true 0 [(64, List.replicate 64 0)]).1 = some (some 64) ∧ ((up.setWin 1 { Win.init with subst := (span 0 8).map (fun i => (100 + i, 2041 + i)) }).progRun false 0 [(4096, List.replicate 64 0)]).1 = some none ∧
    (let d := fields [(LGR_STAT, LGR_STAT_STATE, 1), (FLC_BOOT, FLC_BOOT_READY, 1)] up
     d.get LGR_STAT LGR_STAT_STATE = 1 ∧ d.flag FLC_BOOT FLC_BOOT_READY = true ∧ d.flag PWR_SUPPLY PWR_SUPPLY_SLOW = false) ∧
    (fields [(PWR_SUPPLY, PWR_SUPPLY_SLOW, 1)] up).flag PWR_SUPPLY PWR_SUPPLY_SLOW = true ∧ up.flag FLC_BOOT FLC_BOOT_READY = false ∧
    BusOpen ⟨up, []⟩ 6 LGR_ORIGIN true ∧ (ledger []).flag LGR_ORIGIN LGR_ORIGIN_LOCK = true ∧ up.flag LGR_ORIGIN LGR_ORIGIN_LOCK = false ∧
    getF (0 : Word) LGR_ORIGIN_ORIGIN = up.get LGR_ORIGIN LGR_ORIGIN_ORIGIN ∧
    (getF (1 : Word) LGR_ORIGIN_ORIGIN ≠ up.get LGR_ORIGIN LGR_ORIGIN_ORIGIN ∧ (fields [(LGR_HEAD, ⟨31, 0⟩, 64)] up).head ≠ 0 ∧
      (fields [(LGR_HEAD, ⟨31, 0⟩, 64)] up).archived ≠ (fields [(LGR_HEAD, ⟨31, 0⟩, 64)] up).head) := by
  delta BusOpen; decide +kernel

theorem test_witness_Ledger_waits :
    (let y : LgrRun := ⟨[], none, none, false⟩
     let d : Dev := { flashed with lgr := { up.lgr with run := some y } }
     d.lgr.run = some y ∧ d.lgrHeld y = false ∧ ({ up with lgr := { up.lgr with run := some y } } : Dev).lgrHeld y = true ∧ d.pwr.flIso = false ∧
      { d.pwr with flIso := true }.flIso = true) ∧ 2 ≤ { up with frames := [lframe none, lframe none] }.aesAbove ∧ (ledger [⟨0, 6, 0⟩]).aesAbove < 2 := by
  decide +kernel

/-- A sealed record of the ledger, of TYPE 0x10. -/
def record : List Byte := (ledger []).seal none 1 0x10 0 []
/-- The ledger with that record in its ring, and not archived. -/
def recorded : Dev := fields [(LGR_HEAD, ⟨31, 0⟩, 64)] (holding 0x01800000 record (ledger []))

theorem test_witness_Ledger_verify :
    (let e := Dev.lgrSync (holding 0x20000000 record (holding 0x20000080 (leBytes 4 0x20000000 ++ [1, 0] ++ List.replicate 10 0) (ledger [])))
     let y := e.touchRange 0x20000080 16
     let w := y.seen 0x20000080 16
     let z := y.touchRange (u32 w 0) 64
     (y.busOk true 6 0x20000080 16 false && y.busOk true 6 0x20000080 16 true) = true ∧ verifyDescOk w = true ∧ u8 w 6 = 0 ∧ z.busOk true 6 (u32 w 0) 64 false = true ∧
     (z.verifyRun 6 none none 0 (u16 w 4) (u32 w 0)).1 = lsOK) := by decide +kernel

theorem test_witness_Ledger_archive :
    recorded.archLast (64 : Word).toNat = some record ∧ recorded.lgr.queue.length < 16 ∧
    (let e := Dev.lgrSync recorded
     let s := e.lgrSeal 1 2 (spanPayload (e.get LGR_ORIGIN LGR_ORIGIN_ORIGIN) (recSeq (e.recAt e.archived)) (recSeq record) record) none (some 64)
     e.archLast 64 = some record ∧ s.1 = 0) ∧ (Dev.lgrSync (ledger [])).archLast 64 = none := by decide +kernel

def known (n : Nat) (d : Dev) : Dev := d.setDir (dirSet 0 0) (if n = 0 then [⟨0, 0, false, 1⟩] else List.replicate n ⟨1, 0, false, 1⟩)

theorem test_witness_Ledger_directory :
    BusOpen ⟨up, []⟩ 0 LGR_DIRCMD true ∧ (fields [(LGR_DIRVAL, LGR_DIRVAL_WHERE, 2)] up).get LGR_DIRVAL LGR_DIRVAL_WHERE = 2 ∧
    ((known 0 up).dirOf (dirSet 0 0)).any (fun x => x.is 0 0) = true ∧
    (((known 3 up).dirOf (dirSet 0 0)).any (fun x => x.is 0 0) = false ∧ ((known 3 up).dirOf (dirSet 0 0)).length < 4) ∧
    (((known 4 up).dirOf (dirSet 0 0)).any (fun x => x.is 0 0) = false ∧ 4 ≤ ((known 4 up).dirOf (dirSet 0 0)).length) ∧
    BusOpen ⟨up, []⟩ 5 LGR_LOOK_HI true ∧ getF (0 : Word) LGR_LOOK_HI_ORIGIN = up.get LGR_ORIGIN LGR_ORIGIN_ORIGIN ∧
    up.head ≤ (up.reg (banked 5 LGR_LOOK_LO)).toNat ∧ (recorded.reg (banked 5 LGR_LOOK_LO)).toNat < recorded.head ∧
    getF (0 : Word) LGR_LOOK_HI_ORIGIN ≠ recorded.get LGR_ORIGIN LGR_ORIGIN_ORIGIN ∧ (recorded.dirOf (dirSet 0 0)).any (fun x => x.is 0 0) = false := by
  delta BusOpen; decide +kernel

theorem test_witness_MergedViewOfTheSet :
    (∀ r, (ledger []).tagOk r = (ledger []).tagOk r) ∧ (∀ r : List Byte, r ∈ [record, [], record] ↔ r ∈ [[], record]) := by
  refine ⟨fun _ => rfl, fun r => ?_⟩
  generalize record = x
  simp only [List.mem_cons, List.not_mem_nil, or_false]
  exact ⟨fun h => h.elim Or.inr (fun h => h.elim Or.inl Or.inr), fun h => h.elim (fun h => Or.inr (Or.inl h)) (fun h => Or.inl h)⟩

theorem test_witness_SealedRunsChain :
    recSize 129 ≠ 0 ∧ 129 < 256 ∧ (List.replicate 208 (0 : Byte)).length + 48 ≤ recSize 129 ∧ 0xFFFFFFFE + 1 < 2 ^ 32 ∧ (ledger []).get LGR_ORIGIN LGR_ORIGIN_ORIGIN < 2 ^ 20 ∧
    (let l := (ledger []).sealRun 1 0x10 [] (some record) 64 1 0
     l[0]?.isSome = true ∧ recOrigin record = (ledger []).get LGR_ORIGIN LGR_ORIGIN_ORIGIN ∧ recSeq record + 1 = 1) ∧
    (let l := (ledger []).sealRun 129 0x10 [] none 4032 0 1
     (l[0]?.isSome && l[1]?.isSome) = true) := by decide +kernel

def banked3 (x : Bank) : Dev := flashed.setBank 3 x

theorem test_witness_FlashController :
    BusOpen ⟨up, []⟩ 0 (FLC_CMD 3) true ∧ flashed.flcJudge 0 0 1 ≠ none ∧ (fields [(FLC_ADDR 0, ⟨31, 0⟩, 0x08000000)] flashed).flcJudge 0 0 5 = none ∧ up.bankBusy 3 = true ∧
    (up.bankOfs 0).op = 0 ∧
    ((banked3 ⟨1, 0, 0x09800000, none, none, 0, 0⟩).blankWord 0x09800000 = true ∧ ((banked3 ⟨1, 0, 0x09800000, none, none, 0, 0⟩).bankOfs 3) = ⟨1, 0, 0x09800000, none, none, 0, 0⟩) ∧
    (holding 0x09800000 [0] (banked3 ⟨1, 0, 0x09800000, none, none, 0, 0⟩)).blankWord 0x09800000 = false ∧
    ((banked3 ⟨3, 0, 0, none, none, 0, 0⟩).erasing 3 = true ∧ (banked3 ⟨3, 0, 0, none, none, 0, 0⟩).flag (FLC_STAT 3) FLC_STAT_SUSP = false ∧ ((banked3 ⟨3, 0, 0, none, none, 0, 0⟩).bankOfs 3).mark ≤ flashed.clk.cyc + 1) ∧ up.erasing 3 = false ∧
    flashed.clk.cyc + 1 < ((banked3 ⟨3, 0, 0, none, none, 9, 0⟩).bankOfs 3).mark ∧
    (let d := { banked3 ⟨3, 0, 0, none, none, 1, 0⟩ with clk := { flashed.clk with cyc := 246 } }
     (fields [(FLC_STAT 3, FLC_STAT_SUSP, 1)] d).flag (FLC_STAT 3) FLC_STAT_SUSP = true ∧ (d.bankOfs 3).mark + 246 ≤ d.clk.cyc + 1) ∧
    (fields [(FLC_STAT (winBank 1), FLC_STAT_MOVE, 1)] up).flag (FLC_STAT (winBank 1)) FLC_STAT_MOVE = true ∧ up.flag (FLC_STAT (winBank 0)) FLC_STAT_MOVE = false ∧
    (let d := up.setWin 1 { Win.init with defer := true }
     (d.winOf (1 : Fin 2)).defer = true ∧ d.flag PWR_SUPPLY PWR_SUPPLY_SLOW = false ∧ d.flag (FLC_STAT (winBank 1)) FLC_STAT_BUSY = false) ∧
    (up.winOf (0 : Fin 2)).defer = false ∧ (fields [(PWR_SUPPLY, PWR_SUPPLY_SLOW, 1)] up).flag PWR_SUPPLY PWR_SUPPLY_SLOW = true ∧
    (up.flag FLC_BOOT FLC_BOOT_READY = false ∧ up.pwr.flIso = false ∧ up.fieldOn 1 = true) ∧ flashed.flag FLC_BOOT FLC_BOOT_READY = true := by
  delta BusOpen; decide +kernel

theorem test_witness_FlashArray :
    ((1 : Nat) < 2 ∧ (⟨2039, 2040, 0, [], [], 0, 0, 0, [], false⟩ : Win).back ≤ winN 1 ∧ 2039 < winN 1) ∧ (0 < Win.init.gap 0 ∧ ({ Win.init with back := 256 } : Win).gap 0 = 0) ∧
    (flashFull ≤ 0x09FFF000 ∧ 0x09FFF000 + 4096 ≤ 0x0A000000 ∧ 0x02000000 ≤ 0x09FFFFFF) ∧ (List.replicate 4096 (0 : Byte)).length ≤ 4096 := by decide +kernel

theorem test_witness_FloodAndMeshTime_ages :
    (let d : Dev := { fields [(FLD_CFG, FLD_CFG_TIMEROOT, 1)] up with fld := { up.fld with wasSet := true } }
     d.timeRoot = true ∧ d.fld.wasSet = true) ∧ up.fld.wasSet = false ∧
    ((up.cacheOf 0).since + 122880 * (up.cacheOf 0).delay ≤ up.clk.cyc ∧
      (let d := up.setCache 4095 { CacheE.init with state := ceWAIT, delay := 1 }
       d.clk.cyc < (d.cacheOf 4095).since + 122880 * (d.cacheOf 4095).delay)) := by
  decide +kernel

def locked (l : Lock) (d : Dev) : Dev := d.setLock 63 l

theorem test_witness_LockCellsAndCores :
    BusOpen ⟨up, []⟩ 4 (SEM_TAKE 63) false ∧ BusOpen ⟨up, []⟩ 4 (SEM_GIVE 63) true ∧ BusOpen ⟨up, []⟩ 6 (SEM_RESCUE 63) false ∧ up.lock 63 = .free ∧
    (locked (.held 4) up).lock 63 = .held (4 : Fin 7) ∧ ((locked (.held 6) up).lock 63 = .held 6 ∧ 6 ≠ (4 : Fin 7).val) ∧
    (locked (.orphaned 3) up).lock 63 = .orphaned 3 ∧ getF (1 : Word) SEM_GIVE_GIVE = 1 ∧ getF (0 : Word) SEM_GIVE_GIVE = 0 ∧
    ((fields [(SEM_CFG, SEM_CFG_RESCUE, 64)] up).get SEM_CFG SEM_CFG_RESCUE).testBit (6 : Fin 7) = true ∧ (up.get SEM_CFG SEM_CFG_RESCUE).testBit (5 : Fin 7) = false ∧
    (locked (.orphaned 3) up).lock 63 ≠ .held (0 : Fin 7) := by
  delta BusOpen; decide +kernel

theorem test_witness_LockCellsAndCores_cores :
    BusOpen ⟨up, []⟩ 6 SYS_CORERST true ∧ getF (0 : Word) SYS_CORERST_KEY ≠ 0x5A ∧
    (let v := mkWord [(SYS_CORERST_KEY, 0x5A), (SYS_CORERST_CORE, 8)]
     getF v SYS_CORERST_KEY = 0x5A ∧ testBit v (3 : Fin 7) = true ∧ testBit v (0 : Fin 7) = false ∧ (levels up).planLevel (3 : Fin 7) ≠ 0xFF ∧ (levels up).coreState 3 ≠ 0) ∧
    (up.setCoreState 5 4).coreState 5 = 4 ∧ up.coreState 5 ≠ 4 ∧ up.lock 0 ≠ Lock.held (5 : Fin 7).val := by
  delta BusOpen; decide +kernel


theorem test_witness_LockCellsAndCores_interrupts :
    (taking.coreRuns 6 = true ∧ (taking.presented 6).isSome = true ∧ getF (taking.core 6).fl flIE = 1 ∧ getF (taking.core 6).fl flEXL = 0) ∧
    (up.setCoreState 6 2).coreRuns 6 = false ∧ up.presented 0 = none ∧
    (let d := (asking 5 up).setCoreState 6 2
     d.coreState 6 = 2 ∧ (d.presented 6).isSome = true ∧ d.heldHalted 6 = false ∧ getF (d.core 6).fl flIE = 0) ∧ up.coreState 6 ≠ 2 := by decide +kernel

def stacked (l : List (Nat × Nat)) : Dev := cored 6 (fun x => { x with stk := l }) up
def sensed : Dev := planned tIRQ 0 ((List.replicate 1151 ([0, 0] : List Byte)).flatten ++ [0x30, 0]) up

theorem test_witness_Interrupts :
    (up.fieldOn 1 = true ∧ up.clk.stopped = false ∧ (1103 : Fin 1152).val < 1104) ∧ { up with pwr := { up.pwr with fields := 0 } }.fieldOn 1 = false ∧ { up.clk with stopped := true }.stopped = true ∧
    (let d := planned tPADS 0 ((List.replicate 48 ([1, 0] : List Byte)).flatten) up
     1104 ≤ (1104 : Fin 1152).val ∧ padFunc ((d.sec tPADS 0).getD []) ((1104 : Fin 1152).val - 1104) = 1 ∧ d.fieldOn 6 = true ∧ sget false d.irqPulse 1104 = false) ∧
    (let d := fields [(IRQ_HOLD 35, IRQ_HOLD_RUN, 1)] up
     (d.flag (IRQ_HOLD 35) IRQ_HOLD_RUN = true ∧ sget 0 d.holdDue 35 ≤ d.nowU) ∧ d.nowU < sget 0 { d with holdDue := [(35, 9)] }.holdDue 35 ∧
     up.flag (IRQ_HOLD 35) IRQ_HOLD_RUN = false ∧ (d.put (IRQ_HOLD 35) IRQ_HOLD_INTERVAL 1).flag (IRQ_HOLD 35) IRQ_HOLD_RUN = true ∧
     (up.put (IRQ_HOLD 35) IRQ_HOLD_INTERVAL 1).flag (IRQ_HOLD 35) IRQ_HOLD_RUN = false ∧ (d.put (IRQ_HOLD 35) IRQ_HOLD_INTERVAL 0).flag (IRQ_HOLD 35) IRQ_HOLD_RUN = true) ∧
    (up.get (IRQ_CFG 7) IRQ_CFG_SENSE = 0 ∧ up.flag (IRQ_CFG 7) IRQ_CFG_ACT = false) ∧
    ((asking 5 up).get (IRQ_CFG 1151) IRQ_CFG_SENSE = 1 ∧ (asking 5 up).flag (IRQ_CFG 1151) IRQ_CFG_LINE = false) ∧
    BusOpen ⟨up, []⟩ 0 (IRQ_SWPEND 35) true ∧ BusOpen ⟨up, []⟩ 0 (IRQ_PEND 35) true ∧ BusOpen ⟨up, []⟩ 6 (IRQ_ACK 6) false ∧ BusOpen ⟨up, []⟩ 6 (IRQ_EOI 6) true ∧
    BusOpen ⟨up, []⟩ 0 (IRQ_HOLD 35) true ∧ up.presented 6 = none ∧ ((asking 5 up).presented 6 = some 1151 ∧ 1151 < 1152) ∧
    (((stacked [(1151, 5), (3, 2)]).core 6).stk = (1151, 5) :: [(3, 2)] ∧ getF (mkWord [(IRQ_EOI_SRC, 1151)]) IRQ_EOI_SRC = 1151 ∧ 1151 ≠ getF (0 : Word) IRQ_EOI_SRC) ∧
    ((stacked []).core 6).stk = [] ∧ getF (mkWord [(IRQ_HOLD_INTERVAL, 1)]) IRQ_HOLD_INTERVAL ≠ 0 ∧ getF (0 : Word) IRQ_HOLD_INTERVAL = 0 := by
  delta BusOpen; decide +kernel

theorem test_witness_Interrupts_latch :
    (let d := { sensed with pwr := { up.pwr with fields := 0 } }
     latched (1151 : Fin 1152) = true ∧ d.fieldOn 1 = false ∧ d.plan16 tIRQ 0 (2 * (1151 : Fin 1152)) / 16 % 4 = 3) := by decide +kernel

theorem test_witness_PresentedIsHighest :
    (let d := fields [(IRQ_CFG 3, IRQ_CFG_PEND, 1), (IRQ_CFG 3, IRQ_CFG_EN, 1), (IRQ_CFG 3, IRQ_CFG_PRI, 4), (IRQ_CFG 3, IRQ_CFG_TARGET, 6)] (asking 5 up)
     d.presented 6 = some 1151 ∧ 3 ∈ d.srcListed ∧ d.eligible 3 6 = true ∧ d.flag (IRQ_CFG 3) IRQ_CFG_LOWPRI = false) := by decide +kernel

def gated (n : Nat) : Dev := fields [(HDL_GATED, HDL_GATED_LATCH, 128), (RTC_ATCTL 7, RTC_ATCTL_GSTART, n)] up

theorem test_witness_HeadlandRouting :
    (hlProducer (routed up).hl 3 = 0 ∧ 0xF00 ≤ hlProducer (routed up).hl 2) ∧
    (let d := { routed up with hdlPend := [(0x200, 0)] }
     hlProducer d.hl 0 < 0xF00 ∧ isPulse (hlProducer d.hl 0) = true ∧ d.producerOff (hlProducer d.hl 0) = false ∧ d.pulseDue (hlProducer d.hl 0) = some (0x200, 0)) ∧
    ((routed up).pulseDue (hlProducer (routed up).hl 0) = none ∧ ({ routed up with pwr := { up.pwr with fields := 0 } } : Dev).producerOff (hlProducer (routed up).hl 0) = true ∧
      (routed up).producerOff (hlProducer (routed up).hl 1) = false) ∧
    (hlProducer (routed up).hl 1 ≠ 0 ∧ hlProducer (routed up).hl 1 < 0xF00 ∧ isPulse (hlProducer (routed up).hl 1) = false) ∧
    sget 0 (routed up).cellCnt 127 < (routed up).cellWait 127 ∧
    (let d := fields [(HDL_LUT 127, HDL_LUT_LUT, 1)] (routed up)
     cellChannel d.hl 127 = some 2 ∧ (let e : Dev := { d with cellCnt := sset 0 d.cellCnt 127 (d.cellWait 127) }
       cellChannel e.hl 127 = some 2 ∧ e.cellWait 127 ≤ sget 0 e.cellCnt 127) ∧
      sget 0 d.lutSwap 127 ≠ d.clk.cyc + 1 ∧ sget 0 { d with lutSwap := [(127, 1)] }.lutSwap 127 = d.clk.cyc + 1) ∧
    (routed up).fireDenied 5 0 = true ∧ (routed up).fireDenied 5 2 = true ∧ ((routed up).fireDenied 4 0 = false ∧ BusOpen ⟨routed up, []⟩ 4 HDL_FIRE true) ∧ (routed up).fireDenied 0 1 = false ∧
    (routed up).lutDenied 0 127 = true ∧ ((routed up).lutDenied 4 127 = false ∧ BusOpen ⟨routed up, []⟩ 4 (HDL_LUT 127) true) ∧
    (routed up).groupDenied 5 1 = true ∧ ((routed up).groupDenied 5 0 = false ∧ BusOpen ⟨routed up, []⟩ 5 HDL_GRPSET true ∧ BusOpen ⟨routed up, []⟩ 5 HDL_GRPCLR true) ∧
    (up.get HDL_GATED HDL_GATED_LATCH).testBit (0 : Fin 8) = false ∧
    (((gated 0).get HDL_GATED HDL_GATED_LATCH).testBit (7 : Fin 8) = true ∧ ∀ t < 8, (gated 0).get (RTC_ATCTL t) RTC_ATCTL_GSTART ≠ (7 : Fin 8).val + 1) ∧
    (((gated 8).get HDL_GATED HDL_GATED_LATCH).testBit (7 : Fin 8) = true ∧ (gated 8).get (RTC_ATCTL 7) RTC_ATCTL_GSTART = (7 : Fin 8).val + 1) := by
  delta BusOpen; decide +kernel

theorem test_witness_HeadlandRouting_idle : cellChannel [] 0 = none := by decide +kernel

/-- Timer 23 with its hidden part. -/
def timing (x : TmrSt) (l : List (Nat × Fld × Nat)) : Dev := (fields l up).setTmr 23 x

theorem test_witness_Timers :
    ((2 : Nat) < 3 ∧ 1 ≤ 2 ^ 47 - 1 ∧ 2 ^ 47 - 1 < 2 ^ 47 ∧ 2 ^ 47 - 2 < 2 ^ 47 - 1) ∧ up.flag (TMR_CTL 0) TMR_CTL_RUN = false ∧
    (let d := (timing TmrSt.init [(TMR_CTL 23, TMR_CTL_HALTFRZ, 1)]).setCoreState 0 5
     d.tmrFrozen 23 = true) ∧
    (up.tmrOf 23).pre < up.get (TMR_CTL 23) TMR_CTL_PRESC + 1 ∧ ((timing TmrSt.init [(TMR_CTL 23, TMR_CTL_HALTFRZ, 1)]).setCoreState 0 5).tmrHeld 23 = true ∧ up.tmrHeld 23 = false ∧
    (let d := timing { TmrSt.init with pre := 1 } [(TMR_CTL 23, TMR_CTL_RUN, 1)]
     d.get (TMR_CTL 23) TMR_CTL_PRESC + 1 ≤ (d.tmrOf 23).pre ∧
     d.flag (TMR_CTL 23) TMR_CTL_RUN = true ∧ d.tmrFrozen 23 = false ∧ d.flag (TMR_STAT 23) TMR_STAT_LFRUN = false ∧ d.clk.stopped = false ∧ d.fieldOn 1 = true ∧ d.frozen = false ∧
     d.flag (TMR_CTL 23) TMR_CTL_ONESHOT = false) ∧
    (up.tmrOf 23).per = false ∧ ((timing { TmrSt.init with per := true } []).tmrOf 23).per = true ∧ up.tmrCmpDue 23 1 = false ∧
    (timing { TmrSt.init with arm1 := true } [(TMR_CMP_LO 23 1, ⟨31, 0⟩, 0), (TMR_CMP_HI 23 1, ⟨15, 0⟩, 0)]).tmrCmpDue 23 1 = true ∧ (fields [(TMR_STAT 23, TMR_STAT_CAPF, 1)] up).flag (TMR_STAT 23) TMR_STAT_CAPF = true ∧
    up.ballWith 5 23 = false ∧ BusOpen ⟨up, []⟩ 4 (TMR_CTL 23) true ∧ getF (0 : Word) TMR_CTL_RUN = 0 ∧ getF (mkWord [(TMR_CTL_RUN, 1)]) TMR_CTL_RUN = 1 ∧
    BusOpen ⟨up, []⟩ 0 TMR_GCMD true ∧ BusOpen ⟨up, []⟩ 0 (tmrHiAddr 23 .per) true ∧ BusOpen ⟨up, []⟩ 0 (tmrHiAddr 23 .cnt) true ∧
    (let n := ((up.tmrOf 23).staged .per).getD (up.reg (tmrLoAddr 23 .per)).toNat + 2 ^ 32 * ((0xFFFF : Word).toNat % 2 ^ 16)
     ¬ (1 ≤ n ∧ n < 2 ^ 47)) ∧
    (let n := ((timing { TmrSt.init with loPer := some 1 } []).tmrOf 23).staged .per
     1 ≤ n.getD 0 ∧ n.getD 0 < 2 ^ 47) := by
  delta BusOpen; decide +kernel

theorem test_witness_Timers_aon :
    BusOpen ⟨up, []⟩ 4 (RTC_ATLOAD 7) true ∧ BusOpen ⟨up, []⟩ 4 (RTC_ATCTL 7) true ∧
    (up.atOf 7 = AtSt.init ∧ (fields [(RTC_ATCTL 7, RTC_ATCTL_RUN, 1)] up).flag (RTC_ATCTL 7) RTC_ATCTL_RUN = true ∧ (fields [(RTC_ATCTL 7, RTC_ATCTL_RUN, 1)] up).atOf 7 = AtSt.init) ∧
    0 < ((fields [(RTC_ATCNT 7, ⟨31, 0⟩, 1)] up).reg (RTC_ATCNT 7)).toNat ∧ (up.atOf 7).exp = false ∧ ((up.setAont 7 { AtSt.init with exp := true }).atOf 7).exp = true ∧
    (fields [(RTC_ATCTL 7, RTC_ATCTL_PERIODIC, 1)] up).flag (RTC_ATCTL 7) RTC_ATCTL_PERIODIC = true ∧ up.flag (RTC_ATCTL 7) RTC_ATCTL_PERIODIC = false ∧
    (fields [(RTC_CTL, RTC_CTL_MESHLOCK, 1), (FLD_STAT, FLD_STAT_ACQ, 0), (CLK_STAT, CLK_STAT_FALLBACK, 0)] up).rtcLocks = true ∧ (up.rtcLocks = false ∧ up.rtcFNow = 0 ∧ up.clk.rtcFrac < 2 ^ 32) := by
  delta BusOpen; decide +kernel

def haltedCal (b : Nat) : Dev := fields [(RTC_STAT, RTC_STAT_HALTED, b)] up

theorem test_witness_Timers_calendar :
    BusOpen ⟨up, []⟩ 6 RTC_SUB false ∧ BusOpen ⟨up, []⟩ 0 RTC_DATE true ∧ BusOpen ⟨up, []⟩ 0 RTC_TIME true ∧
    (fields [(RTC_CTL, RTC_CTL_HALT, 1)] up).flag RTC_CTL RTC_CTL_HALT = true ∧ (fields [(RTC_CTL, RTC_CTL_HALT, 0)] up).flag RTC_CTL RTC_CTL_HALT = false ∧
    ((haltedCal 1).flag RTC_STAT RTC_STAT_HALTED = true ∧ dateOk 0x23991231 = true ∧ timeOk 0x00235959 = true) ∧ (haltedCal 0).flag RTC_STAT RTC_STAT_HALTED = false ∧
    dateOk 0x24000101 = false ∧ dateOk 0x21000229 = false ∧ timeOk 0x00240000 = false ∧
    ((fields [(RTC_CTL, RTC_CTL_HALT, 0)] (haltedCal 1)).flag RTC_STAT RTC_STAT_HALTED = true ∧ (fields [(RTC_CTL, RTC_CTL_HALT, 0)] (haltedCal 1)).flag RTC_CTL RTC_CTL_HALT = false) ∧
    (let d := fields [(RTC_CTL, RTC_CTL_ALEN, 1)] (haltedCal 0)
     d.flag RTC_CTL RTC_CTL_ALEN = true ∧ d.flag RTC_STAT RTC_STAT_HALTED = false ∧ calNumber (d.reg RTC_ALDATE) (d.reg RTC_ALTIME) ≤ calNumber (d.reg RTC_DATE) (d.reg RTC_TIME)) ∧
    (let d := fields [(RTC_CTL, RTC_CTL_TICKSEL, 5)] (haltedCal 0)
     tickUnit (d.get RTC_CTL RTC_CTL_TICKSEL) ≠ 0) ∧
    (let d := fields [(RTC_CTL, RTC_CTL_TICKSEL, 2), (RTC_T_LO, ⟨31, 0⟩, 245760000)] (haltedCal 0)
     d.flag RTC_STAT RTC_STAT_HALTED = false ∧ tickUnit (d.get RTC_CTL RTC_CTL_TICKSEL) ≠ 0 ∧
     d.clk.lastK / tickUnit (d.get RTC_CTL RTC_CTL_TICKSEL) < d.calK / tickUnit (d.get RTC_CTL RTC_CTL_TICKSEL)) := by
  delta BusOpen; decide +kernel

theorem test_witness_RoundTrips :
    (dateOk 0x20240229 = true ∧ timeOk 0x00235959 = true) ∧ ([0] : List Byte) ≠ [] ∧ (CoreSt.init.fl &&& 0xFFFF = CoreSt.init.fl) ∧
    ({ CoreSt.init with fl := 0xFFFF }.fl &&& 0xFFFF = { CoreSt.init with fl := 0xFFFF }.fl) := by decide +kernel

theorem test_witness_Interrupts_first_sample :
    sget false up.irqNew 7 = false ∧ up.srcEdge 7 = false ∧
    (let d : Dev := { asking 5 up with irqNew := sset false up.irqNew 1103 true }
     sget false (d.put (IRQ_CFG 1103) IRQ_CFG_SENSE 1).irqNew 1103 = true ∧ (d.put (IRQ_CFG 1103) IRQ_CFG_SENSE 1).srcEdge 1103 = true) := by
  decide +kernel

theorem test_witness_Timers_cycles :
    ((up.tmrOf 23).cntWr ≠ up.clk.cyc + 1 ∧ (up.tmrOf 23).capAt ≠ up.clk.cyc + 1 ∧ (up.tmrOf 23).oldAt ≠ up.clk.cyc + 1 ∧ (up.tmrOf 23).evStop ≠ up.clk.cyc + 1) ∧
    (let d := timing { TmrSt.init with capAt := up.clk.cyc + 1 } []
     d.fieldOn 1 = true ∧ (d.tmrOf 23).capAt = d.clk.cyc + 1) ∧ ({ up with pwr := { up.pwr with fields := 0 } } : Dev).fieldOn 1 = false ∧
    ({ up with pwr := { up.pwr with fields := 0 } } : Dev).fieldOn 6 = false := by
  decide +kernel

theorem test_witness_AlwaysOnTime_last_count :
    (let d := fields [(RTC_ATCTL 7, RTC_ATCTL_RUN, 1), (RTC_ATCNT 7, ⟨31, 0⟩, 1)] up
     d.pwr.off = false ∧ (∀ u, (d.atOf 7).ctl = some u → getF u RTC_ATCTL_RUN = 0) ∧ (d.atOf 7).start = false ∧ d.flag (RTC_ATCTL 7) RTC_ATCTL_RUN = true ∧ d.reg (RTC_ATCNT 7) = 1) ∧
    (let d := fields [(RTC_ATCTL 7, RTC_ATCTL_RUN, 1), (RTC_ATCTL 7, RTC_ATCTL_PERIODIC, 1), (RTC_ATCNT 7, ⟨31, 0⟩, 1)] (up.setAont 7 { AtSt.init with ctl := some 0 })
     (d.atOf 7).ctl = some 0 ∧ getF (0 : Word) RTC_ATCTL_RUN = 0 ∧ (d.atOf 7).ctl ≠ none ∧ d.flag (RTC_ATCTL 7) RTC_ATCTL_PERIODIC = true ∧ d.reg (RTC_ATCNT 7) = 1) := by
  refine ⟨⟨by decide +kernel, ?_, by decide +kernel⟩, by decide +kernel⟩
  have h : ((fields [(RTC_ATCTL 7, RTC_ATCTL_RUN, 1), (RTC_ATCNT 7, ⟨31, 0⟩, 1)] up).atOf 7).ctl = none := by decide +kernel
  intro u h'
  rw [h] at h'
  simp at h'

/-! ### Instructions -/


/-- What core 4 has before it. -/
def ctxOf (d : Dev) : Ctx :=
  let b := match (d.fetch 4).1 with
    | .whole b => b
    | .fault _ _ => []
  ⟨4, (d.core 4).pc, (d.core 4).pc + BitVec.ofNat 32 (parse b).len, parse b⟩

/-- Core 4 is about to run an instruction that `mn` picks. -/
def runsAs (mn : Mn) (d : Dev) : Bool :=
  let k := ctxOf d
  let e := (d.fetch 4).2
  d.coreRuns 4 && (match (d.fetch 4).1 with | .whole _ => true | .fault _ _ => false) && decide (k.i.mn = mn) && !k.i.bad && !e.svc.fall && !e.confOver && decide (e.svc.bad = none)

theorem runs_of_runsAs (mn : Mn) (d : Dev) (h : runsAs mn d = true) : Runs d 4 mn (ctxOf d) (d.fetch 4).2 := by
  unfold runsAs at h
  simp only [Bool.and_eq_true, Bool.not_eq_true', decide_eq_true_eq] at h
  obtain ⟨⟨⟨⟨⟨⟨h1, h2⟩, h3⟩, h4⟩, h5⟩, h6⟩, h7⟩ := h
  refine ⟨h1, rfl, rfl, rfl, ?_, h3, h4, h5, h6, h7⟩
  revert h2
  unfold ctxOf
  rcases hf : d.fetch 4 with ⟨f, e⟩
  cases f with
  | whole b => exact fun _ => ⟨b, rfl, rfl⟩
  | fault a p => exact fun h => absurd h (by simp)

theorem test_witness_InstructionPicked :
    vorokRow (.add 4) = some (4, .add) ∧ (up.setCoreState 4 2).coreRuns 4 = false ∧ (prog [0x10, 0x12] []).coreRuns 4 = true ∧
    ((match (cored 4 (fun x => { x with pc := 0x21400000 }) up).fetch 4 with | (.fault _ _, _) => true | _ => false) = true) ∧
    ((match (prog [0x10, 0x12] []).fetch 4 with | (.whole b, _) => (parse b).mn == .add && !(parse b).bad | _ => false) = true) ∧
    ((match (prog [0xF0, 0xF1, 0x10, 0x12] []).fetch 4 with | (.whole b, _) => (parse b).mn == .add && (parse b).bad | _ => false) = true) := by decide +kernel

theorem test_witness_ExceptionEntry :
    getF (up.core 4).fl flEXL = 0 ∧
    (let d := (flags (setF 0 flEXL 1) up).setLock 63 (.held 4)
     getF (d.core 4).fl flEXL = 1 ∧ d.lock 63 = .held (4 : Fin 7) ∧ d.lock 0 ≠ .held (4 : Fin 7)) := by decide +kernel

/-- The register form, the immediate forms and the narrow forms of ADD, ADC, SUB, SBB, CMP, and NEG. -/
def arith (p : List Byte) : List (List Byte × Mn) :=
  [(p ++ [0x10, 0x12], .add), (p ++ [0x19, 0x10, 0x80], .adc), (p ++ [0x22, 0x10, 0, 0, 0, 0x80], .sub), (p ++ [0x13, 0x12], .sbb), (p ++ [0x17, 0x12], .cmp), (p ++ [0x2D, 0xF0], .neg)]

theorem test_witness_BinaryArithmetic :
    ∀ p ∈ [[], [0xF2], [0xF3], [0xF4], [0xF2, 0xF4]], ∀ r ∈ arith p,
      let d := prog r.1 [0, 0x80000000, 1]
      runsAs r.2 d = true ∧ (ctxOf d).i.has .dec = false ∧ (ctxOf d).i.has .smp = false := by decide +kernel

theorem test_witness_DecimalTables :
    (isBcd 8 0x99999999 = true ∧ isBcd 8 0 = true ∧ isBcd 2 0x9A = false ∧ (1 : Nat) ≤ 1) ∧ 0x99999999 < 2 ^ 32 ∧ 99999999 < 100000000 := by decide +kernel

theorem test_witness_DecimalInstructions :
    (∀ p ∈ [[0xF0], [0xF2, 0xF0], [0xF0, 0xF3]], ∀ r ∈ arith p,
      let d := prog r.1 [0, 0x00000099, 1]
      runsAs r.2 d = true ∧ (ctxOf d).i.has .dec = true ∧ (ctxOf d).i.has .smp = false) ∧
    (∀ r ∈ [([0xE0, 0x10, 0x10], Mn.daja), ([0xE0, 0x11, 0xF0], .dajs), ([0xE0, 0x12, 0x1F], .cvbd), ([0xE0, 0x13, 0xF1], .cvdb), ([0xE0, 0x14, 0x10], .chkd)],
      runsAs r.2 (prog r.1 []) = true) := by decide +kernel

theorem test_witness_LogicShiftsAndProducts :
    (∀ p ∈ [[], [0xF2], [0xF3], [0xF4]], ∀ r ∈ [([0x14, 0x12], Mn.and), ([0x1D, 0x10, 0xFF], .or), ([0x26, 0xF0, 1, 2, 3, 4], .xor), ([0x2F, 0x10, 1, 2, 3, 4], .tst), ([0x2C, 0x10], .not)],
      runsAs r.2 (prog (p ++ r.1) []) = true) ∧
    (∀ r ∈ [([0xF3, 0x28, 0x12], Mn.mov), ([0x29, 0xF0, 1, 2, 3, 4], .mov), ([0x2A, 0x10, 0x80], .movs), ([0x2B, 0x11], .xchg), ([0xE0, 0x01, 0x12], .clz), ([0xE0, 0x02, 0x12], .bswap),
        ([0xF3, 0xE0, 0x03, 0x12], .sext), ([0x63, 0x1F, 0xC0, 1, 2, 3, 4], .lea), ([0xE0, 0x08, 0xF0], .movfl), ([0x00], .nop), ([0x02, 0], .fenceFull), ([0x02, 1], .fenceLoad),
        ([0x02, 2], .fenceStore), ([0x02, 3], .fenceSync)], runsAs r.2 (prog r.1 []) = true) ∧
    (∀ r ∈ [([0x30, 0x12], Mn.shl), ([0x39, 0x10, 31], .shr), ([0x3A, 0x10, 0], .sar), ([0x33, 0x12], .rol), ([0x3C, 0x10, 1], .ror), ([0xF2, 0x35, 0x12], .mul)],
      let d := prog r.1 [0, 0x80000000, 31]
      runsAs r.2 d = true ∧ (ctxOf d).i.has .smp = false) ∧
    (∀ r ∈ [([0x36, 0x12], Mn.mulh), ([0x37, 0x12], .mulhu), ([0x3D, 0x12], .div), ([0x3E, 0x12], .divu), ([0x3F, 0x12], .rem), ([0xE0, 0x00, 0x12], .remu)],
      let d := prog r.1 [0, 0x80000000, 0xFFFFFFFF]
      runsAs r.2 d = true ∧ (d.core 4).gr (ctxOf d).i.s ≠ 0 ∧ ((prog r.1 []).core 4).gr (ctxOf d).i.s = 0) := by decide +kernel

theorem test_witness_SamplePairs :
    (∀ p ∈ [[0xF1], [0xF1, 0xF2]], ∀ r ∈ [([0x10, 0x12], Mn.add), ([0x12, 0x12], .sub), ([0x2D, 0x10], .neg), ([0x3A, 0x10, 11], .sar), ([0x35, 0x12], .mul)],
      let d := prog (p ++ r.1) [0, 0x01F403E8, 0xFC000400]
      runsAs r.2 d = true ∧ (ctxOf d).i.has .smp = true ∧ (ctxOf d).i.size = 4) ∧
    (∀ r ∈ [([0xE0, 0x18, 0x12], Mn.spmulc), ([0xE0, 0x19, 0x12], .spmag)], runsAs r.2 (prog r.1 []) = true) ∧ 2 ^ 24 - 1 < 2 ^ 24 := by decide +kernel

/-- The word accesses that core 4 makes at `a` of SRAM are open. -/
def ramOpen (d : Dev) (kind : AccKind) (n a : Nat) : Bool :=
  let e := (d.fetch 4).2
  decide (0x20000000 ≤ a ∧ a + n ≤ 0x21400000) && decide (e.accCode (e.acc (ctxOf d) kind true false) 4 a n = none) && e.memErr.isEmpty

theorem test_witness_JumpsAndStack :
    (∀ cc ∈ span 0 15, runsAs .bcc (prog [BitVec.ofNat 8 (0x40 + cc), 0x80] []) = true ∧ runsAs .bcc (prog [BitVec.ofNat 8 (0x50 + cc), 0, 0, 0, 0x80] []) = true ∧
      (ctxOf (prog [BitVec.ofNat 8 (0x40 + cc), 0x80] [])).i.op % 16 = cc) ∧
    (∀ r ∈ [([0x68, 0x80], Mn.jmp), ([0x69, 0, 0, 0, 0x80], .jmp), ([0x6A, 0x10], .jmpr), ([0x64, 0xF0], .push), ([0x66, 0, 0, 0, 0x80], .call), ([0x67, 0xF0], .callr), ([0x65, 0xF0], .pop), ([0x04], .ret)],
      let d := prog r.1 (List.replicate 15 0 ++ [0x20000100])
      let m := prog r.1 (List.replicate 15 0 ++ [0x20000102])
      runsAs r.2 d = true ∧ ((d.core 4).gr spReg - 4).toNat % 4 = 0 ∧ ramOpen d .store 4 0x200000FC = true ∧ ramOpen d .load 4 0x20000100 = true ∧
      runsAs r.2 m = true ∧ ((m.core 4).gr spReg - 4).toNat % 4 ≠ 0 ∧ ((m.core 4).gr spReg).toNat % 4 ≠ 0) := by decide +kernel

theorem test_witness_LoadsAndStores :
    (∀ r ∈ [([0x60, 0x12, 0x0F], Mn.ld), ([0xF3, 0x62, 0x12, 0x0F], .lds), ([0xF4, 0x61, 0x12, 0x0F], .st), ([0x6B, 0x12, 0x0F], .ldx), ([0x6C, 0x12, 0x0F], .stx),
        ([0xE0, 0x1A, 0x12, 0x0F], .ldsp), ([0xE0, 0x1B, 0x12, 0x0F], .stsp)],
      let d := prog r.1 [0, 5, 0x20000100]
      runsAs r.2 d = true ∧ (ctxOf d).i.addr (d.core 4) (ctxOf d).next = 0x20000100 ∧ ramOpen d .store 4 0x20000100 = true ∧ ramOpen d .load 4 0x20000100 = true) ∧
    (∀ r ∈ [([0x60, 0x12, 0x0F], Mn.ld), ([0xF4, 0x62, 0x12, 0x0F], .lds), ([0xF4, 0x61, 0x12, 0x0F], .st), ([0x6C, 0x12, 0x0F], .stx)],
      let d := prog r.1 [0, 5, 0x20000101]
      runsAs r.2 d = true ∧ ((ctxOf d).i.addr (d.core 4) (ctxOf d).next).toNat % (ctxOf d).i.size ≠ 0) ∧
    (let d := cored 4 (fun x => { x with resv := some (0x20000100 / 64) }) (prog [0x6C, 0x12, 0x0F] [0, 5, 0x20000100])
     runsAs .stx d = true ∧ (d.core 4).resv = some (((ctxOf d).i.addr (d.core 4) (ctxOf d).next).toNat / 64)) ∧
    ((prog [0x6C, 0x12, 0x0F] []).core 4).resv ≠ some 0 := by decide +kernel

theorem test_witness_LoadsAndStores_excl :
    (let d := prog [0x6B, 0x12, 0x0F] [0, 5, 0x20000100]
     let e := (d.fetch 4).2
     e.accCode (e.acc (ctxOf d) .load true true) 4 0x20000100 4 = none ∧ e.accCode (e.acc (ctxOf d) .store true true) 4 0x20000100 4 = none ∧
     e.accCode (e.acc (ctxOf d) .load false false) 4 0x20000100 3 = none ∧ e.accCode (e.acc (ctxOf d) .store false false) 4 0x20000100 3 = none) := by decide +kernel

theorem test_witness_SystemInstructions :
    (∀ r ∈ [([0x03, 0xFF], Mn.trap), ([0x07], .ud), ([0xF7], .ud), ([0x06], .brk), ([0x01], .halt), ([0x05], .iret), ([0xE0, 0x09, 0x10], .setfl), ([0xE0, 0x0A, 0x10, 0x99, 0], .csrr),
        ([0xE0, 0x0B, 0x10, 0x99, 0], .csrw), ([0x08], .reserved), ([0xE0, 0xFF], .reserved)],
      runsAs r.2 (prog r.1 []) = true ∧ runsAs r.2 (flags (setF 0 flU 1) (prog r.1 [])) = true ∧ getF ((flags (setF 0 flU 1) (prog r.1 [])).core 4).fl flU = 1 ∧
      getF ((prog r.1 []).core 4).fl flU = 0 ∧ (fields [(SVC_STAT, SVC_STAT_SESSION, 1)] (prog r.1 [])).flag SVC_STAT SVC_STAT_SESSION = true ∧
      (prog r.1 []).flag SVC_STAT SVC_STAT_SESSION = false) ∧
    (∀ n ∈ [0x00, 0x10, 0x11, 0x12, 0x13, 0x14, 0x15, 0x20, 0x21],
      runsAs .csrr (prog [0xE0, 0x0A, 0x10, BitVec.ofNat 8 n, 0] []) = true ∧ (ctxOf (prog [0xE0, 0x0A, 0x10, BitVec.ofNat 8 n, 0] [])).i.imm = n ∧
      runsAs .csrw (prog [0xE0, 0x0B, 0x10, BitVec.ofNat 8 n, 0] []) = true ∧ (ctxOf (prog [0xE0, 0x0B, 0x10, BitVec.ofNat 8 n, 0] [])).i.imm = n) ∧
    0x99 ∉ [0x00, 0x10, 0x11, 0x12, 0x13, 0x14, 0x15, 0x20, 0x21] := by decide +kernel

/-! ### Power, calibration, contactless -/

theorem test_witness_PowerCeilingHolds :
    (up.requestResv 5 0 3).1 = true ∧ (1 : Nat) ≠ 5 ∧ (up.requestResv 5 65535 63).1 = false ∧ up.get PWR_CEILREF PWR_CEILREF_COUNT < 0xFFFF ∧ (0 : Nat) ≠ PWR_CEILREF := by decide +kernel

def pl (n : Nat) : Nat := PWR_PLEVEL n

theorem test_witness_PerformanceLevels :
    (BusOpen ⟨levels up, []⟩ 0 (PWR_PLEVEL 6) true) ∧ (fields [(pl 6, PWR_PLEVEL_BUSY, 1)] up).flag (pl 6) PWR_PLEVEL_BUSY = true ∧
    (up.flag (pl 6) PWR_PLEVEL_BUSY = false ∧ (planned tPOWER 0 (List.replicate 64 0xFF) up).planLevel (6 : Fin 7) = 0xFF ∧ (levels up).planLevel (6 : Fin 7) ≠ 0xFF ∧
      (levels up).flag (pl 6) PWR_PLEVEL_BUSY = false) ∧
    getF (1 : Word) PWR_PLEVEL_LEVEL = up.get (pl 6) PWR_PLEVEL_LEVEL ∧ up.get (pl 6) PWR_PLEVEL_LEVEL < getF (3 : Word) PWR_PLEVEL_LEVEL ∧
    (getF (0 : Word) PWR_PLEVEL_LEVEL < up.get (pl 6) PWR_PLEVEL_LEVEL ∧ up.flag PWR_MON PWR_MON_OVER = false ∧ (fields [(PWR_MON, PWR_MON_OVER, 1)] up).flag PWR_MON PWR_MON_OVER = true ∧
      up.resvFits (resvCore (6 : Fin 7)) (coreMw (getF (0 : Word) PWR_PLEVEL_LEVEL)) = true ∧
      (fields [(PWR_CEIL, PWR_CEIL_CEIL, 0)] up).resvFits (resvCore (6 : Fin 7)) (coreMw (getF (0 : Word) PWR_PLEVEL_LEVEL)) = false) ∧
    (let d := fields [(pl 6, PWR_PLEVEL_BUSY, 1), (pl 6, PWR_PLEVEL_LEVEL, 2)] up
     let run : Dev := { d with pwr := { d.pwr with lvlRun := some 6 } }
     let was := d.put (pl 6) PWR_PLEVEL_CUR 2
     (d.flag (pl 6) PWR_PLEVEL_BUSY = true ∧ d.pwr.lvlRun ≠ some (6 : Fin 7).val ∧ d.get (pl 6) PWR_PLEVEL_LEVEL ≠ d.get (pl 6) PWR_PLEVEL_CUR) ∧
     (run.flag (pl 6) PWR_PLEVEL_BUSY = true ∧ run.pwr.lvlRun = some (6 : Fin 7).val) ∧
     (was.flag (pl 6) PWR_PLEVEL_BUSY = true ∧ was.get (pl 6) PWR_PLEVEL_LEVEL = was.get (pl 6) PWR_PLEVEL_CUR) ∧
     ((6 : Nat) < 7 ∧ d.pwr.lvlRun = none ∧ d.flag (PWR_PLEVEL 6) PWR_PLEVEL_BUSY = true ∧ (∀ j < 6, d.flag (PWR_PLEVEL j) PWR_PLEVEL_BUSY = false) ∧ (0 : Nat) ≠ PWR_PLEVEL 6)) := by
  delta BusOpen; decide +kernel

def permitting (b : Byte) (d : Dev) : Dev := planned tPOWER 0 ([0, 0, 0, b] ++ List.replicate 60 0) d
def entering (e : PwrEntry) (d : Dev) : Dev := { d with pwr := { d.pwr with entry := some e } }
def inPower (n : Nat) (d : Dev) : Dev := fields [(PWR_STAT, PWR_STAT_STATE, n)] d
def asleep (d : Dev) : Dev := d.setReg SYS_CORESTAT 0x02222222

theorem test_witness_PowerStates :
    BusOpen ⟨up, []⟩ 0 PWR_REQ true ∧ (entering ⟨1, [], false⟩ up).pwr.entry ≠ none ∧ (inPower 1 up).pwrState ≠ 0 ∧
    (up.pwr.entry = none ∧ up.pwrState = 0 ∧ (∀ n < 4, (up.plan8 tPOWER 0 3).testBit n = false) ∧
      (∀ n < 4, ((permitting 15 up).plan8 tPOWER 0 3).testBit n = true ∧ (permitting 15 up).pwr.entry = none ∧ (permitting 15 up).pwrState = 0 ∧
        (permitting 15 up).toAsk ⟨n + 1, [], false⟩ ≠ []) ∧ (permitting 15 (up.setReg SYS_CORESTAT 0)).toAsk ⟨1, [], false⟩ = []) ∧
    (let e : PwrEntry := ⟨1, [], false⟩
     (entering e up).pwr.entry = some e ∧ (entering e up).toAsk e = 26 :: [27, 28, 29, 30, 31, 32] ∧ (entering e up).answer e.target 26 = none) ∧
    (let e : PwrEntry := ⟨3, span 0 31, false⟩
     let d := entering e (asleep up)
     d.toAsk e = 31 :: [32] ∧ d.answer e.target 31 = some true ∧ [32] ≠ []) ∧
    (let e : PwrEntry := ⟨3, span 0 32, false⟩
     let d := entering e (asleep up)
     d.toAsk e = 32 :: [] ∧ d.answer e.target 32 = some true) ∧
    (let e : PwrEntry := ⟨3, span 0 12 ++ span 13 20, false⟩
     let d := entering e up
     d.toAsk e = 12 :: [] ∧ d.answer e.target 12 = some false) := by
  delta BusOpen; decide +kernel

def wakes (m : Option Nat) (d : Dev) : Dev := { d with pwr := { d.pwr with waking := m } }
/-- A LISTEN period of 1 ms and a window of 1 ms that is due; one that is open and one that is over. -/
def periodic : Dev := inPower 2 (fields [(PWR_LISTEN, PWR_LISTEN_PERIOD_MS, 1), (PWR_LISTEN, PWR_LISTEN_WIN_MS, 1)] up)
def opened (t : Option Nat) (d : Dev) : Dev := { fields [(PWR_STAT, PWR_STAT_WINDOW, 1)] d with pwr := { d.pwr with winAt := t } }
/-- A parent last heard one interval of 1 s ago. -/
def parental : Dev :=
  let d := ((up.chtPut 0 0 CHT_VALID 1).chtPut 0 0 CHT_KIND 1).chtPut 0 4 CHT_INTERVAL_S 1
  inPower 2 { d with clk := { d.clk with mesh := 122880000 } }
def wakeable : Dev := fields [(PWR_WAKE, PWR_WAKE_EN, 0xFFF), (RTC_STAT, RTC_STAT_ALARMF, 1)] up

theorem test_witness_PowerStates_wake :
    ({ up.pwr with off := true }.off = true ∧ (0 : Fin 12).val ≠ 1 ∧ (1 : Fin 12).val = 1) ∧ up.pwr.off = false ∧
    ((fields [(PWR_WAKE, PWR_WAKE_EN, 0)] up).wakeEnabled (5 : Fin 12) = false ∧ up.wakeSource (5 : Fin 12) = false ∧ (wakes (some 1) up).pwr.waking ≠ none) ∧
    (wakeable.pwr.off = false ∧ wakeable.pwr.phase = .running ∧ wakeable.wakeEnabled (5 : Fin 12) = true ∧ wakeable.wakeSource (5 : Fin 12) = true ∧ wakeable.pwr.waking = none ∧
      wakeable.pwrState = 0 ∧ wakeable.pwr.entry = none) ∧
    (wakeFrom (5 : Fin 12) 4 = false ∧ wakeFrom (5 : Fin 12) 3 = true ∧ wakeFrom (5 : Fin 12) 2 = true) ∧
    (let d := inPower 1 (taking.setCoreState 6 2)
     d.pwrState = 1 ∧ (11 : Fin 12).val = 11 ∧ (fields [(PWR_WAKE, PWR_WAKE_EN, 0xFFF)] d).wakeEnabled (11 : Fin 12) = true ∧ d.wakeSource (11 : Fin 12) = true) ∧
    ((inPower 2 wakeable).pwrState = 2 ∧ (inPower 4 wakeable).pwrState ≠ 0 ∧ wakeFrom (5 : Fin 12) (inPower 4 wakeable).pwrState = false) ∧
    ((entering ⟨3, [], false⟩ wakeable).pwrState = 0 ∧ (entering ⟨3, [], false⟩ wakeable).pwr.entry = some ⟨3, [], false⟩ ∧ wakeFrom (5 : Fin 12) 1 = false ∧
      (entering ⟨3, [], false⟩ wakeable).wakeSource (5 : Fin 12) = true) ∧
    (wakes (some 3) up).pwr.waking = some 3 := by decide +kernel

theorem test_witness_PowerStates_windows :
    (up.pwrState ≠ 2 ∧ (opened none (inPower 2 up)).flag PWR_STAT PWR_STAT_WINDOW = true ∧ (wakes (some 3) up).pwr.waking ≠ none ∧
      (inPower 2 up).periodDue = none ∧ (inPower 2 up).parentWindow 24576 = false) ∧
    (periodic.pwrState = 2 ∧ periodic.flag PWR_STAT PWR_STAT_WINDOW = false ∧ periodic.pwr.waking = none ∧ periodic.periodDue ≠ none ∧ periodic.retainEntries = []) ∧
    (parental.pwrState = 2 ∧ parental.flag PWR_STAT PWR_STAT_WINDOW = false ∧ parental.pwr.waking = none ∧ parental.parentWindow 24576 = true) ∧
    ((opened none up).flag PWR_STAT PWR_STAT_WINDOW = true ∧ (opened none up).pwr.entry = none ∧ (opened none up).periodRuns = false ∧ (opened none up).parentWindow 0 = false) ∧
    (up.flag PWR_STAT PWR_STAT_WINDOW = false ∧ (entering ⟨3, [], false⟩ up).pwr.entry ≠ none ∧ (opened (some 0) periodic).periodRuns = true ∧ parental.parentWindow 0 = true) ∧
    ({ up.pwr with brownOut := true }.brownOut = true ∧ up.pwrState ≠ 5 ∧ (0 : Nat) ≠ PWR_STAT) ∧ (up.pwr.brownOut = false ∧ (inPower 5 up).pwrState = 5) ∧
    ((inPower 5 up).nfc.note = none ∧ (inPower 5 up).pwr.off = false) ∧
    ({ up.pwr with phase := .held }.phase = .held ∧ up.pwr.thermal = false) := by decide +kernel

def receiving : Dev := { fields [(RFC_RXSTAT 3, RFC_RXSTAT_READY, 1), (CLK_STAT, CLK_STAT_FALLBACK, 0)] up with cal := { up.cal with loaded := true } }
def pended : Dev := fields [(CAL_CHSTAT 3, CAL_CHSTAT_PEND, 5)] receiving
def measuring : Dev := { receiving with calMeas := [(1, some 255)] }

theorem test_witness_Calibration :
    (fields [(CLK_STAT, CLK_STAT_FALLBACK, 1)] up).calOk = false ∧ { receiving with pwr := { receiving.pwr with entry := some ⟨1, [24], false⟩ } }.calFresh = false ∧
    ((2 : Fin 3).val = 2 ∧ { receiving with calSeen := true }.calFresh = true ∧ { receiving with calSeen := true }.gainDue (3 : Fin 4) = true ∧ receiving.gainDue (3 : Fin 4) = false ∧
      (0 : Nat) ≠ CAL_CHSTAT 3) ∧
    (fields [(RFC_RXSTAT 3, RFC_RXSTAT_BLANKED, 1)] receiving).flag (RFC_RXSTAT 3) RFC_RXSTAT_BLANKED = true ∧
    (receiving.calFresh = true ∧ receiving.calOk = true ∧ (1 : Fin 3).val ≠ 2 ∧ receiving.rxReady (3 : Fin 4) = true ∧ receiving.flag (RFC_RXSTAT 3) RFC_RXSTAT_BLANKED = false) ∧ up.rxReady (3 : Fin 4) = false ∧
    up.get (CAL_CHSTAT 3) CAL_CHSTAT_PEND = 0 ∧ (pended.calOk = true ∧ pended.get (CAL_CHSTAT 3) CAL_CHSTAT_PEND ≠ 0 ∧ pended.quiet (3 : Fin 4) = true) ∧
    (pended.get (CAL_CHSTAT 3) CAL_CHSTAT_PEND).testBit (1 : Fin 3) = false ∧ (pended.get (CAL_CHSTAT 3) CAL_CHSTAT_PEND).testBit (2 : Fin 3) = true ∧
    (receiving.txOf (1 : Fin 2) = none ∧ sget none receiving.calMeas (1 : Fin 2).val = none ∧ receiving.synNext (1 : Fin 2) = none ∧
      { receiving with calQ := [511] }.synNext (1 : Fin 2) = some 255) ∧
    (sget none measuring.calMeas (1 : Fin 2).val = some 255 ∧ 255 < 256 ∧ measuring.calOk = true ∧ (fields [(CLK_STAT, CLK_STAT_FALLBACK, 1)] measuring).calOk = false) ∧
    (measuring.fieldOn 1 = true ∧ { measuring with pwr := { measuring.pwr with fields := 0 } }.fieldOn 1 = false) ∧ { up.pwr with rfIso := true }.rfIso = true ∧ (up.pwr.rfIso = false ∧ up.fieldOn 1 = true) := by decide +kernel

def storing (l : List Nat) (s : Option Nat) : Dev := { fields [(FLC_BOOT, FLC_BOOT_READY, 1)] receiving with cal := { up.cal with due := l, store := s, dirty := [1], loaded := true } }

theorem test_witness_Calibration_records :
    up.storeDue (2 + (2 : Fin 3)) = false ∧
    ((storing [4] none).storeDue (2 + (2 : Fin 3)) = true ∧ (storing [4] none).cal.store = none ∧ (storing [4] none).flag PWR_SUPPLY PWR_SUPPLY_SLOW = false ∧
      (storing [4] none).bankBusy 2 = false ∧ (storing [4] none).calFresh = true ∧
      inSector (bank2 ((storing [4] none).storeAt (2 + (2 : Fin 3))).1) 0 = false ∧
      inSector (bank2 ((storing [4] none).storeAt (2 + (2 : Fin 3))).1) (bank2 ((storing [4] none).storeAt (2 + (2 : Fin 3))).1) = true) ∧
    ((fields [(PWR_SUPPLY, PWR_SUPPLY_SLOW, 1)] up).flag PWR_SUPPLY PWR_SUPPLY_SLOW = true ∧ (fields [(FLC_STAT 2, FLC_STAT_BUSY, 1)] up).bankBusy 2 = true ∧
      { receiving with pwr := { receiving.pwr with entry := some ⟨1, [24], false⟩ } }.calFresh = false) ∧
    ({ up.cal with loaded := true }.loaded = true ∧ up.cal.loaded = false) ∧
    (let d := fields [(CAL_CTL, CAL_CTL_AUTOSAVE, 1)] (storing [] none)
     (3 ≤ 4 ∧ 4 - 3 ∈ d.cal.dirty ∧ d.flag CAL_CTL CAL_CTL_AUTOSAVE = true ∧ sget none d.cal.saved 4 = none) ∧ d.storeDue 4 = true ∧ d.storeDue 3 = false) ∧
    (storing [4] (some 4)).cal.store = some 4 ∧ up.cal.store = none ∧ up.calBest 1 = none ∧ (fields [(RTC_STAT, RTC_STAT_CURVEOK, 1)] up).flag RTC_STAT RTC_STAT_CURVEOK = true ∧
    BusOpen ⟨up, []⟩ 0 CAL_CMD true ∧ (1 : Fin 2).val ∈ (storing [] none).cal.dirty ∧ (0 : Fin 2).val ∉ (storing [] none).cal.dirty ∧
    (fields [(SYN_CALF 1 255, SYN_CALF_VALID, 1)] up).flag (SYN_CALF 1 255) SYN_CALF_VALID = true := by
  delta BusOpen; decide +kernel

/-- The controller in mode `m` with a 64-byte buffer in SRAM, a carrier (`k`) and no field from outside. -/
def near (m k : Nat) : Dev :=
  fields [(NFC_CTL, NFC_CTL_MODE, m), (NFC_LEN, NFC_LEN_LEN, 64), (NFC_BUF, ⟨31, 0⟩, 0x20000000), (NFC_RXADDR, ⟨31, 0⟩, 0x20000040), (NFC_STAT, NFC_STAT_CARRIER, k)] up
def judged (n : Nat) (d : Dev) : Option Nat :=
  (if n = 3 ∨ n = 5 then (d.put NFC_STAT NFC_STAT_OP n).touchRange d.nfcBuf d.nfcLen else d.put NFC_STAT NFC_STAT_OP n).nfcJudge n
def wentOff (t : Option Nat) (d : Dev) : Dev := { d with nfc := { d.nfc with carOff := t } }
def doing (n : Nat) (d : Dev) : Dev := { d with nfc := { d.nfc with op := n, fifo := [3, 4] } }

theorem test_witness_Contactless :
    BusOpen ⟨up, []⟩ 6 NFC_CMD true ∧ (fields [(NFC_STAT, NFC_STAT_BUSY, 1)] up).flag NFC_STAT NFC_STAT_BUSY = true ∧ up.flag NFC_STAT NFC_STAT_BUSY = false ∧
    (∀ n ∈ span 1 6, judged n (near 0 0) ≠ none) ∧ (near 2 0).get NFC_CTL NFC_CTL_MODE ≠ 1 ∧
    ((near 1 0).get NFC_CTL NFC_CTL_MODE = 1 ∧ (fields [(NFC_STAT, NFC_STAT_FIELD, 1)] (near 1 0)).flag NFC_STAT NFC_STAT_FIELD = true) ∧
    (judged 1 (near 1 0) = none ∧ judged 1 (near 1 1) = none ∧ (near 1 0).flag NFC_STAT NFC_STAT_CARRIER = false ∧ (near 1 1).flag NFC_STAT NFC_STAT_CARRIER = true ∧
      (near 1 0).nfc.carOff = none ∧ (wentOff (some 0) (near 1 0)).nfc.carOff = some 0 ∧ (wentOff (some 0) (near 1 0)).clk.cyc < 0 + 122880 ∧ judged 1 (wentOff (some 0) (near 1 0)) = none) ∧ judged 2 (near 1 1) = none ∧ judged 3 (near 1 1) = none ∧ judged 4 (near 1 1) = none ∧ judged 5 (near 2 0) = none ∧ judged 6 (near 2 0) = none ∧
    (BusOpen ⟨up, []⟩ 0 NFC_SUID_HI false ∧ (doing 0 up).nfc.fifo = 3 :: [4]) ∧ up.nfc.op ∉ [1, 3, 4] ∧
    (let d := wentOff (some 0) (doing 1 up)
     d.nfc.op = 1 ∧ d.carrierMay = false ∧ (doing 1 up).nfc.op = 1 ∧ (doing 1 up).carrierMay = true) ∧
    ((doing 3 (near 1 1)).nfc.op = 3 ∧ (fields [(NFC_CTL, NFC_CTL_GUARD_US, 0)] (doing 3 (near 1 1))).guardOver = true ∧ (fields [(NFC_CTL, NFC_CTL_GUARD_US, 0)] (doing 3 (near 1 1))).nfc.op = 3 ∧ (doing 4 up).nfc.op = 4 ∧ (fields [(NFC_CTL, NFC_CTL_GUARD_US, 0)] (doing 4 up)).guardOver = true ∧ (fields [(NFC_CTL, NFC_CTL_GUARD_US, 0)] (doing 4 up)).nfc.op = 4 ∧
      (fields [(NFC_CTL, NFC_CTL_GUARD_US, 100)] (doing 3 up)).guardOver = false) ∧
    (([] : List (Option (List Byte))).headD none = none ∧ nfcOpen [1, 2, 3] = none ∧ nfcOpen (nfcSeal [0, 9]) = some [0, 9]) ∧
    ((near 1 1).nfcBus (near 1 1).nfcRx (([0, 9] : List Byte).take 64).length true = true ∧ up.nfcBus up.nfcRx (([0, 9] : List Byte).take 64).length true = false) ∧
    BusOpen ⟨up, []⟩ 6 NFC_TORN true := by
  delta BusOpen; decide +kernel

def request (t : Byte) : List Byte := [1, t] ++ List.replicate 8 0
def cardy : Dev := near 2 0
/-- In INSPECT with an inspection image of one word in bank 2's area. -/
def inspecting : Dev :=
  let b : List Byte := [0x49, 0x4D, 1, 0, 1, 0, 0, 0, 0, 0, 0, 0]
  inPower 5 (holding inspArea (b ++ leBytes 4 (crc32 b)) { up with fuseRead := true })

theorem test_witness_Contactless_card :
    nfcOpen [0] = none ∧ (∀ t ∈ [0x10, 0x12, 0x30, 0x31, 0x32, 0x40], nfcOpen (nfcSeal (request t)) = some (request t) ∧ u8 (request t) 1 = t.toNat ∧ 10 ≤ (request t).length ∧
      (request t).length ≤ 64 ∧ u8 (request t) 0 = 1 ∧ ({ cardy with fuse := [], fuseRead := true }.nfMine (request t) = true)) ∧ up.get NFC_CTL NFC_CTL_MODE ≠ 2 ∧
    (cardy.fieldOn 6 = true ∧ cardy.get PWR_STAT PWR_STAT_STATE = 0 ∧ cardy.get NFC_CTL NFC_CTL_MODE = 2 ∧ cardy.flag NFC_STAT NFC_STAT_CRXF = false ∧ cardy.nfc.note = none ∧ cardy.rests 13 = false ∧ (resting 13).rests 13 = true ∧
      (fields [(NFC_STAT, NFC_STAT_CRXF, 1)] cardy).flag NFC_STAT NFC_STAT_CRXF = true ∧ { cardy with pwr := { cardy.pwr with fields := 0 } }.fieldOn 6 = false) ∧
    up.get PWR_STAT PWR_STAT_STATE ≠ 5 ∧ (inspecting.get PWR_STAT PWR_STAT_STATE = 5 ∧ inspecting.inspImage ≠ none ∧ inspecting.nfc.note = none ∧ inspecting.nfMine (request 0x10) = true) ∧
    { up.nfc with wait := true }.wait = true ∧ { up.nfc with note := some (3, List.replicate 64 0) }.note = some (3, List.replicate 64 0) ∧
    up.flag NFC_STAT NFC_STAT_FIELD = false ∧ up.flag NFC_STAT NFC_STAT_FIELD ≠ true ∧ (fields [(NFC_STAT, NFC_STAT_FIELD, 1)] up).flag NFC_STAT NFC_STAT_FIELD ≠ false := by decide +kernel

theorem test_witness_PowerRequests_host :
    (let e : PwrEntry := ⟨3, span 0 15 ++ span 16 17, false⟩
     let d := entering e (asleep up)
     d.toAsk e = 15 :: [] ∧ isHostFrame .hostStat = true ∧ Instr.hostStat ∈ [Instr.hostStat] ∧ [Instr.sysrst 0].any isHostFrame = false ∧ d.answer e.target 15 = some true) := by
  decide +kernel

theorem test_witness_Waking_two :
    (let d := fields [(RTC_STAT, RTC_STAT_TICKF, 1)] wakeable
     (5 : Fin 12).val < (6 : Fin 12).val ∧ Instr.wake 5 ∈ [Instr.wake 5] ∧ (inPower 3 d).rouses 5 = true ∧ (inPower 3 d).pwr.off = false) ∧
    (∀ k : Fin 12, k.val < (5 : Fin 12).val → Instr.wake k ∈ ([] : List Instr) → wakeable.rouses k = false) := by
  refine ⟨by decide +kernel, ?_⟩
  intro k _ h
  simp at h

theorem test_witness_HeadRequests_settled :
    ([].any up.settles = false ∧ [Instr.cresp 0].any cardy.settles = true) ∧
    (let d : Dev := { cardy with nfc := { cardy.nfc with note := some (3, List.replicate 64 0) } }
     d.noteAwaited = true ∧ (near 0 0).noteAwaited = false ∧ (d.bankOfs 2).eng ≤ 1 ∧ (d.bankOfs 2).op = 0 ∧ d.flag (FLC_STAT 2) FLC_STAT_MOVE = false) := by decide +kernel

/-! ### Service port, images, host port, buses, error log -/

/-- The two ports are served. -/
def portOpen (d : Dev) : Dev := planned tPADS 0 ([0, 3] ++ List.replicate 254 0) d
def inSession (d : Dev) : Dev := fields [(SVC_STAT, SVC_STAT_SESSION, 1)] d
def serving (f : SvcSt → SvcSt) (d : Dev) : Dev := { d with svc := f d.svc }
def nonce : List Byte := List.replicate 16 0
def unlocking (fails : Nat) (p : List Byte) : Dev :=
  serving (fun x => { x with oz := some (0x04, p), nonce := some nonce, fails := fails }) { up.setKslot 254 { KSlot.init with state := 2, key := List.replicate 16 0 } with fuseRead := true }

theorem test_witness_OztisSession :
    up.portOn = false ∧ (portOpen up).portOn = true ∧ ((portOpen up).rests 14 = false ∧ (portOpen (resting 14)).portOn = true ∧ (portOpen (resting 14)).rests 14 = true) ∧ (([1] : List Byte).isEmpty = false ∧ ((List.replicate 15 0 : List Byte).length == 16) = false ∧ decide ((0 : Nat) % 4 = 1) = false) ∧
    ((portOpen up).ozOpen .image = false ∧ (portOpen up).ozOpen .unlock = false) ∧ up.flag SVC_STAT SVC_STAT_SESSION = false ∧ up.flag SVC_STAT SVC_STAT_SERVICE = false ∧ ozKnown 0x06 = false ∧
    (fields [(KEY_STAT, KEY_STAT_RNGFAIL, 1)] (portOpen up)).flag KEY_STAT KEY_STAT_RNGFAIL = true ∧ (portOpen up).flag KEY_STAT KEY_STAT_RNGFAIL = false ∧
    (List.replicate 16 (0 : Byte)).length = 16 ∧ (portOpen up).svc.oz = none ∧ (unlocking 0 []).svc.oz ≠ none ∧
    ((unlocking 8 nonce).svc.oz = some (0x04, nonce) ∧ (unlocking 8 nonce).svc.nonce = some nonce ∧ ((unlocking 8 nonce).kslot 254).state ≠ 0 ∧ (unlocking 8 nonce).svc.armed = none ∧
      (unlocking 8 nonce).flag SVC_IMG SVC_IMG_CONFWAIT = false ∧ 8 ≤ (unlocking 8 nonce).svc.fails ∧ (unlocking 7 nonce).svc.fails < 8) := by decide +kernel

theorem test_witness_OztisSession_good :
    (let p := cmac (List.replicate 16 0) ([0x44] ++ leBytes 8 (unlocking 7 []).devuid ++ nonce)
     (unlocking 7 p).svc.oz = some (0x04, p) ∧ cmac ((unlocking 7 p).kslot 254).key ([0x44] ++ leBytes 8 (unlocking 7 p).devuid ++ nonce) = p) := by decide +kernel

theorem test_witness_OztisSession_bad :
    cmac ((unlocking 7 nonce).kslot 254).key ([0x44] ++ leBytes 8 (unlocking 7 nonce).devuid ++ nonce) ≠ nonce := by decide +kernel

def xfer (next : Nat) (bufs : List (Nat × List Byte)) (failed : Bool) : Xfer := ⟨1, 64, next, 0, failed, bufs, false⟩
/-- In service with a transfer. -/
def loading (x : Option Xfer) : Dev := serving (fun y => { y with xfer := x }) (inSession (portOpen flashed))
def burstOf (off : Nat) : List Byte := leBytes 4 off ++ List.replicate 16 0x55

theorem test_witness_ImageTransfers :
    ((loading none).portOn = true ∧ (loading none).rests 14 = false ∧ (loading none).ozOpen .image = true) ∧
    (let p : List Byte := [1, 0] ++ leBytes 4 64
     p.length = 6 ∧ (loading none).openJudge (u8 p 0) (u32 p 2) = none ∧ (u8 p 1).testBit 0 = false ∧ 0 < u32 p 2 ∧ up.openJudge 2 0 = some 5) ∧
    (20 ≤ (burstOf 16).length ∧ (burstOf 16).length ≤ 4100 ∧ (burstOf 16).length % 16 = 4 ∧ (loading none).svc.xfer = none) ∧
    ((loading (some (xfer 16 [] false))).svc.xfer = some (xfer 16 [] false) ∧ (xfer 16 [] false).failed = false ∧ u32 (burstOf 48) 0 + ((burstOf 48).drop 4).length ≤ (xfer 16 [] false).len) ∧
    (u32 (burstOf 0) 0 < (xfer 16 [] false).next ∧ (xfer 16 [] false).next < u32 (burstOf 48) 0 ∧ (xfer 16 [] false).next = u32 (burstOf 16) 0) ∧
    (2 ≤ (xfer 16 [(0, []), (0, [])] false).bufs.length ∧ (xfer 16 [(0, [])] false).bufs.length < 2 ∧ (loading none).flag PWR_SUPPLY PWR_SUPPLY_SLOW = false) ∧
    (1 < u8 [2] 0 ∧ u8 [1] 0 ≤ 1 ∧ (loading none).svc.oz = none ∧ (loading none).svc.cmd = none) ∧
    ((xfer 16 [] false).bufs = [] ∧ (xfer 16 [(0, List.replicate 16 0)] false).bufs = (0, List.replicate 16 0) :: [] ∧ (xfer 16 [] true).failed = true ∧
      (fields [(PWR_SUPPLY, PWR_SUPPLY_SLOW, 1)] up).flag PWR_SUPPLY PWR_SUPPLY_SLOW = true ∧ up.bankBusy (xfer 16 [] false).slot = true ∧ (loading none).bankBusy (xfer 16 [] false).slot = false ∧ 16 ≤ (List.replicate 16 (0 : Byte)).length) ∧
    (let d := serving (fun x => { x with oz := some (0x12, [1]) }) flashed
     d.svc.oz = some (0x12, [1]) ∧ d.bankBusy (u8 [1] 0) = false ∧ up.bankBusy (u8 [1] 0) = true) ∧
    (let d := serving (fun x => { x with oz := some (0x13, [1]), checked := [1] }) flashed
     d.svc.oz = some (0x13, [1]) ∧ d.get SVC_IMG SVC_IMG_RUNNING ≠ u8 [1] 0 ∧ u8 [1] 0 ∈ d.svc.checked ∧ d.bankBusy (u8 [1] 0) = false ∧ d.flag PWR_SUPPLY PWR_SUPPLY_SLOW = false ∧
     (fields [(SVC_IMG, SVC_IMG_RUNNING, 1)] d).get SVC_IMG SVC_IMG_RUNNING = u8 [1] 0 ∧ u8 [1] 0 ∉ up.svc.checked) := by decide +kernel

def debugging : Dev := (inSession (portOpen up)).setCoreState 6 5

theorem test_witness_DebugCommands :
    (debugging.portOn = true ∧ debugging.rests 14 = false ∧ debugging.flag SVC_STAT SVC_STAT_SESSION = true) ∧
    (let p : List Byte := leBytes 4 0x200000FC ++ [4, 0]
     p.length = 6 ∧ u32 p 0 % 4 = 0 ∧ u16 p 4 = 4 ∧ 0x20000000 ≤ u32 p 0 ∧ u32 p 0 + 4 ≤ 0x21400000 ∧ debugging.accCode ⟨.load, false, true, false⟩ 0 (u32 p 0) 4 = none ∧
     debugging.accCode ⟨.store, false, true, false⟩ 0 (u32 p 0) 4 = none ∧ debugging.memErr = []) ∧
    (u8 [0x40, 1] 1 = 1 ∧ (u8 [0x41, 1] 0).testBit 0 = true ∧ debugging.coreState 0 = 1 ∧ u8 (6 :: List.replicate 72 1) 0 = (6 : Fin 7).val ∧ (6 :: List.replicate 72 (1 : Byte)).length = 73 ∧
      (leBytes 4 0x20000100 ++ [1, 2, 3, 4] : List Byte).length = 8) ∧
    u32 (leBytes 4 0x20000002 ++ [4, 0]) 0 % 4 ≠ 0 ∧ (debugging.accCode ⟨.load, false, true, false⟩ 0 0x70000000 4).isSome = true ∧
    (u8 [6] 0 = (6 : Fin 7).val ∧ debugging.coreState 6 = 5 ∧ debugging.coreState 0 ≠ 5) := by decide +kernel

/-- An image header in slot 1, erased but for the place of its plan, where no plan can lie (R420). -/
def imaged (d : Dev) : Dev := fields [(SVC_WHEN_LO, ⟨31, 0⟩, 1000), (SVC_ARG, SVC_ARG_SLOT, 1)] (serving (fun x => { x with checked := [1] }) (holding (imgBase 1 + 0x18) (leBytes 4 0x30000000) d))

theorem test_witness_ImageActivation :
    BusOpen ⟨up, []⟩ 6 SVC_CMD true ∧ (fields [(SVC_RES, SVC_RES_BUSY, 1)] up).flag SVC_RES SVC_RES_BUSY = true ∧ up.flag SVC_RES SVC_RES_BUSY = false ∧
    (let e := ((imaged flashed).put SVC_RES SVC_RES_OP 2).put SVC_RES SVC_RES_BUSY 1
     e.armJudge ((imaged flashed).get SVC_ARG SVC_ARG_SLOT) = none ∧ up.armJudge (up.get SVC_ARG SVC_ARG_SLOT) ≠ none) ∧
    (fields [(SVC_IMG, SVC_IMG_CONFWAIT, 1)] up).flag SVC_IMG SVC_IMG_CONFWAIT = true ∧ (up.flag SVC_IMG SVC_IMG_CONFWAIT = false ∧ up.svc.armed = none) ∧
    (serving (fun x => { x with armed := some 1 }) up).svc.armed ≠ none ∧ (inSession up).flag SVC_STAT SVC_STAT_SESSION = true ∧ up.svc.cmd = none ∧
    ((serving (fun x => { x with cmd := some (1, 1) }) flashed).svc.cmd = some (1, 1) ∧ (serving (fun x => { x with cmd := some (1, 1) }) flashed).bankBusy 1 = false) ∧
    ((serving (fun x => { x with cmd := some (2, 1) }) flashed).svc.cmd = some (2, 1) ∧ (serving (fun x => { x with cmd := some (2, 1) }) flashed).bankBusy 1 = false ∧
      (serving (fun x => { x with cmd := some (2, 1) }) up).svc.cmd = some (2, 1) ∧ (serving (fun x => { x with cmd := some (2, 1) }) up).bankBusy 1 = true) ∧ atOrPast up.meshNow up.svcWhen = true ∧ atOrPast (imaged up).meshNow (imaged up).svcWhen = false ∧
    ((serving (fun x => { x with armed := some 1 }) up).svc.armed = some 1 ∧ (1 : Nat) < 2 ∧ atOrPast (serving (fun x => { x with armed := some 1 }) up).meshNow up.svcWhen = true ∧
      (levels up).planLevel (0 : Fin 7) ≠ 0xFF ∧ up.coreState 0 ≠ 0) ∧
    (let d := fields [(SVC_IMG, SVC_IMG_CONFWAIT, 1), (SVC_ARG, SVC_ARG_CONFWIN_S, 1)] up
     let e := serving (fun x => { x with confN := 32768, prev := 1 }) d
     d.svc.confN < 32768 * d.get SVC_ARG SVC_ARG_CONFWIN_S ∧ e.flag SVC_IMG SVC_IMG_CONFWAIT = true ∧ 32768 * e.get SVC_ARG SVC_ARG_CONFWIN_S ≤ e.svc.confN ∧ e.svc.prev < 2) := by
  delta BusOpen; decide +kernel

theorem test_witness_ImageActivation_boot :
    (up.romHidden = true ∧ Dev.reset.pwr.phase ≠ .running ∧ up.flag FLC_BOOT FLC_BOOT_READY = false ∧ (fields [(SVC_STAT, SVC_STAT_SERVICE, 1)] up).flag SVC_STAT SVC_STAT_SERVICE = true ∧
      { up.sow with viobWait := some (0, 0) }.viobWait ≠ none) ∧
    (let d := { flashed with romHidden := false }
     let e := serving (fun x => { x with atn := true }) d
     d.romHidden = false ∧ d.pwr.phase = .running ∧ d.flag FLC_BOOT FLC_BOOT_READY = true ∧ d.flag SVC_STAT SVC_STAT_SERVICE = false ∧ d.sow.viobWait = none ∧ d.svc.atn = false ∧
     e.romHidden = false ∧ e.pwr.phase = .running ∧ e.flag FLC_BOOT FLC_BOOT_READY = true ∧ e.flag SVC_STAT SVC_STAT_SERVICE = false ∧ e.sow.viobWait = none ∧ e.svc.atn = true) := by decide +kernel

/-- Window 1 of the host port grants one page at 0x20000000 (`w` for writes too). -/
def windowed1 (w : Nat) : Dev := fields [(HST_WINB 1, HST_WINB_ADDR, 0x20000), (HST_WINC 1, HST_WINC_EN, 1), (HST_WINC 1, HST_WINC_PAGES, 1), (HST_WINC 1, HST_WINC_WR, w)] (portOpen up)

theorem test_witness_HostPort :
    ((resting 15).restsAt HST_STAT = true ∧ up.restsAt HST_STAT = false ∧ (portOpen up).restsAt HST_STAT = false) ∧ up.hostOn = false ∧ (portOpen up).hostOn = true ∧ ((windowed1 0).hostOn = true ∧ (windowed1 0).hostGrants (frameAddr 0x20000000 4095) false = true ∧
      (windowed1 0).fieldOn (targetOf (frameAddr 0x20000000 4095)).2 = true ∧ { windowed1 0 with pwr := { (windowed1 0).pwr with fields := 0 } }.fieldOn (targetOf (frameAddr 0x40000000 0)).2 = false ∧
      (windowed1 0).hostGrants (frameAddr 0x20000000 4096) false = false ∧ sget 0 (windowed1 0).memErr (frameAddr 0x20000000 4095 / 4) ≤ 1) ∧
    ((windowed1 1).hostMiss 0x20000000 2 true = false ∧ (windowed1 0).hostMiss 0x20000000 2 true = true ∧ 0x20000000 ≤ (0x20000000 : Word).toNat ∧ (0x20000000 : Word).toNat + 2 ≤ 2 ^ 32) ∧
    (portOpen up).flag HST_STAT HST_STAT_DBF = false ∧ (fields [(HST_STAT, HST_STAT_DBF, 1)] up).flag HST_STAT HST_STAT_DBF = true ∧ up.get (HST_CNT 1) HST_CNT_COUNT < 0xFFFF ∧
    (0x03 : Byte).toNat ∉ [0x0B, 0x02, 0x05, 0x31, 0x35] ∧ BusOpen ⟨up, []⟩ 0 HST_HFLG true ∧ BusOpen ⟨up, []⟩ 0 (HST_WINC 1) true := by
  delta BusOpen; decide +kernel

/-- I²C controller 1 with bytes in its FIFOs and a command. -/
def wired (x : I2cSt) (b : Nat) : Dev := { fields [(I2C_STAT 1, I2C_STAT_BUSY, b), (I2C_CFG 1, I2C_CFG_EN, 1)] up with i2c := [(1, x)] }
def cmdWord (l : List (Fld × Nat)) : Word := mkWord l

theorem test_witness_SensorBuses_i2c :
    BusOpen ⟨up, []⟩ 4 (I2C_CMD 1) true ∧ (wired I2cSt.init 1).flag (I2C_STAT 1) I2C_STAT_BUSY = true ∧
    ((wired I2cSt.init 0).flag (I2C_STAT 1) I2C_STAT_BUSY = false ∧ (wired I2cSt.init 0).flag (I2C_CFG 1) I2C_CFG_EN = true ∧ (wired I2cSt.init 0).flag (I2C_STAT 1) I2C_STAT_STUCK = false ∧
      (fields [(I2C_STAT 1, I2C_STAT_STUCK, 1)] (wired I2cSt.init 0)).flag (I2C_STAT 1) I2C_STAT_STUCK = true) ∧
    BusOpen ⟨wired I2cSt.init 1, []⟩ 0 (I2C_CFG 1) true ∧
    (((wired I2cSt.init 0).i2cOf (1 : Fin 2)).cmd = none ∧ BusOpen ⟨(wired I2cSt.init 0).i2cMoved (1 : Fin 2) [], []⟩ 0 (I2C_DATA 1) true ∧
      ((wired I2cSt.init 0).i2cOf (1 : Fin 2)).tx.length < 16 ∧ BusOpen ⟨(wired I2cSt.init 0).i2cMoved (1 : Fin 2) [], []⟩ 0 (I2C_DATA 1) false ∧
      ((wired { I2cSt.init with rx := [7, 8] } 0).i2cOf (1 : Fin 2)).rx = 7 :: [8]) ∧
    (let u := cmdWord [(I2C_CMD_RECOVER, 1)]
     ((wired { I2cSt.init with cmd := some u } 1).i2cOf (1 : Fin 2)).cmd = some u ∧ getF u I2C_CMD_RECOVER = 1 ∧ I2cEnd.ok ≠ .sdaLow) ∧
    (let u := cmdWord [(I2C_CMD_LEN, 2)]
     let x := (wired { I2cSt.init with cmd := some u, tx := [1, 2, 3] } 1).i2cOf (1 : Fin 2)
     x.cmd = some u ∧ x.rep = false ∧ getF u I2C_CMD_RECOVER = 0 ∧ getF u I2C_CMD_RD = 0 ∧ x.n = 0 ∧ getF u I2C_CMD_LEN = ([9, 9] : List Byte).length ∧ ([9, 9] : List Byte).length ≤ x.tx.length) ∧
    (let u := cmdWord [(I2C_CMD_LEN, 2), (I2C_CMD_RD, 1)]
     let x := (wired { I2cSt.init with cmd := some u } 1).i2cOf (1 : Fin 2)
     getF u I2C_CMD_RECOVER = 0 ∧ getF u I2C_CMD_RD = 1 ∧ x.n = 0 ∧ getF u I2C_CMD_LEN = ([9, 9] : List Byte).length ∧ x.rx.length + ([9, 9] : List Byte).length ≤ 16) := by
  delta BusOpen; decide +kernel

def spiSet (l : List (Nat × Fld × Nat)) (x : SpiSt) : Dev := { fields l up with spi := x }
def uarted (x : UartSt) (l : List (Nat × Fld × Nat)) : Dev := { fields l up with uart := [(1, x)] }

theorem test_witness_SensorBuses_spi :
    BusOpen ⟨up, []⟩ 0 SPI_XFER true ∧ (fields [(SPI_STAT, SPI_STAT_BUSY, 1)] up).flag SPI_STAT SPI_STAT_BUSY = true ∧
    (let d := spiSet [(SPI_CFG, SPI_CFG_EN, 1)] SpiSt.init
     d.flag SPI_STAT SPI_STAT_BUSY = false ∧ d.flag SPI_CFG SPI_CFG_EN = true ∧ d.spi.xfer = none) ∧
    (let u := mkWord [(SPI_XFER_LEN, 1), (SPI_XFER_HOLD, 1)]
     let d := spiSet [(SPI_RXA, ⟨31, 0⟩, 0x20000000)] { SpiSt.init with xfer := some u }
     d.spi.xfer = some u ∧ d.reg SPI_TXA = 0 ∧ d.reg SPI_RXA ≠ 0 ∧ d.nfcBus (d.reg SPI_RXA).toNat 1 true = true ∧ 0x20000000 ≤ (d.reg SPI_RXA).toNat ∧ getF u SPI_XFER_LEN = 1 ∧
     up.reg SPI_RXA = 0 ∧ (fields [(SPI_TXA, ⟨31, 0⟩, 4)] up).reg SPI_TXA ≠ 0 ∧ 0 < getF u SPI_XFER_LEN ∧
     (fields [(SPI_TXA, ⟨31, 0⟩, 4)] up).nfcBus ((fields [(SPI_TXA, ⟨31, 0⟩, 4)] up).reg SPI_TXA).toNat 1 false = false) ∧
    BusOpen ⟨up, []⟩ 0 SPI_CFG true := by
  delta BusOpen; decide +kernel

theorem test_witness_SensorBuses_uart :
    BusOpen ⟨up, []⟩ 0 (UART_DATA 1) true ∧ (up.uartOf (1 : Fin 2)).tx.length < 32 ∧ ((uarted { UartSt.init with sh := some 5 } []).uartOf (1 : Fin 2)).sh ≠ none ∧ up.uartMay (1 : Fin 2) = false ∧
    (let d := uarted UartSt.init [(UART_CFG 1, UART_CFG_EN, 1)]
     (d.uartOf (1 : Fin 2)).sh = none ∧ (d.uartOf (1 : Fin 2)).tx = [] ∧ d.uartMay (1 : Fin 2) = true ∧ d.fieldOn 6 = true ∧ d.flag (UART_CFG 1) UART_CFG_EN = true ∧ d.rests (19 + (1 : Fin 2)) = false) ∧ (resting 20).rests (19 + (1 : Fin 2)) = true ∧ { up with pwr := { up.pwr with fields := 0 } }.fieldOn 6 = false ∧
    BusOpen ⟨up, []⟩ 0 (UART_DATA 1) false ∧ (up.uartOf (1 : Fin 2)).rx = [] ∧ ((uarted { UartSt.init with rx := [5, 6] } []).uartOf (1 : Fin 2)).rx = 5 :: [6] ∧
    up.flag (UART_CFG 1) UART_CFG_EN = false ∧ 32 ≤ ((uarted { UartSt.init with rx := List.replicate 32 0 } []).uartOf (1 : Fin 2)).rx.length ∧
    (fields [(UART_CFG 1, UART_CFG_PARITY, 2)] up).get (UART_CFG 1) UART_CFG_PARITY = 2 ∧
    (let d := uarted { UartSt.init with sh := some 5, tx := [6] } [(UART_CFG 1, UART_CFG_EN, 1)]
     (d.uartOf (1 : Fin 2)).sh ≠ none ∧ (d.uartOf (1 : Fin 2)).tx = 6 :: [] ∧ d.uartMay (1 : Fin 2) = true) ∧
    BusOpen ⟨up, []⟩ 6 (GPIO_SET 1) true ∧ BusOpen ⟨up, []⟩ 6 (GPIO_CLR 1) true := by
  delta BusOpen; decide +kernel

def rep (n : Nat) : Report := ⟨10, n, 3, 0, [], n⟩
def ent (id n : Nat) : ErlEntry := ⟨id, 10, n, 3, 0, 0, 0, 0, []⟩
def erl (w : List Report) (l : List ErlEntry) : Dev := { up with waiting := w, erlFifo := l }
def latching (i : Nat) (d : Dev) : Dev := cored 6 (fun x => { x with erl := some (i, List.replicate 10 7) }) d

theorem test_witness_ErrorLog :
    up.waiting = [] ∧ nextReport (erl [rep 5, rep 4] []).waiting = some (rep 4) ∧
    ((erl [rep 4] [ent 1 9, ent 2 4]).erlFifo = [ent 1 9] ++ [ent 2 4] ∧ (erl [rep 4] [ent 1 9, ent 2 4]).coalesces (rep 4) (ent 2 4) = true) ∧
    ((erl [rep 4] [ent 1 9]).erlFifo.length < 64 ∧ (erl [rep 4] [ent 1 9]).erlFifo.getLast? = some (ent 1 9) ∧ (erl [rep 4] [ent 1 9]).coalesces (rep 4) (ent 1 9) = false) ∧
    64 ≤ (erl [rep 4] (List.replicate 64 (ent 1 9))).erlFifo.length ∧ BusOpen ⟨up, []⟩ 6 (ERL_ENT 0) false ∧ up.erlFifo = [] ∧ (erl [] [ent 1 9]).erlFifo = ent 1 9 :: [] ∧
    (1 ≤ (8 : Fin 10).val ∧ (8 : Fin 10).val ≤ 8 ∧ BusOpen ⟨latching 1 up, []⟩ 6 (ERL_ENT (8 : Fin 10)) false ∧ ((latching 1 up).core 6).erl = some (1, List.replicate 10 7)) ∧
    BusOpen ⟨up, []⟩ 0 (ERL_ENT 9) false ∧ (up.core 0).erl = none ∧ (ent 1 9).id = 1 ∧ (ent 2 9).id ≠ 1 ∧ BusOpen ⟨up, []⟩ 0 ERL_STAT true := by
  delta BusOpen; decide +kernel

theorem test_witness_RegisterAccess :
    (up.coreActs 0 = true ∧ up.restsAt (wordAt 0x5FFFFFFC) = false ∧ up.writeDenied 0 (wordAt 0x5FFFFFFC) 0 = false) ∧
    BusOpen ⟨up, []⟩ 0 (HST_CNT 0) false ∧ BusOpen ⟨up, []⟩ 0 HST_HEN true ∧ (up.periphCode 0 (wordAt 0x5FFFFFFC) (decide (getF (up.core 0).fl flU = 1)) true).isSome = true ∧
    (BusOpen ⟨routed up, []⟩ 5 (wordAt (BitVec.ofNat 32 (HDL_LUT 127))) true ∧ (routed up).writeDenied 5 (wordAt (BitVec.ofNat 32 (HDL_LUT 127))) 0 = true) ∧
    up.get (HST_CNT 0) ⟨15, 0⟩ < 0xFFFF ∧ (fields [(HST_CNT 0, ⟨15, 0⟩, 0xFFFF)] up).get (HST_CNT 0) ⟨15, 0⟩ = 0xFFFF := by
  delta BusOpen; decide +kernel

/-- A boot extension in the twin in use, of version 1 and 512 bytes, entered at 0x100 and signed (the key pair of RFC 6979, A.2.5). -/
def extension : List Byte :=
  leBytes 4 0x4D49584B ++ [1, 0, 2, 0] ++ leBytes 4 1 ++ leBytes 4 1 ++ leBytes 4 0x200 ++ [1, 0, 0, 0] ++ leBytes 4 0 ++ leBytes 4 0x100 ++ List.replicate 96 0 ++
  beBytes 32 0x60FED4BA255A9D31C961EB74C6356D68C049B8923B61FA6CE669622E60F29FB6 ++ beBytes 32 0x7903FE1008B8BC99A41AE9E95628BC64F2F1B20C2D7E9F5177A3C294D4462299 ++
  beBytes 32 0xEFD48B2AACB6A8FD1140DD9CD45E81D69D2C877B56AAF991C34D0EA84EAF3716 ++ beBytes 32 0x18CFBAD770141BE3C279BB98FFC7910941B4D43BAA7492557FDCD02FA6D5CDBB

/-- The device at the choice of an image, that extension in its flash; with a return address once it has been called. -/
def extended (w : Option Word) : Dev := { holding 0x08000000 extension flashed with romHidden := false, pwr := { up.pwr with extRet := w } }

theorem test_witness_ImageActivation_extension :
    ((extended none).romHidden = false ∧ (extended none).pwr.phase = .running ∧ (extended none).flag FLC_BOOT FLC_BOOT_READY = true ∧
      (extended none).flag SVC_STAT SVC_STAT_SERVICE = false ∧ (extended none).sow.viobWait = none) ∧
    ((extended none).pwr.extRet = none ∧ (extended none).svc.atn = false ∧ (extended none).pwr.extDone = false) ∧
    ((extended (some 4)).pwr.extRet = some 4 ∧ ((extended (some 4)).core 0).pc ≠ 4 ∧ (extended (some ((extended none).core 0).pc)).pwr.extRet = some ((extended (some ((extended none).core 0).pc)).core 0).pc) ∧
    (let d : Dev := { flashed with romHidden := false }
     d.noExt = true ∧ d.pwr.extRet = none ∧ d.flag PWR_SUPPLY PWR_SUPPLY_SLOW = false) := by decide +kernel

theorem test_witness_ImageActivation_extension_signed : (extended none).noExt = false := by decide +kernel

theorem test_witness_ImageTransfers_begun :
    (let x : Xfer := { xfer 16 [(0, List.replicate 16 0)] false with began := true }
     x.began = true ∧ (loading (some x)).svc.xfer = some x ∧ (loading (some x)).pwr.flIso = false) ∧
    (let x := xfer 16 [(0, List.replicate 16 0)] false
     x.began = false ∧ (loading (some x)).mayProg = true ∧ (loading (some x)).bankBusy x.slot = false) ∧
    { up.pwr with flIso := true }.flIso = true := by decide +kernel

theorem test_witness_OztisSession_attention : up.atnSeen = false ∧ (portOpen up).atnSeen = true ∧
    ({ up with pwr := { up.pwr with pins := .notSown } } : Dev).atnSeen = true := by decide +kernel

theorem test_witness_ErrorLog_fields : up.fieldOn 1 = true ∧ ({ up with pwr := { up.pwr with fields := 0 } } : Dev).fieldOn 1 = false ∧ up.erlCyc ≠ up.clk.cyc + 1 := by
  decide +kernel

theorem test_witness_RegisterAccess_write :
    (BusOpen ⟨up, []⟩ 0 (wordAt (BitVec.ofNat 32 HST_HEN)) true ∧ up.writeDenied 0 (wordAt (BitVec.ofNat 32 HST_HEN)) 0 = false) ∧
    (regAt (wordAt (BitVec.ofNat 32 HST_HEN))).any (fun p => decide (p.1 ∈ plainRegs)) = true := by
  delta BusOpen; decide +kernel

theorem test_witness_RegisterAccess_command :
    WriteRow 0 1 (wordAt (BitVec.ofNat 32 FLN_FLT)) (.fltClear 0 1) ∧ BusOpen ⟨up, []⟩ 0 (wordAt (BitVec.ofNat 32 FLN_FLT)) true ∧
    up.writeDenied 0 (wordAt (BitVec.ofNat 32 FLN_FLT)) 1 = false := by
  refine ⟨Or.inl (by decide +kernel), ?_⟩
  delta BusOpen; decide +kernel

/-! ### Worked examples -/

/-- "123456789", the check message of the CRC catalogues. -/
def digits : List Byte := [0x31, 0x32, 0x33, 0x34, 0x35, 0x36, 0x37, 0x38, 0x39]

/-- Check values of the catalogue for the parameters of R60 and Table 6.4. -/
theorem test_crc_check_values : crc16 digits = 0x29B1 ∧ crc32 digits = 0xCBF43926 ∧ crc8 digits = 0xF4 := by decide +kernel

/-- FIPS 180-4: the digest of "abc". -/
theorem test_sha256_abc : sha256 [0x61, 0x62, 0x63] = (leBytes 32 0xba7816bf8f01cfea414140de5dae2223b00361a396177a9cb410ff61f20015ad).reverse := by decide +kernel

/-- FIPS 197, appendix C.1, and its inverse. -/
theorem test_aes128_fips197 :
    aesEnc (leBytes 16 0x000102030405060708090a0b0c0d0e0f).reverse (leBytes 16 0x00112233445566778899aabbccddeeff).reverse = (leBytes 16 0x69c4e0d86a7b0430d8cdb78070b4c55a).reverse ∧
    aesDec (leBytes 16 0x000102030405060708090a0b0c0d0e0f).reverse (leBytes 16 0x69c4e0d86a7b0430d8cdb78070b4c55a).reverse = (leBytes 16 0x00112233445566778899aabbccddeeff).reverse := by decide +kernel

/-- FIPS 197, appendix C.3: a 256-bit key. -/
theorem test_aes256_fips197 :
    aesEnc ((span 0 32).map (BitVec.ofNat 8)) (leBytes 16 0x00112233445566778899aabbccddeeff).reverse = (leBytes 16 0x8ea2b7ca516745bfeafc49904b496089).reverse := by decide +kernel

/-- RFC 4493: the CMAC of the empty message. -/
theorem test_cmac_rfc4493 :
    cmac (leBytes 16 0x2b7e151628aed2a6abf7158809cf4f3c).reverse [] = (leBytes 16 0xbb1d6929e95937287fa37d129b756746).reverse := by decide +kernel

/-- R272: SMP MUL of 0x01F403E8 by 0xFC000400 is 0xFF0602EE (bytes F1 35 12 with d G1 and s G2), and the instruction moves on by three bytes. -/
theorem test_smp_mul_example :
    ends (.mul 4) (prog [0xF1, 0x35, 0x12] [0, 0x01F403E8, 0xFC000400]) (fun e => decide ((e.core 4).gr 1 = 0xFF0602EE) && decide ((e.core 4).pc = 0x20000003)) = true := by decide +kernel

/-- An addition that wraps: C and Z are set, V is not, and every nibble carries. -/
theorem test_add_wraps :
    ends (.add 4) (prog [0x10, 0x12] [0, 0xFFFFFFFF, 1]) (fun e =>
      decide ((e.core 4).gr 1 = 0) && decide (getF (e.core 4).fl flC = 1 ∧ getF (e.core 4).fl flZ = 1 ∧ getF (e.core 4).fl flV = 0 ∧ getF (e.core 4).fl flHC = 0xFF)) = true := by decide +kernel

/-- A byte subtraction that overflows: 0x80 minus 1 is 0x7F, and the upper bytes of the register stay. -/
theorem test_sub_byte_overflows :
    ends (.sub 4) (prog [0xF3, 0x12, 0x12] [0, 0xAABBCC80, 1]) (fun e =>
      decide ((e.core 4).gr 1 = 0xAABBCC7F) && decide (getF (e.core 4).fl flV = 1 ∧ getF (e.core 4).fl flC = 0 ∧ getF (e.core 4).fl flN = 0)) = true := by decide +kernel

/-- Decimal addition in eight digits: 99999999 and 1 is 0 with a carry. -/
theorem test_dec_add_carries :
    ends (.add 4) (prog [0xF0, 0x10, 0x12] [0, 0x99999999, 1]) (fun e => decide ((e.core 4).gr 1 = 0 ∧ getF (e.core 4).fl flC = 1)) = true := by decide +kernel

/-- Division by 0 is taken as its exception, at VBASE plus sixteen times its code, with EPC at the instruction. -/
theorem test_div_by_zero :
    ends (.divu 4) (prog [0x3E, 0x12] [0, 5, 0]) (fun e => decide ((e.core 4).pc = BitVec.ofNat 32 (16 * excDIVZ) ∧ (e.core 4).epc = 0x20000000 ∧ (e.core 4).gr 1 = 5)) = true := by decide +kernel

/-- A store is little-endian, and a load reads it back. -/
theorem test_store_little_endian :
    ends (.st 4 []) (prog [0x61, 0x12, 0x0F] [0, 0x11223344, 0x20000100]) (fun e =>
      decide (e.byte 0x20000100 = 0x44 ∧ e.byte 0x20000103 = 0x11 ∧ e.load 0x20000100 4 = 0x11223344)) = true := by decide +kernel

/-- A misaligned load raises ALIGN with the address. -/
theorem test_load_misaligned :
    ends (.ld 4 []) (prog [0x60, 0x12, 0x0F] [0, 7, 0x20000102]) (fun e =>
      decide ((e.core 4).ecause = BitVec.ofNat 32 excALIGN ∧ (e.core 4).eaddr = 0x20000102 ∧ (e.core 4).gr 1 = 7)) = true := by decide +kernel

/-- A conditional store without a reservation stores nothing and clears Z. -/
theorem test_stx_without_reservation :
    ends (.stx 4) (flags 2 (prog [0x6C, 0x12, 0x0F] [0, 0x11223344, 0x20000100])) (fun e => decide (getF (e.core 4).fl flZ = 0 ∧ e.load 0x20000100 4 = 0)) = true := by decide +kernel

/-- HALT in user mode raises PRIV, in supervisor mode it stops the core. -/
theorem test_halt_by_mode :
    ends (.halt 4) (prog [0x01] []) (fun e => decide (e.coreState 4 = 2)) = true ∧
    ends (.halt 4) (flags (setF 0 flU 1) (prog [0x01] [])) (fun e => decide ((e.core 4).ecause = BitVec.ofNat 32 excPRIV ∧ getF (e.core 4).fl flU = 0 ∧ getF (e.core 4).efl flU = 1)) = true := by decide +kernel

/-- A lock cell taken once is held, taken by another core it is refused and counted. -/
theorem test_lock_taken :
    ends (.semTake 4 63) up (fun e => decide (e.lock 63 = .held 4)) = true ∧
    ends (.semTake 4 63) (up.setLock 63 (.held 6)) (fun e => decide (e.lock 63 = .held 6 ∧ e.get (SEM_CNT 0) ⟨15, 0⟩ = 1)) = true := by decide +kernel

/-- A step takes the command at the front and keeps the rest. -/
theorem test_step_takes_front :
    (match step ⟨up, [.supplyLowWarning, .sysrst 0]⟩ with | .next t => decide (t.pending = [.sysrst 0]) | _ => false) = true ∧
    (match step State.reset with | .next t => decide (t.pending = [] ∧ t.dev.clk.cyc = 1) | _ => false) = true := by decide +kernel

/-- The Halvmark relays of chapter 6: e = 7 at 125 kHz, a preamble of 304 symbols, 62 bytes at rate 1/2, last 479,996 µs. -/
theorem test_sc_time_on_air : scToa 304 62 1 1 7 = 479996 := by decide +kernel

/-- The MC backhaul burst of chapter 6: 19 codewords, 44 data symbols, 3,525 µs; its header's CRC ends at 0xF754, and SEED 0x2B scrambles 0x4C to 0xA5. -/
theorem test_mc_burst :
    mcWords 4000 2 = 19 ∧ mcDataSyms 4000 2 1 1 = 44 ∧ mcToa 4000 2 1 1 0 1 = 3525 ∧ crc16 [0x06, 0x0F, 0xA0, 0x2B, 0x0A, 0x17] = 0xF754 ∧
    scramble 0x2B [false, true, false, false, true, true, false, false] = [true, false, true, false, false, true, false, true] := by decide +kernel

/-- The door report of chapter 11: its link nonce. -/
theorem test_link_nonce :
    lfNonce [0x18, 0x5C, 0x7E, 0x51, 0x4A, 0x1C, 0x2C, 0x07, 0x00, 0x00, 0x01, 0xD4, 0x03] = [0x7E, 0x51, 0x2C, 0x07, 0x00, 0x00, 0x01, 0xD4, 0x03, 0x05, 0, 0, 0] := by decide +kernel

/-- Window 0 of chapter 15 with START 3 and GAP 100, before its next move and after. -/
theorem test_window_slots :
    (let x : Win := { Win.init with start := 3, back := 156 }
     x.gap 0 = 100 ∧ x.slotOf 0 96 = 99 ∧ x.slotOf 0 98 = 102) ∧
    (let x := ((up.setWin 0 { Win.init with start := 3, back := 156 }).winMove 0 true).winOf 0
     x.gap 0 = 99 ∧ x.slotOf 0 96 = 100 ∧ x.slotOf 0 98 = 102) := by decide +kernel

/-- Cell 17 of chapter 14: orphaned, C3 finds it so, and C0, which is in RESCUE, takes it. -/
theorem test_orphaned_cell :
    (let d := (fields [(SEM_CFG, SEM_CFG_RESCUE, 1)] up).setLock 17 (.orphaned 2)
     ends (.semTake 3 17) d (fun e => decide (e.rdata = semWord 3 7 ∧ e.lock 17 = .orphaned 2)) = true ∧
     ends (.semRescue 0 17) d (fun e => decide (e.rdata = semWord 4 0 ∧ e.lock 17 = .held 0)) = true) := by decide +kernel

/-- The P-256 signature of RFC 6979 over the message "sample" (SHA-256): it verifies, and with one bit of s changed it does not. -/
theorem test_ecdsa_sample :
    (let pub := beBytes 32 0x60FED4BA255A9D31C961EB74C6356D68C049B8923B61FA6CE669622E60F29FB6 ++ beBytes 32 0x7903FE1008B8BC99A41AE9E95628BC64F2F1B20C2D7E9F5177A3C294D4462299
     let sig := fun b : Nat => beBytes 32 0xEFD48B2AACB6A8FD1140DD9CD45E81D69D2C877B56AAF991C34D0EA84EAF3716 ++ beBytes 32 (0xF7CB1C942D657C41D436C7A1B6E29F65F3E900DBB9AFF4064DC4AB2F843ACDA8 + b)
     let e := sha256 [0x73, 0x61, 0x6D, 0x70, 0x6C, 0x65]
     ecdsaOk pub (sig 0) e = true ∧ ecdsaOk pub (sig 1) e = false) := by decide +kernel

/-- Chapter 6: the dechirped symbol 19 of 32 has its peak in bin 19, and the sync word 0x34 at e = 7 is sent as 7 × 4 and 9 × 4. -/
theorem test_chirp_symbol : symBin 5 (upChirp 5 19) = 19 ∧ syncSymbols 7 0x34 = [28, 36] := by decide +kernel

/-- R114: the pilots of 64 chirps; R117: Table 6.9 puts 01 of an axis of 16-QAM on the level −1. -/
theorem test_mc_pilots : pilotIdx 0 = [8, 24, 40, 56] ∧ axisLevel 2 1 = -1 := by decide +kernel

end Sys2Proof.Tests
end

section
/-! Proofs for the Vorok instruction set (chapter 13): what an instruction that works on the registers of its core alone does, and where it waits. -/

namespace Sys2Proof.Machine

/-! ### An instruction on the registers of its core -/

/-- With no fallback, no confirmation window that has run out and no record that waits, nothing falls due at the image controller (R424). -/
theorem Dev.svcDue_of_idle {d : Dev} (hfall : d.svc.fall = false) (hconf : d.confOver = false) (hbad : d.svc.bad = none) : d.svcDue = d := by
  simp [Dev.svcDue, Dev.svcBad, hfall, hconf, hbad]

@[simp] theorem Dev.setCore_setCore (d : Dev) (c : Fin 7) (x y : CoreSt) : (d.setCore c x).setCore c y = d.setCore c y := by
  simp [Dev.setCore]

/-- A core runs on the root clock. -/
theorem Dev.clk_stopped_of_coreRuns {d : Dev} {c : Fin 7} (h : d.coreRuns c = true) : d.clk.stopped = false := by
  simp only [Dev.coreRuns, Bool.and_eq_true, Bool.not_eq_true'] at h
  exact h.2

/-- An instruction that works on the registers of its core alone changes that core and nothing else, unless K0 has met a flash that is starting up: then it is
left where it stands (R313, log entry 44). -/
theorem Dev.vorok_onCore_of_runs {d : Dev} {c : Fin 7} {mn : Mn} {k : Ctx} {e : Dev} (h : Runs d c mn k e) (g : Ctx → CoreSt → CoreSt) :
    d.vorok c mn (fun k d => d.onCore k (g k)) =
      if e.k0Wait then { d with k0Wait := false } else e.setCore c (g k { e.core c with pc := k.next }) := by
  obtain ⟨hrun, rfl, hpc, hnext, ⟨b, hfetch, hparse⟩, hmn, hbad, hfall, hconf, hrec⟩ := h
  have hdue (x : CoreSt) : (e.setCore k.c x).svcDue = e.setCore k.c x := Dev.svcDue_of_idle hfall hconf hrec
  simp only [Dev.vorok, hrun, hfetch, hparse, hmn, hbad, ← hpc, ← hnext, Dev.onCore, Dev.core_setCore_same, Dev.setCore_setCore, hdue,
    Dev.setCore_k0Wait, Bool.not_true, Bool.false_eq_true, ne_eq, not_true_eq_false, if_false]

/-- Where K0 waits for the flash (R313), the instruction does not complete: whatever is said of the core's registers after it, `CoreGives` fails. -/
theorem not_coreGives_of_k0Wait {i : Instr} {d : Dev} {q : List Instr} {c : Fin 7} {mn : Mn} {k : Ctx} {e : Dev} {P : CoreSt → Prop}
    (g : Ctx → CoreSt → CoreSt) (hexec : exec i ⟨d, q⟩ = State.on ⟨d, q⟩ (fun d => d.vorok c mn fun k d => d.onCore k (g k)))
    (h : Runs d c mn k e) (hwait : e.k0Wait = true) : ¬ CoreGives i ⟨d, q⟩ e c P := by
  rintro ⟨y, hgives, -⟩
  have hend := hgives (.inr (Dev.clk_stopped_of_coreRuns h.1))
  simp only [hexec, State.on, Dev.vorok_onCore_of_runs h, hwait, if_true, Host.Outcome.next.injEq, State.mk.injEq, and_true] at hend
  have hflag : false = e.k0Wait := congrArg Dev.k0Wait hend
  exact absurd (hflag.trans hwait) Bool.false_ne_true

/-! ### K0 at a flash that is starting up -/

/-- The instruction that the bytes `b` at the PC of core `c` spell, as its meaning sees it. -/
def Dev.ctxAt (d : Dev) (c : Fin 7) (b : List Byte) : Ctx := ⟨c, (d.core c).pc, (d.core c).pc + BitVec.ofNat 32 (parse b).len, parse b⟩

/-- What has to be evaluated of a fetch for `Runs`. -/
theorem runs_of_fetch {d : Dev} {c : Fin 7} {b : List Byte} (hrun : d.coreRuns c = true) (hfetch : (d.fetch c).1 = .whole b) (hbad : (parse b).bad = false)
    (hidle : (d.fetch c).2.svc.fall = false ∧ (d.fetch c).2.confOver = false ∧ (d.fetch c).2.svc.bad = none) :
    Runs d c (parse b).mn (d.ctxAt c b) (d.fetch c).2 :=
  ⟨hrun, rfl, rfl, rfl, ⟨b, Prod.ext hfetch rfl, rfl⟩, rfl, hbad, hidle⟩

/-- Reset is over and K0 is in RUN at the first byte of the flash, which holds `b`, while READY is still 0 (R313). -/
def k0BeforeReady (b : List Byte) : Dev :=
  let d : Dev := { Dev.reset.setCoreState 6 1 with
    pwr := { PowerSt.init with phase := .running, pins := .sown, femDriven := true, brownOut := false }
    clk := { ClockSt.init with rootUp := true } }
  (d.setCore 6 { CoreSt.init with pc := BitVec.ofNat 32 flashFull }).setBytes flashFull b

/-- CHKD of G1, and SPMAG of G2 into G1. -/
def chkdBytes : List Byte := [0xE0, 0x14, 0x10]
def spmagBytes : List Byte := [0xE0, 0x19, 0x12]

/-- K0 fetches either instruction from the flash and waits for it. -/
theorem k0BeforeReady_fetch : ∀ b ∈ [chkdBytes, spmagBytes],
    let d := k0BeforeReady b
    let e := (d.fetch 6).2
    d.coreRuns 6 = true ∧ (d.fetch 6).1 = .whole b ∧ (parse b).bad = false ∧ e.k0Wait = true ∧ e.svc.fall = false ∧ e.confOver = false ∧ e.svc.bad = none := by
  decide +kernel

/-- Each of them is thus about to run, and is made to wait. -/
theorem k0BeforeReady_waits {b : List Byte} (hb : b ∈ [chkdBytes, spmagBytes]) :
    Runs (k0BeforeReady b) 6 (parse b).mn ((k0BeforeReady b).ctxAt 6 b) ((k0BeforeReady b).fetch 6).2 ∧ ((k0BeforeReady b).fetch 6).2.k0Wait = true := by
  obtain ⟨hrun, hfetch, hbad, hwait, hidle⟩ := k0BeforeReady_fetch b hb
  exact ⟨runs_of_fetch hrun hfetch hbad hidle, hwait⟩

/-! ### The obligations -/

/-- Refutes O42: K0 fetches a CHKD from a flash that is starting up (READY 0). The premises of the CHKD clause hold, but K0 waits for the flash (R313, log
entry 44) and is left where it stands, so the clause's next state is not reached. -/
theorem not_decimalInstructions : ¬ Obligations.DecimalInstructions := by
  unfold Obligations.DecimalInstructions
  intro h
  obtain ⟨hruns, hwait⟩ := k0BeforeReady_waits (b := chkdBytes) (by simp)
  obtain ⟨-, -, -, -, -, hchkd⟩ := h (k0BeforeReady chkdBytes) [] 6 ((k0BeforeReady chkdBytes).ctxAt 6 chkdBytes) ((k0BeforeReady chkdBytes).fetch 6).2
  exact not_coreGives_of_k0Wait Ctx.chkdOp rfl hruns hwait (hchkd hruns)

/-- Refutes O44: K0 fetches an SPMAG from a flash that is starting up (READY 0). The premises of the SPMAG clause hold, but K0 waits for the flash (R313, log
entry 44) and is left where it stands, so the clause's next state is not reached. -/
theorem not_samplePairs : ¬ Obligations.SamplePairs := by
  unfold Obligations.SamplePairs
  intro h
  obtain ⟨hruns, hwait⟩ := k0BeforeReady_waits (b := spmagBytes) (by simp)
  obtain ⟨-, hspmag, -, -⟩ := h (k0BeforeReady spmagBytes) [] 6 ((k0BeforeReady spmagBytes).ctxAt 6 spmagBytes) ((k0BeforeReady spmagBytes).fetch 6).2
  exact not_coreGives_of_k0Wait _ rfl hruns hwait (hspmag hruns)

end Sys2Proof.Machine
end

section
/-! Proofs for the host port (chapter 23, R428 to R432): what each of its frames and register writes gives, and how far the statement O57 goes. -/

namespace Sys2Proof.Machine

/-! ### Spans and cells -/

theorem mem_span {k : Nat} : ∀ {n lo : Nat}, k ∈ span lo n ↔ lo ≤ k ∧ k < lo + n
  | 0, lo => by simp [span]
  | n + 1, lo => by rw [span, List.mem_cons, mem_span]; omega

theorem Dev.cell_setByte (d : Dev) (x y : Nat) (b : Byte) : (d.setByte x b).cell y = if y = d.canon x then b else d.cell y := by
  by_cases h : y = d.canon x
  · subst h; simp [Dev.cell, Dev.setByte, sget_sset]
  · simp [Dev.cell, Dev.setByte, sget_sset_other _ _ _ _ _ _ h, h]

@[simp] theorem Dev.cell_settle (d : Dev) (y : Nat) : d.settle.cell y = d.cell y := memCanon_get d.mem y

/-! ### What fetching the bytes of a READ keeps -/

/-- What fetching the bytes of a READ frame keeps of the device: everything a byte's value, the grants of the windows and the status of the port rest on.
The error log's registers (R446, R447) may move, and the check bits of a word may be corrected. -/
structure Dev.FetchKeeps (d e : Dev) : Prop where
  mem : e.mem = d.mem
  cores : e.cores = d.cores
  wins : e.wins = d.wins
  host : e.host = d.host
  fields : e.pwr.fields = d.pwr.fields
  reg : ∀ a, ¬ (0x400A0000 ≤ a ∧ a < 0x400B0000) → e.reg a = d.reg a
  sound : ∀ w, sget 0 d.memErr w ≤ 1 → sget 0 e.memErr w ≤ 1

namespace Dev.FetchKeeps

variable {d e f : Dev}

theorem refl (d : Dev) : d.FetchKeeps d := ⟨rfl, rfl, rfl, rfl, rfl, fun _ _ => rfl, fun _ h => h⟩

theorem trans (h : d.FetchKeeps e) (k : e.FetchKeeps f) : d.FetchKeeps f :=
  ⟨k.mem.trans h.mem, k.cores.trans h.cores, k.wins.trans h.wins, k.host.trans h.host, k.fields.trans h.fields,
    fun a ha => (k.reg a ha).trans (h.reg a ha), fun w hw => k.sound w (h.sound w hw)⟩

theorem setReg (h : d.FetchKeeps e) {a : Nat} (ha : 0x400A0000 ≤ a ∧ a < 0x400B0000) (v : Word) : d.FetchKeeps (e.setReg a v) :=
  h.trans ⟨rfl, rfl, rfl, rfl, rfl, fun b hb => Dev.reg_setReg_other e a b v (by rintro rfl; exact hb ha), fun _ h => h⟩

theorem put (h : d.FetchKeeps e) {a : Nat} (ha : 0x400A0000 ≤ a ∧ a < 0x400B0000) (f : Fld) (v : Nat) : d.FetchKeeps (e.put a f v) :=
  h.setReg ha _

theorem count (h : d.FetchKeeps e) {a : Nat} (ha : 0x400A0000 ≤ a ∧ a < 0x400B0000) : d.FetchKeeps (e.count a) := by
  unfold Dev.count; split <;> exact h.put ha _ _

theorem lose (d : Dev) (blk unit code t : Nat) : d.FetchKeeps (d.lose blk unit code t) := by
  have hcyc : d.FetchKeeps { d.count ERL_LOST with erlCyc := d.clk.cyc + 1 } :=
    (count (refl d) (by decide)).trans ⟨rfl, rfl, rfl, rfl, rfl, fun _ _ => rfl, fun _ h => h⟩
  unfold Dev.lose
  dsimp only
  split
  · exact setReg (setReg (put hcyc (by decide) _ _) (by decide) _) (by decide) _
  · exact setReg (setReg (setReg (setReg (put hcyc (by decide) _ _) (by decide) _) (by decide) _) (by decide) _) (by decide) _

theorem report (d : Dev) (blk unit code : Nat) (detail : Word) (extra : List Word) : d.FetchKeeps (d.report blk unit code detail extra) := by
  unfold Dev.report
  split
  · exact lose d _ _ _ _
  · exact ⟨rfl, rfl, rfl, rfl, rfl, fun _ _ => rfl, fun _ h => h⟩

theorem touchDomain (d : Dev) (a : Nat) : d.FetchKeeps (d.touchDomain a) := by
  unfold Dev.touchDomain
  split
  · exact refl d
  · cases domainAt a with
    | none => exact refl d
    | some i => exact ⟨rfl, rfl, rfl, rfl, rfl, fun _ _ => rfl, fun _ h => h⟩

theorem eccCounter_range (a : Nat) (bad : Bool) : 0x400A0000 ≤ ERL_ECC (eccCounter a bad) ∧ ERL_ECC (eccCounter a bad) < 0x400B0000 := by
  have : eccCounter a bad ≤ 5 := by
    unfold eccCounter; cases bad <;> split <;> simp
  unfold ERL_ECC; omega

/-- A read of a word of RAM corrects a single bit in error, or counts and reports one that it cannot correct. -/
theorem eccRead (d : Dev) (a : Nat) (syn : Word) : d.FetchKeeps (d.eccRead a syn).2 := by
  unfold Dev.eccRead
  split
  · exact refl d
  · have hfix : d.FetchKeeps { d with memErr := sset 0 d.memErr (a / 4) 0 } :=
      ⟨rfl, rfl, rfl, rfl, rfl, fun _ _ => rfl, fun w h => by simp only [sget_sset]; split <;> omega⟩
    exact hfix.count (eccCounter_range a false)
  · exact ((refl d).count (eccCounter_range a true)).trans (report _ _ _ _ _ _)

theorem get (h : d.FetchKeeps e) {a : Nat} (ha : ¬ (0x400A0000 ≤ a ∧ a < 0x400B0000)) (f : Fld) : e.get a f = d.get a f := by
  simp [Dev.get, h.reg a ha]

theorem flag (h : d.FetchKeeps e) {a : Nat} (ha : ¬ (0x400A0000 ≤ a ∧ a < 0x400B0000)) (f : Fld) : e.flag a f = d.flag a f := by
  simp [Dev.flag, h.get ha]

theorem fieldOn (h : d.FetchKeeps e) (n : Nat) : e.fieldOn n = d.fieldOn n := by
  simp [Dev.fieldOn, h.fields]

theorem byte (h : d.FetchKeeps e) (x : Nat) : e.byte x = d.byte x := by
  simp [Dev.byte, Dev.canon, Dev.winSector, Dev.winOf, h.mem, h.wins, h.get (a := FLC_BOOT) (by decide)]

end Dev.FetchKeeps

theorem Dev.hostGrants_iff (d : Dev) (a : Nat) (write : Bool) : d.hostGrants a write = true ↔ ∃ w < 2, d.flag (HST_WINC w) HST_WINC_EN = true ∧
    (write = true → d.flag (HST_WINC w) HST_WINC_WR = true) ∧ d.hostBase w ≤ a ∧ a < d.hostBase w + d.hostSize w := by
  cases write <;> simp [Dev.hostGrants, mem_span, and_assoc]

/-- The grants rest on the window registers alone. -/
theorem Dev.hostGrants_congr {d e : Dev} (hb : ∀ w < 2, e.reg (HST_WINB w) = d.reg (HST_WINB w)) (hc : ∀ w < 2, e.reg (HST_WINC w) = d.reg (HST_WINC w))
    (a : Nat) (write : Bool) : e.hostGrants a write = d.hostGrants a write := by
  rw [Bool.eq_iff_iff, Dev.hostGrants_iff, Dev.hostGrants_iff]
  refine exists_congr fun w => and_congr_right fun hw => ?_
  have hflag : ∀ f, e.flag (HST_WINC w) f = d.flag (HST_WINC w) f := fun f => by rw [Dev.flag, Dev.flag, Dev.get, Dev.get, hc w hw]
  simp only [hflag, Dev.hostBase, Dev.hostSize, Dev.get, hb w hw, hc w hw]

theorem Dev.FetchKeeps.hostGrants {d e : Dev} (h : d.FetchKeeps e) (a : Nat) (write : Bool) : e.hostGrants a write = d.hostGrants a write :=
  Dev.hostGrants_congr (fun w hw => h.reg _ (by unfold HST_WINB; omega)) (fun w hw => h.reg _ (by unfold HST_WINC; omega)) a write

/-! ### The bytes of a READ (R429) -/

/-- One byte of a READ frame, at address `x` and place `j` of its group of four, as it is fetched. -/
def Dev.hostFetch (d : Dev) (x j : Nat) : Byte × Dev :=
  if d.hostGrants x false && d.fieldOn (targetOf x).2 then
    let r := if j = 0 ∨ x % 4 = 0 then (d.touchDomain x).eccRead x (esynOf x synECC false false false) else (!d.wordBad x, d)
    (if r.1 then r.2.byte x else 0, r.2)
  else (0, d)

/-- A group is fetched byte by byte. -/
theorem Dev.hostGroup_eq (d : Dev) (a : Word) (k : Nat) : d.hostGroup a k =
    (span 0 4).foldl (fun q j => (q.1 ++ [(q.2.hostFetch (frameAddr a (4 * k + j)) j).1], (q.2.hostFetch (frameAddr a (4 * k + j)) j).2)) ([], d) := by
  unfold Dev.hostGroup
  congr 1
  funext q j
  unfold Dev.hostFetch
  dsimp only
  split <;> rfl

/-- The byte that a READ of the device `d` shows of the address `x` (R429, R6). -/
structure Dev.HostShows (d : Dev) (x : Nat) (b : Byte) : Prop where
  granted : d.hostGrants x false = true → d.fieldOn (targetOf x).2 = true → sget 0 d.memErr (x / 4) ≤ 1 → b = d.byte x
  unpowered : d.fieldOn (targetOf x).2 = false → b = 0
  ungranted : d.hostGrants x false = false → b = 0

/-- No word of flash that a READ looks at past its first byte reads with an uncorrectable error (R306, R317). -/
def FlashReadsGood : Prop := ∀ (d : Dev) (x : Nat), flashAddr x = true → x % 4 ≠ 0 → d.wordBad x = false

theorem eccRead_good {d : Dev} {a : Nat} (h : sget 0 d.memErr (a / 4) ≤ 1) (syn : Word) : (d.eccRead a syn).1 = true := by
  obtain h0 | h1 : sget 0 d.memErr (a / 4) = 0 ∨ sget 0 d.memErr (a / 4) = 1 := by omega
  · simp [Dev.eccRead, h0]
  · simp [Dev.eccRead, h1]

theorem touchDomain_memErr (d : Dev) (a : Nat) : (d.touchDomain a).memErr = d.memErr := by
  unfold Dev.touchDomain
  split
  · rfl
  · cases domainAt a <;> rfl

theorem Dev.wordBad_of_sound (hflash : FlashReadsGood) {d : Dev} {x : Nat} (hx : x % 4 ≠ 0) (h : sget 0 d.memErr (x / 4) ≤ 1) : d.wordBad x = false := by
  cases hfl : flashAddr x with
  | true => exact hflash d x hfl hx
  | false =>
    have : sget 0 d.memErr (x / 4) ≠ 2 := by omega
    simp [Dev.wordBad, hfl, this]

/-- Fetching a byte keeps the rest. -/
theorem Dev.hostFetch_keeps (d : Dev) (x j : Nat) : d.FetchKeeps (d.hostFetch x j).2 := by
  unfold Dev.hostFetch
  split
  · dsimp only
    split
    · exact (FetchKeeps.touchDomain d x).trans (FetchKeeps.eccRead _ x _)
    · exact FetchKeeps.refl d
  · exact FetchKeeps.refl d

theorem Dev.hostFetch_shows (hflash : FlashReadsGood) (d : Dev) (x j : Nat) : d.HostShows x (d.hostFetch x j).1 := by
  constructor
  · intro hg hf hs
    unfold Dev.hostFetch
    rw [if_pos (by simp [hg, hf])]
    by_cases hj : j = 0 ∨ x % 4 = 0
    · have hgood : ((d.touchDomain x).eccRead x (esynOf x synECC false false false)).1 = true :=
        eccRead_good (by rwa [touchDomain_memErr]) _
      simp only [if_pos hj, hgood, if_true]
      exact ((FetchKeeps.touchDomain d x).trans (FetchKeeps.eccRead _ x _)).byte x
    · have hbad : d.wordBad x = false := Dev.wordBad_of_sound hflash (fun h => hj (Or.inr h)) hs
      simp [if_neg hj, hbad]
  · intro hf; simp [Dev.hostFetch, hf]
  · intro hg; simp [Dev.hostFetch, hg]

/-- What the device shows before a fetch it shows after it. -/
theorem Dev.FetchKeeps.shows {d e : Dev} (h : d.FetchKeeps e) {x : Nat} {b : Byte} (hb : e.HostShows x b) : d.HostShows x b := by
  constructor
  · intro hg hf hs
    rw [← h.byte x]
    exact hb.granted (by rwa [h.hostGrants]) (by rwa [h.fieldOn]) (h.sound _ hs)
  · intro hf; exact hb.unpowered (by rwa [h.fieldOn])
  · intro hg; exact hb.ungranted (by rwa [h.hostGrants])

/-- `n` bytes have been fetched from the device `d`, of which the one in place `i` is one that `P i` allows. -/
structure Dev.HostFetched (d : Dev) (P : Nat → Byte → Prop) (n : Nat) (q : List Byte × Dev) : Prop where
  keeps : d.FetchKeeps q.2
  length : q.1.length = n
  shows : ∀ i b, q.1[i]? = some b → P i b

/-- Fetches one after another, each of `m` bytes. -/
theorem Dev.HostFetched.foldl {d : Dev} {P : Nat → Byte → Prop} {m : Nat} {g : Dev → Nat → List Byte × Dev}
    (hg : ∀ e k, d.FetchKeeps e → d.HostFetched (fun i => P (m * k + i)) m (g e k)) :
    ∀ (n lo : Nat) (q : List Byte × Dev), d.HostFetched P (m * lo) q →
      d.HostFetched P (m * (lo + n)) ((span lo n).foldl (fun q k => (q.1 ++ (g q.2 k).1, (g q.2 k).2)) q)
  | 0, lo, q, hq => hq
  | n + 1, lo, q, hq => by
    have hstep := hg q.2 lo hq.keeps
    have hnext : d.HostFetched P (m * (lo + 1)) (q.1 ++ (g q.2 lo).1, (g q.2 lo).2) := by
      refine ⟨hstep.keeps, by simp [hq.length, hstep.length, Nat.mul_add], fun i b hb => ?_⟩
      dsimp only at hb
      by_cases hi : i < q.1.length
      · exact hq.shows i b (by rwa [List.getElem?_append_left hi] at hb)
      · rw [List.getElem?_append_right (by omega)] at hb
        have := hstep.shows _ b hb
        rwa [hq.length, Nat.add_sub_cancel' (by rw [← hq.length]; omega)] at this
    have := Dev.HostFetched.foldl hg n (lo + 1) _ hnext
    rwa [show lo + 1 + n = lo + (n + 1) by omega] at this

theorem Dev.HostFetched.nil (d : Dev) (P : Nat → Byte → Prop) : d.HostFetched P 0 ([], d) := ⟨Dev.FetchKeeps.refl d, rfl, by simp⟩

theorem Dev.HostFetched.singleton {d e : Dev} {P : Nat → Byte → Prop} {b : Byte} (h : d.FetchKeeps e) (hb : P 0 b) : d.HostFetched P 1 ([b], e) :=
  ⟨h, rfl, fun i x hx => by
    obtain ⟨rfl, rfl⟩ : i = 0 ∧ b = x := by simpa [List.getElem?_singleton] using hx
    exact hb⟩

/-- A group shows of each of its addresses what the device shows. -/
theorem Dev.hostGroup_fetched (hflash : FlashReadsGood) {d e : Dev} (h : d.FetchKeeps e) (a : Word) (k : Nat) :
    d.HostFetched (fun i => d.HostShows (frameAddr a (4 * k + i))) 4 (e.hostGroup a k) := by
  rw [Dev.hostGroup_eq]
  have hall := Dev.HostFetched.foldl (d := e) (P := fun i => e.HostShows (frameAddr a (4 * k + i))) (m := 1)
    (g := fun f j => ([(f.hostFetch (frameAddr a (4 * k + j)) j).1], (f.hostFetch (frameAddr a (4 * k + j)) j).2))
    (fun f j hf => .singleton (hf.trans (f.hostFetch_keeps _ j)) (by simpa using hf.shows (f.hostFetch_shows hflash _ j)))
    4 0 ([], e) (.nil e _)
  exact ⟨h.trans hall.keeps, hall.length, fun i b hb => h.shows (hall.shows i b hb)⟩

/-- A READ shows of each address what the device shows. -/
theorem Dev.hostBytes_fetched (hflash : FlashReadsGood) (d : Dev) (a : Word) (n : Nat) :
    d.HostFetched (fun i => d.HostShows (frameAddr a i)) n (d.hostBytes a n) := by
  have hall := Dev.HostFetched.foldl (d := d) (P := fun i => d.HostShows (frameAddr a i)) (m := 4) (g := fun e k => e.hostGroup a k)
    (fun e k he => Dev.hostGroup_fetched hflash he a k) (max 1 ((n + 3) / 4)) 0 ([], d) (.nil d _)
  refine ⟨hall.keeps, ?_, fun i b hb => hall.shows i b ?_⟩
  · unfold Dev.hostBytes
    rw [List.length_take, hall.length]
    omega
  · unfold Dev.hostBytes at hb
    rw [List.getElem?_take, Option.ite_none_right_eq_some] at hb
    exact hb.2

/-! ### Frames -/

/-- The device in the cycle of a frame: HST_CS is low (R432; log entry 119). -/
def Dev.inFrame (d : Dev) : Dev := { d with host := { d.host with csAt := some d.clk.cyc } }

theorem Dev.hostFrame_off {d : Dev} (h : d.hostOn = false) (f : Dev → Dev) : d.hostFrame f = d := by simp [Dev.hostFrame, h]

theorem Dev.hostFrame_on {d : Dev} (h : d.hostOn = true) (f : Dev → Dev) : d.hostFrame f = f d.inFrame := by simp [Dev.hostFrame, h, Dev.inFrame]

/-- A frame that reads, on a port that serves. -/
theorem gives_of_frame {i : Instr} {d e : Dev} {q : List Instr} {f : Dev → Dev} (hr : rootFree i = false) (h : exec i ⟨d, q⟩ = State.run ⟨d, q⟩ (fun d => d.hostFrame f))
    (hon : d.hostOn = true) (he : f d.inFrame = e) : Gives i ⟨d, q⟩ e := gives_of_run hr h ((Dev.hostFrame_on hon f).trans he)

/-- A frame that writes, on a port that serves and does not rest. -/
theorem gives_of_askFrame {i j : Instr} {d e : Dev} {q : List Instr} {f : Dev → Dev} (hr : rootFree i = false)
    (h : exec i ⟨d, q⟩ = State.ask ⟨d, q⟩ j HST_STAT (fun d => d.hostFrame f)) (hon : d.hostOn = true) (hrest : d.restsAt HST_STAT = false)
    (he : f d.inFrame = e) : Gives i ⟨d, q⟩ e := gives_of_ask hr hrest h ((Dev.hostFrame_on hon f).trans he)

/-- A port that is not sown serves nothing. -/
theorem gives_of_frame_off {i : Instr} {d : Dev} {q : List Instr} {f : Dev → Dev} (hr : rootFree i = false) (h : exec i ⟨d, q⟩ = State.run ⟨d, q⟩ (fun d => d.hostFrame f))
    (hoff : d.hostOn = false) : Gives i ⟨d, q⟩ d := gives_of_run hr h (Dev.hostFrame_off hoff f)

theorem gives_of_askFrame_off {i j : Instr} {d : Dev} {q : List Instr} {f : Dev → Dev} (hr : rootFree i = false)
    (h : exec i ⟨d, q⟩ = State.ask ⟨d, q⟩ j HST_STAT (fun d => d.hostFrame f)) (hoff : d.hostOn = false) (hrest : d.restsAt HST_STAT = false) :
    Gives i ⟨d, q⟩ d := gives_of_ask hr hrest h (Dev.hostFrame_off hoff f)

/-- A frame that writes, at a port that rests, waits (R371). -/
theorem gives_of_askFrame_rests {i : Instr} {d : Dev} {q : List Instr} {f : Dev → Dev} (hr : rootFree i = false)
    (h : exec i ⟨d, q⟩ = State.ask ⟨d, q⟩ i HST_STAT (fun d => d.hostFrame f)) (hrest : d.restsAt HST_STAT = true) :
    Gives i ⟨d, q⟩ (d.hold i) := gives_of_run hr h (if_pos hrest)

/-- What a command leaves, said more weakly. -/
theorem After.mono {i : Instr} {s : State} {P Q : Dev → Prop} (h : After i s P) (hpq : ∀ e, P e → Q e) : After i s Q := fun hc =>
  (h hc).imp fun t ht => ⟨ht.1, ht.2.1, hpq t.dev ht.2.2⟩

/-! ### A byte outside every window (R429, R431) -/

@[simp] theorem Dev.hostErr_mem (d : Dev) (k : Nat) : (d.hostErr k).mem = d.mem := by simp [Dev.hostErr]
@[simp] theorem Dev.hostErr_memErr (d : Dev) (k : Nat) : (d.hostErr k).memErr = d.memErr := by simp [Dev.hostErr]
@[simp] theorem Dev.hostErr_cores (d : Dev) (k : Nat) : (d.hostErr k).cores = d.cores := by simp [Dev.hostErr]
@[simp] theorem Dev.hostErr_wins (d : Dev) (k : Nat) : (d.hostErr k).wins = d.wins := by simp [Dev.hostErr]
@[simp] theorem Dev.hostErr_pwr (d : Dev) (k : Nat) : (d.hostErr k).pwr = d.pwr := by simp [Dev.hostErr]
@[simp] theorem Dev.hostErr_host (d : Dev) (k : Nat) : (d.hostErr k).host = { d.host with herr := true } := by simp [Dev.hostErr]

theorem Dev.reg_hostErr_other (d : Dev) {a k : Nat} (hs : a ≠ HST_STAT) (hc : a ≠ HST_CNT k) : (d.hostErr k).reg a = d.reg a := by
  unfold Dev.hostErr
  rw [Dev.reg_count_other _ _ _ hc, Dev.reg_put_other _ _ _ _ _ hs]
  rfl

theorem HST_STAT_ne_CNT (k : Nat) : HST_STAT ≠ HST_CNT k := by unfold HST_STAT HST_CNT; omega

/-- ERR is set. -/
theorem Dev.flag_hostErr (d : Dev) (k : Nat) : (d.hostErr k).flag HST_STAT HST_STAT_ERR = true := by
  have : (d.hostErr k).get HST_STAT HST_STAT_ERR = 1 := by
    unfold Dev.hostErr
    rw [Dev.get, Dev.reg_count_other _ _ _ (HST_STAT_ne_CNT k), ← Dev.get, Dev.get_put_same _ _ _ _ (by decide) (by decide)]
    rfl
  simp [Dev.flag, this]

/-- A counter below its limit goes one up. -/
theorem Dev.get_count_of_lt (d : Dev) (a : Nat) (h : d.get a HST_CNT_COUNT < 0xFFFF) : (d.count a).get a HST_CNT_COUNT = d.get a HST_CNT_COUNT + 1 := by
  have hne : ¬ d.get a ⟨15, 0⟩ = 0xFFFF := Nat.ne_of_lt h
  have hmod : (d.get a HST_CNT_COUNT + 1) % 2 ^ HST_CNT_COUNT.width = d.get a HST_CNT_COUNT + 1 := Nat.mod_eq_of_lt (Nat.succ_lt_succ h)
  rw [Dev.count, if_neg hne]
  exact (Dev.get_put_same _ _ _ _ (by decide) (by decide)).trans hmod

/-- The counter of the lost frames goes one up below its limit. -/
theorem Dev.get_hostErr_count (d : Dev) (k : Nat) (h : d.get (HST_CNT k) HST_CNT_COUNT < 0xFFFF) :
    (d.hostErr k).get (HST_CNT k) HST_CNT_COUNT = d.get (HST_CNT k) HST_CNT_COUNT + 1 := by
  have hsame : Dev.get (Dev.put { d with host := { d.host with herr := true } } HST_STAT HST_STAT_ERR 1) (HST_CNT k) HST_CNT_COUNT =
      d.get (HST_CNT k) HST_CNT_COUNT := Dev.get_put_other _ _ _ _ _ _ (HST_STAT_ne_CNT k).symm
  rw [Dev.hostErr, Dev.get_count_of_lt _ _ (hsame ▸ h), hsame]

theorem Dev.hostGrants_hostErr (d : Dev) (k a : Nat) (write : Bool) : (d.hostErr k).hostGrants a write = d.hostGrants a write :=
  Dev.hostGrants_congr (fun w hw => d.reg_hostErr_other (by unfold HST_WINB HST_STAT; omega) (by unfold HST_WINB HST_CNT; omega))
    (fun w hw => d.reg_hostErr_other (by unfold HST_WINC HST_STAT; omega) (by unfold HST_WINC HST_CNT; omega)) a write

@[simp] theorem Dev.byte_hostErr (d : Dev) (k x : Nat) : (d.hostErr k).byte x = d.byte x := by
  have hboot : ∀ f, (d.hostErr k).get FLC_BOOT f = d.get FLC_BOOT f := fun f => by
    rw [Dev.get, d.reg_hostErr_other (by decide) (by unfold FLC_BOOT HST_CNT; omega), ← Dev.get]
  simp [Dev.byte, Dev.canon, Dev.winSector, Dev.winOf, hboot]

@[simp] theorem Dev.cell_hostErr (d : Dev) (k y : Nat) : (d.hostErr k).cell y = d.cell y := by simp [Dev.cell]

theorem Dev.hostMiss_iff (d : Dev) (a : Word) (n : Nat) (write : Bool) :
    d.hostMiss a n write = true ↔ ∃ i < n, d.hostGrants (frameAddr a i) write = false := by
  simp [Dev.hostMiss, mem_span]

theorem Dev.hostMiss_false_iff (d : Dev) (a : Word) (n : Nat) (write : Bool) :
    d.hostMiss a n write = false ↔ ∀ i < n, d.hostGrants (frameAddr a i) write = true := by
  simp [Dev.hostMiss, mem_span]

/-! ### READ (R428, R429) -/

/-- WINERR where a byte of the READ lies outside. -/
def Dev.hostNoted (d : Dev) (a : Word) (n : Nat) : Dev := if d.hostMiss a n false then d.hostErr 0 else d

/-- The device after a READ. -/
def Dev.hostServed (d : Dev) (a : Word) (n : Nat) : Dev :=
  let r := (d.hostNoted a n).hostBytes a n
  { r.2 with host := { r.2.host with out := r.1 } }

theorem gives_hostRead {d : Dev} {q : List Instr} (a : Word) (n : Nat) (hon : d.hostOn = true) :
    Gives (.hostRead a n) ⟨d, q⟩ (d.inFrame.hostServed a n) := gives_of_frame rfl rfl hon rfl

theorem Dev.HostShows.of_hostErr {d : Dev} {k x : Nat} {b : Byte} (h : (d.hostErr k).HostShows x b) : d.HostShows x b := by
  obtain ⟨hgranted, hunpowered, hungranted⟩ := h
  simp only [Dev.hostGrants_hostErr, Dev.fieldOn, Dev.hostErr_pwr, Dev.hostErr_memErr, Dev.byte_hostErr] at hgranted hunpowered hungranted
  exact ⟨hgranted, hunpowered, hungranted⟩

theorem Dev.HostShows.of_hostNoted {d : Dev} {a : Word} {n x : Nat} {b : Byte} (h : (d.hostNoted a n).HostShows x b) : d.HostShows x b := by
  unfold Dev.hostNoted at h
  split at h
  · exact h.of_hostErr
  · exact h

theorem Dev.hostNoted_cores (d : Dev) (a : Word) (n : Nat) : (d.hostNoted a n).cores = d.cores := by
  unfold Dev.hostNoted; split <;> simp

theorem Dev.byte_hostNoted (d : Dev) (a : Word) (n x : Nat) : (d.hostNoted a n).byte x = d.byte x := by
  unfold Dev.hostNoted; split <;> simp

/-- What a READ of `n` bytes from `a` on leaves of the device `d` (R429): each byte driven is one that `d` shows, no byte of memory and no core has changed, a
byte outside sets HERR and ERR, and with none outside HERR, HST_STAT and WINERR stay. -/
structure Dev.ReadFrom (d : Dev) (a : Word) (n : Nat) (e : Dev) : Prop where
  length : e.host.out.length = n
  cores : e.cores = d.cores
  byte : ∀ y, e.byte y = d.byte y
  shows : ∀ i < n, ∃ b, e.host.out[i]? = some b ∧ d.HostShows (frameAddr a i) b
  miss : d.hostMiss a n false = true → e.host.herr = true ∧ e.flag HST_STAT HST_STAT_ERR = true
  inside : d.hostMiss a n false = false → e.host.herr = d.host.herr ∧ e.reg HST_STAT = d.reg HST_STAT ∧ e.reg (HST_CNT 0) = d.reg (HST_CNT 0)

theorem Dev.readFrom_hostServed (hflash : FlashReadsGood) (d : Dev) (a : Word) (n : Nat) : d.ReadFrom a n (d.hostServed a n) := by
  have hfetched := (d.hostNoted a n).hostBytes_fetched hflash a n
  have hkeeps := hfetched.keeps
  refine ⟨hfetched.length, hkeeps.cores.trans (d.hostNoted_cores a n), fun y => (hkeeps.byte y).trans (d.byte_hostNoted a n y), fun i hi => ?_, fun h => ?_, fun h => ?_⟩
  · have hlt : i < ((d.hostNoted a n).hostBytes a n).1.length := by rwa [hfetched.length]
    exact ⟨_, List.getElem?_eq_getElem hlt, (hfetched.shows i _ (List.getElem?_eq_getElem hlt)).of_hostNoted⟩
  · have hnoted : d.hostNoted a n = d.hostErr 0 := if_pos h
    refine ⟨(congrArg HostSt.herr hkeeps.host).trans (by simp [hnoted]), (hkeeps.flag (by decide) _).trans ?_⟩
    rw [hnoted, d.flag_hostErr]
  · have hnoted : d.hostNoted a n = d := if_neg (by simp [h])
    refine ⟨(congrArg HostSt.herr hkeeps.host).trans (by simp [hnoted]), (hkeeps.reg _ (by decide)).trans ?_, (hkeeps.reg _ (by decide)).trans ?_⟩ <;> rw [hnoted]

/-- As a step leaves it. -/
theorem Dev.ReadFrom.settled {d e : Dev} {a : Word} {n : Nat} (h : d.ReadFrom a n e) (x : Dev) : d.ReadFrom a n (x.wakeBy e).settle :=
  ⟨h.length, h.cores, fun y => by simp [h.byte], h.shows, h.miss, h.inside⟩

/-- HST_CS plays no part in what is read. -/
theorem Dev.ReadFrom.of_inFrame {d e : Dev} {a : Word} {n : Nat} (h : d.inFrame.ReadFrom a n e) : d.ReadFrom a n e :=
  ⟨h.length, h.cores, h.byte, fun i hi => (h.shows i hi).imp fun _ hb => ⟨hb.1, hb.2.granted, hb.2.unpowered, hb.2.ungranted⟩, h.miss, h.inside⟩

section
variable {d e : Dev} {a : Word} {n i : Nat} (h : d.ReadFrom a n e) (hi : i < n)
include h hi

theorem Dev.ReadFrom.out_granted (hg : d.hostGrants (frameAddr a i) false = true) (hf : d.fieldOn (targetOf (frameAddr a i)).2 = true)
    (hs : sget 0 d.memErr (frameAddr a i / 4) ≤ 1) : e.host.out[i]? = some (d.byte (frameAddr a i)) := by
  obtain ⟨b, hb, hshows⟩ := h.shows i hi
  rw [hb, hshows.granted hg hf hs]

theorem Dev.ReadFrom.out_unpowered (hf : d.fieldOn (targetOf (frameAddr a i)).2 = false) : e.host.out[i]? = some 0 := by
  obtain ⟨b, hb, hshows⟩ := h.shows i hi
  rw [hb, hshows.unpowered hf]

theorem Dev.ReadFrom.out_ungranted (hg : d.hostGrants (frameAddr a i) false = false) : e.host.out[i]? = some 0 := by
  obtain ⟨b, hb, hshows⟩ := h.shows i hi
  rw [hb, hshows.ungranted hg]

end

theorem after_hostRead (hflash : FlashReadsGood) {d : Dev} {q : List Instr} (a : Word) (n : Nat) (hon : d.hostOn = true) :
    After (.hostRead a n) ⟨d, q⟩ (d.ReadFrom a n) :=
  after_of_gives (gives_hostRead a n hon) ((d.inFrame.readFrom_hostServed hflash a n).settled d).of_inFrame

/-! ### WRITE (R429, R430) -/

/-- One byte of a WRITE frame at the address `x`. -/
def Dev.hostStep (d : Dev) (x : Nat) (b : Byte) : Dev := if d.hostGrants x true && d.fieldOn (targetOf x).2 then d.setByte x b else d

theorem Dev.hostPut_cons (d : Dev) (a : Word) (i : Nat) (b : Byte) (r : List Byte) :
    d.hostPut a i (b :: r) = (d.hostStep (frameAddr a i) b).hostPut a (i + 1) r := rfl

section
variable (d : Dev) (x : Nat) (b : Byte)

@[simp] theorem Dev.hostStep_regs : (d.hostStep x b).regs = d.regs := by unfold Dev.hostStep; split <;> rfl
@[simp] theorem Dev.hostStep_host : (d.hostStep x b).host = d.host := by unfold Dev.hostStep; split <;> rfl
@[simp] theorem Dev.hostStep_fieldOn (f : Nat) : (d.hostStep x b).fieldOn f = d.fieldOn f := by unfold Dev.hostStep; split <;> rfl
@[simp] theorem Dev.hostStep_hostGrants (y : Nat) (w : Bool) : (d.hostStep x b).hostGrants y w = d.hostGrants y w := by unfold Dev.hostStep; split <;> rfl
@[simp] theorem Dev.hostStep_canon (y : Nat) : (d.hostStep x b).canon y = d.canon y := by unfold Dev.hostStep; split <;> rfl

/-- A byte that is not granted, or whose field has no power, is not written. -/
theorem Dev.cell_hostStep (y : Nat) : (d.hostStep x b).cell y =
    if (d.hostGrants x true && d.fieldOn (targetOf x).2) = true ∧ y = d.canon x then b else d.cell y := by
  unfold Dev.hostStep
  split
  · next h => simp [h, Dev.cell_setByte]
  · next h => simp [h]

end

@[simp] theorem Dev.hostPut_regs (d : Dev) (a : Word) (i : Nat) (l : List Byte) : (d.hostPut a i l).regs = d.regs := by
  induction l generalizing d i with
  | nil => rfl
  | cons b r ih => rw [Dev.hostPut_cons, ih, Dev.hostStep_regs]

@[simp] theorem Dev.hostPut_host (d : Dev) (a : Word) (i : Nat) (l : List Byte) : (d.hostPut a i l).host = d.host := by
  induction l generalizing d i with
  | nil => rfl
  | cons b r ih => rw [Dev.hostPut_cons, ih, Dev.hostStep_host]

/-- A WRITE leaves every cell that none of its granted bytes stands for. -/
theorem Dev.cell_hostPut_other (d : Dev) (a : Word) (i : Nat) (l : List Byte) (y : Nat)
    (h : ∀ j < l.length, d.hostGrants (frameAddr a (i + j)) true = true → d.canon (frameAddr a (i + j)) ≠ y) : (d.hostPut a i l).cell y = d.cell y := by
  induction l generalizing d i with
  | nil => rfl
  | cons b r ih =>
    rw [Dev.hostPut_cons, ih, Dev.cell_hostStep, if_neg]
    · rintro ⟨hg, rfl⟩
      exact h 0 (by simp) (by simpa using (Bool.and_eq_true_iff.mp hg).1) rfl
    · intro j hj hg
      rw [Dev.hostStep_hostGrants, Nat.add_assoc, Nat.add_comm 1 j] at hg
      rw [Dev.hostStep_canon, Nat.add_assoc, Nat.add_comm 1 j]
      exact h (j + 1) (by simpa using hj) hg

/-- Above the flash an address is its own stored form. -/
theorem Dev.canon_of_ge (d : Dev) {a : Nat} (h : 0x02000000 ≤ a) : d.canon a = a := by
  unfold Dev.canon; rw [if_neg (by omega), if_neg (by omega)]

theorem frameAddr_of_lt {a : Word} {i : Nat} (h : a.toNat + i < 2 ^ 32) : frameAddr a i = a.toNat + i := Nat.mod_eq_of_lt h

/-- In RAM each granted byte of a powered field is written, and no other. -/
theorem Dev.cell_hostPut (d : Dev) (a : Word) (i : Nat) (l : List Byte) (h1 : 0x20000000 ≤ a.toNat) (h2 : a.toNat + i + l.length ≤ 2 ^ 32)
    (j : Nat) (x : Byte) (hx : l[j]? = some x) : (d.hostPut a i l).cell (a.toNat + (i + j)) =
      if d.hostGrants (a.toNat + (i + j)) true && d.fieldOn (targetOf (a.toNat + (i + j))).2 then x else d.cell (a.toNat + (i + j)) := by
  induction l generalizing d i j with
  | nil => simp at hx
  | cons b r ih =>
    rw [List.length_cons] at h2
    have hhead : frameAddr a i = a.toNat + i := frameAddr_of_lt (by omega)
    rw [Dev.hostPut_cons]
    cases j with
    | zero =>
      obtain rfl : b = x := by simpa using hx
      rw [Dev.cell_hostPut_other, Dev.cell_hostStep, hhead, Dev.canon_of_ge _ (by omega)]
      · simp
      · intro k hk _
        rw [frameAddr_of_lt (i := i + 1 + k) (by omega), Dev.canon_of_ge _ (by omega)]
        omega
    | succ j =>
      have hrest := ih (d.hostStep (frameAddr a i) b) (i + 1) (by omega) j (by simpa using hx)
      rw [show i + 1 + j = i + (j + 1) by omega] at hrest
      rw [hrest, Dev.cell_hostStep, hhead, Dev.canon_of_ge _ (by omega), if_neg (c := _ ∧ _) (by omega)]
      simp only [Dev.hostStep_hostGrants, Dev.hostStep_fieldOn]

@[simp] theorem Dev.eccClear_regs (d : Dev) (a n : Nat) : (d.eccClear a n).regs = d.regs := by unfold Dev.eccClear; split <;> rfl
@[simp] theorem Dev.eccClear_host (d : Dev) (a n : Nat) : (d.eccClear a n).host = d.host := by unfold Dev.eccClear; split <;> rfl
@[simp] theorem Dev.cell_eccClear (d : Dev) (a n y : Nat) : (d.eccClear a n).cell y = d.cell y := by unfold Dev.eccClear; split <;> rfl

/-- The device after a WRITE. -/
def Dev.hostWritten (d : Dev) (a : Word) (bytes : List Byte) : Dev :=
  if d.hostMiss a bytes.length true then (d.hostPut a 0 bytes).hostErr 0 else (d.hostPut a 0 bytes).eccClear a.toNat bytes.length

theorem gives_hostWrite {d : Dev} {q : List Instr} (a : Word) (bytes : List Byte) (hon : d.hostOn = true) (hrest : d.restsAt HST_STAT = false) :
    Gives (.hostWrite a bytes) ⟨d, q⟩ (d.inFrame.hostWritten a bytes) :=
  gives_of_askFrame rfl rfl hon hrest (by unfold Dev.hostWritten; dsimp only; split <;> rfl)

/-- What a WRITE of `bytes` from `a` on leaves of the device `d` (R429): in RAM each granted byte of a powered field is written, no other cell changes, a byte
outside sets HERR and ERR, and with none outside the registers and HERR stay. -/
structure Dev.WrittenFrom (d : Dev) (a : Word) (bytes : List Byte) (e : Dev) : Prop where
  out : e.host.out = d.host.out
  written : 0x20000000 ≤ a.toNat → a.toNat + bytes.length ≤ 2 ^ 32 → ∀ i x, bytes[i]? = some x →
    e.cell (a.toNat + i) = if d.hostGrants (a.toNat + i) true && d.fieldOn (targetOf (a.toNat + i)).2 then x else d.cell (a.toNat + i)
  kept : ∀ y, (∀ i, i < bytes.length → d.hostGrants (frameAddr a i) true = true → d.canon (frameAddr a i) ≠ y) → e.cell y = d.cell y
  miss : d.hostMiss a bytes.length true = true → e.host.herr = true ∧ e.flag HST_STAT HST_STAT_ERR = true
  inside : d.hostMiss a bytes.length true = false → e.regs = d.regs ∧ e.host = d.host

theorem Dev.writtenFrom_hostWritten (d : Dev) (a : Word) (bytes : List Byte) : d.WrittenFrom a bytes (d.hostWritten a bytes) := by
  have hcell : ∀ y, (d.hostWritten a bytes).cell y = (d.hostPut a 0 bytes).cell y := fun y => by unfold Dev.hostWritten; split <;> simp
  refine ⟨by unfold Dev.hostWritten; split <;> simp, fun h1 h2 i x hx => ?_, fun y hy => ?_, fun h => ?_, fun h => ?_⟩
  · simpa [hcell] using d.cell_hostPut a 0 bytes h1 (by omega) i x hx
  · rw [hcell]
    exact d.cell_hostPut_other a 0 bytes y (by simpa using hy)
  · rw [Dev.hostWritten, if_pos h]
    exact ⟨by simp, Dev.flag_hostErr _ 0⟩
  · rw [Dev.hostWritten, if_neg (by simp [h])]
    simp

/-- As a step leaves it. -/
theorem Dev.WrittenFrom.settled {d e : Dev} {a : Word} {bytes : List Byte} (h : d.WrittenFrom a bytes e) (x : Dev) :
    d.WrittenFrom a bytes (x.wakeBy e).settle :=
  ⟨h.out, fun h1 h2 i y hy => by simpa using h.written h1 h2 i y hy, fun y hy => by simpa using h.kept y hy, h.miss, h.inside⟩

theorem after_hostWrite {d : Dev} {q : List Instr} (a : Word) (bytes : List Byte) (hon : d.hostOn = true) (hrest : d.restsAt HST_STAT = false) :
    After (.hostWrite a bytes) ⟨d, q⟩ (d.inFrame.WrittenFrom a bytes) :=
  after_of_gives (gives_hostWrite a bytes hon hrest) ((d.inFrame.writtenFrom_hostWritten a bytes).settled d)

/-! ### The doorbell and the flags (R431, R432) -/

/-- Registers written, and nothing else: what a command then gives. -/
theorem onlyRegs_wakeBy {l : List Nat} (d : Dev) {x : Dev} {r : List (Nat × Word)} (h : ∀ a, a ∉ l → Dev.reg { x with regs := r } a = x.reg a) :
    OnlyRegs l x (d.wakeBy { x with regs := r }).settle := ⟨h, rfl⟩

theorem Dev.flag_put_one (d : Dev) (a : Nat) {f : Fld} (h2 : f.hi < 32) (hl : f.lo ≤ f.hi) : (d.put a f 1).flag a f = true := by
  have : (1 : Nat) % 2 ^ f.width = 1 := Nat.mod_eq_of_lt (Nat.one_lt_two_pow (by unfold Fld.width; omega))
  simp [Dev.flag, d.get_put_same a f 1 h2 hl, this]

/-- A DOORBELL that finds DBF 0 is taken. -/
theorem after_doorbell_free {d : Dev} {q : List Instr} (v : Word) (hon : d.hostOn = true) (hrest : d.restsAt HST_STAT = false)
    (hdbf : d.flag HST_STAT HST_STAT_DBF = false) :
    After (.doorbell v) ⟨d, q⟩ (fun e => e.reg HST_DB = v ∧ e.flag HST_STAT HST_STAT_DBF = true ∧ OnlyRegs [HST_DB, HST_STAT] d.inFrame e) := by
  have hgives : Gives (.doorbell v) ⟨d, q⟩ ((d.inFrame.setReg HST_DB v).put HST_STAT HST_STAT_DBF 1) :=
    gives_of_askFrame rfl rfl hon hrest (if_neg (Bool.eq_false_iff.mp hdbf))
  refine after_of_gives hgives ⟨?_, ?_, onlyRegs_wakeBy d fun y hy => ?_⟩
  · rw [Dev.reg_settle, Dev.wakeBy_reg, Dev.reg_put_other _ _ _ _ _ (by decide), Dev.reg_setReg_same]
  · exact Dev.flag_put_one (d.inFrame.setReg HST_DB v) HST_STAT (f := HST_STAT_DBF) (by decide) (by decide)
  · simp only [List.mem_cons, List.not_mem_nil, or_false, not_or] at hy
    exact (Dev.reg_put_other _ _ _ _ _ hy.2).trans (Dev.reg_setReg_other _ _ _ _ hy.1)

/-- A DOORBELL that finds DBF 1 is lost, and DBLOST counts it. -/
theorem after_doorbell_taken {d : Dev} {q : List Instr} (v : Word) (hon : d.hostOn = true) (hrest : d.restsAt HST_STAT = false)
    (hdbf : d.flag HST_STAT HST_STAT_DBF = true) :
    After (.doorbell v) ⟨d, q⟩ (fun e => e.reg HST_DB = d.reg HST_DB ∧ e.host.herr = true ∧ e.flag HST_STAT HST_STAT_ERR = true ∧
      (d.get (HST_CNT 1) HST_CNT_COUNT < 0xFFFF → e.get (HST_CNT 1) HST_CNT_COUNT = d.get (HST_CNT 1) HST_CNT_COUNT + 1)) := by
  have hgives : Gives (.doorbell v) ⟨d, q⟩ (d.inFrame.hostErr 1) := gives_of_askFrame rfl rfl hon hrest (if_pos hdbf)
  refine after_of_gives hgives ⟨?_, by simp, ?_, fun hlt => ?_⟩
  · rw [Dev.reg_settle, Dev.wakeBy_reg, Dev.reg_hostErr_other _ (by decide) (by decide)]
    rfl
  · exact d.inFrame.flag_hostErr 1
  · rw [Dev.get_settle, Dev.wakeBy_get]
    exact d.inFrame.get_hostErr_count 1 hlt

/-- A counter counts alike in a frame. -/
theorem Dev.count_inFrame (d : Dev) (a : Nat) : d.inFrame.count a = (d.count a).inFrame := by
  show (if d.get a _ = 0xFFFF then _ else _) = _
  unfold Dev.count
  split <;> rfl

/-- A command byte that Table 23.1 does not have counts in BADCMD. -/
theorem gives_hostUnknownCommand {d : Dev} {q : List Instr} {b : Byte} (hon : d.hostOn = true) (hb : b.toNat ∉ [0x0B, 0x02, 0x05, 0x31, 0x35]) :
    Gives (.hostUnknownCommand b) ⟨d, q⟩ { d.count (HST_CNT 2) with host := { d.host with csAt := some d.clk.cyc } } :=
  gives_of_frame rfl rfl hon ((if_neg (by simpa using hb)).trans ((d.count_inFrame _).trans (by simp [Dev.inFrame])))

/-- Source 1,092 carries (DBF AND IE bit 0) OR (ERR AND IE bit 1). -/
theorem Dev.srcLevel_host (d : Dev) (x : Bool) : d.srcLevel 1092 x = true ↔
    (d.flag HST_STAT HST_STAT_DBF = true ∧ (d.get HST_STAT HST_STAT_IE).testBit 0 = true) ∨
      (d.flag HST_STAT HST_STAT_ERR = true ∧ (d.get HST_STAT HST_STAT_IE).testBit 1 = true) := by
  have hie : d.get HST_STAT HST_STAT_IE < 4 := getF_lt _ _
  have hbits : ∀ (dbf err : Bool) (ie : Nat), ie < 4 → (decide (((if dbf then 2 ^ 0 else 0) + (if err then 2 ^ 1 else 0)) &&& ie ≠ 0) = true ↔
      (dbf = true ∧ ie.testBit 0 = true) ∨ (err = true ∧ ie.testBit 1 = true)) := by decide
  exact hbits _ _ _ hie

theorem Dev.plainWrite_HFLG (d : Dev) (v : Word) : d.plainWrite HST_HFLG v = d.setReg HST_HFLG (d.reg HST_HFLG ||| v) := by
  have hwrite : ∀ old, row_HST_HFLG.write old v = old ||| v := fun old => by
    apply BitVec.eq_of_getLsbD_eq
    intro j hj
    show (setF old HST_HFLG_FLAGS (getF (old ||| v) HST_HFLG_FLAGS)).getLsbD j = _
    rw [setF_getLsbD _ _ _ _ (by decide) (by decide), if_pos ⟨Nat.zero_le j, by show j ≤ 31; omega⟩, getF_testBit]
    simp [HST_HFLG_FLAGS, Fld.width, hj]
  show d.setReg HST_HFLG (row_HST_HFLG.write (d.reg HST_HFLG) v) = _
  rw [hwrite]

/-! ### A window's control register (R429) -/

/-- HST_WINC takes EN, WR and PAGES as written. -/
theorem row_HST_WINC_write (old v : Word) : row_HST_WINC.write old v =
    setF (setF (setF old HST_WINC_EN (getF v HST_WINC_EN)) HST_WINC_WR (getF v HST_WINC_WR)) HST_WINC_PAGES (getF v HST_WINC_PAGES) := rfl

theorem Dev.plainWrite_WINC (d : Dev) (w : Fin 2) (v : Word) :
    d.plainWrite (HST_WINC w) v = d.setReg (HST_WINC w) (row_HST_WINC.write (d.reg (HST_WINC w)) v) := by
  match w with
  | 0 => rfl
  | 1 => rfl

section
variable (d : Dev) (w : Fin 2) (v : Word)

theorem Dev.get_plainWrite_PAGES : (d.plainWrite (HST_WINC w) v).get (HST_WINC w) HST_WINC_PAGES = getF v HST_WINC_PAGES := by
  rw [Dev.plainWrite_WINC, Dev.get, Dev.reg_setReg_same, row_HST_WINC_write, getF_setF_same _ _ _ (by decide) (by decide)]
  exact Nat.mod_eq_of_lt (getF_lt _ _)

theorem Dev.get_plainWrite_WR : (d.plainWrite (HST_WINC w) v).get (HST_WINC w) HST_WINC_WR = getF v HST_WINC_WR := by
  rw [Dev.plainWrite_WINC, Dev.get, Dev.reg_setReg_same, row_HST_WINC_write, getF_setF_other _ _ _ _ (by decide) (by decide) (by decide),
    getF_setF_same _ _ _ (by decide) (by decide)]
  exact Nat.mod_eq_of_lt (getF_lt _ _)

theorem Dev.get_plainWrite_EN : (d.plainWrite (HST_WINC w) v).get (HST_WINC w) HST_WINC_EN = getF v HST_WINC_EN := by
  rw [Dev.plainWrite_WINC, Dev.get, Dev.reg_setReg_same, row_HST_WINC_write, getF_setF_other _ _ _ _ (by decide) (by decide) (by decide),
    getF_setF_other _ _ _ _ (by decide) (by decide) (by decide), getF_setF_same _ _ _ (by decide) (by decide)]
  exact Nat.mod_eq_of_lt (getF_lt _ _)

/-- The window that the write would leave lies in memory that it may lie in. -/
theorem Dev.hostWinOk_plainWrite : (d.plainWrite (HST_WINC w) v).hostWinOk w = true ↔
    1 ≤ getF v HST_WINC_PAGES ∧ getF v HST_WINC_PAGES ≤ 4096 ∧ d.hostMem (d.hostBase w) (4096 * getF v HST_WINC_PAGES) = true := by
  have hbase : (d.plainWrite (HST_WINC w) v).hostBase w = d.hostBase w := by
    rw [Dev.plainWrite_WINC, Dev.hostBase, Dev.get, Dev.reg_setReg_other _ _ _ _ (by unfold HST_WINB HST_WINC; omega)]
    rfl
  have hmem : ∀ b s, (d.plainWrite (HST_WINC w) v).hostMem b s = d.hostMem b s := fun b s => by rw [Dev.plainWrite_WINC]; rfl
  simp [Dev.hostWinOk, Dev.hostSize, hbase, hmem, d.get_plainWrite_PAGES w v, and_assoc]

theorem Dev.flag_iff (a : Nat) (f : Fld) : d.flag a f = true ↔ d.get a f ≠ 0 := by simp [Dev.flag]

/-- EN is kept where the window may be enabled, and stays at 0 elsewhere. -/
theorem Dev.flag_hostWinWrite_EN : (d.hostWinWrite (HST_WINC w) w v).flag (HST_WINC w) HST_WINC_EN = true ↔
    getF v HST_WINC_EN = 1 ∧ (d.plainWrite (HST_WINC w) v).hostWinOk w = true := by
  have hen : getF v HST_WINC_EN < 2 := getF_lt _ _
  unfold Dev.hostWinWrite Dev.hostJudge
  split
  · next hok => rw [Dev.flag_iff, Dev.get_plainWrite_EN]; simp only [hok, and_true]; omega
  · next hok => simp [Dev.flag_iff, Dev.get_put_same _ (HST_WINC w) HST_WINC_EN 0 (by decide) (by decide), hok]

/-- The judgement leaves the other fields. -/
theorem Dev.get_hostWinWrite {f : Fld} (hf : f.hi < 31) : (d.hostWinWrite (HST_WINC w) w v).get (HST_WINC w) f = (d.plainWrite (HST_WINC w) v).get (HST_WINC w) f := by
  unfold Dev.hostWinWrite Dev.hostJudge
  split
  · rfl
  · exact Dev.get_put_field _ _ _ _ _ (by decide) (by decide) (Or.inl hf)

theorem Dev.onlyRegs_hostWinWrite : OnlyRegs [HST_WINC w] d (d.wakeBy (d.hostWinWrite (HST_WINC w) w v)).settle := by
  unfold Dev.hostWinWrite Dev.hostJudge
  rw [Dev.plainWrite_WINC]
  split
  · exact onlyRegs_wakeBy d fun a ha => Dev.reg_setReg_other _ _ _ _ (by simpa using ha)
  · exact onlyRegs_wakeBy d fun a ha => (Dev.reg_put_other _ _ _ _ _ (by simpa using ha)).trans (Dev.reg_setReg_other _ _ _ _ (by simpa using ha))

theorem after_hostWindowWrite {q : List Instr} {c : Fin 7} (hopen : BusOpen ⟨d, q⟩ c (HST_WINC w) true) :
    After (.hostWindowWrite c w v) ⟨d, q⟩ (fun e => OnlyRegs [HST_WINC w] d e ∧ e.get (HST_WINC w) HST_WINC_PAGES = getF v HST_WINC_PAGES ∧
      e.get (HST_WINC w) HST_WINC_WR = getF v HST_WINC_WR ∧
      (e.flag (HST_WINC w) HST_WINC_EN = true ↔ getF v HST_WINC_EN = 1 ∧ 1 ≤ getF v HST_WINC_PAGES ∧ getF v HST_WINC_PAGES ≤ 4096 ∧
        d.hostMem (d.hostBase w) (4096 * getF v HST_WINC_PAGES) = true)) := by
  have hgives : Gives (.hostWindowWrite c w v) ⟨d, q⟩ (d.hostWinWrite (HST_WINC w) w v) := gives_of_askCore rfl hopen rfl rfl
  refine after_of_gives hgives ⟨d.onlyRegs_hostWinWrite w v, ?_, ?_, ?_⟩
  · rw [Dev.get_settle, Dev.wakeBy_get, d.get_hostWinWrite w v (by decide), d.get_plainWrite_PAGES]
  · rw [Dev.get_settle, Dev.wakeBy_get, d.get_hostWinWrite w v (by decide), d.get_plainWrite_WR]
  · rw [← d.hostWinOk_plainWrite w v, ← d.flag_hostWinWrite_EN w v]
    rfl

end

/-! ### A window over flash -/

/-- The device `d` with a port that serves, field 7 powered, and window 0 over the page of `x`, which holds 1. -/
def Dev.flashWindowed (d : Dev) (x : Nat) : Dev :=
  let e := ((d.put (HST_WINB 0) HST_WINB_ADDR (x / 4096)).put (HST_WINC 0) HST_WINC_PAGES 1).put (HST_WINC 0) HST_WINC_EN 1
  { e with mem := [(d.canon x, 1)], memErr := [], clk := { e.clk with stopped := false }, sow := { e.sow with force := [⟨tPADS, 0, [0, 1]⟩] },
           pwr := { e.pwr with fields := 0xFF, pins := .sown, gated := [], entry := none } }

section
variable (d : Dev) {x : Nat}

theorem Dev.flashWindowed_reg {a : Nat} (hb : a ≠ HST_WINB 0) (hc : a ≠ HST_WINC 0) : (d.flashWindowed x).reg a = d.reg a :=
  (Dev.reg_put_other _ _ _ _ _ hc).trans ((Dev.reg_put_other _ _ _ _ _ hc).trans (Dev.reg_put_other _ _ _ _ _ hb))

theorem Dev.flashWindowed_canon (y : Nat) : (d.flashWindowed x).canon y = d.canon y := by
  have hboot : ∀ f, (d.flashWindowed x).get FLC_BOOT f = d.get FLC_BOOT f := fun f => by
    rw [Dev.get, d.flashWindowed_reg (by decide) (by decide), ← Dev.get]
  simp only [Dev.canon, hboot]
  rfl

theorem Dev.flashWindowed_byte (h : flashAddr x = true) : (d.flashWindowed x).byte x = 1 := by
  have hrom : ¬ (0x10000000 ≤ x ∧ x < 0x10010000) := by
    simp only [flashAddr, Bool.or_eq_true, decide_eq_true_eq] at h; omega
  rw [Dev.byte, if_neg hrom, d.flashWindowed_canon]
  exact if_pos rfl

theorem Dev.flashWindowed_wordBad (h : flashAddr x = true) : (d.flashWindowed x).wordBad x = d.wordBad x := by
  simp only [Dev.wordBad, h, if_true, Dev.underErase, Dev.flashBeyond, d.flashWindowed_canon]
  rfl

/-- The window grants its page. -/
theorem Dev.flashWindowed_grants (hx : x < 2 ^ 32) {y : Nat} (hy : y / 4096 = x / 4096) : (d.flashWindowed x).hostGrants y false = true := by
  have hbase : (d.flashWindowed x).get (HST_WINB 0) HST_WINB_ADDR = x / 4096 := by
    show Dev.get (Dev.put (Dev.put (d.put _ _ _) _ _ _) _ _ _) _ _ = _
    rw [Dev.get_put_other _ _ _ _ _ _ (by decide), Dev.get_put_other _ _ _ _ _ _ (by decide), Dev.get_put_same _ _ _ _ (by decide) (by decide)]
    exact Nat.mod_eq_of_lt (by show _ < 2 ^ 20; omega)
  have hpages : (d.flashWindowed x).get (HST_WINC 0) HST_WINC_PAGES = 1 := by
    show Dev.get (Dev.put (Dev.put (d.put _ _ _) _ _ _) _ _ _) _ _ = _
    rw [Dev.get_put_field _ _ _ _ _ (by decide) (by decide) (by decide), Dev.get_put_same _ _ _ _ (by decide) (by decide)]
    rfl
  have hen : (d.flashWindowed x).flag (HST_WINC 0) HST_WINC_EN = true := Dev.flag_put_one _ _ (by decide) (by decide)
  refine (Dev.hostGrants_iff _ _ _).mpr ⟨0, by decide, hen, by simp, ?_, ?_⟩
  · rw [Dev.hostBase, hbase]; omega
  · rw [Dev.hostBase, hbase, Dev.hostSize, hpages]; omega

end

theorem flashAddr_field {x : Nat} (h : flashAddr x = true) : (targetOf x).2 = 7 := by
  simp only [flashAddr, Bool.or_eq_true, decide_eq_true_eq] at h
  rw [targetOf, if_pos h]

/-- With no word of RAM in error and no domain gated, the first byte of a frame changes nothing as it is fetched. -/
theorem Dev.hostFetch_first {d : Dev} (hmem : d.memErr = []) (hgated : d.pwr.gated = []) (x : Nat) : (d.hostFetch x 0).2 = d := by
  unfold Dev.hostFetch
  split
  · simp [Dev.touchDomain, hgated, Dev.eccRead, hmem, sget]
  · rfl

theorem Dev.hostFetch_bad {d : Dev} {x j : Nat} (hj : j ≠ 0) (hx : x % 4 ≠ 0) (h : d.wordBad x = true) : (d.hostFetch x j).1 = 0 := by
  unfold Dev.hostFetch
  split <;> simp [hj, hx, h]

/-- The second byte of the first group, where the first changes nothing. -/
theorem Dev.hostBytes_second {d : Dev} {a : Word} (h : (d.hostFetch (frameAddr a 0) 0).2 = d) :
    (d.hostBytes a 2).1[1]? = some (d.hostFetch (frameAddr a 1) 1).1 := by
  simp [Dev.hostBytes, Dev.hostGroup_eq, span, h]

/-- A READ of two bytes shows 0 in place of a byte of flash whose word is in error beyond its code. -/
theorem Dev.hostServed_flashWindowed {d : Dev} {x : Nat} (h : flashAddr x = true) (hx : x % 4 ≠ 0) (hbad : d.wordBad x = true) :
    frameAddr (BitVec.ofNat 32 (x - 1)) 1 = x ∧ (∀ i < 2, (d.flashWindowed x).hostGrants (frameAddr (BitVec.ofNat 32 (x - 1)) i) false = true) ∧
      ((d.flashWindowed x).inFrame.hostServed (BitVec.ofNat 32 (x - 1)) 2).host.out[1]? = some 0 := by
  have hlt : x < 2 ^ 32 := by
    simp only [flashAddr, Bool.or_eq_true, decide_eq_true_eq] at h; omega
  have haddr : ∀ i, i ≤ 1 → frameAddr (BitVec.ofNat 32 (x - 1)) i = x - 1 + i := fun i hi => by
    rw [frameAddr, BitVec.toNat_ofNat, Nat.mod_eq_of_lt (a := x - 1) (by omega), Nat.mod_eq_of_lt (by omega)]
  have h1 : frameAddr (BitVec.ofNat 32 (x - 1)) 1 = x := by rw [haddr 1 (by omega)]; omega
  have hgrants : ∀ i < 2, (d.flashWindowed x).hostGrants (frameAddr (BitVec.ofNat 32 (x - 1)) i) false = true := fun i hi => by
    rw [haddr i (by omega)]
    exact d.flashWindowed_grants hlt (by omega)
  refine ⟨h1, hgrants, ?_⟩
  have hnoted : (d.flashWindowed x).inFrame.hostNoted (BitVec.ofNat 32 (x - 1)) 2 = (d.flashWindowed x).inFrame :=
    if_neg fun hmiss => Bool.noConfusion (hmiss.symm.trans ((Dev.hostMiss_false_iff _ _ _ _).mpr hgrants))
  have hfirst := Dev.hostFetch_first (d := (d.flashWindowed x).inFrame) rfl rfl (frameAddr (BitVec.ofNat 32 (x - 1)) 0)
  show (((d.flashWindowed x).inFrame.hostNoted _ 2).hostBytes _ 2).1[1]? = some 0
  rw [hnoted, Dev.hostBytes_second hfirst, h1]
  exact congrArg some (Dev.hostFetch_bad (by decide) hx ((d.flashWindowed_wordBad h).trans hbad))

theorem Dev.flashWindowed_fieldOn (d : Dev) (x : Nat) : (d.flashWindowed x).fieldOn 7 = true := by
  simp [Dev.flashWindowed, Dev.fieldOn, Nat.testBit]

/-- The statement holds only if no word of flash ever reads as one that its code cannot correct: the byte of a window over flash would be read as 0. -/
theorem flashReadsGood_of_hostPort (h : Obligations.HostPort) : FlashReadsGood := by
  unfold Obligations.HostPort at h
  intro d x hfl hx
  refine Bool.eq_false_iff.mpr fun hbad => ?_
  obtain ⟨haddr, hgrants, hout⟩ := Dev.hostServed_flashWindowed hfl hx hbad
  have hon : (d.flashWindowed x).hostOn = true := by
    simp [Dev.hostOn, Dev.flashWindowed, Dev.fieldOn, Dev.plan8, Dev.sec, secOf, u8, Nat.testBit]
  obtain ⟨-, -, hserves, -⟩ := h (d.flashWindowed x) [] 0 0 (BitVec.ofNat 32 (x - 1)) 0 0 2 [] 0
  obtain ⟨hread, -⟩ := hserves hon rfl
  obtain ⟨t, ht, -, -, -, -, hshows, -⟩ := hread (Or.inr rfl)
  have hdev := ht.symm.trans (gives_hostRead (BitVec.ofNat 32 (x - 1)) 2 hon (Or.inr rfl))
  have hbyte := hshows 1 (by decide) (hgrants 1 (by decide)) (by rw [haddr, flashAddr_field hfl, d.flashWindowed_fieldOn]) (Nat.zero_le 1)
  rw [Host.Outcome.next.inj hdev, haddr, d.flashWindowed_byte hfl] at hbyte
  exact absurd (hout.symm.trans hbyte) (by decide)

/-! ### The statement -/

/-- Where none does, the statement holds. -/
theorem hostPort_of_flashReadsGood (hflash : FlashReadsGood) : Obligations.HostPort := by
  unfold Obligations.HostPort
  intro d q c w a v m n bytes b
  refine ⟨fun hrest => ?_, fun hoff hrest => ?_, fun hon hrest => ⟨?_, ?_, ?_, ?_, ?_, ?_, ?_⟩, d.srcLevel_host, ?_, after_hostWindowWrite d w v⟩
  · simp only [List.forall_mem_cons, List.not_mem_nil, false_implies, implies_true, and_true]
    exact ⟨gives_of_askFrame_rests rfl rfl hrest, gives_of_askFrame_rests rfl rfl hrest, gives_of_askFrame_rests rfl rfl hrest⟩
  · simp only [List.forall_mem_cons, List.not_mem_nil, false_implies, implies_true, and_true]
    exact ⟨gives_of_frame_off rfl rfl hoff, gives_of_askFrame_off rfl rfl hoff hrest, gives_of_frame_off rfl rfl hoff,
      gives_of_askFrame_off rfl rfl hoff hrest, gives_of_askFrame_off rfl rfl hoff hrest, gives_of_frame_off rfl rfl hoff⟩
  · exact (after_hostRead hflash a n hon).mono fun e h => ⟨h.length, h.cores, h.byte, fun i hi hg hf hs => h.out_granted hi hg hf hs, fun i hi hf => h.out_unpowered hi hf,
      fun i hi hg => ⟨h.out_ungranted hi hg, h.miss ((d.hostMiss_iff a n false).mpr ⟨i, hi, hg⟩)⟩, fun hall => h.inside ((d.hostMiss_false_iff a n false).mpr hall)⟩
  · exact (after_hostWrite a bytes hon hrest).mono fun e h => ⟨h.out, h.written, h.kept, h.miss, h.inside⟩
  · exact gives_of_frame rfl rfl hon rfl
  · exact after_doorbell_free v hon hrest
  · exact after_doorbell_taken v hon hrest
  · exact gives_of_askFrame rfl rfl hon hrest rfl
  · exact gives_hostUnknownCommand hon
  · exact fun hopen => gives_of_askCore rfl hopen rfl (d.plainWrite_HFLG v)

/-- O57 holds if and only if no such word of flash ever reads with an uncorrectable error: its clause on the bytes of a READ asks of the check bits of RAM
alone, and no premise of it keeps a window, or the power of field 7, away from flash. -/
theorem hostPort_iff_flashReadsGood : Obligations.HostPort ↔ FlashReadsGood := ⟨flashReadsGood_of_hostPort, hostPort_of_flashReadsGood⟩

/-- A word of flash with the bits `e` in error reads bad where its code does not miscorrect them. -/
theorem Dev.wordBad_of_bits (d : Dev) {x : Nat} {e : List Nat} (hfl : flashAddr x = true) (he : 2 < e.length) (hcode : Config.miscorrects e = false) :
    Dev.wordBad { d with flErr := [(d.canon x / 16, e)] } x = true := by
  have hbits : sget [] [(d.canon x / 16, e)] (d.canon x / 16) = e := if_pos rfl
  have hbeyond : Dev.flashBeyond { d with flErr := [(d.canon x / 16, e)] } x = true := by
    show decide (2 < (sget [] [(d.canon x / 16, e)] (d.canon x / 16)).length) = true
    simpa [hbits] using he
  have hmis : Config.miscorrects (sget [] [(d.canon x / 16, e)] (Dev.canon { d with flErr := [(d.canon x / 16, e)] } x / 16)) = false := by
    show Config.miscorrects (sget [] [(d.canon x / 16, e)] (d.canon x / 16)) = false
    rw [hbits, hcode]
  simp [Dev.wordBad, hfl, hbeyond, hmis]

/-- A bank that erases the sector of the address `a` by a command. -/
def bankErasing (a : Nat) : Bank := { Bank.init with op := 3, addr := a }

/-- A word of a sector under erase reads bad where the configuration says so. -/
theorem Dev.wordBad_of_erase (d : Dev) {x n : Nat} (hfl : flashAddr x = true) (hbad : Config.halfBad (x / 16) n = true) :
    Dev.wordBad { d with banks := [(bankOf (d.canon x), bankErasing (d.canon x))], freeCtr := n } x = true := by
  have hbank : sget Bank.init [(bankOf (d.canon x), bankErasing (d.canon x))] (bankOf (d.canon x)) = bankErasing (d.canon x) := if_pos rfl
  have herase : Dev.underErase { d with banks := [(bankOf (d.canon x), bankErasing (d.canon x))], freeCtr := n } x = true :=
    decide_eq_true ⟨congrArg Bank.op hbank, congrArg (fun b : Bank => b.addr / 4096) hbank⟩
  simp [Dev.wordBad, hfl, herase, hbad]

/-- And that is a condition on two opaque constants of the configuration alone, which the manual leaves open (R306, R317; log entry 124): the code of a flash
word takes every error of more than two bits for a correctable one, and no word under erase reads with an uncorrectable error. No proof can see their values,
so O57 is settled neither way. -/
theorem flashReadsGood_iff_config : FlashReadsGood ↔
    (∀ e : List Nat, 2 < e.length → Config.miscorrects e = true) ∧ ∀ w n, flashAddr (16 * w) = true → Config.halfBad w n = false := by
  refine ⟨fun h => ⟨fun e he => ?_, fun w n hw => ?_⟩, fun ⟨hcode, herase⟩ d x hfl _ => ?_⟩
  · refine eq_true_of_ne_false fun hcode => ?_
    have hbad := Dev.reset.wordBad_of_bits (x := 0x08000001) (by decide) he hcode
    exact Bool.noConfusion ((h _ _ (by decide) (by decide)).symm.trans hbad)
  · refine Bool.eq_false_iff.mpr fun hhalf => ?_
    have hfl : flashAddr (16 * w + 1) = true := by
      simp only [flashAddr, Bool.or_eq_true, decide_eq_true_eq] at hw ⊢; omega
    have hbad := Dev.reset.wordBad_of_erase (x := 16 * w + 1) (n := n) hfl (by rwa [show (16 * w + 1) / 16 = w by omega])
    exact Bool.noConfusion ((h _ _ hfl (by omega)).symm.trans hbad)
  · have hw : flashAddr (16 * (x / 16)) = true := by
      simp only [flashAddr, Bool.or_eq_true, decide_eq_true_eq] at hfl ⊢; omega
    cases hb : d.flashBeyond x with
    | false => simp [Dev.wordBad, hfl, hb, herase _ _ hw]
    | true => simp [Dev.wordBad, hfl, herase _ _ hw, hcode _ (of_decide_eq_true hb)]

end Sys2Proof.Machine
end

section
/-! Proofs for the error log (chapter 24, R444, R445, R447, R448): the order of the reports, what taking one makes of the log, and its reads. -/

namespace Sys2Proof.Machine

/-! ### The order of the reports (R444) -/

theorem Report.before_iff (a b : Report) : a.before b = true ↔
    a.stamp < b.stamp ∨ (a.stamp = b.stamp ∧ (a.blk < b.blk ∨ (a.blk = b.blk ∧ a.unit < b.unit))) := by
  unfold Report.before
  split
  · next hstamp => simp [hstamp]
  · next hstamp =>
    have hstamp : a.stamp = b.stamp := Decidable.not_not.mp hstamp
    split
    · next hblk => simp [hstamp, hblk]
    · next hblk =>
      have hblk : a.blk = b.blk := Decidable.not_not.mp hblk
      simp [hstamp, hblk]

@[simp] theorem Report.before_self (a : Report) : a.before a = false := by
  simp [Report.before]

theorem Report.before_asymm {a b : Report} (h : a.before b = true) : b.before a = false := by
  rw [Report.before_iff] at h
  rw [Bool.eq_false_iff, ne_eq, Report.before_iff]
  omega

/-- "Not before" is transitive: the order is total up to reports that share all three keys. -/
theorem Report.not_before_trans {a b c : Report} (hab : a.before b = false) (hbc : b.before c = false) : a.before c = false := by
  rw [Bool.eq_false_iff, ne_eq, Report.before_iff] at *
  omega

theorem nextReport_eq_none {l : List Report} (h : nextReport l = none) : l = [] := by
  cases l with
  | nil => rfl
  | cons a l =>
    unfold nextReport at h
    split at h
    · exact absurd h (by simp)
    · split at h <;> exact absurd h (by simp)

/-- The report taken is one that waits, and none that waits comes before it. -/
theorem nextReport_first {l : List Report} {r : Report} (h : nextReport l = some r) : r ∈ l ∧ ∀ x ∈ l, x.before r = false := by
  induction l generalizing r with
  | nil => exact absurd h (by simp [nextReport])
  | cons a l ih =>
    rw [nextReport] at h
    cases hm : nextReport l with
    | none =>
      obtain rfl : a = r := by simpa [hm] using h
      simp [nextReport_eq_none hm]
    | some m =>
      obtain ⟨hmem, hfirst⟩ := ih hm
      cases hma : m.before a with
      | true =>
        obtain rfl : m = r := by simpa [hm, hma] using h
        exact ⟨List.mem_cons_of_mem _ hmem, List.forall_mem_cons.mpr ⟨Report.before_asymm hma, hfirst⟩⟩
      | false =>
        obtain rfl : a = r := by simpa [hm, hma] using h
        exact ⟨List.mem_cons_self, List.forall_mem_cons.mpr ⟨a.before_self, fun x hx => Report.not_before_trans (hfirst x hx) hma⟩⟩

/-! ### What taking a report makes of the log (R445, R447) -/

section
variable (d : Dev) (blk unit code t : Nat)

@[simp] theorem Dev.lose_waiting : (d.lose blk unit code t).waiting = d.waiting := by
  unfold Dev.lose; dsimp only; split <;> simp

@[simp] theorem Dev.lose_erlFifo : (d.lose blk unit code t).erlFifo = d.erlFifo := by
  unfold Dev.lose; dsimp only; split <;> simp

/-- A loss shows in OVF, which the registers written after it leave. -/
theorem Dev.flag_lose_OVF : (d.lose blk unit code t).flag ERL_STAT ERL_STAT_OVF = true := by
  have hovf := Dev.flag_put_one { d.count ERL_LOST with erlCyc := d.clk.cyc + 1 } ERL_STAT (f := ERL_STAT_OVF) (by decide) (by decide)
  have hset : ∀ (e : Dev) a v, a ≠ ERL_STAT → (e.setReg a v).flag ERL_STAT ERL_STAT_OVF = e.flag ERL_STAT ERL_STAT_OVF := fun e a v ha => by
    rw [Dev.flag, Dev.get, Dev.reg_setReg_other _ _ _ _ ha.symm, ← Dev.get, ← Dev.flag]
  unfold Dev.lose
  dsimp only
  split
  · rw [hset _ _ _ (by decide), hset _ _ _ (by decide), hovf]
  · rw [hset _ _ _ (by decide), hset _ _ _ (by decide), hset _ _ _ (by decide), hset _ _ _ (by decide), hovf]

end

@[simp] theorem Dev.erlSync_waiting (d : Dev) : d.erlSync.waiting = d.waiting := rfl

/-- N has seven bits, and the FIFO at most 64 entries. -/
theorem Dev.get_erlSync_N {d : Dev} (h : d.erlFifo.length ≤ 64) : d.erlSync.get ERL_STAT ERL_STAT_N = d.erlFifo.length :=
  (Dev.get_put_same _ _ _ _ (by decide) (by decide)).trans (Nat.mod_eq_of_lt (Nat.lt_of_le_of_lt h (by decide)))

section
variable {d : Dev} {r : Report}

/-- A report that coalesces counts in the newest entry and stamps it. -/
theorem Dev.erlTake_of_coalesces {e : ErlEntry} {l : List ErlEntry} (hl : d.erlFifo = l ++ [e]) (hc : d.coalesces r e = true) :
    d.erlTake r = { d with erlFifo := l ++ [{ e with rep := if e.rep = 0xFFFF then 0xFFFF else e.rep + 1, last := d.meshNow % 2 ^ 32 }] } := by
  simp [Dev.erlTake, newestEntry, hl, hc]

/-- One that does not opens an entry where there is room, and is lost where there is none. -/
theorem Dev.erlTake_of_not_coalesces (h : ∀ x, d.erlFifo.getLast? = some x → d.coalesces r x = false) :
    d.erlTake r = if d.erlFifo.length < 64 then
      Dev.erlSync { d with erlFifo := d.erlFifo ++ [⟨d.erlNext, r.blk, r.unit, r.code, r.detail, d.meshNow, 0, d.meshNow % 2 ^ 32, r.extra⟩], erlNext := d.erlNext + 1 }
      else d.lose r.blk r.unit r.code d.meshNow := by
  cases hlast : d.erlFifo.getLast? with
  | none => simp [Dev.erlTake, newestEntry, hlast]
  | some e => simp [Dev.erlTake, newestEntry, hlast, h e hlast]

/-- The report taken is no longer one that waits, whatever becomes of it. -/
@[simp] theorem Dev.erlTake_waiting (d : Dev) (r : Report) : (d.erlTake r).waiting = d.waiting := by
  by_cases h : ∃ e, d.erlFifo.getLast? = some e ∧ d.coalesces r e = true
  · obtain ⟨e, he, hc⟩ := h
    obtain ⟨l, hl⟩ := List.getLast?_eq_some_iff.mp he
    rw [Dev.erlTake_of_coalesces hl hc]
  · rw [Dev.erlTake_of_not_coalesces fun x hx => Bool.eq_false_iff.mpr fun hc => h ⟨x, hx, hc⟩]
    split
    · exact Dev.erlSync_waiting _
    · exact Dev.lose_waiting _ _ _ _ _

end

theorem gives_errorLogTake {d : Dev} {q : List Instr} {r : Report} (hon : d.fieldOn 1 = true) (hr : nextReport d.waiting = some r) :
    Gives .errorLogTake ⟨d, q⟩ (Dev.erlTake { d with waiting := d.waiting.erase r } r) :=
  gives_of_run rfl rfl (by simp [hon, Dev.erlTakeNext, hr])

/-- With nothing waiting, or no power, the log takes nothing. -/
theorem gives_errorLogTake_idle {d : Dev} {q : List Instr} (h : d.waiting = [] ∨ d.fieldOn 1 = false) : Gives .errorLogTake ⟨d, q⟩ d := by
  refine gives_of_run rfl rfl ?_
  obtain hnone | hoff := h
  · simp [Dev.erlTakeNext, hnone, nextReport]
  · simp [hoff]

theorem after_errorLogTake {d : Dev} {q : List Instr} {r : Report} (e : ErlEntry) (l : List ErlEntry) (hon : d.fieldOn 1 = true)
    (hr : nextReport d.waiting = some r) : After .errorLogTake ⟨d, q⟩ (fun t => t.waiting = d.waiting.erase r ∧
      (d.erlFifo = l ++ [e] → d.coalesces r e = true →
        t.erlFifo = l ++ [{ e with rep := if e.rep = 0xFFFF then 0xFFFF else e.rep + 1, last := d.meshNow % 2 ^ 32 }] ∧ t.regs = d.regs) ∧
      (d.erlFifo.length < 64 → (∀ x, d.erlFifo.getLast? = some x → d.coalesces r x = false) →
        t.erlFifo = d.erlFifo ++ [⟨d.erlNext, r.blk, r.unit, r.code, r.detail, d.meshNow, 0, d.meshNow % 2 ^ 32, r.extra⟩] ∧
          t.get ERL_STAT ERL_STAT_N = d.erlFifo.length + 1) ∧
      (64 ≤ d.erlFifo.length → (∀ x, d.erlFifo.getLast? = some x → d.coalesces r x = false) →
        t.erlFifo = d.erlFifo ∧ t.flag ERL_STAT ERL_STAT_OVF = true)) := by
  refine after_of_gives (gives_errorLogTake hon hr) ⟨Dev.erlTake_waiting _ r, fun hl hc => ?_, fun hroom hno => ?_, fun hfull hno => ?_⟩
  · rw [Dev.erlTake_of_coalesces (d := { d with waiting := d.waiting.erase r }) hl hc]
    exact ⟨rfl, rfl⟩
  · rw [Dev.erlTake_of_not_coalesces (d := { d with waiting := d.waiting.erase r }) hno, if_pos hroom]
    refine ⟨rfl, (Dev.get_erlSync_N ?_).trans ?_⟩ <;> simp only [List.length_append, List.length_singleton]
    exact hroom
  · rw [Dev.erlTake_of_not_coalesces (d := { d with waiting := d.waiting.erase r }) hno, if_neg (Nat.not_lt.mpr hfull)]
    exact ⟨Dev.lose_erlFifo _ _ _ _ _, Dev.flag_lose_OVF _ _ _ _ _⟩

/-! ### The reads of an entry (R448) -/

@[simp] theorem Dev.core_rdata (d : Dev) (v : Word) (c : Fin 7) : Dev.core { d with rdata := v } c = d.core c := rfl

theorem Dev.erlWord_of_latched {d : Dev} {c : Fin 7} {i : Nat} {w : List Word} (h : (d.core c).erl = some (i, w)) (n : Nat) : d.erlWord c n = w.getD n 0 := by
  simp [Dev.erlWord, h]

theorem after_errorLogLatch_empty {d : Dev} {q : List Instr} {c : Fin 7} (hopen : BusOpen ⟨d, q⟩ c (ERL_ENT 0) false) (hempty : d.erlFifo = []) :
    After (.errorLogLatch c) ⟨d, q⟩ (fun t => t.rdata = 0xFC000000 ∧ (t.core c).erl = none) := by
  have hlatch : d.erlLatch c = { d.setCore c { d.core c with erl := none } with rdata := erlEmpty } := by simp [Dev.erlLatch, hempty]
  refine after_of_gives (gives_of_runCore rfl hopen rfl hlatch) ⟨rfl, ?_⟩
  exact congrArg CoreSt.erl (d.core_setCore_same c _)

theorem after_errorLogLatch_oldest {d : Dev} {q : List Instr} {c : Fin 7} {e : ErlEntry} {l : List ErlEntry} (hopen : BusOpen ⟨d, q⟩ c (ERL_ENT 0) false)
    (hl : d.erlFifo = e :: l) : After (.errorLogLatch c) ⟨d, q⟩ (fun t =>
      t.rdata = mkWord [(⟨31, 26⟩, e.blk), (⟨25, 12⟩, e.unit), (⟨7, 0⟩, e.code)] ∧ (t.core c).erl = some (e.id, e.words) ∧ t.erlFifo = d.erlFifo ∧
      ∀ k, k ≠ c → t.core k = d.core k) := by
  have hlatch : d.erlLatch c = { d.setCore c { d.core c with erl := some (e.id, e.words) } with rdata := e.words.getD 0 0 } := by simp [Dev.erlLatch, hl]
  refine after_of_gives (gives_of_runCore rfl hopen rfl hlatch) ⟨rfl, ?_, rfl, fun k hk => ?_⟩
  · exact congrArg CoreSt.erl (d.core_setCore_same c _)
  · exact d.core_setCore_other c k _ hk

/-- The words of an entry between the one that latches and the one that pops read the latch. -/
theorem Dev.wordRead_ERL_ENT (d : Dev) (c : Fin 7) (n : Fin 10) (h1 : 1 ≤ n.val) (h8 : n.val ≤ 8) :
    d.wordRead c (ERL_ENT n) = { d with rdata := d.erlWord c n } := by
  have hreg : regAt (ERL_ENT n) = some (row_ERL_ENT, n.val) := by revert n; decide
  have hblock : (blockAt (ERL_ENT n)).map Block.name = some "ERL" := by revert n; decide
  obtain ⟨b, hb, hname⟩ := Option.map_eq_some_iff.mp hblock
  have h0 : n.val ≠ 0 := by omega
  have h9 : n.val ≠ 9 := by omega
  simp [Dev.wordRead, hb, hname, hreg, row_ERL_ENT, Dev.keepRead, h0, h9, Dev.gives]

theorem wordAt_ERL_ENT (n : Fin 10) : wordAt (BitVec.ofNat 32 (ERL_ENT n)) = ERL_ENT n := by
  revert n; decide

theorem gives_counterRead_ERL_ENT {d : Dev} {q : List Instr} {c : Fin 7} {i : Nat} {w : List Word} (n : Fin 10) (h1 : 1 ≤ n.val) (h8 : n.val ≤ 8)
    (hopen : BusOpen ⟨d, q⟩ c (ERL_ENT n) false) (hlatched : (d.core c).erl = some (i, w)) :
    Gives (.counterRead c (BitVec.ofNat 32 (ERL_ENT n))) ⟨d, q⟩ { d with rdata := w.getD n 0 } := by
  rw [← wordAt_ERL_ENT n] at hopen
  refine gives_of_runCore rfl hopen rfl ?_
  rw [wordAt_ERL_ENT, d.wordRead_ERL_ENT c n h1 h8, Dev.erlWord_of_latched hlatched]

/-- A core that has latched nothing pops nothing and reads 0. -/
theorem gives_errorLogPop_unlatched {d : Dev} {q : List Instr} {c : Fin 7} (hopen : BusOpen ⟨d, q⟩ c (ERL_ENT 9) false) (hnone : (d.core c).erl = none) :
    Gives (.errorLogPop c) ⟨d, q⟩ { d with rdata := 0 } := by
  have hword : d.erlWord c 9 = 0 := by simp [Dev.erlWord, hnone]
  refine gives_of_runCore rfl hopen rfl ?_
  simp [Dev.erlPop, hword, hnone]

/-- With an entry latched, a pop drops the oldest entry if it is that one. -/
theorem Dev.erlPop_of_latched {d : Dev} {c : Fin 7} {i : Nat} {w : List Word} {e : ErlEntry} {l : List ErlEntry} (h : (d.core c).erl = some (i, w))
    (hl : d.erlFifo = e :: l) : d.erlPop c = if e.id = i then Dev.erlSync { d with rdata := w.getD 9 0, erlFifo := l } else { d with rdata := w.getD 9 0 } := by
  simp only [Dev.erlPop, Dev.erlWord_of_latched h, Dev.core_rdata, h]
  simp only [hl]

/-- The word read is the latch's, whatever is popped. -/
theorem Dev.erlPop_rdata (d : Dev) (c : Fin 7) : (d.erlPop c).rdata = d.erlWord c 9 := by
  unfold Dev.erlPop
  dsimp only
  split
  · split <;> rfl
  · rfl

theorem after_errorLogPop_latched {d : Dev} {q : List Instr} {c : Fin 7} {i : Nat} {w : List Word} (e : ErlEntry) (l : List ErlEntry)
    (hopen : BusOpen ⟨d, q⟩ c (ERL_ENT 9) false) (hlatched : (d.core c).erl = some (i, w)) : After (.errorLogPop c) ⟨d, q⟩ (fun t => t.rdata = w.getD 9 0 ∧
      (d.erlFifo = e :: l → e.id = i → t.erlFifo = l) ∧ (d.erlFifo = e :: l → e.id ≠ i → t.erlFifo = d.erlFifo ∧ t.regs = d.regs)) := by
  refine after_of_gives (gives_of_runCore rfl hopen rfl rfl) ⟨?_, fun hl hid => ?_, fun hl hid => ?_⟩
  · exact (d.erlPop_rdata c).trans (Dev.erlWord_of_latched hlatched 9)
  · rw [Dev.erlPop_of_latched hlatched hl, if_pos hid]
    rfl
  · rw [Dev.erlPop_of_latched hlatched hl, if_neg hid]
    exact ⟨rfl, rfl⟩

/-! ### Clearing OVF (R447) -/

theorem Dev.flag_put_zero (d : Dev) (a : Nat) {f : Fld} (h2 : f.hi < 32) (hl : f.lo ≤ f.hi) : (d.put a f 0).flag a f = false := by
  simp [Dev.flag, d.get_put_same a f 0 h2 hl]

theorem Dev.flag_put_other (d : Dev) (a b : Nat) (f g : Fld) (v : Nat) (h : b ≠ a) : (d.put a f v).flag b g = d.flag b g := by
  rw [Dev.flag, Dev.get_put_other _ _ _ _ _ _ h, ← Dev.flag]

theorem after_ovfClear {d : Dev} {q : List Instr} {c : Fin 7} (hopen : BusOpen ⟨d, q⟩ c ERL_STAT true) (hcyc : d.erlCyc ≠ d.clk.cyc + 1) :
    After (.ovfClear c) ⟨d, q⟩ (fun t => t.flag ERL_STAT ERL_STAT_OVF = false ∧ t.flag ERL_FIRSTLOST ERL_FIRSTLOST_VALID = false ∧
      t.flag ERL_LASTLOST ERL_LASTLOST_VALID = false ∧ OnlyRegs [ERL_STAT, ERL_FIRSTLOST, ERL_LASTLOST] d t) := by
  refine after_of_gives (gives_of_runCore rfl hopen rfl (if_neg hcyc)) ⟨?_, ?_, ?_, onlyRegs_wakeBy d fun a ha => ?_⟩
  · exact (Dev.flag_put_other _ _ _ _ _ _ (by decide)).trans ((Dev.flag_put_other _ _ _ _ _ _ (by decide)).trans (Dev.flag_put_zero _ _ (by decide) (by decide)))
  · exact (Dev.flag_put_other _ _ _ _ _ _ (by decide)).trans (Dev.flag_put_zero _ _ (by decide) (by decide))
  · exact Dev.flag_put_zero _ _ (by decide) (by decide)
  · simp only [List.mem_cons, List.not_mem_nil, or_false, not_or] at ha
    obtain ⟨hstat, hfirst, hlast⟩ := ha
    exact (Dev.reg_put_other _ _ _ _ _ hlast).trans ((Dev.reg_put_other _ _ _ _ _ hfirst).trans (Dev.reg_put_other _ _ _ _ _ hstat))

/-! ### The statement -/

/-- Settles O59, command by command: of the reports that wait the first in order is taken, and its fate turns on whether it coalesces and on the room left; a read
shows the core's latch, and a pop turns on whether the oldest entry is the one latched. -/
theorem errorLog : Obligations.ErrorLog := by
  unfold Obligations.ErrorLog
  intro d q c r e l i w
  refine ⟨gives_errorLogTake_idle, fun hr => ?_, fun hopen => ?_, fun n h1 h8 => gives_counterRead_ERL_ENT n h1 h8, fun hopen => ?_, after_ovfClear⟩
  · obtain ⟨hmem, hfirst⟩ := nextReport_first hr
    exact ⟨hmem, hfirst, fun hon => after_errorLogTake e l hon hr⟩
  · exact ⟨after_errorLogLatch_empty hopen, after_errorLogLatch_oldest hopen⟩
  · exact ⟨gives_errorLogPop_unlatched hopen, after_errorLogPop_latched e l hopen⟩

end Sys2Proof.Machine
end

section
/-! Proofs for the steps of the whole machine (chapter 0): every command completes, and every step keeps memory in its canonical form. -/

namespace Sys2Proof.Machine

/-- Every command answers a next state with the queue as it stands; while the root clock is stopped, the device is left by all but the commands that need no
root clock and a core's instructions. -/
theorem exec_completes (i : Instr) (s : State) : ∃ e, exec i s = .next { s with dev :=
    (s.dev.wakeBy (bif rootFree i || (vorokRow i).isSome then e else if s.dev.clk.stopped then s.dev else e)).settle } := by
  cases i <;> exact ⟨_, rfl⟩

/-- A row of the instruction set runs the instruction of its core. -/
theorem exec_vorok {i : Instr} {c : Fin 7} {mn : Mn} (h : vorokRow i = some (c, mn)) (s : State) :
    ∃ f, exec i s = s.on (fun d => d.vorok c mn f) := by
  cases i <;> cases h <;> exact ⟨_, rfl⟩

/-- No core runs an instruction while the root clock is stopped. -/
theorem Dev.vorok_of_stopped {d : Dev} (h : d.clk.stopped = true) (c : Fin 7) (mn : Mn) (f : Ctx → Dev → Dev) : d.vorok c mn f = d := by
  simp [Dev.vorok, Dev.coreRuns, h]

/-- Every command leaves memory in its canonical form. -/
theorem exec_inv {i : Instr} {s t : State} (h : exec i s = .next t) : t.Inv := by
  obtain ⟨e, he⟩ := exec_completes i s
  cases he.symm.trans h
  exact memCanon_wf _

/-- Settles O2, command by command: each answers with the device that its meaning makes, and only a command of `rootFree` makes another device while the root
clock is stopped. -/
theorem everyCommandCompletes : Obligations.EveryCommandCompletes := by
  unfold Obligations.EveryCommandCompletes
  intro i s
  obtain ⟨e, he⟩ := exec_completes i s
  refine ⟨⟨_, he, rfl⟩, fun hroot hstopped => ?_⟩
  cases hrow : vorokRow i with
  | some p =>
    obtain ⟨f, hf⟩ := exec_vorok (c := p.1) (mn := p.2) hrow s
    rw [hf, State.on, Dev.vorok_of_stopped hstopped]
    rfl
  | none => simpa [hroot, hrow, hstopped, State.on] using he

/-- Settles O4: a step is a command or a cycle of the clock, and either leaves memory as `memCanon` makes it. -/
theorem stepKeepsInv : Obligations.StepKeepsInv := by
  unfold Obligations.StepKeepsInv
  intro s t _ hstep
  unfold step at hstep
  split at hstep
  · split at hstep
    · exact exec_inv hstep
    · cases hstep
      exact memCanon_wf _
  · exact exec_inv hstep

end Sys2Proof.Machine
end

section
/-! Proofs for the custody ledger (chapter 12): what sealing writes into a record, and why a run of sealed records is one chain. -/

namespace Sys2Proof.Machine

theorem length_leBytes (n v : Nat) : (leBytes n v).length = n := by
  induction n generalizing v with
  | zero => rfl
  | succ n ih => simp [leBytes, ih]

theorem length_beBytes (n v : Nat) : (beBytes n v).length = n := by simp [beBytes, length_leBytes]

/-! ### The digest and the chain value -/

theorem length_foldl_shaRound (l : List (Word × Word)) (h : List Word) (hh : h.length = 8) : (l.foldl shaRound h).length = 8 := by
  induction l generalizing h with
  | nil => exact hh
  | cons x l ih => exact ih _ rfl

theorem length_shaBlock (h : List Word) (b : List Byte) (hh : h.length = 8) : (shaBlock h b).length = 8 := by
  simp [shaBlock, length_foldl_shaRound _ h hh, hh]

theorem length_foldl_shaBlock (l : List (List Byte)) (h : List Word) (hh : h.length = 8) : (l.foldl shaBlock h).length = 8 := by
  induction l generalizing h with
  | nil => exact hh
  | cons x l ih => exact ih _ (length_shaBlock h x hh)

/-- A list in which each entry becomes `n` others. -/
theorem length_flatMap_const {α β : Type} {f : α → List β} {n : Nat} (h : ∀ x, (f x).length = n) (l : List α) : (l.flatMap f).length = n * l.length := by
  induction l with
  | nil => rfl
  | cons x l ih => rw [List.flatMap_cons, List.length_append, h, ih, List.length_cons, Nat.mul_succ, Nat.add_comm]

theorem length_sha256 (l : List Byte) : (sha256 l).length = 32 := by
  have h : (shaBlocks shaInit (l ++ shaPad l.length)).length = 8 := length_foldl_shaBlock _ _ rfl
  rw [sha256, shaBytes, length_flatMap_const fun (w : Word) => length_beBytes 4 w.toNat, h]

theorem length_chainOf (b : List Byte) : (chainOf b).length = 16 := by simp [chainOf, length_sha256]

/-! ### The bytes of a sealed record -/

theorem u8_lt (b : List Byte) (o : Nat) : u8 b o < 256 := (b.getD o 0).isLt

theorem recTime_lt (b : List Byte) : recTime b < 2 ^ 64 := by
  simp only [recTime, u32, u16, Nat.reduceAdd]
  have h := u8_lt b
  have := h 12; have := h 13; have := h 14; have := h 15
  have := h 16; have := h 17; have := h 18; have := h 19
  omega

/-- OTIME of a record sealed after `prev`. -/
def Dev.sealTime (d : Dev) (prev : Option (List Byte)) : Nat := prev.elim d.meshNow fun p => max d.meshNow (Machine.recTime p)

/-- The chain value of a record sealed after `prev`. -/
def sealChain (prev : Option (List Byte)) : List Byte := prev.elim (List.replicate 16 0) chainOf

/-- The twenty bytes before the chain value of a sealed record (R245). -/
def Dev.sealHead (d : Dev) (prev : Option (List Byte)) (fmt typ seq len : Nat) : List Byte :=
  leBytes 1 fmt ++ leBytes 1 typ ++ leBytes 1 len ++ leBytes 1 (if d.synced then 0 else 1) ++ leBytes 3 (d.get LGR_ORIGIN LGR_ORIGIN_ORIGIN) ++
    leBytes 1 (d.kslot (d.get LGR_KEYS LGR_KEYS_SEAL)).keyid ++ leBytes 4 seq ++ leBytes 8 (d.sealTime prev)

/-- A sealed record before its tag. -/
def Dev.sealBody (d : Dev) (prev : Option (List Byte)) (fmt typ seq : Nat) (payload : List Byte) : List Byte :=
  d.sealHead prev fmt typ seq payload.length ++ (sealChain prev ++ (payload ++ List.replicate (recSize fmt - 48 - payload.length) 0))

section
variable (d : Dev) (prev : Option (List Byte)) (fmt typ seq : Nat) (payload : List Byte)

theorem Dev.seal_eq_body : d.seal prev fmt typ seq payload =
    d.sealBody prev fmt typ seq payload ++ (cmac (d.kslot (d.get LGR_KEYS LGR_KEYS_SEAL)).key (d.sealBody prev fmt typ seq payload)).take 12 := by
  cases prev <;> simp [Dev.seal, Dev.sealBody, Dev.sealHead, Dev.sealTime, sealChain]

theorem length_sealChain : (sealChain prev).length = 16 := by
  cases prev
  · rfl
  · exact length_chainOf _

/-- A sealed record is its head, its chain value and the rest. -/
theorem Dev.seal_eq_head : ∃ rest, d.seal prev fmt typ seq payload = d.sealHead prev fmt typ seq payload.length ++ (sealChain prev ++ rest) := by
  rw [Dev.seal_eq_body, Dev.sealBody]
  simp only [List.append_assoc]
  exact ⟨_, rfl⟩

theorem Dev.length_sealBody (h : payload.length + 48 ≤ recSize fmt) : (d.sealBody prev fmt typ seq payload).length + 12 = recSize fmt := by
  simp only [Dev.sealBody, Dev.sealHead, List.length_append, length_leBytes, length_sealChain, List.length_replicate]
  omega

theorem Dev.u8_sealBody (h : fmt < 256) : u8 (d.sealBody prev fmt typ seq payload) 0 = fmt := by
  simp [Dev.sealBody, Dev.sealHead, leBytes, u8, Nat.mod_eq_of_lt h]

theorem Dev.sealTime_lt : d.sealTime prev < 2 ^ 64 := by
  cases prev with
  | none => exact d.clk.mesh.isLt
  | some p => exact Nat.max_lt.mpr ⟨d.clk.mesh.isLt, recTime_lt p⟩

theorem Dev.recOrigin_seal (h : d.get LGR_ORIGIN LGR_ORIGIN_ORIGIN < 2 ^ 20) :
    recOrigin (d.seal prev fmt typ seq payload) = d.get LGR_ORIGIN LGR_ORIGIN_ORIGIN := by
  obtain ⟨rest, hrest⟩ := d.seal_eq_head prev fmt typ seq payload
  simp only [hrest, Dev.sealHead, leBytes, recOrigin, u8, List.cons_append, List.nil_append, List.getD_cons_succ, List.getD_cons_zero, BitVec.toNat_ofNat]
  omega

theorem Dev.recSeq_seal (h : seq < 2 ^ 32) : recSeq (d.seal prev fmt typ seq payload) = seq := by
  obtain ⟨rest, hrest⟩ := d.seal_eq_head prev fmt typ seq payload
  simp only [hrest, Dev.sealHead, leBytes, recSeq, u32, u16, u8, List.cons_append, List.nil_append, List.getD_cons_succ, List.getD_cons_zero, BitVec.toNat_ofNat]
  omega

theorem Dev.recTime_seal : Machine.recTime (d.seal prev fmt typ seq payload) = d.sealTime prev := by
  obtain ⟨rest, hrest⟩ := d.seal_eq_head prev fmt typ seq payload
  have h := d.sealTime_lt prev
  simp only [hrest, Dev.sealHead, leBytes, Machine.recTime, u32, u16, u8, List.cons_append, List.nil_append, List.getD_cons_succ, List.getD_cons_zero, BitVec.toNat_ofNat]
  omega

theorem Dev.chain_seal : ((d.seal prev fmt typ seq payload).drop 0x14).take 16 = sealChain prev := by
  obtain ⟨rest, hrest⟩ := d.seal_eq_head prev fmt typ seq payload
  have hhead : (d.sealHead prev fmt typ seq payload.length).length = 0x14 := rfl
  rw [hrest, List.drop_left' hhead, List.take_left' (length_sealChain prev)]

end

/-- A sealed record follows the one it was sealed after (R247). -/
theorem Dev.follows_seal (d : Dev) (p : List Byte) (fmt typ seq : Nat) (payload : List Byte) (horigin : d.get LGR_ORIGIN LGR_ORIGIN_ORIGIN < 2 ^ 20)
    (hseq : seq < 2 ^ 32) (hp : recOrigin p = d.get LGR_ORIGIN LGR_ORIGIN_ORIGIN) (hnext : recSeq p + 1 = seq) :
    follows p (d.seal (some p) fmt typ seq payload) = true := by
  simp [follows, d.recOrigin_seal (some p) fmt typ seq payload horigin, d.recSeq_seal (some p) fmt typ seq payload hseq, d.recTime_seal, d.chain_seal,
    hp, hnext, Dev.sealTime, sealChain, Nat.le_max_right]

/-- What is said of one record `x` of a run: its offset, OSEQ and ORIGIN, and the tag at its end (R245, R248). -/
structure Dev.SealedAs (d : Dev) (o seq : Nat) (x : Nat × List Byte) : Prop where
  offset : x.1 = o
  seq : recSeq x.2 = seq
  origin : recOrigin x.2 = d.get LGR_ORIGIN LGR_ORIGIN_ORIGIN
  tagged : ∃ body, x.2 = body ++ (cmac (d.kslot (d.get LGR_KEYS LGR_KEYS_SEAL)).key body).take 12 ∧ body.length + 12 = recSize (u8 body 0)

theorem Dev.sealedAs_seal (d : Dev) (prev : Option (List Byte)) (fmt typ o seq : Nat) (payload : List Byte) (hfmt : fmt < 256)
    (hlen : payload.length + 48 ≤ recSize fmt) (hseq : seq < 2 ^ 32) (horigin : d.get LGR_ORIGIN LGR_ORIGIN_ORIGIN < 2 ^ 20) :
    d.SealedAs o seq (o, d.seal prev fmt typ seq payload) where
  offset := rfl
  seq := d.recSeq_seal prev fmt typ seq payload hseq
  origin := d.recOrigin_seal prev fmt typ seq payload horigin
  tagged := ⟨_, d.seal_eq_body prev fmt typ seq payload,
    (d.length_sealBody prev fmt typ seq payload hlen).trans (congrArg recSize (d.u8_sealBody prev fmt typ seq payload hfmt).symm)⟩

section
variable (d : Dev) {fmt typ : Nat} {payload : List Byte} (hfmt : fmt < 256) (hlen : payload.length + 48 ≤ recSize fmt)
  (horigin : d.get LGR_ORIGIN LGR_ORIGIN_ORIGIN < 2 ^ 20)

theorem Dev.length_sealRun (prev : Option (List Byte)) (o seq f : Nat) : (d.sealRun fmt typ payload prev o seq f).length = f + 1 := by
  induction f generalizing prev o seq with
  | zero => rfl
  | succ f ih => simp [Dev.sealRun, ih]

include hfmt hlen horigin

theorem Dev.sealedAs_sealRun (prev : Option (List Byte)) (o seq f : Nat) (hseq : seq + f < 2 ^ 32) (i : Nat) (x : Nat × List Byte)
    (hx : (d.sealRun fmt typ payload prev o seq f)[i]? = some x) : d.SealedAs (o + 64 * i) (seq + i) x := by
  induction f generalizing prev o seq i with
  | zero =>
    cases i with
    | zero => cases hx; exact d.sealedAs_seal prev fmt typ o seq payload hfmt hlen (by omega) horigin
    | succ i => simp [Dev.sealRun] at hx
  | succ f ih =>
    cases i with
    | zero => cases hx; exact d.sealedAs_seal prev 1 0 o seq [] (by decide) (by decide) (by omega) horigin
    | succ i =>
      have h := ih _ (o + 64) (seq + 1) (by omega) i hx
      rwa [show o + 64 + 64 * i = o + 64 * (i + 1) by omega, show seq + 1 + i = seq + (i + 1) by omega] at h

omit hfmt hlen in
theorem Dev.follows_sealRun_first {p : List Byte} {o seq f : Nat} (hseq : seq + f < 2 ^ 32) {x : Nat × List Byte}
    (hx : (d.sealRun fmt typ payload (some p) o seq f)[0]? = some x) (hp : recOrigin p = d.get LGR_ORIGIN LGR_ORIGIN_ORIGIN) (hnext : recSeq p + 1 = seq) :
    follows p x.2 = true := by
  cases f <;> cases hx <;> exact d.follows_seal p _ _ seq _ horigin (by omega) hp hnext

omit hfmt hlen in
theorem Dev.follows_sealRun (prev : Option (List Byte)) (o seq f : Nat) (hseq : seq + f < 2 ^ 32) (i : Nat) (x y : Nat × List Byte)
    (hx : (d.sealRun fmt typ payload prev o seq f)[i]? = some x) (hy : (d.sealRun fmt typ payload prev o seq f)[i + 1]? = some y) :
    follows x.2 y.2 = true := by
  induction f generalizing prev o seq i with
  | zero => simp [Dev.sealRun] at hy
  | succ f ih =>
    cases i with
    | zero =>
      cases hx
      exact d.follows_sealRun_first horigin (by omega) hy (d.recOrigin_seal prev 1 0 seq [] horigin)
        (congrArg (· + 1) (d.recSeq_seal prev 1 0 seq [] (by omega)))
    | succ i => exact ih _ _ _ (by omega) i hx hy

end

/-- Settles O29, by induction on the FILL records of the run: each record is sealed after the one before it. -/
theorem sealedRunsChain : Obligations.SealedRunsChain := by
  unfold Obligations.SealedRunsChain
  intro d fmt typ payload prev o seq f _ hfmt hlen hseq horigin l
  refine ⟨d.length_sealRun prev o seq f, fun i x hx => ?_, d.follows_sealRun horigin prev o seq f hseq, fun p x hprev hx => ?_⟩
  · obtain ⟨hoffset, hs, ho, htag⟩ := d.sealedAs_sealRun hfmt hlen horigin prev o seq f hseq i x hx
    exact ⟨hoffset, hs, ho, htag⟩
  · subst hprev
    exact d.follows_sealRun_first horigin hseq hx

end Sys2Proof.Machine
end

section
/-! Proofs for the Vorok instruction set (chapter 13): statements that a wait of K0 for a flash that is starting up (R313) refutes. -/

namespace Sys2Proof.Machine

theorem Dev.k0Wait_cleared (d e : Dev) : (if e.k0Wait then { d with k0Wait := false } else e).k0Wait = false := by
  split
  · rfl
  · next hwait => exact Bool.eq_false_iff.mpr hwait

/-! ### A wait of K0 -/

/-- A core's instruction leaves no wait of K0 behind: where K0 met a flash that is starting up, the command has left everything as it was (R313, log entry 44). -/
theorem Dev.k0Wait_vorok {d : Dev} {c : Fin 7} (h : d.coreRuns c = true) (mn : Mn) (f : Ctx → Dev → Dev) : (d.vorok c mn f).k0Wait = false := by
  unfold Dev.vorok
  rw [h, Bool.not_true, if_neg Bool.false_ne_true]
  exact Dev.k0Wait_cleared d _

/-- So no row of the instruction set gives a device in which K0 waits. -/
theorem not_gives_of_k0Wait {i : Instr} {c : Fin 7} {mn : Mn} (hrow : vorokRow i = some (c, mn)) {d e : Dev} {q : List Instr} (hrun : d.coreRuns c = true)
    (hwait : e.k0Wait = true) : ¬ Gives i ⟨d, q⟩ e := by
  intro hgives
  obtain ⟨f, hf⟩ := exec_vorok hrow ⟨d, q⟩
  have hend := hf.symm.trans (hgives (.inr (Dev.clk_stopped_of_coreRuns hrun)))
  have hflag : (d.vorok c mn f).k0Wait = e.k0Wait := congrArg (fun s : State => s.dev.k0Wait) (Host.Outcome.next.inj hend)
  rw [Dev.k0Wait_vorok hrun, hwait] at hflag
  exact Bool.noConfusion hflag

theorem not_coreGives_of_runs {i : Instr} {d : Dev} {q : List Instr} {c : Fin 7} {mn : Mn} {k : Ctx} {e : Dev} {P : CoreSt → Prop}
    (hrow : vorokRow i = some (c, mn)) (h : Runs d c mn k e) (hwait : e.k0Wait = true) : ¬ CoreGives i ⟨d, q⟩ e c P :=
  fun ⟨y, hgives, _⟩ => not_gives_of_k0Wait (e := e.setCore c y) hrow h.1 hwait hgives

theorem not_takes_of_runs {i : Instr} {d : Dev} {q : List Instr} {c : Fin 7} {mn : Mn} {k : Ctx} {e : Dev} {z : Exc} (hrow : vorokRow i = some (c, mn))
    (h : Runs d c mn k e) (hwait : e.k0Wait = true) (hexl : getF (e.core c).fl flEXL = 0) : ¬ Takes i ⟨d, q⟩ e c z :=
  fun htakes => not_gives_of_k0Wait (e := e.setCore c ((e.core c).enter z)) hrow h.1 hwait (htakes hexl)

/-- ADD of G2 to G1, MOV of G2 to G1, JMP to the next instruction, UD, and STX of G1 at the address G2 + 1. -/
def addBytes : List Byte := [0x10, 0x12]
def movBytes : List Byte := [0x28, 0x12]
def jmpBytes : List Byte := [0x68, 0x00]
def udBytes : List Byte := [0x07]
def stxBytes : List Byte := [0x6C, 0x12, 0x4F, 0x01]

/-- K0 fetches each of them from a flash that is starting up, and waits for it. -/
theorem k0BeforeReady_waitsFor : ∀ b ∈ [addBytes, movBytes, jmpBytes, udBytes, stxBytes],
    let d := k0BeforeReady b
    let e := (d.fetch 6).2
    d.coreRuns 6 = true ∧ (d.fetch 6).1 = .whole b ∧ (parse b).bad = false ∧ (e.k0Wait = true ∧ getF (e.core 6).fl flEXL = 0) ∧
      e.svc.fall = false ∧ e.confOver = false ∧ e.svc.bad = none := by
  decide +kernel

theorem k0BeforeReady_runs {b : List Byte} (hb : b ∈ [addBytes, movBytes, jmpBytes, udBytes, stxBytes]) :
    Runs (k0BeforeReady b) 6 (parse b).mn ((k0BeforeReady b).ctxAt 6 b) ((k0BeforeReady b).fetch 6).2 ∧ ((k0BeforeReady b).fetch 6).2.k0Wait = true ∧
      getF (((k0BeforeReady b).fetch 6).2.core 6).fl flEXL = 0 := by
  obtain ⟨hrun, hfetch, hbad, hwait, hidle⟩ := k0BeforeReady_waitsFor b hb
  exact ⟨runs_of_fetch hrun hfetch hbad hidle, hwait⟩

/-- Refutes O40: K0 fetches an ADD from a flash that is starting up (READY 0). The premises of its clause hold, but K0 waits for the flash (R313, log entry 44) and
is left where it stands. -/
theorem not_binaryArithmetic : ¬ Obligations.BinaryArithmetic := by
  unfold Obligations.BinaryArithmetic
  intro h
  obtain ⟨hruns, hwait, -⟩ := k0BeforeReady_runs (b := addBytes) (by simp)
  exact not_coreGives_of_runs rfl hruns hwait (h (k0BeforeReady addBytes) [] 6 _ _ (.add 6, .add, false, false, true, false) (.head _) hruns rfl rfl)

/-- Refutes O43: K0 fetches a MOV from a flash that is starting up (READY 0). The premises of its clause hold, but K0 waits for the flash (R313, log entry 44) and is
left where it stands. -/
theorem not_logicShiftsAndProducts : ¬ Obligations.LogicShiftsAndProducts := by
  unfold Obligations.LogicShiftsAndProducts
  intro h
  obtain ⟨hruns, hwait, -⟩ := k0BeforeReady_runs (b := movBytes) (by simp)
  obtain ⟨-, -, hmov, -⟩ := h.1 (k0BeforeReady movBytes) [] 6 ((k0BeforeReady movBytes).ctxAt 6 movBytes) ((k0BeforeReady movBytes).fetch 6).2
  exact not_coreGives_of_runs rfl hruns hwait (hmov hruns)

/-- Refutes O45: K0 fetches a JMP from a flash that is starting up (READY 0). The premises of its clause hold, but K0 waits for the flash (R313, log entry 44) and is
left where it stands. -/
theorem not_jumpsAndStack : ¬ Obligations.JumpsAndStack := by
  unfold Obligations.JumpsAndStack
  intro h
  obtain ⟨hruns, hwait, -⟩ := k0BeforeReady_runs (b := jmpBytes) (by simp)
  obtain ⟨-, hjmp, -⟩ := h (k0BeforeReady jmpBytes) [] 6 ((k0BeforeReady jmpBytes).ctxAt 6 jmpBytes) ((k0BeforeReady jmpBytes).fetch 6).2
  exact not_coreGives_of_runs rfl hruns hwait (hjmp hruns)

/-- The address of the STX is odd. -/
theorem stx_misaligned : (((k0BeforeReady stxBytes).ctxAt 6 stxBytes).i.addr (((k0BeforeReady stxBytes).fetch 6).2.core 6)
    ((k0BeforeReady stxBytes).ctxAt 6 stxBytes).next).toNat % 4 ≠ 0 := by
  decide +kernel

/-- Refutes O46: K0 fetches an STX to an odd address from a flash that is starting up (READY 0). The premises of its clause hold, but K0 waits for the flash (R313, log entry 44) and is
left where it stands. -/
theorem not_loadsAndStores : ¬ Obligations.LoadsAndStores := by
  unfold Obligations.LoadsAndStores
  intro h
  obtain ⟨hruns, hwait, hexl⟩ := k0BeforeReady_runs (b := stxBytes) (by simp)
  obtain ⟨-, -, -, hstx, -⟩ := h (k0BeforeReady stxBytes) [] 6 ((k0BeforeReady stxBytes).ctxAt 6 stxBytes) ((k0BeforeReady stxBytes).fetch 6).2
  exact not_takes_of_runs rfl hruns hwait hexl (hstx hruns stx_misaligned)

/-- Refutes O47: K0 fetches a UD from a flash that is starting up (READY 0). The premises of its clause hold, but K0 waits for the flash (R313, log entry 44) and is
left where it stands. -/
theorem not_systemInstructions : ¬ Obligations.SystemInstructions := by
  unfold Obligations.SystemInstructions
  intro h
  obtain ⟨hruns, hwait, hexl⟩ := k0BeforeReady_runs (b := udBytes) (by simp)
  obtain ⟨-, hud, -⟩ := h (k0BeforeReady udBytes) [] 6 ((k0BeforeReady udBytes).ctxAt 6 udBytes) ((k0BeforeReady udBytes).fetch 6).2 0 [] 0
  exact not_takes_of_runs rfl hruns hwait hexl (hud hruns)

/-- PUSH with a field that must be 0 and is not (R264). -/
def badPushBytes : List Byte := [0x64, 0x11]

/-- K0 fetches it from a flash that is starting up; the exception that its bytes ask for leaves the wait. -/
theorem k0BeforeReady_badPush :
    let d := k0BeforeReady badPushBytes
    let e := (d.fetch 6).2
    d.coreRuns 6 = true ∧ (d.fetch 6).1 = .whole badPushBytes ∧ (parse badPushBytes).mn = .push ∧ (parse badPushBytes).bad = true ∧
      (e.enter 6 ⟨excUD, 0, (d.core 6).pc, none, none⟩).svcDue.k0Wait = true := by
  decide +kernel

/-- Refutes O38: K0 fetches a PUSH with a broken field rule from a flash that is starting up (READY 0). The clause on broken rules has it raise UD, but K0 waits for
the flash (R313, log entry 44) and is left where it stands. -/
theorem not_instructionPicked : ¬ Obligations.InstructionPicked := by
  unfold Obligations.InstructionPicked
  intro h
  obtain ⟨hrun, hfetch, hmn, hbad, hwait⟩ := k0BeforeReady_badPush
  obtain ⟨-, hpicked⟩ := h (k0BeforeReady badPushBytes) [] (.push 6) 6 .push rfl
  obtain ⟨-, hwhole, -⟩ := hpicked hrun
  exact not_gives_of_k0Wait rfl hrun hwait ((hwhole _ _ (Prod.ext hfetch rfl)).2 hmn hbad)

end Sys2Proof.Machine
end

section
/-! Proofs for the link sequencer (chapter 9): the replay window. -/

namespace Sys2Proof.Machine

theorem replayJudge_above {h map g : Nat} (hg : h < g) : replayJudge h map g = vdFRESH := if_pos hg

theorem replayJudge_last (h map : Nat) : replayJudge h map h = vdDUP := by simp [replayJudge]

/-- Within the window the bit of the counter decides. -/
theorem replayJudge_window {h map g : Nat} (hlow : g < h) (hwin : h ≤ g + 32) :
    replayJudge h map g = if map.testBit (h - 1 - g) then vdDUP else vdFRESH := by
  rw [replayJudge, if_neg (by omega), if_neg (by omega), if_pos hwin]

theorem replayJudge_below {h map g : Nat} (hlow : g + 32 < h) : replayJudge h map g = vdSTALE := by
  rw [replayJudge, if_neg (by omega), if_neg (by omega), if_neg (by omega)]

/-- A counter is not FRESH exactly where it is the last one, is marked in the window, or lies below it. -/
theorem replayJudge_ne_fresh_iff {h map g : Nat} :
    replayJudge h map g ≠ vdFRESH ↔ g = h ∨ (g < h ∧ h ≤ g + 32 ∧ map.testBit (h - 1 - g) = true) ∨ g + 32 < h := by
  rcases Nat.lt_trichotomy g h with hlow | rfl | habove
  · by_cases hwin : h ≤ g + 32
    · rw [replayJudge_window hlow hwin]
      cases hbit : map.testBit (h - 1 - g) <;> simp [vdDUP, vdFRESH] <;> omega
    · rw [replayJudge_below (by omega)]
      simp only [vdSTALE, vdFRESH]; omega
  · simp [replayJudge_last, vdDUP, vdFRESH]
  · simp only [replayJudge_above habove, ne_eq, not_true_eq_false, false_iff]; omega

/-- The bits of the window after it moved up by `k`: the last counter takes the lowest of the bits that came in. -/
theorem testBit_window_moved (map k i : Nat) (hk : 0 < k) (hi : i < 32) :
    ((map * 2 ^ min 32 k + (if k ≤ 32 then 2 ^ (k - 1) else 0)) % 2 ^ 32).testBit i = (decide (k ≤ i) && map.testBit (i - k) || decide (i + 1 = k)) := by
  rw [Nat.testBit_mod_two_pow, decide_eq_true hi, Bool.true_and]
  by_cases hle : k ≤ 32
  · rw [if_pos hle, Nat.min_eq_right hle, Nat.mul_comm, Nat.two_pow_add_eq_or_of_lt (Nat.pow_lt_pow_right (by decide) (by omega)), Nat.testBit_or,
      Nat.mul_comm, Nat.testBit_mul_two_pow, Nat.testBit_two_pow]
    congr 2
    simp only [eq_iff_iff]; omega
  · rw [if_neg hle, Nat.add_zero, Nat.testBit_mul_two_pow]
    have h1 : ¬ min 32 k ≤ i := by omega
    have h2 : ¬ k ≤ i := by omega
    have h3 : ¬ i + 1 = k := by omega
    simp [h1, h2, h3]

theorem two_pow_window_lt {h n : Nat} (hwin : h ≤ n + 32) (hlow : n < h) : 2 ^ (h - 1 - n) < 2 ^ 32 := Nat.pow_lt_pow_right (by decide) (by omega)

/-- What is not FRESH stays so when the window moves up to `n`. -/
theorem replayJudge_moved_up {h map n g : Nat} (hn : h < n) (hg : replayJudge h map g ≠ vdFRESH) :
    replayJudge (replayMove h map n).1 (replayMove h map n).2 g ≠ vdFRESH := by
  rw [replayMove, if_pos hn, replayJudge_ne_fresh_iff]
  rw [replayJudge_ne_fresh_iff] at hg
  by_cases hstale : g + 32 < n
  · exact .inr (.inr hstale)
  · refine .inr (.inl ⟨by omega, by omega, ?_⟩)
    rw [testBit_window_moved _ _ _ (by omega) (by omega)]
    obtain rfl | ⟨hlow, hwin, hbit⟩ | hbelow := hg
    · simp; omega
    · rw [show n - 1 - g - (n - h) = h - 1 - g by omega, hbit]
      simp; omega
    · omega

/-- And where a counter within the window is marked. -/
theorem replayJudge_marked {h map n g : Nat} (hn : n < h) (hg : replayJudge h map g ≠ vdFRESH) :
    replayJudge (replayMove h map n).1 (replayMove h map n).2 g ≠ vdFRESH := by
  rw [replayMove, if_neg (by omega), replayJudge_ne_fresh_iff]
  rw [replayJudge_ne_fresh_iff] at hg
  refine hg.imp_right (.imp_left fun ⟨hlow, hwin, hbit⟩ => ⟨hlow, hwin, ?_⟩)
  simp [Nat.testBit_or, hbit]

/-- Settles O20: a FRESH counter lies above the window or unmarked in it; the window moves up to the one and marks the other. -/
theorem replayNeverTwice : Obligations.ReplayNeverTwice := by
  unfold Obligations.ReplayNeverTwice
  intro h map n g hmap hfresh
  by_cases hn : h < n
  · refine ⟨?_, replayJudge_moved_up hn, ?_, ?_⟩ <;> rw [replayMove, if_pos hn]
    · exact replayJudge_last _ _
    · exact Nat.mod_lt _ (by decide)
    · exact Nat.le_of_lt hn
  · have hin : ¬ (n = h ∨ (n < h ∧ h ≤ n + 32 ∧ map.testBit (h - 1 - n) = true) ∨ n + 32 < h) := fun hne => replayJudge_ne_fresh_iff.mpr hne hfresh
    have hlow : n < h := by omega
    have hwin : h ≤ n + 32 := by omega
    have hmove : replayMove h map n = (h, map ||| 2 ^ (h - 1 - n)) := by rw [replayMove, if_neg hn]
    refine ⟨?_, replayJudge_marked hlow, ?_, Nat.le_of_eq (congrArg Prod.fst hmove).symm⟩
    · rw [hmove, replayJudge_window hlow hwin]
      simp [Nat.testBit_or, Nat.testBit_two_pow_self]
    · rw [hmove]
      exact Nat.or_lt_two_pow hmap (two_pow_window_lt hwin hlow)

end Sys2Proof.Machine
end

section
/-! Proofs for the interrupt controller (chapter 16): the source presented to a core. -/

namespace Sys2Proof.Machine

/-! ### The source presented (R327) -/

section
variable {α : Type} (f : α → Nat)

/-- The best of a list by `f`, the first on a tie. -/
def bestOf (b : Option α) (l : List α) : Option α :=
  l.foldl (fun b n => match b with
    | none => some n
    | some m => if f m < f n then some n else some m) b

/-- The best is one of the list, or the one before it, and none is better. -/
theorem bestOf_some {b : Option α} {l : List α} {n : α} (h : bestOf f b l = some n) :
    (b = some n ∨ n ∈ l) ∧ (∀ m, b = some m → f m ≤ f n) ∧ ∀ m ∈ l, f m ≤ f n := by
  induction l generalizing b with
  | nil =>
    cases h
    exact ⟨.inl rfl, fun m hm => by cases hm; exact Nat.le_refl _, by simp⟩
  | cons x l ih =>
    obtain ⟨hfrom, hb, hl⟩ := ih h
    cases b with
    | none =>
      refine ⟨.inr ?_, by simp, List.forall_mem_cons.mpr ⟨hb x rfl, hl⟩⟩
      exact hfrom.elim (fun hx => by cases hx; exact .head _) (.tail _)
    | some m =>
      by_cases hlt : f m < f x
      · simp only [hlt, if_true, Option.some.injEq] at hfrom hb
        have hx : f x ≤ f n := hb x rfl
        exact ⟨.inr (hfrom.elim (fun hx => hx ▸ .head _) (.tail _)), fun k hk => by cases hk; omega, List.forall_mem_cons.mpr ⟨hx, hl⟩⟩
      · simp only [hlt, if_false, Option.some.injEq] at hfrom hb
        have hm : f m ≤ f n := hb m rfl
        exact ⟨hfrom.imp (congrArg some) (.tail _), fun k hk => by cases hk; exact hm, List.forall_mem_cons.mpr ⟨by omega, hl⟩⟩

end

theorem Dev.presented_eq (d : Dev) (c : Fin 7) :
    d.presented c = bestOf (fun n => d.get (IRQ_CFG n) IRQ_CFG_PRI) none (d.srcListed.filter fun n => d.offered n c) := by
  unfold Dev.presented bestOf
  congr 1
  funext b n
  cases b <;> rfl

/-- Settles O34: what is presented is the best of the sources offered, and an eligible source that is not LOWPRI is offered. -/
theorem presentedIsHighest : Obligations.PresentedIsHighest := by
  unfold Obligations.PresentedIsHighest
  intro d c n m h
  rw [Dev.presented_eq] at h
  obtain ⟨hfrom, -, hbest⟩ := bestOf_some _ h
  have hoffered : d.offered n c = true := (List.mem_filter.mp (hfrom.resolve_left (by simp))).2
  simp only [Dev.offered, Dev.eligible, Bool.and_eq_true, Bool.not_eq_true'] at hoffered
  obtain ⟨⟨⟨⟨⟨⟨⟨hpend, hact⟩, hen⟩, hhold⟩, hbeats⟩, -⟩, -⟩, -⟩ := hoffered
  refine ⟨hpend, hact, hen, hhold, hbeats, fun hlisted heligible hlow => hbest m (List.mem_filter.mpr ⟨hlisted, ?_⟩)⟩
  simp [Dev.offered, heligible, hlow]

end Sys2Proof.Machine
end

section
/-! Proofs for the supply (chapter 2): the reservations of the power ceiling. -/

namespace Sys2Proof.Machine

/-! ### Reservations of the power ceiling (R40) -/

/-- The sum of the values of a table. -/
def tableSum (m : List (Nat × Nat)) : Nat := (m.map (·.2)).sum

theorem Dev.reserved_eq (d : Dev) : d.reserved = tableSum d.pwr.resv := by
  simp [Dev.reserved, tableSum, List.sum_eq_foldl]

theorem tableSum_sinsert (k v : Nat) (m : List (Nat × Nat)) : tableSum (sinsert k v m) = v + tableSum m := by
  induction m with
  | nil => rfl
  | cons p r ih =>
    by_cases h : k < p.1
    · simp [sinsert, h, tableSum]
    · simp only [tableSum] at ih
      simp [sinsert, h, tableSum, ih]; omega

/-- What is left when a key goes, and what it read, lie within the sum. -/
theorem tableSum_serase (k : Nat) (m : List (Nat × Nat)) : tableSum (serase k m) + sget 0 m k ≤ tableSum m := by
  induction m with
  | nil => simp [serase, sget, tableSum]
  | cons p r ih =>
    by_cases h : p.1 = k
    · have hr : tableSum (serase k r) ≤ tableSum r := by omega
      simp only [serase, sget, h, if_true, tableSum, List.map_cons, List.sum_cons] at hr ⊢; omega
    · simp only [serase, sget, h, Ne.symm h, if_false, tableSum, List.map_cons, List.sum_cons] at ih ⊢; omega

theorem tableSum_sset (k v : Nat) (m : List (Nat × Nat)) : tableSum (sset 0 m k v) + sget 0 m k ≤ tableSum m + v := by
  have h := tableSum_serase k m
  unfold sset
  split
  · omega
  · rw [tableSum_sinsert]; omega

section
variable (d : Dev) (h mw : Nat)

theorem Dev.resvOf_setResv (k : Nat) : (d.setResv h mw).resvOf k = if k = h then mw else d.resvOf k := sget_sset _ _ _ _ _

/-- The sum with a holder's reservation changed. -/
theorem Dev.reserved_setResv : (d.setResv h mw).reserved + d.resvOf h ≤ d.reserved + mw := by
  simp only [Dev.reserved_eq]
  exact tableSum_sset h mw d.pwr.resv

theorem Dev.get_CEIL_setResv : (d.setResv h mw).get PWR_CEIL PWR_CEIL_CEIL = d.get PWR_CEIL PWR_CEIL_CEIL :=
  Dev.get_put_field _ _ _ _ _ (by decide) (by decide) (by decide)

theorem Dev.get_RSVD_setResv : (d.setResv h mw).get PWR_CEIL PWR_CEIL_RSVD = (d.setResv h mw).reserved % 2 ^ 16 :=
  Dev.get_put_same _ _ _ _ (by decide) (by decide)

end

theorem Dev.get_count_COUNT (d : Dev) (a : Nat) (h : d.get a ⟨15, 0⟩ < 0xFFFF) : (d.count a).get a ⟨15, 0⟩ = d.get a ⟨15, 0⟩ + 1 := by
  rw [Dev.count, if_neg (by omega), Dev.get_put_same _ _ _ _ (by decide) (by decide), Nat.mod_eq_of_lt]
  simp only [Fld.width]; omega

/-- Settles O48: a request that fits is set, and one that does not is counted. -/
theorem powerCeilingHolds : Obligations.PowerCeilingHolds := by
  unfold Obligations.PowerCeilingHolds
  intro d h mw blk
  cases hfits : d.resvFits h mw with
  | true =>
    refine ⟨fun _ => ?_, by simp [Dev.requestResv, hfits]⟩
    simp only [Dev.requestResv, hfits, if_true]
    have hceil := of_decide_eq_true hfits
    have hsum := d.reserved_setResv h mw
    exact ⟨by omega, by simp [Dev.resvOf_setResv], fun k hk => by simp [Dev.resvOf_setResv, hk], d.get_CEIL_setResv h mw, d.get_RSVD_setResv h mw⟩
  | false =>
    refine ⟨by simp [Dev.requestResv, hfits], fun _ => ?_⟩
    simp only [Dev.requestResv, hfits, Bool.false_eq_true, if_false, Dev.refuseResv]
    refine ⟨by simp, Dev.get_put_same _ _ _ _ (by decide) (by decide), fun hlt => ?_, fun a ha => ?_⟩
    · exact (Dev.get_put_field _ _ _ _ _ (by decide) (by decide) (by decide)).trans (d.get_count_COUNT _ hlt)
    · rw [Dev.reg_put_other _ _ _ _ _ ha, Dev.reg_count_other _ _ _ ha]

end Sys2Proof.Machine
end

section
/-! Proofs for the key store (chapter 11): persistent counters and the uses of a key. -/

namespace Sys2Proof.Machine

/-! ### What programming a counter's record leaves (R227, R323) -/

theorem Dev.putBytes_regs (d : Dev) (a : Nat) (l : List Byte) : (d.putBytes a l).regs = d.regs := by
  induction l generalizing d a with
  | nil => rfl
  | cons b r ih => exact ih _ _

theorem Dev.setBytes_regs (d : Dev) (a : Nat) (l : List Byte) : (d.setBytes a l).regs = d.regs :=
  (Dev.eccClear_regs _ _ _).trans (d.putBytes_regs a l)

theorem Dev.reg_congr {d e : Dev} (h : e.regs = d.regs) (a : Nat) : e.reg a = d.reg a := by rw [Dev.reg, Dev.reg, h]

theorem Dev.bankServed_regs (d : Dev) (b : Nat) : (d.bankServed b).regs = d.regs := by
  unfold Dev.bankServed; split <;> rfl

/-- A program by an engine moves the counter of failed verifies alone. -/
theorem Dev.reg_progVerify (d : Dev) (a : Nat) (b : List Byte) (ok : Bool) {n : Nat} (hn : n ≠ FLC_CNT 6) : (d.progVerify a b ok).reg n = d.reg n := by
  have hprog : (d.progWord a b ok).reg n = d.reg n := Dev.reg_congr (d.setBytes_regs a b) n
  unfold Dev.progVerify
  dsimp only
  split
  · exact hprog
  · exact (Dev.reg_count_other _ _ _ hn).trans hprog

theorem Dev.reg_ctrTry (d : Dev) (c v active : Nat) (ok : Bool) {n : Nat} (hn : n ≠ FLC_CNT 6) : (d.ctrTry c v active ok).1.reg n = d.reg n := by
  unfold Dev.ctrTry
  split <;> exact Dev.reg_progVerify _ _ _ _ hn

/-! ### A raise (R229) -/

theorem KEY_CTR_ne_FLC_CNT (c k : Nat) (hc : c < 64) (hk : k < 16) : KEY_CTR c ≠ FLC_CNT k := by unfold KEY_CTR FLC_CNT; omega
theorem KEY_CTR_ne_KEY_CNT (c k : Nat) (hk : k < 16) : KEY_CTR c ≠ KEY_CNT k := by unfold KEY_CTR KEY_CNT; omega
theorem KEY_CTR_ne_KEY_STAT (c : Nat) : KEY_CTR c ≠ KEY_STAT := by unfold KEY_CTR KEY_STAT; omega

theorem ctrCap_lt (c : Nat) : ctrCap c < 2 ^ 32 := by unfold ctrCap; split <;> decide

section
variable {d : Dev} {go : Bool} {c v : Nat} {o : List Bool}

/-- What a raise ends with: the counter stands at the value or above, or the raise has failed and the counter is as it was. -/
structure Dev.Raised (d : Dev) (c v : Nat) (r : Nat × Dev) : Prop where
  reached : r.1 = krOK → v ≤ r.2.ctrVal c ∧ d.ctrVal c ≤ r.2.ctrVal c
  failed : r.1 ≠ krOK → r.2.ctrVal c = d.ctrVal c

theorem Dev.Raised.failing {code : Nat} {e : Dev} (hcode : code ≠ krOK) (he : e.reg (KEY_CTR c) = d.reg (KEY_CTR c)) : d.Raised c v (code, e) :=
  ⟨fun h => absurd h hcode, fun _ => congrArg BitVec.toNat he⟩

theorem Dev.Raised.written {e : Dev} (hv : v < 2 ^ 32) (hlt : d.ctrVal c < v) : d.Raised c v (krOK, e.setReg (KEY_CTR c) (BitVec.ofNat 32 v)) := by
  refine ⟨fun _ => ?_, fun h => absurd rfl h⟩
  have hval : (e.setReg (KEY_CTR c) (BitVec.ofNat 32 v)).ctrVal c = v := by
    rw [Dev.ctrVal, Dev.reg_setReg_same, BitVec.toNat_ofNat, Nat.mod_eq_of_lt hv]
  exact ⟨Nat.le_of_eq hval.symm, Nat.le_trans (Nat.le_of_lt hlt) (Nat.le_of_eq hval.symm)⟩

theorem Dev.raised_raiseCore (hc : c < 64) : d.Raised c v (d.raiseCore go c v false o) := by
  have hflc : KEY_CTR c ≠ FLC_CNT 6 := KEY_CTR_ne_FLC_CNT c 6 hc (by decide)
  unfold Dev.raiseCore
  split
  next hle => exact ⟨fun _ => ⟨hle.1, Nat.le_refl _⟩, fun h => absurd rfl h⟩
  next hle =>
  have hlt : d.ctrVal c < v := by simpa using hle
  split
  · exact .failing (by decide) rfl
  next hcap =>
  have hv : v < 2 ^ 32 := Nat.lt_of_le_of_lt (Nat.not_lt.mp hcap) (ctrCap_lt c)
  split
  · exact .failing (by decide) rfl
  split
  · exact .failing (by decide) (Dev.reg_count_other _ _ _ (KEY_CTR_ne_FLC_CNT c 5 hc (by decide)))
  dsimp only
  split
  · exact .written hv hlt
  split
  · exact .written hv hlt
  · exact .failing (by decide) (((Dev.reg_ctrTry _ _ _ _ _ hflc).trans (Dev.reg_ctrTry _ _ _ _ _ hflc)).trans (Dev.reg_congr (d.bankServed_regs 2) _))

theorem Dev.raised_raise (hc : c < 64) : d.Raised c v (d.raise c v o) := by
  have hcore : d.Raised c v (if d.ctrBad.contains c then (krRAISEFAIL, d) else d.raiseCore d.mayProg c v false o) := by
    split
    · exact .failing (by decide) rfl
    · exact raised_raiseCore hc
  unfold Dev.raise Dev.raiseGo
  generalize (if d.ctrBad.contains c then (krRAISEFAIL, d) else d.raiseCore d.mayProg c v false o) = r at hcore ⊢
  dsimp only
  split
  next hfail =>
    have hne : r.1 ≠ krOK := by rw [hfail]; decide
    refine .failing hne ?_
    rw [Dev.reg_put_other _ _ _ _ _ (KEY_CTR_ne_KEY_STAT c), Dev.reg_count_other _ _ _ (KEY_CTR_ne_KEY_CNT c 3 (by decide))]
    exact BitVec.eq_of_toNat_eq (hcore.failed hne)
  next => exact hcore

end

/-! ### A use of a key (R225) -/

theorem Dev.lose_kslots (d : Dev) (blk unit code t : Nat) : (d.lose blk unit code t).kslots = d.kslots := by
  unfold Dev.lose; dsimp only; split <;> simp

theorem Dev.report_kslots (d : Dev) (blk unit code : Nat) (detail : Word) (extra : List Word) : (d.report blk unit code detail extra).kslots = d.kslots := by
  unfold Dev.report
  split
  · exact d.lose_kslots _ _ _ _
  · rfl

theorem Dev.kslot_exhaust (d : Dev) (i j : Nat) : (d.exhaust i).kslot j = if j = i then { d.kslot i with state := 3 } else d.kslot j := by
  rw [Dev.exhaust, Dev.kslot, Dev.report_kslots, ← Dev.kslot_setKslot]
  rfl

/-- An admitted use, by the slot it leaves: one use more, exhausted at LIMIT. -/
theorem Dev.kslot_charge (d : Dev) (i j : Nat) (h : (d.kslot i).used < (d.kslot i).ceil) : (d.charge i).2.kslot j =
    if j = i then
      (if (d.kslot i).limit ≤ (d.kslot i).used + 1 then { d.kslot i with used := (d.kslot i).used + 1, state := 3 } else { d.kslot i with used := (d.kslot i).used + 1 })
    else d.kslot j := by
  simp only [Dev.charge, if_pos h]
  split
  · rw [Dev.kslot_exhaust]
    by_cases hj : j = i <;> simp [hj]
  · rw [Dev.kslot_setKslot]

theorem Dev.charge_admits_iff (d : Dev) (i : Nat) : (d.charge i).1 = 0 ↔ (d.kslot i).used < (d.kslot i).ceil := by
  unfold Dev.charge
  dsimp only
  split
  next h => exact iff_of_true rfl h
  next h => split <;> exact iff_of_false (by simp) h

theorem Dev.charge_refused_kslots (d : Dev) (i : Nat) (h : ¬ (d.kslot i).used < (d.kslot i).ceil) : (d.charge i).2.kslots = d.kslots := by
  simp only [Dev.charge, if_neg h]
  split <;> exact Dev.count_kslots _ _

/-- Settles O25: a raise writes a value above the counter's or leaves the counter, and a charge is admitted below the ceiling alone. -/
theorem countersAndUses : Obligations.CountersAndUses := by
  unfold Obligations.CountersAndUses
  refine ⟨fun d c v o hc => ?_, fun d c v o hc hok => ((Dev.raised_raise hc).reached hok).1, fun d i hadmit => ?_, fun d i hrefuse => ?_⟩
  · have h : d.Raised c v (d.raise c v o) := Dev.raised_raise hc
    by_cases hok : (d.raise c v o).1 = krOK
    · exact (h.reached hok).2
    · exact Nat.le_of_eq (h.failed hok).symm
  · have hbelow := (d.charge_admits_iff i).mp hadmit
    simp only [d.kslot_charge i _ hbelow]
    simp only [if_true]
    refine ⟨hbelow, ?_, ?_, fun hlimit => by rw [if_pos hlimit], fun j hj => by rw [if_neg hj]⟩ <;> split <;> rfl
  · have hfull := mt (d.charge_admits_iff i).mpr hrefuse
    exact ⟨by omega, d.charge_refused_kslots i hfull⟩

end Sys2Proof.Machine
end

section
/-! Proofs for the flash array (chapter 15): the rotating windows and the bytes of memory. -/

namespace Sys2Proof.Machine

/-! ### Bytes of the address space above the low view of flash -/

/-- Above the low view an address is its own stored form, and shows its cell outside the boot ROM. -/
theorem Dev.byte_eq_cell (d : Dev) {a : Nat} (h : 0x02000000 ≤ a) :
    d.byte a = if 0x10000000 ≤ a ∧ a < 0x10010000 then Config.bootRom (a - 0x10000000) else d.cell a := by
  unfold Dev.byte
  rw [d.canon_of_ge h]
  rfl

/-- Bytes stored above the low view of flash stand one after another, and nothing else changes. -/
theorem Dev.cell_putBytes (d : Dev) (a : Nat) (l : List Byte) (h : 0x02000000 ≤ a) (y : Nat) :
    (d.putBytes a l).cell y = if a ≤ y ∧ y < a + l.length then l.getD (y - a) 0 else d.cell y := by
  induction l generalizing d a with
  | nil => rw [if_neg (by simp only [List.length_nil]; omega)]; rfl
  | cons b r ih =>
    rw [Dev.putBytes, ih (d.setByte a b) (a + 1) (by omega), Dev.cell_setByte, d.canon_of_ge h, List.length_cons]
    by_cases hy : y = a
    · subst hy
      rw [if_neg (by omega), if_pos rfl, if_pos (by omega), Nat.sub_self, List.getD_cons_zero]
    · rw [if_neg hy]
      by_cases hin : a + 1 ≤ y ∧ y < a + 1 + r.length
      · rw [if_pos hin, if_pos (by omega), show y - a = y - (a + 1) + 1 by omega, List.getD_cons_succ]
      · rw [if_neg hin, if_neg (by omega)]

theorem Dev.cell_setBytes (d : Dev) (a : Nat) (l : List Byte) (h : 0x02000000 ≤ a) (y : Nat) :
    (d.setBytes a l).cell y = if a ≤ y ∧ y < a + l.length then l.getD (y - a) 0 else d.cell y :=
  (Dev.cell_eccClear _ _ _ _).trans (d.cell_putBytes a l h y)

/-! ### The flash array (R305, R308) -/

theorem Dev.cell_progWord (d : Dev) (a : Nat) (b : List Byte) (ok : Bool) (h : 0x02000000 ≤ a) (y : Nat) :
    (d.progWord a b ok).cell y = if a ≤ y ∧ y < a + b.length then b.getD (y - a) 0 else d.cell y := d.cell_setBytes a b h y

theorem sget_filter {α : Type} (v : α) (m : List (Nat × α)) (p : Nat → Bool) (k : Nat) :
    sget v (m.filter fun e => p e.1) k = if p k then sget v m k else v := by
  induction m with
  | nil => simp [sget]
  | cons e r ih =>
    by_cases hk : k = e.1
    · subst hk
      cases hp : p e.1 <;> simp_all [sget]
    · cases hp : p e.1 <;> simp [hp, sget, hk, ih]

/-- An erase takes a sector back to what nothing has written. -/
theorem Dev.cell_eraseSector (d : Dev) (a y : Nat) : (d.eraseSector a).cell y = if a ≤ y ∧ y < a + 4096 then memDflt y else d.cell y := by
  refine (sget_filter (memDflt y) d.mem (fun k => !inSector a k) y).trans ?_
  by_cases h : a ≤ y ∧ y < a + 4096 <;> simp [inSector, h, Dev.cell]

/-! ### The rotating windows (R309, R310) -/

theorem winN_of_lt {w : Nat} (h : w < 2) : winN w = 256 ∨ winN w = 2040 := by
  obtain rfl | rfl : w = 0 ∨ w = 1 := by omega
  · exact .inl rfl
  · exact .inr rfl

section
variable {x : Win} {w l m : Nat} (hw : w < 2)
include hw

/-- A logical sector lies in a slot of the window, and not in the gap. -/
theorem Win.slotOf_le : x.slotOf w l ≤ winN w ∧ x.slotOf w l ≠ x.gap w := by
  unfold Win.slotOf Win.gap
  rcases winN_of_lt hw with h | h <;> rw [h] <;> dsimp only <;> split <;> omega

theorem Win.slotOf_injective (hl : l < winN w) (hm : m < winN w) (h : x.slotOf w l = x.slotOf w m) : l = m := by
  unfold Win.slotOf at h
  rcases winN_of_lt hw with hn | hn <;> rw [hn] at hl hm h <;> dsimp only at h <;> split at h <;> split at h <;> omega

/-- A move takes the sector beside the gap into it. -/
theorem Win.slotOf_moved (hback : x.back ≤ winN w) :
    let y : Win := if 0 < x.gap w then { x with back := x.back + 1 } else { x with start := (x.start + 1) % winN w, back := 0 }
    let src := if 0 < x.gap w then x.gap w - 1 else winN w
    y.gap w = src ∧ (x.slotOf w l ≠ src → y.slotOf w l = x.slotOf w l) ∧ (x.slotOf w l = src → y.slotOf w l = x.gap w) := by
  by_cases hgap : 0 < x.gap w
  · simp only [hgap, if_true]
    simp only [Win.gap, Win.slotOf] at hgap ⊢
    rcases winN_of_lt hw with h | h <;> rw [h] at hback hgap ⊢ <;> refine ⟨by omega, ?_, ?_⟩ <;> repeat' split
    all_goals omega
  · simp only [hgap, if_false]
    simp only [Win.gap, Win.slotOf] at hgap ⊢
    rcases winN_of_lt hw with h | h <;> rw [h] at hback hgap ⊢ <;> refine ⟨by omega, ?_, ?_⟩ <;> repeat' split
    all_goals omega

end

/-- Settles O31: the slots by arithmetic modulo the window's size, the array by what a program and an erase make of its cells. -/
theorem flashArray : Obligations.FlashArray := by
  unfold Obligations.FlashArray
  refine ⟨fun x w l m hw hback hstart hl hm => ?_, fun d a k b ok hlo hhi hk => ?_⟩
  · obtain ⟨hle, hgap⟩ := Win.slotOf_le (x := x) (l := l) hw
    exact ⟨hle, hgap, Win.slotOf_injective hw hl hm, Win.slotOf_moved hw hback⟩
  · have ha : 0x02000000 ≤ a := by unfold flashFull at hlo; omega
    refine ⟨fun hlen => ⟨fun i hi => ?_, fun hout => ?_⟩, fun h1 h2 => ?_, fun hout => ?_⟩
    · rw [Dev.byte_eq_cell _ (by omega), if_neg (by omega), d.cell_progWord a b ok ha, if_pos (by omega), Nat.add_sub_cancel_left]
    · have hcell : (d.progWord a b ok).cell k = d.cell k := (d.cell_progWord a b ok ha k).trans (if_neg (by omega))
      rw [Dev.byte_eq_cell _ hk, Dev.byte_eq_cell _ hk, hcell]
    · rw [Dev.byte_eq_cell _ hk, if_neg (by omega), Dev.cell_eraseSector, if_pos ⟨h1, h2⟩, memDflt, if_pos ⟨Nat.le_trans hlo h1, by omega⟩]
    · have hcell : (d.eraseSector a).cell k = d.cell k := (d.cell_eraseSector a k).trans (if_neg (by omega))
      rw [Dev.byte_eq_cell _ hk, Dev.byte_eq_cell _ hk, hcell]

end Sys2Proof.Machine
end

section
/-! Proofs for the custody ledger (chapter 12): the merged view. -/

namespace Sys2Proof.Machine

/-! ### The order of the view (R257) -/

theorem lexLt_iff (l m : List Nat) : lexLt l m = true ↔ l < m := by
  induction l generalizing m with
  | nil => cases m <;> simp [lexLt]
  | cons a l ih => cases m <;> simp [lexLt, ih, List.cons_lt_cons_iff]

theorem viewKey_injective {r x : List Byte} (h : viewKey r = viewKey x) : r = x := by
  simp only [viewKey, List.cons.injEq] at h
  obtain ⟨-, -, -, hbytes⟩ := h
  exact (List.map_inj_right fun a b hab => BitVec.eq_of_toNat_eq hab).mp hbytes

/-- A list in the strict order of the view. -/
def InViewOrder (l : List (List Byte)) : Prop := l.Pairwise fun x y => lexLt (viewKey x) (viewKey y) = true

theorem mem_viewPut {r x : List Byte} {l : List (List Byte)} : x ∈ viewPut r l ↔ x = r ∨ x ∈ l := by
  induction l with
  | nil => simp [viewPut]
  | cons y l ih =>
    unfold viewPut
    split
    next h => subst h; simp
    next h =>
      split
      · simp
      · simp only [List.mem_cons, ih]; exact or_left_comm

theorem inViewOrder_viewPut {r : List Byte} {l : List (List Byte)} (h : InViewOrder l) : InViewOrder (viewPut r l) := by
  induction l with
  | nil => exact List.pairwise_singleton _ _
  | cons x l ih =>
    obtain ⟨hx, hl⟩ := List.pairwise_cons.mp h
    unfold viewPut
    split
    · exact h
    next hne =>
      split
      next hlt =>
        refine List.pairwise_cons.mpr ⟨List.forall_mem_cons.mpr ⟨hlt, fun y hy => ?_⟩, h⟩
        have hxy := hx y hy
        rw [lexLt_iff] at hlt hxy ⊢
        exact List.lt_trans hlt hxy
      next hle =>
        refine List.pairwise_cons.mpr ⟨fun y hy => ?_, ih hl⟩
        obtain rfl | hy := mem_viewPut.mp hy
        · rw [lexLt_iff] at hle ⊢
          exact Decidable.byContradiction fun hnot => hne (viewKey_injective (List.le_antisymm (List.not_lt.mp hnot) (List.not_lt.mp hle)))
        · exact hx y hy

theorem mem_viewSort {x : List Byte} {l : List (List Byte)} : x ∈ viewSort l ↔ x ∈ l := by
  induction l with
  | nil => simp [viewSort]
  | cons y l ih =>
    rw [viewSort, List.foldr_cons, mem_viewPut, ← viewSort, ih, List.mem_cons]

theorem inViewOrder_viewSort (l : List (List Byte)) : InViewOrder (viewSort l) := by
  induction l with
  | nil => exact List.Pairwise.nil
  | cons y l ih => exact inViewOrder_viewPut ih

/-- Lists in the strict order that hold the same records are the same list. -/
theorem InViewOrder.ext {l m : List (List Byte)} (hl : InViewOrder l) (hm : InViewOrder m) (h : ∀ r, r ∈ l ↔ r ∈ m) : l = m := by
  have hirrefl : ∀ r : List Byte, ¬ lexLt (viewKey r) (viewKey r) = true := fun r => by rw [lexLt_iff]; exact List.lt_irrefl _
  have hnodup : ∀ {k}, InViewOrder k → k.Nodup := fun hk =>
    List.Pairwise.imp (fun {a b} (hab : lexLt (viewKey a) (viewKey b) = true) (heq : a = b) => hirrefl a (by rwa [← heq] at hab)) hk
  refine ((List.perm_ext_iff_of_nodup (hnodup hl) (hnodup hm)).mpr h).eq_of_pairwise (fun a b _ _ hab hba => ?_) hl hm
  rw [lexLt_iff] at hab hba
  exact absurd (List.lt_trans hab hba) (List.lt_irrefl _)

/-! ### What the view shows (R256) -/

section
variable {d e : Dev} {l m : List (List Byte)} (htag : ∀ r, d.tagOk r = e.tagOk r) (hmem : ∀ r, r ∈ l ↔ r ∈ m)
include htag hmem

theorem Dev.rooted_congr (n : Nat) (r : List Byte) : d.rooted l n r = e.rooted m n r := by
  induction n generalizing r with
  | zero => simp [Dev.rooted, Dev.passes, htag]
  | succ n ih =>
    have hany : (l.any fun q => follows q r && d.rooted l n q) = m.any fun q => follows q r && e.rooted m n q := by
      rw [Bool.eq_iff_iff, List.any_eq_true, List.any_eq_true]
      simp only [ih, hmem]
    simp only [Dev.rooted, Dev.passes, htag, hany]

theorem Dev.mem_viewOk_congr (r : List Byte) : r ∈ d.viewOk l ↔ r ∈ e.viewOk m := by
  simp only [Dev.viewOk, List.mem_filter, hmem, Dev.rooted_congr htag hmem]

end

theorem vouches_congr {l m : List (List Byte)} (h : ∀ r, r ∈ l ↔ r ∈ m) (r x : List Byte) : vouches l r x = vouches m r x := by
  have hany : ∀ p : List Byte → Bool, l.any p = m.any p := fun p => by
    rw [Bool.eq_iff_iff, List.any_eq_true, List.any_eq_true]
    simp only [h]
  simp only [vouches, hany]

/-- A record that some record vouches for arrived with the earliest of those. -/
theorem viewArrival_eq_some {ok : List (List Byte)} {r : List Byte} {t : Nat} (h : viewArrival ok r = some t) :
    (∃ x ∈ ok, vouches ok r x = true ∧ recTime x = t) ∧ ∀ x ∈ ok, vouches ok r x = true → t ≤ recTime x := by
  obtain ⟨hmem, hmin⟩ := List.min?_eq_some_iff.mp h
  obtain ⟨x, hx, ht⟩ := List.mem_map.mp hmem
  obtain ⟨hx, hv⟩ := List.mem_filter.mp hx
  exact ⟨⟨x, hx, hv, ht⟩, fun y hy hvy => hmin _ (List.mem_map.mpr ⟨y, List.mem_filter.mpr ⟨hy, hvy⟩, rfl⟩)⟩

theorem viewArrival_eq_none {ok : List (List Byte)} {r : List Byte} (h : viewArrival ok r = none) : ∀ x ∈ ok, vouches ok r x = false := by
  simpa [viewArrival] using h

/-- Arrival within the horizon, and after it. -/
theorem viewArrival_inTime (ok : List (List Byte)) (r : List Byte) (b : Nat) :
    ((viewArrival ok r).isSome = true ∧ (viewArrival ok r).getD 0 ≤ b) ↔ ∃ x ∈ ok, vouches ok r x = true ∧ recTime x ≤ b := by
  cases h : viewArrival ok r with
  | none =>
    have hno := viewArrival_eq_none h
    simp only [Option.isSome_none, Bool.false_eq_true, false_and, false_iff]
    rintro ⟨x, hx, hv, -⟩
    rw [hno x hx] at hv
    exact Bool.noConfusion hv
  | some t =>
    obtain ⟨⟨x, hx, hv, ht⟩, hmin⟩ := viewArrival_eq_some h
    simp only [Option.isSome_some, Option.getD_some, true_and]
    exact ⟨fun hle => ⟨x, hx, hv, Nat.le_trans (Nat.le_of_eq ht) hle⟩, fun ⟨y, hy, hvy, hle⟩ => Nat.le_trans (hmin y hy hvy) hle⟩

theorem viewArrival_late (ok : List (List Byte)) (r : List Byte) (b : Nat) :
    ((viewArrival ok r).isSome = true ∧ ¬ (viewArrival ok r).getD 0 ≤ b) ↔
      (∃ x ∈ ok, vouches ok r x = true) ∧ ∀ x ∈ ok, vouches ok r x = true → b < recTime x := by
  cases h : viewArrival ok r with
  | none =>
    have hno := viewArrival_eq_none h
    simp only [Option.isSome_none, Bool.false_eq_true, false_and, false_iff]
    rintro ⟨⟨x, hx, hv⟩, -⟩
    rw [hno x hx] at hv
    exact Bool.noConfusion hv
  | some t =>
    obtain ⟨⟨x, hx, hv, ht⟩, hmin⟩ := viewArrival_eq_some h
    simp only [Option.isSome_some, Option.getD_some, true_and, Nat.not_le]
    exact ⟨fun hlt => ⟨⟨x, hx, hv⟩, fun y hy hvy => Nat.lt_of_lt_of_le hlt (hmin y hy hvy)⟩, fun ⟨_, hall⟩ => ht ▸ hall x hx hv⟩

section
variable (d : Dev) (l : List (List Byte)) (r : List Byte)

theorem Dev.mem_mergedView_main : r ∈ (d.mergedView l).1 ↔ r ∈ l ∧ d.rooted l (recSeq r) r = true ∧ 0x10 ≤ u8 r 1 ∧
    ∃ x ∈ d.viewOk l, vouches (d.viewOk l) r x = true ∧ Machine.recTime x ≤ Machine.recTime r + settling := by
  rw [← viewArrival_inTime, Dev.mergedView, mem_viewSort]
  rw [List.mem_filter, decide_eq_true_iff, List.mem_filter, Dev.viewOk, List.mem_filter, Bool.and_eq_true, decide_eq_true_iff]
  simp only [and_assoc]

theorem Dev.mem_mergedView_annex : r ∈ (d.mergedView l).2 ↔ r ∈ l ∧ d.rooted l (recSeq r) r = true ∧ 0x10 ≤ u8 r 1 ∧
    (∃ x ∈ d.viewOk l, vouches (d.viewOk l) r x = true) ∧
    ∀ x ∈ d.viewOk l, vouches (d.viewOk l) r x = true → Machine.recTime r + settling < Machine.recTime x := by
  rw [← viewArrival_late, Dev.mergedView, mem_viewSort]
  rw [List.mem_filter, Bool.not_eq_true', decide_eq_false_iff_not, List.mem_filter, Dev.viewOk, List.mem_filter, Bool.and_eq_true, decide_eq_true_iff]
  simp only [and_assoc]

theorem Dev.inViewOrder_mergedView : InViewOrder (d.mergedView l).1 ∧ InViewOrder (d.mergedView l).2 :=
  ⟨inViewOrder_viewSort _, inViewOrder_viewSort _⟩

end

theorem Dev.mergedView_congr {d e : Dev} {l m : List (List Byte)} (htag : ∀ r, d.tagOk r = e.tagOk r) (hmem : ∀ r, r ∈ l ↔ r ∈ m) :
    d.mergedView l = e.mergedView m := by
  have hok := Dev.mem_viewOk_congr htag hmem
  obtain ⟨hd1, hd2⟩ := d.inViewOrder_mergedView l
  obtain ⟨he1, he2⟩ := e.inViewOrder_mergedView m
  refine Prod.ext (hd1.ext he1 fun r => ?_) (hd2.ext he2 fun r => ?_)
  · simp only [Dev.mem_mergedView_main, hmem, Dev.rooted_congr htag hmem, hok, vouches_congr hok]
  · simp only [Dev.mem_mergedView_annex, hmem, Dev.rooted_congr htag hmem, hok, vouches_congr hok]

/-- Settles O28: each part is the one list in the strict order of its records, and which records those are depends on the set delivered alone. -/
theorem mergedViewOfTheSet : Obligations.MergedViewOfTheSet := by
  unfold Obligations.MergedViewOfTheSet
  refine ⟨fun d e l m => Dev.mergedView_congr, fun d l => ?_⟩
  obtain ⟨hmain, hannex⟩ := d.inViewOrder_mergedView l
  exact ⟨hmain, hannex, d.mem_mergedView_main l, d.mem_mergedView_annex l⟩

end Sys2Proof.Machine
end

section
/-! Proofs for the instruction set (chapter 13): packed decimal arithmetic. -/

namespace Sys2Proof.Machine

/-! ### Digits of a word, lowest first -/

theorem nibble_zero (a : Nat) : nibble a 0 = a % 16 := by simp [nibble]

theorem nibble_succ (a i : Nat) : nibble a (i + 1) = nibble (a / 16) i := by
  rw [nibble, nibble, Nat.pow_succ', Nat.div_div_eq_div_mul]

theorem span_succ_map (n : Nat) : ∀ lo, span (lo + 1) n = (span lo n).map (· + 1) := by
  induction n with
  | zero => exact fun _ => rfl
  | succ n ih => exact fun lo => by rw [span, ih, span, List.map_cons]

/-- The value of `n` digits in base `b`, lowest first. -/
def digitsVal (b : Nat) (f : Nat → Nat) (n : Nat) : Nat := ((span 0 n).map fun i => f i * b ^ i).sum

theorem sum_map_const_mul (b : Nat) (f : Nat → Nat) (l : List Nat) : (l.map fun i => b * f i).sum = b * (l.map f).sum := by
  induction l with
  | nil => rfl
  | cons x l ih => rw [List.map_cons, List.sum_cons, List.map_cons, List.sum_cons, ih, Nat.mul_add]

theorem digitsVal_succ (b : Nat) (f : Nat → Nat) (n : Nat) : digitsVal b f (n + 1) = f 0 + b * digitsVal b (fun i => f (i + 1)) n := by
  rw [digitsVal, span, span_succ_map, List.map_cons, List.map_map, List.sum_cons, digitsVal, ← sum_map_const_mul]
  simp [Function.comp_def, Nat.pow_succ, Nat.mul_comm, Nat.mul_assoc]

theorem foldl_add_eq_sum (g : Nat → Nat) (l : List Nat) : ∀ z, l.foldl (fun r i => r + g i) z = z + (l.map g).sum := by
  induction l with
  | nil => simp
  | cons x l ih => exact fun z => by rw [List.foldl_cons, ih, List.map_cons, List.sum_cons, Nat.add_assoc]

theorem decValue_eq_digitsVal (s : Nat) : decValue s = digitsVal 10 (nibble s) 8 := by
  rw [decValue, foldl_add_eq_sum, Nat.zero_add, digitsVal]

theorem digitsVal_nibble (n : Nat) : ∀ v, digitsVal 10 (nibble v) n = ofBcd n v := by
  induction n with
  | zero => exact fun _ => rfl
  | succ n ih => exact fun v => by simp only [digitsVal_succ, nibble_succ, nibble_zero, ih, ofBcd]

theorem badDigit_succ (n v : Nat) : badDigit (n + 1) v = (decide (9 < v % 16) || badDigit n (v / 16)) := by
  simp [badDigit, span, span_succ_map, List.any_map, Function.comp_def, nibble_succ, nibble_zero]

theorem badDigit_eq_not_isBcd (n : Nat) : ∀ v, badDigit n v = !isBcd n v := by
  induction n with
  | zero => exact fun _ => rfl
  | succ n ih =>
    intro v
    rw [badDigit_succ, isBcd, ih, Bool.not_and, ← decide_not, decide_eq_decide.mpr (by omega : (9 < v % 16) ↔ ¬ v % 16 ≤ 9)]

theorem isBcd_succ {n v : Nat} : isBcd (n + 1) v = true ↔ v % 16 ≤ 9 ∧ isBcd n (v / 16) = true := by simp [isBcd]

theorem ofBcd_lt (n : Nat) : ∀ {v}, isBcd n v = true → ofBcd n v < 10 ^ n := by
  induction n with
  | zero => intro _ _; simp [ofBcd]
  | succ n ih =>
    intro v hv
    obtain ⟨hlow, hhigh⟩ := isBcd_succ.mp hv
    have := ih hhigh
    rw [ofBcd, Nat.pow_succ]
    omega

/-- A digit put below `n` digits. -/
theorem isBcd_cons {n t r : Nat} (ht : t ≤ 9) (hr : isBcd n r = true) : isBcd (n + 1) (t + 16 * r) = true :=
  isBcd_succ.mpr ⟨by omega, by rwa [show (t + 16 * r) / 16 = r by omega]⟩

theorem ofBcd_cons {t : Nat} (ht : t ≤ 9) (n r : Nat) : ofBcd (n + 1) (t + 16 * r) = t + 10 * ofBcd n r := by
  rw [ofBcd, show (t + 16 * r) / 16 = r by omega, show (t + 16 * r) % 16 = t by omega]

/-! ### Binary to decimal and back (R271) -/

theorem toBcd_spec (n : Nat) : ∀ {s}, s < 10 ^ n → isBcd n (toBcd n s) = true ∧ toBcd n s < 16 ^ n ∧ ofBcd n (toBcd n s) = s := by
  induction n with
  | zero => intro s hs; simp only [toBcd, isBcd, ofBcd]; simpa [eq_comm] using hs
  | succ n ih =>
    intro s hs
    rw [Nat.pow_succ] at hs
    obtain ⟨hbcd, hlt, hval⟩ := ih (show s / 10 < 10 ^ n by omega)
    have hdigit : s % 10 ≤ 9 := by omega
    refine ⟨isBcd_cons hdigit hbcd, ?_, ?_⟩
    · rw [toBcd, Nat.pow_succ]
      omega
    · rw [toBcd, ofBcd_cons hdigit, hval]
      omega

theorem toBcd_ofBcd (n : Nat) : ∀ {v}, v < 16 ^ n → isBcd n v = true → toBcd n (ofBcd n v) = v := by
  induction n with
  | zero => intro v hv _; simp only [toBcd]; simpa [eq_comm] using hv
  | succ n ih =>
    intro v hv hbcd
    rw [Nat.pow_succ] at hv
    obtain ⟨hlow, hhigh⟩ := isBcd_succ.mp hbcd
    have hrest := ih (show v / 16 < 16 ^ n by omega) hhigh
    rw [ofBcd, toBcd, show (v % 16 + 10 * ofBcd n (v / 16)) / 10 = ofBcd n (v / 16) by omega, hrest]
    omega

/-! ### The DEC form (R269) -/

theorem add_pow_succ (b x y i : Nat) : x * b ^ (i + 1) + b * y = b * (x * b ^ i + y) := by
  rw [Nat.pow_succ', Nat.mul_left_comm, Nat.mul_add]

theorem decDigits_shift (sub : Bool) (a b n : Nat) : ∀ i c, decDigits sub a b (i + 1) c n =
    (16 * (decDigits sub (a / 16) (b / 16) i c n).1, (decDigits sub (a / 16) (b / 16) i c n).2.1, 2 * (decDigits sub (a / 16) (b / 16) i c n).2.2) := by
  induction n with
  | zero => exact fun _ _ => rfl
  | succ n ih =>
    intro i c
    simp only [decDigits, ih, nibble_succ, Prod.mk.injEq, true_and]
    exact ⟨add_pow_succ .., add_pow_succ ..⟩

/-- The digits of a sum or difference, the lowest first. -/
theorem decDigits_succ (sub : Bool) (a b c n : Nat) :
    let t := decDigit sub (a % 16) (b % 16) c
    let q := decDigits sub (a / 16) (b / 16) 0 t.2 n
    decDigits sub a b 0 c (n + 1) = (t.1 + 16 * q.1, q.2.1, t.2 + 2 * q.2.2) := by
  simp [decDigits, decDigits_shift, nibble_zero]

theorem decDigit_add {x y c : Nat} (hx : x ≤ 9) (hy : y ≤ 9) (hc : c ≤ 1) :
    (decDigit false x y c).1 ≤ 9 ∧ (decDigit false x y c).2 ≤ 1 ∧ (decDigit false x y c).1 + 10 * (decDigit false x y c).2 = x + y + c := by
  rw [decDigit, if_neg Bool.false_ne_true]
  split <;> dsimp only <;> omega

theorem decDigit_sub {x y c : Nat} (hx : x ≤ 9) (hy : y ≤ 9) (hc : c ≤ 1) :
    (decDigit true x y c).1 ≤ 9 ∧ (decDigit true x y c).2 ≤ 1 ∧ (decDigit true x y c).1 + (y + c) = x + 10 * (decDigit true x y c).2 := by
  rw [decDigit, if_pos rfl]
  split <;> dsimp only <;> omega

theorem decDigits_add (n : Nat) : ∀ {a b c}, isBcd n a = true → isBcd n b = true → c ≤ 1 →
    isBcd n (decDigits false a b 0 c n).1 = true ∧ (decDigits false a b 0 c n).2.1 ≤ 1 ∧
    ofBcd n (decDigits false a b 0 c n).1 + (decDigits false a b 0 c n).2.1 * 10 ^ n = ofBcd n a + ofBcd n b + c := by
  induction n with
  | zero => intro a b c _ _ hc; exact ⟨rfl, hc, by simp [decDigits, ofBcd]⟩
  | succ n ih =>
    intro a b c ha hb hc
    obtain ⟨hx, ha⟩ := isBcd_succ.mp ha
    obtain ⟨hy, hb⟩ := isBcd_succ.mp hb
    obtain ⟨hdigit, hcarry, hval⟩ := decDigit_add hx hy hc
    obtain ⟨hbcd, hout, hrest⟩ := ih ha hb hcarry
    rw [decDigits_succ]
    refine ⟨isBcd_cons hdigit hbcd, hout, ?_⟩
    rw [ofBcd_cons hdigit, ofBcd, ofBcd]
    have htop : ∀ o, o * 10 ^ (n + 1) = 10 * (o * 10 ^ n) := fun o => by rw [Nat.pow_succ', Nat.mul_left_comm]
    rw [htop]
    dsimp only
    omega

theorem decDigits_sub (n : Nat) : ∀ {a b c}, isBcd n a = true → isBcd n b = true → c ≤ 1 →
    isBcd n (decDigits true a b 0 c n).1 = true ∧ (decDigits true a b 0 c n).2.1 ≤ 1 ∧
    ofBcd n (decDigits true a b 0 c n).1 + (ofBcd n b + c) = ofBcd n a + (decDigits true a b 0 c n).2.1 * 10 ^ n := by
  induction n with
  | zero => intro a b c _ _ hc; exact ⟨rfl, hc, by simp [decDigits, ofBcd]⟩
  | succ n ih =>
    intro a b c ha hb hc
    obtain ⟨hx, ha⟩ := isBcd_succ.mp ha
    obtain ⟨hy, hb⟩ := isBcd_succ.mp hb
    obtain ⟨hdigit, hborrow, hval⟩ := decDigit_sub hx hy hc
    obtain ⟨hbcd, hout, hrest⟩ := ih ha hb hborrow
    rw [decDigits_succ]
    refine ⟨isBcd_cons hdigit hbcd, hout, ?_⟩
    rw [ofBcd_cons hdigit, ofBcd, ofBcd]
    have htop : ∀ o, o * 10 ^ (n + 1) = 10 * (o * 10 ^ n) := fun o => by rw [Nat.pow_succ', Nat.mul_left_comm]
    rw [htop]
    dsimp only
    omega

section
variable {n a b cin : Nat}

theorem decOp_v (sub : Bool) : (decOp sub n a b cin).v = true ↔ isBcd n a = false ∨ isBcd n b = false := by
  simp [decOp, badDigit_eq_not_isBcd]

variable (ha : isBcd n a = true) (hb : isBcd n b = true) (hc : cin ≤ 1)
include ha hb

theorem decOp_v_valid (sub : Bool) : (decOp sub n a b cin).v = false := by simp [decOp, badDigit_eq_not_isBcd, ha, hb]

include hc

theorem decOp_add : isBcd n (decOp false n a b cin).r = true ∧ ofBcd n (decOp false n a b cin).r = (ofBcd n a + ofBcd n b + cin) % 10 ^ n ∧
    ((decOp false n a b cin).c = true ↔ 10 ^ n ≤ ofBcd n a + ofBcd n b + cin) := by
  obtain ⟨hbcd, hout, hval⟩ := decDigits_add n ha hb hc
  have hlt := ofBcd_lt n hbcd
  refine ⟨hbcd, ?_, ?_⟩ <;> simp only [decOp, decide_eq_true_eq, ← hval]
  · rw [Nat.add_mul_mod_self_right, Nat.mod_eq_of_lt hlt]
  · obtain h | h := Nat.le_one_iff_eq_zero_or_eq_one.mp hout <;> simp [h, hlt]

theorem decOp_sub : isBcd n (decOp true n a b cin).r = true ∧ ofBcd n (decOp true n a b cin).r = (ofBcd n a + 10 ^ n - (ofBcd n b + cin)) % 10 ^ n ∧
    ((decOp true n a b cin).c = true ↔ ofBcd n a < ofBcd n b + cin) := by
  obtain ⟨hbcd, hout, hval⟩ := decDigits_sub n ha hb hc
  have hlt := ofBcd_lt n hbcd
  refine ⟨hbcd, ?_, ?_⟩ <;> simp only [decOp, decide_eq_true_eq]
  · obtain h | h := Nat.le_one_iff_eq_zero_or_eq_one.mp hout
    · rw [show ofBcd n a + 10 ^ n - (ofBcd n b + cin) = ofBcd n (decDigits true a b 0 cin n).1 + 10 ^ n by rw [h] at hval; omega,
        Nat.add_mod_right, Nat.mod_eq_of_lt hlt]
    · rw [show ofBcd n a + 10 ^ n - (ofBcd n b + cin) = ofBcd n (decDigits true a b 0 cin n).1 by rw [h] at hval; omega, Nat.mod_eq_of_lt hlt]
  · have hvala := ofBcd_lt n ha
    obtain h | h := Nat.le_one_iff_eq_zero_or_eq_one.mp hout <;> rw [h] at hval ⊢ <;> omega

end

/-! ### The adjusting instructions (R270) -/

theorem bitsOf_eq_digitsVal (n : Nat) (f : Nat → Bool) : bitsOf n f = digitsVal 2 (fun i => (f i).toNat) n := by
  rw [bitsOf, foldl_add_eq_sum, Nat.zero_add, digitsVal]
  congr 2
  funext i
  cases f i <;> simp

theorem testBit_digitsVal (n : Nat) : ∀ (f : Nat → Bool) {i : Nat}, i < n → (digitsVal 2 (fun i => (f i).toNat) n).testBit i = f i := by
  induction n with
  | zero => exact fun f i hi => absurd hi (Nat.not_lt_zero i)
  | succ n ih =>
    intro f i hi
    have hlow := Bool.toNat_lt (f 0)
    rw [digitsVal_succ]
    cases i with
    | zero =>
      rw [Nat.testBit_zero]
      cases f 0 <;> simp
    | succ i =>
      rw [Nat.testBit_succ, show ((f 0).toNat + 2 * digitsVal 2 (fun i => (f (i + 1)).toNat) n) / 2 = digitsVal 2 (fun i => (f (i + 1)).toNat) n by omega]
      exact ih (fun i => f (i + 1)) (Nat.lt_of_succ_lt_succ hi)

theorem testBit_bitsOf {n i : Nat} (f : Nat → Bool) (hi : i < n) : (bitsOf n f).testBit i = f i := by
  rw [bitsOf_eq_digitsVal, testBit_digitsVal n f hi]

theorem dajaDigits_shift (d hc n : Nat) : ∀ i c, dajaDigits d hc (i + 1) c n =
    (16 * (dajaDigits (d / 16) (hc / 2) i c n).1, (dajaDigits (d / 16) (hc / 2) i c n).2) := by
  induction n with
  | zero => exact fun _ _ => rfl
  | succ n ih =>
    intro i c
    simp only [dajaDigits, ih, nibble_succ, Nat.testBit_succ, Prod.mk.injEq, and_true]
    exact add_pow_succ ..

/-- One digit of DAJA: its value and the carry it gives. -/
def dajaDigit (half : Bool) (x : Nat) : Nat × Nat := if half then ((x + 6) % 16, 0) else if 9 < x then ((x - 10) % 16, 1) else (x % 16, 0)

theorem dajaDigits_succ (d hc c n : Nat) :
    let t := dajaDigit (hc.testBit 0) (d % 16 + c)
    let q := dajaDigits (d / 16) (hc / 2) 0 t.2 n
    dajaDigits d hc 0 c (n + 1) = (t.1 + 16 * q.1, q.2) := by
  simp [dajaDigits, dajaDigits_shift, nibble_zero, dajaDigit]

theorem dajaDigits_mod (n : Nat) : ∀ d hc c, dajaDigits (d % 16 ^ n) hc 0 c n = dajaDigits d hc 0 c n := by
  induction n with
  | zero => exact fun _ _ _ => rfl
  | succ n ih =>
    intro d hc c
    simp only [dajaDigits_succ, Nat.pow_succ', Nat.mod_mul_right_mod, Nat.mod_mul_right_div_self, ih]

/-- Where the carry out of a digit is split in the binary one, which the sum holds, and the one DAJA carries on, the digit is that of the DEC form. -/
theorem dajaDigit_add {x y b c : Nat} (hx : x ≤ 9) (hy : y ≤ 9) (hbc : b + c ≤ 1) :
    let t := dajaDigit (decide (16 ≤ x + y + b)) ((x + y + b) % 16 + c)
    let u := decDigit false x y (b + c)
    t.1 = u.1 ∧ (x + y + b) / 16 + t.2 = u.2 := by
  simp only [dajaDigit, decDigit, Bool.false_eq_true, if_false, decide_eq_true_eq]
  split <;> split <;> (try split) <;> dsimp only <;> omega

/-- The carries out of the digits of a binary sum, from the lowest on. -/
def HalfCarries (n a b c hc : Nat) : Prop := ∀ i < n, hc.testBit i = decide (16 ^ (i + 1) ≤ a % 16 ^ (i + 1) + b % 16 ^ (i + 1) + c)

theorem carry_succ (a b c p : Nat) : 16 * p ≤ a % (16 * p) + b % (16 * p) + c ↔
    p ≤ (a / 16) % p + (b / 16) % p + (a % 16 + b % 16 + c) / 16 := by
  rw [Nat.mod_mul (x := a), Nat.mod_mul (x := b)]
  omega

theorem HalfCarries.tail {n a b c hc : Nat} (h : HalfCarries (n + 1) a b c hc) :
    HalfCarries n (a / 16) (b / 16) ((a % 16 + b % 16 + c) / 16) (hc / 2) := fun i hi => by
  rw [← Nat.testBit_succ, h (i + 1) (Nat.succ_lt_succ hi), decide_eq_decide, Nat.pow_succ' (n := i + 1), carry_succ]

theorem dajaDigits_add (n : Nat) : ∀ {a b bc c hc}, isBcd n a = true → isBcd n b = true → bc + c ≤ 1 → HalfCarries n a b bc hc →
    (dajaDigits (a + b + bc) hc 0 c n).1 = (decDigits false a b 0 (bc + c) n).1 ∧
    (a % 16 ^ n + b % 16 ^ n + bc) / 16 ^ n + (dajaDigits (a + b + bc) hc 0 c n).2 = (decDigits false a b 0 (bc + c) n).2.1 := by
  induction n with
  | zero => intro a b bc c hc _ _ _ _; simp [dajaDigits, decDigits, Nat.mod_one]
  | succ n ih =>
    intro a b bc c hc ha hb hbc hhc
    obtain ⟨hx, ha⟩ := isBcd_succ.mp ha
    obtain ⟨hy, hb⟩ := isBcd_succ.mp hb
    have hhalf : hc.testBit 0 = decide (16 ≤ a % 16 + b % 16 + bc) := hhc 0 (Nat.succ_pos n)
    obtain ⟨hdigit, hcarry⟩ := dajaDigit_add hx hy hbc
    obtain ⟨-, hle, -⟩ := decDigit_add hx hy hbc
    have hquot : (a + b + bc) / 16 = a / 16 + b / 16 + (a % 16 + b % 16 + bc) / 16 := by omega
    have hmod : (a + b + bc) % 16 = (a % 16 + b % 16 + bc) % 16 := by omega
    obtain ⟨hrest, hout⟩ := ih ha hb (Nat.le_trans (Nat.le_of_eq hcarry) hle) hhc.tail
    have htop : (a % 16 ^ (n + 1) + b % 16 ^ (n + 1) + bc) / 16 ^ (n + 1) = ((a / 16) % 16 ^ n + (b / 16) % 16 ^ n + (a % 16 + b % 16 + bc) / 16) / 16 ^ n := by
      rw [Nat.pow_succ', Nat.mod_mul (x := a), Nat.mod_mul (x := b), ← Nat.div_div_eq_div_mul]
      congr 1
      omega
    rw [hcarry] at hrest hout
    simp only [dajaDigits_succ, decDigits_succ, hhalf, hmod, hdigit, hquot, hrest, htop, hout, and_self]

/-- The digits of DAJS. -/
def dajsDigits (d hc n : Nat) : Nat := digitsVal 16 (fun i => if hc.testBit i then (nibble d i + 10) % 16 else nibble d i) n

theorem dajsVal_eq_dajsDigits (d hc : Nat) : dajsVal d hc = dajsDigits d hc 8 := by
  rw [dajsVal, foldl_add_eq_sum, Nat.zero_add, dajsDigits, digitsVal]

theorem dajsDigits_succ (d hc n : Nat) :
    dajsDigits d hc (n + 1) = (if hc.testBit 0 then (d % 16 + 10) % 16 else d % 16) + 16 * dajsDigits (d / 16) (hc / 2) n := by
  simp only [dajsDigits, digitsVal_succ, nibble_zero, nibble_succ, Nat.testBit_succ]

/-- The borrows out of the digits of a binary difference, from the lowest on. -/
def HalfBorrows (n a b c hc : Nat) : Prop := ∀ i < n, hc.testBit i = decide (a % 16 ^ (i + 1) < b % 16 ^ (i + 1) + c)

/-- The borrow out of a digit is that of the DEC form, and so is the adjusted digit. -/
theorem dajsDigit_sub {r x y c : Nat} (hx : x ≤ 9) (hy : y ≤ 9) (hc : c ≤ 1) (hr : (r % 16 + y + c) % 16 = x % 16) :
    let t := decDigit true x y c
    (if decide (x < y + c) then (r % 16 + 10) % 16 else r % 16) = t.1 ∧ (r % 16 + y + c) / 16 = t.2 ∧ (t.2 = 1 ↔ x < y + c) := by
  simp only [decDigit, if_pos, decide_eq_true_eq]
  split <;> dsimp only <;> omega

theorem borrow_succ {a b c c' p : Nat} (hc : c' ≤ 1) (h : c' = 1 ↔ a % 16 < b % 16 + c) (hcin : c ≤ 1) :
    a % (16 * p) < b % (16 * p) + c ↔ (a / 16) % p < (b / 16) % p + c' := by
  rw [Nat.mod_mul (x := a), Nat.mod_mul (x := b)]
  omega

theorem dajsDigits_sub (n : Nat) : ∀ {r a b c hc}, isBcd n a = true → isBcd n b = true → c ≤ 1 → (r + b + c) % 16 ^ n = a % 16 ^ n → HalfBorrows n a b c hc →
    dajsDigits r hc n = (decDigits true a b 0 c n).1 ∧ ((decDigits true a b 0 c n).2.1 ≠ 0 ↔ a % 16 ^ n < b % 16 ^ n + c) := by
  induction n with
  | zero => intro r a b c hc _ _ _ _ _; simp [dajsDigits, digitsVal, span, decDigits, Nat.mod_one, Nat.pos_iff_ne_zero]
  | succ n ih =>
    intro r a b c hc ha hb hcin hr hhc
    obtain ⟨hx, ha⟩ := isBcd_succ.mp ha
    obtain ⟨hy, hb⟩ := isBcd_succ.mp hb
    rw [Nat.pow_succ'] at hr
    have hlow : (r % 16 + b % 16 + c) % 16 = a % 16 % 16 := by
      have := congrArg (· % 16) hr
      simp only [Nat.mod_mul_right_mod] at this
      omega
    have hhigh := congrArg (· / 16) hr
    simp only [Nat.mod_mul_right_div_self] at hhigh
    obtain ⟨hdigit, hquot, hborrow⟩ := dajsDigit_sub hx hy hcin hlow
    obtain ⟨-, hle, -⟩ := decDigit_sub hx hy hcin
    rw [show (r + b + c) / 16 = r / 16 + b / 16 + (r % 16 + b % 16 + c) / 16 by omega, hquot] at hhigh
    have htail : HalfBorrows n (a / 16) (b / 16) (decDigit true (a % 16) (b % 16) c).2 (hc / 2) := fun i hi => by
      rw [← Nat.testBit_succ, hhc (i + 1) (Nat.succ_lt_succ hi), decide_eq_decide, Nat.pow_succ' (n := i + 1), borrow_succ hle hborrow hcin]
    obtain ⟨hrest, hout⟩ := ih ha hb hle hhigh htail
    have hhalf : hc.testBit 0 = decide (a % 16 < b % 16 + c) := hhc 0 (Nat.succ_pos n)
    rw [dajsDigits_succ, decDigits_succ, hhalf, hdigit, hrest, Nat.pow_succ', borrow_succ hle hborrow hcin]
    exact ⟨rfl, hout⟩

theorem decOp_c (sub : Bool) (n a b cin : Nat) : (decOp sub n a b cin).c = true ↔ (decDigits sub a b 0 cin n).2.1 ≠ 0 := decide_eq_true_iff

theorem addBin_c (w a b cin : Nat) : (addBin w a b cin).c = true ↔ 2 ^ w ≤ a + b + cin := decide_eq_true_iff

section
variable {a b : Nat} (ha : a < 2 ^ 32) (hb : b < 2 ^ 32) (hbcda : isBcd 8 a = true) (hbcdb : isBcd 8 b = true)
include ha hb hbcda hbcdb

theorem daja_eq_decOp :
    (dajaDigits (addBin 32 a b 0).r (addBin 32 a b 0).hc 0 0 8).1 = (decOp false 8 a b 0).r ∧
    ((addBin 32 a b 0).c || decide ((dajaDigits (addBin 32 a b 0).r (addBin 32 a b 0).hc 0 0 8).2 ≠ 0)) = (decOp false 8 a b 0).c := by
  obtain ⟨hsum, hcarry⟩ := dajaDigits_add 8 (bc := 0) (c := 0) (hc := (addBin 32 a b 0).hc) hbcda hbcdb (by omega) fun i hi => testBit_bitsOf _ hi
  have hmod : ∀ hc, dajaDigits (addBin 32 a b 0).r hc 0 0 8 = dajaDigits (a + b + 0) hc 0 0 8 := fun hc => dajaDigits_mod 8 _ _ _
  rw [hmod]
  refine ⟨hsum, ?_⟩
  rw [Nat.mod_eq_of_lt (by omega : a < 16 ^ 8), Nat.mod_eq_of_lt (by omega : b < 16 ^ 8)] at hcarry
  rw [Nat.zero_add] at hcarry
  rw [Bool.eq_iff_iff, Bool.or_eq_true, decide_eq_true_iff, decOp_c, ← hcarry, addBin_c]
  omega

theorem dajs_eq_decOp : dajsVal (subBin 32 a b 0).r (subBin 32 a b 0).hc = (decOp true 8 a b 0).r ∧ (subBin 32 a b 0).c = (decOp true 8 a b 0).c := by
  have hback : ((subBin 32 a b 0).r + b + 0) % 16 ^ 8 = a % 16 ^ 8 := by simp only [subBin]; omega
  obtain ⟨hdiff, hborrow⟩ := dajsDigits_sub 8 (hc := (subBin 32 a b 0).hc) hbcda hbcdb (Nat.zero_le 1) hback fun i hi => testBit_bitsOf _ hi
  rw [Nat.mod_eq_of_lt (by omega : a < 16 ^ 8), Nat.mod_eq_of_lt (by omega : b < 16 ^ 8)] at hborrow
  refine ⟨(dajsVal_eq_dajsDigits _ _).trans hdiff, ?_⟩
  simp only [subBin, decOp, decide_eq_decide]
  exact hborrow.symm

end

/-- Settles O41, digit by digit: each digit's carry is the next one's carry in, and the adjusting instructions find it in HC or carry it on. -/
theorem decimalTables : Obligations.DecimalTables := by
  unfold Obligations.DecimalTables
  refine ⟨fun n a b cin hcin => ⟨fun ha hb => ?_, fun sub => decOp_v sub⟩, fun a b ha hb hbcda hbcdb => ?_, fun s hs => ?_, fun v hv => ⟨?_, fun hbcd => ?_⟩⟩
  · obtain ⟨hbcd, hval, hcarry⟩ := decOp_add ha hb hcin
    obtain ⟨hbcd', hval', hborrow⟩ := decOp_sub ha hb hcin
    exact ⟨hbcd, hval, hcarry, decOp_v_valid ha hb false, hbcd', hval', hborrow, decOp_v_valid ha hb true⟩
  · exact ⟨daja_eq_decOp ha hb hbcda hbcdb, dajs_eq_decOp ha hb hbcda hbcdb⟩
  · obtain ⟨hbcd, hlt, hval⟩ := toBcd_spec 8 (s := s) hs
    exact ⟨hbcd, hlt, by rw [decValue_eq_digitsVal, digitsVal_nibble, hval]⟩
  · rw [badDigit_eq_not_isBcd, Bool.not_eq_false']
  · rw [decValue_eq_digitsVal, digitsVal_nibble]
    exact ⟨ofBcd_lt 8 hbcd, toBcd_ofBcd 8 hv hbcd⟩

end Sys2Proof.Machine
end

section
/-! Proofs for the calendar (chapter 18), the contactless frames (chapter 21) and a core's words (chapter 22): what survives its round trip. -/

namespace Sys2Proof.Machine

/-! ### Frames of the contactless link (R393) -/

theorem crcByte16_lt {c : Nat} (hc : c < 2 ^ 16) (b : Byte) : crcByte16 c b < 2 ^ 16 := by
  refine List.foldlRecOn (motive := fun x => x < 2 ^ 16) (span 0 8) _ (Nat.xor_lt_two_pow hc (by have := b.isLt; omega)) fun x hx i _ => ?_
  split
  · exact Nat.xor_lt_two_pow (by omega) (by omega)
  · omega

theorem crcNfc_lt (l : List Byte) : crcNfc l < 2 ^ 16 :=
  Nat.xor_lt_two_pow (List.foldlRecOn (motive := fun x => x < 2 ^ 16) l _ (by omega) fun _ hx b _ => crcByte16_lt hx b) (by omega)

theorem leVal_leBytes (n : Nat) : ∀ {v}, v < 256 ^ n → leVal (leBytes n v) = v := by
  induction n with
  | zero => intro v hv; simpa [leBytes, leVal, eq_comm] using hv
  | succ n ih =>
    intro v hv
    rw [Nat.pow_succ'] at hv
    rw [leBytes, leVal, ih (by omega), BitVec.toNat_ofNat]
    omega

theorem nfcOpen_nfcSeal {l : List Byte} (hl : l ≠ []) : nfcOpen (nfcSeal l) = some l := by
  have hlen : (nfcSeal l).length - 2 = l.length := by simp [nfcSeal, length_leBytes]
  have hpos := List.length_pos_iff.mpr hl
  rw [nfcOpen, hlen, nfcSeal, List.drop_left, List.take_left, leVal_leBytes 2 (crcNfc_lt l), if_pos]
  exact ⟨by rw [List.length_append, length_leBytes]; omega, rfl⟩

/-! ### The words of a core (R415) -/

theorem u8_append (k : Nat) (l m : List Byte) (o : Nat) (h : l.length = k) : u8 (l ++ m) (k + o) = u8 m o := by
  rw [u8, List.getD_eq_getElem?_getD, List.getElem?_append_right (by omega), h, Nat.add_sub_cancel_left, ← List.getD_eq_getElem?_getD, u8]

theorem u32_append (l m : List Byte) (o : Nat) (h : l.length = 4) : u32 (l ++ m) (4 + o) = u32 m o := by
  simp only [u32, u16, Nat.add_assoc, u8_append 4 l m _ h]

theorem u32_leBytes (w : Word) (m : List Byte) : u32 (leBytes 4 w.toNat ++ m) 0 = w.toNat := by
  have := w.isLt
  simp [u32, u16, u8, leBytes]
  omega

theorem u32_flatMap (l : List Word) : ∀ i (h : i < l.length), u32 (l.flatMap fun w => leBytes 4 w.toNat) (4 * i) = l[i].toNat := by
  induction l with
  | nil => exact fun i h => absurd h (Nat.not_lt_zero i)
  | cons w l ih =>
    intro i h
    rw [List.flatMap_cons]
    cases i with
    | zero => exact u32_leBytes w _
    | succ i =>
      rw [Nat.mul_succ, Nat.add_comm, u32_append _ _ _ (length_leBytes 4 _), ih i (Nat.lt_of_succ_lt_succ h), List.getElem_cons_succ]

theorem CoreSt.length_words (x : CoreSt) : x.words.length = 18 := by simp [CoreSt.words]

theorem CoreSt.ofWords_words {x : CoreSt} (hfl : x.fl &&& 0xFFFF = x.fl) : x.ofWords (x.words.flatMap fun w => leBytes 4 w.toNat) = x := by
  have hword : ∀ i (h : i < 18), u32 (x.words.flatMap fun w => leBytes 4 w.toNat) (4 * i) = (x.words[i]'(by rwa [x.length_words])).toNat := fun i h =>
    u32_flatMap x.words i (by rwa [x.length_words])
  have hg : (Vector.ofFn fun i : Fin 16 => BitVec.ofNat 32 (u32 (x.words.flatMap fun w => leBytes 4 w.toNat) (4 * i))) = x.g := by
    ext1 i hi
    rw [Vector.getElem_ofFn, hword i (by omega), BitVec.ofNat_toNat, BitVec.setWidth_eq]
    simp [CoreSt.words, hi]
  have hpc : BitVec.ofNat 32 (u32 (x.words.flatMap fun w => leBytes 4 w.toNat) 64) = x.pc := by
    rw [hword 16 (by omega), BitVec.ofNat_toNat, BitVec.setWidth_eq]
    simp [CoreSt.words]
  have hflw : BitVec.ofNat 32 (u32 (x.words.flatMap fun w => leBytes 4 w.toNat) 68) = x.fl := by
    rw [hword 17 (by omega), BitVec.ofNat_toNat, BitVec.setWidth_eq]
    simp [CoreSt.words]
  rw [CoreSt.ofWords, hg, hpc, hflw, hfl]

theorem CoreSt.length_bytes (x : CoreSt) : (x.words.flatMap fun w => leBytes 4 w.toNat).length = 72 := by
  rw [length_flatMap_const fun (w : Word) => length_leBytes 4 w.toNat, x.length_words]

/-! ### Days and dates (R361) -/

theorem daysToYear_eq (y : Nat) : daysToYear y = 365 * (y - 2020) + ((y - 1) / 4 - (y - 1) / 100 + (y - 1) / 400) - 489 := by
  unfold daysToYear
  dsimp only

theorem daysToYear_succ {y : Nat} (hy : 2020 ≤ y) : daysToYear (y + 1) = daysToYear y + if leapYear y then 366 else 365 := by
  obtain ⟨n, rfl⟩ := Nat.exists_eq_add_of_le' (show 1 ≤ y by omega)
  rw [daysToYear_eq, daysToYear_eq, Nat.add_sub_cancel, Nat.add_sub_cancel, Nat.succ_div, Nat.succ_div, Nat.succ_div]
  simp only [leapYear, Bool.and_eq_true, Bool.or_eq_true, decide_eq_true_eq]
  repeat' split
  all_goals omega

theorem daysToYear_mono {y z : Nat} (hy : 2020 ≤ y) (h : y ≤ z) : daysToYear y ≤ daysToYear z := by
  induction h with
  | refl => exact Nat.le_refl _
  | step hz ih => rw [Nat.succ_eq_add_one, daysToYear_succ (Nat.le_trans hy hz)]; omega

/-- The first estimate of a day's year, and the year that the two corrections make of an estimate. -/
def yearGuess (n : Nat) : Nat := 2020 + n * 400 / 146097
def yearFix (n e : Nat) : Nat := if daysToYear (e + 1) ≤ n then e + 1 else if n < daysToYear e then e - 1 else e

theorem dateOf_eq (n : Nat) : dateOf n = (yearFix n (yearGuess n), monthOf (yearFix n (yearGuess n)) 11 1 (n - daysToYear (yearFix n (yearGuess n)))) := by
  unfold dateOf yearFix yearGuess
  rfl

section
variable {y n : Nat} (hy : 2020 ≤ y) (hy' : y ≤ 2399) (hn : daysToYear y ≤ n) (hn' : n < daysToYear (y + 1))
include hy hn hn'

include hy' in
theorem yearGuess_near : y ≤ yearGuess n + 1 ∧ yearGuess n ≤ y + 1 := by
  rw [daysToYear_eq] at hn hn'
  unfold yearGuess
  omega

theorem yearFix_eq {e : Nat} (hlow : y ≤ e + 1) (hhigh : e ≤ y + 1) : yearFix n e = y := by
  unfold yearFix
  obtain he | rfl | rfl : e + 1 = y ∨ e = y ∨ e = y + 1 := by omega
  · rw [he, if_pos hn]
  · rw [if_neg (by omega), if_neg (by omega)]
  · have : daysToYear (y + 1) ≤ daysToYear (y + 1 + 1) := daysToYear_mono (Nat.le_trans hy (Nat.le_succ y)) (Nat.le_succ (y + 1))
    rw [if_neg (by omega), if_pos hn', Nat.add_sub_cancel]

include hy' in
theorem dateOf_year : dateOf n = (y, monthOf y 11 1 (n - daysToYear y)) := by
  obtain ⟨hlow, hhigh⟩ := yearGuess_near hy hy' hn hn'
  rw [dateOf_eq, yearFix_eq hy hn hn' hlow hhigh]

end

/-- The days of the months `m` to `m + k - 1`. -/
def monthsDays (y m k : Nat) : Nat := ((span m k).map (monthDays y)).sum

theorem monthsDays_succ (y m k : Nat) : monthsDays y m (k + 1) = monthDays y m + monthsDays y (m + 1) k := rfl

theorem monthOf_monthsDays {y : Nat} (n : Nat) : ∀ {k m dd}, k ≤ n → dd < monthDays y (m + k) → monthOf y n m (monthsDays y m k + dd) = (m + k, dd + 1) := by
  induction n with
  | zero => intro k m dd hk _; obtain rfl := Nat.le_zero.mp hk; simp [monthOf, monthsDays, span]
  | succ n ih =>
    intro k m dd hk hdd
    cases k with
    | zero => simp only [monthOf, monthsDays, span, List.map_nil, List.sum_nil, Nat.zero_add, Nat.add_zero] at hdd ⊢; rw [if_pos hdd]
    | succ k =>
      rw [monthOf, if_neg (by rw [monthsDays_succ]; omega), monthsDays_succ,
        show monthDays y m + monthsDays y (m + 1) k + dd - monthDays y m = monthsDays y (m + 1) k + dd by omega,
        ih (Nat.le_of_succ_le_succ hk) (by rwa [Nat.add_right_comm, Nat.add_assoc]), Nat.add_right_comm, Nat.add_assoc]

theorem monthsDays_year (y : Nat) : monthsDays y 1 12 = if leapYear y then 366 else 365 := by
  simp only [monthsDays, span, List.map_cons, List.map_nil, monthDays]
  split <;> rfl

theorem monthsDays_lt {y m : Nat} (hm : 1 ≤ m) (hm' : m ≤ 12) : monthsDays y 1 (m - 1) + monthDays y m ≤ monthsDays y 1 12 := by
  obtain ⟨k, rfl⟩ := Nat.exists_eq_add_of_le' hm
  obtain rfl | rfl | rfl | rfl | rfl | rfl | rfl | rfl | rfl | rfl | rfl | rfl : k = 0 ∨ k = 1 ∨ k = 2 ∨ k = 3 ∨ k = 4 ∨ k = 5 ∨ k = 6 ∨ k = 7 ∨ k = 8 ∨
      k = 9 ∨ k = 10 ∨ k = 11 := by omega
  all_goals simp [monthsDays, span] <;> omega

theorem dayNo_eq (y m dd : Nat) : dayNo y m dd = daysToYear y + monthsDays y 1 (m - 1) + (dd - 1) := by
  rw [dayNo, ← List.sum_eq_foldl, monthsDays]

section
variable {y m dd : Nat} (hy : 2020 ≤ y) (hm : 1 ≤ m) (hm' : m ≤ 12) (hd : 1 ≤ dd) (hd' : dd ≤ monthDays y m)
include hy hm hm' hd hd'

theorem dayNo_lt : dayNo y m dd < daysToYear (y + 1) := by
  have := monthsDays_lt (y := y) hm hm'
  rw [dayNo_eq, daysToYear_succ hy, ← monthsDays_year]
  omega

theorem dateOf_dayNo (hy' : y ≤ 2399) : dateOf (dayNo y m dd) = (y, m, dd) := by
  have hmonth := monthOf_monthsDays (y := y) 11 (k := m - 1) (m := 1) (dd := dd - 1) (by omega) (by rw [show 1 + (m - 1) = m by omega]; omega)
  rw [dateOf_year hy hy' (by rw [dayNo_eq]; omega) (dayNo_lt hy hm hm' hd hd'),
    show dayNo y m dd - daysToYear y = monthsDays y 1 (m - 1) + (dd - 1) by rw [dayNo_eq]; omega, hmonth, show 1 + (m - 1) = m by omega,
    show dd - 1 + 1 = dd by omega]

end

/-! ### Words of a date and of a time -/

theorem isBcd_iff {n : Nat} : ∀ {v}, isBcd n v = true ↔ ∀ i < n, nibble v i ≤ 9 := by
  induction n with
  | zero => intro v; simp [isBcd]
  | succ n ih =>
    intro v
    rw [isBcd_succ, ih, Nat.forall_lt_succ_left, nibble_zero]
    simp only [nibble_succ]

theorem nibble_mod {m i : Nat} (hi : i < m) (x : Nat) : nibble (x % 16 ^ m) i = nibble x i := by
  obtain ⟨k, rfl⟩ : ∃ k, m = i + (k + 1) := ⟨m - i - 1, by omega⟩
  rw [nibble, Nat.pow_add, Nat.mod_mul_right_div_self, Nat.mod_mod_of_dvd _ ⟨16 ^ k, Nat.pow_succ'⟩, nibble]

theorem nibble_div (k v i : Nat) : nibble (v / 16 ^ k) i = nibble v (k + i) := by rw [nibble, Nat.div_div_eq_div_mul, ← Nat.pow_add, nibble]

/-- The digits of a part of a word. -/
theorem isBcd_part {n v : Nat} (h : isBcd n v = true) (k m : Nat) (hm : k + m ≤ n) : isBcd m (v / 16 ^ k % 16 ^ m) = true :=
  isBcd_iff.mpr fun i hi => by
    rw [nibble_mod hi, nibble_div]
    exact isBcd_iff.mp h (k + i) (by omega)

theorem getF_eq_part (w : Word) (f : Fld) : getF w f = w.toNat / 2 ^ f.lo % 2 ^ f.width := by rw [getF, Nat.shiftRight_eq_div_pow]

theorem getF_time_part (w : Word) : getF w RTC_TIME_HOUR = w.toNat % 2 ^ 24 / 16 ^ 4 % 16 ^ 2 ∧ getF w RTC_TIME_MIN = w.toNat % 2 ^ 24 / 16 ^ 2 % 16 ^ 2 ∧
    getF w RTC_TIME_SEC = w.toNat % 2 ^ 24 / 16 ^ 0 % 16 ^ 2 := by
  simp only [getF_eq_part, Fld.width, RTC_TIME_HOUR, RTC_TIME_MIN, RTC_TIME_SEC]
  omega

section
variable {w u : Word}

theorem eq_of_date_fields (hy : getF w RTC_DATE_YEAR = getF u RTC_DATE_YEAR) (hm : getF w RTC_DATE_MONTH = getF u RTC_DATE_MONTH)
    (hd : getF w RTC_DATE_DAY = getF u RTC_DATE_DAY) : w = u := by
  have := w.isLt
  have := u.isLt
  simp only [getF_eq_part, Fld.width, RTC_DATE_YEAR, RTC_DATE_MONTH, RTC_DATE_DAY] at hy hm hd
  exact BitVec.eq_of_toNat_eq (by omega)

theorem eq_of_time_fields (hh : getF w RTC_TIME_HOUR = getF u RTC_TIME_HOUR) (hm : getF w RTC_TIME_MIN = getF u RTC_TIME_MIN)
    (hs : getF w RTC_TIME_SEC = getF u RTC_TIME_SEC) : w &&& 0x00FFFFFF = u &&& 0x00FFFFFF := by
  have hmask : ∀ v : Word, (v &&& 0x00FFFFFF).toNat = v.toNat % 2 ^ 24 := fun v => Nat.and_two_pow_sub_one_eq_mod v.toNat 24
  simp only [getF_eq_part, Fld.width, RTC_TIME_HOUR, RTC_TIME_MIN, RTC_TIME_SEC] at hh hm hs
  refine BitVec.eq_of_toNat_eq ?_
  rw [hmask, hmask]
  omega

end

section
variable (a b c w : Nat)

theorem getF_dateWord (ha : a < 2 ^ 16) (hb : b < 2 ^ 8) (hc : c < 2 ^ 8) :
    getF (mkWord [(RTC_DATE_YEAR, a), (RTC_DATE_MONTH, b), (RTC_DATE_DAY, c)]) RTC_DATE_YEAR = a ∧
    getF (mkWord [(RTC_DATE_YEAR, a), (RTC_DATE_MONTH, b), (RTC_DATE_DAY, c)]) RTC_DATE_MONTH = b ∧
    getF (mkWord [(RTC_DATE_YEAR, a), (RTC_DATE_MONTH, b), (RTC_DATE_DAY, c)]) RTC_DATE_DAY = c := by
  refine ⟨?_, ?_, ?_⟩ <;> simp [mkWord, getF_setF_same, getF_setF_other, Fld.width, RTC_DATE_YEAR, RTC_DATE_MONTH, RTC_DATE_DAY] <;> omega

theorem getF_timeWord (ha : a < 2 ^ 8) (hb : b < 2 ^ 8) (hc : c < 2 ^ 8) :
    getF (mkWord [(RTC_TIME_WDAY, w), (RTC_TIME_HOUR, a), (RTC_TIME_MIN, b), (RTC_TIME_SEC, c)]) RTC_TIME_HOUR = a ∧
    getF (mkWord [(RTC_TIME_WDAY, w), (RTC_TIME_HOUR, a), (RTC_TIME_MIN, b), (RTC_TIME_SEC, c)]) RTC_TIME_MIN = b ∧
    getF (mkWord [(RTC_TIME_WDAY, w), (RTC_TIME_HOUR, a), (RTC_TIME_MIN, b), (RTC_TIME_SEC, c)]) RTC_TIME_SEC = c := by
  refine ⟨?_, ?_, ?_⟩ <;> simp [mkWord, getF_setF_same, getF_setF_other, Fld.width, RTC_TIME_WDAY, RTC_TIME_HOUR, RTC_TIME_MIN, RTC_TIME_SEC] <;> omega

end

/-- A date word the calendar takes: its fields are the digits of a date of the years 2020 to 2399. -/
theorem dateOk_iff {v : Word} : dateOk v = true ↔ isBcd 8 v.toNat = true ∧
    2020 ≤ ofBcd 4 (getF v RTC_DATE_YEAR) ∧ ofBcd 4 (getF v RTC_DATE_YEAR) ≤ 2399 ∧
    1 ≤ ofBcd 2 (getF v RTC_DATE_MONTH) ∧ ofBcd 2 (getF v RTC_DATE_MONTH) ≤ 12 ∧
    1 ≤ ofBcd 2 (getF v RTC_DATE_DAY) ∧ ofBcd 2 (getF v RTC_DATE_DAY) ≤ monthDays (ofBcd 4 (getF v RTC_DATE_YEAR)) (ofBcd 2 (getF v RTC_DATE_MONTH)) := by
  rw [dateOk, Bool.and_eq_true, decide_eq_true_iff]

theorem timeOk_iff {v : Word} : timeOk v = true ↔ isBcd 6 (v.toNat % 2 ^ 24) = true ∧ ofBcd 2 (getF v RTC_TIME_HOUR) ≤ 23 ∧
    ofBcd 2 (getF v RTC_TIME_MIN) ≤ 59 ∧ ofBcd 2 (getF v RTC_TIME_SEC) ≤ 59 := by
  simp [timeOk, and_assoc]

theorem toBcd_ofBcd_field {n k : Nat} {v : Nat} (w : Word) (f : Fld) (hv : isBcd n v = true) (hf : getF w f = v / 16 ^ k % 16 ^ m) (hk : k + m ≤ n) :
    toBcd m (ofBcd m (getF w f)) = getF w f :=
  toBcd_ofBcd m (by rw [hf]; exact Nat.mod_lt _ (Nat.pow_pos (by omega))) (by rw [hf]; exact isBcd_part hv k m hk)

section
variable {date time : Word} (hdate : dateOk date = true) (htime : timeOk time = true)

include htime in
theorem secOfWords_parts : secOfWords date time / 86400 = dayNo (ofBcd 4 (getF date RTC_DATE_YEAR)) (ofBcd 2 (getF date RTC_DATE_MONTH)) (ofBcd 2 (getF date RTC_DATE_DAY)) ∧
    secOfWords date time % 86400 / 3600 = ofBcd 2 (getF time RTC_TIME_HOUR) ∧ secOfWords date time % 3600 / 60 = ofBcd 2 (getF time RTC_TIME_MIN) ∧
    secOfWords date time % 60 = ofBcd 2 (getF time RTC_TIME_SEC) := by
  obtain ⟨-, hh, hm, hs⟩ := timeOk_iff.mp htime
  unfold secOfWords
  omega

include htime

include hdate in
theorem calDate_secOfWords : calDate (secOfWords date time) = date := by
  obtain ⟨hbcd, hy, hy', hm, hm', hd, hd'⟩ := dateOk_iff.mp hdate
  obtain ⟨hday, -⟩ := secOfWords_parts (date := date) htime
  rw [calDate, hday, dateOf_dayNo hy hm hm' hd hd' hy', 
    toBcd_ofBcd_field date RTC_DATE_YEAR hbcd (k := 4) (getF_eq_part _ _) (by omega),
    toBcd_ofBcd_field date RTC_DATE_MONTH hbcd (k := 2) (getF_eq_part _ _) (by omega),
    toBcd_ofBcd_field date RTC_DATE_DAY hbcd (k := 0) (getF_eq_part _ _) (by omega)]
  obtain ⟨hyear, hmonth, hdd⟩ := getF_dateWord _ _ _ (getF_lt date RTC_DATE_YEAR) (getF_lt date RTC_DATE_MONTH) (getF_lt date RTC_DATE_DAY)
  exact eq_of_date_fields hyear hmonth hdd

theorem calTime_secOfWords : calTime (secOfWords date time) &&& 0x00FFFFFF = time &&& 0x00FFFFFF := by
  obtain ⟨hbcd, -⟩ := timeOk_iff.mp htime
  obtain ⟨-, hh, hm, hs⟩ := secOfWords_parts (date := date) htime
  obtain ⟨hhpart, hmpart, hspart⟩ := getF_time_part time
  rw [calTime, hh, hm, hs, 
    toBcd_ofBcd_field time RTC_TIME_HOUR hbcd (k := 4) hhpart (by omega),
    toBcd_ofBcd_field time RTC_TIME_MIN hbcd (k := 2) hmpart (by omega),
    toBcd_ofBcd_field time RTC_TIME_SEC hbcd (k := 0) hspart (by omega)]
  obtain ⟨hhour, hmin, hsec⟩ := getF_timeWord _ _ _ _ (getF_lt time RTC_TIME_HOUR) (getF_lt time RTC_TIME_MIN) (getF_lt time RTC_TIME_SEC)
  exact eq_of_time_fields hhour hmin hsec

include hdate in
theorem secOfWords_le : secOfWords date time ≤ calLast := by
  obtain ⟨-, hy, hy', hm, hm', hd, hd'⟩ := dateOk_iff.mp hdate
  obtain ⟨-, hh, hmin, hs⟩ := timeOk_iff.mp htime
  have hday := dayNo_lt hy hm hm' hd hd'
  have hlast : daysToYear (ofBcd 4 (getF date RTC_DATE_YEAR) + 1) ≤ daysToYear 2400 := daysToYear_mono (Nat.le_trans hy (Nat.le_succ _)) (Nat.succ_le_succ hy')
  unfold secOfWords calLast
  omega

end

/-- Settles O37: the days of a date lie within its year, and each field of a word spells its digits. -/
theorem roundTrips : Obligations.RoundTrips := by
  unfold Obligations.RoundTrips
  exact ⟨fun date time hdate htime => ⟨calDate_secOfWords hdate htime, calTime_secOfWords htime, secOfWords_le hdate htime⟩,
    fun l hl => nfcOpen_nfcSeal hl, fun x hfl => ⟨CoreSt.ofWords_words hfl, x.length_bytes⟩⟩

end Sys2Proof.Machine
end

section
/-! Proofs for the timers and the calendar (chapter 18): an edge of a periodic timer. -/

namespace Sys2Proof.Machine

/-- A periodic timer of the always-on domain whose count is 1, with LOAD 5. -/
def aonPeriodic : Dev :=
  let d : Dev := { Dev.reset with pwr := { PowerSt.init with off := false } }
  ((((d.put (RTC_ATCTL 0) RTC_ATCTL_RUN 1).put (RTC_ATCTL 0) RTC_ATCTL_PERIODIC 1).setReg (RTC_ATLOAD 0) 5).setReg (RTC_ATCNT 0) 1)

/-- A register of the next state, where the command answers one. -/
def regNext (i : Instr) (s : State) (a : Nat) : Option Word :=
  match exec i s with
  | .next t => some (t.dev.reg a)
  | _ => none

theorem aonPeriodic_reloads : aonPeriodic.pwr.off = false ∧ aonPeriodic.atOf 0 = AtSt.init ∧ aonPeriodic.flag (RTC_ATCTL 0) RTC_ATCTL_RUN = true ∧
    aonPeriodic.reg (RTC_ATCNT 0) = 1 ∧ regNext (.aonTimerEdge 0) ⟨aonPeriodic, []⟩ (RTC_ATCNT 0) = some 5 := by
  decide +kernel

/-- Refutes O36: the edge at which a periodic timer's count of 1 ends loads LOAD (R356), so that the count does not read one less after it. The clause of
AON_TIMER_EDGE that says so for every count above 0 leaves PERIODIC out. -/
theorem not_timers : ¬ Obligations.Timers := by
  unfold Obligations.Timers
  intro ⟨_, _, h⟩
  obtain ⟨_, _, hedge, _⟩ := h aonPeriodic [] 0 0 0 0
  obtain ⟨hon, hinit, hrun, hcount, hnext⟩ := aonPeriodic_reloads
  obtain ⟨t, ht, -, hdown, -⟩ := hedge hon hinit hrun (.inl rfl)
  have hone := hdown (by rw [Fin.val_zero, hcount]; decide)
  rw [regNext, ht] at hnext
  rw [Fin.val_zero, Option.some.inj hnext, hcount] at hone
  exact absurd hone (by decide)

end Sys2Proof.Machine
end

section
/-! Proofs for what commands leave alone (chapter 0): the end of a command of the key store. -/

namespace Sys2Proof.Machine

/-- A raise of counter 0 to 1 that runs (R221), with the flash ready. -/
def keyRaising : Dev :=
  let d : Dev := { Dev.reset with keyPend := some ⟨0, 5, 1, 0, [], true, false, false⟩, ctrLeft := [] }
  d.put FLC_BOOT FLC_BOOT_READY 1

/-- A cell of memory in the next state, where the command answers one. -/
def cellNext (i : Instr) (s : State) (a : Nat) : Option Byte :=
  match exec i s with
  | .next t => some (t.dev.cell a)
  | _ => none

theorem keyRaising_programs : keyRaising.cell (ctrBase 0) = 0xFF ∧ cellNext .keyCommandEnd ⟨keyRaising, []⟩ (ctrBase 0) = some 0x43 := by
  decide +kernel

/-- Refutes O6: the end of a RAISE programs the counter's record into the flash (R229), so that the first byte of the counter's first word changes. KEY_COMMAND_END is
not among the commands that may store. -/
theorem not_memoryAndCoresKept : ¬ Obligations.MemoryAndCoresKept := by
  unfold Obligations.MemoryAndCoresKept
  intro h
  obtain ⟨e, ht⟩ := exec_completes .keyCommandEnd ⟨keyRaising, []⟩
  obtain ⟨hkept, -⟩ := h ⟨keyRaising, []⟩ _ .keyCommandEnd rfl ht
  obtain ⟨hbefore, hafter⟩ := keyRaising_programs
  rw [cellNext, ht] at hafter
  rw [Option.some.injEq, hkept, hbefore] at hafter
  exact absurd hafter (by decide)

end Sys2Proof.Machine
end

section
/-! Proofs for the receive chains (chapters 5 and 7): turning a chain, and the search for a preamble. -/

namespace Sys2Proof.Machine

section
variable {d : Dev} {c ch b e : Nat} {track marked : Bool} {q : List Nat}

/-- A window that is marked or unsearched starts the run over. -/
theorem Dev.window_hidden (h : marked = true ∨ d.searches c ch b e = false) :
    d.window c ch b (e + 5) track marked q = { d with detRun := sset [] d.detRun (runKey c ch b e track) [] } := by
  rw [Dev.window, Nat.add_sub_cancel]
  exact if_pos (by simpa using h.symm)

/-- Otherwise it joins the run, and a full run is judged. -/
theorem Dev.window_judged (hm : marked = false) (hs : d.searches c ch b e = true) :
    let run := (q :: sget [] d.detRun (runKey c ch b e track)).take (d.plan8 tDETECT c 0x28)
    let w : Dev := { d with detRun := sset [] d.detRun (runKey c ch b e track) run }
    d.window c ch b (e + 5) track marked q =
      if run.length < d.plan8 tDETECT c 0x28 then w
      else if reach40 (d.detThr c b e) (bestBin (2 ^ (e + 5)) run).2 (65536 * d.plan8 tDETECT c 0x28) then
        w.candidate c ch b (e + 5) (bestBin (2 ^ (e + 5)) run).1 (bestBin (2 ^ (e + 5)) run).2
      else w := by
  simp only [Dev.window, Nat.add_sub_cancel, hm, hs, Bool.not_true, Bool.or_self, Bool.false_eq_true, if_false]
  rfl

end

theorem gives_detectorWindow {d : Dev} {q : List Instr} {x : Fin 4} {ch : Fin 256} {b : Fin 5} {e : Fin 8} {track marked : Bool} {s : List Cx}
    (h : (d.rests 0 && !d.rests 1) = false) :
    Gives (.detectorWindow x ch b e track marked s) ⟨d, q⟩ (d.window x ch b (e + 5) track (marked || d.blanked x) (windowQ (e + 5) s)) := by
  refine gives_of_run rfl (exec_detectorWindow ..) ?_
  exact if_neg fun ⟨hrests, hdetectors⟩ => by simp [hrests, hdetectors] at h

/-- Settles O12: the chain is turned where it is not so yet, and a window is hidden, joins a run or fills one. -/
theorem chainsAndSearch : Obligations.ChainsAndSearch := by
  unfold Obligations.ChainsAndSearch
  intro d q c x v ch b e track marked s
  refine ⟨fun hopen => ⟨fun hoff => ⟨gives_of_runCore rfl hopen rfl (if_neg (by simp [hoff])), gives_of_runCore rfl hopen rfl (if_neg (by simp [hoff]))⟩,
    fun hon => ⟨gives_of_runCore rfl hopen rfl (if_pos hon), gives_of_runCore rfl hopen rfl (if_pos hon)⟩⟩, fun hwaits => ?_, fun hgo hhidden => ?_, fun hgo hvisible hsearch => ?_⟩
  · refine gives_of_run rfl (exec_detectorWindow ..) ?_
    exact if_pos (by simpa using hwaits)
  · have hgives := gives_detectorWindow (q := q) (x := x) (ch := ch) (b := b) (e := e) (track := track) (marked := marked) (s := s) hgo
    rwa [Dev.window_hidden hhidden] at hgives
  · have hgives := gives_detectorWindow (q := q) (x := x) (ch := ch) (b := b) (e := e) (track := track) (marked := marked) (s := s) hgo
    rw [Dev.window_judged hvisible hsearch] at hgives
    refine ⟨fun hshort => ?_, fun hfull hreach => ?_, fun hfull hreach => ?_⟩
    · rwa [if_pos hshort] at hgives
    · rwa [if_neg (Nat.not_lt_of_ge (Nat.le_of_eq hfull.symm)), if_pos hreach] at hgives
    · rwa [if_neg (Nat.not_lt_of_ge (Nat.le_of_eq hfull.symm)), if_neg (by simp [hreach])] at hgives

end Sys2Proof.Machine
end

section
/-! Proofs for the Oztis port (chapter 22): the debug commands of an open session. -/

namespace Sys2Proof.Machine

/-! ### Accesses of the port to general SRAM -/

theorem blockAt_of_lt {a : Nat} (h : a < 0x40000000) : blockAt a = none := by
  have hbase : ∀ b ∈ blockTable, 0x40000000 ≤ b.base := by decide
  refine List.find?_eq_none.mpr fun b hb => ?_
  have := hbase b hb
  rw [decide_eq_true_iff]
  omega

theorem semCell_of_lt {a : Nat} (h : a < 0x40000000) : semCell a = none := by rw [semCell, regAt, blockAt_of_lt h]

theorem inPeriph_of_lt {a : Nat} (h : a < 0x40000000) : inPeriph a = false := decide_eq_false fun hin => Nat.not_le_of_gt h hin.1

section
variable {a : Nat} (hlow : 0x20000000 ≤ a) (hhigh : a < 0x21400000)
include hlow hhigh

theorem flashAddr_general : flashAddr a = false := by simp [flashAddr]; omega

theorem inRom_general : inRom a = false := by simp [inRom]; omega

theorem airKept_general : airKept a = false := by simp [airKept]; omega

theorem Dev.softOpen_general (d : Dev) : d.softOpen a = true := by
  rw [Dev.softOpen, if_neg (by omega), if_neg (by omega)]

/-- A sound word of general SRAM is read as it stands. -/
theorem Dev.touch_general {d : Dev} (x : Access) (c : Fin 7) (hs : sget 0 d.memErr (a / 4) = 0) : d.touch x c a = (none, false, d) := by
  simp [Dev.touch, flashAddr_general hlow hhigh, inRom_general hlow hhigh, d.softOpen_general hlow hhigh, Dev.touchRam, Dev.eccRead, hs]

end

theorem wordsOf_word {a : Nat} (h : a % 4 = 0) : wordsOf 4 a 4 = [a] := by
  have hone : (a + 4 - 1) / 4 + 1 - a / 4 = 1 := by omega
  simp only [wordsOf, hone, span, List.map_cons, List.map_nil, List.cons.injEq, and_true]
  omega

theorem Dev.wakes_memErr (d : Dev) (a n : Nat) : (d.wakes a n).memErr = d.memErr :=
  (touchDomain_memErr _ _).trans (touchDomain_memErr _ _)

theorem Dev.wakes_byte (d : Dev) (a n x : Nat) : (d.wakes a n).byte x = d.byte x :=
  ((Dev.FetchKeeps.touchDomain d a).trans (.touchDomain _ _)).byte x

/-- Nothing bars a load of a word of general SRAM: it reads the word. -/
theorem Dev.portLoad_general {d : Dev} {a : Nat} (hword : a % 4 = 0) (hopen : RamOpen d (portAcc .load) 0 a 4) :
    d.portLoad a = (none, d.load a 4, d.wakes a 4) := by
  obtain ⟨hlow, hhigh, hcode, hsound⟩ := hopen
  have hload : d.portLoad a = d.busLoad (portAcc .load) 0 a 4 [] := by rw [Dev.portLoad, semCell_of_lt (by omega), hcode]
  have hs : sget 0 (d.wakes a 4).memErr (a / 4) = 0 := by rw [Dev.wakes_memErr]; exact hsound _ (Nat.le_refl _) (by omega)
  have htouch := Dev.touch_general (d := d.wakes a 4) (by omega) (by omega) (portAcc .load) 0 hs
  have hval : (span a 4).map (d.wakes a 4).shownByte = d.bytes a 4 := List.map_congr_left fun y hy => by
    obtain ⟨hy, hy'⟩ := mem_span.mp hy
    rw [Dev.shownByte, Dev.softOpen_general (by omega) (by omega), if_pos rfl, Dev.wakes_byte]
  rw [hload, Dev.busLoad, hcode]
  simp only [inPeriph_of_lt (show a < 0x40000000 by omega), flashAddr_general (a := a) (by omega) (by omega), Bool.false_eq_true, if_false, Dev.upset,
    List.isEmpty_nil, if_true, wordsOf_word hword, Dev.touchAll, htouch, Bool.or_self, hval]
  rfl

/-- A read that the bus turns away reads nothing. -/
theorem Dev.portLoad_fault {d : Dev} {a : Nat} {f : Nat × Nat} (h : d.accCode (portAcc .load) 0 a 4 = some f) : d.portLoad a = (some f, 0, d) := by
  rw [Dev.portLoad, h, Dev.busLoad, h]
  cases semCell a <;> rfl

theorem Dev.portStore_general {d : Dev} {a v : Nat} (hopen : RamOpen d (portAcc .store) 0 a 4) :
    d.portStore a v = (none, ((d.touchDomain a).eccClear a 4).setBytes a (leBytes 4 v)) := by
  obtain ⟨hlow, hhigh, hcode, -⟩ := hopen
  simp [Dev.portStore, inPeriph_of_lt (show a < 0x40000000 by omega), hcode, airKept_general (a := a) (by omega) (by omega)]

theorem leVal_take (n : Nat) : ∀ l : List Byte, leVal (l.take n) = leVal l % 256 ^ n := by
  induction n with
  | zero => intro l; simp [leVal, Nat.mod_one]
  | succ n ih =>
    intro l
    cases l with
    | nil => simp [leVal]
    | cons b l =>
      have hb := b.isLt
      rw [List.take_succ_cons, leVal, leVal, ih, Nat.pow_succ', Nat.mod_mul, show (b.toNat + 256 * leVal l) / 256 = leVal l by omega]
      omega

theorem leVal_leBytes_mod (n : Nat) : ∀ v, leVal (leBytes n v) = v % 256 ^ n := by
  induction n with
  | zero => intro v; simp [leBytes, leVal, Nat.mod_one]
  | succ n ih =>
    intro v
    rw [leBytes, leVal, ih, BitVec.toNat_ofNat, show 256 ^ (n + 1) = 2 ^ 8 * 256 ^ n from Nat.pow_succ', Nat.mod_mul (x := v)] <;> rfl

theorem map_span_getD (l : List Byte) : ∀ lo, (span lo l.length).map (fun y => l.getD (y - lo) 0) = l := by
  induction l with
  | nil => exact fun _ => rfl
  | cons b l ih =>
    intro lo
    rw [List.length_cons, span, List.map_cons, Nat.sub_self, List.getD_cons_zero]
    congr 1
    refine (List.map_congr_left fun y hy => ?_).trans (ih (lo + 1))
    obtain ⟨hy, -⟩ := mem_span.mp hy
    rw [show y - lo = y - (lo + 1) + 1 by omega, List.getD_cons_succ]

/-- Bytes stored in RAM read back. -/
theorem Dev.bytes_setBytes (d : Dev) {a : Nat} (l : List Byte) (h : 0x10010000 ≤ a) : (d.setBytes a l).bytes a l.length = l := by
  refine (List.map_congr_left fun y hy => ?_).trans (map_span_getD l a)
  obtain ⟨hy, hy'⟩ := mem_span.mp hy
  rw [Dev.byte_eq_cell _ (by omega), if_neg (by omega), Dev.cell_setBytes _ _ _ (by omega), if_pos ⟨hy, hy'⟩]

theorem Dev.eccClear_locks (d : Dev) (a n : Nat) : (d.eccClear a n).locks = d.locks := by unfold Dev.eccClear; split <;> rfl

theorem Dev.putBytes_locks (l : List Byte) : ∀ (d : Dev) (a : Nat), (d.putBytes a l).locks = d.locks := by
  induction l with
  | nil => exact fun _ _ => rfl
  | cons b l ih => exact fun d a => ih (d.setByte a b) (a + 1)

theorem Dev.setBytes_locks (d : Dev) (a : Nat) (l : List Byte) : (d.setBytes a l).locks = d.locks :=
  (Dev.eccClear_locks _ _ _).trans (Dev.putBytes_locks l d a)

theorem stored_portStore {d : Dev} {a v : Nat} (hopen : RamOpen d (portAcc .store) 0 a 4) : Stored d (d.portStore a v).2 a 4 v := by
  have hlow := hopen.1
  have htouch : ((d.touchDomain a).mem = d.mem ∧ (d.touchDomain a).regs = d.regs ∧ (d.touchDomain a).locks = d.locks) := by
    unfold Dev.touchDomain
    split
    · exact ⟨rfl, rfl, rfl⟩
    · cases domainAt a <;> exact ⟨rfl, rfl, rfl⟩
  obtain ⟨hmem, hregs, hlocks⟩ := htouch
  rw [Dev.portStore_general hopen]
  refine ⟨?_, fun y hy => ?_, ?_, ?_⟩
  · have hbytes := Dev.bytes_setBytes ((d.touchDomain a).eccClear a 4) (leBytes 4 v) (show 0x10010000 ≤ a by omega)
    rw [length_leBytes] at hbytes
    rw [Dev.load, hbytes, leVal_leBytes_mod]
  · rw [Dev.cell_setBytes _ _ _ (by omega), if_neg (by rwa [length_leBytes]), Dev.cell_eccClear, Dev.cell, hmem, Dev.cell]
  · rw [Dev.setBytes_regs, Dev.eccClear_regs, hregs]
  · rw [Dev.setBytes_locks, Dev.eccClear_locks, hlocks]

/-- What the end of a command and a response add is no part of memory, the registers or the lock cells. -/
theorem Stored.delivered {d e g : Dev} {a n v typ st : Nat} {tag : Byte} {l : List Byte} (h : Stored d e a n v) :
    Stored d (g.wakeBy (e.ozSend typ tag st l)).settle a n v := by
  obtain ⟨hload, hcell, hregs, hlocks⟩ := h
  have hbytes : (g.wakeBy (e.ozSend typ tag st l)).settle.bytes a n = e.bytes a n := List.map_congr_left fun y _ => by
    rw [Dev.byte_settle]
    rfl
  refine ⟨by rw [Dev.load, hbytes]; exact hload, fun y hy => ?_, hregs, hlocks⟩
  rw [Dev.cell_settle]
  exact hcell y hy

/-! ### Requests of an open session (R411, R415) -/

section
variable {i : Instr} {d e : Dev} {q : List Instr} {typ : Nat} {tag : Byte} {f : Dev → Nat × List Byte × Dev}
  (hon : d.portOn = true) (hwork : d.rests 14 = false) (hsession : d.flag SVC_STAT SVC_STAT_SESSION = true) (hr : rootFree i = false)
include hon hwork hsession hr

/-- A request of the right length answers what its command makes. -/
theorem gives_ozReq {len : Bool} (hlen : len = true) (h : exec i ⟨d, q⟩ = State.run ⟨d, q⟩ fun d => d.ozReq typ tag len .unlock f)
    (he : (f d).2.2.ozSend typ tag (f d).1 (f d).2.1 = e) : Gives i ⟨d, q⟩ e := by
  subst he
  exact gives_of_run hr h (by simp [Dev.ozReq, hon, hwork, hlen, Dev.ozOpen, hsession])

end

section
variable {d : Dev} {q : List Instr} {tag : Byte} {p : List Byte} (hon : d.portOn = true) (hwork : d.rests 14 = false) (hsession : d.flag SVC_STAT SVC_STAT_SESSION = true)
include hon hwork hsession

theorem gives_oztisRead_badarg (hlen : p.length = 6) (h : u32 p 0 % 4 ≠ 0) : Gives (.oztisRead tag p) ⟨d, q⟩ (d.ozSend 0x20 tag 0x05 []) :=
  gives_ozReq hon hwork hsession rfl (by simp [hlen]) (exec_oztisRead ..) (by simp [h, ozREAD, ssBADARG])

/-- A READ of one word. -/
theorem gives_oztisRead_word (hlen : p.length = 6) (hword : u32 p 0 % 4 = 0) (hone : u16 p 4 = 4) :
    Gives (.oztisRead tag p) ⟨d, q⟩ ((d.portRead (u32 p 0) 1).2.2.ozSend ozREAD tag (d.portRead (u32 p 0) 1).1 (d.portRead (u32 p 0) 1).2.1) :=
  gives_ozReq hon hwork hsession rfl (by simp [hlen]) (exec_oztisRead ..) (by simp [hword, hone])

theorem gives_oztisRead_general (hlen : p.length = 6) (hword : u32 p 0 % 4 = 0) (hone : u16 p 4 = 4) (hopen : RamOpen d (portAcc .load) 0 (u32 p 0) 4) :
    Gives (.oztisRead tag p) ⟨d, q⟩ ((d.wakes (u32 p 0) 4).ozSend 0x20 tag 0x00 (leBytes 4 (d.load (u32 p 0) 4))) := by
  have h := gives_oztisRead_word (q := q) (tag := tag) hon hwork hsession hlen hword hone
  simpa [Dev.portRead, Dev.portLoad_general hword hopen, ssOK, ozREAD] using h

theorem gives_oztisRead_fault {f : Nat × Nat} (hlen : p.length = 6) (hword : u32 p 0 % 4 = 0) (hone : u16 p 4 = 4)
    (hfault : d.accCode (portAcc .load) 0 (u32 p 0) 4 = some f) :
    Gives (.oztisRead tag p) ⟨d, q⟩ (d.ozSend 0x20 tag 0x0A (leBytes 4 (esynOf f.2 f.1 false false false).toNat ++ leBytes 4 (u32 p 0))) := by
  have h := gives_oztisRead_word (q := q) (tag := tag) hon hwork hsession hlen hword hone
  simpa [Dev.portRead, Dev.portLoad_fault hfault, ssBUSFAULT, portFault, ozREAD] using h

theorem gives_oztisWrite_badarg (hlen : p.length = 8) (h : u32 p 0 % 4 ≠ 0) : Gives (.oztisWrite tag p) ⟨d, q⟩ (d.ozSend 0x21 tag 0x05 []) :=
  gives_ozReq hon hwork hsession rfl (by simp [hlen]) (exec_oztisWrite ..) (by simp [h, ozWRITE, ssBADARG])

theorem after_oztisWrite_general (hlen : p.length = 8) (hword : u32 p 0 % 4 = 0) (hopen : RamOpen d (portAcc .store) 0 (u32 p 0) 4) :
    After (.oztisWrite tag p) ⟨d, q⟩ fun e => Stored d e (u32 p 0) 4 (leVal (p.drop 4)) ∧ e.svc.resp = ozFrame 0xA1 tag [0x00] := by
  have hdata : (p.drop 4).take 4 = p.drop 4 := List.take_of_length_le (by simp [hlen])
  have hstore := Dev.portStore_general (v := leVal (p.drop 4)) hopen
  have hstored := stored_portStore (v := leVal (p.drop 4)) hopen
  have hgives : Gives (.oztisWrite tag p) ⟨d, q⟩ ((d.portStore (u32 p 0) (leVal (p.drop 4))).2.ozSend ozWRITE tag ssOK []) := by
    refine gives_ozReq hon hwork hsession rfl (by simp [hlen]) (exec_oztisWrite ..) ?_
    simp [hword, hlen, Dev.portWrite, hdata, hstore]
  exact after_of_gives hgives ⟨hstored.delivered, rfl⟩

end

/-! ### States of the cores (R415) -/

@[simp] theorem Dev.coreState_settle (d : Dev) (c : Nat) : d.settle.coreState c = d.coreState c := rfl
@[simp] theorem Dev.coreState_wakeBy (d e : Dev) (c : Nat) : (d.wakeBy e).coreState c = e.coreState c := rfl
@[simp] theorem Dev.coreState_ozSend (d : Dev) (typ st : Nat) (tag : Byte) (l : List Byte) (c : Nat) : (d.ozSend typ tag st l).coreState c = d.coreState c := rfl
@[simp] theorem Dev.core_ozSend (d : Dev) (typ st : Nat) (tag : Byte) (l : List Byte) (c : Fin 7) : (d.ozSend typ tag st l).core c = d.core c := rfl
@[simp] theorem Dev.byte_ozSend (d : Dev) (typ st : Nat) (tag : Byte) (l : List Byte) (a : Nat) : (d.ozSend typ tag st l).byte a = d.byte a := rfl

theorem Dev.byte_setReg (d : Dev) (a : Nat) (v : Word) (y : Nat) (h : a ≠ FLC_BOOT) : (d.setReg a v).byte y = d.byte y := by
  have hboot : (d.setReg a v).get FLC_BOOT FLC_BOOT_ACTIVE = d.get FLC_BOOT FLC_BOOT_ACTIVE := by rw [Dev.get, Dev.reg_setReg_other _ _ _ _ h.symm, Dev.get]
  simp [Dev.byte, Dev.canon, Dev.winSector, Dev.winOf, hboot]

theorem Dev.coreState_setCoreState (d : Dev) {k c v : Nat} (hk : k < 7) (hc : c < 7) (hv : v < 16) :
    (d.setCoreState c v).coreState k = if k = c then v else d.coreState k := by
  by_cases h : k = c
  · subst h
    rw [if_pos rfl, Dev.coreState, Dev.setCoreState, Dev.get, Dev.reg_put_same, getF_setF_same _ _ _ (by simp [corestatFld]; omega) (by simp [corestatFld])]
    exact Nat.mod_eq_of_lt (by simpa [corestatFld, Fld.width, Nat.add_sub_cancel_left, show 4 * k + 3 + 1 - 4 * k = 4 by omega] using hv)
  · rw [if_neg h, Dev.coreState, Dev.setCoreState, Dev.get, Dev.reg_put_same,
      getF_setF_other _ _ _ _ (by simp [corestatFld]; omega) (by simp [corestatFld]) (by simp [corestatFld]; omega)]
    rfl

/-- The cores of a mask whose state is one of `Q` go to the state `v`. -/
def Dev.debugSwitch (d : Dev) (m v : Nat) (Q : Nat → Prop) [DecidablePred Q] (l : List Nat) : Dev :=
  l.foldl (fun (d : Dev) c => if m.testBit c ∧ Q (d.coreState c) then d.setCoreState c v else d) d

theorem Dev.debugHalt_eq (d : Dev) (m : Nat) : d.debugHalt m = d.debugSwitch m 5 (fun s => s = 1 ∨ s = 2) (span 0 7) := rfl

section
variable {m v : Nat} {Q : Nat → Prop} [DecidablePred Q]

theorem Dev.coreState_debugSwitch (hv : v < 16) (l : List Nat) (hl : ∀ c ∈ l, c < 7) (hd : l.Nodup) {k : Nat} (hk : k < 7) :
    ∀ d : Dev, (d.debugSwitch m v Q l).coreState k = if k ∈ l ∧ m.testBit k ∧ Q (d.coreState k) then v else d.coreState k := by
  induction l with
  | nil => intro d; simp [Dev.debugSwitch]
  | cons c l ih =>
    intro d
    obtain ⟨hc, hl⟩ := List.forall_mem_cons.mp hl
    obtain ⟨hnot, hd⟩ := List.nodup_cons.mp hd
    have hstep : (if m.testBit c ∧ Q (d.coreState c) then d.setCoreState c v else d).coreState k =
        if k = c ∧ m.testBit k ∧ Q (d.coreState k) then v else d.coreState k := by
      by_cases hkc : k = c
      · subst hkc
        simp only [true_and]
        split <;> simp [Dev.coreState_setCoreState, hk, hv]
      · have hother : (d.setCoreState c v).coreState k = d.coreState k := by rw [Dev.coreState_setCoreState _ hk hc hv, if_neg hkc]
        simp only [hkc, false_and, if_false]
        split
        · exact hother
        · rfl
    rw [Dev.debugSwitch, List.foldl_cons, ← Dev.debugSwitch, ih hl hd, hstep]
    by_cases hkc : k = c
    · subst hkc
      simp [hnot]
    · simp [hkc]

/-- What a write of the register of the cores' states leaves, the switch leaves. -/
theorem Dev.debugSwitch_frame {β : Type} {g : Dev → β} (hg : ∀ (e : Dev) (w : Word), g (e.setReg SYS_CORESTAT w) = g e) (l : List Nat) :
    ∀ d : Dev, g (d.debugSwitch m v Q l) = g d := by
  induction l with
  | nil => exact fun _ => rfl
  | cons c l ih =>
    intro d
    rw [Dev.debugSwitch, List.foldl_cons, ← Dev.debugSwitch, ih]
    split
    · exact hg d _
    · rfl

end

section
variable {d : Dev} {q : List Instr} {tag : Byte} {p : List Byte} (hon : d.portOn = true) (hwork : d.rests 14 = false) (hsession : d.flag SVC_STAT SVC_STAT_SESSION = true)
include hon hwork hsession

theorem after_oztisHalt (hlen : p.length = 2) : After (.oztisHalt tag p) ⟨d, q⟩ fun e =>
    (∀ k, k < 7 → e.coreState k = if (u8 p 0).testBit k ∧ (d.coreState k = 1 ∨ d.coreState k = 2) then 5 else d.coreState k) ∧
    (e.svc.freeze = true ↔ u8 p 1 = 1) ∧ e.cores = d.cores ∧ ∀ y, e.byte y = d.byte y := by
  let f : Dev := { d with svc := { d.svc with freeze := decide (u8 p 1 = 1) } }
  have hgives : Gives (.oztisHalt tag p) ⟨d, q⟩ ((f.debugSwitch (u8 p 0) 5 (fun s => s = 1 ∨ s = 2) (span 0 7)).ozSend ozHALT tag ssOK []) :=
    gives_ozReq hon hwork hsession rfl (by simp [hlen]) (exec_oztisHalt ..) rfl
  refine after_of_gives hgives ⟨fun k hk => ?_, ?_, ?_, fun y => ?_⟩
  · have hstate := Dev.coreState_debugSwitch (m := u8 p 0) (v := 5) (Q := fun s => s = 1 ∨ s = 2) (by decide) (span 0 7) (by decide) (by decide) hk f
    have hmem : k ∈ span 0 7 := mem_span.mpr ⟨Nat.zero_le k, by omega⟩
    simp only [hmem, true_and] at hstate
    rw [Dev.coreState_settle, Dev.coreState_wakeBy, Dev.coreState_ozSend, hstate]
    rfl
  · have hsvc : (f.debugSwitch (u8 p 0) 5 (fun s => s = 1 ∨ s = 2) (span 0 7)).svc = f.svc := Dev.debugSwitch_frame (fun _ _ => rfl) _ f
    rw [Dev.settle_svc, Dev.wakeBy_svc, Dev.ozSend]
    simp [hsvc, f]
  · rw [Dev.settle_cores, Dev.wakeBy_cores]
    exact Dev.debugSwitch_frame (g := Dev.cores) (fun _ _ => rfl) _ f
  · rw [Dev.byte_settle, Dev.wakeBy_byte, Dev.byte_ozSend]
    exact Dev.debugSwitch_frame (g := fun e => e.byte y) (fun e w => e.byte_setReg SYS_CORESTAT w y (by decide)) _ f

theorem after_oztisRun (hlen : p.length = 1) : After (.oztisRun tag p) ⟨d, q⟩ fun e =>
    (∀ k, k < 7 → e.coreState k = if (u8 p 0).testBit k ∧ d.coreState k = 5 then 1 else d.coreState k) ∧ e.cores = d.cores := by
  have hgives : Gives (.oztisRun tag p) ⟨d, q⟩ ((d.debugSwitch (u8 p 0) 1 (fun s => s = 5) (span 0 7)).ozSend ozRUN tag ssOK []) :=
    gives_ozReq hon hwork hsession rfl (by simp [hlen]) (exec_oztisRun ..) rfl
  refine after_of_gives hgives ⟨fun k hk => ?_, ?_⟩
  · have hstate := Dev.coreState_debugSwitch (m := u8 p 0) (v := 1) (Q := fun s => s = 5) (by decide) (span 0 7) (by decide) (by decide) hk d
    have hmem : k ∈ span 0 7 := mem_span.mpr ⟨Nat.zero_le k, by omega⟩
    simp only [hmem, true_and] at hstate
    rw [Dev.coreState_settle, Dev.coreState_wakeBy, Dev.coreState_ozSend, hstate]
  · rw [Dev.settle_cores, Dev.wakeBy_cores]
    exact Dev.debugSwitch_frame (g := Dev.cores) (fun _ _ => rfl) _ d

omit hon hwork hsession in
theorem Dev.debugCore_debug {c : Fin 7} (h : d.coreState c = 5) : d.debugCore c = some c := by simp [Dev.debugCore, h]

omit hon hwork hsession in
theorem Dev.debugCore_none {c : Fin 7} (h : d.coreState c ≠ 5) : d.debugCore c = none := by simp [Dev.debugCore, h]

theorem gives_regs_debug {c : Fin 7} (hlen : p.length = 1) (hcore : u8 p 0 = c.val) (h : d.coreState c = 5) :
    Gives (.regs tag p) ⟨d, q⟩ (d.ozSend 0x24 tag 0x00 ((d.core c).words.flatMap fun w => leBytes 4 w.toNat)) :=
  gives_ozReq hon hwork hsession rfl (by simp [hlen]) (exec_regs ..) (by simp [hcore, Dev.debugCore_debug h, ozREGS, ssOK])

theorem gives_regs_other {c : Fin 7} (hlen : p.length = 1) (hcore : u8 p 0 = c.val) (h : d.coreState c ≠ 5) :
    Gives (.regs tag p) ⟨d, q⟩ (d.ozSend 0x24 tag 0x07 []) :=
  gives_ozReq hon hwork hsession rfl (by simp [hlen]) (exec_regs ..) (by simp [hcore, Dev.debugCore_none h, ozREGS, ssSTATE])

theorem gives_setreg_other {c : Fin 7} (hlen : p.length = 73) (hcore : u8 p 0 = c.val) (h : d.coreState c ≠ 5) :
    Gives (.setreg tag p) ⟨d, q⟩ (d.ozSend 0x25 tag 0x07 []) :=
  gives_ozReq hon hwork hsession rfl (by simp [hlen]) (exec_setreg ..) (by simp [hcore, Dev.debugCore_none h, ozSETREG, ssSTATE])

omit hon hwork hsession in
theorem u32_lt (b : List Byte) (o : Nat) : u32 b o < 2 ^ 32 := by
  have h0 := u8_lt b o
  have h1 := u8_lt b (o + 1)
  have h2 := u8_lt b (o + 2)
  have h3 := u8_lt b (o + 2 + 1)
  simp only [u32, u16]
  omega

omit hon hwork hsession in
theorem u32_drop (b : List Byte) (k o : Nat) : u32 (b.drop k) o = u32 b (k + o) := by
  simp [u32, u16, u8, List.getD_eq_getElem?_getD, Nat.add_assoc]

omit hon hwork hsession in
theorem CoreSt.ofWords_gr (x : CoreSt) (b : List Byte) (n : Fin 16) : ((x.ofWords b).gr n).toNat = u32 b (4 * n) := by
  simp [CoreSt.ofWords, CoreSt.gr]
  exact u32_lt b (4 * n)

omit hon hwork hsession in
theorem CoreSt.ofWords_pc (x : CoreSt) (b : List Byte) : (x.ofWords b).pc.toNat = u32 b 64 := Nat.mod_eq_of_lt (u32_lt b 64)

omit hon hwork hsession in
theorem CoreSt.ofWords_fl (x : CoreSt) (b : List Byte) : (x.ofWords b).fl.toNat = u32 b 68 % 65536 := by
  rw [CoreSt.ofWords, BitVec.toNat_and, BitVec.toNat_ofNat, Nat.mod_eq_of_lt (u32_lt b 68)]
  exact Nat.and_two_pow_sub_one_eq_mod _ 16

omit hon hwork hsession in
theorem CoreSt.ofWords_rest (x : CoreSt) (b : List Byte) : { x.ofWords b with g := x.g, pc := x.pc, fl := x.fl } = x := by
  cases x
  simp [CoreSt.ofWords]

theorem after_setreg {c : Fin 7} (hlen : p.length = 73) (hcore : u8 p 0 = c.val) (h : d.coreState c = 5) : After (.setreg tag p) ⟨d, q⟩ fun e =>
    (∀ n : Fin 16, ((e.core c).gr n).toNat = u32 p (1 + 4 * n.val)) ∧ ((e.core c).pc).toNat = u32 p 65 ∧ ((e.core c).fl).toNat = u32 p 69 % 65536 ∧
    { e.core c with g := (d.core c).g, pc := (d.core c).pc, fl := (d.core c).fl } = d.core c ∧ (∀ k, k ≠ c → e.core k = d.core k) ∧ e.regs = d.regs := by
  have hgives : Gives (.setreg tag p) ⟨d, q⟩ ((d.setCore c ((d.core c).ofWords (p.drop 1))).ozSend ozSETREG tag ssOK []) :=
    gives_ozReq hon hwork hsession rfl (by simp [hlen]) (exec_setreg ..) (by simp [hcore, Dev.debugCore_debug h])
  have hself : (d.setCore c ((d.core c).ofWords (p.drop 1))).core c = (d.core c).ofWords (p.drop 1) := by simp [Dev.core, Dev.setCore]
  have hother : ∀ k, k ≠ c → (d.setCore c ((d.core c).ofWords (p.drop 1))).core k = d.core k := fun k hk => by
    simp [Dev.core, Dev.setCore, Vector.getElem_set_ne, Fin.val_ne_of_ne hk.symm]
  refine after_of_gives hgives ?_
  simp only [Dev.core_settle, Dev.wakeBy_core, Dev.core_ozSend, hself, Dev.settle_regs, Dev.wakeBy_regs]
  refine ⟨fun n => ?_, ?_, ?_, CoreSt.ofWords_rest _ _, hother, rfl⟩
  · rw [CoreSt.ofWords_gr, u32_drop]
  · rw [CoreSt.ofWords_pc, u32_drop]
  · rw [CoreSt.ofWords_fl, u32_drop]

end

/-- Settles O55: each request of an open session answers what its command finds. -/
theorem debugCommands : Obligations.DebugCommands := by
  unfold Obligations.DebugCommands
  intro d q tag p c f hon hwork hsession
  exact ⟨gives_oztisRead_badarg hon hwork hsession, gives_oztisRead_general hon hwork hsession, gives_oztisRead_fault hon hwork hsession,
    gives_oztisWrite_badarg hon hwork hsession, after_oztisWrite_general hon hwork hsession, after_oztisHalt hon hwork hsession, after_oztisRun hon hwork hsession,
    fun hlen hcore => ⟨gives_regs_debug hon hwork hsession hlen hcore, gives_regs_other hon hwork hsession hlen hcore⟩,
    fun hlen hcore => ⟨after_setreg hon hwork hsession hlen hcore, gives_setreg_other hon hwork hsession hlen hcore⟩⟩

end Sys2Proof.Machine
end

section
/-! Proofs for the cycle that passes (chapter 0): a timer that counts on while the control field is down. -/

namespace Sys2Proof.Machine

/-- A timer with LFCONT whose prescaler has completed, in a control field that is down and which the low-frequency clock has yet to take over (R353). -/
def lfcontTimer : Dev :=
  let d : Dev := { Dev.reset with pwr := { PowerSt.init with fields := 0 } }
  ((d.put (TMR_CTL 0) TMR_CTL_RUN 1).put (TMR_CTL 0) TMR_CTL_LFCONT 1).setTmr 0 { TmrSt.init with pre := 1 }

/-- A register after the step of an empty queue, where it answers a state. -/
def regStep (d : Dev) (a : Nat) : Option Word :=
  match step ⟨d, []⟩ with
  | .next t => some (t.dev.reg a)
  | _ => none

theorem lfcontTimer_still : lfcontTimer.still := by
  have h : lfcontTimer.svc.fall = false ∧ lfcontTimer.confOver = false ∧ lfcontTimer.svc.bad = none ∧ lfcontTimer.fieldOn 1 = false ∧
      lfcontTimer.fieldOn 6 = false ∧ lfcontTimer.fieldOn 4 = false := by decide +kernel
  obtain ⟨hfall, hconf, hbad, hctl, hio, hlink⟩ := h
  exact ⟨hfall, hconf, hbad, .inr ⟨.inl hctl, .inl hio, .inl hlink⟩⟩

theorem lfcontTimer_counts : lfcontTimer.parked = [] ∧ lfcontTimer.reg (TMR_CNT_LO 0) = 0 ∧ regStep lfcontTimer (TMR_CNT_LO 0) = some 1 := by
  decide +kernel

/-- Refutes O1: with the control field down a timer with LFCONT counts on until the low-frequency edge takes it over (R353), so that a cycle which the statement
calls still moves its count. -/
theorem not_stepRunsTheFront : ¬ Obligations.StepRunsTheFront := by
  unfold Obligations.StepRunsTheFront
  intro h
  obtain ⟨_, _, htick⟩ := h ⟨lfcontTimer, []⟩ .supplyLowClear [] 0
  obtain ⟨hparked, hbefore, hafter⟩ := lfcontTimer_counts
  obtain ⟨_, hstill⟩ := htick (.inl hparked)
  obtain ⟨t, ht, _, _, hregs, _⟩ := hstill lfcontTimer_still
  rw [regStep, ht, Option.some.injEq, hregs, hbefore] at hafter
  exact absurd hafter (by decide)

end Sys2Proof.Machine
end

section
/-! Proofs for the reset state (chapters 0 and 13). -/

namespace Sys2Proof.Machine

theorem Dev.reset_reg (a : Nat) : Dev.reset.reg a = regReset a := rfl

theorem Dev.reset_cell (a : Nat) : Dev.reset.cell a = memDflt a := rfl

theorem Dev.reset_core (c : Fin 7) : Dev.reset.core c = CoreSt.init := by simp [Dev.core, Dev.reset]

theorem CoreSt.init_gr (n : Fin 16) : CoreSt.init.gr n = 0 := by simp [CoreSt.gr, CoreSt.init]

theorem reset_values : Dev.reset.get SPI_CFG SPI_CFG_DIV = 3 ∧ Dev.reset.reg PWR_WAKE = 0x01020000 ∧ (∀ c : Fin 7, Dev.reset.reg (PWR_PLEVEL c) = 0x00000101) ∧
    Dev.reset.reg SYS_RSTREC = 0x00000001 := by
  decide +kernel

/-- Settles O3: nothing is listed at reset, so that every register and byte reads its default. -/
theorem resetState : Obligations.ResetState := by
  unfold Obligations.ResetState
  obtain ⟨hspi, hwake, hlevel, hrec⟩ := reset_values
  have hcore : ∀ c, State.reset.dev.core c = CoreSt.init := Dev.reset_core
  refine ⟨fun c => ?_, rfl, rfl, Dev.reset_reg, Dev.reset_cell, fun n => Dev.reset_reg _, hspi, hwake, hlevel, hrec, rfl, rfl, rfl, rfl⟩
  rw [hcore]
  exact ⟨CoreSt.init_gr, rfl, rfl, rfl, rfl, rfl, by decide, by decide⟩

end Sys2Proof.Machine
end

section
/-! Proofs for partial plans (chapter 4): the commands of SOW_CMD, the swap and the drain. -/

namespace Sys2Proof.Machine

/-! ### Commands of SOW_CMD (R75 to R78) -/

section
variable {d : Dev} {q : List Instr} {c : Fin 7}

theorem Dev.sowCmd_stage (d : Dev) : d.sowCmd 0xC3000001 = d.sowStage := rfl
theorem Dev.sowCmd_apply (d : Dev) : d.sowCmd 0xC3000002 = d.sowApplyCmd := rfl
theorem Dev.sowCmd_arm (d : Dev) : d.sowCmd 0xC3000003 = d.sowArmCmd := rfl
theorem Dev.sowCmd_cancel (d : Dev) : d.sowCmd 0xC3000004 = d.sowCancelCmd := rfl

section
variable {e : Dev} (hopen : BusOpen ⟨d, q⟩ c SOW_CMD true)
include hopen

theorem gives_sowStage (h : d.sowStage = e) : Gives (.sowStage c) ⟨d, q⟩ e := gives_of_askCore rfl hopen (exec_sowStage ..) (d.sowCmd_stage.trans h)
theorem gives_sowApply (h : d.sowApplyCmd = e) : Gives (.sowApply c) ⟨d, q⟩ e := gives_of_askCore rfl hopen (exec_sowApply ..) (d.sowCmd_apply.trans h)
theorem gives_sowArm (h : d.sowArmCmd = e) : Gives (.sowArm c) ⟨d, q⟩ e := gives_of_askCore rfl hopen (exec_sowArm ..) (d.sowCmd_arm.trans h)
theorem gives_sowCancel (h : d.sowCancelCmd = e) : Gives (.sowCancel c) ⟨d, q⟩ e := gives_of_askCore rfl hopen (exec_sowCancel ..) (d.sowCmd_cancel.trans h)

end

/-- An engine at work, or a staged plan that is not there, refuses APPLY and ARM. -/
theorem Dev.sowApplyCmd_refused (h : d.sowBusy = true ∨ d.sow.staged = none) : d.sowApplyCmd = d.sowRefuse :=
  if_pos (h.imp_right Option.isNone_iff_eq_none.mpr)

theorem Dev.sowArmCmd_refused (h : d.sowBusy = true ∨ d.sow.staged = none) : d.sowArmCmd = d.sowRefuse :=
  if_pos (h.imp_right Option.isNone_iff_eq_none.mpr)

theorem Dev.sowApplyCmd_taken (hb : d.sowBusy = false) (hs : d.sow.staged.isSome = true) : d.sowApplyCmd = d.swap :=
  if_neg (by simp [hb, ← Option.not_isSome, hs])

theorem Dev.sowArmCmd_taken (hb : d.sowBusy = false) (hs : d.sow.staged.isSome = true) (ha : d.sowState ≠ swARMED) : d.sowArmCmd =
    if atOrPast d.meshNow d.sowWhen then d.sowFail ⟨0x11, 0, 0⟩ ((d.sow.staged.map Plan.planId).getD []) else d.setSow swARMED := by
  rw [Dev.sowArmCmd, if_neg (by simp [hb, ← Option.not_isSome, hs]), if_neg ha]

end

/-! ### Verification of a staged plan (R75) -/

theorem Dev.copyProfiles_regs (d : Dev) (l : List Section) : (d.copyProfiles l).regs = d.regs := by
  unfold Dev.copyProfiles; split <;> rfl

theorem Dev.copyProfiles_sow (d : Dev) (l : List Section) : (d.copyProfiles l).sow = d.sow := by
  unfold Dev.copyProfiles; split <;> rfl

theorem Dev.sowState_setSow (d : Dev) {v : Nat} (h : v < 16) : (d.setSow v).sowState = v := by
  rw [Dev.sowState, Dev.setSow, Dev.get, Dev.reg_put_same, getF_setF_same _ _ _ (by decide) (by decide)]
  exact Nat.mod_eq_of_lt (by simpa [SOW_STAT_STATE, Fld.width] using h)

@[simp] theorem Dev.sowState_settle (d : Dev) : d.settle.sowState = d.sowState := rfl
@[simp] theorem Dev.sowState_wakeBy (d e : Dev) : (d.wakeBy e).sowState = e.sowState := rfl

/-- The device in which a plan that is verified is judged. -/
def Dev.sowVerified (d : Dev) (a : Nat) (v : Option (Fin 2)) : Dev :=
  { d.planRead a with sow := { (d.planRead a).sow with verifying := none }, pwr := { (d.planRead a).pwr with vioB := v.map (·.val) } }

section
variable {d : Dev} {q : List Instr} {v : Option (Fin 2)} {a p : Nat} (h : d.sow.verifying = some (a, p))
include h

theorem gives_stageValidated_fails {f : PFail} (hf : (d.sowVerified a v).planCheck true (d.planBytes a) (v.map (·.val)) = some f) :
    Gives (.stageValidated v) ⟨d, q⟩ (((d.sowVerified a v).setSow p).sowFail f (planId (d.planBytes a))) := by
  refine gives_of_run rfl (exec_stageValidated ..) ?_
  simp only [h]
  rw [← Dev.sowVerified, hf]

theorem gives_stageValidated_passes (hf : (d.sowVerified a v).planCheck true (d.planBytes a) (v.map (·.val)) = none) :
    Gives (.stageValidated v) ⟨d, q⟩ ((Dev.copyProfiles { d.sowVerified a v with sow := { (d.sowVerified a v).sow with staged := some (planOf (d.planBytes a) a) } }
      (planOf (d.planBytes a) a).secs).setSow swSTAGED) := by
  refine gives_of_run rfl (exec_stageValidated ..) ?_
  simp only [h]
  rw [← Dev.sowVerified, hf]
  rfl

end

/-! ### The swap at its instant (R76) -/

theorem Dev.sowFire_armed {d : Dev} (hw : atOrPast d.meshNow d.sowWhen = true) (ha : d.sowState = swARMED) : d.sowFire = d.swap := by
  simp [Dev.sowFire, hw, ha]

theorem Dev.sowFire_verifying {d : Dev} {a : Nat} (hw : atOrPast d.meshNow d.sowWhen = true) (ha : d.sowState ≠ swARMED) (hv : d.sow.verifying = some (a, swARMED)) :
    d.sowFire = (Dev.sowRefuse { d with sow := { d.sow with verifying := none } }).swap := by
  simp [Dev.sowFire, hw, ha, hv]

theorem Dev.sowFire_idle {d : Dev} (h : atOrPast d.meshNow d.sowWhen = false ∨ (d.sowState ≠ swARMED ∧ d.sow.verifying = none)) : d.sowFire = d := by
  obtain hw | ⟨ha, hv⟩ := h
  · simp [Dev.sowFire, hw]
  · simp [Dev.sowFire, ha, hv]

/-- Settles O11: SOW_CMD's commands in and out of the states that accept them, the end of a verification, and the steps of a drain. -/
theorem partialPlansAndSwaps : Obligations.PartialPlansAndSwaps := by
  unfold Obligations.PartialPlansAndSwaps
  refine ⟨fun d q c v => ⟨fun hopen => ⟨?_, ?_, ?_, ?_, ?_, ?_, ?_, ?_⟩, ?_, ?_, ?_, ?_, ?_⟩, fun d q c => ⟨?_, ?_, ?_, ?_, ?_, ?_, ?_, ?_⟩⟩
  · exact fun hb => gives_sowStage hopen (if_neg (by simp [hb]))
  · exact fun hb => ⟨gives_sowStage hopen (if_pos hb), gives_sowApply hopen (Dev.sowApplyCmd_refused (.inl hb)), gives_sowArm hopen (Dev.sowArmCmd_refused (.inl hb))⟩
  · exact fun hs => ⟨gives_sowApply hopen (Dev.sowApplyCmd_refused (.inr hs)), gives_sowArm hopen (Dev.sowArmCmd_refused (.inr hs))⟩
  · exact fun hb hs => gives_sowApply hopen (Dev.sowApplyCmd_taken hb hs)
  · exact fun hb hs ha hw => gives_sowArm hopen (by simp [Dev.sowArmCmd_taken hb hs ha, hw])
  · exact fun p hb hs ha hw => gives_sowArm hopen (by simp [Dev.sowArmCmd_taken hb (by simp [hs]) ha, hw, hs])
  · exact fun h => gives_sowCancel hopen (if_pos h)
  · exact fun hs ha => gives_sowCancel hopen (if_neg (not_or.mpr ⟨hs, ha⟩))
  · refine fun a p h => ⟨fun f hf => gives_stageValidated_fails h hf, fun hf => after_of_gives (gives_stageValidated_passes h hf) ⟨?_, ?_⟩⟩
    · rw [Dev.sowState_settle, Dev.sowState_wakeBy, Dev.sowState_setSow _ (by decide)]
    · rw [Dev.settle_sow, Dev.wakeBy_sow, Dev.setSow, Dev.put_sow, Dev.copyProfiles_sow]
  · intro h
    refine gives_of_run rfl (exec_stageValidated ..) ?_
    simp only [h]
  · exact fun hw ha => gives_of_run rfl rfl (Dev.sowFire_armed hw ha)
  · exact fun a hw ha hv => gives_of_run rfl rfl (Dev.sowFire_verifying hw ha hv)
  · exact fun h => gives_of_run rfl rfl (Dev.sowFire_idle h)
  · intro hin hc
    refine gives_of_run rfl (exec_drainEnd ..) ?_
    simp [hin, hc]
  · intro h
    refine gives_of_run rfl (exec_drainEnd ..) ?_
    obtain hc | hin := h
    · simp [hc]
    · simp [hin]
  · intro hin
    refine gives_of_run rfl (exec_drainLimit ..) ?_
    simp [hin]
  · intro hin
    refine gives_of_run rfl (exec_drainLimit ..) ?_
    simp [hin]
  · intro hin
    refine gives_of_run rfl (exec_channelizerReload ..) ?_
    simp [hin]
  · intro hin
    refine gives_of_run rfl (exec_detectorResume ..) ?_
    simp [hin]
  · intro hin
    refine gives_of_run rfl (exec_channelizerReload ..) ?_
    simp [hin]
  · intro hin
    refine gives_of_run rfl (exec_detectorResume ..) ?_
    simp [hin]

end Sys2Proof.Machine
end

section
/-! Full plans at start-up and the hand-off. -/

namespace Sys2Proof.Machine

/-- What each step of a fold leaves, the fold leaves. -/
theorem foldl_frame {α β : Type} {g : Dev → β} {f : Dev → α → Dev} (h : ∀ d x, g (f d x) = g d) (l : List α) : ∀ d, g (l.foldl f d) = g d := by
  induction l with
  | nil => exact fun _ => rfl
  | cons x l ih => exact fun d => (ih (f d x)).trans (h d x)

theorem Dev.when_frame {β : Type} {g : Dev → β} {f : Dev → Dev} {d : Dev} {b : Bool} (h : g (f d) = g d) : g (d.when b f) = g d := by
  cases b
  · rfl
  · exact h

/-! ### What the timers' events leave of the sowing engine -/

section
variable (d : Dev) (t k : Nat) (ev : Bool)

theorem Dev.tmrNote_sow : (d.tmrNote t).sow = d.sow := by unfold Dev.tmrNote; dsimp only; split <;> rfl

theorem Dev.tmrStart_sow : (d.tmrStart t ev).sow = d.sow := by unfold Dev.tmrStart; dsimp only; split <;> rfl

theorem Dev.tmrClear_sow : (d.tmrClear t).sow = d.sow := Dev.tmrNote_sow (d.padDrive 6 t) t

theorem Dev.tmrEvent_sow : (d.tmrEvent t k).sow = d.sow := Dev.hdlEvent_sow (d.padDrive 6 t) _

theorem Dev.tmrCapture_sow : (d.tmrCapture t).sow = d.sow := by
  unfold Dev.tmrCapture
  dsimp only
  split
  · rfl
  · split
    · rw [Dev.put_sow, Dev.when_frame (g := Dev.sow) (by simp)]; rfl
    · rw [Dev.tmrEvent_sow, Dev.when_frame (g := Dev.sow) (by simp)]; rfl

theorem Dev.tmrConsume_sow : (d.tmrConsume t k).sow = d.sow := by
  unfold Dev.tmrConsume
  split
  · exact d.tmrStart_sow t true
  · rfl
  · exact d.tmrClear_sow t
  · exact d.tmrCapture_sow t

end

section
variable (d e : Dev) (t a : Nat)

theorem Dev.consume_sow : (d.consume a).sow = d.sow := by
  unfold Dev.consume
  simp only [foldl_frame (g := Dev.sow) fun (d : Dev) (p : Nat × Nat) => Dev.tmrConsume_sow d _ _]

theorem Dev.chEvent_sow : (d.chEvent a).sow = d.sow := Dev.consume_sow (d.put (HDL_SEEN (a / 32)) ⟨a % 32, a % 32⟩ 1) a

theorem Dev.hdlRise_sow : (d.hdlRise e).sow = e.sow := by
  refine Eq.trans (foldl_frame (g := Dev.sow) (fun d i => ?_) _ _) (foldl_frame (g := Dev.sow) (fun x a => Dev.chEvent_sow x a) _ _)
  split
  · split
    · exact Dev.count_sow _ _
    · rfl
  · rfl

theorem Dev.loadProfile_sow (p : List Byte) : (d.loadProfile t p).sow = d.sow := by
  unfold Dev.loadProfile
  dsimp only
  split
  · rfl
  · split <;> rfl

theorem Dev.applyPads_sow (old new : List Byte) : (d.applyPads old new).sow = d.sow := by
  refine foldl_frame (g := Dev.sow) (fun d g => ?_) _ _
  dsimp only
  split <;> split <;> rfl

theorem Dev.linesOff_sow : d.linesOff.sow = d.sow :=
  foldl_frame (g := Dev.sow) (f := fun (d : Dev) n => (d.put (FLN_CFG n) FLN_CFG_MODE 0).putB FLN_STAT ⟨n, n⟩ false) (fun _ _ => rfl) _ _

end

/-! ### Full plans (R71, R73) -/

section
variable (d : Dev) (l : List Section) (seq : Nat) (sram recovery : Bool)

/-- The device with the tables of a full plan in its registers. -/
def Dev.planTables : Dev :=
  (((d.applyClock (bodyOf l tCLOCK 0)).applyPower (bodyOf l tPOWER 0)).applyIrq (bodyOf l tIRQ 0)).hdlApply [] (bodyOf l tHEADLAND 0) true false

/-- The device in which a full plan is in force and the channels that rose with it have been events. -/
def Dev.planRisen : Dev := d.hdlRise { d.planTables l with sow := { SowSt.init with force := l, fromSram := sram } }

/-- The device that has the profiles that were staged. -/
def Dev.profilesLoaded : Dev := d.profStaged.foldl (fun (d : Dev) p => d.loadProfile p.1 p.2) d

/-- The device whose pins are sown. -/
def Dev.pinsSown : Dev :=
  { d.linesOff with pwr := { d.pwr with pins := .sown, femDriven := !d.pwr.rfIso && !d.pwr.rfReset, rfStale := d.pwr.rfReset } }

/-- The device in which a full plan has been applied, before the registers of the sowing engine say so. -/
def Dev.planApplied : Dev := ((d.planRisen l sram).profilesLoaded.applyPads [] (bodyOf l tPADS 0)).pinsSown

theorem Dev.applyFull_eq : d.applyFull l seq sram recovery =
    (((((d.planApplied l sram).setReg SOW_SEQ (BitVec.ofNat 32 seq)).setSow swINFORCE).putB SOW_STAT SOW_STAT_RECOVERY recovery).put SOW_STAT SOW_STAT_DONE 1).count SOW_OKCNT := rfl

theorem Dev.planRisen_sow : (d.planRisen l sram).sow = { SowSt.init with force := l, fromSram := sram } := Dev.hdlRise_sow d _

theorem Dev.profilesLoaded_sow : d.profilesLoaded.sow = d.sow :=
  foldl_frame (g := Dev.sow) (fun e (p : Nat × List Byte) => Dev.loadProfile_sow e p.1 p.2) _ _

theorem Dev.pinsSown_sow : d.pinsSown.sow = d.sow := by
  unfold Dev.pinsSown
  dsimp only
  exact d.linesOff_sow

theorem Dev.planApplied_sow : (d.planApplied l sram).sow = { SowSt.init with force := l, fromSram := sram } := by
  rw [Dev.planApplied, Dev.pinsSown_sow, Dev.applyPads_sow, Dev.profilesLoaded_sow, Dev.planRisen_sow]

theorem Dev.applyFull_force : (d.applyFull l seq sram recovery).sow.force = l := by
  rw [Dev.applyFull_eq, Dev.count_sow, Dev.put_sow, Dev.putB_sow, Dev.setSow, Dev.put_sow, Dev.setReg_sow, Dev.planApplied_sow]

theorem Dev.applyFull_pins : (d.applyFull l seq sram recovery).pwr.pins = .sown := by
  rw [Dev.applyFull_eq, Dev.count_pwr]
  rfl

theorem Dev.applyFull_state : (d.applyFull l seq sram recovery).sowState = swINFORCE := by
  rw [Dev.applyFull_eq, Dev.sowState, Dev.get, Dev.reg_count_other _ _ _ (by decide), ← Dev.get, Dev.get_put_field _ _ _ _ _ (by decide) (by decide) (by decide),
    Dev.putB, Dev.get_put_field _ _ _ _ _ (by decide) (by decide) (by decide)]
  exact Dev.sowState_setSow _ (by decide)

theorem Dev.applyFull_seq : (d.applyFull l seq sram recovery).reg SOW_SEQ = BitVec.ofNat 32 seq := by
  rw [Dev.applyFull_eq, Dev.reg_count_other _ _ _ (by decide), Dev.reg_put_other _ _ _ _ _ (by decide), Dev.putB, Dev.reg_put_other _ _ _ _ _ (by decide),
    Dev.setSow, Dev.reg_put_other _ _ _ _ _ (by decide), Dev.reg_setReg_same]

end

/-! ### The measurement of VIO_B, and the hand-off (R66, R74) -/

section
variable {d : Dev} {q : List Instr} {v : Option (Fin 2)} {n b : Nat}

theorem gives_viobMeasure_none (h : d.sow.viobWait = none) : Gives (.viobMeasure v) ⟨d, q⟩ { d with pwr := { d.pwr with vioB := v.map (·.val) } } := by
  refine gives_of_run rfl (exec_viobMeasure ..) ?_
  simp only [h]

variable (h : d.sow.viobWait = some (n, b))
include h

theorem gives_viobMeasure_waits (hv : v = none) (hn : 1 < n) :
    Gives (.viobMeasure v) ⟨d, q⟩ { d with sow := { d.sow with viobWait := some (n - 1, b) } } := by
  refine gives_of_run rfl (exec_viobMeasure ..) ?_
  simp [h, hv, hn]

/-- A measurement that ends the wait. -/
theorem gives_viobMeasure_judge (hv : v.isSome = true ∨ n ≤ 1) (hl : d.sow.bootLeft = []) :
    Gives (.viobMeasure v) ⟨d, q⟩ (d.sowJudge b (v.map (·.val))).2 := by
  have hend : ¬ ((v.map (·.val)).isNone = true ∧ 1 < n) := by
    rintro ⟨hnone, hn⟩
    obtain hv | hv := hv
    · simp [Option.isNone_iff_eq_none.mp (by simpa using hnone)] at hv
    · omega
  refine gives_of_run rfl (exec_viobMeasure ..) ?_
  simp only [h, if_neg hend, hl]

theorem gives_viobMeasure_boot (hv : v.isSome = true ∨ n ≤ 1) (hl : d.sow.bootLeft ≠ []) (hslow : d.flag PWR_SUPPLY PWR_SUPPLY_SLOW = false) :
    Gives (.viobMeasure v) ⟨d, q⟩ (Dev.bootTry
      { d with pwr := { d.pwr with vioB := v.map (·.val) }, sow := { d.sow with bootLeft := [], viobWait := none } } (v.map (·.val)) true d.sow.bootLeft) := by
  have hend : ¬ ((v.map (·.val)).isNone = true ∧ 1 < n) := by
    rintro ⟨hnone, hn⟩
    obtain hv | hv := hv
    · simp [Option.isNone_iff_eq_none.mp (by simpa using hnone)] at hv
    · omega
  refine gives_of_run rfl (exec_viobMeasure ..) ?_
  simp only [h, if_neg hend, Dev.unlessSlow, hslow]
  cases hleft : d.sow.bootLeft with
  | nil => exact absurd hleft hl
  | cons m r => rfl

end

/-- Settles O10. -/
theorem fullPlans : Obligations.FullPlans := by
  unfold Obligations.FullPlans
  intro d q a v
  refine ⟨fun hrom hphase hflash => ?_, fun h => ?_, gives_viobMeasure_none, fun n b h hv => ⟨gives_viobMeasure_judge h hv, gives_viobMeasure_boot h hv⟩,
    fun n b h hv hn => gives_viobMeasure_waits h hv hn, fun l seq sram => ⟨?_, ?_, ?_, ?_⟩, fun hrom hsow hrec => ?_, fun h => ?_⟩
  · refine gives_of_run rfl (exec_fullPlanSow ..) ?_
    refine (if_neg ?_).trans rfl
    · rcases hflash with h | h <;> simp [hrom, hphase, h]
  · refine gives_of_run rfl (exec_fullPlanSow ..) ?_
    exact if_pos (by simpa using h)
  · exact d.applyFull_force l seq sram false
  · exact d.applyFull_pins l seq sram false
  · exact d.applyFull_state l seq sram false
  · exact d.applyFull_seq l seq sram false
  · refine gives_of_run rfl (exec_bootHandoff ..) ?_
    exact if_neg (by simp [hrom, hsow, hrec])
  · refine gives_of_run rfl (exec_bootHandoff ..) ?_
    exact if_pos (by simpa using h)

end Sys2Proof.Machine
end

section
/-! Bits of a field, devices that differ in some registers, the field lines and the backstop. -/

namespace Sys2Proof.Machine

theorem after_of {i : Instr} {d e : Dev} {q : List Instr} {P : Dev → Prop} (h : Gives i ⟨d, q⟩ e) (hp : P (d.wakeBy e).settle) : After i ⟨d, q⟩ P :=
  after_of_gives h hp

theorem gives_of_awake {i : Instr} {d : Dev} {q : List Instr} {f : Dev → Dev} {e : Dev} (h : exec i ⟨d, q⟩ = State.awake ⟨d, q⟩ f)
    (hon : d.pwr.off = false) (he : f d = e) : Gives i ⟨d, q⟩ e :=
  gives_of_on h ((if_neg (by simp [hon])).trans he)

/-- What holds at first and is kept by each step holds after a fold. -/
theorem foldl_keeps {α : Type} {P : Dev → Prop} {f : Dev → α → Dev} {l : List α} (h : ∀ d, ∀ x ∈ l, P d → P (f d x)) : ∀ d, P d → P (l.foldl f d) := by
  induction l with
  | nil => exact fun _ hd => hd
  | cons x l ih =>
    exact fun d hd => ih (fun d y hy => h d y (List.mem_cons_of_mem _ hy)) _ (h d x List.mem_cons_self hd)

/-- What the step of one entry brings about and every step keeps holds after a fold over a list with that entry. -/
theorem foldl_reaches {α : Type} {P Q : Dev → Prop} {f : Dev → α → Dev} {l : List α} {k : α} (hk : k ∈ l) (hQ : ∀ d, ∀ x ∈ l, Q d → Q (f d x))
    (hset : ∀ d, Q d → P (f d k)) (hkeep : ∀ d, ∀ x ∈ l, Q d → P d → P (f d x)) : ∀ d, Q d → P (l.foldl f d) := by
  induction l with
  | nil => exact absurd hk List.not_mem_nil
  | cons x l ih =>
    intro d hd
    have hQ' := hQ d x List.mem_cons_self hd
    by_cases hx : k ∈ l
    · exact ih hx (fun d y hy => hQ d y (List.mem_cons_of_mem _ hy)) (fun d y hy => hkeep d y (List.mem_cons_of_mem _ hy)) _ hQ'
    · obtain rfl : k = x := (List.mem_cons.mp hk).resolve_right hx
      exact (foldl_keeps (P := fun d => Q d ∧ P d) (fun d y hy h => ⟨hQ d y (List.mem_cons_of_mem _ hy) h.1, hkeep d y (List.mem_cons_of_mem _ hy) h.1 h.2⟩) _
        ⟨hQ', hset d hd⟩).2

/-! ### One bit of a field -/

section
variable (d : Dev) (a : Nat) (f g : Fld) (n m : Nat) (b : Bool)

theorem Dev.testBit_get_put (v i : Nat) (hf : f.hi < 32) (hl : f.lo ≤ f.hi) : ((d.put a f v).get a g).testBit i =
    if i < g.width ∧ f.lo ≤ g.lo + i ∧ g.lo + i ≤ f.hi then v.testBit (g.lo + i - f.lo) else (d.get a g).testBit i := by
  rw [Dev.get, Dev.reg_put_same, getF_testBit, setF_getLsbD _ _ _ _ hf hl, Dev.get, getF_testBit]
  by_cases hi : i < g.width
  · simp only [hi, decide_true, Bool.true_and, true_and]
  · simp [hi]

theorem Dev.bitAt_putAt_same (hn : f.lo + n ≤ f.hi) (hf : f.hi < 32) : (d.putAt a f n b).bitAt a f n = b := by
  rw [Dev.bitAt, Dev.putAt, Dev.putB, Dev.testBit_get_put _ _ _ _ _ _ (by dsimp only; omega) (Nat.le_refl _),
    if_pos ⟨by unfold Fld.width; omega, Nat.le_refl _, Nat.le_refl _⟩]
  cases b <;> simp

theorem Dev.bitAt_putAt_ne (hn : f.lo + n < 32) (h : g.lo + m ≠ f.lo + n) : (d.putAt a f n b).bitAt a g m = d.bitAt a g m := by
  rw [Dev.bitAt, Dev.putAt, Dev.putB, Dev.testBit_get_put _ _ _ _ _ _ hn (Nat.le_refl _), if_neg]
  · rfl
  · rintro ⟨-, h1, h2⟩
    exact h (Nat.le_antisymm h2 h1)

theorem Dev.bitAt_wakeSettle (x : Dev) : (x.wakeBy d).settle.bitAt a f n = d.bitAt a f n := rfl

theorem Dev.flag_wakeSettle (x : Dev) : (x.wakeBy d).settle.flag a f = d.flag a f := rfl

theorem Dev.bitAt_put_other {c : Nat} (v : Nat) (h : a ≠ c) : (d.put c f v).bitAt a g m = d.bitAt a g m := by
  rw [Dev.bitAt, Dev.get_put_other _ _ _ _ _ _ h]
  rfl

end

/-! ### Devices that differ in some registers -/

/-- The devices have the same memory and cores, and the same registers but for those listed. -/
structure Dev.SameBut (l : List Nat) (d e : Dev) : Prop where
  mem : e.mem = d.mem
  wins : e.wins = d.wins
  cores : e.cores = d.cores
  reg : ∀ a, a ∉ l → e.reg a = d.reg a

namespace Dev.SameBut

variable {l : List Nat} {d e g : Dev}

theorem refl (d : Dev) : SameBut l d d := ⟨rfl, rfl, rfl, fun _ _ => rfl⟩

theorem trans (h : SameBut l d e) (h' : SameBut l e g) : SameBut l d g :=
  ⟨h'.mem.trans h.mem, h'.wins.trans h.wins, h'.cores.trans h.cores, fun a ha => (h'.reg a ha).trans (h.reg a ha)⟩

theorem put {a : Nat} (ha : a ∈ l) (f : Fld) (v : Nat) (h : SameBut l d e) : SameBut l d (e.put a f v) :=
  ⟨h.mem, h.wins, h.cores, fun b hb => (Dev.reg_put_other _ _ _ _ _ (ne_of_mem_of_not_mem ha hb).symm).trans (h.reg b hb)⟩

theorem setReg {a : Nat} (ha : a ∈ l) (v : Word) (h : SameBut l d e) : SameBut l d (e.setReg a v) :=
  ⟨h.mem, h.wins, h.cores, fun b hb => (Dev.reg_setReg_other _ _ _ _ (ne_of_mem_of_not_mem ha hb).symm).trans (h.reg b hb)⟩

theorem count {a : Nat} (ha : a ∈ l) (h : SameBut l d e) : SameBut l d (e.count a) := by
  unfold Dev.count
  split
  · exact h.put ha _ _
  · exact h.put ha _ _

theorem mono {m : List Nat} (hl : ∀ a ∈ l, a ∈ m) (h : SameBut l d e) : SameBut m d e :=
  ⟨h.mem, h.wins, h.cores, fun a ha => h.reg a fun hal => ha (hl a hal)⟩

/-- Registers, memory, windows and cores are all that counts. -/
theorem congr (h : SameBut l d e) (hmem : g.mem = e.mem) (hwins : g.wins = e.wins) (hcores : g.cores = e.cores) (hregs : g.regs = e.regs) : SameBut l d g :=
  ⟨hmem.trans h.mem, hwins.trans h.wins, hcores.trans h.cores, fun a ha => (by rw [Dev.reg, hregs, Dev.reg] : g.reg a = e.reg a).trans (h.reg a ha)⟩

theorem report (hl : ∀ a ∈ [ERL_LOST, ERL_STAT, ERL_LASTLOST, ERL_LASTLT, ERL_FIRSTLOST, ERL_FIRSTLT], a ∈ l) (blk unit code : Nat) (detail : Word) (extra : List Word)
    (h : SameBut l d e) : SameBut l d (e.report blk unit code detail extra) := by
  have hcount : SameBut l d { e.count ERL_LOST with erlCyc := e.clk.cyc + 1 } := (h.count (hl ERL_LOST (by decide))).congr rfl rfl rfl rfl
  have hlost : SameBut l d (e.lose blk unit code e.meshNow) := by
    have hlast := ((hcount.put (hl ERL_STAT (by decide)) ERL_STAT_OVF 1).setReg (hl ERL_LASTLOST (by decide)) (mkWord
      [(ERL_FIRSTLOST_BLOCK, blk), (ERL_FIRSTLOST_UNIT, unit), (ERL_FIRSTLOST_VALID, 1), (ERL_FIRSTLOST_CODE, code)])).setReg (hl ERL_LASTLT (by decide)) (BitVec.ofNat 32 e.meshNow)
    unfold Dev.lose
    dsimp only
    split
    · exact hlast
    · exact (hlast.setReg (hl ERL_FIRSTLOST (by decide)) _).setReg (hl ERL_FIRSTLT (by decide)) _
  unfold Dev.report
  split
  · exact hlost
  · exact h.congr rfl rfl rfl rfl

theorem byte (h : SameBut l d e) (hl : FLC_BOOT ∉ l) (y : Nat) : e.byte y = d.byte y := by
  have hboot : e.get FLC_BOOT FLC_BOOT_ACTIVE = d.get FLC_BOOT FLC_BOOT_ACTIVE := by rw [Dev.get, h.reg _ hl, Dev.get]
  simp [Dev.byte, Dev.canon, Dev.winSector, Dev.winOf, hboot, h.mem, h.wins]

theorem get (h : SameBut l d e) {a : Nat} (ha : a ∉ l) (f : Fld) : e.get a f = d.get a f := by rw [Dev.get, h.reg a ha, Dev.get]

theorem flag (h : SameBut l d e) {a : Nat} (ha : a ∉ l) (f : Fld) : e.flag a f = d.flag a f := by rw [Dev.flag, h.get ha, Dev.flag]

/-- The step's end leaves of these what they are. -/
theorem wakeSettle (h : SameBut l d e) (x : Dev) (hl : FLC_BOOT ∉ l) :
    (∀ a, a ∉ l → (x.wakeBy e).settle.reg a = d.reg a) ∧ (x.wakeBy e).settle.cores = d.cores ∧ ∀ y, (x.wakeBy e).settle.byte y = d.byte y := by
  refine ⟨h.reg, h.cores, fun y => ?_⟩
  rw [Dev.byte_settle]
  exact h.byte hl y

end Dev.SameBut


/-! ### The field lines (R28, R29, R31) -/

section
variable (d : Dev) (v : Word) (k n : Nat)

/-- Line `n` is cleared by a write of `v` to FLN_FLT. -/
def Dev.fltHit (d : Dev) (v : Word) (n : Nat) : Bool := testBit v n && sget 0 d.fltCyc n ≠ d.clk.cyc + 1

/-- One line's part of a write to FLN_FLT. -/
def Dev.fltStep (d : Dev) (v : Word) (n : Nat) : Dev :=
  if d.fltHit v n then ((d.putAt FLN_FLT FLN_FLT_FLT n false).putAt FLN_STAT FLN_STAT_TRIP n false).put FLN_CAUSE (flnCause n) 0 else d

theorem Dev.fltClear_eq : d.fltClear v = (span 0 8).foldl (fun d n => d.fltStep v n) d := rfl

/-- The lines that are cleared are the same in two devices. -/
def Dev.SameHits (d e : Dev) : Prop := e.fltCyc = d.fltCyc ∧ e.clk = d.clk

theorem Dev.SameHits.hit {d e : Dev} (h : d.SameHits e) : e.fltHit v n = d.fltHit v n := by rw [Dev.fltHit, h.1, h.2]; rfl

theorem Dev.SameHits.step {d e : Dev} (h : d.SameHits e) : d.SameHits (e.fltStep v n) := by
  unfold Dev.fltStep
  split <;> exact h

/-- Nothing of line `k` is left in the registers of the declarations. -/
def Dev.FltGone (d : Dev) (k : Nat) : Prop :=
  d.bitAt FLN_FLT FLN_FLT_FLT k = false ∧ d.bitAt FLN_STAT FLN_STAT_TRIP k = false ∧ d.get FLN_CAUSE (flnCause k) = 0

variable {d k n v}

theorem Dev.fltStep_gone (hk : k < 8) (h : d.fltHit v k = true) : (d.fltStep v k).FltGone k := by
  rw [Dev.fltStep, if_pos h]
  refine ⟨?_, ?_, ?_⟩
  · rw [Dev.bitAt_put_other _ _ _ _ _ _ (by decide), Dev.putAt, Dev.putB, Dev.bitAt_put_other _ _ _ _ _ _ (by decide)]
    exact d.bitAt_putAt_same _ _ _ _ (by show 0 + k ≤ 7; omega) (by decide)
  · rw [Dev.bitAt_put_other _ _ _ _ _ _ (by decide)]
    exact Dev.bitAt_putAt_same _ _ _ _ _ (by show 24 + k ≤ 31; omega) (by decide)
  · rw [Dev.get_put_same _ _ _ _ (by show 4 * k + 3 < 32; omega) (by show 4 * k ≤ 4 * k + 3; omega)]
    exact Nat.zero_mod _

theorem Dev.bits_fltStep_ne (hn : n < 8) (h : k ≠ n) :
    (d.fltStep v n).bitAt FLN_FLT FLN_FLT_FLT k = d.bitAt FLN_FLT FLN_FLT_FLT k ∧ (d.fltStep v n).bitAt FLN_STAT FLN_STAT_TRIP k = d.bitAt FLN_STAT FLN_STAT_TRIP k ∧
      (d.fltStep v n).get FLN_CAUSE (flnCause k) = d.get FLN_CAUSE (flnCause k) := by
  unfold Dev.fltStep
  split
  · refine ⟨?_, ?_, ?_⟩
    · rw [Dev.bitAt_put_other _ _ _ _ _ _ (by decide), Dev.putAt, Dev.putB, Dev.bitAt_put_other _ _ _ _ _ _ (by decide)]
      exact d.bitAt_putAt_ne _ _ _ _ _ _ (by show 0 + n < 32; omega) (by omega)
    · rw [Dev.bitAt_put_other _ _ _ _ _ _ (by decide), Dev.bitAt_putAt_ne _ _ _ _ _ _ _ (by show 24 + n < 32; omega) (by omega)]
      exact Dev.bitAt_put_other _ _ _ _ _ _ (by decide)
    · rw [Dev.get_put_field _ _ _ _ _ (by show 4 * n + 3 < 32; omega) (by show 4 * n ≤ 4 * n + 3; omega) (by show 4 * k + 3 < 4 * n ∨ 4 * n + 3 < 4 * k; omega),
        Dev.putAt, Dev.putB, Dev.get_put_other _ _ _ _ _ _ (by decide), Dev.putAt, Dev.putB, Dev.get_put_other _ _ _ _ _ _ (by decide)]
  · exact ⟨rfl, rfl, rfl⟩

theorem Dev.fltStep_same (d : Dev) (v : Word) (n : Nat) : Dev.SameBut [FLN_FLT, FLN_STAT, FLN_CAUSE] d (d.fltStep v n) := by
  unfold Dev.fltStep
  split
  · exact (((Dev.SameBut.refl d).put (by simp) _ _).put (by simp) _ _).put (by simp) _ _
  · exact .refl d

theorem Dev.fltClear_same (d : Dev) (v : Word) : Dev.SameBut [FLN_FLT, FLN_STAT, FLN_CAUSE] d (d.fltClear v) :=
  foldl_keeps (f := fun e n => e.fltStep v n) (fun e n _ he => he.trans (e.fltStep_same v n)) d (.refl d)

theorem Dev.fltClear_gone (hk : k < 8) (h : d.fltHit v k = true) : (d.fltClear v).FltGone k := by
  refine foldl_reaches (P := fun e => e.FltGone k) (Q := fun e => d.SameHits e) (k := k) (l := span 0 8) (mem_span.mpr ⟨Nat.zero_le _, by omega⟩) (fun e n _ he => he.step v n)
    (fun e he => Dev.fltStep_gone hk ((he.hit v k).trans h)) (fun e n hn he hgone => ?_) _ ⟨rfl, rfl⟩
  by_cases hkn : k = n
  · subst hkn
    exact Dev.fltStep_gone hk ((he.hit v k).trans h)
  · obtain ⟨hf, ht, hc⟩ := Dev.bits_fltStep_ne (d := e) (v := v) (by have := (mem_span.mp hn).2; omega) hkn
    exact ⟨hf.trans hgone.1, ht.trans hgone.2.1, hc.trans hgone.2.2⟩

theorem Dev.fltClear_kept (h : d.fltHit v k = false) :
    (d.fltClear v).bitAt FLN_FLT FLN_FLT_FLT k = d.bitAt FLN_FLT FLN_FLT_FLT k ∧ (d.fltClear v).bitAt FLN_STAT FLN_STAT_TRIP k = d.bitAt FLN_STAT FLN_STAT_TRIP k := by
  refine (foldl_keeps (f := fun e n => e.fltStep v n) (P := fun e => d.SameHits e ∧ e.bitAt FLN_FLT FLN_FLT_FLT k = d.bitAt FLN_FLT FLN_FLT_FLT k ∧
    e.bitAt FLN_STAT FLN_STAT_TRIP k = d.bitAt FLN_STAT FLN_STAT_TRIP k) (fun e n hn he => ⟨he.1.step v n, ?_⟩) d ⟨⟨rfl, rfl⟩, rfl, rfl⟩).2
  obtain ⟨hsame, hf, ht⟩ := he
  by_cases hkn : k = n
  · subst hkn
    rw [Dev.fltStep, if_neg (by simp [hsame.hit, h])]
    exact ⟨hf, ht⟩
  · obtain ⟨hf', ht', -⟩ := Dev.bits_fltStep_ne (d := e) (v := v) (by have := (mem_span.mp hn).2; omega) hkn
    exact ⟨hf'.trans hf, ht'.trans ht⟩

end


/-! ### A write of FLN_CFG -/

section
variable (d : Dev) (n : Fin 8) (w old : Word)

theorem row_FLN_CFG_write : row_FLN_CFG.write old w =
    setF (setF (setF (setF old FLN_CFG_RETRY (getF w FLN_CFG_RETRY)) FLN_CFG_ILIM (getF w FLN_CFG_ILIM)) FLN_CFG_WET (getF w FLN_CFG_WET)) FLN_CFG_MODE
      (getF w FLN_CFG_MODE) := rfl

theorem Dev.plainWrite_FLN_CFG : d.plainWrite (FLN_CFG n) w = d.setReg (FLN_CFG n) (row_FLN_CFG.write (d.reg (FLN_CFG n)) w) := by
  have hat : ∀ n : Fin 8, (regAt (FLN_CFG n)).map (·.1) = some row_FLN_CFG := by decide
  obtain ⟨p, hp, hrow⟩ := Option.map_eq_some_iff.mp (hat n)
  rw [Dev.plainWrite, hp]
  dsimp only
  rw [hrow]

/-- A field of FLN_CFG takes what is written to it. -/
theorem getF_row_FLN_CFG_write {f : Fld} (hf : f ∈ [FLN_CFG_MODE, FLN_CFG_WET, FLN_CFG_ILIM, FLN_CFG_RETRY]) : getF (row_FLN_CFG.write old w) f = getF w f := by
  have hlt := getF_lt w f
  simp only [List.mem_cons, List.not_mem_nil, or_false] at hf
  rw [row_FLN_CFG_write]
  obtain rfl | rfl | rfl | rfl := hf
  · rw [getF_setF_same _ _ _ (by decide) (by decide), Nat.mod_eq_of_lt hlt]
  · rw [getF_setF_other _ _ _ _ (by decide) (by decide) (by decide), getF_setF_same _ _ _ (by decide) (by decide), Nat.mod_eq_of_lt hlt]
  · rw [getF_setF_other _ _ _ _ (by decide) (by decide) (by decide), getF_setF_other _ _ _ _ (by decide) (by decide) (by decide),
      getF_setF_same _ _ _ (by decide) (by decide), Nat.mod_eq_of_lt hlt]
  · rw [getF_setF_other _ _ _ _ (by decide) (by decide) (by decide), getF_setF_other _ _ _ _ (by decide) (by decide) (by decide),
      getF_setF_other _ _ _ _ (by decide) (by decide) (by decide), getF_setF_same _ _ _ (by decide) (by decide), Nat.mod_eq_of_lt hlt]

/-- What follows the write of FLN_CFG concerns the line's state. -/
theorem Dev.flnWrite_state : Dev.SameBut [FLN_STAT] (d.plainWrite (FLN_CFG n) w) (d.flnWrite n w) := by
  have hmem : FLN_STAT ∈ [FLN_STAT] := by decide
  unfold Dev.flnWrite
  dsimp only
  split <;> split
  · exact .refl _
  · exact (Dev.SameBut.refl _).put hmem _ _
  · exact (Dev.SameBut.refl _).put hmem _ _
  · exact ((Dev.SameBut.refl _).put hmem _ _).put hmem _ _

theorem Dev.flnWrite_same : Dev.SameBut [FLN_STAT, FLN_CFG n] d (d.flnWrite n w) := by
  have hstate := d.flnWrite_state n w
  refine Dev.SameBut.trans ((Dev.SameBut.refl d).setReg (a := FLN_CFG n) (by simp) (row_FLN_CFG.write (d.reg (FLN_CFG n)) w)) ?_
  rw [← d.plainWrite_FLN_CFG n w]
  exact ⟨hstate.mem, hstate.wins, hstate.cores, fun a ha => hstate.reg a (by simp_all)⟩

theorem Dev.get_flnWrite {f : Fld} (hf : f ∈ [FLN_CFG_MODE, FLN_CFG_WET, FLN_CFG_ILIM, FLN_CFG_RETRY]) : (d.flnWrite n w).get (FLN_CFG n) f = getF w f := by
  rw [(d.flnWrite_state n w).get (by simp [FLN_CFG, FLN_STAT]; omega), d.plainWrite_FLN_CFG n w, Dev.get, Dev.reg_setReg_same]
  exact getF_row_FLN_CFG_write _ _ hf

end

/-! ### The backstop (R43) -/

section
variable (d : Dev) (k : Nat)

/-- The forced drop of one core. -/
def Dev.dropP3 (d : Dev) (c : Nat) : Dev :=
  ((d.put (PWR_PLEVEL c) PWR_PLEVEL_LEVEL 3).put (PWR_PLEVEL c) PWR_PLEVEL_CUR 3).put (PWR_PLEVEL c) PWR_PLEVEL_BUSY 1

/-- The core stands at P3. -/
def Dev.AtP3 (d : Dev) (c : Nat) : Prop := d.get (PWR_PLEVEL c) PWR_PLEVEL_LEVEL = 3 ∧ d.get (PWR_PLEVEL c) PWR_PLEVEL_CUR = 3

theorem Dev.dropP3_same (c : Nat) : Dev.SameBut [PWR_PLEVEL c] d (d.dropP3 c) :=
  (((Dev.SameBut.refl d).put (by simp) _ _).put (by simp) _ _).put (by simp) _ _

theorem Dev.dropP3_at : (d.dropP3 k).AtP3 k := by
  constructor
  · rw [Dev.dropP3, Dev.get_put_field _ _ _ _ _ (by decide) (by decide) (by decide), Dev.get_put_field _ _ _ _ _ (by decide) (by decide) (by decide),
      Dev.get_put_same _ _ _ _ (by decide) (by decide)]
    rfl
  · rw [Dev.dropP3, Dev.get_put_field _ _ _ _ _ (by decide) (by decide) (by decide), Dev.get_put_same _ _ _ _ (by decide) (by decide)]
    rfl

variable {d k}

theorem Dev.AtP3.drop (h : d.AtP3 k) (c : Nat) : (d.dropP3 c).AtP3 k := by
  by_cases hc : k = c
  · exact hc ▸ d.dropP3_at k
  · have hne : PWR_PLEVEL k ∉ [PWR_PLEVEL c] := by simp [PWR_PLEVEL]; omega
    exact ⟨((d.dropP3_same c).get hne _).trans h.1, ((d.dropP3_same c).get hne _).trans h.2⟩

/-- The cores that the forced drop takes down. -/
def Dev.aboveP3 (d : Dev) : List Nat :=
  (span 0 7).filter (fun c => d.coreLive c && (d.get (PWR_PLEVEL c) PWR_PLEVEL_LEVEL != 3 || d.get (PWR_PLEVEL c) PWR_PLEVEL_CUR != 3))

theorem Dev.mem_aboveP3 : k ∈ d.aboveP3 ↔ k < 7 ∧ d.coreLive k = true ∧ ¬ d.AtP3 k := by
  simp only [Dev.aboveP3, List.mem_filter, mem_span, Dev.AtP3, Bool.and_eq_true, Bool.or_eq_true, bne_iff_ne]
  constructor
  · rintro ⟨hk, hlive, hor⟩
    exact ⟨by omega, hlive, fun h => hor.elim (· h.1) (· h.2)⟩
  · rintro ⟨hk, hlive, hnot⟩
    exact ⟨by omega, hlive, Decidable.not_and_iff_not_or_not.mp hnot⟩

theorem Dev.forceP3_of_nil (h : d.aboveP3 = []) : d.forceP3 = d := by
  unfold Dev.forceP3
  rw [show (span 0 7).filter _ = [] from h]
  rfl

theorem Dev.forceP3_eq : d.forceP3 = d.aboveP3.foldl Dev.dropP3 (if d.aboveP3.isEmpty then d else { d with pwr := { d.pwr with lvlRun := none } }) := rfl

/-- After the forced drop every core that runs is at P3. -/
theorem Dev.forceP3_at (hk : k < 7) (hlive : d.coreLive k = true) : d.forceP3.AtP3 k := by
  rw [Dev.forceP3_eq]
  by_cases hat : d.AtP3 k
  · exact foldl_keeps (P := fun e => e.AtP3 k) (fun e c _ he => he.drop c) _ (by split <;> exact hat)
  · exact foldl_reaches (P := fun e => e.AtP3 k) (Q := fun _ => True) (Dev.mem_aboveP3.mpr ⟨hk, hlive, hat⟩) (fun _ _ _ _ => trivial)
      (fun e _ => e.dropP3_at k) (fun e c _ _ he => he.drop c) _ trivial

end


/-! ### What the statement says of a declaration and of a sample -/

section
variable {d : Dev} {q : List Instr} {n : Fin 8} {v : LineV} {mw : BitVec 16}

/-- A declared line: TRIP and FLT set, its count raised. -/
def Dev.declared (d : Dev) (n : Nat) : Dev :=
  (((d.putAt FLN_STAT FLN_STAT_TRIP n true).putAt FLN_STAT FLN_STAT_LIM n false).putAt FLN_FLT FLN_FLT_FLT n true).count (FLN_FLTCNT n)

theorem Dev.declared_same (n : Nat) : Dev.SameBut [FLN_STAT, FLN_FLT, FLN_FLTCNT n] d (d.declared n) :=
  ((((Dev.SameBut.refl d).put (by simp) _ _).put (by simp) _ _).put (by simp) _ _).count (by simp)

theorem Dev.declared_trip (hn : n.val < 8) : (d.declared n).bitAt FLN_STAT FLN_STAT_TRIP n = true := by
  have hcnt : FLN_STAT ≠ FLN_FLTCNT n := by simp [FLN_FLTCNT, FLN_STAT]; omega
  rw [Dev.declared, Dev.bitAt, Dev.get, Dev.reg_count_other _ _ _ hcnt, ← Dev.get, ← Dev.bitAt, Dev.putAt, Dev.putB, Dev.bitAt_put_other _ _ _ _ _ _ (by decide),
    Dev.bitAt_putAt_ne _ _ _ _ _ _ _ (by show 16 + n.val < 32; omega) (by show 24 + n.val ≠ 16 + n.val; omega)]
  exact d.bitAt_putAt_same _ _ _ _ (by show 24 + n.val ≤ 31; omega) (by decide)

theorem Dev.declared_clk (n : Nat) : (d.declared n).clk = d.clk := by
  rw [Dev.declared, Dev.count_clk]
  rfl

/-- The declaration of line `n` in cycle `cyc`, in the log and among the declarations of its cycle. -/
def Dev.faultNoted (e : Dev) (n cyc : Nat) : Dev :=
  Dev.report { e with fltCyc := sset 0 e.fltCyc n (cyc + 1) } 22 n 1 (BitVec.ofNat 32 (e.get FLN_CAUSE (flnCause n))) []

theorem Dev.causePut_clk (d : Dev) (n : Fin 8) (v : LineV) :
    (if d.bitAt FLN_FLT FLN_FLT_FLT n then d else d.put FLN_CAUSE (flnCause n) (lineCause (d.get (FLN_CFG n) FLN_CFG_MODE) v)).clk = d.clk := by
  split <;> rfl

theorem Dev.lineFault_eq (h : d.lineLive n v = true) :
    (if !d.lineLive n v then d
     else
      let d := if d.bitAt FLN_FLT FLN_FLT_FLT n then d else d.put FLN_CAUSE (flnCause n) (lineCause (d.get (FLN_CFG n) FLN_CFG_MODE) v)
      let d := (d.putAt FLN_STAT FLN_STAT_TRIP n true).putAt FLN_STAT FLN_STAT_LIM n false
      let d := (d.putAt FLN_FLT FLN_FLT_FLT n true).count (FLN_FLTCNT n)
      let d := { d with fltCyc := sset 0 d.fltCyc n (d.clk.cyc + 1) }
      d.report 22 n 1 (BitVec.ofNat 32 (d.get FLN_CAUSE (flnCause n))) []) =
    ((if d.bitAt FLN_FLT FLN_FLT_FLT n then d else d.put FLN_CAUSE (flnCause n) (lineCause (d.get (FLN_CFG n) FLN_CFG_MODE) v)).declared n).faultNoted n d.clk.cyc := by
  refine (if_neg (by simp [h])).trans (congrArg (Dev.faultNoted _ _) (congrArg (fun x => x.cyc) ((Dev.declared_clk _).trans (d.causePut_clk n v))))

/-- The registers of the error log that a lost report changes. -/
def logRegs : List Nat := [ERL_LOST, ERL_STAT, ERL_LASTLOST, ERL_LASTLT, ERL_FIRSTLOST, ERL_FIRSTLT]

theorem Dev.faultNoted_same (e : Dev) (n cyc : Nat) : Dev.SameBut logRegs e (e.faultNoted n cyc) :=
  Dev.SameBut.report (fun _ h => h) 22 n 1 _ [] (e := { e with fltCyc := sset 0 e.fltCyc n (cyc + 1) }) ((Dev.SameBut.refl e).congr rfl rfl rfl rfl)

/-- The sample in the monitor's memory and in its average. -/
def Dev.sampled (d : Dev) (mw : Nat) : Dev :=
  let d := { d with pwr := { d.pwr with mon := (mw :: d.pwr.mon).take 100 } }
  d.put PWR_MON PWR_MON_AVG_MW (d.monSum / d.pwr.mon.length)

theorem Dev.sampled_same (mw : Nat) : Dev.SameBut [PWR_MON] d (d.sampled mw) :=
  Dev.SameBut.put (e := { d with pwr := { d.pwr with mon := (mw :: d.pwr.mon).take 100 } }) (by simp) _ _ ⟨rfl, rfl, rfl, fun _ _ => rfl⟩

theorem Dev.sampled_over (mw : Nat) : (d.sampled mw).flag PWR_MON PWR_MON_OVER = d.flag PWR_MON PWR_MON_OVER := by
  rw [Dev.flag, Dev.sampled, Dev.get_put_field _ _ _ _ _ (by decide) (by decide) (by decide)]
  rfl

theorem Dev.forceP3_mon (d : Dev) : d.forceP3.pwr.mon = d.pwr.mon := by
  rw [Dev.forceP3_eq]
  refine (foldl_frame (g := fun e : Dev => e.pwr.mon) (f := Dev.dropP3) (fun _ _ => rfl) _ _).trans ?_
  split <;> rfl

end

section
variable {d : Dev} {mw : Nat}

/-- What the monitor does of a sample. -/
def Dev.monitored (d : Dev) (mw : Nat) : Dev :=
  let e := d.sampled mw
  if e.flag PWR_MON PWR_MON_OVER then e.forceP3 else if e.monOver 5 then e.backstop else e

theorem Dev.report_frame {β : Type} {g : Dev → β} (d : Dev) (blk unit code : Nat) (detail : Word) (extra : List Word)
    (hreg : ∀ e a v, g (Dev.setReg e a v) = g e) (hcyc : ∀ (e : Dev) n, g { e with erlCyc := n } = g e) (hwait : ∀ (e : Dev) l, g { e with waiting := l } = g e) :
    g (d.report blk unit code detail extra) = g d := by
  have hcount : ∀ e a, g (Dev.count e a) = g e := fun e a => by unfold Dev.count; split <;> exact hreg _ _ _
  have hlose : g (d.lose blk unit code d.meshNow) = g d := by
    unfold Dev.lose
    dsimp only
    split
    · exact (hreg _ _ _).trans ((hreg _ _ _).trans ((hreg _ _ _).trans ((hcyc _ _).trans (hcount _ _))))
    · exact (hreg _ _ _).trans ((hreg _ _ _).trans ((hreg _ _ _).trans ((hreg _ _ _).trans ((hreg _ _ _).trans ((hcyc _ _).trans (hcount _ _))))))
  unfold Dev.report
  split
  · exact hlose
  · exact hwait _ _

theorem Dev.sampled_mon (d : Dev) (mw : Nat) : (d.sampled mw).pwr.mon = (mw :: d.pwr.mon).take 100 := rfl

theorem Dev.monitored_mon (d : Dev) (mw : Nat) : (d.monitored mw).pwr.mon = (mw :: d.pwr.mon).take 100 := by
  unfold Dev.monitored
  dsimp only
  split
  · exact (Dev.forceP3_mon _).trans rfl
  · split
    · refine (Dev.report_frame (g := fun e : Dev => e.pwr.mon) _ _ _ _ _ _ (fun _ _ _ => rfl) (fun _ _ => rfl) (fun _ _ => rfl)).trans ?_
      exact (Dev.forceP3_mon _).trans rfl
    · rfl

theorem Dev.sampled_monOver (d : Dev) (mw pct : Nat) : (d.sampled mw).monOver pct =
    decide (d.get PWR_CEIL PWR_CEIL_CEIL * (100 + pct) * ((mw :: d.pwr.mon).take 100).length < 100 * ((mw :: d.pwr.mon).take 100).foldl (· + ·) 0) := by
  rw [Dev.monOver, (d.sampled_same mw).get (by decide)]
  rfl

theorem Dev.monitored_over (hover : (d.sampled mw).monOver 5 = true) (hflag : d.flag PWR_MON PWR_MON_OVER = false) : d.monitored mw = (d.sampled mw).backstop := by
  unfold Dev.monitored
  dsimp only
  rw [d.sampled_over, hflag, if_neg Bool.false_ne_true, if_pos hover]

theorem Dev.coreState_of_reg {d e : Dev} (h : e.reg SYS_CORESTAT = d.reg SYS_CORESTAT) (k : Nat) : e.coreState k = d.coreState k := by
  rw [Dev.coreState, Dev.get, h, Dev.coreState, Dev.get]

theorem Dev.AtP3.same {d e : Dev} {l : List Nat} {k : Nat} (h : d.AtP3 k) (hs : Dev.SameBut l d e) (hl : PWR_PLEVEL k ∉ l) : e.AtP3 k :=
  ⟨(hs.get hl _).trans h.1, (hs.get hl _).trans h.2⟩

theorem Dev.monitored_stays (hflag : d.flag PWR_MON PWR_MON_OVER = true)
    (hat : ∀ k : Fin 7, d.coreLive k = true → d.get (PWR_PLEVEL k) PWR_PLEVEL_LEVEL = 3 ∧ d.get (PWR_PLEVEL k) PWR_PLEVEL_CUR = 3) :
    d.monitored mw = d.sampled mw := by
  have hsame := d.sampled_same mw
  unfold Dev.monitored
  dsimp only
  rw [d.sampled_over, hflag, if_pos rfl]
  refine Dev.forceP3_of_nil (List.eq_nil_iff_forall_not_mem.mpr fun k hk => ?_)
  obtain ⟨hk, hlive, hnot⟩ := Dev.mem_aboveP3.mp hk
  refine hnot (Dev.AtP3.same (d := d) (hat ⟨k, hk⟩ ?_) hsame (by simp [PWR_PLEVEL, PWR_MON]; omega))
  rw [Dev.coreLive, ← Dev.coreState_of_reg (hsame.reg SYS_CORESTAT (by decide))]
  exact hlive

theorem Dev.forceP3_same (d : Dev) : Dev.SameBut ((span 0 7).map PWR_PLEVEL) d d.forceP3 := by
  rw [Dev.forceP3_eq]
  refine foldl_keeps (fun e c hc he => he.trans ((e.dropP3_same c).mono ?_)) _ (by split <;> exact (Dev.SameBut.refl d).congr rfl rfl rfl rfl)
  intro a ha
  rw [List.mem_singleton.mp ha]
  exact List.mem_map_of_mem (List.mem_filter.mp hc).1

/-- OVER stands after the backstop, and every core that runs is at P3. -/
theorem Dev.backstop_over (d : Dev) : d.backstop.flag PWR_MON PWR_MON_OVER = true ∧ ∀ {k : Nat}, k < 7 → d.coreLive k = true → d.backstop.AtP3 k := by
  have hlog : Dev.SameBut logRegs (d.put PWR_MON PWR_MON_OVER 1).forceP3 d.backstop := (Dev.SameBut.refl _).report (fun _ h => h) ..
  have hlive : ∀ k, (d.put PWR_MON PWR_MON_OVER 1).coreLive k = d.coreLive k := fun k => by
    rw [Dev.coreLive, Dev.coreState_of_reg (Dev.reg_put_other _ _ _ _ _ (by decide)), Dev.coreLive]
  refine ⟨?_, fun {k} hk h => (Dev.forceP3_at hk ((hlive k).trans h)).same hlog ?_⟩
  · rw [hlog.flag (by decide), (Dev.forceP3_same _).flag (by decide)]
    exact d.flag_put_one PWR_MON (f := PWR_MON_OVER) (by decide) (by decide)
  · simp [logRegs, PWR_PLEVEL, ERL_LOST, ERL_STAT, ERL_LASTLOST, ERL_LASTLT, ERL_FIRSTLOST, ERL_FIRSTLT]
    omega

end

/-- Settles O7. -/
theorem supplyAndFieldLines : Obligations.SupplyAndFieldLines := by
  unfold Obligations.SupplyAndFieldLines
  refine ⟨fun d q c n v w => ⟨fun hon hlive hflt => ?_, fun hon hlive hflt => ?_, fun hon hretry => ?_, fun hopen => ?_, fun hopen => ?_⟩,
    fun d q c h mv mw => ⟨fun hon => ⟨?_, ?_, ?_, ?_⟩, fun hoff => ?_, fun hoff => ?_, ?_, fun hon hover hat => ?_, fun hopen hm => ?_, fun hopen hm => ?_⟩⟩
  · refine gives_of_awake (exec_fieldLineFault ..) hon ((d.lineFault_eq hlive).trans ?_)
    rw [hflt, if_neg Bool.false_ne_true]
    rfl
  · refine after_of (gives_of_awake (exec_fieldLineFault ..) hon (d.lineFault_eq hlive)) ?_
    rw [hflt, if_pos rfl]
    have hnoted := (d.declared n).faultNoted_same n d.clk.cyc
    have hsame := ((d.declared_same n.val).mono (m := FLN_STAT :: FLN_FLT :: FLN_FLTCNT n :: logRegs) (by simp)).trans (hnoted.mono fun a h => by simp [h])
    have hkeep : ∀ a ∈ [FLN_CAUSE, FLC_BOOT], a ∉ FLN_STAT :: FLN_FLT :: FLN_FLTCNT n :: logRegs := by
      have := n.isLt
      simp [FLN_FLTCNT, FLN_CAUSE, FLC_BOOT, FLN_STAT, FLN_FLT, logRegs, ERL_LOST, ERL_STAT, ERL_LASTLOST, ERL_LASTLT, ERL_FIRSTLOST, ERL_FIRSTLT]
      omega
    obtain ⟨hreg, hcores, hbyte⟩ := hsame.wakeSettle d (hkeep FLC_BOOT (by simp))
    refine ⟨hreg _ (hkeep _ (by simp)), ?_, hcores, hbyte⟩
    rw [Dev.bitAt_wakeSettle, Dev.bitAt, hnoted.get (by decide) FLN_STAT_TRIP]
    exact Dev.declared_trip n.isLt
  · exact gives_of_awake (exec_fieldLineRetry ..) hon (if_neg hretry)
  · refine after_of (gives_of_askCore rfl hopen (exec_flnCfgWrite ..) rfl) ?_
    have hsame := d.flnWrite_same n w
    obtain ⟨hreg, hcores, hbyte⟩ := hsame.wakeSettle d (by simp [FLN_CFG, FLN_STAT, FLC_BOOT]; omega)
    refine ⟨fun f hf => ?_, fun a hstat hcfg => hreg a (by simp [hstat, hcfg]), hcores, hbyte⟩
    rw [Dev.get_settle, Dev.wakeBy_get]
    exact d.get_flnWrite n w hf
  · refine after_of (gives_of_askCore rfl hopen (exec_fltClear ..) rfl) ?_
    have hsame := d.fltClear_same w
    obtain ⟨hreg, hcores, hbyte⟩ := hsame.wakeSettle d (by decide)
    refine ⟨fun k hk hbit hcyc => ?_, fun k hk h => ?_, fun a ha => hreg a ?_, hcores, hbyte⟩
    · rw [Dev.bitAt_wakeSettle, Dev.bitAt_wakeSettle, Dev.get_settle, Dev.wakeBy_get]
      exact Dev.fltClear_gone hk (by simp [Dev.fltHit, hbit, hcyc])
    · rw [Dev.bitAt_wakeSettle, Dev.bitAt_wakeSettle]
      exact Dev.fltClear_kept (by rcases h with h | h <;> simp [Dev.fltHit, h])
    · simpa [or_comm, or_left_comm] using ha
  · exact gives_of_awake (exec_supplyLowWarning ..) hon rfl
  · exact gives_of_awake (exec_supplyLowClear ..) hon rfl
  · exact gives_of_awake (exec_vinWindowEnd ..) hon rfl
  · refine after_of (gives_of_awake (exec_powerMonitorSample ..) hon rfl) ?_
    rw [Dev.settle_pwr, Dev.wakeBy_pwr_mon]
    exact d.monitored_mon mw.toNat
  · refine gives_of_run rfl (exec_reservationRelease ..) ?_
    exact if_pos hoff
  · refine gives_of_run rfl (exec_reservationRelease ..) ?_
    exact if_neg (by simp [hoff])
  · intro m hon hover hflag
    refine after_of (gives_of_awake (exec_powerMonitorSample ..) hon (Dev.monitored_over ?_ hflag)) ?_
    · rw [d.sampled_monOver]
      exact decide_eq_true hover
    · obtain ⟨hflag, hat⟩ := (d.sampled mw.toNat).backstop_over
      rw [Dev.flag_wakeSettle]
      refine ⟨hflag, fun k hk => ?_⟩
      simp only [Dev.get_settle, Dev.wakeBy_get]
      refine hat k.isLt ?_
      rw [Dev.coreLive, Dev.coreState_of_reg ((d.sampled_same mw.toNat).reg SYS_CORESTAT (by decide))]
      exact decide_eq_true hk
  · refine after_of (gives_of_awake (exec_powerMonitorSample ..) hon (Dev.monitored_stays hover hat)) fun k => ?_
    rw [Dev.reg_settle, Dev.wakeBy_reg]
    exact (d.sampled_same mw.toNat).reg _ (by simp [PWR_PLEVEL, PWR_MON]; omega)
  · refine gives_of_run rfl (exec_overClear ..) ((byCore_open hopen _).trans ?_)
    exact if_pos ⟨by decide, by simp [hm]⟩
  · refine gives_of_run rfl (exec_overClear ..) ((byCore_open hopen _).trans ?_)
    exact if_neg (by simp [hm])

end Sys2Proof.Machine
end

section
/-! The course of a transmission. -/

namespace Sys2Proof.Machine

/-! ### Transmissions under way -/

section
variable {d : Dev} {t : Nat} {x : TxRec} {l : List Nat} {f : TxRec → Dev}

theorem Dev.course_none (h : d.txOf t = none) : d.course t l f = d := by simp only [Dev.course, h]

/-- A transmission at an instant of its course. -/
theorem Dev.course_in (hx : d.txOf t = some x) (hl : l.contains (d.txState t) = true) : d.course t l f = f x := by simp only [Dev.course, hx, hl, if_true]

end

theorem arrives_beq {d : Dev} {q : List Instr} {i : Instr} : State.arrives ⟨d, q⟩ (· == i) = decide (i ∈ q) := by
  rw [State.arrives, Bool.eq_iff_iff]
  simp

/-- A meaning that speaks of a transmission under way, at one of its states. -/
theorem gives_of_course {i : Instr} {d e : Dev} {q : List Instr} {t : Nat} {x : TxRec} {l : List Nat} {f : Dev → TxRec → Dev} (hr : rootFree i = false)
    (h : exec i ⟨d, q⟩ = State.run ⟨d, q⟩ fun d => d.course t l (f d)) (hx : d.txOf t = some x) (hl : l.contains (d.txState t) = true) (he : f d x = e) :
    Gives i ⟨d, q⟩ e := gives_of_run hr h ((Dev.course_in hx hl).trans he)

theorem contains_of_eq {n m : Nat} {l : List Nat} (h : n = m) (hm : m ∈ l := by decide) : l.contains n = true := by simp [h, hm]

section
variable (d : Dev) (t : Fin 2) (x : TxRec) (a : Bool)

/-- The transmission ends for the coexistence port. -/
def Dev.coexEnded (d : Dev) (t : Nat) (x : TxRec) : Dev := ((d.setTx t (some { x with code := 0x23 })).setTxState t 5).count COX_ABRTCNT

theorem Dev.coexEnded_state : (d.coexEnded t x).get (RFC_TXSTAT t) RFC_TXSTAT_STATE = 5 := by
  rw [Dev.coexEnded, Dev.get, Dev.reg_count_other _ _ _ (by simp [RFC_TXSTAT, COX_ABRTCNT]; omega), ← Dev.get, Dev.setTxState, Dev.get_put_same _ _ _ _ (by decide) (by decide)]
  rfl

theorem Dev.coexEnded_txOf : (d.coexEnded t x).txOf t = some { x with code := 0x23 } := by
  rw [Dev.coexEnded, Dev.txOf, Dev.count_txs, Dev.setTxState, Dev.put_txs]
  exact (d.txOf_setTx t t _).trans (if_pos rfl)

theorem coexLine_txState : (if a then d.put COX_STAT COX_STAT_ACT 1 else d.put COX_STAT COX_STAT_GNT 0).txState t = d.txState t := by
  have hne : RFC_TXSTAT t ≠ COX_STAT := by simp [RFC_TXSTAT, COX_STAT]; omega
  split <;> exact Dev.get_put_other _ _ _ _ _ _ hne

theorem Dev.txOf_settle (t : Nat) : d.settle.txOf t = d.txOf t := rfl

theorem Dev.txOf_wakeBy (e : Dev) (t : Nat) : (d.wakeBy e).txOf t = e.txOf t := rfl

end

/-- Settles O18. -/
theorem transmissionCourse : Obligations.TransmissionCourse := by
  unfold Obligations.TransmissionCourse
  intro d q t x ent bHz pwr lead toa cls
  refine ⟨fun h => ?_, fun h => ?_, fun hnone w hw => ?_, fun hx => ⟨fun h => ?_, fun h hon => ?_, fun h => ?_, fun h => ?_, fun h => ?_, fun h hp hon g => ?_,
    fun h hp hon => ⟨?_, fun hh => ?_, fun hh => ?_⟩, fun h => ?_, fun h hr => ?_, fun h hq hb => ?_, fun h hq hb => ?_, fun hq => ?_, fun h hreq => ?_,
    fun h hp => ?_, fun h hp => ?_, fun h hp hc => ?_, fun h hab hon a => ?_⟩, fun hoff a => ?_⟩
  · exact gives_of_run rfl (exec_txArm ..) (if_neg (by simp [h]))
  · exact gives_of_run rfl (exec_txArm ..) (if_pos h)
  · simp only [List.mem_cons, List.not_mem_nil, or_false] at hw
    obtain rfl | rfl | rfl | rfl | rfl | rfl | rfl | rfl | rfl | rfl | rfl | rfl := hw
    · exact gives_of_run rfl (exec_coexRequestRaise ..) (Dev.course_none hnone)
    · exact gives_of_run rfl (exec_txSetup ..) (Dev.course_none hnone)
    · exact gives_of_run rfl (exec_trswToTransmit ..) (Dev.course_none hnone)
    · exact gives_of_run rfl (exec_lockCheck ..) (Dev.course_none hnone)
    · exact gives_of_run rfl (exec_lockCheck ..) (Dev.course_none hnone)
    · exact gives_of_run rfl (exec_rampStart ..) (Dev.course_none hnone)
    · exact gives_of_run rfl (exec_rampStart ..) (Dev.course_none hnone)
    · exact gives_of_run rfl (exec_grantSeen ..) (Dev.course_none hnone)
    · exact gives_of_run rfl (exec_grantWaitTimeout ..) ((congrArg _ (Dev.course_none hnone)).trans (ite_self _))
    · exact gives_of_run rfl (exec_txLastSample ..) (Dev.course_none hnone)
    · exact gives_of_run rfl (exec_rampDownEnd ..) (Dev.course_none hnone)
    · exact gives_of_run rfl (exec_txEnd ..) (Dev.course_none hnone)
  · exact gives_of_course rfl (exec_txSetup ..) hx (contains_of_eq h) rfl
  · exact gives_of_course rfl (exec_coexRequestRaise ..) hx (h.elim contains_of_eq contains_of_eq) (if_pos hon)
  · exact gives_of_course rfl (exec_trswToTransmit ..) hx (contains_of_eq h) rfl
  · exact gives_of_course rfl (exec_lockCheck ..) hx (contains_of_eq h) rfl
  · exact gives_of_course rfl (exec_lockCheck ..) hx (contains_of_eq h) rfl
  · exact gives_of_course rfl (exec_rampStart ..) hx (contains_of_eq h) ((if_neg (by simp [hp])).trans (if_pos (by simp [hon])))
  · exact gives_of_course rfl (exec_rampStart ..) hx (contains_of_eq h) ((if_neg (by simp [hp])).trans (if_neg (by simp [hon])))
  · exact gives_of_course rfl (exec_rampStart ..) hx (contains_of_eq h) ((if_neg (by simp [hp])).trans ((if_neg (by simp [hon])).trans (if_pos hh)))
  · exact gives_of_course rfl (exec_rampStart ..) hx (contains_of_eq h) ((if_neg (by simp [hp])).trans ((if_neg (by simp [hon])).trans (if_neg (c := hardStart x.cls = true) (by simp [hh]))))
  · exact gives_of_course rfl (exec_grantSeen ..) hx (contains_of_eq h) (if_pos h)
  · exact gives_of_course rfl (exec_grantSeen ..) hx (h.elim contains_of_eq contains_of_eq) ((if_neg (by omega)).trans (if_pos hr))
  · exact gives_of_run rfl (exec_grantWaitTimeout ..) ((if_neg (by simp [arrives_beq, hq])).trans ((Dev.course_in hx (contains_of_eq h)).trans (if_pos hb)))
  · exact gives_of_run rfl (exec_grantWaitTimeout ..) ((if_neg (by simp [arrives_beq, hq])).trans ((Dev.course_in hx (contains_of_eq h)).trans (if_neg hb)))
  · exact gives_of_run rfl (exec_grantWaitTimeout ..) (if_pos (by simp [arrives_beq, hq]))
  · refine gives_of_course rfl (exec_txLastSample ..) hx (contains_of_eq h) ?_
    simp only [hreq]
  · exact gives_of_course rfl (exec_rampDownEnd ..) hx (contains_of_eq h) (if_pos hp)
  · exact gives_of_course rfl (exec_txEnd ..) hx (contains_of_eq h) (if_pos hp)
  · refine gives_of_course rfl (exec_txEnd ..) hx (contains_of_eq h) ((if_neg (by simp [hp])).trans ?_)
    simp [Dev.when, hc]
  · refine after_of (gives_of_run rfl (exec_coexAbort ..) ((if_pos hon).trans ((Dev.course_in (x := x) (by split <;> exact hx) ?_).trans (if_pos ?_)))) ⟨?_, ?_⟩
    · rw [coexLine_txState]
      exact contains_of_eq h
    · split <;> exact hab
    · rw [Dev.txState, Dev.get_settle, Dev.wakeBy_get]
      exact Dev.coexEnded_state _ _ _
    · rw [Dev.txOf_settle, Dev.txOf_wakeBy]
      exact Dev.coexEnded_txOf _ _ _
  · exact gives_of_run rfl (exec_coexAbort ..) (if_neg (by simp [hoff]))

end Sys2Proof.Machine
end

section
/-! The radio front end. -/

namespace Sys2Proof.Machine

/-- A meaning that is one core's access to a register that no block rests at. -/
theorem gives_of_byCore {i : Instr} {d e : Dev} {q : List Instr} {c : Fin 7} {a : Nat} {w : Bool} {f : Dev → Dev} (hr : rootFree i = false)
    (ho : BusOpen ⟨d, q⟩ c a w) (h : exec i ⟨d, q⟩ = State.run ⟨d, q⟩ fun d => d.byCore c a w f) (he : f d = e) : Gives i ⟨d, q⟩ e :=
  gives_of_run hr h ((byCore_open ho f).trans he)

section
variable {d : Dev} {t : Nat} {x : TxRec} {i k : Nat} {v : Word}

theorem Dev.calfWrite_busy (hx : d.txOf t = some x) (hi : x.ent = i) : d.calfWrite t i k = d := by simp [Dev.calfWrite, hx, hi]

theorem Dev.calfWrite_in (hx : d.txOf t = none) (hm : sget none d.calMeas t ≠ some i) (hk : k < 2 ^ 22) (hin : inBand t k = true) :
    d.calfWrite t i k = (d.setReg (SYN_CALF t i) (mkWord [(SYN_CALF_FREQ_KHZ, k)])).calEnqueue t i := by
  simp only [Dev.calfWrite, hx, Bool.false_eq_true, if_false, if_neg hm, Nat.mod_eq_of_lt hk, hin, if_true]

theorem Dev.calfWrite_out (hx : d.txOf t = none) (hm : sget none d.calMeas t ≠ some i) (hk : k < 2 ^ 22) (hin : inBand t k = false) :
    d.calfWrite t i k = Dev.setReg { d with calQ := d.calQ.filter (· ≠ 256 * t + i) } (SYN_CALF t i) (mkWord [(SYN_CALF_BAD, 1), (SYN_CALF_FREQ_KHZ, k)]) := by
  simp only [Dev.calfWrite, hx, Bool.false_eq_true, if_false, if_neg hm, Nat.mod_eq_of_lt hk, hin]

theorem Dev.pwrtabWrite_busy (hx : d.txOf t = some x) (hi : x.pwr = i) : d.pwrtabWrite t i v = d := by simp [Dev.pwrtabWrite, hx, hi]

/-- The word that a write to the power table leaves. -/
def pwrWord (t : Nat) (v : Word) : Word :=
  let q := sext 9 (getF v RFC_PWRTAB_TARGET)
  let ok := targetOk t q
  mkWord [(RFC_PWRTAB_RSV_MW, if ok then rsvMw t q else 0), (RFC_PWRTAB_VALID, ok.toNat), (RFC_PWRTAB_DRV, getF v RFC_PWRTAB_DRV),
    (RFC_PWRTAB_BIAS, getF v RFC_PWRTAB_BIAS), (RFC_PWRTAB_TARGET, getF v RFC_PWRTAB_TARGET)]

theorem Dev.pwrtabWrite_free (hx : d.txOf t = none) : d.pwrtabWrite t i v = d.setReg (RFC_PWRTAB t i) (pwrWord t v) := by
  simp only [Dev.pwrtabWrite, hx, Bool.false_eq_true, if_false, pwrWord]

theorem pwrWord_eq (t : Nat) (v : Word) : pwrWord t v =
    (let q := sext 9 (getF v RFC_PWRTAB_TARGET)
     setF (setF (setF (setF (setF 0 RFC_PWRTAB_RSV_MW (if targetOk t q then rsvMw t q else 0)) RFC_PWRTAB_VALID (targetOk t q).toNat)
       RFC_PWRTAB_DRV (getF v RFC_PWRTAB_DRV)) RFC_PWRTAB_BIAS (getF v RFC_PWRTAB_BIAS)) RFC_PWRTAB_TARGET (getF v RFC_PWRTAB_TARGET)) := rfl

theorem getF_pwrWord_target (t : Nat) (v : Word) : getF (pwrWord t v) RFC_PWRTAB_TARGET = getF v RFC_PWRTAB_TARGET := by
  rw [pwrWord_eq, getF_setF_same _ _ _ (by decide) (by decide)]
  exact Nat.mod_eq_of_lt (getF_lt v _)

theorem getF_pwrWord_valid (t : Nat) (v : Word) : getF (pwrWord t v) RFC_PWRTAB_VALID = (targetOk t (sext 9 (getF v RFC_PWRTAB_TARGET))).toNat := by
  rw [pwrWord_eq, getF_setF_other _ _ _ _ (by decide) (by decide) (by decide), getF_setF_other _ _ _ _ (by decide) (by decide) (by decide),
    getF_setF_other _ _ _ _ (by decide) (by decide) (by decide), getF_setF_same _ _ _ (by decide) (by decide)]
  cases targetOk t (sext 9 (getF v RFC_PWRTAB_TARGET)) <;> rfl

end

section
variable (d : Dev) (c : Nat) (peak : BitVec 8)

theorem Dev.agcPeak_get {f : Fld} (hf : f.hi < 24) : (d.put (RFC_RXSTAT c) RFC_RXSTAT_PEAK peak.toNat).get (RFC_RXSTAT c) f = d.get (RFC_RXSTAT c) f :=
  Dev.get_put_field _ _ _ _ _ (by decide) (by decide) (.inl hf)

theorem Dev.agcPeak_flag : (d.put (RFC_RXSTAT c) RFC_RXSTAT_PEAK peak.toNat).flag (RFC_RXSTAT c) RFC_RXSTAT_BLANKED = d.flag (RFC_RXSTAT c) RFC_RXSTAT_BLANKED := by
  rw [Dev.flag, d.agcPeak_get c peak (by decide), Dev.flag]

/-- The peak of a window that clipped, and its count. -/
def Dev.agcPeaked (d : Dev) (c : Nat) (peak : BitVec 8) : Dev := (d.put (RFC_RXSTAT c) RFC_RXSTAT_PEAK peak.toNat).count (RFC_CLIPCNT c)

/-- The end of a window that clipped, recorded. -/
def Dev.agcClip (d : Dev) (c : Nat) (peak : BitVec 8) : Dev :=
  (d.agcPeaked c peak).setRx c { (d.agcPeaked c peak).rxOf c with
    since := min 4 (((d.agcPeaked c peak).rxOf c).since + 1), blk := (d.agcPeaked c peak).flag (RFC_RXSTAT c) RFC_RXSTAT_BLANKED }

theorem Dev.agcPeaked_get {f : Fld} (hf : f.hi < 24) : (d.agcPeaked c peak).get (RFC_RXSTAT c) f = d.get (RFC_RXSTAT c) f := by
  rw [Dev.agcPeaked, Dev.get, Dev.reg_count_other _ _ _ (by simp [RFC_RXSTAT, RFC_CLIPCNT]), ← Dev.get]
  exact d.agcPeak_get c peak hf

theorem Dev.agcPeaked_ctl (f : Fld) : (d.agcPeaked c peak).get (RFC_RXCTL c) f = d.get (RFC_RXCTL c) f := by
  rw [Dev.agcPeaked, Dev.get, Dev.reg_count_other _ _ _ (by simp [RFC_RXCTL, RFC_CLIPCNT]), ← Dev.get]
  exact Dev.get_put_other _ _ _ _ _ _ (by simp [RFC_RXCTL, RFC_RXSTAT])

theorem Dev.agcPeaked_rxOf : (d.agcPeaked c peak).rxOf c = d.rxOf c := by
  rw [Dev.agcPeaked, Dev.rxOf, Dev.count_rx]
  rfl

theorem Dev.agcClip_steps (hagc : d.get (RFC_RXCTL c) RFC_RXCTL_AGC = 1) (hblk : (d.rxOf c).blk = false) (hbl : d.flag (RFC_RXSTAT c) RFC_RXSTAT_BLANKED = false)
    (hs : 3 ≤ (d.rxOf c).since) (hg : d.get (RFC_RXSTAT c) RFC_RXSTAT_GAINNOW < 7) :
    (true && (d.agcClip c peak).get (RFC_RXCTL c) RFC_RXCTL_AGC == 1 &&
      !(((d.agcPeaked c peak).rxOf c).blk || (d.agcPeaked c peak).flag (RFC_RXSTAT c) RFC_RXSTAT_BLANKED) && min 4 (((d.agcPeaked c peak).rxOf c).since + 1) == 4
      && decide ((d.agcClip c peak).get (RFC_RXSTAT c) RFC_RXSTAT_GAINNOW < 7)) = true := by
  have hctl : (d.agcClip c peak).get (RFC_RXCTL c) RFC_RXCTL_AGC = 1 := (d.agcPeaked_ctl c peak _).trans hagc
  have hgain : (d.agcClip c peak).get (RFC_RXSTAT c) RFC_RXSTAT_GAINNOW < 7 := (d.agcPeaked_get c peak (f := RFC_RXSTAT_GAINNOW) (by decide)).symm ▸ hg
  have hflag : (d.agcPeaked c peak).flag (RFC_RXSTAT c) RFC_RXSTAT_BLANKED = false := by rw [Dev.flag, d.agcPeaked_get c peak (by decide), ← Dev.flag, hbl]
  have hmin : min 4 ((d.rxOf c).since + 1) = 4 := by omega
  simp [hctl, hgain, hflag, d.agcPeaked_rxOf c peak, hblk, hmin]

theorem Dev.reg_hdlEvent (n : Nat) {a : Nat} (ha : a ≠ HDL_CNT 0) : (d.hdlEvent n).reg a = d.reg a := by
  unfold Dev.hdlEvent
  split
  · rfl
  · dsimp only
    split
    · exact Dev.reg_count_other _ _ _ ha
    · rfl

theorem Dev.gainStep_same (v : Nat) : (d.gainStep c v).get (RFC_RXSTAT c) RFC_RXSTAT_GAINNOW = v % 2 ^ 3 ∧ (d.gainStep c v).flag (RFC_RXSTAT c) RFC_RXSTAT_AGCSTEP = true ∧
    ((d.gainStep c v).rxOf c).since = 0 := by
  have hget : ∀ f, (d.gainStep c v).get (RFC_RXSTAT c) f =
      ((d.put (RFC_RXSTAT c) RFC_RXSTAT_GAINNOW v).put (RFC_RXSTAT c) RFC_RXSTAT_AGCSTEP 1).get (RFC_RXSTAT c) f := fun f =>
    congrArg (getF · f) (Dev.reg_hdlEvent _ _ (by simp [RFC_RXSTAT, HDL_CNT]; omega))
  refine ⟨?_, ?_, ?_⟩
  · rw [hget, Dev.get_put_field _ _ _ _ _ (by decide) (by decide) (by decide)]
    exact Dev.get_put_same _ _ _ _ (by decide) (by decide)
  · rw [Dev.flag, hget, Dev.get_put_same _ _ _ _ (by decide) (by decide)]
    rfl
  · show (sget RxSt.init (Dev.hdlEvent _ _).rx c).since = 0
    rw [Dev.hdlEvent_rx]
    show (sget RxSt.init (sset RxSt.init _ c _) c).since = 0
    rw [sget_sset, if_pos rfl]

theorem Dev.rxOf_settle (d : Dev) (c : Nat) : d.settle.rxOf c = d.rxOf c := rfl

theorem Dev.rxOf_wakeBy (d e : Dev) (c : Nat) : (d.wakeBy e).rxOf c = e.rxOf c := rfl

end

section
variable {d : Dev} (sel : Bool)

/-- The device in which the antenna asked for is recorded. -/
def Dev.antAsked (d : Dev) (sel : Bool) : Dev := (d.putB RFC_ANT RFC_ANT_SEL sel).put RFC_ANT RFC_ANT_PEND 1

theorem Dev.antAsked_free : (d.antAsked sel).antFree = d.antFree := by
  have hreg : ∀ t, RFC_TXSTAT t ≠ RFC_ANT := fun t => by simp [RFC_TXSTAT, RFC_ANT]; omega
  have hget : ∀ t, (d.antAsked sel).get (RFC_TXSTAT t) RFC_TXSTAT_STATE = d.get (RFC_TXSTAT t) RFC_TXSTAT_STATE := fun t =>
    (Dev.get_put_other _ _ _ _ _ _ (hreg t)).trans (Dev.get_put_other _ _ _ _ _ _ (hreg t))
  simp only [Dev.antFree, hget]

theorem Dev.antAsked_sel : (d.antAsked sel).flag RFC_ANT RFC_ANT_SEL = sel := by
  rw [Dev.flag, Dev.antAsked, Dev.get_put_field _ _ _ _ _ (by decide) (by decide) (by decide), Dev.putB, Dev.get_put_same _ _ _ _ (by decide) (by decide)]
  cases sel <;> rfl

end

/-- Settles O16. -/
theorem radioFrontEnd : Obligations.RadioFrontEnd := by
  unfold Obligations.RadioFrontEnd
  intro d q c x t m i k g v peak clip
  refine ⟨fun h => ?_, fun h => ?_, fun h => ⟨?_, ?_⟩, fun h => ?_, fun h hagc hblk hbl hs hg => ?_, fun h hagc hbl => ⟨fun hg => ?_, fun hg => ?_⟩, fun ho => ?_,
    fun ho hbw => ?_, fun h => ?_, fun ho hx hm => ?_, fun r hr he ho => ?_, fun r hr hp ho => ?_, fun ho hx => ?_, fun ho sel => ⟨fun hf => ?_, fun hf => ?_⟩,
    fun hh hp => ?_, fun hh => ?_, fun khz => ?_⟩
  · exact gives_of_run rfl (exec_rxChainReady ..) (if_neg (by simp [h]))
  · exact gives_of_run rfl (exec_rxChainReady ..) (if_pos h)
  · exact gives_of_run rfl (exec_agcWindowEnd ..) (if_neg (by simp [h]))
  · exact gives_of_run rfl (exec_agcStepUp ..) (if_neg (by simp [h]))
  · refine gives_of_run rfl (exec_agcWindowEnd ..) ((if_pos h).trans ?_)
    simp only [Dev.when, Bool.false_and, Bool.false_eq_true, if_false, Dev.agcPeak_flag]
    rfl
  · refine after_of (gives_of_run rfl (exec_agcWindowEnd ..) ((if_pos h).trans (if_pos (d.agcClip_steps x peak hagc hblk hbl hs hg)))) ?_
    obtain ⟨hgain, hstep, hsince⟩ := (d.agcClip x peak).gainStep_same x ((d.agcClip x peak).get (RFC_RXSTAT x) RFC_RXSTAT_GAINNOW + 1)
    refine ⟨?_, ?_, ?_⟩
    · rw [Dev.get_settle, Dev.wakeBy_get]
      refine hgain.trans ?_
      rw [show (d.agcClip x peak).get (RFC_RXSTAT x) RFC_RXSTAT_GAINNOW = _ from d.agcPeaked_get x peak (by decide)]
      exact Nat.mod_eq_of_lt (by omega)
    · rw [Dev.flag_wakeSettle]
      exact hstep
    · rw [Dev.rxOf_settle, Dev.rxOf_wakeBy]
      exact hsince
  · exact gives_of_run rfl (exec_agcStepUp ..) (if_pos (by simp [h, hagc, hbl, hg]))
  · exact gives_of_run rfl (exec_agcStepUp ..) (if_neg (by simp [h, hagc, hbl, hg]))
  · exact gives_of_byCore rfl ho (exec_gainWrite ..) rfl
  · intro out
    refine ⟨fun hen hout => ?_, fun hor => ?_⟩
    · refine gives_of_byCore rfl ho (exec_mctapWrite ..) ?_
      rw [Dev.mctapWrite, if_neg hbw]
      exact if_pos ⟨hen, hout⟩
    · refine gives_of_byCore rfl ho (exec_mctapWrite ..) ?_
      rw [Dev.mctapWrite, if_neg hbw]
      exact if_neg fun h => hor.elim (fun h0 => by omega) (fun hn => hn h.2)
  · exact gives_of_run rfl (exec_blankingEnd ..) (if_neg (by simp [h]))
  · exact ⟨fun hin => gives_of_byCore rfl ho (exec_calfWrite ..) (Dev.calfWrite_in hx hm (getF_lt _ _) hin),
      fun hin => gives_of_byCore rfl ho (exec_calfWrite ..) (Dev.calfWrite_out hx hm (getF_lt _ _) hin)⟩
  · exact gives_of_byCore rfl ho (exec_calfWrite ..) (Dev.calfWrite_busy hr he)
  · exact gives_of_byCore rfl ho (exec_pwrtabWrite ..) (Dev.pwrtabWrite_busy hr hp)
  · refine after_of (gives_of_byCore rfl ho (exec_pwrtabWrite ..) (Dev.pwrtabWrite_free hx)) ?_
    obtain ⟨hreg, hcores, hbyte⟩ := ((Dev.SameBut.refl d).setReg (a := RFC_PWRTAB t k) (l := [RFC_PWRTAB t k]) (by simp) (pwrWord t v)).wakeSettle d
      (by simp [RFC_PWRTAB, FLC_BOOT]; omega)
    refine ⟨?_, ?_, fun a ha => hreg a (by simpa using ha), hcores, hbyte⟩
    · rw [Dev.flag_wakeSettle, Dev.flag, Dev.get, Dev.reg_setReg_same, getF_pwrWord_valid]
      cases targetOk t (sext 9 (getF v RFC_PWRTAB_TARGET)) <;> rfl
    · rw [Dev.get_settle, Dev.wakeBy_get, Dev.get, Dev.reg_setReg_same, getF_pwrWord_target]
  · refine after_of (gives_of_byCore rfl ho (exec_antennaWrite ..) (if_pos ((Dev.antAsked_free sel).trans hf))) ⟨Dev.antAsked_sel sel, ?_⟩
    rw [Dev.get_settle, Dev.wakeBy_get]
    exact Dev.get_put_same _ _ _ _ (by decide) (by decide)
  · refine after_of (gives_of_byCore (e := d.antAsked sel) rfl ho (exec_antennaWrite ..) (if_neg (by rw [← Dev.antAsked, Dev.antAsked_free, hf]; decide))) ⟨rfl, ?_, ?_⟩
    · rw [Dev.get_settle, Dev.wakeBy_get]
      exact Dev.get_put_same _ _ _ _ (by decide) (by decide)
    · rw [Dev.flag_wakeSettle]
      exact Dev.antAsked_sel sel
  · exact gives_of_run rfl (exec_txHoldEnd ..) (if_neg (by simp [hh, hp]))
  · exact gives_of_run rfl (exec_txHoldEnd ..) (if_pos (by simpa using hh))
  · exact gives_of_run rfl (exec_dwellTrackerFree ..) rfl

end Sys2Proof.Machine
end

section
/-! A write of the child table. -/

namespace Sys2Proof.Machine

/-- A device whose cores run, the window of whose child-table entry 0 waits to be judged. -/
def windowWaits : Dev :=
  { Dev.reset.setReg SYS_CORESTAT 0x01111111 with
    pwr := { PowerSt.init with phase := .running, pins := .sown, brownOut := false }
    clk := { ClockSt.init with rootUp := true }
    romHidden := true
    winWait := [0] }

/-- The entries whose windows wait in the next state, where the command answers one. -/
def waitsNext (i : Instr) (s : State) : Option (List Nat) :=
  match exec i s with
  | .next t => some t.dev.winWait
  | _ => none

theorem windowWaits_open : BusOpen ⟨windowWaits, []⟩ 4 (chtAddr 0 3) true := by
  delta BusOpen
  decide +kernel

theorem windowWaits_restarts : waitsNext (.childTableWrite 4 0 3 1) ⟨windowWaits, []⟩ = some [] := by decide +kernel

/-- Refutes O19: a write of word 3 of an entry starts the windows of its child again (R192), so that a window that waits to be judged waits no more. The
clause of CHILD_TABLE_WRITE for word 3 says that nothing but the word changes. -/
theorem not_linkQueuesAndRegisters : ¬ Obligations.LinkQueuesAndRegisters := by
  unfold Obligations.LinkQueuesAndRegisters
  intro ⟨_, h⟩
  obtain ⟨_, _, _, hcht, _⟩ := h windowWaits [] 4 0 3 1
  obtain ⟨_, _, hword, _⟩ := hcht windowWaits_open
  have hgives := hword (.inl rfl)
  have hnext := windowWaits_restarts
  rw [waitsNext, hgives (.inr rfl)] at hnext
  exact absurd hnext (by decide)

end Sys2Proof.Machine
end

section
/-! Received frames after their commit. -/

namespace Sys2Proof.Machine

section
variable {d : Dev} {q : List Instr} {i : Fin 8192} {n : Nat}

/-- The device in which a window of entry `i` is known to have closed, and waits. -/
def Dev.windowPast (d : Dev) (i n : Nat) : Dev := { d with winSeen := sset 0 d.winSeen i n, winWait := d.winWait ++ [i] }

theorem Dev.windowPast_seen (d : Dev) (i n : Nat) : sget 0 (d.windowPast i n).winSeen i = n := (sget_sset _ _ _ _ _).trans (if_pos rfl)

theorem Dev.windowSettle_coming (h : (d.windowPast i n).windowComing i n = true) : (d.windowPast i n).windowSettle i = d.windowPast i n := by
  rw [Dev.windowSettle, d.windowPast_seen, h]
  simp

theorem Dev.windowSettle_missed (h : (d.windowPast i n).windowComing i n = false) :
    (d.windowPast i n).windowSettle i = Dev.windowMiss { d.windowPast i n with winWait := (d.windowPast i n).winWait.filter (· ≠ i.val) } i := by
  rw [Dev.windowSettle, d.windowPast_seen, h, if_pos]
  simp [Dev.windowPast]

/-- A close that counts: the entry is valid and has an interval, and its window is over and not known to be. -/
theorem gives_expectationWindowClose (hv : d.chtValid i = true) (hi : d.chtGet i 4 CHT_INTERVAL_S ≠ 0) (ho : d.windowOver i (sget 0 d.winSeen i + 1) = true)
    (hw : d.winWait.contains i.val = false) {e : Dev}
    (he : (if q.any latches then d.windowPast i (sget 0 d.winSeen i + 1) else (d.windowPast i (sget 0 d.winSeen i + 1)).windowSettle i) = e) :
    Gives (.expectationWindowClose i) ⟨d, q⟩ e :=
  gives_of_run rfl (exec_expectationWindowClose ..) ((if_pos (by simpa [hv, hi, ho] using hw)).trans he)

theorem gives_expectationWindowClose_not
    (h : d.chtValid i = false ∨ d.chtGet i 4 CHT_INTERVAL_S = 0 ∨ d.windowOver i (sget 0 d.winSeen i + 1) = false ∨ d.winWait.contains i.val = true) :
    Gives (.expectationWindowClose i) ⟨d, q⟩ d := by
  refine gives_of_run rfl (exec_expectationWindowClose ..) (if_neg ?_)
  rcases h with h | h | h | h
  · simp [h]
  · simp [h]
  · simp [h]
  · have hmem : i.val ∈ d.winWait := by simpa using h
    simp [hmem]

/-- The frames, those of unit `u` late. -/
def lateFrames (u : Nat) (l : List LFrame) : List LFrame := l.map (fun f => if f.unit = u then { f with late := true } else f)

theorem mem_lateFrames {u : Nat} {l : List LFrame} {g : LFrame} (hg : g ∈ lateFrames u l) (hu : g.unit = u) : g.late = true := by
  obtain ⟨f, -, rfl⟩ := List.mem_map.mp hg
  split
  · rfl
  · next h => rw [if_neg h] at hu; exact absurd hu h

/-- The frames of unit `u` are late, which counts where one asked for an acknowledgement. -/
def Dev.markedLate (d : Dev) (u : Nat) (asked : Bool) : Dev := Dev.when { d with frames := lateFrames u d.frames } asked (fun d => d.count (LNK_CNT 1))

theorem Dev.markedLate_same (d : Dev) (u : Nat) (asked : Bool) :
    (d.markedLate u asked).frames = lateFrames u d.frames ∧ (d.markedLate u asked).cores = d.cores ∧ ∀ a, (d.markedLate u asked).byte a = d.byte a := by
  have hlate : Dev.SameBut [LNK_CNT 1] d { d with frames := lateFrames u d.frames } := (Dev.SameBut.refl d).congr rfl rfl rfl rfl
  have hsame : Dev.SameBut [LNK_CNT 1] d (d.markedLate u asked) := by
    cases asked
    · exact hlate
    · exact hlate.count (by simp)
  refine ⟨?_, hsame.cores, hsame.byte (by decide)⟩
  cases asked
  · rfl
  · exact Dev.count_frames _ _

end

/-- Settles O21. -/
theorem linkReceive : Obligations.LinkReceive := by
  unfold Obligations.LinkReceive
  intro d q i u f r e
  refine ⟨fun h => ?_, fun hf he => ⟨fun hm => ?_, fun hm => ?_⟩, fun h => gives_expectationWindowClose_not ?_, ⟨fun h => gives_expectationWindowClose_not ?_,
    fun hv hi ho hw => ⟨fun hl => ?_, fun hl hc => ?_, fun hl hc => ⟨fun hm hlost => ?_, fun hm => ?_⟩⟩⟩, fun h => ?_, fun hno => ⟨fun hf hu hlate => ?_,
    fun hf h3 h5 ha hl => ?_, fun hf h3 => ?_⟩⟩
  · refine gives_of_run rfl (exec_micCheckEnd ..) ?_
    simp only [h]
  · refine gives_of_run rfl (exec_micCheckEnd ..) ?_
    simp only [hf, he]
    exact if_pos hm
  · refine gives_of_run rfl (exec_micCheckEnd ..) ?_
    simp only [hf, he]
    exact if_neg (by simp [Dev.kslot] at hm ⊢; exact hm)
  · exact h.elim .inl fun h => .inr (.inl h)
  · exact .inr (.inr h)
  · exact gives_expectationWindowClose hv hi ho hw (if_pos hl)
  · exact gives_expectationWindowClose hv hi ho hw ((if_neg (by simp [hl])).trans (Dev.windowSettle_coming hc))
  · exact gives_expectationWindowClose hv hi ho hw ((if_neg (by simp [hl])).trans ((Dev.windowSettle_missed hc).trans (if_pos ⟨hm, hlost⟩)))
  · exact gives_expectationWindowClose hv hi ho hw ((if_neg (by simp [hl])).trans ((Dev.windowSettle_missed hc).trans (if_neg fun h => hm h.1)))
  · exact gives_of_run rfl (exec_verdictDeadline ..) (if_pos h)
  · refine after_of (gives_of_run rfl (exec_verdictDeadline ..) ((if_neg (by simp [hno])).trans (if_pos ?_))) ?_
    · exact List.any_eq_true.mpr ⟨f, hf, by simp [hu, hlate]⟩
    · obtain ⟨hframes, hcores, hbyte⟩ := d.markedLate_same u (d.frames.any (fun f => f.unit == u.val && !f.late && !f.recov && d.ackAsked f.bytes))
      refine ⟨fun g hg hgu => ?_, ?_, hcores, fun a => ?_⟩
      · rw [Dev.settle_frames, Dev.wakeBy_frames] at hg
        exact mem_lateFrames (hframes ▸ hg) hgu
      · rw [Dev.settle_frames, Dev.wakeBy_frames]
        exact (congrArg List.length hframes).trans (List.length_map _)
      · rw [Dev.byte_settle]
        exact hbyte a
  · refine gives_of_run rfl (exec_verdictDeadline ..) ((if_neg (by simp [hno])).trans ((if_neg (by simp [hf])).trans ((if_pos (by simp [h3, h5, hl])).trans (if_neg (by simp [ha])))))
  · refine gives_of_run rfl (exec_verdictDeadline ..) ((if_neg (by simp [hno])).trans ((if_neg (by simp [hf])).trans (if_neg (by simp; omega))))

end Sys2Proof.Machine
end

section
/-! Transmit descriptors. -/

namespace Sys2Proof.Machine

/-! ### What a read of memory by a block leaves: the bytes, the descriptors and the completions -/

/-- The bytes of memory, and the link's descriptors and completions. -/
def Dev.linkView (d : Dev) := (d.mem, d.wins, d.reg FLC_BOOT, d.descs, d.descSeq, d.comps)

section
variable (d : Dev)

theorem Dev.linkView_setReg {a : Nat} (v : Word) (h : FLC_BOOT ≠ a) : (d.setReg a v).linkView = d.linkView := by
  have hreg := d.reg_setReg_other a FLC_BOOT v h
  simp only [Dev.linkView, hreg, Dev.setReg_mem, Dev.setReg_wins, Dev.setReg_descs, Dev.setReg_descSeq, Dev.setReg_comps]

theorem Dev.linkView_put {a : Nat} (f : Fld) (v : Nat) (h : FLC_BOOT ≠ a) : (d.put a f v).linkView = d.linkView := d.linkView_setReg _ h

theorem Dev.linkView_count {a : Nat} (h : FLC_BOOT ≠ a) : (d.count a).linkView = d.linkView := by
  unfold Dev.count
  split
  · exact d.linkView_put _ _ h
  · exact d.linkView_put _ _ h

theorem Dev.linkView_lose (blk unit code t : Nat) : (d.lose blk unit code t).linkView = d.linkView := by
  have hcount : Dev.linkView { d.count ERL_LOST with erlCyc := d.clk.cyc + 1 } = d.linkView := d.linkView_count (by decide)
  unfold Dev.lose
  dsimp only
  split
  · rw [Dev.linkView_setReg _ _ (by decide), Dev.linkView_setReg _ _ (by decide), Dev.linkView_put _ _ _ (by decide)]
    exact hcount
  · rw [Dev.linkView_setReg _ _ (by decide), Dev.linkView_setReg _ _ (by decide), Dev.linkView_setReg _ _ (by decide), Dev.linkView_setReg _ _ (by decide),
      Dev.linkView_put _ _ _ (by decide)]
    exact hcount

theorem Dev.linkView_report (blk unit code : Nat) (detail : Word) (extra : List Word) : (d.report blk unit code detail extra).linkView = d.linkView := by
  unfold Dev.report
  split
  · exact d.linkView_lose ..
  · rfl

theorem Dev.linkView_touchDomain (a : Nat) : (d.touchDomain a).linkView = d.linkView := by
  unfold Dev.touchDomain
  split
  · rfl
  · cases domainAt a <;> rfl

theorem ERL_ECC_ne_BOOT (n : Nat) : FLC_BOOT ≠ ERL_ECC n := by simp only [FLC_BOOT, ERL_ECC, ne_eq]; omega

theorem Dev.linkView_eccRead (a : Nat) (syn : Word) : (d.eccRead a syn).2.linkView = d.linkView := by
  unfold Dev.eccRead
  split
  · rfl
  · exact (Dev.linkView_count _ (ERL_ECC_ne_BOOT _)).trans rfl
  · exact (Dev.linkView_report _ _ _ _ _ _).trans (Dev.linkView_count _ (ERL_ECC_ne_BOOT _))

theorem Dev.linkView_lineNote (b a j : Nat) : (d.lineNote b a j).linkView = d.linkView := by
  have hcol : FLC_BOOT ≠ FLC_COL b := by simp only [FLC_BOOT, FLC_COL, ne_eq]; omega
  unfold Dev.lineNote
  dsimp only
  split
  · split
    · rfl
    · split
      · rw [Dev.linkView_report, Dev.linkView_put _ _ _ hcol, Dev.linkView_put _ _ _ hcol]
      · exact d.linkView_put _ _ hcol
  · rw [Dev.linkView_put _ _ _ hcol, Dev.linkView_put _ _ _ hcol]

theorem Dev.linkView_corrected (a : Nat) (l : List Nat) : (d.corrected a l).linkView = d.linkView := by
  unfold Dev.corrected
  dsimp only
  refine Eq.trans (b := (l.foldl (fun d j => d.lineNote (bankOf a) a j) (d.count (FLC_CNT 0))).linkView) rfl ?_
  exact (foldl_frame (g := Dev.linkView) (fun e j => e.linkView_lineNote _ _ _) _ _).trans (d.linkView_count (by decide))

theorem Dev.linkView_flashFind (a : Nat) : (d.flashFind a).2.linkView = d.linkView := by
  unfold Dev.flashFind
  dsimp only
  split
  · rfl
  · split
    · exact d.linkView_corrected ..
    · split
      · exact (Dev.linkView_corrected ..).trans rfl
      · exact d.linkView_count (by decide)

theorem Dev.linkView_touchRange (a n : Nat) : (d.touchRange a n).linkView = d.linkView := by
  have hecc : ∀ (d : Dev) (w : Nat), Dev.linkView (if 4 * w < 0x20000000 then d else (d.eccRead (4 * w) (esynOf (4 * w) synECC false false false)).2) = d.linkView :=
    fun d w => by
      split
      · rfl
      · exact d.linkView_eccRead ..
  have hflash : ∀ (d : Dev) (w : Nat), Dev.linkView (if flashAddr (16 * w) then (d.flashFind (d.canon (16 * w))).2 else d) = d.linkView := fun d w => by
    split
    · exact d.linkView_flashFind _
    · rfl
  unfold Dev.touchRange
  dsimp only
  split <;> split <;> split <;>
    simp only [foldl_frame (g := Dev.linkView) hecc, foldl_frame (g := Dev.linkView) hflash,
      foldl_frame (g := Dev.linkView) fun (d : Dev) (w : Nat) => d.linkView_touchDomain (4 * w)]

theorem Dev.linkView_descTouch (a : Nat) : (d.descTouch a).linkView = d.linkView := by
  unfold Dev.descTouch
  dsimp only
  rw [Dev.linkView_touchRange, Dev.linkView_touchRange]

variable {d}

theorem Dev.byte_of_linkView {e : Dev} (h : e.linkView = d.linkView) (y : Nat) : e.byte y = d.byte y := by
  simp only [Dev.linkView, Prod.mk.injEq] at h
  obtain ⟨hmem, hwins, hreg, -⟩ := h
  have hboot : e.get FLC_BOOT FLC_BOOT_ACTIVE = d.get FLC_BOOT FLC_BOOT_ACTIVE := by rw [Dev.get, hreg, Dev.get]
  simp [Dev.byte, Dev.canon, Dev.winSector, Dev.winOf, hboot, hmem, hwins]

theorem Dev.bytes_of_linkView {e : Dev} (h : e.linkView = d.linkView) (a n : Nat) : e.bytes a n = d.bytes a n :=
  List.map_congr_left fun y _ => Dev.byte_of_linkView h y

end

/-! ### Transmit descriptors (R185 to R189) -/

section
variable {d : Dev} {a : Nat}

/-- A descriptor outside SRAM is refused at once, with nothing left of it. -/
theorem Dev.submitAt_refused (ha : inSram a 32 = false) (hfresh : ∀ y ∈ d.descs, y.id ≠ d.descSeq) :
    (d.submitAt a .firmware id).descs = d.descs ∧ (d.submitAt a .firmware id).comps = d.comps ++ [(descTag (d.bytes a 32), csREFUSED, 0)] := by
  have hview := d.linkView_descTouch a
  have hbytes := Dev.bytes_of_linkView hview a 32
  simp only [Dev.linkView, Prod.mk.injEq] at hview
  obtain ⟨-, -, -, hdescs, hseq, hcomps⟩ := hview
  unfold Dev.submitAt
  simp only [ha, Bool.false_and, Dev.submit, Bool.false_eq_true, if_false, Dev.descEnd, Dev.complete, hdescs, hseq, hcomps, Dev.readDesc, hbytes, and_true]
  rw [List.filter_append, List.filter_eq_self.mpr (fun y hy => by simpa using hfresh y hy)]
  simp

end

theorem not_arrives {d : Dev} {q : List Instr} {p : Instr → Bool} (h : q.any p = false) : ¬ State.arrives ⟨d, q⟩ p = true := Bool.eq_false_iff.mp h

/-- Settles O22. -/
theorem linkTransmit : Obligations.LinkTransmit := by
  unfold Obligations.LinkTransmit
  intro d q c t v x p0 p1 dst seq a r
  refine ⟨fun ho => ⟨fun h => ?_, fun h => ?_, fun h hs hf => ?_⟩, fun hh => ⟨?_, fun hl => ?_, ?_⟩, fun hl => ?_, fun hh => ⟨fun hn hm hs => ?_, fun h => ?_,
    fun hl hn hm hs hb => ?_, fun hl h => ?_, fun hb => ?_, fun hb => ?_⟩, fun h => ?_, fun hb hx hn => ?_, fun h => ?_, fun h => ⟨fun hd => ?_, fun hd hl => ?_, fun hd hl hc => ?_⟩⟩
  · exact gives_of_askCore rfl ho (exec_txSubmit ..) (if_pos h)
  · exact gives_of_askCore rfl ho (exec_txSubmit ..) (if_neg (by omega))
  · refine after_of (gives_of_askCore rfl ho (exec_txSubmit ..) (if_neg (by omega))) ?_
    rw [Dev.settle_descs, Dev.wakeBy_descs, Dev.settle_comps, Dev.wakeBy_comps]
    exact Dev.submitAt_refused hs hf
  · refine gives_of_run rfl (exec_descriptorArm ..) ?_
    simp only [hh]
  · refine gives_of_run rfl (exec_ccaAssessment ..) ((if_neg (not_arrives hl)).trans ?_)
    simp only [Dev.ccaEnd, hh]
  · refine gives_of_run rfl (exec_ccaBackoffEnd ..) ?_
    simp only [hh]
  · exact gives_of_run rfl (exec_ccaAssessment ..) (if_pos hl)
  · refine gives_of_run rfl (exec_descriptorArm ..) ?_
    simp [hh, hn, hm, hs]
  · refine gives_of_run rfl (exec_descriptorArm ..) ?_
    simp only [hh]
    exact if_neg (by rcases h with h | h | h <;> simp [h])
  · refine gives_of_run rfl (exec_ccaAssessment ..) ((if_neg (not_arrives hl)).trans ?_)
    simp [Dev.ccaEnd, hh, hn, hm, hs, hb]
  · refine gives_of_run rfl (exec_ccaAssessment ..) ((if_neg (not_arrives hl)).trans ?_)
    simp only [Dev.ccaEnd, hh]
    exact if_neg (by rcases h with h | h <;> simp [h])
  · refine gives_of_run rfl (exec_ccaBackoffEnd ..) ?_
    simp only [hh]
    exact if_pos hb
  · refine gives_of_run rfl (exec_ccaBackoffEnd ..) ?_
    simp only [hh]
    exact if_neg (by simp [hb])
  · refine gives_of_run rfl (exec_pollResponseArm ..) ?_
    rcases h with h | h
    · simp [h]
    · exact if_pos h
  · refine gives_of_run rfl (exec_pollResponseArm ..) ((if_neg (by simp [hn])).trans ?_)
    simp only [hb, hx]
  · refine gives_of_run rfl (exec_ackWaitExpiry ..) ?_
    simp only [h]
  · refine gives_of_run rfl (exec_ackWaitExpiry ..) ?_
    simp only [h]
    exact if_pos hd
  · refine gives_of_run rfl (exec_ackWaitExpiry ..) ?_
    simp only [h]
    refine (if_neg (by omega)).trans ?_
    rcases hl with hl | hl
    · exact if_pos hl
    · by_cases hq : q.any latches = true
      · exact if_pos hq
      · exact (if_neg hq).trans (if_neg (by simp [hl]))
  · refine gives_of_run rfl (exec_ackWaitExpiry ..) ?_
    simp only [h]
    exact (if_neg (by omega)).trans ((if_neg (not_arrives hl)).trans (if_pos (by rw [hc]; rfl)))

end Sys2Proof.Machine
end

section
/-! Mesh time, alarms, beacons, relays and originations. -/

namespace Sys2Proof.Machine

section
variable (d : Dev) (v : Word) (c : Fin 7)

/-- The mesh time is set: the device in which SET has been obeyed. -/
theorem Dev.meshStep_clk (t : Nat) : (d.meshStep t).clk.mesh = BitVec.ofNat 64 t ∧ (d.meshStep t).clk.slew = 0 := by
  unfold Dev.meshStep
  dsimp only
  rw [Dev.count_clk]
  exact ⟨rfl, rfl⟩

/-- The device in which mesh time has been set by firmware. -/
def Dev.meshWasSet (d : Dev) : Dev :=
  let d := (d.meshStep (d.pair FLD_SET_LO FLD_SET_HI)).put FLD_STAT FLD_STAT_ACQ 0
  { d with fld := { d.fld with wasSet := true } }

theorem Dev.meshWasSet_acq : d.meshWasSet.flag FLD_STAT FLD_STAT_ACQ = false := by
  show decide ((Dev.put _ FLD_STAT FLD_STAT_ACQ 0).get FLD_STAT FLD_STAT_ACQ ≠ 0) = false
  rw [Dev.get_put_same _ _ _ _ (by decide) (by decide)]
  rfl

theorem Dev.alarmCtl_arm : (d.alarmCtl v).get FLD_ALARMCTL FLD_ALARMCTL_ARM = d.get FLD_ALARMCTL FLD_ALARMCTL_ARM ||| getF v FLD_ALARMCTL_ARM := by
  rw [Dev.alarmCtl]
  rw [Dev.get_put_same _ _ _ _ (by decide) (by decide), Dev.get_put_field _ _ _ _ _ (by decide) (by decide) (by decide)]
  exact Nat.mod_eq_of_lt (Nat.or_lt_two_pow (getF_lt _ _) (getF_lt _ _))

end

/-- Settles O23. -/
theorem floodAndMeshTime : Obligations.FloodAndMeshTime := by
  unfold Obligations.FloodAndMeshTime
  intro d q c a i v
  refine ⟨fun h => ?_, fun h ha => ?_, fun ho => ⟨fun hk hs => ?_, fun h => ?_⟩, fun ho => ?_, fun ho => ?_, fun ha ht => ?_, fun h => ?_, fun hb hn hr => ?_, fun h => ?_,
    fun h => ?_, fun h0 hp he => ?_, fun hs hr hd => ⟨fun hl => ?_, fun hl hf => ?_, fun hl hf => ?_⟩, fun hs hr => ⟨fun hf => ?_, fun hf => ?_⟩, fun h => ?_, fun ho => ?_,
    fun ho h => ?_⟩
  · refine gives_of_run rfl (exec_syncAgeLimit ..) (if_neg ?_)
    rcases h with ⟨h1, h2⟩ | h
    · simp [h1, h2]
    · simp; omega
  · refine gives_of_run rfl (exec_syncAgeLimit ..) (if_pos ?_)
    rcases h with h | h <;> simp [h, ha]
  · refine after_of (gives_of_askCore (e := d.meshWasSet) rfl ho (exec_meshTimeSet ..) (if_pos ⟨hk, hs⟩)) ?_
    rw [Dev.settle_clk, Dev.wakeBy_clk, Dev.flag_wakeSettle, d.meshWasSet_acq]
    exact ⟨(d.meshStep_clk _).1, (d.meshStep_clk _).2, rfl, rfl⟩
  · refine gives_of_askCore rfl ho (exec_meshTimeSet ..) (if_neg ?_)
    rintro ⟨hk, hs⟩
    exact h.elim (· hk) (by omega)
  · refine after_of (gives_of_byCore rfl ho (exec_meshTimeRead ..) rfl) ?_
    refine ⟨rfl, ?_, rfl, fun k hk => ?_⟩
    · rw [Dev.core_settle, Dev.wakeBy_core, Dev.core_setCore_same]
      rfl
    · rw [Dev.core_settle, Dev.wakeBy_core, Dev.core_setCore_other _ _ _ _ hk]
      rfl
  · refine after_of (gives_of_askCore rfl ho (exec_alarmArm ..) rfl) ?_
    rw [Dev.get_settle, Dev.wakeBy_get]
    exact d.alarmCtl_arm v
  · exact gives_of_run rfl (exec_alarmFire ..) (if_pos (by rw [ha, Bool.true_and]; exact ht))
  · refine gives_of_run rfl (exec_alarmFire ..) (if_neg ?_)
    rcases h with h | h
    · simp [h]
    · rw [show atOrPast d.meshNow (d.alarmWhen a) = false from h]
      simp
  · exact gives_of_run rfl (exec_beaconArm ..) (if_pos (by simp [hb, hn, hr]))
  · exact gives_of_run rfl (exec_beaconArm ..) (if_neg (by rcases h with h | h | h <;> simp [h]))
  · exact gives_of_run rfl (exec_cacheExpiry ..) (if_neg (by rcases h with h | h | h <;> simp [h]))
  · exact gives_of_run rfl (exec_cacheExpiry ..) (if_pos (by simp [h0, hp, he]))
  · exact gives_of_run rfl (exec_relayDelayExpiry ..) ((if_pos ⟨hs, by simp [hr], hd⟩).trans (if_pos hl))
  · exact gives_of_run rfl (exec_relayDelayExpiry ..) ((if_pos ⟨hs, by simp [hr], hd⟩).trans ((if_neg (not_arrives hl)).trans ((if_neg (by simp [hs])).trans (if_pos hf))))
  · exact gives_of_run rfl (exec_relayDelayExpiry ..) ((if_pos ⟨hs, by simp [hr], hd⟩).trans ((if_neg (not_arrives hl)).trans
      ((if_neg (by simp [hs])).trans (if_neg (by simp [hf])))))
  · exact gives_of_run rfl (exec_relayHoldEnd ..) (if_pos (by simp [hs, hr, hf]))
  · exact gives_of_run rfl (exec_relayHoldEnd ..) (if_neg (by simp [hf]))
  · refine gives_of_run rfl (exec_relayDelayExpiry ..) (if_neg ?_)
    rcases h with h | h | h
    · simp [h]
    · simp [h]
    · exact fun hh => absurd (show _ ≤ d.clk.cyc from hh.2.2) (Nat.not_le.mpr h)
  · exact gives_of_askCore rfl ho (exec_originate ..) rfl
  · exact gives_of_askCore rfl ho (exec_originate ..) (if_pos h)

end Sys2Proof.Machine
end

section
/-! Commands and events of the key store. -/

namespace Sys2Proof.Machine

/-! ### A command of the key store starts (R221, R226, R307) -/

/-- The six commands of KEY_CMD, each with its OP, its slot and what is open about its programs. -/
def keyCmds (c : Fin 7) (i : Fin 256) (o : List Bool) : List (Instr × Nat × Nat × List Bool) :=
  [(Instr.keyLoad c i o, 1, i.val, o), (.keyLoadname c i o, 2, i.val, o), (.keyUnload c i, 3, i.val, []), (.keyGenerate c i o, 4, i.val, o),
    (.keyRaise c o, 5, 0, o), (.keyRevoke c, 6, 0, [])]

theorem keyCmds_exec {c : Fin 7} {i : Fin 256} {o : List Bool} (s : State) : ∀ w ∈ keyCmds c i o,
    rootFree w.1 = false ∧ w.2.1 < 16 ∧ exec w.1 s = s.keyCmd w.1 c w.2.1 w.2.2.1 w.2.2.2 := by
  intro w hw
  simp only [keyCmds, List.mem_cons, List.not_mem_nil, or_false] at hw
  obtain rfl | rfl | rfl | rfl | rfl | rfl := hw <;> exact ⟨rfl, by simp, rfl⟩

section
variable (d : Dev) (op slot b : Nat) (o : List Bool)

/-- The device in which command `op` has begun, its counters read where the flash can be. -/
def Dev.keyBegun (d : Dev) (op : Nat) : Dev :=
  (if d.flag FLC_BOOT FLC_BOOT_READY then d.scanned else d).setReg KEY_RES (mkWord [(KEY_RES_BUSY, 1), (KEY_RES_OP, op)])

/-- The run of a command that begins in a device. -/
def Dev.keyRunOf (b : Dev) (op slot : Nat) (o : List Bool) : KeyRun :=
  let x : KeyRun := ⟨slot, op, (b.reg KEY_ARG0).toNat, (b.reg KEY_ARG1).toNat, o, b.mayProg, decide ((b.kslot slot).state ≠ 0), false⟩
  { x with prog := b.mayProg && !b.pwr.flIso && (b.keyRaises x).any (fun p => decide (b.ctrVal p.1 < p.2)) }

/-- What a command that begins does: bank 2 is busy where it raises, its slot is LOADING or ERASING, and it runs. -/
def Dev.keyStarted (b : Dev) (x : KeyRun) : Dev :=
  let e := (b.when x.prog (fun d => d.engBegin 2)).when (x.loads && !x.full) (fun d => d.setKslot x.slot { KSlot.init with state := 1 })
  { e.when (x.op == 3 && x.full) (fun d => d.setKslot x.slot { d.kslot x.slot with state := 4 }) with keyPend := some x }

theorem Dev.keyBegin_idle (h : d.flag KEY_RES KEY_RES_BUSY = false) : d.keyBegin op slot o = (d.keyBegun op).keyStarted ((d.keyBegun op).keyRunOf op slot o) := by
  unfold Dev.keyBegin
  exact if_neg (by simp [h])

theorem Dev.engBegin_same : Dev.SameBut [FLC_STAT b] d (d.engBegin b) :=
  Dev.SameBut.put (e := d.setBank b { d.bankOfs b with eng := (d.bankOfs b).eng + 1 }) (by simp) _ _ ((Dev.SameBut.refl d).congr rfl rfl rfl rfl)

theorem Dev.engEnd_same : Dev.SameBut [FLC_STAT b] d (d.engEnd b) :=
  Dev.SameBut.put (e := d.setBank b { d.bankOfs b with eng := (d.bankOfs b).eng - 1 }) (by simp) _ _ ((Dev.SameBut.refl d).congr rfl rfl rfl rfl)

theorem Dev.engBegin_busy : (d.engBegin b).flag (FLC_STAT b) FLC_STAT_BUSY = true := by
  have hbank : (d.setBank b { d.bankOfs b with eng := (d.bankOfs b).eng + 1 }).bankOfs b = { d.bankOfs b with eng := (d.bankOfs b).eng + 1 } :=
    (sget_sset _ _ _ _ _).trans (if_pos rfl)
  rw [Dev.engBegin, Dev.bankShow, hbank]
  simp only [Nat.zero_lt_succ, decide_true, Bool.or_true]
  exact Dev.flag_put_one _ _ (f := FLC_STAT_BUSY) (by decide) (by decide)

variable (x : KeyRun)

theorem Dev.keyStarted_regs : (d.keyStarted x).regs = (d.when x.prog (fun d => d.engBegin 2)).regs := by
  unfold Dev.keyStarted
  dsimp only [Dev.when]
  split <;> split <;> rfl

theorem Dev.keyStarted_reg {a : Nat} (ha : a ≠ FLC_STAT 2) : (d.keyStarted x).reg a = d.reg a := by
  rw [Dev.reg, d.keyStarted_regs, ← Dev.reg, Dev.when]
  split
  · exact (d.engBegin_same 2).reg a (by simpa using ha)
  · rfl

theorem Dev.keyStarted_kslot (k : Nat) : (d.keyStarted x).kslot k =
    if k = x.slot ∧ x.op = 3 ∧ x.full = true then { (d.kslot k) with state := 4 }
    else if k = x.slot ∧ x.loads = true ∧ x.full = false then { KSlot.init with state := 1 } else d.kslot k := by
  have heng : ∀ k, (d.when x.prog (fun d => d.engBegin 2)).kslot k = d.kslot k := fun k => by rw [Dev.when]; split <;> rfl
  unfold Dev.keyStarted
  generalize d.when x.prog (fun d => d.engBegin 2) = e at heng
  show (Dev.when (Dev.when e _ _) _ _).kslot k = _
  by_cases hop : x.op = 3
  · have hloads : x.loads = false := by simp [KeyRun.loads, hop]
    by_cases hfull : x.full = true
    · by_cases hk : k = x.slot
      · simp [Dev.when, hop, hfull, hloads, hk, heng]
      · simp [Dev.when, hop, hfull, hloads, hk, heng]
    · simp [Dev.when, hop, hfull, hloads, heng]
  · by_cases hl : x.loads = true ∧ x.full = false
    · by_cases hk : k = x.slot
      · simp [Dev.when, hop, hl, hk]
      · simp [Dev.when, hop, hl, hk, heng]
    · have hnot : (x.loads && !x.full) = false := by simpa using hl
      have hslot : ¬ (k = x.slot ∧ x.loads = true ∧ x.full = false) := fun h => hl h.2
      simp [Dev.when, hop, hnot, hslot, heng]

theorem Dev.kslot_wakeSettle (d e : Dev) (k : Nat) : (d.wakeBy e).settle.kslot k = e.kslot k := rfl

theorem keyRes_fields {op : Nat} (h : op < 16) : getF (mkWord [(KEY_RES_BUSY, 1), (KEY_RES_OP, op)]) KEY_RES_BUSY = 1 ∧
    getF (mkWord [(KEY_RES_BUSY, 1), (KEY_RES_OP, op)]) KEY_RES_OP = op := by
  have hword : mkWord [(KEY_RES_BUSY, 1), (KEY_RES_OP, op)] = setF (setF 0 KEY_RES_BUSY 1) KEY_RES_OP op := rfl
  rw [hword, getF_setF_other _ _ _ _ (by decide) (by decide) (by decide), getF_setF_same _ _ _ (by decide) (by decide), getF_setF_same _ _ _ (by decide) (by decide)]
  exact ⟨rfl, Nat.mod_eq_of_lt h⟩

theorem Dev.keyStarted_res (hop : op < 16) (y : KeyRun) :
    ((d.keyBegun op).keyStarted y).flag KEY_RES KEY_RES_BUSY = true ∧ ((d.keyBegun op).keyStarted y).get KEY_RES KEY_RES_OP = op := by
  obtain ⟨hbusy, hopn⟩ := keyRes_fields hop
  rw [Dev.flag, Dev.get, Dev.get, Dev.keyStarted_reg _ _ (by decide), Dev.keyBegun, Dev.reg_setReg_same, hbusy, hopn]
  exact ⟨rfl, rfl⟩

theorem Dev.keyStarted_bank (h : x.prog = true) : (d.keyStarted x).flag (FLC_STAT 2) FLC_STAT_BUSY = true := by
  rw [Dev.flag, Dev.get, Dev.reg, d.keyStarted_regs, h]
  exact d.engBegin_busy 2

end

/-! ### A command of the key store ends (R221, R226) -/

section
variable (d : Dev) (x : KeyRun) (note : Bool) (r : Nat)

/-- The device in which a command's result is written, and nothing is done of its load yet. -/
def Dev.keyAnswered (d : Dev) (x : KeyRun) (r : Nat) : Dev :=
  Dev.when { (d.put KEY_RES KEY_RES_BUSY 0).put KEY_RES KEY_RES_RESULT r with keyPend := none } x.prog (fun d => d.engEnd 2)

theorem Dev.keyFinish_some (k : KSlot) : d.keyFinish x note r (some k) =
    if k.state = 3 then ((d.keyAnswered x r).setKslot x.slot k).exhaust x.slot else (d.keyAnswered x r).setKslot x.slot k := rfl

/-- The slot of a load that came to nothing is EMPTY. -/
def Dev.keyEmptied (d : Dev) (x : KeyRun) : Dev := if (d.kslot x.slot).state = 1 then d.setKslot x.slot KSlot.init else d

/-- The failure of a load, counted and reported. -/
def Dev.keyFailed (d : Dev) (x : KeyRun) (r : Nat) : Dev :=
  (d.count (KEY_CNT 0)).report 10 x.slot r (mkWord [(KEY_CMD_KEY, 0xA5), (KEY_CMD_SLOT, x.slot), (KEY_CMD_OP, x.op)]) []

theorem Dev.keyFinish_none : d.keyFinish x note r none =
    if note && r != krOK then ((d.keyAnswered x r).keyEmptied x).keyFailed x r else (d.keyAnswered x r).keyEmptied x := rfl

theorem Dev.keyAnswered_pend : (d.keyAnswered x r).keyPend = none := by
  unfold Dev.keyAnswered Dev.when
  split <;> rfl

theorem Dev.keyAnswered_kslots : (d.keyAnswered x r).kslots = d.kslots := by
  unfold Dev.keyAnswered Dev.when
  split <;> rfl

theorem Dev.keyAnswered_same : Dev.SameBut [FLC_STAT 2] ((d.put KEY_RES KEY_RES_BUSY 0).put KEY_RES KEY_RES_RESULT r) (d.keyAnswered x r) := by
  have h : Dev.SameBut [FLC_STAT 2] ((d.put KEY_RES KEY_RES_BUSY 0).put KEY_RES KEY_RES_RESULT r)
      { (d.put KEY_RES KEY_RES_BUSY 0).put KEY_RES KEY_RES_RESULT r with keyPend := none } := (Dev.SameBut.refl _).congr rfl rfl rfl rfl
  unfold Dev.keyAnswered Dev.when
  split
  · exact h.trans (Dev.engEnd_same _ 2)
  · exact h

theorem Dev.keyAnswered_res (hr : r < 256) : (d.keyAnswered x r).flag KEY_RES KEY_RES_BUSY = false ∧ (d.keyAnswered x r).get KEY_RES KEY_RES_RESULT = r := by
  have hsame := d.keyAnswered_same x r
  rw [hsame.flag (by decide), hsame.get (by decide), Dev.flag, Dev.get_put_field _ _ _ _ _ (by decide) (by decide) (by decide),
    Dev.get_put_same _ _ _ _ (by decide) (by decide), Dev.get_put_same _ _ _ _ (by decide) (by decide)]
  exact ⟨rfl, Nat.mod_eq_of_lt hr⟩

theorem Dev.exhaust_same (i : Nat) : Dev.SameBut (KEY_STAT :: logRegs) d (d.exhaust i) :=
  ((((Dev.SameBut.refl d).congr rfl rfl rfl rfl : Dev.SameBut _ d (d.setKslot i { d.kslot i with state := 3 })).put (by simp) KEY_STAT_EXHAUST 1).report
    (fun _ h => List.mem_cons_of_mem _ h) ..)

theorem Dev.keyFailed_same : Dev.SameBut (KEY_CNT 0 :: logRegs) d (d.keyFailed x r) :=
  ((Dev.SameBut.refl d).count (by simp)).report (fun _ h => List.mem_cons_of_mem _ h) ..

/-- Nothing but the counter of failed loads, the state of the key store and the error log changes after the answer. -/
theorem Dev.keyFinish_same (load : Option KSlot) : Dev.SameBut (KEY_STAT :: KEY_CNT 0 :: logRegs) (d.keyAnswered x r) (d.keyFinish x note r load) := by
  cases load with
  | some k =>
    rw [Dev.keyFinish_some]
    have hset : Dev.SameBut (KEY_STAT :: KEY_CNT 0 :: logRegs) (d.keyAnswered x r) ((d.keyAnswered x r).setKslot x.slot k) := (Dev.SameBut.refl _).congr rfl rfl rfl rfl
    split
    · exact hset.trans ((Dev.exhaust_same _ _).mono fun a h => by
        rcases List.mem_cons.mp h with h | h
        · exact h ▸ List.mem_cons_self
        · exact List.mem_cons_of_mem _ (List.mem_cons_of_mem _ h))
    · exact hset
  | none =>
    rw [Dev.keyFinish_none]
    have hempty : Dev.SameBut (KEY_STAT :: KEY_CNT 0 :: logRegs) (d.keyAnswered x r) ((d.keyAnswered x r).keyEmptied x) := by
      unfold Dev.keyEmptied
      split <;> exact (Dev.SameBut.refl _).congr rfl rfl rfl rfl
    split
    · exact hempty.trans ((Dev.keyFailed_same _ _ _).mono fun a h => List.mem_cons_of_mem _ h)
    · exact hempty

theorem Dev.keyFailed_kslots : (d.keyFailed x r).kslots = d.kslots := by
  rw [Dev.keyFailed, Dev.report_kslots, Dev.count_kslots]

theorem Dev.keyFailed_pend : (d.keyFailed x r).keyPend = d.keyPend := by
  rw [Dev.keyFailed, Dev.report_frame (g := fun e : Dev => e.keyPend) _ _ _ _ _ _ (fun _ _ _ => rfl) (fun _ _ => rfl) (fun _ _ => rfl), Dev.count_keyPend]

theorem Dev.exhaust_pend (i : Nat) : (d.exhaust i).keyPend = d.keyPend :=
  Dev.report_frame (g := fun e : Dev => e.keyPend) _ _ _ _ _ _ (fun _ _ _ => rfl) (fun _ _ => rfl) (fun _ _ => rfl)

theorem Dev.exhaust_flag (i : Nat) : (d.exhaust i).flag KEY_STAT KEY_STAT_EXHAUST = true := by
  have hlog : Dev.SameBut logRegs ((d.setKslot i { d.kslot i with state := 3 }).put KEY_STAT KEY_STAT_EXHAUST 1) (d.exhaust i) :=
    (Dev.SameBut.refl _).report (fun _ h => h) ..
  rw [hlog.flag (by decide)]
  exact Dev.flag_put_one _ KEY_STAT (f := KEY_STAT_EXHAUST) (by decide) (by decide)

theorem Dev.keyFinish_pend (load : Option KSlot) : (d.keyFinish x note r load).keyPend = none := by
  cases load with
  | some k =>
    rw [Dev.keyFinish_some]
    split
    · exact (Dev.exhaust_pend _ _).trans (d.keyAnswered_pend x r)
    · exact d.keyAnswered_pend x r
  | none =>
    have hempty : ((d.keyAnswered x r).keyEmptied x).keyPend = none := by
      unfold Dev.keyEmptied
      split <;> exact d.keyAnswered_pend x r
    rw [Dev.keyFinish_none]
    split
    · exact (Dev.keyFailed_pend _ _ _).trans hempty
    · exact hempty

theorem Dev.keyFinish_loaded (k : KSlot) : (d.keyFinish x note r (some k)).kslot x.slot = k ∧
    (k.state = 3 → (d.keyFinish x note r (some k)).flag KEY_STAT KEY_STAT_EXHAUST = true) := by
  rw [Dev.keyFinish_some]
  by_cases hk : k.state = 3
  · rw [if_pos hk, Dev.kslot_exhaust, if_pos rfl, Dev.kslot_setKslot, if_pos rfl]
    exact ⟨by rw [← hk], fun _ => Dev.exhaust_flag _ _⟩
  · rw [if_neg hk, Dev.kslot_setKslot, if_pos rfl]
    exact ⟨rfl, fun h => absurd h hk⟩

theorem Dev.keyEmptied_finish : (d.keyFinish x note r none).kslots = ((d.keyAnswered x r).keyEmptied x).kslots := by
  rw [Dev.keyFinish_none]
  split
  · exact Dev.keyFailed_kslots _ _ _
  · rfl

theorem Dev.keyAnswered_kslot (i : Nat) : (d.keyAnswered x r).kslot i = d.kslot i := by rw [Dev.kslot, d.keyAnswered_kslots, Dev.kslot]

theorem Dev.keyFinish_emptied (h : (d.kslot x.slot).state = 1) : (d.keyFinish x note r none).kslot x.slot = KSlot.init := by
  rw [Dev.kslot, d.keyEmptied_finish, ← Dev.kslot, Dev.keyEmptied, d.keyAnswered_kslot, if_pos h, Dev.kslot_setKslot, if_pos rfl]

theorem Dev.keyFinish_kept (h : (d.kslot x.slot).state ≠ 1) : (d.keyFinish x note r none).kslots = d.kslots := by
  rw [d.keyEmptied_finish, Dev.keyEmptied, d.keyAnswered_kslot, if_neg h, d.keyAnswered_kslots]

theorem Dev.keyFinish_counts (hn : note = true) (hr : r ≠ krOK) (hc : d.get (KEY_CNT 0) KEY_CNT_COUNT < 0xFFFF) :
    (d.keyFinish x note r none).get (KEY_CNT 0) KEY_CNT_COUNT = d.get (KEY_CNT 0) KEY_CNT_COUNT + 1 := by
  have hreg : ((d.keyAnswered x r).keyEmptied x).reg (KEY_CNT 0) = d.reg (KEY_CNT 0) := by
    have h := (d.keyAnswered_same x r).reg (KEY_CNT 0) (by decide)
    rw [Dev.reg_put_other _ _ _ _ _ (by decide), Dev.reg_put_other _ _ _ _ _ (by decide)] at h
    rw [← h]
    unfold Dev.keyEmptied
    split <;> rfl
  have hlog : Dev.SameBut logRegs (((d.keyAnswered x r).keyEmptied x).count (KEY_CNT 0)) (((d.keyAnswered x r).keyEmptied x).keyFailed x r) :=
    (Dev.SameBut.refl _).report (fun _ h => h) ..
  rw [Dev.keyFinish_none, if_pos (by simp [hn, hr]), hlog.get (by decide)]
  have hget : ((d.keyAnswered x r).keyEmptied x).get (KEY_CNT 0) KEY_CNT_COUNT = d.get (KEY_CNT 0) KEY_CNT_COUNT := by rw [Dev.get, hreg, ← Dev.get]
  exact (Dev.get_count_COUNT _ _ (hget ▸ hc)).trans (congrArg (· + 1) hget)

end

/-! ### What each command does -/

section
variable {d : Dev} {x : KeyRun}

theorem Dev.keyWork_full (hop : x.op = 1 ∨ x.op = 2) (h : x.full = true) : d.keyWork x = (krBUSY, none, d) := by
  rcases hop with hop | hop
  · simp only [Dev.keyWork, hop, h, if_true]
  · simp only [Dev.keyWork, hop, h, if_true]

theorem Dev.keyWork_load (hop : x.op = 1) (h : x.full = false) (hb : (d.touchRange x.arg0 64).busOk true 6 x.arg0 64 false = true) :
    d.keyWork x = (d.touchRange x.arg0 64).loadBlob x.go x.slot ((d.touchRange x.arg0 64).seen x.arg0 64) (x.arg1 % 256) x.outs := by
  simp only [Dev.keyWork, hop, h, hb, Bool.false_eq_true, if_false, if_true]

theorem Dev.keyWork_loadFault (hop : x.op = 1) (h : x.full = false) (hb : (d.touchRange x.arg0 64).busOk true 6 x.arg0 64 false = false) :
    d.keyWork x = (krBUSFAULT, none, d.touchRange x.arg0 64) := by
  simp only [Dev.keyWork, hop, h, hb, Bool.false_eq_true, if_false]

theorem Dev.keyWork_name (hop : x.op = 2) (h : x.full = false) : d.keyWork x = d.loadName x.go x.slot (x.arg1 % 256) (x.arg0 % 256) x.outs := by
  simp only [Dev.keyWork, hop, h, Bool.false_eq_true, if_false]

theorem Dev.keyWork_unload (hop : x.op = 3) : d.keyWork x = (krOK, none, d) := by simp only [Dev.keyWork, hop]

theorem Dev.keyWork_raiseDenied (hop : x.op = 5) (h : 63 < x.arg1) : d.keyWork x = (krDENIED, none, d) := by simp only [Dev.keyWork, hop, h, if_true]

theorem Dev.keyWork_raise (hop : x.op = 5) (h : x.arg1 ≤ 63) :
    d.keyWork x = ((d.raiseGo x.go x.arg1 x.arg0 x.outs).1, none, (d.raiseGo x.go x.arg1 x.arg0 x.outs).2) := by
  simp only [Dev.keyWork, hop, Nat.not_lt.mpr h, if_false]

theorem Dev.keyWork_revokeDenied (hop : x.op = 6) (h : 3 < x.arg1) : d.keyWork x = (krDENIED, none, d) := by simp only [Dev.keyWork, hop, h, if_true]

theorem Dev.keyWork_lastKey (hop : x.op = 6) (h : x.arg1 ≤ 3) (hall : ∀ k < 4, k ≠ x.arg1 → d.revoked k = true) : d.keyWork x = (krLASTKEY, none, d) := by
  have hspan : (span 0 4).all (fun i => i == x.arg1 || d.revoked i) = true := List.all_eq_true.mpr fun k hk => by
    have hlt := (mem_span.mp hk).2
    by_cases hne : k = x.arg1
    · simp [hne]
    · simp [hall k (by omega) hne]
  simp only [Dev.keyWork, hop, Nat.not_lt.mpr h, if_false, hspan, if_true]

theorem Dev.keyWork_revoke {k : Nat} (hop : x.op = 6) (h : x.arg1 ≤ 3) (hk : k < 4) (hne : k ≠ x.arg1) (hrev : d.revoked k = false) :
    d.keyWork x = (krOK, none, Dev.fuseShow { d with blown := d.blown ||| 2 ^ x.arg1 }) := by
  have hspan : ¬ (span 0 4).all (fun i => i == x.arg1 || d.revoked i) = true := fun hall => by
    have := List.all_eq_true.mp hall k (mem_span.mpr ⟨Nat.zero_le _, by omega⟩)
    simp [hne, hrev] at this
  simp only [Dev.keyWork, hop, Nat.not_lt.mpr h, if_false, if_neg hspan]

theorem Dev.genKey_rng {a k : Nat} (h : d.flag KEY_STAT KEY_STAT_RNGFAIL = true) : d.genKey a k = .inl krRNG := if_pos h

theorem Dev.genKey_bus {a k : Nat} (h : d.flag KEY_STAT KEY_STAT_RNGFAIL = false) (hb : d.busOk true 6 a 64 false = false ∨ d.busOk true 6 a 64 true = false) :
    d.genKey a k = .inl krBUSFAULT :=
  (if_neg (by simp [h])).trans (if_pos (by rcases hb with hb | hb <;> simp [hb]))

theorem Dev.genKey_blob {a k : Nat} (h : d.flag KEY_STAT KEY_STAT_RNGFAIL = false) (hr : d.busOk true 6 a 64 false = true) (hw : d.busOk true 6 a 64 true = true)
    (hb : blobHdrOk (d.seen a 64) = false ∨ u8 (d.seen a 64) 8 = 0 ∨ 3 < u8 (d.seen a 64) 8) : d.genKey a k = .inl krBADBLOB :=
  (if_neg (by simp [h])).trans ((if_neg (by simp [hr, hw])).trans (if_pos (by rcases hb with hb | hb | hb <;> simp [hb])))

theorem Dev.genKey_key {a k : Nat} (h : d.flag KEY_STAT KEY_STAT_RNGFAIL = false) (hr : d.busOk true 6 a 64 false = true) (hw : d.busOk true 6 a 64 true = true)
    (hb : blobHdrOk (d.seen a 64) = true) (h1 : 1 ≤ u8 (d.seen a 64) 8) (h3 : u8 (d.seen a 64) 8 ≤ 3) :
    d.genKey a k = d.wrapKey (u8 (d.seen a 64) 3) k :=
  (if_neg (by simp [h])).trans ((if_neg (by simp [hr, hw])).trans (if_neg (by simp [hb]; omega)))

theorem Dev.keyWork_refused {r : Nat} (hop : x.op = 4) (h : (d.touchRange x.arg0 64).genKey x.arg0 (x.arg1 % 256) = .inl r) :
    d.keyWork x = (r, none, d.touchRange x.arg0 64) := by
  simp only [Dev.keyWork, hop, Dev.keyGenerate, h]

theorem Dev.keyWork_generate {k : List Byte} (hop : x.op = 4) (h : (d.touchRange x.arg0 64).genKey x.arg0 (x.arg1 % 256) = .inr k) :
    d.keyWork x =
      (let f := d.touchRange x.arg0 64
       let g := f.genPlain (f.seen x.arg0 64)
       let blob := f.seen x.arg0 8 ++ keyWrap k g.1
       let y := g.2.setBytes x.arg0 blob
       if x.full then (krBUSY, none, y) else y.loadBlob x.go x.slot blob (x.arg1 % 256) x.outs) := by
  simp only [Dev.keyWork, hop, Dev.keyGenerate, h]

end

/-! ### Spans and scans -/

section
variable {d : Dev} {i n a : Nat} {o : List Bool}

theorem Dev.spanRaise_keeps (h : 1024 < (d.kslot i).ceil - (d.kslot i).used ∨ d.raiseWaits (d.kslot i).uctr (d.ctrVal (d.kslot i).uctr + 1) = true) :
    d.spanRaise i o = d := by
  unfold Dev.spanRaise
  rcases h with h | h
  · exact if_neg fun hh => by omega
  · simp only [h, if_true]
    exact ite_self _

/-- The device in which a scan of counter `n` has read it. -/
def Dev.ctrShown (d : Dev) (n : Nat) : Dev :=
  let t := d.touchRange (ctrBase n) 8192
  { t.setReg (KEY_CTR n) (BitVec.ofNat 32 (t.ctrScan n).1) with ctrBad := t.ctrBad.filter (· ≠ n), ctrLeft := t.ctrLeft.filter (· ≠ n) }

/-- What a scan that found `r` in the device `t` leaves. -/
def Dev.ctrFound (t : Dev) (n : Nat) (r : Nat × Option Nat) : Dev :=
  { t.setReg (KEY_CTR n) (BitVec.ofNat 32 r.1) with ctrBad := t.ctrBad.filter (· ≠ n), ctrLeft := t.ctrLeft.filter (· ≠ n) }

theorem Dev.ctrShown_eq (d : Dev) (n : Nat) :
    d.ctrShown n = (d.touchRange (ctrBase n) 8192).ctrFound n ((d.touchRange (ctrBase n) 8192).ctrScan n) := rfl

theorem Dev.scanCtr_none (h : ((d.touchRange (ctrBase n) 8192).ctrScan n).2 = none) : d.scanCtr n o = d.ctrShown n := by
  rw [Dev.ctrShown_eq]
  unfold Dev.scanCtr Dev.ctrFound
  dsimp only
  generalize (d.touchRange (ctrBase n) 8192).ctrScan n = r at *
  simp only [h]

theorem Dev.scanCtr_sound (h : ((d.touchRange (ctrBase n) 8192).ctrScan n).2 = some a) (hs : (d.ctrShown n).ctrSound n a = true) : d.scanCtr n o = d.ctrShown n := by
  rw [Dev.ctrShown_eq] at *
  unfold Dev.scanCtr Dev.ctrFound
  unfold Dev.ctrFound at hs
  dsimp only
  generalize (d.touchRange (ctrBase n) 8192).ctrScan n = r at *
  simp only [h]
  exact if_pos hs

/-- A repair has failed: counted, and the counter is bad. -/
def Dev.ctrFailed (e : Dev) (n : Nat) : Dev := Dev.put { e.count (KEY_CNT 3) with ctrBad := e.ctrBad ++ [n] } KEY_STAT KEY_STAT_RAISEF 1

theorem Dev.scanCtr_repair (h : ((d.touchRange (ctrBase n) 8192).ctrScan n).2 = some a) (hs : (d.ctrShown n).ctrSound n a = false) : d.scanCtr n o =
    (let r := ((d.ctrShown n).count (KEY_CNT 4)).raiseCore (d.ctrShown n).mayProg n ((d.touchRange (ctrBase n) 8192).ctrScan n).1 true o
     if r.1 = krOK then r.2 else r.2.ctrFailed n) := by
  rw [Dev.ctrShown_eq] at *
  unfold Dev.scanCtr Dev.ctrFound
  unfold Dev.ctrFound at hs
  dsimp only
  generalize (d.touchRange (ctrBase n) 8192).ctrScan n = r at *
  simp only [h]
  exact if_neg (by rw [hs]; exact Bool.false_ne_true)

end

/-- Settles O24. -/
theorem keyStore : Obligations.KeyStore := by
  unfold Obligations.KeyStore
  refine ⟨⟨fun d q c i o ho => ⟨fun hb w hw => ?_, fun hb w hw => ?_⟩, fun d q x hx => ?_, fun d x note r load hr => ?_⟩, fun d q c i n o => ?_⟩
  · obtain ⟨hroot, -, hexec⟩ := keyCmds_exec (i := i) (o := o) ⟨d, q⟩ w hw
    exact gives_of_askCore hroot ho hexec (if_pos hb)
  · obtain ⟨hroot, hop, hexec⟩ := keyCmds_exec (i := i) (o := o) ⟨d, q⟩ w hw
    intro b full x prog
    refine after_of (gives_of_askCore hroot ho hexec (d.keyBegin_idle _ _ _ hb)) ?_
    have hslot := (d.keyBegun w.2.1).keyStarted_kslot ((d.keyBegun w.2.1).keyRunOf w.2.1 w.2.2.1 w.2.2.2)
    obtain ⟨hbusy, hopn⟩ := d.keyStarted_res w.2.1 hop ((d.keyBegun w.2.1).keyRunOf w.2.1 w.2.2.1 w.2.2.2)
    simp only [Dev.flag_wakeSettle, Dev.get_settle, Dev.wakeBy_get, Dev.kslot_wakeSettle]
    refine ⟨rfl, hbusy, hopn, fun hl hf => ?_, fun hu hf => ?_, fun k hk => ?_, fun hp => ?_⟩
    · rw [hslot, if_neg, if_pos ⟨rfl, hl, hf⟩]
      exact fun h => Bool.false_ne_true (hf.symm.trans h.2.2)
    · rw [hslot, if_pos ⟨rfl, hu, hf⟩]
    · rw [hslot, if_neg (fun h => hk h.1), if_neg (fun h => hk h.1)]
      rfl
    · exact Dev.keyStarted_bank _ _ hp
  · have hwork : ∀ {y : KeyOut}, d.keyWaits x = false → d.scanned.keyWork x = y →
        Gives .keyCommandEnd ⟨d, q⟩ (y.2.2.keyFinish x (d.scanned.keyNotes x) y.1 y.2.1) := fun {y} hw hy => by
      refine gives_of_run rfl (exec_keyCommandEnd ..) ?_
      simp only [hx, hw, Bool.false_eq_true, if_false, Dev.keyEnd, hy]
    intro e f ends
    refine ⟨fun hw => ?_, fun hw => ⟨fun hop hfull => hwork hw (Dev.keyWork_full hop hfull), fun hop hfull => ⟨fun hbus => hwork hw (Dev.keyWork_load hop hfull hbus),
      fun hbus => hwork hw (Dev.keyWork_loadFault hop hfull hbus)⟩, fun hop hfull => hwork hw (Dev.keyWork_name hop hfull), fun hop => hwork hw (Dev.keyWork_unload hop), ?_,
      fun hop h => hwork hw (Dev.keyWork_raiseDenied hop h), fun hop h => hwork hw (Dev.keyWork_raise hop h), fun hop h => hwork hw (Dev.keyWork_revokeDenied hop h),
      fun hop h hall => hwork hw (Dev.keyWork_lastKey hop h hall), fun k hop h hk hne hrev => hwork hw (Dev.keyWork_revoke hop h hk hne hrev)⟩⟩
    · refine gives_of_run rfl (exec_keyCommandEnd ..) ?_
      simp only [hx]
      exact if_pos hw
    · intro hop kek
      refine ⟨fun hrng => hwork hw (Dev.keyWork_refused hop (Dev.genKey_rng hrng)), fun hrng => ⟨fun hbus => hwork hw (Dev.keyWork_refused hop (Dev.genKey_bus hrng hbus)), ?_⟩⟩
      intro hbus hbus' t
      refine ⟨fun hblob => hwork hw (Dev.keyWork_refused hop (Dev.genKey_blob hrng hbus hbus' hblob)), fun hblob h1 h3 => ?_⟩
      have hgen : f.genKey x.arg0 kek = f.wrapKey (u8 t 3) kek := Dev.genKey_key hrng hbus hbus' hblob h1 h3
      refine ⟨fun r hr => hwork hw (Dev.keyWork_refused hop (hgen.trans hr)), ?_⟩
      intro k hk g blob y
      exact ⟨fun hfull => hwork hw ((Dev.keyWork_generate hop (hgen.trans hk)).trans (if_pos hfull)),
        fun hfull => hwork hw ((Dev.keyWork_generate hop (hgen.trans hk)).trans (if_neg (by simp [hfull])))⟩
  · refine ⟨d.keyFinish_pend x note r load, ?_, ?_, fun k hk => hk ▸ d.keyFinish_loaded x note r k, fun hl h => hl ▸ d.keyFinish_emptied x note r h,
      fun hl h => hl ▸ d.keyFinish_kept x note r h, fun hl hn hrr hc => hl ▸ d.keyFinish_counts x note r hn hrr hc⟩
    · rw [(d.keyFinish_same x note r load).flag (by decide)]
      exact (d.keyAnswered_res x r hr).1
    · rw [(d.keyFinish_same x note r load).get (by decide)]
      exact (d.keyAnswered_res x r hr).2
  · refine ⟨fun h => ?_, fun h hu => ?_, fun h => ?_, fun j hj he hs => ?_, fun f hf he => ?_, fun h => ?_, ?_, fun h => ?_, ?_, fun h => ?_, fun h => ?_, fun hr hf hi => ?_,
      ?_, fun ho => ⟨fun h => ?_, fun h => ?_⟩⟩
    · refine gives_of_run rfl (exec_keyCommandEnd ..) ?_
      simp only [h]
    · exact gives_of_run rfl (exec_slotErased ..) (if_pos (by simp [h, hu]))
    · exact gives_of_run rfl (exec_slotErased ..) (if_neg (by simp [h]))
    · have hany : d.aesJobs.any (fun j => j.engine.isSome && j.slot == i.val) = true := List.any_eq_true.mpr ⟨j, hj, by simp [he, hs]⟩
      rw [Dev.slotInUse, hany]
      rfl
    · have hany : d.frames.any (fun f => getF (f.words.getD 0 0) CHT_KEYSLOT == i.val) = true := List.any_eq_true.mpr ⟨f, hf, beq_iff_eq.mpr he⟩
      rw [Dev.slotInUse, hany, Bool.or_true]
      rfl
    · exact gives_of_run rfl (exec_slotErased ..) (if_neg (by simp [h]))
    · intro k r h2 hu hc hl hw hr
      have hspan : d.spanRaise i o = r.2.setKslot i { k with ceil := spanCeil k.uctr k.limit (d.ctrVal k.uctr + 1) } :=
        (if_pos ⟨h2, hu, hc, hl⟩).trans ((if_neg (by rw [hw]; exact Bool.false_ne_true)).trans (if_pos hr))
      exact ⟨gives_of_run rfl (exec_spanRaise ..) hspan, gives_of_run rfl (exec_raiseRetry ..) hspan⟩
    · exact gives_of_run rfl (exec_spanRaise ..) (Dev.spanRaise_keeps h)
    · intro w hl hc hw hr
      have hfcnt : d.fcntRaise o = (d.raise 2 w o).2.setReg KEY_FCNTCEIL (BitVec.ofNat 32 (fcntCeil w)) :=
        (if_pos ⟨hl, hc⟩).trans ((if_neg (by rw [hw]; exact Bool.false_ne_true)).trans (if_pos hr))
      exact ⟨gives_of_run rfl (exec_fcntCeilingRaise ..) hfcnt, gives_of_run rfl (exec_raiseRetry ..) hfcnt⟩
    · exact gives_of_run rfl (exec_fcntCeilingRaise ..) (if_neg (by simp [h]))
    · exact gives_of_run rfl (exec_counterScan ..) (if_neg (by rcases h with h | h | h <;> simp [h]))
    · intro t x
      have hx : d.ctrShown n = x := rfl
      have hscan : ∀ {e : Dev}, d.scanCtr n o = e → Gives (.counterScan n o) ⟨d, q⟩ e := fun he =>
        gives_of_run rfl (exec_counterScan ..) ((if_pos (by simp [hr, hf, hi])).trans he)
      refine ⟨fun h => hscan ?_, fun a ha h0 h1 => hscan ?_, ?_⟩
      · exact Dev.scanCtr_none h
      · exact Dev.scanCtr_sound ha (by rw [Dev.ctrSound, hx, h0, h1]; rfl)
      · intro a ha hbad r
        have hunsound : (d.ctrShown n).ctrSound n a = false := by
          rcases hbad with h | h
          · rw [Dev.ctrSound, hx, h, Bool.false_and]
          · rw [Dev.ctrSound, hx, h, Bool.and_false]
        refine ⟨fun h => hscan ((Dev.scanCtr_repair ha hunsound).trans (if_pos h)), fun h => ?_⟩
        change Gives _ _ (r.2.ctrFailed n)
        exact hscan ((Dev.scanCtr_repair ha hunsound).trans (if_neg h))
    · exact gives_of_run rfl (exec_rngFailure ..) rfl
    · exact gives_of_byCore rfl ho (exec_randomRead ..) (if_pos h)
    · exact after_of (gives_of_byCore rfl ho (exec_randomRead ..) (if_neg (by simp [h]))) ⟨rfl, rfl, rfl, rfl⟩

end Sys2Proof.Machine
end

section
/-! AES jobs and SHA contexts. -/

namespace Sys2Proof.Machine

/-! ### Digests (R240) -/

section
variable (d : Dev) (n k : Nat) (h : List Word)

/-- The digest in its registers. -/
def Dev.digestShown (d : Dev) (n : Nat) (h : List Word) : Dev := ((span 0 8).zip h).foldl (fun d p => d.setReg (SHA_DIG n p.1) p.2) d

theorem span_eight_length : (span 0 8).length = 8 := rfl

theorem span_eight_getElem : ∀ i (hi : i < (span 0 8).length), (span 0 8)[i] = i := by decide

theorem mem_zip_span {p : Nat × Word} (hp : p ∈ (span 0 8).zip h) : p.1 < 8 ∧ h[p.1]? = some p.2 := by
  obtain ⟨i, hi, rfl⟩ := List.mem_iff_getElem.mp hp
  have hlen := hi
  rw [List.length_zip, span_eight_length] at hlen
  rw [List.getElem_zip, span_eight_getElem i (by rw [span_eight_length]; omega)]
  exact ⟨by omega, List.getElem?_eq_getElem (by omega)⟩

theorem Dev.digestShown_other {a : Nat} (ha : ∀ k < 8, a ≠ SHA_DIG n k) : (d.digestShown n h).reg a = d.reg a :=
  foldl_keeps (P := fun e => e.reg a = d.reg a) (fun _ p hp he => (Dev.reg_setReg_other _ _ _ _ (ha p.1 (mem_zip_span h hp).1)).trans he) d rfl

theorem Dev.digestShown_reg {w : Word} (hk : k < 8) (hw : h[k]? = some w) : (d.digestShown n h).reg (SHA_DIG n k) = w := by
  have hmem : (k, w) ∈ (span 0 8).zip h := by
    obtain ⟨hlt, hget⟩ := List.getElem?_eq_some_iff.mp hw
    refine List.mem_iff_getElem.mpr ⟨k, by rw [List.length_zip, span_eight_length]; omega, ?_⟩
    rw [List.getElem_zip, span_eight_getElem k (by rw [span_eight_length]; exact hk), hget]
  refine foldl_reaches (f := fun (d : Dev) (p : Nat × Word) => d.setReg (SHA_DIG n p.1) p.2) (P := fun e => e.reg (SHA_DIG n k) = w) (Q := fun _ => True) hmem
    (fun _ _ _ _ => trivial) (fun e _ => Dev.reg_setReg_same _ _ _) (fun e p hp _ he => ?_) d trivial
  by_cases hpk : p.1 = k
  · have hpw := (mem_zip_span h hp).2
    rw [hpk, hw] at hpw
    obtain rfl := Option.some.inj hpw
    rw [hpk]
    exact Dev.reg_setReg_same _ _ _
  · exact (Dev.reg_setReg_other _ _ _ _ (by simp only [SHA_DIG, ne_eq]; omega)).trans he

end

/-! ### Contexts -/

section
variable {d : Dev} {q : List Instr} {c : Fin 7} {n : Fin 4}

/-- A command of a context by its owner, or by a core where it has none. -/
theorem shaRun_own (ho : BusOpen ⟨d, q⟩ c (SHA_CMD n) true) (hown : d.get (SHA_STAT n) SHA_STAT_OWNER = c.val ∨ d.get (SHA_STAT n) SHA_STAT_OWNER = 7) (f : Dev → Dev) :
    d.shaRun c n f = if (d.sha n).busy ≠ 0 ∨ !(d.sha n).taken then d.put (SHA_STAT n) SHA_STAT_ERR 2 else (f d).put (SHA_STAT n) SHA_STAT_BUSY 1 :=
  byCoreDeny_open (by rcases hown with h | h <;> simp [h]) ho _

theorem shaRun_takes (hb : (d.sha n).busy = 0) (ht : (d.sha n).taken = true) : ¬ ((d.sha n).busy ≠ 0 ∨ (!(d.sha n).taken) = true) := by simp [hb, ht]

theorem shaRun_denied (hc : d.coreActs c = true) (h1 : d.get (SHA_STAT n) SHA_STAT_OWNER ≠ c.val) (h7 : d.get (SHA_STAT n) SHA_STAT_OWNER ≠ 7) (f : Dev → Dev) :
    d.shaRun c n f = d.enter c (busFault d c (SHA_CMD n) synPRIVILEGE true) :=
  if_pos (by simp [hc, h1, h7])

/-- The context's operation has ended with its digest. -/
def Dev.shaDone (d : Dev) (n : Nat) (x : ShaCtx) : Dev :=
  (((d.put (SHA_STAT n) SHA_STAT_BUSY 0).setSha n { x with busy := 0, taken := false }).put (SHA_STAT n) SHA_STAT_DONE 1).digestShown n x.h

theorem Dev.shaDone_stat (d : Dev) (n : Nat) (x : ShaCtx) : (d.shaDone n x).flag (SHA_STAT n) SHA_STAT_DONE = true ∧ (d.shaDone n x).flag (SHA_STAT n) SHA_STAT_BUSY = false := by
  have hreg : ∀ f, (d.shaDone n x).get (SHA_STAT n) f =
      ((d.put (SHA_STAT n) SHA_STAT_BUSY 0).put (SHA_STAT n) SHA_STAT_DONE 1).get (SHA_STAT n) f := fun f =>
    congrArg (getF · f) (Dev.digestShown_other _ _ _ fun k hk => by simp only [SHA_DIG, SHA_STAT, ne_eq]; omega)
  constructor
  · rw [Dev.flag, hreg, Dev.get_put_same _ _ _ _ (by decide) (by decide)]
    rfl
  · rw [Dev.flag, hreg, Dev.get_put_field _ _ _ _ _ (by decide) (by decide) (by decide), Dev.get_put_same _ _ _ _ (by decide) (by decide)]
    rfl

theorem gives_shaEnd (hb : (d.sha n).busy = 2) (hbad : (d.sha n).bad = false) : Gives (.shaEnd n) ⟨d, q⟩ (d.shaDone n (d.sha n)) :=
  gives_of_run rfl (exec_shaEnd ..) ((if_neg (by rw [hb]; decide)).trans ((if_neg (by rw [hbad]; decide)).trans (if_pos hb)))

end

section
variable {d : Dev} {e : Nat} {j : AesJob}

/-- The end of a job that did what it was asked. -/
theorem Dev.jobEnd_ok (hs : j.status = jsOK) (hf : j.fault = none)
    (hb : ((j.writes.foldl (fun d w => d.setBytes w.1 w.2) d).count (AES_CNT 0)).busCode false j.core (j.addr + 0x1F) 1 true = none) :
    d.jobEnd e j = (((j.writes.foldl (fun d w => d.setBytes w.1 w.2) d).count (AES_CNT 0)).setBytes (j.addr + 0x1F) [BitVec.ofNat 8 jsOK]).pulse (1032 + j.core) := by
  unfold Dev.jobEnd
  rw [hs, hf]
  simp only [Dev.when, hb, beq_self_eq_true, Bool.true_or, if_true, Option.isSome_none, Bool.false_eq_true, if_false, show (jsOK == jsTAGFAIL) = false from rfl]

end

/-- Settles O26. -/
theorem aesAndSha : Obligations.AesAndSha := by
  unfold Obligations.AesAndSha
  intro d q c e n v j
  refine ⟨fun ho => ⟨fun h => ?_, fun h => ?_⟩, fun h => ?_, fun h hl => ⟨fun hn => ?_, fun hn he => ?_, fun hn he => ?_⟩, fun h hl => ⟨fun hle => ?_, fun hlt => ?_⟩, fun h => ?_,
    fun x ha hl hf hs hfault => ?_, fun ho => ?_, fun ho hown => ?_, fun hc hr h1 h7 w hw => ?_, fun h => ?_, fun hb hbad => ?_⟩
  · exact gives_of_askCore rfl ho (exec_aesJobSubmit ..) (if_pos h)
  · exact gives_of_askCore rfl ho (exec_aesJobSubmit ..) (if_neg (by omega))
  · exact gives_of_run rfl (exec_aesJobStart ..) (if_pos h)
  · refine gives_of_run rfl (exec_aesJobStart ..) ((if_neg (Nat.not_le.mpr h)).trans ?_)
    simp only [hl, Dev.grantJob, hn]
  · refine gives_of_run rfl (exec_aesJobStart ..) ((if_neg (Nat.not_le.mpr h)).trans ?_)
    simp only [hl, Dev.grantJob, hn, he, Option.isNone_none, if_true]
  · refine gives_of_run rfl (exec_aesJobStart ..) ((if_neg (Nat.not_le.mpr h)).trans ?_)
    simp only [hl, Dev.grantJob, hn]
    exact if_neg (by simpa using he)
  · refine gives_of_run rfl (exec_aesJobStart ..) ((if_neg (Nat.not_le.mpr h)).trans ?_)
    simp only [hl]
    exact if_pos hle
  · refine gives_of_run rfl (exec_aesJobStart ..) ((if_neg (Nat.not_le.mpr h)).trans ?_)
    simp only [hl]
    exact if_neg (by simpa [aesBudget] using hlt)
  · refine gives_of_run rfl (exec_aesJobEnd ..) ?_
    rcases h with h | h
    · exact if_pos h
    · simp only [h, ite_self]
  · intro y z hbus
    refine gives_of_run rfl (exec_aesJobEnd ..) ((if_neg (Nat.not_le.mpr ha)).trans ?_)
    simp only [hl, hf]
    exact Dev.jobEnd_ok hs hfault hbus
  · exact gives_of_askCore rfl ho (exec_shaStart ..) rfl
  · intro x a l y
    refine ⟨fun h => ⟨?_, ?_⟩, fun hb ht => ⟨?_, fun hbus => ?_, fun hbus => ?_⟩⟩
    · exact gives_of_ask rfl (ho.2.2.1 rfl) (exec_shaUpdate ..) ((shaRun_own ho hown _).trans (if_pos (by simpa using h)))
    · exact gives_of_ask rfl (ho.2.2.1 rfl) (exec_shaFinal ..) ((shaRun_own ho hown _).trans (if_pos (by simpa using h)))
    · exact gives_of_ask rfl (ho.2.2.1 rfl) (exec_shaFinal ..) ((shaRun_own ho hown _).trans (if_neg (shaRun_takes hb ht)))
    · exact gives_of_ask rfl (ho.2.2.1 rfl) (exec_shaUpdate ..) ((shaRun_own ho hown _).trans ((if_neg (shaRun_takes hb ht)).trans
        (congrArg (fun e : Dev => e.put (SHA_STAT n) SHA_STAT_BUSY 1) (if_pos hbus))))
    · exact gives_of_ask rfl (ho.2.2.1 rfl) (exec_shaUpdate ..) ((shaRun_own ho hown _).trans ((if_neg (shaRun_takes hb ht)).trans
        (congrArg (fun e : Dev => e.put (SHA_STAT n) SHA_STAT_BUSY 1) (if_neg (by rw [hbus]; decide)))))
  · simp only [List.mem_cons, List.not_mem_nil, or_false] at hw
    obtain rfl | rfl := hw
    · exact gives_of_ask rfl hr (exec_shaUpdate ..) (shaRun_denied hc h1 h7 _)
    · exact gives_of_ask rfl hr (exec_shaFinal ..) (shaRun_denied hc h1 h7 _)
  · exact gives_of_run rfl (exec_shaEnd ..) (if_pos h)
  · refine after_of (gives_shaEnd hb hbad) ?_
    obtain ⟨hdone, hbusy⟩ := d.shaDone_stat n (d.sha n)
    rw [Dev.flag_wakeSettle, Dev.flag_wakeSettle]
    refine ⟨hdone, hbusy, fun hlen k hk => ?_⟩
    rw [Dev.reg_settle, Dev.wakeBy_reg]
    refine Dev.digestShown_reg _ _ _ _ hk ?_
    rw [List.getD_eq_getElem?_getD, List.getElem?_eq_getElem (by omega)]
    rfl

end Sys2Proof.Machine
end

section
/-! Proofs for the performance levels (chapter 19). -/

namespace Sys2Proof.Machine

/-! ### What the next change of level begins (R367) -/

section
variable {d : Dev} {k t y : Nat} {f : Fld}

/-- The lowest core whose change waits. -/
def Dev.levelWaits (d : Dev) : Option Nat := (span 0 7).find? (fun c => d.flag (PWR_PLEVEL c) PWR_PLEVEL_BUSY)

theorem Dev.levelNext_busy (h : d.pwr.lvlRun.isSome = true) : d.levelNext = d := if_pos h

theorem Dev.levelNext_none (h : d.levelWaits = none) : d.levelNext = d := by
  simp only [Dev.levelNext, show (span 0 7).find? (fun c => d.flag (PWR_PLEVEL c) PWR_PLEVEL_BUSY) = none from h, ite_self]

/-- The change of core `k` begins: a lowering switches its clock. -/
def Dev.levelBegin (d : Dev) (k : Nat) : Dev :=
  Dev.when { d with pwr := { d.pwr with lvlRun := some k } } (decide (d.get (PWR_PLEVEL k) PWR_PLEVEL_CUR < d.get (PWR_PLEVEL k) PWR_PLEVEL_LEVEL))
    (fun e => e.put (PWR_PLEVEL k) PWR_PLEVEL_CUR (d.get (PWR_PLEVEL k) PWR_PLEVEL_LEVEL))

theorem Dev.levelNext_some (hr : d.pwr.lvlRun = none) (h : d.levelWaits = some k) : d.levelNext = d.levelBegin k := by
  simp only [Dev.levelNext, hr, show (span 0 7).find? (fun c => d.flag (PWR_PLEVEL c) PWR_PLEVEL_BUSY) = some k from h]
  rfl

theorem Dev.levelBegin_pwr : (d.levelBegin k).pwr = { d.pwr with lvlRun := some k } := by
  unfold Dev.levelBegin Dev.when; split <;> rfl

theorem Dev.levelBegin_same : Dev.SameBut [PWR_PLEVEL k] d (d.levelBegin k) := by
  unfold Dev.levelBegin Dev.when
  split
  · exact Dev.SameBut.put (e := { d with pwr := { d.pwr with lvlRun := some k } }) (by simp) _ _ ((Dev.SameBut.refl d).congr rfl rfl rfl rfl)
  · exact (Dev.SameBut.refl d).congr rfl rfl rfl rfl

theorem Dev.levelBegin_reg (h : y ≠ PWR_PLEVEL k) : (d.levelBegin k).reg y = d.reg y := d.levelBegin_same.reg y (by simpa using h)

theorem Dev.levelBegin_CUR : (d.levelBegin k).get (PWR_PLEVEL k) PWR_PLEVEL_CUR =
    max (d.get (PWR_PLEVEL k) PWR_PLEVEL_CUR) (d.get (PWR_PLEVEL k) PWR_PLEVEL_LEVEL) := by
  have hlt : d.get (PWR_PLEVEL k) PWR_PLEVEL_LEVEL < 2 ^ 2 := getF_lt _ _
  unfold Dev.levelBegin Dev.when
  split
  next h =>
    rw [Dev.get_put_same _ _ _ _ (by decide) (by decide), show PWR_PLEVEL_CUR.width = 2 from rfl, Nat.mod_eq_of_lt hlt]
    exact (Nat.max_eq_right (Nat.le_of_lt (of_decide_eq_true h))).symm
  next h =>
    have hle := Nat.not_lt.mp (fun hc => h (decide_eq_true hc))
    exact (Nat.max_eq_left hle).symm

/-- What `levelNext` leaves: whether it begins a change or not. -/
theorem Dev.levelNext_frame {P : Dev → Prop} (h0 : P d) (hk : ∀ k, d.pwr.lvlRun = none → d.levelWaits = some k → P (d.levelBegin k)) : P d.levelNext := by
  cases hr : d.pwr.lvlRun with
  | some j => rw [Dev.levelNext_busy (by simp [hr])]; exact h0
  | none =>
    cases hw : d.levelWaits with
    | none => rw [Dev.levelNext_none hw]; exact h0
    | some k => rw [Dev.levelNext_some hr hw]; exact hk k hr hw

theorem Dev.levelWaits_flag (h : d.levelWaits = some k) : d.flag (PWR_PLEVEL k) PWR_PLEVEL_BUSY = true := List.find?_some (p := fun c => d.flag (PWR_PLEVEL c) PWR_PLEVEL_BUSY) h

theorem Dev.levelWaits_lt (h : d.levelWaits = some k) : k < 7 := by
  have := (mem_span.mp (List.mem_of_find?_eq_some h)).2
  omega

theorem PWR_PLEVEL_inj (h : PWR_PLEVEL k = PWR_PLEVEL t) : k = t := by simp only [PWR_PLEVEL] at h; omega

/-- A core whose change does not wait keeps its register. -/
theorem Dev.levelNext_reg_of_idle (h : d.flag (PWR_PLEVEL t) PWR_PLEVEL_BUSY = false) : d.levelNext.reg (PWR_PLEVEL t) = d.reg (PWR_PLEVEL t) := by
  refine Dev.levelNext_frame (P := fun e => e.reg (PWR_PLEVEL t) = d.reg (PWR_PLEVEL t)) rfl fun k _ hw => Dev.levelBegin_reg fun hc => ?_
  have hk := Dev.levelWaits_flag hw
  rw [← PWR_PLEVEL_inj hc, h] at hk
  exact Bool.false_ne_true hk

theorem Dev.levelNext_resvOf (d : Dev) (n : Nat) : d.levelNext.resvOf n = d.resvOf n := by
  refine Dev.levelNext_frame (P := fun e => e.resvOf n = d.resvOf n) rfl fun k _ _ => ?_
  rw [Dev.resvOf, Dev.levelBegin_pwr]; rfl

theorem FLC_BOOT_ne_PLEVEL (hk : k < 7) : FLC_BOOT ≠ PWR_PLEVEL k := fun h => by simp only [PWR_PLEVEL, FLC_BOOT] at h; omega

theorem Dev.levelNext_cores (d : Dev) : d.levelNext.cores = d.cores :=
  Dev.levelNext_frame (P := fun e => e.cores = d.cores) rfl fun _ _ _ => d.levelBegin_same.cores

theorem Dev.levelNext_byte (d : Dev) (y : Nat) : d.levelNext.byte y = d.byte y :=
  Dev.levelNext_frame (P := fun e => e.byte y = d.byte y) rfl fun k _ hw => d.levelBegin_same.byte (by simpa using FLC_BOOT_ne_PLEVEL (Dev.levelWaits_lt hw)) y

theorem Dev.levelNext_lvlRun (hr : d.pwr.lvlRun = none) : d.levelNext.pwr.lvlRun = d.levelWaits := by
  cases hw : d.levelWaits with
  | none => rw [Dev.levelNext_none hw, hr]
  | some k => rw [Dev.levelNext_some hr hw, Dev.levelBegin_pwr]

/-- The lowest core of those whose change waits is the one whose change begins. -/
theorem Dev.levelWaits_lowest (hk : k < 7) (hb : d.flag (PWR_PLEVEL k) PWR_PLEVEL_BUSY = true)
    (hl : ∀ j, j < k → d.flag (PWR_PLEVEL j) PWR_PLEVEL_BUSY = false) : d.levelWaits = some k := by
  have hs : span 0 7 = span 0 k ++ span k (7 - k) := by
    have : ∀ k : Fin 7, span 0 7 = span 0 k ++ span k (7 - k) := by decide
    exact this ⟨k, hk⟩
  have hlow : (span 0 k).find? (fun c => d.flag (PWR_PLEVEL c) PWR_PLEVEL_BUSY) = none :=
    List.find?_eq_none.mpr fun j hj => by rw [hl j (by have := (mem_span.mp hj).2; omega)]; decide
  rw [Dev.levelWaits, hs, List.find?_append, hlow, Option.none_or]
  obtain ⟨n, hn⟩ : ∃ n, 7 - k = n + 1 := ⟨6 - k, by omega⟩
  rw [hn, span]
  exact List.find?_cons_of_pos hb

/-! ### The end of a change (R367) -/

theorem PWR_PLEVEL_ne_CEIL (ht : t < 7) : PWR_PLEVEL t ≠ PWR_CEIL := fun h => by simp only [PWR_PLEVEL, PWR_CEIL] at h; omega

theorem Dev.levelEnd_reg (d : Dev) (ht : t < 7) : (d.levelEnd t).reg (PWR_PLEVEL t) =
    setF (setF (d.reg (PWR_PLEVEL t)) PWR_PLEVEL_CUR (d.get (PWR_PLEVEL t) PWR_PLEVEL_LEVEL)) PWR_PLEVEL_BUSY 0 :=
  (Dev.reg_put_other _ _ _ _ _ (PWR_PLEVEL_ne_CEIL ht)).trans
    ((Dev.reg_put_same _ _ _ _).trans (congrArg (fun w => setF w PWR_PLEVEL_BUSY 0) (Dev.reg_put_same _ _ _ _)))

theorem Dev.levelEnd_BUSY (d : Dev) (ht : t < 7) : (d.levelEnd t).flag (PWR_PLEVEL t) PWR_PLEVEL_BUSY = false := by
  rw [Dev.flag, Dev.get, d.levelEnd_reg ht, getF_setF_same _ _ _ (by decide) (by decide)]
  rfl

theorem Dev.levelEnd_LEVEL (d : Dev) (ht : t < 7) : (d.levelEnd t).get (PWR_PLEVEL t) PWR_PLEVEL_LEVEL = d.get (PWR_PLEVEL t) PWR_PLEVEL_LEVEL := by
  rw [Dev.get, d.levelEnd_reg ht, getF_setF_other _ _ _ _ (by decide) (by decide) (by decide), getF_setF_other _ _ _ _ (by decide) (by decide) (by decide)]
  rfl

theorem Dev.levelEnd_CUR (d : Dev) (ht : t < 7) : (d.levelEnd t).get (PWR_PLEVEL t) PWR_PLEVEL_CUR = d.get (PWR_PLEVEL t) PWR_PLEVEL_LEVEL := by
  have hlt : d.get (PWR_PLEVEL t) PWR_PLEVEL_LEVEL < 2 ^ 2 := getF_lt _ _
  rw [Dev.get, d.levelEnd_reg ht, getF_setF_other _ _ _ _ (by decide) (by decide) (by decide), getF_setF_same _ _ _ (by decide) (by decide)]
  exact Nat.mod_eq_of_lt hlt

theorem Dev.levelEnd_resvOf (d : Dev) (t : Nat) : (d.levelEnd t).resvOf (resvCore t) = coreMw (d.get (PWR_PLEVEL t) PWR_PLEVEL_LEVEL) :=
  (Dev.resvOf_setResv _ _ _ _).trans (if_pos rfl)

theorem Dev.levelEnd_same (d : Dev) (t : Nat) : Dev.SameBut [PWR_PLEVEL t, PWR_CEIL] d (d.levelEnd t) := by
  have h : Dev.SameBut [PWR_PLEVEL t, PWR_CEIL] d ((d.put (PWR_PLEVEL t) PWR_PLEVEL_CUR (d.get (PWR_PLEVEL t) PWR_PLEVEL_LEVEL)).put (PWR_PLEVEL t) PWR_PLEVEL_BUSY 0) :=
    ((Dev.SameBut.refl d).put (by simp) _ _).put (by simp) _ _
  exact Dev.SameBut.put (by simp) _ _ (h.congr rfl rfl rfl rfl)

/-- The change under way ends and the next begins. -/
def Dev.levelDone (d : Dev) (t : Nat) : Dev := Dev.levelNext { d.levelEnd t with pwr := { (d.levelEnd t).pwr with lvlRun := none } }

/-- The cores whose change waits besides `t`. -/
theorem find?_ext_mem {p q : Nat → Bool} {l : List Nat} (h : ∀ x ∈ l, p x = q x) : l.find? p = l.find? q := by
  induction l with
  | nil => rfl
  | cons x l ih => rw [List.find?_cons, List.find?_cons, h x List.mem_cons_self, ih fun y hy => h y (List.mem_cons_of_mem _ hy)]

theorem Dev.levelEnd_waits (d : Dev) (ht : t < 7) : (d.levelEnd t).levelWaits =
    (span 0 7).find? (fun k => d.flag (PWR_PLEVEL k) PWR_PLEVEL_BUSY && decide (k ≠ t)) := by
  unfold Dev.levelWaits
  refine find?_ext_mem fun k hmem => ?_
  have hk7 : k < 7 := by have := (mem_span.mp hmem).2; omega
  by_cases hk : k = t
  · subst hk; simp [d.levelEnd_BUSY ht]
  · rw [(d.levelEnd_same t).flag (fun hc => ?_), decide_eq_true hk, Bool.and_true]
    simp only [List.mem_cons, List.not_mem_nil, or_false] at hc
    exact hc.elim (fun h => hk (PWR_PLEVEL_inj h)) (PWR_PLEVEL_ne_CEIL hk7)

/-- A write of a higher level (a lower number) that the plan permits asks for its reservation. -/
theorem levelWrite_higher {v : Word} (hb : d.flag (PWR_PLEVEL t) PWR_PLEVEL_BUSY = false) (hp : d.planLevel t ≠ 0xFF)
    (hlt : getF v PWR_PLEVEL_LEVEL < d.get (PWR_PLEVEL t) PWR_PLEVEL_LEVEL) : d.levelWrite t v =
    if d.flag PWR_MON PWR_MON_OVER then d.levelRefuse t 2
    else
      let r := d.requestResv (resvCore t) (coreMw (getF v PWR_PLEVEL_LEVEL)) (26 + t)
      if r.1 then ((r.2.put (PWR_PLEVEL t) PWR_PLEVEL_LEVEL (getF v PWR_PLEVEL_LEVEL)).put (PWR_PLEVEL t) PWR_PLEVEL_BUSY 1).levelNext
      else r.2.levelRefuse t 1 :=
  (if_neg (by simp [hb])).trans ((if_neg hp).trans ((if_neg (Nat.ne_of_lt hlt)).trans (if_neg (Nat.not_lt.mpr (Nat.le_of_lt hlt)))))

/-- What a change that ended leaves. -/
structure Dev.LevelEnded (d : Dev) (t : Nat) (e : Dev) : Prop where
  reg   : e.reg (PWR_PLEVEL t) = (d.levelEnd t).reg (PWR_PLEVEL t)
  resv  : e.resvOf (resvCore t) = coreMw (d.get (PWR_PLEVEL t) PWR_PLEVEL_LEVEL)
  cores : e.cores = d.cores
  bytes : ∀ y, e.byte y = d.byte y

theorem Dev.levelEnd_ended (d : Dev) (ht : t < 7) : Dev.LevelEnded d t (d.levelEnd t) := by
  have hs := d.levelEnd_same t
  exact ⟨rfl, d.levelEnd_resvOf t, hs.cores, hs.byte (by simpa using ⟨FLC_BOOT_ne_PLEVEL ht, by decide⟩)⟩

theorem Dev.levelDone_ended (d : Dev) (ht : t < 7) : Dev.LevelEnded d t (d.levelDone t) := by
  obtain ⟨-, hresv, hcores, hbytes⟩ := d.levelEnd_ended ht
  exact ⟨Dev.levelNext_reg_of_idle (d.levelEnd_BUSY ht), (Dev.levelNext_resvOf _ _).trans hresv, (Dev.levelNext_cores _).trans hcores,
    fun y => (Dev.levelNext_byte _ y).trans (hbytes y)⟩

theorem Dev.levelDone_lvlRun (d : Dev) (ht : t < 7) : (d.levelDone t).pwr.lvlRun =
    (span 0 7).find? (fun k => d.flag (PWR_PLEVEL k) PWR_PLEVEL_BUSY && decide (k ≠ t)) :=
  (Dev.levelNext_lvlRun rfl).trans (d.levelEnd_waits ht)

theorem Dev.LevelEnded.shown {d e : Dev} {t : Nat} (ht : t < 7) (h : Dev.LevelEnded d t e) (x : Dev) :
    (x.wakeBy e).settle.get (PWR_PLEVEL t) PWR_PLEVEL_CUR = d.get (PWR_PLEVEL t) PWR_PLEVEL_LEVEL ∧
    (x.wakeBy e).settle.flag (PWR_PLEVEL t) PWR_PLEVEL_BUSY = false ∧
    (x.wakeBy e).settle.get (PWR_PLEVEL t) PWR_PLEVEL_LEVEL = d.get (PWR_PLEVEL t) PWR_PLEVEL_LEVEL ∧
    (x.wakeBy e).settle.resvOf (resvCore t) = coreMw (d.get (PWR_PLEVEL t) PWR_PLEVEL_LEVEL) ∧
    (x.wakeBy e).settle.cores = d.cores ∧ ∀ y, (x.wakeBy e).settle.byte y = d.byte y := by
  have hget : ∀ f, e.get (PWR_PLEVEL t) f = (d.levelEnd t).get (PWR_PLEVEL t) f := fun f => by rw [Dev.get, h.reg, Dev.get]
  refine ⟨?_, ?_, ?_, h.resv, h.cores, fun y => ?_⟩
  · rw [Dev.get_settle, Dev.wakeBy_get, hget, d.levelEnd_CUR ht]
  · rw [Dev.flag_wakeSettle, Dev.flag, hget, ← Dev.flag, d.levelEnd_BUSY ht]
  · rw [Dev.get_settle, Dev.wakeBy_get, hget, d.levelEnd_LEVEL ht]
  · rw [Dev.byte_settle, Dev.wakeBy_byte, h.bytes y]

end

/-- Settles O49. -/
theorem performanceLevels : Obligations.PerformanceLevels := by
  unfold Obligations.PerformanceLevels
  intro d q c t v a new old
  refine ⟨fun ho => ⟨fun hb => ?_, fun hb hp => ?_, fun hb hp => ⟨fun he => ?_, fun hlt => ?_, fun hlt hov => ?_, fun hlt hov hfit => ?_, fun hlt hov hfit => ?_⟩⟩,
    fun hb => ?_, fun hb hr hne => ?_, fun hb hr => ?_, fun k hk hr hb hlow => ⟨?_, ?_, fun y hy => ?_⟩⟩
  · exact gives_of_byCore rfl ho (exec_levelChange ..) (if_pos hb)
  · exact gives_of_byCore rfl ho (exec_levelChange ..) ((if_neg (by simp [a, hb])).trans (if_pos hp))
  · exact gives_of_byCore rfl ho (exec_levelChange ..) ((if_neg (by simp [a, hb])).trans ((if_neg hp).trans (if_pos he)))
  · exact gives_of_byCore rfl ho (exec_levelChange ..) ((if_neg (by simp [a, hb])).trans ((if_neg hp).trans ((if_neg (Nat.ne_of_gt hlt)).trans (if_pos hlt))))
  · exact gives_of_byCore rfl ho (exec_levelChange ..) ((levelWrite_higher hb hp hlt).trans (if_pos hov))
  · exact gives_of_byCore rfl ho (exec_levelChange ..) ((levelWrite_higher hb hp hlt).trans ((if_neg (by simp [hov])).trans
      (by rw [show d.requestResv (resvCore t) (coreMw new) (26 + t) = (true, d.setResv (resvCore t) (coreMw new)) from if_pos hfit]; rfl)))
  · exact gives_of_byCore rfl ho (exec_levelChange ..) ((levelWrite_higher hb hp hlt).trans ((if_neg (by simp [hov])).trans
      (by rw [show d.requestResv (resvCore t) (coreMw new) (26 + t) = (false, d.refuseResv (26 + t)) from if_neg (by simp [hfit])]; rfl)))
  · exact gives_of_run rfl (exec_levelChangeEnd ..) (if_pos (by simpa [a] using hb))
  · exact gives_of_run rfl (exec_levelChangeEnd ..) ((if_neg (by simp [a] at hb; simp [hb])).trans ((if_neg hr).trans (if_neg hne)))
  · by_cases hrun : d.pwr.lvlRun = some t.val
    · refine after_of (gives_of_run rfl (exec_levelChangeEnd ..) ((if_neg (by simp [a] at hb; simp [hb])).trans (if_pos hrun)) (e := d.levelDone t)) ?_
      obtain ⟨hcur, hbusy, hlev, hresv, hcores, hbytes⟩ := (d.levelDone_ended t.isLt).shown t.isLt d
      exact ⟨hcur, hbusy, hlev, hresv, hcores, hbytes, fun _ => d.levelDone_lvlRun t.isLt⟩
    · refine after_of (gives_of_run rfl (exec_levelChangeEnd ..) ((if_neg (by simp [a] at hb; simp [hb])).trans ((if_neg hrun).trans
        (if_pos (hr.resolve_left hrun)))) (e := d.levelEnd t)) ?_
      obtain ⟨hcur, hbusy, hlev, hresv, hcores, hbytes⟩ := (d.levelEnd_ended t.isLt).shown t.isLt d
      exact ⟨hcur, hbusy, hlev, hresv, hcores, hbytes, fun h => absurd h hrun⟩
  · rw [Dev.levelNext_some hr (Dev.levelWaits_lowest hk hb hlow), Dev.levelBegin_pwr]
  · rw [Dev.levelNext_some hr (Dev.levelWaits_lowest hk hb hlow), Dev.levelBegin_CUR]
  · rw [Dev.levelNext_some hr (Dev.levelWaits_lowest hk hb hlow), Dev.levelBegin_reg hy]

end Sys2Proof.Machine
end

section
/-! Lock cells and cores (chapter 14): a line that leaves the carve. -/

namespace Sys2Proof.Machine

/-- Core 0 has line 17 modified, the carve of one set is full, and the line that its set would lose lies in the cache of core 1. -/
def carveFull : Dev :=
  { Dev.reset with
    clk := { ClockSt.init with rootUp := true }
    sow := { SowSt.init with force := [{ typ := tMEMORY, inst := 0, body := [1, 0] }] }
    carve := (span 1 16).map (fun l => (l, false))
    caches := [(0, { CacheSt.init with data := [(17, .m)] }), (1, { CacheSt.init with data := [(16, .s)] })] }

/-- The data lines of core `c` in the next state, where the command answers one. -/
def linesNext (i : Instr) (s : State) (c : Fin 7) : Option (List (Nat × Mesi)) :=
  match exec i s with
  | .next t => some (t.dev.l1 c).data
  | _ => none

theorem carveFull_loses : linesNext (.writebackArrival 0 17) ⟨carveFull, []⟩ 1 = some [] := by decide +kernel

/-- Refutes O32: the writeback of a modified line is merged into the carve, and the line that leaves the full set takes its first-level copies with it
(R293), those of other cores too. The clause of WRITEBACK_ARRIVAL says that other cores keep their lines. -/
theorem not_lockCellsAndCores : ¬ Obligations.LockCellsAndCores := by
  unfold Obligations.LockCellsAndCores
  intro ⟨_, h⟩
  obtain ⟨_, _, _, hwb, _⟩ := h carveFull [] 0 0 0 17
  obtain ⟨t, hexec, _, _, _, hkept, _⟩ := hwb (.inr (by decide))
  have hlost := carveFull_loses
  rw [linesNext, hexec] at hlost
  have hdata := Option.some.inj hlost
  rw [hkept 1 (by decide)] at hdata
  exact absurd hdata (by decide)

end Sys2Proof.Machine
end

section
/-! Interrupt sources (chapter 16). -/

namespace Sys2Proof.Machine

/-- A command that leaves the device as it is, OFF or not. -/
theorem gives_of_awake_keep {i : Instr} {d : Dev} {q : List Instr} {f : Dev → Dev} (h : exec i ⟨d, q⟩ = State.awake ⟨d, q⟩ f) (he : f d = d) : Gives i ⟨d, q⟩ d := by
  refine gives_of_on h ?_
  dsimp only
  rw [he, ite_self]

section
variable {d : Dev} {n m a : Nat} {b : Bool} {v : Word}

theorem Dev.flag_putB (d : Dev) (a : Nat) {f : Fld} (b : Bool) (h2 : f.hi < 32) (hl : f.lo ≤ f.hi) : (d.putB a f b).flag a f = b := by
  cases b
  · exact d.flag_put_zero a h2 hl
  · exact d.flag_put_one a h2 hl

theorem Dev.flag_put_field (d : Dev) (a : Nat) {f g : Fld} (v : Nat) (h2 : f.hi < 32) (hl : f.lo ≤ f.hi) (hd : g.hi < f.lo ∨ f.hi < g.lo) :
    (d.put a f v).flag a g = d.flag a g := by
  rw [Dev.flag, Dev.get_put_field _ _ _ _ _ h2 hl hd, ← Dev.flag]

/-- One bit of a register after that bit is put. -/
theorem Dev.testBit_putB (d : Dev) (a i : Nat) (b : Bool) (hi : i < 32) : testBit ((d.putB a ⟨i, i⟩ b).reg a) i = b := by
  rw [Dev.putB, Dev.reg_put_same, testBit, setF_getLsbD _ _ _ _ hi (Nat.le_refl _), if_pos ⟨Nat.le_refl _, Nat.le_refl _⟩]
  cases b <;> simp

/-! ### A sample of a source (R325) -/

/-- A sample writes LINE, and may write PEND. -/
theorem Dev.srcSample_cases (d : Dev) (n : Nat) (b : Bool) :
    d.srcSample n b = d.putB (IRQ_CFG n) IRQ_CFG_LINE b ∨ ∃ p, d.srcSample n b = (d.putB (IRQ_CFG n) IRQ_CFG_LINE b).srcPend n p := by
  unfold Dev.srcSample
  dsimp only
  split
  · exact .inr ⟨_, rfl⟩
  · split
    · exact .inr ⟨_, rfl⟩
    · exact .inl rfl
  · split
    · exact .inr ⟨_, rfl⟩
    · exact .inl rfl
  · split
    · exact .inr ⟨_, rfl⟩
    · exact .inl rfl

theorem Dev.flag_srcPend (d : Dev) (n : Nat) (b : Bool) : (d.srcPend n b).flag (IRQ_CFG n) IRQ_CFG_PEND = b := d.flag_putB _ b (by decide) (by decide)

theorem Dev.srcSample_LINE (d : Dev) (n : Nat) (b : Bool) : (d.srcSample n b).flag (IRQ_CFG n) IRQ_CFG_LINE = b := by
  have hline := d.flag_putB (IRQ_CFG n) (f := IRQ_CFG_LINE) b (by decide) (by decide)
  obtain h | ⟨p, h⟩ := d.srcSample_cases n b
  · rw [h, hline]
  · rw [h]
    exact (Dev.flag_put_field _ _ _ (by decide) (by decide) (by decide)).trans hline

theorem Dev.srcSample_reg (b : Bool) (ha : a ≠ IRQ_CFG n) : (d.srcSample n b).reg a = d.reg a := by
  have hline : (d.putB (IRQ_CFG n) IRQ_CFG_LINE b).reg a = d.reg a := Dev.reg_put_other _ _ _ _ _ ha
  obtain h | ⟨p, h⟩ := d.srcSample_cases n b
  · rw [h, hline]
  · rw [h]
    exact (Dev.reg_put_other _ _ _ _ _ ha).trans hline

theorem Dev.SENSE_putLine (d : Dev) (n : Nat) (b : Bool) : (d.putB (IRQ_CFG n) IRQ_CFG_LINE b).get (IRQ_CFG n) IRQ_CFG_SENSE = d.get (IRQ_CFG n) IRQ_CFG_SENSE :=
  Dev.get_put_field _ _ _ _ _ (by decide) (by decide) (by decide)

theorem Dev.srcSample_level (hs : d.get (IRQ_CFG n) IRQ_CFG_SENSE = 0) (ha : d.flag (IRQ_CFG n) IRQ_CFG_ACT = false) (b : Bool) :
    (d.srcSample n b).flag (IRQ_CFG n) IRQ_CFG_PEND = b := by
  have hact : (d.putB (IRQ_CFG n) IRQ_CFG_LINE b).flag (IRQ_CFG n) IRQ_CFG_ACT = false :=
    (Dev.flag_put_field _ _ _ (by decide) (by decide) (by decide)).trans ha
  simp only [Dev.srcSample, Dev.SENSE_putLine, hs, hact, Bool.not_false, Bool.and_true]
  exact Dev.flag_srcPend _ _ _

theorem Dev.srcSample_rising (hs : d.get (IRQ_CFG n) IRQ_CFG_SENSE = 1) (hl : d.flag (IRQ_CFG n) IRQ_CFG_LINE = false) :
    (d.srcSample n true).flag (IRQ_CFG n) IRQ_CFG_PEND = true := by
  simp only [Dev.srcSample, Dev.SENSE_putLine, hs, hl, Bool.not_false, Bool.and_true, if_true]
  exact Dev.flag_srcPend _ _ _

theorem Dev.srcSample_falling (hs : d.get (IRQ_CFG n) IRQ_CFG_SENSE = 1) :
    (d.srcSample n false).flag (IRQ_CFG n) IRQ_CFG_PEND = d.flag (IRQ_CFG n) IRQ_CFG_PEND := by
  simp only [Dev.srcSample, Dev.SENSE_putLine, hs, Bool.false_and, Bool.false_eq_true, if_false]
  exact Dev.flag_put_field _ _ _ (by decide) (by decide) (by decide)

/-! ### A ball sampled as a source (R324, R326) -/

theorem Dev.srcLevel_ball (ext : Bool) (hn : 1104 ≤ n) (hp : padFunc ((d.sec tPADS 0).getD []) (n - 1104) = 1) :
    d.srcLevel n ext = testBit (d.reg (GPIO_IN ((n - 1104) / 32))) ((n - 1104) % 32) := by
  unfold Dev.srcLevel
  rw [if_neg (by omega), if_neg (by omega), if_neg (by omega), if_neg (by omega), if_neg (by omega), if_pos hn]
  simp only [hp, true_or, decide_true, Bool.true_and]

/-- The sample of a source: of its level, and of the edges that its condition gave since. -/
def Dev.srcTaken (d : Dev) (n : Nat) (ext : Bool) : Dev :=
  let e : Dev := { d with irqPulse := sset false d.irqPulse n false, irqNew := sset false d.irqNew n false }
  let w := d.srcLevel n ext || sget false d.irqPulse n
  if sget false d.irqNew n && d.srcEdge n then e.putB (IRQ_CFG n) IRQ_CFG_LINE w else e.srcSample n w

theorem gives_sourceChange {q : List Instr} {k : Fin 1152} {lvl : Bool} {e : Dev} (hf : d.fieldOn 1 = true) (hr : d.clk.stopped = false)
    (he : (d.ballSample k lvl).srcTaken k lvl = e) : Gives (.sourceChange k lvl) ⟨d, q⟩ e :=
  gives_of_run rfl (exec_sourceChange ..) ((if_neg (by simp [hf, hr])).trans he)

theorem Dev.ballSample_low (ext : Bool) (hn : n < 1104) : d.ballSample n ext = d := if_neg fun h => absurd h.1 (by omega)

theorem Dev.srcTaken_LINE (ext : Bool) : (d.srcTaken n ext).flag (IRQ_CFG n) IRQ_CFG_LINE = (d.srcLevel n ext || sget false d.irqPulse n) := by
  unfold Dev.srcTaken
  dsimp only
  split
  · exact Dev.flag_putB _ _ _ (by decide) (by decide)
  · exact Dev.srcSample_LINE _ _ _

theorem Dev.srcTaken_reg (ext : Bool) (ha : a ≠ IRQ_CFG n) : (d.srcTaken n ext).reg a = d.reg a := by
  unfold Dev.srcTaken
  dsimp only
  split
  · exact Dev.reg_put_other _ _ _ _ _ ha
  · exact Dev.srcSample_reg _ ha

theorem Dev.ball_shown (ext : Bool) (hn : 1104 ≤ n) (hn' : n < 1152) (hp : padFunc ((d.sec tPADS 0).getD []) (n - 1104) = 1) (hf : d.fieldOn 6 = true)
    (hq : sget false d.irqPulse n = false) :
    ((d.ballSample n ext).srcTaken n ext).flag (IRQ_CFG n) IRQ_CFG_LINE = ext ∧
    testBit (((d.ballSample n ext).srcTaken n ext).reg (GPIO_IN ((n - 1104) / 32))) ((n - 1104) % 32) = ext := by
  have hball : d.ballSample n ext = d.putB (GPIO_IN ((n - 1104) / 32)) ⟨(n - 1104) % 32, (n - 1104) % 32⟩ ext := if_pos ⟨hn, .inl hp, hf⟩
  have hbit := d.testBit_putB (GPIO_IN ((n - 1104) / 32)) _ ext (Nat.mod_lt (n - 1104) (by decide : 0 < 32))
  rw [hball]
  constructor
  · rw [Dev.srcTaken_LINE, Dev.srcLevel_ball (d := d.putB (GPIO_IN ((n - 1104) / 32)) ⟨(n - 1104) % 32, (n - 1104) % 32⟩ ext) ext hn hp, hbit]
    exact (congrArg (ext || ·) hq).trans (Bool.or_false _)
  · rw [Dev.srcTaken_reg ext (by simp only [GPIO_IN, IRQ_CFG, ne_eq]; omega), hbit]

/-! ### Pending set or cleared by a write (R325) -/

/-- One source of a write of PEND or SWPEND. -/
def Dev.pendStep (d : Dev) (k : Nat) (v : Word) (b : Bool) (i : Nat) : Dev :=
  if testBit v i && d.srcEdge (32 * k + i) then d.srcPend (32 * k + i) b else d

theorem Dev.pendWrite_eq (d : Dev) (k : Nat) (v : Word) (b : Bool) : d.pendWrite k v b = (span 0 32).foldl (fun d i => d.pendStep k v b i) d := rfl

theorem IRQ_CFG_inj (h : IRQ_CFG n = IRQ_CFG m) : n = m := by simp only [IRQ_CFG] at h; omega

theorem Dev.pendStep_reg {k i : Nat} (ha : a ≠ IRQ_CFG (32 * k + i)) : (d.pendStep k v b i).reg a = d.reg a := by
  unfold Dev.pendStep
  split
  · exact Dev.reg_put_other _ _ _ _ _ ha
  · rfl

theorem Dev.pendStep_PEND (d : Dev) (k i : Nat) (v : Word) (b : Bool) : (d.pendStep k v b i).flag (IRQ_CFG (32 * k + i)) IRQ_CFG_PEND =
    if testBit v i && d.srcEdge (32 * k + i) then b else d.flag (IRQ_CFG (32 * k + i)) IRQ_CFG_PEND := by
  unfold Dev.pendStep
  split
  · exact d.flag_srcPend _ _
  · rfl

theorem Dev.pendStep_congr {e : Dev} {k i : Nat} (h : d.reg (IRQ_CFG (32 * k + i)) = e.reg (IRQ_CFG (32 * k + i))) :
    (d.pendStep k v b i).reg (IRQ_CFG (32 * k + i)) = (e.pendStep k v b i).reg (IRQ_CFG (32 * k + i)) := by
  have hedge : d.srcEdge (32 * k + i) = e.srcEdge (32 * k + i) := by rw [Dev.srcEdge, Dev.get, h, ← Dev.get, ← Dev.srcEdge]
  unfold Dev.pendStep
  rw [hedge]
  split
  · rw [Dev.srcPend, Dev.putB, Dev.reg_put_same, h, Dev.srcPend, Dev.putB, Dev.reg_put_same]
  · exact h

/-- A fold that visits each place once shows at place `i` what step `i` makes of the start. -/
theorem foldl_place {β : Type} {g : Nat → Dev → β} {f : Dev → Nat → Dev} (hother : ∀ d i j, j ≠ i → g i (f d j) = g i d)
    (hsame : ∀ d e i, g i d = g i e → g i (f d i) = g i (f e i)) {i n lo : Nat} (h1 : lo ≤ i) (h2 : i < lo + n) :
    ∀ d, g i ((span lo n).foldl f d) = g i (f d i) := by
  induction n generalizing lo with
  | zero => omega
  | succ n ih =>
    intro d
    rw [span, List.foldl_cons]
    by_cases hi : i = lo
    · subst hi
      exact foldl_keeps (P := fun e => g i e = g i (f d i)) (fun e j hj he => (hother e i j (by have := (mem_span.mp hj).1; omega)).trans he) _ rfl
    · rw [ih (by omega) (by omega)]
      exact hsame _ _ _ (hother _ _ _ (Ne.symm hi))

theorem Dev.pendWrite_PEND (d : Dev) (k : Nat) (v : Word) (b : Bool) {i : Nat} (hi : i < 32) :
    (d.pendWrite k v b).flag (IRQ_CFG (32 * k + i)) IRQ_CFG_PEND =
    if testBit v i && d.srcEdge (32 * k + i) then b else d.flag (IRQ_CFG (32 * k + i)) IRQ_CFG_PEND := by
  have hreg : (d.pendWrite k v b).reg (IRQ_CFG (32 * k + i)) = (d.pendStep k v b i).reg (IRQ_CFG (32 * k + i)) :=
    foldl_place (g := fun i e => e.reg (IRQ_CFG (32 * k + i))) (f := fun d i => d.pendStep k v b i)
      (fun d i j hj => Dev.pendStep_reg fun h => hj (by have := IRQ_CFG_inj h; omega)) (fun _ _ _ h => Dev.pendStep_congr h) (Nat.zero_le i) (by omega) d
  rw [← Dev.pendStep_PEND, Dev.flag, Dev.get, hreg, ← Dev.get, ← Dev.flag]

/-! ### The acknowledge of what is presented (R327, R328) -/

/-- The source leaves the pending for the active of core `c`. -/
def Dev.srcActive (d : Dev) (n : Nat) (c : Fin 7) : Dev := ((d.srcPend n false).put (IRQ_CFG n) IRQ_CFG_ACT 1).put (IRQ_CFG n) IRQ_CFG_ONCORE c

theorem Dev.srcActive_fields (d : Dev) (n : Nat) (c : Fin 7) : (d.srcActive n c).flag (IRQ_CFG n) IRQ_CFG_PEND = false ∧
    (d.srcActive n c).flag (IRQ_CFG n) IRQ_CFG_ACT = true ∧ (d.srcActive n c).get (IRQ_CFG n) IRQ_CFG_ONCORE = c.val := by
  refine ⟨?_, ?_, ?_⟩
  · refine (Dev.flag_put_field _ _ _ (by decide) (by decide) (by decide)).trans ?_
    exact (Dev.flag_put_field _ _ _ (by decide) (by decide) (by decide)).trans (d.flag_srcPend n false)
  · exact (Dev.flag_put_field _ _ _ (by decide) (by decide) (by decide)).trans (Dev.flag_put_one _ _ (by decide) (by decide))
  · refine (Dev.get_put_same _ _ _ _ (by decide) (by decide)).trans (Nat.mod_eq_of_lt ?_)
    exact Nat.lt_trans c.isLt (by decide)

/-- The source stands on core `c`'s stack, and its hold-off runs. -/
def Dev.srcStacked (d : Dev) (n : Nat) (c : Fin 7) (p : Nat) : Dev :=
  let e := d.setCore c { d.core c with stk := (n, p) :: (d.core c).stk }
  if e.get (IRQ_HOLD (n / 32)) IRQ_HOLD_INTERVAL = 0 then e else e.holdRun (n / 32)

theorem Dev.srcStacked_reg (p : Nat) (c : Fin 7) (ha : a ≠ IRQ_HOLD (n / 32)) : (d.srcStacked n c p).reg a = d.reg a := by
  unfold Dev.srcStacked
  dsimp only
  split
  · rfl
  · exact Dev.reg_put_other _ _ _ _ _ ha

theorem Dev.srcStacked_core (p : Nat) (c : Fin 7) : (d.srcStacked n c p).core c = { d.core c with stk := (n, p) :: (d.core c).stk } := by
  have h : (d.setCore c { d.core c with stk := (n, p) :: (d.core c).stk }).core c = _ := Dev.core_setCore_same ..
  unfold Dev.srcStacked
  dsimp only
  split
  · exact h
  · exact h

/-- The rest of the acknowledge: no register of a source, no core. -/
def Dev.ackShown (d : Dev) (n : Nat) (c : Fin 7) (p : Nat) (lp : Bool) : Dev :=
  { d with
    lpOrder := if lp then d.lpOrder.filter (· ≠ c.val) ++ [c.val] else d.lpOrder
    lostEvt := d.lostEvt && n != 1026
    rdata := mkWord [(IRQ_ACK_PRI, p), (IRQ_ACK_SRC, n)] }

theorem Dev.irqAck_some {c : Fin 7} (h : d.presented c = some m) : d.irqAck c =
    ((d.srcActive m c).srcStacked m c (d.get (IRQ_CFG m) IRQ_CFG_PRI)).ackShown m c (d.get (IRQ_CFG m) IRQ_CFG_PRI) (d.flag (IRQ_CFG m) IRQ_CFG_LOWPRI) := by
  unfold Dev.irqAck
  rw [h]
  rfl

theorem ackWord_SRC (p : Nat) (hm : m < 1152) : getF (mkWord [(IRQ_ACK_PRI, p), (IRQ_ACK_SRC, m)]) IRQ_ACK_SRC = m := by
  have hword : mkWord [(IRQ_ACK_PRI, p), (IRQ_ACK_SRC, m)] = setF (setF 0 IRQ_ACK_PRI p) IRQ_ACK_SRC m := rfl
  rw [hword, getF_setF_same _ _ _ (by decide) (by decide)]
  exact Nat.mod_eq_of_lt (Nat.lt_trans hm (by decide))

theorem Dev.ack_leaves (d : Dev) (c : Fin 7) (p : Nat) (lp : Bool) (hm : m < 1152) :
    let e := ((d.srcActive m c).srcStacked m c p).ackShown m c p lp
    e.flag (IRQ_CFG m) IRQ_CFG_PEND = false ∧ e.flag (IRQ_CFG m) IRQ_CFG_ACT = true ∧ e.get (IRQ_CFG m) IRQ_CFG_ONCORE = c.val ∧
    e.core c = { d.core c with stk := (m, p) :: (d.core c).stk } ∧ getF e.rdata IRQ_ACK_SRC = m := by
  intro e
  have hget : ∀ f, e.get (IRQ_CFG m) f = (d.srcActive m c).get (IRQ_CFG m) f := fun f =>
    congrArg (getF · f) (Dev.srcStacked_reg p c (by simp only [IRQ_CFG, IRQ_HOLD, ne_eq]; omega))
  have hflag : ∀ f, e.flag (IRQ_CFG m) f = (d.srcActive m c).flag (IRQ_CFG m) f := fun f => by rw [Dev.flag, hget, ← Dev.flag]
  obtain ⟨hpend, hact, hon⟩ := d.srcActive_fields m c
  exact ⟨(hflag _).trans hpend, (hflag _).trans hact, (hget _).trans hon, Dev.srcStacked_core (d := d.srcActive m c) p c, ackWord_SRC p hm⟩

theorem Dev.irqEoi_bad {c : Fin 7} {top : Word} (h : (d.core c).stk = [] ∧ top = 0 ∨ ∃ t r, (d.core c).stk = t :: r ∧ t.1 ≠ n ∧ top = stkWord t) :
    d.irqEoi c n = ((d.put (IRQ_STAT c) IRQ_STAT_ORDERFLT 1).count (IRQ_CNT 0)).report (26 + c) c 2 (BitVec.ofNat 32 n) [top] := by
  unfold Dev.irqEoi
  obtain ⟨h, rfl⟩ | ⟨t, r, h, hne, rfl⟩ := h
  · simp only [h]
  · simp only [h, hne, if_false]

end

/-- Settles O33. -/
theorem interrupts : Obligations.Interrupts := by
  unfold Obligations.Interrupts
  intro d q c k g n v up lvl m t r
  refine ⟨fun hf hr hn => ⟨fun h => ?_, fun hnew hedge => ?_⟩, fun hf hr hn hp hpad hq => ?_, fun h => ?_,
    ⟨Dev.srcSample_LINE _ _ _, fun hs ha b => Dev.srcSample_level hs ha b, fun hs hl => Dev.srcSample_rising hs hl, fun hs => Dev.srcSample_falling hs⟩,
    fun hon hl hf hs => ?_, fun hf => ?_, fun ho => ?_, fun ho => ?_, fun ho => ⟨fun h => ?_, fun h hm => ?_⟩,
    fun ho => ⟨fun h he => ?_, fun h he => ?_, fun h => ?_⟩, fun hr hd => ?_, fun h => ?_, fun ho => ⟨fun hr => ?_, fun hr hv => ?_, fun hr hv => ?_⟩⟩
  · refine gives_sourceChange hf hr ?_
    rw [Dev.ballSample_low lvl hn]
    exact if_neg (by obtain h | h := h <;> simp [h])
  · refine gives_sourceChange hf hr ?_
    rw [Dev.ballSample_low lvl hn]
    exact if_pos (by simp [hnew, hedge])
  · refine after_of (gives_sourceChange hf hr rfl) ?_
    rw [Dev.flag_wakeSettle, Dev.reg_settle, Dev.wakeBy_reg]
    exact d.ball_shown lvl hn n.isLt hp hpad hq
  · refine gives_of_run rfl (exec_sourceChange ..) (if_pos ?_)
    simpa using h
  · exact gives_of_awake (exec_asyncLatchEdge ..) hon (if_pos (by simp [hl, hf, hs]))
  · exact gives_of_awake_keep (exec_asyncLatchEdge ..) (if_neg (by simp [hf]))
  · refine after_of (gives_of_byCore rfl ho (exec_softwarePend ..) rfl) fun i hi => ?_
    rw [Dev.flag_wakeSettle, d.pendWrite_PEND k v true hi]
    cases testBit v i && d.srcEdge (32 * k + i) <;> simp
  · refine after_of (gives_of_byCore rfl ho (exec_pendingClear ..) rfl) fun i hi => ?_
    rw [Dev.flag_wakeSettle, d.pendWrite_PEND k v false hi]
    cases testBit v i && d.srcEdge (32 * k + i) <;> simp
  · refine gives_of_byCore rfl ho (exec_interruptAcknowledge ..) ?_
    simp only [Dev.irqAck, h]
  · refine after_of (gives_of_byCore rfl ho (exec_interruptAcknowledge ..) (Dev.irqAck_some h)) ?_
    obtain ⟨hpend, hact, hon, hcore, hword⟩ := d.ack_leaves c (d.get (IRQ_CFG m) IRQ_CFG_PRI) (d.flag (IRQ_CFG m) IRQ_CFG_LOWPRI) hm
    rw [Dev.flag_wakeSettle, Dev.flag_wakeSettle, Dev.get_settle, Dev.wakeBy_get, Dev.core_settle, Dev.wakeBy_core, hcore]
    exact ⟨hpend, hact, hon, rfl, hword, rfl, rfl⟩
  · refine gives_of_byCore rfl ho (exec_interruptComplete ..) ?_
    simp only [Dev.irqEoi, h, he, if_true]
  · exact gives_of_byCore rfl ho (exec_interruptComplete ..) (Dev.irqEoi_bad (.inr ⟨t, r, h, he, rfl⟩))
  · exact gives_of_byCore rfl ho (exec_interruptComplete ..) (Dev.irqEoi_bad (.inl ⟨h, rfl⟩))
  · exact gives_of_run rfl (exec_holdoffExpiry ..) (if_pos (by simp [Dev.holdOver, hr, hd]))
  · refine gives_of_run rfl (exec_holdoffExpiry ..) (if_neg ?_)
    obtain h | h := h
    · simp [Dev.holdOver, h]
    · simp [Dev.holdOver, h]
  · exact gives_of_byCore rfl ho (exec_holdoffWrite ..) (if_pos (by simpa using hr))
  · exact gives_of_byCore rfl ho (exec_holdoffWrite ..) ((if_neg (by simpa using hr)).trans (if_neg hv))
  · exact gives_of_byCore rfl ho (exec_holdoffWrite ..) ((if_neg (by simpa using hr)).trans (if_pos hv))

end Sys2Proof.Machine
end

section
/-! Headland channels, cells, groups and gated channels (chapter 17). -/

namespace Sys2Proof.Machine

section
variable {d : Dev} {q : List Instr} {c : Fin 7} {a n p ch : Nat} {lvl : Bool}

/-! ### Who a write of the headland is refused to (R342) -/

theorem Dev.byCoreDeny_denied {f : Dev → Dev} (hc : d.coreActs c = true) (hd : deny = true) :
    d.byCoreDeny c a true deny f = d.enter c (busFault d c a synPRIVILEGE true) :=
  if_pos (by simp [hc, hd])

/-! ### Producers and cells (R334, R338) -/

theorem gives_channelEvent_off {a : Fin 256} (h : hlProducer d.hl a = 0 ∨ 0xF00 ≤ hlProducer d.hl a ∨ d.producerOff (hlProducer d.hl a) = true) :
    Gives (.channelEvent a lvl) ⟨d, q⟩ d := gives_of_run rfl (exec_channelEvent ..) (if_pos h)

theorem isPulse_zero : isPulse 0 = false := by decide

/-- A producer of the plan that is powered. -/
def Dev.produces (d : Dev) (p : Nat) : Prop := p ≠ 0 ∧ p < 0xF00 ∧ d.producerOff p = false

theorem gives_channelEvent_pulse {a : Fin 256} {e : Dev} (hp : d.produces (hlProducer d.hl a)) (hk : isPulse (hlProducer d.hl a) = true)
    (he : (d.pulseDue (hlProducer d.hl a)).elim d (d.pulseShow a) = e) : Gives (.channelEvent a lvl) ⟨d, q⟩ e := by
  obtain ⟨h0, hlt, hoff⟩ := hp
  refine gives_of_run rfl (exec_channelEvent ..) ((if_neg ?_).trans ((if_pos hk).trans he))
  rintro (h | h | h)
  · exact h0 h
  · exact absurd h (Nat.not_le.mpr hlt)
  · simp [hoff] at h

theorem gives_channelEvent_level {a : Fin 256} (hp : d.produces (hlProducer d.hl a)) (hk : isPulse (hlProducer d.hl a) = false) :
    Gives (.channelEvent a lvl) ⟨d, q⟩ ((d.inputLevel (hlProducer d.hl a) lvl).chDrive a (d.producerLevel (hlProducer d.hl a) lvl)) := by
  obtain ⟨h0, hlt, hoff⟩ := hp
  refine gives_of_run rfl (exec_channelEvent ..) ((if_neg ?_).trans (if_neg (by simp [hk])))
  rintro (h | h | h)
  · exact h0 h
  · exact absurd h (Nat.not_le.mpr hlt)
  · simp [hoff] at h

theorem Dev.cellsMove_one (h : cellChannel d.hl n = some ch) : d.cellsMove [n] =
    Dev.chDrive { d.putB (HDL_LUT n) HDL_LUT_OUT (!d.flag (HDL_LUT n) HDL_LUT_OUT) with cellCnt := serase n d.cellCnt } ch (!d.flag (HDL_LUT n) HDL_LUT_OUT) := by
  have hlist : ([n].filterMap fun n => (cellChannel d.hl n).map (fun a => (a, !d.flag (HDL_LUT n) HDL_LUT_OUT))) = [(ch, !d.flag (HDL_LUT n) HDL_LUT_OUT)] := by
    simp [h]
  unfold Dev.cellsMove
  rw [hlist]
  rfl

theorem gives_cellFilterExpiry {n : Fin 128} (h : cellChannel d.hl n = some ch) (hw : d.cellWait n ≤ sget 0 d.cellCnt n) :
    Gives (.cellFilterExpiry n) ⟨d, q⟩ (Dev.chDrive { d.putB (HDL_LUT n) HDL_LUT_OUT (!d.flag (HDL_LUT n) HDL_LUT_OUT) with cellCnt := serase n d.cellCnt } ch
      (!d.flag (HDL_LUT n) HDL_LUT_OUT)) := by
  have hripe : d.cellRipe n = true := by simp [Dev.cellRipe, h, hw]
  rw [← Dev.cellsMove_one h]
  exact gives_of_run rfl (exec_cellFilterExpiry ..) (if_pos hripe)

/-! ### Gated channels (R341, R356) -/

/-- The always-on timers that gated channel `i` starts. -/
def Dev.gateStarts (d : Dev) (i : Nat) : List Nat := (span 0 8).filter (fun t => d.get (RTC_ATCTL t) RTC_ATCTL_GSTART = i + 1)

/-- The latch of gated channel `i` is taken, and its timers start. -/
def Dev.gateTaken (d : Dev) (i : Nat) : Dev :=
  (d.gateStarts i).foldl (fun d t => d.setAont t { d.atOf t with start := true }) (d.put HDL_GATED ⟨8 + i, 8 + i⟩ 0)

theorem Dev.mem_gateStarts {i t : Nat} : t ∈ d.gateStarts i ↔ t < 8 ∧ d.get (RTC_ATCTL t) RTC_ATCTL_GSTART = i + 1 := by
  simp [Dev.gateStarts, mem_span]

theorem Dev.gateTaken_start {i t : Nat} (ht : t ∈ d.gateStarts i) : ((d.gateTaken i).atOf t).start = true := by
  refine foldl_reaches (Q := fun _ => True) (P := fun e => (e.atOf t).start = true) ht (fun _ _ _ => id) (fun e _ => ?_) (fun e k _ _ he => ?_) _ trivial
  · rw [Dev.atOf_setAont, if_pos rfl]
  · rw [Dev.atOf_setAont]
    split
    · rfl
    · exact he

theorem Dev.gateTaken_latch {i : Nat} (hi : i < 8) : ((d.gateTaken i).get HDL_GATED HDL_GATED_LATCH).testBit i = false := by
  have hregs : ∀ (l : List Nat) (e : Dev), (l.foldl (fun d t => d.setAont t { d.atOf t with start := true }) e).get HDL_GATED HDL_GATED_LATCH = e.get HDL_GATED HDL_GATED_LATCH :=
    foldl_frame (g := fun e => e.get HDL_GATED HDL_GATED_LATCH) fun _ _ => rfl
  rw [Dev.gateTaken, hregs, Dev.testBit_get_put _ _ _ _ _ _ (by dsimp only; omega) (Nat.le_refl _)]
  split
  · exact Nat.zero_testBit _
  next h => exact absurd ⟨hi, Nat.le_refl _, Nat.le_refl _⟩ h

end

/-- Settles O35. -/
theorem headlandRouting : Obligations.HeadlandRouting := by
  unfold Obligations.HeadlandRouting
  intro d q c a n i lvl v m ch
  refine ⟨fun h => ?_, fun h => gives_channelEvent_off (.inr (.inr h)), fun hlt hk hoff => ?_, fun h0 hlt hk hoff => ?_,
    fun h => ?_, fun h hw => ?_, fun hc hd => ?_, fun hd ho => ?_, fun hc hd => ?_, fun hd ho => ⟨fun h => ?_, fun h hs => ?_⟩, fun hc hd => ⟨?_, ?_⟩,
    fun hd => ⟨fun ho => ?_, fun ho => ?_⟩, fun h => ?_, fun hon h hno => ?_, fun hon h t ht hs => ?_⟩
  · exact gives_channelEvent_off (h.imp_right .inl)
  · have hp : d.produces (hlProducer d.hl a) := ⟨fun h => by rw [h, isPulse_zero] at hk; exact Bool.false_ne_true hk, hlt, hoff⟩
    exact ⟨fun e he => gives_channelEvent_pulse hp hk (by rw [he]; rfl), fun he => gives_channelEvent_pulse hp hk (by rw [he]; rfl)⟩
  · exact gives_channelEvent_level ⟨h0, hlt, hoff⟩ hk
  · refine gives_of_run rfl (exec_cellFilterExpiry ..) (if_neg ?_)
    obtain h | h := h
    · simp [Dev.cellRipe, h]
    · simp [Dev.cellRipe, Nat.not_le.mpr h]
  · exact gives_cellFilterExpiry h hw
  · exact gives_of_run rfl (exec_channelFire ..) (Dev.byCoreDeny_denied hc hd)
  · exact gives_of_run rfl (exec_channelFire ..) (byCoreDeny_open hd ho _)
  · exact gives_of_run rfl (exec_lutWrite ..) (Dev.byCoreDeny_denied hc hd)
  · refine gives_of_run rfl (exec_lutWrite ..) ((byCoreDeny_open hd ho _).trans (if_neg ?_))
    obtain h | h := h
    · simp [h]
    · simp [h]
  · exact gives_of_run rfl (exec_lutWrite ..) ((byCoreDeny_open hd ho _).trans (if_pos ⟨by simp [h], hs⟩))
  · exact gives_of_run rfl (exec_groupEnable ..) (Dev.byCoreDeny_denied hc hd)
  · exact gives_of_run rfl (exec_groupDisable ..) (Dev.byCoreDeny_denied hc hd)
  · refine gives_of_run rfl (exec_groupEnable ..) ((byCoreDeny_open hd ho _).trans ?_)
    simp only [Dev.groupWrite, Dev.groupAsk, if_true, Nat.or_zero]
  · refine gives_of_run rfl (exec_groupDisable ..) ((byCoreDeny_open hd ho _).trans ?_)
    simp only [Dev.groupWrite, Dev.groupAsk, Bool.false_eq_true, if_false, Nat.or_zero]
  · exact gives_of_awake_keep (exec_gatedInputDelivery ..) (if_neg (by simp [h]))
  · refine gives_of_awake (exec_gatedInputDelivery ..) hon ((if_pos h).trans (if_pos ?_))
    exact List.isEmpty_iff.mpr (List.eq_nil_iff_forall_not_mem.mpr fun t ht => hno t (Dev.mem_gateStarts.mp ht).1 (Dev.mem_gateStarts.mp ht).2)
  · have hmem : t ∈ d.gateStarts i := Dev.mem_gateStarts.mpr ⟨ht, hs⟩
    refine after_of (gives_of_awake (exec_gatedInputDelivery ..) hon ((if_pos h).trans (if_neg ?_)) (e := d.gateTaken i)) ?_
    · exact fun hempty => absurd hmem (by rw [show d.gateStarts i = [] from List.isEmpty_iff.mp hempty]; exact List.not_mem_nil)
    · rw [Dev.get_settle, Dev.wakeBy_get]
      exact ⟨Dev.gateTaken_start hmem, Dev.gateTaken_latch i.isLt⟩

end Sys2Proof.Machine
end

section
/-! Commands and events of the flash controller (chapter 15). -/

namespace Sys2Proof.Machine

section
variable {d e : Dev} {b c op n w a : Nat}

/-! ### What start-up of the flash keeps (R313): the flag cells and FLC_BOOT -/

/-- The flag cells and FLC_BOOT. -/
def Dev.bootView (d : Dev) := (d.flFlag, d.reg FLC_BOOT)

theorem Dev.flFlag_of_bootView (h : e.bootView = d.bootView) : e.flFlag = d.flFlag := congrArg Prod.fst h

theorem Dev.bootView_of_regs (hf : e.flFlag = d.flFlag) (hr : e.regs = d.regs) : e.bootView = d.bootView := by
  rw [Dev.bootView, Dev.bootView, hf, Dev.reg_congr hr]

theorem Dev.bootView_setReg (v : Word) (h : FLC_BOOT ≠ a) : (d.setReg a v).bootView = d.bootView := by
  rw [Dev.bootView, Dev.bootView, Dev.reg_setReg_other _ _ _ _ h, Dev.setReg_flFlag]

theorem Dev.bootView_count (h : FLC_BOOT ≠ a) : (d.count a).bootView = d.bootView := by
  rw [Dev.bootView, Dev.bootView, Dev.reg_count_other _ _ _ h, Dev.count_flFlag]

theorem Dev.bootView_bytes {α : Type} (f : α → Nat × Byte) (l : List α) (d : Dev) :
    (l.foldl (fun (d : Dev) p => d.setByte (f p).1 (f p).2) d).bootView = d.bootView :=
  foldl_frame (g := Dev.bootView) (f := fun (d : Dev) (p : α) => d.setByte (f p).1 (f p).2) (fun _ _ => rfl) l d

theorem Dev.bootView_eraseSector (d : Dev) (a : Nat) : (d.eraseSector a).bootView = d.bootView := rfl

theorem Dev.bootView_setWin (d : Dev) (w : Nat) (x : Win) : (d.setWin w x).bootView = d.bootView := rfl

theorem Dev.bootView_copySector (d : Dev) (src dst : Nat) : (d.copySector src dst).bootView = d.bootView :=
  (Dev.bootView_bytes (fun p : Nat × Byte => (dst + (p.1 - src), p.2)) _ _).trans (d.bootView_eraseSector dst)

theorem Dev.putBytes_flFlag (d : Dev) (a : Nat) (l : List Byte) : (d.putBytes a l).flFlag = d.flFlag := by
  induction l generalizing d a with
  | nil => rfl
  | cons x r ih => exact ih _ _

theorem Dev.setBytes_flFlag (d : Dev) (a : Nat) (l : List Byte) : (d.setBytes a l).flFlag = d.flFlag := by
  unfold Dev.setBytes Dev.eccClear
  split
  · exact Dev.putBytes_flFlag _ _ _
  · exact Dev.putBytes_flFlag _ _ _

theorem Dev.bootView_progWord (d : Dev) (a : Nat) (l : List Byte) (ok : Bool) : (d.progWord a l ok).bootView = d.bootView :=
  Dev.bootView_of_regs (d.setBytes_flFlag a l) (d.setBytes_regs a l)

theorem Dev.bootView_winAppend (d : Dev) (w kind a b : Nat) : (d.winAppend w kind a b).bootView = d.bootView := by
  unfold Dev.winAppend
  dsimp only
  rw [Dev.bootView_setWin, Dev.bootView_progWord]

theorem Dev.bootView_winPut (d : Dev) (w kind a b : Nat) : (d.winPut w kind a b).bootView = d.bootView := by
  have hfold : ∀ {α : Type} (g : α → Nat × Nat × Nat) (l : List α) (e : Dev), (l.foldl (fun d x => d.winAppend w (g x).1 (g x).2.1 (g x).2.2) e).bootView = e.bootView :=
    fun g l e => foldl_frame (g := Dev.bootView) (fun d x => d.bootView_winAppend w (g x).1 (g x).2.1 (g x).2.2) l e
  unfold Dev.winPut
  dsimp only
  rw [Dev.bootView_winAppend]
  split
  · rfl
  · rw [hfold (fun x : Nat × Nat => (4, x.1, x.2)), hfold (fun x : Nat => (3, x, 0)), hfold (fun x : Nat × Nat => (2, x.1, x.2)), Dev.bootView_winAppend, Dev.bootView_setWin,
      Dev.bootView_eraseSector]

theorem Dev.bootView_winRemap (d : Dev) (w slot i : Nat) : (d.winRemap w slot i).bootView = d.bootView := by
  unfold Dev.winRemap
  dsimp only
  rw [Dev.bootView_count (by decide), Dev.bootView_winPut, Dev.bootView_setWin]

theorem Dev.bootView_winShow (hw : w < 2) : (d.winShow w).bootView = d.bootView := by
  refine (Dev.bootView_setReg _ fun h => ?_).trans (Dev.bootView_setReg _ fun h => ?_)
  · simp only [FLC_BOOT, FLC_WINSTAT] at h; omega
  · simp only [FLC_BOOT, FLC_WINPOS] at h; omega

theorem Dev.bootView_copyBackEnd (d : Dev) (w slot pool : Nat) : (d.copyBackEnd w slot pool).bootView = d.bootView := by
  unfold Dev.copyBackEnd
  dsimp only
  rw [Dev.bootView_winPut, Dev.bootView_setWin, Dev.bootView_eraseSector, Dev.bootView_copySector]

theorem Dev.bootView_poolClean (d : Dev) (w : Nat) : (d.poolClean w).bootView = d.bootView := by
  refine foldl_frame (g := Dev.bootView) (fun e i => ?_) _ _
  dsimp only
  split
  · exact e.bootView_eraseSector _
  · rfl

theorem Dev.bootView_winReplay (d : Dev) (w : Nat) : (d.winReplay w).bootView = d.bootView := by
  unfold Dev.winReplay
  dsimp only
  exact d.bootView_setWin w _

/-- A window starts anew. -/
def Dev.winStart (d : Dev) (w : Nat) : Dev :=
  let d := d.winReplay w
  let d := (d.winOf w).copyback.foldl (fun d e => d.copyBackEnd w e.1 e.2) d
  (d.poolClean w).winShow w

theorem Dev.bootView_winStart (hw : w < 2) : (d.winStart w).bootView = d.bootView := by
  have hback : ∀ (l : List (Nat × Nat)) (e : Dev), (l.foldl (fun d x => d.copyBackEnd w x.1 x.2) e).bootView = e.bootView :=
    foldl_frame (g := Dev.bootView) (f := fun (d : Dev) (x : Nat × Nat) => d.copyBackEnd w x.1 x.2) fun e x => e.bootView_copyBackEnd w x.1 x.2
  unfold Dev.winStart
  dsimp only
  rw [Dev.bootView_winShow hw, Dev.bootView_poolClean, hback, Dev.bootView_winReplay]

theorem Dev.bootView_tornFix (d : Dev) (o : Nat) : (d.tornFix o).bootView = d.bootView := by
  have hkeep : ∀ (d : Dev) (l : List (Nat × Byte)) (src dst : Nat), (l.foldl (fun d p => d.setByte (dst + (p.1 - src)) p.2) (d.eraseSector dst)).bootView = d.bootView :=
    fun d l src dst => (Dev.bootView_bytes (fun p : Nat × Byte => (dst + (p.1 - src), p.2)) _ _).trans (d.bootView_eraseSector dst)
  unfold Dev.tornFix
  dsimp only
  split
  · rw [Dev.bootView_winShow (by decide)]
    rw [Dev.bootView_eraseSector, Dev.bootView_winRemap, hkeep]
    exact Dev.bootView_count (by decide)
  · split
    · exact Dev.bootView_count (by decide)
    · rw [Dev.bootView_winShow (by decide), Dev.bootView_count (by decide), Dev.bootView_copyBackEnd, Dev.bootView_winPut,
        Dev.bootView_setWin, hkeep]
      exact Dev.bootView_count (by decide)

theorem Dev.bootView_tornClear (d : Dev) : d.tornClear.bootView = d.bootView := by
  unfold Dev.tornClear
  split
  · rfl
  · exact d.bootView_tornFix _

/-- REP registers of the banks as start-up of the flash shows them. -/
def Dev.repsShown (d : Dev) : Dev :=
  (span 0 4).foldl (fun d b =>
    let l := sget [] d.flRow b
    d.setReg (FLC_REP b) (mkWord [(FLC_REP_USED, l.length), (FLC_REP_LAST, l.getLast?.getD 0)])) d

/-- Sectors whose erase was cut are erased, and no flag cell stays. -/
def Dev.flagsCleared (d : Dev) : Dev :=
  let d := d.flFlag.foldl (fun d n => ((d.eraseSector (flashAt (4096 * n))).reportNext 12 n 1 0 []).count (FLC_CNT 4)) d
  { d with flFlag := [] }

theorem Dev.flashStart_eq (d : Dev) :
    d.flashStart = ((span 0 2).foldl (fun d w => d.winStart w) d.repsShown.twinChoose.flagsCleared).put FLC_BOOT FLC_BOOT_READY 1 := rfl

theorem Dev.flagsCleared_flFlag (d : Dev) : d.flagsCleared.flFlag = [] := rfl

theorem Dev.winStarts_flFlag (d : Dev) : ((span 0 2).foldl (fun d w => d.winStart w) d).flFlag = d.flFlag :=
  foldl_keeps (P := fun x => x.flFlag = d.flFlag) (f := fun d w => d.winStart w)
    (fun _ _ hw hx => (Dev.flFlag_of_bootView (Dev.bootView_winStart (mem_span.mp hw).2)).trans hx) d rfl

/-- Once the flash has started, READY is 1 and no flag cell is set. -/
theorem Dev.flashStart_ready (d : Dev) : d.flashStart.flag FLC_BOOT FLC_BOOT_READY = true ∧ d.flashStart.flFlag = [] := by
  rw [Dev.flashStart_eq, Dev.put_flFlag, Dev.winStarts_flFlag, Dev.flagsCleared_flFlag]
  exact ⟨Dev.flag_put_one _ _ (by decide) (by decide), rfl⟩

theorem Dev.ready_of_bootView (h : e.bootView = d.bootView) (hr : d.flag FLC_BOOT FLC_BOOT_READY = true ∧ d.flFlag = []) :
    e.flag FLC_BOOT FLC_BOOT_READY = true ∧ e.flFlag = [] := by
  obtain ⟨hready, hflags⟩ := hr
  simp only [Dev.bootView, Prod.mk.injEq] at h
  obtain ⟨hf, hreg⟩ := h
  exact ⟨by rw [Dev.flag, Dev.get, hreg, ← Dev.get, ← Dev.flag, hready], hf.trans hflags⟩

/-! ### A command taken (R308) -/

/-- The bank takes command `op` of core `c` at place `p`. -/
def Dev.flcTaken (d : Dev) (c b op : Nat) (p : Nat × Option (Nat × Nat)) : Dev :=
  (d.setBank b { d.bankOfs b with op := op, core := c, addr := p.1, log := p.2, mark := 0 }).put (FLC_STAT b) FLC_STAT_BUSY 1

/-- What a program or an erase marks as it begins: the slot's CHECK goes, and the sector's flag cell is set. -/
def Dev.flcMarked (d : Dev) (b op a : Nat) : Dev :=
  let d := if op = 1 ∨ op = 2 ∨ op = 3 then d.uncheck b (sectorOf a) else d
  if op = 3 then d.setFlagCell (a / 4096 * 4096) true else d

theorem Dev.flcMarked_frame {α : Type} {g : Dev → α} (hc : ∀ (e : Dev) (x : SvcSt), g { e with svc := x } = g e) (hf : ∀ (e : Dev) (x : List Nat), g { e with flFlag := x } = g e)
    (op a : Nat) : g (d.flcMarked b op a) = g d := by
  have hcheck : g (if op = 1 ∨ op = 2 ∨ op = 3 then d.uncheck b (sectorOf a) else d) = g d := by
    split
    · unfold Dev.uncheck
      split
      · exact hc _ _
      · rfl
    · rfl
  unfold Dev.flcMarked
  dsimp only
  split
  · exact (hf _ _).trans hcheck
  · exact hcheck

/-- The place of a command, where it has one. -/
def Dev.flcPlace (d : Dev) (b op : Nat) : Nat × Option (Nat × Nat) := if 6 ≤ op then (0, none) else (d.flashName (d.reg (FLC_ADDR b)).toNat).getD (0, none)

theorem Dev.flcCmd_refused {k : Nat} (h : d.flcJudge c b op = some k) : d.flcCmd c b op = d.flcEnd b op k := by
  unfold Dev.flcCmd; rw [h]

theorem Dev.flcCmd_taken (h : d.flcJudge c b op = none) : d.flcCmd c b op = (d.flcTaken c b op (d.flcPlace b op)).flcMarked b op (d.flcPlace b op).1 := by
  unfold Dev.flcCmd; rw [h]; rfl

/-- What an accepted command makes of the device. -/
theorem Dev.flcCmd_leaves (h : d.flcJudge c b op = none) :
    Dev.SameBut [FLC_STAT b] d (d.flcCmd c b op) ∧ ((d.flcCmd c b op).bankOfs b).op = op ∧ ((d.flcCmd c b op).bankOfs b).core = c ∧
    (d.flcCmd c b op).flag (FLC_STAT b) FLC_STAT_BUSY = true := by
  rw [Dev.flcCmd_taken h]
  generalize d.flcPlace b op = p
  have hbank : (d.flcTaken c b op p).bankOfs b = { d.bankOfs b with op := op, core := c, addr := p.1, log := p.2, mark := 0 } :=
    (sget_sset _ _ _ _ _).trans (if_pos rfl)
  have htaken : Dev.SameBut [FLC_STAT b] d (d.flcTaken c b op p) :=
    Dev.SameBut.put (e := d.setBank b { d.bankOfs b with op := op, core := c, addr := p.1, log := p.2, mark := 0 }) (by simp) _ _
      ((Dev.SameBut.refl d).congr rfl rfl rfl rfl)
  refine ⟨htaken.congr ?_ ?_ ?_ ?_, ?_, ?_, ?_⟩
  · exact Dev.flcMarked_frame (g := fun e => e.mem) (fun _ _ => rfl) (fun _ _ => rfl) _ _
  · exact Dev.flcMarked_frame (g := fun e => e.wins) (fun _ _ => rfl) (fun _ _ => rfl) _ _
  · exact Dev.flcMarked_frame (g := fun e => e.cores) (fun _ _ => rfl) (fun _ _ => rfl) _ _
  · exact Dev.flcMarked_frame (g := fun e => e.regs) (fun _ _ => rfl) (fun _ _ => rfl) _ _
  · rw [Dev.flcMarked_frame (g := fun e => (e.bankOfs b).op) (fun _ _ => rfl) (fun _ _ => rfl), hbank]
  · rw [Dev.flcMarked_frame (g := fun e => (e.bankOfs b).core) (fun _ _ => rfl) (fun _ _ => rfl), hbank]
  · rw [Dev.flcMarked_frame (g := fun e => e.flag (FLC_STAT b) FLC_STAT_BUSY) (fun _ _ => rfl) (fun _ _ => rfl)]
    exact Dev.flag_put_one _ _ (by decide) (by decide)

theorem FLC_BOOT_ne_STAT (b : Nat) : FLC_BOOT ∉ [FLC_STAT b] := by
  simp only [List.mem_singleton, FLC_BOOT, FLC_STAT]; omega

/-! ### The end of a command (R308) -/

/-- The bank is free again, before the result of command `op` shows. -/
def Dev.flcFreed (d : Dev) (b : Nat) : Dev := ((d.setBank b { d.bankOfs b with op := 0, log := none }).put (FLC_STAT b) FLC_STAT_SUSP 0).bankShow b

theorem Dev.flcFreed_op (d : Dev) (b : Nat) : ((d.flcFreed b).bankOfs b).op = 0 :=
  congrArg Bank.op ((sget_sset Bank.init d.banks b { d.bankOfs b with op := 0, log := none } b).trans (if_pos rfl))

theorem Dev.flcEnd_plain {k : Nat} (hs : k ≠ frSUPPLYLOW) (hp : k ≠ frPROGFAIL) :
    d.flcEnd b op k = ((d.put (FLC_STAT b) FLC_STAT_RESULT k).put (FLC_STAT b) FLC_STAT_OP op).put (FLC_STAT b) FLC_STAT_DONE 1 :=
  (if_neg hs).trans (if_neg hp)

theorem Dev.flcEnd_shown {k : Nat} (hs : k ≠ frSUPPLYLOW) (hp : k ≠ frPROGFAIL) (hk : k < 256) :
    (d.flcEnd b op k).get (FLC_STAT b) FLC_STAT_RESULT = k ∧ (d.flcEnd b op k).flag (FLC_STAT b) FLC_STAT_DONE = true := by
  rw [Dev.flcEnd_plain hs hp]
  refine ⟨?_, Dev.flag_put_one _ _ (by decide) (by decide)⟩
  rw [Dev.get_put_field _ _ _ _ _ (by decide) (by decide) (by decide), Dev.get_put_field _ _ _ _ _ (by decide) (by decide) (by decide),
    Dev.get_put_same _ _ _ _ (by decide) (by decide)]
  exact Nat.mod_eq_of_lt hk

theorem Dev.flcEnd_same {k : Nat} (hs : k ≠ frSUPPLYLOW) (hp : k ≠ frPROGFAIL) : Dev.SameBut [FLC_STAT b] d ((d.flcFreed b).flcEnd b op k) := by
  rw [Dev.flcEnd_plain hs hp]
  have hm : FLC_STAT b ∈ [FLC_STAT b] := List.mem_singleton.mpr rfl
  have hfreed : Dev.SameBut [FLC_STAT b] d (d.flcFreed b) :=
    Dev.SameBut.put hm _ _ (Dev.SameBut.put (e := d.setBank b { d.bankOfs b with op := 0, log := none }) hm _ _ ((Dev.SameBut.refl d).congr rfl rfl rfl rfl))
  exact ((hfreed.put hm _ _).put hm _ _).put hm _ _

theorem Dev.flcEnd_op {k : Nat} (hs : k ≠ frSUPPLYLOW) (hp : k ≠ frPROGFAIL) : (((d.flcFreed b).flcEnd b op k).bankOfs b).op = 0 := by
  rw [Dev.flcEnd_plain hs hp]
  exact d.flcFreed_op b

theorem gives_flashCommandEnd {q : List Instr} {b : Fin 4} {good line n k : Nat} {e : Dev} (hop : (d.bankOfs b).op ≠ 0) (hr : d.flcRun b good line n = (k, e)) :
    Gives (.flashCommandEnd b good line n) ⟨d, q⟩ ((e.flcFreed b).flcEnd b (d.bankOfs b).op k) := by
  refine gives_of_run rfl (exec_flashCommandEnd ..) ((if_neg hop).trans ?_)
  rw [hr]
  rfl

theorem Dev.flcRun_program {good line n : Nat} (hop : (d.bankOfs b).op = 1) (hblank : d.blankWord (d.bankOfs b).addr = true) :
    ∃ e, d.flcRun b (good + 1) line n = (frOK, e) := by
  unfold Dev.flcRun
  simp only [hop, hblank, if_true, Nat.add_eq_zero_iff, Nat.one_ne_zero, and_false, if_false]
  exact ⟨_, rfl⟩

theorem Dev.flcRun_notBlank {good line n : Nat} (hop : (d.bankOfs b).op = 1) (hblank : d.blankWord (d.bankOfs b).addr = false) :
    d.flcRun b good line n = (frNOTBLANK, d) := by
  unfold Dev.flcRun
  simp only [hop, hblank, Bool.false_eq_true, if_false]

/-- The rows of a bank's command register, each with its operation. -/
theorem gives_flcRow {q : List Instr} {c : Fin 7} {b : Fin 4} {p : Instr × Nat} {e : Dev} (ho : BusOpen ⟨d, q⟩ c (FLC_CMD b) true)
    (hp : p ∈ [(Instr.flashProgram c b, 1), (.flashProgbuf c b, 2), (.flashErase c b, 3), (.flashMread c b, 4), (.flashBlank c b, 5), (.flashColtest c b, 6),
      (.flashColrepair c b, 7)]) (he : d.flcCmd c b p.2 = e) : Gives p.1 ⟨d, q⟩ e := by
  simp only [List.mem_cons, List.not_mem_nil, or_false] at hp
  obtain rfl | rfl | rfl | rfl | rfl | rfl | rfl := hp
  · exact gives_of_askCore rfl ho (exec_flashProgram ..) he
  · exact gives_of_askCore rfl ho (exec_flashProgbuf ..) he
  · exact gives_of_askCore rfl ho (exec_flashErase ..) he
  · exact gives_of_askCore rfl ho (exec_flashMread ..) he
  · exact gives_of_askCore rfl ho (exec_flashBlank ..) he
  · exact gives_of_askCore rfl ho (exec_flashColtest ..) he
  · exact gives_of_askCore rfl ho (exec_flashColrepair ..) he

end

/-- Settles O30. -/
theorem flashController : Obligations.FlashController := by
  unfold Obligations.FlashController
  intro d q c b w ok good line n
  refine ⟨fun ho p hp => ⟨fun k hk => gives_flcRow ho hp (Dev.flcCmd_refused hk), fun hk => ?_⟩, fun h op => if_pos h, fun h => ?_, fun hop hb => ?_, fun hop hb => ?_,
    fun he hs hm => ?_, fun hm => ?_, fun he => ?_, fun hs hm => ?_, fun h => ?_, fun h => ?_, fun h => ?_, fun hd hs hb => ?_, fun h => ?_, fun hr hi hf hs => ?_, fun h => ?_⟩
  · refine after_of (gives_flcRow ho hp rfl) ?_
    obtain ⟨hsame, hop, hcore, hbusy⟩ := Dev.flcCmd_leaves hk
    obtain ⟨hreg, hcores, hbytes⟩ := hsame.wakeSettle d (FLC_BOOT_ne_STAT b)
    exact ⟨hop, hcore, hbusy, hcores, fun a ha => hreg a (by simpa using ha), hbytes⟩
  · exact gives_of_run rfl (exec_flashCommandEnd ..) (if_pos h)
  · obtain ⟨e, hrun⟩ := Dev.flcRun_program (line := line) (n := n) (good := good) hop hb
    refine after_of (gives_flashCommandEnd (by omega) hrun) ?_
    obtain ⟨hres, hdone⟩ := Dev.flcEnd_shown (d := e.flcFreed b) (b := b) (op := (d.bankOfs b).op) (k := frOK) (by decide) (by decide) (by decide)
    have hop' := Dev.flcEnd_op (d := e) (b := b) (op := (d.bankOfs b).op) (k := frOK) (by decide) (by decide)
    exact ⟨hres, hop', hdone⟩
  · refine after_of (gives_flashCommandEnd (by omega) (Dev.flcRun_notBlank hop hb)) ?_
    obtain ⟨hres, -⟩ := Dev.flcEnd_shown (d := d.flcFreed b) (b := b) (op := (d.bankOfs b).op) (k := frNOTBLANK) (by decide) (by decide) (by decide)
    have hsame := Dev.flcEnd_same (d := d) (b := b) (op := (d.bankOfs b).op) (k := frNOTBLANK) (by decide) (by decide)
    obtain ⟨-, -, hbytes⟩ := hsame.wakeSettle d (FLC_BOOT_ne_STAT b)
    exact ⟨hres, hbytes⟩
  · exact gives_of_run rfl (exec_eraseSuspend ..) (if_pos (by simp [Dev.maySuspend, he, hs, hm]))
  · exact gives_of_run rfl (exec_eraseSuspend ..) (if_neg (by simp [Dev.maySuspend, Nat.not_le.mpr hm]))
  · exact gives_of_run rfl (exec_eraseSuspend ..) (if_neg (by simp [Dev.maySuspend, he]))
  · exact gives_of_run rfl (exec_eraseResume ..) (if_pos (by simp [Dev.mayResume, hs, hm]))
  · refine gives_of_run rfl (exec_eraseResume ..) (if_neg ?_)
    obtain h | h := h
    · simp [Dev.mayResume, h]
    · simp [Dev.mayResume, Nat.not_le.mpr h]
  · exact gives_of_run rfl (exec_moveEnd ..) (if_pos h)
  · exact gives_of_run rfl (exec_moveEnd ..) (if_neg (by simp [h]))
  · exact gives_of_run rfl (exec_deferredMove ..) (if_pos (by simp [hd, hs, hb]))
  · refine gives_of_run rfl (exec_deferredMove ..) (if_neg ?_)
    obtain h | h := h
    · simp [h]
    · simp [h]
  · have hready := Dev.ready_of_bootView d.flashStart.bootView_tornClear d.flashStart_ready
    refine after_of (gives_of_run rfl (exec_flashStartup ..) ((if_neg (by simp [hr, hi, hf])).trans (if_neg (by simp [hs])))) ?_
    rw [Dev.flag_wakeSettle, Dev.settle_flFlag, Dev.wakeBy_flFlag]
    exact hready
  · refine gives_of_run rfl (exec_flashStartup ..) (if_pos ?_)
    obtain h | h := h
    · simp [h]
    · simp [h]

end Sys2Proof.Machine
end

section
/-! What an access to memory may touch besides its bytes. -/

namespace Sys2Proof.Machine

/-! ### What an access to memory may touch besides the bytes (R305, R317, R444) -/

/-- Registers that an access may write: those of the error log, the counters of corrected words, and a bank's column test. -/
def touchReg (a : Nat) : Prop := a ∈ logRegs ∨ (∃ n ≤ 5, a = ERL_ECC n) ∨ (∃ b, a = FLC_COL b) ∨ a = FLC_CNT 0 ∨ a = FLC_CNT 1

/-- What reads no state that an access may touch. -/
structure Untouched {α : Type} (g : Dev → α) : Prop where
  setReg : ∀ (d : Dev) (a : Nat) (v : Word), touchReg a → g (d.setReg a v) = g d
  gated : ∀ (d : Dev) (x : List (Nat × Bool)), g { d with pwr := { d.pwr with gated := x } } = g d
  memErr : ∀ (d : Dev) (k : Nat), sget 0 d.memErr k = 1 → g { d with memErr := sset 0 d.memErr k 0 } = g d
  erlCyc : ∀ (d : Dev) (x : Nat), g { d with erlCyc := x } = g d
  waiting : ∀ (d : Dev) (x : List Report), g { d with waiting := x } = g d
  banks : ∀ (d : Dev) (b : Nat) (x : Bank), g (d.setBank b x) = g d
  free : ∀ (d : Dev), g d.free.2 = g d

namespace Untouched

variable {α : Type} {g : Dev → α} (h : Untouched g) (d : Dev)
include h

theorem put {a : Nat} (f : Fld) (v : Nat) (ha : touchReg a) : g (d.put a f v) = g d := h.setReg d a _ ha

theorem count {a : Nat} (ha : touchReg a) : g (d.count a) = g d := by
  unfold Dev.count
  split
  · exact h.put d _ _ ha
  · exact h.put d _ _ ha

theorem lose (blk unit code t : Nat) : g (d.lose blk unit code t) = g d := by
  have hr : ∀ {a}, a ∈ logRegs → touchReg a := fun ha => .inl ha
  have hcount : g { d.count ERL_LOST with erlCyc := d.clk.cyc + 1 } = g d := (h.erlCyc _ _).trans (h.count d (hr (by decide)))
  unfold Dev.lose
  dsimp only
  split
  · rw [h.setReg _ _ _ (hr (by decide)), h.setReg _ _ _ (hr (by decide)), h.put _ _ _ (hr (by decide)), hcount]
  · rw [h.setReg _ _ _ (hr (by decide)), h.setReg _ _ _ (hr (by decide)), h.setReg _ _ _ (hr (by decide)), h.setReg _ _ _ (hr (by decide)),
      h.put _ _ _ (hr (by decide)), hcount]

theorem report (blk unit code : Nat) (detail : Word) (extra : List Word) : g (d.report blk unit code detail extra) = g d := by
  unfold Dev.report
  split
  · exact h.lose d ..
  · exact h.waiting d _

theorem touchDomain (a : Nat) : g (d.touchDomain a) = g d := by
  unfold Dev.touchDomain
  split
  · rfl
  · cases domainAt a with
    | none => rfl
    | some i => exact h.gated d _

omit h in
theorem eccCounter_touch (a : Nat) (bad : Bool) : touchReg (ERL_ECC (eccCounter a bad)) := by
  refine .inr (.inl ⟨_, ?_, rfl⟩)
  have := bad.toNat_le
  unfold eccCounter
  split <;> omega

theorem eccRead (a : Nat) (syn : Word) : g (d.eccRead a syn).2 = g d := by
  unfold Dev.eccRead
  split
  · rfl
  next h1 => exact (h.count _ (eccCounter_touch a false)).trans (h.memErr d _ h1)
  · exact (h.report _ _ _ _ _ _).trans (h.count _ (eccCounter_touch a true))

theorem lineNote (b a j : Nat) : g (d.lineNote b a j) = g d := by
  have hcol : touchReg (FLC_COL b) := .inr (.inr (.inl ⟨b, rfl⟩))
  unfold Dev.lineNote
  dsimp only
  split
  · split
    · rfl
    · split
      · rw [h.report, h.put _ _ _ hcol, h.put _ _ _ hcol]
      · exact h.put d _ _ hcol
  · rw [h.put _ _ _ hcol, h.put _ _ _ hcol]

theorem corrected (a : Nat) (l : List Nat) : g (d.corrected a l) = g d := by
  unfold Dev.corrected
  dsimp only
  rw [h.banks, foldl_frame (g := g) (f := fun (d : Dev) j => d.lineNote (bankOf a) a j) fun e j => h.lineNote e _ _ _]
  exact h.count d (.inr (.inr (.inr (.inl rfl))))

theorem flashFind (a : Nat) : g (d.flashFind a).2 = g d := by
  unfold Dev.flashFind
  dsimp only
  split
  · rfl
  · split
    · exact h.corrected d ..
    · split
      · exact (h.corrected ..).trans (h.free d)
      · exact h.count d (.inr (.inr (.inr (.inr rfl))))

theorem touchRange (a n : Nat) : g (d.touchRange a n) = g d := by
  have hdom : ∀ (l : List Nat) (d : Dev), g (l.foldl (fun (d : Dev) w => d.touchDomain (4 * w)) d) = g d := fun l =>
    foldl_frame (g := g) (f := fun (d : Dev) w => d.touchDomain (4 * w)) (fun e w => h.touchDomain e (4 * w)) l
  have hecc : ∀ (l : List Nat) (d : Dev),
      g (l.foldl (fun (d : Dev) w => if 4 * w < 0x20000000 then d else (d.eccRead (4 * w) (esynOf (4 * w) synECC false false false)).2) d) = g d := fun l =>
    foldl_frame (g := g) (f := fun (d : Dev) w => if 4 * w < 0x20000000 then d else (d.eccRead (4 * w) (esynOf (4 * w) synECC false false false)).2)
      (fun e w => by
        split
        · rfl
        · exact h.eccRead ..) l
  have hflash : ∀ (l : List Nat) (d : Dev), g (l.foldl (fun (d : Dev) w => if flashAddr (16 * w) then (d.flashFind (d.canon (16 * w))).2 else d) d) = g d := fun l =>
    foldl_frame (g := g) (f := fun (d : Dev) w => if flashAddr (16 * w) then (d.flashFind (d.canon (16 * w))).2 else d)
      (fun e w => by
        split
        · exact h.flashFind ..
        · rfl) l
  unfold Dev.touchRange
  dsimp only
  split <;> split <;> split <;> simp only [hdom, hecc, hflash]

end Untouched

/-- A register outside those that an access may write. -/
theorem untouched_reg {a : Nat} (ha : ¬ touchReg a) : Untouched (fun d => d.reg a) where
  setReg _ _ _ hb := Dev.reg_setReg_other _ _ _ _ fun h => ha (h ▸ hb)
  gated _ _ := rfl
  memErr _ _ _ := rfl
  erlCyc _ _ := rfl
  waiting _ _ := rfl
  banks _ _ _ := rfl
  free _ := rfl

/-- What decides whether a buffer in SRAM may be used: the fields that are powered, the plan, and the words beyond correction. -/
def Dev.busView (d : Dev) := (d.pwr.fields, d.sow.force, fun x => decide (sget 0 d.memErr x ≠ 2))

theorem untouched_busView : Untouched Dev.busView where
  setReg _ _ _ _ := rfl
  gated _ _ := rfl
  memErr d k hk := by
    refine congrArg (fun f => (d.pwr.fields, d.sow.force, f)) (funext fun x => ?_)
    dsimp only
    rw [sget_sset]
    split
    next hx => simp [hx, hk]
    · rfl
  erlCyc _ _ := rfl
  waiting _ _ := rfl
  banks _ _ _ := rfl
  free _ := rfl

theorem Dev.nfcBus_of_busView {d e : Dev} (h : e.busView = d.busView) (a n : Nat) (w : Bool) : e.nfcBus a n w = d.nfcBus a n w := by
  simp only [Dev.busView, Prod.mk.injEq] at h
  obtain ⟨hfields, hplan, herr⟩ := h
  have herr' : ∀ x, decide (sget 0 e.memErr x ≠ 2) = decide (sget 0 d.memErr x ≠ 2) := fun x => congrFun herr x
  have hcarve : e.carveBytes = d.carveBytes := by simp only [Dev.carveBytes, Dev.plan16, Dev.sec, hplan]
  have hin : ∀ x, e.inCarve x = d.inCarve x := fun x => by rw [Dev.inCarve, hcarve, Dev.inCarve]
  have hall : (fun x => !e.inCarve x && (w || decide (sget 0 e.memErr (x / 4) ≠ 2))) = fun x => !d.inCarve x && (w || decide (sget 0 d.memErr (x / 4) ≠ 2)) :=
    funext fun x => by rw [hin, herr']
  rw [Dev.nfcBus, hall, Dev.fieldOn, hfields]
  rfl

theorem Dev.nfcBus_touchRange (d : Dev) (b m a n : Nat) (w : Bool) : (d.touchRange b m).nfcBus a n w = d.nfcBus a n w :=
  Dev.nfcBus_of_busView (untouched_busView.touchRange d b m) a n w

end Sys2Proof.Machine
end

section
/-! The controllers of the I²C buses (chapter 23). -/

namespace Sys2Proof.Machine

/-! ### A controller of an I²C bus (R435 to R438) -/

section
variable {d : Dev} {q : List Instr} {n res : Nat} {x : I2cSt} {f : Fld} {u : Word}

@[simp] theorem Dev.i2cOf_setI2c (d : Dev) (n : Nat) (x : I2cSt) : (d.setI2c n x).i2cOf n = x := (sget_sset _ _ _ _ _).trans (if_pos rfl)

theorem Dev.i2cOf_put (d : Dev) (a : Nat) (f : Fld) (v n : Nat) : (d.put a f v).i2cOf n = d.i2cOf n := rfl

theorem Dev.i2cOf_rdata (d : Dev) (w : Word) (n : Nat) : Dev.i2cOf { d with rdata := w } n = d.i2cOf n := rfl

theorem Dev.i2cOf_wakeSettle (d e : Dev) (n : Nat) : (d.wakeBy e).settle.i2cOf n = e.i2cOf n := rfl

/-- The FIFOs' counts are all that a new state of the controller shows. -/
theorem Dev.flag_setI2c (d : Dev) (x : I2cSt) (hf : 12 < f.lo) : (d.setI2c n x).flag (I2C_STAT n) f = d.flag (I2C_STAT n) f := by
  refine (Dev.flag_put_field _ _ _ (by decide) (by decide) (.inr (Nat.lt_trans (by decide : I2C_STAT_RXN.hi < 12) hf))).trans ?_
  exact Dev.flag_put_field _ _ _ (by decide) (by decide) (.inr hf)

/-- What a command that ended with `res` shows. -/
structure Dev.I2cEnded (d : Dev) (n res : Nat) (x : I2cSt) : Prop where
  of : d.i2cOf n = { x with cmd := none }
  busy : d.flag (I2C_STAT n) I2C_STAT_BUSY = false
  result : d.get (I2C_STAT n) I2C_STAT_RESULT = res
  done : d.flag (I2C_STAT n) I2C_STAT_DONE = true

theorem Dev.i2cEnd_ended (d : Dev) (n : Nat) (hr : res < 16) : Dev.I2cEnded (d.i2cEnd n res) n res (d.i2cOf n) where
  of := by
    unfold Dev.i2cEnd
    dsimp only
    rw [Dev.i2cOf_put, Dev.i2cOf_put, Dev.i2cOf_put, Dev.i2cOf_setI2c]
  busy := by
    refine (Dev.flag_put_field _ _ _ (by decide) (by decide) (by decide)).trans ?_
    exact (Dev.flag_put_field _ _ _ (by decide) (by decide) (by decide)).trans (Dev.flag_put_zero _ _ (by decide) (by decide))
  result := by
    refine (Dev.get_put_field _ _ _ _ _ (by decide) (by decide) (by decide)).trans ?_
    exact (Dev.get_put_same _ _ _ _ (by decide) (by decide)).trans (Nat.mod_eq_of_lt hr)
  done := Dev.flag_put_one _ _ (by decide) (by decide)

theorem Dev.i2cEnd_STUCK (d : Dev) (n res : Nat) : (d.i2cEnd n res).flag (I2C_STAT n) I2C_STAT_STUCK = d.flag (I2C_STAT n) I2C_STAT_STUCK := by
  refine (Dev.flag_put_field _ _ _ (by decide) (by decide) (by decide)).trans ?_
  refine (Dev.flag_put_field _ _ _ (by decide) (by decide) (by decide)).trans ?_
  exact (Dev.flag_put_field _ _ _ (by decide) (by decide) (by decide)).trans (Dev.flag_setI2c d _ (by decide))

theorem I2C_STAT_not_log (n : Nat) : I2C_STAT n ∉ logRegs := by
  simp only [logRegs, List.mem_cons, List.not_mem_nil, or_false, I2C_STAT, ERL_LOST, ERL_STAT, ERL_LASTLOST, ERL_LASTLT, ERL_FIRSTLOST, ERL_FIRSTLT]
  omega

theorem I2C_STAT_ne_CNT (k : Nat) : I2C_STAT n ≠ I2C_CNT n k := by simp only [I2C_STAT, I2C_CNT, ne_eq]; omega

/-- What counts and the error log leave of a controller. -/
theorem Dev.I2cEnded.report {k blk unit code : Nat} {detail : Word} {extra : List Word} (h : Dev.I2cEnded d n res x) :
    Dev.I2cEnded ((d.count (I2C_CNT n k)).report blk unit code detail extra) n res x := by
  have hreg : ((d.count (I2C_CNT n k)).report blk unit code detail extra).reg (I2C_STAT n) = d.reg (I2C_STAT n) :=
    (((Dev.SameBut.refl _).report (l := logRegs) (fun _ h => h) blk unit code detail extra).reg _ (I2C_STAT_not_log n)).trans
      (Dev.reg_count_other _ _ _ (I2C_STAT_ne_CNT k))
  have hi2c : ((d.count (I2C_CNT n k)).report blk unit code detail extra).i2c = d.i2c :=
    (Dev.report_frame (g := fun e => e.i2c) _ _ _ _ _ _ (fun _ _ _ => rfl) (fun _ _ => rfl) (fun _ _ => rfl)).trans (Dev.count_i2c _ _)
  obtain ⟨hof, hbusy, hresult, hdone⟩ := h
  refine ⟨?_, ?_, ?_, ?_⟩
  · rw [Dev.i2cOf, hi2c, ← Dev.i2cOf, hof]
  · rw [Dev.flag, Dev.get, hreg, ← Dev.get, ← Dev.flag, hbusy]
  · rw [Dev.get, hreg, ← Dev.get, hresult]
  · rw [Dev.flag, Dev.get, hreg, ← Dev.get, ← Dev.flag, hdone]

theorem Dev.I2cEnded.put (h : Dev.I2cEnded d n res x) (v : Nat) : Dev.I2cEnded (d.put (I2C_STAT n) I2C_STAT_STUCK v) n res x :=
  ⟨h.of, (Dev.flag_put_field _ _ _ (by decide) (by decide) (by decide)).trans h.busy, (Dev.get_put_field _ _ _ _ _ (by decide) (by decide) (by decide)).trans h.result,
    (Dev.flag_put_field _ _ _ (by decide) (by decide) (by decide)).trans h.done⟩

/-- A bus that sticks: shown, counted and reported. -/
def Dev.stuckNoted (d : Dev) (n res : Nat) : Dev :=
  ((d.put (I2C_STAT n) I2C_STAT_STUCK 1).count (I2C_CNT n 2)).report (16 + n) 0 1 (BitVec.ofNat 32 res) []

theorem Dev.i2cStick_eq (d : Dev) (n res : Nat) : d.i2cStick n res = ((d.setI2c n { d.i2cOf n with rep := false }).i2cEnd n res).stuckNoted n res := rfl

theorem Dev.stuckNoted_STUCK (d : Dev) (n res : Nat) : (d.stuckNoted n res).flag (I2C_STAT n) I2C_STAT_STUCK = true := by
  have hreg : (d.stuckNoted n res).reg (I2C_STAT n) = (d.put (I2C_STAT n) I2C_STAT_STUCK 1).reg (I2C_STAT n) :=
    (((Dev.SameBut.refl _).report (l := logRegs) (fun _ h => h) ..).reg _ (I2C_STAT_not_log n)).trans (Dev.reg_count_other _ _ _ (I2C_STAT_ne_CNT 2))
  rw [Dev.flag, Dev.get, hreg, ← Dev.get, ← Dev.flag]
  exact Dev.flag_put_one _ _ (by decide) (by decide)

/-- A command that ends with a bus stuck. -/
theorem Dev.i2cStick_ended (d : Dev) (n : Nat) (hr : res < 16) :
    Dev.I2cEnded (d.i2cStick n res) n res { d.i2cOf n with rep := false } ∧ (d.i2cStick n res).flag (I2C_STAT n) I2C_STAT_STUCK = true := by
  have hend := (d.setI2c n { d.i2cOf n with rep := false }).i2cEnd_ended n hr
  rw [Dev.i2cOf_setI2c] at hend
  rw [Dev.i2cStick_eq]
  exact ⟨(hend.put 1).report, Dev.stuckNoted_STUCK _ _ _⟩

theorem Dev.I2cEnded.wakeSettle (h : Dev.I2cEnded d n res x) (y : Dev) : Dev.I2cEnded (y.wakeBy d).settle n res x := by
  obtain ⟨hof, hbusy, hresult, hdone⟩ := h
  refine ⟨hof, ?_, ?_, ?_⟩
  · rw [Dev.flag_wakeSettle, hbusy]
  · rw [Dev.get_settle, Dev.wakeBy_get, hresult]
  · rw [Dev.flag_wakeSettle, hdone]

/-! ### Bytes that move (R435) -/

theorem I2cSt.foldl_move_idle (h : x.cmd = none) (bus : List Byte) : bus.foldl I2cSt.move x = x := by
  have hmove : ∀ b, x.move b = x := fun b => by unfold I2cSt.move; rw [h]
  induction bus with
  | nil => rfl
  | cons b r ih => rw [List.foldl_cons, hmove, ih]

theorem I2cSt.address_idle (h : x.cmd = none) : x.address = x := by unfold I2cSt.address; rw [h]

theorem Dev.i2cOf_i2cMoved_idle (h : (d.i2cOf n).cmd = none) (bus : List Byte) : (d.i2cMoved n bus).i2cOf n = d.i2cOf n := by
  unfold Dev.i2cMoved
  split
  · rfl
  · rw [Dev.i2cOf_setI2c, I2cSt.address_idle h, I2cSt.foldl_move_idle h]

theorem Dev.i2cMoved_pwr (d : Dev) (n : Nat) (bus : List Byte) : (d.i2cMoved n bus).pwr = d.pwr := by
  unfold Dev.i2cMoved
  split <;> rfl

theorem Dev.restsAt_i2cMoved (d : Dev) (n : Nat) (bus : List Byte) (a : Nat) : (d.i2cMoved n bus).restsAt a = d.restsAt a := by
  have hrests : (d.i2cMoved n bus).rests = d.rests := funext fun b => by rw [Dev.rests, Dev.i2cMoved_pwr, Dev.rests]
  rw [Dev.restsAt, Dev.i2cMoved_pwr, hrests, Dev.restsAt]

/-- Bytes of a write leave the TX FIFO in order. -/
theorem I2cSt.foldl_move_write (hrd : getF u I2C_CMD_RD = 0) : ∀ (bus : List Byte) (x : I2cSt), x.cmd = some u →
    x.n + bus.length ≤ getF u I2C_CMD_LEN → bus.length ≤ x.tx.length →
    bus.foldl I2cSt.move x = { x with tx := x.tx.drop bus.length, n := x.n + bus.length, sent := x.sent ++ x.tx.take bus.length } := by
  intro bus
  induction bus with
  | nil => intro x _ _ _; simp
  | cons b r ih =>
    intro x hx hlen htx
    rw [List.length_cons] at hlen htx
    cases htxs : x.tx with
    | nil => rw [htxs] at htx; exact absurd htx (by simp)
    | cons t l =>
      have hmove : x.move b = { x with tx := l, n := x.n + 1, sent := x.sent ++ [t] } := by
        unfold I2cSt.move
        rw [hx]
        dsimp only
        rw [if_neg (by omega), if_neg (by omega), htxs]
      rw [htxs, List.length_cons] at htx
      rw [List.foldl_cons, hmove, ih { x with tx := l, n := x.n + 1, sent := x.sent ++ [t] } hx (by dsimp only; omega) (by dsimp only; omega)]
      simp [show x.n + 1 + r.length = x.n + (r.length + 1) by omega]

/-- Bytes of a read enter the RX FIFO in order. -/
theorem I2cSt.foldl_move_read (hrd : getF u I2C_CMD_RD = 1) : ∀ (bus : List Byte) (x : I2cSt), x.cmd = some u →
    x.n + bus.length ≤ getF u I2C_CMD_LEN → x.rx.length + bus.length ≤ 16 →
    bus.foldl I2cSt.move x = { x with rx := x.rx ++ bus, n := x.n + bus.length } := by
  intro bus
  induction bus with
  | nil => intro x _ _ _; simp
  | cons b r ih =>
    intro x hx hlen hrx
    rw [List.length_cons] at hlen hrx
    have hmove : x.move b = { x with rx := x.rx ++ [b], n := x.n + 1 } := by
      unfold I2cSt.move
      rw [hx]
      dsimp only
      rw [if_neg (by omega), if_pos hrd, if_pos (by omega)]
    rw [List.foldl_cons, hmove, ih { x with rx := x.rx ++ [b], n := x.n + 1 } hx (by dsimp only; omega) (by simp; omega)]
    simp [show x.n + 1 + r.length = x.n + (r.length + 1) by omega]

/-! ### Commands and their ends (R435, R436, R438) -/

theorem Dev.i2cCmd_busy {v : Word} (hb : d.flag (I2C_STAT n) I2C_STAT_BUSY = true) : d.i2cCmd n v = d := if_pos (.inl hb)

theorem Dev.i2cCmd_idle {v : Word} (hb : d.flag (I2C_STAT n) I2C_STAT_BUSY = false) (hen : d.flag (I2C_CFG n) I2C_CFG_EN = true) :
    d.i2cCmd n v = if d.flag (I2C_STAT n) I2C_STAT_STUCK ∧ getF v I2C_CMD_RECOVER = 0 then d.i2cEnd n irSTUCK
      else (d.setI2c n { d.i2cOf n with cmd := some v, n := 0, sent := [] }).put (I2C_STAT n) I2C_STAT_BUSY 1 :=
  if_neg (by simp [hb, hen])

/-- A command that starts. -/
def Dev.i2cStarted (d : Dev) (n : Nat) (v : Word) : Dev :=
  (d.setI2c n { d.i2cOf n with cmd := some v, n := 0, sent := [] }).put (I2C_STAT n) I2C_STAT_BUSY 1

theorem Dev.i2cStarted_of (d : Dev) (n : Nat) (v : Word) : (d.i2cStarted n v).i2cOf n = { d.i2cOf n with cmd := some v, n := 0, sent := [] } := by
  rw [Dev.i2cStarted, Dev.i2cOf_put, Dev.i2cOf_setI2c]

theorem Dev.i2cStarted_BUSY (d : Dev) (n : Nat) (v : Word) : (d.i2cStarted n v).flag (I2C_STAT n) I2C_STAT_BUSY = true :=
  Dev.flag_put_one _ _ (by decide) (by decide)

theorem after_i2cStarted {i : Instr} {v : Word} {P : Dev → Prop} (h : Gives i ⟨d, q⟩ (d.i2cStarted n v))
    (hp : ∀ e : Dev, e.i2cOf n = { d.i2cOf n with cmd := some v, n := 0, sent := [] } → e.flag (I2C_STAT n) I2C_STAT_BUSY = true → P e) : After i ⟨d, q⟩ P := by
  refine after_of h (hp _ ?_ ?_)
  · rw [Dev.i2cOf_wakeSettle, d.i2cStarted_of]
  · rw [Dev.flag_wakeSettle, d.i2cStarted_BUSY]

theorem after_i2cEnded {i : Instr} {e : Dev} {P : Dev → Prop} (h : Gives i ⟨d, q⟩ e) (he : Dev.I2cEnded e n res x) (hp : ∀ t : Dev, Dev.I2cEnded t n res x → P t) :
    After i ⟨d, q⟩ P := after_of h (hp _ (he.wakeSettle d))

/-- What a command's end does once a bus whose SDA was low is cleared. -/
def Dev.i2cFinish (d : Dev) (n : Nat) (bus : List Byte) (v : Word) (first : Bool) (e : I2cEnd) : Dev :=
  if e = .sdaLow then (if first then d.i2cStick n irSDALOW else d)
  else if decide (getF v I2C_CMD_RECOVER = 1) then (d.put (I2C_STAT n) I2C_STAT_STUCK 0).i2cEnd n irOK
  else match e with
    | .nackAddr => (d.setI2c n (d.i2cOf n).address).i2cNack n irNACKADDR
    | .nackData => (d.i2cMoved n bus).i2cNack n irNACKDATA
    | .arbLost => Dev.i2cEnd ((d.i2cMoved n bus).setI2c n { (d.i2cMoved n bus).i2cOf n with rep := false }) n irARBLOST
    | _ =>
      let d := (d.setI2c n (d.i2cOf n).address).i2cMoved n bus
      if (d.i2cOf n).n < getF v I2C_CMD_LEN then d
      else (d.setI2c n { d.i2cOf n with rep := decide (getF v I2C_CMD_STOP = 0) }).i2cEnd n irOK

/-- A bus cleared is counted. -/
def Dev.i2cCleared (d : Dev) (n : Nat) (c : Bool) : Dev := if c then d.count (I2C_CNT n 1) else d

theorem Dev.i2cOf_i2cCleared (d : Dev) (n : Nat) (c : Bool) : (d.i2cCleared n c).i2cOf n = d.i2cOf n := by
  unfold Dev.i2cCleared
  split
  · rw [Dev.i2cOf, Dev.count_i2c, ← Dev.i2cOf]
  · rfl

theorem gives_i2cCommandEnd {n : Fin 2} {bus : List Byte} {cl : Bool} {en : I2cEnd} (hc : (d.i2cOf n).cmd = some u) :
    ∃ c, Gives (.i2cCommandEnd n bus cl en) ⟨d, q⟩ ((d.i2cCleared n c).i2cFinish n bus u (decide (getF u I2C_CMD_RECOVER = 1) || !(d.i2cOf n).rep) en) := by
  refine ⟨cl && (decide (getF u I2C_CMD_RECOVER = 1) || !(d.i2cOf n).rep) && en != .sdaLow, gives_of_run rfl (exec_i2cCommandEnd ..) ?_⟩
  simp only [hc]
  rfl

theorem Dev.i2cFinish_recover {bus : List Byte} {first : Bool} {en : I2cEnd} (hr : getF u I2C_CMD_RECOVER = 1) (he : en ≠ .sdaLow) :
    d.i2cFinish n bus u first en = (d.put (I2C_STAT n) I2C_STAT_STUCK 0).i2cEnd n irOK :=
  (if_neg he).trans (if_pos (decide_eq_true hr))

theorem Dev.i2cFinish_nackAddr {bus : List Byte} {first : Bool} (hr : getF u I2C_CMD_RECOVER = 0) :
    d.i2cFinish n bus u first .nackAddr = (d.setI2c n (d.i2cOf n).address).i2cNack n irNACKADDR :=
  (if_neg (by decide)).trans (if_neg (by simp [hr]))

theorem Dev.i2cFinish_ok {bus : List Byte} {first : Bool} (hr : getF u I2C_CMD_RECOVER = 0) :
    d.i2cFinish n bus u first .ok =
      let d := (d.setI2c n (d.i2cOf n).address).i2cMoved n bus
      if (d.i2cOf n).n < getF u I2C_CMD_LEN then d
      else (d.setI2c n { d.i2cOf n with rep := decide (getF u I2C_CMD_STOP = 0) }).i2cEnd n irOK :=
  (if_neg (by decide)).trans (if_neg (by simp [hr]))

/-- The controller's state once a transfer whose bytes all moved ends. -/
theorem Dev.i2cFinish_moved {bus : List Byte} {first : Bool} {y : I2cSt} (hr : getF u I2C_CMD_RECOVER = 0)
    (hy : bus.foldl I2cSt.move (d.i2cOf n).address.address = y) (hlen : getF u I2C_CMD_LEN ≤ y.n) (hbus : bus = [] → (d.i2cOf n).address = y) :
    Dev.I2cEnded (d.i2cFinish n bus u first .ok) n irOK { y with rep := decide (getF u I2C_CMD_STOP = 0) } := by
  have hof : ((d.setI2c n (d.i2cOf n).address).i2cMoved n bus).i2cOf n = y := by
    unfold Dev.i2cMoved
    split
    next h => rw [Dev.i2cOf_setI2c, hbus (List.isEmpty_iff.mp h)]
    · rw [Dev.i2cOf_setI2c, Dev.i2cOf_setI2c, hy]
  rw [Dev.i2cFinish_ok hr]
  dsimp only
  rw [hof, if_neg (Nat.not_lt.mpr hlen)]
  have hend := Dev.i2cEnd_ended (((d.setI2c n (d.i2cOf n).address).i2cMoved n bus).setI2c n { y with rep := decide (getF u I2C_CMD_STOP = 0) }) n
    (res := irOK) (by decide)
  rw [Dev.i2cOf_setI2c] at hend
  exact hend

theorem Dev.i2cNack_ended (d : Dev) (n : Nat) (hr : res < 16) : Dev.I2cEnded (d.i2cNack n res) n res { d.i2cOf n with tx := [], rep := false } := by
  have hend := Dev.i2cEnd_ended ((d.setI2c n { d.i2cOf n with tx := [], rep := false }).count (I2C_CNT n 0)) n hr
  rw [show ((d.setI2c n { d.i2cOf n with tx := [], rep := false }).count (I2C_CNT n 0)).i2cOf n = (d.setI2c n { d.i2cOf n with tx := [], rep := false }).i2cOf n by
    rw [Dev.i2cOf, Dev.count_i2c, ← Dev.i2cOf], Dev.i2cOf_setI2c] at hend
  exact hend

theorem I2cSt.address_transfer (hc : x.cmd = some u) (hr : getF u I2C_CMD_RECOVER = 0) : x.address =
    if x.sent = [] then { x with sent := [BitVec.ofNat 8 (2 * getF u I2C_CMD_ADDR + getF u I2C_CMD_RD)] } else x := by
  unfold I2cSt.address
  rw [hc]
  dsimp only
  by_cases hs : x.sent = []
  · rw [if_neg (by simp [hr, hs]), if_pos hs]
  · rw [if_pos (.inr hs), if_neg hs]

theorem I2cSt.address_again (x : I2cSt) : x.address.address = x.address := by
  unfold I2cSt.address
  cases hc : x.cmd with
  | none => simp [hc]
  | some v => by_cases h : getF v I2C_CMD_RECOVER = 1 ∨ x.sent ≠ [] <;> simp [h, hc]

/-! ### EN written 0 (R438) -/

/-- A controller whose command EN = 0 ends. -/
def Dev.i2cAborted (d : Dev) (n : Nat) : Dev := (d.setI2c n { d.i2cOf n with tx := [], rx := [], rep := false }).i2cEnd n irABORTED

theorem Dev.i2cAborted_ended (d : Dev) (n : Nat) : Dev.I2cEnded (d.i2cAborted n) n irABORTED { d.i2cOf n with tx := [], rx := [], rep := false } := by
  have hend := (d.setI2c n { d.i2cOf n with tx := [], rx := [], rep := false }).i2cEnd_ended n (res := irABORTED) (by decide)
  rw [Dev.i2cOf_setI2c] at hend
  exact hend

theorem Dev.setI2c_same (d : Dev) (n : Nat) (x : I2cSt) : Dev.SameBut [I2C_STAT n] d (d.setI2c n x) := by
  have hm : I2C_STAT n ∈ [I2C_STAT n] := List.mem_singleton.mpr rfl
  exact Dev.SameBut.put hm _ _ (Dev.SameBut.put (e := { d with i2c := sset I2cSt.init d.i2c n x }) hm _ _ ((Dev.SameBut.refl d).congr rfl rfl rfl rfl))

theorem Dev.i2cEnd_same (d : Dev) (n res : Nat) : Dev.SameBut [I2C_STAT n] d (d.i2cEnd n res) := by
  have hm : I2C_STAT n ∈ [I2C_STAT n] := List.mem_singleton.mpr rfl
  exact (((d.setI2c_same n { d.i2cOf n with cmd := none }).put hm _ _).put hm _ _).put hm _ _

theorem Dev.i2cAborted_reg (d : Dev) {a : Nat} (ha : a ≠ I2C_STAT n) : (d.i2cAborted n).reg a = d.reg a :=
  ((d.setI2c_same n { d.i2cOf n with tx := [], rx := [], rep := false }).trans (Dev.i2cEnd_same _ n irABORTED)).reg a (by simpa using ha)

theorem row_I2C_CFG_write (old w : Word) : row_I2C_CFG.write old w =
    setF (setF (setF old I2C_CFG_EN (getF w I2C_CFG_EN)) I2C_CFG_FAST (getF w I2C_CFG_FAST)) I2C_CFG_STRETCH_MS (getF w I2C_CFG_STRETCH_MS) := rfl

theorem Dev.plainWrite_I2C_CFG (d : Dev) (n : Fin 2) (w : Word) : d.plainWrite (I2C_CFG n) w = d.setReg (I2C_CFG n) (row_I2C_CFG.write (d.reg (I2C_CFG n)) w) := by
  have hat : ∀ n : Fin 2, (regAt (I2C_CFG n)).map (·.1) = some row_I2C_CFG := by decide
  obtain ⟨p, hp, hrow⟩ := Option.map_eq_some_iff.mp (hat n)
  rw [Dev.plainWrite, hp]
  dsimp only
  rw [hrow]

theorem i2cClauses_end {n : Fin 2} {bus : List Byte} {cl : Bool} (hc : (d.i2cOf n).cmd = some u) :
    (∀ en, getF u I2C_CMD_RECOVER = 1 → en ≠ .sdaLow → After (.i2cCommandEnd n bus cl en) ⟨d, q⟩ (fun e =>
      e.flag (I2C_STAT n) I2C_STAT_STUCK = false ∧ e.get (I2C_STAT n) I2C_STAT_RESULT = 1 ∧ (e.i2cOf n).cmd = none)) ∧
    (getF u I2C_CMD_RECOVER = 1 ∨ (d.i2cOf n).rep = false → After (.i2cCommandEnd n bus cl .sdaLow) ⟨d, q⟩ (fun e =>
      e.flag (I2C_STAT n) I2C_STAT_STUCK = true ∧ e.get (I2C_STAT n) I2C_STAT_RESULT = 6 ∧ (e.i2cOf n).cmd = none)) ∧
    (getF u I2C_CMD_RECOVER = 0 → After (.i2cCommandEnd n bus cl .nackAddr) ⟨d, q⟩ (fun e =>
      e.get (I2C_STAT n) I2C_STAT_RESULT = 2 ∧ (e.i2cOf n).tx = [] ∧ (e.i2cOf n).cmd = none ∧ e.flag (I2C_STAT n) I2C_STAT_BUSY = false)) := by
  refine ⟨fun en hr he => ?_, fun hfirst => ?_, fun hr => ?_⟩
  · obtain ⟨c, hgives⟩ := gives_i2cCommandEnd (q := q) (bus := bus) (cl := cl) (en := en) hc
    rw [Dev.i2cFinish_recover hr he] at hgives
    have hend := (((d.i2cCleared n c).put (I2C_STAT n) I2C_STAT_STUCK 0).i2cEnd_ended n (res := irOK) (by decide)).wakeSettle d
    refine after_of hgives ⟨?_, hend.result, by rw [hend.of]⟩
    rw [Dev.flag_wakeSettle, Dev.i2cEnd_STUCK]
    exact Dev.flag_put_zero _ _ (by decide) (by decide)
  · obtain ⟨c, hgives⟩ := gives_i2cCommandEnd (q := q) (bus := bus) (cl := cl) (en := .sdaLow) hc
    rw [show (d.i2cCleared n c).i2cFinish n bus u (decide (getF u I2C_CMD_RECOVER = 1) || !(d.i2cOf n).rep) .sdaLow = (d.i2cCleared n c).i2cStick n irSDALOW from
      (if_pos rfl).trans (if_pos (by obtain h | h := hfirst <;> simp [h]))] at hgives
    obtain ⟨hend, hstuck⟩ := (d.i2cCleared n c).i2cStick_ended n (res := irSDALOW) (by decide)
    have hend := hend.wakeSettle d
    refine after_of hgives ⟨?_, hend.result, by rw [hend.of]⟩
    rw [Dev.flag_wakeSettle, hstuck]
  · obtain ⟨c, hgives⟩ := gives_i2cCommandEnd (q := q) (bus := bus) (cl := cl) (en := .nackAddr) hc
    rw [Dev.i2cFinish_nackAddr hr] at hgives
    have hend := (((d.i2cCleared n c).setI2c n ((d.i2cCleared n c).i2cOf n).address).i2cNack_ended n (res := irNACKADDR) (by decide)).wakeSettle d
    exact after_of hgives ⟨hend.result, by rw [hend.of], by rw [hend.of], hend.busy⟩

/-- A transfer whose bytes have all moved ends OK. -/
theorem after_i2cMoved {n : Fin 2} {bus : List Byte} {cl : Bool} {y : I2cSt} {P : Dev → Prop} (hc : (d.i2cOf n).cmd = some u) (hr : getF u I2C_CMD_RECOVER = 0)
    (hy : bus.foldl I2cSt.move (d.i2cOf n).address = y) (hlen : getF u I2C_CMD_LEN ≤ y.n)
    (hp : ∀ e : Dev, Dev.I2cEnded e n irOK { y with rep := decide (getF u I2C_CMD_STOP = 0) } → P e) : After (.i2cCommandEnd n bus cl .ok) ⟨d, q⟩ P := by
  obtain ⟨c, hgives⟩ := gives_i2cCommandEnd (q := q) (bus := bus) (cl := cl) (en := .ok) hc
  refine after_of hgives (hp _ (Dev.I2cEnded.wakeSettle (Dev.i2cFinish_moved hr ?_ hlen fun hb => ?_) d))
  · rw [Dev.i2cOf_i2cCleared, I2cSt.address_again, hy]
  · rw [Dev.i2cOf_i2cCleared, ← hy, hb]
    rfl

theorem after_i2cWrite {n : Fin 2} {bus : List Byte} {cl : Bool} (hc : (d.i2cOf n).cmd = some u) (hr : getF u I2C_CMD_RECOVER = 0) (hrd : getF u I2C_CMD_RD = 0)
    (hn : (d.i2cOf n).n = 0) (hs : (d.i2cOf n).sent = []) (hlen : getF u I2C_CMD_LEN = bus.length) (htx : bus.length ≤ (d.i2cOf n).tx.length) :
    After (.i2cCommandEnd n bus cl .ok) ⟨d, q⟩ (fun e => e.get (I2C_STAT n) I2C_STAT_RESULT = 1 ∧
      (e.i2cOf n).sent = BitVec.ofNat 8 (2 * getF u I2C_CMD_ADDR) :: (d.i2cOf n).tx.take bus.length ∧ (e.i2cOf n).tx = (d.i2cOf n).tx.drop bus.length) := by
  have haddr : (d.i2cOf n).address = { d.i2cOf n with sent := [BitVec.ofNat 8 (2 * getF u I2C_CMD_ADDR + getF u I2C_CMD_RD)] } :=
    (I2cSt.address_transfer hc hr).trans (if_pos hs)
  have hmoved := I2cSt.foldl_move_write hrd bus { d.i2cOf n with sent := [BitVec.ofNat 8 (2 * getF u I2C_CMD_ADDR + getF u I2C_CMD_RD)] } hc
    (by dsimp only; omega) htx
  rw [← haddr] at hmoved
  refine after_i2cMoved hc hr hmoved (by rw [hlen]; exact Nat.le_add_left _ _) fun e he => ⟨he.result, ?_, by rw [he.of, haddr]⟩
  rw [he.of, haddr, hrd]
  rfl

theorem after_i2cRead {n : Fin 2} {bus : List Byte} {cl : Bool} (hc : (d.i2cOf n).cmd = some u) (hr : getF u I2C_CMD_RECOVER = 0) (hrd : getF u I2C_CMD_RD = 1)
    (hn : (d.i2cOf n).n = 0) (hlen : getF u I2C_CMD_LEN = bus.length) (hrx : (d.i2cOf n).rx.length + bus.length ≤ 16) :
    After (.i2cCommandEnd n bus cl .ok) ⟨d, q⟩ (fun e => e.get (I2C_STAT n) I2C_STAT_RESULT = 1 ∧ (e.i2cOf n).rx = (d.i2cOf n).rx ++ bus) := by
  have haddr : (d.i2cOf n).address.cmd = some u ∧ (d.i2cOf n).address.n = 0 ∧ (d.i2cOf n).address.rx = (d.i2cOf n).rx := by
    rw [I2cSt.address_transfer hc hr]
    split
    · exact ⟨hc, hn, rfl⟩
    · exact ⟨hc, hn, rfl⟩
  obtain ⟨hc', hn', hrx'⟩ := haddr
  have hmoved := I2cSt.foldl_move_read hrd bus (d.i2cOf n).address hc' (by omega) (by rw [hrx']; exact hrx)
  refine after_i2cMoved hc hr hmoved (by rw [hlen]; exact Nat.le_add_left _ _) fun e he => ⟨he.result, ?_⟩
  rw [he.of, ← hrx']

theorem after_i2cDisable {c : Fin 7} {n : Fin 2} {v : Word} (ho : BusOpen ⟨d, q⟩ c (I2C_CFG n) true) (hb : d.flag (I2C_STAT n) I2C_STAT_BUSY = true) :
    After (.i2cDisable c n v) ⟨d, q⟩ (fun e => e.flag (I2C_CFG n) I2C_CFG_EN = false ∧ (e.i2cOf n).tx = [] ∧ (e.i2cOf n).rx = [] ∧
      e.get (I2C_STAT n) I2C_STAT_RESULT = 8 ∧ e.flag (I2C_STAT n) I2C_STAT_BUSY = false ∧ e.flag (I2C_STAT n) I2C_STAT_DONE = true) := by
  have hne : I2C_CFG n ≠ I2C_STAT n := by simp only [I2C_CFG, I2C_STAT, ne_eq]; omega
  have hen : getF (setF v I2C_CFG_EN 0) I2C_CFG_EN = 0 := getF_setF_same _ _ _ (by decide) (by decide)
  have hgives : Gives (.i2cDisable c n v) ⟨d, q⟩ ((d.plainWrite (I2C_CFG n) (setF v I2C_CFG_EN 0)).i2cAborted n) := by
    refine gives_of_askCore rfl ho (exec_i2cDisable ..) (if_pos ⟨hen, ?_⟩)
    rw [Dev.plainWrite_I2C_CFG, Dev.flag, Dev.get, Dev.reg_setReg_other _ _ _ _ hne.symm, ← Dev.get, ← Dev.flag, hb]
  have hcfg : (d.plainWrite (I2C_CFG n) (setF v I2C_CFG_EN 0)).flag (I2C_CFG n) I2C_CFG_EN = false := by
    rw [Dev.plainWrite_I2C_CFG, Dev.flag, Dev.get, Dev.reg_setReg_same, row_I2C_CFG_write, getF_setF_other _ _ _ _ (by decide) (by decide) (by decide),
      getF_setF_other _ _ _ _ (by decide) (by decide) (by decide), getF_setF_same _ _ _ (by decide) (by decide), hen]
    rfl
  generalize d.plainWrite (I2C_CFG n) (setF v I2C_CFG_EN 0) = e at hgives hcfg
  have hend := (e.i2cAborted_ended n).wakeSettle d
  refine after_of hgives ⟨?_, by rw [hend.of], by rw [hend.of], hend.result, hend.busy, hend.done⟩
  rw [Dev.flag_wakeSettle, Dev.flag, Dev.get, Dev.i2cAborted_reg e hne, ← Dev.get, ← Dev.flag, hcfg]

end

/-- A push to the TX FIFO and a read of the RX FIFO find a controller that moves nothing. -/
theorem after_i2cData {d : Dev} {q : List Instr} {c : Fin 7} {n : Fin 2} {b : Byte} {bus : List Byte} (hc : (d.i2cOf n).cmd = none) :
    (BusOpen ⟨d.i2cMoved n bus, q⟩ c (I2C_DATA n) true → (d.i2cOf n).tx.length < 16 →
      After (.i2cDataWrite c n b bus) ⟨d, q⟩ (fun e => (e.i2cOf n).tx = (d.i2cOf n).tx ++ [b] ∧ (e.i2cOf n).rx = (d.i2cOf n).rx)) ∧
    (BusOpen ⟨d.i2cMoved n bus, q⟩ c (I2C_DATA n) false → ∀ y r, (d.i2cOf n).rx = y :: r →
      After (.i2cDataRead c n bus) ⟨d, q⟩ (fun e => e.rdata = y.setWidth 32 ∧ (e.i2cOf n).rx = r ∧ (e.i2cOf n).tx = (d.i2cOf n).tx)) := by
  have hof := Dev.i2cOf_i2cMoved_idle hc bus
  refine ⟨fun ho htx => ?_, fun ho y r hrx => ?_⟩
  · have hrest : d.restsAt (I2C_DATA n) = false := (d.restsAt_i2cMoved n bus _).symm.trans (ho.2.2.1 rfl)
    refine after_of (gives_of_ask rfl hrest (exec_i2cDataWrite ..) ((byCore_open ho _).trans (if_pos (by rw [hof]; exact htx)))) ?_
    rw [Dev.i2cOf_wakeSettle, Dev.i2cOf_setI2c, hof]
    exact ⟨rfl, rfl⟩
  · have hpop : (d.i2cMoved n bus).i2cPop n = { (d.i2cMoved n bus).setI2c n { d.i2cOf n with rx := r } with rdata := y.setWidth 32 } := by
      unfold Dev.i2cPop
      rw [hof]
      simp only [hrx]
    refine after_of (gives_of_run rfl (exec_i2cDataRead ..) ((byCore_open ho _).trans hpop)) ⟨rfl, ?_⟩
    rw [Dev.i2cOf_wakeSettle, Dev.i2cOf_rdata, Dev.i2cOf_setI2c]
    exact ⟨rfl, rfl⟩

end Sys2Proof.Machine
end

section
/-! SPI, the UARTs and general output (chapter 23). -/

namespace Sys2Proof.Machine

/-! ### Bytes of an SPI transfer (R439) -/

section
variable {d : Dev} {q : List Instr} {n : Nat} {u : Word} {rx : List Byte}

theorem toNat_eq_zero_iff (w : Word) : w.toNat = 0 ↔ w = 0 := by
  constructor
  · intro h; exact BitVec.eq_of_toNat_eq h
  · rintro rfl; rfl

/-- Without buffers every byte moves. -/
theorem Dev.spiMove_idle (ht : d.reg SPI_TXA = 0) (hr : d.reg SPI_RXA = 0) (rx : List Byte) : ∀ n i, d.spiMove rx i n = (i + n, List.replicate n 0xFF, d) := by
  intro n
  induction n with
  | zero => intro i; rfl
  | succ n ih =>
    intro i
    unfold Dev.spiMove
    simp only [ht, hr, BitVec.toNat_zero, BitVec.ofNat_eq_ofNat, if_true, bne_self_eq_false, Bool.false_and, Bool.or_false, Bool.false_eq_true, if_false, ih,
      List.replicate_succ]
    exact congrArg (·, _) (by omega)

/-- A source that the bus denies ends the transfer at its first byte. -/
theorem Dev.spiMove_denied (ht : d.reg SPI_TXA ≠ 0) (hb : d.nfcBus (d.reg SPI_TXA).toNat 1 false = false) (rx : List Byte) (n : Nat) :
    d.spiMove rx 0 (n + 1) = (0, [], d.touchRange (d.reg SPI_TXA).toNat 1) := by
  have ht' : (d.reg SPI_TXA).toNat ≠ 0 := fun h => ht ((toNat_eq_zero_iff _).mp h)
  unfold Dev.spiMove
  dsimp only
  rw [if_neg ht', Nat.add_zero, Dev.nfcBus_touchRange, hb]
  exact if_pos (by simp [ht'])

/-- One byte into a buffer. -/
theorem Dev.spiMove_one (ht : d.reg SPI_TXA = 0) (hr : d.reg SPI_RXA ≠ 0) (hb : d.nfcBus (d.reg SPI_RXA).toNat 1 true = true) (rx : List Byte) :
    d.spiMove rx 0 1 = (1, [0xFF], d.setByte (d.reg SPI_RXA).toNat (rx.getD 0 0xFF)) := by
  have hr' : (d.reg SPI_RXA).toNat ≠ 0 := fun h => hr ((toNat_eq_zero_iff _).mp h)
  have ht' : (d.reg SPI_TXA).toNat = 0 := (toNat_eq_zero_iff _).mpr ht
  unfold Dev.spiMove
  dsimp only
  rw [if_pos ht', if_neg (by simp [ht', hb]), if_pos ht', if_neg hr']
  rfl

theorem Dev.spiMove_reg {a : Nat} (ha : ¬ touchReg a) (rx : List Byte) : ∀ (n i : Nat) (d : Dev), (d.spiMove rx i n).2.2.reg a = d.reg a := by
  intro n
  induction n with
  | zero => intro i d; rfl
  | succ n ih =>
    intro i d
    have htouch : ∀ b m, (d.touchRange b m).reg a = d.reg a := fun b m => (untouched_reg ha).touchRange d b m
    have hkept : (if (d.reg SPI_TXA).toNat = 0 then d else d.touchRange ((d.reg SPI_TXA).toNat + i) 1).reg a = d.reg a := by
      split
      · rfl
      · exact htouch _ _
    unfold Dev.spiMove
    dsimp only
    generalize (if (d.reg SPI_TXA).toNat = 0 then d else d.touchRange ((d.reg SPI_TXA).toNat + i) 1) = e at hkept
    split
    · exact hkept
    · dsimp only
      rw [ih]
      split
      · exact hkept
      · exact hkept

/-- What a transfer that ended shows. -/
theorem Dev.spiEnd_shown (d : Dev) {res : Nat} (hr : res < 256) (held : Option Nat) (sent : List Byte) :
    (d.spiEnd res held sent).flag SPI_STAT SPI_STAT_BUSY = false ∧ (d.spiEnd res held sent).flag SPI_STAT SPI_STAT_DONE = true ∧
    (d.spiEnd res held sent).get SPI_STAT SPI_STAT_RESULT = res ∧ (d.spiEnd res held sent).spi = ⟨none, held, sent⟩ := by
  refine ⟨?_, Dev.flag_put_one _ _ (by decide) (by decide), ?_, rfl⟩
  · refine (Dev.flag_put_field _ _ _ (by decide) (by decide) (by decide)).trans ?_
    exact (Dev.flag_put_field _ _ _ (by decide) (by decide) (by decide)).trans (Dev.flag_put_zero _ _ (by decide) (by decide))
  · refine (Dev.get_put_field _ _ _ _ _ (by decide) (by decide) (by decide)).trans ?_
    exact (Dev.get_put_same _ _ _ _ (by decide) (by decide)).trans (Nat.mod_eq_of_lt hr)

theorem Dev.spiEnd_cell (d : Dev) (res : Nat) (held : Option Nat) (sent : List Byte) (y : Nat) : (d.spiEnd res held sent).cell y = d.cell y := rfl

theorem Dev.spi_wakeSettle (d e : Dev) : (d.wakeBy e).settle.spi = e.spi := rfl

/-- The end of a transfer. -/
theorem gives_spiTransferEnd (h : d.spi.xfer = some u) : Gives (.spiTransferEnd rx) ⟨d, q⟩
    ((d.spiMove rx 0 (getF u SPI_XFER_LEN)).2.2.spiEnd (if (d.spiMove rx 0 (getF u SPI_XFER_LEN)).1 < getF u SPI_XFER_LEN then 2 else 1)
      (if getF u SPI_XFER_HOLD = 1 then some (getF u SPI_XFER_CS) else none) (d.spiMove rx 0 (getF u SPI_XFER_LEN)).2.1) := by
  refine gives_of_run rfl (exec_spiTransferEnd ..) ?_
  simp only [h]
  split <;> rfl

theorem Dev.spiStart_idle {v : Word} (hb : d.flag SPI_STAT SPI_STAT_BUSY = false) (hen : d.flag SPI_CFG SPI_CFG_EN = true) :
    d.spiStart v = Dev.put { d.padDrive 0x12 0 with spi := ⟨some v, none, []⟩ } SPI_STAT SPI_STAT_BUSY 1 := if_neg (by simp [hb, hen])

/-! ### EN of SPI_CFG written 0 (R439) -/

theorem row_SPI_CFG_write (old w : Word) : row_SPI_CFG.write old w =
    setF (setF (setF (setF old SPI_CFG_EN (getF w SPI_CFG_EN)) SPI_CFG_MODE (getF w SPI_CFG_MODE)) SPI_CFG_LSB (getF w SPI_CFG_LSB)) SPI_CFG_DIV (getF w SPI_CFG_DIV) := rfl

theorem Dev.plainWrite_SPI_CFG (d : Dev) (w : Word) : d.plainWrite SPI_CFG w = d.setReg SPI_CFG (row_SPI_CFG.write (d.reg SPI_CFG) w) := by
  have hat : (regAt SPI_CFG).map (·.1) = some row_SPI_CFG := by decide
  obtain ⟨p, hp, hrow⟩ := Option.map_eq_some_iff.mp hat
  rw [Dev.plainWrite, hp]
  dsimp only
  rw [hrow]

/-- The word that a write of SPI_CFG with EN 0 takes: DIV 0 leaves DIV. -/
def Dev.spiOffWord (d : Dev) (v : Word) : Word :=
  if getF (setF v SPI_CFG_EN 0) SPI_CFG_DIV = 0 then setF (setF v SPI_CFG_EN 0) SPI_CFG_DIV (d.get SPI_CFG SPI_CFG_DIV) else setF v SPI_CFG_EN 0

theorem Dev.spiOffWord_EN (d : Dev) (v : Word) : getF (d.spiOffWord v) SPI_CFG_EN = 0 := by
  have h : getF (setF v SPI_CFG_EN 0) SPI_CFG_EN = 0 := getF_setF_same _ _ _ (by decide) (by decide)
  unfold Dev.spiOffWord
  split
  · rw [getF_setF_other _ _ _ _ (by decide) (by decide) (by decide), h]
  · exact h

theorem Dev.spiOffWord_DIV (d : Dev) (v : Word) : getF (d.spiOffWord v) SPI_CFG_DIV = if getF v SPI_CFG_DIV = 0 then d.get SPI_CFG SPI_CFG_DIV else getF v SPI_CFG_DIV := by
  have h : getF (setF v SPI_CFG_EN 0) SPI_CFG_DIV = getF v SPI_CFG_DIV := getF_setF_other _ _ _ _ (by decide) (by decide) (by decide)
  have hlt : d.get SPI_CFG SPI_CFG_DIV < 2 ^ SPI_CFG_DIV.width := getF_lt _ _
  unfold Dev.spiOffWord
  rw [h]
  split
  · rw [getF_setF_same _ _ _ (by decide) (by decide), Nat.mod_eq_of_lt hlt]
  · exact h

/-- SPI_CFG as a write with EN 0 leaves it. -/
theorem Dev.spiOff_CFG (d : Dev) (v : Word) : (d.plainWrite SPI_CFG (d.spiOffWord v)).flag SPI_CFG SPI_CFG_EN = false ∧
    (d.plainWrite SPI_CFG (d.spiOffWord v)).get SPI_CFG SPI_CFG_DIV = if getF v SPI_CFG_DIV = 0 then d.get SPI_CFG SPI_CFG_DIV else getF v SPI_CFG_DIV := by
  have hlt : getF (d.spiOffWord v) SPI_CFG_DIV < 2 ^ SPI_CFG_DIV.width := getF_lt _ _
  rw [Dev.plainWrite_SPI_CFG, Dev.flag, Dev.get, Dev.get, Dev.reg_setReg_same, row_SPI_CFG_write]
  constructor
  · rw [getF_setF_other _ _ _ _ (by decide) (by decide) (by decide), getF_setF_other _ _ _ _ (by decide) (by decide) (by decide),
      getF_setF_other _ _ _ _ (by decide) (by decide) (by decide), getF_setF_same _ _ _ (by decide) (by decide), d.spiOffWord_EN]
    rfl
  · rw [getF_setF_same _ _ _ (by decide) (by decide), Nat.mod_eq_of_lt hlt, d.spiOffWord_DIV]

/-- What EN = 0 leaves of the controller. -/
def Dev.spiOff (d : Dev) (rx : List Byte) : Dev :=
  match d.spi.xfer with
  | none => { d with spi := { d.spi with held := none } }
  | some x => (d.spiMove rx 0 (min rx.length (getF x SPI_XFER_LEN))).2.2.spiEnd 3 none (d.spiMove rx 0 (min rx.length (getF x SPI_XFER_LEN))).2.1

theorem gives_spiDisable {c : Fin 7} {v : Word} (ho : BusOpen ⟨d, q⟩ c SPI_CFG true) :
    Gives (.spiDisable c v rx) ⟨d, q⟩ ((d.plainWrite SPI_CFG (d.spiOffWord v)).spiOff rx) := by
  refine gives_of_askCore rfl ho (exec_spiDisable ..) ((if_neg ?_).trans rfl)
  exact fun h => absurd ((d.spiOffWord_EN v).symm.trans h) (by decide)

theorem SPI_CFG_not_touch : ¬ touchReg SPI_CFG := by
  rintro (h | ⟨n, hn, h⟩ | ⟨b, h⟩ | h | h)
  · exact absurd h (by decide)
  · simp only [SPI_CFG, ERL_ECC] at h; omega
  · simp only [SPI_CFG, FLC_COL] at h; omega
  · exact absurd h (by decide)
  · exact absurd h (by decide)

theorem Dev.spiOff_leaves (d : Dev) (rx : List Byte) : (d.spiOff rx).reg SPI_CFG = d.reg SPI_CFG ∧ (d.spiOff rx).spi.xfer = none ∧ (d.spiOff rx).spi.held = none ∧
    (d.spi.xfer ≠ none → (d.spiOff rx).get SPI_STAT SPI_STAT_RESULT = 3 ∧ (d.spiOff rx).flag SPI_STAT SPI_STAT_DONE = true) := by
  unfold Dev.spiOff
  cases hx : d.spi.xfer with
  | none => exact ⟨rfl, hx, rfl, fun h => absurd rfl h⟩
  | some x =>
    dsimp only
    have hreg := Dev.spiMove_reg SPI_CFG_not_touch rx (min rx.length (getF x SPI_XFER_LEN)) 0 d
    generalize d.spiMove rx 0 (min rx.length (getF x SPI_XFER_LEN)) = m at hreg
    obtain ⟨-, hdone, hres, hspi⟩ := m.2.2.spiEnd_shown (res := 3) (by decide) none m.2.1
    refine ⟨?_, by rw [hspi], by rw [hspi], fun _ => ⟨hres, hdone⟩⟩
    rw [← hreg]
    refine (Dev.reg_put_other _ _ _ _ _ (by decide)).trans ?_
    exact (Dev.reg_put_other _ _ _ _ _ (by decide)).trans (Dev.reg_put_other _ _ _ _ _ (by decide))

theorem after_spiTransferEnd (hx : d.spi.xfer = some u) : After (.spiTransferEnd rx) ⟨d, q⟩ (fun e =>
    e.flag SPI_STAT SPI_STAT_BUSY = false ∧ e.flag SPI_STAT SPI_STAT_DONE = true ∧ e.spi.xfer = none ∧
    (d.reg SPI_TXA = 0 → d.reg SPI_RXA = 0 → e.get SPI_STAT SPI_STAT_RESULT = 1 ∧ e.spi.sent = List.replicate (getF u SPI_XFER_LEN) 0xFF ∧
      e.spi.held = (if getF u SPI_XFER_HOLD = 1 then some (getF u SPI_XFER_CS) else none) ∧ ∀ y, e.cell y = d.cell y) ∧
    (d.reg SPI_TXA ≠ 0 → 0 < getF u SPI_XFER_LEN → d.nfcBus (d.reg SPI_TXA).toNat 1 false = false → e.get SPI_STAT SPI_STAT_RESULT = 2 ∧ e.spi.sent = []) ∧
    (d.reg SPI_TXA = 0 → d.reg SPI_RXA ≠ 0 → d.nfcBus (d.reg SPI_RXA).toNat 1 true = true → 0x20000000 ≤ (d.reg SPI_RXA).toNat → getF u SPI_XFER_LEN = 1 →
      e.get SPI_STAT SPI_STAT_RESULT = 1 ∧ e.cell (d.reg SPI_RXA).toNat = rx.getD 0 0xFF ∧ ∀ y, y ≠ (d.reg SPI_RXA).toNat → e.cell y = d.cell y)) := by
  refine after_of (gives_spiTransferEnd hx) ?_
  have hres : (if (d.spiMove rx 0 (getF u SPI_XFER_LEN)).1 < getF u SPI_XFER_LEN then 2 else 1) < 256 := by split <;> decide
  obtain ⟨hbusy, hdone, hresult, hspi⟩ := Dev.spiEnd_shown (d.spiMove rx 0 (getF u SPI_XFER_LEN)).2.2 hres
    (if getF u SPI_XFER_HOLD = 1 then some (getF u SPI_XFER_CS) else none) (d.spiMove rx 0 (getF u SPI_XFER_LEN)).2.1
  simp only [Dev.flag_wakeSettle, Dev.get_settle, Dev.wakeBy_get, Dev.spi_wakeSettle, Dev.cell_settle, Dev.wakeBy_cell, Dev.spiEnd_cell, hbusy, hdone, hresult, hspi, true_and]
  refine ⟨fun ht hr => ?_, fun ht hpos hb => ?_, fun ht hr hb ha hone => ?_⟩
  · rw [Dev.spiMove_idle ht hr]
    exact ⟨if_neg (by omega), rfl, fun _ => rfl⟩
  · obtain ⟨n, hn⟩ := Nat.exists_eq_succ_of_ne_zero (Nat.ne_of_gt hpos)
    rw [hn, Dev.spiMove_denied ht hb]
    exact ⟨if_pos (Nat.succ_pos n), rfl⟩
  · rw [hone, Dev.spiMove_one ht hr hb]
    have hcanon : d.canon (d.reg SPI_RXA).toNat = (d.reg SPI_RXA).toNat := (if_neg (by omega)).trans (if_neg (by omega))
    refine ⟨rfl, ?_, fun y hy => ?_⟩
    · rw [Dev.cell_setByte, hcanon, if_pos rfl]
    · rw [Dev.cell_setByte, hcanon, if_neg hy]

end

/-! ### UARTs (R440, R442) -/

section
variable {d : Dev} {q : List Instr} {n : Nat} {b : Byte} {r : List Byte}

theorem Dev.uartOf_put (d : Dev) (a : Nat) (f : Fld) (v n : Nat) : (d.put a f v).uartOf n = d.uartOf n := rfl

@[simp] theorem Dev.uartOf_setUart (d : Dev) (n : Nat) (x : UartSt) : (d.setUart n x).uartOf n = x := (sget_sset _ _ _ _ _).trans (if_pos rfl)

theorem Dev.uartOf_wakeSettle (d e : Dev) (n : Nat) : (d.wakeBy e).settle.uartOf n = e.uartOf n := rfl

theorem Dev.uartOf_rdata (d : Dev) (w : Word) (n : Nat) : Dev.uartOf { d with rdata := w } n = d.uartOf n := rfl

theorem Dev.setUart_TXBUSY (d : Dev) (n : Nat) (x : UartSt) : (d.setUart n x).flag (UART_STAT n) UART_STAT_TXBUSY = x.sh.isSome := by
  refine (Dev.flag_put_field _ _ _ (by decide) (by decide) (by decide)).trans ?_
  exact (Dev.flag_put_field _ _ _ (by decide) (by decide) (by decide)).trans (Dev.flag_putB _ _ _ (by decide) (by decide))

theorem Dev.setUart_CFG (d : Dev) (n : Nat) (x : UartSt) (f : Fld) : (d.setUart n x).flag (UART_CFG n) f = d.flag (UART_CFG n) f := by
  have hne : UART_CFG n ≠ UART_STAT n := by simp only [UART_CFG, UART_STAT, ne_eq]; omega
  refine (Dev.flag_put_other _ _ _ _ _ _ hne).trans ?_
  exact (Dev.flag_put_other _ _ _ _ _ _ hne).trans (Dev.flag_put_other _ _ _ _ _ _ hne)

/-- Whether the transmitter may start depends on the registers and on CTS. -/
theorem Dev.uartMay_setUart (d : Dev) (n : Nat) (x : UartSt) (h : x.cts = (d.uartOf n).cts) : (d.setUart n x).uartMay n = d.uartMay n := by
  rw [Dev.uartMay, Dev.setUart_CFG, Dev.setUart_CFG, Dev.uartOf_setUart, h, Dev.uartMay]

theorem Dev.uartKick_idle (h : (d.uartOf n).sh ≠ none ∨ (d.uartOf n).tx = [] ∨ d.uartMay n = false) : d.uartKick n = d := by
  unfold Dev.uartKick
  dsimp only
  split
  next hsh htx =>
    obtain h | h | h := h
    · exact absurd hsh h
    · rw [h] at htx; exact absurd htx (by simp)
    · exact if_neg (by simp [h])
  · rfl

theorem Dev.uartKick_start (hsh : (d.uartOf n).sh = none) (htx : (d.uartOf n).tx = b :: r) (hm : d.uartMay n = true) :
    d.uartKick n = (d.padDrive (0x13 + n) 0).setUart n { d.uartOf n with tx := r, sh := some b } := by
  unfold Dev.uartKick
  simp only [hsh, htx, hm, if_true]

/-- A transmitter given a state that starts nothing. -/
theorem Dev.setUart_kick_idle {x : UartSt} (hc : x.cts = (d.uartOf n).cts) (h : x.sh ≠ none ∨ x.tx = [] ∨ d.uartMay n = false) :
    (d.setUart n x).uartKick n = d.setUart n x := by
  refine Dev.uartKick_idle ?_
  rw [Dev.uartOf_setUart, Dev.uartMay_setUart d n x hc]
  exact h

/-- A transmitter given a state that starts a byte. -/
theorem Dev.setUart_kick_start {x : UartSt} (hc : x.cts = (d.uartOf n).cts) (hsh : x.sh = none) (htx : x.tx = b :: r) (hm : d.uartMay n = true) :
    ((d.setUart n x).uartKick n).uartOf n = { x with tx := r, sh := some b } ∧ ((d.setUart n x).uartKick n).flag (UART_STAT n) UART_STAT_TXBUSY = true := by
  have hof := d.uartOf_setUart n x
  rw [Dev.uartKick_start (b := b) (r := r) (by rw [hof]; exact hsh) (by rw [hof]; exact htx) (by rw [Dev.uartMay_setUart d n x hc]; exact hm),
    Dev.uartOf_setUart, Dev.setUart_TXBUSY, hof]
  exact ⟨rfl, rfl⟩

/-- A kick leaves what was received, and CTS. -/
theorem Dev.uartKick_rx (d : Dev) (n : Nat) : ((d.uartKick n).uartOf n).rx = (d.uartOf n).rx ∧ ((d.uartKick n).uartOf n).cts = (d.uartOf n).cts := by
  by_cases h : (d.uartOf n).sh ≠ none ∨ (d.uartOf n).tx = [] ∨ d.uartMay n = false
  · rw [Dev.uartKick_idle h]; exact ⟨rfl, rfl⟩
  · simp only [not_or, ne_eq, Classical.not_not, Bool.not_eq_false] at h
    obtain ⟨hsh, htx, hm⟩ := h
    obtain ⟨b, r, htx⟩ := List.exists_cons_of_ne_nil htx
    rw [Dev.uartKick_start hsh htx hm, Dev.uartOf_setUart]
    exact ⟨rfl, rfl⟩

theorem Dev.uartPush_room (h : (d.uartOf n).tx.length < 32) : d.uartPush n b = (d.setUart n { d.uartOf n with tx := (d.uartOf n).tx ++ [b] }).uartKick n := if_pos h

/-! ### General output (R441) -/

theorem after_gpioWrite {i : Instr} {k : Nat} {v : Word} (h : Gives i ⟨d, q⟩ (d.gpioWrite k v)) :
    After i ⟨d, q⟩ (fun e => OnlyRegs [GPIO_OUT k] d e ∧ e.gpioOut k = d.gpioMask k &&& v) := by
  refine after_of h ⟨onlyRegs_wakeBy d fun a ha => Dev.reg_setReg_other _ _ _ _ (by simpa using ha), ?_⟩
  have hreg : (d.wakeBy (d.gpioWrite k v)).settle.reg (GPIO_OUT k) = v &&& d.gpioMask k := by
    rw [Dev.reg_settle, Dev.wakeBy_reg]; exact Dev.reg_setReg_same _ _ _
  have hmask : (d.wakeBy (d.gpioWrite k v)).settle.gpioMask k = d.gpioMask k := rfl
  rw [Dev.gpioOut, hreg, hmask, BitVec.and_assoc, BitVec.and_self, BitVec.and_comm]

end

/-- Settles O58. -/
theorem sensorBuses : Obligations.SensorBuses := by
  unfold Obligations.SensorBuses
  refine ⟨fun d q c n v u b bus cl en => ⟨fun ho => ⟨fun hb => ⟨?_, ?_⟩, fun hb hen => ⟨fun hs => ?_, fun hs => ?_, ?_⟩⟩, after_i2cDisable,
      fun hc => (after_i2cData (b := b) hc).1, fun hc => (after_i2cData (b := b) hc).2, fun hc => ?_, fun hc => ⟨(i2cClauses_end hc).1 en, (i2cClauses_end hc).2.1, (i2cClauses_end hc).2.2,
        after_i2cWrite hc, after_i2cRead hc⟩, fun hb => ?_, fun hb => ?_⟩,
    fun d q c n k v u b s rx r on fr pa => ⟨fun ho => ⟨fun hb => ?_, fun hb hen => ?_⟩, fun hx => ?_, fun hx => ?_, fun ho => ?_,
      fun ho hlen => ⟨fun h => ?_, fun hsh htx hm => ?_⟩, fun ho => ⟨fun h => ?_, fun h => ?_⟩, fun h => ?_,
      fun hf hen hr => ⟨fun hlen => ?_, fun hlen => ?_, ?_, fun hp => ?_⟩, fun h => ?_, fun h => ?_, ?_, fun ho => ?_, fun ho => ?_⟩⟩
  · exact gives_of_askCore rfl ho (exec_i2cTransfer ..) (Dev.i2cCmd_busy hb)
  · exact gives_of_askCore rfl ho (exec_i2cRecover ..) (Dev.i2cCmd_busy hb)
  · refine after_i2cStarted (n := n) (v := setF v I2C_CMD_RECOVER 0) (gives_of_askCore rfl ho (exec_i2cTransfer ..)
      ((Dev.i2cCmd_idle hb hen).trans (if_neg (by simp [hs])))) fun e hof hbusy => ?_
    rw [hof]
    exact ⟨rfl, rfl, rfl, hbusy⟩
  · have hrec : getF (setF v I2C_CMD_RECOVER 0) I2C_CMD_RECOVER = 0 := getF_setF_same _ _ _ (by decide) (by decide)
    refine after_i2cEnded (gives_of_askCore rfl ho (exec_i2cTransfer ..) ((Dev.i2cCmd_idle hb hen).trans (if_pos ⟨hs, hrec⟩)))
      (d.i2cEnd_ended n (res := irSTUCK) (by decide)) fun e he => ⟨he.result, by rw [he.of], he.done, he.busy⟩
  · refine after_i2cStarted (n := n) (v := 0x80000000) (gives_of_askCore rfl ho (exec_i2cRecover ..)
      ((Dev.i2cCmd_idle hb hen).trans (if_neg fun h => absurd h.2 (by decide)))) fun e hof hbusy => ?_
    rw [hof]
    exact ⟨rfl, hbusy⟩
  · refine gives_of_run rfl (exec_i2cCommandEnd ..) ?_
    simp only [hc]
  · obtain ⟨hend, hstuck⟩ := d.i2cStick_ended n (res := irSCLLOW) (by decide)
    have hend := hend.wakeSettle d
    refine after_of (gives_of_run rfl (exec_sclStretchTimeout ..) (if_pos hb)) ⟨?_, hend.result, hend.busy⟩
    rw [Dev.flag_wakeSettle, hstuck]
  · exact gives_of_run rfl (exec_sclStretchTimeout ..) (if_neg (by simp [hb]))
  · exact gives_of_askCore rfl ho (exec_spiTransfer ..) (if_pos (.inl hb))
  · refine after_of (gives_of_askCore rfl ho (exec_spiTransfer ..) (Dev.spiStart_idle hb hen)) ⟨rfl, ?_, rfl⟩
    rw [Dev.flag_wakeSettle]
    exact Dev.flag_put_one _ _ (by decide) (by decide)
  · refine gives_of_run rfl (exec_spiTransferEnd ..) ?_
    simp only [hx]
  · exact after_spiTransferEnd hx
  · obtain ⟨hen, hdiv⟩ := d.spiOff_CFG v
    have hspi : (d.plainWrite SPI_CFG (d.spiOffWord v)).spi = d.spi := by rw [Dev.plainWrite_SPI_CFG]; rfl
    obtain ⟨hreg, hxfer, hheld, hres⟩ := (d.plainWrite SPI_CFG (d.spiOffWord v)).spiOff_leaves rx
    refine after_of (gives_spiDisable ho) ?_
    rw [Dev.flag_wakeSettle, Dev.flag_wakeSettle, Dev.get_settle, Dev.wakeBy_get, Dev.get_settle, Dev.wakeBy_get, Dev.spi_wakeSettle]
    refine ⟨?_, hxfer, hheld, ?_, fun h => hres (by rw [hspi]; exact h)⟩
    · rw [Dev.flag, Dev.get, hreg, ← Dev.get, ← Dev.flag, hen]
    · rw [Dev.get, hreg, ← Dev.get, hdiv]
  · refine after_of (gives_of_askCore rfl ho (exec_uartTxPush ..) ((Dev.uartPush_room hlen).trans (Dev.setUart_kick_idle rfl (h.imp_right .inr)))) ?_
    rw [Dev.uartOf_wakeSettle, Dev.uartOf_setUart]
    exact ⟨rfl, rfl⟩
  · refine after_of (gives_of_askCore rfl ho (exec_uartTxPush ..) (Dev.uartPush_room hlen)) ?_
    obtain ⟨hof, hbusy⟩ := Dev.setUart_kick_start (d := d) (n := n) (x := { d.uartOf n with tx := (d.uartOf n).tx ++ [b] }) (b := b) (r := []) rfl hsh (by rw [htx]; rfl) hm
    rw [Dev.uartOf_wakeSettle, hof, Dev.flag_wakeSettle, hbusy]
    exact ⟨rfl, rfl, rfl⟩
  · refine gives_of_byCore rfl ho (exec_uartRxPop ..) ?_
    simp only [Dev.uartPop, h]
  · have hpop : d.uartPop n = { d.setUart n { d.uartOf n with rx := r } with rdata := 0x100 ||| s.setWidth 32 } := by
      simp only [Dev.uartPop, h]
    refine after_of (gives_of_byCore rfl ho (exec_uartRxPop ..) hpop) ⟨rfl, ?_⟩
    rw [Dev.uartOf_wakeSettle, Dev.uartOf_rdata, Dev.uartOf_setUart]
    exact ⟨rfl, rfl⟩
  · refine gives_of_run rfl (exec_uartByteReceived ..) (if_pos ?_)
    simpa using h
  · have hgo : ¬ ((!d.fieldOn 6) = true ∨ (!d.flag (UART_CFG n) UART_CFG_EN) = true ∨ d.rests (19 + n) = true) := by simp [hf, hen, hr]
    refine after_of (gives_of_run rfl (exec_uartByteReceived ..) ((if_neg hgo).trans ((if_neg (by simp)).trans (if_pos hlen)))) ?_
    rw [Dev.uartOf_wakeSettle, Dev.uartOf_setUart]
  · exact gives_of_run rfl (exec_uartByteReceived ..) ((if_neg (by simp [hf, hen, hr])).trans ((if_neg (by simp)).trans (if_neg (Nat.not_lt.mpr hlen))))
  · exact gives_of_run rfl (exec_uartByteReceived ..) ((if_neg (by simp [hf, hen, hr])).trans ((if_pos (by simp)).trans (if_neg (by simp))))
  · have hpar : (true && decide (1 ≤ d.get (UART_CFG n) UART_CFG_PARITY ∧ d.get (UART_CFG n) UART_CFG_PARITY ≤ 2)) = true := by
      obtain hp | hp := hp <;> simp [hp]
    exact gives_of_run rfl (exec_uartByteReceived ..) ((if_neg (by simp [hf, hen, hr])).trans ((if_pos (by simpa using hpar)).trans (if_pos hpar)))
  · exact gives_of_run rfl (exec_uartByteSent ..) (if_pos (by simp [h]))
  · refine after_of (gives_of_run rfl (exec_uartByteSent ..) (if_neg (by simpa using h)) (e := (d.setUart n { d.uartOf n with sh := none }).uartKick n)) ⟨fun h => ?_, fun htx hm => ?_⟩
    · rw [Dev.uartOf_wakeSettle, Dev.setUart_kick_idle (x := { d.uartOf n with sh := none }) rfl (.inr h), Dev.uartOf_setUart]
      exact ⟨rfl, rfl⟩
    · obtain ⟨hof, -⟩ := Dev.setUart_kick_start (d := d) (n := n) (x := { d.uartOf n with sh := none }) (b := s) (r := r) rfl rfl htx hm
      rw [Dev.uartOf_wakeSettle, hof]
      exact ⟨rfl, rfl⟩
  · refine after_of (gives_of_run rfl (exec_uartCtsChange ..) rfl) ?_
    obtain ⟨hrx, hcts⟩ := (d.setUart n { d.uartOf n with cts := on }).uartKick_rx n
    rw [Dev.uartOf_setUart] at hrx hcts
    exact ⟨hcts, hrx⟩
  · exact after_gpioWrite (gives_of_askCore rfl ho (exec_gpioSet ..) rfl)
  · exact after_gpioWrite (gives_of_askCore rfl ho (exec_gpioClr ..) rfl)

end Sys2Proof.Machine
end

section
/-! The ledger engine, its directory and lookups (chapter 12). -/

namespace Sys2Proof.Machine

section
variable {d : Dev} {q : List Instr} {k : Nat} {x : LgrOp} {r : List LgrOp}

/-! ### The operation in front of the ledger engine (R250) -/

theorem Dev.lgrServe_idle {f : Dev → LgrOp → Dev} (h : d.lgr.queue = [] ∨ d.get LGR_STAT LGR_STAT_STATE ≠ 2 ∨ d.lgr.run ≠ none ∨ 2 ≤ d.aesAbove) :
    d.lgrServe k f = d := by
  unfold Dev.lgrServe
  split
  · rfl
  next hq =>
    refine if_neg ?_
    rintro ⟨-, hrun, hstate, haes⟩
    obtain h | h | h | h := h
    · rw [h] at hq; exact absurd hq (by simp)
    · exact h hstate
    · exact h hrun
    · omega

/-- The device once the front operation has left the queue. -/
def Dev.lgrTaken (d : Dev) (r : List LgrOp) : Dev := Dev.lgrSync { d with lgr := { d.lgr with queue := r } }

theorem Dev.lgrServe_front {f : Dev → LgrOp → Dev} (hq : d.lgr.queue = x :: r) (hk : x.kind = k) (hrun : d.lgr.run = none)
    (hs : d.get LGR_STAT LGR_STAT_STATE = 2) (ha : d.aesAbove < 2) : d.lgrServe k f = f (d.lgrTaken r) x := by
  unfold Dev.lgrServe
  rw [hq]
  exact if_pos ⟨hk, hrun, hs, ha⟩

theorem Dev.lgrQueue_full (h : 16 ≤ d.lgr.queue.length) (x : LgrOp) : d.lgrQueue x = d.count (LGR_CNT 2) := if_pos h

theorem Dev.lgrQueue_room (h : d.lgr.queue.length < 16) (x : LgrOp) :
    d.lgrQueue x = Dev.lgrSync { d with lgr := { d.lgr with queue := d.lgr.queue ++ [x] } } := if_neg (Nat.not_le.mpr h)

/-- A draft judged and sealed (R250): `w` its descriptor, `a` and `n` its place and size. -/
def Dev.draftServed (d : Dev) (x : LgrOp) (w : List Byte) (a n : Nat) : Dev :=
  if !d.busOk true x.core a n false then d.lgrEnd (some x.arg) lsBUSFAULT
  else
    let draft := d.seen a n
    if !draftOk w draft then d.lgrEnd (some x.arg) lsBADDRAFT
    else
      let r := d.lgrSeal (u8 draft 0) (u8 draft 1) ((draft.drop 0x24).take (u8 draft 2)) (some (x.arg, true)) none
      if r.1 = 0 then r.2 else r.2.lgrEnd (some x.arg) r.1

/-- An append served. -/
def Dev.appendServed (d : Dev) (x : LgrOp) : Dev :=
  let d := d.touchRange x.arg 16
  if !d.lgrDesc x then d.lgrEnd none lsBUSFAULT
  else
    let w := d.seen x.arg 16
    let a := u32 w 0
    let n := max 4 (recSize (d.seenByte a).toNat)
    (d.touchRange a n).draftServed x w a n

theorem gives_append (hq : d.lgr.queue = x :: r) (hk : x.kind = 0) (hrun : d.lgr.run = none) (hs : d.get LGR_STAT LGR_STAT_STATE = 2) (ha : d.aesAbove < 2) {e : Dev}
    (he : (d.lgrTaken r).appendServed x = e) : Gives .ledgerAppend ⟨d, q⟩ e :=
  gives_of_run rfl (show exec .ledgerAppend ⟨d, q⟩ = State.run ⟨d, q⟩ fun d => d.lgrServe 0 fun d x => d.appendServed x from rfl)
    ((Dev.lgrServe_front hq hk hrun hs ha).trans he)

/-- The records of a verify descriptor `w` judged. -/
def Dev.verifyServed (d : Dev) (x : LgrOp) (w : List Byte) : Dev :=
  let src := u32 w 0
  let anch := (u8 w 6).testBit 0
  let receipt := (u8 w 6).testBit 1
  let d := d.touchRange src 64
  if !(d.busOk true x.core src 64 false && (!anch || d.busOk true x.core (u32 w 8) 16 false)) then d.lgrEnd (some x.arg) lsBUSFAULT
  else
    let first := d.seen src 64
    if receipt && recOrigin first == d.get LGR_ORIGIN LGR_ORIGIN_ORIGIN then d.lgrEnd (some x.arg) lsBADDRAFT
    else
      let r := d.verifyRun x.core (if anch then some (d.seen (u32 w 8) 16) else none) none 0 (u16 w 4) src
      if r.1 = lsOK then
        if receipt then
          let p := spanPayload (recOrigin first) (recSeq first) (recSeq r.2.2) r.2.2
          let y := d.lgrSeal 1 1 p (some (x.arg, false)) none
          if y.1 = 0 then y.2 else y.2.lgrEnd (some x.arg) y.1
        else d.lgrEnd (some x.arg) lsOK
      else
        let d := d.when (r.1 != lsBUSFAULT) (fun d => (d.setBytes (x.arg + 14) (leBytes 2 r.2.1)).count (LGR_CNT 4))
        d.lgrEnd (some x.arg) r.1

/-- Without an anchor and a receipt a run that passes ends OK. -/
theorem Dev.verifyServed_plain {w : List Byte} (hbits : u8 w 6 = 0) (hb : (d.touchRange (u32 w 0) 64).busOk true x.core (u32 w 0) 64 false = true)
    (hok : ((d.touchRange (u32 w 0) 64).verifyRun x.core none none 0 (u16 w 4) (u32 w 0)).1 = lsOK) :
    d.verifyServed x w = (d.touchRange (u32 w 0) 64).lgrEnd (some x.arg) lsOK := by
  unfold Dev.verifyServed
  simp only [hbits, hb, Nat.zero_testBit, Bool.not_false, Bool.true_or, Bool.and_true, Bool.not_true, Bool.false_and, Bool.false_eq_true, if_false, hok, if_true]

/-- A verification served. -/
def Dev.verifyAsked (d : Dev) (x : LgrOp) : Dev :=
  let d := d.touchRange x.arg 16
  if !d.lgrDesc x then d.lgrEnd none lsBUSFAULT
  else
    let w := d.seen x.arg 16
    if !verifyDescOk w then d.lgrEnd (some x.arg) lsBADDRAFT else d.verifyServed x w

theorem gives_verify (hq : d.lgr.queue = x :: r) (hk : x.kind = 1) (hrun : d.lgr.run = none) (hs : d.get LGR_STAT LGR_STAT_STATE = 2) (ha : d.aesAbove < 2) {e : Dev}
    (he : (d.lgrTaken r).verifyAsked x = e) : Gives .ledgerVerify ⟨d, q⟩ e :=
  gives_of_run rfl (show exec .ledgerVerify ⟨d, q⟩ = State.run ⟨d, q⟩ fun d => d.lgrServe 1 fun d x => d.verifyAsked x from rfl)
    ((Dev.lgrServe_front hq hk hrun hs ha).trans he)

/-- A write of LGR_ARCH served. -/
def Dev.pushServed (d : Dev) (x : LgrOp) : Dev :=
  match d.archLast x.arg with
  | none => d.put LGR_STAT LGR_STAT_BADARCH 1
  | some last =>
    let p := spanPayload (d.get LGR_ORIGIN LGR_ORIGIN_ORIGIN) (recSeq (d.recAt d.archived)) (recSeq last) last
    let r := d.lgrSeal 1 2 p none (some x.arg)
    if r.1 = 0 then r.2 else r.2.lgrEnd none r.1

theorem gives_push (hq : d.lgr.queue = x :: r) (hk : x.kind = 2) (hrun : d.lgr.run = none) (hs : d.get LGR_STAT LGR_STAT_STATE = 2) (ha : d.aesAbove < 2) {e : Dev}
    (he : (d.lgrTaken r).pushServed x = e) : Gives .ledgerPush ⟨d, q⟩ e :=
  gives_of_run rfl (show exec .ledgerPush ⟨d, q⟩ = State.run ⟨d, q⟩ fun d => d.lgrServe 2 fun d x => d.pushServed x from rfl)
    ((Dev.lgrServe_front hq hk hrun hs ha).trans he)

/-- STATE is not what a change of the queue shows. -/
theorem Dev.lgrSync_STATE (d : Dev) : d.lgrSync.get LGR_STAT LGR_STAT_STATE = d.get LGR_STAT LGR_STAT_STATE := by
  have hput : ((d.put LGR_STAT LGR_STAT_QLEN d.lgr.queue.length).put LGR_STAT LGR_STAT_FREESECT d.freeSect).get LGR_STAT LGR_STAT_STATE = d.get LGR_STAT LGR_STAT_STATE :=
    (Dev.get_put_field _ _ _ _ _ (by decide) (by decide) (by decide)).trans (Dev.get_put_field _ _ _ _ _ (by decide) (by decide) (by decide))
  unfold Dev.lgrSync Dev.when
  dsimp only
  split
  · exact hput
  · exact hput

/-! ### A run made durable (R250, R251) -/

/-- The end of run `y`. -/
def Dev.runTaken (d : Dev) (y : LgrRun) : Dev :=
  let e := d.when y.began (fun d => d.engEnd 3)
  { e with lgr := { e.lgr with run := none } }

theorem Dev.runTaken_flIso (d : Dev) (y : LgrRun) : (d.runTaken y).pwr.flIso = d.pwr.flIso := by
  unfold Dev.runTaken Dev.when
  dsimp only
  split <;> rfl

/-- What becomes of a run of which `p` was programmed. -/
def Dev.runEnded (d : Dev) (y : LgrRun) (t : Option (Option Nat)) : Dev :=
  match t with
  | some torn => (torn.elim d d.tornFix).lgrFails y
  | none =>
    let o := (y.recs.getLast?.map (·.1)).getD 0
    let d := match y.push with
      | some v => d.setReg LGR_ARCH (BitVec.ofNat 32 v)
      | none => d
    let d := match y.desc with
      | some (a, true) => (d.store (a + 4) 4 o).store (a + 8) 4 (d.get LGR_ORIGIN LGR_ORIGIN_ORIGIN)
      | some (_, false) => d.count (LGR_CNT 5)
      | none => d
    d.lgrEnd (y.desc.map (·.1)) lsOK

theorem gives_durable_isolated {er : Bool} {good : Nat} {y : LgrRun} (hrun : d.lgr.run = some y) (hiso : d.pwr.flIso = true) :
    Gives (.recordDurable er good) ⟨d, q⟩ ((d.runTaken y).lgrFails y) := by
  refine gives_of_run rfl (exec_recordDurable ..) ?_
  simp only [hrun]
  exact (if_neg (by simp [hiso])).trans (if_pos ((d.runTaken_flIso y).trans hiso))

theorem gives_durable {er : Bool} {good : Nat} {y : LgrRun} (hrun : d.lgr.run = some y) (hheld : d.lgrHeld y = false) (hiso : d.pwr.flIso = false) :
    Gives (.recordDurable er good) ⟨d, q⟩ (((d.runTaken y).progRun er good y.recs).2.runEnded y ((d.runTaken y).progRun er good y.recs).1) := by
  have hiso' : ¬ (d.runTaken y).pwr.flIso = true := by rw [d.runTaken_flIso y, hiso]; decide
  refine gives_of_run rfl (exec_recordDurable ..) ?_
  simp only [hrun]
  exact (if_neg (by simp [hheld])).trans ((if_neg hiso').trans rfl)

/-! ### Recovery (R252) -/

theorem PWR_SUPPLY_not_touch : ¬ touchReg PWR_SUPPLY := by
  rintro (h | ⟨n, hn, h⟩ | ⟨b, h⟩ | h | h)
  · exact absurd h (by decide)
  · simp only [PWR_SUPPLY, ERL_ECC] at h; omega
  · simp only [PWR_SUPPLY, FLC_COL] at h; omega
  · exact absurd h (by decide)
  · exact absurd h (by decide)

theorem Dev.ringReads_SLOW (d : Dev) : d.ringReads.flag PWR_SUPPLY PWR_SUPPLY_SLOW = d.flag PWR_SUPPLY PWR_SUPPLY_SLOW := by
  have hreg : d.ringReads.reg PWR_SUPPLY = d.reg PWR_SUPPLY :=
    foldl_frame (g := fun e => e.reg PWR_SUPPLY) (f := fun (d : Dev) (p : Nat × List Nat) => (d.flashFind (16 * p.1)).2)
      (fun e p => (untouched_reg PWR_SUPPLY_not_touch).flashFind e _) _ _
  rw [Dev.flag, Dev.get, hreg, ← Dev.get, ← Dev.flag]

/-! ### Directory and lookups (R254, R255) -/

theorem Dev.dirInsert_valid (hw : d.get LGR_DIRVAL LGR_DIRVAL_WHERE = 1 ∨ d.get LGR_DIRVAL LGR_DIRVAL_WHERE = 2) :
    d.dirInsert =
      let org := d.get LGR_DIRORG LGR_DIRORG_ORIGIN
      let seg := d.get LGR_DIRSEG LGR_DIRSEG_SEG
      let n := dirSet org seg
      let l := d.dirOf n
      let e : DirE := ⟨org, seg, decide (d.get LGR_DIRVAL LGR_DIRVAL_WHERE = 2), d.get LGR_DIRVAL LGR_DIRVAL_VALUE⟩
      if l.any (fun x => x.is org seg) then d.setDir n (e :: l.filter (fun x => !x.is org seg))
      else if l.length < 4 then d.setDir n (e :: l)
      else (d.count (LGR_CNT 7)).setDir n (e :: l.dropLast) :=
  if_neg (by omega)

theorem Dev.setDir_same (d : Dev) (n : Nat) (l : List DirE) : Dev.SameBut [LGR_DIRUSED] d (d.setDir n l) :=
  Dev.SameBut.put (e := { d with dir := sset [] d.dir n l }) (List.mem_singleton.mpr rfl) _ _ ((Dev.SameBut.refl d).congr rfl rfl rfl rfl)

theorem Dev.dirLookup_same (d : Dev) (o l : Nat) : Dev.SameBut [LGR_DIRUSED, LGR_CNT 6] d (d.dirLookup o l).2 := by
  unfold Dev.dirLookup
  dsimp only
  split
  · split
    · exact .refl d
    · split
      · exact .refl d
      · exact .refl d
  · split
    · exact (d.setDir_same _ _).mono (by simp)
    · exact (Dev.SameBut.refl d).count (by simp)

/-- The code of a lookup in the device's own stream. -/
theorem Dev.dirLookup_own {o l : Nat} (ho : o = d.get LGR_ORIGIN LGR_ORIGIN_ORIGIN) :
    (d.head ≤ l → (d.dirLookup o l).1.1 = 4) ∧
    (l < d.head → ((d.dirLookup o l).1.1 = 1 ↔ ceilDiv d.head 4096 * 4096 ≤ l + 2040 * 4096) ∧ ((d.dirLookup o l).1.1 = 1 ∨ (d.dirLookup o l).1.1 = 2)) := by
  unfold Dev.dirLookup
  rw [if_pos ho]
  refine ⟨fun h => by rw [if_pos h], fun h => ?_⟩
  rw [if_neg (Nat.not_le.mpr h)]
  by_cases hr : ceilDiv d.head 4096 * 4096 ≤ l + 2040 * 4096
  · simp [hr]
  · simp [hr]

theorem Dev.dirLookup_missing {o l : Nat} (ho : o ≠ d.get LGR_ORIGIN LGR_ORIGIN_ORIGIN)
    (h : (d.dirOf (dirSet o (l / 65536))).any (fun x => x.is o (l / 65536)) = false) : (d.dirLookup o l).1.1 = 5 := by
  have hfind : (d.dirOf (dirSet o (l / 65536))).find? (fun x => x.is o (l / 65536)) = none :=
    List.find?_eq_none.mpr fun x hx => by
      have := List.any_eq_false.mp h x hx
      simpa using this
  unfold Dev.dirLookup
  rw [if_neg ho]
  simp only [hfind]

theorem Dev.dirLookup_code (d : Dev) (o l : Nat) : (d.dirLookup o l).1.1 < 8 := by
  unfold Dev.dirLookup
  dsimp only
  split
  · split
    · exact (by decide : (4 : Nat) < 8)
    · split
      · exact (by decide : (1 : Nat) < 8)
      · exact (by decide : (2 : Nat) < 8)
  · split
    · dsimp only
      split
      · exact (by decide : (3 : Nat) < 8)
      · exact (by decide : (2 : Nat) < 8)
    · exact (by decide : (5 : Nat) < 8)

theorem lookWord_fields {r : Nat} (v : Nat) (hr : r < 8) :
    getF (mkWord [(LGR_LOOKRES_RDY, 1), (LGR_LOOKRES_RESULT, r), (LGR_LOOKRES_VALUE, v)]) LGR_LOOKRES_RDY = 1 ∧
    getF (mkWord [(LGR_LOOKRES_RDY, 1), (LGR_LOOKRES_RESULT, r), (LGR_LOOKRES_VALUE, v)]) LGR_LOOKRES_RESULT = r := by
  have hword : mkWord [(LGR_LOOKRES_RDY, 1), (LGR_LOOKRES_RESULT, r), (LGR_LOOKRES_VALUE, v)] =
      setF (setF (setF 0 LGR_LOOKRES_RDY 1) LGR_LOOKRES_RESULT r) LGR_LOOKRES_VALUE v := rfl
  rw [hword]
  constructor
  · rw [getF_setF_other _ _ _ _ (by decide) (by decide) (by decide), getF_setF_other _ _ _ _ (by decide) (by decide) (by decide),
      getF_setF_same _ _ _ (by decide) (by decide)]
    rfl
  · rw [getF_setF_other _ _ _ _ (by decide) (by decide) (by decide), getF_setF_same _ _ _ (by decide) (by decide)]
    exact Nat.mod_eq_of_lt hr

theorem banked_ne {c a b : Nat} (hb : b < 2 ^ 32) : b ≠ banked c a := by unfold banked; omega

/-- What the write of LOOK_HI has before the lookup. -/
def Dev.lookBegun (d : Dev) (c : Nat) (v : Word) : Dev := d.setReg (banked c LGR_LOOK_HI) (BitVec.ofNat 32 (getF v LGR_LOOK_HI_ORIGIN))

theorem Dev.lookBegun_reg {c a : Nat} (v : Word) (ha : a ≠ banked c LGR_LOOK_HI) : (d.lookBegun c v).reg a = d.reg a := Dev.reg_setReg_other _ _ _ _ ha

theorem Dev.lookBegun_lookup (d : Dev) (c : Nat) (v : Word) (o : Nat) :
    (d.lookBegun c v).get LGR_ORIGIN LGR_ORIGIN_ORIGIN = d.get LGR_ORIGIN LGR_ORIGIN_ORIGIN ∧ (d.lookBegun c v).head = d.head ∧
    (d.lookBegun c v).dirOf o = d.dirOf o ∧ (d.lookBegun c v).reg (banked c LGR_LOOK_LO) = d.reg (banked c LGR_LOOK_LO) := by
  refine ⟨?_, ?_, by rw [Dev.dirOf, Dev.lookBegun, Dev.setReg_dir, Dev.dirOf], Dev.lookBegun_reg v (by simp only [banked, LGR_LOOK_LO, LGR_LOOK_HI, ne_eq]; omega)⟩
  · rw [Dev.get, Dev.lookBegun_reg v (banked_ne (by decide)), Dev.get]
  · rw [Dev.head, Dev.lookBegun_reg v (banked_ne (by decide)), Dev.head]

theorem Dev.lookWrite_eq (d : Dev) (c : Nat) (v : Word) (l : (Nat × Nat) × Dev)
    (hl : (d.lookBegun c v).dirLookup (getF v LGR_LOOK_HI_ORIGIN) (d.reg (banked c LGR_LOOK_LO)).toNat = l) :
    d.lookWrite c v = l.2.setReg (banked c LGR_LOOKRES) (mkWord [(LGR_LOOKRES_RDY, 1), (LGR_LOOKRES_RESULT, l.1.1), (LGR_LOOKRES_VALUE, l.1.2)]) := by
  rw [← hl, ← (d.lookBegun_lookup c v 0).2.2.2]
  rfl

theorem after_ledgerLookup {c : Fin 7} {v : Word} (ho : BusOpen ⟨d, q⟩ c LGR_LOOK_HI true) : After (.ledgerLookup c v) ⟨d, q⟩ (fun t =>
    let o := getF v LGR_LOOK_HI_ORIGIN
    let l := (d.reg (banked c LGR_LOOK_LO)).toNat
    let res := t.get (banked c LGR_LOOKRES) LGR_LOOKRES_RESULT
    t.flag (banked c LGR_LOOKRES) LGR_LOOKRES_RDY = true ∧
    (o = d.get LGR_ORIGIN LGR_ORIGIN_ORIGIN → d.head ≤ l → res = 4) ∧
    (o = d.get LGR_ORIGIN LGR_ORIGIN_ORIGIN → l < d.head → (res = 1 ↔ ceilDiv d.head 4096 * 4096 ≤ l + 2040 * 4096) ∧ (res = 1 ∨ res = 2)) ∧
    (o ≠ d.get LGR_ORIGIN LGR_ORIGIN_ORIGIN → (d.dirOf (dirSet o (l / 65536))).any (fun x => x.is o (l / 65536)) = false → res = 5) ∧
    t.cores = d.cores ∧ ∀ a, t.byte a = d.byte a) := by
  obtain ⟨horigin, hhead, hdir, -⟩ := d.lookBegun_lookup c v (dirSet (getF v LGR_LOOK_HI_ORIGIN) ((d.reg (banked c LGR_LOOK_LO)).toNat / 65536))
  have hown := Dev.dirLookup_own (d := d.lookBegun c v) (o := getF v LGR_LOOK_HI_ORIGIN) (l := (d.reg (banked c LGR_LOOK_LO)).toNat)
  have hmissing := Dev.dirLookup_missing (d := d.lookBegun c v) (o := getF v LGR_LOOK_HI_ORIGIN) (l := (d.reg (banked c LGR_LOOK_LO)).toNat)
  have hcode := (d.lookBegun c v).dirLookup_code (getF v LGR_LOOK_HI_ORIGIN) (d.reg (banked c LGR_LOOK_LO)).toNat
  have hsame := (d.lookBegun c v).dirLookup_same (getF v LGR_LOOK_HI_ORIGIN) (d.reg (banked c LGR_LOOK_LO)).toNat
  rw [horigin, hhead] at hown
  rw [horigin, hdir] at hmissing
  generalize hl : (d.lookBegun c v).dirLookup (getF v LGR_LOOK_HI_ORIGIN) (d.reg (banked c LGR_LOOK_LO)).toNat = l at hown hmissing hcode hsame
  refine after_of (gives_of_askCore rfl ho (exec_ledgerLookup ..) (d.lookWrite_eq c v l hl)) ?_
  obtain ⟨hrdy, hres⟩ := lookWord_fields l.1.2 hcode
  have hbegun : Dev.SameBut [banked c LGR_LOOK_HI, LGR_DIRUSED, LGR_CNT 6, banked c LGR_LOOKRES] d (d.lookBegun c v) := (Dev.SameBut.refl d).setReg (by simp) _
  have hall := (hbegun.trans (hsame.mono (by simp))).setReg (a := banked c LGR_LOOKRES) (by simp)
    (mkWord [(LGR_LOOKRES_RDY, 1), (LGR_LOOKRES_RESULT, l.1.1), (LGR_LOOKRES_VALUE, l.1.2)])
  have hboot : FLC_BOOT ∉ [banked c LGR_LOOK_HI, LGR_DIRUSED, LGR_CNT 6, banked c LGR_LOOKRES] := by
    have hne : ∀ a, FLC_BOOT ≠ banked c a := fun a => banked_ne (by decide)
    simp [hne, show FLC_BOOT ≠ LGR_DIRUSED by decide, show FLC_BOOT ≠ LGR_CNT 6 by decide]
  obtain ⟨-, hcores, hbytes⟩ := hall.wakeSettle d hboot
  have hget : ∀ f, Dev.get (d.wakeBy (l.2.setReg (banked c LGR_LOOKRES) (mkWord [(LGR_LOOKRES_RDY, 1), (LGR_LOOKRES_RESULT, l.1.1), (LGR_LOOKRES_VALUE, l.1.2)]))).settle
      (banked c LGR_LOOKRES) f = getF (mkWord [(LGR_LOOKRES_RDY, 1), (LGR_LOOKRES_RESULT, l.1.1), (LGR_LOOKRES_VALUE, l.1.2)]) f := fun f => by
    rw [Dev.get_settle, Dev.wakeBy_get, Dev.get, Dev.reg_setReg_same]
  dsimp only
  rw [Dev.flag, hget, hget, hrdy, hres]
  exact ⟨rfl, fun h => (hown h).1, fun h => (hown h).2, hmissing, hcores, hbytes⟩

end

/-- Settles O27. -/
theorem ledger : Obligations.Ledger := by
  unfold Obligations.Ledger
  refine ⟨fun d q c v er good x r y => ⟨fun ho => ⟨fun h => ?_, fun h => ?_⟩, fun ho => ⟨fun h => ?_, fun h => ?_⟩, fun ho => ⟨fun h => ?_, fun h => ?_⟩,
    fun h => ⟨?_, ?_, ?_⟩, fun hq hrun hs ha => ?_, fun h => ?_, fun hrun hheld hiso => ?_, fun hrun => ⟨fun hiso => ?_, fun hheld hiso => ?_⟩, fun hs hr hslow => ?_,
    fun h => ?_, fun ho => ⟨fun h => ?_, fun h he => ?_, fun h hne hhead harch => ?_⟩⟩,
    fun d q c v => ⟨fun ho => ⟨fun hw hany => ?_, fun hw hany hlen => ?_, fun hw hany hlen => ?_, ?_, ?_⟩, after_ledgerLookup⟩⟩
  · exact gives_of_askCore rfl ho (exec_appendSubmit ..) (Dev.lgrQueue_full h _)
  · exact gives_of_askCore rfl ho (exec_appendSubmit ..) (Dev.lgrQueue_room h _)
  · exact gives_of_askCore rfl ho (exec_verifySubmit ..) (Dev.lgrQueue_full h _)
  · exact gives_of_askCore rfl ho (exec_verifySubmit ..) (Dev.lgrQueue_room h _)
  · exact gives_of_askCore rfl ho (exec_archiveSubmit ..) (Dev.lgrQueue_full h _)
  · exact gives_of_askCore rfl ho (exec_archiveSubmit ..) (Dev.lgrQueue_room h _)
  · exact gives_of_run rfl (exec_ledgerAppend ..) (Dev.lgrServe_idle h)
  · exact gives_of_run rfl (exec_ledgerVerify ..) (Dev.lgrServe_idle h)
  · exact gives_of_run rfl (exec_ledgerPush ..) (Dev.lgrServe_idle h)
  · intro e y w open16
    refine ⟨fun hopen => ⟨fun hk => ?_, fun hk => ?_⟩, ?_, fun hk hopen hdesc => ?_, ?_, fun hk harch => ?_, fun z hk harch => ?_⟩
    · have hdesc : ((d.lgrTaken r).touchRange x.arg 16).lgrDesc x = false := hopen
      exact gives_append hq hk hrun hs ha (if_pos (by rw [hdesc]; rfl))
    · have hdesc : ((d.lgrTaken r).touchRange x.arg 16).lgrDesc x = false := hopen
      exact gives_verify hq hk hrun hs ha (if_pos (by rw [hdesc]; rfl))
    · intro a n z draft s hk hopen
      have hdesc : ((d.lgrTaken r).touchRange x.arg 16).lgrDesc x = true := hopen
      have hserve : (d.lgrTaken r).appendServed x = z.draftServed x w a n := (if_neg (by rw [hdesc]; decide)).trans rfl
      refine ⟨fun hb => ?_, fun hb hd => ?_, fun hb hd hz => ?_, fun hb hd hz => ?_⟩
      · exact gives_append hq hk hrun hs ha (hserve.trans (if_pos (by rw [hb]; rfl)))
      · exact gives_append hq hk hrun hs ha (hserve.trans ((if_neg (by rw [hb]; decide)).trans (if_pos (by rw [hd]; rfl))))
      · exact gives_append hq hk hrun hs ha (hserve.trans ((if_neg (by rw [hb]; decide)).trans ((if_neg (by rw [hd]; decide)).trans (if_pos hz))))
      · exact gives_append hq hk hrun hs ha (hserve.trans ((if_neg (by rw [hb]; decide)).trans ((if_neg (by rw [hd]; decide)).trans (if_neg hz))))
    · have hlgr : ((d.lgrTaken r).touchRange x.arg 16).lgrDesc x = true := hopen
      exact gives_verify hq hk hrun hs ha ((if_neg (by rw [hlgr]; decide)).trans (if_pos (by rw [show verifyDescOk (((d.lgrTaken r).touchRange x.arg 16).seen x.arg 16) = false from hdesc]; rfl)))
    · intro z hk hopen hdesc hbits hb hok
      have hlgr : ((d.lgrTaken r).touchRange x.arg 16).lgrDesc x = true := hopen
      exact gives_verify hq hk hrun hs ha ((if_neg (by rw [hlgr]; decide)).trans ((if_neg (by rw [show verifyDescOk (((d.lgrTaken r).touchRange x.arg 16).seen x.arg 16) = true from hdesc]; decide)).trans (Dev.verifyServed_plain hbits hb hok)))
    · refine gives_push hq hk hrun hs ha ?_
      simp only [Dev.pushServed, show (d.lgrTaken r).archLast x.arg = none from harch]
      rfl
    · intro s hz
      refine gives_push hq hk hrun hs ha ?_
      simp only [Dev.pushServed, show (d.lgrTaken r).archLast x.arg = some z from harch]
      exact if_pos hz
  · refine gives_of_run rfl (exec_recordDurable ..) ?_
    simp only [h]
  · refine gives_of_run rfl (exec_recordDurable ..) ?_
    simp only [hrun]
    exact if_pos (by simp [hheld, hiso])
  · exact gives_durable_isolated hrun hiso
  · have hgives := gives_durable (q := q) (er := er) (good := good) hrun hheld hiso
    refine ⟨fun hp => ?_, fun o hp => ?_, fun v hp hd hpush => ?_, fun hp hd hpush => ?_⟩
    · rw [show ((d.runTaken y).progRun er good y.recs).1 = some none from hp] at hgives
      exact hgives
    · rw [show ((d.runTaken y).progRun er good y.recs).1 = some (some o) from hp] at hgives
      exact hgives
    · rw [show ((d.runTaken y).progRun er good y.recs).1 = none from hp] at hgives
      simp only [Dev.runEnded, hd, hpush] at hgives
      exact hgives
    · rw [show ((d.runTaken y).progRun er good y.recs).1 = none from hp] at hgives
      simp only [Dev.runEnded, hd, hpush] at hgives
      exact hgives
  · refine after_of (gives_of_run rfl (exec_ledgerRecovery ..) ((if_neg (by simp [hs, hr])).trans (if_neg (by rw [d.ringReads_SLOW, hslow]; simp)))) ?_
    rw [Dev.get_settle, Dev.wakeBy_get, Dev.lgrSync_STATE]
    exact Dev.get_put_same _ _ _ _ (by decide) (by decide)
  · exact gives_of_run rfl (exec_ledgerRecovery ..) (if_pos (.inr (by simp [h])))
  · exact gives_of_askCore rfl ho (exec_originWrite ..) (if_pos h)
  · exact gives_of_askCore rfl ho (exec_originWrite ..) ((if_neg (by simp [h])).trans (if_pos he))
  · exact gives_of_askCore rfl ho (exec_originWrite ..) ((if_neg (by simp [h])).trans ((if_neg hne).trans (if_neg (by simp [hhead, harch]))))
  · exact gives_of_askCore rfl ho (exec_directoryInsert ..) ((Dev.dirInsert_valid hw).trans (if_pos hany))
  · exact gives_of_askCore rfl ho (exec_directoryInsert ..) ((Dev.dirInsert_valid hw).trans ((if_neg (by simp [hany])).trans (if_pos hlen)))
  · exact gives_of_askCore rfl ho (exec_directoryInsert ..) ((Dev.dirInsert_valid hw).trans ((if_neg (by simp [hany])).trans (if_neg (Nat.not_lt.mpr hlen))))
  · exact gives_of_askCore rfl ho (exec_directoryRemove ..) rfl
  · exact gives_of_askCore rfl ho (exec_directoryClear ..) rfl

end Sys2Proof.Machine
end

section
/-! The symbols of furrows and of MC demodulators (R131, R135, R136, R141 to R144). -/

namespace Sys2Proof.Machine

/-! ### A receive unit's state written twice -/

theorem serase_sinsert {α : Type} (k : Nat) (v : α) : ∀ m : List (Nat × α), serase k (sinsert k v m) = serase k m
  | [] => by simp [sinsert, serase]
  | (a, b) :: m => by
    by_cases h : k < a
    · simp [sinsert, serase, h, Nat.ne_of_gt h]
    · by_cases ha : a = k
      · simp [sinsert, serase, ha, serase_sinsert k v m]
      · simp [sinsert, serase, h, ha, serase_sinsert k v m]

theorem serase_serase {α : Type} (k : Nat) : ∀ m : List (Nat × α), serase k (serase k m) = serase k m
  | [] => rfl
  | (a, b) :: m => by
    by_cases ha : a = k
    · simp [serase, ha, serase_serase k m]
    · simp [serase, ha, serase_serase k m]

theorem sset_sset {α : Type} [DecidableEq α] (d : α) (m : List (Nat × α)) (k : Nat) (v w : α) : sset d (sset d m k v) k w = sset d m k w := by
  have herase : serase k (sset d m k v) = serase k m := by
    unfold sset
    split
    · exact serase_serase k m
    · rw [serase_sinsert, serase_serase]
  rw [sset, herase, sset]

section
variable {d : Dev} {q : List Instr} {u p freq drift : Nat} {f : Fin 1024} {x y : Rcv}

theorem Dev.setRcv_setRcv (d : Dev) (u : Nat) (x y : Rcv) : (d.setRcv u x).setRcv u y = d.setRcv u y := by
  unfold Dev.setRcv
  dsimp only
  rw [sset_sset]

theorem Dev.rcvOf_setRcv_same (d : Dev) (u : Nat) (x : Rcv) : (d.setRcv u x).rcvOf u = x := (sget_sset _ _ _ _ _).trans (if_pos rfl)

/-! ### One symbol of a furrow (R131, R135, R136) -/

/-- What a symbol that is not hidden, of quotient `p`, makes of the trackers. -/
def Dev.symSeen (d : Dev) (u p freq drift : Nat) : Rcv := ((d.rcvOf u).noted (d.faded p) false).track (d.faded p) freq drift

theorem Dev.noteTrack_seen (d : Dev) (u p freq drift : Nat) : d.noteTrack u p false freq drift = d.setRcv u (d.symSeen u p freq drift) := by
  rw [Dev.noteTrack, Bool.false_or, Dev.symSeen]

/-- What a symbol's note leaves. -/
theorem Rcv.noted_keeps (x : Rcv) (b : Bool) : (x.noted b false).weak = x.weak ∧ (x.noted b false).pre = x.pre ∧ (x.noted b false).e = x.e ∧
    (x.noted b false).bin = x.bin ∧ (x.noted b false).chain = x.chain ∧ (x.noted b false).b = x.b ∧ (x.noted b false).step = x.step ∧
    (x.noted b false).hi = x.hi ∧ (x.noted b false).reent = x.reent := by
  cases b <;> simp [Rcv.noted]

theorem Rcv.noted_moves (x : Rcv) (b : Bool) : (x.noted b false).trkF = x.trkF ∧ (x.noted b false).trkD = x.trkD ∧
    (x.noted b false).fade = (if b then min 0xFFFF (x.fade + 1) else x.fade) ∧ (x.noted b false).blank = x.blank := by
  cases b <;> simp [Rcv.noted]

theorem Rcv.track_keeps (x : Rcv) (b : Bool) (freq drift : Nat) : (x.track b freq drift).weak = x.weak ∧ (x.track b freq drift).pre = x.pre ∧
    (x.track b freq drift).e = x.e ∧ (x.track b freq drift).bin = x.bin ∧ (x.track b freq drift).chain = x.chain ∧ (x.track b freq drift).b = x.b ∧
    (x.track b freq drift).step = x.step ∧ (x.track b freq drift).hi = x.hi ∧ (x.track b freq drift).reent = x.reent := by
  cases b <;> simp [Rcv.track]

theorem Rcv.track_moves (x : Rcv) (b : Bool) (freq drift : Nat) : (x.track b freq drift).trkF = (if b then x.trkF else freq) ∧
    (x.track b freq drift).trkD = (if b then x.trkD else drift) ∧ (x.track b freq drift).fade = x.fade ∧ (x.track b freq drift).blank = x.blank := by
  cases b <;> simp [Rcv.track]

/-- The fields that a symbol leaves. -/
theorem Dev.symSeen_keeps (d : Dev) (u p freq drift : Nat) :
    (d.symSeen u p freq drift).weak = (d.rcvOf u).weak ∧ (d.symSeen u p freq drift).pre = (d.rcvOf u).pre ∧ (d.symSeen u p freq drift).e = (d.rcvOf u).e ∧
    (d.symSeen u p freq drift).bin = (d.rcvOf u).bin ∧ (d.symSeen u p freq drift).chain = (d.rcvOf u).chain ∧ (d.symSeen u p freq drift).b = (d.rcvOf u).b ∧
    (d.symSeen u p freq drift).step = (d.rcvOf u).step ∧ (d.symSeen u p freq drift).hi = (d.rcvOf u).hi ∧ (d.symSeen u p freq drift).reent = (d.rcvOf u).reent := by
  obtain ⟨h1, h2, h3, h4, h5, h6, h7, h8, h9⟩ := (d.rcvOf u).noted_keeps (d.faded p)
  obtain ⟨k1, k2, k3, k4, k5, k6, k7, k8, k9⟩ := ((d.rcvOf u).noted (d.faded p) false).track_keeps (d.faded p) freq drift
  exact ⟨k1.trans h1, k2.trans h2, k3.trans h3, k4.trans h4, k5.trans h5, k6.trans h6, k7.trans h7, k8.trans h8, k9.trans h9⟩

theorem Dev.symSeen_moves (d : Dev) (u p freq drift : Nat) :
    (d.symSeen u p freq drift).trkF = (if d.faded p then (d.rcvOf u).trkF else freq) ∧ (d.symSeen u p freq drift).trkD = (if d.faded p then (d.rcvOf u).trkD else drift) ∧
    (d.symSeen u p freq drift).fade = (if d.faded p then min 0xFFFF ((d.rcvOf u).fade + 1) else (d.rcvOf u).fade) ∧
    (d.symSeen u p freq drift).blank = (d.rcvOf u).blank := by
  obtain ⟨hf, hd, hfade, hblank⟩ := (d.rcvOf u).noted_moves (d.faded p)
  obtain ⟨kf, kd, kfade, kblank⟩ := ((d.rcvOf u).noted (d.faded p) false).track_moves (d.faded p) freq drift
  rw [hf] at kf
  rw [hd] at kd
  exact ⟨kf, kd, kfade.trans hfade, kblank.trans hblank⟩

theorem Dev.preSymbol_seen : d.preSymbol u p false freq drift =
    let weak := if p < 65536 then (d.rcvOf u).weak + 1 else 0
    let e := d.setRcv u { d.symSeen u p freq drift with weak := weak, pre := (d.rcvOf u).pre + 1 }
    if 2 ≤ weak ∨ 4096 < (d.rcvOf u).pre + 1 then e.reclaim u dcLOST else e := by
  obtain ⟨hweak, hpre, -⟩ := d.symSeen_keeps u p freq drift
  unfold Dev.preSymbol
  simp only [Bool.false_eq_true, if_false, Dev.noteTrack_seen, Dev.rcvOf_setRcv_same, Dev.setRcv_setRcv, hweak, hpre]

theorem Dev.localU_meshNow (d : Dev) : d.localU d.meshNow = d.nowU := by
  unfold Dev.localU
  rw [Nat.add_sub_cancel_left, Nat.mod_self]
  exact Nat.sub_zero _

theorem Dev.syncWords_setRcv (d : Dev) (u c : Nat) (x : Rcv) : (d.setRcv u x).syncWords c = d.syncWords c := rfl

theorem Dev.detThr_setRcv (d : Dev) (u c b e : Nat) (x : Rcv) : (d.setRcv u x).detThr c b e = d.detThr c b e := rfl

theorem Dev.meshNow_setRcv (d : Dev) (u : Nat) (x : Rcv) : (d.setRcv u x).meshNow = d.meshNow := rfl

theorem Dev.nowU_setRcv (d : Dev) (u : Nat) (x : Rcv) : (d.setRcv u x).nowU = d.nowU := rfl

theorem Dev.syncTime_live (d : Dev) (x : Rcv) (pos : Nat) (hx : x.reent = none) : d.syncTime x pos = d.meshNow := by
  unfold Dev.syncTime
  rw [hx]

theorem Dev.syncSymbol_seen {k rssi snr pos : Nat} (hr : (d.rcvOf u).reent = none) : d.syncSymbol u k p false rssi snr pos freq drift =
    let r := d.rcvOf u
    let nib := syncNibble r.e k r.bin
    if r.step = 0 then
      if (d.syncWords r.chain).any (fun w => w / 16 == nib) then d.setRcv u { d.symSeen u p freq drift with step := 1, hi := nib }
      else (d.setRcv u (d.symSeen u p freq drift)).reclaim u dcSYNC
    else if (d.syncWords r.chain).contains (16 * r.hi + nib) then
      d.setRcv u { d.symSeen u p freq drift with step := 2, word := 16 * r.hi + nib, rssi := rssi, snr := snr, tsync := d.meshNow, syncU := d.nowU }
    else (d.setRcv u (d.symSeen u p freq drift)).reclaim u dcSYNC := by
  obtain ⟨-, -, he, hbin, hchain, -, hstep, hhi, hreent⟩ := d.symSeen_keeps u p freq drift
  rw [Dev.syncSymbol, if_neg Bool.false_ne_true, Dev.noteTrack_seen]
  generalize d.symSeen u p freq drift = s at *
  have htime := (d.setRcv u s).syncTime_live s pos (hreent.trans hr)
  dsimp only
  rw [Dev.rcvOf_setRcv_same, Dev.setRcv_setRcv, Dev.setRcv_setRcv, he, hbin, hchain, hstep, hhi, Dev.syncWords_setRcv, htime, Dev.localU_meshNow,
    Dev.meshNow_setRcv, Dev.nowU_setRcv]

theorem Dev.downSymbol_seen : d.downSymbol u p false freq drift =
    let r := d.rcvOf u
    if reach40 (d.detThr r.chain r.b (r.e - 5)) (4 * p) 65536 then d.setRcv u { d.symSeen u p freq drift with state := rsHDR, foff := freq }
    else (d.setRcv u (d.symSeen u p freq drift)).reclaim u dcSYNC := by
  obtain ⟨-, -, he, -, hchain, hb, -, -, -⟩ := d.symSeen_keeps u p freq drift
  rw [Dev.downSymbol, if_neg Bool.false_ne_true, Dev.noteTrack_seen]
  generalize d.symSeen u p freq drift = s at *
  dsimp only
  rw [Dev.rcvOf_setRcv_same, Dev.setRcv_setRcv, he, hchain, hb, Dev.detThr_setRcv]

/-- A symbol that the furrow expects, and takes from the air. -/
theorem gives_furrowSymbol {m : Meas} {e : Dev} (ht : (d.rcvOf f).takes m = true) (hr : (d.rcvOf f).reent = none) (he : d.measure f m = e) :
    Gives (.furrowSymbol f m) ⟨d, q⟩ e := by
  refine gives_of_run rfl (exec_furrowSymbol ..) ((if_neg (by simp [ht])).trans ?_)
  simp only [hr]
  exact he

theorem gives_furrowSymbol_pre {x : List Cx} {marked b : Bool} {freq : BitVec 24} {drift : Byte} {e : Dev} (hr : (d.rcvOf f).reent = none)
    (hs : (d.rcvOf f).state = rsSYNC) (h0 : (d.rcvOf f).step = 0) (hh : (marked || d.unitBlanked f) = b)
    (he : d.preSymbol f (symQAt (d.rcvOf f).e x (d.rcvOf f).bin) b freq.toNat drift.toNat = e) : Gives (.furrowSymbol f (.preamble x marked freq drift)) ⟨d, q⟩ e :=
  gives_furrowSymbol (by simp [Rcv.takes, hs, h0]) hr (by subst hh; exact he)

theorem gives_furrowSymbol_sync {x : List Cx} {marked b : Bool} {rssi snr : BitVec 16} {pos : Nat} {freq : BitVec 24} {drift : Byte} {e : Dev}
    (hr : (d.rcvOf f).reent = none) (hs : (d.rcvOf f).state = rsSYNC) (h1 : (d.rcvOf f).step ≤ 1) (hh : (marked || d.unitBlanked f) = b)
    (he : d.syncSymbol f (symBin (d.rcvOf f).e x) (symQ (d.rcvOf f).e x) b rssi.toNat snr.toNat pos freq.toNat drift.toNat = e) :
    Gives (.furrowSymbol f (.sync x marked rssi snr pos freq drift)) ⟨d, q⟩ e :=
  gives_furrowSymbol (by simp [Rcv.takes, hs, h1]) hr (by subst hh; exact he)

theorem gives_furrowSymbol_down {x : List Cx} {marked b : Bool} {freq : BitVec 24} {drift : Byte} {e : Dev} (hr : (d.rcvOf f).reent = none)
    (hs : (d.rcvOf f).state = rsSYNC) (h2 : (d.rcvOf f).step = 2) (hh : (marked || d.unitBlanked f) = b)
    (he : d.downSymbol f (downQ (d.rcvOf f).e x) b freq.toNat drift.toNat = e) : Gives (.furrowSymbol f (.down x marked freq drift)) ⟨d, q⟩ e :=
  gives_furrowSymbol (by simp [Rcv.takes, hs, h2]) hr (by subst hh; exact he)

end

/-- Settles O13. -/
theorem demodulators : Obligations.Demodulators := by
  unfold Obligations.Demodulators
  refine ⟨fun d q f x pos marked rssi snr freq size drift y n => ?_, fun d q m w marked rssi snr foff h r1 r2 x drift => ?_⟩
  · intro r hidden seen p s v pre sync down
    refine ⟨fun k => d.symSeen_moves f k freq.toNat drift.toNat, fun hr => ⟨fun hs h0 => ⟨fun hh => ?_, fun hh hp hl => ?_, fun hh hp hw hl => ?_, fun hh h => ?_⟩,
      fun hs h1 hh => ?_, fun hs h0 hh => ⟨fun h => ?_, fun h => ?_⟩, fun hs h1 hh => ⟨fun h => ?_, fun h => ?_⟩, fun hs h2 hh => ?_, fun hs h2 hh => ⟨fun h => ?_, fun h => ?_⟩, fun h => ?_⟩,
      fun hr ht hn => ?_, fun z hr ht hz => ?_, fun ht => ?_, by simp [Rcv.takes], by simp [Rcv.takes], by simp [Rcv.takes], by simp [Rcv.takes]⟩
    · exact gives_furrowSymbol_pre hr hs h0 hh (if_pos rfl)
    · refine gives_furrowSymbol_pre hr hs h0 hh (Dev.preSymbol_seen.trans ?_)
      dsimp only
      rw [if_neg (Nat.not_lt.mpr hp)]
      exact if_neg (not_or.mpr ⟨by decide, Nat.not_lt.mpr hl⟩)
    · refine gives_furrowSymbol_pre hr hs h0 hh (Dev.preSymbol_seen.trans ?_)
      dsimp only
      rw [if_pos hp, hw]
      exact if_neg (not_or.mpr ⟨by decide, Nat.not_lt.mpr hl⟩)
    · refine gives_furrowSymbol_pre hr hs h0 hh (Dev.preSymbol_seen.trans ?_)
      refine if_pos (h.imp (fun hw => ?_) Nat.lt_succ_of_le)
      rw [if_pos hw.1]
      exact Nat.succ_le_succ hw.2
    · exact gives_furrowSymbol_sync hr hs h1 hh (if_pos rfl)
    · exact gives_furrowSymbol_sync hr hs (Nat.le_trans (Nat.le_of_eq h0) (Nat.zero_le 1)) hh ((Dev.syncSymbol_seen hr).trans ((if_pos h0).trans (if_pos h)))
    · exact gives_furrowSymbol_sync hr hs (Nat.le_trans (Nat.le_of_eq h0) (Nat.zero_le 1)) hh ((Dev.syncSymbol_seen hr).trans ((if_pos h0).trans (if_neg (Bool.not_eq_true _ ▸ h))))
    · exact gives_furrowSymbol_sync hr hs (Nat.le_of_eq h1) hh ((Dev.syncSymbol_seen hr).trans ((if_neg (h1 ▸ Nat.one_ne_zero)).trans (if_pos h)))
    · exact gives_furrowSymbol_sync hr hs (Nat.le_of_eq h1) hh ((Dev.syncSymbol_seen hr).trans ((if_neg (h1 ▸ Nat.one_ne_zero)).trans (if_neg (Bool.not_eq_true _ ▸ h))))
    · exact gives_furrowSymbol_down hr hs h2 hh (if_pos rfl)
    · exact gives_furrowSymbol_down hr hs h2 hh (Dev.downSymbol_seen.trans (if_pos h))
    · exact gives_furrowSymbol_down hr hs h2 hh (Dev.downSymbol_seen.trans (if_neg (Bool.not_eq_true _ ▸ h)))
    · exact gives_furrowSymbol (by simp [Rcv.takes, r] at h ⊢; exact h) hr rfl
    · refine gives_of_run rfl (exec_furrowSymbol ..) ((if_neg (by rw [ht]; decide)).trans ?_)
      simp only [hr, hn, r]
    · refine gives_of_run rfl (exec_furrowSymbol ..) ((if_neg (by rw [ht]; decide)).trans ?_)
      simp only [hr, hz, r]
    · exact gives_of_run rfl (exec_furrowSymbol ..) (if_pos (by rw [ht]; rfl))
  · intro u c stat trained pass
    refine ⟨fun hen htap hrx hrest hth => ⟨fun h0 => ?_, fun h0 => ?_⟩, fun h => ?_, fun hs => ⟨fun hp => ?_, fun hp => ?_, ?_⟩, fun hs => ?_, fun hs => ?_⟩
    · exact gives_of_run rfl (exec_mcTraining ..) ((if_pos (by rw [hen, htap, hrx, hrest, hth]; rfl)).trans (if_pos h0))
    · exact gives_of_run rfl (exec_mcTraining ..) ((if_pos (by rw [hen, htap, hrx, hrest, hth]; rfl)).trans (if_neg h0))
    · refine gives_of_run rfl (exec_mcTraining ..) (if_neg ?_)
      rcases h with h | h | h <;> rw [h] <;> simp
    · exact gives_of_run rfl (exec_mcSymbol ..) ((if_pos hs).trans (if_pos hp))
    · exact gives_of_run rfl (exec_mcSymbol ..) ((if_pos hs).trans (if_neg (Bool.not_eq_true _ ▸ hp)))
    · exact gives_of_run rfl (exec_mcSymbol ..) (if_neg (by rw [hs]; decide))
    · exact gives_of_run rfl (exec_mcSymbol ..) (if_neg hs)
    · exact gives_of_run rfl (exec_mcSymbol ..) (if_pos hs)

end Sys2Proof.Machine
end

section
/-! Receive units and the decoder pool (R132 to R156). -/

namespace Sys2Proof.Machine

/-! ### Receive units and the decoder pool -/

section
variable {d : Dev} {q : List Instr} {h mw blk : Nat}

/-- A reservation that fits is made (R40). -/
theorem Dev.requestResv_fits (hf : d.resvFits h mw = true) : d.requestResv h mw blk = (true, d.setResv h mw) := if_pos hf

/-- A reservation that does not fit is refused (R40). -/
theorem Dev.requestResv_refused (hf : d.resvFits h mw = false) : d.requestResv h mw blk = (false, d.refuseResv blk) := if_neg (by simp [hf])

/-- A write of MCX_CTL ends with EN as written. -/
theorem Dev.get_mcxWrite_en (d : Dev) (m : Nat) (w : Word) : (d.mcxWrite m w).get (MCX_CTL m) MCX_CTL_EN = getF w MCX_CTL_EN := by
  unfold Dev.mcxWrite
  dsimp only
  rw [Dev.get_put_same _ _ _ _ (by decide) (by decide)]
  exact Nat.mod_eq_of_lt (getF_lt _ _)

/-- A grant of the same cycle takes the block `b` from the queue (R153). -/
theorem arrives_grant_iff {b : Blk} : (State.arrives ⟨d, q⟩ (· == .decoderGrant) && !(d.grantCycle.decQ.contains b)) = true ↔
    Instr.decoderGrant ∈ q ∧ b ∉ d.grantCycle.decQ := by
  rw [arrives_beq]
  simp

end

/-- Settles O14. -/
theorem unitsAndDecoding : Obligations.UnitsAndDecoding := by
  unfold Obligations.UnitsAndDecoding
  refine ⟨fun d q c u f m v => ⟨fun h => ?_, fun h => ?_, fun hs he => ⟨fun h => ?_, fun h => ?_⟩, fun h => ⟨?_, ?_⟩, fun hs he hb => ?_, fun hs he hb => ?_,
    fun ho => ⟨fun h => ?_, fun h => ?_, ?_⟩, fun ho => ⟨?_, ?_, ?_, fun w => d.get_mcxWrite_en m w⟩⟩,
    fun d q c k u hdr n j b => ⟨fun h => ?_, fun h => ?_, fun h => ?_, fun h => ?_, fun hb => ⟨fun hw hg => ?_, fun hg => ?_⟩, fun hb => ?_,
    fun ho => ⟨fun hp hf => ?_, fun hp hf => ?_, fun hp => ?_, fun hp => ?_, fun hp => ?_⟩⟩⟩
  · exact gives_of_run rfl (exec_reclaimComplete ..) (if_pos h)
  · exact gives_of_run rfl (exec_reclaimComplete ..) (if_neg h)
  · exact gives_of_run rfl (exec_earlyVerdict ..) ((if_pos ⟨hs, by rw [he]; rfl⟩).trans (if_pos h))
  · exact gives_of_run rfl (exec_earlyVerdict ..) ((if_pos ⟨hs, by rw [he]; rfl⟩).trans (if_neg (by simp [h])))
  · exact gives_of_run rfl (exec_earlyVerdict ..) (if_neg fun hn => h hn.1)
  · exact gives_of_run rfl (exec_addressFilter ..) (if_neg fun hn => h hn.1)
  · intro code hc
    exact gives_of_run rfl (exec_addressFilter ..) ((if_pos ⟨hs, he, hb⟩).trans (if_pos hc))
  · exact gives_of_run rfl (exec_addressFilter ..) (if_pos ⟨hs, he, hb⟩)
  · exact gives_of_askCore rfl ho (exec_furrowRelease ..) (if_pos h)
  · exact gives_of_askCore rfl ho (exec_furrowRelease ..) (if_neg h)
  · exact gives_of_askCore rfl ho (exec_furrowAbort ..) rfl
  · exact gives_of_askCore rfl ho (exec_mcxRelease ..) rfl
  · exact gives_of_askCore rfl ho (exec_mcxAbort ..) rfl
  · exact gives_of_askCore rfl ho (exec_mcxEnable ..) rfl
  · exact gives_of_run rfl (exec_decoderGrant ..) (if_pos h)
  · exact gives_of_run rfl (exec_decoderGrant ..) (if_neg (by simp [h]))
  · refine gives_of_run rfl (exec_blockDecoded ..) ?_
    simp only [h]
  · intro e
    refine ⟨fun hl => gives_of_run rfl (exec_blockDecoded ..) ?_, fun hl => gives_of_run rfl (exec_blockDecoded ..) ?_⟩
    · simp only [h, hl, if_true]
      rfl
    · simp only [h, hl, Bool.false_eq_true, if_false]
      rfl
  · refine gives_of_run rfl (exec_blockExpire ..) ?_
    simp only [hb]
    refine if_neg (not_or.mpr ⟨hw, fun ha => ?_⟩)
    obtain ⟨hin, hout⟩ := arrives_grant_iff.mp ha
    exact hg.elim (· hin) hout
  · refine gives_of_run rfl (exec_blockExpire ..) ?_
    simp only [hb]
    exact if_pos (hg.imp_right arrives_grant_iff.mpr)
  · refine gives_of_run rfl (exec_blockExpire ..) ?_
    simp only [hb]
  · refine gives_of_askCore rfl ho (exec_poolOn ..) ((if_neg (by simp [hp])).trans ?_)
    rw [Dev.requestResv_fits hf]
    rfl
  · refine gives_of_askCore rfl ho (exec_poolOn ..) ((if_neg (by simp [hp])).trans ?_)
    rw [Dev.requestResv_refused hf]
    rfl
  · exact gives_of_askCore rfl ho (exec_poolOn ..) (if_pos hp)
  · exact gives_of_askCore rfl ho (exec_poolOff ..) (if_pos hp)
  · exact gives_of_askCore rfl ho (exec_poolOff ..) (if_neg (by simp [hp]))

end Sys2Proof.Machine
end

section
/-! The unwinding engine (R161 to R169, R172). -/

namespace Sys2Proof.Machine

/-- The unwinding engine is on; slot 0 replays into furrow 0, whose tally names a decoder 16,368: the counter of the blocks of that decoder would lie at
the address of UNW_CTL. -/
def tallyStrays : Dev :=
  { (Dev.reset.setReg SYS_CORESTAT 0x01111111).put UNW_CTL UNW_CTL_ON 1 with
    pwr := { PowerSt.init with phase := .running, pins := .sown, brownOut := false }
    clk := { ClockSt.init with rootUp := true }
    romHidden := true
    slots := [(0, { Slot.init with state := 4, furR := some 0 })]
    rcv := [(0, { Rcv.init with state := rsCOMMITTED, reent := some 0, tally := [(16368, 0, true)] })] }

/-- Whether the engine is on in the next state, where the command answers one. -/
def unwindNext (i : Instr) (s : State) : Option Bool :=
  match exec i s with
  | .next t => some (t.dev.flag UNW_CTL UNW_CTL_ON)
  | _ => none

theorem tallyStrays_open : BusOpen ⟨tallyStrays, []⟩ 0 UNW_CTL true := by
  delta BusOpen
  decide +kernel

theorem tallyStrays_on : tallyStrays.flag UNW_CTL UNW_CTL_ON = true := by decide +kernel

theorem tallyStrays_stays : unwindNext (.unwindOff 0) ⟨tallyStrays, []⟩ = some true := by decide +kernel

/-- Refutes O15: the statement speaks of every state of the device, also of one whose tally of returned blocks (R156) names a decoder that does not
exist. As the engine goes off, the replay of its slot is aborted and its tally counted, and the counter of that decoder's blocks is UNW_CTL itself. -/
theorem not_unwinding : ¬ Obligations.Unwinding := by
  unfold Obligations.Unwinding
  intro h
  obtain ⟨_, _, _, _, _, _, _, _, _, _, _, _, _, _, _, hctl⟩ := h tallyStrays [] 0 0 0 [] 0 0 0
  obtain ⟨_, _, _, hoff, _⟩ := hctl tallyStrays_open
  obtain ⟨t, hexec, _, _, hflag⟩ := hoff tallyStrays_on (.inr rfl)
  have hnext := tallyStrays_stays
  rw [unwindNext, hexec] at hnext
  exact absurd (Option.some.inj hnext) (by rw [hflag]; decide)

end Sys2Proof.Machine
end

section
/-! Entries of the synthesiser table that are measured again (R384). -/

namespace Sys2Proof.Machine

/-- The cores run, and entry 0 of the synthesiser table is VALID while its frequency is marked BAD. -/
def badEntry : Dev :=
  { (Dev.reset.setReg SYS_CORESTAT 0x01111111).setReg (SYN_CALF 0 0) (mkWord [(SYN_CALF_VALID, 1), (SYN_CALF_BAD, 1)]) with
    pwr := { PowerSt.init with phase := .running, pins := .sown, brownOut := false }
    clk := { ClockSt.init with rootUp := true }
    romHidden := true }

/-- The entries queued for measurement in the next state, where the command answers one. -/
def queuedNext (i : Instr) (s : State) : Option (List Nat) :=
  match exec i s with
  | .next t => some t.dev.calQ
  | _ => none

theorem badEntry_open : BusOpen ⟨badEntry, []⟩ 0 CAL_CMD true := by
  delta BusOpen
  decide +kernel

theorem badEntry_valid : badEntry.flag (SYN_CALF 0 0) SYN_CALF_VALID = true := by decide +kernel

theorem badEntry_left : queuedNext (.recal 0 0) ⟨badEntry, []⟩ = some [] := by decide +kernel

/-- Refutes O51: RECAL passes over an entry that is marked BAD (R384), also where it is VALID. The statement says that every VALID entry is queued. -/
theorem not_calibration : ¬ Obligations.Calibration := by
  unfold Obligations.Calibration
  intro ⟨_, h⟩
  obtain ⟨_, _, _, _, _, _, _, _, hcmd⟩ := h badEntry [] 0 0 0 0
  obtain ⟨_, _, _, hrecal⟩ := hcmd badEntry_open
  obtain ⟨t, hexec, _, hqueued⟩ := hrecal (.inr rfl)
  have hnext := badEntry_left
  rw [queuedNext, hexec] at hnext
  have hin := hqueued 0 (by decide) badEntry_valid
  rw [Option.some.inj hnext] at hin
  exact List.not_mem_nil hin

end Sys2Proof.Machine
end

section
/-! Image transfers (R413, R417, R419). -/

namespace Sys2Proof.Machine

section
variable {d e : Dev} {q : List Instr} {i : Instr} {typ : Nat} {tag : Byte} {p : List Byte} {g : OzGate} {f : Dev → Nat × List Byte × Dev} {len : Bool}

/-- A request that passes all doors answers what its command makes (R407, R411). -/
theorem gives_ozReq_open (hon : d.portOn = true) (hwork : d.rests 14 = false) (hg : d.ozOpen g = true) (hr : rootFree i = false) (hlen : len = true)
    (h : exec i ⟨d, q⟩ = State.run ⟨d, q⟩ fun d => d.ozReq typ tag len g f) (he : (f d).2.2.ozSend typ tag (f d).1 (f d).2.1 = e) : Gives i ⟨d, q⟩ e := by
  subst he
  refine gives_of_run hr h ?_
  unfold Dev.ozReq
  dsimp only
  rw [if_neg (by simp [hon]), if_neg (by simp [hwork]), if_neg (by simp [hlen]), if_neg (by simp [hg])]

end

/-! ### The transfer of an image (R413) -/

section
variable (d : Dev) (x : Xfer)

theorem Dev.setXfer_svc (y : Option Xfer) : (d.setXfer y).svc = { d.svc with xfer := y } := rfl

theorem Dev.setXfer_same (y : Option Xfer) : Dev.SameBut [SVC_STAT] d (d.setXfer y) :=
  ((Dev.SameBut.refl d).congr rfl rfl rfl rfl : Dev.SameBut [SVC_STAT] d { d with svc := { d.svc with xfer := y } }).put (by simp) _ _

theorem Dev.flag_setXfer (y : Option Xfer) : (d.setXfer y).flag SVC_STAT SVC_STAT_XFER = y.isSome := Dev.flag_putB _ _ _ (by decide) (by decide)

theorem Dev.engBegin_svc (b : Nat) : (d.engBegin b).svc = d.svc := rfl

/-- The transfer stands as given, but that programming may have begun. -/
theorem Dev.xferGo_svc : ∃ y, (d.xferGo x).svc = { d.svc with xfer := some { x with began := y } } := by
  unfold Dev.xferGo
  split
  · exact ⟨x.began, rfl⟩
  · exact ⟨true, by rw [Dev.engBegin_svc, Dev.setXfer_svc]⟩

theorem Dev.xferGo_same : Dev.SameBut [SVC_STAT, FLC_STAT x.slot] d (d.xferGo x) := by
  unfold Dev.xferGo
  split
  · exact (d.setXfer_same _).mono (by simp)
  · exact ((d.setXfer_same _).mono (by simp)).trans ((Dev.engBegin_same _ x.slot).mono (by simp))

theorem Dev.keepXfer_going (h : ¬ (x.done = x.len ∧ !x.failed)) : d.keepXfer x = d.xferGo x := if_neg h

theorem Dev.keepXfer_svc : (d.keepXfer x).svc = { d.svc with xfer := none } ∨ ∃ y, (d.keepXfer x).svc = { d.svc with xfer := some { x with began := y } } := by
  unfold Dev.keepXfer
  split
  · exact .inl rfl
  · exact .inr (d.xferGo_svc x)

/-- A transfer that has just been opened takes its data. -/
theorem Dev.keepXfer_opened {slot len : Nat} (h : 0 < len) :
    d.keepXfer ⟨slot, len, 0, 0, false, [], false⟩ = d.setXfer (some ⟨slot, len, 0, 0, false, [], false⟩) :=
  (d.keepXfer_going _ fun hn => (Nat.ne_of_lt h) hn.1).trans (if_pos rfl)

/-- What reads neither the bytes of memory nor their check bits. -/
theorem Dev.setBytes_frame {α : Type} {g : Dev → α} (hset : ∀ (d : Dev) (a : Nat) (b : Byte), g (d.setByte a b) = g d) (herr : ∀ (d : Dev) m, g { d with memErr := m } = g d)
    (d : Dev) (a : Nat) (l : List Byte) : g (d.setBytes a l) = g d := by
  have hput : ∀ (l : List Byte) (d : Dev) (a : Nat), g (d.putBytes a l) = g d := by
    intro l
    induction l with
    | nil => exact fun _ _ => rfl
    | cons b r ih => exact fun d a => (ih _ _).trans (hset d _ _)
  refine Eq.trans ?_ (hput l d a)
  unfold Dev.setBytes Dev.eccClear
  split
  · rfl
  · exact herr _ _

theorem Dev.progVerify_svc (a : Nat) (b : List Byte) (ok : Bool) : (d.progVerify a b ok).svc = d.svc := by
  have hword : (d.progWord a b ok).svc = d.svc := Dev.setBytes_frame (g := fun d => d.svc) (fun _ _ _ => rfl) (fun _ _ => rfl) d a b
  unfold Dev.progVerify
  dsimp only
  split
  · exact hword
  · rw [Dev.count_svc, hword]

/-- The words of a buffer move DONE alone, or end the transfer as failed. -/
theorem Dev.xferWords_keeps (erased : Bool) : ∀ (n : Nat) (d : Dev) (x : Xfer) (good off : Nat) (data : List Byte),
    (d.xferWords x erased good off data n).2.svc = d.svc ∧ (d.xferWords x erased good off data n).1.bufs = x.bufs ∧
    (d.xferWords x erased good off data n).1.next = x.next ∧ (d.xferWords x erased good off data n).1.slot = x.slot := by
  intro n
  induction n with
  | zero => exact fun d x good off data => ⟨rfl, rfl, rfl, rfl⟩
  | succ n ih =>
    intro d x good off data
    have hsector : (if off % 4096 = 0 then d.eraseSector (imgBase x.slot + off) else d).svc = d.svc := by split <;> rfl
    unfold Dev.xferWords
    dsimp only
    split
    · exact ⟨by rw [Dev.count_svc, hsector], rfl, rfl, rfl⟩
    · split
      · exact ⟨by rw [Dev.progVerify_svc, hsector], rfl, rfl, rfl⟩
      · obtain ⟨hsvc, hbufs, hnext, hslot⟩ := ih (Dev.progVerify (if off % 4096 = 0 then d.eraseSector (imgBase x.slot + off) else d) (imgBase x.slot + off) (data.take 16)
          (decide (0 < good))) { x with done := off + 16 } (good - 1) (off + 16) (data.drop 16)
        exact ⟨by rw [hsvc, Dev.progVerify_svc, hsector], hbufs, hnext, hslot⟩

/-- Where no word verifies, the transfer fails where it stands. -/
theorem Dev.xferWords_fails (erased : Bool) (off n : Nat) (data : List Byte) : (d.xferWords x erased 0 off data (n + 1)).1 = { x with failed := true } := by
  unfold Dev.xferWords
  dsimp only
  split
  · rfl
  · rw [if_pos rfl]

end

section
variable {d : Dev} {q : List Instr} {tag : Byte} {p : List Byte} {x : Xfer} {b : Nat × List Byte} {r : List (Nat × List Byte)} {er : Bool} {good : Nat}

theorem Dev.unchecked_openJudge (d : Dev) (n s l : Nat) : (d.unchecked n).openJudge s l = d.openJudge s l := rfl

/-- An OPEN that is judged sound erases the slot's state sector and begins a transfer (R413). -/
theorem Dev.ozOpenXfer_begins (hj : d.openJudge (u8 p 0) (u32 p 2) = none) (hres : (u8 p 1).testBit 0 = false) (h0 : 0 < u32 p 2) :
    d.ozOpenXfer p true = (ssOK, (⟨u8 p 0, u32 p 2, 0, 0, false, [], false⟩ : Xfer).data,
      (((d.unchecked (u8 p 0)).setXfer none).eraseSector (stateSector (u8 p 0))).setXfer (some ⟨u8 p 0, u32 p 2, 0, 0, false, [], false⟩)) := by
  unfold Dev.ozOpenXfer
  simp only [Dev.unchecked_openJudge, hj, hres, Bool.false_eq_true, if_false, if_true, Bool.not_true, Dev.keepXfer_opened _ h0]

/-- An OPEN that is refused answers its first failure. -/
theorem Dev.ozOpenXfer_refused {ok : Bool} {res : Nat} (hj : d.openJudge (u8 p 0) (u32 p 2) = some res) : d.ozOpenXfer p ok = (res, [], d.unchecked (u8 p 0)) := by
  unfold Dev.ozOpenXfer
  simp only [Dev.unchecked_openJudge, hj]

section
variable {off : Nat} {data : List Byte} (hx : d.svc.xfer = some x) (hf : x.failed = false) (hin : off + data.length ≤ x.len)
include hx hf hin

/-- A burst before the end of the last one was taken already. -/
theorem Dev.ozBurst_old (h : off < x.next) : d.ozBurst off data = (ssOK, x.data, d) := by
  unfold Dev.ozBurst
  simp only [hx]
  rw [if_neg (by simp [hf]), if_neg (Nat.not_lt.mpr hin), if_pos h]

theorem Dev.ozBurst_gap (h : x.next < off) : d.ozBurst off data = (ssGAP, [], d) := by
  unfold Dev.ozBurst
  simp only [hx]
  rw [if_neg (by simp [hf]), if_neg (Nat.not_lt.mpr hin), if_neg (Nat.lt_asymm h), if_pos h]

theorem Dev.ozBurst_full (h : x.next = off) (hb : 2 ≤ x.bufs.length) : d.ozBurst off data = (ssWAIT, [], d.count (SVC_CNT 1)) := by
  unfold Dev.ozBurst
  simp only [hx]
  rw [if_neg (by simp [hf]), if_neg (Nat.not_lt.mpr hin), if_neg (by omega), if_neg (by omega), if_pos hb]

theorem Dev.ozBurst_taken (h : x.next = off) (hb : x.bufs.length < 2) (hs : d.flag PWR_SUPPLY PWR_SUPPLY_SLOW = false) :
    d.ozBurst off data = (ssOK, ({ x with next := x.next + data.length, bufs := x.bufs ++ [(off, data)] } : Xfer).data,
      d.xferGo { x with next := x.next + data.length, bufs := x.bufs ++ [(off, data)] }) := by
  unfold Dev.ozBurst
  simp only [hx]
  rw [if_neg (by simp [hf]), if_neg (Nat.not_lt.mpr hin), if_neg (by omega), if_neg (by omega), if_neg (by omega), if_neg (by simp [hs])]

end

/-- A command of an image is accepted where none is under way. -/
theorem Dev.ozAccept_free {typ : Nat} (hoz : d.svc.oz = none) (hcmd : d.svc.cmd = none) :
    d.ozAccept typ p true = (ssACCEPTED, [], { d with svc := { d.svc with oz := some (typ, p) } }) := by
  unfold Dev.ozAccept
  rw [if_neg (by simp [hoz, hcmd])]

/-- Programming ends: the oldest buffer leaves, and the transfer goes on with what its words made of it. -/
theorem exec_transferProgramEnd_works (hx : d.svc.xfer = some x) (hb : x.bufs = b :: r) (hf : x.failed = false) (hiso : d.pwr.flIso = false)
    (hgo : x.began = true ∨ (d.mayProg = true ∧ d.bankBusy x.slot = false)) :
    Gives (.transferProgramEnd er good) ⟨d, q⟩
      ((((d.when x.began (fun d => d.engEnd x.slot)).unchecked x.slot).xferWords { x with bufs := r, began := false } er good b.1 b.2 (b.2.length / 16)).2.keepXfer
        (((d.when x.began (fun d => d.engEnd x.slot)).unchecked x.slot).xferWords { x with bufs := r, began := false } er good b.1 b.2 (b.2.length / 16)).1) := by
  refine gives_of_run rfl (exec_transferProgramEnd ..) ?_
  simp only [hx, hb]
  refine if_neg ?_
  rcases hgo with h | ⟨h, h'⟩ <;> simp [*]

theorem Dev.cell_ozSend (d : Dev) (typ st : Nat) (l : List Byte) (y : Nat) : (d.ozSend typ tag st l).cell y = d.cell y := rfl

theorem Dev.cell_setXfer (d : Dev) (x : Option Xfer) (y : Nat) : (d.setXfer x).cell y = d.cell y := rfl

theorem Dev.cell_unchecked (d : Dev) (n y : Nat) : (d.unchecked n).cell y = d.cell y := rfl

/-- An OPEN begins a transfer, and the slot's state sector alone is erased. -/
theorem after_openXfer (hon : d.portOn = true) (hwork : d.rests 14 = false) (hg : d.ozOpen .image = true) (hlen : p.length = 6)
    (hj : d.openJudge (u8 p 0) (u32 p 2) = none) (hres : (u8 p 1).testBit 0 = false) (h0 : 0 < u32 p 2) : After (.openXfer tag p true) ⟨d, q⟩ fun e =>
      e.svc.xfer = some ⟨u8 p 0, u32 p 2, 0, 0, false, [], false⟩ ∧ u8 p 0 ∉ e.svc.checked ∧ e.flag SVC_STAT SVC_STAT_XFER = true ∧
      (∀ y, inSector (stateSector (u8 p 0)) y = true → e.cell y = memDflt y) ∧ (∀ y, inSector (stateSector (u8 p 0)) y = false → e.cell y = d.cell y) := by
  refine after_of (gives_ozReq_open hon hwork hg rfl (by simp [hlen]) (exec_openXfer ..) (by rw [Dev.ozOpenXfer_begins hj hres h0])) ?_
  dsimp only
  generalize ({ slot := u8 p 0, len := u32 p 2, next := 0, done := 0, failed := false, bufs := [], began := false } : Xfer) = x
  generalize stateSector (u8 p 0) = a
  refine ⟨rfl, fun hm => ?_, Dev.flag_setXfer _ _, fun y hy => ?_, fun y hy => ?_⟩
  · have hm' : u8 p 0 ∈ d.svc.checked.filter (· ≠ u8 p 0) := hm
    simp at hm'
  · rw [inSector, decide_eq_true_iff] at hy
    rw [Dev.cell_settle, Dev.wakeBy_cell, Dev.cell_ozSend, Dev.cell_setXfer, Dev.cell_eraseSector, if_pos hy]
  · rw [inSector, decide_eq_false_iff_not] at hy
    rw [Dev.cell_settle, Dev.wakeBy_cell, Dev.cell_ozSend, Dev.cell_setXfer, Dev.cell_eraseSector, if_neg hy, Dev.cell_setXfer, Dev.cell_unchecked]

/-- A burst that is taken joins the transfer, whose programming may begin. -/
theorem after_burst_taken (hon : d.portOn = true) (hwork : d.rests 14 = false) (hg : d.ozOpen .image = true)
    (hlen : decide (20 ≤ p.length ∧ p.length ≤ 4100 ∧ p.length % 16 = 4) = true) (hx : d.svc.xfer = some x) (hf : x.failed = false)
    (hin : u32 p 0 + (p.drop 4).length ≤ x.len) (ho : x.next = u32 p 0) (hb : x.bufs.length < 2) (hs : d.flag PWR_SUPPLY PWR_SUPPLY_SLOW = false) :
    After (.burst tag p) ⟨d, q⟩ fun e =>
      (∃ y, e.svc.xfer = some { x with next := x.next + (p.drop 4).length, bufs := x.bufs ++ [(u32 p 0, p.drop 4)], began := y }) ∧ e.cores = d.cores ∧ ∀ y, e.byte y = d.byte y := by
  refine after_of (gives_ozReq_open hon hwork hg rfl hlen (exec_burst ..) (by rw [Dev.ozBurst_taken hx hf hin ho hb hs])) ?_
  dsimp only
  generalize hz : ({ x with next := x.next + (p.drop 4).length, bufs := x.bufs ++ [(u32 p 0, p.drop 4)] } : Xfer) = z
  obtain ⟨y, hsvc⟩ := d.xferGo_svc z
  have hsame := d.xferGo_same z
  have hxfer : ∀ e : Dev, (d.wakeBy (e.ozSend ozBURST tag ssOK z.data)).settle.svc.xfer = e.svc.xfer := fun _ => rfl
  have hcores : ∀ e : Dev, (d.wakeBy (e.ozSend ozBURST tag ssOK z.data)).settle.cores = e.cores := fun _ => rfl
  refine ⟨⟨y, (hxfer _).trans ((congrArg (·.xfer) hsvc).trans (by subst hz; rfl))⟩, (hcores _).trans hsame.cores, fun w => ?_⟩
  rw [Dev.byte_settle, Dev.wakeBy_byte, Dev.byte_ozSend]
  exact hsame.byte (by simp [FLC_STAT, FLC_BOOT, SVC_STAT]; omega) w

theorem after_transferProgramEnd (hx : d.svc.xfer = some x) (hb : x.bufs = b :: r) (hf : x.failed = false) (hiso : d.pwr.flIso = false)
    (hgo : x.began = true ∨ (d.mayProg = true ∧ d.bankBusy x.slot = false)) : After (.transferProgramEnd er good) ⟨d, q⟩ fun e =>
      x.slot ∉ e.svc.checked ∧ (∀ y, e.svc.xfer = some y → y.bufs = r ∧ y.next = x.next ∧ y.slot = x.slot) ∧
      (good = 0 → 16 ≤ b.2.length → ∃ y, e.svc.xfer = some y ∧ y.failed = true ∧ y.done = x.done) := by
  refine after_of (exec_transferProgramEnd_works hx hb hf hiso hgo) ?_
  have hsvc : ((d.when x.began (fun d => d.engEnd x.slot)).unchecked x.slot).svc = { d.svc with checked := d.svc.checked.filter (· ≠ x.slot) } := by
    unfold Dev.when
    split <;> rfl
  generalize (d.when x.began (fun d => d.engEnd x.slot)).unchecked x.slot = e at *
  obtain ⟨hkept, hbufs, hnext, hslot⟩ := Dev.xferWords_keeps er (b.2.length / 16) e { x with bufs := r, began := false } good b.1 b.2
  have hfails : good = 0 → 16 ≤ b.2.length → (e.xferWords { x with bufs := r, began := false } er good b.1 b.2 (b.2.length / 16)).1 = { x with bufs := r, began := false, failed := true } := by
    rintro rfl h16
    obtain ⟨n, hn⟩ := Nat.exists_eq_succ_of_ne_zero (Nat.ne_of_gt (Nat.div_pos h16 (by decide)))
    rw [hn]
    exact e.xferWords_fails _ er b.1 n b.2
  generalize e.xferWords { x with bufs := r, began := false } er good b.1 b.2 (b.2.length / 16) = w at *
  have hend : ∀ P : SvcSt → Prop, P (w.2.keepXfer w.1).svc → P (d.wakeBy (w.2.keepXfer w.1)).settle.svc := fun P h => h
  rw [hsvc] at hkept
  refine hend (fun s => x.slot ∉ s.checked ∧ (∀ y, s.xfer = some y → y.bufs = r ∧ y.next = x.next ∧ y.slot = x.slot) ∧
    (good = 0 → 16 ≤ b.2.length → ∃ y, s.xfer = some y ∧ y.failed = true ∧ y.done = x.done)) ⟨?_, ?_, fun hgood h16 => ?_⟩
  · rcases w.2.keepXfer_svc w.1 with h | ⟨y, h⟩ <;> rw [h, hkept] <;> simp
  · rcases w.2.keepXfer_svc w.1 with h | ⟨y, h⟩ <;> rw [h]
    · exact fun y hy => absurd hy (by simp)
    · rintro z hz
      obtain rfl := Option.some.inj hz
      exact ⟨hbufs, hnext, hslot⟩
  · have hw := hfails hgood h16
    rw [Dev.keepXfer_going _ _ (by rw [hw]; simp)]
    obtain ⟨y, h⟩ := w.2.xferGo_svc w.1
    rw [h, hw]
    exact ⟨_, rfl, rfl, rfl⟩

/-- A judged image is checked exactly when its check passes (R417). -/
theorem Dev.imgJudge_busy {n : Nat} (h : d.bankBusy n = true) : d.imgJudge n = (ssBUSY, d) := if_pos h

theorem Dev.imgJudge_free {n : Nat} (h : d.bankBusy n = false) : (d.imgJudge n).1 = d.imgCheck n ∧ (n ∈ (d.imgJudge n).2.svc.checked ↔ d.imgCheck n = 0) := by
  unfold Dev.imgJudge
  dsimp only
  rw [if_neg (by simp [h])]
  refine ⟨rfl, ?_⟩
  dsimp only
  split
  next h => exact ⟨fun _ => h, fun _ => by simp⟩
  next h => exact ⟨fun hm => absurd hm (by simp), fun h' => absurd h' h⟩

/-- The end of CHECK shows what its judgement found. -/
theorem Dev.ozEnd_check {outs : List Bool} (hoz : d.svc.oz = some (0x12, p)) : d.ozEnd outs =
    { (d.imgJudge (u8 p 0)).2 with svc := { (d.imgJudge (u8 p 0)).2.svc with oz := none, last := (0x12, (d.imgJudge (u8 p 0)).1) } } := by
  unfold Dev.ozEnd
  simp only [hoz]
  rfl

theorem Dev.ozEnd_try {ok : Bool} (hoz : d.svc.oz = some (0x13, p)) : d.ozEnd [ok] =
    { (d.tryEnd (u8 p 0) ok).2 with svc := { (d.tryEnd (u8 p 0) ok).2.svc with oz := none, last := (0x13, (d.tryEnd (u8 p 0) ok).1) } } := by
  unfold Dev.ozEnd
  simp only [hoz]
  rfl

section
variable {n : Nat} {ok : Bool}

theorem Dev.tryEnd_running (h : d.get SVC_IMG SVC_IMG_RUNNING = n) : (d.tryEnd n ok).1 = 0x13 := by
  unfold Dev.tryEnd
  rw [if_pos h]
  rfl

theorem Dev.tryEnd_unchecked (h : d.get SVC_IMG SVC_IMG_RUNNING ≠ n) (hc : n ∉ d.svc.checked) : (d.tryEnd n ok).1 = 0x17 := by
  unfold Dev.tryEnd
  rw [if_neg h, if_pos (by simp [hc])]
  rfl

theorem Dev.tryEnd_tries (h : d.get SVC_IMG SVC_IMG_RUNNING ≠ n) (hc : n ∈ d.svc.checked) (hfree : d.bankBusy n = false)
    (hs : d.flag PWR_SUPPLY PWR_SUPPLY_SLOW = false) : (d.tryEnd n ok).1 = if ok then 0x00 else 0x09 := by
  unfold Dev.tryEnd
  rw [if_neg h, if_neg (by simp [hc]), if_neg (by simp [hfree]), if_neg (by simp [hs])]
  rfl

end

end

/-- Settles O54. -/
theorem imageTransfers : Obligations.ImageTransfers := by
  unfold Obligations.ImageTransfers
  intro d q tag p ok er good res x b r slot len off data
  refine ⟨fun hon hwork hg => ⟨fun hlen => ⟨fun hj => ?_, fun hj hres h0 => ?_⟩, fun h20 hmax h16 => ⟨fun hx => ?_, fun hx hf hin => ⟨fun ho => ?_, fun ho => ?_, fun ho hb => ?_, fun ho hb hs => ?_⟩⟩,
    fun hlen => ⟨fun hslot => ⟨?_, ?_⟩, fun hslot hoz hcmd => ⟨?_, ?_⟩⟩⟩, fun hx => ?_, fun hx h => ?_, fun hx hb hf hiso hgo => ?_, fun hoz => ?_, fun hoz => ?_⟩
  · exact gives_ozReq_open hon hwork hg rfl (by simp [hlen]) (exec_openXfer ..) (by rw [Dev.ozOpenXfer_refused hj]; rfl)
  · exact after_openXfer hon hwork hg hlen hj hres h0
  · refine gives_ozReq_open hon hwork hg rfl (by simp [h20, hmax, h16]) (exec_burst ..) ?_
    simp only [Dev.ozBurst, hx]
    rfl
  · refine gives_ozReq_open hon hwork hg rfl (by simp [h20, hmax, h16]) (exec_burst ..) ?_
    rw [Dev.ozBurst_old hx hf hin ho]
    rfl
  · refine gives_ozReq_open hon hwork hg rfl (by simp [h20, hmax, h16]) (exec_burst ..) ?_
    rw [Dev.ozBurst_gap hx hf hin ho]
    rfl
  · refine gives_ozReq_open hon hwork hg rfl (by simp [h20, hmax, h16]) (exec_burst ..) ?_
    rw [Dev.ozBurst_full hx hf hin ho hb]
    rfl
  · exact after_burst_taken hon hwork hg (by simp [h20, hmax, h16]) hx hf hin ho hb hs
  · refine gives_ozReq_open hon hwork hg rfl (by simp [hlen]) (exec_oztisCheck ..) ?_
    rw [if_pos hslot]
    rfl
  · refine gives_ozReq_open hon hwork hg rfl (by simp [hlen]) (exec_oztisTry ..) ?_
    rw [if_pos hslot]
    rfl
  · refine gives_ozReq_open hon hwork hg rfl (by simp [hlen]) (exec_oztisCheck ..) ?_
    rw [if_neg (Nat.not_lt.mpr hslot), Dev.ozAccept_free hoz hcmd]
    rfl
  · refine gives_ozReq_open hon hwork hg rfl (by simp [hlen]) (exec_oztisTry ..) ?_
    rw [if_neg (Nat.not_lt.mpr hslot), Dev.ozAccept_free hoz hcmd]
    rfl
  · refine gives_of_run rfl (exec_transferProgramEnd ..) ?_
    simp only [hx]
  · refine gives_of_run rfl (exec_transferProgramEnd ..) ?_
    simp only [hx]
    cases hbufs : x.bufs with
    | nil => rfl
    | cons b r =>
      refine if_pos ?_
      rcases h with h | h | h | ⟨h, h' | h'⟩
      · exact absurd (h.symm.trans hbufs) (by simp)
      · simp [h]
      · simp [h]
      · simp [h, Dev.mayProg, h']
      · simp [h, h']
  · exact after_transferProgramEnd hx hb hf hiso hgo
  · refine after_of (gives_of_run rfl (exec_svcCommandEnd ..) rfl) ?_
    rw [if_pos rfl, Dev.ozEnd_check hoz]
    refine ⟨rfl, rfl, fun hbusy => ?_, fun hfree => ?_⟩
    · have h := Dev.imgJudge_busy hbusy
      exact ⟨congrArg (·.1) h, congrArg (·.2.svc.checked) h⟩
    · exact Dev.imgJudge_free hfree
  · refine after_of (gives_of_run rfl (exec_svcCommandEnd ..) rfl) ?_
    rw [if_pos rfl, Dev.ozEnd_try hoz]
    exact ⟨rfl, fun h => Prod.ext rfl (Dev.tryEnd_running h), fun h hc => Prod.ext rfl (Dev.tryEnd_unchecked h hc),
      fun h hc hfree hs => Prod.ext rfl (Dev.tryEnd_tries h hc hfree hs)⟩

end Sys2Proof.Machine
end

section
/-! The doors and the session of the Oztis port (R407, R409 to R411, R414). -/

namespace Sys2Proof.Machine

section
variable {d : Dev} {q : List Instr} {tag typ : Byte} {p n : List Byte}

/-! ### The doors of a request (R407, R411) -/

/-- What a request answers before it acts: nothing, WAIT, BADARG or LOCKED. -/
theorem ozReq_doors {i : Instr} {typ : Nat} {len : Bool} {g : OzGate} {f : Dev → Nat × List Byte × Dev} (hr : rootFree i = false)
    (h : exec i ⟨d, q⟩ = State.run ⟨d, q⟩ fun d => d.ozReq typ tag len g f) :
    (d.portOn = false → Gives i ⟨d, q⟩ d) ∧
    (d.portOn = true → d.rests 14 = true → Gives i ⟨d, q⟩ ((d.count (SVC_CNT 1)).ozSend typ tag 0x02 [])) ∧
    (d.portOn = true → d.rests 14 = false → len = false → Gives i ⟨d, q⟩ (d.ozSend typ tag 0x05 [])) ∧
    (d.portOn = true → d.rests 14 = false → len = true → d.ozOpen g = false → Gives i ⟨d, q⟩ (d.ozSend typ tag 0x06 [])) ∧
    (d.flag SVC_STAT SVC_STAT_SESSION = false → d.ozOpen .unlock = false) ∧
    (d.flag SVC_STAT SVC_STAT_SESSION = false → d.flag SVC_STAT SVC_STAT_SERVICE = false → d.ozOpen .image = false) := by
  refine ⟨fun hon => gives_of_run hr h ?_, fun hon hrest => gives_of_run hr h ?_, fun hon hrest hlen => gives_of_run hr h ?_,
    fun hon hrest hlen hg => gives_of_run hr h ?_, id, fun hs hv => by simp [Dev.ozOpen, hs, hv]⟩
  all_goals unfold Dev.ozReq; dsimp only
  · rw [if_pos (by simp [hon])]
  · rw [if_neg (by simp [hon]), if_pos hrest]
    rfl
  · rw [if_neg (by simp [hon]), if_neg (by simp [hrest]), if_pos (by simp [hlen])]
    rfl
  · rw [if_neg (by simp [hon]), if_neg (by simp [hrest]), if_neg (by simp [hlen]), if_pos (by simp [hg])]
    rfl

theorem Dev.flag_of_reg {e : Dev} {a : Nat} (h : e.reg a = d.reg a) (f : Fld) : e.flag a f = d.flag a f := by rw [Dev.flag, Dev.get, h, Dev.flag, Dev.get]

/-- A RESET that a door turns away goes no further. -/
theorem Dev.ozReset_shut {e : Dev} (h : d.ozReq ozRESET tag p.isEmpty .none (fun d => (ssOK, [], d)) = e)
    (hshut : ¬ (e.portOn && p.isEmpty && !e.rests 14) = true) :
    (let d := d.ozReq ozRESET tag p.isEmpty .none fun d => (ssOK, [], d)
     if d.portOn && p.isEmpty && !d.rests 14 then
       let r := d.svc.resp
       let d := d.resetPulse 5
       { d with svc := { d.svc with resp := r } }
     else d) = e := by
  subst h
  exact if_neg hshut

theorem Dev.ozReset_works {e : Dev} (h : d.ozReq ozRESET tag p.isEmpty .none (fun d => (ssOK, [], d)) = e)
    (hopen : (e.portOn && p.isEmpty && !e.rests 14) = true) :
    (let d := d.ozReq ozRESET tag p.isEmpty .none fun d => (ssOK, [], d)
     if d.portOn && p.isEmpty && !d.rests 14 then
       let r := d.svc.resp
       let d := d.resetPulse 5
       { d with svc := { d.svc with resp := r } }
     else d) = { e.resetPulse 5 with svc := { (e.resetPulse 5).svc with resp := e.svc.resp } } := by
  subst h
  exact if_pos hopen

theorem Dev.portOn_ozSend (d : Dev) (typ st : Nat) (tag : Byte) (l : List Byte) : (d.ozSend typ tag st l).portOn = d.portOn := rfl

theorem Dev.rests_ozSend (d : Dev) (typ st : Nat) (tag : Byte) (l : List Byte) (b : Nat) : (d.ozSend typ tag st l).rests b = d.rests b := rfl

/-! ### The session (R409 to R411, R414) -/

theorem foldl_ext_mem {f g : Dev → Nat → Dev} {l : List Nat} (h : ∀ d, ∀ x ∈ l, f d x = g d x) : ∀ d, l.foldl f d = l.foldl g d := by
  induction l with
  | nil => exact fun _ => rfl
  | cons x l ih =>
    intro d
    rw [List.foldl_cons, List.foldl_cons, h d x List.mem_cons_self, ih fun d y hy => h d y (List.mem_cons_of_mem _ hy)]

theorem Dev.sessionCores_eq (d : Dev) : (span 0 7).foldl (fun (d : Dev) c => if d.coreState c = 5 then d.setCoreState c 1 else d) d =
    d.debugSwitch 127 1 (fun s => s = 5) (span 0 7) := by
  refine foldl_ext_mem (fun e c hc => ?_) d
  have hbit : ∀ c ∈ span 0 7, Nat.testBit 127 c = true := by decide
  simp only [hbit c hc, true_and]

/-- The session is closed while the cores are let go. -/
def Dev.sessionShut (d : Dev) : Dev := (d.put SVC_STAT SVC_STAT_SESSION 0).debugSwitch 127 1 (fun s => s = 5) (span 0 7)

theorem Dev.sessionEnd_eq (d : Dev) : d.sessionEnd = { d.sessionShut with svc := { d.sessionShut.svc with freeze := false } } := by
  unfold Dev.sessionEnd Dev.sessionShut
  dsimp only
  rw [Dev.sessionCores_eq]

theorem Dev.sessionShut_svc (d : Dev) : d.sessionShut.svc = d.svc := Dev.debugSwitch_frame (g := fun e => e.svc) (fun _ _ => rfl) _ _

theorem Dev.sessionShut_session (d : Dev) : d.sessionShut.flag SVC_STAT SVC_STAT_SESSION = false := by
  have hreg : d.sessionShut.reg SVC_STAT = (d.put SVC_STAT SVC_STAT_SESSION 0).reg SVC_STAT :=
    Dev.debugSwitch_frame (g := fun e => e.reg SVC_STAT) (fun e w => Dev.reg_setReg_other _ _ _ _ (by decide)) _ _
  rw [Dev.flag, Dev.get, hreg, ← Dev.get, ← Dev.flag]
  exact Dev.flag_put_zero _ _ (by decide) (by decide)

theorem Dev.sessionShut_coreState (d : Dev) {c : Nat} (hc : c < 7) : d.sessionShut.coreState c = if d.coreState c = 5 then 1 else d.coreState c := by
  have hput : (d.put SVC_STAT SVC_STAT_SESSION 0).coreState c = d.coreState c := by
    rw [Dev.coreState, Dev.get, Dev.reg_put_other _ _ _ _ _ (by decide), Dev.coreState, Dev.get]
  have hbit : ∀ c < 7, Nat.testBit 127 c = true := by decide
  rw [Dev.sessionShut, Dev.coreState_debugSwitch (by decide) _ (by decide) (by decide) hc, hput]
  simp only [hbit c hc, true_and, mem_span.mpr ⟨Nat.zero_le c, (by omega : c < 0 + 7)⟩]

theorem Dev.frees_facts (n : Nat) : ∀ d : Dev, (d.frees n).1.length = n ∧ (d.frees n).2.regs = d.regs ∧ (d.frees n).2.cores = d.cores := by
  induction n with
  | zero => exact fun d => ⟨rfl, rfl, rfl⟩
  | succ n ih =>
    intro d
    obtain ⟨hlen, hregs, hcores⟩ := ih d.free.2
    exact ⟨congrArg (· + 1) hlen, hregs, hcores⟩

theorem Dev.freeBytes_facts (d : Dev) (n : Nat) : (d.freeBytes n).1.length = n ∧ (d.freeBytes n).2.regs = d.regs ∧ (d.freeBytes n).2.cores = d.cores := by
  obtain ⟨hlen, hregs, hcores⟩ := Dev.frees_facts n d
  exact ⟨(List.length_map _).trans hlen, hregs, hcores⟩

/-- The lost session of a timeout. -/
theorem after_sessionTimeout (hs : d.atnSeen = true) : After .sessionTimeout ⟨d, q⟩ fun e =>
    e.flag SVC_STAT SVC_STAT_SESSION = false ∧ e.flag SVC_STAT SVC_STAT_ATN = false ∧ e.svc.xfer = d.svc.xfer := by
  refine after_of (gives_of_run rfl (exec_sessionTimeout ..) (if_pos hs)) ?_
  rw [Dev.sessionEnd_eq]
  have hsvc := d.sessionShut_svc
  have hsession := d.sessionShut_session
  generalize d.sessionShut = s at *
  refine ⟨?_, Dev.flag_put_zero _ _ (by decide) (by decide), congrArg (·.xfer) hsvc⟩
  rw [Dev.flag_wakeSettle, Dev.flag_put_field _ _ _ (by decide) (by decide) (by decide)]
  exact hsession

theorem after_atnFall_short (hs : d.atnSeen = true) : After (.atnFall false) ⟨d, q⟩ fun e =>
    e.flag SVC_STAT SVC_STAT_ATN = true ∧ e.flag SVC_STAT SVC_STAT_ATNF = true ∧ e.svc = d.svc := by
  refine after_of (gives_of_run rfl (exec_atnFall ..) ((if_neg (by simp [hs])).trans (if_neg (by simp)))) ?_
  refine ⟨?_, Dev.flag_put_one _ _ (by decide) (by decide), rfl⟩
  rw [Dev.flag_wakeSettle, Dev.flag_put_field _ _ _ (by decide) (by decide) (by decide)]
  exact Dev.flag_put_one _ _ (by decide) (by decide)

theorem Dev.portOn_put (d : Dev) (a : Nat) (f : Fld) (v : Nat) : (d.put a f v).portOn = d.portOn := rfl

theorem after_atnFall_frame (hon : d.portOn = true) : After (.atnFall true) ⟨d, q⟩ fun e =>
    e.flag SVC_STAT SVC_STAT_ATN = true ∧ e.flag SVC_STAT SVC_STAT_ATNF = true ∧ e.svc.resp = [] := by
  refine after_of (gives_of_run rfl (exec_atnFall ..) ((if_neg (by simp [Dev.atnSeen, hon])).trans (if_pos (by rw [Dev.portOn_put, Dev.portOn_put, hon]; rfl)))) ?_
  have hatn : ((d.put SVC_STAT SVC_STAT_ATN 1).put SVC_STAT SVC_STAT_ATNF 1).flag SVC_STAT SVC_STAT_ATN = true := by
    rw [Dev.flag_put_field _ _ _ (by decide) (by decide) (by decide)]
    exact Dev.flag_put_one _ _ (by decide) (by decide)
  have hatnf : ((d.put SVC_STAT SVC_STAT_ATN 1).put SVC_STAT SVC_STAT_ATNF 1).flag SVC_STAT SVC_STAT_ATNF = true := Dev.flag_put_one _ _ (by decide) (by decide)
  generalize (d.put SVC_STAT SVC_STAT_ATN 1).put SVC_STAT SVC_STAT_ATNF 1 = e at *
  have hreg : (e.count (SVC_CNT 5)).reg SVC_STAT = e.reg SVC_STAT := Dev.reg_count_other _ _ _ (by decide)
  generalize e.count (SVC_CNT 5) = c at *
  exact ⟨(Dev.flag_of_reg hreg _).trans hatn, (Dev.flag_of_reg hreg _).trans hatnf, rfl⟩

section
variable (hon : d.portOn = true) (hwork : d.rests 14 = false)
include hon hwork

theorem after_challenge (hrng : d.flag KEY_STAT KEY_STAT_RNGFAIL = false) : After (.challenge tag []) ⟨d, q⟩ fun e =>
    ∃ b, b.length = 16 ∧ e.svc.nonce = some b ∧ e.svc.resp = ozFrame 0x83 tag (0x00 :: b) ∧ e.regs = d.regs ∧ e.cores = d.cores := by
  refine after_of (gives_ozReq_open hon hwork rfl rfl rfl (exec_challenge ..) rfl) ?_
  rw [if_neg (by simp [hrng])]
  obtain ⟨hlen, hregs, hcores⟩ := d.freeBytes_facts 16
  generalize d.freeBytes 16 = f at *
  exact ⟨f.1, hlen, rfl, rfl, hregs, hcores⟩

theorem after_unlock (hlen : p.length = 16) (hoz : d.svc.oz = none) : After (.unlock tag p) ⟨d, q⟩ fun e =>
    e.svc.oz = some (0x04, p) ∧ e.svc.resp = ozFrame 0x84 tag [0x01] ∧ e.regs = d.regs ∧ e.cores = d.cores := by
  refine after_of (gives_ozReq_open hon hwork rfl rfl (by simp [hlen]) (exec_unlock ..) rfl) ?_
  rw [Dev.ozAccept, if_neg (by simp [hoz])]
  exact ⟨rfl, rfl, rfl, rfl⟩

theorem after_oztisLock : After (.oztisLock tag []) ⟨d, q⟩ fun e =>
    e.flag SVC_STAT SVC_STAT_SESSION = false ∧ e.svc.freeze = false ∧ ∀ c, c < 7 → e.coreState c = if d.coreState c = 5 then 1 else d.coreState c := by
  refine after_of (gives_ozReq_open hon hwork rfl rfl rfl (exec_oztisLock ..) (by rw [Dev.sessionEnd_eq])) ?_
  have hsession := d.sessionShut_session
  have hstate := fun c (hc : c < 7) => d.sessionShut_coreState hc
  generalize d.sessionShut = s at *
  exact ⟨hsession, rfl, fun c hc => hstate c hc⟩

end

/-! ### The end of UNLOCK (R410) -/

section
variable (hoz : d.svc.oz = some (0x04, p))
include hoz

theorem Dev.ozEnd_unlock {outs : List Bool} : d.ozEnd outs =
    { (d.unlockEnd p).2 with svc := { (d.unlockEnd p).2.svc with oz := none, last := (0x04, (d.unlockEnd p).1) } } := by
  unfold Dev.ozEnd
  simp only [hoz]
  rfl

variable (hn : d.svc.nonce = some n) (hk : (d.kslot 254).state ≠ 0)
include hn hk

theorem after_unlockEnd_locked (hf : 8 ≤ d.svc.fails) : After (.svcCommandEnd true []) ⟨d, q⟩ fun e =>
    e.svc.last = (0x04, 0x0C) ∧ e.regs = d.regs ∧ e.svc.nonce = none := by
  refine after_of (gives_of_run rfl (exec_svcCommandEnd ..) rfl) ?_
  rw [if_pos rfl, Dev.ozEnd_unlock hoz, show d.unlockEnd p = (ssLOCKOUT, { d with svc := { d.svc with nonce := none } }) by
    unfold Dev.unlockEnd
    simp only [hn]
    rw [if_neg hk, if_pos hf]]
  exact ⟨rfl, rfl, rfl⟩

variable (hf : d.svc.fails < 8) (harm : d.svc.armed = none) (hc : d.flag SVC_IMG SVC_IMG_CONFWAIT = false)
include hf harm hc

theorem after_unlockEnd_good (hgood : cmac (d.kslot 254).key ([0x44] ++ leBytes 8 d.devuid ++ n) = p) : After (.svcCommandEnd true []) ⟨d, q⟩ fun e =>
    e.flag SVC_STAT SVC_STAT_SESSION = true ∧ e.svc.last = (0x04, 0x00) ∧ e.svc.nonce = none ∧ e.svc.fails = d.svc.fails := by
  refine after_of (gives_of_run rfl (exec_svcCommandEnd ..) rfl) ?_
  rw [if_pos rfl, Dev.ozEnd_unlock hoz, show d.unlockEnd p = (ssOK, Dev.put { d with svc := { d.svc with nonce := none } } SVC_STAT SVC_STAT_SESSION 1) by
    unfold Dev.unlockEnd
    simp only [hn]
    rw [if_neg hk, if_neg (Nat.not_le.mpr hf), if_neg (by simp [harm, hc]), if_pos hgood]]
  exact ⟨Dev.flag_put_one _ _ (by decide) (by decide), rfl, rfl, rfl⟩

theorem after_unlockEnd_bad (hbad : ¬ cmac (d.kslot 254).key ([0x44] ++ leBytes 8 d.devuid ++ n) = p) : After (.svcCommandEnd true []) ⟨d, q⟩ fun e =>
    e.flag SVC_STAT SVC_STAT_SESSION = d.flag SVC_STAT SVC_STAT_SESSION ∧ e.svc.last = (0x04, 0x06) ∧ e.svc.nonce = none ∧ e.svc.fails = d.svc.fails + 1 := by
  refine after_of (gives_of_run rfl (exec_svcCommandEnd ..) rfl) ?_
  rw [if_pos rfl, Dev.ozEnd_unlock hoz, show d.unlockEnd p = (ssLOCKED, Dev.count { d with svc := { d.svc with nonce := none, fails := d.svc.fails + 1 } } (SVC_CNT 2)) by
    unfold Dev.unlockEnd
    simp only [hn]
    rw [if_neg hk, if_neg (Nat.not_le.mpr hf), if_neg (by simp [harm, hc]), if_neg hbad]]
  have hsvc := Dev.count_svc { d with svc := { d.svc with nonce := none, fails := d.svc.fails + 1 } } (SVC_CNT 2)
  have hflag : (Dev.count { d with svc := { d.svc with nonce := none, fails := d.svc.fails + 1 } } (SVC_CNT 2)).reg SVC_STAT = d.reg SVC_STAT :=
    Dev.reg_count_other _ _ _ (by decide)
  generalize Dev.count { d with svc := { d.svc with nonce := none, fails := d.svc.fails + 1 } } (SVC_CNT 2) = e at *
  exact ⟨Dev.flag_of_reg hflag _, rfl, congrArg (·.nonce) hsvc, congrArg (·.fails) hsvc⟩

end

end

/-- Settles O53. -/
theorem oztisSession : Obligations.OztisSession := by
  unfold Obligations.OztisSession
  refine ⟨fun d q tag p ok row hrow => ?_, fun d q tag typ p n => ⟨fun hoff => ⟨?_, ?_⟩, fun hs => ⟨fun f => ?_, ?_⟩, fun hs => ⟨?_, ?_⟩,
    fun hon => ⟨?_, fun hk => ?_, fun hrest => ?_, ?_⟩, fun hon hrest => ⟨?_, ?_, fun hrng => ?_, fun hrng => ?_, fun hlen hoz => ?_, fun hlen hoz => ?_, ?_⟩,
    fun hoz hn hk harm hc => ?_, fun hoz => ?_⟩⟩
  · simp only [List.mem_cons, List.not_mem_nil, or_false] at hrow
    rcases hrow with rfl | rfl | rfl | rfl | rfl | rfl | rfl | rfl | rfl | rfl | rfl | rfl | rfl | rfl
    · exact ozReq_doors rfl (exec_oztisHello ..)
    · exact ozReq_doors rfl (exec_challenge ..)
    · exact ozReq_doors rfl (exec_unlock ..)
    · exact ozReq_doors rfl (exec_oztisLock ..)
    · exact ozReq_doors rfl (exec_openXfer ..)
    · exact ozReq_doors rfl (exec_burst ..)
    · exact ozReq_doors rfl (exec_oztisCheck ..)
    · exact ozReq_doors rfl (exec_oztisTry ..)
    · exact ozReq_doors rfl (exec_oztisRead ..)
    · exact ozReq_doors rfl (exec_oztisWrite ..)
    · exact ozReq_doors rfl (exec_oztisHalt ..)
    · exact ozReq_doors rfl (exec_oztisRun ..)
    · exact ozReq_doors rfl (exec_regs ..)
    · exact ozReq_doors rfl (exec_setreg ..)
  · exact gives_of_run rfl (exec_oztisBadFrame ..) (if_pos (by simp [hoff]))
  · exact gives_of_run rfl (exec_oztisReset ..) (Dev.ozReset_shut (p := []) (if_pos (by simp [hoff])) (by simp [hoff]))
  · exact gives_of_run rfl (exec_atnFall ..) (if_pos (by simp [hs]))
  · exact gives_of_run rfl (exec_sessionTimeout ..) (if_neg (by simp [hs]))
  · exact after_atnFall_short hs
  · exact after_sessionTimeout hs
  · exact gives_of_run rfl (exec_oztisBadFrame ..) ((if_neg (by simp [hon])).trans (if_pos rfl))
  · exact gives_of_run rfl (exec_oztisBadFrame ..) ((if_neg (by simp [hon])).trans ((if_neg Bool.false_ne_true).trans (if_neg (by simp [hk]))))
  · refine gives_of_run rfl (exec_oztisReset ..) (Dev.ozReset_shut (p := []) ((if_neg (by simp [hon])).trans (if_pos hrest)) ?_)
    have hrests : ((d.count (SVC_CNT 1)).ozSend 0x02 tag 0x02 []).rests 14 = true := by
      rw [Dev.rests_ozSend, Dev.rests, Dev.count_pwr, ← Dev.rests, hrest]
    rw [hrests]
    simp
  · exact after_atnFall_frame hon
  · exact gives_ozReq_open hon hrest rfl rfl rfl (exec_oztisHello ..) rfl
  · have hreq : d.ozReq ozRESET tag true .none (fun d => (ssOK, [], d)) = d.ozSend 0x02 tag 0x00 [] :=
      (if_neg (by simp [hon])).trans ((if_neg (by simp [hrest])).trans ((if_neg (by decide)).trans (if_neg (by simp [Dev.ozOpen]))))
    exact gives_of_run rfl (exec_oztisReset ..) (Dev.ozReset_works (p := []) hreq (by rw [Dev.portOn_ozSend, Dev.rests_ozSend, hon, hrest]; rfl))
  · exact gives_ozReq_open hon hrest rfl rfl rfl (exec_challenge ..) (by rw [if_pos hrng]; rfl)
  · exact after_challenge hon hrest hrng
  · exact after_unlock hon hrest hlen hoz
  · exact gives_ozReq_open hon hrest rfl rfl (by simp [hlen]) (exec_unlock ..) (by
      rw [Dev.ozAccept, if_pos (by simp [Option.isSome_iff_ne_none.mpr hoz])]
      rfl)
  · exact after_oztisLock hon hrest
  · exact ⟨after_unlockEnd_locked hoz hn hk, fun hf hgood => after_unlockEnd_good hoz hn hk hf harm hc hgood, fun hf hbad => after_unlockEnd_bad hoz hn hk hf harm hc hbad⟩
  · refine gives_of_run rfl (exec_svcCommandEnd ..) ?_
    rw [if_pos rfl, Dev.ozEnd]
    simp only [hoz]

end Sys2Proof.Machine
end

section
/-! The contactless controller (R391 to R406). -/

namespace Sys2Proof.Machine

/-! ### What a read of the buffer may touch -/

theorem not_touchReg_nfc {a : Nat} (h : 0x40500000 ≤ a ∧ a < 0x40500028) (h4 : a % 4 = 0) : ¬ touchReg a := by
  rintro (hl | ⟨n, hn, rfl⟩ | ⟨b, rfl⟩ | rfl | rfl)
  · exact absurd hl (by simp [logRegs, ERL_LOST, ERL_STAT, ERL_LASTLOST, ERL_LASTLT, ERL_FIRSTLOST, ERL_FIRSTLT]; omega)
  · rw [ERL_ECC] at h
    omega
  · rw [FLC_COL] at h h4
    omega
  · exact absurd h (by decide)
  · exact absurd h (by decide)

theorem touchReg_ne_boot {a : Nat} (h : touchReg a) : a ≠ FLC_BOOT := by
  rintro rfl
  rcases h with hl | ⟨n, hn, h⟩ | ⟨b, h⟩ | h | h
  · exact absurd hl (by decide)
  · rw [FLC_BOOT, ERL_ECC] at h
    omega
  · rw [FLC_BOOT, FLC_COL] at h
    omega
  · exact absurd h (by decide)
  · exact absurd h (by decide)

theorem untouched_byte (y : Nat) : Untouched (fun d => d.byte y) where
  setReg d a v ha := d.byte_setReg a v y (touchReg_ne_boot ha)
  gated _ _ := rfl
  memErr _ _ _ := rfl
  erlCyc _ _ := rfl
  waiting _ _ := rfl
  banks _ _ _ := rfl
  free _ := rfl

/-- State that no access to memory touches. -/
theorem untouched_state : Untouched (fun d => (d.nfc, d.clk, d.cores)) where
  setReg _ _ _ _ := rfl
  gated _ _ := rfl
  memErr _ _ _ := rfl
  erlCyc _ _ := rfl
  waiting _ _ := rfl
  banks _ _ _ := rfl
  free _ := rfl

section
variable {d : Dev} {q : List Instr} {c : Fin 7} {n : Nat}

/-- A command of the contactless controller as it is judged: OP shown, the buffer read where it has one (R391). -/
def Dev.nfcAsked (d : Dev) (n : Nat) : Dev :=
  if n = 3 ∨ n = 5 then (d.put NFC_STAT NFC_STAT_OP n).touchRange d.nfcBuf d.nfcLen else d.put NFC_STAT NFC_STAT_OP n

theorem Dev.nfcAsked_view {α : Type} {g : Dev → α} (hg : Untouched g) (d : Dev) (n : Nat) : g (d.nfcAsked n) = g (d.put NFC_STAT NFC_STAT_OP n) := by
  unfold Dev.nfcAsked
  split
  · exact hg.touchRange _ _ _
  · rfl

theorem Dev.nfcAsked_nfc (d : Dev) (n : Nat) : (d.nfcAsked n).nfc = d.nfc := congrArg (·.1) (Dev.nfcAsked_view untouched_state d n)

theorem Dev.nfcAsked_clk (d : Dev) (n : Nat) : (d.nfcAsked n).clk = d.clk := congrArg (·.2.1) (Dev.nfcAsked_view untouched_state d n)

theorem Dev.nfcAsked_cores (d : Dev) (n : Nat) : (d.nfcAsked n).cores = d.cores := congrArg (·.2.2) (Dev.nfcAsked_view untouched_state d n)

theorem Dev.nfcAsked_byte (d : Dev) (n y : Nat) : (d.nfcAsked n).byte y = d.byte y :=
  (Dev.nfcAsked_view (untouched_byte y) d n).trans (Dev.byte_setReg _ _ _ _ (by decide))

theorem Dev.nfcAsked_reg (d : Dev) (n : Nat) {a : Nat} (h : 0x40500000 ≤ a ∧ a < 0x40500028) (h4 : a % 4 = 0) (hs : a ≠ NFC_STAT) :
    (d.nfcAsked n).reg a = d.reg a :=
  (Dev.nfcAsked_view (untouched_reg (not_touchReg_nfc h h4)) d n).trans (Dev.reg_put_other _ _ _ _ _ hs)

theorem Dev.nfcAsked_reg_plain (d : Dev) {n : Nat} (hn : ¬ (n = 3 ∨ n = 5)) {a : Nat} (ha : a ≠ NFC_STAT) : (d.nfcAsked n).reg a = d.reg a := by
  rw [Dev.nfcAsked, if_neg hn, Dev.reg_put_other _ _ _ _ _ ha]

theorem Dev.nfcAsked_flag (d : Dev) (n : Nat) {f : Fld} (hf : 3 < f.lo) : (d.nfcAsked n).flag NFC_STAT f = d.flag NFC_STAT f :=
  (Dev.flag_of_reg (Dev.nfcAsked_view (untouched_reg (not_touchReg_nfc (by decide) (by decide))) d n) f).trans
    (Dev.flag_put_field _ _ _ (by decide) (by decide) (.inr hf))

theorem Dev.nfcAsked_nfcBuf (d : Dev) (n : Nat) : (d.nfcAsked n).nfcBuf = d.nfcBuf := by
  rw [Dev.nfcBuf, d.nfcAsked_reg n (by decide) (by decide) (by decide), Dev.nfcBuf]

theorem Dev.nfcAsked_nfcLen (d : Dev) (n : Nat) : (d.nfcAsked n).nfcLen = d.nfcLen := by
  rw [Dev.nfcLen, Dev.get, d.nfcAsked_reg n (by decide) (by decide) (by decide), Dev.nfcLen, Dev.get]

/-! ### A command (R391) -/

/-- What an accepted command does. -/
def Dev.nfcActs (d : Dev) : Nat → Dev
  | 1 => d.carrierOn
  | 2 => d.carrierOff
  | 3 => { d with nfc := { d.nfc with op := 3, out := [nfcSeal (d.bytes d.nfcBuf d.nfcLen)] } }.put NFC_STAT NFC_STAT_BUSY 1
  | 4 => { d with nfc := { d.nfc with op := 4, out := [] } }.put NFC_STAT NFC_STAT_BUSY 1
  | 5 => ({ d with nfc := { d.nfc with out := if d.nfc.wait then [nfcSeal (d.bytes d.nfcBuf d.nfcLen)] else [] } }.nfcSettle).nfcEnd nrOK
  | _ => ({ d with nfc := { d.nfc with out := [] } }.nfcSettle).nfcEnd nrOK

theorem Dev.nfcCmd_busy (h : d.flag NFC_STAT NFC_STAT_BUSY = true) : d.nfcCmd n = d := if_pos (by simp [h])

theorem Dev.put_nfcBuf (d : Dev) (f : Fld) (v : Nat) : (d.put NFC_STAT f v).nfcBuf = d.nfcBuf := by
  rw [Dev.nfcBuf, Dev.reg_put_other _ _ _ _ _ (by decide), Dev.nfcBuf]

theorem Dev.put_nfcLen (d : Dev) (f : Fld) (v : Nat) : (d.put NFC_STAT f v).nfcLen = d.nfcLen := by
  rw [Dev.nfcLen, Dev.get_put_other _ _ _ _ _ _ (by decide), Dev.nfcLen]

section
variable (h : d.flag NFC_STAT NFC_STAT_BUSY = false) (hn : 1 ≤ n ∧ n ≤ 6)
include h hn

theorem Dev.nfcCmd_judged {res : Nat} (hj : (d.nfcAsked n).nfcJudge n = some res) : d.nfcCmd n = (d.nfcAsked n).nfcEnd res := by
  unfold Dev.nfcAsked at hj ⊢
  unfold Dev.nfcCmd
  rw [if_neg (by simp [h]; omega)]
  dsimp only
  rw [Dev.put_nfcBuf, Dev.put_nfcLen, hj]

theorem Dev.nfcCmd_accepted (hj : (d.nfcAsked n).nfcJudge n = none) : d.nfcCmd n = (d.nfcAsked n).nfcActs n := by
  unfold Dev.nfcAsked at hj ⊢
  unfold Dev.nfcCmd
  rw [if_neg (by simp [h]; omega)]
  dsimp only
  rw [Dev.put_nfcBuf, Dev.put_nfcLen, hj]
  rfl

end

/-- The six commands of NFC_CMD. -/
def nfcRows (c : Fin 7) : List (Instr × Nat) :=
  [(.carrierOn c, 1), (.carrierOff c, 2), (.nfcSend c, 3), (.nfcInventory c, 4), (.cresp c, 5), (.cdrop c, 6)]

theorem nfcRows_op {row : Instr × Nat} (hrow : row ∈ nfcRows c) : 1 ≤ row.2 ∧ row.2 ≤ 6 := by
  simp only [nfcRows, List.mem_cons, List.not_mem_nil, or_false] at hrow
  rcases hrow with rfl | rfl | rfl | rfl | rfl | rfl <;> simp

theorem gives_nfcRow {e : Dev} {row : Instr × Nat} (hrow : row ∈ nfcRows c) (ho : BusOpen ⟨d, q⟩ c NFC_CMD true) (he : d.nfcCmd row.2 = e) :
    Gives row.1 ⟨d, q⟩ e := by
  simp only [nfcRows, List.mem_cons, List.not_mem_nil, or_false] at hrow
  rcases hrow with rfl | rfl | rfl | rfl | rfl | rfl
  · exact gives_of_askCore rfl ho (exec_carrierOn ..) he
  · exact gives_of_askCore rfl ho (exec_carrierOff ..) he
  · exact gives_of_askCore rfl ho (exec_nfcSend ..) he
  · exact gives_of_askCore rfl ho (exec_nfcInventory ..) he
  · exact gives_of_askCore rfl ho (exec_cresp ..) he
  · exact gives_of_askCore rfl ho (exec_cdrop ..) he

/-! ### The end of a command (R391) -/

/-- The registers as a command's end leaves them, but for what it counts. -/
def Dev.nfcShown (d : Dev) (res : Nat) : Dev :=
  (({ d with nfc := { d.nfc with op := 0 } }.put NFC_STAT NFC_STAT_RESULT res).put NFC_STAT NFC_STAT_BUSY 0).put NFC_STAT NFC_STAT_DONE 1

theorem Dev.nfcEnd_ok (d : Dev) : d.nfcEnd nrOK = d.nfcShown nrOK := rfl

theorem Dev.nfcShown_reg (d : Dev) (res : Nat) {a : Nat} (ha : a ≠ NFC_STAT) : (d.nfcShown res).reg a = d.reg a := by
  rw [Dev.nfcShown, Dev.reg_put_other _ _ _ _ _ ha, Dev.reg_put_other _ _ _ _ _ ha, Dev.reg_put_other _ _ _ _ _ ha]
  rfl

theorem Dev.nfcShown_byte (d : Dev) (res y : Nat) : (d.nfcShown res).byte y = d.byte y := by
  have hput : ∀ (e : Dev) (f : Fld) (v : Nat), (e.put NFC_STAT f v).byte y = e.byte y := fun e f v => Dev.byte_setReg _ _ _ _ (by decide)
  rw [Dev.nfcShown, hput, hput, hput]
  rfl

theorem Dev.nfcShown_done (d : Dev) (res : Nat) : (d.nfcShown res).flag NFC_STAT NFC_STAT_DONE = true := Dev.flag_put_one _ _ (by decide) (by decide)

theorem Dev.nfcShown_busy (d : Dev) (res : Nat) : (d.nfcShown res).flag NFC_STAT NFC_STAT_BUSY = false := by
  rw [Dev.nfcShown, Dev.flag_put_field _ _ _ (by decide) (by decide) (by decide)]
  exact Dev.flag_put_zero _ _ (by decide) (by decide)

theorem Dev.nfcShown_result (d : Dev) {res : Nat} (h : res < 256) : (d.nfcShown res).get NFC_STAT NFC_STAT_RESULT = res := by
  rw [Dev.nfcShown, Dev.get_put_field _ _ _ _ _ (by decide) (by decide) (by decide), Dev.get_put_field _ _ _ _ _ (by decide) (by decide) (by decide), Dev.get_put_same _ _ _ _ (by decide) (by decide)]
  exact Nat.mod_eq_of_lt h

theorem Dev.nfcShown_flag (d : Dev) (res : Nat) {f : Fld} (hf : f.lo = f.hi) (h29 : f.lo ≠ 29) (h28 : f.lo ≠ 28) (h16 : 16 ≤ f.lo) :
    (d.nfcShown res).flag NFC_STAT f = d.flag NFC_STAT f := by
  have h1 : NFC_STAT_DONE.hi < f.lo ∨ f.hi < NFC_STAT_DONE.lo := by simp only [NFC_STAT_DONE]; omega
  have h2 : NFC_STAT_BUSY.hi < f.lo ∨ f.hi < NFC_STAT_BUSY.lo := by simp only [NFC_STAT_BUSY]; omega
  have h3 : NFC_STAT_RESULT.hi < f.lo ∨ f.hi < NFC_STAT_RESULT.lo := by simp only [NFC_STAT_RESULT]; omega
  rw [Dev.nfcShown, Dev.flag_put_field _ _ _ (by decide) (by decide) h1.symm, Dev.flag_put_field _ _ _ (by decide) (by decide) h2.symm,
    Dev.flag_put_field _ _ _ (by decide) (by decide) h3.symm]
  rfl

/-- A carrier that comes on, and the command's end. -/
theorem Dev.carrierNow_shows (x : Dev) : x.carrierNow.flag NFC_STAT NFC_STAT_CARRIER = true ∧ x.carrierNow.nfc = { x.nfc with carOn := x.clk.cyc, op := 0 } ∧
    x.carrierNow.get NFC_STAT NFC_STAT_RESULT = nrOK ∧ x.carrierNow.flag NFC_STAT NFC_STAT_DONE = true ∧ x.carrierNow.flag NFC_STAT NFC_STAT_BUSY = false ∧
    x.carrierNow.cores = x.cores ∧ (∀ a, a ≠ NFC_STAT → x.carrierNow.reg a = x.reg a) ∧ ∀ a, x.carrierNow.byte a = x.byte a := by
  rw [show x.carrierNow = (Dev.put { x with nfc := { x.nfc with carOn := x.clk.cyc } } NFC_STAT NFC_STAT_CARRIER 1).nfcShown nrOK from rfl]
  refine ⟨?_, rfl, Dev.nfcShown_result _ (by decide), Dev.nfcShown_done _ _, Dev.nfcShown_busy _ _, rfl, fun a ha => ?_, fun a => ?_⟩
  · rw [Dev.nfcShown_flag _ _ (by decide) (by decide) (by decide) (by decide)]
    exact Dev.flag_put_one _ _ (by decide) (by decide)
  · rw [Dev.nfcShown_reg _ _ ha, Dev.reg_put_other _ _ _ _ _ ha]
    rfl
  · rw [Dev.nfcShown_byte]
    exact Dev.byte_setReg _ _ _ _ (by decide)

theorem Dev.carrierOff_shows (x : Dev) : x.carrierOff.flag NFC_STAT NFC_STAT_CARRIER = false ∧
    x.carrierOff.nfc.carOff = (if x.flag NFC_STAT NFC_STAT_CARRIER then some x.clk.cyc else x.nfc.carOff) ∧
    x.carrierOff.get NFC_STAT NFC_STAT_RESULT = nrOK ∧ x.carrierOff.flag NFC_STAT NFC_STAT_DONE = true ∧
    x.carrierOff.cores = x.cores ∧ (∀ a, a ≠ NFC_STAT → x.carrierOff.reg a = x.reg a) ∧ ∀ a, x.carrierOff.byte a = x.byte a := by
  have hoff : ∃ y, x.carrierOff = (Dev.put y NFC_STAT NFC_STAT_CARRIER 0).nfcShown nrOK ∧
      y.nfc.carOff = (if x.flag NFC_STAT NFC_STAT_CARRIER then some x.clk.cyc else x.nfc.carOff) ∧ y.cores = x.cores ∧ y.regs = x.regs ∧ ∀ a, y.byte a = x.byte a := by
    by_cases hc : x.flag NFC_STAT NFC_STAT_CARRIER = true
    · exact ⟨{ x with nfc := { x.nfc with carOff := some x.clk.cyc } }, by unfold Dev.carrierOff; rw [if_pos hc]; rfl, (if_pos hc).symm, rfl, rfl, fun _ => rfl⟩
    · exact ⟨x, by unfold Dev.carrierOff; rw [if_neg hc]; rfl, (if_neg hc).symm, rfl, rfl, fun _ => rfl⟩
  obtain ⟨y, hy, hcar, hcores, hregs, hbyte⟩ := hoff
  rw [hy]
  refine ⟨?_, hcar, Dev.nfcShown_result _ (by decide), Dev.nfcShown_done _ _, hcores, fun a ha => ?_, fun a => ?_⟩
  · rw [Dev.nfcShown_flag _ _ (by decide) (by decide) (by decide) (by decide)]
    exact Dev.flag_put_zero _ _ (by decide) (by decide)
  · rw [Dev.nfcShown_reg _ _ ha, Dev.reg_put_other _ _ _ _ _ ha, Dev.reg_congr hregs]
  · rw [Dev.nfcShown_byte]
    exact (Dev.byte_setReg _ _ _ _ (by decide)).trans (hbyte a)

theorem Dev.nfcSettle_end (x : Dev) : (x.nfcSettle.nfcEnd nrOK).nfc.out = x.nfc.out ∧ (x.nfcSettle.nfcEnd nrOK).nfc.wait = false ∧
    (x.nfcSettle.nfcEnd nrOK).flag NFC_STAT NFC_STAT_CRXF = false ∧ (x.nfcSettle.nfcEnd nrOK).get NFC_STAT NFC_STAT_RESULT = nrOK ∧
    (x.nfcSettle.nfcEnd nrOK).flag NFC_STAT NFC_STAT_DONE = true := by
  rw [Dev.nfcEnd_ok]
  refine ⟨rfl, rfl, ?_, Dev.nfcShown_result _ (by decide), Dev.nfcShown_done _ _⟩
  rw [Dev.nfcShown_flag _ _ (by decide) (by decide) (by decide) (by decide)]
  exact Dev.flag_put_zero _ _ (by decide) (by decide)

/-! ### Commands that are accepted (R391, R392, R396, R400) -/

theorem Dev.carrierMay_iff : d.carrierMay = true ↔ ∀ y, d.nfc.carOff = some y → y + 122880 ≤ d.clk.cyc := by
  unfold Dev.carrierMay
  cases h : d.nfc.carOff with
  | none => simp
  | some t => simp

section
variable (ho : BusOpen ⟨d, q⟩ c NFC_CMD true) (hb : d.flag NFC_STAT NFC_STAT_BUSY = false)
include ho hb

theorem gives_nfc_accepted {row : Instr × Nat} (hrow : row ∈ nfcRows c) (hj : (d.nfcAsked row.2).nfcJudge row.2 = none) :
    Gives row.1 ⟨d, q⟩ ((d.nfcAsked row.2).nfcActs row.2) :=
  gives_nfcRow hrow ho (Dev.nfcCmd_accepted hb (nfcRows_op hrow) hj)

theorem gives_carrierOn_on (hj : (d.nfcAsked 1).nfcJudge 1 = none) (hc : d.flag NFC_STAT NFC_STAT_CARRIER = true) :
    Gives (.carrierOn c) ⟨d, q⟩ ((d.nfcAsked 1).nfcEnd nrOK) := by
  have hrun := gives_nfc_accepted ho hb (row := (.carrierOn c, 1)) (by simp [nfcRows]) hj
  rwa [show (d.nfcAsked 1).nfcActs 1 = (d.nfcAsked 1).nfcEnd nrOK from if_pos ((d.nfcAsked_flag 1 (by decide)).trans hc)] at hrun

theorem after_carrierOn (hj : (d.nfcAsked 1).nfcJudge 1 = none) (hc : d.flag NFC_STAT NFC_STAT_CARRIER = false)
    (hmay : ∀ y, d.nfc.carOff = some y → y + 122880 ≤ d.clk.cyc) : After (.carrierOn c) ⟨d, q⟩ fun t =>
      t.flag NFC_STAT NFC_STAT_CARRIER = true ∧ t.nfc.carOn = d.clk.cyc ∧ t.get NFC_STAT NFC_STAT_RESULT = nrOK ∧ t.flag NFC_STAT NFC_STAT_DONE = true ∧
      t.cores = d.cores ∧ (∀ a, a ≠ NFC_STAT → t.reg a = d.reg a) ∧ ∀ a, t.byte a = d.byte a := by
  have hrun := gives_nfc_accepted ho hb (row := (.carrierOn c, 1)) (by simp [nfcRows]) hj
  have hm : (d.nfcAsked 1).carrierMay = true := Dev.carrierMay_iff.mpr (by rw [Dev.nfcAsked_nfc, Dev.nfcAsked_clk]; exact hmay)
  have hflag : ¬ (d.nfcAsked 1).flag NFC_STAT NFC_STAT_CARRIER = true := by
    rw [d.nfcAsked_flag 1 (by decide), hc]
    exact Bool.false_ne_true
  rw [show (d.nfcAsked 1).nfcActs 1 = (d.nfcAsked 1).carrierNow from (if_neg hflag).trans (if_pos hm)] at hrun
  obtain ⟨hcar, hnfc, hres, hdone, -, hcores, hreg, hbyte⟩ := (d.nfcAsked 1).carrierNow_shows
  refine after_of hrun ⟨hcar, (congrArg (·.carOn) hnfc).trans (congrArg (·.cyc) (d.nfcAsked_clk 1)), hres, hdone, hcores.trans (d.nfcAsked_cores 1), fun a ha => ?_, fun a => ?_⟩
  · exact (hreg a ha).trans (d.nfcAsked_reg_plain (by decide) ha)
  · rw [Dev.byte_settle]
    exact (hbyte a).trans (d.nfcAsked_byte 1 a)

theorem gives_carrierOn_waits {y : Nat} (hj : (d.nfcAsked 1).nfcJudge 1 = none) (hc : d.flag NFC_STAT NFC_STAT_CARRIER = false) (hy : d.nfc.carOff = some y)
    (hwait : d.clk.cyc < y + 122880) :
    Gives (.carrierOn c) ⟨d, q⟩ (Dev.put { d.nfcAsked 1 with nfc := { d.nfc with op := 1 } } NFC_STAT NFC_STAT_BUSY 1) := by
  have hrun := gives_nfc_accepted ho hb (row := (.carrierOn c, 1)) (by simp [nfcRows]) hj
  have hm : ¬ (d.nfcAsked 1).carrierMay = true := fun hm => by
    rw [Dev.carrierMay_iff, Dev.nfcAsked_nfc, Dev.nfcAsked_clk] at hm
    exact Nat.not_le.mpr hwait (hm y hy)
  have hflag : ¬ (d.nfcAsked 1).flag NFC_STAT NFC_STAT_CARRIER = true := by
    rw [d.nfcAsked_flag 1 (by decide), hc]
    exact Bool.false_ne_true
  rw [← d.nfcAsked_nfc 1]
  rwa [show (d.nfcAsked 1).nfcActs 1 = Dev.put { d.nfcAsked 1 with nfc := { (d.nfcAsked 1).nfc with op := 1 } } NFC_STAT NFC_STAT_BUSY 1 from
    (if_neg hflag).trans (if_neg hm)] at hrun

theorem after_carrierOff (hj : (d.nfcAsked 2).nfcJudge 2 = none) : After (.carrierOff c) ⟨d, q⟩ fun t =>
    t.flag NFC_STAT NFC_STAT_CARRIER = false ∧ t.nfc.carOff = (if d.flag NFC_STAT NFC_STAT_CARRIER then some d.clk.cyc else d.nfc.carOff) ∧
    t.get NFC_STAT NFC_STAT_RESULT = nrOK ∧ t.flag NFC_STAT NFC_STAT_DONE = true ∧ t.cores = d.cores ∧
    (∀ a, a ≠ NFC_STAT → t.reg a = d.reg a) ∧ ∀ a, t.byte a = d.byte a := by
  have hrun := gives_nfc_accepted ho hb (row := (.carrierOff c, 2)) (by simp [nfcRows]) hj
  rw [show (d.nfcAsked 2).nfcActs 2 = (d.nfcAsked 2).carrierOff from rfl] at hrun
  obtain ⟨hcar, hcarOff, hres, hdone, hcores, hreg, hbyte⟩ := (d.nfcAsked 2).carrierOff_shows
  rw [d.nfcAsked_flag 2 (by decide), Dev.nfcAsked_nfc, Dev.nfcAsked_clk] at hcarOff
  refine after_of hrun ⟨hcar, hcarOff, hres, hdone, hcores.trans (d.nfcAsked_cores 2), fun a ha => ?_, fun a => ?_⟩
  · exact (hreg a ha).trans (d.nfcAsked_reg_plain (by decide) ha)
  · rw [Dev.byte_settle, Dev.wakeBy_byte, hbyte, Dev.nfcAsked_byte]

theorem after_nfcSend (hj : (d.nfcAsked 3).nfcJudge 3 = none) : After (.nfcSend c) ⟨d, q⟩ fun t =>
    t.nfc.out = [nfcSeal (d.bytes d.nfcBuf d.nfcLen)] ∧ t.nfc.op = 3 ∧ t.flag NFC_STAT NFC_STAT_BUSY = true ∧ t.cores = d.cores ∧ ∀ a, t.byte a = d.byte a := by
  have hrun := gives_nfc_accepted ho hb (row := (.nfcSend c, 3)) (by simp [nfcRows]) hj
  refine after_of hrun ⟨?_, rfl, Dev.flag_put_one _ _ (by decide) (by decide), d.nfcAsked_cores 3, fun a => ?_⟩
  · have hbytes : (d.nfcAsked 3).bytes (d.nfcAsked 3).nfcBuf (d.nfcAsked 3).nfcLen = d.bytes d.nfcBuf d.nfcLen := by
      rw [Dev.nfcAsked_nfcBuf, Dev.nfcAsked_nfcLen]
      exact List.map_congr_left fun y _ => d.nfcAsked_byte 3 y
    exact congrArg (fun l => [nfcSeal l]) hbytes
  · rw [Dev.byte_settle]
    exact (Dev.byte_setReg _ _ _ _ (by decide)).trans (d.nfcAsked_byte 3 a)

theorem after_nfcInventory (hj : (d.nfcAsked 4).nfcJudge 4 = none) : After (.nfcInventory c) ⟨d, q⟩ fun t =>
    t.nfc.out = [] ∧ t.nfc.op = 4 ∧ t.flag NFC_STAT NFC_STAT_BUSY = true ∧ t.nfc.fifo = d.nfc.fifo := by
  have hrun := gives_nfc_accepted ho hb (row := (.nfcInventory c, 4)) (by simp [nfcRows]) hj
  exact after_of hrun ⟨rfl, rfl, Dev.flag_put_one _ _ (by decide) (by decide), congrArg (·.fifo) (d.nfcAsked_nfc 4)⟩

theorem after_cresp (hj : (d.nfcAsked 5).nfcJudge 5 = none) : After (.cresp c) ⟨d, q⟩ fun t =>
    t.nfc.out = (if d.nfc.wait then [nfcSeal (d.bytes d.nfcBuf d.nfcLen)] else []) ∧ t.nfc.wait = false ∧ t.flag NFC_STAT NFC_STAT_CRXF = false ∧
    t.get NFC_STAT NFC_STAT_RESULT = nrOK ∧ t.flag NFC_STAT NFC_STAT_DONE = true := by
  have hrun := gives_nfc_accepted ho hb (row := (.cresp c, 5)) (by simp [nfcRows]) hj
  have hbytes : (d.nfcAsked 5).bytes (d.nfcAsked 5).nfcBuf (d.nfcAsked 5).nfcLen = d.bytes d.nfcBuf d.nfcLen := by
    rw [Dev.nfcAsked_nfcBuf, Dev.nfcAsked_nfcLen]
    exact List.map_congr_left fun y _ => d.nfcAsked_byte 5 y
  obtain ⟨hout, hwait, hcrxf, hres, hdone⟩ := Dev.nfcSettle_end { d.nfcAsked 5 with nfc := { (d.nfcAsked 5).nfc with
    out := if (d.nfcAsked 5).nfc.wait then [nfcSeal ((d.nfcAsked 5).bytes (d.nfcAsked 5).nfcBuf (d.nfcAsked 5).nfcLen)] else [] } }
  refine after_of hrun ⟨hout.trans ?_, hwait, hcrxf, hres, hdone⟩
  rw [← hbytes, ← d.nfcAsked_nfc 5]

theorem after_cdrop (hj : (d.nfcAsked 6).nfcJudge 6 = none) : After (.cdrop c) ⟨d, q⟩ fun t =>
    t.nfc.out = [] ∧ t.nfc.wait = false ∧ t.flag NFC_STAT NFC_STAT_CRXF = false ∧ t.get NFC_STAT NFC_STAT_RESULT = nrOK := by
  have hrun := gives_nfc_accepted ho hb (row := (.cdrop c, 6)) (by simp [nfcRows]) hj
  obtain ⟨hout, hwait, hcrxf, hres, -⟩ := Dev.nfcSettle_end { d.nfcAsked 6 with nfc := { (d.nfcAsked 6).nfc with out := [] } }
  exact after_of hrun ⟨hout, hwait, hcrxf, hres⟩

end

/-! ### The judgement (R391, R392) -/

theorem Dev.nfcJudge_mode (hm : d.get NFC_CTL NFC_CTL_MODE ≠ 1) (hn : n ≤ 4) : d.nfcJudge n = some nrBADLEN := by
  unfold Dev.nfcJudge
  dsimp only
  rw [if_pos]
  simp [if_pos hn, hm]

theorem Dev.nfcJudge_field (hm : d.get NFC_CTL NFC_CTL_MODE = 1) (hf : d.flag NFC_STAT NFC_STAT_FIELD = true) : d.nfcJudge 1 = some nrEXTFIELD := by
  unfold Dev.nfcJudge
  dsimp only
  rw [if_neg (by simp [hm]), if_pos (by simp [hf])]

/-! ### The ends (R391, R392, R396) -/

theorem Dev.nfcEnd_shows (d : Dev) (res : Nat) : (d.nfcEnd res).nfc = { d.nfc with op := 0 } ∧ (d.nfcEnd res).flag NFC_STAT NFC_STAT_BUSY = false ∧
    (d.nfcEnd res).flag NFC_STAT NFC_STAT_DONE = true := by
  have hcount : ∀ k, ((d.nfcShown res).count (NFC_CNT k)).nfc = { d.nfc with op := 0 } ∧ ((d.nfcShown res).count (NFC_CNT k)).flag NFC_STAT NFC_STAT_BUSY = false ∧
      ((d.nfcShown res).count (NFC_CNT k)).flag NFC_STAT NFC_STAT_DONE = true := fun k => by
    have hreg : ((d.nfcShown res).count (NFC_CNT k)).reg NFC_STAT = (d.nfcShown res).reg NFC_STAT :=
      Dev.reg_count_other _ _ _ (by simp only [NFC_STAT, NFC_CNT, ne_eq]; omega)
    exact ⟨Dev.count_nfc _ _, (Dev.flag_of_reg hreg _).trans (d.nfcShown_busy res), (Dev.flag_of_reg hreg _).trans (d.nfcShown_done res)⟩
  rw [show d.nfcEnd res = (if res = nrEXTFIELD then (d.nfcShown res).count (NFC_CNT 4) else if res = nrNORESP then (d.nfcShown res).count (NFC_CNT 2)
    else if res = nrCRCERR then (d.nfcShown res).count (NFC_CNT 0) else d.nfcShown res) from rfl]
  split
  · exact hcount 4
  · split
    · exact hcount 2
    · split
      · exact hcount 0
      · exact ⟨rfl, d.nfcShown_busy res, d.nfcShown_done res⟩

theorem Dev.invSlot_fifo (d : Dev) (x : InvSt) : d.nfc.fifo <+: (d.invSlot x).2.nfc.fifo := by
  unfold Dev.invSlot
  dsimp only
  split
  · exact List.prefix_rfl
  next f _ =>
    split
    next b _ =>
      split
      · simp only [Dev.count_nfc, List.prefix_rfl]
      · split
        · exact List.prefix_append _ _
        · simp only [Dev.count_nfc, List.prefix_rfl]
    · simp only [Dev.count_nfc, List.prefix_rfl]

theorem Dev.invSlots_fifo (n : Nat) : ∀ (d : Dev) (x : InvSt), d.nfc.fifo <+: (d.invSlots x n).2.nfc.fifo := by
  induction n with
  | zero => exact fun _ _ => List.prefix_rfl
  | succ n ih => exact fun d x => (Dev.invSlot_fifo { d with nfc := { d.nfc with out := d.nfc.out ++ [nfNext x.ack false] } } x).trans (ih _ _)

/-- An inventory adds to the FIFO alone. -/
theorem Dev.invFrames_fifo (n : Nat) : ∀ (d : Dev) (q : Nat) (ack : Option Nat) (heard : List (Option (List Byte))),
    d.nfc.fifo <+: (d.invFrames q ack heard n).2.nfc.fifo := by
  induction n with
  | zero => exact fun _ _ _ _ => List.prefix_rfl
  | succ n ih =>
    intro d q ack heard
    have hslot := Dev.invSlot_fifo { d with nfc := { d.nfc with out := d.nfc.out ++ [nfInvent q ack] } } ⟨0, false, none, heard⟩
    unfold Dev.invFrames
    dsimp only
    generalize Dev.invSlot { d with nfc := { d.nfc with out := d.nfc.out ++ [nfInvent q ack] } } ⟨0, false, none, heard⟩ = r at *
    have hslots := hslot.trans (r.2.invSlots_fifo (2 ^ q - 1) r.1)
    generalize r.2.invSlots r.1 (2 ^ q - 1) = s at *
    split
    · dsimp only
      split
      · exact hslots
      · exact hslots
    · exact hslots.trans (ih _ _ _ _)

section
variable {heard : List (Option (List Byte))}

/-- An exchange ends with what its other party sent. -/
theorem exec_nfcCommandEnd_exchange (h3 : d.nfc.op = 3) (hg : d.guardOver = true) {e : Dev} (he : (match heard.headD none with
    | none => d.nfcEnd nrNORESP
    | some f => match nfcOpen f with
      | none => d.nfcEnd nrCRCERR
      | some b => if d.nfcBus d.nfcRx (b.take 64).length true then ((d.setBytes d.nfcRx (b.take 64)).put NFC_STAT NFC_STAT_RXLEN (b.take 64).length).nfcEnd nrOK
        else d.nfcEnd nrBUSFAULT) = e) : Gives (.nfcCommandEnd heard) ⟨d, q⟩ e := by
  refine gives_of_run rfl (exec_nfcCommandEnd ..) (Eq.trans ?_ he)
  rw [if_neg (by rw [h3]; decide), if_neg (by simp [hg]), if_pos h3] <;> rfl

theorem gives_nfcCommandEnd_none (h : d.nfc.op ∉ [1, 3, 4]) : Gives (.nfcCommandEnd heard) ⟨d, q⟩ d := by
  simp only [List.mem_cons, List.not_mem_nil, or_false, not_or] at h
  obtain ⟨h1, h3, h4⟩ := h
  refine gives_of_run rfl (exec_nfcCommandEnd ..) ?_
  rw [if_neg h1, if_neg h3, if_neg h4]
  exact ite_self _

theorem gives_nfcCommandEnd_early (h1 : d.nfc.op = 1) (hm : d.carrierMay = false) : Gives (.nfcCommandEnd heard) ⟨d, q⟩ d :=
  gives_of_run rfl (exec_nfcCommandEnd ..) ((if_pos h1).trans (if_neg (by simp [hm])))

theorem after_nfcCommandEnd_carrier (h1 : d.nfc.op = 1) (hm : d.carrierMay = true) : After (.nfcCommandEnd heard) ⟨d, q⟩ fun t =>
    t.flag NFC_STAT NFC_STAT_CARRIER = true ∧ t.flag NFC_STAT NFC_STAT_BUSY = false ∧ t.get NFC_STAT NFC_STAT_RESULT = nrOK ∧ t.nfc.op = 0 := by
  obtain ⟨hcar, hnfc, hres, -, hbusy, -⟩ := d.carrierNow_shows
  exact after_of (gives_of_run rfl (exec_nfcCommandEnd ..) ((if_pos h1).trans (if_pos ⟨h1, hm⟩))) ⟨hcar, hbusy, hres, congrArg (·.op) hnfc⟩

theorem after_nfcCommandEnd_inventory (h4 : d.nfc.op = 4) (hg : d.guardOver = true) : After (.nfcCommandEnd heard) ⟨d, q⟩ fun t =>
    t.nfc.op = 0 ∧ t.flag NFC_STAT NFC_STAT_BUSY = false ∧ t.flag NFC_STAT NFC_STAT_DONE = true ∧ d.nfc.fifo <+: t.nfc.fifo := by
  have hfifo := Dev.invFrames_fifo (d.get NFC_INV NFC_INV_MAXFRAMES) d (d.get NFC_INV NFC_INV_QINIT) none heard
  have hrun : Gives (.nfcCommandEnd heard) ⟨d, q⟩ ((d.invFrames (d.get NFC_INV NFC_INV_QINIT) none heard (d.get NFC_INV NFC_INV_MAXFRAMES)).2.nfcSync.nfcEnd
      (d.invFrames (d.get NFC_INV NFC_INV_QINIT) none heard (d.get NFC_INV NFC_INV_MAXFRAMES)).1) := by
    refine gives_of_run rfl (exec_nfcCommandEnd ..) ?_
    rw [if_neg (by rw [h4]; decide), if_neg (by simp [hg]), if_neg (by rw [h4]; decide), if_pos h4]
  generalize d.invFrames (d.get NFC_INV NFC_INV_QINIT) none heard (d.get NFC_INV NFC_INV_MAXFRAMES) = r at *
  obtain ⟨hnfc, hbusy, hdone⟩ := r.2.nfcSync.nfcEnd_shows r.1
  refine after_of hrun ⟨congrArg (·.op) hnfc, hbusy, hdone, ?_⟩
  exact hfifo.trans (by rw [Dev.settle_nfc, Dev.wakeBy_nfc, hnfc]; exact List.prefix_rfl)

end

theorem after_suidRead {x : Nat} {r : List Nat} (ho : BusOpen ⟨d, q⟩ c NFC_SUID_HI false) (hf : d.nfc.fifo = x :: r) : After (.suidRead c) ⟨d, q⟩ fun t =>
    t.rdata = d.reg NFC_SUID_HI ∧ t.nfc.fifo = r ∧ t.get NFC_INVN NFC_INVN_N = r.length % 2 ^ NFC_INVN_N.width := by
  refine after_of (gives_of_runCore rfl ho (exec_suidRead ..) rfl) ⟨rfl, congrArg (List.drop 1) hf, ?_⟩
  refine (Dev.get_put_same _ _ _ _ (by decide) (by decide)).trans ?_
  exact congrArg (fun l => (List.drop 1 l).length % 2 ^ NFC_INVN_N.width) hf

/-! ### Requests to a head (R392, R396, R400, R402, R403) -/

section
variable {f r : List Byte}

theorem gives_cardRequest_turned (hopen : nfcOpen f = some r) (h : d.fieldOn 6 = false ∨ d.get PWR_STAT PWR_STAT_STATE ≠ 0 ∨ d.get NFC_CTL NFC_CTL_MODE ≠ 2 ∨
    d.flag NFC_STAT NFC_STAT_CRXF = true ∨ d.nfc.note ≠ none ∨ d.rests 13 = true) : Gives (.cardRequest f) ⟨d, q⟩ d := by
  refine gives_of_run rfl (exec_cardRequest ..) ?_
  simp only [hopen]
  refine if_neg ?_
  rcases h with h | h | h | h | h | h <;> simp [h]

section
variable (hlen : 10 ≤ r.length) (hmax : r.length ≤ 64) (hone : u8 r 0 = 1) (hmine : d.nfMine r = true)
include hlen hmax hone hmine

/-- An addressed request of one command reaches its answer. -/
theorem Dev.nfcRequest_addressed {insp : Bool} (hcmd : ¬ (1 ≤ u8 r 1 ∧ u8 r 1 ≤ 3)) : d.nfcRequest insp r =
    match u8 r 1 with
    | 0x10 => Dev.respond { d with nfc := { d.nfc with out := [] } } (d.nfcRead insp (r.drop 10)).1 (d.nfcRead insp (r.drop 10)).2
    | 0x12 => Dev.noteStart { d with nfc := { d.nfc with out := [] } } insp (r.drop 10)
    | 0x30 | 0x31 | 0x32 => if insp then Dev.respond { d with nfc := { d.nfc with out := [] } } nsNOTAVAIL [] else Dev.toFirmware { d with nfc := { d.nfc with out := [] } } r
    | _ => Dev.respond { d with nfc := { d.nfc with out := [] } } nsNOTSUPP [] := by
  have haddr : nfAddr r = true := by rw [nfAddr, hone]; rfl
  have hpars : nfPars r = r.drop 10 := by rw [nfPars, if_pos haddr]
  have hmine' : Dev.nfMine { d with nfc := { d.nfc with out := [] } } r = true := hmine
  have hread : Dev.nfcRead { d with nfc := { d.nfc with out := [] } } insp (r.drop 10) = d.nfcRead insp (r.drop 10) := rfl
  unfold Dev.nfcRequest
  dsimp only
  rw [if_neg (by simp only [hone, hmine', haddr]; simp; omega), if_neg hcmd, if_neg (by simp [haddr]), hpars, hread] <;> rfl

variable (hon : d.fieldOn 6 = true) (hstate : d.get PWR_STAT PWR_STAT_STATE = 0) (hmode : d.get NFC_CTL NFC_CTL_MODE = 2)
  (hcrxf : d.flag NFC_STAT NFC_STAT_CRXF = false) (hnote : d.nfc.note = none) (hrest : d.rests 13 = false)
include hon hstate hmode hcrxf hnote hrest

omit hlen hmax hone hmine in
theorem gives_cardRequest {e : Dev} (hopen : nfcOpen f = some r) (he : d.nfcRequest false r = e) : Gives (.cardRequest f) ⟨d, q⟩ e := by
  refine gives_of_run rfl (exec_cardRequest ..) ?_
  simp only [hopen]
  exact (if_pos (by simp [hon, hstate, hmode, hcrxf, hnote, hrest])).trans he

end

end

/-- The words of a note move memory and a counter of the flash alone. -/
theorem Dev.noteWords_frame {α : Type} {g : Dev → α} (hset : ∀ (d : Dev) (a : Nat) (l : List Byte), g (d.setBytes a l) = g d)
    (hflash : ∀ (d : Dev) x y, g { d with flWeak := x, flErr := y } = g d) (hcount : ∀ d : Dev, g (d.count (FLC_CNT 6)) = g d) (n : Nat) :
    ∀ (d : Dev) (a good : Nat) (b : List Byte), g (d.noteWords a good b n) = g d := by
  have hprog : ∀ (d : Dev) (a : Nat) (b : List Byte) (ok : Bool), g (d.progVerify a b ok) = g d := fun d a b ok => by
    unfold Dev.progVerify
    dsimp only
    split
    · exact (hflash _ _ _).trans (hset _ _ _)
    · exact (hcount _).trans ((hflash _ _ _).trans (hset _ _ _))
  induction n with
  | zero => exact fun _ _ _ _ => rfl
  | succ n ih =>
    intro d a good b
    unfold Dev.noteWords
    dsimp only
    split
    · exact hprog _ _ _ _
    · exact (ih _ _ _ _).trans (hprog _ _ _ _)

/-- The bank of an engine that is the last at work, where no command and no move runs, is free. -/
theorem Dev.engEnd_free {b : Nat} (hop : (d.bankOfs b).op = 0) (heng : (d.bankOfs b).eng ≤ 1) (hmove : d.flag (FLC_STAT b) FLC_STAT_MOVE = false) :
    (d.engEnd b).flag (FLC_STAT b) FLC_STAT_BUSY = false := by
  have hbank : (d.setBank b { d.bankOfs b with eng := (d.bankOfs b).eng - 1 }).bankOfs b = { d.bankOfs b with eng := (d.bankOfs b).eng - 1 } :=
    (sget_sset _ _ _ _ _).trans (if_pos rfl)
  have hmove' : (d.setBank b { d.bankOfs b with eng := (d.bankOfs b).eng - 1 }).flag (FLC_STAT b) FLC_STAT_MOVE = false := hmove
  have hidle : ¬ 0 < (d.bankOfs b).eng - 1 := by omega
  rw [Dev.engEnd, Dev.bankShow, Dev.flag_putB _ _ _ (by decide) (by decide), hbank, hmove']
  simp [hop, hidle]

/-- What the answer to a note depends on. -/
def Dev.noteView (d : Dev) := (d.nfc, d.pwr, d.reg NFC_STAT, d.reg PWR_STAT, d.reg NFC_CTL, d.reg (FLC_STAT 2))

theorem Dev.noteView_put (d : Dev) {a : Nat} (f : Fld) (v : Nat) (h : a ∉ [NFC_STAT, PWR_STAT, NFC_CTL, FLC_STAT 2]) : (d.put a f v).noteView = d.noteView := by
  simp only [List.mem_cons, List.not_mem_nil, or_false, not_or] at h
  obtain ⟨h1, h2, h3, h4⟩ := h
  unfold Dev.noteView
  rw [Dev.reg_put_other _ _ _ _ _ (Ne.symm h1), Dev.reg_put_other _ _ _ _ _ (Ne.symm h2), Dev.reg_put_other _ _ _ _ _ (Ne.symm h3), Dev.reg_put_other _ _ _ _ _ (Ne.symm h4)]
  rfl

theorem Dev.noteView_count (d : Dev) {a : Nat} (h : a ∉ [NFC_STAT, PWR_STAT, NFC_CTL, FLC_STAT 2]) : (d.count a).noteView = d.noteView := by
  unfold Dev.count
  split
  · exact d.noteView_put _ _ h
  · exact d.noteView_put _ _ h

theorem Dev.noteView_noteWords (d : Dev) (a good : Nat) (b : List Byte) (n : Nat) : (d.noteWords a good b n).noteView = d.noteView :=
  Dev.noteWords_frame (g := Dev.noteView) (Dev.setBytes_frame (fun _ _ _ => rfl) (fun _ _ => rfl)) (fun _ _ _ => rfl) (fun e => e.noteView_count (by decide)) n d a good b

theorem Dev.noteAwaited_of_view {e : Dev} (h : e.noteView = d.noteView) : e.noteAwaited = d.noteAwaited := by
  simp only [Dev.noteView, Prod.mk.injEq] at h
  obtain ⟨hnfc, hpwr, -, hstate, hctl, -⟩ := h
  unfold Dev.noteAwaited Dev.get Dev.fieldOn
  rw [hnfc, hpwr, hstate, hctl]

/-- The device once the words of a note are programmed: the note leaves, the engine gives the bank back. -/
def Dev.noteGone (d : Dev) : Dev := { d with nfc := { d.nfc with note := none } }.engEnd 2

theorem Dev.noteGone_view (d : Dev) : d.noteGone.nfc = { d.nfc with note := none } ∧ d.noteGone.reg NFC_STAT = d.reg NFC_STAT ∧ d.noteGone.noteAwaited = d.noteAwaited := by
  have hother : ∀ a, a ≠ FLC_STAT 2 → d.noteGone.reg a = d.reg a := fun a ha => Dev.reg_put_other _ _ _ _ _ ha
  refine ⟨rfl, hother _ (by decide), ?_⟩
  unfold Dev.noteAwaited Dev.get
  rw [hother _ (by decide), hother _ (by decide)]
  rfl

/-- A stored note is counted and shown (R403). -/
def Dev.noteKept (d : Dev) (good : Nat) : Dev := d.when (decide (4 ≤ good)) (fun d => (d.count (NFC_CNT 7)).put NFC_STAT NFC_STAT_MBOXF 1)

theorem Dev.noteKept_shows (d : Dev) (good : Nat) : (d.noteKept good).nfc = d.nfc ∧ (d.noteKept good).reg (FLC_STAT 2) = d.reg (FLC_STAT 2) ∧
    (d.noteKept good).flag NFC_STAT NFC_STAT_MBOXF = (decide (4 ≤ good) || d.flag NFC_STAT NFC_STAT_MBOXF) := by
  unfold Dev.noteKept Dev.when
  split
  next h =>
    refine ⟨Dev.count_nfc _ _, ?_, ?_⟩
    · rw [Dev.reg_put_other _ _ _ _ _ (by decide), Dev.reg_count_other _ _ _ (by decide)]
    · rw [h, Bool.true_or]
      exact Dev.flag_put_one _ _ (by decide) (by decide)
  next h => simp [h]

theorem after_noteStored {i good : Nat} {rec : List Byte} (hn : d.nfc.note = some (i, rec)) : After (.noteStored good) ⟨d, q⟩ fun t =>
    t.nfc.note = none ∧ (d.noteAwaited = true → t.nfc.out = [nfcSeal [if 4 ≤ good then 0 else 5]]) ∧ (d.noteAwaited = false → t.nfc.out = d.nfc.out) ∧
    ((d.bankOfs 2).op = 0 → (d.bankOfs 2).eng ≤ 1 → d.flag (FLC_STAT 2) FLC_STAT_MOVE = false → t.flag (FLC_STAT 2) FLC_STAT_BUSY = false) ∧
    t.flag NFC_STAT NFC_STAT_MBOXF = (decide (4 ≤ good) || d.flag NFC_STAT NFC_STAT_MBOXF) := by
  have hrun : Gives (.noteStored good) ⟨d, q⟩ (if (d.noteGone.noteWords (mboxSlot i) good rec 4).noteAwaited then
      ((d.noteGone.noteWords (mboxSlot i) good rec 4).noteKept good).respond (if 4 ≤ good then nsOK else nsWRITEFAIL) []
      else (d.noteGone.noteWords (mboxSlot i) good rec 4).noteKept good) := by
    refine gives_of_on (exec_noteStored ..) ?_
    simp only [hn]
    rfl
  have hview := d.noteGone.noteView_noteWords (mboxSlot i) good rec 4
  have hsay := Dev.noteAwaited_of_view hview
  obtain ⟨hnfc, hstat, haw⟩ := d.noteGone_view
  rw [hsay, haw] at hrun
  have hfree : (d.bankOfs 2).op = 0 → (d.bankOfs 2).eng ≤ 1 → d.flag (FLC_STAT 2) FLC_STAT_MOVE = false → d.noteGone.flag (FLC_STAT 2) FLC_STAT_BUSY = false :=
    fun hop heng hmove => Dev.engEnd_free (d := { d with nfc := { d.nfc with note := none } }) hop heng hmove
  simp only [Dev.noteView, Prod.mk.injEq] at hview
  obtain ⟨hnfc', -, hstat', -, -, hbank⟩ := hview
  generalize d.noteGone.noteWords (mboxSlot i) good rec 4 = w at *
  obtain ⟨hkeep, hkbank, hmbox⟩ := w.noteKept_shows good
  have hbusy := (Dev.flag_of_reg (hkbank.trans hbank) FLC_STAT_BUSY)
  rw [Dev.flag_of_reg (hstat'.trans hstat)] at hmbox
  rw [hnfc', hnfc] at hkeep
  generalize w.noteKept good = k at *
  have hout : (if 4 ≤ good then nsOK else nsWRITEFAIL) < 256 := by split <;> decide
  refine after_of hrun ?_
  cases hd : d.noteAwaited with
  | true =>
    rw [if_pos rfl]
    refine ⟨congrArg (·.note) hkeep, fun _ => ?_, fun h => absurd h (by simp), fun hop heng hmove => hbusy.trans (hfree hop heng hmove), hmbox⟩
    by_cases hg : 4 ≤ good <;> simp only [hg, if_true, if_false] <;> rfl
  | false =>
    rw [if_neg Bool.false_ne_true]
    exact ⟨congrArg (·.note) hkeep, fun h => absurd h (by simp), fun _ => congrArg (·.out) hkeep, fun hop heng hmove => hbusy.trans (hfree hop heng hmove), hmbox⟩

theorem after_fieldChange {on : Bool} (hon : d.fieldOn 6 = true) (hne : d.flag NFC_STAT NFC_STAT_FIELD ≠ on) : After (.fieldChange on) ⟨d, q⟩ fun t =>
    t.flag NFC_STAT NFC_STAT_FIELD = on ∧ t.flag NFC_STAT NFC_STAT_FIELDF = true ∧ (on = false → t.nfc.quiet = false ∧ t.nfc.drawn = none ∧ t.nfc.reply = none) ∧
    (on = true → t.nfc = d.nfc) := by
  have hshown : ((d.putB NFC_STAT NFC_STAT_FIELD on).put NFC_STAT NFC_STAT_FIELDF 1).flag NFC_STAT NFC_STAT_FIELD = on ∧
      ((d.putB NFC_STAT NFC_STAT_FIELD on).put NFC_STAT NFC_STAT_FIELDF 1).flag NFC_STAT NFC_STAT_FIELDF = true := by
    refine ⟨?_, Dev.flag_put_one _ _ (by decide) (by decide)⟩
    rw [Dev.flag_put_field _ _ _ (by decide) (by decide) (by decide)]
    exact Dev.flag_putB _ _ _ (by decide) (by decide)
  have hnfc : ((d.putB NFC_STAT NFC_STAT_FIELD on).put NFC_STAT NFC_STAT_FIELDF 1).nfc = d.nfc := rfl
  refine after_of (gives_of_on (exec_fieldChange ..) (if_neg (by simp [hon, hne]))) ?_
  generalize (d.putB NFC_STAT NFC_STAT_FIELD on).put NFC_STAT NFC_STAT_FIELDF 1 = e at *
  cases on with
  | true => exact ⟨hshown.1, hshown.2, fun h => absurd h (by simp), fun _ => hnfc⟩
  | false => exact ⟨hshown.1, hshown.2, fun _ => ⟨rfl, rfl, rfl⟩, fun h => absurd h (by simp)⟩

end

/-- Settles O52. -/
theorem contactless : Obligations.Contactless := by
  unfold Obligations.Contactless
  refine ⟨fun d q c heard f b x r => ?_, fun d q f r rec i good on => ?_⟩
  · intro e rows
    refine ⟨fun row hrow ho => ⟨fun hb => gives_nfcRow hrow ho (Dev.nfcCmd_busy hb), fun res hb hj => gives_nfcRow hrow ho (Dev.nfcCmd_judged hb (nfcRows_op hrow) hj)⟩,
      fun hm => ⟨Dev.nfcJudge_mode hm (by decide), Dev.nfcJudge_mode hm (by decide)⟩, Dev.nfcJudge_field,
      fun ho hb => ⟨gives_carrierOn_on ho hb, after_carrierOn ho hb, fun y => gives_carrierOn_waits ho hb, after_carrierOff ho hb, after_nfcSend ho hb,
        after_nfcInventory ho hb, after_cresp ho hb, after_cdrop ho hb⟩,
      after_suidRead, gives_nfcCommandEnd_none, gives_nfcCommandEnd_early, after_nfcCommandEnd_carrier, fun h1 hg => ?_,
      fun h3 hg => ⟨fun hh => ?_, fun hh hopen => ?_, fun hh hopen hbus => ?_, fun hh hopen hbus => ?_⟩, after_nfcCommandEnd_inventory, fun ho => ?_⟩
    · exact gives_of_run rfl (exec_nfcCommandEnd ..) ((if_neg h1).trans (if_pos (by simp [hg])))
    · exact exec_nfcCommandEnd_exchange h3 hg (by simp only [hh])
    · exact exec_nfcCommandEnd_exchange h3 hg (by simp only [hh, hopen])
    · exact exec_nfcCommandEnd_exchange h3 hg (by simp only [hh, hopen, hbus, if_true])
    · exact exec_nfcCommandEnd_exchange h3 hg (by simp only [hh, hopen, hbus, Bool.false_eq_true, if_false])
    · exact gives_of_askCore rfl ho (exec_tornWrite ..) rfl
  · refine ⟨fun hopen => ⟨?_, ?_⟩, fun hopen => ⟨gives_cardRequest_turned hopen, fun hon hstate hmode hcrxf hnote hrest hlen hmax hone hmine => ?_, fun h => ?_,
      fun hstate himg hnote hlen hmax hone hmine hcmd => ?_⟩, fun hw hs => ?_, fun h => ?_, fun hn => ?_, fun hn => ?_, fun h => ?_, fun hon hne => ?_⟩
    · refine gives_of_run rfl (exec_cardRequest ..) ?_
      simp only [hopen]
    · refine gives_of_on (exec_inspectRequest ..) ?_
      simp only [hopen]
    · intro z
      have hgo : ∀ {e : Dev}, ¬ (1 ≤ u8 r 1 ∧ u8 r 1 ≤ 3) → _ = e → Gives (.cardRequest f) ⟨d, q⟩ e := fun hcmd he =>
        gives_cardRequest hon hstate hmode hcrxf hnote hrest hopen ((Dev.nfcRequest_addressed hlen hmax hone hmine hcmd).trans he)
      refine ⟨fun h => hgo (by omega) ?_, fun h => hgo (by omega) ?_, fun h => hgo (by omega) ?_, fun h => hgo (by omega) ?_⟩
      · simp only [h]
        rfl
      · simp only [h]
        rfl
      · rcases h with h | h | h <;> simp only [h] <;> rfl
      · simp only [h]
        rfl
    · refine gives_of_on (exec_inspectRequest ..) ?_
      simp only [hopen]
      refine if_neg ?_
      rcases h with h | h | h <;> simp [h]
    · refine gives_of_on (exec_inspectRequest ..) ?_
      simp only [hopen]
      refine (if_pos (by simp [hstate, hnote, Option.isSome_iff_ne_none.mpr himg])).trans ((Dev.nfcRequest_addressed hlen hmax hone hmine (by omega)).trans ?_)
      simp only [hcmd]
    · exact gives_of_run rfl (exec_cardTimeout ..) (if_pos (by simp [hw, State.arrives, hs]))
    · refine gives_of_run rfl (exec_cardTimeout ..) (if_neg ?_)
      rcases h with h | h <;> simp [State.arrives, h]
    · refine gives_of_on (exec_noteStored ..) ?_
      simp only [hn]
    · exact after_noteStored hn
    · refine gives_of_on (exec_fieldChange ..) (if_pos ?_)
      rcases h with h | h <;> simp [h]
    · exact after_fieldChange hon hne

end Sys2Proof.Machine
end

section
/-! A reason to wake that finds an entry under way (R369, R371). -/

namespace Sys2Proof.Machine

/-- The device runs in the state ACTIVE with no field powered, and an entry into LISTEN is under way. -/
def entryUnpowered : Dev :=
  { Dev.reset with
    pwr := { PowerSt.init with phase := .running, pins := .sown, brownOut := false, fields := 0, entry := some ⟨psLISTEN, [], false⟩ }
    clk := { ClockSt.init with rootUp := true } }

/-- Whether the pulse of source 1055 waits in the next state, where the command answers one. -/
def pulsedNext (i : Instr) (s : State) : Option Bool :=
  match exec i s with
  | .next t => some (sget false t.dev.irqPulse 1055)
  | _ => none

theorem entryUnpowered_roused : entryUnpowered.wakeEnabled 1 = true ∧ entryUnpowered.wakeSource 1 = true ∧ entryUnpowered.pwrState = 0 ∧
    wakeFrom 1 psLISTEN = true := by decide +kernel

theorem entryUnpowered_silent : pulsedNext (.wake 1) ⟨entryUnpowered, []⟩ = some false := by decide +kernel

/-- Refutes O50: a reason to wake aborts the entry under way, but where the field of the interrupt controller is not powered, the pulse of source 1055
that tells of it is lost. The statement gives the pulse in every such state. -/
theorem not_powerStates : ¬ Obligations.PowerStates := by
  unfold Obligations.PowerStates
  intro ⟨_, h⟩
  obtain ⟨hen, hsrc, hstate, hfrom⟩ := entryUnpowered_roused
  obtain ⟨_, _, _, _, hwake, _⟩ := h entryUnpowered [] 1 ⟨psLISTEN, [], false⟩ 0
  obtain ⟨_, _, habort, _⟩ := hwake rfl rfl hen hsrc rfl (fun _ _ hk => absurd hk List.not_mem_nil)
  obtain ⟨t, hexec, _, _, _, _, _, hpulse⟩ := habort hstate rfl hfrom (.inr rfl)
  have hnext := entryUnpowered_silent
  rw [pulsedNext, hexec] at hnext
  exact absurd (Option.some.inj hnext) (by rw [hpulse]; decide)

end Sys2Proof.Machine
end

section
/-! What a switch of images clears, and what it leaves of the images' own state, the plan and memory (R421). -/

namespace Sys2Proof.Machine

/-! ### What a switch of images leaves of the rest (R421) -/

/-- What an image switch goes by: the images' own state, the plan, memory, and the registers below those of the blocks that it clears. -/
def Dev.imgView (d : Dev) := (d.svc, d.sow, d.mem, fun a => if a < IRQ_CFG 0 then d.reg a else 0)

section
variable (d : Dev)

theorem Dev.imgView_of_same {d e : Dev} (hsvc : e.svc = d.svc) (hsow : e.sow = d.sow) (hmem : e.mem = d.mem) (hregs : e.regs = d.regs) : e.imgView = d.imgView := by
  have hreg : e.reg = d.reg := by funext a; rw [Dev.reg, hregs, ← Dev.reg]
  rw [Dev.imgView, hsvc, hsow, hmem, hreg, ← Dev.imgView]

theorem Dev.imgView_setReg {a : Nat} (v : Word) (h : IRQ_CFG 0 ≤ a) : (d.setReg a v).imgView = d.imgView := by
  have hlow : (fun b => if b < IRQ_CFG 0 then (d.setReg a v).reg b else 0) = fun b => if b < IRQ_CFG 0 then d.reg b else 0 := by
    funext b
    split
    · exact Dev.reg_setReg_other _ _ _ _ (by omega)
    · rfl
  rw [Dev.imgView, hlow]
  rfl

theorem Dev.imgView_put {a : Nat} (f : Fld) (v : Nat) (h : IRQ_CFG 0 ≤ a) : (d.put a f v).imgView = d.imgView := d.imgView_setReg _ h

theorem Dev.imgView_count {a : Nat} (h : IRQ_CFG 0 ≤ a) : (d.count a).imgView = d.imgView := by
  unfold Dev.count
  split
  · exact d.imgView_put _ _ h
  · exact d.imgView_put _ _ h

theorem Dev.imgView_cacheSync : d.cacheSync.imgView = d.imgView :=
  (Dev.imgView_put _ _ _ (by decide)).trans (d.imgView_put _ _ (by decide))

theorem Dev.imgView_setCache (i : Nat) (x : CacheE) : (d.setCache i x).imgView = d.imgView := Dev.imgView_cacheSync { d with cache := sset CacheE.init d.cache i x }

theorem Dev.imgView_relayEnd (i origin mseq code : Nat) : (d.relayEnd i origin mseq code).imgView = d.imgView := by
  unfold Dev.relayEnd
  dsimp only
  split
  · exact (Dev.imgView_count _ (by decide)).trans (d.imgView_setCache _ _)
  · exact d.imgView_cacheSync

theorem Dev.imgView_descEnd (x : Desc) (status code : Nat) : (d.descEnd x status code).imgView = d.imgView := by
  unfold Dev.descEnd
  dsimp only
  split
  · exact Dev.imgView_relayEnd _ _ _ _ _
  · rfl

theorem Dev.imgView_unawait (i k : Nat) : (d.unawait i k).imgView = d.imgView := Dev.imgView_of_same rfl rfl rfl rfl

theorem Dev.imgView_chtPut (i w : Nat) (f : Fld) (v : Nat) : (d.chtPut i w f v).imgView = d.imgView := Dev.imgView_of_same rfl rfl rfl rfl

theorem Dev.imgView_setQueue (i : Nat) (l : List Nat) : (d.setQueue i l).imgView = d.imgView := by
  rw [Dev.setQueue, Dev.imgView_chtPut, Dev.imgView_chtPut, Dev.imgView_chtPut]
  exact Dev.imgView_of_same rfl rfl rfl rfl

theorem Dev.imgView_setPool (k : Nat) (x : Option QDesc) : (d.setPool k x).imgView = d.imgView := by
  rw [Dev.setPool, Dev.imgView_put _ _ _ (by decide)]
  exact Dev.imgView_of_same rfl rfl rfl rfl

theorem Dev.imgView_complete (tag status code : Nat) : (d.complete tag status code).imgView = d.imgView := Dev.imgView_of_same rfl rfl rfl rfl

theorem Dev.imgView_unqueue (i k : Nat) (status : Option Nat) (code : Nat) : (d.unqueue i k status code).imgView = d.imgView := by
  unfold Dev.unqueue
  dsimp only
  cases status <;> simp only [Dev.imgView_complete, apply_ite Dev.imgView, ite_self, Dev.imgView_chtPut, Dev.imgView_setPool, Dev.imgView_setQueue, Dev.imgView_unawait]

theorem Dev.imgView_shaFree (n : Nat) : (d.shaFree n).imgView = d.imgView := by
  have hstat : IRQ_CFG 0 ≤ SHA_STAT n := by unfold SHA_STAT IRQ_CFG; omega
  unfold Dev.shaFree
  dsimp only
  split
  · exact Dev.imgView_setReg (d.setSha n _) _ hstat
  · exact Dev.imgView_put (d.setSha n _) _ _ hstat

theorem Dev.imgView_switchQueues : d.switchQueues.imgView = d.imgView := by
  unfold Dev.switchQueues
  dsimp only
  rw [foldl_frame (g := Dev.imgView) fun (e : Dev) n => e.imgView_shaFree n]
  refine Eq.trans (b := Dev.imgView (List.foldl _ _ _)) rfl ?_
  rw [foldl_frame (g := Dev.imgView) (fun (e : Dev) (q : Nat × List Nat) => foldl_frame (g := Dev.imgView) (fun (e : Dev) k => e.imgView_unqueue q.1 k _ _) _ e),
    foldl_frame (g := Dev.imgView) fun (e : Dev) x => e.imgView_descEnd x _ _]

theorem Dev.imgView_switchLocks : d.switchLocks.imgView = d.imgView :=
  (Dev.imgView_setReg _ _ (by decide)).trans (Dev.imgView_setReg { d with locks := [] } _ (by decide))

theorem IRQ_CFG_above (n : Nat) : IRQ_CFG 0 ≤ IRQ_CFG n := by unfold IRQ_CFG; omega

theorem IRQ_HOLD_above (n : Nat) : IRQ_CFG 0 ≤ IRQ_HOLD n := by unfold IRQ_HOLD IRQ_CFG; omega

theorem Dev.imgView_srcIdle (n : Nat) : (d.srcIdle n).imgView = d.imgView := by
  unfold Dev.srcIdle
  dsimp only
  have h : ((d.put (IRQ_CFG n) IRQ_CFG_ACT 0).put (IRQ_CFG n) IRQ_CFG_ONCORE 7).imgView = d.imgView :=
    (Dev.imgView_put _ _ _ (IRQ_CFG_above n)).trans (d.imgView_put _ _ (IRQ_CFG_above n))
  split
  · exact h
  · exact (Dev.imgView_put _ _ _ (IRQ_CFG_above n)).trans h

theorem Dev.imgView_holdPut (g : Nat) (f : Fld) (v : Nat) : (d.put (IRQ_HOLD g) f v).imgView = d.imgView := d.imgView_put f v (IRQ_HOLD_above g)

theorem Dev.imgView_holdEnd (g : Nat) : (d.holdEnd g).imgView = d.imgView := by
  rw [← d.imgView_holdPut g IRQ_HOLD_RUN 0]
  exact Dev.imgView_of_same rfl rfl rfl rfl

theorem Dev.imgView_holdRun (g : Nat) : (d.holdRun g).imgView = d.imgView := by
  rw [← d.imgView_holdPut g IRQ_HOLD_RUN 1]
  exact Dev.imgView_of_same rfl rfl rfl rfl

theorem Dev.imgView_holdWrite (g : Nat) (v : Word) : (d.holdWrite g v).imgView = d.imgView := by
  unfold Dev.holdWrite Dev.holdSet
  dsimp only
  split
  · exact d.imgView_holdPut ..
  · split
    · exact (Dev.imgView_holdEnd ..).trans (d.imgView_holdPut ..)
    · exact (Dev.imgView_holdRun ..).trans (d.imgView_holdPut ..)

/-- A source takes EN and PRI of the plan (Table 16.2). -/
def Dev.srcByPlan (b : List Byte) (n : Nat) : Dev :=
  let v := BitVec.ofNat 32 (u16 b (2 * n))
  let a := IRQ_CFG n
  let d := if d.get a IRQ_CFG_EN = getF v IRQ_CFG_EN then d else d.put a IRQ_CFG_EN (getF v IRQ_CFG_EN)
  if d.get a IRQ_CFG_PRI = getF v IRQ_CFG_PRI then d else d.put a IRQ_CFG_PRI (getF v IRQ_CFG_PRI)

theorem Dev.imgView_srcByPlan (b : List Byte) (n : Nat) : (d.srcByPlan b n).imgView = d.imgView := by
  unfold Dev.srcByPlan
  dsimp only
  split <;> split <;> simp only [Dev.imgView_put _ _ _ (IRQ_CFG_above n)]

theorem Dev.imgView_switchIrq : d.switchIrq.imgView = d.imgView := by
  unfold Dev.switchIrq
  dsimp only
  refine (Dev.imgView_setReg _ _ (by decide)).trans ?_
  rw [foldl_frame (g := Dev.imgView) fun (e : Dev) g => e.imgView_holdWrite g _]
  refine (foldl_frame (g := Dev.imgView) (fun (e : Dev) n => e.imgView_srcByPlan _ n) _ _).trans ?_
  exact foldl_frame (g := Dev.imgView) (fun (e : Dev) (c : Fin 7) => foldl_frame (g := Dev.imgView) (fun (e : Dev) (x : Nat × Nat) => e.imgView_srcIdle x.1) _
    (e.setCore c { e.core c with stk := [] })) _ _

/-- The device as the images find it at a switch: queues, locks and interrupts cleared. -/
def Dev.switchCleared : Dev := d.switchQueues.switchLocks.switchIrq

theorem Dev.imgView_switchCleared : d.switchCleared.imgView = d.imgView :=
  (Dev.imgView_switchIrq _).trans ((Dev.imgView_switchLocks _).trans d.imgView_switchQueues)

end

end Sys2Proof.Machine
end

section
/-! The cores and the image that starts at a switch (R417, R421). -/

namespace Sys2Proof.Machine

/-! ### The parts of the view -/

section
variable {d e : Dev} (h : e.imgView = d.imgView)
include h

theorem Dev.svc_of_imgView : e.svc = d.svc := congrArg (fun v => v.1) h

theorem Dev.sow_of_imgView : e.sow = d.sow := congrArg (fun v => v.2.1) h

theorem Dev.mem_of_imgView : e.mem = d.mem := congrArg (fun v => v.2.2.1) h

theorem Dev.reg_of_imgView {a : Nat} (ha : a < IRQ_CFG 0) : e.reg a = d.reg a := by
  have hreg := congrFun (congrArg (fun v => v.2.2.2) h) a
  dsimp only [Dev.imgView] at hreg
  rwa [if_pos ha, if_pos ha] at hreg

end

/-! ### The cores at a switch -/

section
variable (d : Dev)

/-- What a core's restart goes by: the images' own state, the plan, memory, and the entries. -/
def Dev.entryView (d : Dev) := (d.svc, d.sow, d.mem, fun k : Fin 7 => d.reg (SYS_ENTRY k))

theorem Dev.entryView_setReg {a : Nat} (v : Word) (h : ∀ k : Fin 7, SYS_ENTRY k ≠ a) : (d.setReg a v).entryView = d.entryView := by
  have hreg : (fun k : Fin 7 => (d.setReg a v).reg (SYS_ENTRY k)) = fun k : Fin 7 => d.reg (SYS_ENTRY k) := by
    funext k
    exact Dev.reg_setReg_other _ _ _ _ (h k)
  rw [Dev.entryView, hreg]
  rfl

theorem SYS_ENTRY_ne {a : Nat} (ha : a < SYS_ENTRY 0 ∨ SYS_ENTRY 7 ≤ a) (k : Fin 7) : SYS_ENTRY k ≠ a := by
  unfold SYS_ENTRY at *
  omega

theorem PWR_PLEVEL_above (c : Nat) : SYS_ENTRY 7 ≤ PWR_PLEVEL c := by unfold SYS_ENTRY PWR_PLEVEL; omega

theorem Dev.entryView_put {a : Nat} (f : Fld) (v : Nat) (ha : a < SYS_ENTRY 0 ∨ SYS_ENTRY 7 ≤ a) : (d.put a f v).entryView = d.entryView :=
  d.entryView_setReg _ (SYS_ENTRY_ne ha)

theorem Dev.entryView_count {a : Nat} (ha : a < SYS_ENTRY 0 ∨ SYS_ENTRY 7 ≤ a) : (d.count a).entryView = d.entryView := by
  unfold Dev.count
  split
  · exact d.entryView_put _ _ ha
  · exact d.entryView_put _ _ ha

theorem Dev.entryView_of_same {d e : Dev} (hsvc : e.svc = d.svc) (hsow : e.sow = d.sow) (hmem : e.mem = d.mem) (hregs : e.regs = d.regs) : e.entryView = d.entryView := by
  have hreg : e.reg = d.reg := by funext a; rw [Dev.reg, hregs, ← Dev.reg]
  rw [Dev.entryView, hsvc, hsow, hmem, hreg, ← Dev.entryView]

theorem Dev.entryView_setResv (h mw : Nat) : (d.setResv h mw).entryView = d.entryView := by
  rw [Dev.setResv, Dev.entryView_put _ _ _ (by decide)]
  exact Dev.entryView_of_same rfl rfl rfl rfl

theorem Dev.entryView_startCore (c : Fin 7) (x : CoreSt) : ((d.setCore c x).setCoreState c 1).entryView = d.entryView := by
  rw [Dev.setCoreState, Dev.entryView_put _ _ _ (by decide)]
  exact Dev.entryView_of_same rfl rfl rfl rfl

theorem Dev.entryView_setLevel (c lvl : Nat) : (d.setLevel c lvl).entryView = d.entryView := by
  rw [Dev.setLevel, Dev.entryView_setResv, Dev.entryView_put _ _ _ (.inr (PWR_PLEVEL_above c)), Dev.entryView_put _ _ _ (.inr (PWR_PLEVEL_above c))]

theorem Dev.entryView_coreStart (c : Fin 7) (lvl : Nat) : (d.coreStart c lvl).entryView = d.entryView := by
  have hp := PWR_PLEVEL_above c
  unfold Dev.coreStart
  dsimp only
  split
  · rw [Dev.entryView_setLevel, Dev.entryView_startCore]
  · rw [Dev.entryView_put _ _ _ (.inr hp), Dev.refuseResv, Dev.entryView_put _ _ _ (by decide), Dev.entryView_count _ (by decide)]

section
variable {d e : Dev} (h : e.entryView = d.entryView)
include h

theorem Dev.svc_of_entryView : e.svc = d.svc := congrArg (fun v => v.1) h

theorem Dev.sow_of_entryView : e.sow = d.sow := congrArg (fun v => v.2.1) h

theorem Dev.mem_of_entryView : e.mem = d.mem := congrArg (fun v => v.2.2.1) h

theorem Dev.entry_of_entryView (k : Fin 7) : e.reg (SYS_ENTRY k) = d.reg (SYS_ENTRY k) := congrFun (congrArg (fun v => v.2.2.2) h) k

end

theorem mem_allCores : ∀ k : Fin 7, k ∈ allCores := by decide

/-- One core at a switch of images (R421). -/
def Dev.switchCore (d : Dev) (c : Fin 7) : Dev :=
  if d.planLevel c = 0xFF then d
  else if d.coreState c = 0 then d.coreStart c (d.get (PWR_PLEVEL c) PWR_PLEVEL_LEVEL)
  else (d.setCore c { CoreSt.init with pc := d.reg (SYS_ENTRY c) }).setCoreState c 1

theorem Dev.switchCores_eq : d.switchCores = allCores.foldl Dev.switchCore d := rfl

theorem Dev.entryView_switchCore (c : Fin 7) : (d.switchCore c).entryView = d.entryView := by
  unfold Dev.switchCore
  split
  · rfl
  · split
    · exact d.entryView_coreStart _ _
    · exact d.entryView_startCore _ _

/-- The core `c` runs from its entry. -/
def Dev.AtEntry (d : Dev) (c : Fin 7) : Prop := (d.core c).pc = d.reg (SYS_ENTRY c) ∧ d.coreState c = 1

theorem Dev.reg_startCore (c : Fin 7) (x : CoreSt) (k : Fin 7) : ((d.setCore c x).setCoreState c 1).reg (SYS_ENTRY k) = d.reg (SYS_ENTRY k) :=
  Dev.entry_of_entryView (d.entryView_startCore c x) k

theorem Dev.atEntry_startCore (c : Fin 7) : ((d.setCore c { CoreSt.init with pc := d.reg (SYS_ENTRY c) }).setCoreState c 1).AtEntry c := by
  refine ⟨?_, ?_⟩
  · rw [Dev.reg_startCore, Dev.setCoreState, Dev.put, Dev.core_setReg, Dev.core_setCore_same]
  · rw [Dev.coreState_setCoreState _ c.isLt c.isLt (by decide), if_pos rfl]

theorem Dev.startCore_other {c k : Fin 7} (x : CoreSt) (h : k ≠ c) :
    ((d.setCore c x).setCoreState c 1).core k = d.core k ∧ ((d.setCore c x).setCoreState c 1).coreState k = d.coreState k := by
  refine ⟨?_, ?_⟩
  · rw [Dev.setCoreState, Dev.put, Dev.core_setReg, Dev.core_setCore_other _ _ _ _ h]
  · rw [Dev.coreState_setCoreState _ k.isLt c.isLt (by decide), if_neg (fun e => h (Fin.ext e))]
    rfl

theorem CORESTAT_ne {a : Nat} (h : SYS_ENTRY 7 ≤ a) : SYS_CORESTAT ≠ a := by unfold SYS_CORESTAT SYS_ENTRY at *; omega

theorem Dev.coreState_setLevel (c lvl k : Nat) : (d.setLevel c lvl).coreState k = d.coreState k := by
  refine Dev.coreState_of_reg ?_ k
  rw [Dev.setLevel, Dev.setResv, Dev.reg_put_other _ _ _ _ _ (by decide)]
  exact (Dev.reg_put_other _ _ _ _ _ (CORESTAT_ne (PWR_PLEVEL_above c))).trans (Dev.reg_put_other _ _ _ _ _ (CORESTAT_ne (PWR_PLEVEL_above c)))

theorem Dev.core_setLevel (c lvl : Nat) (k : Fin 7) : (d.setLevel c lvl).core k = d.core k := rfl

/-- A core's start that its reservation refuses (R40). -/
def Dev.startRefused (d : Dev) (c : Fin 7) : Dev := (d.refuseResv (26 + c)).put (PWR_PLEVEL c) PWR_PLEVEL_ERR 1

theorem Dev.coreState_startRefused (c : Fin 7) (k : Nat) : (d.startRefused c).coreState k = d.coreState k := by
  refine Dev.coreState_of_reg ?_ k
  rw [Dev.startRefused, Dev.refuseResv, Dev.reg_put_other _ _ _ _ _ (CORESTAT_ne (PWR_PLEVEL_above c)), Dev.reg_put_other _ _ _ _ _ (by decide),
    Dev.reg_count_other _ _ _ (by decide)]

theorem Dev.core_startRefused (c k : Fin 7) : (d.startRefused c).core k = d.core k := by
  rw [Dev.startRefused, Dev.refuseResv, Dev.put, Dev.core_setReg, Dev.put, Dev.core_setReg, Dev.core, Dev.count_cores, ← Dev.core]

theorem Dev.switchCore_cases (c : Fin 7) (h : d.planLevel c ≠ 0xFF) :
    (∃ e, d.switchCore c = e ∧ e.AtEntry c ∧ ∀ k, k ≠ c → e.core k = d.core k ∧ e.coreState k = d.coreState k) ∨
    (d.coreState c = 0 ∧ d.switchCore c = d.startRefused c) := by
  have hgo := d.atEntry_startCore c
  have hother : ∀ k, k ≠ c → _ := fun k hk => d.startCore_other (c := c) { CoreSt.init with pc := d.reg (SYS_ENTRY c) } hk
  rw [Dev.switchCore, if_neg h]
  by_cases h0 : d.coreState c = 0
  · rw [if_pos h0, Dev.coreStart]
    dsimp only
    split
    · refine .inl ⟨_, rfl, ⟨?_, ?_⟩, fun k hk => ?_⟩
      · rw [Dev.entry_of_entryView (Dev.entryView_setLevel ..), Dev.core_setLevel]
        exact hgo.1
      · rw [Dev.coreState_setLevel]
        exact hgo.2
      · rw [Dev.coreState_setLevel, Dev.core_setLevel]
        exact hother k hk
    · exact .inr ⟨h0, rfl⟩
  · rw [if_neg h0]
    exact .inl ⟨_, rfl, hgo, hother⟩

theorem Dev.planLevel_switchCore (c k : Fin 7) : (d.switchCore c).planLevel k = d.planLevel k := by
  have hsow : (d.switchCore c).sow = d.sow := Dev.sow_of_entryView (d.entryView_switchCore c)
  rw [Dev.planLevel, Dev.plan8, Dev.sec, hsow]
  rfl

theorem Dev.entryView_switchCores : d.switchCores.entryView = d.entryView :=
  foldl_frame (g := Dev.entryView) (fun (e : Dev) (c : Fin 7) => e.entryView_switchCore c) _ _

theorem Dev.switchCore_other {c k : Fin 7} (h : k ≠ c) : (d.switchCore c).core k = d.core k ∧ (d.switchCore c).coreState k = d.coreState k := by
  by_cases hp : d.planLevel c = 0xFF
  · rw [Dev.switchCore, if_pos hp]
    exact ⟨rfl, rfl⟩
  · rcases d.switchCore_cases c hp with ⟨e, he, -, hother⟩ | ⟨-, he⟩
    · rw [he]
      exact hother k h
    · rw [he]
      exact ⟨d.core_startRefused c k, d.coreState_startRefused c k⟩

theorem Dev.switchCore_atEntry {c : Fin 7} (hp : d.planLevel c ≠ 0xFF) (h0 : d.coreState c ≠ 0) : (d.switchCore c).AtEntry c := by
  rcases d.switchCore_cases c hp with ⟨e, he, hat, -⟩ | ⟨h, -⟩
  · rwa [he]
  · exact absurd h h0

theorem Dev.switchCore_keeps {P : Dev → Prop} {c k : Fin 7} (hcong : ∀ e, e.core k = d.core k ∧ e.coreState k = d.coreState k → e.reg (SYS_ENTRY k) = d.reg (SYS_ENTRY k) → P e)
    (hself : k = c → P (d.switchCore c)) : P (d.switchCore c) := by
  by_cases h : k = c
  · exact hself h
  · exact hcong _ (d.switchCore_other h) (Dev.entry_of_entryView (d.entryView_switchCore c) k)

theorem Dev.AtEntry.congr {d e : Dev} {k : Fin 7} (h : d.AtEntry k) (hc : e.core k = d.core k ∧ e.coreState k = d.coreState k)
    (hr : e.reg (SYS_ENTRY k) = d.reg (SYS_ENTRY k)) : e.AtEntry k := by
  rw [Dev.AtEntry, hc.1, hc.2, hr]
  exact h

/-- A core that the plan names and that is not off runs from its entry after the switch. -/
theorem Dev.switchCores_running {k : Fin 7} (hp : d.planLevel k ≠ 0xFF) (h0 : d.coreState k ≠ 0) : d.switchCores.AtEntry k := by
  refine foldl_reaches (Q := fun e => e.planLevel k ≠ 0xFF ∧ e.coreState k ≠ 0) (P := fun e => e.AtEntry k) (k := k) (f := Dev.switchCore)
    (mem_allCores k) ?_ ?_ ?_ d ⟨hp, h0⟩
  · intro e c _ ⟨hp, h0⟩
    refine ⟨by rwa [Dev.planLevel_switchCore], ?_⟩
    refine e.switchCore_keeps (fun f hf _ => hf.2 ▸ h0) fun hc => ?_
    subst hc
    rw [(e.switchCore_atEntry hp h0).2]
    decide
  · exact fun e ⟨hp, h0⟩ => e.switchCore_atEntry hp h0
  · intro e c _ ⟨hp, h0⟩ hat
    refine e.switchCore_keeps (fun f hf hr => hat.congr hf hr) fun hc => ?_
    subst hc
    exact e.switchCore_atEntry hp h0

/-- A core that the plan names and that is off runs from its entry after the switch, or is still off. -/
theorem Dev.switchCores_off {k : Fin 7} (hp : d.planLevel k ≠ 0xFF) (h0 : d.coreState k = 0) : d.switchCores.AtEntry k ∨ d.switchCores.coreState k = 0 := by
  refine (foldl_keeps (P := fun e => e.planLevel k ≠ 0xFF ∧ (e.AtEntry k ∨ e.coreState k = 0)) (f := Dev.switchCore) (l := allCores) ?_ d ⟨hp, .inr h0⟩).2
  intro e c _ ⟨hp, h⟩
  refine ⟨by rwa [Dev.planLevel_switchCore], ?_⟩
  refine e.switchCore_keeps (P := fun f => f.AtEntry k ∨ f.coreState k = 0) (fun f hf hr => h.imp (fun hat => hat.congr hf hr) fun h => hf.2.trans h) fun hc => ?_
  subst hc
  rcases e.switchCore_cases k hp with ⟨f, hf, hat, -⟩ | ⟨h0, hf⟩
  · exact .inl (hf ▸ hat)
  · exact .inr (by rw [hf, Dev.coreState_startRefused, h0])

theorem Dev.switchCores_atEntry {k : Fin 7} (hp : d.planLevel k ≠ 0xFF) (h : d.coreState k ≠ 0 ∨ d.switchCores.coreState k = 1) : d.switchCores.AtEntry k := by
  by_cases h0 : d.coreState k = 0
  · refine (d.switchCores_off hp h0).resolve_right fun hoff => ?_
    rw [h0, hoff] at h
    simp at h
  · exact d.switchCores_running hp h0

/-! ### The image that starts -/

theorem Dev.takeEntries_entry (n : Nat) (k : Fin 7) : (d.takeEntries n).reg (SYS_ENTRY k) = BitVec.ofNat 32 (ihEntry (d.imgHdr n) k) := by
  unfold Dev.takeEntries
  dsimp only
  generalize d.imgHdr n = h
  refine foldl_reaches (Q := fun _ => True) (P := fun e => e.reg (SYS_ENTRY k) = BitVec.ofNat 32 (ihEntry h k)) (k := k.val)
    (by rw [mem_span]; omega) (fun _ _ _ _ => trivial) (fun e _ => Dev.reg_setReg_same ..) (fun e c _ _ he => ?_) d trivial
  rw [Dev.reg_setReg]
  split
  next heq =>
    have hc : c = k := by unfold SYS_ENTRY at heq; omega
    rw [hc]
  · exact he

theorem Dev.takeEntries_frame {β : Type} {g : Dev → β} (hg : ∀ (e : Dev) (c : Nat) (v : Word), g (e.setReg (SYS_ENTRY c) v) = g e) (n : Nat) :
    g (d.takeEntries n) = g d := foldl_frame (g := g) (fun e c => hg e c _) _ _

theorem Dev.svcShow_frame {β : Type} {g : Dev → β} (hg : ∀ (e : Dev) (v : Word), g (e.setReg SVC_IMG v) = g e) : g d.svcShow = g d := by
  unfold Dev.svcShow
  dsimp only
  split <;> exact (hg _ _).trans (hg _ _)

theorem Dev.runSlot_frame {β : Type} {g : Dev → β} (himg : ∀ (e : Dev) (v : Word), g (e.setReg SVC_IMG v) = g e) (hver : ∀ (e : Dev) (v : Word), g (e.setReg SVC_VER v) = g e)
    (n : Nat) : g (d.runSlot n) = g d :=
  (Dev.svcShow_frame _ himg).trans ((himg _ _).trans ((hver _ _).trans (himg _ _)))

/-- Refreshing STATE and TRIES leaves the other fields of SVC_IMG. -/
theorem Dev.svcShow_get {g : Fld} (h : g.hi < 8 ∨ 23 < g.lo) : d.svcShow.get SVC_IMG g = d.get SVC_IMG g := by
  have hs : ∀ (e : Dev) (v : Nat), (e.put SVC_IMG SVC_IMG_STATE v).get SVC_IMG g = e.get SVC_IMG g := fun e v =>
    Dev.get_put_field _ _ _ _ _ (by decide) (by decide) (by unfold SVC_IMG_STATE; dsimp only; omega)
  have ht : ∀ (e : Dev) (v : Nat), (e.put SVC_IMG SVC_IMG_TRIES v).get SVC_IMG g = e.get SVC_IMG g := fun e v =>
    Dev.get_put_field _ _ _ _ _ (by decide) (by decide) (by unfold SVC_IMG_TRIES; dsimp only; omega)
  unfold Dev.svcShow
  dsimp only
  split <;> rw [ht, hs]

theorem Dev.runSlot_RUNNING {n : Nat} (h : n < 4) : (d.runSlot n).get SVC_IMG SVC_IMG_RUNNING = n := by
  unfold Dev.runSlot
  dsimp only
  rw [Dev.svcShow_get _ (by decide), Dev.putB, Dev.get_put_field _ _ _ _ _ (by decide) (by decide) (by decide), Dev.get,
    Dev.reg_setReg_other _ _ _ _ (by decide), ← Dev.get, Dev.get_put_same _ _ _ _ (by decide) (by decide)]
  exact Nat.mod_eq_of_lt h

/-- The image stands as slot `n` starts: cleared, the entries taken, and the cores started. -/
def Dev.imageStarted (d : Dev) (n : Nat) : Dev := (d.switchCleared.takeEntries n).switchCores.runSlot n

theorem Dev.imageStarted_svc (n : Nat) : (d.imageStarted n).svc = d.svc := by
  rw [Dev.imageStarted, Dev.runSlot_frame _ (g := Dev.svc) (fun _ _ => rfl) (fun _ _ => rfl), Dev.svc_of_entryView (Dev.entryView_switchCores _),
    Dev.takeEntries_frame _ (g := Dev.svc) (fun _ _ _ => rfl), Dev.svc_of_imgView d.imgView_switchCleared]

theorem Dev.imageStarted_mem (n : Nat) : (d.imageStarted n).mem = d.mem := by
  rw [Dev.imageStarted, Dev.runSlot_frame _ (g := Dev.mem) (fun _ _ => rfl) (fun _ _ => rfl), Dev.mem_of_entryView (Dev.entryView_switchCores _),
    Dev.takeEntries_frame _ (g := Dev.mem) (fun _ _ _ => rfl), Dev.mem_of_imgView d.imgView_switchCleared]

theorem Dev.byte_of_mem {d e : Dev} (h : e.mem = d.mem) {a : Nat} (ha : 0x02000000 ≤ a) : e.byte a = d.byte a := by
  rw [e.byte_eq_cell ha, d.byte_eq_cell ha, Dev.cell, h, Dev.cell]

theorem imgBase_ge (n : Nat) : 0x02000000 ≤ imgBase n := by
  unfold imgBase
  split <;> decide

theorem Dev.imgHdr_of_mem {d e : Dev} (h : e.mem = d.mem) (n : Nat) : e.imgHdr n = d.imgHdr n := by
  unfold Dev.imgHdr Dev.bytes
  refine List.map_congr_left fun a ha => Dev.byte_of_mem h ?_
  exact Nat.le_trans (imgBase_ge n) (mem_span.mp ha).1

theorem Dev.imageStarted_RUNNING {n : Nat} (h : n < 4) : (d.imageStarted n).get SVC_IMG SVC_IMG_RUNNING = n := Dev.runSlot_RUNNING _ h

theorem Dev.imageStarted_core (n : Nat) (k : Fin 7) : (d.imageStarted n).core k = (d.switchCleared.takeEntries n).switchCores.core k := by
  rw [Dev.imageStarted]
  exact Dev.runSlot_frame _ (g := fun e : Dev => e.core k) (fun _ _ => rfl) (fun _ _ => rfl) n

theorem Dev.imageStarted_coreState (n k : Nat) : (d.imageStarted n).coreState k = (d.switchCleared.takeEntries n).switchCores.coreState k := by
  rw [Dev.imageStarted]
  exact Dev.runSlot_frame _ (g := fun e : Dev => e.coreState k) (fun e v => Dev.coreState_of_reg (e.reg_setReg_other _ _ v (by decide)) k)
    (fun e v => Dev.coreState_of_reg (e.reg_setReg_other _ _ v (by decide)) k) n

theorem Dev.coreState_readied (n k : Nat) : (d.switchCleared.takeEntries n).coreState k = d.coreState k := by
  refine (Dev.takeEntries_frame _ (g := fun e : Dev => e.coreState k) (fun e c v => Dev.coreState_of_reg (e.reg_setReg_other _ _ v ?_) k) n).trans ?_
  · unfold SYS_CORESTAT SYS_ENTRY; omega
  · exact Dev.coreState_of_reg (Dev.reg_of_imgView d.imgView_switchCleared (by decide)) k

theorem Dev.planLevel_readied (n k : Nat) : (d.switchCleared.takeEntries n).planLevel k = d.planLevel k := by
  have hsow : (d.switchCleared.takeEntries n).sow = d.sow :=
    (Dev.takeEntries_frame _ (g := Dev.sow) (fun _ _ _ => rfl) n).trans (Dev.sow_of_imgView d.imgView_switchCleared)
  rw [Dev.planLevel, Dev.plan8, Dev.sec, hsow]
  rfl

/-- Every core that the plan names and that was on, or is running now, stands at the entry that the image gives it. -/
theorem Dev.imageStarted_atEntry {n : Nat} {k : Fin 7} (hp : d.planLevel k ≠ 0xFF) (h : d.coreState k ≠ 0 ∨ (d.imageStarted n).coreState k = 1) :
    ((d.imageStarted n).core k).pc = BitVec.ofNat 32 (ihEntry (d.imgHdr n) k) ∧ (d.imageStarted n).coreState k = 1 := by
  have hmem : d.switchCleared.mem = d.mem := Dev.mem_of_imgView d.imgView_switchCleared
  rw [Dev.imageStarted_coreState] at h ⊢
  rw [Dev.imageStarted_core]
  obtain ⟨hpc, hstate⟩ := (d.switchCleared.takeEntries n).switchCores_atEntry (k := k) (by rwa [Dev.planLevel_readied]) (by rwa [Dev.coreState_readied])
  refine ⟨?_, hstate⟩
  rw [hpc, Dev.entry_of_entryView (Dev.entryView_switchCores _), Dev.takeEntries_entry, Dev.imgHdr_of_mem hmem]

end

end Sys2Proof.Machine
end

section
/-! Activation, fallback and the commands of SVC_CMD (R417, R420 to R423). -/

namespace Sys2Proof.Machine

/-! ### The end of a switch -/

section
variable (d : Dev)

/-- What a switch tells once the image has started (R421). -/
def Dev.switchTold (d : Dev) : Dev :=
  let d := { d with svc := { d.svc with armed := none, fall := false } }
  ((d.put SVC_IMG SVC_IMG_ARMED 0).put SVC_STAT SVC_STAT_SWITCHF 1).count (SVC_CNT 3)

theorem Dev.switchTo_eq (n : Nat) : d.switchTo n = (d.imageStarted n).switchTold := rfl

theorem Dev.reg_switchTold {a : Nat} (himg : a ≠ SVC_IMG) (hstat : a ≠ SVC_STAT) (hcnt : a ≠ SVC_CNT 3) : d.switchTold.reg a = d.reg a := by
  rw [Dev.switchTold, Dev.reg_count_other _ _ _ hcnt, Dev.reg_put_other _ _ _ _ _ hstat, Dev.reg_put_other _ _ _ _ _ himg]
  rfl

theorem Dev.switchTold_img {g : Fld} (h : g.hi < 31) : d.switchTold.get SVC_IMG g = d.get SVC_IMG g := by
  rw [Dev.switchTold, Dev.get, Dev.reg_count_other _ _ _ (by decide), ← Dev.get, Dev.get_put_other _ _ _ _ _ _ (by decide),
    Dev.get_put_field _ _ _ _ _ (by decide) (by decide) (.inl h)]
  rfl

theorem Dev.switchTold_ARMED : d.switchTold.flag SVC_IMG SVC_IMG_ARMED = false := by
  rw [Dev.switchTold, Dev.flag_of_reg (Dev.reg_count_other _ _ _ (by decide)), Dev.flag_put_other _ _ _ _ _ _ (by decide), Dev.flag_put_zero _ _ (by decide) (by decide)]

theorem Dev.switchTold_SWITCHF : d.switchTold.flag SVC_STAT SVC_STAT_SWITCHF = true := by
  rw [Dev.switchTold, Dev.flag_of_reg (Dev.reg_count_other _ _ _ (by decide)), Dev.flag_put_one _ _ (by decide) (by decide)]

theorem Dev.switchTold_svc : d.switchTold.svc = { d.svc with armed := none, fall := false } := by
  rw [Dev.switchTold, Dev.count_svc]
  rfl

theorem Dev.switchTold_mem : d.switchTold.mem = d.mem := by
  rw [Dev.switchTold, Dev.count_mem]
  rfl

theorem Dev.switchTold_cores : d.switchTold.cores = d.cores := by
  rw [Dev.switchTold, Dev.count_cores]
  rfl

theorem Dev.switchTold_coreState (k : Nat) : d.switchTold.coreState k = d.coreState k :=
  Dev.coreState_of_reg (d.reg_switchTold (by decide) (by decide) (by decide)) k

/-! ### The switch at its instant -/

/-- The device as the switch of an armed image leaves it (R421). -/
def Dev.imageFired (d : Dev) (n : Nat) : Dev :=
  let d := { d with svc := { d.svc with prev := d.get SVC_IMG SVC_IMG_RUNNING } }
  Dev.put { d.switchTo n with svc := { (d.switchTo n).svc with confN := 0 } } SVC_IMG SVC_IMG_CONFWAIT 1

theorem Dev.imageFire_early (h : d.svc.armed = none ∨ atOrPast d.meshNow d.svcWhen = false) : d.imageFire = d := by
  unfold Dev.imageFire
  cases ha : d.svc.armed with
  | none => rfl
  | some n =>
    have hw := h.resolve_left (by rw [ha]; exact Option.some_ne_none n)
    exact if_neg (by rw [← Dev.svcWhen, hw]; decide)

theorem Dev.imageFire_due {n : Nat} (h : d.svc.armed = some n) (hw : atOrPast d.meshNow d.svcWhen = true) : d.imageFire = d.imageFired n := by
  unfold Dev.imageFire
  rw [h]
  exact if_pos hw

/-- What follows from the image having started, whatever the device before. -/
theorem Dev.confirmWaits (f : Dev) (e : Dev) (he : e = Dev.put { f.switchTold with svc := { f.switchTold.svc with confN := 0 } } SVC_IMG SVC_IMG_CONFWAIT 1) :
    e.get SVC_IMG SVC_IMG_RUNNING = f.get SVC_IMG SVC_IMG_RUNNING ∧ e.flag SVC_IMG SVC_IMG_CONFWAIT = true ∧ e.flag SVC_IMG SVC_IMG_ARMED = false ∧
    e.flag SVC_STAT SVC_STAT_SWITCHF = true ∧ e.svc = { f.svc with armed := none, fall := false, confN := 0 } ∧ e.mem = f.mem ∧ e.cores = f.cores ∧
    ∀ k, e.coreState k = f.coreState k := by
  have hrun := f.switchTold_img (g := SVC_IMG_RUNNING) (by decide)
  have harmed := f.switchTold_ARMED
  have hf := f.switchTold_SWITCHF
  have hsvc := f.switchTold_svc
  have hmem := f.switchTold_mem
  have hcores := f.switchTold_cores
  have hstate := f.switchTold_coreState
  generalize f.switchTold = t at *
  subst he
  refine ⟨?_, Dev.flag_put_one _ _ (by decide) (by decide), ?_, ?_, ?_, hmem, hcores, fun k => ?_⟩
  · rw [Dev.get_put_field _ _ _ _ _ (by decide) (by decide) (by decide)]
    exact hrun
  · rw [Dev.flag_put_field _ _ _ (by decide) (by decide) (by decide)]
    exact harmed
  · rw [Dev.flag_put_other _ _ _ _ _ _ (by decide)]
    exact hf
  · rw [Dev.put_svc, hsvc]
  · rw [Dev.coreState_of_reg (Dev.reg_put_other _ _ _ _ _ (by decide)) k]
    exact hstate k

theorem after_imageSwitch {n : Nat} (q : List Instr) (ha : d.svc.armed = some n) (hn : n < 2) (hw : atOrPast d.meshNow d.svcWhen = true) :
    After .imageSwitch ⟨d, q⟩ fun t =>
      t.get SVC_IMG SVC_IMG_RUNNING = n ∧ t.flag SVC_IMG SVC_IMG_CONFWAIT = true ∧ t.svc.armed = none ∧ t.flag SVC_IMG SVC_IMG_ARMED = false ∧
      t.svc.prev = d.get SVC_IMG SVC_IMG_RUNNING ∧ t.svc.confN = 0 ∧ t.flag SVC_STAT SVC_STAT_SWITCHF = true ∧
      (∀ k : Fin 7, d.planLevel k ≠ 0xFF → d.coreState k ≠ 0 ∨ t.coreState k = 1 → (t.core k).pc = BitVec.ofNat 32 (ihEntry (t.imgHdr n) k) ∧ t.coreState k = 1) := by
  refine after_of (gives_of_run rfl (exec_imageSwitch ..) (d.imageFire_due ha hw)) ?_
  obtain ⟨p, hp⟩ : ∃ p, p = { d with svc := { d.svc with prev := d.get SVC_IMG SVC_IMG_RUNNING } } := ⟨_, rfl⟩
  have hlevel : ∀ k : Fin 7, p.planLevel k = d.planLevel k := fun k => by rw [hp]; rfl
  have hstate : ∀ k : Fin 7, p.coreState k = d.coreState k := fun k => by rw [hp]; rfl
  have hprev : p.svc.prev = d.get SVC_IMG SVC_IMG_RUNNING := by rw [hp]
  have heq : d.imageFired n = Dev.put { (p.imageStarted n).switchTold with svc := { (p.imageStarted n).switchTold.svc with confN := 0 } } SVC_IMG SVC_IMG_CONFWAIT 1 := by
    rw [Dev.imageFired, hp]
    rfl
  obtain ⟨hrun, hconf, harmed, hf, hsvc, hmem, hcores, hcs⟩ := Dev.confirmWaits _ _ heq
  have hat := fun (k : Fin 7) => p.imageStarted_atEntry (n := n) (k := k)
  have hr := p.imageStarted_RUNNING (n := n) (by omega)
  have hs := p.imageStarted_svc n
  have hm := p.imageStarted_mem n
  generalize d.imageFired n = t at *
  generalize p.imageStarted n = f at *
  have hhdr : ∀ e : Dev, e.mem = t.mem → e.imgHdr n = p.imgHdr n := fun e he => Dev.imgHdr_of_mem (he.trans (hmem.trans hm)) n
  have hsettle : (d.wakeBy t).settle.imgHdr n = p.imgHdr n := by
    refine (?_ : _ = t.imgHdr n).trans (hhdr t rfl)
    unfold Dev.imgHdr Dev.bytes
    exact List.map_congr_left fun a _ => by rw [Dev.byte_settle, Dev.wakeBy_byte]
  refine ⟨hrun.trans hr, hconf, ?_, harmed, ?_, ?_, hf, fun k hk hon => ?_⟩
  · exact congrArg SvcSt.armed hsvc
  · exact (congrArg SvcSt.prev hsvc).trans ((congrArg SvcSt.prev hs).trans hprev)
  · exact congrArg SvcSt.confN hsvc
  · rw [hsettle, Dev.core_settle, Dev.wakeBy_core, Dev.coreState_settle, Dev.coreState_wakeBy, Dev.core, hcores, ← Dev.core, hcs]
    rw [Dev.coreState_settle, Dev.coreState_wakeBy, hcs] at hon
    exact hat k (by rwa [hlevel]) (by rwa [hstate])

/-! ### The fallback (R423) -/

theorem Dev.reg_stateProg (n kind value : Nat) (ok : Bool) {a : Nat} (ha : a ≠ FLC_CNT 6) : (d.stateProg n kind value ok).reg a = d.reg a := by
  unfold Dev.stateProg
  dsimp only
  split <;> exact Dev.reg_progVerify _ _ _ _ ha

theorem Dev.svcBad_get {g : Fld} (h : g.hi < 8 ∨ 23 < g.lo) : d.svcBad.get SVC_IMG g = d.get SVC_IMG g := by
  unfold Dev.svcBad
  split
  · rfl
  next n hn =>
    split
    · rfl
    · rw [Dev.svcShow_get _ h]
      exact congrArg (getF · g) (d.reg_stateProg n kiBAD 0 true (by decide))

/-- The rest of the fallback once the image before has started again. -/
def Dev.fellBack (d : Dev) (gone : Nat) (id : List Word) : Dev :=
  let d := d.put SVC_IMG SVC_IMG_CONFWAIT 0
  let d := Dev.svcBad { d with svc := { d.svc with bad := some gone } }
  ((d.put SVC_STAT SVC_STAT_FELLBACK 1).count (SVC_CNT 4)).report 14 0 1 (BitVec.ofNat 32 gone) id

theorem Dev.fallBack_waits (h : d.flag SVC_IMG SVC_IMG_CONFWAIT = true) :
    d.fallBack = (d.switchTo d.svc.prev).fellBack (d.get SVC_IMG SVC_IMG_RUNNING) (idWords (ihId (d.imgHdr (d.get SVC_IMG SVC_IMG_RUNNING)))) := by
  rw [Dev.fallBack, if_neg (by simp [h])]
  rfl

theorem Dev.reg_report (blk unit code : Nat) (detail : Word) (extra : List Word) {a : Nat} (ha : ¬ (0x400A0000 ≤ a ∧ a < 0x400B0000)) :
    (d.report blk unit code detail extra).reg a = d.reg a := (Dev.FetchKeeps.report d ..).reg a ha

theorem Dev.fellBack_img (gone : Nat) (id : List Word) {g : Fld} (h : g.hi < 8 ∨ 30 < g.lo) : (d.fellBack gone id).get SVC_IMG g = d.get SVC_IMG g := by
  unfold Dev.fellBack
  dsimp only
  rw [Dev.get, Dev.reg_report _ _ _ _ _ _ (by decide), Dev.reg_count_other _ _ _ (by decide), ← Dev.get, Dev.get_put_other _ _ _ _ _ _ (by decide),
    Dev.svcBad_get _ (by omega)]
  exact Dev.get_put_field _ _ _ _ _ (by decide) (by decide) (by unfold SVC_IMG_CONFWAIT; dsimp only; omega)

theorem Dev.fellBack_CONFWAIT (gone : Nat) (id : List Word) : (d.fellBack gone id).flag SVC_IMG SVC_IMG_CONFWAIT = false := by
  unfold Dev.fellBack
  dsimp only
  rw [Dev.flag, Dev.get, Dev.reg_report _ _ _ _ _ _ (by decide), Dev.reg_count_other _ _ _ (by decide), ← Dev.get, Dev.get_put_other _ _ _ _ _ _ (by decide),
    Dev.svcBad_get _ (by decide)]
  exact d.flag_put_zero SVC_IMG (by decide) (by decide)

theorem Dev.fellBack_FELLBACK (gone : Nat) (id : List Word) : (d.fellBack gone id).flag SVC_STAT SVC_STAT_FELLBACK = true := by
  unfold Dev.fellBack
  dsimp only
  rw [Dev.flag_of_reg (Dev.reg_report _ _ _ _ _ _ (by decide)), Dev.flag_of_reg (Dev.reg_count_other _ _ _ (by decide)), Dev.flag_put_one _ _ (by decide) (by decide)]

theorem Dev.switchTo_RUNNING {n : Nat} (h : n < 4) : (d.switchTo n).get SVC_IMG SVC_IMG_RUNNING = n := by
  rw [Dev.switchTo_eq, Dev.switchTold_img _ (by decide), Dev.imageStarted_RUNNING _ h]

theorem gives_confirmWindowExpiry_not (q : List Instr) (h : d.flag SVC_IMG SVC_IMG_CONFWAIT = false ∨ d.svc.confN < 32768 * d.get SVC_ARG SVC_ARG_CONFWIN_S) :
    Gives .confirmWindowExpiry ⟨d, q⟩ d := by
  refine gives_of_run rfl (exec_confirmWindowExpiry ..) (if_neg ?_)
  rw [Dev.confOver, Bool.and_eq_true, decide_eq_true_iff]
  rintro ⟨hc, hn⟩
  rcases h with h | h
  · rw [h] at hc
    exact Bool.false_ne_true hc
  · exact absurd hn (Nat.not_le.mpr h)

theorem after_confirmWindowExpiry (q : List Instr) (hc : d.flag SVC_IMG SVC_IMG_CONFWAIT = true) (hn : 32768 * d.get SVC_ARG SVC_ARG_CONFWIN_S ≤ d.svc.confN)
    (hp : d.svc.prev < 2) : After .confirmWindowExpiry ⟨d, q⟩ fun t =>
      t.get SVC_IMG SVC_IMG_RUNNING = d.svc.prev ∧ t.flag SVC_IMG SVC_IMG_CONFWAIT = false ∧ t.flag SVC_STAT SVC_STAT_FELLBACK = true := by
  have hover : d.confOver = true := by rw [Dev.confOver, hc, decide_eq_true hn]; rfl
  refine after_of (gives_of_run rfl (exec_confirmWindowExpiry ..) ((if_pos hover).trans (d.fallBack_waits hc))) ?_
  have hrun := d.switchTo_RUNNING (n := d.svc.prev) (by omega)
  generalize d.switchTo d.svc.prev = e at *
  generalize d.get SVC_IMG SVC_IMG_RUNNING = gone
  generalize idWords _ = id
  have hr := e.fellBack_img gone id (g := SVC_IMG_RUNNING) (by decide)
  have hw := e.fellBack_CONFWAIT gone id
  have hf := e.fellBack_FELLBACK gone id
  generalize e.fellBack gone id = t at *
  exact ⟨hr.trans hrun, hw, hf⟩

/-! ### The commands of SVC_CMD -/

theorem Dev.svcEnd_img (r : Nat) (f : Fld) : (d.svcEnd r).flag SVC_IMG f = d.flag SVC_IMG f := by
  unfold Dev.svcEnd
  dsimp only
  rw [Dev.flag_put_other _ _ _ _ _ _ (by decide), Dev.flag_put_other _ _ _ _ _ _ (by decide), Dev.flag_put_other _ _ _ _ _ _ (by decide)]
  rfl

theorem Dev.svcEnd_svc (r : Nat) : (d.svcEnd r).svc = { d.svc with cmd := none } := rfl

theorem Dev.svcEnd_RESULT {r : Nat} (h : r < 256) : (d.svcEnd r).get SVC_RES SVC_RES_RESULT = r := by
  unfold Dev.svcEnd
  dsimp only
  rw [Dev.get_put_other _ _ _ _ _ _ (by decide), Dev.get_put_same _ _ _ _ (by decide) (by decide)]
  exact Nat.mod_eq_of_lt h

theorem Dev.svcEnd_BUSY (r : Nat) : (d.svcEnd r).flag SVC_RES SVC_RES_BUSY = false := by
  unfold Dev.svcEnd
  dsimp only
  rw [Dev.flag_put_other _ _ _ _ _ _ (by decide), Dev.flag_put_field _ _ _ (by decide) (by decide) (by decide), Dev.flag_put_zero _ _ (by decide) (by decide)]

theorem Dev.svcEnd_DONE (r : Nat) : (d.svcEnd r).flag SVC_STAT SVC_STAT_DONE = true := by
  unfold Dev.svcEnd
  dsimp only
  rw [Dev.flag_put_one _ _ (by decide) (by decide)]

theorem Dev.imgCheck_lt (n : Nat) : d.imgCheck n < 256 := by
  unfold Dev.imgCheck
  dsimp only
  repeat' split
  all_goals decide

theorem Dev.imgJudge_code (n : Nat) : (d.imgJudge n).1 = if d.bankBusy n then 0x14 else d.imgCheck n := by
  cases hb : d.bankBusy n with
  | true => rw [d.imgJudge_busy hb, if_pos rfl, ssBUSY]
  | false => rw [(d.imgJudge_free hb).1, if_neg Bool.false_ne_true]

theorem Dev.imgJudge_lt (n : Nat) : (d.imgJudge n).1 < 256 := by
  rw [d.imgJudge_code]
  split
  · decide
  · exact d.imgCheck_lt n

theorem gives_svcCommandEnd_check {n : Nat} (q : List Instr) (h : d.svc.cmd = some (1, n)) :
    Gives (.svcCommandEnd false []) ⟨d, q⟩ ((d.imgJudge n).2.svcEnd (d.imgJudge n).1) := by
  have hend : d.svcCmdEnd [] = (d.imgJudge n).2.svcEnd (d.imgJudge n).1 := by
    simp only [Dev.svcCmdEnd, h]
  exact gives_of_run rfl (exec_svcCommandEnd ..) ((if_neg Bool.false_ne_true).trans hend)

theorem after_svcCommandEnd_check {n : Nat} (q : List Instr) (h : d.svc.cmd = some (1, n)) : After (.svcCommandEnd false []) ⟨d, q⟩ fun t =>
    t.svc.cmd = none ∧ t.flag SVC_RES SVC_RES_BUSY = false ∧ t.flag SVC_STAT SVC_STAT_DONE = true ∧
    t.get SVC_RES SVC_RES_RESULT = (if d.bankBusy n then 0x14 else d.imgCheck n) ∧ (d.bankBusy n = false → (n ∈ t.svc.checked ↔ d.imgCheck n = 0)) := by
  refine after_of (gives_svcCommandEnd_check d q h) ?_
  rw [← d.imgJudge_code]
  have hfree := fun hb : d.bankBusy n = false => (d.imgJudge_free (n := n) hb).2
  have hlt := d.imgJudge_lt n
  generalize (d.imgJudge n).2 = e at *
  generalize (d.imgJudge n).1 = r at *
  have h1 := e.svcEnd_BUSY r
  have h2 := e.svcEnd_DONE r
  have h3 := e.svcEnd_RESULT hlt
  have h4 := e.svcEnd_svc r
  generalize e.svcEnd r = t at *
  have h5 : t.svc.cmd = none := congrArg SvcSt.cmd h4
  have h6 : t.svc.checked = e.svc.checked := by rw [h4]
  refine ⟨h5, h1, h2, h3, fun hb => ?_⟩
  rw [← hfree hb, ← h6]
  rfl

theorem gives_svcCommandEnd_idle (q : List Instr) (h : d.svc.cmd = none) : Gives (.svcCommandEnd false []) ⟨d, q⟩ d := by
  have hend : d.svcCmdEnd [] = d := by simp only [Dev.svcCmdEnd, h]
  exact gives_of_run rfl (exec_svcCommandEnd ..) ((if_neg Bool.false_ne_true).trans hend)

theorem gives_svcCommandEnd_arm {n : Nat} (q : List Instr) (ok : Bool) (h : d.svc.cmd = some (2, n)) :
    Gives (.svcCommandEnd false [ok]) ⟨d, q⟩ (d.armEnd n ok) := by
  have hend : d.svcCmdEnd [ok] = d.armEnd n ok := by simp only [Dev.svcCmdEnd, h, List.headD]
  exact gives_of_run rfl (exec_svcCommandEnd ..) ((if_neg Bool.false_ne_true).trans hend)

theorem Dev.progVerify_clk (a : Nat) (b : List Byte) (ok : Bool) : (d.progVerify a b ok).clk = d.clk := by
  have hword : (d.progWord a b ok).clk = d.clk := Dev.setBytes_frame (g := fun d => d.clk) (fun _ _ _ => rfl) (fun _ _ => rfl) d a b
  unfold Dev.progVerify
  dsimp only
  split
  · exact hword
  · rw [Dev.count_clk, hword]

theorem Dev.stateProg_clk (n kind value : Nat) (ok : Bool) : (d.stateProg n kind value ok).clk = d.clk := by
  unfold Dev.stateProg
  dsimp only
  split <;> exact Dev.progVerify_clk _ _ _ _

theorem Dev.stateProg_svc (n kind value : Nat) (ok : Bool) : (d.stateProg n kind value ok).svc = d.svc := by
  unfold Dev.stateProg
  dsimp only
  split <;> exact Dev.progVerify_svc _ _ _ _

theorem Dev.late_of_stateProg (n kind value : Nat) (ok : Bool) :
    atOrPast (d.stateProg n kind value ok).meshNow (d.stateProg n kind value ok).svcWhen = atOrPast d.meshNow d.svcWhen := by
  rw [Dev.meshNow, Dev.stateProg_clk, ← Dev.meshNow, Dev.svcWhen, Dev.pair, Dev.reg_stateProg _ _ _ _ _ (by decide), Dev.reg_stateProg _ _ _ _ _ (by decide),
    ← Dev.pair, ← Dev.svcWhen]

theorem Dev.armEnd_busy {n : Nat} (ok : Bool) (h : d.bankBusy n = true) : d.armEnd n ok = d.svcEnd 0x14 := if_pos h

theorem Dev.armEnd_failed {n : Nat} (h : d.bankBusy n = false) : d.armEnd n false = (d.stateProg n kiARMED d.svcWhen false).svcEnd 0x09 := by
  unfold Dev.armEnd
  rw [if_neg (by simp [h])]
  rfl

theorem Dev.armEnd_late {n : Nat} (h : d.bankBusy n = false) (hw : atOrPast d.meshNow d.svcWhen = true) :
    d.armEnd n true = (d.stateProg n kiARMED d.svcWhen true).svcEnd 0x15 := by
  unfold Dev.armEnd
  rw [if_neg (by simp [h])]
  exact (if_neg (by decide)).trans (if_pos (by rw [d.late_of_stateProg, hw]))

theorem Dev.armEnd_armed {n : Nat} (h : d.bankBusy n = false) (hw : atOrPast d.meshNow d.svcWhen = false) :
    d.armEnd n true = (Dev.put { d.stateProg n kiARMED d.svcWhen true with svc := { (d.stateProg n kiARMED d.svcWhen true).svc with armed := some n } }
      SVC_IMG SVC_IMG_ARMED 1).svcEnd 0 := by
  unfold Dev.armEnd
  rw [if_neg (by simp [h])]
  exact (if_neg (by decide)).trans (if_neg (by rw [d.late_of_stateProg, hw]; decide))

/-- What the end of a command shows of a state that it leaves otherwise alone. -/
theorem Dev.svcEnd_shows {r : Nat} (h : r < 256) (b : Dev) (t : Dev) (ht : t = (b.wakeBy (d.svcEnd r)).settle) :
    t.svc.cmd = none ∧ t.get SVC_RES SVC_RES_RESULT = r ∧ t.svc.armed = d.svc.armed ∧ t.flag SVC_IMG SVC_IMG_ARMED = d.flag SVC_IMG SVC_IMG_ARMED ∧
    t.flag SVC_RES SVC_RES_BUSY = false := by
  have h1 := d.svcEnd_svc r
  have h2 := d.svcEnd_RESULT h
  have h3 := d.svcEnd_img r SVC_IMG_ARMED
  have h4 := d.svcEnd_BUSY r
  generalize d.svcEnd r = e at *
  subst ht
  exact ⟨congrArg SvcSt.cmd h1, h2, (congrArg SvcSt.armed h1 :), h3, h4⟩

theorem after_svcCommandEnd_arm {n : Nat} (q : List Instr) (ok : Bool) (h : d.svc.cmd = some (2, n)) (hb : d.bankBusy n = false) :
    After (.svcCommandEnd false [ok]) ⟨d, q⟩ fun t =>
      t.svc.cmd = none ∧ (ok = false → t.get SVC_RES SVC_RES_RESULT = 0x09 ∧ t.svc.armed = d.svc.armed) ∧
      (ok = true → atOrPast d.meshNow d.svcWhen = true → t.get SVC_RES SVC_RES_RESULT = 0x15 ∧ t.svc.armed = d.svc.armed) ∧
      (ok = true → atOrPast d.meshNow d.svcWhen = false → t.get SVC_RES SVC_RES_RESULT = 0 ∧ t.svc.armed = some n ∧ t.flag SVC_IMG SVC_IMG_ARMED = true) := by
  refine after_of (gives_svcCommandEnd_arm d q ok h) ?_
  have hsvc := d.stateProg_svc n kiARMED d.svcWhen ok
  cases ok with
  | false =>
    rw [d.armEnd_failed hb]
    generalize d.stateProg n kiARMED d.svcWhen false = e at *
    obtain ⟨hcmd, hres, harmed, -, -⟩ := Dev.svcEnd_shows e (r := 0x09) (by decide) d _ rfl
    generalize (d.wakeBy _).settle = t at *
    exact ⟨hcmd, fun _ => ⟨hres, harmed.trans (congrArg SvcSt.armed hsvc)⟩, fun h => absurd h Bool.false_ne_true, fun h => absurd h Bool.false_ne_true⟩
  | true =>
    cases hw : atOrPast d.meshNow d.svcWhen with
    | true =>
      rw [d.armEnd_late hb hw]
      generalize d.stateProg n kiARMED d.svcWhen true = e at *
      obtain ⟨hcmd, hres, harmed, -, -⟩ := Dev.svcEnd_shows e (r := 0x15) (by decide) d _ rfl
      generalize (d.wakeBy _).settle = t at *
      exact ⟨hcmd, fun h => absurd h.symm Bool.false_ne_true, fun _ _ => ⟨hres, harmed.trans (congrArg SvcSt.armed hsvc)⟩,
        fun _ h => absurd h.symm Bool.false_ne_true⟩
    | false =>
      rw [d.armEnd_armed hb hw]
      generalize d.stateProg n kiARMED d.svcWhen true = e at *
      have harm : ∀ e : Dev, (e.put SVC_IMG SVC_IMG_ARMED 1).flag SVC_IMG SVC_IMG_ARMED = true := fun e => Dev.flag_put_one _ _ (by decide) (by decide)
      have harm := harm { e with svc := { e.svc with armed := some n } }
      have hsvc' : (Dev.put { e with svc := { e.svc with armed := some n } } SVC_IMG SVC_IMG_ARMED 1).svc.armed = some n := rfl
      generalize Dev.put { e with svc := { e.svc with armed := some n } } SVC_IMG SVC_IMG_ARMED 1 = f at *
      obtain ⟨hcmd, hres, harmed, hflag, -⟩ := Dev.svcEnd_shows f (r := 0) (by decide) d _ rfl
      generalize (d.wakeBy _).settle = t at *
      exact ⟨hcmd, fun h => absurd h.symm Bool.false_ne_true, fun _ h => absurd h Bool.false_ne_true, fun _ _ => ⟨hres, harmed.trans hsvc', hflag.trans harm⟩⟩

/-! ### ARM and CANCEL (R420, R421) -/

/-- SVC_RES tells that a command began. -/
def Dev.svcBegun (d : Dev) (op : Nat) : Dev := (d.put SVC_RES SVC_RES_OP op).put SVC_RES SVC_RES_BUSY 1

section
variable {d} {q : List Instr} {c : Fin 7} (ho : BusOpen ⟨d, q⟩ c SVC_CMD true)
include ho

theorem gives_imageCheck {e : Dev} (he : d.svcOp 1 = e) : Gives (.imageCheck c) ⟨d, q⟩ e := gives_of_askCore rfl ho (exec_imageCheck ..) he

theorem gives_activationArm {e : Dev} (he : d.svcOp 2 = e) : Gives (.activationArm c) ⟨d, q⟩ e := gives_of_askCore rfl ho (exec_activationArm ..) he

theorem gives_activationCancel {e : Dev} (he : d.svcOp 3 = e) : Gives (.activationCancel c) ⟨d, q⟩ e := gives_of_askCore rfl ho (exec_activationCancel ..) he

theorem gives_imageConfirm {e : Dev} (he : d.svcOp 4 = e) : Gives (.imageConfirm c) ⟨d, q⟩ e := gives_of_askCore rfl ho (exec_imageConfirm ..) he

end

theorem Dev.svcOp_busy (op : Nat) (h : d.flag SVC_RES SVC_RES_BUSY = true) : d.svcOp op = d := if_pos (.inl h)

section
variable {d} (h : d.flag SVC_RES SVC_RES_BUSY = false)
include h

theorem Dev.svcOp_check : d.svcOp 1 = { d.svcBegun 1 with svc := { d.svc with cmd := some (1, d.get SVC_ARG SVC_ARG_SLOT) } } := if_neg (by simp [h])

theorem Dev.svcOp_confirm : d.svcOp 4 = { d.svcBegun 4 with svc := { d.svc with cmd := some (4, d.get SVC_ARG SVC_ARG_SLOT) } } := if_neg (by simp [h])

theorem Dev.svcOp_arm : d.svcOp 2 = match (d.svcBegun 2).armJudge (d.get SVC_ARG SVC_ARG_SLOT) with
    | some r => (d.svcBegun 2).svcEnd r
    | none => { d.svcBegun 2 with svc := { d.svc with cmd := some (2, d.get SVC_ARG SVC_ARG_SLOT) } } := by
  unfold Dev.svcOp
  rw [if_neg (by simp [h])]
  rfl

theorem Dev.svcOp_cancel : d.svcOp 3 = (d.svcBegun 3).svcCancel := if_neg (by simp [h])

end

theorem Dev.flag_svcBegun (op : Nat) (f : Fld) : (d.svcBegun op).flag SVC_IMG f = d.flag SVC_IMG f := by
  rw [Dev.svcBegun, Dev.flag_put_other _ _ _ _ _ _ (by decide), Dev.flag_put_other _ _ _ _ _ _ (by decide)]

theorem Dev.svcCancel_confirming (h : d.flag SVC_IMG SVC_IMG_CONFWAIT = true) : d.svcCancel = d.fallBack.svcEnd 0 := if_pos h

theorem Dev.svcCancel_idle (h : d.flag SVC_IMG SVC_IMG_CONFWAIT = false) (ha : d.svc.armed = none) : d.svcCancel = d.svcEnd 0x07 := by
  unfold Dev.svcCancel
  rw [if_neg (by simp [h]), if_neg (by simp [ha])]
  rfl

theorem Dev.svcCancel_armed (h : d.flag SVC_IMG SVC_IMG_CONFWAIT = false) (ha : d.svc.armed ≠ none) :
    d.svcCancel = (Dev.put { d with svc := { d.svc with armed := none } } SVC_IMG SVC_IMG_ARMED 0).svcEnd 0 := by
  unfold Dev.svcCancel
  rw [if_neg (by simp [h]), if_pos (Option.isSome_iff_ne_none.mpr ha)]
  rfl

theorem after_activationCancel_armed {q : List Instr} {c : Fin 7} (ho : BusOpen ⟨d, q⟩ c SVC_CMD true) (hb : d.flag SVC_RES SVC_RES_BUSY = false)
    (hc : d.flag SVC_IMG SVC_IMG_CONFWAIT = false) (ha : d.svc.armed ≠ none) : After (.activationCancel c) ⟨d, q⟩ fun t =>
      t.svc.armed = none ∧ t.flag SVC_IMG SVC_IMG_ARMED = false ∧ t.get SVC_RES SVC_RES_RESULT = 0 ∧ t.flag SVC_RES SVC_RES_BUSY = false ∧ t.cores = d.cores := by
  have hconf : (d.svcBegun 3).flag SVC_IMG SVC_IMG_CONFWAIT = false := (d.flag_svcBegun 3 _).trans hc
  refine after_of (gives_activationCancel ho ((Dev.svcOp_cancel hb).trans (Dev.svcCancel_armed _ hconf ha))) ?_
  have hcores : (d.svcBegun 3).cores = d.cores := rfl
  generalize d.svcBegun 3 = e at *
  have harm : (Dev.put { e with svc := { e.svc with armed := none } } SVC_IMG SVC_IMG_ARMED 0).flag SVC_IMG SVC_IMG_ARMED = false :=
    Dev.flag_put_zero _ _ (by decide) (by decide)
  have hsvc : (Dev.put { e with svc := { e.svc with armed := none } } SVC_IMG SVC_IMG_ARMED 0).svc.armed = none := rfl
  have hcores' : (Dev.put { e with svc := { e.svc with armed := none } } SVC_IMG SVC_IMG_ARMED 0).cores = e.cores := rfl
  generalize Dev.put { e with svc := { e.svc with armed := none } } SVC_IMG SVC_IMG_ARMED 0 = f at *
  have hend : (d.wakeBy (f.svcEnd 0)).settle.cores = f.cores := rfl
  obtain ⟨-, hres, harmed, hflag, hbusy⟩ := Dev.svcEnd_shows f (r := 0) (by decide) d _ rfl
  generalize (d.wakeBy _).settle = t at *
  exact ⟨harmed.trans hsvc, hflag.trans harm, hres, hbusy, hend.trans (hcores'.trans hcores)⟩

theorem Dev.armJudge_state {n : Nat} (h : d.svc.armed ≠ none ∨ d.flag SVC_IMG SVC_IMG_CONFWAIT = true) : d.armJudge n = some 0x07 :=
  if_pos (h.imp_left Option.isSome_iff_ne_none.mpr)

theorem Dev.armJudge_debug {n : Nat} (ha : d.svc.armed = none) (hc : d.flag SVC_IMG SVC_IMG_CONFWAIT = false) (hs : d.flag SVC_STAT SVC_STAT_SESSION = true) :
    d.armJudge n = some 0x18 := (if_neg (by simp [ha, hc])).trans (if_pos hs)

end

end Sys2Proof.Machine
end

section
/-! What the scan of the counters and the boot keys leave of the choice of an image (R222, R229, R424). -/

namespace Sys2Proof.Machine

/-! ### What the boot keys leave of the choice of an image (R222, R424) -/

/-- What the choice of an image at start-up goes by: the images' own state, FLC_BOOT, the supply, and flash below the counters. -/
def Dev.choiceView (d : Dev) := (d.svc, d.pwr.extDone, d.reg FLC_BOOT, d.reg PWR_SUPPLY, fun a => if a < ctrBase 0 then d.cell a else 0)

section
variable {d e : Dev} (h : e.choiceView = d.choiceView)
include h

theorem Dev.svc_of_choiceView : e.svc = d.svc := congrArg (fun v => v.1) h

theorem Dev.extDone_of_choiceView : e.pwr.extDone = d.pwr.extDone := congrArg (fun v => v.2.1) h

theorem Dev.boot_of_choiceView : e.reg FLC_BOOT = d.reg FLC_BOOT := congrArg (fun v => v.2.2.1) h

theorem Dev.supply_of_choiceView : e.reg PWR_SUPPLY = d.reg PWR_SUPPLY := congrArg (fun v => v.2.2.2.1) h

theorem Dev.cell_of_choiceView {a : Nat} (ha : a < ctrBase 0) : e.cell a = d.cell a := by
  have hcell := congrFun (congrArg (fun v => v.2.2.2.2) h) a
  dsimp only [Dev.choiceView] at hcell
  rwa [if_pos ha, if_pos ha] at hcell

end

theorem Dev.choiceView_congr {d e : Dev} (hsvc : e.svc = d.svc) (hext : e.pwr.extDone = d.pwr.extDone) (hboot : e.reg FLC_BOOT = d.reg FLC_BOOT)
    (hsupply : e.reg PWR_SUPPLY = d.reg PWR_SUPPLY) (hcell : ∀ a, a < ctrBase 0 → e.cell a = d.cell a) : e.choiceView = d.choiceView := by
  have hcells : (fun a => if a < ctrBase 0 then e.cell a else 0) = fun a => if a < ctrBase 0 then d.cell a else 0 := by
    funext a
    split
    next ha => exact hcell a ha
    next => rfl
  rw [Dev.choiceView, hsvc, hext, hboot, hsupply, hcells, ← Dev.choiceView]

section
variable (d : Dev)

theorem Dev.choiceView_setReg {a : Nat} (v : Word) (hb : FLC_BOOT ≠ a) (hs : PWR_SUPPLY ≠ a) : (d.setReg a v).choiceView = d.choiceView :=
  Dev.choiceView_congr rfl rfl (d.reg_setReg_other _ _ _ hb) (d.reg_setReg_other _ _ _ hs) fun _ _ => rfl

theorem Dev.choiceView_put {a : Nat} (f : Fld) (v : Nat) (hb : FLC_BOOT ≠ a) (hs : PWR_SUPPLY ≠ a) : (d.put a f v).choiceView = d.choiceView :=
  d.choiceView_setReg _ hb hs

theorem Dev.choiceView_count {a : Nat} (hb : FLC_BOOT ≠ a) (hs : PWR_SUPPLY ≠ a) : (d.count a).choiceView = d.choiceView := by
  unfold Dev.count
  split <;> exact d.choiceView_put _ _ hb hs

theorem touchReg_ne {a : Nat} (h : touchReg a) : FLC_BOOT ≠ a ∧ PWR_SUPPLY ≠ a := by
  unfold FLC_BOOT PWR_SUPPLY
  rcases h with h | ⟨n, hn, rfl⟩ | ⟨b, rfl⟩ | rfl | rfl
  · revert a
    decide
  · unfold ERL_ECC; omega
  · unfold FLC_COL; omega
  · decide
  · decide

theorem untouched_choiceView : Untouched Dev.choiceView where
  setReg d _ v h := d.choiceView_setReg v (touchReg_ne h).1 (touchReg_ne h).2
  gated _ _ := rfl
  memErr _ _ _ := rfl
  erlCyc _ _ := rfl
  waiting _ _ := rfl
  banks _ _ _ := rfl
  free _ := rfl

theorem Dev.choiceView_report (blk unit code : Nat) (detail : Word) (extra : List Word) : (d.report blk unit code detail extra).choiceView = d.choiceView :=
  untouched_choiceView.report d ..

/-! #### Programs of a counter -/

theorem Dev.choiceView_setBytes {a : Nat} (l : List Byte) (h : ctrBase 0 ≤ a) : (d.setBytes a l).choiceView = d.choiceView := by
  have hlow : 0x02000000 ≤ a := Nat.le_trans (by decide) h
  refine Dev.choiceView_congr ?_ ?_ (Dev.reg_congr (d.setBytes_regs a l) _) (Dev.reg_congr (d.setBytes_regs a l) _) fun x hx => ?_
  · exact Dev.setBytes_frame (g := Dev.svc) (fun _ _ _ => rfl) (fun _ _ => rfl) d a l
  · exact Dev.setBytes_frame (g := fun d => d.pwr.extDone) (fun _ _ _ => rfl) (fun _ _ => rfl) d a l
  · rw [Dev.cell_setBytes _ _ _ hlow, if_neg (by omega)]

theorem Dev.choiceView_progVerify {a : Nat} (b : List Byte) (ok : Bool) (h : ctrBase 0 ≤ a) : (d.progVerify a b ok).choiceView = d.choiceView := by
  have hword : (d.progWord a b ok).choiceView = d.choiceView := d.choiceView_setBytes b h
  unfold Dev.progVerify
  dsimp only
  split
  · exact hword
  · exact (Dev.choiceView_count _ (by decide) (by decide)).trans hword

theorem Dev.choiceView_eraseSector {a : Nat} (h : ctrBase 0 ≤ a) : (d.eraseSector a).choiceView = d.choiceView :=
  Dev.choiceView_congr rfl rfl rfl rfl fun x hx => by rw [Dev.cell_eraseSector, if_neg (by omega)]

theorem ctrBase_ge (c : Nat) : ctrBase 0 ≤ ctrBase c := by unfold ctrBase flashAt; omega

theorem Dev.ctrTry_at (c v active : Nat) (ok : Bool) (h : ctrBase 0 ≤ active) :
    (d.ctrTry c v active ok).1.choiceView = d.choiceView ∧ ctrBase 0 ≤ (d.ctrTry c v active ok).2 := by
  have hbase := ctrBase_ge c
  unfold Dev.ctrTry
  split
  next a ha =>
    obtain ⟨i, -, rfl⟩ := List.mem_map.mp (List.mem_of_find?_eq_some ha)
    exact ⟨d.choiceView_progVerify _ _ (by omega), h⟩
  next =>
    have hother : ctrBase 0 ≤ ctrBase c + (if active = ctrBase c then 4096 else 0) := by omega
    exact ⟨(Dev.choiceView_progVerify _ _ _ hother).trans (d.choiceView_eraseSector hother), hother⟩

theorem Dev.ctrScan_at (c : Nat) {a : Nat} (h : (d.ctrScan c).2 = some a) : ctrBase 0 ≤ a := by
  revert a
  unfold Dev.ctrScan
  refine List.foldlRecOn (motive := fun r : Nat × Option Nat => ∀ {a}, r.2 = some a → ctrBase 0 ≤ a) _ _ (fun h => absurd h (by simp)) fun r ih x hx => ?_
  obtain ⟨i, -, rfl⟩ := List.mem_map.mp hx
  have hbase := ctrBase_ge c
  dsimp only
  intro a ha
  split at ha
  · split at ha <;> split at ha
    · obtain rfl := Option.some.inj ha
      omega
    · exact ih ha
    · obtain rfl := Option.some.inj ha
      omega
    · exact ih ha
  · exact ih ha

theorem Dev.ctrActive_ge (c : Nat) : ctrBase 0 ≤ d.ctrActive c := by
  unfold Dev.ctrActive
  split
  next a ha =>
    have hge := d.ctrScan_at c ha
    have hal : ctrBase 0 = 36896 * 4096 := by decide
    omega
  next => exact ctrBase_ge c

theorem KEY_CTR_ne (c : Nat) : FLC_BOOT ≠ KEY_CTR c ∧ PWR_SUPPLY ≠ KEY_CTR c := by
  unfold FLC_BOOT PWR_SUPPLY KEY_CTR
  omega

theorem Dev.choiceView_bankServed (b : Nat) : (d.bankServed b).choiceView = d.choiceView := by
  unfold Dev.bankServed
  split
  · exact untouched_choiceView.banks d _ _
  · rfl

theorem Dev.choiceView_raiseCore (go : Bool) (c v : Nat) (repair : Bool) (outs : List Bool) : (d.raiseCore go c v repair outs).2.choiceView = d.choiceView := by
  have hset : ∀ e : Dev, (e.setReg (KEY_CTR c) (BitVec.ofNat 32 v)).choiceView = e.choiceView := fun e => e.choiceView_setReg _ (KEY_CTR_ne c).1 (KEY_CTR_ne c).2
  have hserved := d.choiceView_bankServed 2
  obtain ⟨h1, hat⟩ := (d.bankServed 2).ctrTry_at c v ((d.bankServed 2).ctrActive c) (outs.getD 0 true) (Dev.ctrActive_ge _ c)
  have h2 := fun o => (Dev.ctrTry_at ((d.bankServed 2).ctrTry c v ((d.bankServed 2).ctrActive c) (outs.getD 0 true)).1 c v _ o hat).1
  unfold Dev.raiseCore
  dsimp only
  generalize d.bankServed 2 = e at *
  generalize e.ctrTry c v (e.ctrActive c) (outs.getD 0 true) = r at *
  have h2 := h2 (outs.getD 1 true)
  generalize r.1.ctrTry c v r.2 (outs.getD 1 true) = t at *
  split
  · rfl
  · split
    · rfl
    · split
      · rfl
      · split
        · exact d.choiceView_count (by decide) (by decide)
        · split
          · exact (hset _).trans (h1.trans hserved)
          · split
            · exact (hset _).trans (h2.trans (h1.trans hserved))
            · exact h2.trans (h1.trans hserved)

theorem Dev.choiceView_raiseGo (go : Bool) (c v : Nat) (outs : List Bool) : (d.raiseGo go c v outs).2.choiceView = d.choiceView := by
  have hcore := d.choiceView_raiseCore go c v false outs
  have hr : (if d.ctrBad.contains c then (krRAISEFAIL, d) else d.raiseCore go c v false outs).2.choiceView = d.choiceView := by
    split
    · rfl
    · exact hcore
  unfold Dev.raiseGo
  dsimp only
  generalize (if d.ctrBad.contains c then (krRAISEFAIL, d) else d.raiseCore go c v false outs) = r at *
  split
  · exact (Dev.choiceView_put _ _ _ (by decide) (by decide)).trans ((Dev.choiceView_count _ (by decide) (by decide)).trans hr)
  · exact hr

/-! #### The scan of the counters -/

theorem Dev.choiceView_touchRange (a n : Nat) : (d.touchRange a n).choiceView = d.choiceView := untouched_choiceView.touchRange d a n

theorem Dev.choiceView_ctrShown (c : Nat) : (d.ctrShown c).choiceView = d.choiceView := by
  unfold Dev.ctrShown
  dsimp only
  refine Eq.trans ?_ (d.choiceView_touchRange (ctrBase c) 8192)
  generalize d.touchRange (ctrBase c) 8192 = e
  generalize BitVec.ofNat 32 (e.ctrScan c).1 = v
  exact (Dev.choiceView_congr rfl rfl rfl rfl fun _ _ => rfl).trans (e.choiceView_setReg v (KEY_CTR_ne c).1 (KEY_CTR_ne c).2)

theorem Dev.choiceView_ctrFailed (c : Nat) : (d.ctrFailed c).choiceView = d.choiceView := by
  rw [Dev.ctrFailed, Dev.choiceView_put _ _ _ (by decide) (by decide)]
  refine Eq.trans ?_ (d.choiceView_count (a := KEY_CNT 3) (by decide) (by decide))
  generalize d.count (KEY_CNT 3) = e
  exact Dev.choiceView_congr rfl rfl rfl rfl fun _ _ => rfl

theorem Dev.choiceView_scanCtr (c : Nat) (outs : List Bool) : (d.scanCtr c outs).choiceView = d.choiceView := by
  cases h : ((d.touchRange (ctrBase c) 8192).ctrScan c).2 with
  | none => rw [Dev.scanCtr_none h, Dev.choiceView_ctrShown]
  | some a =>
    cases hs : (d.ctrShown c).ctrSound c a with
    | true => rw [Dev.scanCtr_sound h hs, Dev.choiceView_ctrShown]
    | false =>
      rw [Dev.scanCtr_repair h hs]
      have hr := (Dev.choiceView_raiseCore ((d.ctrShown c).count (KEY_CNT 4)) (d.ctrShown c).mayProg c ((d.touchRange (ctrBase c) 8192).ctrScan c).1 true outs).trans
        ((Dev.choiceView_count _ (by decide) (by decide)).trans (d.choiceView_ctrShown c))
      dsimp only
      generalize ((d.ctrShown c).count (KEY_CNT 4)).raiseCore (d.ctrShown c).mayProg c ((d.touchRange (ctrBase c) 8192).ctrScan c).1 true outs = r at *
      split
      · exact hr
      · exact (r.2.choiceView_ctrFailed c).trans hr

theorem Dev.choiceView_scanned : d.scanned.choiceView = d.choiceView := by
  unfold Dev.scanned
  split
  · rfl
  · exact foldl_frame (g := Dev.choiceView) (fun (e : Dev) c => e.choiceView_scanCtr c []) _ _

/-! #### A load by name -/

theorem Dev.choiceView_blobReads : d.blobReads.choiceView = d.choiceView :=
  foldl_frame (g := Dev.choiceView) (fun (e : Dev) a => e.choiceView_touchRange a 64) _ _

theorem Dev.choiceView_loadGen (go : Bool) (kname gen : Nat) (outs : List Bool) :
    (if kname ≠ 0xFF ∧ d.ctrVal (32 + kname) < gen then
        let r := d.raiseGo go (32 + kname) gen outs
        if r.1 = krOK then (krOK, r.2.count (KEY_CNT 5)) else r
      else (krOK, d)).2.choiceView = d.choiceView := by
  have hr := d.choiceView_raiseGo go (32 + kname) gen outs
  dsimp only
  generalize d.raiseGo go (32 + kname) gen outs = r at *
  split
  · split
    · exact (Dev.choiceView_count _ (by decide) (by decide)).trans hr
    · exact hr
  · rfl

theorem Dev.choiceView_loadPlain (go : Bool) (i : Nat) (p : List Byte) (kname : Nat) (outs : List Bool) :
    (d.loadPlain go i p kname outs).2.2.choiceView = d.choiceView := by
  have hgen := d.choiceView_loadGen go kname (u32 p 12) outs
  unfold Dev.loadPlain
  dsimp only at hgen ⊢
  generalize (if kname ≠ 0xFF ∧ d.ctrVal (32 + kname) < u32 p 12 then
    if (d.raiseGo go (32 + kname) (u32 p 12) outs).1 = krOK then (krOK, (d.raiseGo go (32 + kname) (u32 p 12) outs).2.count (KEY_CNT 5))
    else d.raiseGo go (32 + kname) (u32 p 12) outs else (krOK, d)) = r at *
  have hspan := (r.2.choiceView_raiseGo go (u8 p 5) (r.2.ctrVal (u8 p 5) + 1) (outs.drop 2)).trans hgen
  repeat' split
  · rfl
  · rfl
  · rfl
  · rfl
  · exact hgen
  · exact hgen
  · exact hgen
  · exact hspan
  · exact hspan

theorem Dev.choiceView_loadBlob (go : Bool) (i : Nat) (b : List Byte) (kek : Nat) (outs : List Bool) : (d.loadBlob go i b kek outs).2.2.choiceView = d.choiceView := by
  unfold Dev.loadBlob
  split
  · rfl
  · exact d.choiceView_loadPlain ..

theorem Dev.choiceView_loadName (go : Bool) (i name kek : Nat) (outs : List Bool) : (d.loadName go i name kek outs).2.2.choiceView = d.choiceView := by
  unfold Dev.loadName
  dsimp only
  split
  · rfl
  · split
    · rfl
    · split
      · exact d.choiceView_blobReads
      · exact (Dev.choiceView_loadBlob ..).trans d.choiceView_blobReads

theorem Dev.choiceView_engEnd (b : Nat) : (d.engEnd b).choiceView = d.choiceView := by
  have hstat : FLC_BOOT ≠ FLC_STAT b ∧ PWR_SUPPLY ≠ FLC_STAT b := by
    unfold FLC_BOOT PWR_SUPPLY FLC_STAT
    omega
  unfold Dev.engEnd Dev.bankShow
  exact (Dev.choiceView_put _ _ _ hstat.1 hstat.2).trans (untouched_choiceView.banks d _ _)

theorem Dev.choiceView_keyAnswered (x : KeyRun) (r : Nat) : (d.keyAnswered x r).choiceView = d.choiceView := by
  have h : ({ (d.put KEY_RES KEY_RES_BUSY 0).put KEY_RES KEY_RES_RESULT r with keyPend := none } : Dev).choiceView = d.choiceView := by
    refine Eq.trans ?_ (Dev.choiceView_put (d.put KEY_RES KEY_RES_BUSY 0) KEY_RES_RESULT r (a := KEY_RES) (by decide) (by decide) |>.trans
      (d.choiceView_put KEY_RES_BUSY 0 (a := KEY_RES) (by decide) (by decide)))
    generalize (d.put KEY_RES KEY_RES_BUSY 0).put KEY_RES KEY_RES_RESULT r = e
    exact Dev.choiceView_congr rfl rfl rfl rfl fun _ _ => rfl
  unfold Dev.keyAnswered
  refine Eq.trans ?_ h
  generalize ({ (d.put KEY_RES KEY_RES_BUSY 0).put KEY_RES KEY_RES_RESULT r with keyPend := none } : Dev) = e
  exact Dev.when_frame (g := Dev.choiceView) (e.choiceView_engEnd 2)

theorem Dev.choiceView_setKslot (i : Nat) (k : KSlot) : (d.setKslot i k).choiceView = d.choiceView := Dev.choiceView_congr rfl rfl rfl rfl fun _ _ => rfl

theorem Dev.choiceView_exhaust (i : Nat) : (d.exhaust i).choiceView = d.choiceView := by
  unfold Dev.exhaust
  dsimp only
  rw [Dev.choiceView_report, Dev.choiceView_put _ _ _ (by decide) (by decide), Dev.choiceView_setKslot]

theorem Dev.choiceView_keyEmptied (x : KeyRun) : (d.keyEmptied x).choiceView = d.choiceView := by
  unfold Dev.keyEmptied
  split
  · exact d.choiceView_setKslot _ _
  · rfl

theorem Dev.choiceView_keyFailed (x : KeyRun) (r : Nat) : (d.keyFailed x r).choiceView = d.choiceView := by
  rw [Dev.keyFailed, Dev.choiceView_report, Dev.choiceView_count _ (by decide) (by decide)]

theorem Dev.choiceView_keyFinish (x : KeyRun) (note : Bool) (r : Nat) (load : Option KSlot) : (d.keyFinish x note r load).choiceView = d.choiceView := by
  cases load with
  | some k =>
    rw [Dev.keyFinish_some]
    split
    · rw [Dev.choiceView_exhaust, Dev.choiceView_setKslot, Dev.choiceView_keyAnswered]
    · rw [Dev.choiceView_setKslot, Dev.choiceView_keyAnswered]
  | none =>
    rw [Dev.keyFinish_none]
    split
    · rw [Dev.choiceView_keyFailed, Dev.choiceView_keyEmptied, Dev.choiceView_keyAnswered]
    · rw [Dev.choiceView_keyEmptied, Dev.choiceView_keyAnswered]

theorem Dev.choiceView_keyEnd {x : KeyRun} (hop : x.op = 2) : (d.keyEnd x).choiceView = d.choiceView := by
  have hwork : (d.scanned.keyWork x).2.2.choiceView = d.choiceView := by
    refine Eq.trans ?_ d.choiceView_scanned
    generalize d.scanned = e
    simp only [Dev.keyWork, hop]
    split
    · rfl
    · exact e.choiceView_loadName ..
  unfold Dev.keyEnd
  dsimp only
  rw [Dev.choiceView_keyFinish, hwork]

/-! #### The boot keys -/

theorem Dev.choiceView_bootLoad (i name : Nat) (outs : List Bool) : (d.bootLoad i name outs).choiceView = d.choiceView := by
  unfold Dev.bootLoad
  dsimp only
  refine (Dev.choiceView_keyEnd _ rfl).trans ?_
  refine (Dev.when_frame (g := Dev.choiceView) (Dev.choiceView_setKslot ..)).trans ?_
  exact d.choiceView_setReg _ (by decide) (by decide)

theorem Dev.choiceView_bootFcnt (outs : List Bool) : (d.bootFcnt outs).choiceView = d.choiceView := by
  have hr := d.choiceView_raiseGo d.mayProg 2 (d.ctrVal 2 + 1) outs
  unfold Dev.bootFcnt Dev.raise
  dsimp only
  rw [Dev.choiceView_setReg _ _ (by decide) (by decide), Dev.choiceView_setReg _ _ (by decide) (by decide), hr]

theorem Dev.choiceView_bootKeys (outs : List Bool) : (d.bootKeys outs).choiceView = d.choiceView := by
  unfold Dev.bootKeys
  split
  · rfl
  · refine Eq.trans ?_ ((Dev.choiceView_bootFcnt _ (outs.drop 8)).trans ((Dev.choiceView_bootLoad _ 254 1 (outs.drop 4)).trans
      ((Dev.choiceView_bootLoad _ 255 0 outs).trans d.choiceView_scanned)))
    generalize ((d.scanned.bootLoad 255 0 outs).bootLoad 254 1 (outs.drop 4)).bootFcnt (outs.drop 8) = e
    exact Dev.choiceView_congr rfl rfl rfl rfl fun _ _ => rfl

end

end Sys2Proof.Machine
end

section
/-! The choice of an image at start-up (R424). -/

namespace Sys2Proof.Machine

/-! ### The choice of an image at start-up (R424) -/

section
variable {d e : Dev}

theorem Dev.imgHdr_of_choiceView (h : e.choiceView = d.choiceView) {n : Nat} (hn : 2 ≤ n) : e.imgHdr n = d.imgHdr n := by
  have hbase : imgBase n + 256 ≤ ctrBase 0 := by
    unfold imgBase
    split <;> decide
  refine List.map_congr_left fun a ha => ?_
  obtain ⟨hlo, hhi⟩ := mem_span.mp ha
  have hge := Nat.le_trans (imgBase_ge n) hlo
  rw [e.byte_eq_cell hge, d.byte_eq_cell hge, Dev.cell_of_choiceView h (by omega)]

theorem Dev.imgHdrOk_congr {n : Nat} (hn : 2 ≤ n) (h : e.imgHdr n = d.imgHdr n) : e.imgHdrOk n = d.imgHdrOk n := by
  have hsecond : ¬ n ≤ 1 := by omega
  simp only [Dev.imgHdrOk, h, hn, decide_true, if_true, Dev.imgEntryOk, hsecond, decide_false, Bool.and_false, Bool.false_and, Bool.false_or]

theorem Dev.noExt_of_choiceView (h : e.choiceView = d.choiceView) : e.noExt = d.noExt := by
  have hboot : ∀ f, e.get FLC_BOOT f = d.get FLC_BOOT f := fun f => congrArg (getF · f) (Dev.boot_of_choiceView h)
  have hhdr := Dev.imgHdr_of_choiceView h (n := 2 + d.get FLC_BOOT FLC_BOOT_ACTIVE) (by omega)
  unfold Dev.noExt
  dsimp only
  rw [Dev.flag, hboot, hboot, ← Dev.flag, Dev.imgHdrOk_congr (by omega) hhdr, Dev.imgSigOk, Dev.imgSigOk, hhdr]

end

section
variable (d : Dev)

/-- What start-up in service mode shows. -/
theorem Dev.serviceBoot_shows : d.serviceBoot.flag SVC_STAT SVC_STAT_SERVICE = true ∧ d.serviceBoot.get SVC_IMG SVC_IMG_RUNNING = 3 ∧
    d.serviceBoot.coreState 0 = 2 ∧ d.serviceBoot.coreState 6 = 2 := by
  unfold Dev.serviceBoot
  dsimp only
  generalize d.sowRecovery = r
  obtain ⟨s, hs⟩ : ∃ s, s = ((r.put SVC_STAT SVC_STAT_SERVICE 1).put SVC_IMG SVC_IMG_RUNNING 3).setReg SVC_VER 0 := ⟨_, rfl⟩
  have hservice : s.flag SVC_STAT SVC_STAT_SERVICE = true := by
    rw [hs, Dev.flag_of_reg (Dev.reg_setReg_other _ _ _ _ (by decide)), Dev.flag_put_other _ _ _ _ _ _ (by decide), Dev.flag_put_one _ _ (by decide) (by decide)]
  have hrun : s.get SVC_IMG SVC_IMG_RUNNING = 3 := by
    rw [hs, Dev.get, Dev.reg_setReg_other _ _ _ _ (by decide), ← Dev.get, Dev.get_put_same _ _ _ _ (by decide) (by decide)]
    rfl
  rw [← hs]
  have hcs : ∀ (x : Dev) (a : Nat), a ≠ SYS_CORESTAT → ((x.setCoreState 0 2).setCoreState 6 2).reg a = x.reg a := fun x a ha => by
    rw [Dev.setCoreState, Dev.reg_put_other _ _ _ _ _ ha, Dev.setCoreState, Dev.reg_put_other _ _ _ _ _ ha]
  refine ⟨?_, ?_, ?_, ?_⟩
  · rw [Dev.flag_of_reg (hcs _ _ (by decide)), Dev.flag_of_reg (Dev.svcShow_frame _ (g := fun x => x.reg SVC_STAT) fun x v => x.reg_setReg_other _ _ v (by decide))]
    exact hservice
  · rw [Dev.get, hcs _ _ (by decide), ← Dev.get, Dev.svcShow_get _ (by decide), hrun]
  · rw [Dev.coreState_setCoreState _ (by decide) (by decide) (by decide), if_neg (by decide), Dev.coreState_setCoreState _ (by decide) (by decide) (by decide), if_pos rfl]
  · rw [Dev.coreState_setCoreState _ (by decide) (by decide) (by decide), if_pos rfl]

/-- How the choice among slots may end: service, a wait for VIO_B, or an image that runs. -/
def Dev.Chosen (d : Dev) : Prop := d.flag SVC_STAT SVC_STAT_SERVICE = true ∨ d.sow.viobWait ≠ none ∨ d.get SVC_IMG SVC_IMG_RUNNING < 2

theorem Dev.bootTry_chosen {viob : Option Nat} (l : List Nat) (hl : ∀ n ∈ l, n < 2) : ∀ (waited : Bool) (d : Dev), (d.bootTry viob waited l).Chosen := by
  induction l with
  | nil => exact fun _ d => .inl d.serviceBoot_shows.1
  | cons n r ih =>
    intro waited d
    have hr := ih (fun m hm => hl m (List.mem_cons_of_mem _ hm))
    rw [Dev.bootTry]
    dsimp only
    generalize (if d.imgCheck n = ssOK ∧ d.imgSigOk n = true then d.bootSow n viob else (false, d)) = sown
    split
    · exact hr _ _
    · split
      · exact .inr (.inl (Option.some_ne_none _))
      · split
        · refine .inr (.inr ?_)
          rw [Dev.runSlot_RUNNING _ (Nat.lt_trans (hl n List.mem_cons_self) (by decide))]
          exact hl n List.mem_cons_self
        · exact hr _ _

theorem Dev.bootOrder_lt : ∀ n ∈ d.bootOrder, n < 2 := by
  have hpair : ∀ (p : Nat → Bool), ∀ n ∈ [0, 1].filter p, n < 2 := fun p n hn => by
    have := (List.mem_filter.mp hn).1
    simp only [List.mem_cons, List.not_mem_nil, or_false] at this
    omega
  intro n hn
  unfold Dev.bootOrder at hn
  dsimp only at hn
  rcases List.mem_append.mp hn with hn | hn
  · rcases List.mem_append.mp hn with hn | hn
    · exact hpair _ n hn
    · split at hn
      · exact hpair _ n (List.mem_reverse.mp hn)
      · exact hpair _ n hn
  · exact hpair _ n hn

theorem Dev.bootSlots_chosen (viob : Option Nat) (hs : d.flag PWR_SUPPLY PWR_SUPPLY_SLOW = false) : (d.bootSlots viob).Chosen := by
  have h := Dev.bootTry_chosen (viob := viob) d.bootOrder d.bootOrder_lt false d
  unfold Dev.bootSlots Dev.unlessSlow
  rwa [if_neg (by simp [hs])]

/-! ### The choice itself -/

/-- The device with the boot keys loaded (R222). -/
def Dev.bootReady (d : Dev) (ins : Option (Fin 2) × List Bool) : Dev :=
  Dev.bootKeys { d with pwr := { d.pwr with vioB := ins.1.map (·.val) } } ins.2

/-- What the start shows of the images before it chooses (R424). -/
def Dev.bootNoted (d : Dev) : Dev :=
  let d := d.putB SVC_IMG SVC_IMG_NOEXT d.noExt
  if [0, 1].any (fun n => d.slotState n == kiARMED) then d.put SVC_IMG SVC_IMG_ARMLEFT 1 else d

/-- What the start makes of the images, the boot keys loaded and no extension under way (R424). -/
def Dev.bootPick (d : Dev) (viob : Option Nat) : Dev :=
  if d.svc.atn then d.serviceBoot
  else if d.bootNoted.flag SVC_IMG SVC_IMG_NOEXT || d.bootNoted.pwr.extDone then d.bootNoted.bootSlots viob else d.bootNoted.extCall

/-- Nothing is chosen once the ROM is hidden, before start-up is so far, in service mode, or while a choice waits. -/
def Dev.NoChoice (d : Dev) : Prop :=
  d.romHidden = true ∨ d.pwr.phase ≠ .running ∨ d.flag FLC_BOOT FLC_BOOT_READY = false ∨ d.flag SVC_STAT SVC_STAT_SERVICE = true ∨ d.sow.viobWait ≠ none

theorem Dev.choiceView_bootReady (ins : Option (Fin 2) × List Bool) : (d.bootReady ins).choiceView = d.choiceView :=
  (Dev.choiceView_bootKeys _ _).trans (Dev.choiceView_congr rfl rfl rfl rfl fun _ _ => rfl)

theorem Dev.choiceView_bootNoted : d.bootNoted.choiceView = d.choiceView := by
  have h := d.choiceView_put (a := SVC_IMG) SVC_IMG_NOEXT d.noExt.toNat (by decide) (by decide)
  unfold Dev.bootNoted Dev.putB
  dsimp only
  generalize d.put SVC_IMG SVC_IMG_NOEXT d.noExt.toNat = e at *
  split
  · exact (e.choiceView_put _ _ (by decide) (by decide)).trans h
  · exact h

theorem Dev.bootNoted_NOEXT : d.bootNoted.flag SVC_IMG SVC_IMG_NOEXT = d.noExt := by
  have h := d.flag_putB SVC_IMG (f := SVC_IMG_NOEXT) d.noExt (by decide) (by decide)
  unfold Dev.bootNoted
  dsimp only
  generalize d.putB SVC_IMG SVC_IMG_NOEXT d.noExt = e at *
  split
  · rw [Dev.flag_put_field _ _ _ (by decide) (by decide) (by decide), h]
  · exact h

section
variable {d} {q : List Instr} {ins : Option (Fin 2) × List Bool}

theorem gives_bootChoice_not (h : d.NoChoice) : Gives (.bootChoice ins) ⟨d, q⟩ d := by
  refine gives_of_run rfl (exec_bootChoice ..) (if_pos ?_)
  refine h.imp_right (Or.imp_right (Or.imp (fun hr => by rw [hr]; rfl) (Or.imp_right Option.isSome_iff_ne_none.mpr)))

variable (hgo : ¬ d.NoChoice)
include hgo

theorem boot_goes : ¬ (d.romHidden = true ∨ d.pwr.phase ≠ .running ∨ (!d.flag FLC_BOOT FLC_BOOT_READY) = true ∨ d.flag SVC_STAT SVC_STAT_SERVICE = true ∨
    d.sow.viobWait.isSome = true) := by
  refine fun h => hgo (h.imp_right (Or.imp_right (Or.imp (fun hr => by simpa using hr) (Or.imp_right Option.isSome_iff_ne_none.mp))))

theorem gives_bootChoice_away {w : Word} (hr : d.pwr.extRet = some w) (hpc : (d.core 0).pc ≠ w) : Gives (.bootChoice ins) ⟨d, q⟩ d := by
  refine gives_of_run rfl (exec_bootChoice ..) ((if_neg (boot_goes hgo)).trans ?_)
  simp only [hr]
  exact if_neg hpc

theorem gives_bootChoice_back (hr : d.pwr.extRet = some (d.core 0).pc) : Gives (.bootChoice ins) ⟨d, q⟩
    (Dev.bootSlots { d with pwr := { d.pwr with extRet := none, extDone := true, vioB := ins.1.map (·.val) } } (ins.1.map (·.val))) := by
  refine gives_of_run rfl (exec_bootChoice ..) ((if_neg (boot_goes hgo)).trans ?_)
  simp only [hr]
  exact if_true _ _

theorem gives_bootChoice_fresh (hr : d.pwr.extRet = none) : Gives (.bootChoice ins) ⟨d, q⟩ ((d.bootReady ins).bootPick (ins.1.map (·.val))) := by
  refine gives_of_run rfl (exec_bootChoice ..) ((if_neg (boot_goes hgo)).trans ?_)
  simp only [hr, Dev.bootPick, Dev.bootNoted, Dev.bootReady]

end

section
variable {d} {viob : Option Nat}

theorem Dev.bootPick_service (ha : d.svc.atn = true) : d.bootPick viob = d.serviceBoot := if_pos ha

theorem Dev.bootPick_slots (ha : d.svc.atn = false) (hx : d.noExt = true ∨ d.pwr.extDone = true) : d.bootPick viob = d.bootNoted.bootSlots viob := by
  have hdone := Dev.extDone_of_choiceView d.choiceView_bootNoted
  unfold Dev.bootPick
  rw [if_neg (by simp [ha]), if_pos (by rw [d.bootNoted_NOEXT, hdone, Bool.or_eq_true]; exact hx)]

theorem Dev.bootPick_ext (ha : d.svc.atn = false) (hx : d.noExt = false) (hd : d.pwr.extDone = false) : d.bootPick viob = d.bootNoted.extCall := by
  have hdone := Dev.extDone_of_choiceView d.choiceView_bootNoted
  unfold Dev.bootPick
  rw [if_neg (by simp [ha]), if_neg (by rw [d.bootNoted_NOEXT, hdone, hx, hd]; exact Bool.false_ne_true)]

end

/-! ### The call of a boot extension -/

theorem Dev.pc_setBytes (a : Nat) (l : List Byte) (c : Fin 7) : ((d.setBytes a l).core c).pc = (d.core c).pc :=
  Dev.setBytes_frame (g := fun e => (e.core c).pc) (fun e x b => by simp [Dev.core, Dev.setByte, endResv]) (fun _ _ => rfl) d a l

theorem Dev.extCall_shows : ∃ w, d.extCall.pwr.extRet = some w ∧ d.extCall.coreState 0 = 1 ∧
    (d.extCall.core 0).pc = BitVec.ofNat 32 (ihEntry (d.imgHdr (2 + d.get FLC_BOOT FLC_BOOT_ACTIVE)) 0) := by
  unfold Dev.extCall Dev.store
  dsimp only
  generalize BitVec.ofNat 32 (ihEntry (d.imgHdr (2 + d.get FLC_BOOT FLC_BOOT_ACTIVE)) 0) = pc
  generalize BitVec.ofNat 32 (0x10000000 + 4 * (Config.romNext % 0x4000)) = ret
  generalize BitVec.ofNat 32 (0x20000000 + 4 * (Config.romStack % 0x500000)) = sp
  generalize leBytes 4 ret.toNat = l
  obtain ⟨x, hx⟩ : ∃ x : CoreSt, x = { CoreSt.init with g := CoreSt.init.g.set 15 sp, pc := pc } := ⟨_, rfl⟩
  rw [← hx]
  have hpc : x.pc = pc := by rw [hx]
  refine ⟨ret, rfl, ?_, ?_⟩
  · have h := Dev.coreState_setCoreState (d.setCore 0 x) (k := 0) (c := 0) (v := 1) (by decide) (by decide) (by decide)
    generalize (d.setCore 0 x).setCoreState 0 1 = e at *
    exact (Dev.coreState_of_reg (Dev.reg_congr (e.setBytes_regs sp.toNat l) _) 0).trans (h.trans (if_pos rfl))
  · have h : ((d.setCore 0 x).setCoreState 0 1).core 0 = x := by
      rw [Dev.setCoreState, Dev.put, Dev.core_setReg, Dev.core_setCore_same]
    generalize (d.setCore 0 x).setCoreState 0 1 = e at *
    exact (e.pc_setBytes sp.toNat l 0).trans ((congrArg CoreSt.pc h).trans hpc)

end

end Sys2Proof.Machine
end

section
/-! The obligation on image activation (R417 to R424). -/

namespace Sys2Proof.Machine

section
variable {d : Dev} {q : List Instr} {c : Fin 7}

/-- What the commands of SVC_CMD give. -/
theorem svcCommands (ho : BusOpen ⟨d, q⟩ c SVC_CMD true) {r : Nat} :
    (d.flag SVC_RES SVC_RES_BUSY = true → ∀ i ∈ [Instr.imageCheck c, .activationArm c, .activationCancel c, .imageConfirm c], Gives i ⟨d, q⟩ d) ∧
    (d.flag SVC_RES SVC_RES_BUSY = false →
      Gives (.imageCheck c) ⟨d, q⟩ { d.svcBegun 1 with svc := { d.svc with cmd := some (1, d.get SVC_ARG SVC_ARG_SLOT) } } ∧
      Gives (.imageConfirm c) ⟨d, q⟩ { d.svcBegun 4 with svc := { d.svc with cmd := some (4, d.get SVC_ARG SVC_ARG_SLOT) } } ∧
      ((d.svcBegun 2).armJudge (d.get SVC_ARG SVC_ARG_SLOT) = some r → Gives (.activationArm c) ⟨d, q⟩ ((d.svcBegun 2).svcEnd r)) ∧
      ((d.svcBegun 2).armJudge (d.get SVC_ARG SVC_ARG_SLOT) = none →
        Gives (.activationArm c) ⟨d, q⟩ { d.svcBegun 2 with svc := { d.svc with cmd := some (2, d.get SVC_ARG SVC_ARG_SLOT) } }) ∧
      (d.flag SVC_IMG SVC_IMG_CONFWAIT = true → Gives (.activationCancel c) ⟨d, q⟩ ((d.svcBegun 3).fallBack.svcEnd 0)) ∧
      (d.flag SVC_IMG SVC_IMG_CONFWAIT = false → d.svc.armed = none → Gives (.activationCancel c) ⟨d, q⟩ ((d.svcBegun 3).svcEnd 0x07))) := by
  refine ⟨fun hb => ?_, fun hb => ⟨gives_imageCheck ho (Dev.svcOp_check hb), gives_imageConfirm ho (Dev.svcOp_confirm hb), fun hj => gives_activationArm ho ?_,
    fun hj => gives_activationArm ho ?_, fun hc => gives_activationCancel ho ?_, fun hc ha => gives_activationCancel ho ?_⟩⟩
  · simp only [List.mem_cons, List.not_mem_nil, or_false, forall_eq_or_imp, forall_eq]
    exact ⟨gives_imageCheck ho (d.svcOp_busy 1 hb), gives_activationArm ho (d.svcOp_busy 2 hb), gives_activationCancel ho (d.svcOp_busy 3 hb),
      gives_imageConfirm ho (d.svcOp_busy 4 hb)⟩
  · rw [Dev.svcOp_arm hb, hj]
  · rw [Dev.svcOp_arm hb, hj]
  · rw [Dev.svcOp_cancel hb, Dev.svcCancel_confirming _ ((d.flag_svcBegun 3 _).trans hc)]
  · rw [Dev.svcOp_cancel hb, Dev.svcCancel_idle _ ((d.flag_svcBegun 3 _).trans hc) ha]

/-- A step brings what the images show over to what the choice shows. -/
theorem Dev.Chosen.settled {t : Dev} (h : t.Chosen) (d : Dev) : (d.wakeBy t).settle.Chosen := h

theorem Dev.flag_setPwr (x : PowerSt) (a : Nat) (f : Fld) : Dev.flag { d with pwr := x } a f = d.flag a f := rfl

theorem Dev.shows_settled (d : Dev) {t : Dev} {a b : Nat} (h : t.flag SVC_STAT SVC_STAT_SERVICE = true ∧ t.get SVC_IMG SVC_IMG_RUNNING = 3 ∧ t.coreState a = 2 ∧ t.coreState b = 2) :
    (d.wakeBy t).settle.flag SVC_STAT SVC_STAT_SERVICE = true ∧ (d.wakeBy t).settle.get SVC_IMG SVC_IMG_RUNNING = 3 ∧ (d.wakeBy t).settle.coreState a = 2 ∧
      (d.wakeBy t).settle.coreState b = 2 := h

/-- What the choice at start-up gives, once it may be made. -/
theorem bootChoices {ins : Option (Fin 2) × List Bool} (hgo : ¬ d.NoChoice) :
    (d.pwr.extRet = none → d.svc.atn = true → After (.bootChoice ins) ⟨d, q⟩ (fun t =>
      t.flag SVC_STAT SVC_STAT_SERVICE = true ∧ t.get SVC_IMG SVC_IMG_RUNNING = 3 ∧ t.coreState 0 = 2 ∧ t.coreState 6 = 2)) ∧
    (d.pwr.extRet = none → d.svc.atn = false → d.noExt = false → d.pwr.extDone = false → After (.bootChoice ins) ⟨d, q⟩ (fun t => ∃ w, t.pwr.extRet = some w ∧
      t.coreState 0 = 1 ∧ (t.core 0).pc = BitVec.ofNat 32 (ihEntry (d.imgHdr (2 + d.get FLC_BOOT FLC_BOOT_ACTIVE)) 0))) ∧
    (d.pwr.extRet = some (d.core 0).pc ∨ (d.pwr.extRet = none ∧ d.svc.atn = false ∧ (d.noExt = true ∨ d.pwr.extDone = true)) →
      d.flag PWR_SUPPLY PWR_SUPPLY_SLOW = false → After (.bootChoice ins) ⟨d, q⟩ (fun t =>
        t.flag SVC_STAT SVC_STAT_SERVICE = true ∨ t.sow.viobWait ≠ none ∨ t.get SVC_IMG SVC_IMG_RUNNING < 2)) := by
  have hview := d.choiceView_bootReady ins
  have hfresh := fun hr => gives_bootChoice_fresh (q := q) (ins := ins) hgo hr
  have hback := fun hr => gives_bootChoice_back (q := q) (ins := ins) hgo hr
  have hatn : (d.bootReady ins).svc.atn = d.svc.atn := congrArg SvcSt.atn (Dev.svc_of_choiceView hview)
  have hnoExt := Dev.noExt_of_choiceView hview
  have hdone := Dev.extDone_of_choiceView hview
  generalize ins.1.map (fun (x : Fin 2) => x.val) = viob at *
  generalize d.bootReady ins = k at *
  refine ⟨fun hr ha => ?_, fun hr ha hx hd => ?_, fun h hs => ?_⟩
  · refine after_of (hfresh hr) ?_
    rw [Dev.bootPick_service (hatn.trans ha)]
    exact Dev.shows_settled d k.serviceBoot_shows
  · refine after_of (hfresh hr) ?_
    rw [Dev.bootPick_ext (hatn.trans ha) (hnoExt.trans hx) (hdone.trans hd)]
    have hnoted := k.choiceView_bootNoted.trans hview
    have hactive : k.bootNoted.get FLC_BOOT FLC_BOOT_ACTIVE = d.get FLC_BOOT FLC_BOOT_ACTIVE := congrArg (getF · FLC_BOOT_ACTIVE) (Dev.boot_of_choiceView hnoted)
    have hhdr := Dev.imgHdr_of_choiceView hnoted (n := 2 + d.get FLC_BOOT FLC_BOOT_ACTIVE) (by omega)
    obtain ⟨w, hret, hstate, hpc⟩ := k.bootNoted.extCall_shows
    rw [hactive, hhdr] at hpc
    generalize k.bootNoted.extCall = t at *
    exact ⟨w, hret, hstate, hpc⟩
  · rcases h with hr | ⟨hr, ha, hx⟩
    · refine after_of (hback hr) ?_
      exact (Dev.bootSlots_chosen _ viob ((Dev.flag_setPwr _ _ _).trans hs)).settled d
    · refine after_of (hfresh hr) ?_
      rw [Dev.bootPick_slots (hatn.trans ha) (by rwa [hnoExt, hdone])]
      have hnoted := k.choiceView_bootNoted.trans hview
      have hslow := (Dev.flag_of_reg (Dev.supply_of_choiceView hnoted) PWR_SUPPLY_SLOW).trans hs
      exact (Dev.bootSlots_chosen _ viob hslow).settled d

end

/-- Settles O56, command by command: SVC_CMD and its end, the switch and the fallback from what they leave of the images' own state, and the choice at
start-up from what the boot keys leave of it. -/
theorem imageActivation : Obligations.ImageActivation := by
  unfold Obligations.ImageActivation
  intro d q c n r ok ins
  dsimp only
  refine ⟨fun ho => ?_, fun h => d.armJudge_state h, fun ha hc hs => d.armJudge_debug ha hc hs, gives_svcCommandEnd_idle d q, after_svcCommandEnd_check d q,
    fun h hb => ?_, fun h hb => after_svcCommandEnd_arm d q ok h hb, fun h => gives_of_run rfl (exec_imageSwitch ..) (d.imageFire_early h),
    fun ha hn hw => after_imageSwitch d q ha hn hw, gives_confirmWindowExpiry_not d q, fun hc hn hp => after_confirmWindowExpiry d q hc hn hp,
    fun h => gives_bootChoice_not h, fun hrom hrun hready hservice hwait => ?_⟩
  · obtain ⟨hbusy, hfree⟩ := svcCommands (r := r) ho
    refine ⟨hbusy, fun hb => ?_⟩
    obtain ⟨hcheck, hconfirm, harm, hrun, hback, hidle⟩ := hfree hb
    exact ⟨hcheck, hconfirm, harm, hrun, hback, hidle, fun hc ha => after_activationCancel_armed d ho hb hc ha⟩
  · exact (d.armEnd_busy ok hb) ▸ gives_svcCommandEnd_arm d q ok h
  · have hgo : ¬ d.NoChoice := by
      rintro (h | h | h | h | h)
      · exact Bool.false_ne_true (hrom.symm.trans h)
      · exact h hrun
      · exact Bool.false_ne_true (h.symm.trans hready)
      · exact Bool.false_ne_true (hservice.symm.trans h)
      · exact h hwait
    obtain ⟨hserve, hext, hchosen⟩ := bootChoices (q := q) (ins := ins) hgo
    exact ⟨hserve, fun w hr hpc => gives_bootChoice_away hgo hr hpc, hext, hchosen⟩

end Sys2Proof.Machine
end

section
/-! What the radio and the link sequencer leave of the clocks and the dies. -/

namespace Sys2Proof.Machine

/-! ### What the blocks leave of the clocks and the dies -/

/-- What start-up and the clocks go by: the clocks, the links of the dies, and the registers of chapters 0 to 3. -/
def Dev.rootView (d : Dev) := (d.clk, d.pwr.rfIso, d.pwr.flIso, d.pwr.rfFail, d.pwr.flFail, fun a => if a < 0x40020000 then d.reg a else 0)

section
variable {d e : Dev} (h : e.rootView = d.rootView)
include h

theorem Dev.clk_of_rootView : e.clk = d.clk := congrArg (fun v => v.1) h

theorem Dev.rfIso_of_rootView : e.pwr.rfIso = d.pwr.rfIso := congrArg (fun v => v.2.1) h

theorem Dev.flIso_of_rootView : e.pwr.flIso = d.pwr.flIso := congrArg (fun v => v.2.2.1) h

theorem Dev.rfFail_of_rootView : e.pwr.rfFail = d.pwr.rfFail := congrArg (fun v => v.2.2.2.1) h

theorem Dev.flFail_of_rootView : e.pwr.flFail = d.pwr.flFail := congrArg (fun v => v.2.2.2.2.1) h

theorem Dev.reg_of_rootView {a : Nat} (ha : a < 0x40020000) : e.reg a = d.reg a := by
  have hreg := congrFun (congrArg (fun v => v.2.2.2.2.2) h) a
  dsimp only [Dev.rootView] at hreg
  rwa [if_pos ha, if_pos ha] at hreg

end

theorem Dev.rootView_of_same {d e : Dev} (hclk : e.clk = d.clk) (hpwr : e.pwr = d.pwr) (hregs : e.regs = d.regs) : e.rootView = d.rootView := by
  have hreg : e.reg = d.reg := by funext a; rw [Dev.reg, hregs, ← Dev.reg]
  rw [Dev.rootView, hclk, hpwr, hreg, ← Dev.rootView]

section
variable (d : Dev)

theorem Dev.rootView_setReg {a : Nat} (v : Word) (h : 0x40020000 ≤ a) : (d.setReg a v).rootView = d.rootView := by
  have hlow : (fun b => if b < 0x40020000 then (d.setReg a v).reg b else 0) = fun b => if b < 0x40020000 then d.reg b else 0 := by
    funext b
    split
    · exact Dev.reg_setReg_other _ _ _ _ (by omega)
    · rfl
  rw [Dev.rootView, hlow]
  rfl

theorem Dev.rootView_put {a : Nat} (f : Fld) (v : Nat) (h : 0x40020000 ≤ a) : (d.put a f v).rootView = d.rootView := d.rootView_setReg _ h

theorem Dev.rootView_putB {a : Nat} (f : Fld) (b : Bool) (h : 0x40020000 ≤ a) : (d.putB a f b).rootView = d.rootView := d.rootView_put f _ h

theorem Dev.rootView_count {a : Nat} (h : 0x40020000 ≤ a) : (d.count a).rootView = d.rootView := by
  unfold Dev.count
  split <;> exact d.rootView_put _ _ h

theorem Dev.rootView_count31 {a : Nat} (n : Nat) (h : 0x40020000 ≤ a) : (d.count31 a n).rootView = d.rootView := by
  unfold Dev.count31
  split
  · exact d.rootView_setReg _ h
  · exact d.rootView_put _ _ h

theorem Dev.rootView_resetReg {a : Nat} (h : 0x40020000 ≤ a) : (d.resetReg a).rootView = d.rootView := d.rootView_setReg _ h

theorem touchReg_above {a : Nat} (h : touchReg a) : 0x40020000 ≤ a := by
  rcases h with h | ⟨n, hn, rfl⟩ | ⟨b, rfl⟩ | rfl | rfl
  · revert a
    decide
  · unfold ERL_ECC; omega
  · unfold FLC_COL; omega
  · decide
  · decide

theorem untouched_rootView : Untouched Dev.rootView where
  setReg d _ v h := d.rootView_setReg v (touchReg_above h)
  gated _ _ := rfl
  memErr _ _ _ := rfl
  erlCyc _ _ := rfl
  waiting _ _ := rfl
  banks _ _ _ := rfl
  free _ := rfl

theorem Dev.rootView_report (blk unit code : Nat) (detail : Word) (extra : List Word) : (d.report blk unit code detail extra).rootView = d.rootView :=
  untouched_rootView.report d ..

theorem Dev.rootView_touchRange (a n : Nat) : (d.touchRange a n).rootView = d.rootView := untouched_rootView.touchRange d a n

theorem Dev.rootView_setBytes (a : Nat) (l : List Byte) : (d.setBytes a l).rootView = d.rootView :=
  Dev.setBytes_frame (g := Dev.rootView) (fun _ _ _ => rfl) (fun _ _ => rfl) d a l

theorem Dev.rootView_setResv (h mw : Nat) : (d.setResv h mw).rootView = d.rootView := by
  rw [Dev.setResv, Dev.rootView_put _ _ _ (by decide)]
  rfl

/-! #### The queues of the link sequencer -/

theorem Dev.rootView_cacheSync : d.cacheSync.rootView = d.rootView := (Dev.rootView_put _ _ _ (by decide)).trans (d.rootView_put _ _ (by decide))

theorem Dev.rootView_setCache (i : Nat) (x : CacheE) : (d.setCache i x).rootView = d.rootView :=
  (Dev.rootView_cacheSync _).trans (Dev.rootView_of_same rfl rfl rfl)

theorem Dev.rootView_relayEnd (i origin mseq code : Nat) : (d.relayEnd i origin mseq code).rootView = d.rootView := by
  unfold Dev.relayEnd
  dsimp only
  split
  · exact (Dev.rootView_count _ (by decide)).trans (d.rootView_setCache _ _)
  · exact d.rootView_cacheSync

theorem Dev.rootView_complete (tag status code : Nat) : (d.complete tag status code).rootView = d.rootView := Dev.rootView_of_same rfl rfl rfl

theorem Dev.rootView_descEnd (x : Desc) (status code : Nat) : (d.descEnd x status code).rootView = d.rootView := by
  unfold Dev.descEnd
  dsimp only
  split
  · exact Dev.rootView_relayEnd _ _ _ _ _
  · rfl

theorem Dev.rootView_unawait (i k : Nat) : (d.unawait i k).rootView = d.rootView := Dev.rootView_of_same rfl rfl rfl

theorem Dev.rootView_chtPut (i w : Nat) (f : Fld) (v : Nat) : (d.chtPut i w f v).rootView = d.rootView := Dev.rootView_of_same rfl rfl rfl

theorem Dev.rootView_setQueue (i : Nat) (l : List Nat) : (d.setQueue i l).rootView = d.rootView := by
  rw [Dev.setQueue, Dev.rootView_chtPut, Dev.rootView_chtPut, Dev.rootView_chtPut]
  exact Dev.rootView_of_same rfl rfl rfl

theorem Dev.rootView_setPool (k : Nat) (x : Option QDesc) : (d.setPool k x).rootView = d.rootView := by
  rw [Dev.setPool, Dev.rootView_put _ _ _ (by decide)]
  exact Dev.rootView_of_same rfl rfl rfl

theorem Dev.rootView_unqueue (i k : Nat) (status : Option Nat) (code : Nat) : (d.unqueue i k status code).rootView = d.rootView := by
  unfold Dev.unqueue
  dsimp only
  cases status <;> simp only [Dev.rootView_complete, apply_ite Dev.rootView, ite_self, Dev.rootView_chtPut, Dev.rootView_setPool, Dev.rootView_setQueue, Dev.rootView_unawait]

theorem Dev.rootView_descTouch (a : Nat) : (d.descTouch a).rootView = d.rootView := by
  unfold Dev.descTouch
  exact (Dev.rootView_touchRange _ _ _).trans (d.rootView_touchRange _ _)

theorem Dev.rootView_qopNow (i op arg : Nat) : (d.qopNow i op arg).2.2.2.rootView = d.rootView := by
  have hdrop : ∀ l : List Nat, (l.foldl (fun d k => d.unqueue i k (some csCANCELLED) 0) d).rootView = d.rootView := fun l =>
    foldl_frame (g := Dev.rootView) (fun (e : Dev) k => e.rootView_unqueue i k _ _) l d
  unfold Dev.qopNow
  dsimp only
  split
  · split
    · rfl
    · split
      · exact d.rootView_count (by decide)
      · split
        · exact d.rootView_count (by decide)
        · dsimp only
          rw [Dev.rootView_setQueue, Dev.rootView_setPool, Dev.rootView_descTouch]
  · split
    · rfl
    · split
      · simp only [Dev.rootView_setPool, Dev.rootView_complete, Dev.rootView_unawait, Dev.rootView_descTouch, apply_ite Dev.rootView, Dev.rootView_chtPut, ite_self]
      · rfl
  · split
    · exact d.rootView_unqueue _ _ _ _
    · rfl
  · exact hdrop _

theorem Dev.rootView_deferApply (here : List Nat) (x : Nat × Nat × Nat) : (d.deferApply here x).rootView = d.rootView := by
  have h := d.rootView_qopNow x.1 x.2.1 x.2.2
  unfold Dev.deferApply
  dsimp only
  generalize d.qopNow x.1 x.2.1 x.2.2 = r at *
  split
  · exact d.rootView_complete _ _ _
  · split
    · exact h
    · exact (Dev.rootView_complete _ _ _ _).trans h

theorem Dev.rootView_unlockQueue (i : Nat) : (d.unlockQueue i).rootView = d.rootView := by
  unfold Dev.unlockQueue
  dsimp only
  exact (foldl_frame (g := Dev.rootView) (fun (e : Dev) x => e.rootView_deferApply _ x) _ _).trans
    ((Dev.rootView_chtPut _ _ _ _ _).trans (Dev.rootView_of_same rfl rfl rfl))

theorem Dev.rootView_responseFails (i : Nat) : (d.responseFails i).rootView = d.rootView :=
  (Dev.rootView_unlockQueue _ _).trans (d.rootView_count (by decide))

/-! #### The end of a transmission -/

theorem Dev.rootView_setGate (t : Nat) (g : GateSt) : (d.setGate t g).rootView = d.rootView := Dev.rootView_of_same rfl rfl rfl

theorem Dev.rootView_setTx (t : Nat) (x : Option TxRec) : (d.setTx t x).rootView = d.rootView := Dev.rootView_of_same rfl rfl rfl

theorem Dev.rootView_coexSync : d.coexSync.rootView = d.rootView := by
  unfold Dev.coexSync
  exact (Dev.rootView_putB _ _ _ (by decide)).trans (d.rootView_putB _ _ (by decide))

theorem Dev.rootView_antSync : d.antSync.rootView = d.rootView := by
  unfold Dev.antSync
  split
  · exact (Dev.rootView_of_same rfl rfl rfl).trans (d.rootView_put (a := RFC_ANT) RFC_ANT_PEND 0 (by decide))
  · rfl

theorem Dev.rootView_loadProfile (t : Nat) (p : List Byte) : (d.loadProfile t p).rootView = d.rootView := by
  have hprof : ∀ v, (d.setReg (RFC_PROF t) v).rootView = d.rootView := fun v => d.rootView_setReg v (by unfold RFC_PROF; omega)
  unfold Dev.loadProfile Dev.gateFresh
  dsimp only
  split
  · exact (Dev.rootView_setGate _ _ _).trans (hprof _)
  · split
    · exact (Dev.rootView_setGate _ _ _).trans (hprof _)
    · exact (Dev.rootView_setGate _ _ _).trans (hprof _)

theorem Dev.rootView_setSec (x : Section) : (d.setSec x).rootView = d.rootView := Dev.rootView_of_same rfl rfl rfl

theorem Dev.rootView_radioApply (t : Nat) (body : List Byte) : (d.radioApply t body).rootView = d.rootView := by
  unfold Dev.radioApply
  dsimp only
  split
  · exact (Dev.rootView_loadProfile _ _ _).trans (d.rootView_setSec _)
  · exact d.rootView_setSec _

theorem Dev.rootView_sowSettle : d.sowSettle.rootView = d.rootView := by
  unfold Dev.sowSettle
  dsimp only
  split
  · split
    · rw [Dev.rootView_count _ (by decide), Dev.rootView_put _ _ _ (by decide), Dev.rootView_put _ _ _ (by decide), Dev.rootView_put _ _ _ (by decide),
        Dev.rootView_setReg _ _ (by decide)]
      exact Dev.rootView_of_same rfl rfl rfl
    · rfl
  · rfl

theorem Dev.rootView_sowRelease : d.sowRelease.rootView = d.rootView := by
  unfold Dev.sowRelease
  dsimp only
  refine (Dev.rootView_sowSettle _).trans ((foldl_frame (g := Dev.rootView) (fun (e : Dev) (x : Section) => ?_) _ _).trans (Dev.rootView_of_same rfl rfl rfl))
  split
  · exact e.rootView_radioApply _ _
  · exact e.rootView_setSec _

theorem RFC_TXSTAT_above (t : Nat) : 0x40020000 ≤ RFC_TXSTAT t := by unfold RFC_TXSTAT; omega

theorem SYN_STAT_above (t : Nat) : 0x40020000 ≤ SYN_STAT t := by unfold SYN_STAT; omega

theorem Dev.rootView_txFinish (t code : Nat) : (d.txFinish t code).rootView = d.rootView := by
  unfold Dev.txFinish
  dsimp only
  rw [Dev.rootView_sowRelease, Dev.rootView_antSync, Dev.rootView_coexSync, Dev.rootView_setResv, Dev.rootView_put _ _ _ (SYN_STAT_above t),
    Dev.rootView_put _ _ _ (RFC_TXSTAT_above t), Dev.rootView_put _ _ _ (RFC_TXSTAT_above t), Dev.rootView_setTx]

theorem Dev.rootView_coexMiss : d.coexMiss.rootView = d.rootView := by
  unfold Dev.coexMiss
  dsimp only
  split
  · rw [Dev.rootView_report, Dev.rootView_put _ _ _ (by decide), Dev.rootView_put _ _ _ (by decide)]
  · exact d.rootView_put _ _ (by decide)

theorem Dev.rootView_gateRefund (t : Nat) (x : TxRec) : (d.gateRefund t x).rootView = d.rootView := d.rootView_setGate _ _

theorem Dev.rootView_txDrop (t : Nat) (x : TxRec) (code : Nat) : (d.txDrop t x code).rootView = d.rootView := by
  unfold Dev.txDrop
  dsimp only
  refine (Dev.rootView_txFinish _ _ _).trans ((Dev.when_frame (g := Dev.rootView) ?_).trans (d.rootView_gateRefund t x))
  exact (Dev.rootView_coexMiss _).trans (Dev.rootView_count _ (by decide))

theorem Dev.rootView_txStop (t : Nat) (x : TxRec) : (d.txStop t x).rootView = d.rootView := by
  unfold Dev.txStop
  split
  · exact (Dev.rootView_txFinish _ _ _).trans (d.rootView_setGate _ _)
  · exact d.rootView_txDrop _ _ _

theorem Dev.rootView_txEnded (t : Nat) (x : TxRec) (code : Nat) : (d.txEnded t x code).rootView = d.rootView := by
  have hawait : ∀ (e : Dev) (l : List Await), ({ e with awaits := l } : Dev).rootView = e.rootView := fun e l => Dev.rootView_of_same rfl rfl rfl
  have hdesc : ∀ (e : Dev) (y : Desc), (e.setDesc y).rootView = e.rootView := fun e y => Dev.rootView_of_same rfl rfl rfl
  unfold Dev.txEnded
  split
  · rfl
  · rfl
  · split
    · rfl
    · split
      · split
        · exact (hawait _ _).trans (hdesc _ _)
        · exact d.rootView_descEnd _ _ _
      · exact d.rootView_descEnd _ _ _
  · dsimp only
    have hcount : ∀ b, (d.when b fun d => d.count (LNK_CNT 2)).rootView = d.rootView := fun b =>
      Dev.when_frame (g := Dev.rootView) (d.rootView_count (by decide))
    split
    · exact (Dev.rootView_unlockQueue _ _).trans (hcount _)
    · exact hcount _
  · split
    · split
      · split
        · exact (Dev.rootView_unlockQueue _ _).trans (hawait _ _)
        · exact (Dev.rootView_unlockQueue _ _).trans (d.rootView_unqueue _ _ _ _)
      · exact d.rootView_unlockQueue _
    · exact d.rootView_responseFails _

theorem Dev.rootView_endStopped (t : Nat) : (d.endStopped t).rootView = d.rootView := by
  unfold Dev.endStopped
  split
  · rfl
  · exact (Dev.rootView_txEnded _ _ _ _).trans (d.rootView_txStop _ _)

theorem Dev.rootView_calEnqueue (t i : Nat) : (d.calEnqueue t i).rootView = d.rootView := by
  unfold Dev.calEnqueue
  split
  · rfl
  · exact Dev.rootView_of_same rfl rfl rfl

theorem Dev.rootView_calAbandon (t : Nat) : (d.calAbandon t).rootView = d.rootView := by
  unfold Dev.calAbandon
  split
  · rfl
  · exact (Dev.rootView_put _ _ _ (SYN_STAT_above t)).trans ((Dev.rootView_calEnqueue _ _ _).trans (Dev.rootView_of_same rfl rfl rfl))

theorem Dev.rootView_txAllStop : d.txAllStop.rootView = d.rootView :=
  foldl_frame (g := Dev.rootView) (fun (e : Dev) t => (Dev.rootView_calAbandon _ t).trans (e.rootView_endStopped t)) _ _

theorem Dev.rootView_calRequeue (t : Nat) : (d.calRequeue t).rootView = d.rootView :=
  foldl_frame (g := Dev.rootView) (fun (e : Dev) i => Dev.when_frame (g := Dev.rootView) (e.rootView_calEnqueue t i)) _ _

/-! #### Chains, recordings and receive units -/

theorem Dev.rootView_setRx (c : Nat) (x : RxSt) : (d.setRx c x).rootView = d.rootView := Dev.rootView_of_same rfl rfl rfl

theorem Dev.rootView_calDrop (c : Nat) : (d.calDrop c).rootView = d.rootView := by
  have hstat : 0x40020000 ≤ CAL_CHSTAT c := by unfold CAL_CHSTAT; omega
  have hrun : ∀ (e : Dev) k, (e.calRun k).rootView = e.rootView := fun e k =>
    (Dev.rootView_setReg _ _ (by unfold CAL_LAST; omega)).trans (e.rootView_count (by unfold CAL_CNT; omega))
  unfold Dev.calDrop
  dsimp only
  rw [Dev.rootView_put _ _ _ hstat, Dev.rootView_put _ _ _ hstat]
  exact foldl_frame (g := Dev.rootView) (fun (e : Dev) i => Dev.when_frame (g := Dev.rootView) (hrun e _)) _ _

/-- A chain's own state goes with the chain (R80). -/
def Dev.rxCut (d : Dev) (c : Nat) : Dev :=
  let d := ((d.put (RFC_RXCTL c) RFC_RXCTL_ON 0).put (RFC_RXSTAT c) RFC_RXSTAT_READY 0).put (RFC_RXSTAT c) RFC_RXSTAT_BLANKED 0
  let d := (d.calDrop c).setRx c RxSt.init
  { d with detRun := d.detRun.filter (fun p => p.1 / 65536 != c) }

theorem Dev.rootView_rxCut (c : Nat) : (d.rxCut c).rootView = d.rootView := by
  have hctl : 0x40020000 ≤ RFC_RXCTL c := by unfold RFC_RXCTL; omega
  have hstat : 0x40020000 ≤ RFC_RXSTAT c := by unfold RFC_RXSTAT; omega
  have hrun : ∀ (e : Dev) l, ({ e with detRun := l } : Dev).rootView = e.rootView := fun e l => Dev.rootView_of_same rfl rfl rfl
  unfold Dev.rxCut
  dsimp only
  rw [hrun, Dev.rootView_setRx, Dev.rootView_calDrop, Dev.rootView_put _ _ _ hstat, Dev.rootView_put _ _ _ hstat, Dev.rootView_put _ _ _ hctl]

theorem Dev.rootView_rxDark (c : Nat) : (d.rxDark c).rootView = d.rootView := d.rootView_rxCut c

theorem Dev.rootView_setSlot (n : Nat) (x : Slot) : (d.setSlot n x).rootView = d.rootView := Dev.rootView_of_same rfl rfl rfl

theorem Dev.rootView_slotClose (n out : Nat) : (d.slotClose n out).rootView = d.rootView := by
  unfold Dev.slotClose
  dsimp only
  split
  · exact (Dev.rootView_count _ (by unfold UNW_DROP; omega)).trans (d.rootView_setSlot _ _)
  · exact (Dev.rootView_count _ (by unfold UNW_OUT; omega)).trans (d.rootView_setSlot _ _)

theorem Dev.rootView_slotsEndAll (f : Slot → Bool) (out : Nat) : (d.slotsEndAll f out).rootView = d.rootView := by
  refine foldl_frame (g := Dev.rootView) (fun (e : Dev) n => ?_) _ _
  split
  · exact e.rootView_slotClose _ _
  · rfl

theorem Dev.rootView_setRcv (u : Nat) (x : Rcv) : (d.setRcv u x).rootView = d.rootView := Dev.rootView_of_same rfl rfl rfl

theorem Dev.rootView_slotMove (n : Nat) : (d.slotMove n).rootView = d.rootView := by
  unfold Dev.slotMove
  dsimp only
  split
  · rfl
  · split
    · split
      · exact d.rootView_slotClose _ _
      · exact (Dev.rootView_of_same rfl rfl rfl).trans (d.rootView_setSlot n { d.slotOf n with state := 2, sub := d.slotSeq })
    · split
      · exact d.rootView_slotClose _ _
      · exact d.rootView_slotClose _ _

theorem Dev.rootView_slotClass (u cls : Nat) (r : Rcv) (bytes : List Byte) (n : Nat) : (d.slotClass u cls r bytes n).rootView = d.rootView := by
  have h : ∀ x, ((d.setSlot n x).slotMove n).rootView = d.rootView := fun x => (Dev.rootView_slotMove _ _).trans (d.rootView_setSlot _ _)
  unfold Dev.slotClass
  dsimp only
  by_cases hc : ((d.slotOf n).state = 1 ∧ (d.slotOf n).furA = u ∧ (d.slotOf n).clsA = 0) ∨ ((d.slotOf n).state = 1 ∧ (d.slotOf n).furB = some u ∧ (d.slotOf n).clsB = 0)
  · rw [if_pos hc]
    exact h _
  · rw [if_neg hc]

theorem Dev.rootView_slotsEnd (u cls : Nat) (ok : Bool) (r : Rcv) (bytes : List Byte) : (d.slotsEnd u cls ok r bytes).rootView = d.rootView := by
  refine foldl_frame (g := Dev.rootView) (fun (e : Dev) n => ?_) _ _
  dsimp only
  split
  · exact e.rootView_slotClose _ _
  · split
    · exact e.rootView_slotClass _ _ _ _ _
    · rfl

theorem Dev.rootView_decFree (k : Nat) : (d.decFree k).rootView = d.rootView := Dev.rootView_of_same rfl rfl rfl

theorem Dev.rootView_cancelJob (u k : Nat) : (d.cancelJob u k).rootView = d.rootView := by
  have hlast : ∀ (e : Dev) l, ({ e with decLast := l } : Dev).rootView = e.rootView := fun e l => Dev.rootView_of_same rfl rfl rfl
  have hbusy : ∀ (e : Dev) l, ({ e with decBusy := l } : Dev).rootView = e.rootView := fun e l => Dev.rootView_of_same rfl rfl rfl
  unfold Dev.cancelJob
  split
  · rfl
  · split
    · rfl
    · split
      · exact (hlast _ _).trans (d.rootView_decFree k)
      · exact hbusy _ _

theorem Dev.rootView_decSync : d.decSync.rootView = d.rootView := by
  unfold Dev.decSync
  exact (Dev.rootView_put _ _ _ (by decide)).trans (d.rootView_put _ _ (by decide))

theorem Dev.rootView_cancelBlocks (u : Nat) : (d.cancelBlocks u).rootView = d.rootView := by
  unfold Dev.cancelBlocks
  dsimp only
  refine (Dev.rootView_decSync _).trans ((Dev.rootView_count31 _ _ (by decide)).trans ?_)
  exact (foldl_frame (g := Dev.rootView) (fun (e : Dev) i => e.rootView_cancelJob u i) _ _).trans (Dev.rootView_of_same rfl rfl rfl)

theorem Dev.rootView_countDiscard (u reason : Nat) : (d.countDiscard u reason).rootView = d.rootView := by
  have hdet : 0x40020000 ≤ DET_DISC (u / 64) := by unfold DET_DISC; omega
  have hmcx : 0x40020000 ≤ MCX_DISC (u - 1024) := by unfold MCX_DISC; omega
  have hreason : 0x40020000 ≤ DET_DISCR (reason - 1) := by unfold DET_DISCR; omega
  unfold Dev.countDiscard
  dsimp only
  split
  · rw [Dev.rootView_count _ hreason, Dev.rootView_put _ _ _ hdet, Dev.rootView_count _ hdet]
  · rw [Dev.rootView_put _ _ _ hmcx, Dev.rootView_count _ hmcx]

theorem Dev.rootView_reclaim (u reason : Nat) : (d.reclaim u reason).rootView = d.rootView := by
  have hlate : ∀ (e : Dev) l, ({ e with lateU := l } : Dev).rootView = e.rootView := fun e l => Dev.rootView_of_same rfl rfl rfl
  unfold Dev.reclaim
  dsimp only
  rw [Dev.rootView_slotsEnd, hlate, Dev.rootView_setRcv, Dev.rootView_countDiscard, Dev.rootView_cancelBlocks]

theorem Dev.rootView_tallyFlush (u : Nat) : (d.tallyFlush u).rootView = d.rootView := by
  unfold Dev.tallyFlush
  dsimp only
  refine (foldl_frame (g := Dev.rootView) (fun (e : Dev) x => ?_) _ _).trans (d.rootView_setRcv _ _)
  unfold Dev.tallyOne
  dsimp only
  split
  · exact e.rootView_count (by decide)
  · split
    · exact e.rootView_count (by decide)
    · have hblk : 0x40020000 ≤ DEC_BLK x.1 := by unfold DEC_BLK; omega
      have hiter : ((e.count31 (DEC_BLK x.1) 1).count31 DEC_ITERS x.2.1).rootView = e.rootView :=
        (Dev.rootView_count31 _ _ (by decide)).trans (e.rootView_count31 _ hblk)
      split
      · exact hiter
      · exact (Dev.rootView_count _ (by unfold DEC_NOCONV; omega)).trans hiter

theorem Dev.rootView_setRing (head tail : Nat) : (d.setRing head tail).rootView = d.rootView := by
  unfold Dev.setRing
  dsimp only
  rw [Dev.rootView_put _ _ _ (by decide), Dev.rootView_setReg _ _ (by decide), Dev.rootView_setReg _ _ (by decide)]

theorem Dev.rootView_ring (l : List RingRec) : ({ d with ring := l } : Dev).rootView = d.rootView := Dev.rootView_of_same rfl rfl rfl

theorem Dev.rootView_placed (e : Dev) (head tail a : Nat) (rec : List Byte) : ((e.setRing head tail).setBytes a rec).rootView = e.rootView := by
  rw [Dev.rootView_setBytes, Dev.rootView_setRing]

/-- A record is refused, or stands in the ring where it was placed. The definition is unfolded as a function, and `P` is opaque, so that the kernel does not
evaluate where the ring stands. -/
theorem Dev.placeRecord_cases {P : Option Nat × Dev → Prop} (rec : List Byte) (hold : Bool) (hfull : P (none, d.count DEC_NOROOM))
    (hplaced : ∀ l head tail a, P (some a, (Dev.setRing { d with ring := l } head tail).setBytes a rec)) : P (d.placeRecord rec hold) := by
  obtain ⟨place, hplace⟩ : ∃ place, place = Dev.placeRecord := ⟨_, rfl⟩
  rw [← hplace]
  delta Dev.placeRecord at hplace
  rw [hplace]
  dsimp -zeta only
  extract_lets n
  generalize ringPlace d.ringHead d.ringTail n = p
  rcases p with _ | ⟨a, pad⟩
  · exact hfull
  · exact hplaced ..

theorem Dev.rootView_placeRecord (rec : List Byte) (hold : Bool) : (d.placeRecord rec hold).2.rootView = d.rootView := by
  refine d.placeRecord_cases (P := fun x => x.2.rootView = d.rootView) rec hold ?_ fun l head tail a => ?_
  · exact d.rootView_count (by decide)
  · exact (Dev.rootView_placed ..).trans (d.rootView_ring l)

theorem Dev.rootView_tailAdvance (n : Nat) : ∀ d : Dev, (d.tailAdvance n).rootView = d.rootView := by
  induction n with
  | zero => exact fun _ => rfl
  | succ n ih =>
    intro d
    unfold Dev.tailAdvance
    split
    · rfl
    · split
      · rw [ih, Dev.rootView_setRing, Dev.rootView_ring]
      · rfl

theorem Dev.rootView_postVerdict (f : LFrame) (v flags : Nat) : (d.postVerdict f v flags).rootView = d.rootView := by
  have hvq : ∀ l, Dev.rootView (Dev.vqSync { d with vq := l }) = d.rootView := fun l =>
    (Dev.rootView_put _ _ _ (by decide)).trans (Dev.rootView_of_same rfl rfl rfl)
  have hend : ∀ (e : Dev) a, (e.endHold a).rootView = e.rootView := fun e a => (Dev.rootView_tailAdvance _ _).trans (e.rootView_ring _)
  unfold Dev.postVerdict
  dsimp only
  split <;> split
  · exact d.rootView_count (by decide)
  · exact hvq _
  · exact (hend _ _).trans (d.rootView_count (by decide))
  · exact (hend _ _).trans (hvq _)

theorem Dev.rootView_parentHeard (i : Nat) : (d.parentHeard i).rootView = d.rootView := by
  unfold Dev.parentHeard
  split
  · split <;> rfl
  · rfl

/-- A frame that is not OK is told and goes no further (R182). -/
theorem Dev.rootView_commit (f : LFrame) : (d.commit f false).rootView = d.rootView := by
  have hlate : ∀ (e : Dev) l, ({ e with lateU := l } : Dev).rootView = e.rootView := fun e l => Dev.rootView_of_same rfl rfl rfl
  unfold Dev.commit
  dsimp only
  rw [if_pos (by decide), Dev.rootView_postVerdict]
  cases Dev.lookup _ _ with
  | none => exact hlate _ _
  | some i => exact (Dev.rootView_parentHeard _ _).trans (hlate _ _)

theorem Dev.rootView_finish (u : Nat) {status : Nat} (h : status ≠ stOK) : (d.finish u status).rootView = d.rootView := by
  have hst : ∀ o : Option Nat, decide ((if o.isNone then stNOROOM else status) = stOK) = false := fun o => by
    refine decide_eq_false ?_
    split
    · decide
    · exact h
  unfold Dev.finish
  dsimp only
  rw [hst, Dev.rootView_slotsEnd, Dev.rootView_commit, Dev.rootView_setRcv, Dev.rootView_placeRecord]
  split
  · rw [Dev.rootView_touchRange, Dev.rootView_tallyFlush]
  · exact d.rootView_tallyFlush u

theorem Dev.rootView_imposedEnd (u reason : Nat) {status : Nat} (h : status ≠ stOK) : (d.imposedEnd u reason status).rootView = d.rootView := by
  unfold Dev.imposedEnd
  dsimp only
  split
  · exact d.rootView_reclaim _ _
  · split
    · rw [Dev.rootView_finish _ _ h, Dev.rootView_cancelBlocks, Dev.rootView_tallyFlush]
    · rfl

theorem Dev.rootView_imposedAll (f : Nat → Rcv → Bool) (reason : Nat) {status : Nat} (h : status ≠ stOK) : (d.imposedAll f reason status).rootView = d.rootView :=
  foldl_frame (g := Dev.rootView) (fun (e : Dev) u => e.rootView_imposedEnd u reason h) _ _

theorem Dev.rootView_rxStop (c reason : Nat) {status : Nat} (h : status ≠ stOK) : (d.rxStop c reason status).rootView = d.rootView := by
  rw [← d.rootView_rxCut c, Dev.rxStop, Dev.rxCut, Dev.rootView_imposedAll _ _ _ h, Dev.rootView_slotsEndAll]

end

end Sys2Proof.Machine
end

section
/-! What cuts of the flash, the key store, the ledger and the engines leave of the clocks and the dies (R317). -/

namespace Sys2Proof.Machine

section
variable (d : Dev)

/-! #### A cut of the flash (R317) -/

theorem Dev.rootView_setByte (a : Nat) (b : Byte) : (d.setByte a b).rootView = d.rootView := rfl

theorem Dev.rootView_progWord (a : Nat) (b : List Byte) (ok : Bool) : (d.progWord a b ok).rootView = d.rootView := d.rootView_setBytes a b

theorem Dev.rootView_progVerify (a : Nat) (b : List Byte) (ok : Bool) : (d.progVerify a b ok).rootView = d.rootView := by
  unfold Dev.progVerify
  dsimp only
  split
  · exact d.rootView_progWord _ _ _
  · exact (Dev.rootView_count _ (by decide)).trans (d.rootView_progWord _ _ _)

theorem Dev.rootView_eraseSector (a : Nat) : (d.eraseSector a).rootView = d.rootView := rfl

theorem Dev.rootView_free : d.free.2.rootView = d.rootView := rfl

theorem Dev.rootView_frees (n : Nat) : ∀ d : Dev, (d.frees n).2.rootView = d.rootView := by
  induction n with
  | zero => exact fun _ => rfl
  | succ n ih => exact fun d => (ih _).trans d.rootView_free

theorem Dev.rootView_freeBytes (n : Nat) : (d.freeBytes n).2.rootView = d.rootView := Dev.rootView_frees n d

theorem Dev.rootView_setBank (b : Nat) (x : Bank) : (d.setBank b x).rootView = d.rootView := untouched_rootView.banks d b x

theorem Dev.rootView_progBuf (core n : Nat) : ∀ (d : Dev) (dst src good : Nat), (d.progBuf core dst src good n).2.rootView = d.rootView := by
  induction n with
  | zero => exact fun _ _ _ _ => rfl
  | succ n ih =>
    intro d dst src good
    have htouch := d.rootView_touchRange src 16
    unfold Dev.progBuf
    dsimp only
    generalize d.touchRange src 16 = e at *
    have hword := (e.rootView_progWord dst (e.seen src 16) (decide (0 < good))).trans htouch
    split
    · exact htouch
    · split
      · exact htouch
      · split
        · exact hword
        · exact (ih _ _ _ _).trans hword

theorem Dev.rootView_copySector (src dst : Nat) : (d.copySector src dst).rootView = d.rootView :=
  (foldl_frame (g := Dev.rootView) (f := fun (d : Dev) (p : Host.Cell) => d.setByte (dst + (p.1 - src)) p.2) (fun e _ => e.rootView_setByte _ _) _ _).trans
    (d.rootView_eraseSector dst)

theorem Dev.rootView_setWin (w : Nat) (x : Win) : (d.setWin w x).rootView = d.rootView := Dev.rootView_of_same rfl rfl rfl

theorem Dev.rootView_winAppend (w kind a b : Nat) : (d.winAppend w kind a b).rootView = d.rootView := by
  unfold Dev.winAppend
  exact (Dev.rootView_setWin _ _ _).trans (d.rootView_progWord _ _ _)

theorem Dev.rootView_winPut (w kind a b : Nat) : (d.winPut w kind a b).rootView = d.rootView := by
  unfold Dev.winPut
  dsimp only
  rw [Dev.rootView_winAppend]
  split
  · rfl
  · rw [foldl_frame (g := Dev.rootView) (f := fun (d : Dev) (e : Nat × Nat) => d.winAppend w 4 e.1 e.2) fun e p => e.rootView_winAppend _ _ _ _,
      foldl_frame (g := Dev.rootView) (f := fun (d : Dev) i => d.winAppend w 3 i 0) fun e i => e.rootView_winAppend _ _ _ _,
      foldl_frame (g := Dev.rootView) (f := fun (d : Dev) (e : Nat × Nat) => d.winAppend w 2 e.1 e.2) fun e p => e.rootView_winAppend _ _ _ _,
      Dev.rootView_winAppend, Dev.rootView_setWin, Dev.rootView_eraseSector]

theorem Dev.rootView_winShow (w : Nat) : (d.winShow w).rootView = d.rootView := by
  unfold Dev.winShow
  exact (Dev.rootView_setReg _ _ (by unfold FLC_WINSTAT; omega)).trans (d.rootView_setReg _ (by unfold FLC_WINPOS; omega))

theorem Dev.rootView_setFlagCell (a : Nat) (on : Bool) : (d.setFlagCell a on).rootView = d.rootView := Dev.rootView_of_same rfl rfl rfl

theorem Dev.rootView_moveCut (w : Nat) : (d.moveCut w).rootView = d.rootView := by
  have hcopy := fun src dst => (d.free.2.rootView_copySector src dst).trans d.rootView_free
  unfold Dev.moveCut
  dsimp only
  split
  · rw [Dev.rootView_setFlagCell, Dev.rootView_winShow, Dev.rootView_winPut, Dev.rootView_setWin, hcopy]
  · exact hcopy _ _

/-- What a cut leaves of a bank that was programming. -/
def Dev.bankCut (d : Dev) (b : Nat) : Dev :=
  let x := d.bankOfs b
  let d := if x.op = 1 ∨ x.op = 2 then
      let f := d.free
      let n := if x.op = 2 then f.1.toNat % max 1 (d.get (FLC_ARG b) FLC_ARG_ARG) else 0
      let d := (f.2.progBuf x.core x.addr ((d.reg (FLC_BUF b)).toNat / 16 * 16) n n).2
      let g := d.freeBytes 16
      let a := x.addr + 16 * n
      if g.2.blankWord a then g.2.progWord a g.1 false else g.2
    else d
  d.setBank b { x with op := 0, log := none, eng := 0 }

theorem Dev.rootView_bankCut (b : Nat) : (d.bankCut b).rootView = d.rootView := by
  unfold Dev.bankCut
  dsimp only
  rw [Dev.rootView_setBank]
  generalize (if (d.bankOfs b).op = 2 then d.free.1.toNat % max 1 (d.get (FLC_ARG b) FLC_ARG_ARG) else 0) = n
  generalize (d.bankOfs b).addr = a
  generalize (d.reg (FLC_BUF b)).toNat / 16 * 16 = src
  have hcut := (Dev.rootView_progBuf (d.bankOfs b).core n d.free.2 a src n).trans d.rootView_free
  generalize (d.free.2.progBuf (d.bankOfs b).core a src n n).2 = e at *
  have hfree := (e.rootView_freeBytes 16).trans hcut
  generalize e.freeBytes 16 = g at *
  split
  · split
    · exact (Dev.rootView_progWord _ _ _ _).trans hfree
    · exact hfree
  · rfl

theorem Dev.rootView_flashCut : d.flashCut.rootView = d.rootView := by
  unfold Dev.flashCut
  dsimp only
  refine (foldl_frame (g := Dev.rootView) (fun (e : Dev) w => ?_) _ _).trans (foldl_frame (g := Dev.rootView) (f := Dev.bankCut) (fun e b => e.rootView_bankCut b) _ _)
  split
  · exact e.rootView_moveCut w
  · rfl

theorem FLC_STAT_above (b : Nat) : 0x40020000 ≤ FLC_STAT b := by unfold FLC_STAT; omega

theorem Dev.rootView_flcEnd (b op res : Nat) : (d.flcEnd b op res).rootView = d.rootView := by
  have h : (((d.put (FLC_STAT b) FLC_STAT_RESULT res).put (FLC_STAT b) FLC_STAT_OP op).put (FLC_STAT b) FLC_STAT_DONE 1).rootView = d.rootView := by
    rw [Dev.rootView_put _ _ _ (FLC_STAT_above b), Dev.rootView_put _ _ _ (FLC_STAT_above b), Dev.rootView_put _ _ _ (FLC_STAT_above b)]
  unfold Dev.flcEnd
  dsimp only
  split
  · exact (Dev.rootView_count _ (by decide)).trans h
  · split
    · exact (Dev.rootView_count _ (by decide)).trans h
    · exact h

theorem Dev.rootView_flashDieCut : d.flashDieCut.rootView = d.rootView := by
  unfold Dev.flashDieCut
  dsimp only
  refine (foldl_frame (g := Dev.rootView) (fun (e : Dev) (p : Nat × Nat) => e.rootView_flcEnd _ _ _) _ _).trans
    ((foldl_frame (g := Dev.rootView) (fun (e : Dev) b => ?_) _ _).trans d.rootView_flashCut)
  rw [Dev.rootView_put _ _ _ (FLC_STAT_above b), Dev.rootView_put _ _ _ (FLC_STAT_above b), Dev.rootView_put _ _ _ (FLC_STAT_above b)]

/-! #### A cut of the key store and of the ledger -/

theorem Dev.rootView_blown (n : Nat) : ({ d with blown := n } : Dev).rootView = d.rootView := Dev.rootView_of_same rfl rfl rfl

theorem Dev.rootView_keyCut : d.keyCut.rootView = d.rootView := by
  have hword : ∀ (f : Dev) a, ((f.freeBytes 16).2.progWord a (f.freeBytes 16).1 false).rootView = f.rootView := fun f a =>
    (Dev.rootView_progWord _ _ _ _).trans (f.rootView_freeBytes 16)
  unfold Dev.keyCut
  cases d.keyPend with
  | none => rfl
  | some x =>
    dsimp only
    have hfree := d.rootView_free
    generalize d.free = f at *
    have hcut : ∀ e : Dev, e.rootView = d.rootView → (if x.op = 6 ∧ x.arg1 ≤ 3 ∧ f.1.getLsbD 0 = true then ({ e with blown := e.blown ||| 2 ^ x.arg1 } : Dev) else e).rootView =
        d.rootView := fun e he => by
      split
      · exact (e.rootView_blown _).trans he
      · exact he
    refine hcut _ ?_
    split
    · split
      · split
        · exact (hword _ _).trans hfree
        · exact hfree
      · exact hfree
    · exact hfree

theorem Dev.rootView_bankShow (b : Nat) : (d.bankShow b).rootView = d.rootView := d.rootView_putB _ _ (FLC_STAT_above b)

theorem Dev.rootView_engEnd (b : Nat) : (d.engEnd b).rootView = d.rootView := (Dev.rootView_bankShow _ b).trans (d.rootView_setBank _ _)

theorem Dev.rootView_keyPend (x : Option KeyRun) : ({ d with keyPend := x } : Dev).rootView = d.rootView := Dev.rootView_of_same rfl rfl rfl

theorem Dev.rootView_keyAnswered (x : KeyRun) (r : Nat) : (d.keyAnswered x r).rootView = d.rootView := by
  unfold Dev.keyAnswered
  refine (Dev.when_frame (g := Dev.rootView) (Dev.rootView_engEnd _ 2)).trans ((Dev.rootView_keyPend _ _).trans ?_)
  exact (Dev.rootView_put _ _ _ (by decide)).trans (d.rootView_put _ _ (by decide))

theorem Dev.rootView_setKslot (i : Nat) (k : KSlot) : (d.setKslot i k).rootView = d.rootView := Dev.rootView_of_same rfl rfl rfl

theorem Dev.rootView_keyFailed (x : KeyRun) (note : Bool) (r : Nat) : (d.keyFinish x note r none).rootView = d.rootView := by
  have hempty : ((d.keyAnswered x r).keyEmptied x).rootView = d.rootView := by
    rw [← d.rootView_keyAnswered x r]
    unfold Dev.keyEmptied
    split
    · exact Dev.rootView_setKslot _ _ _
    · rfl
  rw [Dev.keyFinish_none]
  split
  · rw [Dev.keyFailed, Dev.rootView_report, Dev.rootView_count _ (by decide), hempty]
  · exact hempty

theorem Dev.rootView_keyDieDown : d.keyDieDown.rootView = d.rootView := by
  unfold Dev.keyDieDown
  split
  · rfl
  · split
    · rw [Dev.rootView_keyFailed, Dev.rootView_put _ _ _ (by decide), Dev.rootView_count _ (by decide), Dev.rootView_keyCut]
    · rfl

theorem Dev.rootView_bankServed (b : Nat) : (d.bankServed b).rootView = d.rootView := by
  unfold Dev.bankServed
  split
  · exact d.rootView_setBank _ _
  · rfl

theorem Dev.rootView_winRemap (w slot i : Nat) : (d.winRemap w slot i).rootView = d.rootView := by
  unfold Dev.winRemap
  dsimp only
  rw [Dev.rootView_count _ (by decide), Dev.rootView_winPut, Dev.rootView_setWin]

theorem Dev.rootView_slotErase (w slot : Nat) (ok : Bool) : (d.slotErase w slot ok).2.rootView = d.rootView := by
  have hbad := fun a => (Dev.rootView_count (d.eraseSector a) (a := FLC_CNT 7) (by decide)).trans (d.rootView_eraseSector a)
  unfold Dev.slotErase
  dsimp only
  split
  · exact d.rootView_eraseSector _
  · split
    · exact hbad _
    · dsimp only
      rw [Dev.rootView_winRemap, Dev.rootView_count _ (by decide), Dev.rootView_winPut, Dev.rootView_setWin, hbad]

theorem Dev.rootView_moveStart (w : Nat) : (d.moveStart w).rootView = d.rootView := by
  unfold Dev.moveStart
  dsimp only
  split
  · exact d.rootView_setWin _ _
  · rw [Dev.rootView_put _ _ _ (FLC_STAT_above _), Dev.rootView_put _ _ _ (FLC_STAT_above _), Dev.rootView_setWin]

theorem Dev.rootView_winErase (w l : Nat) (ok : Bool) : (d.winErase w l ok).2.rootView = d.rootView := by
  have h := d.rootView_slotErase w ((d.winOf w).slotOf w l) ok
  unfold Dev.winErase Dev.winCount
  dsimp only
  generalize d.slotErase w ((d.winOf w).slotOf w l) ok = r at *
  split
  · rw [Dev.rootView_winShow, Dev.rootView_setWin, h]
  · rw [Dev.rootView_winShow, Dev.rootView_moveStart, Dev.rootView_setWin, h]

theorem Dev.rootView_progRec (l : List (List Byte)) : ∀ (d : Dev) (a good : Nat), (d.progRec a good l).2.rootView = d.rootView := by
  induction l with
  | nil => exact fun _ _ _ => rfl
  | cons w r ih =>
    intro d a good
    have hword := d.rootView_progVerify (d.canon a) w (decide (0 < good))
    unfold Dev.progRec
    dsimp only
    split
    · exact hword
    · exact (ih _ _ _).trans hword

theorem Dev.rootView_lgr (x : LgrSt) : ({ d with lgr := x } : Dev).rootView = d.rootView := Dev.rootView_of_same rfl rfl rfl

theorem Dev.rootView_headPast (o : Nat) (r : List Byte) : (d.headPast o r).rootView = d.rootView := by
  unfold Dev.headPast
  dsimp only
  rw [Dev.rootView_setReg _ _ (by decide), Dev.rootView_setReg _ _ (by decide), Dev.rootView_lgr]

theorem Dev.rootView_progRun (erOk : Bool) (l : List (Nat × List Byte)) : ∀ (d : Dev) (good : Nat), (d.progRun erOk good l).2.rootView = d.rootView := by
  induction l with
  | nil => exact fun _ _ => rfl
  | cons p l ih =>
    obtain ⟨o, r⟩ := p
    intro d good
    have hserved := d.rootView_bankServed 3
    unfold Dev.progRun
    dsimp only
    generalize d.bankServed 3 = s at *
    have herase := (s.rootView_winErase 1 (o / 4096 % 2040) erOk).trans hserved
    generalize s.winErase 1 (o / 4096 % 2040) erOk = q at *
    have hopen : ((if o % 4096 = 0 then (q.1, { q.2 with lgr := { q.2.lgr with opened := o / 4096 } }) else (true, s)) : Bool × Dev).2.rootView = d.rootView := by
      split
      · exact (q.2.rootView_lgr _).trans herase
      · exact hserved
    generalize ((if o % 4096 = 0 then (q.1, { q.2 with lgr := { q.2.lgr with opened := o / 4096 } }) else (true, s)) : Bool × Dev) = e at *
    have hrec := (Dev.rootView_progRec (pieces 16 r (r.length / 16)) e.2 (ringAt o) good).trans hopen
    generalize e.2.progRec (ringAt o) good (pieces 16 r (r.length / 16)) = t at *
    split
    · exact hopen
    · split
      · exact hrec
      · refine (ih _ _).trans ((Dev.rootView_headPast _ _ _).trans ?_)
        split
        · exact (Dev.rootView_count _ (by decide)).trans hrec
        · exact hrec

theorem Dev.rootView_lgrCut : d.lgrCut.rootView = d.rootView := by
  unfold Dev.lgrCut
  cases d.lgr.run with
  | none => rfl
  | some x =>
    dsimp only
    split
    · exact d.rootView_lgr _
    · exact (Dev.rootView_lgr _ _).trans ((Dev.rootView_progRun _ _ _ _).trans d.rootView_free)

theorem Dev.rootView_pulse (src : Nat) : (d.pulse src).rootView = d.rootView := Dev.rootView_of_same rfl rfl rfl

theorem Dev.rootView_lgrSync : d.lgrSync.rootView = d.rootView := by
  unfold Dev.lgrSync
  dsimp only
  refine (Dev.when_frame (g := Dev.rootView) (Dev.rootView_pulse _ _)).trans ?_
  exact (Dev.rootView_put _ _ _ (by decide)).trans (d.rootView_put _ _ (by decide))

theorem Dev.rootView_lgrFails (x : LgrRun) : (d.lgrFails x).rootView = d.rootView := by
  unfold Dev.lgrFails Dev.lgrEnd
  dsimp only
  rw [Dev.rootView_lgrSync, Dev.rootView_pulse]
  have hcount : ∀ b : Bool, ((d.count (LGR_CNT 8)).when b fun d => d.count (LGR_CNT 1)).rootView = d.rootView := fun b =>
    (Dev.when_frame (g := Dev.rootView) (Dev.rootView_count _ (by decide))).trans (d.rootView_count (by decide))
  split
  · exact (Dev.rootView_setBytes _ _ _).trans (hcount _)
  · exact hcount _

theorem Dev.rootView_flashDieDown : d.flashDieDown.rootView = d.rootView := by
  unfold Dev.flashDieDown
  dsimp only
  have h := (Dev.rootView_keyDieDown d.flashDieCut).trans d.rootView_flashDieCut
  generalize d.flashDieCut.keyDieDown = e at *
  split
  · exact h
  · rw [Dev.rootView_lgrFails, Dev.rootView_lgrCut, h]

/-! #### A cut of the engines (R317) -/

theorem Dev.rootView_wordsCut (a : Nat) (r : List Byte) : (d.wordsCut a r).rootView = d.rootView := by
  unfold Dev.wordsCut
  dsimp only
  refine (Dev.rootView_progWord _ _ _ _).trans ((Dev.rootView_freeBytes _ 16).trans ((foldl_frame (g := Dev.rootView) (fun (e : Dev) k => ?_) _ _).trans d.rootView_free))
  exact e.rootView_progWord _ _ _

theorem Dev.rootView_calCut : d.calCut.rootView = d.rootView := by
  have hcal : ∀ (e : Dev) x, ({ e with cal := x } : Dev).rootView = e.rootView := fun e x => Dev.rootView_of_same rfl rfl rfl
  unfold Dev.calCut
  cases d.cal.store with
  | none => rfl
  | some k =>
    dsimp only
    rw [Dev.rootView_engEnd, Dev.rootView_put _ _ _ (by decide), hcal]
    split
    · rw [Dev.rootView_wordsCut, Dev.rootView_setFlagCell, d.rootView_free]
    · exact d.rootView_free

theorem Dev.rootView_noteCut : d.noteCut.rootView = d.rootView := by
  have hnfc : ∀ (e : Dev) x, ({ e with nfc := x } : Dev).rootView = e.rootView := fun e x => Dev.rootView_of_same rfl rfl rfl
  unfold Dev.noteCut
  cases d.nfc.note with
  | none => rfl
  | some x => exact (Dev.rootView_engEnd _ 2).trans ((hnfc _ _).trans (d.rootView_wordsCut _ _))

theorem Dev.rootView_xferCut : d.xferCut.rootView = d.rootView := by
  have hsvc : ∀ (e : Dev) x, ({ e with svc := x } : Dev).rootView = e.rootView := fun e x => Dev.rootView_of_same rfl rfl rfl
  unfold Dev.xferCut
  cases d.svc.xfer with
  | none => rfl
  | some x =>
    dsimp only
    split
    · rfl
    · rw [Dev.rootView_engEnd, hsvc]
      split
      · rfl
      · exact d.rootView_wordsCut _ _

theorem Dev.rootView_enginesCut : d.enginesCut.rootView = d.rootView := (Dev.rootView_xferCut _).trans ((Dev.rootView_noteCut _).trans d.rootView_calCut)

theorem Dev.rootView_dieCut : d.dieCut.rootView = d.rootView := by
  have hnfc : ∀ (e : Dev) x, ({ e with nfc := x } : Dev).rootView = e.rootView := fun e x => Dev.rootView_of_same rfl rfl rfl
  unfold Dev.dieCut Dev.cutAll
  dsimp only
  rw [Dev.rootView_enginesCut, Dev.rootView_keyCut, Dev.rootView_lgrCut, Dev.rootView_flashCut]
  split
  · exact hnfc _ _
  · rfl

end

end Sys2Proof.Machine
end

section
/-! What channels leave of the clocks and the dies, and the links between the dies (R8, R9). -/

namespace Sys2Proof.Machine

section
variable (d : Dev)

/-! #### Channels and the timers that they reach -/

theorem Dev.rootView_setTmr (t : Nat) (x : TmrSt) : (d.setTmr t x).rootView = d.rootView := Dev.rootView_of_same rfl rfl rfl

theorem TMR_CTL_above (t : Nat) : 0x40020000 ≤ TMR_CTL t := by unfold TMR_CTL; omega

theorem TMR_STAT_above (t : Nat) : 0x40020000 ≤ TMR_STAT t := by unfold TMR_STAT; omega

theorem TMR_CAP_HI_above (t : Nat) : 0x40020000 ≤ TMR_CAP_HI t := by unfold TMR_CAP_HI; omega

theorem Dev.rootView_tmrStart (t : Nat) (ev : Bool) : (d.tmrStart t ev).rootView = d.rootView := by
  unfold Dev.tmrStart Dev.tmrArm
  dsimp only
  split
  · rfl
  · rw [Dev.rootView_setTmr, Dev.rootView_setTmr, Dev.rootView_put _ _ _ (TMR_CTL_above t)]

theorem Dev.rootView_tmrStop (t : Nat) (ev : Bool) : (d.tmrStop t ev).rootView = d.rootView := by
  unfold Dev.tmrStop
  exact (Dev.rootView_put _ _ _ (TMR_CTL_above t)).trans (d.rootView_setTmr _ _)

theorem Dev.rootView_padDrive (f a : Nat) : (d.padDrive f a).rootView = d.rootView := Dev.rootView_of_same rfl rfl rfl

theorem Dev.rootView_tmrNote (t : Nat) : (d.tmrNote t).rootView = d.rootView := by
  unfold Dev.tmrNote
  dsimp only
  split
  · rfl
  · exact d.rootView_setTmr _ _

theorem Dev.rootView_setTmrCount (t v : Nat) : (d.setTmrCount t v).rootView = d.rootView := by
  unfold Dev.setTmrCount Dev.put48
  exact (Dev.rootView_put _ _ _ (by unfold TMR_CNT_HI; omega)).trans (d.rootView_setReg _ (by unfold TMR_CNT_LO; omega))

theorem Dev.rootView_tmrClear (t : Nat) : (d.tmrClear t).rootView = d.rootView := by
  unfold Dev.tmrClear Dev.tmrArm
  dsimp only
  rw [Dev.rootView_put _ _ _ (TMR_STAT_above t), Dev.rootView_setTmr, Dev.rootView_setTmr, Dev.rootView_putB _ _ _ (TMR_STAT_above t),
    Dev.rootView_setTmrCount, Dev.rootView_tmrNote, Dev.rootView_padDrive]

theorem HDL_CNT_above (i : Nat) : 0x40020000 ≤ HDL_CNT i := by unfold HDL_CNT; omega

theorem Dev.rootView_hdlEvent (code : Nat) : (d.hdlEvent code).rootView = d.rootView := by
  unfold Dev.hdlEvent
  dsimp only
  split
  · rfl
  · split
    · exact (Dev.rootView_count _ (HDL_CNT_above 0)).trans (Dev.rootView_of_same rfl rfl rfl)
    · exact Dev.rootView_of_same rfl rfl rfl

theorem Dev.rootView_tmrEvent (t k : Nat) : (d.tmrEvent t k).rootView = d.rootView := by
  unfold Dev.tmrEvent
  dsimp only
  rw [Dev.rootView_putB _ _ _ (TMR_STAT_above t), Dev.rootView_put _ _ _ (TMR_STAT_above t), Dev.rootView_hdlEvent, Dev.rootView_padDrive]

theorem Dev.rootView_tmrCapture (t : Nat) : (d.tmrCapture t).rootView = d.rootView := by
  have hseq : ∀ e : Dev, ∀ v w u : Nat, (((e.setReg (TMR_CAP_LO t) (BitVec.ofNat 32 v)).put (TMR_CAP_HI t) TMR_CAP_HI_HI w).put (TMR_CAP_HI t) TMR_CAP_HI_CAPSEQ u).rootView =
      e.rootView := fun e v w u => by
    rw [Dev.rootView_put _ _ _ (TMR_CAP_HI_above t), Dev.rootView_put _ _ _ (TMR_CAP_HI_above t), Dev.rootView_setReg _ _ (by unfold TMR_CAP_LO; omega)]
  have hovr : ∀ (e : Dev) b, (e.when b fun d => (d.put (TMR_STAT t) TMR_STAT_CAPOVR 1).count (TMR_CNT 0)).rootView = e.rootView := fun e b =>
    Dev.when_frame (g := Dev.rootView) ((Dev.rootView_count _ (by decide)).trans (e.rootView_put _ _ (TMR_STAT_above t)))
  unfold Dev.tmrCapture
  dsimp only
  split
  · rfl
  · split
    · rw [Dev.rootView_put _ _ _ (TMR_STAT_above t), hovr, hseq, Dev.rootView_setTmr]
    · rw [Dev.rootView_tmrEvent, hovr, hseq, Dev.rootView_setTmr]

theorem Dev.rootView_tmrConsume (t k : Nat) : (d.tmrConsume t k).rootView = d.rootView := by
  unfold Dev.tmrConsume
  split
  · exact d.rootView_tmrStart t true
  · exact d.rootView_tmrStop t true
  · exact d.rootView_tmrClear t
  · exact d.rootView_tmrCapture t

theorem Dev.rootView_consume (a : Nat) : (d.consume a).rootView = d.rootView := by
  unfold Dev.consume
  simp only [foldl_frame (g := Dev.rootView) fun (d : Dev) (p : Nat × Nat) => Dev.rootView_tmrConsume d _ _]

theorem Dev.rootView_groupAsk (on off : Nat) : (d.groupAsk on off).rootView = d.rootView := Dev.rootView_of_same rfl rfl rfl

theorem Dev.rootView_chEvent (a : Nat) : (d.chEvent a).rootView = d.rootView := by
  unfold Dev.chEvent
  exact (Dev.rootView_groupAsk _ _ _).trans ((Dev.rootView_consume _ a).trans (d.rootView_put _ _ (by unfold HDL_SEEN; omega)))

theorem Dev.rootView_chRise (a : Nat) (own late : Bool) : (d.chRise a own late).rootView = d.rootView := by
  unfold Dev.chRise
  split
  · split
    · exact d.rootView_count (HDL_CNT_above 1)
    · rfl
  · split
    · exact d.rootView_count (HDL_CNT_above 0)
    · exact d.rootView_chEvent a

theorem Dev.rootView_latchGates (e : Dev) : (d.latchGates e).rootView = e.rootView := by
  unfold Dev.latchGates Dev.gatesNote
  have hnote : ∀ (x : Dev) l, ({ x with gateOn := l } : Dev).rootView = x.rootView := fun x l => Dev.rootView_of_same rfl rfl rfl
  rw [hnote]
  refine foldl_frame (g := Dev.rootView) (fun (x : Dev) i => ?_) _ _
  split
  · split
    · exact x.rootView_count (HDL_CNT_above 0)
    · exact x.rootView_put _ _ (by decide)
  · rfl

theorem Dev.rootView_chSet (l : List (Nat × Bool)) : (d.chSet l).rootView = d.rootView := by
  unfold Dev.chSet
  dsimp only
  rw [Dev.rootView_latchGates, foldl_frame (g := Dev.rootView) fun (x : Dev) (p : Nat × Bool) => x.rootView_chRise p.1 true _]
  exact Dev.rootView_of_same rfl rfl rfl

theorem Dev.rootView_rfChannels : d.rfChannels.rootView = d.rootView := d.rootView_chSet _

/-! ### The links between the dies (R8, R9) -/

theorem Dev.rootView_rfLost : d.rfLost.rootView = d.rootView := by
  unfold Dev.rfLost
  dsimp only
  refine (foldl_frame (g := Dev.rootView) (fun (e : Dev) c => ?_) _ _).trans (Dev.rootView_txAllStop _)
  split
  · exact e.rootView_rxStop c _ (by decide)
  · rfl

/-- An isolated die is known as such, with the failures that isolated it. -/
theorem Dev.isolate_isolated {die : Nat} (h : die = 1 ∨ die = 2) : (d.isolate die).isoOf die = true ∧ (d.isolate die).failsOf die = d.failsOf die := by
  unfold Dev.isolate
  dsimp only
  rcases h with rfl | rfl
  · have hlost := (Dev.rootView_rfLost (d.report 35 1 1 8 [])).trans (d.rootView_report 35 1 1 8 [])
    rw [if_pos rfl]
    generalize (d.report 35 1 1 8 []).rfLost = e at *
    have hch := Dev.rootView_rfChannels { e with pwr := { e.pwr with rfIso := true } }
    have hfails := Dev.rfFail_of_rootView hlost
    exact ⟨Dev.rfIso_of_rootView hch, (Dev.rfFail_of_rootView hch).trans hfails⟩
  · have hdown := (Dev.rootView_enginesCut _).trans ((Dev.rootView_flashDieDown (d.report 35 2 1 8 [])).trans (d.rootView_report 35 2 1 8 []))
    rw [if_neg (by decide)]
    generalize (d.report 35 2 1 8 []).flashDieDown.enginesCut = e at *
    have hfails := Dev.flFail_of_rootView hdown
    exact ⟨rfl, hfails⟩

theorem Dev.failsOf_setFails {die : Nat} (h : die = 1 ∨ die = 2) (n : Nat) : (d.setFails die n).failsOf die = n := by
  rcases h with rfl | rfl <;> rfl

section
variable {d} {q : List Instr} {die : Fin 2}

theorem die_succ (die : Fin 2) : die.val + 1 = 1 ∨ die.val + 1 = 2 := by omega

/-- The facts of an isolation carry over to the state that a step leaves. -/
theorem Dev.isolated_settled {e : Dev} {k n : Nat} (h : e.isoOf k = true ∧ e.failsOf k = n) : (d.wakeBy e).settle.isoOf k = true ∧ (d.wakeBy e).settle.failsOf k = n := h

theorem after_linkLost (h : d.isoOf (die + 1) = false) : After (.linkLost die) ⟨d, q⟩ fun e => e.isoOf (die + 1) = true ∧ e.failsOf (die + 1) = 8 := by
  refine after_of (gives_of_run rfl (exec_linkLost ..) (if_neg (by simp [h]))) (Dev.isolated_settled ?_)
  obtain ⟨hiso, hfails⟩ := (d.setFails (die + 1) 8).isolate_isolated (die_succ die)
  exact ⟨hiso, hfails.trans (d.failsOf_setFails (die_succ die) 8)⟩

theorem after_interDieTransfer (h : d.isoOf (die + 1) = false) (hn : 7 ≤ d.failsOf (die + 1)) : After (.interDieTransfer die false) ⟨d, q⟩ fun e =>
    e.isoOf (die + 1) = true := by
  have heighth : ¬ d.failsOf (die + 1) + 1 < 8 := by omega
  refine after_of (gives_of_run rfl (exec_interDieTransfer ..) ((if_neg (by simp [h])).trans ((if_neg Bool.false_ne_true).trans (if_neg heighth)))) ?_
  have hiso := (Dev.isolate_isolated (d.setFails (die + 1) 8) (die_succ die)).1
  generalize (d.setFails (die + 1) 8).isolate (die + 1) = e at *
  exact hiso

end

end

end Sys2Proof.Machine
end

section
/-! Gating, the failure of the reference, the restore and the crystal, the release of the reset, and the clauses of start-up (R8, R9, R25, R49, R52 to R57): clocksAndStartUp. -/

namespace Sys2Proof.Machine

/-! ### Gating (R52) -/

section
variable (d : Dev)

theorem Dev.domainSame_refl (i : Nat) : d.domainSame d i = true := by
  have hall : ∀ (l : List Nat), l.all (fun _ => true) = true := fun l => List.all_eq_true.mpr fun _ _ => rfl
  unfold Dev.domainSame
  simp only [beq_self_eq_true, Bool.and_self, hall, ite_self]

theorem Dev.domainSame_pwr (x : PowerSt) (i : Nat) : d.domainSame { d with pwr := x } i = true := (d.domainSame_refl i : _)

theorem idleDomain_ge {i : Nat} (h : idleDomain i = true) : 8 ≤ i := by
  rw [idleDomain, decide_eq_true_iff] at h
  omega

theorem Dev.domainOn_gated {i : Nat} (hi : 8 ≤ i) (hg : sget false d.pwr.gated i = true) : d.domainOn i = false := by
  unfold Dev.domainOn
  dsimp only
  rw [if_neg (by omega), hg, Bool.not_true, Bool.and_false]

/-- What a step leaves of the gated domains where it delivered nothing to them. -/
theorem Dev.gated_settled (x : PowerSt) (i : Nat) : sget false (d.wakeBy { d with pwr := x }).settle.pwr.gated i = sget false x.gated i :=
  (sget_filter false x.gated (fun k => d.domainSame { d with pwr := x } k) i).trans (by rw [Dev.domainSame_pwr, if_pos rfl])

section
variable {d} {q : List Instr} {i : Fin 112}

theorem after_domainGate (hidle : idleDomain i = true) (hen : testBit (d.reg (CLK_GATEEN (i / 32))) (i % 32) = true) (hon : d.fieldOn (domainField i) = true)
    (hbusy : d.domainBusy i = false) : After (.domainGate i) ⟨d, q⟩ fun e => sget false e.pwr.gated i = true ∧ e.domainOn i = false ∧ e.regs = d.regs := by
  refine after_of (gives_of_run rfl (exec_domainGate ..) (if_pos (by simp [hidle, hen, hon, hbusy]))) ?_
  have hset : sget false (sset false d.pwr.gated i true) i = true := by rw [sget_sset, if_pos rfl]
  have hg := (d.gated_settled { d.pwr with gated := sset false d.pwr.gated i true } i).trans hset
  have hregs : (d.wakeBy { d with pwr := { d.pwr with gated := sset false d.pwr.gated i true } }).settle.regs = d.regs := rfl
  generalize (d.wakeBy { d with pwr := { d.pwr with gated := sset false d.pwr.gated i true } }).settle = e at *
  exact ⟨hg, e.domainOn_gated (idleDomain_ge hidle) hg, hregs⟩

theorem after_domainWake : After (.domainWake i) ⟨d, q⟩ fun e => sget false e.pwr.gated i = false ∧ e.regs = d.regs ∧ e.cores = d.cores := by
  refine after_of (gives_of_run rfl (exec_domainWake ..) rfl) ⟨?_, rfl, rfl⟩
  have hset : sget false (sset false d.pwr.gated i false) i = false := by rw [sget_sset, if_pos rfl]
  exact (d.gated_settled { d.pwr with gated := sset false d.pwr.gated i false } i).trans hset

theorem gives_domainGate_not (h : idleDomain i = false ∨ d.domainBusy i = true) : Gives (.domainGate i) ⟨d, q⟩ d := by
  refine gives_of_run rfl (exec_domainGate ..) (if_neg ?_)
  rcases h with h | h <;> simp [h]

end

/-! ### The reference (R54 to R56) -/

theorem Dev.refFail_idle (h : d.clk.episode = true ∨ d.clk.rootUp = false) : d.refFail = d := if_pos (h.imp_right fun h => by simp [h])

/-- The radio rests and transmissions end as the reference fails (R54). -/
def Dev.refStops (d : Dev) : Dev :=
  (span 0 4).foldl (fun d c => d.rxDark c) ((d.put CLK_STAT CLK_STAT_REFFAIL 1).count CLK_FAILCNT).txAllStop

/-- The root clock has stopped for a failed reference. -/
def Dev.refStopped (d : Dev) : Dev :=
  let c : ClockSt := { d.clk with episode := true, restoring := false, stopped := true }
  Dev.put { d with clk := c, pwr := { d.pwr with femDriven := false } } CLK_STAT CLK_STAT_LOCK 0

theorem Dev.refStopped_shows : d.refStopped.clk.episode = true ∧ d.refStopped.clk.stopped = true ∧ d.refStopped.flag CLK_STAT CLK_STAT_LOCK = false :=
  ⟨rfl, rfl, Dev.flag_put_zero _ _ (by decide) (by decide)⟩

theorem Dev.refStops_FAILCFG : d.refStops.get CLK_FAILCFG CLK_FAILCFG_ACTION = d.get CLK_FAILCFG CLK_FAILCFG_ACTION := by
  have hview : d.refStops.rootView = ((d.put CLK_STAT CLK_STAT_REFFAIL 1).count CLK_FAILCNT).rootView :=
    (foldl_frame (g := Dev.rootView) (fun (e : Dev) c => e.rootView_rxDark c) _ _).trans (Dev.rootView_txAllStop _)
  rw [Dev.get, Dev.reg_of_rootView hview (by decide), Dev.reg_count_other _ _ _ (by decide), ← Dev.get, Dev.get_put_other _ _ _ _ _ _ (by decide)]

theorem Dev.refFail_stops (he : d.clk.episode = false) (hr : d.clk.rootUp = true) (ha : d.get CLK_FAILCFG CLK_FAILCFG_ACTION = 1) :
    d.refFail = d.refStops.refStopped := by
  have hact := d.refStops_FAILCFG.trans ha
  unfold Dev.refFail
  rw [if_neg (by simp [he, hr])]
  refine if_neg fun h => ?_
  exact absurd (hact.symm.trans h) (by decide)

section
variable {d} {q : List Instr}

theorem after_referenceFailure (hon : d.pwr.off = false) (he : d.clk.episode = false) (hr : d.clk.rootUp = true) (ha : d.get CLK_FAILCFG CLK_FAILCFG_ACTION = 1) :
    After .referenceFailure ⟨d, q⟩ fun e => e.clk.episode = true ∧ e.clk.stopped = true ∧ e.flag CLK_STAT CLK_STAT_LOCK = false := by
  refine after_of (gives_of_awake (exec_referenceFailure ..) hon (d.refFail_stops he hr ha)) ?_
  have h := d.refStops.refStopped_shows
  generalize d.refStops.refStopped = e at *
  exact h

/-- The clocks as the fallback finds them. -/
def Dev.fallbackBegun (d : Dev) : Dev :=
  (Dev.put { d with clk := { d.clk with stopped := false } } CLK_STAT CLK_STAT_FALLBACK 1).put CLK_STAT CLK_STAT_LOCK 1

/-- The device as the fallback leaves it: what ran is lost, and the front end is driven where it may be. -/
def Dev.fellOver (d : Dev) : Dev :=
  let d := d.report 33 0 1 (BitVec.ofNat 32 (d.get CLK_STAT CLK_STAT_REFCNT)) []
  let d := (d.slotsEndAll (fun _ => true) uoENDED).imposedAll (fun _ _ => true) dcCLOCK stCLOCKFAIL
  { d with pwr := { d.pwr with femDriven := decide (d.pwr.pins = .sown) && !d.pwr.rfIso && !d.pwr.rfReset && !d.pwr.rfStale } }

theorem Dev.rootView_fellOver : d.fellOver.rootView = d.rootView := by
  unfold Dev.fellOver
  have hpwr : ∀ (e : Dev) b, ({ e with pwr := { e.pwr with femDriven := b } } : Dev).rootView = e.rootView := fun _ _ => rfl
  dsimp only
  rw [hpwr, Dev.rootView_imposedAll _ _ _ (by decide), Dev.rootView_slotsEndAll, Dev.rootView_report]

theorem Dev.fallbackBegun_shows : d.fallbackBegun.clk.stopped = false ∧ d.fallbackBegun.flag CLK_STAT CLK_STAT_FALLBACK = true ∧
    d.fallbackBegun.flag CLK_STAT CLK_STAT_LOCK = true := by
  refine ⟨rfl, ?_, Dev.flag_put_one _ _ (by decide) (by decide)⟩
  rw [Dev.fallbackBegun, Dev.flag_put_field _ _ _ (by decide) (by decide) (by decide), Dev.flag_put_one _ _ (by decide) (by decide)]

theorem after_fallbackRelock (hon : d.pwr.off = false) (hs : d.clk.stopped = true) (he : d.clk.episode = true) (hr : d.clk.rootUp = true) (hn : d.clk.restoring = false) :
    After .fallbackRelock ⟨d, q⟩ fun e => e.clk.stopped = false ∧ e.flag CLK_STAT CLK_STAT_FALLBACK = true ∧ e.flag CLK_STAT CLK_STAT_LOCK = true := by
  refine after_of (e := d.fallbackBegun.fellOver) (gives_of_awake (exec_fallbackRelock ..) hon ?_) ?_
  · rw [if_neg (by simp [hs, he, hr, hn]), Dev.fellOver, Dev.fallbackBegun]
  obtain ⟨hclk, hfall, hlock⟩ := d.fallbackBegun_shows
  have hview := d.fallbackBegun.rootView_fellOver
  generalize d.fallbackBegun.fellOver = e at *
  generalize d.fallbackBegun = b at *
  have hreg := Dev.reg_of_rootView hview (a := CLK_STAT) (by decide)
  exact ⟨(congrArg ClockSt.stopped (Dev.clk_of_rootView hview)).trans hclk, (Dev.flag_of_reg hreg _).trans hfall, (Dev.flag_of_reg hreg _).trans hlock⟩

/-! ### RESTORE and the relock (R56) -/

theorem Dev.reg_plainWrite_other {a b : Nat} (v : Word) (h : b ≠ a) : (d.plainWrite a v).reg b = d.reg b := by
  unfold Dev.plainWrite
  split
  · exact Dev.reg_setReg_other _ _ _ _ h
  · rfl

/-- The root clock has stopped for a restore. -/
def Dev.restoreStarted (d : Dev) : Dev :=
  Dev.put { d with clk := { d.clk with stopped := true, restoring := true } } CLK_STAT CLK_STAT_LOCK 0

theorem Dev.failcfgWrite_restores {v : Word} (hv : getF v CLK_FAILCFG_RESTORE = 1) (h : d.flag CLK_STAT CLK_STAT_REFOK = true) :
    d.failcfgWrite v = (d.plainWrite CLK_FAILCFG v).restoreStarted := by
  have hok : (d.plainWrite CLK_FAILCFG v).flag CLK_STAT CLK_STAT_REFOK = true := (Dev.flag_of_reg (d.reg_plainWrite_other v (by decide)) _).trans h
  unfold Dev.failcfgWrite
  exact if_pos ⟨hv, hok⟩

theorem Dev.restoreStarted_shows : d.restoreStarted.clk.stopped = true ∧ d.restoreStarted.clk.restoring = true ∧ d.restoreStarted.flag CLK_STAT CLK_STAT_LOCK = false :=
  ⟨rfl, rfl, Dev.flag_put_zero _ _ (by decide) (by decide)⟩

theorem after_restore {c : Fin 7} {v : Word} (ho : BusOpen ⟨d, q⟩ c CLK_FAILCFG true) (h : d.flag CLK_STAT CLK_STAT_REFOK = true) : After (.restore c v) ⟨d, q⟩ fun e =>
    e.clk.stopped = true ∧ e.clk.restoring = true ∧ e.flag CLK_STAT CLK_STAT_LOCK = false := by
  have hv : getF (setF v CLK_FAILCFG_RESTORE 1) CLK_FAILCFG_RESTORE = 1 := getF_setF_same _ _ _ (by decide) (by decide)
  refine after_of (gives_of_runCore rfl ho (exec_restore ..) (d.failcfgWrite_restores hv h)) ?_
  have hs := (d.plainWrite CLK_FAILCFG (setF v CLK_FAILCFG_RESTORE 1)).restoreStarted_shows
  generalize (d.plainWrite CLK_FAILCFG (setF v CLK_FAILCFG_RESTORE 1)).restoreStarted = e at *
  exact hs

/-- The root clock runs on the reference again. -/
def Dev.relocked (d : Dev) : Dev :=
  let c : ClockSt := { d.clk with stopped := false, restoring := false, episode := false }
  (Dev.put { d with clk := c } CLK_STAT CLK_STAT_FALLBACK 0).put CLK_STAT CLK_STAT_LOCK 1

theorem Dev.clk_put (a : Nat) (f : Fld) (n : Nat) : (d.put a f n).clk = d.clk := rfl

theorem Dev.relocked_runs : d.relocked.clk.stopped = false ∧ d.relocked.clk.restoring = false ∧ d.relocked.clk.episode = false := by
  rw [Dev.relocked, Dev.clk_put, Dev.clk_put]
  exact ⟨rfl, rfl, rfl⟩

theorem Dev.clk_requeued : ((d.relocked.calRequeue 0).calRequeue 1).clk = d.relocked.clk :=
  Dev.clk_of_rootView ((Dev.rootView_calRequeue _ 1).trans (d.relocked.rootView_calRequeue 0))

theorem gives_restoreRelock (hon : d.pwr.off = false) (h : d.clk.restoring = true) :
    Gives .restoreRelock ⟨d, q⟩ ((d.relocked.calRequeue 0).calRequeue 1) := by
  have hbody : (if !d.clk.restoring then d else (d.relocked.calRequeue 0).calRequeue 1) = (d.relocked.calRequeue 0).calRequeue 1 := by
    rw [h, Bool.not_true, if_neg Bool.false_ne_true]
  exact gives_of_awake (exec_restoreRelock ..) hon hbody

/-- A fact of the clocks carries over to the state that a step leaves. -/
theorem after_of_clk {i : Instr} {e : Dev} {P : ClockSt → Prop} (h : Gives i ⟨d, q⟩ e) (hp : P e.clk) : After i ⟨d, q⟩ fun e => P e.clk := after_of h hp

theorem after_restoreRelock (hon : d.pwr.off = false) (h : d.clk.restoring = true) : After .restoreRelock ⟨d, q⟩ fun e =>
    e.clk.stopped = false ∧ e.clk.restoring = false ∧ e.clk.episode = false := by
  refine after_of_clk (P := fun c => c.stopped = false ∧ c.restoring = false ∧ c.episode = false) (gives_restoreRelock hon h) ?_
  rw [d.clk_requeued]
  exact d.relocked_runs

theorem gives_refCountWindow_good {n : BitVec 16} (hon : d.pwr.off = false) (h1 : 29700 ≤ n.toNat) (h2 : n.toNat ≤ 30300) :
    Gives (.refCountWindow n) ⟨d, q⟩ ((d.put CLK_STAT CLK_STAT_REFCNT n.toNat).putB CLK_STAT CLK_STAT_REFOK true) := by
  refine gives_of_awake (exec_refCountWindow ..) hon ?_
  dsimp only
  rw [decide_eq_true (⟨h1, h2⟩ : 29700 ≤ n.toNat ∧ n.toNat ≤ 30300), if_pos rfl]

theorem gives_refCountWindow_bad {n : BitVec 16} (hon : d.pwr.off = false) (h : n.toNat < 29700 ∨ 30300 < n.toNat) (he : d.clk.episode = true) :
    Gives (.refCountWindow n) ⟨d, q⟩ ((d.put CLK_STAT CLK_STAT_REFCNT n.toNat).putB CLK_STAT CLK_STAT_REFOK false) := by
  refine gives_of_awake (exec_refCountWindow ..) hon ?_
  dsimp only
  rw [decide_eq_false (by omega : ¬ (29700 ≤ n.toNat ∧ n.toNat ≤ 30300)), if_neg Bool.false_ne_true]
  exact Dev.refFail_idle _ (.inl he)

/-! ### The low-frequency crystal (R57) -/

/-- The failure of the crystal is told. -/
def Dev.crystalLost (d : Dev) : Dev :=
  let d := (d.put CLK_STAT CLK_STAT_LFFAIL 1).put RTC_STAT RTC_STAT_OSCSTOP 1
  let d := d.report 33 0 2 (BitVec.ofNat 32 (d.get CLK_STAT CLK_STAT_REFCNT)) []
  { d with clk := { d.clk with lfPend := true } }

theorem Dev.flag_setClk (c : ClockSt) (a : Nat) (f : Fld) : Dev.flag { d with clk := c } a f = d.flag a f := rfl

theorem Dev.crystalLost_shows : d.crystalLost.clk.lfPend = true ∧ d.crystalLost.flag CLK_STAT CLK_STAT_LFFAIL = true ∧
    d.crystalLost.flag RTC_STAT RTC_STAT_OSCSTOP = true := by
  unfold Dev.crystalLost
  dsimp only
  refine ⟨rfl, ?_, ?_⟩
  · rw [Dev.flag_setClk, Dev.flag_of_reg (Dev.reg_report _ _ _ _ _ _ (by decide)), Dev.flag_put_other _ _ _ _ _ _ (by decide), Dev.flag_put_one _ _ (by decide) (by decide)]
  · rw [Dev.flag_setClk, Dev.flag_of_reg (Dev.reg_report _ _ _ _ _ _ (by decide)), Dev.flag_put_one _ _ (by decide) (by decide)]

theorem after_lfCrystalFailure (hon : d.pwr.off = false) (hsub : d.flag CLK_STAT CLK_STAT_LFSUB = false) (hpend : d.clk.lfPend = false)
    (hrun : d.get PWR_STAT PWR_STAT_STATE = 3 ∨ (d.clk.rootUp = true ∧ d.clk.stopped = false)) : After .lfCrystalFailure ⟨d, q⟩ fun e =>
      e.clk.lfPend = true ∧ e.flag CLK_STAT CLK_STAT_LFFAIL = true ∧ e.flag RTC_STAT RTC_STAT_OSCSTOP = true := by
  refine after_of (e := d.crystalLost) (gives_of_awake (exec_lfCrystalFailure ..) hon (if_neg ?_)) ?_
  · rcases hrun with h | ⟨hu, hs⟩
    · simp [hsub, hpend, h]
    · simp [hsub, hpend, hu, hs]
  · have h := d.crystalLost_shows
    generalize d.crystalLost = e at *
    exact h

theorem gives_lfCrystalFailure_not (hst : d.get PWR_STAT PWR_STAT_STATE ≠ 3) (h : d.clk.rootUp = false ∨ d.clk.stopped = true) : Gives .lfCrystalFailure ⟨d, q⟩ d := by
  refine gives_of_awake_keep (exec_lfCrystalFailure ..) (if_pos (.inr (.inr ⟨hst, ?_⟩)))
  rcases h with h | h
  · exact .inl (by simp [h])
  · exact .inr h

end

/-! ### The release of the reset (R25, R49) -/

/-- The state that start-up enters as the reset is released. -/
def Dev.released (d : Dev) (atn : Bool) : Dev :=
  let d := { d with pwr := { d.pwr with phase := .running, pins := .notSown, pinLow := false }, svc := { d.svc with atn := atn } }
  ((d.setResv (resvCore 0) 27).setResv (resvCore 6) 27).putB SVC_STAT SVC_STAT_ATN atn

/-- What the release shows. -/
def Dev.AtRelease (d : Dev) (atn : Bool) : Prop :=
  d.pwr.phase = .running ∧ d.pwr.pins = .notSown ∧ d.svc.atn = atn ∧ d.flag SVC_STAT SVC_STAT_ATN = atn ∧ d.resvOf (resvCore 0) = 27 ∧ d.resvOf (resvCore 6) = 27

theorem Dev.released_shows (atn : Bool) : (d.released atn).AtRelease atn := by
  have hresv : (d.released atn).pwr.resv = sset 0 (sset 0 d.pwr.resv (resvCore 0) 27) (resvCore 6) 27 := rfl
  refine ⟨rfl, rfl, rfl, Dev.flag_putB _ _ _ (by decide) (by decide), ?_, ?_⟩
  · rw [Dev.resvOf, hresv, sget_sset, if_neg (by decide), sget_sset, if_pos rfl]
  · rw [Dev.resvOf, hresv, sget_sset, if_pos rfl]

/-- What the power monitor takes away at once it takes from levels alone. -/
theorem Dev.forceP3_frame {β : Type} {g : Dev → β} (hreg : ∀ (e : Dev) (c : Nat) (v : Word), c < 7 → g (e.setReg (PWR_PLEVEL c) v) = g e)
    (hrun : ∀ e : Dev, g { e with pwr := { e.pwr with lvlRun := none } } = g e) : g d.forceP3 = g d := by
  unfold Dev.forceP3
  dsimp only
  refine foldl_keeps (P := fun e => g e = g d) (fun e c hc he => ?_) _ ?_
  · have hlt : c < 7 := (mem_span.mp (List.mem_filter.mp hc).1).2
    exact (hreg _ c _ hlt).trans ((hreg _ c _ hlt).trans ((hreg _ c _ hlt).trans he))
  · split
    · rfl
    · exact hrun d

theorem Dev.forceP3_atRelease {atn : Bool} (h : d.AtRelease atn) : d.forceP3.AtRelease atn := by
  have hphase := d.forceP3_frame (g := fun e => e.pwr.phase) (fun _ _ _ _ => rfl) fun _ => rfl
  have hpins := d.forceP3_frame (g := fun e => e.pwr.pins) (fun _ _ _ _ => rfl) fun _ => rfl
  have hatn := d.forceP3_frame (g := fun e => e.svc.atn) (fun _ _ _ _ => rfl) fun _ => rfl
  have hresv := d.forceP3_frame (g := fun e => e.pwr.resv) (fun _ _ _ _ => rfl) fun _ => rfl
  have hstat := d.forceP3_frame (g := fun e => e.reg SVC_STAT) (fun e c v hc => e.reg_setReg_other _ _ v (by unfold SVC_STAT PWR_PLEVEL; omega)) fun _ => rfl
  generalize d.forceP3 = e at *
  obtain ⟨h1, h2, h3, h4, h5, h6⟩ := h
  refine ⟨hphase.trans h1, hpins.trans h2, hatn.trans h3, (Dev.flag_of_reg hstat _).trans h4, ?_, ?_⟩
  · rw [Dev.resvOf, hresv]
    exact h5
  · rw [Dev.resvOf, hresv]
    exact h6

section
variable {d} {q : List Instr}

theorem after_resetRelease {reads : List (Word × Word)} {atn : Bool} (h : d.pwr.phase = .locked) : After (.resetRelease reads (atn, false)) ⟨d, q⟩ fun e =>
    e.pwr.phase = .running ∧ e.pwr.pins = .notSown ∧ e.svc.atn = atn ∧ e.flag SVC_STAT SVC_STAT_ATN = atn ∧ e.resvOf (resvCore 0) = 27 ∧ e.resvOf (resvCore 6) = 27 := by
  obtain ⟨r, hr⟩ : ∃ r, r = ((d.readFuses reads).meshReload).released atn := ⟨_, rfl⟩
  refine after_of (e := r.when (r.flag PWR_MON PWR_MON_OVER) Dev.forceP3) (gives_of_on (exec_resetRelease ..) ?_) ?_
  · rw [hr]
    exact if_neg (by simp [h])
  · have hshow := Dev.released_shows (d.readFuses reads).meshReload atn
    rw [← hr] at hshow
    have hend : (r.when (r.flag PWR_MON PWR_MON_OVER) Dev.forceP3).AtRelease atn := by
      unfold Dev.when
      split
      · exact r.forceP3_atRelease hshow
      · exact hshow
    generalize r.when (r.flag PWR_MON PWR_MON_OVER) Dev.forceP3 = e at *
    exact hend

end

end

/-! ### The root PLL and the dies (R8, R9, R49) -/

section
variable {d : Dev} {q : List Instr}

theorem gives_rootPllLock_up (h : d.pwr.phase = .rails) : Gives (.rootPllLock true true) ⟨d, q⟩
    (Dev.put { d with pwr := { d.pwr with phase := .locked }, clk := { d.clk with rootUp := true } } CLK_STAT CLK_STAT_LOCK 1) :=
  gives_of_on (exec_rootPllLock ..) (if_neg (by simp [h]))

/-- A die that a step has isolated stays so in the state that the step leaves. -/
theorem after_of_isolated {i : Instr} {e : Dev} {k : Nat} (h : Gives i ⟨d, q⟩ e) (hiso : e.isoOf k = true) : After i ⟨d, q⟩ fun e => e.isoOf k = true :=
  after_of h (Dev.isolated_settled (n := e.failsOf k) ⟨hiso, rfl⟩).1

theorem after_rootPllLock_lost (h : d.pwr.phase = .rails) : After (.rootPllLock false true) ⟨d, q⟩ fun e => e.isoOf 1 = true :=
  after_of_isolated (gives_of_on (exec_rootPllLock ..) (if_neg (by simp [h]))) (Dev.isolate_isolated _ (.inl rfl)).1

theorem gives_rfDieResow (hon : d.pwr.off = false) (hstale : d.pwr.rfStale = true) (hpins : d.pwr.pins = .sown) (hiso : d.pwr.rfIso = false)
    (hrst : d.pwr.rfReset = false) (hstop : d.clk.stopped = false) :
    Gives .rfDieResow ⟨d, q⟩ { d.radioAgain with pwr := { d.radioAgain.pwr with femDriven := true, rfStale := false } } :=
  gives_of_awake (exec_rfDieResow ..) hon (if_neg (by simp [hstale, hpins, hiso, hrst, hstop]))

theorem gives_substituteSwitch (hon : d.pwr.off = false) (hp : d.clk.lfPend = true) (hu : d.clk.rootUp = true) (hs : d.clk.stopped = false) :
    Gives .substituteSwitch ⟨d, q⟩ (Dev.put { d with clk := { d.clk with lfPend := false } } CLK_STAT CLK_STAT_LFSUB 1) :=
  gives_of_awake (exec_substituteSwitch ..) hon (if_pos (by simp [hp, hu, hs]))

section
variable {die : Fin 2}

theorem gives_interDieTransfer_ok (h : d.isoOf (die + 1) = false) : Gives (.interDieTransfer die true) ⟨d, q⟩ (d.setFails (die + 1) 0) :=
  gives_of_run rfl (exec_interDieTransfer ..) ((if_neg (by simp [h])).trans (if_pos rfl))

theorem gives_interDieTransfer_fails (h : d.isoOf (die + 1) = false) (hn : d.failsOf (die + 1) < 7) :
    Gives (.interDieTransfer die false) ⟨d, q⟩ (d.setFails (die + 1) (d.failsOf (die + 1) + 1)) := by
  have hfew : d.failsOf (die + 1) + 1 < 8 := by omega
  exact gives_of_run rfl (exec_interDieTransfer ..) ((if_neg (by simp [h])).trans ((if_neg Bool.false_ne_true).trans (if_pos hfew)))

theorem gives_isolated (h : d.isoOf (die + 1) = true) : Gives (.interDieTransfer die false) ⟨d, q⟩ d ∧ Gives (.linkLost die) ⟨d, q⟩ d :=
  ⟨gives_of_run rfl (exec_interDieTransfer ..) (if_pos (by simp [h])), gives_of_run rfl (exec_linkLost ..) (if_pos (by simp [h]))⟩

end

end

/-- Settles O9, event by event: a gated domain keeps every register, the root clock stops and locks again with its flags, and a die is isolated by the
eighth failure of a run. -/
theorem clocksAndStartUp : Obligations.ClocksAndStartUp := by
  unfold Obligations.ClocksAndStartUp
  refine ⟨fun d q c i n v => ⟨after_domainGate, gives_domainGate_not, after_domainWake, after_referenceFailure, fun h => ?_, fun h => ?_, after_fallbackRelock,
    gives_refCountWindow_good, gives_refCountWindow_bad, after_restore, after_restoreRelock, after_lfCrystalFailure, gives_lfCrystalFailure_not,
    gives_substituteSwitch⟩, fun d q die reads atn => ⟨gives_interDieTransfer_ok, gives_interDieTransfer_fails, after_interDieTransfer, after_linkLost,
    gives_isolated, fun hon => ?_, gives_rfDieResow, gives_rootPllLock_up, after_rootPllLock_lost, fun _ => ?_, after_resetRelease⟩⟩
  · exact gives_of_awake_keep (exec_referenceFailure ..) (d.refFail_idle (.inl h))
  · exact gives_of_awake_keep (exec_referenceFailure ..) (d.refFail_idle (.inr h))
  · exact gives_of_awake (exec_rfDieResetEnd ..) hon rfl
  · exact gives_of_on (exec_resetRelease ..) (if_pos (.inr rfl))

end Sys2Proof.Machine
end

section
/-! What a system reset leaves: the dies reborn, the recorded sources, mesh time and the registers that are not kept (R47, R198, Tables 2.6 and 2.7). -/

namespace Sys2Proof.Machine

section
variable (d : Dev)

/-! ### What INSPECT keeps -/

/-- A part of the device that neither the contactless controller, the supply's pins, nor a flash engine is. -/
theorem Dev.inspectKeeps_frame {β : Type} {g : Dev → β} (hnfc : ∀ (e : Dev) x p, g { e with nfc := x, pwr := { e.pwr with pins := p } } = g e)
    (hstat : ∀ (e : Dev) n, g (e.put PWR_STAT PWR_STAT_STATE n) = g e) (heng : ∀ e : Dev, g (e.engBegin 2) = g e) (e : Dev) :
    g (d.inspectKeeps e) = g e := by
  unfold Dev.inspectKeeps
  split
  · dsimp only
    exact (Dev.when_frame (heng _)).trans ((hstat _ _).trans (hnfc e _ _))
  · rfl

theorem Dev.inspectKeeps_off {e : Dev} (h : d.inspecting = false) : d.inspectKeeps e = e := if_neg (by simp [h])

theorem Dev.inspectKeeps_cores (e : Dev) : (d.inspectKeeps e).cores = e.cores := d.inspectKeeps_frame (g := Dev.cores) (fun _ _ _ => rfl) (fun _ _ => rfl) (fun _ => rfl) e

theorem Dev.inspectKeeps_sow (e : Dev) : (d.inspectKeeps e).sow = e.sow := d.inspectKeeps_frame (g := Dev.sow) (fun _ _ _ => rfl) (fun _ _ => rfl) (fun _ => rfl) e

theorem Dev.inspectKeeps_clk (e : Dev) : (d.inspectKeeps e).clk = e.clk := d.inspectKeeps_frame (g := Dev.clk) (fun _ _ _ => rfl) (fun _ _ => rfl) (fun _ => rfl) e

theorem Dev.inspectKeeps_reg (e : Dev) {a : Nat} (hp : a ≠ PWR_STAT) (hf : a ≠ FLC_STAT 2) : (d.inspectKeeps e).reg a = e.reg a :=
  d.inspectKeeps_frame (g := fun e => e.reg a) (fun _ _ _ => rfl) (fun e n => e.reg_put_other _ _ _ _ hp) (fun e => (e.engBegin_same 2).reg a (by simpa using hf)) e

theorem Dev.inspectKeeps_held (e : Dev) : (d.inspectKeeps e).pwr.phase = e.pwr.phase ∧ (d.inspectKeeps e).pwr.brownOut = e.pwr.brownOut :=
  ⟨d.inspectKeeps_frame (g := fun e => e.pwr.phase) (fun _ _ _ => rfl) (fun _ _ => rfl) (fun _ => rfl) e,
    d.inspectKeeps_frame (g := fun e => e.pwr.brownOut) (fun _ _ _ => rfl) (fun _ _ => rfl) (fun _ => rfl) e⟩

/-! ### The reset of the dies (Tables 2.6, 2.7) -/

theorem kept_RSTREC : keptAtReset SYS_RSTREC = true := by decide

/-- The dies that come out of a cut with the parts that a reset keeps. -/
def Dev.reborn (d : Dev) (rtc : Nat) : Dev :=
  { Dev.reset with
    regs := d.regs.filter (fun e => keptAtReset e.1)
    mem := d.mem
    memErr := d.memErr
    asyncL := d.asyncL
    aont := d.aont
    clk := d.clk.afterReset rtc
    pwr := d.pwr.afterReset
    rdata := d.rdata
    gates := d.gates
    fuse := d.fuse
    fuseRead := d.fuseRead
    fuseBad := d.fuseBad
    blown := d.blown
    flWeak := d.flWeak
    wins := d.wins
    flErr := d.flErr
    flFlag := d.flFlag
    flRow := d.flRow
    lgr := { LgrSt.init with opened := d.lgr.opened }
    erlNext := d.erlNext
    freeCtr := d.freeCtr }

/-- The root clock is not locked as the dies are reborn. -/
def Dev.unlocked (d : Dev) : Dev := ((d.put CLK_STAT CLK_STAT_LOCK 0).put CLK_STAT CLK_STAT_FALLBACK 0).put CLK_STAT CLK_STAT_LFSUB 0

theorem Dev.resetDies_eq : d.resetDies = d.inspectKeeps (d.txAllStop.dieCut.reborn d.rtcT).unlocked := rfl

theorem Dev.reborn_reg (rtc a : Nat) : (d.reborn rtc).reg a = if keptAtReset a then d.reg a else regReset a := sget_filter _ _ _ _

theorem Dev.unlocked_reg {a : Nat} (h : a ≠ CLK_STAT) : d.unlocked.reg a = d.reg a := by
  unfold Dev.unlocked
  rw [Dev.reg_put_other _ _ _ _ _ h, Dev.reg_put_other _ _ _ _ _ h, Dev.reg_put_other _ _ _ _ _ h]

theorem Dev.unlocked_LOCK : d.unlocked.get CLK_STAT CLK_STAT_LOCK = 0 := by
  unfold Dev.unlocked
  rw [Dev.get_put_field _ _ _ _ _ (by decide) (by decide) (by decide), Dev.get_put_field _ _ _ _ _ (by decide) (by decide) (by decide),
    Dev.get_put_same _ _ _ _ (by decide) (by decide)]
  rfl

theorem Dev.resetDies_core (c : Fin 7) : d.resetDies.core c = CoreSt.init := by
  have hcores : d.resetDies.cores = Vector.replicate 7 CoreSt.init := by
    rw [Dev.resetDies_eq, Dev.inspectKeeps_cores]
    rfl
  rw [Dev.core, hcores]
  exact Vector.getElem_replicate c.isLt

theorem Dev.resetDies_sow : d.resetDies.sow = SowSt.init := by
  rw [Dev.resetDies_eq, Dev.inspectKeeps_sow]
  rfl

theorem Dev.rootView_stopped : d.txAllStop.dieCut.rootView = d.rootView := (Dev.rootView_dieCut _).trans d.rootView_txAllStop

theorem Dev.resetDies_mesh : d.resetDies.clk.mesh = if atOrPast d.rtcT d.meshNow then BitVec.ofNat 64 d.rtcT else d.clk.mesh := by
  have hclk : d.resetDies.clk = d.txAllStop.dieCut.clk.afterReset d.rtcT := by
    rw [Dev.resetDies_eq, Dev.inspectKeeps_clk]
    rfl
  rw [hclk, Dev.clk_of_rootView d.rootView_stopped, ClockSt.afterReset, Dev.meshNow]
  dsimp only
  split
  · rfl
  · exact (BitVec.ofNat_toNat ..).trans (BitVec.setWidth_eq _)

theorem Dev.resetDies_RSTREC : d.resetDies.reg SYS_RSTREC = d.reg SYS_RSTREC := by
  rw [Dev.resetDies_eq, Dev.inspectKeeps_reg _ _ (by decide) (by decide), Dev.unlocked_reg _ (by decide), Dev.reborn_reg, kept_RSTREC, if_pos rfl]
  exact Dev.reg_of_rootView d.rootView_stopped (by decide)

theorem Dev.resetDies_reg {a : Nat} (hk : keptAtReset a = false) (hi : d.inspecting = false) (ha : a ≠ CLK_STAT) : d.resetDies.reg a = regReset a := by
  rw [Dev.resetDies_eq, d.inspectKeeps_off hi, Dev.unlocked_reg _ ha, Dev.reborn_reg, hk, if_neg Bool.false_ne_true]

theorem Dev.resetDies_LOCK : d.resetDies.get CLK_STAT CLK_STAT_LOCK = 0 := by
  rw [Dev.resetDies_eq, Dev.get, Dev.inspectKeeps_reg _ _ (by decide) (by decide)]
  exact Dev.unlocked_LOCK _

/-! ### Which source was first (R47) -/

variable {d}

theorem Dev.noteFirst_frame {β : Type} {g : Dev → β} (hput : ∀ (e : Dev) n, g (e.put SYS_RSTREC SYS_RSTREC_FIRST n) = g e)
    (hcyc : ∀ (e : Dev) x, g { e with pwr := { e.pwr with rstCyc := x } } = g e) (d : Dev) (code : Nat) : g (d.noteFirst code) = g d := by
  unfold Dev.noteFirst
  split
  · exact hput _ _
  · split
    · rfl
    · exact (hput _ _).trans (hcyc _ _)

theorem Dev.noteFirst_clk (code : Nat) : (d.noteFirst code).clk = d.clk := Dev.noteFirst_frame (g := Dev.clk) (fun _ _ => rfl) (fun _ _ => rfl) d code

theorem Dev.noteFirst_reg (code : Nat) {a : Nat} (h : a ≠ SYS_RSTREC) : (d.noteFirst code).reg a = d.reg a :=
  Dev.noteFirst_frame (g := fun e => e.reg a) (fun e _ => e.reg_put_other _ _ _ _ h) (fun _ _ => rfl) d code

theorem Dev.get_FIRST {n : Nat} (h : n < 16) : (d.put SYS_RSTREC SYS_RSTREC_FIRST n).get SYS_RSTREC SYS_RSTREC_FIRST = n :=
  (d.get_put_same _ _ _ (by decide) (by decide)).trans (Nat.mod_eq_of_lt h)

theorem Dev.noteFirst_new {code : Nat} (hc : code < 7) (hp : d.pwr.phase ≠ .held) (hr : d.pwr.rstCyc ≠ some d.clk.cyc) :
    (d.noteFirst code).get SYS_RSTREC SYS_RSTREC_FIRST = code := by
  rw [Dev.noteFirst, if_neg hr, if_neg hp]
  exact Dev.get_FIRST (by omega)

theorem Dev.noteFirst_held {code : Nat} (hp : d.pwr.phase = .held) (hr : d.pwr.rstCyc ≠ some d.clk.cyc) : d.noteFirst code = d := by
  rw [Dev.noteFirst, if_neg hr, if_pos hp]

theorem Dev.noteFirst_same {code : Nat} (hc : code < 7) (hr : d.pwr.rstCyc = some d.clk.cyc) :
    (d.noteFirst code).get SYS_RSTREC SYS_RSTREC_FIRST = min (d.get SYS_RSTREC SYS_RSTREC_FIRST) code := by
  rw [Dev.noteFirst, if_pos hr]
  exact Dev.get_FIRST (by omega)

/-! ### A system reset (R47, R198) -/

theorem rstBit_narrow (code : Nat) : (rstBit code).hi = (rstBit code).lo ∧ (rstBit code).hi < 28 := by
  unfold rstBit
  split <;> decide

theorem Dev.systemReset_bit (code : Nat) : (d.systemReset code).get SYS_RSTREC (rstBit code) = 1 := by
  obtain ⟨hone, hlow⟩ := rstBit_narrow code
  rw [Dev.systemReset, Dev.get_put_same _ _ _ _ (by omega) (by omega), Fld.width, hone, Nat.sub_add_comm (Nat.le_refl _), Nat.sub_self] <;> rfl


theorem Dev.systemReset_FIRST (code : Nat) : (d.systemReset code).get SYS_RSTREC SYS_RSTREC_FIRST = (d.noteFirst code).get SYS_RSTREC SYS_RSTREC_FIRST := by
  obtain ⟨hone, hlow⟩ := rstBit_narrow code
  rw [Dev.systemReset, Dev.get_put_field _ _ _ _ _ (by omega) (by omega) (.inr hlow), Dev.get, Dev.resetDies_RSTREC, Dev.get]

theorem Dev.systemReset_mesh (code : Nat) : (d.systemReset code).clk.mesh = if atOrPast d.rtcT d.meshNow then BitVec.ofNat 64 d.rtcT else d.clk.mesh := by
  have hrtc : (d.noteFirst code).rtcT = d.rtcT := by
    rw [Dev.rtcT, Dev.pair, d.noteFirst_reg code (by decide), d.noteFirst_reg code (by decide)]
    rfl
  have hmesh := (d.noteFirst code).resetDies_mesh
  rw [Dev.meshNow, hrtc, d.noteFirst_clk code] at hmesh
  exact hmesh

theorem Dev.systemReset_reg (code : Nat) {a : Nat} (hk : keptAtReset a = false) (hi : d.inspecting = false) (ha : a ≠ CLK_STAT) (hr : a ≠ SYS_RSTREC) :
    (d.systemReset code).reg a = regReset a := by
  have hnot : (d.noteFirst code).inspecting = false := by
    rw [Dev.inspecting, Dev.get, d.noteFirst_reg code (by decide)]
    exact hi
  rw [Dev.systemReset, Dev.reg_put_other _ _ _ _ _ hr, Dev.resetDies_reg _ hk hnot ha]

theorem Dev.systemReset_LOCK (code : Nat) : (d.systemReset code).get CLK_STAT CLK_STAT_LOCK = 0 := by
  rw [Dev.systemReset, Dev.get_put_other _ _ _ _ _ _ (by decide)]
  exact Dev.resetDies_LOCK _

end

end Sys2Proof.Machine
end

section
/-! The sources of a reset and their releases, and the dies that power comes to (R38, R47, Table 2.8): systemResets. -/

namespace Sys2Proof.Machine

section
variable {d : Dev} {q : List Instr}

/-! ### The supply, the sensor and the pin (R38, R47) -/

theorem gives_brownOut_on (hon : d.pwr.off = false) (hi : d.inspecting = false) :
    Gives .brownOut ⟨d, q⟩ { d.systemReset 1 with pwr := { (d.systemReset 1).pwr with brownOut := true } } := by
  refine gives_of_on (exec_brownOut ..) ?_
  dsimp only
  rw [hon, hi, Bool.or_self, if_neg Bool.false_ne_true]

theorem gives_brownOut_off (h : d.pwr.off = true ∨ d.inspecting = true) : Gives .brownOut ⟨d, q⟩ { d with pwr := { d.pwr with brownOut := true } } := by
  refine gives_of_on (exec_brownOut ..) ?_
  dsimp only
  rw [if_pos (Bool.or_eq_true_iff.mpr h)]

theorem Dev.vinBack_powered (hi : d.inspecting = false) (hp : d.pwr.pins ≠ .unpowered) :
    d.vinBack = Dev.startUp { d with pwr := { d.pwr with brownOut := false } } := by
  unfold Dev.vinBack
  dsimp only
  rw [hi, if_neg Bool.false_ne_true, if_neg hp, Bool.false_and, if_neg Bool.false_ne_true, Bool.not_false, Bool.and_true]

/-- The device that has left INSPECT. -/
def Dev.OutOfInspect (d : Dev) : Prop := d.inspecting = false ∧ d.pwr.brownOut = false ∧ d.pwr.off = false ∧ d.pwr.pins ≠ .unpowered

theorem Dev.startUp_outOfInspect (h : d.OutOfInspect) : d.startUp.OutOfInspect := by
  unfold Dev.startUp
  split
  · exact h
  · exact h

theorem Dev.vinBack_outOfInspect (hi : d.inspecting = true) : d.vinBack.OutOfInspect := by
  unfold Dev.vinBack
  dsimp only
  rw [hi, if_pos rfl]
  have hstate : (d.noteCut.put PWR_STAT PWR_STAT_STATE 0).get PWR_STAT PWR_STAT_STATE = 0 := Dev.get_put_same _ _ _ _ (by decide) (by decide)
  generalize d.noteCut.put PWR_STAT PWR_STAT_STATE 0 = e at *
  refine Dev.startUp_outOfInspect ⟨decide_eq_false fun h => ?_, rfl, Bool.and_false _, ?_⟩
  · have hfive : e.get PWR_STAT PWR_STAT_STATE = 5 := h
    omega
  · dsimp only
    split
    · exact PinCond.noConfusion
    · assumption

theorem after_brownOutRelease (hi : d.inspecting = true) : After .brownOutRelease ⟨d, q⟩ fun e =>
    e.inspecting = false ∧ e.pwr.brownOut = false ∧ e.pwr.off = false ∧ e.pwr.pins ≠ .unpowered := by
  refine after_of (gives_of_on (exec_brownOutRelease ..) rfl) ?_
  have hout := Dev.vinBack_outOfInspect hi
  generalize d.vinBack = e at *
  exact hout

theorem gives_resetPin_on (hon : d.pwr.off = false) : Gives .resetPin ⟨d, q⟩ (Dev.systemReset { d with pwr := { d.pwr with pinLow := true } } 4).startUp :=
  gives_of_on (exec_resetPin ..) (if_neg (by simp [hon]))

theorem gives_resetPin_off (hoff : d.pwr.off = true) : Gives .resetPin ⟨d, q⟩
    (Dev.startUp { d.put SYS_RSTREC SYS_RSTREC_PIN 1 with pwr := { d.pwr with pinLow := true, off := false, fields := PowerSt.init.fields } }) :=
  gives_of_on (exec_resetPin ..) (if_pos hoff)

/-! ### The control register of the resets (Table 2.8) -/

theorem rstctlWrite_SYSRST : d.rstctlWrite 0x5A000001 = (d.systemReset 6).startUp := by
  rw [Dev.rstctlWrite, if_neg (by decide), if_pos (by decide), Dev.resetPulse]

theorem rstctlWrite_RFDIE : d.rstctlWrite 0x5A000002 = d.rfDie := by
  have hrf : decide (getF (0x5A000002 : Word) SYS_RSTCTL_RFDIE = 1) = true := by decide
  have hfl : decide (getF (0x5A000002 : Word) SYS_RSTCTL_FLDIE = 1) = false := by decide
  rw [Dev.rstctlWrite, if_neg (by decide), if_neg (by decide), hrf, hfl]
  rfl

theorem rstctlWrite_FLDIE : d.rstctlWrite 0x5A000004 = d.flDie := by
  have hrf : decide (getF (0x5A000004 : Word) SYS_RSTCTL_RFDIE = 1) = false := by decide
  have hfl : decide (getF (0x5A000004 : Word) SYS_RSTCTL_FLDIE = 1) = true := by decide
  rw [Dev.rstctlWrite, if_neg (by decide), if_neg (by decide), hrf, hfl]
  rfl

theorem gives_rstctl {c : Fin 7} (ho : BusOpen ⟨d, q⟩ c SYS_RSTCTL true) : Gives (.sysrst c) ⟨d, q⟩ (d.systemReset 6).startUp ∧
    Gives (.rfdie c) ⟨d, q⟩ d.rfDie ∧ Gives (.fldie c) ⟨d, q⟩ d.flDie :=
  ⟨gives_of_runCore rfl ho (exec_sysrst ..) rstctlWrite_SYSRST, gives_of_runCore rfl ho (exec_rfdie ..) rstctlWrite_RFDIE,
    gives_of_runCore rfl ho (exec_fldie ..) rstctlWrite_FLDIE⟩

theorem gives_rstctl_denied {c : Fin 7} {k : Nat} {w : Instr} (hc : d.coreActs c = true)
    (hk : d.periphCode c SYS_RSTCTL (decide (getF (d.core c).fl flU = 1)) true = some k) (hw : w ∈ [Instr.sysrst c, .rfdie c, .fldie c]) :
    Gives w ⟨d, q⟩ (d.enter c (busFault d c SYS_RSTCTL k true)) := by
  simp only [List.mem_cons, List.not_mem_nil, or_false] at hw
  rcases hw with rfl | rfl | rfl
  · exact gives_of_run rfl (exec_sysrst ..) (byCore_fault hc hk _)
  · exact gives_of_run rfl (exec_rfdie ..) (byCore_fault hc hk _)
  · exact gives_of_run rfl (exec_fldie ..) (byCore_fault hc hk _)

end

/-! ### The dies without power (Table 2.6) -/

section
variable (d : Dev)

/-- The dies as power comes to them. -/
def Dev.coldBorn (d : Dev) : Dev :=
  { Dev.reset with
    mem := d.mem.filter (fun e => isFlash e.1)
    clk := { ClockSt.init with cyc := d.clk.cyc }
    pwr := { PowerSt.init with rstCyc := some d.clk.cyc }
    rdata := d.rdata
    fuse := d.fuse
    fuseRead := d.fuseRead
    fuseBad := d.fuseBad
    blown := d.blown
    flWeak := d.flWeak
    wins := d.wins.map (fun (p : Nat × Win) => (p.1, { p.2 with ecount := 0 }))
    flErr := d.flErr
    flFlag := d.flFlag
    flRow := d.flRow
    lgr := { LgrSt.init with opened := d.lgr.opened }
    freeCtr := d.freeCtr }

theorem Dev.coldDies_eq : d.coldDies = d.inspectKeeps d.dieCut.coldBorn := rfl

theorem Dev.coldDies_held : d.coldDies.gatesCold.pwr.phase = .held ∧ d.coldDies.gatesCold.pwr.brownOut = true := by
  have hkept := d.inspectKeeps_held d.dieCut.coldBorn
  rw [← d.coldDies_eq] at hkept
  exact hkept

theorem Dev.coldDies_sow : d.coldDies.gatesCold.sow = SowSt.init := by
  have hkept := d.inspectKeeps_sow d.dieCut.coldBorn
  rw [← d.coldDies_eq] at hkept
  exact hkept

theorem Dev.coldDies_reg (a : Nat) (hi : d.inspecting = false) : d.coldDies.gatesCold.reg a = regReset a := by
  have hkept := d.inspectKeeps_off (e := d.dieCut.coldBorn) hi
  rw [← d.coldDies_eq] at hkept
  generalize d.coldDies = e at *
  subst hkept
  rfl

theorem Dev.coldDies_core (k : Fin 7) : d.coldDies.gatesCold.core k = CoreSt.init := by
  have hkept : d.coldDies.gatesCold.cores = Vector.replicate 7 CoreSt.init := by
    have hcores := d.inspectKeeps_cores d.dieCut.coldBorn
    rw [← d.coldDies_eq] at hcores
    exact hcores
  rw [Dev.core, hkept]
  exact Vector.getElem_replicate k.isLt

end

/-- Settles O8: the reset is one function of the source's code, taken apart into what it keeps and what it writes; each source is then an equation of its
own command. -/
theorem systemResets : Obligations.SystemResets := by
  unfold Obligations.SystemResets
  refine ⟨fun d code c a hcode => ⟨Dev.systemReset_bit code, fun hp hr => ?_, fun hp hr => ?_, fun hr => ?_, Dev.resetDies_core _ c, Dev.resetDies_sow _,
    Dev.systemReset_mesh code, Dev.systemReset_reg code, Dev.systemReset_LOCK code⟩, fun d q c => ⟨gives_brownOut_on, gives_brownOut_off, fun hon => ⟨?_, ?_⟩,
    fun hi hp => ?_, after_brownOutRelease, gives_resetPin_on, gives_resetPin_off, gives_rstctl, fun k w => gives_rstctl_denied, ?_, ?_,
    (d.coldDies_held).2, (d.coldDies_held).1, d.coldDies_sow, d.coldDies_reg, d.coldDies_core⟩⟩
  · exact (Dev.systemReset_FIRST code).trans (Dev.noteFirst_new hcode hp hr)
  · rw [Dev.systemReset_FIRST, Dev.noteFirst_held hp hr]
  · exact (Dev.systemReset_FIRST code).trans (Dev.noteFirst_same hcode hr)
  · exact gives_of_awake (exec_thermalShutdown ..) hon rfl
  · exact gives_of_awake (exec_thermalRelease ..) hon rfl
  · exact gives_of_on (exec_brownOutRelease ..) (Dev.vinBack_powered hi hp)
  · exact gives_of_on (exec_powerOnReset ..) rfl
  · exact gives_of_on (exec_alwaysOnRailCollapse ..) rfl

end Sys2Proof.Machine
end
